-- ==== Sys2Proof/Word.lean ====
section
/-! DEFINITION. The words of the LM-8128: the 32-bit register word of the fabric, the octet, the
16-bit half-word, and the named values that the spec counts in bits. Nothing here is arithmetic
that a rule of the spec governs: bit-field helpers stand in Machine/Bits.lean. -/

namespace Sys2Proof

/-- A 32-bit fabric word: the width of every register of a register page (R38, R39). -/
abbrev Word := BitVec 32

/-- An octet of memory. -/
abbrev Byte := BitVec 8

/-- A 16-bit half-word. -/
abbrev Half := BitVec 16

end Sys2Proof
end

