-- ==== Sys2Proof/Syntax.lean ====
section
/-! DEFINITION. The commands of the LM-8128: the operand types and the one inductive `Instr`, with one
constructor per row of the table of operations and events. -/

namespace Sys2Proof

/-- The initiators of accesses, with the identifiers 0 to 7 in this order (R14, R56). -/
inductive Initiator where
  | l0 | l1 | c0 | c1 | sec | host | debug | cas
  deriving DecidableEq, Repr

/-- The initiator's identifier. -/
def Initiator.id : Initiator → Nat
  | .l0 => 0 | .l1 => 1 | .c0 => 2 | .c1 => 3 | .sec => 4 | .host => 5 | .debug => 6 | .cas => 7

/-- A core (R269). -/
inductive Core where
  | l0 | l1 | c0 | c1
  deriving DecidableEq, Repr

def Core.id : Core → Nat
  | .l0 => 0 | .l1 => 1 | .c0 => 2 | .c1 => 3

def Core.ini : Core → Initiator
  | .l0 => .l0 | .l1 => .l1 | .c0 => .c0 | .c1 => .c1

/-- A link core. -/
def Core.link : Core → Bool
  | .l0 => true | .l1 => true | .c0 => false | .c1 => false

/-- What a stored 8-byte word has become in its medium since it was written (R372, R382): readable with
one bit to correct, or uncorrectable, each with the syndrome that a read finds, or good again. -/
inductive WordErr where
  | good
  | single (syndrome : BitVec 8)
  | double (syndrome : BitVec 8)
  | poison
  deriving DecidableEq, Repr

/-- A change of one stored word in its medium: a DRAM rank, or the internal flash; the number of the
8-byte word there, and what a read of it finds from now on. -/
structure Flip where
  rank : Option Nat
  wordNo : Nat
  err : WordErr
  deriving DecidableEq, Repr


/-- A receive path: a wideband channel, or the narrow path. -/
inductive RxChan where
  | wide (channel : Nat)
  | narrow
  deriving DecidableEq, Repr

/-- A PHR as decided: the 16 bits of a SUN FSK or long-reach PHR, bit 0 first on air; or, for the standard's
MR-O-QPSK frame (R126), whether the standard's PHR is valid and the length it gives. -/
inductive Phr where
  | bits (w : Half)
  | standard (valid : Bool) (len : Nat)
  deriving DecidableEq, Repr

/-- What the air has brought to a lane, by number (128 the narrow lane), when its frame is cut: the octets
decoded since the last copy, ten times the SNR in dB, and the code bits corrected. -/
structure Air where
  lane : Nat
  octets : List Byte
  snr10 : Int
  corr : Nat
  deriving DecidableEq, Repr

/-- For what LNK makes a tune request: an item, by its in-flight entry, or the acknowledgement due. -/
inductive TuneFor where
  | item (entry : Nat)
  | ack
  deriving DecidableEq, Repr

/-- The five steps of a tag-store write (R443). -/
inductive TagStep where
  | kill | erase | write | verify | mark
  deriving DecidableEq, Repr

/-- How a tag-store write goes: on how many rounds of its steps VERIFY mismatches; from harvested power, how many
rounds the stored charge covers, and the round (1 to 3) and step in which the supply collapses, if it does. -/
structure TagWrite where
  mismatches : Nat
  covered : Nat
  collapse : Option (Nat × TagStep)
  deriving DecidableEq, Repr

/-- What a tag reader receives in the reply slots of a command (R418, R419): for each bit, from the SOF on, whether there is
energy in its first and in its second half; and the reply level in 0.5 dB above noise. -/
structure UpReply where
  halves : List (Bool × Bool)
  level : Byte := 0
  deriving DecidableEq, Repr

/-- What ECC finds in a logical page that is read from the medium: the most corrected bits of a codeword, or, for a
page that cannot be corrected, its octets as read (R398, R409). -/
inductive NandEcc where
  | corrected (bits : Nat)
  | lost (octets : List Byte)
  deriving DecidableEq, Repr

/-- What an enumeration finds at a position: HWTYPE, SEC_BOOTSTAT.RESULT and REG (R522). -/
structure CasFound where
  hw : Word
  boot : Nat
  reg : Bool
  deriving DecidableEq, Repr

/-- The VIO banks, and the voltages one may have (R538). -/
inductive VioBank where
  | a | b | c | e | n
  deriving DecidableEq, Repr
inductive VioLevel where
  | v18 | v33
  deriving DecidableEq, Repr

/-- How a core comes by an instruction: whether its instruction cache still holds the address and answers, where it does
not the fetch goes to memory; and the DRAM words that changed in the devices since the last access. -/
structure Fetch where
  hit : Bool
  flips : List Flip
  deriving DecidableEq, Repr

/-- An instruction in the 32-bit form as it lies in memory: its first 32 bits, laid out as R279, and the halfwords that follow
them (R280). -/
structure LongForm where
  word : Word
  ext : List Half
  via : Fetch
  deriving DecidableEq, Repr

/-- A 16-bit instruction of a control core (R282), laid out as R281. -/
structure ShortForm where
  half : Half
  via : Fetch
  deriving DecidableEq, Repr

/-- An instruction in its 32-bit form, or, on a control core, as a 16-bit instruction (R282). -/
inductive Form where
  | long (f : LongForm)
  | short (f : ShortForm)
  deriving DecidableEq, Repr

/-- The commands the part takes: one constructor per row of spec/opcode_table.json, in its order.
The operands are what a row of the table leaves to the command: who sends it, what it addresses, what it
writes, and, for an event, what the outside world contributes to it (what arrives on the air, on a pin, from a
device). -/
inductive Instr where
  /-- `REGISTER_WRITE` (R44): A write to a register that has no row of its own is served in page order
      and sets the written fields under their access types. `addr` is any fabric address and `size`
      the width in bytes; `flips` are the DRAM words that changed in the devices since the last
      access. -/
  | registerWrite (ini : Initiator) (addr : Word) (size : Nat) (data : Word) (flips : List Flip)
  /-- `RC_FIELD_READ` (R7): A read of a read-to-clear field returns its value and clears it for all
      initiators. A read of any fabric address: fields of other access types answer as R5 gives. -/
  | rcFieldRead (ini : Initiator) (addr : Word) (size : Nat) (flips : List Flip)
  /-- `STALLED_ACCESS_SERVE` (R456): An access stalled on a waking or entering domain is served once
      the domain and every domain it needs are ON. The oldest stalled access of `ini`. -/
  | stalledAccessServe (ini : Initiator) (flips : List Flip)
  /-- `CHSEL_WRITE` (R57): A write of CHSEL sets the writer's bank, or raises CHSEL_RANGE for an index
      at or above CHCOUNT. -/
  | chselWrite (ini : Initiator) (page : Nat) (value : Word)
  /-- `BLOCK_ENABLE` (R48): A write of BLK_CTRL.EN enables or disables the block. -/
  | blockEnable (ini : Initiator) (page : Nat) (en : Bool)
  /-- `SOFT_RESET` (R49): A write of BLK_CTRL.SRST completes the block's items, discards staged sets
      and returns its registers to reset values. `air` is what lanes that the reset cuts had decoded. -/
  | softReset (ini : Initiator) (page : Nat) (air : List Air)
  /-- `DOMAIN_REQUEST` (R451): A write of DREQ on a page or in PWR_DM_CTRL changes the domain's
      effective request; a forced OFF first completes the unit's items under R33. With a domain, the
      write of PWR_DM_CTRL in the window of that domain; without, of BLK_CTRL.DREQ on `page`. -/
  | domainRequest (ini : Initiator) (page : Nat) (domain : Option Nat) (dreq : Nat)
  /-- `INT_CLEAR` (R52): A write of 1 to INT_RAW bits clears them unless an event sets the same bit in
      that cycle. -/
  | intClear (ini : Initiator) (page : Nat) (mask : Word) (events : Word)
  /-- `INT_SET` (R52): A write of 1 to INT_SET sets INT_RAW bits as their events would. -/
  | intSet (ini : Initiator) (page : Nat) (mask : Word)
  /-- `INT_EN_WRITE` (R52): A write of INT_EN changes INT_STAT and the page's interrupt line in the
      next cycle. -/
  | intEnWrite (ini : Initiator) (page : Nat) (value : Word)
  /-- `ERR_CLEAR` (R54): A write of all ones to ERR_CODE clears CODE and COUNT. -/
  | errClear (ini : Initiator) (page : Nat) (value : Word)
  /-- `STAGED_WRITE` (R61): A write to a staged register goes to the writer's staged set, taking the
      staging claim or raising STAGE_BUSY or COMMIT_BUSY. -/
  | stagedWrite (ini : Initiator) (page off : Nat) (value : Word)
  /-- `COMMIT` (R63): A CFG_COMMIT write with GO checks lock, claim, PEND, generation and agreement
      rules and accepts or refuses the staged sets. -/
  | cfgCommit (ini : Initiator) (page : Nat) (value : Word)
  /-- `DISCARD` (R65): A CFG_COMMIT write with DISCARD empties the named staged sets and releases the
      claim. -/
  | cfgDiscard (ini : Initiator) (page : Nat) (value : Word)
  /-- `COMMIT_SWITCH` (R64): At the block's switch point an accepted commit replaces the running sets,
      increments GEN, clears PEND and sets COMMIT_DONE. `mismatches` are the rounds of VERIFY that
      fail in the write of the tag store's system record, for a TAG commit that carries its fields. -/
  | commitSwitch (page mismatches : Nat)
  /-- `LOCK` (R68): A LOCK write with KEY 0x5A and LOCKED 1 locks the page and records OWNER and
      STICKY. -/
  | pageLock (ini : Initiator) (page : Nat) (value : Word)
  /-- `UNLOCK` (R68): A LOCK write with KEY 0xA5 and LOCKED 0 unlocks the page when STICKY is 0 and
      the writer is OWNER or SEC. -/
  | pageUnlock (ini : Initiator) (page : Nat) (value : Word)
  /-- `WR_PROD_WRITE` (R14): A write of FLM_WR_PROD by the ring owner advances the producer index, or
      is ignored with RING_OWNER or RING_OVERRUN. -/
  | wrProdWrite (ini : Initiator) (value : Word)
  /-- `RING_ENABLE` (R18): A write of FLM_WR_CFG setting EN clears PROD and CONS and places the ring
      in IDLE, or leaves EN 0 with ENABLE_REFUSED. -/
  | ringEnable (ini : Initiator) (value : Word)
  /-- `RING_ABORT` (R35): FLM_WR_CTRL.ABORT completes the executing, fetched and unfetched items of
      the ring with ABORTED_SW and leaves it IDLE. -/
  | ringAbort (ini : Initiator)
  /-- `RING_RESUME` (R33): FLM_WR_CTRL.RESUME lets a HALTED ring fetch again. -/
  | ringResume (ini : Initiator)
  /-- `TR_CFG_WRITE` (R37): A write of FLM_TR_CFG enables or disables a tailrace ring, clearing its
      pending bit or releasing held completions and reports. -/
  | trCfgWrite (ini : Initiator) (value : Word)
  /-- `TR_CONS_WRITE` (R26): A write of FLM_TR_CONS releases tailrace entries and clears the pending
      bit when CONS reaches PROD. -/
  | trConsWrite (ini : Initiator) (value : Word)
  /-- `DESCRIPTOR_FETCH` (R28): Flume grants an in-flight entry to an eligible ring, fetches its
      descriptor and advances CONS. -/
  | descriptorFetch (flips : List Flip)
  /-- `ITEM_ISSUE` (R29): A fetched item whose earlier items and fence allow it runs the issue checks
      and starts or completes at once. -/
  | itemIssue (entry : Nat)
  /-- `ITEM_FINISH` (R27): A unit finishes an item, recording its status and results and moving it to
      RETIRING. -/
  | itemFinish (entry : Nat)
  /-- `ITEM_RETIRE` (R25): A RETIRING item whose order and tailrace room allow it is written back,
      posted on its tailrace and its entry freed. -/
  | itemRetire (entry : Nat) (flips : List Flip)
  /-- `TAILRACE_MOD_TIME` (R26): MOD_TIME µs after the oldest pending entry the tailrace interrupt
      pending bit sets. -/
  | tailraceModTime (ring : Nat)
  /-- `REPORT_POST` (R36): A unit-originated report waiting in a unit's store is written to its
      tailrace when the tailrace has room and is enabled. The waiting report at `index`; `overflow`
      says that its unit's store has overflowed, so that the report is dropped. -/
  | reportPost (index : Nat) (overflow : Bool)
  /-- `SETTLING_DONE` (R77): A channel that has refilled its filter history and counted 32 channel
      samples arms its slots and enters SEARCH. -/
  | settlingDone (channel : Nat)
  /-- `SLOT_DETECT` (R85): A hypothesis slot detects a preamble and claims the lowest free lane of its
      quarter, or counts a lane miss. `snr` is the correlation SNR of slots 0 to 3 in 0.25 dB, `next`
      that of the next channel in the same cycle; `power` the channel power in 0.01 dBm. -/
  | slotDetect (rx : RxChan) (snr next : List Nat) (power : Int)
  /-- `SFD_FOUND` (R89): A claimed lane accepts an SFD, freezes AFC and takes the receive time-stamp.
      `seen` is what the lane has in its place: 16 bits, or the two halves of 64 chips of long reach,
      each as it was sent, most significant bit first; `hz` the offset estimate, `back` the age of
      the correlation peak in ps, `power` the mean power since the claim in 0.01 dBm. -/
  | sfdFound (rx : RxChan) (seen : List Nat) (hz : Int) (back : Nat) (power : Int)
  /-- `SFD_TIMEOUT` (R144): SFD_TMO symbols after the preamble ends without an SFD, the lane is
      released and a false detection counted. -/
  | sfdTimeout (rx : RxChan)
  /-- `PHR_DECODE` (R98): At PHR decode the lane checks the PHR and the Hopper reserves slots for the
      frame or drops it. `snr10` is ten times the SNR in dB and `corr` the code bits corrected, for a
      frame that ends here. -/
  | phrDecode (rx : RxChan) (phr : Phr) (snr10 : Int) (corr : Nat)
  /-- `FRAME_END` (R85): The last PSDU bit is decoded, CRC is checked, the frame is handed to the
      Hopper and the lane released. `octets` are the PSDU octets not yet copied, as decoded from the
      air; `snr10` and `corr` as for PHR_DECODE. -/
  | frameEnd (rx : RxChan) (octets : List Byte) (snr10 : Int) (corr : Nat) (flips : List Flip)
  /-- `HOPPER_CHUNK_COPY` (R99): A lane writing to a DRAM ring copies a full staging chunk to the
      ring. `octets` are the next 256 PSDU octets as decoded from the air. -/
  | hopperChunkCopy (rx : RxChan) (octets : List Byte) (flips : List Flip)
  /-- `HR_CONS_WRITE` (R97): A write of PHY_HR_CONS releases Hopper slots and re-evaluates HR_LOW. -/
  | hrConsWrite (ini : Initiator) (ring : Nat) (value : Word)
  /-- `HOPPER_RING_ENABLE` (R97): A write of PHY_HR_CFG setting EN clears the Hopper ring's PROD and
      CONS. -/
  | hopperRingEnable (ini : Initiator) (ring : Nat) (value : Word)
  /-- `NF_WINDOW_END` (R93): At the end of a noise-floor window the part writes FLOOR or increments
      AGE. `idle` is the number of SEARCH samples of the window and `power` their mean in 0.01 dBm. -/
  | nfWindowEnd (channel idle : Nat) (power : Int)
  /-- `NF_SNAPSHOT` (R95): Every PERIOD_MS the part writes a noise-floor snapshot, sets NF_SNAP and
      posts a report when REP is 1. -/
  | nfSnapshot
  /-- `AGC_STEP` (R158): In AUTO the gain index steps when the ADC peak stays near full scale for 2 µs
      or low for 10 ms. `up` is toward less gain. -/
  | agcStep (up : Bool)
  /-- `ADC_CLIP` (R109): Input above −12 dBm clips the ADCs, setting ADC_CLIP and marking frames in
      progress. -/
  | adcClip
  /-- `GAP_START` (R173): A calibration gap starts, blanking the receiver, releasing and cutting lanes
      and pausing every channel. -/
  | gapStart (air : List Air) (flips : List Flip)
  /-- `GAP_END` (R173): 1.1 ms after its start the gap ends, GAP_END sets and channels pass through
      SETTLING. -/
  | gapEnd
  /-- `GAP_GRANT` (R236): LNK grants a requested gap at the first instant that its conditions, WAIT_MS
      or FORCE_MS allow. `waited` is the time in ms for which the request has stood. -/
  | gapGrant (waited : Nat)
  /-- `TX_BLANK_START` (R108): 5 µs before ramp-up the receive blank starts, releasing and cutting
      lanes of blanked channels. -/
  | txBlankStart (air : List Air) (flips : List Flip)
  /-- `TX_BLANK_END` (R108): 15 µs after ramp-down ends the receive blank ends. -/
  | txBlankEnd
  /-- `ANTSEL_WRITE` (R156): A write of RFE_ANTSEL.SEL in diversity requests an antenna change and
      sets PEND. -/
  | antselWrite (ini : Initiator) (value : Word)
  /-- `ANT_SWITCH` (R156): A pending wideband antenna change takes effect when no lane is claimed or
      at the end of the next gap, setting ANT_SWITCHED. -/
  | antSwitch
  /-- `ANT_MEASURE_SWITCH` (R156): After 8 symbols of preamble on the current antenna the narrow lane
      switches antenna to measure the other. -/
  | antMeasureSwitch (corr : Nat)
  /-- `ANT_MEASURE_CHOOSE` (R156): After the second measurement the narrow lane keeps the antenna with
      the higher correlation. -/
  | antMeasureChoose (corr : Nat)
  /-- `IQSEED_WRITE` (R172): A write of RFE_IQSEED loads the IQ estimator and clears CONV. -/
  | iqseedWrite (ini : Initiator) (value : Word)
  /-- `IQ_CONVERGE` (R171): The IQ estimate converges, setting CONV and IQ_CONV. -/
  | iqConverge (phase gain : Nat)
  /-- `NB_STOP` (R115): PHY_NB_CTRL.RUN STOP ends dwell starts on the narrow path. -/
  | nbStop (ini : Initiator)
  /-- `NB_CYCLE` (R115): PHY_NB_CTRL.RUN CYCLE starts dwelling on each enabled entry in turn without
      end. -/
  | nbCycle (ini : Initiator)
  /-- `NB_RUN_LNK` (R115): PHY_NB_CTRL.RUN LNK makes the narrow path run one pass at each wake
      scheduled by LNK. -/
  | nbRunLnk (ini : Initiator)
  /-- `NB_DWELL_END` (R115): A narrow dwell ends and the path retunes to the next enabled entry or
      sets NB_PASS. -/
  | nbDwellEnd
  /-- `NB_RETUNE_DONE` (R115): The narrow path finishes its hop and decimator settling and starts the
      next dwell. -/
  | nbRetuneDone
  /-- `TUNE_REQUEST` (R185): LNK issues a tune request to TXA, which tunes the transmit loop, waiting
      for a calibration step if needed. -/
  | tuneRequest (key : TuneFor)
  /-- `LOOP_LOCK` (R169): A synthesiser loop locks after its tune, writing its store entry in mode A.
      `tx` names the transmit loop, else the receive loop. -/
  | loopLock (tx : Bool)
  /-- `LOCK_TIMEOUT` (R170): A loop not locked 100 µs after a tune retries after a sweep or gap, or on
      a second failure raises LOCK_FAIL. -/
  | lockTimeout (tx : Bool) (air : List Air)
  /-- `RX_LOCK_LOST` (R170): A locked receive loop loses lock and recovers through a gap as at a
      failed tune. -/
  | rxLockLost
  /-- `TEMP_UPDATE` (R169): Every 1 ms SYN updates TEMP and sets TEMP_DRIFT and raises a gap request
      when drift exceeds TDELTA. `die` is the die temperature in 0.25 °C. -/
  | tempUpdate (die : Int)
  /-- `VT_EDGE` (R169): The receive-loop tuning voltage leaves its central 80 %, setting VT_EDGE and
      raising a gap request with AUTO_GAP. The voltage has left the central range, or come back into
      it. -/
  | vtEdge (outside : Bool)
  /-- `DRIFT_ANCHOR_SWEEP` (R169): In mode B the transmit loop runs an anchor sweep at the next idle
      moment after TEMP_DRIFT. -/
  | driftAnchorSweep
  /-- `CAL` (R177): A SYN CAL item requests FILTER, BAND_R, ANCHOR_T or STORE_T calibrations, taking a
      gap when needed. -/
  | synCal (entry : Nat)
  /-- `STORE_T_ENTRY` (R178): STORE_T finishes calibrating one transmit store entry, or marks it
      failed. -/
  | storeTEntry (locked : Bool)
  /-- `ANCHOR_T_STEP` (R171): One 18.75 µs step of the transmit-loop anchor sweep completes. -/
  | anchorTStep
  /-- `STORE_SAVE` (R179): A STORE_SAVE item writes transmit store entries to memory. -/
  | storeSave (entry : Nat) (flips : List Flip)
  /-- `STORE_LOAD` (R179): A STORE_LOAD item reads entries and applies them to the store in one cycle
      once the transmit loop is idle. -/
  | storeLoad (entry : Nat) (flips : List Flip)
  /-- `RAMP_BEGIN` (R185): At the ramp-begin instant, tuned and with no gap, TXA begins the PA ramp-
      up. -/
  | rampBegin
  /-- `RAMP_BEGIN_PASSED` (R187): A timed frame whose ramp-begin instant passes before READY or during
      a gap completes LATE. -/
  | rampBeginPassed (entry : Nat)
  /-- `FEM_LEAD` (R161): LEAD before the ramp the FEM pins take the TX state. -/
  | femLead
  /-- `FEM_LAG` (R161): LAG after the ramp-down the FEM pins leave the TX state. -/
  | femLag
  /-- `RAMP_UP_DONE` (R185): The ramp-up completes and the modulator output starts. -/
  | rampUpDone
  /-- `LAST_SYMBOL_OUT` (R185): The last symbol leaves the modulator and TXA begins ramp-down. -/
  | lastSymbolOut
  /-- `RAMP_DOWN_DONE` (R185): The ramp-down completes; TXA returns DONE with the transmit stamp and
      enters HOLD. -/
  | rampDownDone
  /-- `TX_LOCK_LOST` (R185): The transmit loop loses lock in RAMP_UP or SEND; TXA ramps down at once
      and returns INTERNAL. -/
  | txLockLost
  /-- `HOLD_EXPIRE` (R185): HOLD_US after a frame TXA powers down the transmit loop and resumes a
      paused calibration. -/
  | holdExpire
  /-- `WRX_PERIOD_START` (R191): At each period start WRX powers up and measures energy, calibrating
      its tuning on the first period after the reference starts. -/
  | wrxPeriodStart
  /-- `WRX_ENERGY_DETECT` (R191): Energy at or above LEVEL for 200 µs sets WAKE_E or starts the code
      hunt as MODE selects. `power` is in hundredths of a dBm. -/
  | wrxEnergyDetect (power : Int)
  /-- `WRX_ON_END` (R191): The ON time elapses without energy and WRX powers down. `power` is the
      energy measured, in hundredths of a dBm. -/
  | wrxOnEnd (power : Int)
  /-- `WRX_CODE_MATCH` (R191): A sync and 16 bits within TOL errors of CODE set WAKE_C and count a
      match. -/
  | wrxCodeMatch (code : Half)
  /-- `WRX_HUNT_TIMEOUT` (R191): HUNT_MS after energy without a code match WRX counts a hunt and
      sleeps. -/
  | wrxHuntTimeout
  /-- `TX` (R213): An LNK TX item sends one frame with security, listen-before-talk, acknowledgement
      wait and retries as flagged. -/
  | lnkTx (entry : Nat) (flips : List Flip)
  /-- `RXWIN` (R223): An LNK RXWIN item opens a receive window, optionally until a frame from one
      neighbour. -/
  | lnkRxwin (entry : Nat)
  /-- `RXWIN_WINDOW_END` (R223): An RXWIN window ends and the item completes DONE or NO_ACK. -/
  | rxwinWindowEnd (entry : Nat)
  /-- `WAKECODE` (R224): A WAKECODE item sends the OOK wake signal for a WRX. -/
  | lnkWakecode (entry : Nat)
  /-- `LBT_LISTEN_START` (R216): LISTEN_US before the blank start LNK begins measuring the channel's
      power. -/
  | lbtListenStart (entry : Nat)
  /-- `LBT_LISTEN_END` (R216): The listen ends: a free channel lets the attempt proceed, a busy one
      draws a backoff or completes CHANNEL_BUSY. `powers` are the mean powers of the groups of 8
      samples in 0.01 dBm, `draw` the random draw of a backoff. -/
  | lbtListenEnd (entry : Nat) (powers : List Int) (draw : Nat)
  /-- `BACKOFF_EXPIRE` (R218): A listen-before-talk or retry backoff ends and LNK plans the next
      listen or attempt. -/
  | backoffExpire (entry : Nat)
  /-- `ACK_RECEIVE` (R220): An acknowledgement accepted within the wait completes the attempt. -/
  | ackReceive (flips : List Flip)
  /-- `ACK_WAIT_END` (R220): The acknowledgement wait ends without a valid acknowledgement and LNK
      retries or completes NO_ACK. `draw` is the random draw of the backoff. -/
  | ackWaitEnd (entry draw : Nat)
  /-- `ACK_INSTANT` (R211): TURN_US after an acknowledged frame LNK sends the acknowledgement or skips
      it with ACK_SKIP. -/
  | ackInstant
  /-- `DWELL_WINDOW_FREE` (R219): The dwell accounting window frees air time and a waiting untimed
      frame may proceed. -/
  | dwellWindowFree (entry : Nat)
  /-- `LNK_RX_SECURITY` (R206): LNK checks a received frame's security in order, updates the context
      on success and posts the frame. -/
  | lnkRxSecurity (flips : List Flip)
  /-- `SAMPLE_START` (R225): At each own sample instant LNK wakes RFE and SYN and runs one narrow-path
      pass, or skips the sample. -/
  | sampleStart
  /-- `DATA_WINDOW_OPEN` (R226): 100 µs before the announced instant LNK opens the data window on the
      same entry. -/
  | dataWindowOpen
  /-- `DATA_WINDOW_END` (R226): DATA_MS after it opened the data window closes. -/
  | dataWindowEnd
  /-- `FP_LISTEN_END` (R222): FP_MS after a frame-pending acknowledgement the narrow path stops
      listening. -/
  | fpListenEnd
  /-- `NB_STATE_READ` (R202): A read of LNK_NB_STATE evaluates the context's guard and SYNC state. -/
  | nbStateRead (ini : Initiator)
  /-- `UNANCHOR` (R198): LNK_NB_CTRL.UNANCHOR drops the context's anchor and RATE. -/
  | unanchor (ini : Initiator)
  /-- `PEND_SET` (R198): LNK_NB_CTRL.PEND_SET sets the context's frame-pending flag. -/
  | pendSet (ini : Initiator)
  /-- `PEND_CLR` (R198): LNK_NB_CTRL.PEND_CLR clears the context's frame-pending flag. -/
  | pendClr (ini : Initiator)
  /-- `BEACON_WINDOW_OPEN` (R234): At P − G LNK opens a beacon window on the tracking entry. -/
  | beaconWindowOpen
  /-- `BEACON_WINDOW_CLOSE` (R234): A beacon window closes without a beacon, counting a miss or
      entering BEACON_LOST. -/
  | beaconWindowClose
  /-- `SEARCH_PASS_END` (R234): A beacon search pass ends, entering SEARCH_FAILED when SRCH_LIMIT
      passes are done. -/
  | searchPassEnd
  /-- `LNK_EVENT_POST` (R238): LNK posts a pending event report, merging repeated events of one kind
      and index. -/
  | lnkEventPost
  /-- `KEY_ERASE_EFFECT` (R357): An erase of an LNK key slot takes effect once no frame under it is in
      the security stage or counter window. -/
  | keyEraseEffect (slot : Nat)
  /-- `TIM_NS_READ` (R244): A read of TIM_NS returns nanoseconds and copies seconds and fraction into
      the reader's shadow. -/
  | timNsRead (ini : Initiator)
  /-- `TIM_SET` (R245): A committed SET loads seconds and nanoseconds, cancels any slew and increments
      TGEN. -/
  | timSet
  /-- `TIM_STEP` (R245): A committed STEP adds a signed offset to the time, cancels any slew and
      increments TGEN. -/
  | timStep
  /-- `TIM_SLEW` (R245): A committed SLEW runs the effective addend off nominal until the offset is
      applied. -/
  | timSlew
  /-- `SLEW_DONE` (R245): TIM_SLEWREM reaches 0, ending the slew and setting SLEW_DONE. -/
  | slewDone
  /-- `TIM_SECOND` (R240): Nanoseconds reach 10^9 and seconds increment by counting, driving the
      SECOND event. -/
  | timSecond
  /-- `CMP_FIRE` (R256): A comparator fires when TIM reaches its target, re-arming if periodic or
      clearing EN. -/
  | cmpFire (comparator : Nat)
  /-- `PPS_OUT_PULSE` (R257): At each second boundary plus OFFSET reached by counting PPS_OUT drives
      its active edge. -/
  | ppsOutPulse
  /-- `PPS_OUT_PULSE_END` (R257): WIDTH_MS after its start the PPS_OUT pulse ends. -/
  | ppsOutPulseEnd
  /-- `PPS_IN_CAPTURE` (R258): A PPS_IN edge captures TIM, counts and sets PPS_IN. -/
  | ppsInCapture (rising : Bool)
  /-- `BEACON_SYNC` (R259): An accepted beacon's offset is written to TIM_BCN_OFS and in AUTO applied
      as a slew or step. -/
  | beaconSync
  /-- `TICKPER_WINDOW_END` (R266): A tick-period window completes, writing TIM_TICKPER and clearing
      CAL_STALE. -/
  | tickperWindowEnd
  /-- `TIM_WAKE_LOAD` (R267): At the first tick edge after PLL lock TIM loads the slept time from the
      ticks counted and resumes. -/
  | timWakeLoad
  /-- `ETH_TX` (R264): An ETH TX item sends one frame, optionally stamping it or inserting a one-step
      timestamp. `back` is the time in ns since the first bit after the SFD passed the MDI. -/
  | ethTx (entry back : Nat) (flips : List Flip)
  /-- `ETH_FRAME_RECEIVE` (R265): A received Ethernet frame passing FCS and the filter is written to a
      slot and reported, or counted as dropped. `octets` is the frame with its FCS, `back` the time in
      ns since its first bit after the SFD passed the MDI. -/
  | ethFrameReceive (octets : List Byte) (back : Nat) (flips : List Flip)
  /-- `ETH_RXCONS_WRITE` (R261): A write of ETH_RXCONS releases Ethernet receive slots. -/
  | ethRxconsWrite (ini : Initiator) (value : Word)
  /-- `MDIO_TRANSFER` (R261): A write of ETH_MDIO with GO starts an MDIO read or write. GO is set
      whatever `value` says. -/
  | mdioTransfer (ini : Initiator) (value : Word)
  /-- `MDIO_DONE` (R261): An MDIO transfer completes and GO clears. -/
  | mdioDone (data : Half)
  /-- `ETH_LINK_CHANGE` (R264): The Ethernet link goes up or down, holding or releasing ETH items. -/
  | ethLinkChange (up : Bool) (speed : Nat)
  /-- `ETH_MAGIC_PACKET` (R463): A magic packet received while ETH is in RETENTION with ETH_WOL set
      latches a wake request. -/
  | ethMagicPacket
  /-- `CORE_RUN` (R270): CPU_CTRL.RUN = 1 starts a core at CPU_RESETPC or resumes it at its PC. -/
  | coreRun (ini : Initiator) (core : Core)
  /-- `CORE_HALT` (R270): CPU_CTRL.RUN = 0 stops the core at its next acceptance point and sets
      HALTED. -/
  | coreHalt (ini : Initiator) (core : Core)
  /-- `INTERRUPT_ENTRY` (R306): At an acceptance point the core takes the highest waiting enabled
      interrupt request. -/
  | interruptEntry (core : Core)
  /-- `WFI_WAKE` (R307): An enabled interrupt line at or above ILVL asserts and a core in WFI
      continues. -/
  | wfiWake (core : Core)
  /-- `PAIRED_WORD` (R284): A link core issues the two short operations of a paired word in one cycle. -/
  | pairedWord (core : Core) (word : Word) (via : Fetch)
  /-- `NOP` (R287): NOP does nothing. -/
  | nop (core : Core) (form : Form)
  /-- `MOV` (R287): MOV copies operand A to D. -/
  | mov (core : Core) (form : Form)
  /-- `ADD` (R287): ADD writes A + B to D and sets NZCV. -/
  | add (core : Core) (form : Form)
  /-- `SUB` (R287): SUB writes A − B to D and sets NZCV. -/
  | sub (core : Core) (form : Form)
  /-- `AND` (R287): AND writes A AND B to D and sets NZ. -/
  | and (core : Core) (form : Form)
  /-- `OR` (R287): OR writes A OR B to D and sets NZ. -/
  | or (core : Core) (form : Form)
  /-- `XOR` (R287): XOR writes A XOR B to D and sets NZ. -/
  | xor (core : Core) (form : Form)
  /-- `CMP` (R287): CMP computes A − B for the flags only. -/
  | cmp (core : Core) (form : Form)
  /-- `NEG` (R287): NEG writes 0 − A to D and sets NZCV. -/
  | neg (core : Core) (form : Form)
  /-- `NOT` (R287): NOT writes the complement of A to D. -/
  | not (core : Core) (form : Form)
  /-- `ADC` (R287): ADC writes A + B + C to D. -/
  | adc (core : Core) (form : LongForm)
  /-- `SBC` (R287): SBC writes A − B − C to D. -/
  | sbc (core : Core) (form : LongForm)
  /-- `TST` (R287): TST computes A AND B for the flags only. -/
  | tst (core : Core) (form : Form)
  /-- `MOVI` (R286): Short MOVI writes a sign-extended 5-bit immediate to X. -/
  | movi (core : Core) (form : ShortForm)
  /-- `ADDI` (R286): Short ADDI adds a sign-extended 5-bit immediate to X. -/
  | addi (core : Core) (form : ShortForm)
  /-- `SHLI` (R286): Short SHLI shifts X left by an immediate count. -/
  | shli (core : Core) (form : ShortForm)
  /-- `SHRI` (R286): Short SHRI shifts X right logically by an immediate count. -/
  | shri (core : Core) (form : ShortForm)
  /-- `SARI` (R286): Short SARI shifts X right arithmetically by an immediate count. -/
  | sari (core : Core) (form : ShortForm)
  /-- `MOVSB` (R287): MOVSB writes a sign-extended byte to a word. -/
  | movsb (core : Core) (form : LongForm)
  /-- `MOVSH` (R287): MOVSH writes a sign-extended halfword to a word. -/
  | movsh (core : Core) (form : LongForm)
  /-- `MOVZB` (R287): MOVZB writes a zero-extended byte to a word. -/
  | movzb (core : Core) (form : LongForm)
  /-- `MOVZH` (R287): MOVZH writes a zero-extended halfword to a word. -/
  | movzh (core : Core) (form : LongForm)
  /-- `MUL` (R289): MUL writes the low word of A × B and sets V on signed overflow. -/
  | mul (core : Core) (form : LongForm)
  /-- `MULHS` (R287): MULHS writes the high word of the signed product. -/
  | mulhs (core : Core) (form : LongForm)
  /-- `MULHU` (R287): MULHU writes the high word of the unsigned product. -/
  | mulhu (core : Core) (form : LongForm)
  /-- `DIVS` (R291): DIVS writes the signed quotient, with the edge cases and DIVZERO trap of R291. -/
  | divs (core : Core) (form : LongForm)
  /-- `DIVU` (R291): DIVU writes the unsigned quotient, with the zero-divisor result of R291. -/
  | divu (core : Core) (form : LongForm)
  /-- `REMS` (R291): REMS writes the signed remainder. -/
  | rems (core : Core) (form : LongForm)
  /-- `REMU` (R291): REMU writes the unsigned remainder. -/
  | remu (core : Core) (form : LongForm)
  /-- `SHL` (R290): SHL shifts A left by the low 6 bits of B. -/
  | shl (core : Core) (form : LongForm)
  /-- `SHR` (R290): SHR shifts A right logically. -/
  | shr (core : Core) (form : LongForm)
  /-- `SAR` (R290): SAR shifts A right arithmetically. -/
  | sar (core : Core) (form : LongForm)
  /-- `ROL` (R290): ROL rotates A left. -/
  | rol (core : Core) (form : LongForm)
  /-- `ROR` (R290): ROR rotates A right. -/
  | ror (core : Core) (form : LongForm)
  /-- `CLZ` (R287): CLZ writes the count of leading zeros of A. -/
  | clz (core : Core) (form : LongForm)
  /-- `BREV` (R287): BREV writes A with its bit order reversed. -/
  | brev (core : Core) (form : LongForm)
  /-- `BSWAP` (R287): BSWAP writes A with its byte order reversed. -/
  | bswap (core : Core) (form : LongForm)
  /-- `MAC` (R292): MAC adds the product of two signed halfwords to an accumulator. -/
  | mac (core : Core) (form : LongForm)
  /-- `MSU` (R292): MSU subtracts the product of two signed halfwords from an accumulator. -/
  | msu (core : Core) (form : LongForm)
  /-- `MACD_R` (R293): MACD.R (long, or short MACD.R0 and MACD.R1) accumulates a halfword product with
      dual fetch. -/
  | macdR (core : Core) (form : Form)
  /-- `MACD_C` (R292): MACD.C accumulates a complex product into ACC0 and ACC1. -/
  | macdC (core : Core) (form : Form)
  /-- `MACD_CJ` (R292): MACD.CJ accumulates a complex product with B conjugated. -/
  | macdCj (core : Core) (form : Form)
  /-- `CLRA` (R286): Short CLRA clears accumulator 0 or 1. -/
  | clra (core : Core) (form : ShortForm)
  /-- `SAC` (R294): SAC extracts a shifted, optionally rounded and saturated word from an accumulator. -/
  | sac (core : Core) (form : LongForm)
  /-- `LAC` (R287): LAC loads an accumulator with a sign-extended word. -/
  | lac (core : Core) (form : LongForm)
  /-- `ACC0_CLEAR` (R295): ACCOP 0 clears ACC0. -/
  | acc0Clear (core : Core) (form : LongForm)
  /-- `ACC1_CLEAR` (R295): ACCOP 1 clears ACC1. -/
  | acc1Clear (core : Core) (form : LongForm)
  /-- `ACC_ADD` (R295): ACCOP 2 adds ACC1 to ACC0. -/
  | accAdd (core : Core) (form : LongForm)
  /-- `ACC_SUB` (R295): ACCOP 3 subtracts ACC1 from ACC0. -/
  | accSub (core : Core) (form : LongForm)
  /-- `ACC_SWAP` (R295): ACCOP 4 exchanges ACC0 and ACC1. -/
  | accSwap (core : Core) (form : LongForm)
  /-- `ACC_NEGATE` (R295): ACCOP 5 negates ACC0. -/
  | accNegate (core : Core) (form : LongForm)
  /-- `MFS` (R272): MFS reads a special register by number. -/
  | mfs (core : Core) (form : LongForm)
  /-- `MTS` (R272): MTS writes a special register by number. -/
  | mts (core : Core) (form : LongForm)
  /-- `XCHG` (R310): XCHG atomically exchanges two words. -/
  | xchg (core : Core) (form : LongForm)
  /-- `CAS` (R310): CAS atomically compares D with A and writes B on a match. -/
  | casOp (core : Core) (form : LongForm)
  /-- `J` (R276): J jumps to the target. -/
  | j (core : Core) (form : LongForm)
  /-- `BCC` (R288): Bcc jumps to the target when its condition holds. -/
  | bcc (core : Core) (form : LongForm)
  /-- `BRA` (R286): Short BRA branches by a signed 10-bit offset. -/
  | bra (core : Core) (form : ShortForm)
  /-- `BEQ` (R286): Short BEQ branches when Z is 1. -/
  | beq (core : Core) (form : ShortForm)
  /-- `BNE` (R286): Short BNE branches when Z is 0. -/
  | bne (core : Core) (form : ShortForm)
  /-- `CALL` (R299): CALL pushes the return address and jumps, checking CPU_SPLIM. -/
  | call (core : Core) (form : LongForm)
  /-- `RET` (R299): RET pops PC from the stack. -/
  | ret (core : Core) (form : Form)
  /-- `CALLM` (R300): CALLM saves return address, mask and named pointers in a frame and jumps. -/
  | callm (core : Core) (form : LongForm)
  /-- `RETM` (R300): RETM restores pointers from a frame and jumps to its return address. -/
  | retm (core : Core) (form : LongForm)
  /-- `RETI` (R305): RETI restores PC and SW from the stack. -/
  | reti (core : Core) (form : LongForm)
  /-- `TRAP` (R303): TRAP raises the TRAP exception with its code. -/
  | trap (core : Core) (form : LongForm)
  /-- `LOOP` (R296): LOOP sets up a zero-overhead loop level or skips the body for count 0. -/
  | loop (core : Core) (form : LongForm)
  /-- `BRKL` (R298): BRKL leaves the innermost loop and jumps. -/
  | brkl (core : Core) (form : LongForm)
  /-- `WFI` (R307): WFI places the core in WFI until an enabled line asserts. -/
  | wfi (core : Core) (form : Form)
  /-- `SYNC` (R309): SYNC waits until the core's earlier writes are visible. -/
  | sync (core : Core) (form : LongForm)
  /-- `ICINV` (R311): ICINV invalidates the core's instruction cache. -/
  | icinv (core : Core) (form : LongForm)
  /-- `BKPT` (R303): BKPT traps, or halts the core when a debugger holds it. `held` says that a
      debugger holds the core. -/
  | bkpt (core : Core) (held : Bool) (form : LongForm)
  /-- `DI` (R307): DI clears IE at the next acceptance point. -/
  | di (core : Core) (form : LongForm)
  /-- `EI` (R307): EI sets IE at the next acceptance point. -/
  | ei (core : Core) (form : LongForm)
  /-- `EMUL` (R303): A reserved or LM-4 opcode raises the EMUL fault. Besides the
      reserved opcodes it stands for every word that no other row spells: a coprocessor that is absent
      or a FUNC that its table lacks, and an ACCOP number that R295 lacks. -/
  | emul (core : Core) (form : Form)
  /-- `XOR128` (R302): CP0 XOR128 XORs N 16-byte blocks. -/
  | xor128 (core : Core) (form : LongForm)
  /-- `GFMUL` (R302): CP0 GFMUL multiplies blocks in GF(2^128). -/
  | gfmul (core : Core) (form : LongForm)
  /-- `CTRINC` (R302): CP0 CTRINC increases a block's big-endian counter by N. -/
  | ctrinc (core : Core) (form : LongForm)
  /-- `REV128` (R302): CP0 REV128 reverses the octets of N blocks. -/
  | rev128 (core : Core) (form : LongForm)
  /-- `XCORR` (R302): CP1 XCORR accumulates a complex cross-correlation. -/
  | xcorr (core : Core) (form : LongForm)
  /-- `ENERGY` (R302): CP1 ENERGY accumulates the energy of N complex samples. -/
  | energy (core : Core) (form : LongForm)
  /-- `PEAK` (R302): CP1 PEAK writes the index of the largest-energy sample. -/
  | peak (core : Core) (form : LongForm)
  /-- `CRC16` (R302): CP2 CRC16 computes a CRC-16 over N octets. -/
  | crc16 (core : Core) (form : LongForm)
  /-- `CRC32` (R302): CP2 CRC32 computes a CRC-32 over N octets. -/
  | crc32 (core : Core) (form : LongForm)
  /-- `PN9` (R302): CP2 PN9 whitens N octets and writes back the generator state. -/
  | pn9 (core : Core) (form : LongForm)
  /-- `CONV` (R302): CP2 CONV encodes N octets with the K = 7 code. -/
  | conv (core : Core) (form : LongForm)
  /-- `DRK_RECONSTRUCT_DONE` (R314): DRK reconstruction after SEC ON ends, setting PUF_OK or PUF_FAIL
      and releasing waiting items. -/
  | drkReconstructDone (ok : Bool)
  /-- `HASH` (R336): A SEC HASH item writes the SHA-256 digest of a message. -/
  | secHash (entry : Nat) (flips : List Flip)
  /-- `VERIFY` (R336): A SEC VERIFY item checks an ECDSA signature, completing DONE or AUTH_FAIL. -/
  | secVerify (entry : Nat) (flips : List Flip)
  /-- `SIGN` (R336): A SEC SIGN item signs a digest with the unit key under purpose 0x01. -/
  | secSign (entry : Nat) (flips : List Flip)
  /-- `RANDOM` (R336): A SEC RANDOM item writes DRBG output. -/
  | secRandom (entry : Nat) (flips : List Flip)
  /-- `ATTEST` (R330): A SEC ATTEST item writes a signed attestation report over a challenge. -/
  | secAttest (entry : Nat) (flips : List Flip)
  /-- `EXTEND` (R329): A SEC EXTEND item extends MEAS with a digest. -/
  | secExtend (entry : Nat) (flips : List Flip)
  /-- `PUBKEY` (R336): A SEC PUBKEY item writes the unit public key. -/
  | secPubkey (entry : Nat) (flips : List Flip)
  /-- `ENROLL` (R321): A SEC ENROLL item checks an owner certificate, writes OTP and returns the unit
      key and proof. `writes` of the six OTP writes are made before the supply fails; 6 or more are
      all. -/
  | secEnroll (entry writes : Nat) (flips : List Flip)
  /-- `OWNER_ADD` (R323): An OWNER_CMD with COMMAND ADD writes a new owner root into a blank slot. -/
  | ownerAdd (entry : Nat) (flips : List Flip)
  /-- `OWNER_REVOKE` (R323): An OWNER_CMD with COMMAND REVOKE revokes an owner root slot. -/
  | ownerRevoke (entry : Nat) (flips : List Flip)
  /-- `OWNER_RETIRE` (R319): An OWNER_CMD with COMMAND RETIRE moves the part to RETIRED and destroys
      the PUF helper data. -/
  | ownerRetire (entry : Nat) (flips : List Flip)
  /-- `RNG_HEALTH_FAIL` (R338): The entropy source fails a health test, clearing HEALTHY, setting
      RNG_FAIL and stopping the DRBG. -/
  | rngHealthFail
  /-- `DEBUG_TOKEN_WRITE` (R332): A debugger writes a token to the mailbox and SEC starts checking it. -/
  | debugTokenWrite (octets : List Byte)
  /-- `DEBUG_TOKEN_VERDICT` (R333): The token check ends, opening the gate or counting a rejection,
      and draws a new challenge. -/
  | debugTokenVerdict
  /-- `PAGE_CLAIM` (R341): PAL_PG_CTRL.CLAIM takes a FREE Palette page for the writer. -/
  | pageClaim (ini : Initiator)
  /-- `PAGE_RELEASE` (R341): PAL_PG_CTRL.RELEASE from the owner starts scrubbing an idle Palette page. -/
  | pageRelease (ini : Initiator)
  /-- `PAGE_SCRUB_DONE` (R341): A scrubbing page reaches FREE and SCRUBBED sets. -/
  | pageScrubDone (page : Nat)
  /-- `ENCRYPT` (R348): A PAL ENCRYPT item writes ciphertext and tag in CTR, CCM* or GCM. -/
  | palEncrypt (entry : Nat) (flips : List Flip)
  /-- `DECRYPT` (R348): A PAL DECRYPT item writes plaintext and checks the tag. -/
  | palDecrypt (entry : Nat) (flips : List Flip)
  /-- `MAC_GEN` (R347): A PAL MAC_GEN item writes a CMAC tag. -/
  | palMacGen (entry : Nat) (flips : List Flip)
  /-- `MAC_CHECK` (R348): A PAL MAC_CHECK item checks a CMAC tag. -/
  | palMacCheck (entry : Nat) (flips : List Flip)
  /-- `KEY_LOAD` (R355): A PAL KEY_LOAD item places a plain key in an empty handle where permitted. -/
  | keyLoad (entry : Nat) (flips : List Flip)
  /-- `KEY_UNWRAP` (R355): A PAL KEY_UNWRAP item installs a key from an authenticated blob. -/
  | keyUnwrap (entry : Nat) (flips : List Flip)
  /-- `KEY_WRAP` (R356): A PAL KEY_WRAP item writes a GCM blob of an exportable key. -/
  | keyWrap (entry : Nat) (flips : List Flip)
  /-- `KEY_DERIVE` (R355): A PAL KEY_DERIVE item derives a key into an empty handle. -/
  | keyDerive (entry : Nat) (flips : List Flip)
  /-- `KEY_GEN` (R355): A PAL KEY_GEN item generates a key from the DRBG into an empty handle. -/
  | keyGen (entry : Nat) (flips : List Flip)
  /-- `KEY_ERASE` (R357): A PAL KEY_ERASE item empties a handle. -/
  | keyErase (entry : Nat) (flips : List Flip)
  /-- `ENGINE_DISPATCH` (R352): A free AES engine takes the next message by class, resuming suspended
      messages in turn. -/
  | engineDispatch (flips : List Flip)
  /-- `MESSAGE_SUSPEND` (R353): At its next block boundary an engine suspends a later-started message
      for a waiting class 1 or 2 message. `lnk` says that a frame of LNK waits, `octets` how far the
      suspended message has come. -/
  | messageSuspend (lnk : Bool) (octets : Nat)
  /-- `PRIMER_BOOT` (R325): After part reset the Primer installs staged components, verifies all four
      and starts them or enters recovery. `cut` is how many flash writes the install makes before a
      reset or the loss of supply ends it; `bad` are the flash sectors whose erase or program fails;
      with medium NAND, `readable` says that training and MOUNT succeed, and `lost` are the sectors of
      the Sketch that cannot be corrected. -/
  | primerBoot (cut : Option Nat) (bad : List Nat) (readable : Bool) (lost : List Nat)
  /-- `OPEN` (R504): A UPD OPEN item checks a header and opens a session. -/
  | updOpen (entry : Nat) (flips : List Flip)
  /-- `CHUNK` (R505): A UPD CHUNK item checks a table or data chunk against its session and marks it
      accepted. -/
  | updChunk (entry : Nat) (flips : List Flip)
  /-- `ARM` (R506): A UPD ARM item checks complete sessions and compatibility and writes a directory
      record. -/
  | updArm (entry : Nat) (flips : List Flip)
  /-- `CHANNEL_TRAIN` (R368): DRC_CHCTRL.TRAIN starts training a DRAM channel, or raises CH_BUSY while
      training. -/
  | channelTrain (ini : Initiator) (value : Word)
  /-- `TRAINING_DONE` (R368): Channel training ends, making it ONLINE or UNTRAINED with FAILCODE and
      setting TRAIN_DONE. `failed` is the step that failed, 0 for none (R362 FAILCODE); `results` are
      WL_DLY, RD_EYE and WR_EYE of the two ranks. -/
  | trainingDone (channel failed : Nat) (results : List (Nat × Nat × Nat))
  /-- `REFRESH` (R367): The DRC refresh interval expires and a rank is refreshed or the refresh
      postponed. `postpone` says that traffic is queued. -/
  | drcRefresh (rank : Nat) (postpone : Bool)
  /-- `PARITY_ALERT` (R374): ALERT_n asserts and the channel stops issuing commands and enters REPLAY.
      `reissued` is the number of buffered commands from the rejected one on; `items` the entries of
      DRC items with an access outstanding on the channel. -/
  | parityAlert (channel reissued : Nat) (items : List Nat)
  /-- `PARITY_REPLAY_DONE` (R374): ALERT_n deasserts and the DRC reopens rows and replays buffered
      commands, or fails the channel on a third failure. `rejected` says that a replayed command was
      rejected again. -/
  | parityReplayDone (channel : Nat) (rejected : Bool)
  /-- `ALERT_STUCK` (R368): ALERT_n held beyond 1 µs fails the channel with FAILCODE 8. -/
  | alertStuck (channel : Nat)
  /-- `ECC_WINDOW_END` (R373): At each WINDOW_S boundary WIN of every rank returns to 0. -/
  | eccWindowEnd
  /-- `MIGRATION_START` (R375): DRC_MIGCTRL.START, or an automatic trigger, starts migrating a rank to
      the spare. -/
  | migrationStart (ini : Initiator) (value : Word)
  /-- `MIGRATION_STOP` (R378): DRC_MIGCTRL.STOP, a channel failure or a reset abandons a running
      migration. -/
  | migrationStop (ini : Initiator) (value : Word)
  /-- `MIGRATION_SLOT_COPY` (R376): The migrator copies one row slot from source to target, poisoning
      uncorrectable words. -/
  | migrationSlotCopy (flips : List Flip)
  /-- `MIGRATION_DONE` (R377): With every slot copied and no access outstanding, the source becomes
      RETIRED and the spare STANDIN. -/
  | migrationDone
  /-- `COPY` (R379): A DRC COPY item copies bytes between memory regions. -/
  | drcCopy (entry : Nat) (flips : List Flip)
  /-- `FILL` (R379): A DRC FILL item fills a range with a 32-bit pattern. -/
  | drcFill (entry : Nat) (flips : List Flip)
  /-- `SCRUB` (R379): A DRC SCRUB item reads a range and writes back corrected words. -/
  | drcScrub (entry : Nat) (flips : List Flip)
  /-- `FLC_PROGRAM` (R387): An FLC PROGRAM item programs erased flash words from memory. -/
  | flcProgram (entry : Nat) (flips : List Flip)
  /-- `FLC_ERASE` (R387): An FLC ERASE item erases sectors with an intent record. -/
  | flcErase (entry : Nat)
  /-- `FLC_VERIFY` (R387): An FLC VERIFY item compares flash with memory or with all ones. -/
  | flcVerify (entry : Nat) (flips : List Flip)
  /-- `COUNTERS` (R387): An FLC COUNTERS item writes the state and erase count of sectors. -/
  | flcCounters (entry : Nat)
  /-- `PROTECT` (R393): An FLC PROTECT item rewrites the protection bits and password hash. `salt` is
      the new salt that FLC draws. -/
  | flcProtect (entry : Nat) (salt : List Byte)
  /-- `ERASE_PULSE` (R389): An erase pulse and its verify end, ending the erase, continuing, or
      failing after 12 pulses. `blank` is what the verify after the pulse finds. -/
  | erasePulse (blank : Bool)
  /-- `PROGRAM_WORD` (R389): A flash word program completes, verifying or failing after 4 attempts.
      `verified` is what the verify after the attempt finds. -/
  | programWord (verified : Bool)
  /-- `FLASH_UNLOCK` (R392): FLC_PWCTRL.UNLOCK hashes the password and sets UNLOCKED or counts a
      failure. -/
  | flashUnlock (ini : Initiator)
  /-- `FLASH_RELOCK` (R392): FLC_PWCTRL.RELOCK clears UNLOCKED. -/
  | flashRelock (ini : Initiator)
  /-- `ERASE_RESUME` (R396): FLC coming ON after supply loss with an open intent record erases that
      sector again. `blank` says that the erase ends with a blank sector. -/
  | eraseResume (blank : Bool)
  /-- `READ` (R406): An NMC READ item reads logical pages into memory. `ecc` goes page by page over
      what comes from the medium. -/
  | nandRead (entry : Nat) (ecc : List NandEcc)
  /-- `PROGRAM` (R406): An NMC PROGRAM item stores logical pages through the write buffer. Where a
      block must be taken from the pool and several have the lowest erase count, `choice` names one. -/
  | nandProgram (entry choice : Nat) (flips : List Flip)
  /-- `ERASE` (R406): An NMC ERASE item unmaps logical pages. -/
  | nandErase (entry : Nat)
  /-- `FLUSH` (R406): An NMC FLUSH item waits for earlier programs and the journal, optionally writing
      a checkpoint. -/
  | nandFlush (entry : Nat)
  /-- `MOUNT` (R404): An NMC MOUNT item identifies targets, loads the checkpoint and replays the
      journal. `failing` names targets that fail identification; `newer` the pages cut by supply loss
      that are found with their new content. -/
  | nandMount (entry : Nat) (failing : List Nat) (newer : List Nat)
  /-- `FORMAT` (R403): An NMC FORMAT item erases good blocks and writes a fresh table, checkpoint and
      journal. `failing` names targets that fail identification; `factory` blocks (target, block) with
      factory marks; `bad` blocks whose erase fails. -/
  | nandFormat (entry : Nat) (failing : List Nat) (factory bad : List (Nat × Nat))
  /-- `WB_HOLD_EXPIRE` (R406): HOLD_US after a partly filled physical page was opened it is programmed
      with unused slots erased. Where a block must be taken from the pool and several have the lowest
      erase count, `choice` names one. -/
  | wbHoldExpire (target choice : Nat)
  /-- `NAND_OP_DONE` (R413): A NAND program or erase ends; a failed status retires the block and
      relocates its data. Where a block must be taken from the pool and several have the lowest erase
      count, `choice` names one. -/
  | nandOpDone (target : Nat) (failed : Bool) (choice : Nat)
  /-- `RELOCATION` (R411): NMC relocates a block scheduled for refresh or wear in time left over by
      items. Where a block must be taken from the pool and several have the lowest erase count,
      `choice` names one. `lost` names logical pages that cannot be corrected. -/
  | nandRelocation (target block choice : Nat) (lost : List Nat)
  /-- `STATIC_WEAR_MOVE` (R410): NMC moves the least-erased block's data when the erase-count spread
      exceeds WL_DELTA. Where a block must be taken from the pool and several have the lowest erase
      count, `choice` names one. -/
  | staticWearMove (choice : Nat)
  /-- `PATROL_STEP` (R412): The patrol timer wakes NMC to read one block's pages and schedule
      relocation. `ecc` goes page by page. -/
  | patrolStep (ecc : List NandEcc)
  /-- `INVENTORY` (R426): A TAG INVENTORY item walks the tags in the field and records their
      identifiers. `entry` is the in-flight entry of the item; `foreign` says that the sense finds a
      foreign field. Each exchange takes the next of its answers; where there is none left, no reply
      comes. -/
  | tagInventory (entry : Nat) (foreign : Bool) (answers : List UpReply) (flips : List Flip)
  /-- `SELECT` (R436): A TAG SELECT item selects one tag and records the session. `entry` is the in-
      flight entry of the item; `foreign` says that the sense finds a foreign field. Each exchange
      takes the next of its answers; where there is none left, no reply comes. -/
  | tagSelect (entry : Nat) (foreign : Bool) (answers : List UpReply) (flips : List Flip)
  /-- `PASSWORD` (R428): A TAG PASSWORD item sends PWD to the selected tag. `entry` is the in-flight
      entry of the item; `foreign` says that the sense finds a foreign field. Each exchange takes the
      next of its answers; where there is none left, no reply comes. -/
  | tagPassword (entry : Nat) (foreign : Bool) (answers : List UpReply) (flips : List Flip)
  /-- `AUTHENTICATE` (R437): A TAG AUTHENTICATE item runs mutual authentication with a Palette key.
      `entry` is the in-flight entry of the item; `foreign` says that the sense finds a foreign field.
      Each exchange takes the next of its answers; where there is none left, no reply comes. -/
  | tagAuthenticate (entry : Nat) (foreign : Bool) (first second : List UpReply)
  /-- `TAG_READ` (R435): A TAG READ item reads part of a record from the selected tag. `entry` is the
      in-flight entry of the item; `foreign` says that the sense finds a foreign field. Each exchange
      takes the next of its answers; where there is none left, no reply comes. -/
  | tagRead (entry : Nat) (foreign : Bool) (answers : List UpReply)
  /-- `TAG_WRITE` (R435): A TAG WRITE item writes a whole record to the selected tag. `entry` is the
      in-flight entry of the item; `foreign` says that the sense finds a foreign field. Each exchange
      takes the next of its answers; where there is none left, no reply comes. -/
  | tagWrite (entry : Nat) (foreign : Bool) (answers : List UpReply) (flips : List Flip)
  /-- `VERIFY_ORIGIN` (R437): A TAG VERIFY_ORIGIN item reads the info record and verifies the origin
      signature. `entry` is the in-flight entry of the item; `foreign` says that the sense finds a
      foreign field. Each exchange takes the next of its answers; where there is none left, no reply
      comes. -/
  | tagVerifyOrigin (entry : Nat) (foreign : Bool) (answers : List UpReply) (flips : List Flip)
  /-- `HALT` (R436): A TAG HALT item sends HALT and clears the session. `entry` is the in-flight entry
      of the item; `foreign` says that the sense finds a foreign field. -/
  | tagHalt (entry : Nat) (foreign : Bool)
  /-- `TSET` (R448): A TAG TSET item writes identifier, password, key or signature into the system
      record. `entry` is the in-flight entry of the item. -/
  | tagTset (entry : Nat) (how : TagWrite) (flips : List Flip)
  /-- `SREAD` (R448): A TAG SREAD item reads tag-store records in force. `entry` is the in-flight
      entry of the item. `decayed` names frames (record, second frame) whose CRC fails from now on
      through retention loss. -/
  | tagSread (entry : Nat) (decayed : List (Nat × Bool))
  /-- `SWRITE` (R448): A TAG SWRITE item writes tag-store records. `entry` is the in-flight entry of
      the item; `how` goes record by record. -/
  | tagSwrite (entry : Nat) (how : List TagWrite) (flips : List Flip)
  /-- `FIELD_HOLD_EXPIRE` (R436): HOLD_MS after the last reader item the part's field goes off and the
      session ends. -/
  | fieldHoldExpire
  /-- `FIELD_DETECT` (R423): An external field is detected; the tag controller measures VBAT and
      enters READY or stays mute. `vbatOk` says that VBAT is at or above 1.9 V. `decayed` names frames
      (record, second frame) whose CRC fails from now on through retention loss. -/
  | fieldDetect (vbatOk : Bool) (decayed : List (Nat × Bool))
  /-- `FIELD_LOST` (R423): The field stays below threshold for 50 µs and the tag drops its session to
      OFF. -/
  | fieldLost
  /-- `LOCKOUT_END` (R424): After 1 s without field a locked-out tag leaves lockout. -/
  | lockoutEnd
  /-- `CMD_INVENTORY` (R421): The tag answers INVENTORY with its identifier bits when the prefix
      matches. `pre` is the prefix. -/
  | cmdInventory (n : Nat) (pre : List Byte)
  /-- `CMD_SELECT` (R423): The tag enters OPEN on its own identifier or READY on another. -/
  | cmdSelect (id : List Byte)
  /-- `CMD_PWD` (R428): The tag compares a password and enters SECURED or counts a failure. -/
  | cmdPwd (password : List Byte)
  /-- `CMD_AUTH1` (R429): The tag draws RB and answers with TA. -/
  | cmdAuth1 (ra : List Byte)
  /-- `CMD_AUTH2` (R429): The tag checks TR and enters SECURED or counts a failure. -/
  | cmdAuth2 (tr : List Byte)
  /-- `CMD_READ` (R441): The tag answers READ with record data, the info record or STALE. `decayed`
      names frames (record, second frame) whose CRC fails from now on through retention loss. -/
  | cmdRead (record offset length : Nat) (decayed : List (Nat × Bool))
  /-- `CMD_WRITE` (R443): The tag writes a record by KILL, ERASE, WRITE, VERIFY and MARK, or refuses
      LOW_FIELD. -/
  | cmdWrite (record : Nat) (data : List Byte) (how : TagWrite)
  /-- `CMD_HALT` (R423): The tag enters QUIET. -/
  | cmdHalt
  /-- `TAG_REPLY` (R443): The tag answers a WRITE in the first reply slot after its write ends. -/
  | tagReply
  /-- `DIRTY_REPORT` (R447): While TAG is ON with EN set the part posts a report for each dirty record
      not yet posted. -/
  | dirtyReport
  /-- `IDLE_TIMER_EXPIRE` (R453): A domain's idle count reaches TICKS at a tick edge and entry to its
      target begins. -/
  | idleTimerExpire (domain : Nat)
  /-- `DOMAIN_IDLE_COMMIT` (R454): At a tick edge a domain gates its clocks, isolates outputs and
      reads DSTATE 3. `air` is what lanes cut by it had decoded. -/
  | domainIdleCommit (domain : Nat) (air : List Air)
  /-- `DOMAIN_SAVE` (R454): One tick after IDLE_COMMIT state moves to the retention rail or is
      discarded. -/
  | domainSave (domain : Nat)
  /-- `DOMAIN_SWITCH` (R454): Two ticks after IDLE_COMMIT the power switch opens or drops to
      retention. -/
  | domainSwitch (domain : Nat)
  /-- `DOMAIN_ENTRY_DONE` (R454): Three ticks after IDLE_COMMIT DSTATE settles, DOMAIN_CHG sets and
      waiting levels may start a wake. -/
  | domainEntryDone (domain : Nat)
  /-- `DOMAIN_WAKE` (R457): A first access, request, wake source, event or dependency starts a
      domain's wake and its clocks. -/
  | domainWake (domain : Nat)
  /-- `DOMAIN_ON` (R457): A waking domain reaches ON, incrementing POWER_EPOCH from OFF, resetting
      registers and serving stalled accesses. -/
  | domainOn (domain : Nat)
  /-- `WAKE_SOURCE` (R463): An enabled wake source asserts, setting WAKESRC and requesting ON for its
      target domains. For the sources that are edges, the edge itself. -/
  | wakeSource (source : Nat)
  /-- `XTAL_FAIL` (R459): Four missing slow-crystal edges switch the slow clock to the RC backup and
      set XTAL_FAIL and OSC_FAIL. -/
  | xtalFail
  /-- `XTAL_RETRY` (R459): PWR_CLKCFG.XTAL_RETRY returns to the crystal if it finds 1 024 good edges.
      `good`: 1 024 good edges are found. -/
  | xtalRetry (ini : Initiator) (good : Bool)
  /-- `REF_CHECK` (R460): REF_TICKS after REF_EN the part counts 1 024 reference edges and declares
      the reference good. `good`: the rate of the edges lies within ±1 000 ppm. -/
  | refCheck (good : Bool)
  /-- `REF_FAIL` (R460): A reference not good 4 ticks after REF_TICKS sets REF_FAIL and is retried
      every tick. -/
  | refFail
  /-- `PLL_LOCK` (R459): A PLL locks 20 µs after start and its clock becomes usable. 0 is the system
      PLL, 1 that of DRAM, 2 that of Ethernet. -/
  | pllLock (pll : Nat)
  /-- `VCORE_CHANGE` (R462): A write of PWR_VCORE.LOW starts a VCORE ramp, or raises RANGE while DRC,
      ETH or CAS is not OFF. -/
  | vcoreChange (ini : Initiator) (low : Bool)
  /-- `VCORE_DONE` (R462): The VCORE ramp ends and VCORE_DONE sets. -/
  | vcoreDone
  /-- `SOFTWARE_PART_RESET` (R466): A PWR_RESET write with key 0xD1 and PART requests a part reset.
      `value` is what is written to PWR_RESET. `air` is what lanes that the reset cuts had decoded. -/
  | softwarePartReset (ini : Initiator) (value : Word) (air : List Air)
  /-- `RESET_N` (R539): RESET_N low for 1 µs or more requests a part reset and the straps are sampled.
      The straps are as sampled when the pin rises. `air` is what lanes that the reset cuts had
      decoded. -/
  | resetN (master testmode : Bool) (air : List Air)
  /-- `WATCHDOG_EXPIRE` (R395): The watchdog expires and requests a part reset. `air` is what lanes
      that the reset cuts had decoded. -/
  | watchdogExpire (air : List Air)
  /-- `DEFERRED_RESET_APPLY` (R395): Once a running flash or NAND operation ends, the deferred part
      reset is applied. `air` is what lanes that the reset cuts had decoded. -/
  | deferredResetApply (air : List Air)
  /-- `POWER_ON` (R556): VBAT rises above the power-on threshold and the part comes out of power-on
      reset. `lost`: VBAT was lost (R471), so that this is a power-up; else it ends a brown-out. The
      straps are as sampled, and `vio` are the VIO banks that are supplied, each with the voltage it
      senses (R538). -/
  | powerOn (lost master testmode : Bool) (vio : List (VioBank × VioLevel))
  /-- `BROWN_OUT` (R556): VBAT falls below 1.80 V and the part resets at once with cause 5. -/
  | brownOut
  /-- `RTC_TICK` (R468): Each slow-clock tick advances SUBSEC, with trim, and at a second boundary
      carries the calendar, fires SECOND, MIDNIGHT and the alarm. -/
  | rtcTick
  /-- `RTC_READ` (R475): A read of RTC_TIME, RTC_DATE or RTC_SUBSEC captures or returns the reader's
      frozen shadow. `off` names the register: 0x800, 0x804 or 0x808. -/
  | rtcRead (ini : Initiator) (off : Nat)
  /-- `GO_TIME` (R477): RTC_COMMIT.GO_TIME checks the time shadow and accepts or rejects the commit.
      `value` holds the other bits written. -/
  | goTime (ini : Initiator) (value : Word)
  /-- `GO_DATE` (R478): RTC_COMMIT.GO_DATE checks the date shadow and accepts or rejects the commit.
      `value` holds the other bits written. -/
  | goDate (ini : Initiator) (value : Word)
  /-- `GO_WDAY` (R478): RTC_COMMIT.GO_WDAY checks the weekday and accepts or rejects the commit.
      `value` holds the other bits written. -/
  | goWday (ini : Initiator) (value : Word)
  /-- `RTC_LOAD` (R479): At the next tick that is not a second boundary an accepted RTC commit loads
      its fields and sets TIME_SET. -/
  | rtcLoad
  /-- `ZC_EDGE` (R482): A filtered rising edge at the ZC ball is counted. `since` is the time in µs
      since the last counted edge. -/
  | zcEdge (since : Nat)
  /-- `ZC_WINDOW_END` (R482): A ZC window ends, writing RTC_TRIMMEAS and adjusting TRIM in AUTO, or
      discarding the window. -/
  | zcWindowEnd
  /-- `ZC_GAP` (R482): 100 ms without a counted ZC edge discards the window. -/
  | zcGap
  /-- `MRC_CAPTURE_WINDOW` (R489): In each capture window every input forms a trigger from arrivals
      and passes it through limiter, domain and busy checks to its task. -/
  | mrcCaptureWindow
  /-- `DEFERRED_TRIGGER` (R489): At the tick edge ending a limiter interval a deferred trigger re-
      enters at the domain check. -/
  | deferredTrigger (input : Nat)
  /-- `LATCHED_TRIGGER_ACT` (R490): A latched trigger acts in the first cycle after its domain reaches
      ON. -/
  | latchedTriggerAct (input : Nat)
  /-- `SW_PULSE` (R487): A write of MRC_SWPULSE fires software pulse producers. -/
  | swPulse (ini : Initiator) (value : Word)
  /-- `SW_LEVEL` (R487): A write of MRC_SWLEVEL drives software level producers. -/
  | swLevel (ini : Initiator) (value : Word)
  /-- `STAMP_READ` (R491): A read of MRC_STAMPn_NS returns the capture and ends the STAMP input's busy
      condition. `stamp` is taken modulo 4. -/
  | stampRead (ini : Initiator) (stamp : Nat)
  /-- `CNT_WRITE` (R492): A write of MRC_CNTn_VAL sets a counter, taking precedence over same-window
      clear and increment. `counter` is taken modulo 4. -/
  | cntWrite (ini : Initiator) (counter : Nat) (value : Word)
  /-- `GPIO_EDGE` (R484): A selected edge on a GPIO pin pulses its Millrace producer. -/
  | gpioEdge (pin : Nat) (level : Bool)
  /-- `GPIO_RELEASE` (R542): GPIO_HOLD.RELEASE applies the GPIO registers to every latched pad in one
      cycle and clears HELD. -/
  | gpioRelease (ini : Initiator)
  /-- `LINK_TRAIN_START` (R520): A cascade link with CAS ON and EN set detects its peer and starts
      lane alignment. `down` names CAS_DN; else the link is CAS_UP. -/
  | linkTrainStart (down : Bool)
  /-- `LINK_UP` (R520): Both lanes align and idle cells are exchanged; the link is UP and LINK_CHG
      sets. `down` names CAS_DN; else the link is CAS_UP. -/
  | linkUp (down : Bool)
  /-- `LINK_TRAIN_TIMEOUT` (R520): 1 ms without alignment restarts link training. `down` names CAS_DN;
      else the link is CAS_UP. -/
  | linkTrainTimeout (down : Bool)
  /-- `CELL_CRC_FAIL` (R520): A cell with a bad CRC is sent again and counted. `down` names CAS_DN;
      else the link is CAS_UP. -/
  | cellCrcFail (down : Bool)
  /-- `LINK_DOWN` (R534): A link drops after 16 failures or loss of lock; the slave below clears REG
      and CAS_LOCK and posts LINK_DOWN. `down` names CAS_DN; else the link is CAS_UP. -/
  | linkDown (down : Bool)
  /-- `CAS_TIMING_EXCHANGE` (R521): Every 1.024 ms a timing exchange measures the offset to the
      upstream part and steers TIM. `down` names CAS_DN; else the link is CAS_UP, and `sec` and `ns`
      are the upstream time at departure, `rtt` the round trip in ns and `addend` the master's. -/
  | casTimingExchange (down : Bool) (sec ns rtt : Nat) (addend : Word)
  /-- `ENUMERATION` (R522): The master enumerates the chain, updating positions, LEN and CHAINGEN and
      completing items of lost positions. On the master `found` is what the slaves from position 1 on
      return; a slave takes `position`. -/
  | enumeration (found : List CasFound) (position : Nat)
  /-- `ACCEPT` (R523): CAS_POSCTRL.ACCEPT registers a NEW position and increments its SEPOCH. On a
      slave, `ini` CAS and its own position stand for the ACCEPT that the master sends it. -/
  | casAccept (ini : Initiator) (position : Nat)
  /-- `DROP` (R523): CAS_POSCTRL.DROP makes a position ABSENT and completes its items. -/
  | casDrop (ini : Initiator) (position : Nat)
  /-- `FORWARD_ENTRY` (R525): A slave forwards one tailrace entry and its PSDU upstream and advances
      its consumer indices. -/
  | forwardEntry (flips : List Flip)
  /-- `FORWARD_RECEIVE` (R526): The master writes a forwarded entry into its receive ring and posts a
      report. `entry` holds the eight words of the entry of slave `origin`, and `psdu` its PSDU. -/
  | forwardReceive (origin : Nat) (unlocked : Bool) (entry : List Word) (psdu : List Byte) (flips : List Flip)
  /-- `CAS_RXCONS_WRITE` (R531): A write of CAS_RXCONS releases slots of the master's receive ring. -/
  | casRxconsWrite (ini : Initiator) (value : Word)
  /-- `RCOPY` (R527): A CAS RCOPY item copies words to or from a registered slave. `words` are what
      the slave returns to a read, and `refused` is how many words were moved before an access that
      the slave refuses, if one is. -/
  | casRcopy (entry : Nat) (words : List Word) (refused : Option Nat) (flips : List Flip)
  /-- `BROADCAST` (R527): A CAS BROADCAST item writes address-value pairs at each named part.
      `refused` counts the writes that the slaves refuse. -/
  | casBroadcast (entry refused : Nat) (flips : List Flip)
  /-- `BARRIER` (R527): A CAS BARRIER item completes once earlier forwarded entries have reached the
      master. -/
  | casBarrier (entry : Nat)
  /-- `SNAPSHOT` (R528): A CAS SNAPSHOT item schedules a capture at one instant on each named part. -/
  | casSnapshot (entry : Nat)
  /-- `SNAPSHOT_CAPTURE` (R529): At the snapshot instant each named part captures its selected
      registers and sets SNAP_DONE. On a slave, `sec` and `ns` are the instant that the master has
      set; the master knows its own. -/
  | snapshotCapture (sec ns : Nat)
  /-- `CAS_RESET` (R527): A CAS RESET item applies a part reset to each named slave. With an entry,
      the item of the master; without, what it brings to this part, a slave. `air` is what lanes that
      the reset cuts had decoded. -/
  | casReset (entry : Option Nat) (air : List Air)
  /-- `REGISTER` (R524): A CAS REGISTER item has a NEW slave attest a challenge and returns the
      report. `report` is what the slave answers. -/
  | casRegister (entry : Nat) (report : List Byte) (flips : List Flip)
  /-- `ENUMERATE` (R527): A CAS ENUMERATE item runs an enumeration of the chain. `found` is what the
      slaves from position 1 on return. -/
  | casEnumerate (entry : Nat) (found : List CasFound)
  /-- `HOST_FRAME` (R543): A host SPI frame is checked and its accesses made, answered with data, CRC
      and status. the octets that the host clocks, from where the frame stands; none where it only
      clocks on while an access waits. -/
  | hostFrame (octets : List Byte) (flips : List Flip)
  /-- `HOST_CS_RISE` (R545): HOST_CS_N rising ends a frame, cancelling it before the CRC or discarding
      results after. -/
  | hostCsRise
  /-- `SERIAL_TX` (R549): A UART, SPIM, QSPI or I2C TX item sends octets. `lost` says that I2C
      arbitration was lost, `nack` after how many octets an I2C target did not acknowledge. -/
  | serialTx (entry : Nat) (lost : Bool) (nack : Option Nat) (flips : List Flip)
  /-- `SERIAL_RX` (R549): A UART, SPIM, QSPI or I2C RX item receives octets. each octet comes with
      whether it had a framing or parity error. -/
  | serialRx (entry : Nat) (octets : List (Byte × Bool)) (lost nack : Bool)
  /-- `XFER` (R549): A SPIM XFER item transfers octets in full duplex. -/
  | serialXfer (entry : Nat) (octets : List Byte) (flips : List Flip)
  /-- `SEND` (R549): A DLI SEND item sends a DALI forward frame, optionally twice and awaiting a
      backward frame. `collided` says that a collision was lost on each of 3 attempts; `back` is the
      backward frame and whether it had a framing error. -/
  | dliSend (entry : Nat) (collided : Bool) (back : Option (Byte × Bool))
  /-- `DLI_ARM` (R549): A DLI ARM item stages a frame to be sent at the next DLI_SEND trigger. as
      SEND, once a trigger has put the frame on the bus. -/
  | dliArm (entry : Nat) (collided : Bool) (back : Option (Byte × Bool))
  /-- `UART_RX_OCTET` (R551): An octet received with no RX item running is queued in the FIFO, or
      dropped when it is full. -/
  | uartRxOctet (uart : Nat) (octet : Byte) (err : Bool)
  /-- `UART_REPORT` (R551): With PER_REP.EN, 8 queued octets or 2 idle character times post a UART
      report. -/
  | uartReport (uart : Nat)
  /-- `DALI_MONITOR_FRAME` (R551): With MON and EN set, a frame from another DALI master is posted. -/
  | daliMonitorFrame (dli : Nat) (frame : Word) (len : Nat)
  /-- `I2C_HOLD_TIMEOUT` (R549): An I2C bus held 1 ms with no item is released with a STOP. -/
  | i2cHoldTimeout (i2c : Nat)
  /-- `PWM_WRAP` (R553): A PWM counter wraps at PERIOD, switching staged values and firing its period-
      end producer. -/
  | pwmWrap (pwm : Nat)
  /-- `LAUNCH_TIME_REACHED` (R252): When TIM reaches the launch time of a waiting timed item whose
      unit reads it as earliest start or window opening (RXWIN, ETH TX, PAL, DRC and the other units
      of R252's last row, an offline SYN CAL, a CAS item), the unit starts the item or opens its
      window. -/
  | launchTimeReached (entry : Nat) (flips : List Flip)
  /-- `NB_AGE_MINUTE` (R198): Each minute the AGE field of every neighbour context increments,
      saturating at 2047. -/
  | nbAgeMinute
  deriving DecidableEq, Repr

end Sys2Proof
end

