-- ==== Sys2Proof/Decode.lean ====
section
/-! DEFINITION. The commands that a word spells by the bits of the opcode table. Every row of the table has an
empty field list and gives no bits, so that no word spells a command. -/

namespace Sys2Proof

/-- The command that `nbits` bits of value `w` spell: none, since no row of the table gives bits. -/
def decodeTableWord (_nbits _w : Nat) : Option Instr := none

end Sys2Proof
end

