-- ==== Sys2Proof/Config.lean ====
section
/-! DEFINITION. What an implementation fixes and the free values: constants without a body, so that no
proof can see what they are. A statement about the part holds whatever they are. -/

namespace Sys2Proof.Config

/-- The contents of an octet of memory whose bank or device lost its contents (R458, R371): the
generation counts the losses, the key is the octet's. No rule gives a value. -/
opaque lostByte (generation key : Nat) : Byte

/-- A value that the spec leaves undefined after a command that goes on, fresh for each `n`, which the
free counter of the state supplies. -/
opaque freeValue (n : Nat) : Word

/-- Whether a quantity that lies between two steps of a register's unit is shown as the upper step, where
the rule that names the unit states no rounding: `rule` is the rule's number, `x` the exact quantity in
the finer unit. -/
opaque roundsUp (rule : Nat) (x : Int) : Bool

/-- Whether the narrow path reports frames that fail their CRC or PHR: CHZ_CHCFG.CRCREP says so of a
channel, and no field says so of the narrow path. -/
opaque narrowReports : Bool

/-- Word `k`, 0 to 7, of the device root key that the PUF gives (R314). -/
opaque drk (k : Nat) : Word

/-- Word `k`, 0 to 15, of the Varade root public key `i` in the Primer ROM (R316). -/
opaque varadeRoot (i k : Nat) : Word

/-- The PART half of HWTYPE in OTP (R318). -/
opaque part : Half

/-- Word `k`, 0 to 3, of the debug challenge drawn as the `n`-th (R332, R333). -/
opaque challenge (n k : Nat) : Word

/-- Air time in ns of an MR-O-QPSK PPDU with PSDU octets and spreading code, of its preamble and SFD alone, and its
chips, the first in bit 0, for the PSDU whose octets spell `psdu`: the standard's own (R126, R133). -/
opaque oqpskAir (len sf : Nat) : Nat
opaque oqpskShr (sf : Nat) : Nat
opaque oqpskChips (sf psdu len : Nat) : Nat

/-- The Primer's boot ROM (R38), whose contents the spec does not give. -/
opaque rom (offset : Nat) : Byte

/-- The raw tick, within a trim window, from which the evenly spaced trim ticks are counted (R481). -/
opaque trimPhase : Nat

/-- OFFSET and DETAIL of ERR_INFO for an error with no register access behind it, where its rule states none (R54, R66, R458). -/
opaque errOffset (page code : Nat) : Nat
opaque errDetail (page code : Nat) : Nat

end Sys2Proof.Config
end

