-- ==== Sys2Proof/Machine/Bits.lean ====
section
/-! DEFINITION. Bit fields, byte order and sign extension: the plain helpers through which every
block reads and writes the fields of its registers and words. Descriptor and completion words are
little-endian in memory (R21). -/

namespace Sys2Proof.Machine

/-- Bits `hi` down to `lo` of a bit vector, as a number. -/
def bits {n : Nat} (w : BitVec n) (hi lo : Nat) : Nat :=
  (w.toNat >>> lo) % 2 ^ (hi + 1 - lo)

/-- Bit `i` of a bit vector. -/
def bit {n : Nat} (w : BitVec n) (i : Nat) : Bool := w.getLsbD i

/-- The word with bits `hi` down to `lo` replaced by the low bits of `v`. -/
def setBits (w : Word) (hi lo v : Nat) : Word :=
  let m := (2 ^ (hi + 1 - lo) - 1) <<< lo
  (w &&& ~~~(BitVec.ofNat 32 m)) ||| BitVec.ofNat 32 ((v % 2 ^ (hi + 1 - lo)) <<< lo)

/-- The word with bit `i` set to `b`. -/
def setBit (w : Word) (i : Nat) (b : Bool) : Word := setBits w i i b.toNat

/-- A number as a register word. -/
def word (n : Nat) : Word := BitVec.ofNat 32 n

/-- The number of a two's complement field of `n` bits. -/
def signed (n v : Nat) : Int :=
  if v % 2 ^ n < 2 ^ (n - 1) then (v % 2 ^ n : Nat) else ((v % 2 ^ n : Nat) : Int) - 2 ^ n

/-- An integer placed in a field of `n` bits, two's complement. -/
def unsigned (n : Nat) (v : Int) : Nat := (v % 2 ^ n).toNat

/-- `v` limited to `[lo, hi]`. -/
def clampInt (lo hi v : Int) : Int := if v < lo then lo else if hi < v then hi else v

/-- A counter of `n` bits that saturates at all ones. -/
def satInc (n v : Nat) : Nat := if v + 1 < 2 ^ n then v + 1 else 2 ^ n - 1

/-- A field of a register word that counts and saturates at all ones. -/
def incField (w : Word) (hi lo k : Nat) : Word :=
  let m := 2 ^ (hi + 1 - lo) - 1
  setBits w hi lo (min (bits w hi lo + k) m)

/-- The little-endian octets of a word (R21). -/
def bytesOfWord (w : Word) : List Byte :=
  [w.setWidth 8, (w >>> 8).setWidth 8, (w >>> 16).setWidth 8, (w >>> 24).setWidth 8]

/-- The number that little-endian octets spell. -/
def natOfBytesLE : List Byte → Nat
  | [] => 0
  | b :: bs => b.toNat + 256 * natOfBytesLE bs

/-- The number that big-endian octets spell. -/
def natOfBytesBE (bs : List Byte) : Nat := bs.foldl (fun a b => a * 256 + b.toNat) 0

/-- `n` little-endian octets of a number. -/
def bytesLE : Nat → Nat → List Byte
  | 0, _ => []
  | n + 1, v => BitVec.ofNat 8 v :: bytesLE n (v / 256)

/-- `n` big-endian octets of a number. -/
def bytesBE (n v : Nat) : List Byte := (bytesLE n v).reverse

/-- The word that the first four little-endian octets spell. -/
def wordOfBytes (bs : List Byte) : Word := BitVec.ofNat 32 (natOfBytesLE (bs.take 4))

/-- Octets cut into little-endian words. -/
def wordsOfBytes : Nat → List Byte → List Word
  | 0, _ => []
  | n + 1, bs => wordOfBytes bs :: wordsOfBytes n (bs.drop 4)

/-- The octets of a list of words, each little-endian. -/
def bytesOfWords (ws : List Word) : List Byte := ws.flatMap bytesOfWord

/-- Bitwise exclusive OR of two octet strings, as long as the shorter. -/
def xorBytes (a b : List Byte) : List Byte := a.zipWith (· ^^^ ·) b

/-- Octets extended with zeros to length `n`, or cut to it. -/
def padTo (n : Nat) (bs : List Byte) : List Byte := (bs ++ List.replicate n 0).take n

/-- `a - b` modulo `m`, for indices that count modulo `m`. -/
def subMod (m a b : Nat) : Nat := (a + m - b % m) % m

/-- The least index below `n`, from `start` upward and wrapping, that satisfies `p`: the choice of a
round-robin arbiter (R28). -/
def roundRobin (n start : Nat) (p : Nat → Bool) : Option Nat :=
  ((List.range n).map (fun k => (start + k) % n)).find? p

end Sys2Proof.Machine
end

