-- ==== Sys2Proof/Machine/Regs.lean ====
section
/-! DEFINITION. The register tables: for every page, the registers its chapter lists with their access
types, reset values and ranges. A register's behaviour beyond its row stands in its block's file. -/

namespace Sys2Proof.Machine

/-- The variants (R1): one die with units fused off. -/
inductive Variant where
  | lm8128 | lm8032 | lm8004
  deriving DecidableEq, Repr

/-! ### Page indices (R40) -/
namespace Pg
abbrev pwr : Nat := 0x00
abbrev rtc : Nat := 0x01
abbrev mrc : Nat := 0x02
abbrev wdt : Nat := 0x03
abbrev wrx : Nat := 0x04
abbrev tag : Nat := 0x05
abbrev rfe : Nat := 0x08
abbrev txa : Nat := 0x09
abbrev syn : Nat := 0x0A
abbrev chz : Nat := 0x0C
abbrev phy : Nat := 0x0D
abbrev lnk : Nat := 0x10
abbrev tim : Nat := 0x11
abbrev eth : Nat := 0x12
abbrev flm : Nat := 0x14
abbrev sec : Nat := 0x18
abbrev pal : Nat := 0x19
abbrev upd : Nat := 0x1A
abbrev cpu : Nat := 0x20
abbrev drc : Nat := 0x28
abbrev flc : Nat := 0x29
abbrev nmc : Nat := 0x2A
abbrev cas : Nat := 0x30
abbrev dli : Nat := 0x38
abbrev uart : Nat := 0x40
abbrev i2c : Nat := 0x44
abbrev spim : Nat := 0x46
abbrev qspi : Nat := 0x48
abbrev pwm : Nat := 0x49
abbrev gpio : Nat := 0x4A
abbrev hspi : Nat := 0x4B
end Pg

/-! ### Domain numbers (R450) -/
namespace Dm
abbrev aon : Nat := 0
abbrev wrx : Nat := 1
abbrev rfe : Nat := 2
abbrev syn : Nat := 3
abbrev chz0 : Nat := 4
abbrev txa : Nat := 8
abbrev lnk : Nat := 9
abbrev ctl : Nat := 10
abbrev sec : Nat := 11
abbrev flc : Nat := 12
abbrev drc : Nat := 13
abbrev nmc : Nat := 14
abbrev eth : Nat := 15
abbrev tag : Nat := 16
abbrev cas : Nat := 17
abbrev per : Nat := 18
abbrev mem0 : Nat := 32
end Dm

/-- The mask of bits `hi` down to `lo`. -/
def fld (hi lo : Nat) : Nat := (2 ^ (hi + 1 - lo) - 1) <<< lo

/-- A field and the values that its description allows: outside `[min, max]` a write raises RANGE. -/
structure FieldRange where
  hi : Nat
  lo : Nat
  min : Nat
  max : Nat
  deriving DecidableEq, Repr

/-- One row of a register table (R5). -/
structure RegDef where
  off : Nat
  name : String
  reset : Nat := 0
  /-- Bits that a write sets. -/
  rw : Nat := 0
  /-- Bits that a write of 1 clears. -/
  w1c : Nat := 0
  /-- Bits that a read clears. -/
  rc : Nat := 0
  staged : Bool := false
  /-- A configuration register in the sense of LOCK (R69). -/
  config : Bool := false
  /-- How many registers the row stands for, and their distance. -/
  count : Nat := 1
  stride : Nat := 4
  ranges : List FieldRange := []
  /-- A write that puts a field outside its range has no effect; else the field alone keeps its value. -/
  whole : Bool := false
  deriving DecidableEq, Repr

/-- The row holds the register at offset `off`. -/
def RegDef.covers (d : RegDef) (off : Nat) : Bool :=
  d.off ≤ off && (off - d.off) % d.stride == 0 && (off - d.off) / d.stride < d.count

/-- The block type of each page (R40). -/
def pageTable : List (Nat × Nat × Nat) :=
  [(0x00, 0x01, 0), (0x01, 0x02, 0), (0x02, 0x03, 0), (0x03, 0x04, 0), (0x04, 0x05, 0), (0x05, 0x06, 0),
   (0x08, 0x10, 0), (0x09, 0x10, 1), (0x0A, 0x11, 0), (0x0C, 0x12, 0), (0x0D, 0x13, 0), (0x10, 0x20, 0),
   (0x11, 0x21, 0), (0x12, 0x22, 0), (0x14, 0x24, 0), (0x18, 0x30, 0), (0x19, 0x31, 0), (0x1A, 0x32, 0),
   (0x20, 0x40, 0), (0x21, 0x40, 1), (0x22, 0x40, 2), (0x23, 0x40, 3), (0x28, 0x50, 0), (0x29, 0x51, 0),
   (0x2A, 0x52, 0), (0x30, 0x60, 0), (0x38, 0x70, 0), (0x39, 0x70, 1), (0x40, 0x80, 0), (0x41, 0x80, 1),
   (0x42, 0x80, 2), (0x43, 0x80, 3), (0x44, 0x81, 0), (0x45, 0x81, 1), (0x46, 0x82, 0), (0x47, 0x82, 1),
   (0x48, 0x83, 0), (0x49, 0x84, 0), (0x4A, 0x85, 0), (0x4B, 0x86, 0)]

/-- The page index is in the page index table (R39, R40). -/
def pageListed (page : Nat) : Bool := pageTable.any (fun r => r.1 == page)

/-- Every listed page. -/
def allPages : List Nat := pageTable.map (·.1)

/-- The common header (R45): the registers that hold values of their own. -/
def headerRegs : List RegDef :=
  [{ off := 0x008, name := "BLK_CTRL", rw := fld 5 4 + 1 },
   { off := 0x010, name := "INT_RAW" },
   { off := 0x014, name := "INT_EN", rw := fld 31 0 },
   { off := 0x020, name := "ERR_CODE" },
   { off := 0x024, name := "ERR_INFO" },
   { off := 0x028, name := "CFG_COMMIT" },
   { off := 0x02C, name := "CFG_GEN" },
   { off := 0x030, name := "LOCK" },
   { off := 0x080, name := "CHSEL" }]

/-- The Flume page (R16, R17). -/
def flmRegs : List RegDef :=
  [{ off := 0x100, name := "FLM_WR_BASE", rw := fld 31 5, config := true },
   { off := 0x104, name := "FLM_WR_CFG", reset := 4, rw := fld 31 16 + fld 14 12 + fld 3 0, config := true },
   { off := 0x108, name := "FLM_WR_PROD", rw := fld 10 0 },
   { off := 0x10C, name := "FLM_WR_CONS" },
   { off := 0x110, name := "FLM_WR_CREDIT", rw := fld 25 16 + fld 9 0, staged := true, config := true },
   { off := 0x114, name := "FLM_WR_STAT" },
   { off := 0x118, name := "FLM_WR_CTRL" },
   { off := 0x120, name := "FLM_TR_BASE", rw := fld 31 5, config := true },
   { off := 0x124, name := "FLM_TR_CFG", reset := 4, rw := fld 31 31 + fld 23 0, config := true },
   { off := 0x128, name := "FLM_TR_PROD" },
   { off := 0x12C, name := "FLM_TR_CONS", rw := fld 10 0 },
   { off := 0x130, name := "FLM_TR_STAT", rc := fld 15 0 },
   { off := 0x800, name := "FLM_IFT_COUNT", rc := fld 25 16 },
   { off := 0x804, name := "FLM_IFT_RESV" },
   { off := 0x808, name := "FLM_TR_PEND0" },
   { off := 0x80C, name := "FLM_TR_PEND1" },
   { off := 0x810, name := "FLM_HALT0" },
   { off := 0x814, name := "FLM_HALT1" }]

/-- The PWR page (R465, R466). -/
def pwrRegs : List RegDef :=
  [{ off := 0x100, name := "PWR_DM_CTRL", rw := fld 5 4 },
   { off := 0x104, name := "PWR_DM_IDLE", rw := fld 31 31 + fld 15 0, config := true },
   { off := 0x108, name := "PWR_DM_STAT" },
   { off := 0x10C, name := "PWR_DM_CNT", rc := fld 31 0 },
   { off := 0x800, name := "PWR_ON0" },
   { off := 0x804, name := "PWR_ON1" },
   { off := 0x808, name := "PWR_WAKEEN", rw := fld 8 0, config := true },
   { off := 0x80C, name := "PWR_WAKESRC", w1c := fld 8 0 },
   { off := 0x810, name := "PWR_WAKETGT", rw := fld 15 0, config := true },
   { off := 0x814, name := "PWR_WARMPC_C", rw := fld 31 1, config := true },
   { off := 0x818, name := "PWR_WARMPC_L", rw := fld 31 1, config := true },
   { off := 0x81C, name := "PWR_CLKCFG", reset := 0x21, rw := fld 7 0, config := true, ranges := [⟨7, 0, 1, 255⟩] },
   { off := 0x820, name := "PWR_CLKSTAT" },
   { off := 0x824, name := "PWR_VCORE", rw := fld 0 0, config := true },
   { off := 0x828, name := "PWR_RESET" },
   { off := 0x82C, name := "PWR_RSTCAUSE", reset := 1 }]

/-- The DRC page (R361, R362). -/
def drcRegs : List RegDef :=
  [{ off := 0x100, name := "DRC_RK_CFG", rw := fld 31 29 + fld 9 8 + fld 4 4, staged := true, config := true,
     ranges := [⟨9, 8, 0, 2⟩] },
   { off := 0x104, name := "DRC_RK_STAT" },
   { off := 0x108, name := "DRC_RK_CE", rc := fld 15 0 },
   { off := 0x10C, name := "DRC_RK_CEWIN" },
   { off := 0x110, name := "DRC_RK_UE", rc := fld 15 0 },
   { off := 0x114, name := "DRC_RK_MIGPOS" },
   { off := 0x118, name := "DRC_RK_TRAIN" },
   { off := 0x11C, name := "DRC_RK_CETHR", reset := 0x40, rw := fld 15 0, config := true },
   { off := 0x800, name := "DRC_MAP", reset := 0xC02, rw := fld 11 8 + fld 1 0, staged := true, config := true,
     ranges := [⟨11, 8, 8, 15⟩] },
   { off := 0x804, name := "DRC_MAPSIZE" },
   { off := 0x808, name := "DRC_SPEED", reset := 0x000C1103, rw := fld 20 16 + fld 12 8 + fld 2 0, staged := true,
     config := true, ranges := [⟨2, 0, 0, 3⟩] },
   { off := 0x80C, name := "DRC_REFCFG", reset := 4, rw := fld 31 31 + fld 3 0, staged := true, config := true,
     ranges := [⟨3, 0, 0, 8⟩] },
   { off := 0x810, name := "DRC_ECCCFG", reset := 0x0E100001, rw := fld 31 16 + fld 0 0, config := true,
     ranges := [⟨31, 16, 1, 65535⟩] },
   { off := 0x814, name := "DRC_MIGCFG", reset := 4, rw := fld 31 31 + fld 3 0, staged := true, config := true,
     ranges := [⟨3, 0, 1, 15⟩] },
   { off := 0x818, name := "DRC_CHCTRL" },
   { off := 0x81C, name := "DRC_MIGCTRL" },
   { off := 0x820, name := "DRC_CHSTAT" },
   { off := 0x824, name := "DRC_PARCNT", rc := fld 31 0 },
   { off := 0x828, name := "DRC_EVCFG", rw := fld 31 31 + fld 29 24, config := true },
   { off := 0x82C, name := "DRC_ERRADDR" },
   { off := 0x830, name := "DRC_ERRINFO" }]

/-- The FLC page (R385, R386). -/
def flcRegs : List RegDef :=
  [{ off := 0x800, name := "FLC_WS", reset := 0x107, rw := fld 8 8 + fld 2 0, config := true },
   { off := 0x804, name := "FLC_STAT" },
   { off := 0x808, name := "FLC_MEDCFG", reset := 0x00080001, rw := fld 19 16 + fld 7 0, config := true,
     ranges := [⟨19, 16, 1, 11⟩, ⟨7, 0, 1, 255⟩] },
   { off := 0x80C, name := "FLC_CNT", rc := fld 31 0 },
   { off := 0x810, name := "FLC_PROT0" },
   { off := 0x814, name := "FLC_PROT1" },
   { off := 0x818, name := "FLC_PWD_LO" },
   { off := 0x81C, name := "FLC_PWD_HI" },
   { off := 0x820, name := "FLC_PWCTRL" },
   { off := 0x824, name := "FLC_RSTINFO" },
   { off := 0x828, name := "FLC_SPARES" },
   { off := 0x82C, name := "FLC_ERRADDR" }]

/-- The CHZ page (R70, R72, R78 to R80, R94). -/
def chzRegs : List RegDef :=
  [{ off := 0x100, name := "CHZ_CHCFG", rw := fld 31 28 + fld 21 16 + fld 11 8 + fld 7 0, staged := true, config := true },
   { off := 0x104, name := "CHZ_SEARCHSET", rw := 0x8F8F8F8F, staged := true, config := true },
   { off := 0x108, name := "CHZ_AFC", reset := 0x80190000, rw := fld 31 31 + fld 23 16 + fld 11 0, staged := true, config := true },
   { off := 0x10C, name := "CHZ_STATUS", reset := 0xFF },
   { off := 0x110, name := "CHZ_NF", reset := 0xFF },
   { off := 0x114, name := "CHZ_FREQERR" },
   { off := 0x118, name := "CHZ_CNT_DET", rc := fld 15 0 },
   { off := 0x11C, name := "CHZ_CNT_ERR", rc := fld 31 0 },
   { off := 0x120, name := "CHZ_CNT_MISS", rc := fld 31 0 },
   { off := 0x800, name := "CHZ_PLAN", reset := 0xD2B18, rw := fld 25 24 + fld 19 0, staged := true, config := true,
     ranges := [⟨25, 24, 0, 2⟩], whole := true },
   { off := 0x804, name := "CHZ_NFCFG", reset := 0xC, rw := fld 31 31 + fld 29 8 + fld 3 0, config := true,
     ranges := [⟨3, 0, 8, 15⟩] },
   { off := 0x808, name := "CHZ_NFBASE", rw := fld 31 9, config := true },
   { off := 0x810, name := "CHZ_LANES" },
   { off := 0x814, name := "CHZ_LANEHW", rc := fld 31 0 },
   { off := 0x818, name := "CHZ_BLANK" }]

/-- The PHY page (R96, R97, R112 to R116, R136 to R139). -/
def phyRegs : List RegDef :=
  [{ off := 0x800, name := "PHY_MT_MOD", rw := fld 31 31 + fld 26 24 + fld 21 20 + fld 16 16 + fld 12 12 + fld 9 8 + fld 3 1,
     staged := true, config := true, count := 16, stride := 16 },
   { off := 0x804, name := "PHY_MT_DET", rw := fld 31 16 + fld 10 0, staged := true, config := true, count := 16, stride := 16 },
   { off := 0x808, name := "PHY_MT_TX", rw := fld 31 16, staged := true, config := true, count := 16, stride := 16 },
   { off := 0x80C, name := "PHY_MT_TS", rw := fld 15 0, staged := true, config := true, count := 16, stride := 16 },
   { off := 0x900, name := "PHY_HR_BASE", rw := fld 31 7, config := true, count := 16, stride := 0x20 },
   { off := 0x904, name := "PHY_HR_CFG", reset := 0x704, rw := fld 31 31 + fld 23 16 + fld 11 8 + fld 3 0, config := true,
     count := 16, stride := 0x20 },
   { off := 0x908, name := "PHY_HR_PROD", count := 16, stride := 0x20 },
   { off := 0x90C, name := "PHY_HR_CONS", rw := fld 10 0, count := 16, stride := 0x20 },
   { off := 0x910, name := "PHY_HR_STAT", rc := fld 15 0, count := 16, stride := 0x20 },
   { off := 0xB00, name := "PHY_PATH", rw := fld 1 0, staged := true, config := true, ranges := [⟨1, 0, 0, 2⟩] },
   { off := 0xB04, name := "PHY_STAGE_BASE", rw := fld 31 8, config := true },
   { off := 0xB08, name := "PHY_STAGE_CFG", rw := fld 10 0, config := true, ranges := [⟨10, 0, 0, 1024⟩] },
   { off := 0xB10, name := "PHY_NB_CTRL", rw := fld 1 0, ranges := [⟨1, 0, 0, 2⟩] },
   { off := 0xB14, name := "PHY_NB_SEARCHSET", rw := 0x8F8F8F8F, staged := true, config := true },
   { off := 0xB18, name := "PHY_NB_CFG", reset := 0x3E8, rw := fld 29 24 + fld 19 16 + fld 15 0, staged := true, config := true },
   { off := 0xB1C, name := "PHY_NB_STAT", reset := 0xFF },
   { off := 0xB20, name := "PHY_NB_ENTRY", rw := fld 31 31 + fld 29 24 + fld 19 0, staged := true, config := true, count := 4,
     ranges := [⟨29, 28, 0, 2⟩] },
   { off := 0xB30, name := "PHY_NB_AFC", reset := 0x80190000, rw := fld 31 31 + fld 23 16 + fld 11 0, staged := true, config := true },
   { off := 0xB34, name := "PHY_NB_FREQERR" },
   { off := 0xC00, name := "PHY_TS_BOARD", rw := fld 31 0, config := true },
   { off := 0xC04, name := "PHY_TS_BOARDTX", rw := fld 15 0, config := true }]

/-- The resets of PHY_MODETAB's entries (R140), words 0 to 2. -/
def modetabReset (e w : Nat) : Nat :=
  match w with
  | 0 => [0x80000004, 0x81000004, 0x82000004, 0x83000004, 0x84000104, 0x8500000C, 0x8510000C, 0x8520000C, 0x8530000C].getD e 0
  | 1 => if e < 5 then 0x282007FF else if e < 9 then 0x1C0407FF else 0
  | 2 => if e < 5 then 0x80000 else if e < 9 then 0x100000 else 0
  | _ => 0

/-- The RFE page (R153, R154, R156 to R161, R172). -/
def rfeRegs : List RegDef :=
  [{ off := 0x800, name := "RFE_ANT", rw := fld 4 4 + fld 1 0, staged := true, config := true, ranges := [⟨1, 0, 0, 2⟩],
     whole := true },
   { off := 0x804, name := "RFE_ANTSEL", rw := fld 0 0 },
   { off := 0x808, name := "RFE_AGC", rw := fld 31 30 + fld 19 16, config := true, ranges := [⟨31, 30, 0, 2⟩, ⟨19, 16, 0, 11⟩] },
   { off := 0x80C, name := "RFE_GAIN" },
   { off := 0x810, name := "RFE_BGCFG", reset := 0xC0000000, rw := fld 31 30, config := true },
   { off := 0x814, name := "RFE_IQ" },
   { off := 0x818, name := "RFE_IQSEED" },
   { off := 0x81C, name := "RFE_DC" },
   { off := 0x820, name := "RFE_FTRIM" },
   { off := 0x840, name := "RFE_FEMTAB", rw := fld 5 0, config := true, count := 8 },
   { off := 0x860, name := "RFE_FEMTIME", reset := 0x202, rw := fld 15 0, config := true,
     ranges := [⟨15, 8, 0, 15⟩, ⟨7, 0, 0, 5⟩] }]

/-- The SYN page (R165, R166). -/
def synRegs : List RegDef :=
  [{ off := 0x800, name := "SYN_CFG", reset := 0x80000A00, rw := fld 31 31 + fld 15 8 + fld 1 0, staged := true, config := true },
   { off := 0x804, name := "SYN_TXBASE", reset := 0xD2B18, rw := fld 25 24 + fld 19 0, staged := true, config := true,
     ranges := [⟨25, 24, 0, 2⟩] },
   { off := 0x808, name := "SYN_TXCOUNT", reset := 0x80, rw := fld 8 0, staged := true, config := true },
   { off := 0x80C, name := "SYN_STAT" },
   { off := 0x810, name := "SYN_TEMP" },
   { off := 0x814, name := "SYN_CNT", rc := fld 31 0 }]

/-- The TXA page (R182, R183). -/
def txaRegs : List RegDef :=
  [{ off := 0x800, name := "TXA_CFG", rw := fld 5 4 + fld 0 0, staged := true, config := true, ranges := [⟨5, 4, 0, 2⟩] },
   { off := 0x804, name := "TXA_PWR", reset := 0x28, rw := fld 6 0, config := true, ranges := [⟨6, 0, 0, 60⟩] },
   { off := 0x808, name := "TXA_HOLD", reset := 0xC8, rw := fld 15 0, config := true },
   { off := 0x80C, name := "TXA_STAT" },
   { off := 0x810, name := "TXA_CNT", rc := fld 31 0 }]

/-- The WRX page (R188, R189). -/
def wrxRegs : List RegDef :=
  [{ off := 0x800, name := "WRX_CFG", reset := 0x100, rw := fld 8 8 + fld 1 0, config := true },
   { off := 0x804, name := "WRX_CODE", rw := fld 17 0, config := true },
   { off := 0x808, name := "WRX_DUTY", reset := 0x0CCD0021, rw := fld 31 16 + fld 7 0, config := true,
     ranges := [⟨31, 16, 2, 65535⟩, ⟨7, 0, 1, 255⟩] },
   { off := 0x80C, name := "WRX_LEVEL", reset := 0x96, rw := fld 7 0, config := true, ranges := [⟨7, 0, 150, 240⟩] },
   { off := 0x810, name := "WRX_FREQ", reset := 0xD3EA0, rw := fld 19 0, config := true, ranges := [⟨19, 0, 750000, 960000⟩] },
   { off := 0x814, name := "WRX_HUNT", reset := 0x78, rw := fld 15 0, config := true, ranges := [⟨15, 0, 1, 65535⟩] },
   { off := 0x818, name := "WRX_STAT", w1c := fld 1 0 },
   { off := 0x81C, name := "WRX_CNT", rc := fld 31 0 }]

/-- The TIM page (R242, R245, R255, R257, R259). What R561 holds in AON stands in the state of TIM. -/
def timRegs : List RegDef :=
  [{ off := 0x800, name := "TIM_NS" }, { off := 0x804, name := "TIM_SEC_LO" }, { off := 0x808, name := "TIM_SEC_HI" },
   { off := 0x80C, name := "TIM_FRAC" },
   { off := 0x810, name := "TIM_ADDEND", reset := 0x50000000, rw := fld 31 0, staged := true, config := true },
   { off := 0x814, name := "TIM_ADJCFG", reset := 0x00640000, rw := fld 31 16 + fld 8 8 + fld 1 0, staged := true,
     config := true },
   { off := 0x818, name := "TIM_ADJ_NS", rw := fld 31 0, staged := true, config := true },
   { off := 0x81C, name := "TIM_ADJ_SECLO", rw := fld 31 0, staged := true, config := true },
   { off := 0x820, name := "TIM_ADJ_SECHI", rw := fld 15 0, staged := true, config := true },
   { off := 0x824, name := "TIM_STAT", reset := 0x20000000 },
   { off := 0x828, name := "TIM_SLEWREM" }, { off := 0x82C, name := "TIM_LAST_NS" }, { off := 0x830, name := "TIM_LAST_SEC" },
   { off := 0x834, name := "TIM_SLEEPCFG", reset := 0x000F0014, rw := fld 19 0, config := true, ranges := [⟨19, 16, 10, 16⟩] },
   { off := 0x838, name := "TIM_TICKPER", reset := 0x77359400 }, { off := 0x83C, name := "TIM_WAKETICKS" },
   { off := 0x840, name := "TIM_WAKEUNC" },
   { off := 0x844, name := "TIM_PPSOUT", reset := 0x64, rw := fld 31 29 + fld 9 0, config := true, ranges := [⟨9, 0, 1, 999⟩] },
   { off := 0x848, name := "TIM_PPSOFS", rw := fld 31 0, config := true },
   { off := 0x84C, name := "TIM_PPSIN", rw := fld 31 30 + fld 15 0, config := true },
   { off := 0x850, name := "TIM_PPSIN_NS" }, { off := 0x854, name := "TIM_PPSIN_SEC" },
   { off := 0x858, name := "TIM_PPSIN_CNT", rc := fld 15 0 },
   { off := 0x860, name := "TIM_CMP_CFG", rw := fld 31 30, w1c := fld 29 28, config := true, count := 4, stride := 16 },
   { off := 0x864, name := "TIM_CMP_NS", rw := fld 31 0, config := true, count := 4, stride := 16 },
   { off := 0x868, name := "TIM_CMP_SEC", rw := fld 31 0, config := true, count := 4, stride := 16 },
   { off := 0x86C, name := "TIM_CMP_PER", rw := fld 31 0, config := true, count := 4, stride := 16 },
   { off := 0x8A0, name := "TIM_BCNCFG", reset := 0x2710, rw := fld 31 30 + fld 23 0, staged := true, config := true,
     ranges := [⟨31, 30, 0, 2⟩] },
   { off := 0x8A4, name := "TIM_BCN_OFS" },
   { off := 0x8A8, name := "TIM_BCN_CNT", rc := fld 31 0 }]

/-- The ETH page (R261, R262). -/
def ethRegs : List RegDef :=
  [{ off := 0x800, name := "ETH_MACCFG", reset := 0x05F20002, rw := fld 27 16 + fld 4 0, staged := true, config := true,
     ranges := [⟨1, 0, 0, 2⟩] },
   { off := 0x804, name := "ETH_ADDRLO", rw := fld 31 0, staged := true, config := true },
   { off := 0x808, name := "ETH_ADDRHI", rw := fld 15 0, staged := true, config := true },
   { off := 0x80C, name := "ETH_PTPCFG", rw := fld 31 31 + fld 2 0, staged := true, config := true },
   { off := 0x810, name := "ETH_PHYDLY", rw := fld 31 0, config := true },
   { off := 0x814, name := "ETH_LATE", reset := 10, rw := fld 15 0, config := true },
   { off := 0x820, name := "ETH_RXBASE", rw := fld 31 7, config := true },
   { off := 0x824, name := "ETH_RXCFG", reset := 0xB04, rw := fld 31 31 + fld 29 24 + fld 11 8 + fld 3 0, config := true },
   { off := 0x828, name := "ETH_RXPROD" },
   { off := 0x82C, name := "ETH_RXCONS", rw := fld 10 0 },
   { off := 0x830, name := "ETH_STAT" },
   { off := 0x834, name := "ETH_CNT", rc := fld 31 0 },
   { off := 0x838, name := "ETH_MDIO", rw := fld 31 30 + fld 25 0 },
   { off := 0x83C, name := "ETH_WOL", rw := fld 31 31, config := true }]

/-- The SEC page (R334, R335). -/
def secRegs : List RegDef :=
  [{ off := 0x800, name := "SEC_LIFE" }, { off := 0x804, name := "SEC_BOOTSTAT" }, { off := 0x808, name := "SEC_HWTYPE" },
   { off := 0x80C, name := "SEC_ROLLBACK" }, { off := 0x810, name := "SEC_MEAS", count := 8 },
   { off := 0x830, name := "SEC_UNITID", count := 8 }, { off := 0x850, name := "SEC_DBGCHAL", count := 4 },
   { off := 0x860, name := "SEC_DBGSTAT" }, { off := 0x864, name := "SEC_RNGSTAT", reset := 0x80000000 }]

/-- The PAL page (R339, R340). -/
def palRegs : List RegDef :=
  [{ off := 0x100, name := "PAL_PG_CFG" }, { off := 0x104, name := "PAL_PG_CTRL", config := true }, { off := 0x108, name := "PAL_PG_STAT" },
   { off := 0x10C, name := "PAL_PG_CNT", rc := fld 31 0 }, { off := 0x800, name := "PAL_ENGSTAT" }]

/-- The LNK page (R197, R198). -/
def lnkRegs : List RegDef :=
  [{ off := 0x100, name := "LNK_NB_EXTLO", rw := fld 31 0, staged := true, config := true },
   { off := 0x104, name := "LNK_NB_EXTHI", rw := fld 31 0, staged := true, config := true },
   { off := 0x108, name := "LNK_NB_SHORT", reset := 0xFFFFFFFE, rw := fld 31 0, staged := true, config := true },
   { off := 0x10C, name := "LNK_NB_CFG", rw := fld 31 28 + fld 25 20 + fld 18 12 + fld 8 0, staged := true, config := true,
     ranges := [⟨30, 29, 0, 1⟩] },
   { off := 0x110, name := "LNK_NB_SL", rw := fld 31 0, staged := true, config := true },
   { off := 0x114, name := "LNK_NB_FCTX", rw := fld 31 0, staged := true, config := true },
   { off := 0x118, name := "LNK_NB_FCRX", rw := fld 31 0, staged := true, config := true },
   { off := 0x11C, name := "LNK_NB_ANCH_NS" }, { off := 0x120, name := "LNK_NB_ANCH_SEC" },
   { off := 0x124, name := "LNK_NB_RATE" }, { off := 0x128, name := "LNK_NB_STATE" }, { off := 0x12C, name := "LNK_NB_LAST" },
   { off := 0x130, name := "LNK_NB_CNT", rc := fld 31 0 }, { off := 0x134, name := "LNK_NB_CTRL" },
   { off := 0x800, name := "LNK_OWN_EXTLO", rw := fld 31 0, staged := true, config := true },
   { off := 0x804, name := "LNK_OWN_EXTHI", rw := fld 31 0, staged := true, config := true },
   { off := 0x808, name := "LNK_OWN_SHORT", reset := 0xFFFFFFFE, rw := fld 31 0, staged := true, config := true },
   { off := 0x80C, name := "LNK_CTRL", rw := fld 31 29 + fld 4 0, staged := true, config := true },
   { off := 0x810, name := "LNK_TXCFG", reset := 0x50343520, rw := fld 31 0, staged := true, config := true,
     ranges := [⟨19, 16, 1, 15⟩, ⟨15, 12, 0, 8⟩, ⟨11, 8, 0, 8⟩, ⟨7, 0, 1, 255⟩] },
   { off := 0x814, name := "LNK_ACKCFG", reset := 0x03E800C8, rw := fld 31 0, staged := true, config := true,
     ranges := [⟨31, 16, 200, 65535⟩] },
   { off := 0x818, name := "LNK_LBTCFG", reset := 0x800000A0, rw := fld 31 31 + fld 23 0, staged := true, config := true },
   { off := 0x81C, name := "LNK_HOPCFG", reset := 0x00140190, rw := fld 31 31 + fld 23 0, staged := true, config := true,
     ranges := [⟨23, 16, 1, 255⟩] },
   { off := 0x820, name := "LNK_GUARDCFG", reset := 0x00640BB8, rw := fld 31 0, staged := true, config := true },
   { off := 0x824, name := "LNK_DRIFTCFG", reset := 0x07D000C8, rw := fld 31 0, staged := true, config := true },
   { off := 0x828, name := "LNK_SL", reset := 0x4000, rw := fld 31 31 + fld 27 24 + fld 15 0, staged := true, config := true,
     ranges := [⟨15, 0, 2, 65535⟩] },
   { off := 0x82C, name := "LNK_SLWIN", reset := 0x03180A05, rw := fld 31 0, staged := true, config := true,
     ranges := [⟨15, 8, 1, 255⟩] },
   { off := 0x830, name := "LNK_BCN", rw := fld 31 28 + fld 9 0, staged := true, config := true },
   { off := 0x834, name := "LNK_BCNPER", reset := 0x0BB80000, rw := fld 31 0, staged := true, config := true,
     ranges := [⟨31, 16, 1, 65535⟩] },
   { off := 0x838, name := "LNK_BCNSTAT" },
   { off := 0x83C, name := "LNK_GAPCFG", reset := 0x006407D0, rw := fld 31 0, staged := true, config := true },
   { off := 0x840, name := "LNK_ANTCFG", reset := 0x41E, rw := fld 31 31 + fld 11 0, staged := true, config := true,
     ranges := [⟨11, 8, 1, 15⟩] },
   { off := 0x844, name := "LNK_WAKEIE", rw := fld 31 31 + fld 23 0, staged := true, config := true },
   { off := 0x848, name := "LNK_EVCFG", rw := fld 31 31 + fld 29 24, staged := true, config := true },
   { off := 0x84C, name := "LNK_SECERR" }, { off := 0x850, name := "LNK_CNT", rc := fld 31 0 },
   { off := 0xA00, name := "LNK_KEY_CFG", rw := fld 31 30 + fld 9 0, staged := true, config := true, count := 64, stride := 16 },
   { off := 0xA04, name := "LNK_KEY_FC", rw := fld 31 0, staged := true, config := true, count := 64, stride := 16 },
   { off := 0xA08, name := "LNK_KEY_SRCLO", rw := fld 31 0, staged := true, config := true, count := 64, stride := 16 },
   { off := 0xA0C, name := "LNK_KEY_SRCHI", rw := fld 31 0, staged := true, config := true, count := 64, stride := 16 }]

/-- The RTC page (R473, R474). What follows the running counters stands in the state of the RTC. -/
def rtcRegs : List RegDef :=
  [{ off := 0x800, name := "RTC_TIME" }, { off := 0x804, name := "RTC_DATE" }, { off := 0x808, name := "RTC_SUBSEC" },
   { off := 0x80C, name := "RTC_COMMIT", config := true }, { off := 0x810, name := "RTC_STAT" },
   { off := 0x814, name := "RTC_ALARM", rw := fld 31 31 + fld 26 24 + fld 20 16 + fld 13 8 + fld 5 0, config := true,
     ranges := [⟨20, 16, 0, 23⟩, ⟨13, 8, 0, 59⟩, ⟨5, 0, 0, 59⟩] },
   { off := 0x818, name := "RTC_TRIM", rw := fld 10 0, config := true },
   { off := 0x81C, name := "RTC_TRIMCFG", reset := 0x18, rw := fld 31 28 + fld 15 0, config := true,
     ranges := [⟨31, 30, 0, 2⟩, ⟨15, 0, 1, 65535⟩] },
   { off := 0x820, name := "RTC_TRIMMEAS" }, { off := 0x824, name := "RTC_ZCCNT" }]

/-- The MRC page (R487, R488). -/
def mrcRegs : List RegDef :=
  [{ off := 0x800, name := "MRC_IN", rw := fld 31 0, config := true, count := 48 },
   { off := 0x900, name := "MRC_INSTAT", count := 48 },
   { off := 0xA00, name := "MRC_SWPULSE" }, { off := 0xA04, name := "MRC_SWLEVEL", rw := fld 3 0 },
   { off := 0xA08, name := "MRC_GPEDGE", rw := fld 31 0, config := true, count := 2 },
   { off := 0xA10, name := "MRC_OVR", count := 2 }, { off := 0xA18, name := "MRC_WAKE" },
   { off := 0xA20, name := "MRC_CNT_VAL", rw := fld 31 0, count := 4, stride := 8 },
   { off := 0xA24, name := "MRC_CNT_CMP", rw := fld 31 0, config := true, count := 4, stride := 8 },
   { off := 0xA60, name := "MRC_STAMP", count := 8 }]

/-- The TAG page (R432, R433). -/
def tagRegs : List RegDef :=
  [{ off := 0x800, name := "TAG_CFG", rw := fld 31 30, staged := true, config := true },
   { off := 0x804, name := "TAG_RDCFG", reset := 0x00320307, rw := fld 31 16 + fld 10 8 + fld 2 0, staged := true, config := true },
   { off := 0x808, name := "TAG_RDSTAT" }, { off := 0x80C, name := "TAG_SELLO" }, { off := 0x810, name := "TAG_SELHI" },
   { off := 0x814, name := "TAG_TSTAT" }, { off := 0x818, name := "TAG_IDLO" }, { off := 0x81C, name := "TAG_IDHI" },
   { off := 0x820, name := "TAG_FPROT0", rw := fld 31 0, staged := true, config := true },
   { off := 0x824, name := "TAG_FPROT1", rw := fld 31 0, staged := true, config := true },
   { off := 0x828, name := "TAG_FSEC0", rw := fld 31 0, staged := true, config := true },
   { off := 0x82C, name := "TAG_FSEC1", rw := fld 31 0, staged := true, config := true },
   { off := 0x830, name := "TAG_DIRTY0" }, { off := 0x834, name := "TAG_DIRTY1" },
   { off := 0x838, name := "TAG_CNT", rc := fld 31 0 },
   { off := 0x83C, name := "TAG_EVCFG", rw := fld 31 31 + fld 29 24, config := true }]

/-- The NMC page (R399, R400). -/
def nmcRegs : List RegDef :=
  [{ off := 0x100, name := "NMC_TG_CFG", rw := fld 31 31 + fld 29 28 + fld 25 24 + fld 19 16 + fld 11 0, staged := true, config := true,
     ranges := [⟨29, 28, 0, 2⟩, ⟨19, 16, 0, 7⟩] },
   { off := 0x104, name := "NMC_TG_BLOCKS", rw := fld 18 0, staged := true, config := true, ranges := [⟨18, 0, 0, 262144⟩] },
   { off := 0x108, name := "NMC_TG_STAT" }, { off := 0x10C, name := "NMC_TG_BAD" },
   { off := 0x800, name := "NMC_CFG", rw := fld 1 0, staged := true, config := true },
   { off := 0x804, name := "NMC_THR", reset := 0x48000C04, rw := fld 31 24 + fld 15 0, staged := true, config := true,
     ranges := [⟨31, 24, 1, 255⟩] },
   { off := 0x808, name := "NMC_WEAR", reset := 0x800003E8, rw := fld 31 31 + fld 15 0, staged := true, config := true,
     ranges := [⟨15, 0, 1, 65535⟩] },
   { off := 0x80C, name := "NMC_ERLIM", reset := 0x186A0, rw := fld 23 0, staged := true, config := true },
   { off := 0x810, name := "NMC_RDCFG", reset := 0xF4240, rw := fld 23 0, staged := true, config := true },
   { off := 0x814, name := "NMC_PATROL", reset := 0xA8, rw := fld 31 31 + fld 15 0, staged := true, config := true,
     ranges := [⟨15, 0, 1, 65535⟩] },
   { off := 0x818, name := "NMC_MAPBASE", rw := fld 31 12, staged := true, config := true },
   { off := 0x81C, name := "NMC_LCAP", rw := fld 27 0, staged := true, config := true },
   { off := 0x820, name := "NMC_RESV", reset := 0x40, rw := fld 15 0, staged := true, config := true },
   { off := 0x824, name := "NMC_WBBASE", rw := fld 31 12, staged := true, config := true },
   { off := 0x828, name := "NMC_WBCFG", reset := 0x07D00008, rw := fld 31 16 + fld 7 0, staged := true, config := true },
   { off := 0x82C, name := "NMC_CKPT", reset := 0x100, rw := fld 15 0, staged := true, config := true, ranges := [⟨15, 0, 16, 65535⟩] },
   { off := 0x830, name := "NMC_STAT" }, { off := 0x834, name := "NMC_CNT", rc := fld 31 0 },
   { off := 0x838, name := "NMC_EVCFG", rw := fld 31 31 + fld 29 24, config := true }, { off := 0x83C, name := "NMC_MAPSIZE" }]

/-- A CPU page (R312, R313). -/
def cpuRegs : List RegDef :=
  [{ off := 0x800, name := "CPU_CTRL", rw := fld 0 0 }, { off := 0x804, name := "CPU_RESETPC", rw := fld 31 0, config := true },
   { off := 0x808, name := "CPU_VBASE", rw := fld 31 8, config := true }, { off := 0x80C, name := "CPU_SPLIM", rw := fld 31 2, config := true },
   { off := 0x810, name := "CPU_STAT" }, { off := 0x814, name := "CPU_EXCINFO" }, { off := 0x818, name := "CPU_EXCADDR" },
   { off := 0x81C, name := "CPU_EXCPC" }, { off := 0x820, name := "CPU_CYCLES" }, { off := 0x824, name := "CPU_INSTRET" },
   { off := 0x900, name := "CPU_IRQMAP", rw := fld 31 31 + fld 25 24 + fld 15 0, config := true, count := 32 }]

/-- The CAS page (R531, R532). -/
def casRegs : List RegDef :=
  [{ off := 0x800, name := "CAS_STAT" },
   { off := 0x804, name := "CAS_FWDCFG", rw := fld 31 31 + fld 29 24, staged := true, config := true },
   { off := 0x808, name := "CAS_RXBASE", rw := fld 31 12, config := true },
   { off := 0x80C, name := "CAS_RXCFG", reset := 4, rw := fld 31 31 + fld 29 24 + fld 3 0, config := true, ranges := [⟨3, 0, 4, 10⟩] },
   { off := 0x810, name := "CAS_RXPROD" }, { off := 0x814, name := "CAS_RXCONS", rw := fld 10 0 },
   { off := 0x818, name := "CAS_LINKSTAT" }, { off := 0x81C, name := "CAS_CNT", rc := fld 31 0 }, { off := 0x820, name := "CAS_TIMEOFS" },
   { off := 0x824, name := "CAS_EVCFG", rw := fld 31 31 + fld 29 24, config := true },
   { off := 0x830, name := "CAS_SNAPSEL", rw := fld 31 2, config := true, count := 8 }, { off := 0x850, name := "CAS_SNAP", count := 8 },
   { off := 0x870, name := "CAS_SNAPTIME_NS" }, { off := 0x874, name := "CAS_SNAPTIME_SEC" }, { off := 0x878, name := "CAS_SNAPMISS" },
   { off := 0x900, name := "CAS_POS", count := 8 }, { off := 0x920, name := "CAS_POSHW", count := 8 },
   { off := 0x940, name := "CAS_POSCTRL", config := true, count := 8 }]

/-- The UPD page (R501). -/
def updRegs : List RegDef :=
  [{ off := 0x800, name := "UPD_BOOTRPT" }, { off := 0x804, name := "UPD_INSTRPT" }, { off := 0x808, name := "UPD_VER", count := 4 },
   { off := 0x818, name := "UPD_SESS" }, { off := 0x81C, name := "UPD_CNT", rc := fld 31 0 }]

/-- PER_REP, PER_STAT and PER_CNT, behind a unit's PER_CFG (R548). -/
def perCommon (cfg : RegDef) : List RegDef :=
  [cfg, { off := 0x804, name := "PER_REP", rw := fld 31 31 + fld 29 24, config := true },
   { off := 0x808, name := "PER_STAT" }, { off := 0x80C, name := "PER_CNT", rc := fld 31 0 }]

def uartRegs : List RegDef := perCommon
  { off := 0x800, name := "PER_CFG", reset := 27778 * 1024, rw := fld 31 8 + fld 5 4 + fld 0 0, config := true
    ranges := [⟨31, 10, 1067, 4194303⟩, ⟨9, 8, 0, 1⟩, ⟨5, 4, 0, 2⟩] }
def i2cRegs : List RegDef := perCommon
  { off := 0x800, name := "PER_CFG", rw := fld 1 0, config := true, ranges := [⟨1, 0, 0, 2⟩] }
def spimRegs : List RegDef := perCommon
  { off := 0x800, name := "PER_CFG", reset := 9 * 0x10000, rw := fld 23 16 + fld 4 4 + fld 1 0, config := true, ranges := [⟨23, 16, 1, 255⟩] }
def qspiRegs : List RegDef := perCommon
  { off := 0x800, name := "PER_CFG", reset := 3 * 0x10000, rw := fld 23 16 + fld 1 0, config := true, ranges := [⟨23, 16, 1, 255⟩] }
def dliRegs : List RegDef := perCommon { off := 0x800, name := "PER_CFG", rw := fld 0 0, config := true }

/-- The PWM page (R553). -/
def pwmRegs : List RegDef :=
  [{ off := 0x800, name := "PWM_PER", reset := 0xFFFF, rw := fld 23 0, staged := true, config := true, count := 4, stride := 16 },
   { off := 0x804, name := "PWM_DUTY", rw := fld 31 31 + fld 16 0, staged := true, config := true, count := 4, stride := 16 },
   { off := 0x808, name := "PWM_CTRL", rw := fld 31 31, count := 4, stride := 16 },
   { off := 0x80C, name := "PWM_CNT", count := 4, stride := 16 }]

/-- The GPIO page (R540, R541). -/
def gpioRegs : List RegDef :=
  [{ off := 0x800, name := "GPIO_OUT", rw := fld 31 0 }, { off := 0x804, name := "GPIO_IN" }, { off := 0x808, name := "GPIO_HOLD" },
   { off := 0x880, name := "GPIO_PAD", reset := 0x20, rw := fld 8 8 + fld 5 4 + fld 2 0, config := true, count := 32, ranges := [⟨5, 4, 0, 2⟩] }]

/-- The host SPI page (R546). -/
def hspiRegs : List RegDef :=
  [{ off := 0x800, name := "HSPI_CFG", rw := fld 31 31, config := true }, { off := 0x808, name := "HSPI_CNT", rc := fld 31 0 },
   { off := 0x810, name := "HSPI_IRQMAP", rw := fld 31 31 + fld 15 0, config := true, count := 8 }]

end Sys2Proof.Machine
end

