-- ==== Sys2Proof/Machine/Caps.lean ====
section
/-! DEFINITION. What the fuses and the page index say of each page (R47): BLK_CAP.CAPS, the register
table of each page, and the reset values that depend on the set. -/

namespace Sys2Proof.Machine

/-- NMC is present (R1). -/
def pagePresentNmc (v : Variant) : Bool := v == .lm8128

/-- BLK_CAP.CAPS of each page. -/
def caps (v : Variant) (page : Nat) : Nat :=
  match page with
  | 0x00 => 48
  | 0x02 => 96 + 48 * 256
  | 0x05 => 3 + 64 * 256
  | 0x08 => (if v = .lm8004 then 0 else 1) + 2
  | 0x09 => 7
  | 0x0A => 256
  | 0x0C => (match v with | .lm8128 => 128 * 1024 + 512 | .lm8032 => 32 * 1024 + 128 | .lm8004 => 0)
  | 0x0D => 1 + (if v = .lm8004 then 0 else 2) + 16 * 16
  | 0x10 => 1024 + 64 * 4096
  | 0x18 => 7
  | 0x19 => 16 + 64 * 64 + 8 * 0x10000 + 2 * 0x100000
  | 0x1A => (if pagePresentNmc v then 1 else 0)
  | 0x20 | 0x21 => 0x70
  | 0x22 | 0x23 => 0x73
  | 0x28 => 12
  | 0x29 => 1024 + 8 * 0x1000
  | 0x2A => 4 + 3 * 16
  | 0x30 => 2 + 8 * 16
  | _ => 0

/-- The register table of a page beyond the header. -/
def pageRegs (page : Nat) : List RegDef :=
  match page with
  | 0x00 => pwrRegs
  | 0x01 => rtcRegs
  | 0x02 => mrcRegs
  | 0x04 => wrxRegs
  | 0x05 => tagRegs
  | 0x08 => rfeRegs
  | 0x09 => txaRegs
  | 0x0A => synRegs
  | 0x0C => chzRegs
  | 0x0D => phyRegs
  | 0x10 => lnkRegs
  | 0x11 => timRegs
  | 0x12 => ethRegs
  | 0x14 => flmRegs
  | 0x18 => secRegs
  | 0x19 => palRegs
  | 0x1A => updRegs
  | 0x20 | 0x21 | 0x22 | 0x23 => cpuRegs
  | 0x28 => drcRegs
  | 0x29 => flcRegs
  | 0x2A => nmcRegs
  | 0x30 => casRegs
  | 0x38 | 0x39 => dliRegs
  | 0x40 | 0x41 | 0x42 | 0x43 => uartRegs
  | 0x44 | 0x45 => i2cRegs
  | 0x46 | 0x47 => spimRegs
  | 0x48 => qspiRegs
  | 0x49 => pwmRegs
  | 0x4A => gpioRegs
  | 0x4B => hspiRegs
  | _ => []

/-- Reset values that a table states per set or per entry. -/
def specialReset (page idx off : Nat) : Option Nat :=
  match page, off with
  | 0x00, 0x104 => if idx == 1 || idx == 12 || idx == 16 then some 0x80000000 else none
  | 0x4A, 0x8FC => some 4
  | 0x0D, _ => if 0x800 ≤ off && off < 0x900 then some (modetabReset ((off - 0x800) / 16) (off % 16 / 4)) else none
  | _, _ => none

/-- The initiators that a block's chapter allows (R39): the flash password registers take writes from the
four cores and SEC only (R392). -/
def permitted (ini : Initiator) (page off : Nat) (write : Bool) : Bool :=
  match page with
  | 0x10 => !(write && 0xA00 ≤ off && off < 0xE00 && ini != .l0 && ini != .l1 && ini != .sec)
  | 0x29 => !(write && (off == 0x818 || off == 0x81C) && (ini == .host || ini == .debug || ini == .cas))
  | _ => true

end Sys2Proof.Machine
end

