-- ==== Sys2Proof/Machine/Sparse.lean ====
section
/-! DEFINITION. Sparse maps: lists of (key, value) pairs with strictly rising keys, in one canonical
form. An unlisted key reads as a default, and an entry equal to that default is not listed unless
the caller asks for it. Registers, memory and every numbered set of the part are held so. -/

namespace Sys2Proof.Machine

/-- A sparse map from numbers to values. -/
abbrev Sparse (α : Type) := List (Nat × α)

namespace Sparse

variable {α : Type}

/-- The value at key `k`, or the default `d` where none is listed. -/
def get (d : α) : Sparse α → Nat → α
  | [], _ => d
  | (k', v) :: m, k => if k' = k then v else get d m k

/-- Whether key `k` is listed. -/
def has : Sparse α → Nat → Bool
  | [], _ => false
  | (k', _) :: m, k => k' == k || has m k

/-- The map with no entry at key `k`. -/
def erase : Sparse α → Nat → Sparse α
  | [], _ => []
  | (k', v) :: m, k => if k' = k then m else (k', v) :: erase m k

/-- The map with value `v` listed at key `k`, in rising order of keys. -/
def insert : Sparse α → Nat → α → Sparse α
  | [], k, v => [(k, v)]
  | (k', v') :: m, k, v =>
    if k < k' then (k, v) :: (k', v') :: m
    else if k = k' then (k, v) :: m
    else (k', v') :: insert m k v

/-- The map with `v` at key `k`, keeping the canonical form: `v` is listed only where it differs from
the default `d` of that key. -/
def set [DecidableEq α] (d : α) (m : Sparse α) (k : Nat) (v : α) : Sparse α :=
  if v = d then erase m k else insert m k v

/-- The map with the entries whose key satisfies `p`. -/
def keep (p : Nat → Bool) (m : Sparse α) : Sparse α := m.filter (fun e => p e.1)

/-- Keys rise strictly, from above the bound `b`. -/
def risingFrom : Nat → Sparse α → Bool
  | _, [] => true
  | b, (k, _) :: m => decide (b ≤ k) && risingFrom (k + 1) m

/-- Keys rise strictly. -/
def rising (m : Sparse α) : Bool := risingFrom 0 m

/-- The canonical form: keys rise strictly, and no entry satisfies `dflt`, which says of a key and a
value that the value is what the key reads as when unlisted. -/
def canonical (dflt : Nat → α → Bool) (m : Sparse α) : Bool :=
  rising m && m.all (fun e => !dflt e.1 e.2)

end Sparse

end Sys2Proof.Machine
end

