-- ==== Sys2Proof/Machine/State.lean ====
section
/-! DEFINITION. The state of the part, as plain data: every register, store, buffer, counter, mode and
pin the spec gives it, and the queue of waiting commands. -/

namespace Sys2Proof.Machine

/-! ### Part and power -/

/-- The settled state of a power domain (R50, R450). -/
inductive DState where
  | off | retention | on
  deriving DecidableEq, Repr

/-- The clocks (R459 to R462), at reset: REF_EN is asserted, the fabric runs from the reference, and no PLL is
locked. -/
structure Clk where
  /-- REF_EN is asserted, from this tick on. -/
  refEn : Option Nat := some 0
  /-- The board drives a good reference; PWR has declared it good. -/
  refOk : Bool := false
  sysLock : Bool := false
  dramLock : Bool := false
  ethLock : Bool := false
  xtalOk : Bool := false
  xtalFail : Bool := false
  /-- A VCORE ramp is in progress. -/
  ramping : Bool := false
  /-- The Primer has locked the system PLL since the part reset (R461). -/
  started : Bool := false
  deriving DecidableEq, Repr

/-- Where a domain stands between settled states (R454, R466). -/
inductive Phase where
  | none | idleCommit | save | switch | waking
  deriving DecidableEq, Repr

/-- A power domain (R450 to R458). -/
structure Dom where
  /-- The last settled state. -/
  st : DState
  /-- The phase of an entry or a wake that is under way. -/
  phase : Phase := .none
  /-- The state that an entry under way leads to. -/
  target : DState := .off
  /-- The slow tick at which the phase began. -/
  since : Nat := 0
  /-- POWER_EPOCH. -/
  epoch : BitVec 8 := 0
  /-- Ticks counted by the idle timer (R453). -/
  idle : Nat := 0
  /-- A request to leave ON whose completions are done and which waits for the tick edge (R454). -/
  leaving : Option DState := none
  /-- A wake is requested (R457): by a first access, a source, or a domain that needs this one. -/
  wakeReq : Bool := false
  /-- The wake was requested with the domain as target of a wake source (R464). -/
  warm : Bool := false
  deriving DecidableEq, Repr

/-! ### Accesses -/

/-- An access of an initiator (R38, R39). -/
structure Access where
  ini : Initiator
  write : Bool
  addr : Word
  size : Nat
  data : Word
  deriving DecidableEq, Repr

/-- The answer of the last access of an initiator: the data of a read, and whether it was refused. -/
structure Reply where
  data : Word := 0
  error : Bool := false
  deriving DecidableEq, Repr

/-- An accepted commit that waits for its switch point (R63, R64): the page, and the window indices it
names, or all. The block-specific set is always named. -/
structure Commit where
  page : Nat
  ini : Initiator
  all : Bool
  index : Nat
  deriving DecidableEq, Repr

/-! ### Flume -/

/-- The progress of an in-flight entry (R27). A free entry is one that is not listed. -/
inductive ItemState where
  | fetched | active | retiring
  deriving DecidableEq, Repr

/-- What a unit finishes an item with (R21, R24). -/
structure Result where
  status : Nat
  /-- WB_DATA, bits 30:16 of word 7. -/
  wb : Nat := 0
  /-- The unit's time-stamp as a short time, nanoseconds and low seconds. -/
  time : Option (Nat × Nat) := none
  actual : Nat := 0
  rep6 : Word := 0
  rep7 : Word := 0
  deriving DecidableEq, Repr

/-- An entry of the in-flight table (R27). The list of entries stands in fetch order. -/
structure Item where
  /-- The number of the entry, 0 to 511; an unfetched item that an ABORT completes has a number above. -/
  id : Nat
  ring : Nat
  slot : Nat
  unit : Nat
  /-- The eight words of the descriptor as fetched (R21). -/
  words : List Word
  st : ItemState
  /-- The result, once the unit has one. -/
  result : Option Result := none
  /-- POWER_EPOCH of the bound unit's domain at issue; an item that completes without having been issued has 0 there
  (DESIGN CHOICE, log entry 100). -/
  epochSeen : Nat := 0
  /-- The launch instant of a timed item has been reached (R252). -/
  launched : Bool := false
  /-- A DRAM command of the item was replayed after a parity alert (R374). -/
  replayed : Bool := false
  /-- The order of finishing, for rings with ORDER 0 (R17). -/
  finish : Nat := 0
  /-- Registers of LNK that the item latches at fetch (R200); for a mask item of CAS the positions lost since its
  issue, and the pairs that a BROADCAST has written here and that were refused here (R530); of a MOUNT or FORMAT that NMC
has begun, one word (R403, R404). -/
  lat : List Word := []
  /-- An unfetched item that an ABORT completed: it uses no in-flight entry (R35). -/
  unfetched : Bool := false
  deriving DecidableEq, Repr

/-- The state of a work ring (R20): RUNNING is IDLE with work, so that it is not held apart. -/
inductive RingState where
  | idle | halted | aborting
  deriving DecidableEq, Repr

/-- A unit-originated report that waits in its unit's store (R36). -/
structure Report where
  unit : Nat
  tail : Nat
  status : Nat
  tag : Word := 0
  actual : Nat := 0
  ns : Nat := 0
  sec : Nat := 0
  rep6 : Word := 0
  rep7 : Word := 0
  /-- INDEX of word 1. -/
  index : Nat := 0
  /-- EPOCH_SEEN where it was taken earlier than at posting. -/
  epoch : Option Nat := none
  /-- It reports a frame, and lies in the Hopper's store (R105). -/
  frame : Bool := false
  /-- The model's own: its number in the order in which reports are raised (R37). -/
  no : Nat := 0
  deriving DecidableEq, Repr

/-- What follows once a unit's items are completed (R33, R34, R395). -/
inductive After where
  | leave (target : DState)
  | softReset
  | partReset
  deriving DecidableEq, Repr

/-- A completion of a unit's items that waits for a medium operation that cannot be stopped (R34). -/
structure Drain where
  unit : Nat
  status : Nat
  after : After
  deriving DecidableEq, Repr

/-- Flume beyond its registers. -/
structure Flume where
  ift : List Item := []
  rings : Sparse RingState := []
  /-- The unit last granted an entry, and per unit the ring last granted (R28). -/
  lastUnit : Nat := 0
  lastRing : Sparse Nat := []
  finishes : Nat := 0
  waiting : List Report := []
  /-- The model's own: reports and events of LNK raised so far (R37). -/
  raised : Nat := 0
  /-- Tailraces whose next report carries OVF (R36). -/
  ovf : Sparse Bool := []
  /-- Units whose items are being completed and whose medium operation must end first (R34). -/
  drains : List Drain := []
  /-- A soft reset of the page waits for the held completions (R560). -/
  resetting : Bool := false
  deriving DecidableEq, Repr

/-! ### DRAM -/

/-- A parity alert under way on a channel (R374): how often the command was rejected, how many commands a
replay reissues, and the DRC items with an access outstanding on the channel. -/
structure Alert where
  fails : Nat
  reissued : Nat
  items : List Nat
  deriving DecidableEq, Repr

/-- The DRAM controller and its devices beyond the registers. -/
structure Dram where
  /-- What a read of a stored word finds, by word key (R372). -/
  bad : Sparse WordErr := []
  /-- Ranks whose CE_THRESH report was posted in this window (R373). -/
  reported : Sparse Bool := []
  /-- The open row of each bank of each rank, plus one (R367). -/
  rows : Sparse Nat := []
  /-- Refreshes postponed per rank (R367). -/
  postponed : Sparse Nat := []
  /-- Alerts under way per channel. -/
  alerts : Sparse (Option Alert) := []
  /-- A migration has started since the DRC entered ON; one has completed (R375). -/
  migRan : Bool := false
  migDone : Bool := false
  /-- The source and target of the running migration, its cause and the words poisoned so far. -/
  mig : Option (Nat × Nat) := none
  poisoned : Nat := 0
  deriving DecidableEq, Repr

/-! ### Internal flash -/

/-- The record of a sector (R387): 0 GOOD, 1 WORN, 2 REMAPPED, 3 FAILED, and its erase count. -/
structure SectorRec where
  state : Nat := 0
  count : Nat := 0
  deriving DecidableEq, Repr

/-- The kinds of medium operation (R386). -/
inductive FlashKind where
  | program | erase | info
  deriving DecidableEq, Repr

/-- A medium operation of the flash that runs, with the item it serves, if any (R387 to R389). -/
structure FlashOp where
  kind : FlashKind
  /-- The item, by its entry; an intent erase after supply loss serves none (R396). -/
  item : Option Nat
  /-- The flash offset reached, the end of the range, and the source that belongs to the start. -/
  pos : Nat
  stop : Nat
  start : Nat := 0
  src : List (Option Byte) := []
  /-- Pulses or attempts of the current sector or word. -/
  tries : Nat := 0
  maxPulses : Nat := 0
  retired : Nat := 0
  warned : Bool := false
  uncorrectable : Bool := false
  corrected : Nat := 0
  /-- The item is cut with this status at the end of the current sector (R388, R395). -/
  cut : Option Nat := none
  deriving DecidableEq, Repr

/-- The internal flash beyond its registers and its array. -/
structure Flash where
  bad : Sparse WordErr := []
  recs : Sparse SectorRec := []
  /-- Erase counts and use of the hidden spares, by bank and number, and the sector each backs. -/
  spareCount : Sparse Nat := []
  spareUsed : Sparse (Option Nat) := []
  /-- PROT, salt, password hash and sequence number of the information row (R391, R393). -/
  prot : Nat := 0
  salt : List Byte := []
  /-- The stored hash; a part that leaves Varade has the password zero, which `none` stands for. -/
  hash : Option (List Byte) := none
  rowSeq : Nat := 0
  /-- FLC_PWD_HI and FLC_PWD_LO as written. -/
  pwdHi : Word := 0
  pwdLo : Word := 0
  unlocked : Bool := false
  /-- Wrong passwords and lockout since part reset (R392). -/
  fails : Nat := 0
  lockout : Bool := false
  /-- FLC_RSTINFO, held in AON. -/
  rstinfo : Word := 0
  op : Option FlashOp := none
  /-- The open erase intent, by sector (R396). -/
  intent : Option Nat := none
  /-- A reset that waits for the medium operation, by its cause (R395). -/
  deferred : Option Nat := none
  deriving DecidableEq, Repr

/-! ### NAND -/

/-- A logical page in the write buffer or in a running program: its write sequence, its item if any, and whether
an ERASE has overtaken it (R406, R407). -/
structure WbPage where
  lpn : Nat
  seq : Nat
  item : Option Nat
  live : Bool := true
  data : List Byte
  deriving DecidableEq, Repr

/-- An operation that runs at a NAND target (R34): a page program of these logical pages, or, with none, an erase
of the block. -/
structure NandOp where
  target : Nat
  block : Nat
  pages : List WbPage := []
  deriving DecidableEq, Repr

/-- A logical page on the medium: where its copy in force lies, its write sequence, its octets, and whether it
is poisoned (R409). -/
structure NandPage where
  target : Nat
  block : Nat
  seq : Nat
  data : List Byte
  poisoned : Bool := false
  deriving DecidableEq, Repr

/-- A block: erases beyond those of FORMAT, pages programmed and pages read since the erase, the tick it was last
programmed, and its place in the bad-block table (R411, R413). -/
structure NandBlk where
  erases : Nat := 0
  used : Nat := 0
  reads : Nat := 0
  at_ : Nat := 0
  factory : Bool := false
  grown : Bool := false
  deriving DecidableEq, Repr

/-- STATE of a target and of the store (R400). -/
inductive TgState where
  | absent | identified | online | failed
  deriving DecidableEq, Repr
inductive NmcState where
  | unmounted | mounted | readonly
  deriving DecidableEq, Repr

/-- Why a block is scheduled for relocation (R411): its read limit, corrected bits, or wear. -/
inductive RelocCause where
  | reads
  | bits (most : Nat)
  | worn (most : Nat)
  deriving DecidableEq, Repr

/-- A PROGRAM in progress: pages still to program, pages copied into the write buffer, blocks retired under it, and
whether it touched a migrating rank (R406). -/
structure NandJob where
  item : Nat
  left : Nat
  copied : Nat
  retired : Nat := 0
  migrated : Bool := false
  deriving DecidableEq, Repr

/-- The NAND manager beyond its registers, and the medium. Blocks go by 2^18 × target + block. -/
structure Nand where
  st : NmcState := .unmounted
  tgs : Sparse TgState := []
  ops : List NandOp := []
  /-- Pages that wait in the write buffer, with their target; the target taken next; the write sequence. -/
  wb : List (Nat × WbPage) := []
  turn : Nat := 0
  seq : Nat := 0
  jobs : List NandJob := []
  /-- Blocks scheduled for relocation. -/
  sched : List (Nat × RelocCause) := []
  /-- The open block of each target, plus one. -/
  opened : Sparse Nat := []
  /-- Erases since the last static move, and whether one was ever made. -/
  moveErases : Nat := 1000
  /-- Targets for which SPARE_LOW was posted. -/
  low : Sparse Bool := []
  /-- The patrol's position among the blocks, and the blocks read and scheduled in this pass. -/
  patrol : Nat := 0
  patrolRead : Nat := 0
  patrolSched : Nat := 0
  /-- The medium: block table, erase counts of FORMAT, logical pages, and whether each target was formatted. -/
  blks : Sparse NandBlk := []
  base : Sparse Nat := []
  pages : Sparse NandPage := []
  formatted : Sparse Bool := []
  /-- Pages whose program a supply loss cut: the next MOUNT finds the old or the new content (R405). -/
  torn : List (Nat × Nat × WbPage) := []
  deriving DecidableEq, Repr

/-! ### The receiver -/

/-- LSTATE of a channel (R84, R85). -/
inductive LState where
  | disabled | settling | search | claimed | frame | paused
  deriving DecidableEq, Repr

/-- A wideband channel beyond its registers. -/
structure Chan where
  st : LState := .disabled
  /-- The lane held and the claiming slot, in CLAIMED and FRAME. -/
  lane : Nat := 0
  hyp : Nat := 0
  /-- A blank or gap has covered the channel since it paused (R85). -/
  blanked : Bool := false
  deriving DecidableEq, Repr

/-- A demodulator lane that is claimed: what it latched at claim (R82, R142), and its frame so far. -/
structure Lane where
  /-- 0 to 127; the narrow lane is 128. -/
  no : Nat
  /-- The channel; for the narrow lane the entry. -/
  chan : Nat
  hyp : Nat
  /-- The PHY_MODETAB entry of the claiming slot, and the copies of its words. -/
  entry : Nat
  mod : Word
  det : Word
  ts : Word
  afc : Word
  /-- TAIL, HRING, LNK and CRCREP in force at claim. -/
  tail : Nat
  hring : Nat
  lnk : Bool
  crcrep : Bool
  /-- Spacing of the plan, or BW of the entry, by its code (R148). -/
  path : Nat
  epoch : Nat
  /-- The antenna in use at claim, and the one in use now. -/
  ant : Nat
  antNow : Nat
  nf : Nat
  rssi : Nat := 0xFF
  /-- The SFD has been accepted: the channel is in FRAME. -/
  frame : Bool := false
  coded : Bool := false
  /-- The frozen AFC value in 10 Hz units, 16 bits. -/
  freqErr : Nat := 0
  afcLimit : Bool := false
  gainStep : Bool := false
  clip : Bool := false
  /-- The corrected stamp, and the slewed amount when it was taken (R259). -/
  slewAt : Int := 0
  sec : Nat := 0
  ns : Nat := 0
  /-- The PSDU length once the PHR is decided, and its FCS and DW fields. -/
  len : Option Nat := none
  fcs2 : Bool := false
  white : Bool := false
  /-- The reserved slots: the first, counted modulo 2 × size, and how many. -/
  slots : Option (Nat × Nat) := none
  /-- The Hopper dropped the frame (R100). -/
  dropped : Bool := false
  /-- Staging chunks held, by number, at most two (R99). -/
  chunks : List Nat := []
  /-- PSDU octets decoded, de-whitened; how many of them the slots need no longer wait for, and how many the slots
  have taken. -/
  data : List Byte := []
  copied : Nat := 0
  stored : Nat := 0
  failed : Bool := false
  migrated : Bool := false
  /-- The first correlation of an antenna measurement (R156). -/
  measured : Option Nat := none
  deriving DecidableEq, Repr

/-- A received frame that the Hopper holds between its lane's release and its report (R103, R104). -/
structure RxFrame where
  lane : Lane
  status : Nat
  cause : Nat
  lqi : Nat
  fec : Nat
  deriving DecidableEq, Repr

/-- What the narrow path is doing (R116); CLAIMED and FRAME follow from its lane. In `leaving` its lane has
been released and it has not moved on yet. -/
inductive NbPhase where
  | stopped | dwell | retune | leaving
  deriving DecidableEq, Repr

/-- For what the narrow path listens (R115, R216, R220 to R226, R234). -/
inductive NbUse where
  | list | sample | beacon | search | data | rxwin | fp | ack | lbt
  deriving DecidableEq, Repr

/-- The narrow path beyond its registers. -/
structure Narrow where
  phase : NbPhase := .stopped
  entry : Nat := 0
  use : NbUse := .list
  /-- Entries still to visit in a pass that ends. -/
  mask : Nat := 0
  /-- DWELL of the pass in µs; `none` where the listen lasts until its use ends. -/
  dwell : Option Nat := none
  /-- FLOOR of the dwell that a claim has suspended (R116). -/
  floor : Option Nat := none
  deriving DecidableEq, Repr

/-- The receiver: channels, lanes, the Hopper and the blanks in force. -/
structure Recv where
  chans : Sparse Chan := []
  lanes : Sparse (Option Lane) := []
  queue : List RxFrame := []
  /-- The channels that a transmit blank covers, lowest and highest. -/
  tx : Option (Nat × Nat) := none
  /-- Members of M4 pairs that the blank covers with their partner (R108). -/
  txPairs : List Nat := []
  /-- Disabled channels whose filter history is not full (R77, R216). -/
  unsettled : List Nat := []
  /-- The end of the last noise-floor window, seconds and nanoseconds (R95). -/
  nfAt : Option (Nat × Nat) := none
  /-- Hopper rings that dropped a frame since their last report (R100). -/
  drops : Sparse Bool := []
  snapSeq : Nat := 0
  snapSecond : Bool := false
  nb : Narrow := {}
  /-- The IQ estimate has converged since RFE entered ON (R153). -/
  iqDone : Bool := false
  deriving DecidableEq, Repr

/-! ### Synthesiser and transmit chain -/

/-- A transmit store entry (R179). -/
structure StoreEntry where
  valid : Bool := false
  freq : Nat := 0
  /-- Temperature at calibration, °C, 8 bits. -/
  temp : Nat := 0
  codes : Nat := 0
  deriving DecidableEq, Repr

/-- A calibration gap in force (R173). -/
structure Gap where
  /-- The CAL item it serves. -/
  item : Option Nat
  filter : Bool
  bandR : Bool
  /-- TIM at the gap's start. -/
  sec : Nat
  ns : Nat
  /-- The item was aborted: the gap ends with the restore phase (R178). -/
  cut : Bool := false
  deriving DecidableEq, Repr

/-- A CAL item in progress (R177). -/
structure CalRun where
  item : Nat
  /-- FILTER and BAND_R still to run, and whether their gap may start (granted, or launched). -/
  filter : Bool
  bandR : Bool
  due : Bool
  anchor : Bool
  store : Bool
  first : Nat
  count : Nat
  next : Nat := 0
  failedEntries : Nat := 0
  skipped : Nat := 0
  gapAt : Option (Nat × Nat) := none
  loopFailed : Bool := false
  deriving DecidableEq, Repr

/-- The synthesiser beyond its registers. -/
structure Syn where
  /-- The transmit store; an unlisted entry is invalid. -/
  store : Sparse StoreEntry := []
  /-- Receive entries that are calibrated: the span centre and narrow entries 0 to 3. -/
  rxValid : Sparse Bool := []
  rxLocked : Bool := false
  txLocked : Bool := false
  /-- Failed attempts of the receive loop since it last locked (R170). -/
  rxFails : Nat := 0
  /-- Both attempts failed: the receiver stays blanked until the loop locks (R170). -/
  stuck : Bool := false
  /-- The recovery of R170 asks for a gap. -/
  recovery : Bool := false
  /-- An automatic request for BAND_R waits (R169). -/
  auto : Bool := false
  /-- LNK has granted a gap that has not started. -/
  granted : Bool := false
  gap : Option Gap := none
  cal : Option CalRun := none
  /-- Steps done of an anchor sweep of the transmit loop under way. -/
  sweep : Option Nat := none
  /-- A drift sweep is due; the drift of each loop beyond TDELTA has been reported (R169). -/
  sweepDue : Bool := false
  driftT : Bool := false
  driftR : Bool := false
  vtOut : Bool := false
  /-- The die temperature as last reported, 0.25 °C. -/
  die : Int := 0
  deriving DecidableEq, Repr

/-- STATE of TXA (R182, R185). -/
inductive TxSt where
  | idle | tune | ready | rampUp | send | rampDown | hold
  deriving DecidableEq, Repr

/-- What TXA sends: a frame under a PHY_MT_MOD word, its preamble units and its PSDU before whitening, or a wake signal,
its pilot in µs and its code. -/
inductive Burst where
  | frame (mod : Word) (pre : Nat) (psdu : List Byte)
  | wake (pilot : Nat) (code : Half)
  deriving DecidableEq, Repr

/-- The modulator's decision of a frame's SFD that lies ahead: fabric cycles until it, and what its stamp adds to TIM
there beside BOARD_TX, in ns (R151, R253). -/
structure SfdDue where
  cycles : Nat
  corr : Int
  deriving DecidableEq, Repr

/-- A frame that LNK gives TXA: of an item, or an acknowledgement. -/
inductive TxKey where
  | item (entry : Nat)
  | ack
  deriving DecidableEq, Repr

/-- TXA beyond its registers. -/
structure Txa where
  st : TxSt := .idle
  /-- The frame in hand. -/
  cur : Option TxKey := none
  /-- The frequency tuned to, in kHz, and its store entry, 0x1FF where it has none. -/
  freq : Nat := 0
  entry : Nat := 0
  /-- The first lock attempt failed (R170). -/
  retried : Bool := false
  /-- The tune waits for a calibration step (R186). -/
  waits : Bool := false
  /-- Tune requests held while TXA ramps or sends, oldest first (R185). -/
  held : List (TxKey × Nat × Nat) := []
  /-- The transmission on the air. -/
  onAir : List Burst := []
  /-- The ramp-begin instant of the frame whose receive blank has started and which has not ramped, in ns (R184). -/
  begins : Option Int := none
  /-- The SFD decision that lies ahead, and the stamp of the last one, in ns (R151, R248). -/
  sfd : Option SfdDue := none
  stamp : Nat := 0
  /-- TIM in ns at the end of the last ramp-down, until a new FEM lead or ramp; and at the entry to HOLD. -/
  downAt : Option Int := none
  holdAt : Int := 0
  /-- FEM pins show a transmit state (R161). -/
  fem : Bool := false
  /-- The frame was cut, or its tune withdrawn (R185). -/
  cutFrame : Bool := false
  /-- PA level and ramp code latched at ramp begin (R183). -/
  level : Nat := 0
  ramp : Nat := 0
  deriving DecidableEq, Repr

/-! ### Wake receiver -/

/-- States of WRX (R191). -/
inductive WrxSt where
  | sleep | sample | hunt
  deriving DecidableEq, Repr

/-- WRX beyond its registers: its state, and the registers as sampled at the start of the period (R188). -/
structure Wrx where
  st : WrxSt := .sleep
  mode : Nat := 0
  code : Word := 0
  level : Nat := 0
  /-- The tuning has been calibrated since the reference last started (R193). -/
  tuned : Bool := false
  /-- The tick at which the ON time of this period ends, and that of the next period's start. -/
  onEnd : Nat := 0
  next : Nat := 0
  deriving DecidableEq, Repr

/-! ### Time -/

/-- A beacon that LNK hands to TIM (R259): the TIME element, the corrected receive stamp, and the slewed
amount when the stamp was taken. -/
structure BeaconTime where
  ns : Nat
  secLo : Nat
  rxSec : Nat
  rxNs : Nat
  slewAt : Int
  deriving DecidableEq, Repr

/-- A tick-period window (R266): the tick at its start, the time there in 2^−28 ns without slews, and the
same at its end once that tick edge has come. -/
structure TickWindow where
  tick : Nat
  /-- Its length in ticks. -/
  len : Nat
  start : Int
  done : Option Int := none
  deriving DecidableEq, Repr

/-- The network timebase (R240, R561): what is held in AON, and its counters beyond the registers. -/
structure Tim where
  sec : Nat := 0
  ns : Nat := 0
  /-- Fraction of a nanosecond, 28 bits. -/
  frac : Nat := 0
  /-- TIM counts: the system PLL runs, and no wake load is awaited (R241). -/
  running : Bool := false
  /-- The fields of TIM_STAT. -/
  trusted : Bool := false
  oscStopped : Bool := false
  calStale : Bool := true
  casLock : Bool := false
  tgen : Nat := 0
  /-- Slew remaining, in 2^−28 ns, while a slew is in progress; and all that slews have moved TIM so far. -/
  slew : Option Int := none
  slewed : Int := 0
  lastNs : Nat := 0
  lastSec : Nat := 0
  tickper : Word := 0x77359400
  waketicks : Nat := 0
  wakeunc : Nat := 0
  /-- The time captured when PER left ON, in 2^−28 ns, with the tick count (R267). -/
  cap : Option (Nat × Nat) := none
  /-- The crystal stopped during the sleep (R268). -/
  sleepFail : Bool := false
  window : Option TickWindow := none
  /-- TIM in ns at the last tick edge. -/
  edgeNs : Nat := 0
  /-- Shadow seconds and fraction of each initiator (R244). -/
  shadows : Sparse (Nat × Nat) := []
  /-- PPS_OUT drives its active level; the time from which TIM has run by counting, and the boundary last
  pulsed, in ns (R257). -/
  ppsOut : Bool := false
  /-- Fabric cycles that the pulse in progress still lasts. -/
  ppsLeft : Nat := 0
  ppsFrom : Nat := 0
  ppsDone : Option Nat := none
  beacons : List BeaconTime := []
  deriving DecidableEq, Repr

/-- A frame that the MAC sends: its item, the frame with its FCS, the item's result, and whether an abort waits for
its end (R221, R264). -/
structure EthTx where
  item : Nat
  frame : List Byte
  result : Result
  cancel : Bool := false
  deriving DecidableEq, Repr

/-- The Ethernet MAC beyond its registers. -/
structure Eth where
  link : Bool := false
  speed : Nat := 0
  /-- A magic packet has latched its wake request (R463). -/
  magic : Bool := false
  /-- The frame in progress. -/
  tx : Option EthTx := none
  /-- The frame last sent on the line, with its FCS; it was cut, and ended with an error symbol. -/
  sent : List Byte := []
  error : Bool := false
  deriving DecidableEq, Repr

/-! ### Real-time clock -/

/-- An accepted RTC commit: which of time, date and weekday it loads, and the writer's shadows (R477). -/
structure RtcLoad where
  time : Bool
  date : Bool
  wday : Bool
  timeWord : Word
  dateWord : Word
  /-- A tick that is not a second boundary has come since (R479). -/
  due : Bool := false
  deriving DecidableEq, Repr

/-- A read freeze of an initiator: the captured time, date and SUBSEC, and the registers read in it (R475). -/
structure RtcFreeze where
  time : Word
  date : Word
  subsec : Nat
  seen : List Nat
  deriving DecidableEq, Repr

/-- The RTC beyond its registers; at reset, as when VBAT is first applied (R471). -/
structure Rtc where
  subsec : Nat := 0
  sec : Nat := 0
  min : Nat := 0
  hour : Nat := 0
  day : Nat := 1
  month : Nat := 1
  year : Nat := 2000
  wday : Nat := 0
  /-- Raw ticks into the trim window, the trim that acts in it, and trim steps that wait to be placed. -/
  raw : Nat := 0
  trim : Int := 0
  owed : Int := 0
  oscStop : Bool := true
  onRc : Bool := false
  alm : Bool := false
  dateErr : Bool := false
  load : Option RtcLoad := none
  freezes : Sparse (Option RtcFreeze) := []
  /-- Write shadows of RTC_TIME and RTC_DATE by initiator. -/
  times : Sparse Word := []
  dates : Sparse Word := []
  /-- ZC edges counted, and RTC seconds passed, in the window. -/
  zc : Nat := 0
  zcSecs : Nat := 0
  /-- RTC_TRIMMEAS. -/
  meas : Word := 0
  deriving DecidableEq, Repr

/-! ### Pins and peripherals -/

/-- A serial or DALI unit beyond its registers (R547 to R552). -/
structure Serial where
  /-- Received octets that wait, each with whether it had an error. -/
  fifo : List (Byte × Bool) := []
  /-- An I2C bus or an SPI chip select is held. -/
  held : Bool := false
  /-- PER_CFG as the last item took it; `none` before the first. -/
  cfg : Option Word := none
  /-- What the last item put on the line. -/
  sent : List Byte := []
  /-- The ARM item whose frame is staged, whether that frame is on the bus, and the abort status with which the item ends
  at the frame's end. -/
  arm : Option Nat := none
  bus : Bool := false
  cut : Option Nat := none
  deriving DecidableEq, Repr

/-- The pads (R540 to R542). -/
structure Gpio where
  /-- Levels that the board drives at the pins. -/
  ins : Word := 0
  /-- Pads latched when PER left ON, and their output levels. -/
  held : Bool := false
  pads : List Word := []
  outs : Word := 0
  deriving DecidableEq, Repr

/-- A host frame past its CRC whose accesses are not all done (R543, R544). -/
structure HostFrame where
  read : Bool
  fix : Bool
  addr : Nat
  /-- Words still to write, and words read so far. -/
  words : List Word
  got : List Word := []
  /-- Accesses not yet done, and of how many. -/
  left : Nat
  total : Nat
  /-- An access is issued and not yet taken. -/
  out : Bool := false
  deriving DecidableEq, Repr

/-- The host SPI target (R543 to R546). -/
structure Hspi where
  /-- The frame's octets before its CRC is checked, held in AON while PER is not ON. -/
  rx : List Byte := []
  frame : Option HostFrame := none
  /-- The frame has been answered; what the host clocks now is ignored. -/
  ended : Bool := false
  /-- The octets last answered after the host's CRC, but for further wait octets. -/
  answer : List Byte := []
  deriving DecidableEq, Repr

/-- The counter of a PWM, and the fabric cycles of its prescaler since it last stepped (R553). -/
structure PwmCount where
  count : Nat := 0
  pre : Nat := 0
  deriving DecidableEq, Repr

/-- The peripherals. -/
structure Periph where
  pwms : Sparse PwmCount := []
  units : Sparse Serial := []
  gpio : Gpio := {}
  hspi : Hspi := {}
  deriving DecidableEq, Repr

/-! ### Easel -/

/-- What MARK of a frame reads at the strict margin (R441, R442). -/
inductive TagMark where
  | erased | valid | dead | other
  deriving DecidableEq, Repr

/-- A frame of the tag store: MARK, SEQ, its data, and whether its CRC-32 is right (R441). -/
structure TagFrame (α : Type) where
  mark : TagMark := .erased
  seq : Nat := 0
  body : Option α := none
  crcOk : Bool := false
  deriving DecidableEq, Repr

/-- The two frames of a record. -/
structure TagRec (α : Type) where
  a : TagFrame α := {}
  b : TagFrame α := {}
  deriving DecidableEq, Repr

/-- The system record (R434, R441); at reset as parts leave Varade. -/
structure TagSys where
  id : List Byte := List.replicate 8 0xFF
  pwd : Word := 0
  /-- Origin signature and key; `none` where never set. -/
  sig : Option (List Byte) := none
  key : Option (List Byte) := none
  role : Bool := false
  fprot0 : Word := 0
  fprot1 : Word := 0
  fsec0 : Word := 0
  fsec1 : Word := 0
  deriving DecidableEq, Repr

/-- STATE of the tag role (R423). -/
inductive TagSt where
  | off | ready | opened | secured | quiet
  deriving DecidableEq, Repr

/-- A cell of the downlink (R417): the start of a frame, a bit, and its end. -/
inductive EaselCell where
  | sof | bit (b : Bool) | eof
  deriving DecidableEq, Repr

/-- The TAG block beyond its registers: tag role, tag store and reader. -/
structure Tag where
  /-- An external field is present; VBAT was adequate at its detection. -/
  field : Bool := false
  vbatOk : Bool := false
  st : TagSt := .off
  fails : Nat := 0
  lockout : Bool := false
  /-- RA and RB as held between AUTH1 and AUTH2. -/
  held : Option (List Byte × List Byte) := none
  /-- The last reply on the air, and the status of a WRITE that waits for its slot. -/
  reply : List (Bool × Bool) := []
  wreply : Option Byte := none
  recs : Sparse (TagRec (List Byte)) := []
  sys : TagRec TagSys := {}
  /-- By record, held in AON: DIRTY, posted, writes since the last report, and whether the last was SECURED. -/
  dirty : Sparse Bool := []
  posted : Sparse Bool := []
  writes : Sparse Nat := []
  secured : Sparse Bool := []
  /-- The reader: the part's own field is on; a foreign field was found; SESS and the selected identifier. -/
  own : Bool := false
  ext : Bool := false
  sess : Nat := 0
  sel : List Byte := []
  /-- The command frames of the reader's last item, in the order sent; a repeated exchange sends its frame again (R437). -/
  sent : List (List EaselCell) := []
  deriving DecidableEq, Repr

/-! ### Millrace -/

/-- An input of Millrace (R488, R489). -/
structure MrcInput where
  latched : Bool := false
  deferred : Bool := false
  limited : Bool := false
  coalesced : Bool := false
  overrun : Bool := false
  fired : Bool := false
  /-- The tick at which the input last accepted a trigger. -/
  last : Option Nat := none
  /-- A STAMP capture that has not been read. -/
  unread : Bool := false
  /-- A PWM_SYNC task acted since the last capture window. -/
  acted : Bool := false
  deriving DecidableEq, Repr

/-- Millrace beyond its registers. -/
structure Mrc where
  /-- Pulse producers that have fired since the last capture window, and levels as that window saw them. -/
  pulses : List Nat := []
  levels : Sparse Bool := []
  /-- MRC_IN registers that were written in this window, as they were before. -/
  was : Sparse (Option Word) := []
  inputs : Sparse MrcInput := []
  wakeLatch : Bool := false
  /-- GPIO pins toggled by Millrace tasks. -/
  toggles : Sparse Bool := []
  /-- Counters written since the last capture window, and counters cleared in it (R492). -/
  written : Sparse Bool := []
  cleared : List Nat := []
  deriving DecidableEq, Repr

/-! ### Security -/

/-- The OTP (R318): what its bits say. -/
structure Otp where
  /-- The lifecycle code of SEC_LIFE: 1 DELIVERED, 3 ENROLLED, 7 RETIRED. -/
  life : Nat := 1
  vr0Revoked : Bool := false
  varadeDbg : Bool := false
  plainKey : Bool := false
  /-- Salt and UNITID of enrolment records A and B; an empty list is blank. -/
  salts : Sparse (List Byte) := []
  ids : Sparse (List Byte) := []
  board : Half := 0
  /-- The record in use. -/
  mark : Option Nat := none
  /-- The certificate of an ENROLL that a supply loss tore (R321). -/
  cert : Option (List Byte) := none
  /-- Owner root slots: hash of the key; an empty list is blank. -/
  owners : Sparse (List Byte) := []
  revoked : Sparse Bool := []
  /-- Anti-rollback counters of LINK, CTRL, RADIOCFG and TAGCFG. -/
  rollback : Sparse Nat := []
  /-- Every bit of the PUF helper data is set (R319). -/
  helperGone : Bool := false
  deriving DecidableEq, Repr

/-- The SEC block beyond its registers. -/
structure Sec where
  otp : Otp := {}
  /-- PUF_OK, once reconstruction has ended. -/
  puf : Option Bool := none
  meas : List Byte := List.replicate 32 0
  /-- RESULT, COMP, REASON and INSTALLED of SEC_BOOTSTAT. -/
  result : Nat := 0
  comp : Nat := 0
  reason : Nat := 0
  installed : Bool := false
  /-- Hash of the owner root that signed the running components, and their versions. -/
  root : List Byte := List.replicate 32 0
  versions : Sparse Word := []
  /-- The debug gate (R331 to R333). -/
  dbgOpen : Bool := false
  lockout : Bool := false
  perms : Nat := 0
  fails : Nat := 0
  token : Option (List Byte) := none
  /-- Challenges drawn before the current one. -/
  chal : Nat := 0
  healthy : Bool := true
  rngFails : Nat := 0
  deriving DecidableEq, Repr

/-- A key in a handle (R343). -/
structure Key where
  origin : Nat
  usage : Nat
  octets : List Byte
  deriving DecidableEq, Repr

/-- An OPEN stream context (R349): its handle and key, and the stream so far. -/
structure PalCtx where
  handle : Nat
  mode : Nat
  key : Option (List Byte)
  op : Nat
  iv : List Byte
  m : Nat
  total : Nat
  aad : List Byte
  /-- The payload read so far. -/
  data : List Byte
  deriving DecidableEq, Repr

/-- A message that an engine runs or that is suspended (R352, R353). -/
structure PalMsg where
  item : Nat
  /-- The parameter block, for WHOLE and FIRST. -/
  block : List Byte
  handle : Nat
  key : Option (List Byte)
  urgent : Bool
  /-- The order in which messages started, and times suspended. -/
  order : Nat
  susp : Nat := 0
  /-- Octets processed when it was suspended. -/
  octets : Nat := 0
  deriving DecidableEq, Repr

/-- STATE of a Palette page (R340); pages 14 and 15 are LNK's. -/
inductive PalState where
  | free | owned (owner : Initiator) | scrubbing
  deriving DecidableEq, Repr

/-- The PAL block beyond its registers. -/
structure Pal where
  pages : Sparse PalState := []
  /-- Keys by 64 × page + handle, contexts by 8 × page + context. -/
  keys : Sparse (Option Key) := []
  ctxs : Sparse (Option PalCtx) := []
  /-- The message of each engine, and the suspended ones with the engine they left, oldest first. -/
  engines : Sparse (Option PalMsg) := []
  suspended : List (Nat × PalMsg) := []
  started : Nat := 0
  /-- Erases of LNK slots that wait (R357), with their items. -/
  erases : List (Nat × Nat) := []
  deriving DecidableEq, Repr

/-- A neighbour context beyond its staged registers (R198, R207, R230). -/
structure NbCtx where
  /-- The anchor, a full TIM time in ns. -/
  anchor : Option Nat := none
  sync : Nat := 0
  rated : Bool := false
  /-- RATE in 0.01 ppm. -/
  rate : Int := 0
  nanch : Nat := 0
  fcrxSet : Bool := false
  seqValid : Bool := false
  seq : Nat := 0
  lqi : Nat := 0
  rssi : Nat := 0
  pending : Bool := false
  /-- The minute at which AGE was 0. -/
  ageFrom : Nat := 0
  /-- GUARD, 10 µs units. -/
  guard : Nat := 0
  deriving DecidableEq, Repr

/-- The listen of an attempt (R216). -/
inductive Listen where
  | none | running | free
  deriving DecidableEq, Repr

/-- A TX or WAKECODE item in LNK's schedule (R212 to R224). -/
structure TxJob where
  item : Nat
  wake : Bool
  /-- LNK_TXCFG, LNK_ACKCFG, LNK_LBTCFG and LNK_GUARDCFG as latched at fetch (R200). -/
  txcfg : Word
  ackcfg : Word
  lbtcfg : Word
  guardcfg : Word
  ctx : Option Nat
  /-- The PHY_MODETAB entry and its words MOD and TX. -/
  entry : Nat
  mod : Word
  tx : Word
  /-- The transmit store entry, 0x1FF for none, and the frequency in kHz. -/
  store : Nat
  freq : Nat
  level : Option Nat
  /-- Pilot in µs and code of a wake signal. -/
  pilot : Nat := 0
  code : Half := 0
  secure : Bool
  ackreq : Bool
  lbt : Bool
  sleepy : Bool
  mpdu : List Byte
  /-- The frame built at the tune request, without FCS. -/
  frame : List Byte := []
  /-- The launch instant of the attempt in ns, where it has one, and whether it is a deadline: the attempt is a TIMED
  item's first (R187, R215). -/
  launch : Option Int := none
  deadline : Bool := false
  /-- The ramp-begin instant for which an attempt without a launch instant is prepared, in ns (R215). -/
  due : Option Int := none
  /-- The least preamble count that the attempt needs, and the wake frames of its train. -/
  pre : Nat := 0
  train : Nat := 0
  /-- The train of the attempt has been sent, and its data frame is next. -/
  sent : Bool := false
  fallback : Bool := false
  listen : Listen := .none
  /-- The tune request of the attempt has been made. -/
  tuned : Bool := false
  slot : Option Nat := none
  counter : Option Nat := none
  attempts : Nat := 0
  /-- Busy results of the attempt and of the item. -/
  busy : Nat := 0
  busyTotal : Nat := 0
  /-- A backoff ends at this instant. -/
  backoff : Option Int := none
  /-- It waits for the dwell accounting (R219). -/
  dwellWait : Bool := false
  /-- The data frame's stamp of the last attempt. -/
  stamp : Option (Nat × Nat) := none
  /-- The end of the frame at the antenna and the end of the acknowledgement wait, in ns. -/
  endAt : Int := 0
  ackWait : Option Int := none
  /-- A software abort waits for the frame's end (R221). -/
  cancel : Bool := false
  deriving DecidableEq, Repr

/-- An acknowledgement that is due (R209 to R211). -/
structure AckDue where
  /-- The instant of its first preamble symbol, ns. -/
  at_ : Int
  freq : Nat
  store : Nat
  /-- The claiming PHY_MODETAB entry and its words MOD and TX. -/
  entry : Nat
  mod : Word
  tx : Word
  ctx : Option Nat
  /-- For an Enh-Ack: the MHR with its counter field open, its security level and key slot. -/
  mhr : List Byte
  level : Nat
  slot : Option Nat
  frame : List Byte := []
  tuned : Bool := false
  deriving DecidableEq, Repr

/-- An RXWIN item whose window is open (R223). -/
structure RxWin where
  item : Nat
  endAt : Int
  ctx : Option Nat
  count : Nat := 0
  deriving DecidableEq, Repr

/-- An event of LNK that waits to be posted (R237, R238). -/
structure LnkEvent where
  kind : Nat
  idx : Nat
  value : Word
  sec : Nat
  ns : Nat
  merged : Bool := false
  /-- The model's own: its number in the order in which reports and events are raised (R37). -/
  no : Nat := 0
  deriving DecidableEq, Repr

/-- STATE of beacon tracking (R234). -/
inductive BcnSt where
  | off | track | lost | failed
  deriving DecidableEq, Repr

/-- The link controller beyond its registers. -/
structure Lnk where
  ctxs : Sparse NbCtx := []
  /-- Minutes counted (AGE), and air time used: transmit store entry, end and length in ns (R219). -/
  minutes : Nat := 0
  air : List (Nat × Int × Nat) := []
  jobs : List TxJob := []
  acks : List AckDue := []
  wins : List RxWin := []
  events : List LnkEvent := []
  /-- The tick of the next own sample. -/
  nextSample : Option Nat := none
  /-- A data window: its narrow entry and start, then its end once open. -/
  dataAt : Option (Nat × Int) := none
  dataEnd : Option Int := none
  /-- Listening after a frame-pending acknowledgement: its narrow entry and end. -/
  fpEnd : Option (Nat × Int) := none
  bcn : BcnSt := .off
  miss : Nat := 0
  hits : Nat := 0
  passes : Nat := 0
  /-- The target P of the armed beacon window in ns, the end of an open one, and whether it was displaced while open. -/
  bcnAt : Int := 0
  bcnEnd : Option Int := none
  bcnShut : Bool := false
  /-- A pass of the search has been completed and not yet counted. -/
  passDone : Bool := false
  /-- Consecutive NO_ACK completions, and the instant of the last antenna request. -/
  noacks : Nat := 0
  antReq : Option Nat := none
  /-- LNK_SECERR. -/
  secerr : Word := 0
  deriving DecidableEq, Repr

/-! ### Cores -/

/-- STATE of a core (R313); STALL is kept apart. -/
inductive CpuSt where
  | halt | run | wfi | lockup
  deriving DecidableEq, Repr

/-- A core (R270 to R273, R285): its registers, and how it runs. -/
structure Cpu where
  st : CpuSt := .halt
  /-- CPU_CTRL.RUN; the core has run since its last reset; RUN = 0 waits for the next acceptance point. -/
  run : Bool := false
  ran : Bool := false
  halting : Bool := false
  /-- The core stands at an acceptance point; paired words with S = 0 since the last one. -/
  atPoint : Bool := true
  pairs : Nat := 0
  /-- Its instruction waits for an access to be served. -/
  stalled : Bool := false
  p : List Word := List.replicate 8 0
  sp : Word := 0
  ls : List Word := List.replicate 4 0
  le : List Word := List.replicate 4 0
  lc : List Word := List.replicate 4 0
  acc0 : BitVec 72 := 0
  acc1 : BitVec 72 := 0
  sw : Word := 0
  pc : Word := 0
  cycles : Word := 0
  instret : Word := 0
  /-- The instruction cache of a control core: the halfwords that it holds, by address (R269, R311). -/
  icache : Sparse Half := []
  deriving DecidableEq, Repr

/-! ### Cascade -/

/-- The state of a link (R520). -/
inductive LinkSt where
  | down | training | up
  deriving DecidableEq, Repr

/-- STATE of a position (R523). -/
inductive PosSt where
  | absent | new | registered
  deriving DecidableEq, Repr

structure CasPos where
  st : PosSt := .absent
  boot : Nat := 0
  sepoch : BitVec 8 := 0
  hw : Word := 0
  deriving DecidableEq, Repr

/-- The snapshot that the master's item has set: the item and its instant in ns. -/
structure CasSnap where
  item : Nat
  at_ : Int
  deriving DecidableEq, Repr

/-- The cascade block beyond its registers. -/
structure Casc where
  /-- The CAS_ROLE strap as sampled last. -/
  master : Bool := true
  position : Nat := 0
  len : Nat := 0
  up : LinkSt := .down
  dn : LinkSt := .down
  reg : Bool := false
  chaingen : BitVec 8 := 0
  rttUp : Nat := 0
  rttDn : Nat := 0
  pos : Sparse CasPos := []
  /-- Line activity has latched its wake request (R463). -/
  activity : Bool := false
  /-- Hopper slots forwarded that CONS has not passed: ring and slot, counted modulo 2 × size. -/
  fwd : List (Nat × Nat) := []
  snap : Option CasSnap := none
  /-- What the last forwarded entry put on CAS_UP. -/
  sent : List Byte := []
  deriving DecidableEq, Repr

/-! ### Field update -/

/-- A session of UPD (R503 to R505): the header it holds, and the chunks accepted, table and data. -/
structure UpdSess where
  header : List Byte
  tables : List Nat := []
  chunks : List Nat := []
  deriving DecidableEq, Repr

/-- UPD beyond its registers. -/
structure Upd where
  sess : Sparse (Option UpdSess) := []
  /-- Starts that resumed the install under way (R514). -/
  resumes : Nat := 0
  deriving DecidableEq, Repr

/-- The state of the part. -/
structure State where
  variant : Variant
  /-- Registers of the pages by key, headers and banks included; an unlisted register holds its reset value. -/
  regs : Sparse Word
  /-- Staged values by the key of their register (R61). -/
  staged : Sparse Word
  /-- The staging claim of each page (R61). -/
  claims : Sparse (Option Initiator)
  /-- Accepted commits that wait for their switch points (R64). -/
  commits : List Commit
  /-- Octets by memory key: SRAM, AON SRAM and flash at their fabric address, DRAM by rank and rank-local address. -/
  mem : List Host.Cell
  /-- How often each bank or rank has lost its contents (R458, R371). -/
  lost : Sparse Nat
  doms : Sparse Dom
  clk : Clk
  /-- Slow-clock tick edges: the model's count of them. -/
  ticks : Nat
  replies : Sparse Reply
  stalls : List Access
  /-- The sticky error bit of the debug port (R39). -/
  debugErr : Bool
  /-- The model's own: counts the free values taken. -/
  freeCtr : Nat
  flm : Flume
  drc : Dram
  flc : Flash
  nmc : Nand
  tim : Tim
  recv : Recv
  syn : Syn
  txa : Txa
  wrx : Wrx
  eth : Eth
  rtc : Rtc
  per : Periph
  tag : Tag
  mrc : Mrc
  sec : Sec
  pal : Pal
  lnk : Lnk
  /-- The cores by number: L0, L1, C0, C1. -/
  cpus : Sparse Cpu
  cas : Casc
  upd : Upd
  /-- The Primer has finished since the last part reset. -/
  booted : Bool
  /-- The TESTMODE strap as sampled last (R539); the supply is below its threshold, and the part held in reset (R556). -/
  testmode : Bool
  inReset : Bool
  /-- The VIO banks that are supplied, with the voltage that each sensed at power-up (R538). -/
  vio : List (VioBank × VioLevel)
  /-- A part reset that waits for medium operations, by its cause (R395). -/
  resetDue : Option Nat
  /-- Commands that wait, first in first out. -/
  pending : List Instr
  deriving DecidableEq, Repr

/-- The reasons a step can stop with a fault: there is none. Every command has an effect in every state;
one whose condition does not hold has none. -/
inductive Fault where
  deriving DecidableEq, Repr

/-- The reasons a command is turned away. -/
inductive Refusal where
  /-- Raised by the dispatch for a command that has no meaning in this model; safe, since nothing is
  said of what follows. -/
  | notModelled (mnemonic : String)
  deriving DecidableEq, Repr

/-- The part right after reset (R450, R465, R538): every register at its reset value, no memory written. -/
def State.reset : State where
  variant := .lm8128
  regs := []
  staged := []
  claims := []
  commits := []
  mem := []
  lost := []
  doms := []
  clk := {}
  ticks := 0
  replies := []
  stalls := []
  debugErr := false
  freeCtr := 0
  flm := {}
  drc := {}
  flc := {}
  nmc := {}
  tim := {}
  recv := {}
  syn := {}
  txa := {}
  wrx := {}
  eth := {}
  rtc := {}
  per := {}
  tag := {}
  mrc := {}
  sec := {}
  pal := {}
  lnk := {}
  cpus := [(2, { st := .run, run := true, ran := true })]
  cas := {}
  upd := {}
  booted := false
  testmode := false
  inReset := false
  vio := [(.a, .v33), (.b, .v33), (.c, .v33), (.e, .v18), (.n, .v18)]
  resetDue := none
  pending := []

end Sys2Proof.Machine
end

