-- ==== Sys2Proof/Machine/Ops.lean ====
section
/-! DEFINITION. The named operations over registers, domains, errors, interrupts and staging that every
block shares (ch. 1, 2 and 14). -/

namespace Sys2Proof.Machine

/-! ### Rounding -/

/-- A quantity in steps of `unit`; between two steps the manual does not say which is shown. -/
def inSteps (rule unit : Nat) (x : Int) : Int :=
  x / unit + (if x % unit ≠ 0 ∧ Config.roundsUp rule x then 1 else 0)

/-! ### Registers -/

/-- The key of the register at offset `off` of page `page`, in the set of index `idx`. -/
def regKey (page idx off : Nat) : Nat := (page * 0x100000 + idx % 0x100000) * 0x1000 + off % 0x1000

/-- The row of a page's table that holds offset `off`; header rows first. -/
def regDef (page off : Nat) : Option RegDef :=
  match headerRegs.find? (·.covers off) with
  | some d => some d
  | none => (pageRegs page).find? (·.covers off)

/-- The reset value of a register (R45 and each block's table). -/
def regReset (page idx off : Nat) : Word :=
  match specialReset page idx off with
  | some v => word v
  | none => match regDef page off with
    | some d => word d.reset
    | none => 0

/-- The value that a register holds. -/
def State.reg (s : State) (page idx off : Nat) : Word :=
  Sparse.get (regReset page idx off) s.regs (regKey page idx off)

/-- The state with a register's value replaced. -/
def State.setReg (s : State) (page idx off : Nat) (v : Word) : State :=
  { s with regs := Sparse.set (regReset page idx off) s.regs (regKey page idx off) v }

/-- The number in bits `hi` to `lo` of a register. -/
def State.fieldOf (s : State) (page idx off hi lo : Nat) : Nat := bits (s.reg page idx off) hi lo

/-- The state with bits `hi` to `lo` of a register replaced. -/
def State.setField (s : State) (page idx off hi lo v : Nat) : State :=
  s.setReg page idx off (setBits (s.reg page idx off) hi lo v)

/-- The state with a counter field of a register advanced by `k`, saturating. -/
def State.count (s : State) (page idx off hi lo k : Nat) : State :=
  s.setReg page idx off (incField (s.reg page idx off) hi lo k)

/-- The state with every register whose key satisfies `p` at its reset value. -/
def State.clearRegs (s : State) (p : Nat → Bool) : State :=
  { s with regs := Sparse.keep (fun k => !p k) s.regs }

/-- The page, set index and offset of a register key. -/
def keyPage (k : Nat) : Nat := k / 0x100000000
def keyIdx (k : Nat) : Nat := k / 0x1000 % 0x100000
def keyOff (k : Nat) : Nat := k % 0x1000

/-- A key of a register outside the header (R43, R49): the header is 0x000 to 0x030, CHSEL and CHCOUNT. -/
def outsideHeader (k : Nat) : Bool := 0x34 ≤ keyOff k && keyOff k != 0x80 && keyOff k != 0x84

/-- The next free value (the model's own counter of values the spec leaves undefined). -/
def State.fresh (s : State) : Word × State :=
  (Config.freeValue s.freeCtr, { s with freeCtr := s.freeCtr + 1 })

/-! ### Fuses (R1, R4) -/

/-- Quarter `q` of the channelizer is present. -/
def quarterPresent (v : Variant) (q : Nat) : Bool :=
  match v with | .lm8128 => decide (q < 4) | .lm8032 => q == 0 | .lm8004 => false

/-- The unit of page `page` is present. -/
def pagePresent (v : Variant) (page : Nat) : Bool :=
  match v with
  | .lm8128 => true
  | .lm8032 => page != Pg.drc && page != Pg.nmc && page != Pg.eth && page != Pg.cas
  | .lm8004 => page != Pg.drc && page != Pg.nmc && page != Pg.eth && page != Pg.cas && page != Pg.chz

/-- Domain `d` is present. -/
def domPresent (v : Variant) (d : Nat) : Bool :=
  (decide (d ≤ 18) || (decide (32 ≤ d) && decide (d ≤ 47))) &&
  (match v with
   | .lm8128 => true
   | .lm8032 => d != 5 && d != 6 && d != 7 && d != Dm.drc && d != Dm.nmc && d != Dm.eth && d != Dm.cas
   | .lm8004 => d != 4 && d != 5 && d != 6 && d != 7 && d != Dm.drc && d != Dm.nmc && d != Dm.eth && d != Dm.cas)

/-! ### Channel counts and channel select (R40, R56, R57) -/

/-- Channels of the committed plan (R40, R74): by spacing 200, 100 or 400 kHz. -/
def planChannels (v : Variant) (spacing : Nat) : Nat :=
  match v, spacing with
  | .lm8128, 1 => 256 | .lm8128, 2 => 64 | .lm8128, _ => 128
  | .lm8032, 1 => 64 | .lm8032, 2 => 16 | .lm8032, _ => 32
  | .lm8004, _ => 0

/-- The spacing code of the running plan, CHZ_PLAN. -/
def State.spacing (s : State) : Nat := s.fieldOf Pg.chz 0 0x800 25 24

/-- CHCOUNT of a page. -/
def State.chcount (s : State) (page : Nat) : Nat :=
  match page with
  | 0x00 => 48
  | 0x0C => planChannels s.variant s.spacing
  | 0x10 => 1024
  | 0x14 => 64
  | 0x19 => 16
  | 0x28 => 4
  | 0x2A => 4
  | _ => 0

/-- The CHSEL bank of an initiator on a page. -/
def State.chsel (s : State) (page : Nat) (ini : Initiator) : Nat := s.fieldOf page ini.id 0x80 9 0

/-- The quarter that holds channel `ch` of the running plan. A bank that names a channel beyond the plan (R74) stands
for the last quarter in BLK_CTRL and BLK_STAT (DESIGN CHOICE, log entry 108). -/
def State.quarterOf (s : State) (ch : Nat) : Nat :=
  match s.variant with
  | .lm8128 => min 3 (ch * 4 / s.chcount Pg.chz)
  | _ => 0

/-- The set that an offset of a page reaches for an initiator: the bank's in the window, else 0. -/
def State.setIndex (s : State) (page : Nat) (ini : Initiator) (off : Nat) : Nat :=
  if 0x100 ≤ off && off < 0x800 then s.chsel page ini else 0

/-! ### Domains -/

/-- The state of a domain after a part reset (R450). -/
def domReset (d : Nat) : Dom :=
  if d == 0 || d == Dm.lnk || d == Dm.ctl || d == Dm.sec || d == Dm.flc || d == Dm.per || (32 ≤ d && d ≤ 47)
  then { st := .on } else { st := .off }

/-- The domain's record. -/
def State.dom (s : State) (d : Nat) : Dom := Sparse.get (domReset d) s.doms d

def State.setDom (s : State) (d : Nat) (x : Dom) : State :=
  { s with doms := Sparse.set (domReset d) s.doms d x }

/-- The domain is ON and settled. -/
def State.domOn (s : State) (d : Nat) : Bool := (s.dom d).st == .on && (s.dom d).phase == .none

/-- The domain is settled OFF. -/
def State.domOff (s : State) (d : Nat) : Bool := (s.dom d).st == .off && (s.dom d).phase == .none

/-- The domain of a page's block (R40); for CHZ the quarter of set `idx`. -/
def State.domainOf (s : State) (page idx : Nat) : Nat :=
  match page with
  | 0x00 | 0x01 | 0x02 | 0x03 => Dm.aon
  | 0x04 => Dm.wrx
  | 0x05 => Dm.tag
  | 0x08 => Dm.rfe
  | 0x09 => Dm.txa
  | 0x0A => Dm.syn
  | 0x0C => Dm.chz0 + s.quarterOf idx
  | 0x0D => Dm.rfe
  | 0x10 => Dm.lnk
  | 0x12 => Dm.eth
  | 0x18 | 0x19 => Dm.sec
  | 0x20 | 0x21 => Dm.lnk
  | 0x22 | 0x23 => Dm.ctl
  | 0x28 => Dm.drc
  | 0x29 => Dm.flc
  | 0x2A => Dm.nmc
  | 0x30 => Dm.cas
  | _ => Dm.per

/-- The pages whose block lies in a domain (R451, R454). -/
def pagesOf (d : Nat) : List Nat :=
  match d with
  | 0 => [0x00, 0x01, 0x02, 0x03]
  | 1 => [0x04] | 2 => [0x08, 0x0D] | 3 => [0x0A]
  | 4 | 5 | 6 | 7 => [0x0C]
  | 8 => [0x09] | 9 => [0x10, 0x20, 0x21] | 10 => [0x22, 0x23] | 11 => [0x18, 0x19]
  | 12 => [0x29] | 13 => [0x28] | 14 => [0x2A] | 15 => [0x12] | 16 => [0x05] | 17 => [0x30]
  | 18 => [0x11, 0x14, 0x1A, 0x38, 0x39, 0x40, 0x41, 0x42, 0x43, 0x44, 0x45, 0x46, 0x47, 0x48, 0x49, 0x4A, 0x4B]
  | _ => []

/-- The set of BLK_CTRL in which a domain's DREQ is held: CHZ holds one per quarter (R48). -/
def ctrlSet (d : Nat) : Nat := if 4 ≤ d && d ≤ 7 then d - 4 else 0

/-- The rank of a request (R451): hold ON, then OFF, then RETENTION, then AUTO. -/
def dreqRank (q : Nat) : Nat := match q with | 1 => 3 | 3 => 2 | 2 => 1 | _ => 0

def dreqMax (a b : Nat) : Nat := if dreqRank a < dreqRank b then b else a

/-- The domain has a RETENTION state (R450). -/
def hasRetention (d : Nat) : Bool := d != 0 && d != Dm.wrx && d != Dm.flc && d != Dm.tag

/-- The effective request of a domain (R451); RETENTION is taken as OFF where there is none (R450). -/
def State.dreq (s : State) (d : Nat) : Nat :=
  let q := (pagesOf d).foldl (fun a p => dreqMax a (s.fieldOf p (ctrlSet d) 0x008 5 4)) (s.fieldOf Pg.pwr d 0x100 5 4)
  if q = 2 ∧ !hasRetention d then 3 else q

/-- All domains but the memory banks, and all of them. -/
def coreDomains : List Nat := List.range 19
def allDomains : List Nat := List.range 19 ++ (List.range 16).map (32 + ·)

/-- A domain is on its way to ON, or there. -/
def State.domUp (s : State) (d : Nat) : Bool := (s.dom d).st == .on || (s.dom d).phase == .waking

/-- A domain other than AON, WRX, TAG or PER itself is not yet OFF or RETENTION, so that PER stays ON (R11). -/
def State.perNeeded (s : State) : Bool :=
  allDomains.any (fun d => d != Dm.aon && d != Dm.wrx && d != Dm.tag && d != Dm.per && s.domUp d)

/-- The lowest state in which R452 holds a domain. -/
def State.heldAt (s : State) (d : Nat) : DState :=
  if d == Dm.aon then .on
  else if d == Dm.per then (if s.perNeeded then .on else .off)
  else if d == Dm.chz0 then
    (if !s.domOff 5 || !s.domOff 6 || !s.domOff 7 then .retention else .off)
  else if d == Dm.syn then
    (if s.domUp Dm.rfe || s.domUp Dm.txa then .retention else .off)
  else if d == Dm.rfe then (if !s.domOff Dm.txa then .retention else .off)
  else .off

/-- The domains that a domain needs when it wakes (R452). -/
def needs (d : Nat) : List Nat :=
  match d with
  | 0 => [] | 1 => [] | 16 => [] | 18 => []
  | 2 => [Dm.per, Dm.syn]
  | 5 | 6 | 7 => [Dm.per, Dm.chz0]
  | 8 => [Dm.per, Dm.syn, Dm.rfe]
  | _ => [Dm.per]

/-- A wake of a domain is requested, unless it is ON already or its effective request is OFF (R42, R457). -/
def State.wakeOne (s : State) (d : Nat) : State :=
  if s.domOn d || !domPresent s.variant d then s
  else s.setDom d { s.dom d with wakeReq := true }

/-- A wake of a domain and of every domain it needs: PER, and what it needs in at least RETENTION where that is
OFF or on its way there (R452). -/
def State.wake (s : State) (d : Nat) : State :=
  (needs d).foldl (fun s n =>
    let x := s.dom n
    if n == Dm.per || x.st == .off || (x.phase != .none && x.target == .off) then s.wakeOne n else s) (s.wakeOne d)

/-- A domain and everything it needs are served: itself ON, and the domains it needs no lower than R452 asks. -/
def State.ready (s : State) (d : Nat) : Bool :=
  s.domOn d && (needs d).all (fun n => if n == Dm.per then s.domOn n else !(s.domOff n) && (s.dom n).phase == .none)

/-- A domain that is ON is asked to rest in RETENTION, where nothing holds it ON (R225, R454). -/
def State.rest (s : State) (d : Nat) : State :=
  let x := s.dom d
  if s.domOn d ∧ x.leaving.isNone ∧ s.dreq d ≠ 1 ∧ !x.wakeReq then
    s.setDom d { x with leaving := some .retention, since := s.ticks }
  else s

/-- A VIO bank is supplied; one without supply isolates its pads, and its inputs read 0 (R538). -/
def State.supplied (s : State) (bank : VioBank) : Bool := s.vio.any (fun v => v.1 == bank)

/-- An access reaches the domain: its idle timer returns to 0 (R453). -/
def State.touch (s : State) (d : Nat) : State :=
  if (s.dom d).idle = 0 then s else s.setDom d { s.dom d with idle := 0 }

/-! ### Interrupts and errors (R51, R52, R54) -/

/-- Sets bits of a page's INT_RAW, as the events do. -/
def State.interrupt (s : State) (page : Nat) (mask : Word) : State :=
  s.setReg page 0 0x010 (s.reg page 0 0x010 ||| mask)

/-- The Millrace producer that an event of a page fires (R484). -/
def producerOf (page b : Nat) : Option Nat :=
  match page, b with
  | 0x11, 3 => some 0 | 0x11, 4 => some 1 | 0x11, 5 => some 2 | 0x11, 6 => some 3
  | 0x11, 2 => some 4 | 0x11, 0 => some 6
  | 0x10, 0 => some 16 | 0x10, 1 => some 17 | 0x10, 3 => some 18 | 0x10, 6 => some 19
  | 0x09, 0 => some 20 | 0x09, 1 => some 21
  | 0x0A, 3 => some 22 | 0x0A, 4 => some 23
  | 0x0D, 2 => some 24 | 0x0D, 3 => some 25 | 0x0D, 0 => some 26
  | 0x0C, 0 => some 27
  | 0x28, 1 => some 28 | 0x28, 3 => some 29
  | 0x29, 1 => some 31
  | 0x01, 0 => some 8 | 0x01, 1 => some 9 | 0x05, 1 => some 15 | 0x2A, 2 => some 30
  | _, _ => none

/-- A pulse producer of Millrace fires (R484). -/
def State.pulse (s : State) (p : Nat) : State := { s with mrc := { s.mrc with pulses := s.mrc.pulses ++ [p] } }

/-- An event sets bit `b` of a page's INT_RAW, and fires its Millrace producer. -/
def State.event (s : State) (page b : Nat) : State :=
  let s := s.interrupt page (word (2 ^ b))
  match producerOf page b with | some p => s.pulse p | none => s

/-- An error: CODE, ERR_INFO, COUNT saturating at 255, and ERR in INT_RAW (R51, R54). -/
def State.raise (s : State) (page : Nat) (ini : Initiator) (off detail code : Nat) : State :=
  let c := bits (s.reg page 0 0x020) 23 16
  let s := s.setReg page 0 0x020 (word (satInc 8 c * 0x10000 + code))
  let s := s.setReg page 0 0x024 (word (ini.id * 0x20000000 + off % 0x1000 * 0x10000 + detail % 0x10000))
  s.event page 31

/-- The page's interrupt line: the OR of INT_STAT (R52). -/
def State.line (s : State) (page : Nat) : Bool := s.reg page 0 0x010 &&& s.reg page 0 0x014 != 0

/-! Error codes of every page (R55). -/
namespace Err
abbrev mismatch : Nat := 0x01
abbrev locked : Nat := 0x02
abbrev chselRange : Nat := 0x03
abbrev ringOwner : Nat := 0x04
abbrev ringOverrun : Nat := 0x05
abbrev undefOpcode : Nat := 0x06
abbrev commitBusy : Nat := 0x07
abbrev stageBusy : Nat := 0x08
abbrev genMismatch : Nat := 0x09
abbrev stageLost : Nat := 0x0A
abbrev domainHeld : Nat := 0x0B
abbrev enableRefused : Nat := 0x0C
abbrev range : Nat := 0x0D
abbrev badKey : Nat := 0x0E
abbrev internal : Nat := 0x7F
end Err

/-! Status codes (R30). -/
namespace Sc
abbrev done : Nat := 0x00
abbrev doneZero : Nat := 0x01
abbrev doneWarn : Nat := 0x02
abbrev abortedSw : Nat := 0x10
abbrev abortedDomainOff : Nat := 0x11
abbrev staleEpoch : Nat := 0x12
abbrev late : Nat := 0x13
abbrev channelBusy : Nat := 0x14
abbrev noAck : Nat := 0x15
abbrev abortedReset : Nat := 0x16
abbrev abortedCal : Nat := 0x17
abbrev unsync : Nat := 0x18
abbrev authFail : Nat := 0x20
abbrev replay : Nat := 0x21
abbrev keyAbsent : Nat := 0x22
abbrev mediaCorrected : Nat := 0x30
abbrev mediaUncorrectable : Nat := 0x31
abbrev mediaRetired : Nat := 0x32
abbrev parityReplayed : Nat := 0x40
abbrev rankMigrated : Nat := 0x41
abbrev channelFailed : Nat := 0x42
abbrev internal : Nat := 0x7F
end Sc

/-- TRUST of a status (R30). -/
def trust (status : Nat) : Bool :=
  status == 0 || status == 1 || status == 2 || status == 0x30 || status == 0x32 || status == 0x40 || status == 0x41

/-! ### Lock (R67 to R69) -/

/-- The page is locked. -/
def State.locked (s : State) (page : Nat) : Bool := bit (s.reg page 0 0x030) 0

/-- BLK_CTRL.EN. -/
def State.enabled (s : State) (page : Nat) : Bool := bit (s.reg page 0 0x008) 0

/-! ### Staging (R61 to R66) -/

/-- The initiator that holds a page's staging claim. -/
def State.claim (s : State) (page : Nat) : Option Initiator := Sparse.get none s.claims page

def State.setClaim (s : State) (page : Nat) (c : Option Initiator) : State :=
  { s with claims := Sparse.set none s.claims page c }

/-- A key of the staged sets of a page. -/
def onPage (page k : Nat) : Bool := keyPage k == page

/-- A staged value of the page awaits commit. -/
def State.isStaged (s : State) (page : Nat) : Bool := s.staged.any (fun e => onPage page e.1)

/-- A commit of the page is accepted and waits for its switch point. -/
def State.commitPend (s : State) (page : Nat) : Bool := bit (s.reg page 0 0x028) 31

/-- The staged value of a register where one is staged, else its running value. -/
def State.stagedReg (s : State) (page idx off : Nat) : Word :=
  Sparse.get (s.reg page idx off) s.staged (regKey page idx off)

/-- The register has a staged value. -/
def State.hasStaged (s : State) (page idx off : Nat) : Bool := Sparse.has s.staged (regKey page idx off)

/-- Releases the claim once no staged set remains (R64, R65). -/
def State.releaseClaim (s : State) (page : Nat) : State :=
  if s.isStaged page then s else s.setClaim page none

/-- The sets named by a commit: every one, or the set of the index and the block-specific set (R62). -/
def namedBy (page idx : Nat) (all : Bool) (k : Nat) : Bool :=
  onPage page k && (all || 0x800 ≤ keyOff k || keyIdx k == idx)

/-- Discards all staged sets of a page with STAGE_LOST, where there are any (R66). A set named by a
commit that is still PEND stays. -/
def State.loseStaged (s : State) (page : Nat) (ini : Initiator) : State :=
  let keepKey := fun k => !(onPage page k) ||
    s.commits.any (fun c => c.page == page && namedBy page c.index c.all k)
  if s.staged.any (fun e => !keepKey e.1) then
    let s := { s with staged := Sparse.keep keepKey s.staged }
    (s.releaseClaim page).raise page ini (Config.errOffset page Err.stageLost) (Config.errDetail page Err.stageLost) Err.stageLost
  else s

/-! ### Computed header registers -/

/-- DSTATE as registers report it (R50): 3 while the domain changes state. -/
def State.dstate (s : State) (d : Nat) : Nat :=
  if (s.dom d).phase != .none then 3
  else match (s.dom d).st with | .off => 0 | .retention => 1 | .on => 2

/-- BLK_ID (R46). -/
def blkId (page : Nat) : Word :=
  match pageTable.find? (fun r => r.1 == page) with
  | some (p, t, i) => word (t * 0x1000000 + i * 0x10000 + 0xB000 + p)
  | none => 0

/-- BLK_CAP.SUBUNITS (R47). -/
def subunits (v : Variant) (page : Nat) : Nat :=
  match page with
  | 0x0C => (match v with | .lm8128 => 15 | .lm8032 => 1 | .lm8004 => 0)
  | 0x28 => (match v with | .lm8128 => 3 | _ => 0)
  | _ => 0

/-- BLK_CAP (R47). A fused-off unit answers it as normal, with PRESENT 0 (R4). -/
def blkCap (v : Variant) (page : Nat) : Word :=
  word ((pagePresent v page).toNat * 0x80000000 + subunits v page * 0x1000000 + caps v page)

/-! ### Items -/

/-- A unit holds an entry of the in-flight table. -/
def State.unitBusy (s : State) (page : Nat) : Bool := s.flm.ift.any (fun i => i.unit == page)

end Sys2Proof.Machine
end

