-- ==== Sys2Proof/Machine/DramMap.lean ====
section
/-! DEFINITION. The DRAM address map, the inline ECC on the words read and written, and the start and
end of a migration (R359 to R378). -/

namespace Sys2Proof.Machine

/-! ### Geometry and map (R360, R364, R365) -/

namespace Dc
abbrev rkCfg : Nat := 0x100
abbrev rkStat : Nat := 0x104
abbrev rkCe : Nat := 0x108
abbrev rkCewin : Nat := 0x10C
abbrev rkUe : Nat := 0x110
abbrev rkMigpos : Nat := 0x114
abbrev rkTrain : Nat := 0x118
abbrev rkCethr : Nat := 0x11C
abbrev map : Nat := 0x800
abbrev speed : Nat := 0x808
abbrev refcfg : Nat := 0x80C
abbrev ecccfg : Nat := 0x810
abbrev migcfg : Nat := 0x814
abbrev chctrl : Nat := 0x818
abbrev migctrl : Nat := 0x81C
abbrev chstat : Nat := 0x820
abbrev parcnt : Nat := 0x824
abbrev evcfg : Nat := 0x828
abbrev erraddr : Nat := 0x82C
abbrev errinfo : Nat := 0x830
end Dc

/-- Data bytes of a rank as configured (R360): 448 MiB for one x16 4 Gbit device, doubling with the
density and with two x8 devices. -/
def rankBytes (cfg : Word) : Nat :=
  448 * 0x100000 * 2 ^ (bits cfg 9 8) * (if bit cfg 4 then 2 else 1)

/-- Row slots of a rank: rows of 1792 data bytes. -/
def rankSlots (cfg : Word) : Nat := rankBytes cfg / 1792

/-- Bank groups of a rank: two for x16, four for x8. -/
def rankGroups (cfg : Word) : Nat := if bit cfg 4 then 4 else 2

/-- A data rank: PRESENT and neither SPARE nor OUT (R364). -/
def isDataRank (cfg : Word) : Bool := bit cfg 31 && !bit cfg 30 && !bit cfg 29

/-- A map of the window: the four rank configurations and DRC_MAP. -/
structure DramCfg where
  rk : Nat → Word
  mode : Nat
  grain : Nat

/-- The running map. -/
def State.dramCfg (s : State) : DramCfg :=
  { rk := fun r => s.reg Pg.drc r Dc.rkCfg
    mode := s.fieldOf Pg.drc 0 Dc.map 1 0
    grain := 2 ^ s.fieldOf Pg.drc 0 Dc.map 11 8 }

/-- Data bytes that a rank adds to the map. -/
def DramCfg.cap (c : DramCfg) (r : Nat) : Nat := if isDataRank (c.rk r) then rankBytes (c.rk r) else 0

/-- Data capacity of a channel. -/
def DramCfg.chCap (c : DramCfg) (ch : Nat) : Nat := c.cap (2 * ch) + c.cap (2 * ch + 1)

/-- Mapped bytes before the limit of the window. -/
def DramCfg.total (c : DramCfg) : Nat :=
  match c.mode with
  | 0 => c.chCap 0
  | 1 => c.chCap 1
  | _ => c.chCap 0 + c.chCap 1

/-- DRC_MAPSIZE (R364). -/
def DramCfg.mapSize (c : DramCfg) : Nat := min c.total 0x80000000

/-- The channel and the channel-local address of window offset `a` (R364). -/
def DramCfg.channel (c : DramCfg) (a : Nat) : Nat × Nat :=
  let c0 := c.chCap 0
  let c1 := c.chCap 1
  match c.mode with
  | 0 => (0, a)
  | 1 => (1, a)
  | 2 =>
    let m := min c0 c1
    if a < 2 * m then (a / c.grain % 2, a / (2 * c.grain) * c.grain + a % c.grain)
    else (if c0 < c1 then 1 else 0, a - m)
  | _ => if a < c0 then (0, a) else (1, a - c0)

/-- The rank and the rank-local address of window offset `a` (R364). -/
def DramCfg.locate (c : DramCfg) (a : Nat) : Nat × Nat :=
  let (ch, x) := c.channel a
  let lo := c.cap (2 * ch)
  if x < lo then (2 * ch, x) else (2 * ch + 1, x - lo)

/-- The window offset of a rank-local address: the inverse of the map. -/
def DramCfg.windowOf (c : DramCfg) (r d : Nat) : Nat :=
  let ch := r / 2
  let x := if r % 2 = 0 then d else d + c.cap (2 * ch)
  let c0 := c.chCap 0
  let c1 := c.chCap 1
  match c.mode with
  | 2 =>
    let m := min c0 c1
    if x < m then x / c.grain * (2 * c.grain) + ch * c.grain + x % c.grain else x + m
  | 3 => if ch = 0 then x else x + c0
  | _ => x

/-! ### Rank and channel states -/

namespace Rk
abbrev absent : Nat := 0
abbrev online : Nat := 1
abbrev spare : Nat := 2
abbrev migrating : Nat := 3
abbrev target : Nat := 4
abbrev retired : Nat := 5
abbrev standin : Nat := 6
end Rk

namespace Chn
abbrev untrained : Nat := 0
abbrev training : Nat := 1
abbrev online : Nat := 2
abbrev replay : Nat := 3
abbrev failed : Nat := 4
end Chn

/-- DRC_RK_STAT.STATE. -/
def State.rkState (s : State) (r : Nat) : Nat := s.fieldOf Pg.drc r Dc.rkStat 31 29

/-- DRC_RK_STAT.PARTNER. -/
def State.rkPartner (s : State) (r : Nat) : Nat := s.fieldOf Pg.drc r Dc.rkStat 25 24

/-- The state with a rank's STATE and PARTNER. -/
def State.setRk (s : State) (r st partner : Nat) : State :=
  s.setReg Pg.drc r Dc.rkStat (word (st * 0x20000000 + partner % 4 * 0x1000000))

/-- DRC_CHSTAT.STATE of a channel. -/
def State.chState (s : State) (ch : Nat) : Nat := s.fieldOf Pg.drc 0 Dc.chstat (16 * ch + 15) (16 * ch + 13)

/-- The state with a channel's STATE and FAILCODE. -/
def State.setCh (s : State) (ch st fail : Nat) : State :=
  (s.setField Pg.drc 0 Dc.chstat (16 * ch + 15) (16 * ch + 13) st).setField Pg.drc 0 Dc.chstat
    (16 * ch + 11) (16 * ch + 8) fail

/-- The rank from which a read of rank-local address `d` of the map's rank `r` is served (R376, R377). -/
def State.readRank (s : State) (r d : Nat) : Nat :=
  if s.rkState r = Rk.migrating then
    (if d / 1792 < s.fieldOf Pg.drc r Dc.rkMigpos 21 0 then s.rkPartner r else r)
  else if s.rkState r = Rk.retired ∧ s.rkState (s.rkPartner r) = Rk.standin then s.rkPartner r
  else r

/-- The ranks to which a write is served (R376, R377). -/
def State.writeRanks (s : State) (r : Nat) : List Nat :=
  if s.rkState r = Rk.migrating then [r, s.rkPartner r]
  else if s.rkState r = Rk.retired ∧ s.rkState (s.rkPartner r) = Rk.standin then [s.rkPartner r]
  else [r]

/-! ### Keys -/

/-- The memory key of a byte of a DRAM device. -/
def dramKey (r d : Nat) : Nat := (1 + r) * 0x200000000 + d

/-- The key of the 8-byte word that holds a byte. -/
def wordKey (r d : Nat) : Nat := dramKey r d / 8

/-- The region of a memory key for the count of losses: the SRAM bank, or 16 plus the rank. -/
def regionOfKey (k : Nat) : Option Nat :=
  if 0x200000000 ≤ k then some (15 + k / 0x200000000)
  else if 0x10000000 ≤ k && k < 0x10200000 then some ((k - 0x10000000) / 0x20000)
  else if 0x18000000 ≤ k && k < 0x18002000 then some 20
  else none

/-- What an octet reads as that nothing has written: 0xFF in erased flash, an undefined octet in a
bank or rank that has lost its contents (R458, R371), else 0. -/
def State.unwritten (s : State) (k : Nat) : Byte :=
  if 0x08000000 ≤ k && k < 0x08400000 then 0xFF
  else match regionOfKey k with
    | some r => if Sparse.get 0 s.lost r = 0 then 0 else Config.lostByte (Sparse.get 0 s.lost r) k
    | none => 0

/-- The octet that nothing has written is known: its region has lost nothing. -/
def State.unwrittenKnown (s : State) (k : Nat) : Bool :=
  match regionOfKey k with
  | some r => Sparse.get 0 s.lost r == 0
  | none => true

/-- The stored octet at a memory key. -/
def State.octet (s : State) (k : Nat) : Byte := Sparse.get (s.unwritten k) s.mem k

/-- The state with the octet at a memory key replaced, in canonical form. -/
def State.setOctet (s : State) (k : Nat) (b : Byte) : State :=
  if s.unwrittenKnown k then { s with mem := Sparse.set (s.unwritten k) s.mem k b }
  else { s with mem := Sparse.insert s.mem k b }

/-- A region loses its contents (R458, R371): its octets are undefined until written. -/
def State.loseRegion (s : State) (r : Nat) : State :=
  { s with
    mem := Sparse.keep (fun k => regionOfKey k != some r) s.mem
    lost := Sparse.insert s.lost r (s.freeCtr + 1)
    freeCtr := s.freeCtr + 1 }

/-! ### Reports and events of the controller (R381) -/

/-- A unit-originated report enters its unit's store (R36), numbered in the order in which reports are raised (R37). -/
def State.report (s : State) (r : Report) : State :=
  { s with flm := { s.flm with waiting := s.flm.waiting ++ [{ r with no := s.flm.raised }], raised := s.flm.raised + 1 } }

/-- A DRC report, posted while DRC_EVCFG.EN is set. -/
def State.drcReport (s : State) (event rank status : Nat) (w6 w7 : Word) : State :=
  let ev := s.reg Pg.drc 0 Dc.evcfg
  if bit ev 31 then
    s.report { unit := Pg.drc, tail := bits ev 29 24, status, tag := word (event * 0x1000000 + rank % 4)
               ns := s.tim.ns, sec := s.tim.sec % 2 ^ 18, rep6 := w6, rep7 := w7 }
  else s

namespace DrcEv
abbrev ceThresh : Nat := 1
abbrev ue : Nat := 2
abbrev chFail : Nat := 3
abbrev migStart : Nat := 4
abbrev migPoison : Nat := 5
abbrev migDone : Nat := 6
abbrev migStop : Nat := 7
abbrev noSpare : Nat := 8
end DrcEv

/-! ### Migration start and stop (R375, R378) -/

/-- The rank configured as spare. -/
def State.spareRank (s : State) : Option Nat :=
  (List.range 4).find? (fun r => bit (s.reg Pg.drc r Dc.rkCfg) 31 && bit (s.reg Pg.drc r Dc.rkCfg) 30)

/-- A migration of `src` to the spare `t` starts: R375. -/
def State.migStart (s : State) (src t cause : Nat) : State :=
  let s := (s.setRk src Rk.migrating t).setRk t Rk.target src
  let s := s.setReg Pg.drc src Dc.rkMigpos 0
  let s := { s with drc := { s.drc with migRan := true, mig := some (src, t), poisoned := 0 } }
  (s.event Pg.drc 4).drcReport DrcEv.migStart src Sc.rankMigrated (word t) (word cause)

/-- Both channels of a migration are ONLINE. -/
def State.migChannelsOnline (s : State) (src t : Nat) : Bool :=
  s.chState (src / 2) == Chn.online && s.chState (t / 2) == Chn.online

/-- What an uncorrectable word or a full window does under AUTO (R375). -/
def State.migAuto (s : State) (src cause : Nat) : State :=
  if bit (s.reg Pg.drc 0 Dc.migcfg) 31 && s.rkState src == Rk.online then
    if s.drc.mig.isSome then s.drcReport DrcEv.noSpare src Sc.doneWarn 0 (word cause)
    else if s.drc.migRan then s
    else match s.spareRank with
      | some t =>
        if s.migChannelsOnline src t then s.migStart src t cause
        else s.drcReport DrcEv.noSpare src Sc.doneWarn 0 (word cause)
      | none => s.drcReport DrcEv.noSpare src Sc.doneWarn 0 (word cause)
  else s

/-- The running migration is abandoned (R378). -/
def State.migStop (s : State) : State :=
  match s.drc.mig with
  | none => s
  | some (src, t) =>
    let pos := s.fieldOf Pg.drc src Dc.rkMigpos 21 0
    let s := (s.setRk src Rk.online 0).setRk t Rk.spare 0
    let s := s.setReg Pg.drc src Dc.rkMigpos 0
    let s := { s with drc := { s.drc with mig := none } }
    (s.event Pg.drc 6).drcReport DrcEv.migStop src Sc.doneWarn (word t) (word pos)

/-! ### Words read and written (R372) -/

/-- What the devices answer for a word. -/
def State.wordErr (s : State) (r d : Nat) : WordErr := Sparse.get .good s.drc.bad (wordKey r d)

def State.setWordErr (s : State) (r d : Nat) (e : WordErr) : State :=
  { s with drc := { s.drc with bad := Sparse.set .good s.drc.bad (wordKey r d) e } }

/-- What the flash answers for the word at a flash offset (R382). -/
def State.flashErr (s : State) (ofs : Nat) : WordErr := Sparse.get .good s.flc.bad (ofs / 8)

def State.setFlashErr (s : State) (ofs : Nat) (e : WordErr) : State :=
  { s with flc := { s.flc with bad := Sparse.set .good s.flc.bad (ofs / 8) e } }

/-- Words that changed in their media. -/
def State.applyFlips (s : State) (fs : List Flip) : State :=
  fs.foldl (fun s f => match f.rank with
    | some r => s.setWordErr r (8 * f.wordNo) f.err
    | none => s.setFlashErr (8 * f.wordNo) f.err) s

/-- Records the last reported word (R362). -/
def State.errWord (s : State) (a kind rank : Nat) (syn : BitVec 8) : State :=
  (s.setReg Pg.drc 0 Dc.erraddr (word (a % 2 ^ 31))).setReg Pg.drc 0 Dc.errinfo
    (word (kind * 0x10000000 + rank % 4 * 0x1000000 + syn.toNat))

/-- A corrected word (R372, R373): counted, written back where `back`, reported at the threshold. -/
def State.noteCorrected (s : State) (r d a : Nat) (syn : BitVec 8) (back : Bool) : State :=
  let s := s.count Pg.drc r Dc.rkCe 15 0 1
  let s := s.count Pg.drc r Dc.rkCewin 15 0 1
  let s := if back then s.setWordErr r d .good else s
  let thr := s.fieldOf Pg.drc r Dc.rkCethr 15 0
  let win := s.fieldOf Pg.drc r Dc.rkCewin 15 0
  if thr ≠ 0 ∧ win = thr ∧ Sparse.get false s.drc.reported r = false then
    let s := { s with drc := { s.drc with reported := Sparse.set false s.drc.reported r true } }
    let s := (s.errWord a 1 r syn).event Pg.drc 0
    (s.drcReport DrcEv.ceThresh r Sc.doneWarn (word win) (word thr)).migAuto r 2
  else s

/-- An uncorrectable word (R372): counted, recorded, reported; under AUTO it starts a migration (R375). -/
def State.noteUncorrectable (s : State) (r a kind : Nat) (syn : BitVec 8) : State :=
  let s := s.count Pg.drc r Dc.rkUe 15 0 1
  let s := (s.errWord a kind r syn).event Pg.drc 1
  let s := s.drcReport DrcEv.ue r Sc.mediaUncorrectable (s.reg Pg.drc 0 Dc.erraddr) (s.reg Pg.drc 0 Dc.errinfo)
  s.migAuto r 1

/-- The bank of a rank-local address, and its row (R365). -/
def State.openRow (s : State) (r d : Nat) : State :=
  let g := rankGroups (s.reg Pg.drc r Dc.rkCfg)
  let l := d / 1792
  let bank := l % g * 4 + l / g % 4
  { s with drc := { s.drc with rows := Sparse.set 0 s.drc.rows (r * 16 + bank) (l / (4 * g) + 1) } }

/-- The outcome of a check of DRAM words: the words corrected, the window offsets of the words that could
not be, and whether a rank under migration was touched. -/
structure EccSum where
  corrected : Nat := 0
  bad : List Nat := []
  migrated : Bool := false
  deriving DecidableEq, Repr

/-- A read of the word at window offset `a` (a multiple of 8) is checked (R372). -/
def State.checkWord (s : State) (c : DramCfg) (a : Nat) (scrub : Bool) (e : EccSum) : State × EccSum :=
  let (r, d) := c.locate a
  let e := { e with migrated := e.migrated || s.rkState r == Rk.migrating }
  let p := s.readRank r d
  let s := s.openRow p d
  match s.wordErr p d with
  | .good => (s, e)
  | .single syn =>
    (s.noteCorrected p d a syn (scrub || bit (s.reg Pg.drc 0 Dc.ecccfg) 0), { e with corrected := e.corrected + 1 })
  | .double syn => (s.noteUncorrectable p a 2 syn, { e with bad := e.bad ++ [a] })
  | .poison => (s.noteUncorrectable p a 3 0xFF, { e with bad := e.bad ++ [a] })

/-- The 8-byte words that a range of `n` bytes from window offset `a` touches. -/
def wordsOfRange (a n : Nat) : List Nat :=
  if n = 0 then [] else (List.range ((a + n - 1) / 8 - a / 8 + 1)).map (fun k => 8 * (a / 8 + k))

/-- The words of a range are checked in ascending order. -/
def State.checkWords (s : State) (ws : List Nat) (scrub : Bool) : State × EccSum :=
  ws.foldl (fun (p : State × EccSum) a => p.1.checkWord p.1.dramCfg a scrub p.2) (s, {})

/-- The stored octet at window offset `a`, as a read is served. -/
def State.dramOctet (s : State) (a : Nat) : Byte :=
  let (r, d) := s.dramCfg.locate a
  s.octet (dramKey (s.readRank r d) d)

/-- One octet written at window offset `a`, to every rank that a write is served to. -/
def State.setDramOctet (s : State) (a : Nat) (b : Byte) : State :=
  let (r, d) := s.dramCfg.locate a
  (s.writeRanks r).foldl (fun s p => s.setOctet (dramKey p d) b) s

/-- The word at window offset `a` takes a whole new value: what was wrong with it is gone (R372). -/
def State.freshWord (s : State) (a : Nat) (e : WordErr) : State :=
  let (r, d) := s.dramCfg.locate a
  (s.writeRanks r).foldl (fun s p => (s.openRow p d).setWordErr p d e) s

/-- The words of a write of `n` bytes from window offset `a`: a whole word is written afresh, a part of
one is read, corrected where it can be, and otherwise written back poisoned (R372). -/
def State.writeWord (s : State) (a n w : Nat) (e : EccSum) : State × EccSum :=
  if a ≤ w ∧ w + 8 ≤ a + n then
    let (r, _) := s.dramCfg.locate w
    (s.freshWord w .good, { e with migrated := e.migrated || s.rkState r == Rk.migrating })
  else
    let (s', e') := s.checkWord s.dramCfg w true { e with bad := [] }
    if e'.bad.isEmpty then (s'.freshWord w .good, { e' with bad := e.bad })
    else (s'.freshWord w .poison, { e' with bad := e.bad })

/-- Octets written from window offset `a` on. -/
def State.writeDram (s : State) (a : Nat) (bs : List Byte) : State × EccSum :=
  let (s, e) := (wordsOfRange a bs.length).foldl
    (fun (p : State × EccSum) w => p.1.writeWord a bs.length w p.2) (s, {})
  ((bs.zipIdx).foldl (fun s (b, k) => s.setDramOctet (a + k) b) s, e)

/-! ### Whether an access is served (R371, R372) -/

/-- How a byte of memory answers an access now: served, refused, waiting for a domain or a channel, or
held OFF by a request. -/
inductive MemStatus where
  | ready | refused | stall (domain : Nat) | held (domain : Nat)
  deriving DecidableEq, Repr

/-- A channel answers: refused when UNTRAINED or FAILED, waiting while TRAINING or in REPLAY. -/
def State.channelStatus (s : State) (ch : Nat) : MemStatus :=
  if s.chState ch = Chn.online then .ready
  else if s.chState ch = Chn.untrained ∨ s.chState ch = Chn.failed then .refused
  else .stall Dm.drc

/-- How window offset `a` answers. -/
def State.dramStatus (s : State) (a : Nat) : MemStatus :=
  if !pagePresent s.variant Pg.drc then .refused
  else if !(s.ready Dm.drc) then
    if (s.dom Dm.drc).phase = .none ∧ (s.dom Dm.drc).st ≠ .on ∧ s.dreq Dm.drc = 3 then .refused else .stall Dm.drc
  else if s.dramCfg.mapSize ≤ a then .refused
  else if s.commitPend Pg.drc then .stall Dm.drc
  else
    let (r, d) := s.dramCfg.locate a
    match s.channelStatus (s.readRank r d / 2) with
    | .ready => ((s.writeRanks r).map (fun p => s.channelStatus (p / 2))).foldl
        (fun m x => if m = .ready then x else m) .ready
    | m => m

end Sys2Proof.Machine
end

