-- ==== Sys2Proof/Machine/Memory.lean ====
section
/-! DEFINITION. The fabric's memories as one address space (R38): ROM, internal flash, SRAM banks, AON
SRAM and the DRAM window; whether an access is served, waits for a domain or is refused, and what
it reads or writes. -/

namespace Sys2Proof.Machine

/-- The memories of the address map (R38). -/
inductive Region where
  | rom | flash | sram (bank : Nat) | aon | dram | none
  deriving DecidableEq, Repr

/-- The region of a fabric address. -/
def regionOf (a : Nat) : Region :=
  if a < 0x10000 then .rom
  else if 0x08000000 ≤ a ∧ a < 0x08400000 then .flash
  else if 0x10000000 ≤ a ∧ a < 0x10200000 then .sram ((a - 0x10000000) / 0x20000)
  else if 0x18000000 ≤ a ∧ a < 0x18002000 then .aon
  else if 0x80000000 ≤ a ∧ a < 0x100000000 then .dram
  else .none

/-- A medium operation of the flash runs in bank `b`, or an erase cut by supply loss is owed there
(R384, R396). -/
def State.flashBankBusy (s : State) (b : Nat) : Bool :=
  (match s.flc.op with | some o => o.kind != .info && o.pos / 0x200000 == b | none => false)

/-- How a byte of memory answers an access (R42, R384, R456, R458, R372). -/
def State.memStatus (s : State) (a : Nat) : MemStatus :=
  match regionOf a with
  | .rom => .ready
  | .aon => .ready
  | .flash =>
    if s.ready Dm.flc then
      if s.flashBankBusy ((a - 0x08000000) / 0x200000) then .stall Dm.flc
      else if s.flc.intent = some ((a - 0x08000000) / 0x1000) then .stall Dm.flc
      else .ready
    else if (s.dom Dm.flc).phase = .none ∧ (s.dom Dm.flc).st ≠ .on ∧ s.dreq Dm.flc = 3 then .held Dm.flc
    else .stall Dm.flc
  | .sram b =>
    if s.domOn (32 + b) then .ready
    else if (s.dom (32 + b)).phase = .none ∧ s.dreq (32 + b) = 3 then .held (32 + b)
    else .stall (32 + b)
  | .dram => s.dramStatus (a - 0x80000000)
  | .none => .refused

/-- How a range answers: as its first 8-byte word that does not answer at once. -/
def State.rangeStatus (s : State) (a n : Nat) : MemStatus :=
  ((wordsOfRange a n).map s.memStatus).foldl (fun m x => if m = .ready then x else m) .ready

/-- The octets of a range, from its start, that answer at once. -/
def State.readyPrefix (s : State) (a n : Nat) : Nat :=
  match (wordsOfRange a n).find? (fun w => s.memStatus w != .ready) with
  | some w => w - a
  | none => n

/-- The wait states that R383 asks for at the fabric clock and the VCORE in force: 38.4 MHz until the Primer has locked
the system PLL, 200 MHz after; 0.8 V while LOW is set and until a ramp to 0.9 V has ended. -/
def State.flashWaits (s : State) : Nat :=
  if !s.clk.started then 1 else if bit (s.reg Pg.pwr 0 0x824) 0 || s.clk.ramping then 7 else 5

/-- FLC_WS.WS is set too low: the flash returns wrong data (R383). -/
def State.flashTooFast (s : State) : Bool := s.fieldOf Pg.flc 0 0x800 2 0 < s.flashWaits

/-- What FLC makes of the word at a flash offset. With WS too low it may or may not flag the wrong data: a free value
chooses (R383). -/
def State.flashAnswer (s : State) (ofs : Nat) : WordErr × State :=
  if s.flashTooFast then
    let (v, s) := s.fresh
    (if bit v 0 then .good else if bit v 1 then .single 0 else .double 0, s)
  else (s.flashErr ofs, s)

/-- The word of memory at fabric address `w` (a multiple of 8) is read and checked (R372, R382). -/
def State.checkMem (s : State) (w : Nat) (scrub : Bool) (e : EccSum) : State × EccSum :=
  match regionOf w with
  | .dram =>
    let (s, e') := s.checkWord s.dramCfg (w - 0x80000000) scrub { e with bad := [] }
    (s, { e' with bad := e.bad ++ e'.bad.map (0x80000000 + ·) })
  | .flash =>
    match s.flashAnswer (w - 0x08000000) with
    | (.good, s) => (s, e)
    | (.single _, s) => (s.count Pg.flc 0 0x80C 31 16 1, { e with corrected := e.corrected + 1 })
    | (_, s) =>
      let s := s.count Pg.flc 0 0x80C 15 0 1
      ((s.setReg Pg.flc 0 0x82C (word (w - 0x08000000))).event Pg.flc 2, { e with bad := e.bad ++ [w] })
  | .sram b => (s.touch (32 + b), e)
  | _ => (s, e)

/-- The octet that a read of a fabric address gives: the stored one, and a free value of this read where the flash is
read faster than it answers (R383). -/
def State.memOctet (s : State) (a : Nat) : Byte :=
  match regionOf a with
  | .rom => Config.rom a
  | .flash => if s.flashTooFast then Config.lostByte s.freeCtr a else s.octet a
  | .dram => s.dramOctet (a - 0x80000000)
  | .none => 0
  | _ => s.octet a

/-- The octets of a range, `none` where the word that holds one is uncorrectable. -/
def State.octetsAt (s : State) (a n : Nat) (bad : List Nat) : List (Option Byte) :=
  (List.range n).map (fun k => if bad.contains ((a + k) / 8 * 8) then none else some (s.memOctet (a + k)))

/-- The answer of a memory access. -/
inductive MemAns (α : Type) where
  | ok (v : α) (ecc : EccSum)
  | refused
  | waits
  deriving DecidableEq, Repr

/-- The lines of the instruction caches that match a range of addresses are invalid (R311). -/
def State.cacheDrop (s : State) (a n : Nat) : State :=
  { s with cpus := s.cpus.map (fun (id, x) => (id, { x with icache := Sparse.keep (fun k => k + 1 < a || a + n ≤ k) x.icache })) }

/-- The answer to an access that is not served at once: a wake is requested (R42, R458), or it is refused. -/
def State.notReady (s : State) {α : Type} (m : MemStatus) : State × MemAns α :=
  match m with
  | .stall d => (s.wake d, .waits)
  | _ => (s, .refused)

/-- A unit or Flume reads `n` octets from address `a`. -/
def State.unitRead (s : State) (a n : Nat) (scrub : Bool := false) : State × MemAns (List (Option Byte)) :=
  match s.rangeStatus a n with
  | .ready =>
    let (s, e) := (wordsOfRange a n).foldl (fun (p : State × EccSum) w => p.1.checkMem w scrub p.2) (s, {})
    (s, .ok (s.octetsAt a n e.bad) e)
  | m => s.notReady m

/-- One octet written at a fabric address; ROM, flash and holes take none (R38, R277). -/
def State.putOctet (s : State) (a : Nat) (b : Byte) : State :=
  match regionOf a with
  | .sram _ => s.setOctet a b
  | .aon => s.setOctet a b
  | _ => s

/-- Octets written from a fabric address on, all of them within memories that answer. -/
def State.putOctets (s : State) (a : Nat) (bs : List Byte) : State × EccSum :=
  if 0x80000000 ≤ a then s.writeDram (a - 0x80000000) bs
  else
    let s := match regionOf a with | .sram b => s.touch (32 + b) | _ => s
    ((bs.zipIdx).foldl (fun s (b, k) => s.putOctet (a + k) b) s, {})

/-- A unit or Flume writes octets from address `a` on. -/
def State.unitWrite (s : State) (a : Nat) (bs : List Byte) : State × MemAns Unit :=
  match s.rangeStatus a bs.length with
  | .ready => let (s, e) := s.putOctets a bs; (s, .ok () e)
  | m => s.notReady m

/-- The SRAM bank's domain, where it is held OFF, that the range of an access meets first (R458). -/
def State.sramHeld (s : State) (a n : Nat) : Option Nat :=
  match s.rangeStatus a n with
  | .held d => if 32 ≤ d then some d else none
  | _ => none

/-- An initiator of the fabric reads `n` octets: a bank held OFF gives 0 and raises DOMAIN_HELD with its domain (R458). -/
def State.iniRead (s : State) (ini : Initiator) (a n : Nat) : State × MemAns (List (Option Byte)) :=
  match s.sramHeld a n with
  | some d => (s.raise Pg.pwr ini (Config.errOffset Pg.pwr Err.domainHeld) d Err.domainHeld, .ok (List.replicate n (some 0)) {})
  | none => s.unitRead a n

/-- An initiator of the fabric writes octets: a bank held OFF ignores them and raises DOMAIN_HELD (R458). -/
def State.iniWrite (s : State) (ini : Initiator) (a : Nat) (bs : List Byte) : State × MemAns Unit :=
  match s.sramHeld a bs.length with
  | some d => (s.raise Pg.pwr ini (Config.errOffset Pg.pwr Err.domainHeld) d Err.domainHeld, .ok () {})
  | none => s.unitWrite a bs

/-- An address range lies in one of the memories that a unit may name, and in no other region of R38. -/
def inMemories (a n : Nat) : Bool :=
  (0x10000000 ≤ a && a + n ≤ 0x10200000) || (0x18000000 ≤ a && a + n ≤ 0x18002000) ||
    (0x80000000 ≤ a && a + n ≤ 0x100000000)

/-- An address range lies in the DRAM window. -/
def inWindow (a n : Nat) : Bool := 0x80000000 ≤ a && a + n ≤ 0x100000000

end Sys2Proof.Machine
end

