-- ==== Sys2Proof/Machine/Gate.lean ====
section
/-! DEFINITION. Accesses to register pages: who is served (R4, R39, R42, R456), how a write changes a
register (R5, R6), and the operations of the common header: channel select, interrupts, errors, lock
and staged configuration (R45 to R69). -/

namespace Sys2Proof.Machine

/-! ### Replies and bus errors (R39) -/

def State.setReply (s : State) (ini : Initiator) (data : Word) (error : Bool) : State :=
  { s with replies := Sparse.set {} s.replies ini.id { data, error } }

def State.replyOf (s : State) (ini : Initiator) : Reply := Sparse.get {} s.replies ini.id

/-- A refused access: its read returns 0 and the initiator receives a bus error; an access of SEC is
recorded as BUS_REFUSED on the SEC page (R39, R334). -/
def State.busError (s : State) (ini : Initiator) (addr : Nat) : State :=
  let s := s.setReply ini 0 true
  match ini with
  | .sec => s.raise Pg.sec .sec addr 0xFFFF 0x20
  | .debug => { s with debugErr := true }
  | _ => s

/-! ### The gate of a page (R4, R39, R42) -/

/-- How an access to an offset of a page is answered. -/
inductive Gate where
  | serve | absent | refused | held | stall (domain : Nat)
  deriving DecidableEq, Repr

/-- A header offset, held in AON for every page (R41). -/
def isHeader (off : Nat) : Bool := off < 0x40 || off == 0x80 || off == 0x84

/-- DEBUG may make accesses: the gate is open outside ENROLLED, and there with PERMS.BUS (R331, R332). -/
def State.debugBus (s : State) : Bool := s.sec.otp.life != 3 || (s.sec.dbgOpen && s.sec.perms.testBit 1)

/-- A window access through a bank at or above CHCOUNT, as a later plan leaves it: it reaches no set, and so no domain
(R57, R74). -/
def State.staleSet (s : State) (ini : Initiator) (page off : Nat) : Bool :=
  0x100 ≤ off && off < 0x800 && s.chcount page != 0 && s.chcount page ≤ s.chsel page ini

/-- The gate of offset `off` of a page for an initiator. -/
def State.gate (s : State) (ini : Initiator) (page off : Nat) (write : Bool) : Gate :=
  if !pageListed page then .refused
  else if !pagePresent s.variant page then .absent
  else if !permitted ini page off write || (ini == .debug && !s.debugBus) then .refused
  else if isHeader off || s.staleSet ini page off then .serve
  else
    let d := s.domainOf page (s.setIndex page ini off)
    if !domPresent s.variant d then .absent
    else if s.ready d then .serve
    else if s.domOn d then .stall d
    else if (s.dom d).phase = .none ∧ (s.dom d).st ≠ .on ∧ s.dreq d = 3 then .held
    else .stall d

/-- A stalled access waits, and its domain is asked to wake (R42, R456). -/
def State.stallAccess (s : State) (a : Access) (d : Nat) : State :=
  { s.wake d with stalls := s.stalls ++ [a] }

/-- The address of a register. -/
def pageAddr (page off : Nat) : Nat := 0x40000000 + page * 0x1000 + off

/-- The answer of the fabric to one access. -/
inductive BusAns where
  | ok (v : Word) | refused | stall (domain : Nat)
  deriving DecidableEq, Repr

/-- An access of a register page, with what it does and answers where the page serves it (R4, R39, R42, R456). -/
def State.pageAccess (s : State) (ini : Initiator) (page off : Nat) (write : Bool) (eff : State → Word × State) : State × BusAns :=
  match s.gate ini page off write with
  | .serve =>
    let s := if isHeader off || s.staleSet ini page off then s else s.touch (s.domainOf page (s.setIndex page ini off))
    let (v, s) := eff s
    (s, .ok v)
  | .absent => (s, .ok (if write then 0 else if off = 0 then blkId page else if off = 4 then blkCap s.variant page else 0))
  | .refused => (s, .refused)
  | .held => (s.raise page ini off (s.setIndex page ini off) Err.domainHeld, .ok 0)
  | .stall d => (s.wake d, .stall d)

/-- The answer reaches the initiator, or the access waits (R39, R42). -/
def State.deliver (a : Access) (r : State × BusAns) : State :=
  match r.2 with
  | .ok v => r.1.setReply a.ini v false
  | .refused => r.1.busError a.ini a.addr.toNat
  | .stall d => r.1.stallAccess a d

/-- A write by `ini` of a register, with the effect `eff` where the page serves it. -/
def State.pageWrite (s : State) (ini : Initiator) (page off : Nat) (v : Word) (eff : State → State) : State :=
  State.deliver ⟨ini, true, word (pageAddr page off), 4, v⟩ (s.pageAccess ini page off true (fun s => (0, eff s)))

/-- A read by `ini` of a register, with the answer `eff` where the page serves it. -/
def State.pageRead (s : State) (ini : Initiator) (page off : Nat) (eff : State → Word × State) : State :=
  State.deliver ⟨ini, false, word (pageAddr page off), 4, 0⟩ (s.pageAccess ini page off false eff)

/-! ### Immediate registers (R5, R6) -/

/-- The new value of a register under a write of `v`: writable bits take it, W1C bits clear, and a field
outside its range keeps its value. -/
def writeValue (d : RegDef) (old v : Word) : Word :=
  let plain := (old &&& ~~~(word d.rw)) ||| (v &&& word d.rw)
  let cleared := plain &&& ~~~(v &&& word d.w1c)
  d.ranges.foldl (fun w r =>
    if bits w r.hi r.lo < r.min ∨ r.max < bits w r.hi r.lo then setBits w r.hi r.lo (bits old r.hi r.lo) else w) cleared

/-- A write puts a field outside its stated range. -/
def outOfRange (d : RegDef) (v : Word) : Bool :=
  d.ranges.any (fun r => bits (v &&& word d.rw) r.hi r.lo < r.min || r.max < bits (v &&& word d.rw) r.hi r.lo)

/-- LOCKED is raised for a write to a register that the lock covers (R69). -/
def State.lockedErr (s : State) (ini : Initiator) (page off : Nat) : State :=
  s.raise page ini off (s.setIndex page ini off) Err.locked

/-- A write of an immediate register, whose set is `idx`. -/
def State.plainWrite (s : State) (ini : Initiator) (page idx off : Nat) (v : Word) : State :=
  match regDef page off with
  | none => s
  | some d =>
    if d.config && s.locked page then s.lockedErr ini page off
    else
      let s := s.setReg page idx off (writeValue d (s.reg page idx off) v)
      if outOfRange d v then s.raise page ini off idx Err.range else s

/-! ### Staged registers (R61) -/

/-- A write of a staged register goes to the writer's staged set. From an initiator without the claim it raises
STAGE_BUSY, while a commit is PEND too (DESIGN CHOICE, log entry 104). -/
def State.stageWrite (s : State) (ini : Initiator) (page off : Nat) (v : Word) : State :=
  let idx := s.setIndex page ini off
  match regDef page off with
  | none => s
  | some d =>
    if s.locked page then s.lockedErr ini page off
    else if s.claim page ≠ none ∧ s.claim page ≠ some ini then s.raise page ini off idx Err.stageBusy
    else if s.commitPend page then s.raise page ini off idx Err.commitBusy
    else if d.whole && outOfRange d v then s.raise page ini off idx Err.range
    else
      let s := s.setClaim page (some ini)
      let s := { s with staged := Sparse.insert s.staged (regKey page idx off) (writeValue d (s.stagedReg page idx off) v) }
      if outOfRange d v then s.raise page ini off idx Err.range else s

/-! ### Commit and discard (R62 to R65) -/

/-- A refused commit: nothing changes but REFUSED and the error (R63). -/
def State.refuseCommit (s : State) (ini : Initiator) (page off detail code : Nat) : State :=
  (s.setField page 0 0x028 30 30 1).raise page ini off detail code

/-- The commit names a staged set. -/
def State.namesSet (s : State) (page idx : Nat) (all : Bool) : Bool :=
  s.staged.any (fun e => namedBy page idx all e.1)

/-- GEN advances by one modulo 2^16 (R62). -/
def State.bumpGen (s : State) (page : Nat) : State :=
  s.setReg page 0 0x02C (word ((bits (s.reg page 0 0x02C) 15 0 + 1) % 0x10000))

/-- What an agreement rule that fails records: the DETAIL and the OFFSET of R63. Where several fail, the first in the
order in which the chapter lists them is recorded (DESIGN CHOICE, log entry 106). -/
abbrev Mismatch := Option (Nat × Nat)

/-- The checks of a write with GO (R63). `agree` gives the first agreement rule that fails. A commit refused by another
check records DETAIL 0 and the offset of CFG_COMMIT (DESIGN CHOICE, log entry 105). -/
def State.commit (s : State) (ini : Initiator) (page : Nat) (v : Word) (agree : Mismatch) : State :=
  let idx := s.chsel page ini
  let all := bit v 3
  if s.locked page then s.refuseCommit ini page 0x028 0 Err.locked
  else if s.claim page ≠ none ∧ s.claim page ≠ some ini then s.refuseCommit ini page 0x028 0 Err.stageBusy
  else if s.commitPend page then s.refuseCommit ini page 0x028 0 Err.commitBusy
  else if bit v 4 ∧ bits v 23 8 ≠ bits (s.reg page 0 0x02C) 15 0 then s.refuseCommit ini page 0x028 0 Err.genMismatch
  else if !s.namesSet page idx all then (s.setField page 0 0x028 30 30 0).event page 30
  else match agree with
    | some (detail, off) => s.refuseCommit ini page off detail Err.mismatch
    | none =>
      { s.setReg page 0 0x028 0x80000000 with commits := s.commits ++ [⟨page, ini, all, idx⟩] }

/-- A write with DISCARD (R65). STAGE_BUSY comes before COMMIT_BUSY (DESIGN CHOICE, log entry 104). -/
def State.discard (s : State) (ini : Initiator) (page : Nat) (v : Word) : State :=
  let idx := s.chsel page ini
  if s.claim page ≠ none ∧ s.claim page ≠ some ini ∧ ini ≠ .debug then s.raise page ini 0x028 0 Err.stageBusy
  else if s.commitPend page then s.raise page ini 0x028 0 Err.commitBusy
  else
    ({ s with staged := Sparse.keep (fun k => !(namedBy page idx (bit v 3) k)) s.staged }).releaseClaim page

/-- A write of CFG_COMMIT (R63, R65, R69). -/
def State.commitWrite (s : State) (ini : Initiator) (page : Nat) (v : Word) (agree : Mismatch) : State :=
  let go := bit v 0
  let dis := bit v 2
  if s.locked page then
    (if go && !dis then s.setField page 0 0x028 30 30 1 else s).raise page ini 0x028 0 Err.locked
  else if go && dis then s.raise page ini 0x028 0 Err.range
  else if dis then s.discard ini page v
  else if go then s.commit ini page v agree
  else s

/-- The accepted commit of a page. -/
def State.commitOf (s : State) (page : Nat) : Option Commit := s.commits.find? (·.page == page)

/-- At the switch point every named set replaces the running one, in one cycle (R64). -/
def State.switchCommit (s : State) (c : Commit) : State :=
  let p := namedBy c.page c.index c.all
  let named := Sparse.keep p s.staged
  let s := named.foldl (fun s e => s.setReg (keyPage e.1) (keyIdx e.1) (keyOff e.1) e.2) s
  let s := { s with staged := Sparse.keep (fun k => !p k) s.staged
                    commits := s.commits.filter (fun x => x.page != c.page) }
  let s := (s.bumpGen c.page).setField c.page 0 0x028 31 31 0
  (s.event c.page 30).releaseClaim c.page

/-! ### LOCK (R67, R68) -/

/-- A write of LOCK. -/
def State.lockWrite (s : State) (ini : Initiator) (page : Nat) (v : Word) : State :=
  let key := bits v 15 8
  let cur := s.reg page 0 0x030
  if key = 0x5A ∧ bit v 0 then
    if s.locked page then s.raise page ini 0x030 0 Err.badKey
    else s.setReg page 0 0x030 (word (ini.id * 0x1000000 + (bit v 1).toNat * 2 + 1))
  else if key = 0xA5 ∧ !bit v 0 then
    if s.locked page ∧ !bit cur 1 ∧ (bits cur 26 24 = ini.id ∨ ini = .sec) then s.setReg page 0 0x030 (setBit cur 0 false)
    else s.raise page ini 0x030 0 Err.badKey
  else s.raise page ini 0x030 0 Err.badKey

/-! ### Channel select, interrupts and errors (R52, R54, R57) -/

/-- A write of CHSEL (R57). -/
def State.chselWrite (s : State) (ini : Initiator) (page : Nat) (v : Word) : State :=
  let i := bits v 9 0
  if s.chcount page ≤ i then s.raise page ini 0x080 i Err.chselRange
  else s.setReg page ini.id 0x080 (word i)

/-- A W1C write of INT_RAW; bits that an event sets in the same cycle stay set (R52). -/
def State.intClear (s : State) (page : Nat) (mask events : Word) : State :=
  s.setReg page 0 0x010 ((s.reg page 0 0x010 &&& ~~~mask) ||| events)

/-- A write of INT_SET sets the bits as the events do; a pulse aimed at a domain in its entry window is
lost (R52, R455). -/
def State.intSet (s : State) (page : Nat) (mask : Word) : State :=
  let ph := (s.dom (s.domainOf page 0)).phase
  if ph = .idleCommit ∨ ph = .save ∨ ph = .switch then s else s.interrupt page mask

/-- A write of ERR_CODE, a W1C register: all ones clear CODE and COUNT (R5, R54). -/
def State.errClear (s : State) (page : Nat) (v : Word) : State :=
  s.setReg page 0 0x020 (s.reg page 0 0x020 &&& ~~~v)

end Sys2Proof.Machine
end

