-- ==== Sys2Proof/Machine/Flume.lean ====
section
/-! DEFINITION. Flume: work rings, the in-flight table, tailrace rings and unit-originated reports
(R11 to R37, R559, R560). -/

namespace Sys2Proof.Machine

namespace Fl
abbrev wrBase : Nat := 0x100
abbrev wrCfg : Nat := 0x104
abbrev wrProd : Nat := 0x108
abbrev wrCons : Nat := 0x10C
abbrev wrCredit : Nat := 0x110
abbrev trBase : Nat := 0x120
abbrev trCfg : Nat := 0x124
abbrev trProd : Nat := 0x128
abbrev trCons : Nat := 0x12C
abbrev trStat : Nat := 0x130
abbrev iftCount : Nat := 0x800
abbrev pend0 : Nat := 0x808
end Fl

/-! ### Fields of an item's descriptor (R21) -/

def Item.w (i : Item) (k : Nat) : Word := i.words.getD k 0
def Item.opcode (i : Item) : Nat := bits (i.w 0) 31 24
def Item.epoch (i : Item) : Nat := bits (i.w 0) 23 16
def Item.epochChk (i : Item) : Bool := bit (i.w 0) 15
def Item.timed (i : Item) : Bool := bit (i.w 0) 14
def Item.irq (i : Item) : Bool := bit (i.w 0) 13
def Item.fence (i : Item) : Bool := bit (i.w 0) 12
def Item.uflags (i : Item) : Nat := bits (i.w 0) 7 0
def Item.addrA (i : Item) : Nat := (i.w 1).toNat
def Item.addrB (i : Item) : Nat := (i.w 2).toNat
def Item.uparam (i : Item) : Nat := bits (i.w 3) 31 24
def Item.length (i : Item) : Nat := bits (i.w 3) 23 0
def Item.ns (i : Item) : Nat := bits (i.w 4) 29 0
def Item.secLo (i : Item) : Nat := bits (i.w 5) 17 0
def Item.tag (i : Item) : Word := i.w 6

/-! ### Rings -/

def State.wrField (s : State) (ring hi lo : Nat) : Nat := s.fieldOf Pg.flm ring Fl.wrCfg hi lo
def State.wrEn (s : State) (ring : Nat) : Bool := bit (s.reg Pg.flm ring Fl.wrCfg) 31
def State.wrOrder (s : State) (ring : Nat) : Bool := bit (s.reg Pg.flm ring Fl.wrCfg) 30
def State.wrTail (s : State) (ring : Nat) : Nat := s.wrField ring 29 24
def State.wrUnit (s : State) (ring : Nat) : Nat := s.wrField ring 23 16
def State.wrOwner (s : State) (ring : Nat) : Nat := s.wrField ring 14 12
def State.wrSize (s : State) (ring : Nat) : Nat := 2 ^ s.wrField ring 3 0
def State.wrProd (s : State) (ring : Nat) : Nat := s.fieldOf Pg.flm ring Fl.wrProd 10 0
def State.wrCons (s : State) (ring : Nat) : Nat := s.fieldOf Pg.flm ring Fl.wrCons 10 0
def State.creditMin (s : State) (ring : Nat) : Nat := s.fieldOf Pg.flm ring Fl.wrCredit 9 0
def State.creditMax (s : State) (ring : Nat) : Nat := s.fieldOf Pg.flm ring Fl.wrCredit 25 16
def State.trEn (s : State) (t : Nat) : Bool := bit (s.reg Pg.flm t Fl.trCfg) 31
def State.trSize (s : State) (t : Nat) : Nat := 2 ^ s.fieldOf Pg.flm t Fl.trCfg 3 0
def State.trProd (s : State) (t : Nat) : Nat := s.fieldOf Pg.flm t Fl.trProd 10 0
def State.trCons (s : State) (t : Nat) : Nat := s.fieldOf Pg.flm t Fl.trCons 10 0

def State.ringState (s : State) (ring : Nat) : RingState := Sparse.get .idle s.flm.rings ring

def State.setRing (s : State) (ring : Nat) (x : RingState) : State :=
  { s with flm := { s.flm with rings := Sparse.set .idle s.flm.rings ring x } }

/-- Items between CONS and PROD, modulo 2 × SIZE. -/
def State.unfetched (s : State) (ring : Nat) : Nat :=
  subMod (2 * s.wrSize ring) (s.wrProd ring) (s.wrCons ring)

/-- The initiator that an identifier names. -/
def initiatorOf (n : Nat) : Initiator :=
  match n % 8 with
  | 0 => .l0 | 1 => .l1 | 2 => .c0 | 3 => .c1 | 4 => .sec | 5 => .host | 6 => .debug | _ => .cas

/-- An error that the Flume page raises for an item of a ring (R559). -/
def State.ringErr (s : State) (ring code : Nat) : State :=
  s.raise Pg.flm (initiatorOf (s.wrOwner ring)) 0x104 ring code

/-! ### Entries of the in-flight table -/

/-- The entry of the in-flight table with a number. -/
def State.item (s : State) (entry : Nat) : Option Item := s.flm.ift.find? (fun i => i.id == entry)

/-- The lowest free entry. -/
def State.freeEntry (s : State) : Nat :=
  ((List.range 512).find? (fun k => (s.item k).isNone)).getD 0

/-- The entry is replaced, its place kept. -/
def State.updItem (s : State) (entry : Nat) (f : Item → Item) : State :=
  { s with flm := { s.flm with ift := s.flm.ift.map (fun i => if i.id == entry then f i else i) } }

/-- Entries of the in-flight table in use, and those of one ring. -/
def State.inUse (s : State) : Nat := (s.flm.ift.filter (fun i => !i.unfetched)).length
def State.inFlight (s : State) (ring : Nat) : Nat :=
  (s.flm.ift.filter (fun i => i.ring == ring && !i.unfetched)).length

/-- The number of entries in use is noted for the high-water mark (R16). -/
def State.noteInUse (s : State) : State :=
  let hw := s.fieldOf Pg.flm 0 Fl.iftCount 25 16
  if hw < s.inUse then s.setField Pg.flm 0 Fl.iftCount 25 16 s.inUse else s

/-- The entry is freed. -/
def State.freeItem (s : State) (entry : Nat) : State :=
  let s := s.noteInUse
  { s with flm := { s.flm with ift := s.flm.ift.filter (fun i => i.id != entry) } }

/-- An ACTIVE item of a unit that has no result yet, with the given opcode. -/
def State.activeItem (s : State) (unit op entry : Nat) : Option Item :=
  match s.item entry with
  | some i =>
    if i.unit = unit ∧ i.opcode = op ∧ i.st = .active ∧ i.result = none ∧ (i.timed → i.launched) then some i else none
  | none => none

/-- The turn of an item of a unit that runs its items one at a time in fetch order: every item of the unit fetched before
it has its result, waits issued for its launch time, or does not count (R27, R252). -/
def State.fetchTurn (s : State) (i : Item) (skip : Item → Bool := fun _ => false) : Bool :=
  (s.flm.ift.takeWhile (fun j => j.id != i.id)).all (fun j =>
    j.unit != i.unit || j.result.isSome || (j.st == .active && j.timed && !j.launched) || skip j)

/-- A unit finishes an item: its status and results are recorded (R27). -/
def State.finish (s : State) (entry : Nat) (r : Result) : State :=
  s.updItem entry (fun i => if i.result = none then { i with result := some r } else i)

/-- The entry moves to RETIRING with a status that no unit result replaces (R32). -/
def State.retireWith (s : State) (entry status : Nat) : State :=
  let n := s.flm.finishes
  let s := { s with flm := { s.flm with finishes := n + 1 } }
  s.updItem entry (fun i =>
    { i with st := .retiring, finish := n
             result := some (i.result.getD { status }) })

/-! ### Which operations cannot be stopped (R34) -/

/-- The staged frame of an ARM item is on the DALI bus, where it ends at its frame end only (R550). -/
def State.daliSends (s : State) (i : Item) : Bool :=
  (i.unit == 0x38 || i.unit == 0x39) && (Sparse.get {} s.per.units i.unit).bus && (Sparse.get {} s.per.units i.unit).arm == some i.id

/-- A medium operation of a unit serves the item and runs to its end; a frame that an abort does not cut does too (R221, R264, R550). -/
def State.unstoppable (s : State) (i : Item) : Bool :=
  i.result.isNone && (
    (i.unit == Pg.flc && (match s.flc.op with | some o => o.item == some i.id | none => false)) ||
    (i.unit == Pg.nmc && s.nmc.ops.any (fun o => o.pages.any (fun p => p.item == some i.id))) ||
    (i.unit == Pg.lnk && s.lnk.jobs.any (fun j => j.cancel && j.item == i.id)) ||
    (i.unit == Pg.eth && s.eth.tx.any (fun x => x.cancel && x.item == i.id)) ||
    s.daliSends i)

/-! ### Credits and the descriptor fetch (R15, R28) -/

/-- The entries owed to rings below their reservation. -/
def State.owed (s : State) : Nat :=
  ((List.range 64).map (fun r => if s.wrEn r then s.creditMin r - s.inFlight r else 0)).sum

/-- The domain against which a unit's items are checked (R23). CHZ and CPU pages take no items of their own;
for a ring bound to CHZ the model checks CHZ0 (DESIGN CHOICE, log entry 98). -/
def epochDomain (unit : Nat) : Nat :=
  match unit with
  | 0x04 => Dm.wrx | 0x05 => Dm.tag | 0x08 => Dm.rfe | 0x09 => Dm.txa | 0x0A => Dm.syn | 0x0C => Dm.chz0
  | 0x0D => Dm.rfe | 0x10 => Dm.lnk | 0x12 => Dm.eth | 0x18 => Dm.sec | 0x19 => Dm.sec
  | 0x20 => Dm.lnk | 0x21 => Dm.lnk | 0x22 => Dm.ctl | 0x23 => Dm.ctl | 0x28 => Dm.drc | 0x29 => Dm.flc
  | 0x2A => Dm.nmc | 0x30 => Dm.cas | 0x00 => Dm.aon | 0x01 => Dm.aon | 0x02 => Dm.aon | 0x03 => Dm.aon
  | _ => Dm.per

/-- A unit takes no further items while its items are being completed, until its domain has switched where a request
for OFF had them completed, or while Flume resets (R33, R34, R560). -/
def State.accepts (s : State) (unit : Nat) : Bool :=
  !s.flm.resetting && !s.flm.drains.any (fun d => d.unit == unit) &&
  !(s.dreq (epochDomain unit) == 3 && (s.dom (epochDomain unit)).leaving.isSome)

/-- A ring with work to fetch is eligible for one more entry (R28). -/
def State.eligible (s : State) (ring : Nat) : Bool :=
  s.wrEn ring && s.ringState ring == .idle && s.unfetched ring != 0 && s.accepts (s.wrUnit ring) &&
  s.inUse < 512 &&
  (s.inFlight ring < s.creditMin ring || (s.inFlight ring < s.creditMax ring && s.owed < 512 - s.inUse))

/-- The next grant: units in round-robin order of page index from the one after the last granted, and
among the rings of the unit in round-robin order (R28). Where the orders start after reset is a DESIGN CHOICE
(log entry 99): unit 1, and ring 0 of each unit. -/
def State.grant (s : State) : Option Nat :=
  match roundRobin 256 (s.flm.lastUnit + 1)
      (fun u => (List.range 64).any (fun r => s.eligible r && s.wrUnit r == u)) with
  | none => none
  | some u => roundRobin 64 (Sparse.get 63 s.flm.lastRing u + 1) (fun r => s.eligible r && s.wrUnit r == u)

/-- The address of a slot of a work ring. -/
def State.slotAddr (s : State) (ring slot : Nat) : Nat := (s.reg Pg.flm ring Fl.wrBase).toNat + 32 * slot

/-- Octets that are known, as numbers; an uncorrectable one makes the whole unknown. -/
def knownBytes (bs : List (Option Byte)) : Option (List Byte) := bs.mapM id

/-- A grant fetches the ring's descriptor and advances CONS; a refused fetch halts the ring (R28, R372). -/
def State.fetchRing (s : State) (ring : Nat) : State :=
  let unit := s.wrUnit ring
  let slot := s.wrCons ring % s.wrSize ring
  let s := { s with flm := { s.flm with lastUnit := unit, lastRing := Sparse.set 63 s.flm.lastRing unit ring } }
  match s.unitRead (s.slotAddr ring slot) 32 with
  | (s, .waits) => s
  | (s, .refused) => (s.setRing ring .halted).ringErr ring 0x20
  | (s, .ok bs _) =>
    match knownBytes bs with
    | none => (s.setRing ring .halted).ringErr ring 0x20
    | some bs =>
      let it : Item := { id := s.freeEntry, ring, slot, unit, words := wordsOfBytes 8 bs, st := .fetched,
                         lat := if unit = Pg.lnk then [0x810, 0x814, 0x818, 0x820].map (s.reg Pg.lnk 0) else [] }
      let s := { s with flm := { s.flm with ift := s.flm.ift ++ [it] } }
      let s := s.setReg Pg.flm ring Fl.wrCons (word ((s.wrCons ring + 1) % (2 * s.wrSize ring)))
      s.noteInUse

/-- `DESCRIPTOR_FETCH`: one grant of Flume (R28). -/
def execDescriptorFetch (flips : List Flip) (s : State) : Host.Outcome State Fault Refusal :=
  let s := s.applyFlips flips
  .next (match s.grant with | some r => s.fetchRing r | none => s)

/-! ### Issue (R27, R29) -/

/-- The store that holds a report may overflow at `REPORT_POST`: no rule gives its size. The Hopper's takes 256 frames
and turns later ones away as they come (R105). -/
def storeFull (r : Report) : Bool := !r.frame

/-- The opcodes that a unit defines, and whether each moves data (R12, R29). -/
def unitOps (unit : Nat) : List (Nat × Bool) :=
  match unit with
  | 0x05 => [(1, true), (2, true), (3, true), (4, false), (5, true), (6, true), (7, true), (8, false), (16, true), (17, true), (18, true)]
  | 0x0A => [(1, false), (2, true), (3, true)]
  | 0x10 => [(1, true), (2, false), (3, true)]
  | 0x12 => [(1, true)]
  | 0x18 => (List.range 9).map (fun k => (k + 1, true))
  | 0x19 => [(1, true), (2, true), (3, true), (4, true), (8, true), (9, true), (10, true), (11, true), (12, false), (13, false)]
  | 0x28 => [(1, true), (2, true), (3, true)]
  | 0x29 => [(1, true), (2, true), (3, true), (4, true), (5, true)]
  | 0x2A => [(1, true), (2, true), (3, true), (4, false), (5, false), (6, false)]
  | 0x1A => [(1, true), (2, true), (3, true)]
  | 0x30 => [(1, true), (2, true), (3, false), (4, false), (5, false), (6, true), (7, false)]
  | 0x38 | 0x39 => [(1, false), (2, false)]
  | 0x40 | 0x41 | 0x42 | 0x43 | 0x44 | 0x45 | 0x48 => [(1, true), (2, true)]
  | 0x46 | 0x47 => [(1, true), (2, true), (3, true)]
  | _ => []

/-- The unit takes opcode `op`; 0x00 is NOP for all (R12). -/
def opDefined (unit op : Nat) : Bool := op == 0 || (unitOps unit).any (fun p => p.1 == op)

/-- The opcode moves data. -/
def opMoves (unit op : Nat) : Bool := (unitOps unit).any (fun p => p.1 == op && p.2)

/-- A short time lies in the past (R22): its second does, or it is an earlier instant of this second. -/
def State.pastShort (s : State) (ns secLo : Nat) : Bool :=
  let d := subMod (2 ^ 18) secLo (s.tim.sec % 2 ^ 18)
  decide (2 ^ 17 ≤ d) || (d == 0 && ns < s.tim.ns)

/-- Every earlier item of the ring has left FETCHED, and with FENCE every one has retired (R27). Nothing is issued
while the completions of the unit or of the ring are under way (R33 to R35, R560). -/
def State.mayIssue (s : State) (i : Item) : Bool :=
  let before := s.flm.ift.takeWhile (fun j => j.id != i.id)
  s.accepts i.unit && s.ringState i.ring != .aborting &&
  before.all (fun j => j.ring != i.ring || (j.st != .fetched && !i.fence))

/-! ### Issue checks of the cascade's items (R524, R528, R530) -/

/-- The positions that a CAS item names (R527). -/
def Item.casNames (i : Item) : List Nat :=
  match i.opcode with
  | 1 | 6 => [i.uparam % 8]
  | 2 | 3 | 4 => (List.range 8).filter (fun k => i.addrB.testBit k)
  | 5 => (List.range 8).filter (fun k => k != 0 && i.addrB.testBit k)
  | _ => []

/-- A LENGTH, alignment or position rule is broken, or the item was issued on a slave (R530). -/
def State.casBad (s : State) (i : Item) : Bool :=
  !s.cas.master ||
  (match i.opcode with
   | 1 => i.length % 4 != 0 || i.addrA % 4 != 0 || i.addrB % 4 != 0 || i.uparam % 8 == 0
   | 2 => i.length % 8 != 0 || i.addrA % 4 != 0
   | 6 => i.length != 32 || i.uparam % 8 == 0
   | _ => false)

/-- The state of a position. -/
def State.casPos (s : State) (k : Nat) : CasPos := Sparse.get {} s.cas.pos k

/-- The state of a position is one that the item allows (R524); the master is at position 0. -/
def State.casAllows (s : State) (i : Item) : Bool :=
  i.casNames.all (fun k => k == 0 ||
    (match i.opcode with
     | 6 => (s.casPos k).st == .new
     | 5 => (s.casPos k).st != .absent
     | _ => (s.casPos k).st == .registered))

/-- The delay to the highest position that an item names, in ns (R528). -/
def State.casReach (s : State) (i : Item) : Nat :=
  4200 + 1600 * (if i.opcode = 7 then s.cas.len - 1 else i.casNames.foldl max 0)

/-- The launch instant of a CAS item comes before the part that is farthest can be reached. -/
def State.casLate (s : State) (i : Item) : Bool :=
  let d := subMod (2 ^ 18) i.secLo (s.tim.sec % 2 ^ 18)
  i.timed && (i.opcode == 2 || i.opcode == 4 || i.opcode == 5) && decide (d * 1000000000 + i.ns < s.tim.ns + s.casReach i)

/-- The epoch that an item's EPOCH is compared with: SEPOCH of the slave for RCOPY (R524). -/
def State.epochOf (s : State) (i : Item) : Nat :=
  if i.unit = Pg.cas ∧ i.opcode = 1 ∧ s.cas.master then (s.casPos (i.uparam % 8)).sepoch.toNat
  else (s.dom (epochDomain i.unit)).epoch.toNat

/-- The effect of the issue checks on an item (R29). -/
def State.issue (s : State) (i : Item) : State :=
  let d := epochDomain i.unit
  let cas := i.unit == Pg.cas && s.cas.master
  let set := fun (s : State) => s.updItem i.id (fun j => { j with epochSeen := (s.dom d).epoch.toNat })
  if !pagePresent s.variant i.unit ∨ (!s.domOn d ∧ (s.dom d).phase = .none ∧ s.dreq d = 3) then
    (set s).retireWith i.id Sc.abortedDomainOff
  else if cas ∧ i.casNames.any (fun k => decide (max 1 s.cas.len ≤ k)) then (set s).retireWith i.id Sc.abortedDomainOff
  else if !opDefined i.unit i.opcode then
    ((set s).retireWith i.id Sc.internal).ringErr i.ring Err.undefOpcode
  else if i.timed ∧ 1000000000 ≤ i.ns then
    ((set s).retireWith i.id Sc.internal).ringErr i.ring Err.range
  else if i.epochChk ∧ !s.ready d then s.wake d
  else if (i.epochChk ∧ i.epoch ≠ s.epochOf i) ∨ (cas ∧ !s.casAllows i) then (set s).retireWith i.id Sc.staleEpoch
  else if opMoves i.unit i.opcode ∧ i.length = 0 then (set s).retireWith i.id Sc.doneZero
  else if i.timed ∧ s.pastShort i.ns i.secLo then (set s).retireWith i.id Sc.late
  else if !s.ready d then s.wake d
  else if i.opcode = 0 ∧ !i.timed then (set (s.touch d)).retireWith i.id Sc.done
  else if i.unit = Pg.cas ∧ i.opcode ≠ 0 ∧ s.casBad i then (set s).retireWith i.id Sc.internal
  else if cas ∧ s.casLate i then (set s).retireWith i.id Sc.late
  else (set (s.touch d)).updItem i.id (fun j => { j with st := .active })

/-- `ITEM_ISSUE`: a fetched item whose turn it is runs the issue checks (R29). -/
def execItemIssue (entry : Nat) (s : State) : Host.Outcome State Fault Refusal :=
  .next (match s.item entry with
    | some i => if i.st = .fetched ∧ s.mayIssue i then s.issue i else s
    | none => s)

/-! ### Tailrace entries (R24, R26, R36, R37) -/

/-- The entries of a tailrace that software has not consumed. -/
def State.trPending (s : State) (t : Nat) : Nat := subMod (2 * s.trSize t) (s.trProd t) (s.trCons t)

/-- The tailrace has room and takes entries. -/
def State.trRoom (s : State) (t : Nat) : Bool :=
  s.trEn t && s.trPending t != s.trSize t

/-- Sets or clears the interrupt pending bit of a tailrace (R26). -/
def State.setTrPend (s : State) (t : Nat) (b : Bool) : State :=
  let off := if t < 32 then Fl.pend0 else Fl.pend0 + 4
  s.setReg Pg.flm 0 off (setBit (s.reg Pg.flm 0 off) (t % 32) b)

/-- The pending bit of a tailrace. -/
def State.trPend (s : State) (t : Nat) : Bool :=
  bit (s.reg Pg.flm 0 (if t < 32 then Fl.pend0 else Fl.pend0 + 4)) (t % 32)

/-- The pending bit sets when MOD_COUNT entries are pending (R26). -/
def State.modLook (s : State) (t : Nat) : State :=
  let m := s.fieldOf Pg.flm t Fl.trCfg 23 16
  if m ≠ 0 ∧ m ≤ s.trPending t then s.setTrPend t true else s

/-- FULL of a tailrace (R27). The rule says when it sets; the model clears it as the next entry is written, and as EN is
set (DESIGN CHOICE, log entry 101). -/
def State.setFull (s : State) (t : Nat) (b : Bool) : State :=
  s.setReg Pg.flm t Fl.trStat (setBit (s.reg Pg.flm t Fl.trStat) 31 b)

/-- PHASE of the next entry: 1 on the first pass over the slots, and toggling at each wrap (R24). -/
def State.phase (s : State) (t : Nat) : Bool := decide (s.trProd t < s.trSize t)

/-- The address of the next tailrace slot. -/
def State.trAddr (s : State) (t : Nat) : Nat :=
  (s.reg Pg.flm t Fl.trBase).toNat + 32 * (s.trProd t % s.trSize t)

/-- The words of a tailrace entry (R24). -/
structure Entry where
  unsol : Bool
  ovf : Bool
  ring : Nat
  epoch : Nat
  status : Nat
  unit : Nat
  index : Nat
  tag : Word
  actual : Nat
  ns : Nat
  sec : Nat
  rep6 : Word
  rep7 : Word

/-- The eight words. -/
def Entry.words (e : Entry) (phase : Bool) : List Word :=
  [word (phase.toNat * 0x80000000 + (trust e.status).toNat * 0x40000000 + e.unsol.toNat * 0x20000000 +
      e.ovf.toNat * 0x10000000 + e.ring % 64 * 0x400000 + e.epoch % 256 * 0x100 + e.status % 256),
   word (e.unit % 256 * 0x10000 + e.index % 1024), e.tag, word (e.actual % 2 ^ 24),
   word (e.ns % 2 ^ 30), word (e.sec % 2 ^ 18), e.rep6, e.rep7]

/-- Steps 3 to 5 of R25: the entry, the index, the interrupt. -/
def State.postEntry (s : State) (t : Nat) (e : Entry) (irq : Bool) : State :=
  let (s, _) := s.putOctets (s.trAddr t) (bytesOfWords (e.words (s.phase t)))
  let s := s.setReg Pg.flm t Fl.trProd (word ((s.trProd t + 1) % (2 * s.trSize t)))
  let s := s.setFull t false
  if irq then s.setTrPend t true else s.modLook t

/-- The result of an item that retires. -/
def Item.res (i : Item) : Result := i.result.getD { status := Sc.done }

/-- The item's place in the order of completions (R17, R27): with ORDER 1 every earlier item of the ring
has retired; with ORDER 0 no item of the ring finished before it still waits. -/
def State.mayRetire (s : State) (i : Item) : Bool :=
  if s.wrOrder i.ring || i.unfetched then
    (s.flm.ift.takeWhile (fun j => j.id != i.id)).all (fun j => j.ring != i.ring)
  else s.flm.ift.all (fun j => j.ring != i.ring || j.st != .retiring || i.finish ≤ j.finish)

/-- Items whose completion returns a time in every case, 0 where there is none: LNK TX, ETH TX and SYN CAL (R250). -/
def Item.returnsTime (i : Item) : Bool := i.opcode == 1 && (i.unit == Pg.lnk || i.unit == Pg.eth || i.unit == Pg.syn)

/-- The time of an item's completion. -/
def Item.time (i : Item) : Option (Nat × Nat) := if i.returnsTime then some (i.res.time.getD (0, 0)) else i.res.time

/-- Step 2 of R25: words 4 and 5 where the unit gives a time, and word 7 with WB. A refused write-back is lost. -/
def State.writeBack (s : State) (i : Item) : State × Bool :=
  let r := i.res
  let a := s.slotAddr i.ring i.slot
  let w7 := word (0x80000000 + r.wb % 2 ^ 15 * 0x10000 + i.epochSeen % 256 * 0x100 + r.status % 256)
  match s.rangeStatus (a + 16) 16 with
  | .ready =>
    let s := match i.time with
      | some (ns, sec) => (s.putOctets (a + 16) (bytesOfWords [word (ns % 2 ^ 30), word (sec % 2 ^ 18)])).1
      | none => s
    ((s.putOctets (a + 28) (bytesOfWord w7)).1, true)
  | .stall d => (s.wake d, false)
  | _ => (s.ringErr i.ring 0x20, true)

/-- Every register of the page outside the header, the interrupts, EN and GEN return to reset (R49). -/
def State.resetPage (s : State) (page : Nat) : State :=
  let s := s.clearRegs (fun k => onPage page k && outsideHeader k)
  let s := { s with staged := Sparse.keep (fun k => !(onPage page k)) s.staged
                    commits := s.commits.filter (fun c => c.page != page) }
  let s := (s.setClaim page none).setReg page 0 0x010 0
  let s := (s.setField page 0 0x008 0 0 0).setReg page 0 0x02C 0
  s.setField page 0 0x028 31 31 0

/-- A soft reset of the Flume page ends once no completion remains (R560). A pending OVF goes with FLM_TR_STAT
(DESIGN CHOICE, log entry 102). -/
def State.flumeResetEnd (s : State) : State :=
  if s.flm.resetting && s.flm.ift.isEmpty then
    let s := s.resetPage Pg.flm
    { s with flm := { s.flm with resetting := false, rings := [], ovf := [] } }
  else s

/-- The writes of R25 for an item that may retire; the entry is freed. -/
def State.retireItem (s : State) (i : Item) : State :=
  let t := s.wrTail i.ring
  if !s.trRoom t then s.setFull t true
  else match s.rangeStatus (s.trAddr t) 32 with
    | .stall d => s.wake d
    | .ready =>
      let (s, ok) := s.writeBack i
      if !ok then s else
      let r := i.res
      let (ns, sec) := r.time.getD (0, 0)
      let e : Entry := { unsol := false, ovf := false, ring := i.ring, epoch := i.epochSeen, status := r.status
                         unit := i.unit, index := i.slot, tag := i.tag, actual := r.actual, ns, sec
                         rep6 := r.rep6, rep7 := r.rep7 }
      ((s.postEntry t e i.irq).freeItem i.id).flumeResetEnd
    | _ => s.setFull t true

/-- `ITEM_RETIRE`: a RETIRING item whose order and tailrace allow it is written back and posted (R25, R27). -/
def execItemRetire (entry : Nat) (flips : List Flip) (s : State) : Host.Outcome State Fault Refusal :=
  let s := s.applyFlips flips
  .next (match s.item entry with
    | some i => if i.st = .retiring ∧ s.mayRetire i then s.retireItem i else s
    | none => s)

/-! ### Reports (R36, R37) -/

/-- No completion bound for the tailrace is ready to be written. -/
def State.noHeld (s : State) (t : Nat) : Bool :=
  !s.flm.ift.any (fun i => i.st == .retiring && s.wrTail i.ring == t && s.mayRetire i)

/-- A waiting report is written to its tailrace. -/
def State.writeReport (s : State) (r : Report) : State :=
  let d := s.domainOf r.unit 0
  let e : Entry := { unsol := true, ovf := Sparse.get false s.flm.ovf r.tail, ring := 0
                     epoch := r.epoch.getD (s.dom d).epoch.toNat, status := r.status, unit := r.unit, index := r.index
                     tag := r.tag, actual := r.actual, ns := r.ns, sec := r.sec, rep6 := r.rep6, rep7 := r.rep7 }
  let s := { s with flm := { s.flm with waiting := s.flm.waiting.erase r
                                        ovf := Sparse.set false s.flm.ovf r.tail false } }
  s.postEntry r.tail e false

/-- A report for a tailrace is lost: counted, and the next report of the tailrace carries OVF (R36). -/
def State.countDrop (s : State) (t : Nat) : State :=
  ({ s with flm := { s.flm with ovf := Sparse.set false s.flm.ovf t true } }).count Pg.flm t Fl.trStat 15 0 1

/-- A waiting report is dropped (R36). -/
def State.dropReport (s : State) (r : Report) : State :=
  ({ s with flm := { s.flm with waiting := s.flm.waiting.erase r } }).countDrop r.tail

/-- The events that LNK holds are lost with its store (R36). -/
def State.lnkEventsLost (s : State) : State :=
  let t := s.fieldOf Pg.lnk 0 0x848 29 24
  let s := s.lnk.events.foldl (fun s _ => s.countDrop t) s
  { s with lnk := { s.lnk with events := [] } }

/-- A report for the tailrace was raised earlier and still waits, in a unit's store or as an event of LNK (R37). -/
def State.raisedBefore (s : State) (t no : Nat) : Bool :=
  s.flm.waiting.any (fun q => q.tail == t && decide (q.no < no)) ||
  (bit (s.reg Pg.lnk 0 0x848) 31 && s.fieldOf Pg.lnk 0 0x848 29 24 == t && s.lnk.events.any (fun e => decide (e.no < no)))

/-- `REPORT_POST`: the oldest waiting report of a tailrace is written when there is room, and waits, or is
dropped where its unit's store has overflowed, when there is none (R36, R37). -/
def execReportPost (index : Nat) (overflow : Bool) (s : State) : Host.Outcome State Fault Refusal :=
  .next (match s.flm.waiting[index]? with
    | none => s
    | some r =>
      let overflow := overflow && storeFull r
      if !s.trRoom r.tail then (if overflow then s.dropReport r else s)
      else if s.raisedBefore r.tail r.no || !s.noHeld r.tail then s
      else match s.rangeStatus (s.trAddr r.tail) 32 with
        | .ready => s.writeReport r
        | .stall d => s.wake d
        | _ => if overflow then s.dropReport r else s)

/-! ### Writes of the page's registers -/

/-- A write of FLM_WR_PROD (R14). -/
def State.wrProdWrite (s : State) (ini : Initiator) (v : Word) : State :=
  let ring := s.chsel Pg.flm ini
  let p := bits v 10 0
  if s.wrOwner ring ≠ ini.id then s.raise Pg.flm ini Fl.wrProd ring Err.ringOwner
  else if s.wrSize ring < subMod (2 * s.wrSize ring) p (s.wrCons ring) then
    s.raise Pg.flm ini Fl.wrProd ring Err.ringOverrun
  else s.setReg Pg.flm ring Fl.wrProd (word p)

/-- `WR_PROD_WRITE`: the ring's owner advances PROD, or the write is ignored with its error (R14). -/
def execWrProdWrite (ini : Initiator) (value : Word) (s : State) : Host.Outcome State Fault Refusal :=
  .next (s.pageWrite ini Pg.flm Fl.wrProd value (fun s => s.wrProdWrite ini value))

/-- A write of FLM_WR_CFG (R17, R18). -/
def State.wrCfgWrite (s : State) (ini : Initiator) (v : Word) : State :=
  let ring := s.chsel Pg.flm ini
  let old := s.reg Pg.flm ring Fl.wrCfg
  let m : Word := word (fld 31 16 + fld 14 12 + fld 3 0)
  if s.locked Pg.flm then s.lockedErr ini Pg.flm Fl.wrCfg
  else if bit old 31 then
    s.setReg Pg.flm ring Fl.wrCfg ((old &&& 0x3FFFFFFF) ||| (v &&& 0xC0000000))
  else if !bit v 31 then s.setReg Pg.flm ring Fl.wrCfg (v &&& m)
  else
    let unit := bits v 23 16
    if bits v 3 0 < 4 ∨ 10 < bits v 3 0 ∨ !pageListed unit ∨ !pagePresent s.variant unit then
      (s.setReg Pg.flm ring Fl.wrCfg (setBit (v &&& m) 31 false)).raise Pg.flm ini Fl.wrCfg ring Err.enableRefused
    else
      let s := s.setReg Pg.flm ring Fl.wrCfg (v &&& m)
      ((s.setReg Pg.flm ring Fl.wrProd 0).setReg Pg.flm ring Fl.wrCons 0).setRing ring .idle

/-- `RING_ENABLE`: a write of FLM_WR_CFG (R18). -/
def execRingEnable (ini : Initiator) (value : Word) (s : State) : Host.Outcome State Fault Refusal :=
  .next (s.pageWrite ini Pg.flm Fl.wrCfg value (fun s => s.wrCfgWrite ini value))

/-- A write of FLM_WR_BASE or FLM_TR_BASE, held while its ring is enabled (R18). -/
def State.baseWrite (s : State) (ini : Initiator) (off cfg : Nat) (v : Word) : State :=
  let ring := s.chsel Pg.flm ini
  if s.locked Pg.flm then s.lockedErr ini Pg.flm off
  else if bit (s.reg Pg.flm ring cfg) 31 then s
  else s.setReg Pg.flm ring off (v &&& 0xFFFFFFE0)

/-- A flash item that cannot be stopped ends at its sector's end with this status (R388). -/
def State.cutFlash (s : State) (p : Item → Bool) (status : Nat) : State :=
  match s.flc.op with
  | some o =>
    if s.flm.ift.any (fun i => p i && i.st == .active && o.item == some i.id) then
      { s with flc := { s.flc with op := some { o with cut := some status } } }
    else s
  | none => s

/-- An item whose frame is on the DALI bus ends at the frame's end with this status (R550). -/
def State.cutDali (s : State) (p : Item → Bool) (status : Nat) : State :=
  (s.flm.ift.filter (fun i => p i && i.st == .active && i.result.isNone && s.daliSends i)).foldl (fun s i =>
    { s with per := { s.per with units := Sparse.set {} s.per.units i.unit { Sparse.get {} s.per.units i.unit with cut := some status } } }) s

/-- The issued items of a ring or unit complete, in order. Where one of them is executing and may not be stopped, it
runs on: items that the unit has finished complete, and those that wait behind it wait as fetched ones (R34, R35). -/
def State.abortActive (s : State) (p : Item → Bool) (status : Nat) : State :=
  let mine := s.flm.ift.filter (fun i => p i && i.st == .active)
  if mine.any s.unstoppable then
    let s := (mine.filter (fun i => i.result.isSome)).foldl (fun s i => s.retireWith i.id status) s
    (mine.foldl (fun s i =>
      if i.result.isNone && !s.unstoppable i then s.updItem i.id (fun i => { i with st := .fetched }) else s) s |>.cutFlash p status).cutDali p status
  else mine.foldl (fun s i => s.retireWith i.id status) s

/-- The fetched items of a ring or unit complete, in order. -/
def State.abortFetched (s : State) (p : Item → Bool) (status : Nat) : State :=
  (s.flm.ift.filter (fun i => p i && i.st == .fetched)).foldl
    (fun s i => s.retireWith i.id status) s

/-- The unfetched items of a ring complete without using entries, and the ring is IDLE and empty (R35). -/
def State.abortUnfetched (s : State) (ring : Nat) : State :=
  let size := s.wrSize ring
  let s := (List.range (s.unfetched ring)).foldl (fun s k =>
    let slot := (s.wrCons ring + k) % size
    let ws := wordsOfBytes 8 ((List.range 32).map (fun j => s.memOctet (s.slotAddr ring slot + j)))
    let it : Item := { id := 512 + s.flm.finishes, ring, slot, unit := s.wrUnit ring, words := ws, st := .retiring, unfetched := true
                       result := some { status := Sc.abortedSw }, finish := s.flm.finishes }
    { s with flm := { s.flm with ift := s.flm.ift ++ [it], finishes := s.flm.finishes + 1 } }) s
  (s.setReg Pg.flm ring Fl.wrCons (word (s.wrProd ring))).setRing ring .idle

/-- Steps 2 and 3 of R35, once no executing item of the ring remains. -/
def State.abortRest (s : State) (ring : Nat) : State :=
  if s.flm.ift.any (fun i => i.ring == ring && i.st == .active) then s
  else (s.abortFetched (fun i => i.ring == ring) Sc.abortedSw).abortUnfetched ring

/-- A write of FLM_WR_CTRL with ABORT (R35). -/
def State.ringAbort (s : State) (ring : Nat) : State :=
  ((s.setRing ring .aborting).abortActive (fun i => i.ring == ring) Sc.abortedSw).abortRest ring

/-- A write of FLM_WR_CTRL with RESUME lets a HALTED ring fetch again (R33). -/
def State.ringResume (s : State) (ring : Nat) : State :=
  if s.ringState ring = .halted then s.setRing ring .idle else s

/-- `RING_RESUME` (R33). -/
def execRingResume (ini : Initiator) (s : State) : Host.Outcome State Fault Refusal :=
  .next (s.pageWrite ini Pg.flm 0x118 1 (fun s => s.ringResume (s.chsel Pg.flm ini)))

/-- The pending bit of a tailrace clears (R26). Every entry is consumed, or the ring is disabled, where it
clears, so the entries that moderation counts after that are those pending. -/
def State.clearTrPend (s : State) (t : Nat) : State := s.setTrPend t false

/-- A write of FLM_TR_CFG (R18, R26, R37). -/
def State.trCfgWrite (s : State) (ini : Initiator) (v : Word) : State :=
  let t := s.chsel Pg.flm ini
  let old := s.reg Pg.flm t Fl.trCfg
  let m : Word := word (fld 31 31 + fld 23 0)
  if s.locked Pg.flm then s.lockedErr ini Pg.flm Fl.trCfg
  else if bit old 31 then
    let s := s.setReg Pg.flm t Fl.trCfg ((old &&& 0xF) ||| (v &&& 0x80FFFFF0))
    if bit v 31 then s.modLook t else s.clearTrPend t
  else if !bit v 31 then s.setReg Pg.flm t Fl.trCfg (v &&& m)
  else if bits v 3 0 < 4 ∨ 10 < bits v 3 0 then
    (s.setReg Pg.flm t Fl.trCfg (setBit (v &&& m) 31 false)).raise Pg.flm ini Fl.trCfg t Err.enableRefused
  else
    let s := s.setReg Pg.flm t Fl.trCfg (v &&& m)
    ((s.setReg Pg.flm t Fl.trProd 0).setReg Pg.flm t Fl.trCons 0).setFull t false

/-- `TR_CFG_WRITE` (R37). -/
def execTrCfgWrite (ini : Initiator) (value : Word) (s : State) : Host.Outcome State Fault Refusal :=
  .next (s.pageWrite ini Pg.flm Fl.trCfg value (fun s => s.trCfgWrite ini value))

/-- A write of FLM_TR_CONS (R26). -/
def State.trConsWrite (s : State) (t : Nat) (v : Word) : State :=
  let s := s.setReg Pg.flm t Fl.trCons (v &&& 0x7FF)
  if s.trCons t = s.trProd t then s.clearTrPend t else s

/-- `TR_CONS_WRITE` (R26). -/
def execTrConsWrite (ini : Initiator) (value : Word) (s : State) : Host.Outcome State Fault Refusal :=
  .next (s.pageWrite ini Pg.flm Fl.trCons value (fun s => s.trConsWrite (s.chsel Pg.flm ini) value))

/-- `TAILRACE_MOD_TIME`: MOD_TIME after the oldest entry that moderation counts, the pending bit sets (R26). -/
def execTailraceModTime (ring : Nat) (s : State) : Host.Outcome State Fault Refusal :=
  .next (if s.trEn ring && s.fieldOf Pg.flm ring Fl.trCfg 15 4 != 0 && s.trPending ring != 0
    then s.setTrPend ring true else s)

/-! ### The completion of a unit's items (R33, R34) -/

/-- The unit has an executing item that cannot be stopped. -/
def State.hasUnstoppable (s : State) (unit : Nat) : Bool :=
  s.flm.ift.any (fun i => i.unit == unit && i.st == .active && s.unstoppable i)

/-- The rings bound to a unit enter HALTED. -/
def State.haltRings (s : State) (unit : Nat) : State :=
  (List.range 64).foldl (fun s r => if s.wrEn r && s.wrUnit r == unit then s.setRing r .halted else s) s

/-- Steps 1 to 3 of R33, where no executing item has to run on; `true` when they are done. -/
def State.completeUnit (s : State) (unit status : Nat) : State × Bool :=
  let s := s.abortActive (fun i => i.unit == unit) status
  if s.hasUnstoppable unit then (s, false)
  else ((s.abortFetched (fun i => i.unit == unit) status).haltRings unit, true)

/-! ### Agreement (R19) -/

/-- The first ring whose credits break R19, taking staged values where staged. -/
def State.flmAgree (s : State) : Mismatch :=
  let cr := fun r => s.stagedReg Pg.flm r Fl.wrCredit
  let one := (List.range 64).find? (fun r => bits (cr r) 25 16 < bits (cr r) 9 0 || 512 < bits (cr r) 25 16)
  match one with
  | some r => some (r, Fl.wrCredit)
  | none =>
    match (List.range 64).find? (fun r =>
        512 < ((List.range (r + 1)).map (fun q => if s.wrEn q then bits (cr q) 9 0 else 0)).sum) with
    | some r => some (r, Fl.wrCredit)
    | none => none

/-! ### Reads of the page's status registers (R16, R20) -/

/-- FLM_WR_STAT: state and entries in flight. -/
def State.wrStat (s : State) (ring : Nat) : Word :=
  let st := match s.ringState ring with
    | .halted => 2
    | .aborting => 3
    | .idle => if s.inFlight ring = 0 ∧ (s.unfetched ring = 0 ∨ !s.wrEn ring) then 0 else 1
  word (st * 0x10000 + s.inFlight ring)

/-- FLM_HALT0 and FLM_HALT1. -/
def State.haltMask (s : State) (base : Nat) : Word :=
  word (((List.range 32).map (fun k => if s.ringState (base + k) = .halted then 2 ^ k else 0)).sum)

/-- The status registers of the page that follow from the rings. -/
def State.flmRead (s : State) (idx off : Nat) : Option Word :=
  match off with
  | 0x114 => some (s.wrStat idx)
  | 0x800 => some (setBits (setBits (s.reg Pg.flm 0 Fl.iftCount) 25 16 (max s.inUse (s.fieldOf Pg.flm 0 Fl.iftCount 25 16))) 9 0 s.inUse)
  | 0x804 => some (word (((List.range 64).map s.creditMin).sum % 1024))
  | 0x810 => some (s.haltMask 0)
  | 0x814 => some (s.haltMask 32)
  | _ => none

end Sys2Proof.Machine
end

