-- ==== Sys2Proof/Machine/Rtc.lean ====
section
/-! DEFINITION. The real-time clock and calendar (R468 to R483). -/

namespace Sys2Proof.Machine

def State.setRtc (s : State) (f : Rtc → Rtc) : State := { s with rtc := f s.rtc }

/-! ### The calendar (R468 to R470) -/

def leapYear (y : Nat) : Bool := y % 4 == 0 && (y % 100 != 0 || y % 400 == 0)

def monthDays (y m : Nat) : Nat :=
  if m = 2 then (if leapYear y then 29 else 28) else if m = 4 ∨ m = 6 ∨ m = 9 ∨ m = 11 then 30 else 31

/-- Midnight reached by counting. -/
def Rtc.nextDay (r : Rtc) : Rtc :=
  let r := { r with wday := (r.wday + 1) % 7, hour := 0 }
  if r.day < monthDays r.year r.month then { r with day := r.day + 1 }
  else if r.month < 12 then { r with day := 1, month := r.month + 1 }
  else { r with day := 1, month := 1, year := if r.year < 2199 then r.year + 1 else 2000 }

/-- A second boundary; `true` when it is a midnight. -/
def Rtc.carry (r : Rtc) : Rtc × Bool :=
  let r := { r with subsec := 0, zcSecs := r.zcSecs + 1 }
  if r.sec < 59 then ({ r with sec := r.sec + 1 }, false)
  else if r.min < 59 then ({ r with sec := 0, min := r.min + 1 }, false)
  else if r.hour < 23 then ({ r with sec := 0, min := 0, hour := r.hour + 1 }, false)
  else ({ r with sec := 0, min := 0 }.nextDay, true)

/-! ### Trim (R481) -/

/-- A trim step falls due at raw tick `n` of a window whose trim is `t`. -/
def trimDue (t : Int) (n : Nat) : Bool :=
  t != 0 && (n + Config.trimPhase) * t.natAbs / 2 ^ 23 != (n + 1 + Config.trimPhase) * t.natAbs / 2 ^ 23

/-- A raw tick: the trim window moves on, and SUBSEC advances by 1, or by a trim step where one may be placed. -/
def Rtc.rawTick (r : Rtc) (written : Int) : Rtc :=
  let t := if r.raw = 0 then written else r.trim
  let owed := r.owed + (if trimDue t r.raw then (if 0 < t then 1 else -1) else 0)
  let may := r.subsec ≠ 0 ∧ r.subsec ≠ 32767
  let r := { r with raw := (r.raw + 1) % 2 ^ 23, trim := t }
  if may ∧ 0 < owed then { r with owed := owed - 1, subsec := r.subsec + 2 }
  else if may ∧ owed < 0 then { r with owed := owed + 1 }
  else { r with owed, subsec := r.subsec + 1 }

/-- TRIM as written. -/
def State.trimReg (s : State) : Int := signed 11 (s.fieldOf Pg.rtc 0 0x818 10 0)

/-! ### Commits (R477 to R479) -/

/-- The first impossible field of the named parts, by its DETAIL. -/
def impossible (l : RtcLoad) : Option Nat :=
  let y := bits l.dateWord 27 16
  let m := bits l.dateWord 11 8
  let d := bits l.dateWord 4 0
  if l.date ∧ (y < 2000 ∨ 2199 < y) then some 1
  else if l.date ∧ (m < 1 ∨ 12 < m) then some 2
  else if l.date ∧ (d < 1 ∨ monthDays y m < d) then some 3
  else if l.time ∧ 23 < bits l.timeWord 20 16 then some 4
  else if l.time ∧ 59 < bits l.timeWord 13 8 then some 5
  else if l.time ∧ 59 < bits l.timeWord 5 0 then some 6
  else if l.wday ∧ bits l.dateWord 30 28 = 7 then some 7
  else none

/-- A write of RTC_COMMIT. -/
def State.rtcCommit (s : State) (ini : Initiator) (v : Word) : State :=
  let l : RtcLoad := { time := bit v 0, date := bit v 1, wday := bit v 2, timeWord := Sparse.get 0 s.rtc.times ini.id
                       dateWord := Sparse.get 0 s.rtc.dates ini.id }
  if s.locked Pg.rtc then s.lockedErr ini Pg.rtc 0x80C
  else if s.rtc.load.isSome then s.raise Pg.rtc ini 0x80C 0 Err.commitBusy
  else if !l.time ∧ !l.date ∧ !l.wday then s
  else match impossible l with
    | some k => ((s.setRtc (fun r => { r with dateErr := true })).event Pg.rtc 3).raise Pg.rtc ini 0x80C k Err.range
    | none => s.setRtc (fun r => { r with load := some l })

/-- `GO_TIME`, `GO_DATE` and `GO_WDAY`: a write of RTC_COMMIT with that bit set; `value` holds the others. -/
def execGoTime (ini : Initiator) (value : Word) (s : State) : Host.Outcome State Fault Refusal :=
  .next (s.pageWrite ini Pg.rtc 0x80C (value ||| 1) (fun s => s.rtcCommit ini (value ||| 1)))
def execGoDate (ini : Initiator) (value : Word) (s : State) : Host.Outcome State Fault Refusal :=
  .next (s.pageWrite ini Pg.rtc 0x80C (value ||| 2) (fun s => s.rtcCommit ini (value ||| 2)))
def execGoWday (ini : Initiator) (value : Word) (s : State) : Host.Outcome State Fault Refusal :=
  .next (s.pageWrite ini Pg.rtc 0x80C (value ||| 4) (fun s => s.rtcCommit ini (value ||| 4)))

/-- The commit whose tick has come acts. -/
def State.rtcLoad (s : State) : State :=
  match s.rtc.load with
  | none => s
  | some l =>
    if !l.due then s
    else
      let t := l.timeWord
      let d := l.dateWord
      let s := s.setRtc (fun r =>
        let r := { r with load := none, oscStop := r.oscStop && !(l.time && l.date) }
        let r := if l.time then { r with hour := bits t 20 16, min := bits t 13 8, sec := bits t 5 0, subsec := 0 } else r
        let r := if l.date then { r with year := bits d 27 16, month := bits d 11 8, day := bits d 4 0 } else r
        if l.wday then { r with wday := bits d 30 28 } else r)
      s.event Pg.rtc 5

/-- `RTC_LOAD`. -/
def execRtcLoad (s : State) : Host.Outcome State Fault Refusal := .next s.rtcLoad

/-! ### The tick (R468, R480) -/

/-- The alarm's comparison at a second boundary. -/
def State.rtcAlarm (s : State) : State :=
  let a := s.reg Pg.rtc 0 0x814
  let r := s.rtc
  if bit a 31 ∧ (bit a 26 → bits a 20 16 = r.hour) ∧ (bit a 25 → bits a 13 8 = r.min) ∧ (bit a 24 → bits a 5 0 = r.sec) then
    (s.setRtc (fun r => { r with alm := true })).event Pg.rtc 2
  else s

/-- A tick of the slow clock. A load whose tick has come acts before the next tick. -/
def State.rtcTick (s : State) : State :=
  let s := s.rtcLoad
  let s := s.setRtc (fun r => r.rawTick s.trimReg)
  if 32768 ≤ s.rtc.subsec then
    let (r, midnight) := s.rtc.carry
    let s := ({ s with rtc := r }).event Pg.rtc 0
    let s := if midnight then s.event Pg.rtc 1 else s
    s.rtcAlarm
  else s.setRtc (fun r => { r with load := r.load.map (fun l => { l with due := true }) })

/-! ### Reading (R475) -/

def Rtc.timeWord (r : Rtc) : Word := word (r.hour * 0x10000 + r.min * 0x100 + r.sec)
def Rtc.dateWord (r : Rtc) : Word := word (r.wday * 0x10000000 + r.year * 0x10000 + r.month * 0x100 + r.day)

/-- A read of RTC_TIME, RTC_DATE or RTC_SUBSEC. -/
def State.rtcShadow (s : State) (ini : Initiator) (off : Nat) : Word × State :=
  let fresh : RtcFreeze := { time := s.rtc.timeWord, date := s.rtc.dateWord, subsec := s.rtc.subsec, seen := [] }
  let f := match Sparse.get none s.rtc.freezes ini.id with
    | some f => if f.seen.contains off then fresh else f
    | none => fresh
  let f := { f with seen := f.seen ++ [off] }
  let v := if off = 0x800 then f.time else if off = 0x804 then f.date else word f.subsec
  (v, s.setRtc (fun r => { r with freezes := Sparse.set none r.freezes ini.id (if 3 ≤ f.seen.length then none else some f) }))

/-- `RTC_READ`: `off` names the register. -/
def execRtcRead (ini : Initiator) (off : Nat) (s : State) : Host.Outcome State Fault Refusal :=
  .next (if off = 0x800 ∨ off = 0x804 ∨ off = 0x808 then s.pageRead ini Pg.rtc off (fun s => s.rtcShadow ini off) else s)

/-- RTC_STAT for a reader. -/
def State.rtcStat (s : State) (ini : Initiator) : Word :=
  let r := s.rtc
  word (r.oscStop.toNat * 0x80000000 + r.onRc.toNat * 0x40000000 + r.load.isSome.toNat * 0x20000000 +
    (Sparse.get none r.freezes ini.id).isSome.toNat * 0x10000000 + r.dateErr.toNat * 2 + r.alm.toNat)

/-- The computed registers of the page. -/
def State.rtcRegRead (s : State) (ini : Initiator) (off : Nat) : Option (Word × State) :=
  match off with
  | 0x800 | 0x804 | 0x808 => some (s.rtcShadow ini off)
  | 0x80C => some (0, s)
  | 0x810 => some (s.rtcStat ini, s)
  | 0x820 => some (s.rtc.meas, s)
  | 0x824 => some (word s.rtc.zc, s)
  | _ => none

/-! ### Writing -/

/-- A write of a register of the page that has an effect of its own. -/
def State.rtcRegWrite (s : State) (ini : Initiator) (off : Nat) (v : Word) : Option State :=
  match off with
  | 0x800 => some (s.setRtc (fun r => { r with times := Sparse.set 0 r.times ini.id (v &&& 0x1F3F3F) }))
  | 0x804 => some (s.setRtc (fun r => { r with dates := Sparse.set 0 r.dates ini.id (v &&& 0x7FFF0F1F) }))
  | 0x80C => some (s.rtcCommit ini v)
  | 0x810 => some (s.setRtc (fun r => { r with dateErr := r.dateErr && !bit v 1, alm := r.alm && !bit v 0 }))
  | 0x818 =>
    if bits v 10 0 = 0x400 ∧ !s.locked Pg.rtc then some (s.raise Pg.rtc ini 0x818 0 Err.range) else none
  | _ => none

/-- The RTC's state of one core ends with the core's reset (R475, R476). -/
def State.rtcCoreReset (s : State) (ini : Initiator) : State :=
  s.setRtc (fun r => { r with freezes := Sparse.set none r.freezes ini.id none, times := Sparse.set 0 r.times ini.id 0
                              dates := Sparse.set 0 r.dates ini.id 0 })

/-! ### Trim measurements (R482, R483) -/

/-- The nearest integer to a quotient. -/
def nearest (num : Int) (den : Nat) : Int := (2 * num + den) / (2 * den)

/-- TRIM takes a measurement under AUTO, and RTC_TRIMMEAS the error num / den; an error that the field
cannot hold leaves it a free value. -/
def State.rtcMeasure (s : State) (num : Int) (den : Nat) (base : Int) : State :=
  let e := nearest (num * 100000000) den
  let (f, s) := s.fresh
  let m := if e < -32768 ∨ 32767 < e then bits f 15 0 else unsigned 16 e
  let s := s.setRtc (fun r => { r with meas := word (0x80000000 + m) })
  if s.fieldOf Pg.rtc 0 0x81C 29 29 = 1 then
    let t := clampInt (-1023) 1023 (base + nearest (num * 2 ^ 23) den)
    (s.setField Pg.rtc 0 0x818 10 0 (unsigned 11 t)).event Pg.rtc 6
  else s

/-- The source of trim measurements. -/
def State.trimSrc (s : State) : Nat := s.fieldOf Pg.rtc 0 0x81C 31 30

/-- The next ZC window starts. -/
def State.zcRestart (s : State) : State := s.setRtc (fun r => { r with zc := 0, zcSecs := 0 })

/-- `ZC_EDGE`: a rising edge at the ball, `since` µs after the last counted one (R482, R484). -/
def execZcEdge (since : Nat) (s : State) : Host.Outcome State Fault Refusal :=
  .next (if since < 10000 ∨ !s.supplied .c then s
    else
      let s := s.pulse 38
      if s.trimSrc = 1 then s.setRtc (fun r => { r with zc := r.zc + 1 }) else s)

/-- The nominal count of a window. -/
def State.zcNominal (s : State) : Nat :=
  (if s.fieldOf Pg.rtc 0 0x81C 28 28 = 1 then 60 else 50) * 3600 * s.fieldOf Pg.rtc 0 0x81C 15 0

/-- `ZC_WINDOW_END`: WINDOW_H hours of RTC time have passed. -/
def execZcWindowEnd (s : State) : Host.Outcome State Fault Refusal :=
  .next (
    if s.trimSrc ≠ 1 ∨ s.rtc.zcSecs < 3600 * s.fieldOf Pg.rtc 0 0x81C 15 0 then s
    else
      let n := s.zcNominal
      let d : Int := (s.rtc.zc : Int) - n
      let s := s.zcRestart
      if n < 1000 * d.natAbs then s else s.rtcMeasure d n s.trimReg)

/-- `ZC_GAP`: 100 ms without a counted edge discards the window. -/
def execZcGap (s : State) : Host.Outcome State Fault Refusal := .next (if s.trimSrc = 1 then s.zcRestart else s)

/-- TIM_TICKPER has been written: with SRC TIM it is a measurement, where TIM is trusted (R483). -/
def State.rtcFromTim (s : State) : State :=
  if s.trimSrc ≠ 2 ∨ !s.tim.trusted ∨ s.rtc.onRc then s
  else s.rtcMeasure ((s.tim.tickper.toNat : Int) - 2000000000) 2000000000 0

/-- The crystal stops: the RTC counts RC ticks (R472). -/
def State.rtcOnRc (s : State) : State := (s.setRtc (fun r => { r with oscStop := true, onRc := true })).event Pg.rtc 4

/-- A soft reset of the page (R471). -/
def State.rtcSoftReset (s : State) : State :=
  (s.setRtc (fun r => { r with load := none, freezes := [], times := [], dates := [] })).setReg Pg.rtc 0 0x010 0

end Sys2Proof.Machine
end

