-- ==== Sys2Proof/Machine/Cpu.lean ====
section
/-! DEFINITION. The CPU register page, and what starts, halts and resets a core (R269 to R273, R306, R307,
R312, R313). -/

namespace Sys2Proof.Machine

/-- A core's page, domain and record. -/
def cpuPage (c : Core) : Nat := 0x20 + c.id
def cpuDomain (c : Core) : Nat := if c.link then Dm.lnk else Dm.ctl
def State.cpu (s : State) (c : Core) : Cpu := Sparse.get {} s.cpus c.id
def State.setCpu (s : State) (c : Core) (x : Cpu) : State := { s with cpus := Sparse.insert s.cpus c.id x }

/-- All four cores, and the core of a CPU page. -/
def allCores : List Core := [.l0, .l1, .c0, .c1]
def coreOf (page : Nat) : Option Core := allCores.find? (fun c => cpuPage c == page)

/-- The fetch unit in octets (R269). -/
def Core.unit (c : Core) : Nat := if c.link then 4 else 2

/-! ### The status word (R273) -/

def Cpu.ie (x : Cpu) : Bool := bit x.sw 31
def Cpu.dze (x : Cpu) : Bool := bit x.sw 30
def Cpu.sat (x : Cpu) : Bool := bit x.sw 29
def Cpu.ld (x : Cpu) : Nat := bits x.sw 26 24
def Cpu.ilvl (x : Cpu) : Nat := bits x.sw 22 20

/-- The bits of SW that hold something; the others read 0. -/
def swMask : Word := 0xE770003F

/-! ### Start, halt and reset (R270) -/

/-- The core stops: HALT, with HALTED set. -/
def State.haltCore (s : State) (c : Core) : State :=
  (s.setCpu c { s.cpu c with st := .halt, halting := false }).event (cpuPage c) 9

/-- RUN = 1: a core that has not run since its reset starts at CPU_RESETPC, and one that halted resumes. -/
def State.runCore (s : State) (c : Core) : State :=
  let x := s.cpu c
  match x.st with
  | .halt =>
    if x.ran then s.setCpu c { x with st := .run, run := true, halting := false }
    else s.setCpu c { x with st := .run, run := true, ran := true, halting := false, pc := s.reg (cpuPage c) 0 0x804 }
  | _ => s.setCpu c { x with run := true, halting := false }

/-- RUN = 0: the core stops at its next acceptance point; in WFI it moves to HALT (R307). -/
def State.stopCore (s : State) (c : Core) : State :=
  let x := s.cpu c
  let s := s.setCpu c { x with run := false }
  match x.st with
  | .run => if x.atPoint && !x.stalled then s.haltCore c else s.setCpu c { s.cpu c with halting := true }
  | .wfi => s.haltCore c
  | _ => s

/-- A write of CPU_CTRL; link cores have no instruction cache. -/
def State.cpuCtrlWrite (s : State) (c : Core) (v : Word) : State :=
  let s := if c.link then s else s.setReg (cpuPage c) 0 0x800 (v &&& 1)
  let was := (s.cpu c).run
  if bit v 31 = was then s else if bit v 31 then s.runCore c else s.stopCore c

/-- `CORE_RUN`: CPU_CTRL.RUN = 1 is written (R270). -/
def execCoreRun (ini : Initiator) (core : Core) (s : State) : Host.Outcome State Fault Refusal :=
  .next (s.pageWrite ini (cpuPage core) 0x800 0x80000000
    (fun s => s.cpuCtrlWrite core (setBit (s.reg (cpuPage core) 0 0x800) 31 true)))

/-- `CORE_HALT`: CPU_CTRL.RUN = 0 is written (R270). -/
def execCoreHalt (ini : Initiator) (core : Core) (s : State) : Host.Outcome State Fault Refusal :=
  .next (s.pageWrite ini (cpuPage core) 0x800 0
    (fun s => s.cpuCtrlWrite core (setBit (s.reg (cpuPage core) 0 0x800) 31 false)))

/-- All channel-select banks of an initiator return to 0 (R58). -/
def State.clearBanks (s : State) (ini : Initiator) : State :=
  s.clearRegs (fun k => keyOff k == 0x80 && keyIdx k == ini.id)

/-- The staged sets whose claim a core holds are lost (R66). -/
def State.coreClaimsLost (s : State) (ini : Initiator) : State :=
  (s.claims.filter (fun e => e.2 == some ini)).foldl (fun s e => s.loseStaged e.1 ini) s

/-- A core is reset: its registers, banks, claims and shadows (R58, R66, R244, R270, R475). An access that it waits for is
gone with it. -/
def State.coreReset (s : State) (c : Core) : State :=
  let s := { s.setCpu c {} with stalls := s.stalls.filter (fun a => a.ini != c.ini) }
  let s := ((s.clearBanks c.ini).coreClaimsLost c.ini).rtcCoreReset c.ini
  { s with tim := { s.tim with shadows := Sparse.erase s.tim.shadows c.id } }

/-! ### Interrupt lines (R306, R313) -/

/-- CPU_IRQMAP entry `i` of a core. -/
def State.irqMap (s : State) (c : Core) (i : Nat) : Word := s.reg (cpuPage c) 0 (0x900 + 4 * i)

/-- The line that an entry of an interrupt map selects. -/
def State.mappedLine (s : State) (m : Word) : Bool :=
  let page := bits m 7 0
  let sub := bits m 15 8
  if sub = 0xFF then s.line page else page == Pg.flm && sub < 64 && s.trPend sub

/-- The entry requests its interrupt, at a level that the core may take. -/
def State.irqAsserts (s : State) (c : Core) (i : Nat) : Bool :=
  let m := s.irqMap c i
  bit m 31 && decide ((s.cpu c).ilvl ≤ bits m 25 24) && s.mappedLine m

/-- Some enabled line asserts at or above ILVL (R307). -/
def State.irqAny (s : State) (c : Core) : Bool := (List.range 32).any (s.irqAsserts c)

/-- The request taken: the higher PRIO wins, and then the lower entry. -/
def State.irqWinner (s : State) (c : Core) : Option Nat :=
  (List.range 32).foldl (fun best i =>
    if !s.irqAsserts c i then best
    else match best with
      | none => some i
      | some b => if bits (s.irqMap c b) 25 24 < bits (s.irqMap c i) 25 24 then some i else some b) none

/-- A write of CPU_IRQMAP (R313). -/
def State.irqMapWrite (s : State) (ini : Initiator) (c : Core) (off : Nat) (v : Word) : State :=
  let page := bits v 7 0
  let sub := bits v 15 8
  if s.locked (cpuPage c) then s.lockedErr ini (cpuPage c) off
  else if !pageListed page || !(sub == 0xFF || (page == Pg.flm && decide (sub < 64))) then
    s.raise (cpuPage c) ini off 0 Err.range
  else s.plainWrite ini (cpuPage c) 0 off v

/-! ### Reads of the page -/

/-- STATE of CPU_STAT. -/
def Cpu.stateCode (x : Cpu) : Nat :=
  match x.st with
  | .halt => 0 | .run => if x.stalled then 3 else 1 | .wfi => 2 | .lockup => 4

/-- The registers of the page that are not held in its table. -/
def State.cpuRead (s : State) (c : Core) (off : Nat) : Option (Word × State) :=
  let x := s.cpu c
  match off with
  | 0x800 => some (word (x.run.toNat * 0x80000000 + bits (s.reg (cpuPage c) 0 0x800) 0 0), s)
  | 0x810 => some (word (x.stateCode * 0x20000000 + x.ld * 0x1000000 + x.ilvl * 0x100000), s)
  | 0x820 => some (x.cycles, s)
  | 0x824 => some (x.instret, s)
  | _ => none

/-- The writes of the page that have an effect of their own. -/
def State.cpuWrite (s : State) (ini : Initiator) (c : Core) (off : Nat) (v : Word) : Option State :=
  if off = 0x800 then some (s.cpuCtrlWrite c v)
  else if 0x900 ≤ off ∧ off < 0x980 then some (s.irqMapWrite ini c off v)
  else none

/-- `k` fabric cycles of the cores: CPU_CYCLES counts those in RUN or WFI (R312). -/
def State.coresCount (s : State) (k : Nat) : State :=
  { s with cpus := s.cpus.map (fun (id, x) =>
      let on := s.domOn (if id < 2 then Dm.lnk else Dm.ctl)
      (id, if on && (x.st == .wfi || (x.st == .run && !x.stalled)) then { x with cycles := x.cycles + word k } else x)) }

/-- A request for RETENTION holds the core at its acceptance point, and one for OFF once it waits for no access (R271). -/
def State.coreHeld (s : State) (c : Core) : Bool :=
  let d := cpuDomain c
  let x := s.cpu c
  (s.dom d).leaving.isSome && !x.stalled && ((s.dreq d == 2 && x.atPoint) || s.dreq d == 3)

/-- The core runs: its domain is ON and does not hold it, it is in RUN, and no part reset waits (R395). -/
def State.coreRuns (s : State) (c : Core) : Bool :=
  s.ready (cpuDomain c) && (s.cpu c).st == .run && s.resetDue.isNone && !s.coreHeld c

/-- Both cores of a domain stand in HALT or WFI (R271). -/
def State.coresRest (s : State) (d : Nat) : Bool :=
  allCores.all (fun c => cpuDomain c != d || (s.cpu c).st == .halt || (s.cpu c).st == .wfi)

/-- No core of the domain stands within an instruction or before its next acceptance point (R271). -/
def State.coresAtPoint (s : State) (d : Nat) : Bool :=
  allCores.all (fun c => cpuDomain c != d || (s.cpu c).st != .run || ((s.cpu c).atPoint && !(s.cpu c).stalled))

end Sys2Proof.Machine
end

