-- ==== Sys2Proof/Machine/Periph.lean ====
section
/-! DEFINITION. The serial, DALI, PWM and GPIO peripherals (R540 to R542, R547 to R553). -/

namespace Sys2Proof.Machine

/-! ### Units -/

def State.setPer (s : State) (f : Periph → Periph) : State := { s with per := f s.per }
def State.serial (s : State) (page : Nat) : Serial := Sparse.get {} s.per.units page
def State.setSerial (s : State) (page : Nat) (x : Serial) : State :=
  s.setPer (fun p => { p with units := Sparse.set {} p.units page x })

def isUart (page : Nat) : Bool := 0x40 ≤ page && page ≤ 0x43
def isI2c (page : Nat) : Bool := page == 0x44 || page == 0x45
def isSpim (page : Nat) : Bool := page == 0x46 || page == 0x47
def isDli (page : Nat) : Bool := page == 0x38 || page == 0x39
def isSerial (page : Nat) : Bool := 0x40 ≤ page && page ≤ 0x48

/-- The unit's item whose turn it is: one at a time, in fetch order, staged ARM items and items that wait for
their launch left aside (R549). -/
def State.perItem (s : State) (entry op : Nat) : Option Item :=
  match s.item entry with
  | some i =>
    if (isSerial i.unit ∨ isDli i.unit) ∧ i.opcode = op ∧ i.st = .active ∧ i.result = none ∧ (i.timed → i.launched) ∧ s.ready Dm.per ∧
        s.fetchTurn i (fun j => isDli j.unit && j.opcode == 2 && (s.serial j.unit).arm == some j.id) then some i
    else none
  | none => none

/-- The unit takes PER_CFG at the start of an item (R548). -/
def State.takeCfg (s : State) (page : Nat) : State :=
  s.setSerial page { s.serial page with cfg := some (s.reg page 0 0x800) }

/-- PER_CFG as in force. -/
def State.perCfg (s : State) (page : Nat) : Word := (s.serial page).cfg.getD (regReset page 0 0x800)

/-- An item of the unit breaks a field rule (rank 5 of R550). -/
def Item.serialBad (i : Item) : Bool :=
  (i.unit == 0x48 && i.uparam % 4 == 3) ||
  (isI2c i.unit &&
    (let a := if i.opcode = 1 then i.w 2 else i.w 1
     !bit a 15 && decide (128 ≤ bits a 9 0)))

/-- The bus or the chip select after an item (R549). -/
def State.holdBus (s : State) (i : Item) (held : Bool) : State :=
  if isUart i.unit then s else s.setSerial i.unit { s.serial i.unit with held }

def Item.hold (i : Item) : Bool := i.uflags.testBit 1

/-! ### TX, RX and XFER (R549, R550) -/

/-- `SERIAL_TX`: the item's octets go out. `lost` says that I2C arbitration was lost, and `nack` after how many
octets the target did not acknowledge. -/
def execSerialTx (entry : Nat) (lost : Bool) (nack : Option Nat) (flips : List Flip) (s : State) : Host.Outcome State Fault Refusal :=
  let s := s.applyFlips flips
  .next (match s.perItem entry 1 with
    | none => s
    | some i =>
      if isDli i.unit then s
      else if i.serialBad then s.finish entry { status := Sc.internal }
      else match s.unitRead i.addrA i.length with
        | (s, .waits) => s
        | (s, .refused) => s.finish entry { status := Sc.channelFailed }
        | (s, .ok bs _) => match knownBytes bs with
          | none => s.finish entry { status := Sc.mediaUncorrectable }
          | some bs =>
            let s := s.takeCfg i.unit
            let i2c := isI2c i.unit
            let n := if i2c && lost then 0 else match nack with | some n => if i2c then min n bs.length else bs.length | none => bs.length
            let st := if i2c && lost then Sc.channelBusy else if i2c && nack.isSome then Sc.noAck else Sc.done
            let s := s.setSerial i.unit { s.serial i.unit with sent := bs.take n }
            (s.holdBus i (i.hold && st == Sc.done)).finish entry { status := st, actual := n })

/-- An octet as a UART of BITS 7 keeps it. -/
def uartOctet (cfg : Word) (b : Byte) : Byte := if bits cfg 9 8 = 1 then b &&& 0x7F else b

/-- Received octets go to memory, and the RX item ends. -/
def State.rxEnd (s : State) (i : Item) (got : List (Byte × Bool)) (short : Bool) : State :=
  let bad := got.any (·.2)
  match s.unitWrite i.addrB (got.map (·.1)) with
  | (s, .refused) => s.finish i.id { status := Sc.channelFailed }
  | (s, _) =>
    let st := if bad then Sc.mediaUncorrectable else if short then Sc.doneWarn else Sc.done
    s.finish i.id { status := st, actual := got.length }

/-- `SERIAL_RX`: `octets` arrive, each with whether it had a framing or parity error; a UART takes the octets of
its FIFO first, and ends short of LENGTH on its idle limit. -/
def execSerialRx (entry : Nat) (octets : List (Byte × Bool)) (lost nack : Bool) (s : State) : Host.Outcome State Fault Refusal :=
  .next (match s.perItem entry 2 with
    | none => s
    | some i =>
      if isDli i.unit then s
      else if i.serialBad then s.finish entry { status := Sc.internal }
      else if isI2c i.unit ∧ lost then ((s.takeCfg i.unit).holdBus i false).finish entry { status := Sc.channelBusy }
      else if isI2c i.unit ∧ nack then ((s.takeCfg i.unit).holdBus i false).finish entry { status := Sc.noAck }
      else
        let u := isUart i.unit
        let x := s.serial i.unit
        let cfg := s.reg i.unit 0 0x800
        let new := octets.map (fun o => if u then (uartOctet cfg o.1, o.2) else (o.1, false))
        let all := (if u then x.fifo else []) ++ new
        let got := all.take i.length
        let short := got.length < i.length
        if short ∧ !(u ∧ i.uparam ≠ 0) then s
        else match s.rangeStatus i.addrB got.length with
          | .stall d => s.wake d
          | _ =>
            let s := s.takeCfg i.unit
            let s := if u then
                (s.setSerial i.unit { s.serial i.unit with fifo := x.fifo.drop i.length }).count i.unit 0 0x80C 31 16 (new.filter (·.2)).length
              else s
            (s.holdBus i (i.hold && !isI2c i.unit)).rxEnd i got short)

/-- `XFER`: an SPIM exchanges octets in full duplex. -/
def execSerialXfer (entry : Nat) (octets : List Byte) (flips : List Flip) (s : State) : Host.Outcome State Fault Refusal :=
  let s := s.applyFlips flips
  .next (match s.perItem entry 3 with
    | none => s
    | some i =>
      if !isSpim i.unit then s
      else match s.rangeStatus i.addrB i.length, s.unitRead i.addrA i.length with
        | .stall d, _ => s.wake d
        | _, (s, .waits) => s
        | _, (s, .refused) => s.finish entry { status := Sc.channelFailed }
        | _, (s, .ok bs _) => match knownBytes bs with
          | none => s.finish entry { status := Sc.mediaUncorrectable }
          | some bs =>
            let s := s.takeCfg i.unit
            let s := s.setSerial i.unit { s.serial i.unit with sent := bs }
            (s.holdBus i i.hold).rxEnd i ((padTo i.length octets).map (fun b => (b, false))) false)

/-! ### DALI (R549 to R552) -/

/-- A DALI item breaks a field rule. -/
def Item.dliBad (i : Item) : Bool :=
  let n := i.uparam % 32
  let prio := i.uflags / 4 % 8
  (n != 16 && n != 24) || prio == 0 || 5 < prio

/-- The octets of a forward frame, once or twice. -/
def Item.dliFrame (i : Item) : List Byte :=
  let n := i.uparam % 32 / 8
  let f := bytesBE n (bits (i.w 1) 23 0)
  if i.uflags.testBit 0 then f ++ f else f

/-- A forward frame has ended: `collided` on each of 3 attempts, or with the backward frame and whether that had
a framing error. -/
def State.dliEnd (s : State) (i : Item) (collided : Bool) (back : Option (Byte × Bool)) : State :=
  let s := s.setSerial i.unit { s.serial i.unit with sent := if collided then [] else i.dliFrame }
  if collided then s.finish i.id { status := Sc.channelBusy }
  else
    let s := if back.isSome then s.pulse (36 + (i.unit - 0x38)) else s
    if !i.uflags.testBit 1 then s.finish i.id { status := Sc.done }
    else match back with
      | none => s.finish i.id { status := Sc.noAck }
      | some (b, err) => s.finish i.id { status := if err then Sc.mediaUncorrectable else Sc.done, wb := b.toNat }

/-- `SEND`: a forward frame is sent, and a backward frame awaited where BACK is set. -/
def execDliSend (entry : Nat) (collided : Bool) (back : Option (Byte × Bool)) (s : State) : Host.Outcome State Fault Refusal :=
  .next (match s.perItem entry 1 with
    | none => s
    | some i =>
      if !isDli i.unit then s
      else if i.dliBad then s.finish entry { status := Sc.internal }
      else if (s.serial i.unit).bus then s
      else (s.takeCfg i.unit).dliEnd i collided back)

/-- `DLI_ARM`: the frame is staged; once a trigger has put it on the bus, it ends with its status. -/
def execDliArm (entry : Nat) (collided : Bool) (back : Option (Byte × Bool)) (s : State) : Host.Outcome State Fault Refusal :=
  .next (match s.item entry with
    | none => s
    | some i =>
      let x := s.serial i.unit
      if isDli i.unit ∧ x.arm = some entry then
        if !x.bus then s
        else
          let s := s.setSerial i.unit { x with arm := none, bus := false, cut := none }
          match x.cut with
          | some status => s.finish entry { status }
          | none => s.dliEnd i collided back
      else match s.perItem entry 2 with
        | none => s
        | some i =>
          if !isDli i.unit ∨ x.arm.isSome then s
          else if i.dliBad then s.finish entry { status := Sc.internal }
          else (s.takeCfg i.unit).setSerial i.unit { (s.takeCfg i.unit).serial i.unit with arm := some entry })

/-- A DLI_SEND trigger puts the staged frame on the bus (R485, R549). -/
def State.dliTrigger (s : State) (n : Nat) : State :=
  let page := 0x38 + n
  let x := s.serial page
  if x.arm.isSome then s.setSerial page { x with bus := true } else s

/-- An ARM item that ends otherwise leaves its controller; a frame on the bus runs to its end. -/
def State.armGone (s : State) (p : Item → Bool) : State :=
  [0x38, 0x39].foldl (fun s page =>
    let x := s.serial page
    match x.arm with
    | some e => if (match s.item e with | some i => p i && !s.unstoppable i | none => true) then
        s.setSerial page { x with arm := none, bus := false } else s
    | none => s) s

/-- `DALI_MONITOR_FRAME`: a frame of `len` bits from another master. -/
def execDaliMonitorFrame (dli : Nat) (frame : Word) (len : Nat) (s : State) : Host.Outcome State Fault Refusal :=
  .next (
    let page := 0x38 + dli
    if 2 ≤ dli ∨ !s.ready Dm.per ∨ !s.supplied .c then s
    else
      let s := s.pulse (36 + dli)
      let rep := s.reg page 0 0x804
      if bit (s.perCfg page) 0 && bit rep 31 then
        let r : Report := { unit := page, tail := bits rep 29 24, status := Sc.done, ns := s.tim.ns, sec := s.tim.sec
                            rep6 := frame, rep7 := word (len % 32) }
        s.report r
      else s)

/-! ### Received UART octets, the I2C hold (R549, R551) -/

/-- An RX item of the unit runs. -/
def State.rxRuns (s : State) (page : Nat) : Bool :=
  s.flm.ift.any (fun i => i.unit == page && (s.perItem i.id 2).isSome)

/-- `UART_RX_OCTET`: an octet arrives while no RX item runs. -/
def execUartRxOctet (uart : Nat) (octet : Byte) (err : Bool) (s : State) : Host.Outcome State Fault Refusal :=
  .next (
    let page := 0x40 + uart
    if 4 ≤ uart ∨ !s.ready Dm.per ∨ !s.supplied .a ∨ s.rxRuns page then s
    else
      let s := if err then s.count page 0 0x80C 31 16 1 else s
      let x := s.serial page
      if 32 ≤ x.fifo.length then s.count page 0 0x80C 15 0 1
      else s.setSerial page { x with fifo := x.fifo ++ [(uartOctet (s.perCfg page) octet, err)] })

/-- `UART_REPORT`: eight octets are queued, or two character times have passed idle. -/
def execUartReport (uart : Nat) (s : State) : Host.Outcome State Fault Refusal :=
  .next (
    let page := 0x40 + uart
    let rep := s.reg page 0 0x804
    let x := s.serial page
    if 4 ≤ uart ∨ !s.ready Dm.per ∨ !bit rep 31 ∨ x.fifo.isEmpty ∨ s.rxRuns page then s
    else
      let got := x.fifo.take 8
      let bs := padTo 8 (got.map (·.1))
      let r : Report := { unit := page, tail := bits rep 29 24, status := if got.any (·.2) then Sc.mediaUncorrectable else Sc.done
                          actual := got.length, ns := s.tim.ns, sec := s.tim.sec, rep6 := wordOfBytes bs, rep7 := wordOfBytes (bs.drop 4) }
      let s := s.setSerial page { x with fifo := x.fifo.drop 8 }
      s.report r)

/-- `I2C_HOLD_TIMEOUT`: the bus, held for 1 ms with no item, is released with a STOP. -/
def execI2cHoldTimeout (i2c : Nat) (s : State) : Host.Outcome State Fault Refusal :=
  .next (
    let page := 0x44 + i2c
    if 2 ≤ i2c ∨ s.unitBusy page then s else s.setSerial page { s.serial page with held := false })

/-! ### Registers of the units (R548) -/

/-- PER_STAT. -/
def State.perStat (s : State) (page : Nat) : Word :=
  let x := s.serial page
  word (s.flm.ift.any (fun i => i.unit == page && i.st == .active && i.result.isNone) |>.toNat |> (· * 0x80000000)) |||
    word (x.held.toNat * 0x40000000 + min 63 x.fifo.length)

/-- A write of PER_CFG; QSPI has modes 0 and 3 only. -/
def State.perCfgWrite (s : State) (ini : Initiator) (page : Nat) (v : Word) : State :=
  if page = 0x48 ∧ (bits v 1 0 = 1 ∨ bits v 1 0 = 2) ∧ !s.locked page then
    let s' := s.plainWrite ini page 0 0x800 (setBits v 1 0 (bits (s.reg page 0 0x800) 1 0))
    if outOfRange ((regDef page 0x800).getD { off := 0, name := "" }) v then s' else s'.raise page ini 0x800 0 Err.range
  else s.plainWrite ini page 0 0x800 v

/-! ### PWM (R553) -/

def pwmOff (n o : Nat) : Nat := 0x800 + 0x10 * n + o

/-- The agreement of the PWM page. -/
def State.pwmAgree (s : State) : Mismatch :=
  let g := fun n o => s.stagedReg Pg.pwm 0 (pwmOff n o)
  match (List.range 4).find? (fun n => bits (g n 0) 15 0 + 1 < bits (g n 4) 16 0) with
  | some n => some (0, pwmOff n 4)
  | none => none

/-- Staged values whose key satisfies `p` take effect, and the commit ends once nothing of it is left. -/
def State.switchPart (s : State) (c : Commit) (p : Nat → Bool) : State :=
  let q := fun k => namedBy c.page c.index c.all k && p k
  let named := Sparse.keep q s.staged
  let s := named.foldl (fun s e => s.setReg (keyPage e.1) (keyIdx e.1) (keyOff e.1) e.2) s
  let s := { s with staged := Sparse.keep (fun k => !q k) s.staged }
  if s.staged.any (fun e => namedBy c.page c.index c.all e.1) then s
  else
    let s := { s with commits := s.commits.filter (fun x => x.page != c.page) }
    let s := (s.bumpGen c.page).setField c.page 0 0x028 31 31 0
    (s.event c.page 30).releaseClaim c.page

/-- The counter of a PWM. -/
def State.pwmCount (s : State) (n : Nat) : PwmCount := Sparse.get {} s.per.pwms n

def State.setPwm (s : State) (n : Nat) (x : PwmCount) : State :=
  s.setPer (fun p => { p with pwms := Sparse.set {} p.pwms n x })

/-- PWM `n` counts: EN is set and PER ON. -/
def State.pwmRuns (s : State) (n : Nat) : Bool := s.ready Dm.per && bit (s.reg Pg.pwm 0 (pwmOff n 8)) 31

/-- A period of PWM `n` starts: the count is 0, and what is committed for it switches. -/
def State.pwmStart (s : State) (n : Nat) : State :=
  let s := s.setPwm n {}
  match s.commitOf Pg.pwm with
  | some c => s.switchPart c (fun k => (keyOff k - 0x800) / 0x10 == n)
  | none => s

/-- The PWMs that do not run switch at once. -/
def State.pwmSwitch (s : State) (c : Commit) : State :=
  s.switchPart c (fun k => !bit (s.reg Pg.pwm 0 (pwmOff ((keyOff k - 0x800) / 0x10) 8)) 31)

/-- PWM `n` wraps: the producer fires, and the next period starts (R553, R484). -/
def State.pwmWrap (s : State) (n : Nat) : State := (s.pwmStart n).pulse (32 + n)

/-- `PWM_WRAP`: the counter has gone on to PERIOD, and wraps. -/
def execPwmWrap (pwm : Nat) (s : State) : Host.Outcome State Fault Refusal :=
  .next (if 4 ≤ pwm ∨ !s.pwmRuns pwm then s else s.pwmWrap pwm)

/-- `k` fabric cycles of a PWM, at one step every PRESC + 1 of them. What is left after a wrap counts in the new period. -/
def State.pwmStep (s : State) (k n : Nat) : State :=
  if !s.pwmRuns n then s
  else
    let x := s.pwmCount n
    let per := s.reg Pg.pwm 0 (pwmOff n 0)
    let steps := (x.pre + k) / (bits per 23 16 + 1)
    let pre := (x.pre + k) % (bits per 23 16 + 1)
    if x.count + steps ≤ bits per 15 0 then s.setPwm n { count := x.count + steps, pre }
    else
      let s := s.pwmWrap n
      let per' := s.reg Pg.pwm 0 (pwmOff n 0)
      s.setPwm n { count := (x.count + steps - (bits per 15 0 + 1)) % (bits per' 15 0 + 1), pre := pre % (bits per' 23 16 + 1) }

/-- `k` fabric cycles of the four PWMs. -/
def State.pwmCycles (s : State) (k : Nat) : State := (List.range 4).foldl (fun s n => s.pwmStep k n) s

/-- A write of PWM_CTRL; with EN at 0 the counter stands at 0 (DESIGN CHOICE, log entry 114). -/
def State.pwmCtrlWrite (s : State) (ini : Initiator) (n : Nat) (v : Word) : State :=
  let s := s.plainWrite ini Pg.pwm 0 (pwmOff n 8) v
  if bit (s.reg Pg.pwm 0 (pwmOff n 8)) 31 then s else s.setPwm n {}

/-- PWM_CNT: the current count. -/
def State.pwmRead (s : State) (off : Nat) : Option Word :=
  if 0x800 ≤ off ∧ off < 0x840 ∧ off % 16 = 12 then some (word (s.pwmCount ((off - 0x800) / 16)).count) else none

/-- The output of PWM `n`: active while it runs and the count is below DUTY; POL 1 makes active low. -/
def State.pwmOut (s : State) (n : Nat) : Bool :=
  let duty := s.reg Pg.pwm 0 (pwmOff n 4)
  (s.pwmRuns n && decide ((s.pwmCount n).count < bits duty 16 0)) != bit duty 31

/-! ### GPIO (R540 to R542) -/

def State.setGpio (s : State) (f : Gpio → Gpio) : State := s.setPer (fun p => { p with gpio := f p.gpio })

/-- GPIO_PAD and the output bit of a pin, as in force: latched while HELD. -/
def State.padOf (s : State) (p : Nat) : Word :=
  if s.per.gpio.held then s.per.gpio.pads.getD p 0 else s.reg Pg.gpio 0 (0x880 + 4 * p)
def State.outOf (s : State) (p : Nat) : Bool :=
  if s.per.gpio.held then bit s.per.gpio.outs p else bit (s.reg Pg.gpio 0 0x800) p

/-- The bank of a pin. -/
def pinBank (p : Nat) : VioBank := if p < 16 then .b else .c

/-- The level at a pin; that of a bank without supply reads 0. -/
def State.pinLevel (s : State) (p : Nat) : Bool :=
  s.supplied (pinBank p) && match bits (s.padOf p) 2 0 with
  | 1 => s.outOf p
  | 2 => s.outOf p && bit s.per.gpio.ins p
  | 3 => Sparse.get false s.mrc.toggles p
  | 4 => s.clk.refEn.isSome
  | _ => bit s.per.gpio.ins p

/-- The edge selection of a pin (R488). -/
def State.edgeSel (s : State) (p : Nat) : Nat :=
  bits (s.reg Pg.mrc 0 (if p < 16 then 0xA08 else 0xA0C)) (2 * (p % 16) + 1) (2 * (p % 16))

/-- What a change does to the pins: selected edges pulse their producers (R484). -/
def State.withPins (s : State) (f : State → State) : State :=
  let t := f s
  (List.range 32).foldl (fun u p =>
    let a := s.pinLevel p
    let b := t.pinLevel p
    if (!a && b && (t.edgeSel p).testBit 0) || (a && !b && (t.edgeSel p).testBit 1) then u.pulse (64 + p) else u) t

/-- `GPIO_EDGE`: the board drives a pin to a level. -/
def execGpioEdge (pin : Nat) (level : Bool) (s : State) : Host.Outcome State Fault Refusal :=
  .next (if 32 ≤ pin then s
    else s.withPins (fun s => s.setGpio (fun g => { g with ins := setBit g.ins pin level })))

/-- A write of GPIO_PAD: modes that the pin does not have raise RANGE (R541). -/
def State.padWrite (s : State) (ini : Initiator) (p : Nat) (v : Word) : State :=
  let off := 0x880 + 4 * p
  let old := s.reg Pg.gpio 0 off
  let m := bits v 2 0
  let badMode := 4 < m ∨ (m = 3 ∧ 8 ≤ p) ∨ (m = 4 ∧ p ≠ 31)
  if s.locked Pg.gpio then s.lockedErr ini Pg.gpio off
  else s.withPins (fun s =>
    let v' := if badMode then setBits v 2 0 (bits old 2 0) else v
    let t := s.plainWrite ini Pg.gpio 0 off v'
    let t := if badMode ∧ bits v 5 4 ≠ 3 then t.raise Pg.gpio ini off 0 Err.range else t
    if !badMode ∧ m = 3 then
      { t with mrc := { t.mrc with toggles := Sparse.set false t.mrc.toggles p (bit (t.reg Pg.gpio 0 0x800) p) } }
    else t)

/-- A write of GPIO_HOLD. -/
def State.holdWrite (s : State) (v : Word) : State :=
  if bit v 0 then s.withPins (fun s => s.setGpio (fun g => { g with held := false, pads := [], outs := 0 })) else s

/-- `GPIO_RELEASE`. -/
def execGpioRelease (ini : Initiator) (s : State) : Host.Outcome State Fault Refusal :=
  .next (s.pageWrite ini Pg.gpio 0x808 1 (fun s => s.holdWrite 1))

/-- PER leaves ON: every pad latches (R542). -/
def State.latchPads (s : State) : State :=
  let pads := (List.range 32).map s.padOf
  let outs := (List.range 32).foldl (fun w p => setBit w p (s.outOf p)) 0
  s.setGpio (fun g => { g with held := true, pads, outs })

/-- The computed registers of the GPIO page. -/
def State.gpioRead (s : State) (off : Nat) : Option Word :=
  match off with
  | 0x804 => some ((List.range 32).foldl (fun w p => setBit w p (s.pinLevel p)) 0)
  | 0x808 => some (word (s.per.gpio.held.toNat * 0x80000000))
  | _ => none

end Sys2Proof.Machine
end

