-- ==== Sys2Proof/Machine/Coding.lean ====
section
/-! DEFINITION. Whitening, the frame check sequences, the convolutional code and its interleaver
(R128 to R130), shared by the lanes, the modulator and the CP2 unit of the cores. Octets are taken least
significant bit first (R118). -/

namespace Sys2Proof.Machine

/-! ### PN9 (R128) -/

/-- One step of the generator with polynomial x^9 + x^5 + 1: the state's bit 0 is the oldest of the nine
last outputs. The new output is the sum of the outputs nine and four steps back. -/
def pn9Step (g : Nat) : Bool × Nat :=
  let o := g.testBit 0 != g.testBit 5
  (o, g / 2 + o.toNat * 256)

/-- `n` outputs as a number, the first in bit 0, and the state after them. -/
def pn9Bits : Nat → Nat → Nat × Nat
  | 0, g => (0, g)
  | n + 1, g =>
    let (o, g) := pn9Step g
    let (v, g) := pn9Bits n g
    (o.toNat + 2 * v, g)

/-- Octets whitened from a generator state on, and the state after them. -/
def pn9 : List Byte → Nat → List Byte × Nat
  | [], g => ([], g)
  | b :: bs, g =>
    let (v, g) := pn9Bits 8 g
    let (bs, g) := pn9 bs g
    ((b ^^^ BitVec.ofNat 8 v) :: bs, g)

/-- The state at the first PSDU bit: all ones. -/
def pn9Seed : Nat := 0x1FF

/-! ### Frame check sequences (R130) -/

/-- One bit of a reflected CRC with polynomial `p` (bit-reversed). -/
def crcBit (p c : Nat) : Nat := if c % 2 = 1 then (c / 2) ^^^ p else c / 2

/-- An octet through a reflected CRC. -/
def crcOctet (p : Nat) (c : Nat) (b : Byte) : Nat :=
  (List.range 8).foldl (fun c _ => crcBit p c) (c ^^^ b.toNat)

/-- CRC-16 with x^16 + x^12 + x^5 + 1, from a starting value, without a final XOR. -/
def crc16 (init : Nat) (bs : List Byte) : Nat := bs.foldl (crcOctet 0x8408) (init % 2 ^ 16)

/-- CRC-32 with the IEEE 802.3 polynomial, from a starting value, without a final XOR. -/
def crc32 (init : Nat) (bs : List Byte) : Nat := bs.foldl (crcOctet 0xEDB88320) (init % 2 ^ 32)

/-- The FCS octets of an MPDU: two with CRC-16, else four with CRC-32, the low octet first. -/
def fcsOf (two : Bool) (mpdu : List Byte) : List Byte :=
  if two then bytesLE 2 (crc16 0 mpdu) else bytesLE 4 (crc32 0xFFFFFFFF mpdu ^^^ 0xFFFFFFFF)

/-- Octets of an FCS. -/
def fcsLen (two : Bool) : Nat := if two then 2 else 4

/-- The PSDU's last octets are the FCS of the rest. -/
def fcsOk (two : Bool) (psdu : List Byte) : Bool :=
  let n := psdu.length - fcsLen two
  fcsLen two ≤ psdu.length && psdu.drop n == fcsOf two (psdu.take n)

/-! ### Convolutional code (R129) -/

/-- The parity of the bits of `v` that `m` selects. -/
def parity (m v : Nat) : Bool := (List.range 7).foldl (fun p k => p != (m.testBit k && v.testBit k)) false

/-- One input bit of the K = 7 code from a six-bit state, the newest earlier bit in bit 5: the outputs of
generators 171 and 133 and the next state. -/
def convStep (st : Nat) (b : Bool) : Bool × Bool × Nat :=
  let w := b.toNat * 64 + st
  (parity 0o171 w, parity 0o133 w, w / 2)

/-- The code bits of an input bit stream, and the state after it. -/
def convBits : List Bool → Nat → List Bool × Nat
  | [], st => ([], st)
  | b :: bs, st =>
    let (x, y, st) := convStep st b
    let (os, st) := convBits bs st
    (x :: y :: os, st)

/-- The bits of octets, least significant first. -/
def bitsOfOctets (bs : List Byte) : List Bool := bs.flatMap (fun b => (List.range 8).map (fun k => b.getLsbD k))

/-- Octets from bits, least significant first, for `n` octets. -/
def octetsOfBits : Nat → List Bool → List Byte
  | 0, _ => []
  | n + 1, l =>
    BitVec.ofNat 8 ((l.take 8).zipIdx.foldl (fun a (b, k) => a + b.toNat * 2 ^ k) 0) :: octetsOfBits n (l.drop 8)

/-- Code bits of a coded stream of a PSDU of `l` octets. -/
def codedBits (l : Nat) : Nat := (2 * (16 + 8 * l + 6) + 255) / 256 * 256

end Sys2Proof.Machine
end

