-- ==== Sys2Proof/Machine/Signal.lean ====
section
/-! DEFINITION. What TXA puts on the air: the frames of the six modes from preamble to last bit, with whitening, the
convolutional code and its interleaver, as symbols, chips or carrier (R117 to R129, R190). -/

namespace Sys2Proof.Machine

/-! ### Fields of PHY_MT_MOD (R137) -/

def mtMode (m : Word) : Nat := bits m 26 24
def mtSf (m : Word) : Nat := bits m 21 20
def mtFmt (m : Word) : Bool := bit m 16
def mtSfd (m : Word) : Bool := bit m 12
def mtFecRx (m : Word) : Nat := bits m 9 8
def mtFecTx (m : Word) : Bool := bit m 3
def mtWhite (m : Word) : Bool := bit m 2
def mtFcsTwo (m : Word) : Bool := bit m 1

/-! ### Bits -/

/-- The `n` low bits of a number, bit 0 first (R118). -/
def bitsUp (n v : Nat) : List Bool := (List.range n).map v.testBit

/-- The `n` low bits of a number, the most significant first. -/
def bitsDown (n v : Nat) : List Bool := (bitsUp n v).reverse

/-! ### Headers (R122 to R125) -/

/-- The SFD of a set, uncoded or coded; its bits are sent most significant first (PRESUMED, log entry 110). -/
def sfdValue (sel coded : Bool) : Nat :=
  match sel, coded with
  | false, false => 0x904E
  | false, true => 0xB2A7
  | true, false => 0x7A0E
  | true, true => 0x59E3

/-- PHR of M0 to M4 for a PSDU of `len` octets: bit 5 is bit 10 of the length. -/
def phrFsk (mod : Word) (len : Nat) : Nat :=
  (mtFcsTwo mod).toNat * 2 ^ 3 + (mtWhite mod).toNat * 2 ^ 4 + ((List.range 11).map (fun k => (len.testBit (10 - k)).toNat * 2 ^ (5 + k))).sum

/-- The sum modulo 2 of the `n` low bits of a number. -/
def evenPar (n v : Nat) : Bool := (bitsUp n v).foldl (· != ·) false

/-- PHR of the long-reach frame, with even parity in bit 15. -/
def phrLong (mod : Word) (len : Nat) : Nat :=
  let v := len % 2 ^ 11 + (mtFcsTwo mod).toNat * 2 ^ 11 + (mtWhite mod).toNat * 2 ^ 12 + mtSf mod * 2 ^ 13
  v + (evenPar 15 v).toNat * 2 ^ 15

/-! ### Coding (R127 to R129) -/

/-- One block of 256 code bits, written by rows of 16 and read by columns. -/
def interleave (l : List Bool) : List Bool := (List.range 256).map (fun j => l.getD (16 * (j % 16) + j / 16) false)

/-- `n` blocks interleaved. -/
def interleaveAll : Nat → List Bool → List Bool
  | 0, _ => []
  | n + 1, l => interleave (l.take 256) ++ interleaveAll n (l.drop 256)

/-- A stream with its tail and pad, encoded and interleaved. -/
def fecBits (l : List Bool) : List Bool :=
  let n := (l.length + 6 + 127) / 128
  interleaveAll n (convBits (l ++ List.replicate (128 * n - l.length) false) 0).1

/-- The PSDU as sent: whitened where DW is 1. -/
def sentPsdu (mod : Word) (psdu : List Byte) : List Byte := if mtWhite mod then (pn9 psdu pn9Seed).1 else psdu

/-- PHR and PSDU as channel bits. -/
def bodyStream (mod : Word) (phr : Nat) (psdu : List Byte) : List Bool :=
  let l := bitsUp 16 phr ++ bitsOfOctets (sentPsdu mod psdu)
  if mtFecTx mod then fecBits l else l

/-! ### Modulation (R117 to R121, R124) -/

/-- What leaves RFTX: symbols of a deviation in Hz at a rate, chips of the two rails, or a carrier keyed on and off
for times in µs. -/
inductive Signal where
  | fsk (rate : Nat) (dev : List Int)
  | oqpsk (i q : List Bool)
  | ook (marks : List (Bool × Nat))
  deriving DecidableEq, Repr

/-- Symbols per second of M0 to M4. -/
def rateOf (m : Nat) : Nat := [2400, 9600, 50000, 150000, 150000].getD m 150000

/-- The deviation of a binary symbol: positive for 1; M4 sends its header on the outer deviations. -/
def binaryDev (mode : Nat) (b : Bool) : Int :=
  let d : Int := (([2400, 4800, 25000, 37500, 75000].getD mode 0 : Nat) : Int)
  if b then d else -d

/-- The deviations of M4's bit pairs. -/
def pairDevs : List Bool → List Int
  | b0 :: b1 :: l => (if b0 then -1 else 1) * (if b1 then 75000 else 25000) :: pairDevs l
  | _ => []

/-- The spreading sequence of a code, its length and value. -/
def spreadSeq (sf : Nat) : Nat × Nat :=
  [(8, 0x2D), (16, 0x3AC6), (32, 0x7A13C65E)].getD sf (64, 0x4F1A92C70D6BE358)
def preambleSeq : Nat := 0x6C3B81F52AD4970E
def sfdSeq : Nat := 0x93D24E0BF5716A8C

/-- A channel bit as chips: the sequence for 0, its inverse for 1. -/
def spread (n v : Nat) (b : Bool) : List Bool := (bitsDown n v).map (· != b)

/-- Chips to the rails: even-numbered ones to I, odd-numbered ones to Q. -/
def toRails : List Bool → List Bool × List Bool
  | [] => ([], [])
  | [c] => ([c], [])
  | c :: d :: l => let (i, q) := toRails l; (c :: i, d :: q)

/-- The chips of a long-reach frame. -/
def longChips (mod : Word) (pre : Nat) (psdu : List Byte) : List Bool :=
  let (n, v) := spreadSeq (mtSf mod)
  (List.replicate pre (spread 64 preambleSeq false)).flatten ++ spread 64 sfdSeq false ++ spread 64 sfdSeq (mtFecTx mod) ++
    (bodyStream mod (phrLong mod psdu.length) psdu).flatMap (spread n v)

/-- The chips of an MR-O-QPSK frame: the standard's own (R126). -/
def standardChips (sf : Nat) (psdu : List Byte) : List Bool :=
  bitsUp (Config.oqpskAir psdu.length sf / 10000) (Config.oqpskChips sf (natOfBytesLE psdu) psdu.length)

/-- A frame as it is sent. -/
def frameSignal (mod : Word) (pre : Nat) (psdu : List Byte) : Signal :=
  let m := mtMode mod
  if m = 5 then
    let (i, q) := toRails (if mtFmt mod then standardChips (mtSf mod) psdu else longChips mod pre psdu)
    .oqpsk i q
  else
    let head := bitsOfOctets (List.replicate pre 0x55) ++ bitsDown 16 (sfdValue (mtSfd mod) (mtFecTx mod))
    let phr := phrFsk mod psdu.length
    if m = 4 then
      .fsk 150000 ((head ++ bitsUp 16 phr).map (binaryDev 4) ++ pairDevs (bitsOfOctets (sentPsdu mod psdu)))
    else .fsk (rateOf m) ((head ++ bodyStream mod phr psdu).map (binaryDev m))

/-- The wake signal: pilot, sync, and the code in Manchester, most significant bit first (R190). -/
def wakeSignal (pilot : Nat) (code : Half) : Signal :=
  .ook ((true, pilot) :: (false, 250) :: (bitsDown 16 code.toNat).flatMap (fun b => [(b, 125), (!b, 125)]))

/-- What a transmission puts on the air. -/
def Burst.signal : Burst → Signal
  | .frame mod pre psdu => frameSignal mod pre psdu
  | .wake pilot code => wakeSignal pilot code

/-- What leaves RFTX while TXA ramps or sends. -/
def State.rfOut (s : State) : List Signal := s.txa.onAir.map Burst.signal

/-! ### The SFD that a lane looks for (R122, R124, R131) -/

/-- Positions in which two numbers of `n` bits differ. -/
def bitErrors (n a b : Nat) : Nat := ((bitsUp n (a ^^^ b)).filter (· == true)).length

/-- Errors of what a lane has seen against the uncoded or the coded SFD of its entry: 16 bits of M0 to M4, or two
halves of 64 chips. -/
def sfdErrors (mod : Word) (coded : Bool) (seen : List Nat) : List Nat :=
  if mtMode mod = 5 then
    (seen.zip [sfdSeq, if coded then 2 ^ 64 - 1 - sfdSeq else sfdSeq]).map (fun (a, b) => bitErrors 64 a b)
  else seen.map (fun a => bitErrors 16 a (sfdValue (mtSfd mod) coded))

end Sys2Proof.Machine
end

