-- ==== Sys2Proof/Machine/Receiver.lean ====
section
/-! DEFINITION. The receiver: channels, lanes, search, the Hopper and its reports, noise floor, blanks and
cuts, and the narrow path (R70 to R116), with the framing rules a lane applies (R117 to R150). -/

namespace Sys2Proof.Machine

/-! ### Power and rounding (R92) -/

/-- A power in hundredths of a dBm in the 8-bit encoding. -/
def encodePower (c : Int) : Nat :=
  let v := (c + 15000 + 25) / 50
  if c < -15000 then 0 else if 254 < v then 254 else v.toNat

/-- The encoding of a power that the part has measured and no command gives: the power is free, its encoding is R92's. -/
def anyPower (v : Word) : Nat := encodePower (signed 16 (bits v 15 0))

/-! ### PHY mode table (R136 to R142) -/

/-- Words of an entry: 0 PHY_MT_MOD, 1 PHY_MT_DET, 2 PHY_MT_TX, 3 PHY_MT_TS. -/
def mtOff (e w : Nat) : Nat := 0x800 + 16 * e + 4 * w

/-- A mode is allowed at a spacing or BW (R73, R113); `pairs` says that M4 may run on channel pairs. -/
def modeAllowed (mode spacing : Nat) (pairs : Bool) : Bool :=
  match spacing with
  | 0 => mode == 0 || mode == 1 || mode == 2 || mode == 3 || mode == 5 || (mode == 4 && pairs)
  | 1 => mode == 0 || mode == 1 || mode == 5
  | 2 => mode ≤ 5
  | _ => false

/-- Slot `b` of a search set: whether it is enabled, and its hypothesis (R78). -/
def slotOn (set : Word) (b : Nat) : Bool := bit set (8 * b + 7)
def slotMode (set : Word) (b : Nat) : Nat := bits set (8 * b + 3) (8 * b)

/-- The detection threshold in 0.25 dB (R138). -/
def threshold (det : Word) (ofs : Nat) : Nat :=
  (clampInt 0 255 ((bits det 31 24 : Nat) + 2 * signed 8 ofs)).toNat

/-! ### Channels and lanes -/

def State.path (s : State) : Nat := s.fieldOf Pg.phy 0 0xB00 1 0
def State.chan (s : State) (n : Nat) : Chan := Sparse.get {} s.recv.chans n
def State.setChan (s : State) (n : Nat) (c : Chan) : State :=
  { s with recv := { s.recv with chans := Sparse.set {} s.recv.chans n c } }
def State.lane (s : State) (k : Nat) : Option Lane := Sparse.get none s.recv.lanes k
def State.setLane (s : State) (k : Nat) (l : Option Lane) : State :=
  { s with recv := { s.recv with lanes := Sparse.set none s.recv.lanes k l } }

/-- The narrow lane's number. -/
abbrev nbLane : Nat := 128

/-- Lanes held, in ascending order, the narrow one last. -/
def State.lanesHeld (s : State) : List Lane := s.recv.lanes.filterMap (·.2)

/-- A lane is held. -/
def State.anyLane (s : State) (p : Lane → Bool) : Bool := s.lanesHeld.any p

/-- The channel is enabled in its running set. -/
def State.chanEn (s : State) (n : Nat) : Bool := bit (s.reg Pg.chz n 0x100) 31

/-- Channels of the running plan. -/
def State.channels (s : State) : List Nat := List.range (s.chcount Pg.chz)

/-- The lane receives an M4 pair at 200 kHz spacing (R87). -/
def Lane.pair (l : Lane) : Bool := l.no != nbLane && mtMode l.mod == 4 && l.path == 0

/-- Channel `n` is paused by its M4 partner's lane. -/
def State.partnerHeld (s : State) (n : Nat) : Bool := n != 0 && s.anyLane (fun l => l.pair && l.chan == n - 1)

/-- A calibration gap, or the failed receive loop, blanks everything (R106, R170). -/
def State.calBlank (s : State) : Bool := s.syn.gap.isSome || s.syn.stuck

/-- A transmit blank covers channel `n`: an M4 pair's lane when either member is blanked (R108). -/
def State.txBlanks (s : State) (n : Nat) : Bool :=
  match s.recv.tx with | some (lo, hi) => (lo ≤ n && n ≤ hi) || s.recv.txPairs.contains n | none => false

def State.blanked (s : State) (n : Nat) : Bool := s.calBlank || s.txBlanks n

/-- A lane is covered by the transmit blank. -/
def State.laneBlanked (s : State) (l : Lane) : Bool :=
  if l.no == nbLane then s.recv.tx.isSome else s.txBlanks l.chan || (l.pair && s.txBlanks (l.chan + 1))

/-- The wideband path receives on channel `n` (R111, R162). -/
def State.wideOn (s : State) (n : Nat) : Bool :=
  s.path == 1 && s.ready Dm.rfe && s.domOn Dm.syn && s.syn.rxLocked && s.ready (s.domainOf Pg.chz n)

/-- The narrow path receives. -/
def State.narrowOn (s : State) : Bool := s.path == 2 && s.ready Dm.rfe && s.domOn Dm.syn && s.syn.rxLocked

/-- A commit forbids new claims: of the plan, the path or the antenna arrangement (R74, R112, R154). -/
def State.claimsHeld (s : State) : Bool :=
  s.commits.any (fun c =>
    (c.page == Pg.chz && s.hasStaged Pg.chz 0 0x800) || (c.page == Pg.phy && s.hasStaged Pg.phy 0 0xB00) ||
    c.page == Pg.rfe)

/-- A channel that is paused, or held by a lane that went, takes up the search again (R85). -/
def State.resumeChan (s : State) (n : Nat) : State :=
  let c := s.chan n
  if c.st = .paused ∧ !s.blanked n ∧ !s.partnerHeld n then
    s.setChan n (if c.blanked then { st := .settling } else { st := .search })
  else s

/-- Lanes held per quarter, in the layout of CHZ_LANES (R83). -/
def State.lanesWord (s : State) : Word :=
  let n := fun q => (s.lanesHeld.filter (fun l => l.no != nbLane && l.no / 32 == q)).length
  word (n 0 + n 1 * 0x100 + n 2 * 0x10000 + n 3 * 0x1000000)

/-- The high-water marks follow (R83). -/
def State.noteLanes (s : State) : State :=
  let w := s.lanesWord
  (List.range 4).foldl (fun s q =>
    let n := bits w (8 * q + 5) (8 * q)
    if s.fieldOf Pg.chz 0 0x814 (8 * q + 5) (8 * q) < n then s.setField Pg.chz 0 0x814 (8 * q + 5) (8 * q) n else s) s

/-- A lane is freed. A channel that it held goes on searching unless `paused` (R85, R87). -/
def State.freeLane (s : State) (l : Lane) (paused : Bool) : State :=
  let s := s.noteLanes.setLane l.no none
  if l.no = nbLane then
    if s.recv.nb.phase = .stopped then s
    else { s with recv := { s.recv with nb := { s.recv.nb with phase := .leaving } } }
  else
    let s := s.setChan l.chan (if !s.chanEn l.chan then {} else if paused then { st := .paused, blanked := true } else { st := .search })
    if l.pair then s.resumeChan (l.chan + 1) else s

/-! ### Commands that name a receive path -/

/-- The channel of a wideband event, or the narrow path's current entry. -/
def RxChan.lane (s : State) : RxChan → Option Lane
  | .wide n => if (s.chan n).st = .claimed ∨ (s.chan n).st = .frame then s.lane (s.chan n).lane else none
  | .narrow => s.lane nbLane

/-! ### Claiming (R82, R83, R85 to R89, R116) -/

/-- A lane as claimed by slot `b`. -/
def State.newLane (s : State) (no chan b : Nat) (set afc : Word) (tail hring : Nat) (lnk crcrep : Bool)
    (path dom ant nf rssi : Nat) : Lane :=
  let e := slotMode set b
  { no, chan, hyp := b, entry := e, mod := s.reg Pg.phy 0 (mtOff e 0), det := s.reg Pg.phy 0 (mtOff e 1)
    ts := s.reg Pg.phy 0 (mtOff e 3), afc, tail, hring, lnk, crcrep, path, epoch := (s.dom dom).epoch.toNat
    ant, antNow := ant, nf, rssi }

/-- The antenna in use on the wideband path (R156). -/
def State.antenna (s : State) : Nat := s.fieldOf Pg.rfe 0 0x804 16 16

/-- The lowest free lane of a quarter. -/
def State.freeLaneOf (s : State) (q : Nat) : Option Nat :=
  ((List.range 32).map (32 * q + ·)).find? (fun k => (s.lane k).isNone)

/-- Slots of a channel that detect: enabled, above the threshold in force (R138). -/
def State.detects (s : State) (n : Nat) (snr : List Nat) : List Nat :=
  let set := s.reg Pg.chz n 0x104
  (List.range 4).filter (fun b => slotOn set b &&
    (match snr[b]? with
     | some v => threshold (s.reg Pg.phy 0 (mtOff (slotMode set b) 1)) (bits (s.reg Pg.chz n 0x100) 7 0) ≤ v
     | none => false))

/-- Slot `b` of channel `n` is an M4 slot on a pair (R87). -/
def State.pairSlot (s : State) (n b : Nat) : Bool :=
  s.spacing == 0 && mtMode (s.reg Pg.phy 0 (mtOff (slotMode (s.reg Pg.chz n 0x104) b) 0)) == 4

/-- Slot `b` of channel `n` claims, or finds no lane. -/
def State.claimWide (s : State) (n b rssi : Nat) : State :=
  let q := s.quarterOf n
  match s.freeLaneOf q with
  | none => (s.count Pg.chz n 0x120 15 0 1).event Pg.chz 0
  | some k =>
    let cfg := s.reg Pg.chz n 0x100
    let l := s.newLane k n b (s.reg Pg.chz n 0x104) (s.reg Pg.chz n 0x108) (bits cfg 21 16) (bits cfg 11 8) (bit cfg 28)
      (bit cfg 29) s.spacing (Dm.chz0 + q) s.antenna (s.fieldOf Pg.chz n 0x110 7 0) rssi
    let s := (s.setLane k (some l)).setChan n { st := .claimed, lane := k, hyp := b }
    let s := (s.count Pg.chz n 0x118 15 0 1).noteLanes
    if l.pair then s.setChan (n + 1) { st := .paused } else s

/-- A detection on a wideband channel (R85, R86, R87). -/
def State.detectWide (s : State) (n : Nat) (snr next : List Nat) (rssi : Nat) : State :=
  let live := fun n => (s.chan n).st == .search && s.enabled Pg.chz && s.wideOn n && !s.claimsHeld
  if !live n then s
  else
    let other := if live (n + 1) then s.detects (n + 1) next else []
    let may := (s.detects n snr).filter (fun b =>
      !s.pairSlot n b || ((s.chan (n + 1)).st == .search && other.isEmpty))
    let pair := (s.detects n snr).any (s.pairSlot n)
    let s := match may with | b :: _ => s.claimWide n b rssi | [] => s
    -- an M4 slot that detects in the same cycle as the partner leaves the claim to it
    if pair then
      match other with | b :: _ => s.claimWide (n + 1) b rssi | [] => s
    else s

/-- A detection on the narrow path: it suspends the dwell (R116). -/
def State.detectNarrow (s : State) (snr : List Nat) (rssi : Nat) : State :=
  let k := s.recv.nb.entry
  let ent := s.reg Pg.phy 0 (0xB20 + 4 * k)
  let set := s.reg Pg.phy 0 0xB14
  let cfg := s.reg Pg.phy 0 0xB18
  if s.recv.nb.phase ≠ .dwell ∨ !s.narrowOn ∨ s.claimsHeld ∨ (s.lane nbLane).isSome ∨ s.calBlank ∨ s.recv.tx.isSome then s
  else
    match (List.range 4).find? (fun b => slotOn set b && bit ent (24 + b) &&
        (match snr[b]? with | some v => threshold (s.reg Pg.phy 0 (mtOff (slotMode set b) 1)) 0 ≤ v | none => false)) with
    | none => s
    | some b =>
      let (v, s) := s.fresh
      let nf := anyPower v
      let l := s.newLane nbLane k b set (s.reg Pg.phy 0 0xB30) (bits cfg 29 24) (bits cfg 19 16) true Config.narrowReports
        (bits ent 29 28) Dm.rfe s.antenna nf rssi
      let s := { s with recv := { s.recv with nb := { s.recv.nb with floor := some nf } } }
      (s.setLane nbLane (some l)).event Pg.phy 2

/-- `SLOT_DETECT`: the correlators of a channel reach `snr` per slot, in 0.25 dB, and those of the next
channel `next` in the same cycle; `power` is the channel's, in hundredths of a dBm (R83, R85 to R87, R116). -/
def execSlotDetect (rx : RxChan) (snr next : List Nat) (power : Int) (s : State) : Host.Outcome State Fault Refusal :=
  .next (match rx with
    | .wide n => s.detectWide n snr next (encodePower power)
    | .narrow => s.detectNarrow snr (encodePower power))

/-! ### SFD: the AFC freezes and the stamp is taken (R89, R91, R131, R147 to R150) -/

/-- Errors of an SFD that a lane accepts: one of the 16 bits, or 8 of the chips of each half of a long-reach SFD. -/
def sfdAccepted (mod : Word) (errs : List Nat) : Bool :=
  if mtMode mod = 5 then errs.length == 2 && errs.all (· ≤ 8) else match errs with | [e] => e ≤ 1 | _ => false

/-- Whether the frame is coded, where a lane accepts what it has seen as an SFD (R122, R124, R131, R137). Of MR-O-QPSK the
standard's own test is the environment's: what it has accepted is not empty. -/
def sfdVerdict (mod : Word) (seen : List Nat) : Option Bool :=
  let plain := sfdErrors mod false seen
  let coded := sfdErrors mod true seen
  let p := mtFecRx mod != 2 && sfdAccepted mod plain
  let c := mtFecRx mod != 1 && sfdAccepted mod coded
  if mtMode mod = 5 ∧ mtFmt mod then (if seen.isEmpty then none else some true)
  else if p && c then some (decide (coded.sum < plain.sum)) else if p then some false else if c then some true else none

/-- The frozen offset in Hz, and whether the clamp acted (R89). -/
def afcFreeze (afc : Word) (hz : Int) : Int × Bool :=
  let f : Int := signed 12 (bits afc 11 0) * 25
  let p : Int := (bits afc 23 16 : Nat) * 1000
  if !bit afc 31 then (f, false)
  else (clampInt (f - p) (f + p) hz, decide (hz ≤ f - p) || decide (f + p ≤ hz))

/-- D_PATH and D_FILT in ns (R148, R149). -/
def dPath (l : Lane) : Nat :=
  if l.no = nbLane then [6250, 11500, 3750].getD l.path 0 else [9000, 17500, 5000].getD l.path 0
def dFilt (l : Lane) : Nat :=
  match mtMode l.mod with
  | 0 => 625000 | 1 => 156250 | 2 => 30000 | 3 => 10000
  | 4 => if l.pair then 12500 else 10000
  | _ => 15000

/-- The present instant of TIM in ns. -/
def State.nowNs (s : State) : Nat := s.tim.sec * 1000000000 + s.tim.ns

/-- The corrected stamp in ns for a peak that lies `back` ps before now (R91, R147, R150). -/
def State.rxStamp (s : State) (l : Lane) (back : Nat) : Nat :=
  let ps : Int := (s.nowNs * 1000 : Nat) - back
  let raw : Int := (ps + 25000) / 50000 * 50
  let board := if l.ant = 1 then s.fieldOf Pg.phy 0 0xC00 31 16 else s.fieldOf Pg.phy 0 0xC00 15 0
  ((raw - dPath l - dFilt l - board + signed 16 (bits l.ts 15 0)) % (2 ^ 48 * 1000000000)).toNat

/-- `SFD_FOUND`: the claimed lane sees `seen` where it looks for an SFD: its 16 bits, or the chips of its halves; with an
estimate of `hz` from the channel centre, its peak `back` ps ago, and `power` since the claim. -/
def execSfdFound (rx : RxChan) (seen : List Nat) (hz : Int) (back : Nat) (power : Int) (s : State) :
    Host.Outcome State Fault Refusal :=
  .next (match RxChan.lane s rx with
    | none => s
    | some l =>
      if l.frame then s
      else match sfdVerdict l.mod seen with
      | none => s
      | some c =>
        let (f, lim) := afcFreeze l.afc hz
        let fe := unsigned 16 (inSteps 89 10 f)
        let t := s.rxStamp l back
        let l := { l with frame := true, coded := c, freqErr := fe, afcLimit := lim, rssi := encodePower power
                          sec := t / 1000000000, ns := t % 1000000000, slewAt := s.tim.slewed }
        let s := s.setLane l.no (some l)
        match rx with
        | .wide n => (s.setReg Pg.chz n 0x114 (word fe)).setChan n { s.chan n with st := .frame }
        | .narrow => s.setReg Pg.phy 0 0xB34 (word fe))

/-- SFD_TMO symbols after the preamble without an SFD (R85, R144). -/
def State.sfdTimeout (s : State) (rx : RxChan) : State :=
  match RxChan.lane s rx with
  | none => s
  | some l =>
    if l.frame then s
    else
      let s := s.freeLane l false
      if l.no = nbLane then s else s.count Pg.chz l.chan 0x11C 15 0 1

/-! ### Hopper rings (R96 to R100) -/

def hrOff (h o : Nat) : Nat := 0x900 + 0x20 * h + o
def State.hr (s : State) (h o : Nat) : Word := s.reg Pg.phy 0 (hrOff h o)
def State.hrSize (s : State) (h : Nat) : Nat := 2 ^ bits (s.hr h 4) 3 0
def State.hrSlot (s : State) (h : Nat) : Nat := 2 ^ bits (s.hr h 4) 11 8
def State.hrProd (s : State) (h : Nat) : Nat := bits (s.hr h 8) 10 0
def State.hrCons (s : State) (h : Nat) : Nat := bits (s.hr h 12) 10 0

/-- A ring in the DRAM window is a DRAM ring (R97). -/
def State.hrDram (s : State) (h : Nat) : Bool := 0x80000000 ≤ (s.hr h 0).toNat

/-- Frames that hold slots of a ring: in lanes, and with LNK. -/
def State.slotHolders (s : State) (h : Nat) : List (Nat × Nat) :=
  ((s.lanesHeld ++ s.recv.queue.map (·.lane)).filter (fun l => l.hring == h)).filterMap (·.slots)

/-- Slots in use, from CONS to the end of the last reservation. -/
def State.hrUsed (s : State) (h : Nat) : Nat :=
  let m := 2 * s.hrSize h
  let d := fun p => subMod m p (s.hrCons h)
  (s.slotHolders h).foldl (fun a r => max a (d r.1 + r.2)) (d (s.hrProd h))

/-- FREE. -/
def State.hrFree (s : State) (h : Nat) : Nat := s.hrSize h - s.hrUsed h

/-- HR_LOW is evaluated after a reservation or a release (R97). -/
def State.hrLow (s : State) (h : Nat) : State :=
  let m := bits (s.hr h 4) 23 16
  if m ≠ 0 ∧ s.hrFree h < m then s.event Pg.phy 1 else s

/-- The Hopper drops a frame (R100). -/
def State.dropFrame (s : State) (l : Lane) : State :=
  let s := (s.count Pg.phy 0 (hrOff l.hring 0x10) 15 0 1).event Pg.phy 0
  let s := { s with recv := { s.recv with drops := Sparse.set false s.recv.drops l.hring true } }
  s.setLane l.no (some { l with dropped := true, chunks := [] })

/-- The lowest chunk of the staging pool that no lane and no waiting frame holds (R99; which one a lane takes is a
DESIGN CHOICE, log entry 109). -/
def State.freeChunk (s : State) : Option Nat :=
  let held := (s.lanesHeld ++ s.recv.queue.map (·.lane)).flatMap (·.chunks)
  (List.range (s.fieldOf Pg.phy 0 0xB08 10 0)).find? (fun k => !held.contains k)

/-- Octets that wait for the ring stand in the lane's chunks (R99). -/
def State.toChunks (s : State) (l : Lane) : State :=
  l.chunks.zipIdx.foldl (fun s (c, j) =>
    let a := (s.reg Pg.phy 0 0xB04).toNat + 256 * c
    let bs := (l.data.drop (l.copied + 256 * j)).take 256
    match s.rangeStatus a 256 with
    | .ready => (s.putOctets a bs).1
    | .stall d => ((s.wake d).putOctets a bs).1
    | _ => s) s

/-- Where octet `k` of a frame's PSDU lies in its ring, and the room from there to the ring's end (R98). -/
def State.ringAt (s : State) (h first k : Nat) : Nat × Nat :=
  let size := s.hrSize h * s.hrSlot h
  let ofs := ((first % s.hrSize h) * s.hrSlot h + k) % size
  ((s.hr h 0).toNat + ofs, size - ofs)

/-- How the slots answer a write of `n` octets from octet `k` on. -/
def State.ringStatus (s : State) (h first k n : Nat) : MemStatus :=
  let (a, room) := s.ringAt h first k
  match s.rangeStatus a (min n room) with
  | .ready => if room < n then s.rangeStatus (s.hr h 0).toNat (n - room) else .ready
  | m => m

/-- Octets placed in a frame's slots from octet `k` of its PSDU on; the ring wraps. -/
def State.ringPlace (s : State) (h first k : Nat) (bs : List Byte) : State × EccSum :=
  let (a, room) := s.ringAt h first k
  let (s, e) := s.putOctets a (bs.take room)
  if room < bs.length then
    let (s, e') := s.putOctets (s.hr h 0).toNat (bs.drop room)
    (s, { e with migrated := e.migrated || e'.migrated })
  else (s, e)

/-- What has been decoded and not yet written goes to the frame's slots, and its chunks are free. A write that has to
wait for a domain leaves the frame as it is, with `false`, unless it `must` be done now; one that is refused is lost
(R99, R102). -/
def State.spill (s : State) (l : Lane) (upTo : Nat) (must : Bool) : State × Lane × Bool :=
  match l.slots with
  | none => (s, l, true)
  | some (first, _) =>
    let bs := (l.data.drop l.copied).take (upTo - l.copied)
    if bs.isEmpty then (s, l, true)
    else
      let done := { l with copied := upTo, chunks := l.chunks.drop ((bs.length + 255) / 256) }
      let place := fun (s : State) =>
        let (s, e) := s.ringPlace l.hring first l.copied bs
        (s, { done with stored := l.stored + bs.length, migrated := l.migrated || e.migrated }, true)
      match s.ringStatus l.hring first l.copied bs.length with
      | .ready => place s
      | .stall d => if must then place (s.wake d) else (s.wake d, l, false)
      | _ => (s, { done with failed := l.failed || s.hrDram l.hring }, true)

/-- Octets as decoded from the air join the frame, de-whitened where DW is set (R128). -/
def Lane.take (l : Lane) (bs : List Byte) : Lane :=
  let room := l.len.getD 0 - l.data.length
  let bs := bs.take room
  let bs := if l.white then ((pn9 (List.replicate l.data.length 0 ++ bs) pn9Seed).1).drop l.data.length else bs
  { l with data := l.data ++ bs }

/-! ### Reports (R101 to R105) -/

/-- A WARN bit is set. -/
def Lane.warn (l : Lane) : Bool := l.afcLimit || l.gainStep || l.clip

/-- The report of a frame; DROPPED is taken at posting (R101). -/
def RxFrame.report (f : RxFrame) (size : Nat) (prod : Nat) (dropped : Bool) : Report :=
  let l := f.lane
  let narrow := l.no == nbLane
  { unit := if narrow then Pg.phy else Pg.chz, tail := l.tail, status := f.status
    tag := word (l.hring * 0x10000000 + l.hyp * 0x4000000 + l.entry * 0x400000 + (if narrow then 0 else l.no) * 0x8000 +
      (if narrow then 0x100 + l.chan else l.chan))
    actual := l.stored, ns := l.ns, sec := l.sec, frame := true
    rep6 := word (l.rssi * 0x1000000 + l.nf * 0x10000 + l.freqErr)
    rep7 := word ((if f.status = Sc.mediaUncorrectable then f.cause else 0) * 0x10000000 + l.clip.toNat * 0x4000000 +
      l.gainStep.toNat * 0x2000000 + l.afcLimit.toNat * 0x1000000 + f.lqi * 0x10000 + f.fec * 0x100 + l.ant * 2 + dropped.toNat)
    index := (match l.slots with | some (p, _) => p | none => prod) % size
    epoch := some l.epoch }

/-- PROD advances past a frame's slots (R98). -/
def State.hrAdvance (s : State) (l : Lane) : State :=
  match l.slots with
  | none => s
  | some (p, n) =>
    let m := 2 * s.hrSize l.hring
    let cons := s.hrCons l.hring
    if subMod m (s.hrProd l.hring) cons < subMod m p cons + n then
      s.setReg Pg.phy 0 (hrOff l.hring 8) (word ((p + n) % m))
    else s

/-- Frame reports that wait for room on their tailraces (R105). -/
def State.hopperWaits (s : State) : Nat := (s.flm.waiting.filter (fun r => r.frame && !s.trRoom r.tail)).length

/-- The report of a frame goes to the Hopper's store, or is dropped where that is full; its slots stay (R98, R105).
Receive windows count it (R223). -/
def State.postFrame (s : State) (f : RxFrame) : State :=
  let h := f.lane.hring
  let r := f.report (s.hrSize h) (s.hrProd h) (Sparse.get false s.recv.drops h)
  let wins := s.lnk.wins.map (fun w : RxWin => { w with count := w.count + 1 })
  let s : State := { s with lnk := { s.lnk with wins } }
  let s := if 256 ≤ s.hopperWaits then s.countDrop r.tail
    else { s with recv := { s.recv with drops := Sparse.set false s.recv.drops h false } }.report r
  s.hrAdvance f.lane

/-- The frame is passed to LNK before posting (R103). -/
def RxFrame.toLnk (f : RxFrame) : Bool := f.lane.lnk && trust f.status

/-- Octets of the frame still wait for their slots. -/
def RxFrame.waits (f : RxFrame) : Bool := f.lane.slots.isSome && decide (f.lane.copied < f.lane.data.length)

/-- What the writes of a frame's last octets make of its status (R102). -/
def RxFrame.restatus (f : RxFrame) (l : Lane) : Nat :=
  if l.failed && f.status != Sc.abortedDomainOff && f.status != Sc.abortedReset && f.status != Sc.abortedCal then Sc.channelFailed
  else if l.migrated && (f.status == Sc.doneZero || f.status == Sc.doneWarn || f.status == Sc.done) then Sc.rankMigrated
  else f.status

/-- The last octets of a frame go to its slots, unless they must wait. -/
def State.settleFrame (s : State) (f : RxFrame) (must : Bool) : State × RxFrame :=
  if f.waits then
    let (s, l, _) := s.spill f.lane f.lane.data.length must
    (s, { f with lane := l, status := f.restatus l })
  else (s, f)

/-- The frames of the queue are written where their memory answers. -/
def State.settleFrames (s : State) (must : Bool) : List RxFrame → State × List RxFrame
  | [] => (s, [])
  | f :: fs =>
    let (s, f) := s.settleFrame f must
    let (s, fs) := s.settleFrames must fs
    (s, f :: fs)

/-- Frames at the head of the queue that are written and do not pass through LNK are posted (R103, R104). -/
def State.flushFrames (s : State) : List RxFrame → State
  | [] => { s with recv := { s.recv with queue := [] } }
  | f :: fs =>
    if f.waits ∨ f.toLnk then { s with recv := { s.recv with queue := f :: fs } }
    else flushFrames ({ s with recv := { s.recv with queue := fs } }.postFrame f) fs

/-- The queue goes on as far as it can. -/
def State.flushQueue (s : State) : State :=
  let (s, q) := s.settleFrames false s.recv.queue
  s.flushFrames q

/-- A frame is handed over when its lane is released (R104). -/
def State.handOver (s : State) (f : RxFrame) : State :=
  { s with recv := { s.recv with queue := s.recv.queue ++ [f] } }.flushQueue

/-- LQI from ten times the SNR in dB, and FEC_CORR (R101). -/
def lqiOf (snr10 : Int) : Nat := (clampInt 0 255 snr10).toNat
def fecOf (l : Lane) (corr : Nat) : Nat := if l.coded then min corr 255 else 0

/-- The status of a frame that ends by itself (R102). -/
def Lane.status (l : Lane) (crc : Bool) : Nat :=
  if l.failed then Sc.channelFailed
  else if !crc then Sc.mediaUncorrectable
  else if l.migrated then Sc.rankMigrated
  else if l.len = some 0 then Sc.doneZero
  else if l.warn then Sc.doneWarn
  else Sc.done

/-! ### PHR (R98, R123, R125, R126, R132) -/

/-- LENGTH of the SUN FSK PHR, whose bit 5 is bit 10 of the length. -/
def fskLength (p : Half) : Nat := ((List.range 11).map (fun k => (bit p (5 + k)).toNat * 2 ^ (10 - k))).sum

/-- Length, FCS and DW of a PHR, where it is valid before the length rule. -/
def phrFields (l : Lane) (p : Phr) : Option (Nat × Bool × Bool) :=
  match p with
  | .bits w =>
    if mtMode l.mod = 5 then
      let par := (List.range 15).foldl (fun a k => a != bit w k) false
      if par != bit w 15 ∨ bits w 14 13 ≠ mtSf l.mod then none else some (bits w 10 0, bit w 11, bit w 12)
    else if bit w 0 then none else some (fskLength w, bit w 3, bit w 4)
  | .standard valid len => if valid then some (len, false, false) else none

/-- The receive length rule (R132). -/
def lengthOk (l : Lane) (len : Nat) (two : Bool) : Bool :=
  len == 0 || (fcsLen two ≤ len && len ≤ bits l.det 10 0)

/-- A frame that a lane ends is released: counted, reported or its slots returned (R85, R102). -/
def State.endFrame (s : State) (l : Lane) (crc : Bool) (cause lqi fec : Nat) : State :=
  let s := s.freeLane l false
  let s := if !crc ∧ l.no ≠ nbLane then s.count Pg.chz l.chan 0x11C 31 16 1 else s
  if l.dropped ∨ (!crc ∧ !l.crcrep) then s
  else s.handOver { lane := l, status := l.status crc, cause, lqi, fec }

/-- The Hopper reserves slots, or drops the frame (R98 to R100). -/
def State.reserve (s : State) (l : Lane) (len : Nat) : State :=
  let h := l.hring
  let n := (len + s.hrSlot h - 1) / s.hrSlot h
  let dram := s.hrDram h
  if s.hrFree h < n ∨ (dram ∧ s.freeChunk.isNone) then s.dropFrame l
  else
    let p := (s.hrCons h + s.hrUsed h) % (2 * s.hrSize h)
    (s.setLane l.no (some { l with slots := some (p, n), chunks := if dram then s.freeChunk.toList else [] })).hrLow h

/-- The PHR is decided, with the measurements of a frame that ends here. -/
def State.phrDecode (s : State) (rx : RxChan) (phr : Phr) (snr10 : Int) (corr : Nat) : State :=
  match RxChan.lane s rx with
  | none => s
  | some l =>
    if !l.frame ∨ l.len.isSome then s
    else match phrFields l phr with
    | none => s.endFrame l false 2 (lqiOf snr10) (fecOf l corr)
    | some (len, two, white) =>
      if !lengthOk l len two then s.endFrame l false 2 (lqiOf snr10) (fecOf l corr)
      else
        let l := { l with len := some len, fcs2 := two, white }
        if len = 0 then s.endFrame l true 0 (lqiOf snr10) (fecOf l corr)
        else s.reserve l len

/-- A lane copies its full chunks to the ring, and takes a chunk for what follows; it drops the frame where it finds
none, or would hold a third (R99, R100). -/
def State.copyChunks (s : State) (l : Lane) : State :=
  let s := s.toChunks l
  let (s, l, _) := s.spill l l.data.length false
  let s := s.setLane l.no (some l)
  if 256 * l.chunks.length ≤ l.data.length - l.copied then
    match s.freeChunk with
    | some k => if l.chunks.length < 2 then s.setLane l.no (some { l with chunks := l.chunks ++ [k] }) else s.dropFrame l
    | none => s.dropFrame l
  else s

/-- `HOPPER_CHUNK_COPY`: the next 256 octets of a frame fill a chunk, and full chunks are copied to a DRAM ring; those of
frames that wait in the queue too (R99, R100). -/
def execHopperChunkCopy (rx : RxChan) (octets : List Byte) (flips : List Flip) (s : State) : Host.Outcome State Fault Refusal :=
  let s := (s.applyFlips flips).flushQueue
  .next (match RxChan.lane s rx with
    | none => s
    | some l =>
      if l.dropped ∨ l.slots = none ∨ !s.hrDram l.hring then s
      else
        let l := l.take (octets.take 256)
        if l.data.length % 256 ≠ 0 ∨ l.len.getD 0 ≤ l.data.length then s else s.copyChunks l)

/-- The last PSDU bit is decoded: the CRC is checked and the lane released; the Hopper writes what remains (R85, R98,
R99, R102, R127, R130). -/
def State.frameEnd (s : State) (rx : RxChan) (octets : List Byte) (snr10 : Int) (corr : Nat) : State :=
  match RxChan.lane s rx with
  | none => s
  | some l =>
    match l.len with
    | none => s
    | some len =>
      let l := l.take octets
      let l := { l with data := padTo len l.data }
      (s.toChunks l).endFrame l (fcsOk l.fcs2 l.data) 1 (lqiOf snr10) (fecOf l corr)

/-! ### Cuts (R102, R106, R108, R110) -/

/-- What the air has brought to a lane that is cut. -/
def airOf (air : List Air) (no : Nat) : Air := (air.find? (·.lane == no)).getD { lane := no, octets := [], snr10 := 0, corr := 0 }

/-- A lane is released without a report (R85). -/
def State.releaseLane (s : State) (l : Lane) (paused : Bool) : State :=
  let s := s.freeLane l paused
  if l.no = nbLane then s else s.count Pg.chz l.chan 0x11C 15 0 1

/-- Octets that count as decoded at a cut: whole blocks where the frame is coded (R102). -/
def decodedOctets (l : Lane) (n : Nat) : Nat :=
  if !l.coded then n else
  let blocks := (2 * (16 + 8 * n)) / 256
  if l.len.getD 0 ≤ n then n else (128 * blocks - 16) / 8

/-- A frame is cut with a status: its decoded octets go to its slots, and it is reported (R102). -/
def State.cutLane (s : State) (l : Lane) (a : Air) (status cause : Nat) (paused : Bool) : State :=
  let l := l.take a.octets
  let l := { l with data := l.data.take (max l.copied (decodedOctets l l.data.length)) }
  let s := (s.toChunks l).freeLane l paused
  if l.dropped then s
  else s.handOver { lane := l, status := if status = Sc.mediaUncorrectable ∧ l.failed then Sc.channelFailed else status
                    cause, lqi := lqiOf a.snr10, fec := fecOf l a.corr }

/-- Lanes with a property are released in CLAIMED and then cut in FRAME, in ascending order. -/
def State.cutLanes (s : State) (p : Lane → Bool) (air : List Air) (status cause : Nat) (paused : Bool) : State :=
  let ls := s.lanesHeld.filter p
  let s := (ls.filter (fun l => !l.frame)).foldl (fun s l => s.releaseLane l paused) s
  (ls.filter (·.frame)).foldl (fun s l => s.cutLane l (airOf air l.no) status cause paused) s

/-- Every enabled channel that satisfies `p` pauses under a blank. -/
def State.pauseChans (s : State) (p : Nat → Bool) : State :=
  s.channels.foldl (fun s n =>
    if p n ∧ s.chanEn n ∧ (s.chan n).st ≠ .disabled then s.setChan n { st := .paused, blanked := true } else s) s

/-- Disabled channels that satisfy `p` have a filter history to refill before they can be measured (R77, R216). -/
def State.unsettle (s : State) (p : Nat → Bool) : State :=
  let ns := s.channels.filter (fun n => p n && !s.chanEn n && !s.recv.unsettled.contains n)
  { s with recv := { s.recv with unsettled := s.recv.unsettled ++ ns } }

/-- Channels whose blank has ended pass through SETTLING (R77, R85). -/
def State.unblank (s : State) : State := s.channels.foldl (fun s n => s.resumeChan n) s

/-- The narrow path stops what it does: no dwell runs. -/
def State.nbHalt (s : State) : State := { s with recv := { s.recv with nb := { s.recv.nb with phase := .stopped } } }

/-- The radio is taken from what LNK listens for: an open beacon window will not count as missed, and an own sample
in progress is skipped (R234, R235). -/
def State.displaceUses (s : State) : State :=
  let s := if s.lnk.bcnEnd.isSome then { s with lnk := { s.lnk with bcnShut := true } } else s
  if s.recv.nb.use = .sample ∧ s.recv.nb.phase ≠ .stopped then (s.count Pg.lnk 0 0x850 7 0 1).nbHalt else s

/-- The receiver goes deaf for a gap, or after the receive loop's second failure (R106, R170). -/
def State.deafen (s : State) (air : List Air) : State :=
  ((s.cutLanes (fun _ => true) air Sc.abortedCal 0 true).pauseChans (fun _ => true)).unsettle (fun _ => true)

/-- TXA neither ramps nor sends. -/
def State.txaQuiet (s : State) : Bool := s.txa.st != .rampUp && s.txa.st != .send && s.txa.st != .rampDown

/-- `TX_BLANK_START`'s effect: channels `lo` to `hi` and the narrow path (R108). -/
def State.blankStart (s : State) (lo hi : Nat) (air : List Air) : State :=
  let s := { s with recv := { s.recv with tx := some (lo, hi), txPairs := [] } }
  let pairs := (s.lanesHeld.filter (fun l => l.pair && s.laneBlanked l)).flatMap (fun l => [l.chan, l.chan + 1])
  let s := { s with recv := { s.recv with txPairs := pairs } }
  let n := s.lanesHeld.filter (fun l => s.laneBlanked l && l.frame && l.no != nbLane)
  let s := n.foldl (fun s l => s.count Pg.chz l.chan 0x120 31 16 1) s
  let s := s.cutLanes s.laneBlanked air Sc.mediaUncorrectable 3 true
  (s.pauseChans (fun n => s.txBlanks n)).unsettle (fun n => s.txBlanks n)

/-- The blank ends (R108, R85). -/
def State.blankEnd (s : State) : State :=
  ({ s with recv := { s.recv with tx := none, txPairs := [] } }).unblank

/-- A quarter leaves ON: its lanes are released and cut, and its channels wait for samples (R110, R77). -/
def State.quarterLeaves (s : State) (q : Nat) (air : List Air) : State :=
  let s := (s.cutLanes (fun l => l.no != nbLane && l.no / 32 == q) air Sc.abortedDomainOff 0 false).unsettle (fun n => s.quarterOf n == q)
  s.channels.foldl (fun s n => if s.quarterOf n = q ∧ s.chanEn n then s.setChan n { st := .settling } else s) s

/-- Frames of a quarter, or of every lane, are still to be posted (R110). -/
def State.framesUnposted (s : State) (q : Option Nat) : Bool :=
  match q with
  | none => !s.recv.queue.isEmpty || s.flm.waiting.any (·.frame)
  | some q => s.recv.queue.any (fun f => f.lane.no != nbLane && f.lane.no / 32 == q) ||
      s.flm.waiting.any (fun r => r.frame && r.unit == Pg.chz && bits r.tag 21 15 / 32 == q)

/-- RFE leaves ON: every lane is released or cut, and every channel waits for samples (R110, R77). -/
def State.rfeLeaves (s : State) (air : List Air) : State :=
  let s := (s.cutLanes (fun _ => true) air Sc.abortedDomainOff 0 false).nbHalt.unsettle (fun _ => true)
  s.channels.foldl (fun s n => if s.chanEn n then s.setChan n { st := .settling } else s) s

/-- A quarter enters ON: its enabled channels start in SETTLING (R77). -/
def State.quarterOn (s : State) (q : Nat) : State :=
  let s := s.unsettle (fun n => s.quarterOf n == q)
  s.channels.foldl (fun s n =>
    if s.quarterOf n = q ∧ s.chanEn n then
      s.setChan n (if s.blanked n then { st := .paused, blanked := true } else { st := .settling })
    else s) s

/-! ### Settling, noise floor (R77, R93 to R95) -/

/-- `SETTLING_DONE`: the filter history is full and 32 channel samples have passed (R77, R163). -/
def execSettlingDone (channel : Nat) (s : State) : Host.Outcome State Fault Refusal :=
  .next (
    if !s.wideOn channel then s
    else
      let s := { s with recv := { s.recv with unsettled := s.recv.unsettled.filter (· != channel) } }
      if (s.chan channel).st = .settling ∧ s.enabled Pg.chz then s.setChan channel { st := .search } else s)

/-- `NF_WINDOW_END`: a noise-floor window of a channel ends, with `idle` samples of mean power `power` (R93). -/
def execNfWindowEnd (channel idle : Nat) (power : Int) (s : State) : Host.Outcome State Fault Refusal :=
  .next (
    if !(s.chanEn channel && s.enabled Pg.chz && s.wideOn channel) then s
    else
      let s := { s with recv := { s.recv with nfAt := some (s.tim.sec, s.tim.ns) } }
      let w := s.reg Pg.chz channel 0x110
      let win := s.fieldOf Pg.chz 0 0x804 3 0
      if idle < 2 ^ (win - 2) then s.setReg Pg.chz channel 0x110 (incField w 31 24 1)
      else s.setReg Pg.chz channel 0x110 (word (encodePower power)))

/-- The octet of a channel in a snapshot (R95). -/
def State.snapOctet (s : State) (n : Nat) : Byte :=
  let c := s.reg Pg.chz n 0x100
  let f := s.reg Pg.chz n 0x110
  if bit c 31 && bit c 30 && bits f 31 24 == 0 then BitVec.ofNat 8 (bits f 7 0) else 0xFF

/-- `NF_SNAPSHOT`: PERIOD_MS after the last one, a snapshot is written and reported (R95). -/
def execNfSnapshot (s : State) : Host.Outcome State Fault Refusal :=
  .next (
    let cfg := s.reg Pg.chz 0 0x804
    if bits cfg 23 8 = 0 ∨ !s.domOn Dm.chz0 ∨ !pagePresent s.variant Pg.chz then s
    else
      let a := (s.reg Pg.chz 0 0x808).toNat + (if s.recv.snapSecond then 0x100 else 0)
      let bs := s.channels.map s.snapOctet
      match s.unitWrite a bs with
      | (s, .waits) => s
      | (s, _) =>
        let n := s.recv.snapSeq
        let s := { s with recv := { s.recv with snapSeq := n + 1, snapSecond := !s.recv.snapSecond } }
        let s := s.event Pg.chz 1
        if bit cfg 31 then
          let r : Report := { unit := Pg.chz, tail := bits cfg 29 24, status := Sc.done, tag := word n, actual := bs.length
                              ns := (s.recv.nfAt.getD (0, 0)).2, sec := (s.recv.nfAt.getD (0, 0)).1, rep6 := word a }
          s.report r
        else s)

/-! ### Register writes of the Hopper and the narrow path -/

/-- A write of PHY_HR_CONS (R97). -/
def State.hrConsWrite (s : State) (h : Nat) (v : Word) : State :=
  (s.setReg Pg.phy 0 (hrOff h 12) (v &&& 0x7FF)).hrLow h

/-- `HR_CONS_WRITE`. -/
def execHrConsWrite (ini : Initiator) (ring : Nat) (value : Word) (s : State) : Host.Outcome State Fault Refusal :=
  .next (if 16 ≤ ring then s else s.pageWrite ini Pg.phy (hrOff ring 12) value (fun s => s.hrConsWrite ring value))

/-- A write of PHY_HR_CFG (R97, R18). -/
def State.hrCfgWrite (s : State) (ini : Initiator) (h : Nat) (v : Word) : State :=
  let off := hrOff h 4
  let old := s.hr h 4
  let m : Word := word (fld 31 31 + fld 23 16 + fld 11 8 + fld 3 0)
  if s.locked Pg.phy then s.lockedErr ini Pg.phy off
  else if bit old 31 then s.setReg Pg.phy 0 off ((old &&& 0xF0F) ||| (v &&& 0x80FF0000))
  else if !bit v 31 then s.setReg Pg.phy 0 off (v &&& m)
  else if bits v 11 8 < 7 ∨ 11 < bits v 11 8 ∨ bits v 3 0 < 4 ∨ 10 < bits v 3 0 then
    (s.setReg Pg.phy 0 off (setBit (v &&& m) 31 false)).raise Pg.phy ini off 0 Err.enableRefused
  else
    ((s.setReg Pg.phy 0 off (v &&& m)).setReg Pg.phy 0 (hrOff h 8) 0).setReg Pg.phy 0 (hrOff h 12) 0

/-- A write of PHY_HR_BASE, held while the ring is enabled (R97, R18). -/
def State.hrBaseWrite (s : State) (ini : Initiator) (h : Nat) (v : Word) : State :=
  if s.locked Pg.phy then s.lockedErr ini Pg.phy (hrOff h 0)
  else if bit (s.hr h 4) 31 then s
  else s.setReg Pg.phy 0 (hrOff h 0) (v &&& 0xFFFFFF80)

/-- `HOPPER_RING_ENABLE`: a write of PHY_HR_CFG. -/
def execHopperRingEnable (ini : Initiator) (ring : Nat) (value : Word) (s : State) : Host.Outcome State Fault Refusal :=
  .next (if 16 ≤ ring then s else s.pageWrite ini Pg.phy (hrOff ring 4) value (fun s => s.hrCfgWrite ini ring value))

/-- Narrow entries in the list: enabled, with a slot to run. -/
def State.nbListed (s : State) (k : Nat) : Bool := bit (s.reg Pg.phy 0 (0xB20 + 4 * k)) 31

/-- The receive loop is tuned anew. After a second failure it makes no attempt of its own (R170). -/
def State.rxRetune (s : State) : State :=
  { s with syn := { s.syn with rxLocked := false, rxFails := if s.syn.stuck then s.syn.rxFails else 0 } }

/-- The narrow path starts a dwell of `dwell` µs on entry `k`, retuning where another entry was in use (R115). -/
def State.nbGo (s : State) (k mask : Nat) (use : NbUse) (dwell : Option Nat) : State :=
  let retune := s.recv.nb.entry != k || !s.syn.rxLocked
  let s := if retune then s.rxRetune else s
  { s with recv := { s.recv with nb := { phase := if retune then .retune else .dwell, entry := k, use, mask, dwell } } }

/-- The dwell of the list, and of a search, in µs (R114, R234). -/
def State.listDwell (s : State) : Option Nat := some (s.fieldOf Pg.phy 0 0xB18 15 0)
def State.searchDwell (s : State) : Option Nat := some (s.fieldOf Pg.lnk 0 0x834 31 16 * 10000 + 20000)

/-- The first listed entry from `k` on that `p` admits. -/
def State.nbFrom (s : State) (k : Nat) (p : Nat → Bool) : Option Nat :=
  ((List.range 4).filter (fun j => k ≤ j)).find? (fun j => s.nbListed j && p j)

/-- The endless list starts over (R115). -/
def State.nbStart (s : State) : State :=
  if s.path ≠ 2 then s
  else match s.nbFrom 0 (fun _ => true) with
    | some k => s.nbGo k 0 .list s.listDwell
    | none => s

/-- What the narrow path did is over: it stops, and in CYCLE the endless list starts over (R115). -/
def State.nbRest (s : State) : State :=
  if s.fieldOf Pg.phy 0 0xB10 1 0 = 1 then s.nbHalt.nbStart else s.nbHalt

/-- A use of the narrow path is given up: no further dwell of it starts, and a frame in progress completes. -/
def State.nbGiveUp (s : State) : State :=
  if (s.lane nbLane).isSome then { s with recv := { s.recv with nb := { s.recv.nb with use := .list, mask := 0 } } }
  else s.nbRest

/-- A write of PHY_NB_CTRL (R115). A frame in progress completes, and a window of LNK runs to its end, before the list
is taken up. -/
def State.nbCtrlWrite (s : State) (ini : Initiator) (v : Word) : State :=
  match bits v 1 0 with
  | 3 => s.raise Pg.phy ini 0xB10 0 Err.range
  | 1 =>
    let s := s.setReg Pg.phy 0 0xB10 1
    if s.recv.nb.phase ≠ .stopped ∨ (s.lane nbLane).isSome then s else s.nbStart
  | r =>
    let s := s.setReg Pg.phy 0 0xB10 (word r)
    if (s.lane nbLane).isSome then s else s.nbHalt

/-- `NB_STOP`, `NB_CYCLE` and `NB_RUN_LNK`. -/
def execNbStop (ini : Initiator) (s : State) : Host.Outcome State Fault Refusal :=
  .next (s.pageWrite ini Pg.phy 0xB10 0 (fun s => s.nbCtrlWrite ini 0))
def execNbCycle (ini : Initiator) (s : State) : Host.Outcome State Fault Refusal :=
  .next (s.pageWrite ini Pg.phy 0xB10 1 (fun s => s.nbCtrlWrite ini 1))
def execNbRunLnk (ini : Initiator) (s : State) : Host.Outcome State Fault Refusal :=
  .next (s.pageWrite ini Pg.phy 0xB10 2 (fun s => s.nbCtrlWrite ini 2))

/-! ### Agreement rules (R81, R114, R141) -/

/-- The words of PHY_MODETAB that a CHZ or PHY commit is checked against: the running and, where a PHY
commit is pending, the pending table (R141). -/
def State.tables (s : State) : List (Nat → Nat → Word) :=
  let run := fun e w => s.reg Pg.phy 0 (mtOff e w)
  if s.commitPend Pg.phy then [run, fun e w => s.stagedReg Pg.phy 0 (mtOff e w)] else [run]

/-- Enabled slots of a search set fit a table at a spacing, for channel `n` of a plan or a narrow entry. -/
def slotsFit (set mask : Word) (tab : Nat → Nat → Word) (spacing : Nat) (pairs : Bool) : Bool :=
  (List.range 4).all (fun b => !slotOn set b || !bit mask b ||
    (bit (tab (slotMode set b) 0) 31 && modeAllowed (mtMode (tab (slotMode set b) 0)) spacing pairs))

/-- Spacing in Hz. -/
def spacingHz (c : Nat) : Nat := [200000, 100000, 400000].getD c 200000

/-- |FOFS| × 25 Hz + PULLIN is at most S / 4. -/
def afcFits (afc : Word) (spacing : Nat) : Bool :=
  (signed 12 (bits afc 11 0)).natAbs * 25 + bits afc 23 16 * 1000 ≤ spacingHz spacing / 4

/-- A tailrace ring and a Hopper ring are enabled. -/
def State.tailOk (s : State) (t : Nat) : Bool := s.trEn t
def State.hringOk (s : State) (h : Nat) : Bool := bit (s.hr h 4) 31

/-- The agreement of the CHZ page (R81). -/
def State.chzAgree (s : State) : Mismatch :=
  let plan := s.stagedReg Pg.chz 0 0x800
  let sp := bits plan 25 24
  let khz := bits plan 19 0
  let quarters := subunits s.variant Pg.chz
  let h := if bit (word quarters) 3 then 3 else 0
  let cfg := fun n => s.stagedReg Pg.chz n 0x100
  let set := fun n => s.stagedReg Pg.chz n 0x104
  let n := planChannels s.variant sp
  let q := fun ch => match s.variant with | .lm8128 => ch * 4 / n | _ => 0
  -- channels that the register sets can hold: those of the plan, and any others enabled beyond it
  let beyond := (s.staged ++ s.regs).filterMap (fun e =>
    if onPage Pg.chz e.1 && keyOff e.1 == 0x100 && n ≤ keyIdx e.1 && bit (cfg (keyIdx e.1)) 31 then some (keyIdx e.1) else none)
  let en := (List.range n).filter (fun c => bit (cfg c) 31)
  let slots := fun c => ((List.range 4).filter (slotOn (set c))).length
  if khz < 750000 ∨ 960000 < khz + 6400 * (h + 1) then some (0, 0x800)
  else match beyond with
  | c :: cs => some (cs.foldl min c, 0x100)
  | [] =>
  match en.find? (fun c => slots c = 0) with
  | some c => some (c, 0x100)
  | none =>
  match en.find? (fun c => !s.tables.all (fun t => slotsFit (set c) 0xF t sp true)) with
  | some c => some (c, 0x104)
  | none =>
  match en.find? (fun c => sp = 0 ∧ c % 2 = 1 ∧
      (List.range 4).any (fun b => slotOn (set c) b && s.tables.any (fun t => mtMode (t (slotMode (set c) b) 0) == 4))) with
  | some c => some (c, 0x104)
  | none =>
  match en.find? (fun c => 128 < ((en.filter (fun d => d ≤ c && q d == q c)).map slots).sum) with
  | some c => some (c, 0x104)
  | none =>
  match en.find? (fun c => !s.tailOk (bits (cfg c) 21 16)) with
  | some c => some (c, 0x100)
  | none =>
  match en.find? (fun c => !s.hringOk (bits (cfg c) 11 8)) with
  | some c => some (c, 0x100)
  | none =>
  match en.find? (fun c => !afcFits (s.stagedReg Pg.chz c 0x108) sp) with
  | some c => some (c, 0x108)
  | none => none

/-- An entry of the mode table obeys R141. -/
def entryOk (m det tx : Word) : Option Nat :=
  let mode := mtMode m
  if 5 < mode then some 0
  else if mtSf m ≠ 0 ∧ mode ≠ 5 then some 0
  else if mtFmt m ∧ !(mode = 5 ∧ mtSf m ≤ 1) then some 0
  else if mtFecRx m = 3 ∨ (mode = 4 ∧ (mtFecRx m ≠ 1 ∨ bit m 3)) ∨ (mtFmt m ∧ (mtFecRx m ≠ 2 ∨ !bit m 3)) then some 0
  else if bits det 23 16 < 1 then some 4
  else if bits det 10 0 < 4 then some 4
  else if (mode ≤ 4 ∧ bits tx 31 16 < 4) ∨ (mode = 5 ∧ !mtFmt m ∧ bits tx 31 16 < 8) then some 8
  else none

/-- The agreement of the PHY page (R112, R114, R141). -/
def State.phyAgree (s : State) : Mismatch :=
  let tab := fun e w => s.stagedReg Pg.phy 0 (mtOff e w)
  let path := bits (s.stagedReg Pg.phy 0 0xB00) 1 0
  let set := s.stagedReg Pg.phy 0 0xB14
  let cfg := s.stagedReg Pg.phy 0 0xB18
  let ent := fun k => s.stagedReg Pg.phy 0 (0xB20 + 4 * k)
  let on := (List.range 4).filter (fun k => bit (ent k) 31)
  let mask := fun k => word (bits (ent k) 27 24)
  let badEntry := (List.range 16).findSome? (fun e =>
    if bit (tab e 0) 31 then (entryOk (tab e 0) (tab e 1) (tab e 2)).map (fun o => (e, 0x800 + 16 * e + o)) else none)
  -- entries that enabled slots of the CHZ page name, in the running and the pending sets
  let named := fun (pend : Bool) => s.channels.findSome? (fun c =>
    let cc := if pend then s.stagedReg Pg.chz c 0x100 else s.reg Pg.chz c 0x100
    let st := if pend then s.stagedReg Pg.chz c 0x104 else s.reg Pg.chz c 0x104
    let sp := if pend then bits (s.stagedReg Pg.chz 0 0x800) 25 24 else s.spacing
    if !bit cc 31 then none
    else ((List.range 4).find? (fun b => slotOn st b &&
      !(bit (tab (slotMode st b) 0) 31 && modeAllowed (mtMode (tab (slotMode st b) 0)) sp (c % 2 == 0)))).map (slotMode st))
  let wide := match named false with
    | some e => some e
    | none => if s.commitPend Pg.chz then named true else none
  let narrow := on.findSome? (fun k => ((List.range 4).find? (fun b => slotOn set b && bit (mask k) b &&
      !(bit (tab (slotMode set b) 0) 31 && modeAllowed (mtMode (tab (slotMode set b) 0)) (bits (ent k) 29 28) false))).map (slotMode set))
  match badEntry with
  | some r => some r
  | none =>
  match wide with
  | some e => some (e, mtOff e 0)
  | none =>
  if path = 1 ∧ s.variant = .lm8004 then some (0, 0xB00)
  else if path = 2 ∧ on.all (fun k => (List.range 4).all (fun b => !(slotOn set b && bit (mask k) b))) then some (0, 0xB00)
  else match on.find? (fun k => bits (ent k) 19 0 < 750000 || 960000 < bits (ent k) 19 0) with
  | some k => some (0, 0xB20 + 4 * k)
  | none =>
  let carries := s.staged.any (fun e => onPage Pg.phy e.1 && 0x800 ≤ keyOff e.1 && keyOff e.1 < 0x900)
  match narrow with
  | some e => if carries then some (e, mtOff e 0) else some (0, 0xB14)
  | none =>
  if bits cfg 15 0 = 0 then some (0, 0xB18)
  else if !on.isEmpty ∧ (!s.tailOk (bits cfg 29 24) ∨ !s.hringOk (bits cfg 19 16)) then some (0, 0xB18)
  else if on.any (fun k => !afcFits (s.stagedReg Pg.phy 0 0xB30) (bits (ent k) 29 28)) then some (0, 0xB30)
  else none

/-! ### Switch points (R74, R82, R112, R114, R142) -/

/-- Staged values whose key satisfies `p` take effect. -/
def State.switchKeys (s : State) (p : Nat → Bool) : State :=
  let named := Sparse.keep p s.staged
  let s := named.foldl (fun s e => s.setReg (keyPage e.1) (keyIdx e.1) (keyOff e.1) e.2) s
  { s with staged := Sparse.keep (fun k => !p k) s.staged }

/-- The commit has nothing left to switch: GEN, PEND, COMMIT_DONE, the claim (R64). -/
def State.endCommit (s : State) (c : Commit) : State :=
  if s.staged.any (fun e => namedBy c.page c.index c.all e.1) then s
  else
    let s := { s with commits := s.commits.filter (fun x => x.page != c.page) }
    let s := (s.bumpGen c.page).setField c.page 0 0x028 31 31 0
    (s.event c.page 30).releaseClaim c.page

/-- A channel's state follows its running set (R85). -/
def State.chanSwitched (s : State) (n : Nat) : State :=
  let c := s.chan n
  if c.st = .claimed ∨ c.st = .frame then s
  else if !s.chanEn n then s.setChan n {}
  else if c.st = .disabled then
    s.setChan n (if s.blanked n then { st := .paused, blanked := true } else { st := .settling })
  else s

/-- The CHZ page switches what has reached its point: the plan when no lane is held, each channel when it is not in
CLAIMED or FRAME, in a quarter that is ON; with EN at 0 all of it at once (R64, R74, R82). -/
def State.chzSwitch (s : State) (c : Commit) : State :=
  let named := fun k => namedBy c.page c.index c.all k
  if s.hasStaged Pg.chz 0 0x800 then
    if !s.ready Dm.chz0 ∨ (s.enabled Pg.chz ∧ s.anyLane (fun l => l.no != nbLane)) then s
    else
      let held := fun n => (s.chan n).st == .claimed || (s.chan n).st == .frame
      let carried := (s.staged.filter (fun e => named e.1 && keyOff e.1 < 0x800)).map (fun e => keyIdx e.1)
      let before := s.channels
      let s := s.switchKeys named
      let s := (before ++ s.channels).eraseDups.foldl (fun s n =>
        if carried.contains n then s else s.setReg Pg.chz n 0x100 (setBit (s.reg Pg.chz n 0x100) 31 false)) s
      let s := { s with recv := { s.recv with chans := Sparse.keep held s.recv.chans, snapSeq := 0, unsettled := [] } }.unsettle (fun _ => true)
      (s.channels.foldl (fun s n => s.chanSwitched n) s).endCommit c
  else
    let free := fun k => named k && s.ready (s.domainOf Pg.chz (keyIdx k)) &&
      !(s.enabled Pg.chz && ((s.chan (keyIdx k)).st == .claimed || (s.chan (keyIdx k)).st == .frame))
    let ns := (s.staged.filter (fun e => free e.1)).map (fun e => keyIdx e.1)
    let s := s.switchKeys free
    (ns.foldl (fun s n => s.chanSwitched n) s).endCommit c

/-- PHY_PATH switches: lanes in CLAIMED are released; where the path changes, the narrow path starts or stops (R112). -/
def State.pathSwitched (s : State) (old : Nat) : State :=
  let s := (s.lanesHeld.filter (fun l => !l.frame)).foldl (fun s l => s.releaseLane l false) s
  if s.path = old then s
  else
    let s := (s.rxRetune.nbHalt).unsettle (fun _ => true)
    let s := s.channels.foldl (fun s n =>
      if s.chanEn n ∧ (s.chan n).st ≠ .frame then s.setChan n { st := .settling } else s) s
    s.nbRest

/-- The narrow path's sets, but not the table or PHY_PATH. -/
def nbSetKey (k : Nat) : Bool := 0xB14 ≤ keyOff k && keyOff k ≤ 0xB30

/-- A dwell of the narrow path is under way, or its lane is held. -/
def State.nbInDwell (s : State) : Bool := s.path == 2 && (s.recv.nb.phase == .dwell || (s.lane nbLane).isSome)

/-- The one staged set of the PHY page switches in one cycle, once what it carries has reached its point: PHY_PATH when
no lane is in FRAME, the narrow path's sets at a dwell's end, which `dwellEnds` says has come, the table alone at
once; with EN at 0 it does not wait (R60, R64, R112, R114, R142). -/
def State.phySwitch (s : State) (c : Commit) (dwellEnds : Bool) : State :=
  let named := fun k => namedBy c.page c.index c.all k
  let wantsPath := s.hasStaged Pg.phy 0 0xB00
  let narrow := s.staged.any (fun e => named e.1 && nbSetKey e.1)
  if s.enabled Pg.phy && ((wantsPath && s.anyLane (·.frame)) || (narrow && s.nbInDwell && !dwellEnds)) then s
  else
    let old := s.path
    let s := s.switchKeys named
    (if wantsPath then s.pathSwitched old else s).endCommit c

/-! ### The narrow path's dwells (R115, R116) -/

/-- After an own sample RFE and SYN return to RETENTION, where no transmission uses them (R225). -/
def State.radioRests (s : State) : State :=
  if s.txa.st = .idle ∨ s.txa.st = .hold then (s.rest Dm.rfe).rest Dm.syn else s

/-- A narrow dwell's visit is over: the next entry, or the end of the pass. -/
def State.nbNext (s : State) : State :=
  let nb := s.recv.nb
  let s := match s.commitOf Pg.phy with | some c => s.phySwitch c true | none => s
  if s.path ≠ 2 ∨ s.fieldOf Pg.phy 0 0xB10 1 0 = 0 then s.nbHalt
  else match nb.use with
  | .list =>
    if s.fieldOf Pg.phy 0 0xB10 1 0 ≠ 1 then s.nbHalt
    else match s.nbFrom (nb.entry + 1) (fun _ => true) with
      | some k => s.nbGo k 0 .list s.listDwell
      | none => s.nbStart
  | use =>
    match s.nbFrom (nb.entry + 1) (fun j => nb.mask.testBit j) with
    | some k => s.nbGo k nb.mask use nb.dwell
    | none =>
      match use with
      | .sample => (s.nbRest.event Pg.phy 3).radioRests
      | .search => { s with lnk := { s.lnk with passDone := true } }.nbRest.event Pg.phy 3
      | _ => s.nbRest

/-- A released narrow lane lets the path move on, once nothing blanks it (R116). -/
def State.moveOn (s : State) : State :=
  if s.recv.nb.phase = .leaving ∧ !s.calBlank ∧ s.recv.tx.isNone then s.nbNext else s

/-- `SFD_TIMEOUT`: SFD_TMO symbols after the preamble without an SFD (R85, R144). -/
def execSfdTimeout (rx : RxChan) (s : State) : Host.Outcome State Fault Refusal := .next (s.sfdTimeout rx).moveOn

/-- `PHR_DECODE`: the lane decides the PHR, and the Hopper reserves slots or drops the frame (R98, R100). -/
def execPhrDecode (rx : RxChan) (phr : Phr) (snr10 : Int) (corr : Nat) (s : State) : Host.Outcome State Fault Refusal :=
  .next (s.phrDecode rx phr snr10 corr).moveOn

/-- `FRAME_END`: the CRC is checked, the frame handed over and the lane released (R85, R102). -/
def execFrameEnd (rx : RxChan) (octets : List Byte) (snr10 : Int) (corr : Nat) (flips : List Flip) (s : State) :
    Host.Outcome State Fault Refusal := .next ((s.applyFlips flips).frameEnd rx octets snr10 corr).moveOn

/-- `NB_DWELL_END`: a dwell without a lane ends; a listen without a dwell lasts until its use ends. -/
def execNbDwellEnd (s : State) : Host.Outcome State Fault Refusal :=
  .next (if ((s.recv.nb.phase = .dwell ∧ s.recv.nb.dwell.isSome) ∨ s.recv.nb.phase = .leaving) ∧ (s.lane nbLane).isNone then s.nbNext
    else s)

/-- `NB_RETUNE_DONE`: the hop and the decimator's settling are done. -/
def execNbRetuneDone (s : State) : Host.Outcome State Fault Refusal :=
  .next (if s.recv.nb.phase = .retune ∧ s.narrowOn then
    { s with recv := { s.recv with nb := { s.recv.nb with phase := .dwell } } } else s)

/-! ### Status registers -/

/-- CHZ_STATUS but for RSSI, which is measured. -/
def State.chzStatus (s : State) (n : Nat) : Word :=
  let c := s.chan n
  let st := match c.st with
    | .disabled => 0 | .settling => 1 | .search => 2 | .claimed => 3 | .frame => 4 | .paused => 5
  word (st * 0x20000000 + c.hyp * 0x4000000 + c.lane * 0x10000)

/-- CHZ_BLANK. -/
def State.chzBlank (s : State) : Word :=
  match s.recv.tx with
  | some (lo, hi) => word (s.calBlank.toNat * 0x80000000 + 0x40000000 + hi % 512 * 0x10000 + lo % 512)
  | none => word (s.calBlank.toNat * 0x80000000)

/-- Where the part measures, a power stands beside `keep`: what it measures is free, in the encoding of R92. -/
def State.measured (s : State) (live : Bool) (keep : Word) : Word × State :=
  if live then
    let (v, s) := s.fresh
    (keep ||| word (anyPower v), s)
  else (keep ||| 0xFF, s)

/-- The computed registers of the CHZ page. -/
def State.chzRead (s : State) (idx off : Nat) : Option (Word × State) :=
  match off with
  | 0x10C => some (s.measured (s.chanEn idx && s.enabled Pg.chz && s.wideOn idx) (s.chzStatus idx))
  | 0x810 => some (s.lanesWord, s)
  | 0x814 => some (s.noteLanes.reg Pg.chz 0 0x814, s)
  | 0x818 => some (s.chzBlank, s)
  | _ => none

/-- The computed registers of the PHY page. -/
def State.phyRead (s : State) (off : Nat) : Option (Word × State) :=
  if off = 0xB1C then
    let st := match s.lane nbLane with
      | some l => if l.frame then 4 else 3
      | none => match s.recv.nb.phase with | .stopped => 0 | .dwell => 1 | .retune => 2 | .leaving => 2
    let w := word (st * 0x20000000 + s.recv.nb.entry * 0x1000000)
    match s.recv.nb.floor with
    | some f => some (w ||| word f, s)
    | none => some (s.measured (s.recv.nb.phase == .dwell && s.narrowOn) w)
  else if 0x900 ≤ off ∧ off < 0xB00 ∧ off % 0x20 = 0x10 then
    let h := (off - 0x900) / 0x20
    some (setBits (s.hr h 0x10) 26 16 (if bit (s.hr h 4) 31 then s.hrFree h else 0), s)
  else none

end Sys2Proof.Machine
end

