-- ==== Sys2Proof/Machine/Time.lean ====
section
/-! DEFINITION. The timebase TIM: counting, adjustment, comparators, PPS, radio synchronisation, and the
handover to the slow clock across sleep (R240 to R260, R266 to R268, R561). -/

namespace Sys2Proof.Machine

/-! ### The time as one number (R240) -/

/-- Units of 2^−28 ns in a second, and in all of the 48-bit seconds. -/
abbrev unitsPerSec : Nat := 1000000000 * 2 ^ 28
abbrev unitsOfTime : Nat := 2 ^ 48 * unitsPerSec

/-- TIM in 2^−28 ns. -/
def State.timUnits (s : State) : Nat := (s.tim.sec * 1000000000 + s.tim.ns) * 2 ^ 28 + s.tim.frac

def State.setTim (s : State) (f : Tim → Tim) : State := { s with tim := f s.tim }

/-- TIM takes a value, modulo its range. -/
def State.setUnits (s : State) (u : Int) : State :=
  let u := (u % (unitsOfTime : Int)).toNat
  s.setTim (fun t => { t with sec := u / unitsPerSec, ns := u / 2 ^ 28 % 1000000000, frac := u % 2 ^ 28 })

/-- The value follows counting from `u`. A second boundary that counting crosses drives SECOND (R242). -/
def State.countTo (s : State) (u : Nat) : State :=
  let old := s.tim.sec
  let s := s.setUnits u
  if s.tim.sec = old then s else s.pulse 5

/-- A jump: no boundary before the new value was reached by counting (R257). -/
def State.jumped (s : State) : State :=
  s.setTim (fun t => { t with ppsFrom := t.sec * 1000000000 + t.ns + 1, ppsDone := none })

/-- ADDEND, and SLEW_PPM. -/
def State.addend (s : State) : Nat := (s.reg Pg.tim 0 0x810).toNat
def State.slewPpm (s : State) : Nat := s.fieldOf Pg.tim 0 0x814 31 16

/-- What one cycle of a slew moves TIM beyond ADDEND: ADDEND × SLEW_PPM × 10^−6. -/
def State.slewRate (s : State) : Nat := (inSteps 245 1000000 (s.addend * s.slewPpm : Nat)).toNat

/-- Cycles that a slew still takes: its last adds exactly the remainder. -/
def State.slewCycles (s : State) (rem : Int) : Nat :=
  if s.slewRate = 0 then 0 else (rem.natAbs + s.slewRate - 1) / s.slewRate

/-- The slew ends: what remains is added, and SLEW_DONE sets (R245). -/
def State.slewEnd (s : State) (rem : Int) : State :=
  (s.setTim (fun t => { t with slew := none, slewed := t.slewed + rem })).event Pg.tim 1

/-- TIM counts for `k` fabric cycles (R240, R245). A pulse in progress keeps its width (R257). -/
def State.timCount (s : State) (k : Nat) : State :=
  let s := s.setTim (fun t => { t with ppsLeft := t.ppsLeft - k })
  let base := s.timUnits + k * s.addend
  match s.tim.slew with
  | none => s.countTo base
  | some rem =>
    if s.slewCycles rem ≤ k then
      (s.countTo ((base : Int) + rem).toNat).slewEnd rem
    else
      let d : Int := (k * s.slewRate : Nat) * (if rem < 0 then -1 else 1)
      let s := s.countTo ((base : Int) + d).toNat
      s.setTim (fun t => { t with slew := some (rem - d), slewed := t.slewed + d })

/-- The modulator decides the end of the SFD: the transmit stamp is taken (R151, R248). -/
def State.sfdDecided (s : State) (d : SfdDue) : State :=
  let t : Int := (s.nowNs : Int) + d.corr + (s.fieldOf Pg.phy 0 0xC04 15 0 : Nat)
  { s with txa := { s.txa with sfd := none, stamp := (t % (2 ^ 48 * 1000000000)).toNat } }

/-- `k` fabric cycles of TIM; a transmit stamp is taken in its own cycle. -/
def State.timRun (s : State) (k : Nat) : State :=
  if !s.tim.running then s
  else match s.txa.sfd with
    | none => s.timCount k
    | some d =>
      if d.cycles ≤ k then ((s.timCount d.cycles).sfdDecided d).timCount (k - d.cycles)
      else { s with txa := { s.txa with sfd := some { d with cycles := d.cycles - k } } }.timCount k

/-- `k` fabric cycles pass: the cores count them, the PWMs and TIM count. -/
def State.fabricRun (s : State) (k : Nat) : State := ((s.coresCount k).pwmCycles k).timRun k

/-- TIM has reached an instant by counting in this very cycle (R254). -/
def State.atInstant (s : State) (t : Int) : Bool :=
  let rate : Int := match s.tim.slew with
    | some rem => (s.addend : Int) + (if rem < 0 then -1 else 1) * s.slewRate
    | none => s.addend
  decide (t ≤ (s.nowNs : Int)) && decide ((s.timUnits : Int) < t * 2 ^ 28 + rate)

/-- Cycles until the seconds increment by counting. -/
def State.cyclesToSecond (s : State) : Nat :=
  let left := unitsPerSec - s.timUnits % unitsPerSec
  let up := fun (x a : Nat) => if a = 0 then 0 else (x + a - 1) / a
  match s.tim.slew with
  | none => up left s.addend
  | some rem =>
    let m := s.slewCycles rem
    let rate : Int := (s.addend : Int) + (if rem < 0 then -1 else 1) * s.slewRate
    let k := up left rate.toNat
    if k < m then k else max m (up ((left : Int) - rem).toNat s.addend)

/-- `TIM_SECOND`: TIM counts on to the cycle in which seconds increment (R240). -/
def execTimSecond (s : State) : Host.Outcome State Fault Refusal :=
  .next (if s.tim.running then s.fabricRun s.cyclesToSecond else s)

/-- `SLEW_DONE`: TIM counts on to the end of the slew (R245). -/
def execSlewDone (s : State) : Host.Outcome State Fault Refusal :=
  .next (match s.tim.slew with | some rem => if s.tim.running then s.fabricRun (s.slewCycles rem) else s | none => s)

/-! ### Reading (R243, R244) -/

/-- TIM_STAT. -/
def State.timStat (s : State) : Word :=
  let t := s.tim
  word (t.trusted.toNat * 0x80000000 + t.oscStopped.toNat * 0x40000000 + t.calStale.toNat * 0x20000000 +
    t.slew.isSome.toNat * 0x10000000 + t.casLock.toNat * 0x8000000 + t.tgen % 256 * 0x100)

/-- A read of TIM_NS captures the reader's shadow. -/
def State.timNsRead (s : State) (ini : Initiator) : Word × State :=
  (word s.tim.ns, s.setTim (fun t => { t with shadows := Sparse.set (0, 0) t.shadows ini.id (t.sec, t.frac) }))

/-- The registers of the page that are not held in its table. -/
def State.timRead (s : State) (ini : Initiator) (off : Nat) : Option (Word × State) :=
  let sh := Sparse.get (0, 0) s.tim.shadows ini.id
  let v := fun (w : Word) => some (w, s)
  match off with
  | 0x800 => some (s.timNsRead ini)
  | 0x804 => v (word sh.1)
  | 0x808 => v (word (sh.1 / 2 ^ 32 % 2 ^ 16))
  | 0x80C => v (word (sh.2 / 2 ^ 12))
  | 0x824 => v s.timStat
  | 0x828 => v (word (unsigned 32 (inSteps 242 (2 ^ 28) (s.tim.slew.getD 0))))
  | 0x82C => v (word s.tim.lastNs)
  | 0x830 => v (word s.tim.lastSec)
  | 0x838 => v s.tim.tickper
  | 0x83C => v (word s.tim.waketicks)
  | 0x840 => v (word s.tim.wakeunc)
  | _ => none

/-- `TIM_NS_READ` (R244). -/
def execTimNsRead (ini : Initiator) (s : State) : Host.Outcome State Fault Refusal :=
  .next (s.pageRead ini Pg.tim 0x800 (fun s => s.timNsRead ini))

/-- A write of TIM_STAT clears OSC_STOPPED. -/
def State.timStatWrite (s : State) (v : Word) : State :=
  if bit v 30 then s.setTim (fun t => { t with oscStopped := false }) else s

/-! ### Adjustments (R245 to R247) -/

/-- TIM_LAST after an adjustment. -/
def State.noteLast (s : State) : State :=
  s.setTim (fun t => { t with lastNs := t.ns, lastSec := t.sec % 2 ^ 18 })

/-- A SET or STEP has taken effect. -/
def State.adjusted (s : State) (trust : Bool) : State :=
  let s := s.setTim (fun t => { t with slew := none, tgen := (t.tgen + 1) % 256, trusted := t.trusted || trust, window := none })
  (s.noteLast.jumped).event Pg.tim 0

/-- SET. -/
def State.timSet (s : State) (sec ns : Nat) (trust : Bool) : State :=
  (s.setUnits ((sec * 1000000000 + ns) * 2 ^ 28 : Nat)).adjusted trust

/-- STEP, by ns. -/
def State.timStep (s : State) (d : Int) (trust : Bool) : State :=
  (s.setUnits ((s.timUnits : Int) + d * 2 ^ 28)).adjusted trust

/-- SLEW, by ns: it replaces any remainder; 0 ends a slew at once. -/
def State.timSlew (s : State) (d : Int) (trust : Bool) : State :=
  let s := (s.setTim (fun t => { t with trusted := t.trusted || trust, slew := some (d * 2 ^ 28) })).noteLast
  if d = 0 then s.slewEnd 0 else s

/-- The agreement of the TIM page (R246). -/
def State.timAgree (s : State) : Mismatch :=
  let a := (s.stagedReg Pg.tim 0 0x810).toNat
  let cfg := s.stagedReg Pg.tim 0 0x814
  let ns := s.stagedReg Pg.tim 0 0x818
  let mode := bits cfg 1 0
  if a < 0x4FEB851F ∨ 0x50147AE1 < a then some (0, 0x810)
  else if mode = 1 ∧ 1000000000 ≤ ns.toNat then some (0, 0x814)
  else if 2 ≤ mode ∧ 1000000000 ≤ (signed 32 ns.toNat).natAbs then some (0, 0x814)
  else if bits cfg 31 16 = 0 ∨ 500 < bits cfg 31 16 then some (0, 0x814)
  else if s.tim.casLock ∧ (s.hasStaged Pg.tim 0 0x810 ∨ mode ≠ 0) then some (0, if s.hasStaged Pg.tim 0 0x810 then 0x810 else 0x814)
  else none

/-- The switch of the TIM page: the addend and the adjustment act in one cycle, and MODE reads NONE. -/
def State.timSwitch (s : State) (c : Commit) : State :=
  let carries := s.hasStaged Pg.tim 0 0x814
  let old := s.addend
  let s := s.switchCommit c
  let s := if s.addend = old then s else s.setTim (fun t => { t with window := none })
  let cfg := s.reg Pg.tim 0 0x814
  let ns := s.reg Pg.tim 0 0x818
  let lo := s.reg Pg.tim 0 0x81C
  let hi := bits (s.reg Pg.tim 0 0x820) 15 0
  if !carries then s
  else
    let s := s.setField Pg.tim 0 0x814 1 0 0
    match bits cfg 1 0 with
    | 1 => s.timSet (hi * 2 ^ 32 + lo.toNat) ns.toNat (bit cfg 8)
    | 2 => s.timStep (signed 32 lo.toNat * 1000000000 + signed 32 ns.toNat) (bit cfg 8)
    | 3 => s.timSlew (signed 32 ns.toNat) (bit cfg 8)
    | _ => s

/-- The pending commit of the TIM page carries a mode. -/
def State.timCommit (s : State) (mode : Nat) : Option Commit :=
  match s.commitOf Pg.tim with
  | some c => if s.hasStaged Pg.tim 0 0x814 ∧ bits (s.stagedReg Pg.tim 0 0x814) 1 0 = mode then some c else none
  | none => none

/-- `TIM_SET`, `TIM_STEP` and `TIM_SLEW`: the commit that carries the adjustment switches (R245, R246). -/
def execTimSet (s : State) : Host.Outcome State Fault Refusal :=
  .next (match s.timCommit 1 with | some c => s.timSwitch c | none => s)
def execTimStep (s : State) : Host.Outcome State Fault Refusal :=
  .next (match s.timCommit 2 with | some c => s.timSwitch c | none => s)
def execTimSlew (s : State) : Host.Outcome State Fault Refusal :=
  .next (match s.timCommit 3 with | some c => s.timSwitch c | none => s)

/-- TRUSTED is lost (R243). -/
def State.loseTrust (s : State) : State :=
  s.setTim (fun t => { t with trusted := false, tgen := (t.tgen + 1) % 256 })

/-! ### Comparators (R255, R256) -/

def cmpOff (c o : Nat) : Nat := 0x860 + 16 * c + o

/-- A comparator's target in ns, and TIM in the same terms: the low 32 bits of seconds. -/
def State.cmpTarget (s : State) (c : Nat) : Nat :=
  (s.reg Pg.tim 0 (cmpOff c 8)).toNat * 1000000000 + (s.reg Pg.tim 0 (cmpOff c 4)).toNat
def State.cmpNow (s : State) : Nat := s.tim.sec % 2 ^ 32 * 1000000000 + s.tim.ns

/-- The comparator is armed and TIM is at or beyond its target. -/
def State.cmpDue (s : State) (c : Nat) : Bool :=
  bit (s.reg Pg.tim 0 (cmpOff c 0)) 31 && s.cmpTarget c ≤ s.cmpNow

/-- A comparator fires; `late` says that its target was past when it was armed. -/
def State.cmpFire (s : State) (c : Nat) (late : Bool) : State :=
  let cfg := s.reg Pg.tim 0 (cmpOff c 0)
  let per := (s.reg Pg.tim 0 (cmpOff c 12)).toNat
  let target := s.cmpTarget c
  let s := s.event Pg.tim (3 + c)
  if bit cfg 30 ∧ per ≠ 0 then
    let n := (s.cmpNow - target) / per + 1
    let t := target + n * per
    let s := s.setReg Pg.tim 0 (cmpOff c 4) (word (t % 1000000000))
    let s := s.setReg Pg.tim 0 (cmpOff c 8) (word (t / 1000000000))
    s.setReg Pg.tim 0 (cmpOff c 0) (setBit (setBit cfg 28 true) 29 (bit cfg 29 || late || 1 < n))
  else s.setReg Pg.tim 0 (cmpOff c 0) (setBit (setBit (setBit cfg 28 true) 29 (bit cfg 29 || late)) 31 false)

/-- `CMP_FIRE`: TIM is at or beyond the target of an armed comparator (R256). -/
def execCmpFire (comparator : Nat) (s : State) : Host.Outcome State Fault Refusal :=
  .next (if comparator < 4 ∧ s.cmpDue comparator then s.cmpFire comparator false else s)

/-- A write of TIM_CMP_CFG: a target already past when EN sets fires at once (R255). -/
def State.cmpCfgWrite (s : State) (ini : Initiator) (c : Nat) (v : Word) : State :=
  let was := bit (s.reg Pg.tim 0 (cmpOff c 0)) 31
  let s := s.plainWrite ini Pg.tim 0 (cmpOff c 0) v
  if !was ∧ s.cmpDue c ∧ s.cmpTarget c < s.cmpNow then s.cmpFire c true else s

/-- A write of TIM_CMP_PER: 1 to 999 raise RANGE (R255). -/
def State.cmpPerWrite (s : State) (ini : Initiator) (c : Nat) (v : Word) : State :=
  if s.locked Pg.tim then s.lockedErr ini Pg.tim (cmpOff c 12)
  else if v ≠ 0 ∧ v.toNat < 1000 then s.raise Pg.tim ini (cmpOff c 12) 0 Err.range
  else s.setReg Pg.tim 0 (cmpOff c 12) v

/-! ### PPS (R257, R258) -/

/-- A write of TIM_PPSOFS. -/
def State.ppsOfsWrite (s : State) (ini : Initiator) (v : Word) : State :=
  if s.locked Pg.tim then s.lockedErr ini Pg.tim 0x848
  else if 999999 < (signed 32 v.toNat).natAbs then s.raise Pg.tim ini 0x848 0 Err.range
  else s.setReg Pg.tim 0 0x848 v

/-- A write of TIM_PPSOUT: pulses begin with the next boundary. -/
def State.ppsOutWrite (s : State) (ini : Initiator) (v : Word) : State :=
  let was := bit (s.reg Pg.tim 0 0x844) 31
  let s := s.plainWrite ini Pg.tim 0 0x844 v
  if !was ∧ bit (s.reg Pg.tim 0 0x844) 31 then s.jumped else s

/-- The second boundary plus OFFSET that lies nearest at or before the present cycle, in ns. -/
def State.ppsBoundary (s : State) : Nat :=
  let ofs := signed 32 (s.reg Pg.tim 0 0x848).toNat
  let now : Int := ((s.tim.sec * 1000000000 + s.tim.ns + 2 : Nat) : Int)
  (((now - ofs) / 1000000000) * 1000000000 + ofs).toNat

/-- The level at the PPS_OUT ball: active low with POL. -/
def State.ppsPin (s : State) : Bool := s.tim.ppsOut != bit (s.reg Pg.tim 0 0x844) 30

/-- `PPS_OUT_PULSE`: a boundary reached by counting drives the active edge, for WIDTH_MS of 200 000 cycles each. -/
def execPpsOutPulse (s : State) : Host.Outcome State Fault Refusal :=
  .next (
    let cfg := s.reg Pg.tim 0 0x844
    let b := s.ppsBoundary
    if bit cfg 31 ∧ (!bit cfg 29 ∨ s.tim.trusted) ∧ s.tim.running ∧ s.tim.ppsFrom ≤ b ∧ s.tim.ppsDone ≠ some b then
      s.setTim (fun t => { t with ppsOut := true, ppsDone := some b, ppsLeft := bits cfg 9 0 * 200000 })
    else s)

/-- `PPS_OUT_PULSE_END`: WIDTH_MS after its start. -/
def execPpsOutPulseEnd (s : State) : Host.Outcome State Fault Refusal :=
  .next (if s.tim.ppsLeft = 0 then s.setTim (fun t => { t with ppsOut := false }) else s)

/-- `PPS_IN_CAPTURE`: an edge at the ball; the part removes its synchroniser delay (R249, R258). -/
def execPpsInCapture (rising : Bool) (s : State) : Host.Outcome State Fault Refusal :=
  .next (
    let cfg := s.reg Pg.tim 0 0x84C
    if !bit cfg 31 ∨ bit cfg 30 = rising ∨ !s.domOn Dm.per ∨ !s.tim.running ∨ !s.supplied .c then s
    else
      let t := (s.tim.sec * 1000000000 + s.tim.ns + 2 ^ 48 * 1000000000 - bits cfg 15 0) % (2 ^ 48 * 1000000000)
      let s := s.setReg Pg.tim 0 0x850 (word (t % 1000000000))
      let s := s.setReg Pg.tim 0 0x854 (word (t / 1000000000))
      (s.count Pg.tim 0 0x858 15 0 1).event Pg.tim 2)

/-! ### Radio synchronisation (R259) -/

/-- The sender's seconds: the value with these low 18 bits within 2^17 s of the stamp's. -/
def rebuildSec (lo rx : Nat) : Int :=
  let d : Nat := (lo + 2 ^ 18 - rx % 2 ^ 18) % 2 ^ 18
  (rx : Int) + (if d < 2 ^ 17 then (d : Int) else (d : Int) - 2 ^ 18)

/-- `BEACON_SYNC`: the oldest beacon that LNK handed over. -/
def execBeaconSync (s : State) : Host.Outcome State Fault Refusal :=
  .next (
    match s.tim.beacons with
    | [] => s
    | b :: bs =>
      let s := s.setTim (fun t => { t with beacons := bs })
      let cfg := s.reg Pg.tim 0 0x8A0
      if bits cfg 31 30 = 0 then s
      else
        let o : Int := (rebuildSec b.secLo b.rxSec * 1000000000 + b.ns) - (b.rxSec * 1000000000 + b.rxNs : Nat)
        let m : Int := 2 ^ 31 - 1
        let s := s.setReg Pg.tim 0 0x8A4 (word (unsigned 32 (clampInt (-m) m o)))
        let s := (s.count Pg.tim 0 0x8A8 15 0 1).event Pg.tim 7
        if bits cfg 31 30 = 2 ∧ s.tim.trusted ∧ !s.tim.casLock ∧ !s.commitPend Pg.tim then
          let o := o - (s.tim.slewed - b.slewAt) / 2 ^ 28
          let s := if o.natAbs < bits cfg 23 0 then s.timSlew o false else s.timStep o false
          s.count Pg.tim 0 0x8A8 31 16 1
        else s)

/-! ### Across sleep (R266 to R268) -/

/-- PER leaves ON: any slew remainder is applied, the time is captured with the tick count, TIM stops. -/
def State.timSleep (s : State) : State :=
  let s := match s.tim.slew with
    | some rem => (s.setUnits ((s.timUnits : Int) + rem)).slewEnd rem
    | none => s
  s.setTim (fun t => { t with cap := some (s.timUnits, s.ticks), running := false, window := none })

/-- `TIM_WAKE_LOAD`: the first tick edge after the PLL has locked (R267, R268). -/
def execTimWakeLoad (s : State) : Host.Outcome State Fault Refusal :=
  .next (
    match s.tim.cap with
    | none => s
    | some (t0, n0) =>
      if !s.clk.sysLock then s
      else
        let n := s.ticks - n0
        let unc := if s.tim.calStale then 2000 else s.fieldOf Pg.tim 0 0x834 15 0
        if s.tim.sleepFail then
          -- 30 517.578125 ns is 1 000 000 000 / 32 768
          let s := (s.setUnits ((t0 + n * (unitsPerSec / 32768) : Nat) : Int)).jumped
          let s := s.setTim (fun t => { t with
            cap := none, running := true, sleepFail := false, oscStopped := true, calStale := true
            waketicks := n % 2 ^ 32, wakeunc := 0xFFFFFFFF })
          s.loseTrust.event Pg.tim 8
        else
          let el := n * s.tim.tickper.toNat
          let s := (s.setUnits ((t0 + el * 2 ^ 12 : Nat) : Int)).jumped
          -- elapsed × RATE_UNC, in 0.01 ppm of 2^−16 ns
          let u := 30 + (inSteps 267 (2 ^ 16 * 100000000) ((el * unc : Nat) : Int)).toNat
          s.setTim (fun t => { t with cap := none, running := true, waketicks := n % 2 ^ 32, wakeunc := min u 0xFFFFFFFF }))

/-- The time in which a tick-period window is measured: without slews (R266). -/
def State.windowTime (s : State) : Int := (s.timUnits : Int) - s.tim.slewed

/-- The length of a window that starts now, in ticks: CAL_EXP acts on the next one (DEDUCED, log entry 112). -/
def State.windowLen (s : State) : Nat := 2 ^ s.fieldOf Pg.tim 0 0x834 19 16

/-- A tick edge: a window that has run its length notes its end, and one starts where none runs (R266). -/
def State.timTickEdge (s : State) : State :=
  let s := s.setTim (fun t => { t with edgeNs := s.nowNs })
  if !s.tim.running ∨ !s.domOn Dm.per ∨ s.clk.xtalFail then s.setTim (fun t => { t with window := none })
  else match s.tim.window with
    | none => s.setTim (fun t => { t with window := some { tick := s.ticks, len := s.windowLen, start := s.windowTime } })
    | some w =>
      if w.done.isNone ∧ w.tick + w.len ≤ s.ticks then
        s.setTim (fun t => { t with window := some { w with done := some s.windowTime } })
      else s

/-- The measured tick period of a completed window, ns with 16 fraction bits. -/
def TickWindow.period (w : TickWindow) (e : Int) : Word := word (inSteps 266 (2 ^ 12 * w.len) (e - w.start)).toNat

/-! ### Launch times (R251, R252) -/

/-- The launch instant of an item in ns: the short time's seconds lie within 2^17 s of TIM's. -/
def State.launchNs (s : State) (ns secLo : Nat) : Int := rebuildSec secLo s.tim.sec * 1000000000 + ns

/-- TIM is at or past an instant. -/
def State.reached (s : State) (t : Int) : Bool := decide (t ≤ ((s.tim.sec * 1000000000 + s.tim.ns : Nat) : Int))

end Sys2Proof.Machine
end

