-- ==== Sys2Proof/Machine/Chain.lean ====
section
/-! DEFINITION. The cascade: links, time transfer, enumeration, positions and forwarding (R517 to R526,
R531 to R534). -/

namespace Sys2Proof.Machine

def State.setCas (s : State) (f : Casc → Casc) : State := { s with cas := f s.cas }

/-- CAS is ON and enabled. -/
def State.casRuns (s : State) : Bool := s.ready Dm.cas && s.enabled Pg.cas

/-! ### Events (R533) -/

/-- CAS posts an event while CAS_EVCFG.EN is set. -/
def State.casEvent (s : State) (kind pos : Nat) (value : Word) : State :=
  let cfg := s.reg Pg.cas 0 0x824
  if bit cfg 31 then
    s.report { unit := Pg.cas, tail := bits cfg 29 24, status := Sc.done, tag := word (kind * 0x1000000 + pos % 8)
               ns := s.tim.ns, sec := s.tim.sec, rep6 := value }
  else s

/-! ### Links (R520, R534) -/

def State.casLink (s : State) (down : Bool) : LinkSt := if down then s.cas.dn else s.cas.up

def State.setLink (s : State) (down : Bool) (x : LinkSt) : State :=
  s.setCas (fun c => if down then { c with dn := x } else { c with up := x })

/-- A link is lost; below a lost CAS_UP the slave clears REG and CAS_LOCK. -/
def State.linkLost (s : State) (down : Bool) : State :=
  if s.casLink down = .down then s
  else
    let s := (s.setLink down .down).event Pg.cas 0
    let s := (s.count Pg.cas 0 0x81C 15 0 1).casEvent 4 s.cas.position (word down.toNat)
    if down || s.cas.master then s
    else (s.setCas (fun c => { c with reg := false })).setTim (fun t => { t with casLock := false })

/-- Both links are lost: CAS leaves ON, or EN is cleared. -/
def State.linksLost (s : State) : State := (s.linkLost false).linkLost true

/-- `LINK_TRAIN_START`: a peer's signal is detected. A master ignores it on CAS_UP (R518), and a part at
position 7 keeps CAS_DN DOWN (R517). -/
def execLinkTrainStart (down : Bool) (s : State) : Host.Outcome State Fault Refusal :=
  .next (
    if !s.casRuns ∨ s.casLink down ≠ .down then s
    else if !down ∧ s.cas.master then s.event Pg.cas 3
    else if down ∧ 7 ≤ s.cas.position then s
    else s.setLink down .training)

/-- `LINK_UP`. -/
def execLinkUp (down : Bool) (s : State) : Host.Outcome State Fault Refusal :=
  .next (if s.casRuns ∧ s.casLink down = .training then (s.setLink down .up).event Pg.cas 0 else s)

/-- `LINK_TRAIN_TIMEOUT`: alignment starts again. -/
def execLinkTrainTimeout (down : Bool) (s : State) : Host.Outcome State Fault Refusal :=
  .next (if s.casRuns ∧ s.casLink down = .training then s.setLink down .training else s)

/-- `CELL_CRC_FAIL`: the cell is sent again, and counted. -/
def execCellCrcFail (down : Bool) (s : State) : Host.Outcome State Fault Refusal :=
  .next (if s.casRuns ∧ s.casLink down = .up then s.count Pg.cas 0 0x81C 31 16 1 else s)

/-- `LINK_DOWN`: 16 failures of one cell, or symbol lock lost for 1 µs. -/
def execLinkDown (down : Bool) (s : State) : Host.Outcome State Fault Refusal :=
  .next (if s.casLink down = .up then s.linkLost down else s)

/-! ### Time (R260, R521) -/

/-- A slave steers to an offset: the first is loaded as a SET and sets CAS_LOCK and TRUSTED; later ones step from
10 µs on, and slew below. -/
def State.casSteer (s : State) (o : Int) (addend : Word) : State :=
  let s := if s.reg Pg.tim 0 0x810 = addend then s
    else (s.setReg Pg.tim 0 0x810 addend).setTim (fun t => { t with window := none })
  if !s.tim.casLock then
    let s := (s.setUnits ((s.timUnits : Int) + o * 2 ^ 28)).adjusted true
    s.setTim (fun t => { t with casLock := true })
  else if 10000 ≤ o.natAbs then s.timStep o false
  else if o = 0 ∧ s.tim.slew.isNone then s
  else s.timSlew o false

/-- `CAS_TIMING_EXCHANGE`: on CAS_DN the round trip is noted; on CAS_UP the offset is the departure time plus half
the round trip, minus the receive stamp. -/
def execCasTimingExchange (down : Bool) (sec ns rtt : Nat) (addend : Word) (s : State) : Host.Outcome State Fault Refusal :=
  .next (
    if !s.casRuns ∨ s.casLink down ≠ .up then s
    else if down then s.setCas (fun c => { c with rttDn := rtt % 65536 })
    else if s.cas.master ∨ !s.tim.running then s
    else
      let s := s.setCas (fun c => { c with rttUp := rtt % 65536 })
      let o : Int := ((sec * 1000000000 + ns : Nat) : Int) + inSteps 521 2 rtt - s.nowNs
      let (f, s) := s.fresh
      let fits : Bool := decide (-2 ^ 31 ≤ o ∧ o < 2 ^ 31)
      (s.setReg Pg.cas 0 0x820 (if fits then word (unsigned 32 o) else f)).casSteer o addend)

/-! ### Enumeration and positions (R522, R523, R534) -/

def State.setPos (s : State) (k : Nat) (x : CasPos) : State :=
  s.setCas (fun c => { c with pos := Sparse.set {} c.pos k x })

/-- An executing item names one position only. -/
def Item.namesOne (i : Item) (k : Nat) : Bool :=
  i.unit == Pg.cas && (i.opcode == 1 || i.opcode == 6) && i.uparam % 8 == k && i.st == .active && i.result.isNone

/-- An executing mask item names a position. -/
def Item.maskNames (i : Item) (k : Nat) : Bool :=
  i.unit == Pg.cas && (2 ≤ i.opcode && i.opcode ≤ 5) && i.casNames.contains k && i.st == .active && i.result.isNone

/-- The item with number `k` of what it keeps replaced. -/
def Item.keep (i : Item) (k : Nat) (v : Word) : Item :=
  { i with lat := (List.range 3).map (fun j => if j = k then v else i.lat.getD j 0) }

/-- Items that name one lost position complete (step 1 of R534). -/
def State.endOne (s : State) (k : Nat) : State :=
  (s.flm.ift.filter (fun i => i.namesOne k)).foldl (fun s i => s.retireWith i.id Sc.abortedDomainOff) s

/-- Mask items that run remember a lost position, and end DONE_WARN (step 2 of R534). -/
def State.markMask (s : State) (k : Nat) : State :=
  (s.flm.ift.filter (fun i => i.maskNames k)).foldl
    (fun s i => s.updItem i.id (fun i => i.keep 0 (setBit (i.lat.getD 0 0) k true))) s

/-- A lost position is ABSENT, and its event is posted (step 3 of R534). -/
def State.dropPos (s : State) (k : Nat) : State :=
  let x := s.casPos k
  (s.setPos k { x with st := .absent }).casEvent 3 k (word x.sepoch.toNat)

/-- Positions are lost, in the order of R534. -/
def State.losePoss (s : State) (ks : List Nat) : State :=
  let ks := ks.filter (fun k => (s.casPos k).st != .absent)
  ks.foldl State.dropPos (ks.foldl State.markMask (ks.foldl State.endOne s))

/-- A position at which a part is found. -/
def State.foundPos (s : State) (k : Nat) (f : CasFound) : State :=
  let x := s.casPos k
  let y := { x with hw := f.hw, boot := f.boot }
  match x.st with
  | .absent => ((s.setPos k { y with st := .new }).event Pg.cas 2).casEvent 2 k f.hw
  | .registered => s.setPos k (if f.reg then y else { y with st := .new })
  | .new => s.setPos k y

/-- The master enumerates the chain. -/
def State.enumerate (s : State) (found : List CasFound) : State :=
  let found := if s.cas.dn = .up then found.take 7 else []
  let n := found.length + 1
  let s := s.setCas (fun c => { c with len := n, chaingen := c.chaingen + 1 })
  let s := (s.event Pg.cas 1).casEvent 1 0 (word n)
  let s := found.zipIdx.foldl (fun s (f, k) => s.foundPos (k + 1) f) s
  s.losePoss ((List.range 8).filter (n ≤ ·))

/-- `ENUMERATION`: the master's; a slave takes its position. -/
def execEnumeration (found : List CasFound) (position : Nat) (s : State) : Host.Outcome State Fault Refusal :=
  .next (
    if !s.casRuns then s
    else if s.cas.master then s.enumerate found
    else if s.cas.up = .up ∧ 1 ≤ position ∧ position ≤ 7 then s.setCas (fun c => { c with position })
    else s)

/-- A write of CAS_POSCTRL. -/
def State.posCtrlWrite (s : State) (ini : Initiator) (k : Nat) (v : Word) : State :=
  let x := s.casPos k
  if s.locked Pg.cas then s.lockedErr ini Pg.cas (0x940 + 4 * k)
  else if bit v 0 ∧ bit v 1 then s.raise Pg.cas ini (0x940 + 4 * k) 0 Err.range
  else if bit v 0 ∧ x.st = .new then s.setPos k { x with st := .registered, sepoch := x.sepoch + 1 }
  else if bit v 1 then s.losePoss [k]
  else s

/-- `ACCEPT`: on the master a write of CAS_POSCTRL; on a slave the master's ACCEPT sets REG. -/
def execCasAccept (ini : Initiator) (position : Nat) (s : State) : Host.Outcome State Fault Refusal :=
  .next (
    if !s.cas.master ∧ ini = .cas ∧ position = s.cas.position then
      (if s.casRuns ∧ s.cas.up = .up then s.setCas (fun c => { c with reg := true }) else s)
    else s.pageWrite ini Pg.cas (0x940 + 4 * (position % 8)) 1 (fun s => s.posCtrlWrite ini (position % 8) 1))

/-- `DROP`. -/
def execCasDrop (ini : Initiator) (position : Nat) (s : State) : Host.Outcome State Fault Refusal :=
  .next (s.pageWrite ini Pg.cas (0x940 + 4 * (position % 8)) 2 (fun s => s.posCtrlWrite ini (position % 8) 2))

/-! ### Forwarding (R525, R526) -/

/-- PHY_HR_CONS advances past the slots of forwarded frames, up to the first slot not yet forwarded. -/
def State.releaseFwd (s : State) (ring : Nat) : Nat → State
  | 0 => s
  | n + 1 =>
    let c := s.hrCons ring % s.hrSize ring
    if s.cas.fwd.contains (ring, c) then
      let s := s.setCas (fun x => { x with fwd := x.fwd.erase (ring, c) })
      (s.hrConsWrite ring (word ((s.hrCons ring + 1) % (2 * s.hrSize ring)))).releaseFwd ring n
    else s

/-- The PSDU octets of a report, from its Hopper ring. -/
def State.psduOf (s : State) (ring index n : Nat) : List Byte :=
  let base := (s.hr ring 0).toNat
  let len := s.hrSize ring * s.hrSlot ring
  (List.range n).map (fun j => s.memOctet (base + (index * s.hrSlot ring + j) % len))

/-- CAS reads the frame's slots, from the first to the ring's end and then from its start; whether it must wait. -/
def State.psduRead (s : State) (ring index n : Nat) : State × Bool :=
  let base := (s.hr ring 0).toNat
  let len := s.hrSize ring * s.hrSlot ring
  let start := index * s.hrSlot ring % len
  let first := min n (len - start)
  let (s, a) := s.unitRead (base + start) first
  let (s, b) := s.unitRead base (n - first)
  (s, match a, b with
    | .waits, _ => true
    | _, .waits => true
    | _, _ => false)

/-- `FORWARD_ENTRY`: a registered slave sends the next entry of the forwarded ring; the master has taken it. -/
def execForwardEntry (flips : List Flip) (s : State) : Host.Outcome State Fault Refusal :=
  let s := s.applyFlips flips
  .next (
    let cfg := s.reg Pg.cas 0 0x804
    let t := bits cfg 29 24
    if s.cas.master ∨ !s.cas.reg ∨ !s.casRuns ∨ !bit cfg 31 ∨ s.cas.up ≠ .up ∨ s.trProd t = s.trCons t then s
    else
      let a := (s.reg Pg.flm t Fl.trBase).toNat + 32 * (s.trCons t % s.trSize t)
      match s.unitRead a 32 with
      | (s, .ok bs _) =>
        match knownBytes bs with
        | none => s
        | some bs =>
          let ws := wordsOfBytes 8 bs
          let unit := bits (ws.getD 1 0) 23 16
          let next := word ((s.trCons t + 1) % (2 * s.trSize t))
          if unit = Pg.chz ∨ unit = Pg.phy then
            let ring := bits (ws.getD 2 0) 31 28
            let n := bits (ws.getD 3 0) 23 0
            let index := bits (ws.getD 1 0) 9 0
            let slots := (n + s.hrSlot ring - 1) / s.hrSlot ring
            let (s, waits) := s.psduRead ring index n
            if waits then s
            else
              let s := s.setCas (fun c => { c with
                sent := bs ++ s.psduOf ring index n
                fwd := c.fwd ++ (List.range slots).map (fun k => (ring, (index + k) % s.hrSize ring)) })
              (s.trConsWrite t next).releaseFwd ring (s.hrSize ring)
          else (s.setCas (fun c => { c with sent := bs })).trConsWrite t next
      | (s, _) => s)

/-- The receive ring of the master. -/
def State.rxSize (s : State) : Nat := 2 ^ s.fieldOf Pg.cas 0 0x80C 3 0
def State.rxProd (s : State) : Nat := s.fieldOf Pg.cas 0 0x810 10 0
def State.rxCons (s : State) : Nat := s.fieldOf Pg.cas 0 0x814 10 0

/-- `FORWARD_RECEIVE`: an entry of a registered slave is written into its slot and reported; a full ring takes none. -/
def execForwardReceive (origin : Nat) (unlocked : Bool) (entry : List Word) (psdu : List Byte) (flips : List Flip) (s : State) :
    Host.Outcome State Fault Refusal :=
  let s := s.applyFlips flips
  .next (
    let cfg := s.reg Pg.cas 0 0x80C
    if !s.cas.master ∨ !s.casRuns ∨ s.cas.dn ≠ .up ∨ !bit cfg 31 ∨ (s.casPos origin).st ≠ .registered ∨
        subMod (2 * s.rxSize) s.rxProd s.rxCons = s.rxSize then s
    else
      let w := fun k => entry.getD k 0
      let slot := s.rxProd % s.rxSize
      let bs := bytesOfWords ((List.range 8).map w) ++ psdu.take 4064
      match s.unitWrite ((s.reg Pg.cas 0 0x808).toNat + 4096 * slot) bs with
      | (s, .ok _ _) =>
        let s := s.setReg Pg.cas 0 0x810 (word ((s.rxProd + 1) % (2 * s.rxSize)))
        let unit := bits (w 1) 23 16
        let kind := if unit = Pg.chz ∨ unit = Pg.phy then 1 else 2
        s.report { unit := Pg.cas, tail := bits cfg 29 24, status := bits (w 0) 7 0
                   tag := word (kind * 0x1000000 + unit * 0x10000 + unlocked.toNat * 0x100 + origin % 8)
                   actual := (psdu.take 4064).length, ns := bits (w 4) 29 0, sec := bits (w 5) 17 0, rep6 := w 6, rep7 := w 7, index := slot }
      | (s, _) => s)

/-- A write of CAS_RXCFG; SIZE and TAIL and the base are held while the ring is enabled (R18, R526). -/
def State.rxCfgWrite (s : State) (ini : Initiator) (v : Word) : State :=
  let old := s.reg Pg.cas 0 0x80C
  let v := v &&& word (fld 31 31 + fld 29 24 + fld 3 0)
  if s.locked Pg.cas then s.lockedErr ini Pg.cas 0x80C
  else if bit old 31 then s.setReg Pg.cas 0 0x80C (setBit old 31 (bit v 31))
  else if !bit v 31 then
    (if bits v 3 0 < 4 ∨ 10 < bits v 3 0 then
      (s.setReg Pg.cas 0 0x80C (setBits v 3 0 (bits old 3 0))).raise Pg.cas ini 0x80C 0 Err.range
    else s.setReg Pg.cas 0 0x80C v)
  else if bits v 3 0 < 4 ∨ 10 < bits v 3 0 then
    (s.setReg Pg.cas 0 0x80C (setBit (setBits v 3 0 (bits old 3 0)) 31 false)).raise Pg.cas ini 0x80C 0 Err.enableRefused
  else ((s.setReg Pg.cas 0 0x80C v).setReg Pg.cas 0 0x810 0).setReg Pg.cas 0 0x814 0

/-- A write of CAS_RXBASE. -/
def State.rxBaseWrite (s : State) (ini : Initiator) (v : Word) : State :=
  if s.locked Pg.cas then s.lockedErr ini Pg.cas 0x808
  else if bit (s.reg Pg.cas 0 0x80C) 31 then s
  else s.setReg Pg.cas 0 0x808 (v &&& 0xFFFFF000)

/-- `CAS_RXCONS_WRITE`. -/
def execCasRxconsWrite (ini : Initiator) (value : Word) (s : State) : Host.Outcome State Fault Refusal :=
  .next (s.pageWrite ini Pg.cas 0x814 value (fun s => s.plainWrite ini Pg.cas 0 0x814 value))

/-! ### Registers (R531, R532) -/

def LinkSt.code : LinkSt → Nat
  | .down => 0 | .training => 1 | .up => 2

def PosSt.code : PosSt → Nat
  | .absent => 0 | .new => 1 | .registered => 2

/-- The registers of the page that are not held in its table. -/
def State.casRead (s : State) (off : Nat) : Option Word :=
  let c := s.cas
  if off = 0x800 then
    some (word (c.master.toNat * 0x80000000 + c.position * 0x10000000 + c.len * 0x1000000 + c.up.code * 0x100000 +
      c.dn.code * 0x10000 + c.reg.toNat * 0x200 + s.tim.casLock.toNat * 0x100 + c.chaingen.toNat))
  else if off = 0x818 then some (word (c.rttDn * 0x10000 + c.rttUp))
  else if 0x900 ≤ off ∧ off < 0x920 then
    let x := s.casPos ((off - 0x900) / 4)
    some (word (x.st.code * 0x40000000 + x.boot % 16 * 0x10000 + x.sepoch.toNat))
  else if 0x920 ≤ off ∧ off < 0x940 then some (s.casPos ((off - 0x920) / 4)).hw
  else if 0x940 ≤ off ∧ off < 0x960 then some 0
  else none

/-- The writes of the page that have an effect of their own. -/
def State.casWrite (s : State) (ini : Initiator) (off : Nat) (v : Word) : Option State :=
  if off = 0x808 then some (s.rxBaseWrite ini v)
  else if off = 0x80C then some (s.rxCfgWrite ini v)
  else if 0x940 ≤ off ∧ off < 0x960 then some (s.posCtrlWrite ini ((off - 0x940) / 4) v)
  else none

/-- The agreement of the page (R532). -/
def State.casAgree (s : State) : Mismatch :=
  let cfg := s.stagedReg Pg.cas 0 0x804
  if bit cfg 31 ∧ !s.trEn (bits cfg 29 24) then some (0, 0x804) else none

/-- The block returns to its state after reset, but for its role. -/
def State.casReset (s : State) : State := s.setCas (fun c => { master := c.master })

/-- Busy while a link is UP or TRAINING. -/
def State.casBusy (s : State) : Bool := s.cas.up != .down || s.cas.dn != .down

end Sys2Proof.Machine
end

