-- ==== Sys2Proof/Machine/Dram.lean ====
section
/-! DEFINITION. The DRAM controller's commands: training, refresh, parity replay, the error window, the
migrator, and its work items COPY, FILL and SCRUB (R366 to R381). -/

namespace Sys2Proof.Machine

/-! ### Agreement and switch (R366) -/

/-- The first channel or rank that breaks the rules of R366, with the register that the rule names first. -/
def State.drcAgree (s : State) : Mismatch :=
  let rk := fun r => s.stagedReg Pg.drc r Dc.rkCfg
  let cfg : DramCfg := { rk, mode := bits (s.stagedReg Pg.drc 0 Dc.map) 1 0, grain := 1 }
  let present := fun r => bit (rk r) 31
  let spare := fun r => bit (rk r) 30
  let out := fun r => bit (rk r) 29
  let ranks := List.range 4
  let spares := ranks.filter (fun r => present r && spare r)
  let sp := s.stagedReg Pg.drc 0 Dc.speed
  let cl := bits sp 12 8
  let cwl := bits sp 20 16
  let b := bits sp 2 0
  let busy := ranks.find? (fun r => s.rkState r == Rk.migrating || s.rkState r == Rk.target ||
    s.rkState r == Rk.standin || (s.rkState r == Rk.retired && s.drc.migDone && !bit (s.reg Pg.drc r Dc.rkCfg) 29))
  match ranks.find? (fun r => present r && !bit (word (subunits s.variant Pg.drc)) (r / 2)) with
  | some r => some (r, Dc.rkCfg)
  | none =>
  match ranks.find? (fun r => r % 2 == 1 && present r && !present (r - 1)) with
  | some r => some (r, Dc.rkCfg)
  | none =>
  match spares with
  | _ :: r :: _ => some (r, Dc.rkCfg)
  | _ =>
  match ranks.find? (fun r => present r && spares.any (fun q => q != r &&
      (bits (rk q) 9 8 != bits (rk r) 9 8 || bit (rk q) 4 != bit (rk r) 4))) with
  | some r => some (r, Dc.rkCfg)
  | none =>
  if cfg.mode = 0 ∧ cfg.chCap 0 = 0 then some (0x10, Dc.map)
  else if cfg.mode = 1 ∧ cfg.chCap 1 = 0 then some (0x11, Dc.map)
  else if cfg.mode = 2 ∧ cfg.chCap 0 = 0 then some (0x10, Dc.map)
  else if cfg.mode = 2 ∧ cfg.chCap 1 = 0 then some (0x11, Dc.map)
  else if cl < 10 + 2 * b ∨ 12 + 2 * b < cl ∨ cwl ≠ 9 + b then some (0, Dc.speed)
  else if s.hasStaged Pg.drc 0 Dc.speed ∧ (s.chState 0 ≠ Chn.untrained ∨ s.chState 1 ≠ Chn.untrained) then
    some (if s.chState 0 ≠ Chn.untrained then 0x10 else 0x11, Dc.speed)
  else if busy.isSome ∧ (s.hasStaged Pg.drc 0 Dc.map ∨ ranks.any (fun r => s.hasStaged Pg.drc r Dc.rkCfg)) then
    some (busy.getD 0, Dc.map)
  else if bit (s.reg Pg.drc 0 Dc.evcfg) 31 ∧ !s.trEn (bits (s.reg Pg.drc 0 Dc.evcfg) 29 24) then some (0, Dc.evcfg)
  else match ranks.find? (fun r => out r && (spare r || !present r)) with
    | some r => some (r, Dc.rkCfg)
    | none => none

/-- The state of each rank under a map that has just taken effect (R364, R377). -/
def State.drcSwitched (s : State) : State :=
  (List.range 4).foldl (fun s r =>
    let c := s.reg Pg.drc r Dc.rkCfg
    if s.rkState r = Rk.migrating ∨ s.rkState r = Rk.target ∨ s.rkState r = Rk.standin then s
    else if !bit c 31 then s.setRk r Rk.absent 0
    else if bit c 29 then s.setRk r Rk.retired 0
    else if bit c 30 then s.setRk r Rk.spare 0
    else if s.rkState r = Rk.retired ∧ s.drc.migDone then s
    else s.setRk r Rk.online 0) s

/-! ### Training (R368, R369) -/

/-- A write of DRC_CHCTRL (R368); none of a channel that is fused off (R57). -/
def State.chctrlWrite (s : State) (ini : Initiator) (v : Word) : State :=
  let ch := (bit v 4).toNat
  if !bit v 0 ∨ !bit (word (subunits s.variant Pg.drc)) ch then s
  else if s.chState ch = Chn.training then s.raise Pg.drc ini Dc.chctrl ch 0x22
  else if s.chState ch = Chn.replay then s
  else s.setCh ch Chn.training 0

/-- `CHANNEL_TRAIN` (R368). -/
def execChannelTrain (ini : Initiator) (value : Word) (s : State) : Host.Outcome State Fault Refusal :=
  .next (s.pageWrite ini Pg.drc Dc.chctrl value (fun s => s.chctrlWrite ini value))

/-- The training result of a rank (R362): LOWMARGIN where an eye is below 20/64 UI. -/
def trainWord (ok : Bool) (r : Nat × Nat × Nat) : Word :=
  let (wl, rd, wr) := r
  word (ok.toNat * 0x80000000 + (decide (rd % 256 < 20) || decide (wr % 256 < 20)).toNat * 0x40000000 +
    wl % 256 * 0x10000 + rd % 256 * 0x100 + wr % 256)

/-- `TRAINING_DONE`: all steps passed, or the first that failed is recorded (R368). -/
def execTrainingDone (channel failed : Nat) (results : List (Nat × Nat × Nat)) (s : State) :
    Host.Outcome State Fault Refusal :=
  .next (
    if 1 < channel ∨ s.chState channel ≠ Chn.training ∨ 6 < failed then s
    else
      let s := (List.range 2).foldl (fun s k =>
        let r := 2 * channel + k
        if bit (s.reg Pg.drc r Dc.rkCfg) 31 then
          s.setReg Pg.drc r Dc.rkTrain (trainWord (failed == 0) (results.getD k (0, 0, 0)))
        else s) s
      (s.setCh channel (if failed = 0 then Chn.online else Chn.untrained) failed).event Pg.drc 7)

/-! ### Refresh (R367) -/

/-- `REFRESH`: a refresh of a rank closes its rows, or is postponed under traffic within POSTPONE (R367). -/
def execDrcRefresh (rank : Nat) (postpone : Bool) (s : State) : Host.Outcome State Fault Refusal :=
  let n := Sparse.get 0 s.drc.postponed rank
  .next (
    if 3 < rank ∨ !s.domOn Dm.drc then s
    else if postpone ∧ n < s.fieldOf Pg.drc 0 Dc.refcfg 3 0 then
      { s with drc := { s.drc with postponed := Sparse.set 0 s.drc.postponed rank (n + 1) } }
    else { s with drc := { s.drc with
      postponed := Sparse.set 0 s.drc.postponed rank 0
      rows := Sparse.keep (fun k => k / 16 != rank) s.drc.rows } })

/-! ### Command parity (R374) -/

/-- A destination octet whose value a failed channel leaves undefined. -/
def State.undefineOctets (s : State) (a n ch : Nat) : State :=
  let g := s.freeCtr + 1
  let s := { s with freeCtr := g }
  (List.range n).foldl (fun s k =>
    if regionOf (a + k) = .dram ∧ a + k - 0x80000000 < s.dramCfg.mapSize then
      let (r, d) := s.dramCfg.locate (a + k - 0x80000000)
      if s.readRank r d / 2 = ch then s.setDramOctet (a + k - 0x80000000) (Config.lostByte g (dramKey r d)) else s
    else s) s

/-- A channel fails (R374): later accesses are refused, affected items complete CHANNEL_FAILED with what
they would have written undefined, and a migration that concerns it is abandoned (R378). -/
def State.failChannel (s : State) (ch code : Nat) (items : List Nat) : State :=
  let s := s.setCh ch Chn.failed code
  let s := (s.flm.ift.filter (fun i => items.contains i.id && i.unit == Pg.drc && i.st == .active)).foldl
    (fun s i => (s.undefineOctets (if i.opcode = 3 then i.addrA else i.addrB) (if i.opcode = 3 then 0 else i.length) ch).finish
      i.id { status := Sc.channelFailed, rep6 := 0xFFFFFFFF }) s
  let s := (s.event Pg.drc 3).drcReport DrcEv.chFail 0 Sc.channelFailed (word ch) (word code)
  let s := { s with drc := { s.drc with alerts := Sparse.set none s.drc.alerts ch none } }
  match s.drc.mig with
  | some (src, t) => if src / 2 = ch ∨ t / 2 = ch then s.migStop else s
  | none => s

/-- `PARITY_ALERT`: ALERT_n asserts on an ONLINE channel, which stops issuing commands (R368, R374). -/
def execParityAlert (channel reissued : Nat) (items : List Nat) (s : State) : Host.Outcome State Fault Refusal :=
  .next (
    if 1 < channel ∨ !s.ready Dm.drc ∨ s.chState channel ≠ Chn.online then s
    else
      let s := s.setCh channel Chn.replay 0
      { s with drc := { s.drc with
          alerts := Sparse.set none s.drc.alerts channel (some ⟨1, min reissued 32, items⟩) } })

/-- `PARITY_REPLAY_DONE`: the buffered commands are reissued; the channel is ONLINE again, replays once
more, or fails at the third rejection of one command (R374). -/
def execParityReplayDone (channel : Nat) (rejected : Bool) (s : State) : Host.Outcome State Fault Refusal :=
  .next (
    match Sparse.get none s.drc.alerts channel with
    | none => s
    | some a =>
      if 1 < channel ∨ s.chState channel ≠ Chn.replay then s
      else
        let s := if channel = 0 then s.count Pg.drc 0 Dc.parcnt 15 0 a.reissued
          else s.count Pg.drc 0 Dc.parcnt 31 16 a.reissued
        let s := s.event Pg.drc 2
        if rejected then
          if 2 ≤ a.fails then s.failChannel channel 7 a.items
          else { s with drc := { s.drc with
            alerts := Sparse.set none s.drc.alerts channel (some { a with fails := a.fails + 1 }) } }
        else
          let s := { s with drc := { s.drc with alerts := Sparse.set none s.drc.alerts channel none } }
          let s := s.setCh channel Chn.online 0
          a.items.foldl (fun s e => s.updItem e (fun i => { i with replayed := true })) s)

/-- `ALERT_STUCK`: ALERT_n held beyond 1 µs fails the channel (R368). -/
def execAlertStuck (channel : Nat) (s : State) : Host.Outcome State Fault Refusal :=
  .next (
    match Sparse.get none s.drc.alerts channel with
    | none => s
    | some a => if 1 < channel ∨ s.chState channel ≠ Chn.replay then s else s.failChannel channel 8 a.items)

/-! ### Error window (R373) -/

/-- `ECC_WINDOW_END`: at each multiple of WINDOW_S since the DRC entered ON, WIN of every rank is 0 (R373). -/
def execEccWindowEnd (s : State) : Host.Outcome State Fault Refusal :=
  .next (
    if !s.domOn Dm.drc then s
    else
      let s := (List.range 4).foldl (fun s r => s.setReg Pg.drc r Dc.rkCewin 0) s
      { s with drc := { s.drc with reported := [] } })

/-! ### Migration (R375 to R378) -/

/-- A write of DRC_MIGCTRL (R375, R378). -/
def State.migctrlWrite (s : State) (ini : Initiator) (v : Word) : State :=
  let src := bits v 1 0
  if bit v 31 && bit v 30 then s.raise Pg.drc ini Dc.migctrl src Err.range
  else if bit v 30 then s.migStop
  else if bit v 31 then
    match s.spareRank with
    | none => s.raise Pg.drc ini Dc.migctrl src 0x20
    | some t =>
      if s.drc.mig.isSome ∨ s.drc.migDone ∨ s.rkState src ≠ Rk.online then s.raise Pg.drc ini Dc.migctrl src 0x21
      else if s.chState (src / 2) ≠ Chn.online then s.raise Pg.drc ini Dc.migctrl (src / 2) 0x22
      else if s.chState (t / 2) ≠ Chn.online then s.raise Pg.drc ini Dc.migctrl (t / 2) 0x22
      else s.migStart src t 3
  else s

/-- `MIGRATION_START` (R375). -/
def execMigrationStart (ini : Initiator) (value : Word) (s : State) : Host.Outcome State Fault Refusal :=
  .next (s.pageWrite ini Pg.drc Dc.migctrl value (fun s => s.migctrlWrite ini value))

/-- `MIGRATION_STOP` (R378). -/
def execMigrationStop (ini : Initiator) (value : Word) (s : State) : Host.Outcome State Fault Refusal :=
  .next (s.pageWrite ini Pg.drc Dc.migctrl value (fun s => s.migctrlWrite ini value))

/-- One word of a row slot is copied from rank `src` to rank `t` (R376). -/
def State.migWord (s : State) (src t d : Nat) : State :=
  let a := s.dramCfg.windowOf src d
  let (s, poison) := match s.wordErr src d with
    | .good => (s, false)
    | .single syn => (s.noteCorrected src d a syn (bit (s.reg Pg.drc 0 Dc.ecccfg) 0), false)
    | .double syn => (s.noteUncorrectable src a 2 syn, true)
    | .poison => (s.noteUncorrectable src a 3 0xFF, true)
  let s := (List.range 8).foldl (fun s k => s.setOctet (dramKey t (d + k)) (s.octet (dramKey src (d + k)))) s
  if poison then
    let s := s.setWordErr t d .poison
    let s := { s with drc := { s.drc with poisoned := s.drc.poisoned + 1 } }
    s.drcReport DrcEv.migPoison src Sc.mediaUncorrectable (s.reg Pg.drc 0 Dc.erraddr) (s.reg Pg.drc 0 Dc.errinfo)
  else s.setWordErr t d .good

/-- `MIGRATION_SLOT_COPY`: the next row slot is copied and POS advances (R376). -/
def execMigrationSlotCopy (flips : List Flip) (s : State) : Host.Outcome State Fault Refusal :=
  let s := s.applyFlips flips
  .next (
    match s.drc.mig with
    | none => s
    | some (src, t) =>
      let pos := s.fieldOf Pg.drc src Dc.rkMigpos 21 0
      if !s.ready Dm.drc ∨ !s.migChannelsOnline src t ∨ rankSlots (s.reg Pg.drc src Dc.rkCfg) ≤ pos then s
      else
        let s := (List.range 224).foldl (fun s k => s.migWord src t (1792 * pos + 8 * k)) s
        s.setReg Pg.drc src Dc.rkMigpos (word (pos + 1)))

/-- `MIGRATION_DONE`: every slot copied, the source retires and the spare stands in for it (R377). -/
def execMigrationDone (s : State) : Host.Outcome State Fault Refusal :=
  .next (
    match s.drc.mig with
    | none => s
    | some (src, t) =>
      if !s.ready Dm.drc ∨ s.fieldOf Pg.drc src Dc.rkMigpos 21 0 < rankSlots (s.reg Pg.drc src Dc.rkCfg) then s
      else
        let s := (s.setRk src Rk.retired t).setRk t Rk.standin src
        let n := s.drc.poisoned
        let s := { s with drc := { s.drc with mig := none, migDone := true } }
        (s.event Pg.drc 5).drcReport DrcEv.migDone src Sc.rankMigrated (word t) (word n))

/-! ### Work items (R379, R380) -/

/-- The status of a DRC item that has run its course (R380): the first that applies. -/
def drcStatus (failed : Bool) (e : EccSum) (replayed scrub : Bool) : Nat :=
  if failed then Sc.channelFailed
  else if !e.bad.isEmpty then Sc.mediaUncorrectable
  else if e.migrated then Sc.rankMigrated
  else if replayed then Sc.parityReplayed
  else if scrub ∧ e.corrected ≠ 0 then Sc.mediaCorrected
  else Sc.done

/-- A DRC item finishes: ACTUAL, the words corrected, the first uncorrectable word (R380). -/
def State.drcFinish (s : State) (i : Item) (status actual : Nat) (e : EccSum) : State :=
  let first := match e.bad.filter (0x80000000 ≤ ·) with
    | a :: _ => word (a - 0x80000000)
    | [] => 0xFFFFFFFF
  s.finish i.id { status, actual, wb := min e.corrected 0x7FFF, rep6 := first }

/-- What two accesses of one item found together. -/
def EccSum.join (a b : EccSum) : EccSum :=
  { corrected := a.corrected + b.corrected, bad := a.bad ++ b.bad, migrated := a.migrated || b.migrated }

/-- A range reaches DRC_MAPSIZE or leaves its region of R38 (R380). -/
def State.drcRangeBad (s : State) (a n : Nat) : Bool :=
  !inMemories a n || (0x80000000 ≤ a && s.dramCfg.mapSize < a + n - 0x80000000)

/-- The words of a destination range that hold an octet of an uncorrectable source word are poisoned in DRAM (R380). -/
def State.poisonCopied (s : State) (b : Nat) (bs : List (Option Byte)) : State :=
  (bs.zipIdx).foldl (fun s (x, k) =>
    if x.isNone ∧ 0x80000000 ≤ b then s.freshWord ((b + k - 0x80000000) / 8 * 8) .poison else s) s

/-- `COPY` (R379, R380): as if through a buffer; a refused access ends it CHANNEL_FAILED after the octets
before it. -/
def execDrcCopy (entry : Nat) (flips : List Flip) (s : State) : Host.Outcome State Fault Refusal :=
  let s := s.applyFlips flips
  .next (
    match s.activeItem Pg.drc 1 entry with
    | none => s
    | some i =>
      if !s.ready Dm.drc then s.wake Dm.drc
      else if (!inWindow i.addrA i.length && !inWindow i.addrB i.length) || s.drcRangeBad i.addrA i.length ||
          s.drcRangeBad i.addrB i.length then s.drcFinish i Sc.internal 0 {}
      else
        match s.rangeStatus i.addrA i.length, s.rangeStatus i.addrB i.length with
        | .stall d, _ => s.wake d
        | _, .stall d => s.wake d
        | _, _ =>
          let n := min (s.readyPrefix i.addrA i.length) (s.readyPrefix i.addrB i.length)
          match s.unitRead i.addrA n with
          | (s, .ok bs e) =>
            let (s, e') := s.putOctets i.addrB (bs.map (·.getD 0))
            let s := s.poisonCopied i.addrB bs
            let e := e.join { e' with bad := [] }
            s.drcFinish i (drcStatus (decide (n < i.length)) e i.replayed false) n e
          | (s, _) => s)

/-- The octets of a FILL: the pattern, little-endian, over and over. -/
def fillBytes (pattern : Word) (n : Nat) : List Byte := ((List.replicate (n / 4) pattern).map bytesOfWord).flatten

/-- `FILL` (R379, R380). -/
def execDrcFill (entry : Nat) (flips : List Flip) (s : State) : Host.Outcome State Fault Refusal :=
  let s := s.applyFlips flips
  .next (
    match s.activeItem Pg.drc 2 entry with
    | none => s
    | some i =>
      if !s.ready Dm.drc then s.wake Dm.drc
      else if i.addrB % 4 ≠ 0 ∨ i.length % 4 ≠ 0 ∨ !inWindow i.addrB i.length ∨ s.drcRangeBad i.addrB i.length then
        s.drcFinish i Sc.internal 0 {}
      else match s.rangeStatus i.addrB i.length with
        | .stall d => s.wake d
        | _ =>
          let n := s.readyPrefix i.addrB i.length
          let (s, e) := s.putOctets i.addrB ((fillBytes (i.w 1) i.length).take n)
          let e := { e with bad := [] }
          s.drcFinish i (drcStatus (decide (n < i.length)) e i.replayed false) n e)

/-- `SCRUB`: every word of the range is read, and every corrected word written back (R379, R380). -/
def execDrcScrub (entry : Nat) (flips : List Flip) (s : State) : Host.Outcome State Fault Refusal :=
  let s := s.applyFlips flips
  .next (
    match s.activeItem Pg.drc 3 entry with
    | none => s
    | some i =>
      if !s.ready Dm.drc then s.wake Dm.drc
      else if i.addrA % 64 ≠ 0 ∨ i.length % 64 ≠ 0 ∨ !inWindow i.addrA i.length ∨ s.drcRangeBad i.addrA i.length then
        s.drcFinish i Sc.internal 0 {}
      else match s.rangeStatus i.addrA i.length with
        | .stall d => s.wake d
        | _ =>
          let n := s.readyPrefix i.addrA i.length
          match s.unitRead i.addrA n true with
          | (s, .ok _ e) => s.drcFinish i (drcStatus (decide (n < i.length)) e i.replayed true) n e
          | (s, _) => s)

/-! ### Domain (R367, R371) -/

/-- The domain leaves ON: every row is closed; a migration pauses. -/
def State.drcLeaves (s : State) : State := { s with drc := { s.drc with rows := [] } }

/-- The domain is OFF: the devices lose their contents, and every channel and rank is as at reset (R371). -/
def State.drcOff (s : State) : State :=
  let s := (List.range 4).foldl (fun s r => s.loseRegion (16 + r)) s
  { s with drc := {} }

/-- A soft reset or a forced OFF abandons a migration (R378). -/
def State.drcAbandon (s : State) : State := s.migStop

end Sys2Proof.Machine
end

