-- ==== Sys2Proof/Machine/Crypto.lean ====
section
/-! DEFINITION. The algorithms that the spec names by their standards: SHA-256 (FIPS 180-4), AES (FIPS 197)
and its modes, and elliptic-curve arithmetic on P-256 (FIPS 186). PRESUMED: the spec names the
standards and does not restate them. -/

namespace Sys2Proof.Machine.Crypto

/-! ### SHA-256 -/

/-- The integer part of the `k`-th root of `n`, from bit `b` - 1 down, above `r`. -/
def rootFrom (k n : Nat) : Nat → Nat → Nat
  | 0, r => r
  | b + 1, r => rootFrom k n b (if (r + 2 ^ b) ^ k ≤ n then r + 2 ^ b else r)

/-- The first 32 bits of the fraction of the `k`-th root of a prime below 2^4 to the `k`. -/
def rootFraction (k p : Nat) : Word := BitVec.ofNat 32 (rootFrom k (p * 2 ^ (32 * k)) 37 0)

/-- The first 64 primes: none has a divisor below 18 but itself. -/
def primes : List Nat :=
  (List.range 312).filter (fun p => decide (2 ≤ p) && (List.range 18).all (fun d => d < 2 || p ≤ d || p % d != 0))

/-- The round constants, from cube roots, and the initial chaining value, from square roots. -/
def shaK : List Word := primes.map (rootFraction 3)
def shaInit : List Word := (primes.take 8).map (rootFraction 2)

def rotr (x : Word) (n : Nat) : Word := x.rotateRight n

/-- The message schedule, grown one word at a time; the list holds the latest word first. -/
def shaSchedule : Nat → List Word → List Word
  | 0, ws => ws
  | n + 1, ws =>
    let w2 := ws.getD 1 0
    let w7 := ws.getD 6 0
    let w15 := ws.getD 14 0
    let w16 := ws.getD 15 0
    let s0 := rotr w15 7 ^^^ rotr w15 18 ^^^ (w15 >>> 3)
    let s1 := rotr w2 17 ^^^ rotr w2 19 ^^^ (w2 >>> 10)
    shaSchedule n ((w16 + s0 + w7 + s1) :: ws)

/-- One round on the working variables a to h. -/
def shaRound (v : List Word) (kw : Word × Word) : List Word :=
  match v with
  | [a, b, c, d, e, f, g, h] =>
    let t1 := h + (rotr e 6 ^^^ rotr e 11 ^^^ rotr e 25) + ((e &&& f) ^^^ (~~~e &&& g)) + kw.1 + kw.2
    let t2 := (rotr a 2 ^^^ rotr a 13 ^^^ rotr a 22) + ((a &&& b) ^^^ (a &&& c) ^^^ (b &&& c))
    [t1 + t2, a, b, c, d + t1, e, f, g]
  | _ => v

/-- A big-endian word of four octets. -/
def wordBE (bs : List Byte) : Word := BitVec.ofNat 32 (natOfBytesBE (bs.take 4))

/-- Octets cut into big-endian words. -/
def wordsBE : Nat → List Byte → List Word
  | 0, _ => []
  | n + 1, bs => wordBE bs :: wordsBE n (bs.drop 4)

/-- One 64-octet block folded into the chaining value. -/
def shaBlock (h : List Word) (block : List Byte) : List Word :=
  let ws := (shaSchedule 48 (wordsBE 16 block).reverse).reverse
  (h.zip ((shaK.zip ws).foldl shaRound h)).map (fun p => p.1 + p.2)

/-- Octets cut into blocks of `k`. -/
def blocks (k : Nat) : Nat → List Byte → List (List Byte)
  | 0, _ => []
  | n + 1, bs => if bs.isEmpty then [] else bs.take k :: blocks k n (bs.drop k)

/-- SHA-256 of an octet string. -/
def sha256 (m : List Byte) : List Byte :=
  let n := m.length
  let pad := (119 - n % 64) % 64
  let msg := m ++ [0x80] ++ List.replicate pad 0 ++ bytesBE 8 (8 * n)
  (((blocks 64 (n / 64 + 2) msg).foldl shaBlock shaInit).map (fun w => bytesBE 4 w.toNat)).flatten

/-! ### AES -/

/-- The substitution table. -/
def sbox : List Byte :=
  [0x63, 0x7c, 0x77, 0x7b, 0xf2, 0x6b, 0x6f, 0xc5, 0x30, 0x01, 0x67, 0x2b, 0xfe, 0xd7, 0xab, 0x76,
   0xca, 0x82, 0xc9, 0x7d, 0xfa, 0x59, 0x47, 0xf0, 0xad, 0xd4, 0xa2, 0xaf, 0x9c, 0xa4, 0x72, 0xc0,
   0xb7, 0xfd, 0x93, 0x26, 0x36, 0x3f, 0xf7, 0xcc, 0x34, 0xa5, 0xe5, 0xf1, 0x71, 0xd8, 0x31, 0x15,
   0x04, 0xc7, 0x23, 0xc3, 0x18, 0x96, 0x05, 0x9a, 0x07, 0x12, 0x80, 0xe2, 0xeb, 0x27, 0xb2, 0x75,
   0x09, 0x83, 0x2c, 0x1a, 0x1b, 0x6e, 0x5a, 0xa0, 0x52, 0x3b, 0xd6, 0xb3, 0x29, 0xe3, 0x2f, 0x84,
   0x53, 0xd1, 0x00, 0xed, 0x20, 0xfc, 0xb1, 0x5b, 0x6a, 0xcb, 0xbe, 0x39, 0x4a, 0x4c, 0x58, 0xcf,
   0xd0, 0xef, 0xaa, 0xfb, 0x43, 0x4d, 0x33, 0x85, 0x45, 0xf9, 0x02, 0x7f, 0x50, 0x3c, 0x9f, 0xa8,
   0x51, 0xa3, 0x40, 0x8f, 0x92, 0x9d, 0x38, 0xf5, 0xbc, 0xb6, 0xda, 0x21, 0x10, 0xff, 0xf3, 0xd2,
   0xcd, 0x0c, 0x13, 0xec, 0x5f, 0x97, 0x44, 0x17, 0xc4, 0xa7, 0x7e, 0x3d, 0x64, 0x5d, 0x19, 0x73,
   0x60, 0x81, 0x4f, 0xdc, 0x22, 0x2a, 0x90, 0x88, 0x46, 0xee, 0xb8, 0x14, 0xde, 0x5e, 0x0b, 0xdb,
   0xe0, 0x32, 0x3a, 0x0a, 0x49, 0x06, 0x24, 0x5c, 0xc2, 0xd3, 0xac, 0x62, 0x91, 0x95, 0xe4, 0x79,
   0xe7, 0xc8, 0x37, 0x6d, 0x8d, 0xd5, 0x4e, 0xa9, 0x6c, 0x56, 0xf4, 0xea, 0x65, 0x7a, 0xae, 0x08,
   0xba, 0x78, 0x25, 0x2e, 0x1c, 0xa6, 0xb4, 0xc6, 0xe8, 0xdd, 0x74, 0x1f, 0x4b, 0xbd, 0x8b, 0x8a,
   0x70, 0x3e, 0xb5, 0x66, 0x48, 0x03, 0xf6, 0x0e, 0x61, 0x35, 0x57, 0xb9, 0x86, 0xc1, 0x1d, 0x9e,
   0xe1, 0xf8, 0x98, 0x11, 0x69, 0xd9, 0x8e, 0x94, 0x9b, 0x1e, 0x87, 0xe9, 0xce, 0x55, 0x28, 0xdf,
   0x8c, 0xa1, 0x89, 0x0d, 0xbf, 0xe6, 0x42, 0x68, 0x41, 0x99, 0x2d, 0x0f, 0xb0, 0x54, 0xbb, 0x16]

def sub (b : Byte) : Byte := sbox.getD b.toNat 0

/-- The inverse substitution. -/
def invSub (b : Byte) : Byte := BitVec.ofNat 8 (sbox.findIdx (fun x => x == b))

/-- Multiplication by x in GF(2^8). -/
def xtime (b : Byte) : Byte := (b <<< 1) ^^^ (if b.getLsbD 7 then 0x1b else 0)

/-- Multiplication in GF(2^8) by a constant of four bits. -/
def gmul (b : Byte) (c : Nat) : Byte :=
  (if c % 2 = 1 then b else 0) ^^^ (if c / 2 % 2 = 1 then xtime b else 0) ^^^
  (if c / 4 % 2 = 1 then xtime (xtime b) else 0) ^^^ (if c / 8 % 2 = 1 then xtime (xtime (xtime b)) else 0)

/-- The columns of a state of 16 octets, column by column. -/
def columns (st : List Byte) : List (List Byte) := blocks 4 4 st

/-- Row `r` shifted left by `r` octets; with `inv`, right. -/
def shiftRows (inv : Bool) (st : List Byte) : List Byte :=
  (List.range 16).map (fun k =>
    let r := k % 4
    let c := k / 4
    st.getD (4 * ((if inv then c + 4 - r else c + r) % 4) + r) 0)

/-- A column multiplied by a circulant matrix. -/
def mixColumn (m : List Nat) (col : List Byte) : List Byte :=
  (List.range 4).map (fun r =>
    ((List.range 4).map (fun k => gmul (col.getD k 0) (m.getD ((k + 4 - r) % 4) 0))).foldl (· ^^^ ·) 0)

def mixColumns (inv : Bool) (st : List Byte) : List Byte :=
  ((columns st).map (mixColumn (if inv then [14, 11, 13, 9] else [2, 3, 1, 1]))).flatten

/-- The expanded key as words of four octets, latest first; `nk` words of key. -/
def expandKey (nk : Nat) : Nat → Nat → Byte → List (List Byte) → List (List Byte)
  | 0, _, _, ws => ws
  | n + 1, i, rcon, ws =>
    let prev := ws.headD []
    let old := ws.getD (nk - 1) []
    if i % nk = 0 then
      let t := ((prev.drop 1 ++ prev.take 1).map sub)
      let t := match t with | a :: r => (a ^^^ rcon) :: r | [] => []
      expandKey nk n (i + 1) (xtime rcon) (xorBytes old t :: ws)
    else if 6 < nk ∧ i % nk = 4 then expandKey nk n (i + 1) rcon (xorBytes old (prev.map sub) :: ws)
    else expandKey nk n (i + 1) rcon (xorBytes old prev :: ws)

/-- The round keys of a 16- or 32-octet key. -/
def roundKeys (key : List Byte) : List (List Byte) :=
  let nk := key.length / 4
  let rounds := nk + 6
  let ws := (expandKey nk (4 * (rounds + 1) - nk) nk 1 (blocks 4 nk key).reverse).reverse
  blocks 16 (rounds + 1) ws.flatten

/-- AES of one block under expanded keys. -/
def aesRounds : List (List Byte) → List Byte → List Byte
  | [], st => st
  | [k], st => xorBytes (shiftRows false (st.map sub)) k
  | k :: ks, st => aesRounds ks (xorBytes (mixColumns false (shiftRows false (st.map sub))) k)

/-- AES encryption of one 16-octet block. -/
def aes (key block : List Byte) : List Byte :=
  match roundKeys key with
  | [] => block
  | k :: ks => aesRounds ks (xorBytes block k)

/-- The inverse rounds, with the round keys in reverse order. -/
def aesInvRounds : List (List Byte) → List Byte → List Byte
  | [], st => st
  | [k], st => xorBytes ((shiftRows true st).map invSub) k
  | k :: ks, st => aesInvRounds ks (mixColumns true (xorBytes ((shiftRows true st).map invSub) k))

/-- AES decryption of one block. -/
def aesInv (key block : List Byte) : List Byte :=
  match (roundKeys key).reverse with
  | [] => block
  | k :: ks => aesInvRounds ks (xorBytes block k)

end Sys2Proof.Machine.Crypto
end

