-- ==== Sys2Proof/Machine/Cipher.lean ====
section
/-! DEFINITION. The cipher modes of AES (CTR, GCM, CCM*, CMAC), the key derivation of SP 800-108, and ECDSA on
P-256 (R302, R315, R317, R347). PRESUMED: the spec names the standards and does not restate them. -/

namespace Sys2Proof.Machine.Crypto

/-! ### Counters and CTR (R347) -/

/-- A counter block advanced by `k`: the last four octets count big-endian, modulo 2^32. -/
def ctrAdd (block : List Byte) (k : Nat) : List Byte :=
  block.take 12 ++ bytesBE 4 ((natOfBytesBE (block.drop 12) + k) % 2 ^ 32)

/-- `n` octets of key stream from a counter block on. -/
def keystream (key block : List Byte) (n : Nat) : List Byte :=
  ((List.range ((n + 15) / 16)).flatMap (fun k => aes key (ctrAdd block k))).take n

/-- Encryption and decryption in counter mode. -/
def ctr (key block data : List Byte) : List Byte := xorBytes data (keystream key block data.length)

/-- Octets padded with zeros to a whole number of blocks. -/
def padBlock (bs : List Byte) : List Byte := bs ++ List.replicate ((16 - bs.length % 16) % 16) 0

/-- Blocks of sixteen octets. -/
def blocks16 (bs : List Byte) : List (List Byte) := blocks 16 (bs.length / 16 + 1) bs

/-! ### GF(2^128) and GCM -/

/-- The product of two elements of GF(2^128), each a number whose most significant of 128 bits is the
coefficient of x^0: one bit of `x` per step. -/
def gfSteps : Nat → Nat → Nat → Nat → Nat
  | 0, _, _, z => z
  | n + 1, x, v, z =>
    let z := if x.testBit n then z ^^^ v else z
    let v' := if v % 2 = 1 then (v / 2) ^^^ (0xE1 <<< 120) else v / 2
    gfSteps n x v' z

/-- Multiplication of blocks in GF(2^128). -/
def gfMul (a b : List Byte) : List Byte := bytesBE 16 (gfSteps 128 (natOfBytesBE a) (natOfBytesBE b) 0)

/-- GHASH of whole blocks. -/
def ghash (h : List Byte) (bs : List (List Byte)) : List Byte :=
  bs.foldl (fun y b => gfMul (xorBytes y b) h) (List.replicate 16 0)

/-- The first counter block of GCM with a 12-octet IV. -/
def gcmJ0 (iv : List Byte) : List Byte := padTo 12 iv ++ [0, 0, 0, 1]

/-- The full GCM tag over AAD and ciphertext. -/
def gcmTag (key iv aad c : List Byte) : List Byte :=
  let h := aes key (List.replicate 16 0)
  let s := ghash h (blocks16 (padBlock aad) ++ blocks16 (padBlock c) ++ [bytesBE 8 (8 * aad.length) ++ bytesBE 8 (8 * c.length)])
  xorBytes s (aes key (gcmJ0 iv))

/-- The counter block of the first payload block of GCM. -/
def gcmCtr (iv : List Byte) : List Byte := ctrAdd (gcmJ0 iv) 1

/-! ### CCM* (IEEE 802.15.4-2020), nonce of 13 octets, length field of two -/

/-- CBC-MAC of whole blocks. -/
def cbcMac (key : List Byte) (bs : List (List Byte)) : List Byte :=
  bs.foldl (fun y b => aes key (xorBytes y b)) (List.replicate 16 0)

/-- The CCM* tag of `m` octets, before encryption. -/
def ccmMac (key nonce aad p : List Byte) (m : Nat) : List Byte :=
  let flags := (if aad.isEmpty then 0 else 64) + (if m = 0 then 0 else 8 * ((m - 2) / 2)) + 1
  let b0 := [BitVec.ofNat 8 flags] ++ padTo 13 nonce ++ bytesBE 2 p.length
  let a := if aad.isEmpty then [] else padBlock (bytesBE 2 aad.length ++ aad)
  (cbcMac key (b0 :: blocks16 a ++ blocks16 (padBlock p))).take m

/-- Counter block `i` of CCM*. -/
def ccmCtr (nonce : List Byte) (i : Nat) : List Byte := [1] ++ padTo 13 nonce ++ bytesBE 2 i

/-- The encrypted tag of a payload. -/
def ccmTag (key nonce aad p : List Byte) (m : Nat) : List Byte :=
  xorBytes (ccmMac key nonce aad p m) (aes key (ccmCtr nonce 0))

/-- CCM* of a payload: ciphertext and tag. -/
def ccmEncrypt (key nonce aad p : List Byte) (m : Nat) : List Byte × List Byte :=
  (ctr key (ccmCtr nonce 1) p, ccmTag key nonce aad p m)

/-- CCM* of a ciphertext and tag: the plaintext, and whether the tag agrees. -/
def ccmDecrypt (key nonce aad c tag : List Byte) : List Byte × Bool :=
  let p := ctr key (ccmCtr nonce 1) c
  (p, tag == ccmTag key nonce aad p tag.length)

/-! ### CMAC and the counter-mode KDF -/

/-- Doubling in the field of CMAC. -/
def cmacDouble (b : List Byte) : List Byte :=
  let v := natOfBytesBE b
  bytesBE 16 (((2 * v) % 2 ^ 128) ^^^ (if v.testBit 127 then 0x87 else 0))

/-- AES-CMAC, sixteen octets. -/
def cmac (key m : List Byte) : List Byte :=
  let k1 := cmacDouble (aes key (List.replicate 16 0))
  let n := if m.isEmpty then 0 else (m.length - 1) / 16
  let last := m.drop (16 * n)
  let fin := if last.length = 16 then xorBytes last k1
    else xorBytes (padTo 16 (last ++ [0x80])) (cmacDouble k1)
  aes key (xorBytes (cbcMac key (blocks16 (m.take (16 * n)))) fin)

/-- SP 800-108 in counter mode with CMAC: `bits` / 8 octets. -/
def kdf (key label context : List Byte) (bits : Nat) : List Byte :=
  ((List.range ((bits + 127) / 128)).flatMap (fun i =>
    cmac key (bytesBE 4 (i + 1) ++ label ++ [0] ++ context ++ bytesBE 4 bits))).take (bits / 8)

/-! ### ECDSA on P-256 -/

def p256 : Nat := 0xffffffff00000001000000000000000000000000ffffffffffffffffffffffff
def n256 : Nat := 0xffffffff00000000ffffffffffffffffbce6faada7179e84f3b9cac2fc632551
def b256 : Nat := 0x5ac635d8aa3a93e7b3ebbd55769886bc651d06b0cc53b0f63bce3c3e27d2604b
def gx256 : Nat := 0x6b17d1f2e12c4247f8bce6e563a440f277037d812deb33a0f4a13945d898c296
def gy256 : Nat := 0x4fe342e2fe1a7f9b8ee7eb4a7c0f9e162bce33576b315ececbb6406837bf51f5

/-- `x ^ e` modulo `m`, over the low `n` bits of `e`, most significant first. -/
def powMod : Nat → Nat → Nat → Nat → Nat → Nat
  | 0, _, _, _, acc => acc
  | n + 1, m, x, e, acc =>
    let a := acc * acc % m
    powMod n m x e (if e.testBit n then a * x % m else a)

/-- The inverse modulo a prime. -/
def invMod (m x : Nat) : Nat := powMod 256 m (x % m) (m - 2) 1

/-- A point in Jacobian coordinates; z = 0 is the point at infinity. -/
structure Jac where
  x : Nat
  y : Nat
  z : Nat
  deriving DecidableEq, Repr

def subP (a b : Nat) : Nat := (a + p256 - b % p256) % p256

/-- Doubling, with a = −3. -/
def Jac.dbl (p : Jac) : Jac :=
  let d := p.z * p.z % p256
  let g := p.y * p.y % p256
  let b := p.x * g % p256
  let a := 3 * subP p.x d * ((p.x + d) % p256) % p256
  let x := subP (a * a % p256) (8 * b)
  let z := subP (subP ((p.y + p.z) * (p.y + p.z) % p256) g) d
  { x, y := subP (a * subP (4 * b % p256) x % p256) (8 * g * g), z }

/-- Addition. -/
def Jac.add (p q : Jac) : Jac :=
  if p.z = 0 then q else if q.z = 0 then p
  else
    let z1 := p.z * p.z % p256
    let z2 := q.z * q.z % p256
    let u1 := p.x * z2 % p256
    let u2 := q.x * z1 % p256
    let s1 := p.y * z2 % p256 * q.z % p256
    let s2 := q.y * z1 % p256 * p.z % p256
    let h := subP u2 u1
    let r := subP s2 s1
    if h = 0 then (if r = 0 then p.dbl else ⟨1, 1, 0⟩)
    else
      let h2 := h * h % p256
      let h3 := h * h2 % p256
      let v := u1 * h2 % p256
      let x := subP (r * r % p256) (h3 + 2 * v)
      { x, y := subP (r * subP v x % p256) (s1 * h3), z := p.z * q.z % p256 * h % p256 }

/-- `k` times a point, over the low `n` bits of `k`. -/
def Jac.mul : Nat → Nat → Jac → Jac → Jac
  | 0, _, _, acc => acc
  | n + 1, k, p, acc =>
    let a := acc.dbl
    Jac.mul n k p (if k.testBit n then a.add p else a)

/-- Affine coordinates. -/
def Jac.affine (p : Jac) : Nat × Nat :=
  let zi := invMod p256 p.z
  let z2 := zi * zi % p256
  (p.x * z2 % p256, p.y * z2 % p256 * zi % p256)

def times (k : Nat) (p : Jac) : Jac := Jac.mul 256 k p ⟨1, 1, 0⟩
def base : Jac := ⟨gx256, gy256, 1⟩

/-- The octets of a public key: X then Y (R317). -/
def publicKey (d : Nat) : List Byte :=
  let (x, y) := (times d base).affine
  bytesBE 32 x ++ bytesBE 32 y

/-- The point of a public key lies on the curve. -/
def onCurve (x y : Nat) : Bool :=
  x < p256 && y < p256 && y * y % p256 == (x * x % p256 * x + (p256 - 3) * x + b256) % p256

/-- ECDSA verification of a digest. -/
def ecdsaVerify (key digest sig : List Byte) : Bool :=
  let x := natOfBytesBE (key.take 32)
  let y := natOfBytesBE ((key.drop 32).take 32)
  let r := natOfBytesBE (sig.take 32)
  let s := natOfBytesBE ((sig.drop 32).take 32)
  if !onCurve x y || r == 0 || s == 0 || n256 ≤ r || n256 ≤ s then false
  else
    let w := invMod n256 s
    let p := (times (natOfBytesBE digest * w % n256) base).add (times (r * w % n256) ⟨x, y, 1⟩)
    p.z % p256 != 0 && p.affine.1 % n256 == r

/-- ECDSA signature of a digest with private key `d` and nonce `k`. -/
def ecdsaSign (d k : Nat) (digest : List Byte) : List Byte :=
  let r := (times k base).affine.1 % n256
  let s := invMod n256 k * (natOfBytesBE digest + r * d) % n256
  bytesBE 32 r ++ bytesBE 32 s

/-- A private key or nonce from octets with 128 extra random bits (FIPS 186-5). -/
def scalarOf (c : List Byte) : Nat := natOfBytesBE c % (n256 - 1) + 1

end Sys2Proof.Machine.Crypto
end

