-- ==== Sys2Proof/Machine/Security.lean ====
section
/-! DEFINITION. The root of trust: the device root key, OTP and lifecycle, enrolment and owner roots, attestation,
the random source and the debug gate, and the SEC work items (R314 to R338). -/

namespace Sys2Proof.Machine

open Crypto

def State.setSec (s : State) (f : Sec → Sec) : State := { s with sec := f s.sec }
def State.setOtp (s : State) (f : Otp → Otp) : State := s.setSec (fun c => { c with otp := f c.otp })

/-- The octets of a text of ASCII characters. -/
def ascii (t : String) : List Byte := t.toList.map (fun c => BitVec.ofNat 8 c.toNat)

/-- `4 n` octets of values that no rule gives: the DRBG's output (R336). -/
def State.freshOctets : Nat → State → List Byte × State
  | 0, s => ([], s)
  | n + 1, s =>
    let (v, s) := s.fresh
    let (bs, s) := s.freshOctets n
    (bytesOfWord v ++ bs, s)

/-- `n` octets from the DRBG. -/
def State.random (s : State) (n : Nat) : List Byte × State :=
  let (bs, s) := s.freshOctets ((n + 3) / 4)
  (bs.take n, s)

/-! ### Keys of the part (R314 to R317) -/

def drk : List Byte := (List.range 8).flatMap (fun k => bytesOfWord (Config.drk k))
def kstor : List Byte := kdf drk (ascii "STOR") [] 256
def kapp : List Byte := kdf drk (ascii "APPL") [] 256

/-- The unit private key under a salt. -/
def unitKey (salt : List Byte) : Nat := scalarOf (kdf drk (ascii "UNIT") salt 384)

/-- A Varade root public key. -/
def varadeKey (i : Nat) : List Byte := (List.range 16).flatMap (fun k => bytesOfWord (Config.varadeRoot i k))

/-- DRK is known. -/
def State.pufOk (s : State) : Bool := s.sec.puf == some true

/-- The salt of the record in use, UNITID, and an owner slot. -/
def Otp.salt (o : Otp) : List Byte := Sparse.get [] o.salts (o.mark.getD 0)
def Otp.unitid (o : Otp) : List Byte := match o.mark with | some k => Sparse.get [] o.ids k | none => []
def Otp.owner (o : Otp) (n : Nat) : List Byte := Sparse.get [] o.owners n
def Otp.unrevoked (o : Otp) (n : Nat) : Bool := !(o.owner n).isEmpty && !Sparse.get false o.revoked n
def Otp.counter (o : Otp) (c : Nat) : Nat := Sparse.get 0 o.rollback c

/-- A signature by the unit key with purpose `p` (R317); the nonce comes from the DRBG. -/
def State.unitSign (s : State) (p : Nat) (m : List Byte) : List Byte × State :=
  let (c, s) := s.random 48
  (ecdsaSign (unitKey s.sec.otp.salt) (scalarOf c) (sha256 (BitVec.ofNat 8 p :: m)), s)

/-- `DRK_RECONSTRUCT_DONE`: the reconstruction ends; parts whose helper data is destroyed never succeed. -/
def execDrkReconstructDone (ok : Bool) (s : State) : Host.Outcome State Fault Refusal :=
  .next (
    if !s.domOn Dm.sec ∨ s.sec.puf.isSome then s
    else
      let good := ok && !s.sec.otp.helperGone
      let s := s.setSec (fun c => { c with puf := some good })
      if good then s else s.event Pg.sec 3)

/-! ### SEC items (R336, R337) -/

/-- The SEC item whose turn it is: the first of those that execute, once DRK reconstruction is over. -/
def State.secItem (s : State) (op entry : Nat) : Option Item :=
  match s.item entry with
  | some i =>
    if i.unit = Pg.sec ∧ i.opcode = op ∧ i.st = .active ∧ i.result = none ∧ (i.timed → i.launched) ∧ s.sec.puf.isSome ∧ s.ready Dm.sec ∧
        s.fetchTurn i then
      some i
    else none
  | none => none

/-- A SEC or PAL item reads memory as initiator SEC; a refused access is recorded, with the item's ring (R334). -/
def State.secIn (s : State) (i : Item) (a n : Nat) (k : State → List Byte → State) : State :=
  match s.unitRead a n with
  | (s, .waits) => s
  | (s, .refused) => (s.raise Pg.sec .sec (a + s.readyPrefix a n) i.ring 0x20).finish i.id { status := Sc.channelFailed }
  | (s, .ok bs _) =>
    match knownBytes bs with
    | none => s.finish i.id { status := Sc.mediaUncorrectable }
    | some bs => k s bs

/-- A SEC or PAL item writes memory. -/
def State.secOut (s : State) (i : Item) (a : Nat) (bs : List Byte) (k : State → State) : State :=
  match s.unitWrite a bs with
  | (s, .waits) => s
  | (s, .refused) => (s.raise Pg.sec .sec (a + s.readyPrefix a bs.length) i.ring 0x20).finish i.id { status := Sc.channelFailed }
  | (s, .ok _ _) => k s

/-- An item fails: WB_DATA holds the number of the failing check, where its list of checks has numbers; a
check that no list numbers leaves a free value there. -/
def State.secFail (s : State) (i : Item) (status : Nat) (check : Option Nat) : State :=
  match check with
  | some n => s.finish i.id { status, wb := n }
  | none =>
    let (v, s) := s.fresh
    s.finish i.id { status, wb := bits v 7 0 }

/-- An item is done, having written `n` octets. -/
def State.secDone (s : State) (i : Item) (n : Nat) : State := s.finish i.id { status := Sc.done, actual := n }

/-- The item of `op` runs with the right LENGTH. -/
def State.secRun (s : State) (op entry : Nat) (len : Option Nat) (k : State → Item → State) : State :=
  match s.secItem op entry with
  | none => s
  | some i => if len.isSome ∧ len ≠ some i.length then s.secFail i Sc.internal none else k s i

/-- `HASH`. -/
def execSecHash (entry : Nat) (flips : List Flip) (s : State) : Host.Outcome State Fault Refusal :=
  .next ((s.applyFlips flips).secRun 1 entry none (fun s i =>
    s.secIn i i.addrA i.length (fun s m => s.secOut i i.addrB (sha256 m) (fun s => s.secDone i 32))))

/-- `VERIFY`. -/
def execSecVerify (entry : Nat) (flips : List Flip) (s : State) : Host.Outcome State Fault Refusal :=
  .next ((s.applyFlips flips).secRun 2 entry (some 160) (fun s i =>
    s.secIn i i.addrA 160 (fun s m =>
      if ecdsaVerify ((m.drop 32).take 64) (m.take 32) (m.drop 96) then s.secDone i 0
      else s.secFail i Sc.authFail none)))

/-- What every use of the unit key needs: an enrolment, a healthy random source where `rnd`, and DRK, which RETIRED has
not (R319, R337). -/
def State.needUnit (s : State) (i : Item) (rnd : Bool) (k : State → State) : State :=
  if s.sec.otp.life = 1 ∨ (rnd ∧ !s.sec.healthy) then s.secFail i Sc.internal none
  else if s.sec.otp.life ≠ 3 ∨ !s.pufOk then s.finish i.id { status := Sc.keyAbsent }
  else k s

/-- `SIGN`. -/
def execSecSign (entry : Nat) (flips : List Flip) (s : State) : Host.Outcome State Fault Refusal :=
  .next ((s.applyFlips flips).secRun 3 entry (some 32) (fun s i =>
    s.needUnit i true (fun s => s.secIn i i.addrA 32 (fun s m =>
      let (sig, s) := s.unitSign 1 m
      s.secOut i i.addrB sig (fun s => s.secDone i 64)))))

/-- `RANDOM`. -/
def execSecRandom (entry : Nat) (flips : List Flip) (s : State) : Host.Outcome State Fault Refusal :=
  .next ((s.applyFlips flips).secRun 4 entry none (fun s i =>
    if !s.sec.healthy then s.secFail i Sc.internal none
    else
      let (bs, s) := s.random i.length
      s.secOut i i.addrB bs (fun s => s.secDone i i.length)))

/-- HWTYPE (R318). -/
def State.hwtype (s : State) : Word := word (Config.part.toNat * 0x10000 + s.sec.otp.board.toNat)

/-- The 176 octets of an attestation report before its signature (R330). -/
def State.attestReport (s : State) (challenge : List Byte) : List Byte :=
  let o := s.sec.otp
  bytesLE 4 1 ++ bytesOfWord (s.hwtype) ++
  bytesLE 4 (o.life + s.sec.dbgOpen.toNat * 0x100 + bits (blkId Pg.sec) 15 8 * 0x10000) ++
  (List.range 4).map (fun c => BitVec.ofNat 8 (o.counter c)) ++ padTo 32 o.unitid ++ padTo 32 s.sec.root ++ padTo 32 s.sec.meas ++
  (List.range 4).flatMap (fun c => bytesOfWord (Sparse.get 0 s.sec.versions c)) ++
  bytesLE 4 (s.tim.trusted.toNat * 0x80000000 + s.tim.ns) ++ bytesLE 6 s.tim.sec ++ [BitVec.ofNat 8 s.tim.tgen, 0] ++
  padTo 32 challenge ++ bytesLE 4 0

/-- `ATTEST`. -/
def execSecAttest (entry : Nat) (flips : List Flip) (s : State) : Host.Outcome State Fault Refusal :=
  .next ((s.applyFlips flips).secRun 5 entry (some 32) (fun s i =>
    s.needUnit i true (fun s => s.secIn i i.addrA 32 (fun s m =>
      let r := s.attestReport m
      let (sig, s) := s.unitSign 2 r
      s.secOut i i.addrB (r ++ sig) (fun s => s.secDone i 240)))))

/-- MEAS is extended (R329). -/
def measExtend (meas : List Byte) (comp : Nat) (version digest : List Byte) : List Byte :=
  sha256 (meas ++ [BitVec.ofNat 8 comp] ++ version ++ digest)

/-- `EXTEND`: component 0xFF; no rule gives the version that goes with it. -/
def execSecExtend (entry : Nat) (flips : List Flip) (s : State) : Host.Outcome State Fault Refusal :=
  .next ((s.applyFlips flips).secRun 6 entry (some 32) (fun s i =>
    s.secIn i i.addrA 32 (fun s m =>
      let (v, s) := s.random 4
      (s.setSec (fun c => { c with meas := measExtend c.meas 0xFF v m })).secDone i 0)))

/-- `PUBKEY`. -/
def execSecPubkey (entry : Nat) (flips : List Flip) (s : State) : Host.Outcome State Fault Refusal :=
  .next ((s.applyFlips flips).secRun 7 entry (some 64) (fun s i =>
    s.needUnit i false (fun s =>
      s.secOut i i.addrB (publicKey (unitKey s.sec.otp.salt)) (fun s => s.secDone i 64))))

/-! ### Enrolment (R320 to R322) -/

/-- A little-endian word at offset `k`. -/
def leWord (bs : List Byte) (k : Nat) : Word := wordOfBytes (bs.drop k)

/-- A part of a list of octets. -/
def cut (bs : List Byte) (k n : Nat) : List Byte := (bs.drop k).take n

/-- The first check of R321 fails. -/
def State.enrolBad (s : State) (c : List Byte) : Bool :=
  let o := s.sec.otp
  o.life != 1 || leWord c 0 != 1 || bits (leWord c 4) 31 16 != Config.part.toNat ||
    (!(Sparse.get [] o.salts 0).isEmpty && !(Sparse.get [] o.salts 1).isEmpty) ||
    -- a torn attempt carried another certificate
    o.cert.any (· != c)

/-- The signature of the certificate is Varade's. -/
def State.enrolSigned (s : State) (c : List Byte) : Bool :=
  let v := (leWord c 76).toNat
  v ≤ 1 && !(v == 0 && s.sec.otp.vr0Revoked) && ecdsaVerify (varadeKey v) (sha256 (c.take 80)) (cut c 80 64)

/-- The six OTP writes of ENROLL, in order. -/
def enrolWrites (c salt id : List Byte) (rec : Nat) : List (Otp → Otp) :=
  [fun o => { o with salts := Sparse.set [] o.salts rec salt, cert := some c },
   fun o => { o with ids := Sparse.set [] o.ids rec id },
   fun o => { o with board := o.board ||| BitVec.ofNat 16 (bits (leWord c 4) 15 0), mark := some rec },
   fun o => { o with owners := Sparse.set [] o.owners 0 (sha256 (cut c 8 64)) },
   fun o => { o with plainKey := bit (leWord c 72) 0, varadeDbg := bit (leWord c 72) 1 },
   fun o => { o with life := 3 }]

/-- `ENROLL`: `writes` of the six OTP writes are made before the supply fails; 6 or more are all. -/
def execSecEnroll (entry writes : Nat) (flips : List Flip) (s : State) : Host.Outcome State Fault Refusal :=
  .next ((s.applyFlips flips).secRun 8 entry (some 144) (fun s i =>
    s.secIn i i.addrA 144 (fun s c =>
      if s.enrolBad c then s.secFail i Sc.internal (some 1)
      else if !s.sec.healthy then s.secFail i Sc.internal none
      else if !s.pufOk then s.finish i.id { status := Sc.keyAbsent }
      else if !s.enrolSigned c then s.secFail i Sc.authFail (some 3)
      else if s.rangeStatus i.addrB 160 ≠ .ready then s.secOut i i.addrB (List.replicate 160 0) (fun s => s)
      else
        let slot := if (Sparse.get [] s.sec.otp.salts 0).isEmpty then 0 else 1
        let (salt, s) := s.random 32
        let pub := publicKey (unitKey salt)
        let id := sha256 pub
        let s := s.setOtp (fun o => ((enrolWrites c salt id slot).take writes).foldl (fun o f => f o) o)
        if writes < 6 then s
        else
          let (sig, s) := s.unitSign 3 (pub ++ bytesOfWord s.hwtype ++ s.sec.otp.owner 0)
          s.secOut i i.addrB (pub ++ id ++ sig) (fun s => s.secDone i 160))))

/-! ### Owner commands (R323, R319) -/

/-- The checks of R323, by number: the first that fails, with its status. -/
def State.ownerCheck (s : State) (c : List Byte) : Option (Nat × Nat) :=
  let o := s.sec.otp
  let cmd := (leWord c 0).toNat
  let target := bits (leWord c 4) 1 0
  let signer := bits (leWord c 4) 9 8
  if o.life ≠ 3 ∨ cmd = 0 ∨ 3 < cmd then some (1, Sc.internal)
  else if cut c 8 32 ≠ o.unitid then some (2, Sc.authFail)
  else if !o.unrevoked signer ∨ o.owner signer ≠ sha256 (cut c 104 64) then some (3, Sc.authFail)
  else if !ecdsaVerify (cut c 104 64) (sha256 (c.take 168)) (cut c 168 64) then some (4, Sc.authFail)
  else if cmd = 1 ∧ !(o.owner target).isEmpty then some (5, Sc.internal)
  else if cmd = 2 ∧ !(List.range 4).any (fun n => n != target && o.unrevoked n) then some (5, Sc.internal)
  else none

/-- An OWNER_CMD item whose command is `cmd`, or none of the three, runs. -/
def State.ownerCmd (s : State) (cmd entry : Nat) (eff : List Byte → Otp → Otp) : State :=
  s.secRun 9 entry (some 232) (fun s i =>
    s.secIn i i.addrA 232 (fun s c =>
      let n := (leWord c 0).toNat
      if 1 ≤ n ∧ n ≤ 3 ∧ n ≠ cmd then s
      else match s.ownerCheck c with
        | some (k, status) => s.secFail i status (some k)
        | none => (s.setOtp (eff c)).secDone i 0))

/-- `OWNER_ADD`: the hash of the new root goes to the TARGET slot. -/
def execOwnerAdd (entry : Nat) (flips : List Flip) (s : State) : Host.Outcome State Fault Refusal :=
  .next ((s.applyFlips flips).ownerCmd 1 entry
    (fun c o => { o with owners := Sparse.set [] o.owners (bits (leWord c 4) 1 0) (sha256 (cut c 40 64)) }))

/-- `OWNER_REVOKE`. -/
def execOwnerRevoke (entry : Nat) (flips : List Flip) (s : State) : Host.Outcome State Fault Refusal :=
  .next ((s.applyFlips flips).ownerCmd 2 entry
    (fun c o => { o with revoked := Sparse.set false o.revoked (bits (leWord c 4) 1 0) true }))

/-- `OWNER_RETIRE`: the helper data is destroyed, and with RETIRED the keys of R315 are gone (R315, R319). -/
def execOwnerRetire (entry : Nat) (flips : List Flip) (s : State) : Host.Outcome State Fault Refusal :=
  let s := (s.applyFlips flips).ownerCmd 3 entry (fun _ o => { o with life := 7, helperGone := true })
  .next (if s.sec.otp.helperGone then s.setSec (fun c => { c with puf := c.puf.map (fun _ => false) }) else s)

/-! ### The random source (R338) -/

/-- `RNG_HEALTH_FAIL`. -/
def execRngHealthFail (s : State) : Host.Outcome State Fault Refusal :=
  .next (if !s.domOn Dm.sec then s
    else (s.setSec (fun c => { c with healthy := false, rngFails := satInc 16 c.rngFails })).event Pg.sec 2)

/-! ### The debug gate (R331 to R333) -/

/-- The current challenge. -/
def State.challenge (s : State) : List Byte := (List.range 4).flatMap (fun k => bytesOfWord (Config.challenge s.sec.chal k))

/-- `DEBUG_TOKEN_WRITE`: a debugger writes the mailbox. -/
def execDebugTokenWrite (octets : List Byte) (s : State) : Host.Outcome State Fault Refusal :=
  .next (if s.sec.lockout ∨ s.sec.token.isSome ∨ !s.domOn Dm.sec then s
    else s.setSec (fun c => { c with token := some (octets.take 192) }))

/-- The token is accepted. -/
def State.tokenGood (s : State) (t : List Byte) : Bool :=
  let o := s.sec.otp
  let sgn := leWord t 56
  let digest := sha256 (t.take 64)
  let sig := cut t 64 64
  cut t 8 32 == o.unitid && cut t 40 16 == s.challenge &&
  (if bit sgn 8 then o.varadeDbg && ecdsaVerify (varadeKey 1) digest sig
   else o.unrevoked (bits sgn 1 0) && o.owner (bits sgn 1 0) == sha256 (cut t 128 64) && ecdsaVerify (cut t 128 64) digest sig)

/-- `DEBUG_TOKEN_VERDICT`: the check ends. -/
def execDebugTokenVerdict (s : State) : Host.Outcome State Fault Refusal :=
  .next (match s.sec.token with
    | none => s
    | some t =>
      let good := s.tokenGood t
      (s.setSec (fun c =>
        { c with token := none, chal := c.chal + 1
                 dbgOpen := c.dbgOpen || good
                 perms := if good then c.perms ||| bits (leWord t 4) 2 0 else c.perms
                 fails := if good then c.fails else min 3 (c.fails + 1)
                 lockout := c.lockout || (!good && 3 ≤ c.fails + 1) })).event Pg.sec 1)

/-! ### The SEC page (R334, R335) -/

/-- Word `k` of octets in the order of SEC_MEAS: word 0 holds octets 3 to 0. -/
def State.secRead (s : State) (off : Nat) : Option Word :=
  let c := s.sec
  let o := c.otp
  let mask := fun (p : Nat → Bool) => ((List.range 4).map (fun n => if p n then 2 ^ n else 0)).sum
  if off = 0x800 then
    some (word (o.life * 0x1000000 + mask (fun n => !(o.owner n).isEmpty) * 0x10000 + mask (fun n => Sparse.get false o.revoked n) * 0x1000 +
      s.pufOk.toNat * 0x100 + o.mark.getD 0 * 0x20 + o.vr0Revoked.toNat * 0x10 + o.plainKey.toNat * 4 + o.varadeDbg.toNat * 2))
  else if off = 0x804 then
    some (word (c.result * 0x10000000 + c.comp * 0x1000000 + c.reason * 0x10000 + c.installed.toNat))
  else if off = 0x808 then some s.hwtype
  else if off = 0x80C then some (word ((List.range 4).map (fun n => o.counter n * 256 ^ n)).sum)
  else if 0x810 ≤ off ∧ off < 0x830 then some (leWord c.meas (off - 0x810))
  else if 0x830 ≤ off ∧ off < 0x850 then some (if o.life = 1 then 0 else leWord o.unitid (off - 0x830))
  else if 0x850 ≤ off ∧ off < 0x860 then some (Config.challenge c.chal ((off - 0x850) / 4))
  else if off = 0x860 then
    some (word (c.dbgOpen.toNat * 0x80000000 + c.lockout.toNat * 0x40000000 + c.token.isSome.toNat * 0x20000000 + c.fails * 0x100 + c.perms))
  else if off = 0x864 then some (word (c.healthy.toNat * 0x80000000 + c.rngFails))
  else none

end Sys2Proof.Machine
end

