-- ==== Sys2Proof/Machine/Palette.lean ====
section
/-! DEFINITION. Palette: pages and their owners, key handles, cipher items and streams, the two AES engines with
their priorities and suspension, and key items (R339 to R358). -/

namespace Sys2Proof.Machine

open Crypto

def State.setPal (s : State) (f : Pal → Pal) : State := { s with pal := f s.pal }

/-! ### Pages (R339 to R344) -/

/-- Pages 14 and 15 are LNK's. -/
def lnkPage (p : Nat) : Bool := p == 14 || p == 15

def State.palPage (s : State) (p : Nat) : PalState := Sparse.get .free s.pal.pages p
def State.setPalPage (s : State) (p : Nat) (x : PalState) : State :=
  s.setPal (fun q => { q with pages := Sparse.set .free q.pages p x })

def keyNo (p h : Nat) : Nat := 64 * p + h
def ctxNo (p c : Nat) : Nat := 8 * p + c
def State.palKey (s : State) (p h : Nat) : Option Key := Sparse.get none s.pal.keys (keyNo p h)
def State.setPalKey (s : State) (p h : Nat) (k : Option Key) : State :=
  s.setPal (fun q => { q with keys := Sparse.set none q.keys (keyNo p h) k })
def State.palCtx (s : State) (p c : Nat) : Option PalCtx := Sparse.get none s.pal.ctxs (ctxNo p c)
def State.setPalCtx (s : State) (p c : Nat) (x : Option PalCtx) : State :=
  s.setPal (fun q => { q with ctxs := Sparse.set none q.ctxs (ctxNo p c) x })

/-! Fields of a PAL item (R345). -/
def Item.palPage (i : Item) : Nat := i.uparam % 16
def Item.seg (i : Item) : Nat := i.uflags / 2 % 4
def Item.ctx (i : Item) : Nat := i.uflags / 8 % 8
def Item.urgent (i : Item) : Bool := i.uflags % 2 == 1

/-- Items of a page in flight. -/
def State.palInflight (s : State) (p : Nat) : Nat :=
  (s.flm.ift.filter (fun i => i.unit == Pg.pal && !i.unfetched && i.palPage == p)).length

/-- Every handle of a page is emptied and every context freed. -/
def State.emptyPage (s : State) (p : Nat) : State :=
  s.setPal (fun q => { q with keys := Sparse.keep (fun k => k / 64 != p) q.keys, ctxs := Sparse.keep (fun k => k / 8 != p) q.ctxs })

/-- A write of PAL_PG_CTRL (R341). -/
def State.palCtrlWrite (s : State) (ini : Initiator) (v : Word) : State :=
  let p := s.chsel Pg.pal ini
  let err := fun c => s.raise Pg.pal ini 0x104 p c
  if s.locked Pg.pal then s.lockedErr ini Pg.pal 0x104
  else match bits v 1 0 with
  | 1 => if !lnkPage p ∧ s.palPage p = .free then s.setPalPage p (.owned ini) else err 0x20
  | 2 =>
    if s.palPage p ≠ .owned ini then err 0x22
    else if s.palInflight p ≠ 0 then err 0x21
    else (s.emptyPage p).setPalPage p .scrubbing
  | 3 => s.raise Pg.pal ini 0x104 p Err.range
  | _ => s

/-- `PAGE_CLAIM` and `PAGE_RELEASE`: writes of PAL_PG_CTRL for the page of the writer's bank. -/
def execPageClaim (ini : Initiator) (s : State) : Host.Outcome State Fault Refusal :=
  .next (s.pageWrite ini Pg.pal 0x104 1 (fun s => s.palCtrlWrite ini 1))
def execPageRelease (ini : Initiator) (s : State) : Host.Outcome State Fault Refusal :=
  .next (s.pageWrite ini Pg.pal 0x104 2 (fun s => s.palCtrlWrite ini 2))

/-- `PAGE_SCRUB_DONE`. -/
def execPageScrubDone (page : Nat) (s : State) : Host.Outcome State Fault Refusal :=
  .next (if s.palPage page = .scrubbing then (s.setPalPage page .free).event Pg.pal 1 else s)

/-- The item may work on its page: the ring's OWNER owns it; pages 14 and 15 take key items of L0 and L1 only. -/
def State.palMay (s : State) (i : Item) (keyItem : Bool) : Bool :=
  let o := initiatorOf (s.wrOwner i.ring)
  if lnkPage i.palPage then keyItem && (o == .l0 || o == .l1)
  else s.palPage i.palPage == .owned o

/-! ### The parameter block (R346) -/

def pbUsage (b : List Byte) : Nat := bits (leWord b 0) 31 24
def pbTag (b : List Byte) : Nat := bits (leWord b 0) 20 16
def pbMode (b : List Byte) : Nat := bits (leWord b 0) 15 12
def pbAux (b : List Byte) : Nat := bits (leWord b 0) 11 6
def pbHandle (b : List Byte) : Nat := bits (leWord b 0) 5 0
def pbSize (b : List Byte) : Bool := bit (leWord b 4) 31
def pbAad (b : List Byte) : Nat := bits (leWord b 4) 23 0
def pbIv (b : List Byte) : List Byte := cut b 8 16
def pbTotal (b : List Byte) : Nat := (leWord b 24).toNat

/-- A key of a handle with the usage bit it needs. -/
def State.usable (s : State) (p h u : Nat) : Option (List Byte) :=
  match s.palKey p h with
  | some k => if k.usage.testBit u then some k.octets else none
  | none => none

/-- The usage bit that a cipher opcode needs. -/
def opUsage (op : Nat) : Nat := match op with | 1 => 0 | 2 => 1 | _ => 2

/-! ### Engines (R352 to R354) -/

/-- A message's item still executes. -/
def State.msgLive (s : State) (m : PalMsg) : Bool :=
  match s.item m.item with | some i => i.st == .active && i.result.isNone && i.unit == Pg.pal | none => false

/-- The message that an engine runs. -/
def State.engine (s : State) (e : Nat) : Option PalMsg :=
  match Sparse.get none s.pal.engines e with
  | some m => if s.msgLive m then some m else none
  | none => none

/-- The messages that are suspended. -/
def State.suspendedMsgs (s : State) : List (Nat × PalMsg) := s.pal.suspended.filter (fun p => s.msgLive p.2)

/-- An engine is free. -/
def State.engineFree (s : State) : Option Nat := [0, 1].find? (fun e => (s.engine e).isNone)

/-- A cipher item that could start: it has no message yet, and no earlier item of its context runs or waits (R349). -/
def State.palWaits (s : State) (i : Item) : Bool :=
  i.unit == Pg.pal && i.opcode ≤ 4 && 1 ≤ i.opcode && i.st == .active && i.result.isNone && (!i.timed || i.launched) &&
  [0, 1].all (fun e => (s.engine e).all (fun m => m.item != i.id)) && s.suspendedMsgs.all (fun p => p.2.item != i.id) &&
  (i.seg == 0 || (s.flm.ift.takeWhile (fun j => j.id != i.id)).all (fun j =>
    j.unit != Pg.pal || 4 < j.opcode || j.seg == 0 || j.palPage != i.palPage || j.ctx != i.ctx || j.result.isSome || j.st == .retiring))

/-- A message of an item, with its engine's copy of the key (R357). -/
def State.palMsg (s : State) (i : Item) (block : List Byte) : PalMsg :=
  let first := i.seg ≤ 1
  let h := if first then pbHandle block else ((s.palCtx i.palPage i.ctx).map (·.handle)).getD 0
  let key := if !s.palMay i false then none
    else if first then s.usable i.palPage h (opUsage i.opcode)
    else match s.palCtx i.palPage i.ctx with | some c => c.key | none => none
  { item := i.id, block, handle := h, key, urgent := i.urgent, order := s.pal.started }

/-- An engine starts a message. -/
def State.startMsg (s : State) (e : Nat) (m : PalMsg) : State :=
  s.setPal (fun q => { q with engines := Sparse.set none q.engines e (some { m with order := q.started }), started := q.started + 1 })

/-- An engine resumes a suspended message, which started when it first did. -/
def State.resumeMsg (s : State) (e : Nat) (m : PalMsg) : State :=
  s.setPal (fun q => { q with
    engines := Sparse.set none q.engines e (some m), suspended := q.suspended.filter (fun r => r.2.item != m.item) })

/-- An engine takes an item: for WHOLE and FIRST it reads the parameter block. -/
def State.takeItem (s : State) (e : Nat) (i : Item) : State :=
  if i.seg ≤ 1 then s.secIn i i.addrA 32 (fun s b => s.startMsg e (s.palMsg i b))
  else s.startMsg e (s.palMsg i [])

/-- `ENGINE_DISPATCH`: a free engine takes the next message by class (R352). -/
def execEngineDispatch (flips : List Flip) (s : State) : Host.Outcome State Fault Refusal :=
  let s := s.applyFlips flips
  .next (match s.engineFree with
    | none => s
    | some e =>
      if !s.ready Dm.sec ∨ s.sec.puf = none then s
      else match s.flm.ift.find? (fun i => s.palWaits i && i.urgent) with
        | some i => s.takeItem e i
        | none =>
          match s.suspendedMsgs with
          | p :: _ => s.resumeMsg e p.2
          | [] => match s.flm.ift.find? s.palWaits with
            | some i => s.takeItem e i
            | none => s)

/-- A frame of LNK is in its security path, or a transmission of it is under way. -/
def State.lnkFrame (s : State) : Bool :=
  !s.recv.queue.isEmpty || s.flm.ift.any (fun i => i.unit == Pg.lnk && i.opcode == 1 && i.st == .active)

/-- `MESSAGE_SUSPEND`: for a waiting message of class 1 (`lnk`) or 2 the engine whose message started later
suspends it at the last block boundary that `octets` of it have passed (R353). -/
def execMessageSuspend (lnk : Bool) (octets : Nat) (s : State) : Host.Outcome State Fault Refusal :=
  .next (match s.engine 0, s.engine 1 with
    | some a, some b =>
      let waits := (lnk && s.lnkFrame) || s.flm.ift.any (fun i => s.palWaits i && i.urgent)
      if a.urgent ∨ b.urgent ∨ !waits then s
      else
        let e := if a.order < b.order then 1 else 0
        let m := if e = 1 then b else a
        let s := match s.item m.item with
          | some i => s.count Pg.pal i.palPage 0x10C 15 0 1
          | none => s
        s.setPal (fun q => { q with
          engines := Sparse.set none q.engines e none
          suspended := q.suspended ++ [(e, { m with susp := satInc 8 m.susp, octets := octets / 16 * 16 })] })
    | _, _ => s)

/-! ### Cipher items (R345 to R351) -/

/-- The first counter block of a stream's payload. -/
def payloadCtr (mode : Nat) (iv : List Byte) : List Byte :=
  match mode with
  | 0 => iv
  | 1 => ccmCtr (iv.take 13) 1
  | _ => gcmCtr (iv.take 12)

/-- Payload octets encrypted or decrypted, `prior` octets into the stream. -/
def payloadOut (mode : Nat) (key iv : List Byte) (prior : Nat) (data : List Byte) : List Byte :=
  ctr key (ctrAdd (payloadCtr mode iv) (prior / 16)) data

/-- The tag of a whole stream whose payload in clear is `p` and encrypted `c`. -/
def streamTag (mode : Nat) (key iv aad p c : List Byte) (m : Nat) : List Byte :=
  match mode with
  | 0 => []
  | 1 => ccmTag key (iv.take 13) aad p m
  | 2 => (gcmTag key (iv.take 12) aad c).take m
  | _ => (cmac key p).take m

/-- The tag lengths and sizes of R347. -/
def modeSizes (mode m aad payload : Nat) : Bool :=
  match mode with
  | 0 => m == 0 && aad == 0
  | 1 => (m == 0 || (4 ≤ m && m ≤ 16 && m % 2 == 0)) && aad ≤ 65279 && payload ≤ 65535
  | 2 => m == 4 || m == 8 || (12 ≤ m && m ≤ 16)
  | _ => 4 ≤ m && m ≤ 16 && aad == 0

/-- The failing check of rank 6 (R350), in its order: 1 a reserved MODE, 2 sizes, 3 a breach of R349; and whether it is a
breach of R349's table, which changes nothing. DEDUCED: an item of another opcode than its stream's breaks the table. -/
def State.cipherBad (s : State) (i : Item) (b : List Byte) : Option (Nat × Bool) :=
  let mac := 3 ≤ i.opcode
  let c := s.palCtx i.palPage i.ctx
  let n := i.length
  match i.seg with
  | 0 | 1 =>
    let first := i.seg == 1
    let mode := pbMode b
    if 3 < mode ∨ mac ≠ (mode == 3) then some (1, false)
    else if n < pbAad b ∨ !modeSizes mode (pbTag b) (pbAad b) (if first then pbTotal b else n - pbAad b) then some (2, false)
    else if first ∧ (6 ≤ i.ctx ∨ c.isSome ∨ (n - pbAad b) % 16 ≠ 0) then some (3, true)
    else none
  | seg =>
    match c with
    | none => some (3, true)
    | some c =>
      if 6 ≤ i.ctx ∨ c.op ≠ i.opcode ∨ (seg = 2 ∧ n % 16 ≠ 0) then some (3, true)
      else if seg = 3 ∧ c.mode = 1 ∧ c.data.length + n ≠ c.total then some (3, false)
      else none

/-- The engine that runs an item is free again. -/
def State.leaveEngine (s : State) (entry : Nat) : State :=
  s.setPal (fun q => { q with engines := q.engines.filter (fun e => match e.2 with | some m => m.item != entry | none => false) })

/-- A cipher item ends: its REPORT words, and the context of a stream. -/
def State.cipherEnd (s : State) (i : Item) (m : PalMsg) (status wb actual processed : Nat) (unverified : Bool) (ctx : Option PalCtx) : State :=
  let s := s.leaveEngine i.id
  let s := if i.seg = 0 then s else s.setPalCtx i.palPage i.ctx ctx
  let s := if status = Sc.authFail then (s.count Pg.pal i.palPage 0x10C 31 16 1).event Pg.pal 0 else s
  s.finish i.id { status, wb, actual, rep6 := word processed
                  rep7 := word (unverified.toNat * 0x10000 + m.susp * 0x100 + (decide (m.susp ≠ 0)).toNat) }

/-- A cipher item with its stream as it stands before: `c.data` is what earlier segments read. -/
def State.cipherRun (s : State) (i : Item) (m : PalMsg) (c : PalCtx) (key data tag : List Byte) : State :=
  let last := i.seg = 0 ∨ i.seg = 3
  let prior := c.data.length
  let mac := 3 ≤ i.opcode
  let out := if mac then [] else payloadOut c.mode key c.iv prior data
  let all := c.data ++ data
  let other := if mac then [] else payloadOut c.mode key c.iv 0 all
  let full := if i.opcode = 2 then streamTag c.mode key c.iv c.aad other all c.m else streamTag c.mode key c.iv c.aad all other c.m
  let written := match i.opcode with
    | 1 => if last then out ++ full else out
    | 2 => out
    | 3 => if last then full else []
    | _ => []
  let next := if last then none else some { c with data := all }
  s.secOut i i.addrB written (fun s =>
    let checks := i.opcode = 2 ∨ i.opcode = 4
    if last ∧ checks ∧ tag ≠ full then s.cipherEnd i m Sc.authFail 0 written.length all.length false none
    else if !last ∧ i.opcode = 2 then s.cipherEnd i m Sc.doneWarn 0 written.length all.length true next
    else s.cipherEnd i m Sc.done 0 written.length all.length false next)

/-- The reads of a cipher item: its data at `a`, and the tag after it where it checks one. -/
def State.cipherRead (s : State) (i : Item) (m : PalMsg) (c : PalCtx) (key : List Byte) (a aad : Nat) : State :=
  let last := i.seg = 0 ∨ i.seg = 3
  let n := i.length + (if last ∧ (i.opcode = 2 ∨ i.opcode = 4) then c.m else 0)
  s.secIn i a n (fun s bs =>
    s.cipherRun i m { c with aad := c.aad ++ bs.take aad } key (cut bs aad (i.length - aad)) (bs.drop i.length))

/-- ENCRYPT, DECRYPT, MAC_GEN and MAC_CHECK: the engine that runs the item comes to its end (R350). -/
def State.palCipher (s : State) (op entry : Nat) : State :=
  match s.item entry, [0, 1].findSome? (fun e => (s.engine e).filter (fun m => m.item == entry)) with
  | some i, some m =>
    if i.opcode ≠ op then s
    else
      let c := s.palCtx i.palPage i.ctx
      let opened := i.seg ≤ 1 || c.isSome
      match m.key with
      | none => if opened ∨ !s.palMay i false then s.cipherEnd i m Sc.keyAbsent 0 0 0 false none
        else s.cipherEnd i m Sc.internal 3 0 0 false c
      | some key =>
        match s.cipherBad i m.block with
        | some (k, table) => s.cipherEnd i m Sc.internal k 0 0 false (if table then c else none)
        | none =>
          let b := m.block
          if i.seg ≤ 1 then
            let c : PalCtx := { handle := pbHandle b, mode := pbMode b, key := some key, op, iv := pbIv b, m := pbTag b, total := pbTotal b
                                aad := [], data := [] }
            s.cipherRead i m c key (i.addrA + 32) (pbAad b)
          else match c with
            | some c => s.cipherRead i m c key i.addrA 0
            | none => s
  | _, _ => s

/-- `ENCRYPT`, `DECRYPT`, `MAC_GEN` and `MAC_CHECK`. -/
def execPalEncrypt (entry : Nat) (flips : List Flip) (s : State) : Host.Outcome State Fault Refusal :=
  .next ((s.applyFlips flips).palCipher 1 entry)
def execPalDecrypt (entry : Nat) (flips : List Flip) (s : State) : Host.Outcome State Fault Refusal :=
  .next ((s.applyFlips flips).palCipher 2 entry)
def execPalMacGen (entry : Nat) (flips : List Flip) (s : State) : Host.Outcome State Fault Refusal :=
  .next ((s.applyFlips flips).palCipher 3 entry)
def execPalMacCheck (entry : Nat) (flips : List Flip) (s : State) : Host.Outcome State Fault Refusal :=
  .next ((s.applyFlips flips).palCipher 4 entry)

/-- Streams whose items were completed from outside end (R349). -/
def State.palAborted (s : State) (items : List Item) : State :=
  (items.filter (fun i => i.unit == Pg.pal && 1 ≤ i.opcode && i.opcode ≤ 4 && i.seg != 0)).foldl
    (fun s i => s.setPalCtx i.palPage i.ctx none) s

/-! ### Key items (R344, R355 to R357) -/

/-- A key item executes, with its parameter block. -/
def State.keyItem (s : State) (op entry : Nat) (k : State → Item → List Byte → State) : State :=
  match s.item entry with
  | some i =>
    if i.unit = Pg.pal ∧ i.opcode = op ∧ i.st = .active ∧ i.result = none ∧ (i.timed → i.launched) ∧ s.sec.puf.isSome ∧ s.ready Dm.sec ∧
        !s.pal.erases.any (fun e => e.2 == entry) then
      s.secIn i i.addrA 32 (fun s b => if s.palMay i true then k s i b else s.finish i.id { status := Sc.keyAbsent })
    else s
  | none => s

/-- INTERNAL, with the number of the failing check in rank 6 of R350. -/
def State.keyBad (s : State) (i : Item) (check : Nat) : State := s.finish i.id { status := Sc.internal, wb := check }

/-- A key is installed: on LNK's pages in both, as an AES-128 key for ENC, DEC and MAC. -/
def State.install (s : State) (i : Item) (h : Nat) (k : Key) : State :=
  if lnkPage i.palPage then
    let k := { k with usage := 7 }
    (s.setPalKey 14 h (some k)).setPalKey 15 h (some k)
  else s.setPalKey i.palPage h (some k)

/-- The target must be empty, and on LNK's pages the key AES-128. -/
def State.targetBad (s : State) (i : Item) (b : List Byte) (n : Nat) : Bool :=
  (s.palKey i.palPage (pbHandle b)).isSome || (lnkPage i.palPage && n != 16)

/-- The wrapping or source key that AUX names; none where it is absent. -/
def State.auxKey (s : State) (i : Item) (b : List Byte) (u : Nat) (own : List Byte) : Option (List Byte) :=
  if pbAux b = 0x3F then (if s.pufOk then some own else none) else s.usable i.palPage (pbAux b) u

/-- `KEY_LOAD`. -/
def execKeyLoad (entry : Nat) (flips : List Flip) (s : State) : Host.Outcome State Fault Refusal :=
  .next ((s.applyFlips flips).keyItem 8 entry (fun s i b =>
    if i.length ≠ 16 ∧ i.length ≠ 32 then s.keyBad i 2
    else if s.targetBad i b i.length then s.keyBad i 3
    else if !(s.sec.otp.life == 1 || (s.sec.otp.life == 3 && s.sec.otp.plainKey)) then s.keyBad i 4
    else s.secIn i (i.addrA + 32) i.length (fun s k =>
      (s.install i (pbHandle b) { origin := 0, usage := pbUsage b % 64, octets := k }).secDone i 0)))

/-- `KEY_UNWRAP`: nothing is written until the tag has passed (R355, R356). -/
def execKeyUnwrap (entry : Nat) (flips : List Flip) (s : State) : Host.Outcome State Fault Refusal :=
  .next ((s.applyFlips flips).keyItem 9 entry (fun s i b =>
    match s.auxKey i b 3 kstor with
    | none => s.finish i.id { status := Sc.keyAbsent }
    | some w =>
      if i.length ≠ 52 ∧ i.length ≠ 68 then s.keyBad i 2
      else if s.targetBad i b (i.length - 36) then s.keyBad i 3
      else s.secIn i (i.addrA + 32) i.length (fun s blob =>
        let n := i.length - 36
        let iv := blob.take 12
        let hdr := cut blob 12 8
        let c := cut blob 20 n
        if oct' hdr 0 ≠ 1 ∨ oct' hdr 1 ≠ (if n = 32 then 1 else 0) then s.keyBad i 2
        else if gcmTag w iv hdr c ≠ cut blob (20 + n) 16 then
          ((s.count Pg.pal i.palPage 0x10C 31 16 1).event Pg.pal 0).finish i.id { status := Sc.authFail }
        else
          (s.install i (pbHandle b) { origin := 1, usage := oct' hdr 2 % 64, octets := ctr w (gcmCtr iv) c }).finish i.id
            { status := Sc.done, rep6 := leWord hdr 4 })))
where
  /-- An octet as a number. -/
  oct' (bs : List Byte) (k : Nat) : Nat := (bs.getD k 0).toNat

/-- `KEY_WRAP`. -/
def execKeyWrap (entry : Nat) (flips : List Flip) (s : State) : Host.Outcome State Fault Refusal :=
  .next ((s.applyFlips flips).keyItem 10 entry (fun s i b =>
    match s.palKey i.palPage (pbHandle b), s.auxKey i b 3 kstor with
    | some k, some w =>
      if !k.usage.testBit 5 then s.finish i.id { status := Sc.keyAbsent }
      else if i.length ≠ 4 then s.keyBad i 2
      else if !s.sec.healthy then s.keyBad i 5
      else s.secIn i (i.addrA + 32) 4 (fun s label =>
        let (iv, s) := s.random 12
        let hdr := [1, if k.octets.length = 32 then 1 else 0, BitVec.ofNat 8 k.usage, 0] ++ label
        let c := ctr w (gcmCtr iv) k.octets
        let blob := iv ++ hdr ++ c ++ gcmTag w iv hdr c
        s.secOut i i.addrB blob (fun s => s.secDone i blob.length))
    | _, _ => s.finish i.id { status := Sc.keyAbsent }))

/-- `KEY_DERIVE`. -/
def execKeyDerive (entry : Nat) (flips : List Flip) (s : State) : Host.Outcome State Fault Refusal :=
  .next ((s.applyFlips flips).keyItem 11 entry (fun s i b =>
    let n := if pbSize b then 32 else 16
    match s.auxKey i b 4 kapp with
    | none => s.finish i.id { status := Sc.keyAbsent }
    | some src =>
      if 64 < i.length then s.keyBad i 2
      else if s.targetBad i b n then s.keyBad i 3
      else s.secIn i (i.addrA + 32) i.length (fun s label =>
        (s.install i (pbHandle b) { origin := 3, usage := pbUsage b % 64, octets := kdf src label [] (8 * n) }).secDone i 0)))

/-- `KEY_GEN`. -/
def execKeyGen (entry : Nat) (flips : List Flip) (s : State) : Host.Outcome State Fault Refusal :=
  .next ((s.applyFlips flips).keyItem 12 entry (fun s i b =>
    let n := if pbSize b then 32 else 16
    if s.targetBad i b n then s.keyBad i 3
    else if !s.sec.healthy then s.keyBad i 5
    else
      let (k, s) := s.random n
      (s.install i (pbHandle b) { origin := 2, usage := pbUsage b % 64, octets := k }).secDone i 0))

/-- Contexts, suspended ones among them, that use a handle lose its key (R357). -/
def State.loseKey (s : State) (p h : Nat) : State :=
  let mine := fun (m : PalMsg) => match s.item m.item with | some i => i.palPage == p && m.handle == h | none => false
  s.setPal (fun q => { q with
    keys := Sparse.set none q.keys (keyNo p h) none
    ctxs := q.ctxs.map (fun e => if e.1 / 8 = p then (e.1, e.2.map (fun c => if c.handle = h then { c with key := none } else c)) else e)
    suspended := q.suspended.map (fun e => if mine e.2 then (e.1, { e.2 with key := none }) else e) })

/-! ### Registers and windows (R340, R342, R343) -/

/-- KCV: the low 24 bits of the key's encryption of a zero block. -/
def kcv (key : List Byte) : Nat := natOfBytesBE ((aes key (List.replicate 16 0)).drop 13)

/-- A context is busy: an engine runs an item of it. -/
def State.ctxBusy (s : State) (p c : Nat) : Bool :=
  [0, 1].any (fun e => match s.engine e with
    | some m => (match s.item m.item with | some i => i.seg != 0 && i.palPage == p && i.ctx == c | none => false)
    | none => false)

/-- The three words of a context: CSTATE, octets processed, TOTAL. -/
def State.ctxWords (s : State) (p c : Nat) : List Word :=
  if c < 6 then
    match s.palCtx p c with
    | some x => [word ((if s.ctxBusy p c then 3 else 1) * 0x40000000 + x.handle * 0x1000000 + x.mode * 0x1000), word x.data.length, word x.total]
    | none => if s.ctxBusy p c then [word 0xC0000000, 0, 0] else [0, 0, 0]
  else
    match s.suspendedMsgs.find? (fun e => 6 + e.1 == c && (match s.item e.2.item with | some i => i.palPage == p | none => false)) with
    | some (_, m) =>
      -- a later segment has its stream's mode and TOTAL
      let x := match s.item m.item with | some i => if i.seg ≤ 1 then none else s.palCtx p i.ctx | none => none
      let mode := match x with | some x => x.mode | none => pbMode m.block
      let total := match x with | some x => x.total | none => pbTotal m.block
      [word (2 * 0x40000000 + m.handle * 0x1000000 + mode * 0x1000), word m.octets, word total]
    | none => [0, 0, 0]

/-- A word of a Palette window (R342). -/
def State.palWindow (s : State) (p off : Nat) : Word :=
  if off < 0x400 then
    match s.palKey p (off / 16) with
    | some k =>
      match off % 16 with
      | 0 => word (0x80000000 + k.origin * 0x10000000 + (if k.octets.length = 32 then 1 else 0) * 0x1000000 + k.usage)
      | 4 => word (kcv k.octets)
      | _ => 0
    | none => 0
  else if off < 0x500 then (s.ctxWords p ((off - 0x400) / 32)).getD (off % 32 / 4) 0
  else 0

/-- An initiator may read the window of a page (R342). -/
def State.palMayRead (s : State) (ini : Initiator) (p : Nat) : Bool :=
  (if lnkPage p then ini == .l0 || ini == .l1 else s.palPage p == .owned ini) ||
    (ini == .debug && s.sec.dbgOpen && s.sec.perms.testBit 2)

/-- The status registers of the page. -/
def State.palRead (s : State) (idx off : Nat) : Option Word :=
  match off with
  | 0x100 => some (if lnkPage idx then word 0x80000000 else match s.palPage idx with
      | .free => 0 | .owned i => word (0x40000000 + i.id * 0x1000000) | .scrubbing => word 0xC0000000)
  | 0x108 =>
    let h := ((List.range 64).filter (fun h => (s.palKey idx h).isSome)).length
    let c := ((List.range 8).map (fun c => if (s.ctxWords idx c).headD 0 ≠ 0 then 2 ^ c else 0)).sum
    some (word (s.palInflight idx * 0x10000 + h * 0x100 + c))
  | 0x800 =>
    let e := fun e => (match s.engine e with
        | some m => 0x8000 + (match s.item m.item with | some i => i.palPage * 0x100 | none => 0)
        | none => 0) + (s.suspendedMsgs.any (fun p => p.1 == e)).toNat * 0x4000
    some (word (e 0 + e 1 * 0x10000))
  | _ => none

end Sys2Proof.Machine
end

