-- ==== Sys2Proof/Machine/Easel.lean ====
section
/-! DEFINITION. Easel, the contactless link: the tag store, the tag role, and the reader with its work items
(R417 to R449). -/

namespace Sys2Proof.Machine

open Crypto

def State.setTag (s : State) (f : Tag → Tag) : State := { s with tag := f s.tag }
def State.tagReg (s : State) (off : Nat) : Word := s.reg Pg.tag 0 off
def State.tagCount (s : State) (hi lo k : Nat) : State := s.count Pg.tag 0 0x838 hi lo k

/-! ### Frames and records (R441 to R445) -/

section
variable {α : Type}

/-- A frame is valid (R442). -/
def TagFrame.valid (f : TagFrame α) : Bool := f.mark == .valid && f.crcOk

/-- A SEQ exceeds another by 1 to 32 767 modulo 2^16. -/
def seqAbove (x y : Nat) : Bool := let d := subMod 65536 x y; 1 ≤ d && d ≤ 32767

/-- The second frame is in force; `none` for an EMPTY record. -/
def TagRec.second (r : TagRec α) : Option Bool :=
  match r.a.valid, r.b.valid with
  | true, true => some (seqAbove r.b.seq r.a.seq)
  | true, false => some false
  | false, true => some true
  | false, false => none

/-- The frame in force. -/
def TagRec.frame (r : TagRec α) : Option (TagFrame α) := r.second.map (fun b => if b then r.b else r.a)

/-- The record reads from an older copy (R445): the frame with the higher SEQ is marked valid but fails its CRC. -/
def TagRec.stale (r : TagRec α) : Bool :=
  match r.second with
  | some b =>
    let f := if b then r.b else r.a
    let o := if b then r.a else r.b
    o.mark == .valid && !o.crcOk && seqAbove o.seq f.seq
  | none => false

/-- The frame that is not in force, replaced. -/
def TagRec.setOther (r : TagRec α) (f : TagFrame α) : TagRec α := if r.second = some false then { r with b := f } else { r with a := f }

/-- How a write ends. -/
inductive TagEnd where
  | done | failed | low | collapsed
  deriving DecidableEq, Repr

/-- Rounds of steps 1 to 4 from round `k` on, then MARK (R443, R444). -/
def TagRec.rounds (x : α) (w : TagWrite) (harvested : Bool) : Nat → Nat → TagRec α → TagRec α × TagEnd
  | 0, _, r => (r, .failed)
  | n + 1, k, r =>
    let seq := match r.frame with | some f => (f.seq + 1) % 65536 | none => 1
    let cut := match w.collapse with | some (j, st) => if harvested && j = k then some st else none | none => none
    match cut with
    | some .kill => (r.setOther { mark := .other }, .collapsed)
    | some .erase => (r.setOther { mark := .other }, .collapsed)
    | some .write => (r.setOther {}, .collapsed)
    | some .verify => (r.setOther {}, .collapsed)
    | some .mark => if k ≤ w.mismatches then (r.setOther {}, .collapsed) else (r.setOther { mark := .other, seq, body := some x, crcOk := true }, .collapsed)
    | none =>
      if k ≤ w.mismatches then
        if n = 0 then (r.setOther { mark := .dead }, .failed)
        else if harvested ∧ w.covered ≤ k then (r.setOther { mark := .dead }, .low)
        else TagRec.rounds x w harvested n (k + 1) r
      else (r.setOther { mark := .valid, seq, body := some x, crcOk := true }, .done)

/-- A record write (R443). -/
def TagRec.write (r : TagRec α) (x : α) (w : TagWrite) (harvested : Bool) : TagRec α × TagEnd :=
  if harvested ∧ w.covered = 0 then (r, .low) else TagRec.rounds x w harvested 3 1 r

/-- Retention loss in one frame. -/
def TagRec.decay (r : TagRec α) (b : Bool) : TagRec α :=
  if b then { r with b := { r.b with crcOk := false } } else { r with a := { r.a with crcOk := false } }
end

def State.tagRec (s : State) (r : Nat) : TagRec (List Byte) := Sparse.get {} s.tag.recs r
def State.setTagRec (s : State) (r : Nat) (x : TagRec (List Byte)) : State :=
  s.setTag (fun t => { t with recs := Sparse.set {} t.recs r x })

/-- The octets that a record reads as (R442). -/
def State.tagData (s : State) (r : Nat) : List Byte :=
  match (s.tagRec r).frame with
  | some f => f.body.getD (List.replicate 128 0xFF)
  | none => List.replicate 128 0xFF

/-- The system record in force. -/
def State.tagSys (s : State) : TagSys :=
  match s.tag.sys.frame with
  | some f => f.body.getD {}
  | none => {}

/-- Frames lose their contents in storage. -/
def State.decay (s : State) (l : List (Nat × Bool)) : State :=
  l.foldl (fun s (r, b) =>
    if r = 64 then s.setTag (fun t => { t with sys := t.sys.decay b })
    else if r < 64 then s.setTagRec r ((s.tagRec r).decay b) else s) s

/-- TAGROLE and the protection registers show the system record (R434). -/
def State.tagReload (s : State) : State :=
  let y := s.tagSys
  let s := s.setField Pg.tag 0 0x800 30 30 y.role.toNat
  (((s.setReg Pg.tag 0 0x820 y.fprot0).setReg Pg.tag 0 0x824 y.fprot1).setReg Pg.tag 0 0x828 y.fsec0).setReg Pg.tag 0 0x82C y.fsec1

/-- A read from an older copy is counted (R445). -/
def State.tagStale (s : State) : State := (s.tagCount 15 8 1).event Pg.tag 2

/-- The system record is written. -/
def State.writeSys (s : State) (y : TagSys) (w : TagWrite) : State × TagEnd :=
  let (r, e) := s.tag.sys.write y w false
  let s := s.setTag (fun t => { t with sys := r })
  ((if e = .failed then s.tagCount 7 0 1 else s).tagReload, e)

/-- A data record is written. -/
def State.writeRec (s : State) (n : Nat) (bs : List Byte) (w : TagWrite) (harvested : Bool) : State × TagEnd :=
  let (r, e) := (s.tagRec n).write bs w harvested
  let s := s.setTagRec n r
  (if e = .failed then s.tagCount 7 0 1 else s, e)

/-! ### The air link (R417 to R420) -/

/-- The cycles of a cell of 512 at which a dip of 128 starts (R417). -/
def cellDips : EaselCell → List Nat
  | .sof => [0, 256]
  | .bit b => [if b then 0 else 256]
  | .eof => []

/-- Bits of octets sent least significant first, with the CRC-16 of R130 after them. -/
def frameBits (bs : List Byte) : List Bool := bitsOfOctets (bs ++ fcsOf true bs)

/-- A command frame: SOF, the command octet and its parameters, the CRC-16, EOF (R420). -/
def downFrame (bs : List Byte) : List EaselCell := .sof :: (frameBits bs).map EaselCell.bit ++ [.eof]

/-- A reply on the air: SOF, then each bit with carrier in its first half for 1 and in its second for 0 (R418). -/
def upFrame (l : List Bool) : List (Bool × Bool) := ([true, true, false] ++ l).map (fun b => (b, !b))

/-- The bits of a reply up to its end, with the index of the first collision: energy in both halves; energy in neither ends
the reply (R419). -/
def hearBits : List (Bool × Bool) → Nat → List Bool × Option Nat
  | [], _ => ([], none)
  | (a, b) :: l, k =>
    if a || b then
      let (bs, c) := hearBits l (k + 1)
      (a :: bs, if a && b then some k else c)
    else ([], none)

/-- The bits of a reply after its SOF; `none` where no reply starts. -/
def hearReply (r : UpReply) : Option (List Bool × Option Nat) :=
  match r.halves with
  | (true, false) :: (true, false) :: (false, true) :: l => some (hearBits l 0)
  | _ => none

/-- What the reader makes of a reply (R419, R420): none, one whose CRC fails, a collision, or a status octet and data. -/
inductive TagAns where
  | silent | badCrc | collision
  | ok (status : Byte) (data : List Byte)
  deriving DecidableEq, Repr

def replyAnswer (r : UpReply) : TagAns :=
  match hearReply r with
  | none => .silent
  | some (_, some _) => .collision
  | some (l, none) =>
    let os := octetsOfBits (l.length / 8) l
    match os.take (os.length - 2) with
    | [] => .badCrc
    | st :: data => if l.length % 8 = 0 ∧ fcsOf true (st :: data) = os.drop (os.length - 2) then .ok st data else .badCrc

/-- What the reader makes of a reply to INVENTORY: the bits after the prefix, the index of the first collision, whether the
CRC-16 over all 64 bits is right (R420), and the level. -/
inductive InvAns where
  | silent
  | reply (bits : List Bool) (collision : Option Nat) (crcOk : Bool) (level : Byte)
  deriving DecidableEq, Repr

def replyInventory (r : UpReply) (p : List Bool) : InvAns :=
  match hearReply r with
  | none => .silent
  | some (l, c) =>
    let n := 64 - p.length
    .reply l (c.map (p.length + ·))
      (decide (l.length = n + 16) && l.drop n == bitsOfOctets (fcsOf true (octetsOfBits 8 (p ++ l.take n)))) r.level

/-! ### The tag role (R423 to R431, R440 to R447) -/

/-- The controller runs from the core supply (R440). -/
def State.tagCore (s : State) : Bool := s.domOn Dm.tag

/-- The tag answers with a payload. -/
def State.tagAnswer (s : State) (bs : List Byte) : State := s.setTag (fun t => { t with reply := upFrame (frameBits bs) })

/-- A command other than AUTH2 discards RA and RB; `st` says whether the tag takes commands. -/
def State.tagCommand (s : State) (auth2 : Bool) (k : State → State) : State :=
  if s.tag.st = .off ∨ s.tag.own then s
  else k (if auth2 then s else s.setTag (fun t => { t with held := none }))

/-- `FIELD_DETECT`: an external field appears. -/
def execFieldDetect (vbatOk : Bool) (decayed : List (Nat × Bool)) (s : State) : Host.Outcome State Fault Refusal :=
  .next (if s.tag.field then s
    else
      let s := (s.decay decayed).event Pg.tag 0
      let st : TagSt := if vbatOk && s.tagSys.role then .ready else .off
      s.setTag (fun t => { t with field := true, vbatOk, st, held := none }))

/-- `FIELD_LOST`: the session is dropped. -/
def execFieldLost (s : State) : Host.Outcome State Fault Refusal :=
  .next (s.setTag (fun t => { t with field := false, st := .off, held := none, reply := [], wreply := none }))

/-- `LOCKOUT_END`: the field has been absent for 1 s. -/
def execLockoutEnd (s : State) : Host.Outcome State Fault Refusal :=
  .next (if s.tag.field then s else s.setTag (fun t => if t.lockout then { t with lockout := false, fails := 0 } else t))

/-- A failure of R423 is counted in a field of TAG_CNT; the third locks out. -/
def State.tagFailure (s : State) (hi lo : Nat) : State :=
  (s.tagCount hi lo 1).setTag (fun t => { t with fails := t.fails + 1, lockout := t.lockout || 3 ≤ t.fails + 1 })

/-- The tag reaches SECURED. -/
def State.tagSecured (s : State) : State := s.setTag (fun t => { t with st := .secured, fails := 0, held := none })

/-- The bits of an identifier, bit 0 first (R425). -/
def idBits (id : List Byte) : List Bool := bitsOfOctets (padTo 8 id)

/-- `CMD_INVENTORY`: bits n to 63 and the CRC-16 over all 64. -/
def execCmdInventory (n : Nat) (pre : List Byte) (s : State) : Host.Outcome State Fault Refusal :=
  .next (s.tagCommand false (fun s =>
    let id := s.tagSys.id
    if s.tag.st = .ready ∧ n ≤ 64 ∧ (idBits id).take n = (idBits pre).take n then
      s.setTag (fun t => { t with reply := upFrame ((idBits id).drop n ++ bitsOfOctets (fcsOf true (padTo 8 id))) })
    else s))

/-- `CMD_SELECT`. -/
def execCmdSelect (id : List Byte) (s : State) : Host.Outcome State Fault Refusal :=
  .next (s.tagCommand false (fun s =>
    if s.tag.st = .quiet then s
    else if id = s.tagSys.id then
      (s.setTag (fun t => { t with st := if t.st = .ready then .opened else t.st })).tagAnswer [0]
    else s.setTag (fun t => { t with st := .ready })))

/-- `CMD_PWD`. -/
def execCmdPwd (password : List Byte) (s : State) : Host.Outcome State Fault Refusal :=
  .next (s.tagCommand false (fun s =>
    let pwd := s.tagSys.pwd
    if s.tag.st ≠ .opened then s
    else if s.tag.lockout then s.tagAnswer [5]
    else if pwd ≠ 0 ∧ wordOfBytes password = pwd then s.tagSecured.tagAnswer [0]
    else (s.tagFailure 31 24).tagAnswer [1]))

/-- TA or TR: the leading 8 octets of a block's encryption (R429). -/
def tagAuth (key x y : List Byte) : List Byte := (aes key (padTo 8 x ++ padTo 8 y)).take 8

/-- `CMD_AUTH1`. -/
def execCmdAuth1 (ra : List Byte) (s : State) : Host.Outcome State Fault Refusal :=
  .next (s.tagCommand false (fun s =>
    if s.tag.st ≠ .opened then s
    else if s.tag.lockout then s.tagAnswer [5]
    else match s.tagSys.key with
      | none => s.tagAnswer [1]
      | some k =>
        let (rb, s) := s.freshOctets 2
        (s.setTag (fun t => { t with held := some (padTo 8 ra, rb) })).tagAnswer ([0] ++ rb ++ tagAuth k ra rb)))

/-- `CMD_AUTH2`. -/
def execCmdAuth2 (tr : List Byte) (s : State) : Host.Outcome State Fault Refusal :=
  .next (s.tagCommand true (fun s =>
    if s.tag.st ≠ .opened then s
    else
      let good := match s.tag.held, s.tagSys.key with
        | some (ra, rb), some k => padTo 8 tr == tagAuth k rb ra
        | _, _ => false
      if good then s.tagSecured.tagAnswer [0] else (s.tagFailure 23 16).tagAnswer [1]))

/-- The info record (R431). -/
def State.infoRecord (s : State) : List Byte :=
  let y := s.tagSys
  let caps := (decide (y.pwd ≠ 0)).toNat + y.key.isSome.toNat * 2 + y.sig.isSome.toNat * 4
  padTo 128 (padTo 8 y.id ++ [1, 64, BitVec.ofNat 8 caps] ++ List.replicate 5 0 ++ padTo 64 (y.sig.getD []))

/-- A protection bit of a record. -/
def protBit (w0 w1 : Word) (r : Nat) : Bool := if r < 32 then bit w0 r else bit w1 (r - 32)

/-- The record's FSEC bit asks for SECURED, and the session is not. -/
def State.needsSecured (s : State) (r : Nat) : Bool :=
  protBit s.tagSys.fsec0 s.tagSys.fsec1 r && s.tag.st != .secured

/-- `CMD_READ`. -/
def execCmdRead (record offset length : Nat) (decayed : List (Nat × Bool)) (s : State) : Host.Outcome State Fault Refusal :=
  let s := s.decay decayed
  .next (s.tagCommand false (fun s =>
    if s.tag.st ≠ .opened ∧ s.tag.st ≠ .secured then s
    else if length < 1 ∨ 128 < length ∨ 128 < offset + length ∨ (64 ≤ record ∧ record ≠ 255) then s.tagAnswer [2]
    else if record = 255 then
      let st : Byte := if s.tag.sys.stale then 6 else 0
      (if s.tag.sys.stale then s.tagStale else s).tagAnswer (st :: (s.infoRecord.drop offset).take length)
    else if s.needsSecured record then s.tagAnswer [1]
    else
      let old := (s.tagRec record).stale
      let st : Byte := if old then 6 else 0
      (if old then s.tagStale else s).tagAnswer (st :: ((s.tagData record).drop offset).take length)))

/-- A field write completes (R447). -/
def State.fieldWritten (s : State) (r : Nat) : State :=
  let sec := s.tag.st = .secured
  (s.setTag (fun t => { t with dirty := Sparse.set false t.dirty r true, writes := Sparse.set 0 t.writes r (Sparse.get 0 t.writes r + 1)
                               secured := Sparse.set false t.secured r (decide sec) })).event Pg.tag 1

/-- `CMD_WRITE`: the answer waits for TAG_REPLY; a collapse of the supply leaves none. -/
def execCmdWrite (record : Nat) (data : List Byte) (how : TagWrite) (s : State) : Host.Outcome State Fault Refusal :=
  .next (s.tagCommand false (fun s =>
    let answer := fun (s : State) (b : Byte) => s.setTag (fun t => { t with wreply := some b })
    if (s.tag.st ≠ .opened ∧ s.tag.st ≠ .secured) ∨ data.length ≠ 128 then s
    else if 64 ≤ record then answer s 2
    else if s.needsSecured record ∨ protBit s.tagSys.fprot0 s.tagSys.fprot1 record then answer s 1
    else match s.writeRec record data how (!s.tagCore) with
      | (s, .done) => answer (s.fieldWritten record) 0
      | (s, .failed) => answer s 4
      | (s, .low) => answer s 3
      | (s, .collapsed) => s))

/-- `TAG_REPLY`: the reply slot after the write's end. -/
def execTagReply (s : State) : Host.Outcome State Fault Refusal :=
  .next (match s.tag.wreply with
    | some b => (s.setTag (fun t => { t with wreply := none })).tagAnswer [b]
    | none => s)

/-- `CMD_HALT`. -/
def execCmdHalt (s : State) : Host.Outcome State Fault Refusal :=
  .next (s.tagCommand false (fun s =>
    if s.tag.st = .opened ∨ s.tag.st = .secured then s.setTag (fun t => { t with st := .quiet }) else s))

/-- `DIRTY_REPORT`: the report of the lowest record that is dirty and not posted (R447). -/
def execDirtyReport (s : State) : Host.Outcome State Fault Refusal :=
  .next (
    if !s.domOn Dm.tag ∨ !bit (s.tagReg 0x83C) 31 then s
    else match (List.range 64).find? (fun r => Sparse.get false s.tag.dirty r && !Sparse.get false s.tag.posted r) with
      | none => s
      | some r =>
        let seq := match (s.tagRec r).frame with | some f => f.seq | none => 0
        let rep : Report := { unit := Pg.tag, tail := bits (s.tagReg 0x83C) 29 24, status := Sc.done, tag := word (0x01000000 + r)
                              ns := s.tim.ns, sec := s.tim.sec, rep6 := word seq
                              rep7 := word ((decide (1 < Sparse.get 0 s.tag.writes r)).toNat + (Sparse.get false s.tag.secured r).toNat * 2) }
        let s := s.setTag (fun t => { t with posted := Sparse.set false t.posted r true, writes := Sparse.set 0 t.writes r 0 })
        s.report rep)

/-! ### The reader (R435 to R439) -/

/-- A TAG item whose turn it is: one at a time, in fetch order. -/
def State.tagItem (s : State) (op entry : Nat) : Option Item :=
  match s.item entry with
  | some i =>
    if i.unit = Pg.tag ∧ i.opcode = op ∧ i.st = .active ∧ i.result = none ∧ (i.timed → i.launched) ∧ s.domOn Dm.tag ∧
        s.fetchTurn i then
      some i
    else none
  | none => none

/-- REPORT words of a TAG item (R439). -/
structure TagRep where
  exchanges : Nat := 0
  more : Bool := false
  stale : Bool := false
  cause : Nat := 0
  last : Nat := 0
  deriving DecidableEq, Repr

/-- A TAG item ends. -/
def State.tagEnd (s : State) (i : Item) (status : Nat) (r : TagRep) (actual : Nat := 0) (wb : Nat := 0) : State :=
  s.finish i.id { status, wb, actual, rep6 := word r.exchanges
                  rep7 := word (r.more.toNat + r.stale.toNat * 2 + r.cause % 16 * 16 + r.last % 256 * 256) }

/-- The field for a reader item: the sense, then the part's own field (R436). -/
def State.fieldOn (s : State) (i : Item) (foreign : Bool) (k : State → State) : State :=
  if !bit (s.tagReg 0x800) 31 then s.tagEnd i Sc.internal {}
  else if s.tag.own then k s
  else if foreign ∨ s.tag.field then
    ((s.setTag (fun t => { t with ext := true })).event Pg.tag 3).tagEnd i Sc.channelBusy {}
  else k (s.setTag (fun t => { t with own := true, ext := false, sess := 0, sel := [] }))

/-- What an exchange brings: a status octet and data, or the cause of its failure; and the exchanges made. -/
inductive ExRes where
  | ok (status : Nat) (data : List Byte) (n last : Nat)
  | fail (cause n last : Nat)

/-- An exchange and its retries (R437); `last` is the last status octet received. -/
def exchange : Nat → List TagAns → Nat → Nat → ExRes
  | tries, answers, n, last =>
    match tries with
    | 0 => .fail 1 n last
    | t + 1 =>
      let a := answers.headD .silent
      let again := fun cause last => if t = 0 then .fail cause (n + 1) last else exchange t answers.tail (n + 1) last
      match a with
      | .silent => again 1 last
      | .badCrc => again 2 last
      | .collision => again 3 last
      | .ok st data => if st = 3 then again 4 3 else .ok st.toNat data (n + 1) st.toNat

def State.tagTries (s : State) : Nat := bits (s.tagReg 0x804) 10 8 + 1

/-- The status that a cause gives (R438). -/
def causeStatus (c : Nat) : Nat := if c = 1 ∨ c = 4 then Sc.noAck else Sc.mediaUncorrectable

/-- One exchange of an item, with what follows a reply of OK or STALE; other replies end it (R438). -/
def State.tagExchange (s : State) (i : Item) (cmd : List Byte) (answers : List UpReply) (n0 : Nat)
    (k : State → List Byte → TagRep → State) : State :=
  let s := s.setTag (fun t => { t with sent := (if n0 = 0 then [] else t.sent) ++ [downFrame cmd] })
  match exchange s.tagTries (answers.map replyAnswer) n0 0 with
  | .fail c n last => s.tagEnd i (causeStatus c) { exchanges := n, cause := c, last }
  | .ok st data n last =>
    let r : TagRep := { exchanges := n, last }
    match st with
    | 0 => k s data r
    | 6 => k s data { r with stale := true }
    | 1 | 5 => s.tagEnd i Sc.authFail r
    | 4 => s.tagEnd i Sc.mediaUncorrectable { r with cause := 5 }
    | _ => s.tagEnd i Sc.internal r

/-- The octets of an item's source. -/
def State.tagSource (s : State) (i : Item) (n : Nat) (k : State → List Byte → State) : State :=
  match s.unitRead i.addrA n with
  | (s, .waits) => s
  | (s, .refused) => s.tagEnd i Sc.channelFailed {}
  | (s, .ok bs _) => match knownBytes bs with
    | none => s.tagEnd i Sc.mediaUncorrectable {}
    | some bs => k s bs

/-- Octets written at ADDR_B, and the end of the item. -/
def State.tagOut (s : State) (i : Item) (bs : List Byte) (status : Nat) (r : TagRep) (wb : Nat := 0) : State :=
  match s.unitWrite i.addrB bs with
  | (s, .waits) => s
  | (s, .refused) => s.tagEnd i Sc.channelFailed r
  | (s, .ok _ _) => s.tagEnd i status r bs.length wb

/-- The destination of an item answers, or the item waits for it. -/
def State.tagDest (s : State) (i : Item) (n : Nat) (k : State → State) : State :=
  match s.rangeStatus i.addrB n with
  | .stall d => s.wake d
  | _ => k s

/-- `SELECT`. -/
def execTagSelect (entry : Nat) (foreign : Bool) (answers : List UpReply) (flips : List Flip) (s : State) :
    Host.Outcome State Fault Refusal :=
  let s := s.applyFlips flips
  .next (match s.tagItem 2 entry with
    | none => s
    | some i =>
      if i.length ≠ 8 then s.tagEnd i Sc.internal {}
      else s.tagSource i 8 (fun s id => s.fieldOn i foreign (fun s =>
        let s := s.setTag (fun t => { t with sess := 0, sel := [] })
        s.tagExchange i (0x02 :: id) answers 0 (fun s _ r =>
          (s.setTag (fun t => { t with sess := 1, sel := id })).tagEnd i Sc.done r))))

/-- An item that addresses the selected tag. -/
def State.withTag (s : State) (i : Item) (foreign : Bool) (k : State → State) : State :=
  if s.tag.sess = 0 then s.tagEnd i Sc.internal {} else s.fieldOn i foreign k

/-- `PASSWORD`. -/
def execTagPassword (entry : Nat) (foreign : Bool) (answers : List UpReply) (flips : List Flip) (s : State) :
    Host.Outcome State Fault Refusal :=
  let s := s.applyFlips flips
  .next (match s.tagItem 3 entry with
    | none => s
    | some i =>
      if i.length ≠ 4 ∨ s.tag.sess = 0 then s.tagEnd i Sc.internal {}
      else s.tagSource i 4 (fun s pw => s.withTag i foreign (fun s =>
        s.tagExchange i (0x03 :: pw) answers 0 (fun s _ r =>
          (s.setTag (fun t => { t with sess := 2 })).tagEnd i Sc.done r))))

/-- `AUTHENTICATE`: RA from the DRBG, the AES blocks on a PAL engine under the named handle. -/
def execTagAuthenticate (entry : Nat) (foreign : Bool) (first second : List UpReply) (s : State) :
    Host.Outcome State Fault Refusal :=
  .next (match s.tagItem 4 entry with
    | none => s
    | some i =>
      if !s.ready Dm.sec then s.wake Dm.sec
      else if s.sec.puf = none ∨ s.engineFree = none then s
      else
        let h := i.addrB % 64
        let key := s.palKey i.palPage h
        if s.tag.sess = 0 ∨ key.any (fun k => k.octets.length != 16) ∨ !s.sec.healthy then s.tagEnd i Sc.internal {}
        else s.withTag i foreign (fun s =>
          match (if lnkPage i.palPage ∨ !s.palMay i false then none else s.usable i.palPage h 0) with
          | none => s.tagEnd i Sc.keyAbsent {}
          | some k =>
            let (ra, s) := s.random 8
            s.tagExchange i (0x04 :: ra) first 0 (fun s data r =>
              let rb := padTo 8 data
              if padTo 8 (data.drop 8) ≠ tagAuth k ra rb then s.tagEnd i Sc.authFail r
              else s.tagExchange i (0x05 :: tagAuth k rb ra) second r.exchanges (fun s _ r =>
                (s.setTag (fun t => { t with sess := 2 })).tagEnd i Sc.done r))))

/-- `READ`. -/
def execTagRead (entry : Nat) (foreign : Bool) (answers : List UpReply) (s : State) : Host.Outcome State Fault Refusal :=
  .next (match s.tagItem 5 entry with
    | none => s
    | some i =>
      let off := bits (i.w 1) 7 0
      let n := i.length
      if 128 < n ∨ 128 < off + n then s.tagEnd i Sc.internal {}
      else s.tagDest i n (fun s => s.withTag i foreign (fun s =>
        s.tagExchange i [0x06, BitVec.ofNat 8 (bits (i.w 1) 15 8), BitVec.ofNat 8 off, BitVec.ofNat 8 n] answers 0 (fun s data r =>
          s.tagOut i (padTo n data) (if r.stale then Sc.doneWarn else Sc.done) r))))

/-- `WRITE`. -/
def execTagWrite (entry : Nat) (foreign : Bool) (answers : List UpReply) (flips : List Flip) (s : State) :
    Host.Outcome State Fault Refusal :=
  let s := s.applyFlips flips
  .next (match s.tagItem 6 entry with
    | none => s
    | some i =>
      if i.length ≠ 128 ∨ s.tag.sess = 0 then s.tagEnd i Sc.internal {}
      else s.tagSource i 128 (fun s bs => s.withTag i foreign (fun s =>
        s.tagExchange i (0x07 :: BitVec.ofNat 8 (i.addrB % 256) :: bs) answers 0 (fun s _ r => s.tagEnd i Sc.done r))))

/-- `VERIFY_ORIGIN`. -/
def execTagVerifyOrigin (entry : Nat) (foreign : Bool) (answers : List UpReply) (flips : List Flip) (s : State) :
    Host.Outcome State Fault Refusal :=
  let s := s.applyFlips flips
  .next (match s.tagItem 7 entry with
    | none => s
    | some i =>
      if !s.ready Dm.sec then s.wake Dm.sec
      else if i.length ≠ 64 ∨ s.tag.sess = 0 then s.tagEnd i Sc.internal {}
      else s.tagSource i 64 (fun s key => s.withTag i foreign (fun s =>
        s.tagExchange i [0x06, 0xFF, 0, 128] answers 0 (fun s data r =>
          let info := padTo 128 data
          if info.take 8 ≠ s.tag.sel ∨ !ecdsaVerify key (sha256 (0x45 :: info.take 8)) ((info.drop 16).take 64) then
            s.tagEnd i Sc.authFail r
          else s.tagEnd i (if r.stale then Sc.doneWarn else Sc.done) r))))

/-- `HALT`: no reply is due. -/
def execTagHalt (entry : Nat) (foreign : Bool) (s : State) : Host.Outcome State Fault Refusal :=
  .next (match s.tagItem 8 entry with
    | none => s
    | some i => s.fieldOn i foreign (fun s =>
        (s.setTag (fun t => { t with sess := 0, sel := [], sent := [downFrame [0x08]] })).tagEnd i Sc.done { exchanges := 1 }))

/-- The state of a walk (R426): the stack of prefixes, tags found, counts, and answers left. -/
structure Walk where
  stack : List (List Bool)
  found : List (List Byte) := []
  abandoned : Nat := 0
  exchanges : Nat := 0
  sent : List (List EaselCell) := []
  answers : List UpReply
  deriving DecidableEq, Repr

/-- The INVENTORY command for a prefix (R421). -/
def invCommand (p : List Bool) : List Byte :=
  0x01 :: BitVec.ofNat 8 p.length :: octetsOfBits ((p.length + 7) / 8) (p ++ List.replicate 8 false)

/-- An INVENTORY exchange with its retries on a failing CRC. -/
def invExchange : Nat → List Bool → Walk → InvAns × Walk
  | 0, _, w => (.silent, w)
  | t + 1, p, w =>
    let a := replyInventory (w.answers.headD { halves := [] }) p
    let w := { w with answers := w.answers.tail, exchanges := w.exchanges + 1, sent := w.sent ++ [downFrame (invCommand p)] }
    match a with
    | .silent => (a, w)
    | .reply _ c crc _ =>
      let splits : Bool := match c with | some k => decide (k < 64) | none => false
      if splits || (c.isNone && crc) || t == 0 then (a, w) else invExchange t p w

/-- The walk, for at most as many prefixes as the first argument. -/
def walk (tries room : Nat) : Nat → Walk → Walk
  | 0, w => w
  | fuel + 1, w =>
    match w.stack with
    | [] => w
    | p :: rest =>
      if room ≤ w.found.length then w
      else
        let n := p.length
        let (a, w) := invExchange tries p { w with stack := rest }
        match a with
        | .silent => walk tries room fuel w
        | .reply bs c crc level =>
          match c with
          | some k =>
            if k < 64 then
              let q := p ++ (bs ++ List.replicate 64 false).take (k - n)
              walk tries room fuel { w with stack := (q ++ [false]) :: (q ++ [true]) :: w.stack }
            else walk tries room fuel { w with abandoned := w.abandoned + 1 }
          | none =>
            if crc then
              let id := octetsOfBits 8 ((p ++ bs ++ List.replicate 64 false).take 64)
              walk tries room fuel { w with found := w.found ++ [padTo 16 (id ++ [level])] }
            else walk tries room fuel { w with abandoned := w.abandoned + 1 }

/-- `INVENTORY`. -/
def execTagInventory (entry : Nat) (foreign : Bool) (answers : List UpReply) (flips : List Flip) (s : State) :
    Host.Outcome State Fault Refusal :=
  let s := s.applyFlips flips
  .next (match s.tagItem 1 entry with
    | none => s
    | some i =>
      if i.length % 16 ≠ 0 then s.tagEnd i Sc.internal {}
      else s.tagDest i i.length (fun s => s.tagSource i 16 (fun s block =>
        let n := (block.headD 0).toNat
        if 64 < n then s.tagEnd i Sc.internal {}
        else s.fieldOn i foreign (fun s =>
          let w := walk s.tagTries (i.length / 16) (2 * answers.length + 2) { stack := [(idBits (block.drop 8)).take n], answers }
          let s := s.setTag (fun t => { t with sent := w.sent })
          let more := !w.stack.isEmpty
          let s := match w.stack with
            | p :: _ => (s.putOctets i.addrA (BitVec.ofNat 8 p.length :: (block.drop 1).take 7 ++ octetsOfBits 8 (p ++ List.replicate (64 - p.length) false))).1
            | [] => s
          s.tagOut i w.found.flatten (if more ∨ w.abandoned ≠ 0 then Sc.doneWarn else Sc.done)
            { exchanges := w.exchanges, more } (w.abandoned % 128 * 256 + w.found.length % 256)))))

/-- `FIELD_HOLD_EXPIRE`: HOLD_MS have passed with no reader item in flight. -/
def execFieldHoldExpire (s : State) : Host.Outcome State Fault Refusal :=
  .next (if s.flm.ift.any (fun i => i.unit == Pg.tag && i.opcode ≤ 8) then s
    else s.setTag (fun t => { t with own := false, sess := 0, sel := [] }))

/-! ### Tag-role items (R448) -/

/-- `TSET`. -/
def execTagTset (entry : Nat) (how : TagWrite) (flips : List Flip) (s : State) : Host.Outcome State Fault Refusal :=
  let s := s.applyFlips flips
  .next (match s.tagItem 16 entry with
    | none => s
    | some i =>
      if i.length ≠ 80 then s.tagEnd i Sc.internal {}
      else s.tagSource i 80 (fun s b =>
        let flags := leWord b 12
        if bit flags 0 ∧ b.take 8 = List.replicate 8 0xFF then s.tagEnd i Sc.internal {}
        else if bit flags 2 ∧ !s.ready Dm.sec then s.wake Dm.sec
        else
          let key := if lnkPage i.palPage ∨ !s.palMay i false then none
            else (s.usable i.palPage (i.addrB % 64) 5).filter (fun k => k.length == 16)
          if bit flags 2 ∧ key = none then s.tagEnd i Sc.keyAbsent {}
          else
            let y := s.tagSys
            let y := if bit flags 0 then { y with id := b.take 8 } else y
            let y := if bit flags 1 then { y with pwd := leWord b 8 } else y
            let y := if bit flags 2 then { y with key } else y
            let y := if bit flags 3 then { y with sig := some (cut b 16 64) } else y
            match s.writeSys y how with
            | (s, .done) => s.tagEnd i Sc.done {}
            | (s, _) => s.tagEnd i Sc.mediaUncorrectable { cause := 5 }))

/-- The records `first` to `first + n - 1` as SREAD gives them; no rule lays record 64 out. -/
def State.sreadData : Nat → Nat → State → List Byte × State
  | 0, _, s => ([], s)
  | n + 1, r, s =>
    let (bs, s) := if r = 64 then s.freshOctets 32 else (s.tagData r, s)
    let (rest, s) := State.sreadData n (r + 1) s
    (bs ++ rest, s)

/-- `SREAD`. -/
def execTagSread (entry : Nat) (decayed : List (Nat × Bool)) (s : State) : Host.Outcome State Fault Refusal :=
  let s := s.decay decayed
  .next (match s.tagItem 17 entry with
    | none => s
    | some i =>
      let first := i.addrA
      let n := i.length / 128
      if i.length % 128 ≠ 0 ∨ 65 < first + n then s.tagEnd i Sc.internal {}
      else s.tagDest i i.length (fun s =>
        let stale := (List.range n).filter (fun k => if first + k = 64 then s.tag.sys.stale else (s.tagRec (first + k)).stale)
        let s := stale.foldl (fun s _ => s.tagStale) s
        let (bs, s) := State.sreadData n first s
        s.tagOut i bs (if stale.isEmpty then Sc.done else Sc.doneWarn) { stale := !stale.isEmpty }))

/-- Records written in order, until one fails; answers how many were. -/
def State.swriteAll : List (List Byte) → Nat → List TagWrite → Nat → State → State × Nat × Bool
  | [], _, _, k, s => (s, k, true)
  | bs :: more, r, how, k, s =>
    match s.writeRec r bs (how.headD ⟨0, 3, none⟩) false with
    | (s, .done) => State.swriteAll more (r + 1) how.tail (k + 1) s
    | (s, _) => (s, k, false)

/-- `SWRITE`. -/
def execTagSwrite (entry : Nat) (how : List TagWrite) (flips : List Flip) (s : State) : Host.Outcome State Fault Refusal :=
  let s := s.applyFlips flips
  .next (match s.tagItem 18 entry with
    | none => s
    | some i =>
      let n := i.length / 128
      if i.length % 128 ≠ 0 ∨ 64 < i.addrB + n then s.tagEnd i Sc.internal {}
      else s.tagSource i i.length (fun s bs =>
        let (s, k, ok) := State.swriteAll (blocks 128 n bs) i.addrB how 0 s
        s.tagEnd i (if ok then Sc.done else Sc.mediaUncorrectable) { cause := if ok then 0 else 5 } (128 * k)))

/-! ### Registers, commits and resets (R432 to R434, R449) -/

/-- The agreement rules of the TAG page. -/
def State.tagAgree (s : State) : Mismatch :=
  let role := bit (s.stagedReg Pg.tag 0 0x800) 30
  if role ∧ s.hasStaged Pg.tag 0 0x800 ∧ s.tagSys.id = List.replicate 8 0xFF then some (0, 0x800)
  else if bit (s.tagReg 0x83C) 31 ∧ !s.trEn (bits (s.tagReg 0x83C) 29 24) then some (0, 0x83C)
  else none

/-- A staged register that the system record holds awaits commit. -/
def State.tagNv (s : State) : Bool := [0x800, 0x820, 0x824, 0x828, 0x82C].any (s.hasStaged Pg.tag 0)

/-- The switch point of a commit: the end of the record's write, where it carries the record's fields. A write
that fails leaves the commit waiting. -/
def State.tagSwitch (s : State) (c : Commit) (mismatches : Nat) : State :=
  if s.tagNv then
    let g := fun o => s.stagedReg Pg.tag 0 o
    let y := { s.tagSys with role := bit (g 0x800) 30, fprot0 := g 0x820, fprot1 := g 0x824, fsec0 := g 0x828, fsec1 := g 0x82C }
    match s.writeSys y ⟨mismatches, 3, none⟩ with
    | (s, .done) => (s.switchCommit c).tagReload
    | (s, _) => s
  else s.switchCommit c

/-- STATE of TAG_TSTAT. -/
def TagSt.code : TagSt → Nat
  | .off => 0 | .ready => 1 | .opened => 2 | .secured => 3 | .quiet => 4

/-- The 32 flags of a register from a map. -/
def flagWord (m : Sparse Bool) (base : Nat) : Word := (List.range 32).foldl (fun w k => setBit w k (Sparse.get false m (base + k))) 0

/-- The computed registers of the page. -/
def State.tagPageRead (s : State) (off : Nat) : Option Word :=
  let t := s.tag
  match off with
  | 0x808 => some (word (t.own.toNat * 2 ^ 31 + t.ext.toNat * 2 ^ 30 + t.sess * 2 ^ 28))
  | 0x80C => some (leWord (padTo 8 t.sel) 0)
  | 0x810 => some (leWord (padTo 8 t.sel) 4)
  | 0x814 => some (word (t.field.toNat * 2 ^ 31 + t.vbatOk.toNat * 2 ^ 30 + s.tagCore.toNat * 2 ^ 29 + t.st.code * 2 ^ 25 + t.lockout.toNat * 2 ^ 24))
  | 0x818 => some (leWord (padTo 8 s.tagSys.id) 0)
  | 0x81C => some (leWord (padTo 8 s.tagSys.id) 4)
  | 0x830 => some (flagWord t.dirty 0)
  | 0x834 => some (flagWord t.dirty 32)
  | _ => none

/-- A write of TAG_DIRTY0 or TAG_DIRTY1: clearing a bit clears its posted flag. -/
def State.dirtyWrite (s : State) (base : Nat) (v : Word) : State :=
  s.setTag (fun t => { t with dirty := Sparse.keep (fun r => !(base ≤ r && r < base + 32 && bit v (r - base))) t.dirty
                              posted := Sparse.keep (fun r => !(base ≤ r && r < base + 32 && bit v (r - base))) t.posted })

/-- Reader items are completed from outside, or TAG leaves ON: the part's field drops and sessions end (R438). -/
def State.readerStops (s : State) : State := s.setTag (fun t => { t with own := false, sess := 0, sel := [] })

/-- The registers after a reset of the page or its domain. -/
def State.tagPageReset (s : State) : State := (s.readerStops.setTag (fun t => { t with ext := false })).tagReload

end Sys2Proof.Machine
end

