-- ==== Sys2Proof/Machine/Ethernet.lean ====
section
/-! DEFINITION. The Ethernet MAC: transmit items, received frames, the receive ring, MDIO, the link and the
magic packet (R261 to R265, R249, R463). -/

namespace Sys2Proof.Machine

/-! ### Frames and PTP (R263) -/

def be16 (bs : List Byte) (k : Nat) : Nat := natOfBytesBE ((bs.drop k).take 2)
def oct (bs : List Byte) (k : Nat) : Nat := (bs.getD k 0).toNat

/-- The transports over which an event message is recognised. -/
inductive PtpVia where
  | l2 | udp4 | udp6
  deriving DecidableEq, Repr

/-- Where the EtherType stands: behind one VLAN tag if there is one. -/
def etherTypeAt (f : List Byte) : Nat := if be16 f 12 = 0x8100 then 16 else 12

/-- The offset of a PTP message in a frame, and its transport. -/
def ptpAt (f : List Byte) : Option (PtpVia × Nat) :=
  let t := etherTypeAt f
  let p := t + 2
  if be16 f t = 0x88F7 then some (.l2, p)
  else if be16 f t = 0x0800 then
    let ihl := 4 * (oct f p % 16)
    if oct f (p + 9) = 17 ∧ be16 f (p + ihl + 2) = 319 then some (.udp4, p + ihl + 8) else none
  else if be16 f t = 0x86DD then
    if oct f (p + 6) = 17 ∧ be16 f (p + 42) = 319 then some (.udp6, p + 48) else none
  else none

/-- A recognised event message under ETH_PTPCFG: its transport, offset and messageType. -/
def ptpEvent (cfg : Word) (f : List Byte) : Option (PtpVia × Nat × Nat) :=
  match ptpAt f with
  | none => none
  | some (via, o) =>
    let on := match via with | .l2 => bit cfg 0 | .udp4 => bit cfg 1 | .udp6 => bit cfg 2
    let ty := oct f o % 16
    if bit cfg 31 && on && oct f (o + 1) % 16 == 2 && ty ≤ 3 && o + 44 ≤ f.length then some (via, o, ty) else none

/-- Octets of a frame replaced from an offset on. -/
def patch (f : List Byte) (k : Nat) (bs : List Byte) : List Byte := f.take k ++ bs ++ f.drop (k + bs.length)

/-- originTimestamp of a Sync: six octets of seconds and four of nanoseconds; over IPv4 the UDP checksum is
zeroed. -/
def oneStep (f : List Byte) (via : PtpVia) (o sec ns : Nat) : List Byte :=
  let f := patch f (o + 34) (bytesBE 6 sec ++ bytesBE 4 ns)
  if via = .udp4 then patch f (o - 2) [0, 0] else f

/-! ### Stamps (R249) -/

/-- Resolution of an Ethernet stamp in ns, by speed. -/
def ethRes (speed : Nat) : Nat := [400, 40, 8].getD speed 8

/-- The MAC's capture of an instant `back` ns ago, corrected by `ofs`, in ns. -/
def State.ethStamp (s : State) (back : Nat) (ofs : Int) : Nat :=
  let r := ethRes s.eth.speed
  ((inSteps 249 r ((s.nowNs : Int) - back) * r + ofs) % (2 ^ 48 * 1000000000)).toNat

/-! ### Transmit (R264, R252) -/

/-- The largest frame. -/
def State.maxFrame (s : State) : Nat := s.fieldOf Pg.eth 0 0x800 27 16

/-- An ACTIVE item of ETH without a result. -/
def State.ethItem (s : State) (entry : Nat) : Option Item :=
  match s.item entry with
  | some i => if i.unit = Pg.eth ∧ i.opcode = 1 ∧ i.st = .active ∧ i.result = none then some i else none
  | none => none

/-- An item whose transmission could not start within LATE_US of its launch. -/
def State.ethLate (s : State) (i : Item) (start : Int) : Bool :=
  i.timed && decide (s.launchNs i.ns i.secLo + 1000 * (s.fieldOf Pg.eth 0 0x814 15 0 : Nat) < start)

/-- A frame starts: its originTimestamp, its FCS and its stamp, and what its item will complete with (R263, R264). -/
def State.ethSend (s : State) (i : Item) (f : List Byte) (back : Nat) : State :=
  let t := s.ethStamp back (s.fieldOf Pg.eth 0 0x810 31 16)
  let sec := t / 1000000000
  let ns := t % 1000000000
  let one := i.uflags / 2 % 2 == 1
  let ev := ptpEvent (s.reg Pg.eth 0 0x80C) f
  let (f, warn) := match one, ev with
    | true, some (.l2, o, 0) => (oneStep f .l2 o sec ns, false)
    | true, some (.udp4, o, 0) => (oneStep f .udp4 o sec ns, false)
    | true, _ => (f, true)
    | false, _ => (f, false)
  let result : Result := { status := if warn then Sc.doneWarn else Sc.done, actual := i.length
                           time := if i.uflags % 2 = 1 then some (ns, sec) else none }
  { s with eth := { s.eth with tx := some { item := i.id, frame := f ++ fcsOf false f, result } } }

/-- The frame in progress has gone out. -/
def State.ethSent (s : State) (x : EthTx) : State :=
  let s := { s with eth := { s.eth with tx := none, sent := x.frame, error := false } }
  s.finish x.item (if x.cancel then { x.result with status := Sc.abortedSw } else x.result)

/-- The frame in progress is cut, and ends with an error symbol on the line; its item completes with a status (R264). -/
def State.ethCut (s : State) (status : Nat) : State :=
  match s.eth.tx with
  | none => s
  | some x =>
    let s := { s with eth := { s.eth with tx := none, sent := x.frame, error := true } }
    s.finish x.item { x.result with status }

/-- `TX` of ETH: the frame starts, with `back` the time in ns since the MAC emitted the first bit after the SFD; given again
for the frame in progress, it has gone out (R252, R264). -/
def execEthTx (entry back : Nat) (flips : List Flip) (s : State) : Host.Outcome State Fault Refusal :=
  let s := s.applyFlips flips
  .next (
    match s.ethItem entry with
    | none => s
    | some i =>
      let start : Int := (s.nowNs : Int) - back + (s.fieldOf Pg.eth 0 0x810 31 16 : Nat)
      if !s.ready Dm.eth then s.wake Dm.eth
      else match s.eth.tx with
      | some x => if x.item = entry then s.ethSent x else s
      | none =>
      if i.length < 14 ∨ s.maxFrame < i.length + 4 then s.finish entry { status := Sc.internal }
      else if s.ethLate i start then s.finish entry { status := Sc.late }
      else if !s.eth.link ∨ (i.timed ∧ start < s.launchNs i.ns i.secLo) then s
      else
        match s.unitRead i.addrA i.length with
        | (s, .waits) => s
        | (s, .refused) => s.finish entry { status := Sc.channelFailed }
        | (s, .ok bs _) =>
          match knownBytes bs with
          | none => s.finish entry { status := Sc.mediaUncorrectable }
          | some f => s.ethSend i f back)

/-! ### Receive (R265) -/

def State.ethRx (s : State) (off : Nat) : Word := s.reg Pg.eth 0 off
def State.ethSize (s : State) : Nat := 2 ^ bits (s.ethRx 0x824) 3 0
def State.ethProd (s : State) : Nat := bits (s.ethRx 0x828) 10 0
def State.ethCons (s : State) : Nat := bits (s.ethRx 0x82C) 10 0

/-- A slot is free. -/
def State.ethFree (s : State) : Bool :=
  bit (s.ethRx 0x824) 31 && subMod (2 * s.ethSize) s.ethProd s.ethCons < s.ethSize

/-- The station address, octet 0 first. -/
def State.ethAddr (s : State) : List Byte := bytesLE 4 (s.ethRx 0x804).toNat ++ bytesLE 2 (s.ethRx 0x808).toNat

/-- The address filter. -/
def State.ethAccepts (s : State) (f : List Byte) : Bool :=
  let d := f.take 6
  let cfg := s.ethRx 0x800
  if d == List.replicate 6 0xFF then true
  else if (d.getD 0 0).getLsbD 0 then bit cfg 3
  else bit cfg 4 || d == s.ethAddr

/-- `ETH_FRAME_RECEIVE`: a frame with its FCS has come in; its first bit after the SFD passed the MDI `back` ns ago. -/
def execEthFrameReceive (octets : List Byte) (back : Nat) (flips : List Flip) (s : State) : Host.Outcome State Fault Refusal :=
  let s := s.applyFlips flips
  .next (
    if !s.ready Dm.eth ∨ !s.eth.link ∨ !s.supplied .e then s
    else if !fcsOk false octets then s.count Pg.eth 0 0x834 31 16 1
    else if s.maxFrame < octets.length ∨ !s.ethAccepts octets then s
    else if !s.ethFree then s.count Pg.eth 0 0x834 15 0 1
    else
      let slot := s.ethProd % s.ethSize
      match s.unitWrite ((s.ethRx 0x820).toNat + 2048 * slot) octets with
      | (s, .waits) => s
      | (s, _) =>
        let t := s.ethStamp back (-(s.fieldOf Pg.eth 0 0x810 15 0 : Nat))
        let f := octets.take (octets.length - 4)
        let w6 := match ptpEvent (s.ethRx 0x80C) f with
          | some (_, _, ty) => word (0x80000000 + ty * 0x1000000)
          | none => 0
        let r : Report := { unit := Pg.eth, tail := bits (s.ethRx 0x824) 29 24, status := Sc.done, actual := octets.length
                            ns := t % 1000000000, sec := t / 1000000000, rep6 := w6, index := slot }
        let s := s.setReg Pg.eth 0 0x828 (word ((s.ethProd + 1) % (2 * s.ethSize)))
        s.report r)

/-- `ETH_RXCONS_WRITE` (R261). -/
def execEthRxconsWrite (ini : Initiator) (value : Word) (s : State) : Host.Outcome State Fault Refusal :=
  .next (s.pageWrite ini Pg.eth 0x82C value (fun s => s.setReg Pg.eth 0 0x82C (value &&& 0x7FF)))

/-- A write of ETH_RXCFG; while the ring is enabled it changes EN alone (R261, R18). -/
def State.ethRxcfgWrite (s : State) (ini : Initiator) (v : Word) : State :=
  let old := s.ethRx 0x824
  let m : Word := word (fld 31 31 + fld 29 24 + fld 11 8 + fld 3 0)
  if s.locked Pg.eth then s.lockedErr ini Pg.eth 0x824
  else if bit old 31 then s.setReg Pg.eth 0 0x824 ((old &&& 0x3F000F0F) ||| (v &&& 0x80000000))
  else if !bit v 31 then s.setReg Pg.eth 0 0x824 (v &&& m)
  else if bits v 11 8 ≠ 11 ∨ bits v 3 0 < 4 ∨ 10 < bits v 3 0 then
    (s.setReg Pg.eth 0 0x824 (setBit (v &&& m) 31 false)).raise Pg.eth ini 0x824 0 Err.enableRefused
  else ((s.setReg Pg.eth 0 0x824 (v &&& m)).setReg Pg.eth 0 0x828 0).setReg Pg.eth 0 0x82C 0

/-- A write of ETH_RXBASE, held while the ring is enabled. -/
def State.ethRxbaseWrite (s : State) (ini : Initiator) (v : Word) : State :=
  if s.locked Pg.eth then s.lockedErr ini Pg.eth 0x820
  else if bit (s.ethRx 0x824) 31 then s
  else s.setReg Pg.eth 0 0x820 (v &&& 0xFFFFFF80)

/-! ### MDIO (R261) -/

/-- A write of ETH_MDIO: with GO a transfer starts; while one runs, writes change nothing. -/
def State.mdioWrite (s : State) (v : Word) : State :=
  if bit (s.reg Pg.eth 0 0x838) 31 then s else s.setReg Pg.eth 0 0x838 (v &&& word (fld 31 30 + fld 25 0))

/-- `MDIO_TRANSFER`. -/
def execMdioTransfer (ini : Initiator) (value : Word) (s : State) : Host.Outcome State Fault Refusal :=
  .next (s.pageWrite ini Pg.eth 0x838 value (fun s => s.mdioWrite (value ||| 0x80000000)))

/-- `MDIO_DONE`: the transfer is over; a read brings the PHY's `data`. -/
def execMdioDone (data : Half) (s : State) : Host.Outcome State Fault Refusal :=
  .next (
    let w := s.reg Pg.eth 0 0x838
    if !bit w 31 ∨ !s.ready Dm.eth then s
    else
      let w := setBit w 31 false
      s.setReg Pg.eth 0 0x838 (if bit w 30 then setBits w 15 0 data.toNat else w))

/-! ### Link, magic packet, configuration -/

/-- `ETH_LINK_CHANGE`: the link goes up at a speed, or down. -/
def execEthLinkChange (up : Bool) (speed : Nat) (s : State) : Host.Outcome State Fault Refusal :=
  .next (if !s.ready Dm.eth then s else { s with eth := { s.eth with link := up, speed := min speed 2 } })

/-- `ETH_MAGIC_PACKET` (R463). -/
def execEthMagicPacket (s : State) : Host.Outcome State Fault Refusal :=
  .next (if (s.dom Dm.eth).st = .retention ∧ (s.dom Dm.eth).phase = .none ∧ bit (s.reg Pg.eth 0 0x83C) 31 then
    { s with eth := { s.eth with magic := true } } else s)

/-- The agreement of the ETH page (R262). -/
def State.ethAgree (s : State) : Mismatch :=
  let m := s.stagedReg Pg.eth 0 0x800
  if bit m 2 ∧ bits m 1 0 = 2 then some (0, 0x800)
  else if bits m 27 16 < 64 ∨ 2048 < bits m 27 16 then some (0, 0x800)
  else none

/-- ETH_STAT. -/
def State.ethRead (s : State) (off : Nat) : Option Word :=
  if off = 0x830 then some (word (s.eth.link.toNat * 0x80000000 + s.eth.speed)) else none

end Sys2Proof.Machine
end

