-- ==== Sys2Proof/Machine/Flash.lean ====
section
/-! DEFINITION. The internal flash: its work items, its medium operations pulse by pulse and word by word,
retirement onto spares, protection and the password (R382 to R396). -/

namespace Sys2Proof.Machine

/-! ### Geometry -/

/-- The flash offset of a fabric address. -/
def flashOfs (a : Nat) : Nat := a - 0x08000000

/-- A range lies in the flash window. -/
def inFlash (a n : Nat) : Bool := 0x08000000 ≤ a && a + n ≤ 0x08400000

def State.sectorRec (s : State) (sec : Nat) : SectorRec := Sparse.get {} s.flc.recs sec

def State.setSector (s : State) (sec : Nat) (r : SectorRec) : State :=
  { s with flc := { s.flc with recs := Sparse.set {} s.flc.recs sec r } }

/-- The first sector of a range with a property. -/
def State.anySector (s : State) (ofs n : Nat) (p : SectorRec → Bool) : Bool :=
  n != 0 && (List.range ((ofs + n - 1) / 0x1000 - ofs / 0x1000 + 1)).any (fun k => p (s.sectorRec (ofs / 0x1000 + k)))

/-- The first protected region of a range while the flash is locked (R391). -/
def State.protectedRegion (s : State) (ofs n : Nat) : Option Nat :=
  if s.flc.unlocked ∨ n = 0 then none
  else (List.range 64).find? (fun r => s.flc.prot.testBit r && ofs / 0x10000 ≤ r && r ≤ (ofs + n - 1) / 0x10000)

/-- The word at a flash offset is erased: all ones, and good (R382). -/
def State.wordErased (s : State) (ofs : Nat) : Bool :=
  s.flashErr ofs == .good && (List.range 8).all (fun k => s.octet (0x08000000 + ofs + k) == 0xFF)

/-! ### Registers (R385, R386) -/

/-- FLC_STAT. -/
def State.flcStat (s : State) : Word :=
  let (busy, op, sector) := match s.flc.op with
    | none => (0, 0, 0)
    | some o => (1, (match o.kind with | .program => 1 | .erase => 2 | .info => 3), o.pos / 0x1000 % 1024)
  word (busy * 0x80000000 + op * 0x20000000 + s.flc.unlocked.toNat * 0x8000000 + s.flc.lockout.toNat * 0x4000000 +
    s.flc.fails % 4 * 0x1000000 + sector)

/-- Free spares of a bank. -/
def State.freeSpares (s : State) (bank : Nat) : List Nat :=
  (List.range 8).filter (fun k => (Sparse.get none s.flc.spareUsed (bank * 8 + k)).isNone)

/-- The computed registers of the page. -/
def State.flcRead (s : State) (off : Nat) : Option Word :=
  match off with
  | 0x804 => some s.flcStat
  | 0x810 => some (word s.flc.prot)
  | 0x814 => some (word (s.flc.prot / 2 ^ 32))
  | 0x824 => some s.flc.rstinfo
  | 0x828 => some (word ((s.freeSpares 1).length * 0x10000 + (s.freeSpares 0).length))
  | _ => none

/-- The page's own error of a work item: the OWNER of the item's ring, and the detail (R559 gives the form). -/
def State.flcErr (s : State) (i : Item) (detail code : Nat) : State :=
  s.raise Pg.flc (initiatorOf (s.wrOwner i.ring)) 0 detail code

/-! ### Work items (R387, R388) -/

/-- The item that FLC may start: one at a time, in fetch order (R387), and none while a part reset waits (R395). -/
def State.flcItem (s : State) (op entry : Nat) : Option Item :=
  match s.activeItem Pg.flc op entry with
  | some i =>
    if s.flc.op.isNone ∧ s.resetDue.isNone ∧ s.fetchTurn i then some i
    else none
  | none => none

def State.flcFinish (s : State) (i : Item) (status actual : Nat) : State :=
  s.finish i.id { status, actual }

/-- `FLC_PROGRAM`: the checks over the whole range, then the first word's programming begins (R387, R388). -/
def execFlcProgram (entry : Nat) (flips : List Flip) (s : State) : Host.Outcome State Fault Refusal :=
  let s := s.applyFlips flips
  .next (
    match s.flcItem 1 entry with
    | none => s
    | some i =>
      let ofs := flashOfs i.addrB
      if !s.ready Dm.flc then s.wake Dm.flc
      else if i.addrB % 8 ≠ 0 ∨ i.length % 8 ≠ 0 ∨ !inFlash i.addrB i.length ∨ !inMemories i.addrA i.length ∨
          (List.range (i.length / 8)).any (fun k => !s.wordErased (ofs + 8 * k)) then s.flcFinish i Sc.internal 0
      else match s.protectedRegion ofs i.length with
        | some r => (s.flcFinish i Sc.internal 0).flcErr i r 0x20
        | none =>
          match s.unitRead i.addrA i.length with
          | (s, .waits) => s
          | (s, .refused) => s.flcFinish i Sc.channelFailed 0
          | (s, .ok bs _) =>
            if (knownBytes bs).isNone ∨ s.anySector ofs i.length (fun r => r.state == 3) then
              s.flcFinish i Sc.mediaUncorrectable 0
            else { s with flc := { s.flc with
              op := some { kind := .program, item := some entry, pos := ofs, stop := ofs + i.length, start := ofs, src := bs } } })

/-- `FLC_ERASE`: the checks, then the intent record and the first pulse (R387, R388, R396). -/
def execFlcErase (entry : Nat) (s : State) : Host.Outcome State Fault Refusal :=
  .next (
    match s.flcItem 2 entry with
    | none => s
    | some i =>
      let ofs := flashOfs i.addrB
      if !s.ready Dm.flc then s.wake Dm.flc
      else if i.addrB % 4096 ≠ 0 ∨ i.length % 4096 ≠ 0 ∨ !inFlash i.addrB i.length then s.flcFinish i Sc.internal 0
      else match s.protectedRegion ofs i.length with
        | some r => (s.flcFinish i Sc.internal 0).flcErr i r 0x20
        | none =>
          if (s.sectorRec (ofs / 0x1000)).state = 3 then s.flcFinish i Sc.mediaUncorrectable 0
          else { s with flc := { s.flc with
            op := some { kind := .erase, item := some entry, pos := ofs, stop := ofs + i.length, start := ofs }
            intent := some (ofs / 0x1000) } })

/-- The status of an FLC item that has run its course (R388). -/
def flcStatus (o : FlashOp) (ceRep : Nat) : Nat :=
  if o.uncorrectable then Sc.mediaUncorrectable
  else if o.retired ≠ 0 then Sc.mediaRetired
  else if ceRep ≤ o.corrected ∧ o.corrected ≠ 0 then Sc.mediaCorrected
  else if o.warned then Sc.doneWarn
  else Sc.done

/-- FLC_RSTINFO for an operation that held a reset back (R395). -/
def rstWord (o : FlashOp) (cause result : Nat) : Word :=
  word (0x80000000 + (match o.kind with | .program => 1 | .erase => 2 | .info => 3) * 0x10000000 +
    cause % 16 * 0x1000000 + result % 256 * 0x10000 + o.pos / 0x1000 % 1024)

/-- The medium operation ends: the item has its result, and a deferred reset its record. -/
def State.endFlashOp (s : State) (o : FlashOp) (status : Nat) : State :=
  let s := { s with flc := { s.flc with op := none, intent := none } }
  let s := match s.flc.deferred with
    | some c => { s with flc := { s.flc with rstinfo := rstWord o c status } }
    | none => s
  match o.item with
  | some e => s.finish e { status, actual := o.pos - o.start
                           wb := o.maxPulses % 256 + 256 * (min o.retired 127) }
  | none => s

/-- A sector's words as its copy on a spare holds them (R390): corrected, and undefined where uncorrectable. -/
def State.copySector (s : State) (sec : Nat) (o : FlashOp) : State × FlashOp :=
  (List.range 512).foldl (fun (p : State × FlashOp) k =>
    let ofs := sec * 0x1000 + 8 * k
    match p.1.flashErr ofs with
    | .good => p
    | .single _ => ((p.1.count Pg.flc 0 0x80C 31 16 1).setFlashErr ofs .good, { p.2 with corrected := p.2.corrected + 1 })
    | _ =>
      let s := p.1.count Pg.flc 0 0x80C 15 0 1
      let s := (s.setReg Pg.flc 0 0x82C (word ofs)).event Pg.flc 2
      let g := s.freeCtr + 1
      let s := { s with freeCtr := g }
      let s := (List.range 8).foldl (fun s j =>
        s.setOctet (0x08000000 + ofs + j) (Config.lostByte g (0x08000000 + ofs + j))) s
      (s.setFlashErr ofs .good, { p.2 with uncorrectable := true })) (s, o)

/-- A failed sector is retired onto a spare of its bank (R390): `true` where there was one. -/
def State.retireSector (s : State) (sec : Nat) (o : FlashOp) : State × FlashOp × Bool :=
  let bank := sec / 512
  match s.freeSpares bank with
  | [] =>
    (s.setSector sec { s.sectorRec sec with state := 3 }, { o with uncorrectable := true }, false)
  | k :: _ =>
    let key := bank * 8 + k
    let n := Sparse.get 0 s.flc.spareCount key + 1
    let (s, o) := if o.kind = .program then s.copySector sec o else (s, o)
    let s := { s with flc := { s.flc with
      spareUsed := Sparse.set none s.flc.spareUsed key (some sec)
      spareCount := Sparse.set 0 s.flc.spareCount key n } }
    ((s.setSector sec { state := 2, count := n }).event Pg.flc 1, { o with retired := o.retired + 1 }, true)

/-- The array cells of a sector are all ones again. -/
def State.blankSector (s : State) (sec : Nat) : State :=
  let lo := 0x08000000 + sec * 0x1000
  let s := s.cacheDrop lo 0x1000
  { s with
    mem := Sparse.keep (fun k => k < lo || lo + 0x1000 ≤ k) s.mem
    flc := { s.flc with bad := Sparse.keep (fun w => w / 512 != sec) s.flc.bad } }

/-- The next sector of an erase, or its end. -/
def State.nextErase (s : State) (o : FlashOp) : State :=
  let o := { o with pos := o.pos + 0x1000, tries := 0 }
  let rep := s.fieldOf Pg.flc 0 0x808 7 0
  if o.stop ≤ o.pos then s.endFlashOp o (flcStatus o rep)
  else if s.flc.deferred.isSome then s.endFlashOp o (flcStatus o rep)
  else match o.cut with
    | some st => s.endFlashOp o st
    | none =>
      if (s.sectorRec (o.pos / 0x1000)).state = 3 then s.endFlashOp o Sc.mediaUncorrectable
      else { s with flc := { s.flc with op := some o, intent := some (o.pos / 0x1000) } }

/-- The erase of a sector has ended blank: its count, and its warning (R389). -/
def State.erased (s : State) (o : FlashOp) : State :=
  let sec := o.pos / 0x1000
  let r := s.sectorRec sec
  let n := min (r.count + 1) 0xFFFFFF
  let warn := decide (s.fieldOf Pg.flc 0 0x808 19 16 < o.tries) || decide (100000 < n)
  let s := (s.blankSector sec).setSector sec { state := if warn then 1 else r.state, count := n }
  let s := if warn then s.event Pg.flc 0 else s
  s.nextErase { o with warned := o.warned || warn, maxPulses := max o.maxPulses o.tries }

/-- `ERASE_PULSE`: a pulse and its verify end (R389, R390). -/
def execErasePulse (blank : Bool) (s : State) : Host.Outcome State Fault Refusal :=
  .next (
    match s.flc.op with
    | none => s
    | some o =>
      if o.kind ≠ .erase then s
      else
        let o := { o with tries := o.tries + 1 }
        if blank then s.erased o
        else if o.tries < 12 then { s with flc := { s.flc with op := some o } }
        else
          let o := { o with maxPulses := max o.maxPulses o.tries }
          match s.retireSector (o.pos / 0x1000) o with
          | (s, o, true) => (s.blankSector (o.pos / 0x1000)).nextErase o
          | (s, o, false) => s.endFlashOp o Sc.mediaUncorrectable)

/-- The word at `o.pos` holds its new value; the next begins, or the item ends (R388, R395). -/
def State.wordDone (s : State) (o : FlashOp) : State :=
  let s := (List.range 8).foldl (fun s k =>
    s.setOctet (0x08000000 + o.pos + k) (((o.src.getD (o.pos - o.start + k) none)).getD 0xFF)) s
  let s := (s.setFlashErr o.pos .good).cacheDrop (0x08000000 + o.pos) 8
  let o := { o with pos := o.pos + 8, tries := 0 }
  let rep := s.fieldOf Pg.flc 0 0x808 7 0
  if o.stop ≤ o.pos ∨ s.flc.deferred.isSome then s.endFlashOp o (flcStatus o rep)
  else match o.cut with
    | some st => if o.pos % 0x1000 = 0 then s.endFlashOp o st else { s with flc := { s.flc with op := some o } }
    | none => { s with flc := { s.flc with op := some o } }

/-- `PROGRAM_WORD`: an attempt on the current word ends; after four that do not verify the sector is
retired and the word goes to the spare (R389, R390). -/
def execProgramWord (verified : Bool) (s : State) : Host.Outcome State Fault Refusal :=
  .next (
    match s.flc.op with
    | none => s
    | some o =>
      if o.kind ≠ .program then s
      else if verified then s.wordDone o
      else if o.tries < 3 then { s with flc := { s.flc with op := some { o with tries := o.tries + 1 } } }
      else match s.retireSector (o.pos / 0x1000) o with
        | (s, o, true) => s.wordDone o
        | (s, o, false) => s.endFlashOp o Sc.mediaUncorrectable)

/-- The first word at which flash and expected octets differ. -/
def firstDiff (a b : List (Option Byte)) : Option Nat :=
  ((a.zip b).zipIdx.find? (fun p => p.1.1 != p.1.2)).map (fun p => p.2 / 8 * 8)

/-- `FLC_VERIFY`: flash is compared with memory, or with all ones (R387, R388). -/
def execFlcVerify (entry : Nat) (flips : List Flip) (s : State) : Host.Outcome State Fault Refusal :=
  let s := s.applyFlips flips
  .next (
    match s.flcItem 3 entry with
    | none => s
    | some i =>
      let blank := i.uflags % 2 = 1
      if !s.ready Dm.flc then s.wake Dm.flc
      else if i.addrB % 8 ≠ 0 ∨ i.length % 8 ≠ 0 ∨ !inFlash i.addrB i.length ∨
          (!blank ∧ !inMemories i.addrA i.length) then s.flcFinish i Sc.internal 0
      else
        match (if blank then (s, MemAns.ok (List.replicate i.length (some (0xFF : Byte))) {}) else s.unitRead i.addrA i.length) with
        | (s, .waits) => s
        | (s, .refused) => s.flcFinish i Sc.channelFailed 0
        | (s, .ok want e) =>
          match s.unitRead i.addrB i.length with
          | (s, .ok got e') =>
            if !e'.bad.isEmpty ∨ !e.bad.isEmpty then s.flcFinish i Sc.mediaUncorrectable i.length
            else
              let rep := s.fieldOf Pg.flc 0 0x808 7 0
              let diff := firstDiff got want
              let st := if rep ≤ e'.corrected ∧ e'.corrected ≠ 0 then Sc.mediaCorrected
                else if diff.isSome then Sc.doneWarn else Sc.done
              s.finish i.id { status := st, actual := i.length
                              rep6 := match diff with | some k => word (flashOfs i.addrB + k) | none => 0 }
          | (s, _) => s)

/-- A record of COUNTERS (R387). -/
def counterWord (r : SectorRec) : Word := word (r.state % 4 * 0x40000000 + min r.count 0xFFFFFF)

/-- `COUNTERS` (R387). -/
def execFlcCounters (entry : Nat) (s : State) : Host.Outcome State Fault Refusal :=
  .next (
    match s.flcItem 4 entry with
    | none => s
    | some i =>
      if !s.ready Dm.flc then s.wake Dm.flc
      else if i.length % 4 ≠ 0 ∨ 1024 < i.addrA + i.length / 4 ∨ !inMemories i.addrB i.length then
        s.flcFinish i Sc.internal 0
      else
        match s.unitWrite i.addrB (bytesOfWords ((List.range (i.length / 4)).map (fun k => counterWord (s.sectorRec (i.addrA + k))))) with
        | (s, .waits) => s
        | (s, .refused) => s.flcFinish i Sc.channelFailed 0
        | (s, .ok _ _) => s.flcFinish i Sc.done i.length)

/-- The hash of the information row: SHA-256 over the salt and the password (R391). -/
def pwdHash (salt : List Byte) (pwd : Nat) : List Byte := Crypto.sha256 (padTo 16 salt ++ bytesBE 8 pwd)

/-- The password matches the stored hash. -/
def State.pwdMatches (s : State) (pwd : Nat) : Bool :=
  match s.flc.hash with
  | none => pwd == 0
  | some h => h == pwdHash s.flc.salt pwd

/-- The new information row is in force under the next sequence number: PROT, the password's hash and its salt (R391, R393). -/
def State.rowWritten (s : State) (o : FlashOp) (salt : List Byte) : State :=
  let bs := o.src.map (·.getD 0)
  let s := { s with flc := { s.flc with
    prot := natOfBytesLE (bs.take 8), salt := padTo 16 salt
    hash := some (pwdHash salt (natOfBytesLE (bs.drop 8))), rowSeq := s.flc.rowSeq + 1 } }
  s.endFlashOp { o with pos := 16 } Sc.done

/-- `PROTECT`: the checks, then the write of the information row begins; given for the item once more, the row is written
and the item completes. Until then the old settings are in force (R391, R393, R395). -/
def execFlcProtect (entry : Nat) (salt : List Byte) (s : State) : Host.Outcome State Fault Refusal :=
  .next (
    if let some o := s.flc.op then
      if o.kind = .info ∧ o.item = some entry then s.rowWritten o salt else s
    else match s.flcItem 5 entry with
    | none => s
    | some i =>
      if !s.ready Dm.flc then s.wake Dm.flc
      else if i.length ≠ 16 ∨ !inMemories i.addrA 16 ∨ !s.flc.unlocked then s.flcFinish i Sc.internal 0
      else match s.unitRead i.addrA 16 with
        | (s, .waits) => s
        | (s, .refused) => s.flcFinish i Sc.channelFailed 0
        | (s, .ok bs _) =>
          match knownBytes bs with
          | none => s.flcFinish i Sc.mediaUncorrectable 0
          | some bs => { s with flc := { s.flc with
              op := some { kind := .info, item := some entry, pos := 0, stop := 16, src := bs.map some } } })

/-! ### Password (R392) -/

/-- A write of FLC_PWCTRL (R386, R392). -/
def State.pwctrlWrite (s : State) (ini : Initiator) (v : Word) : State :=
  if bit v 0 && bit v 1 then s.raise Pg.flc ini 0x820 0 Err.range
  else if bit v 1 then { s with flc := { s.flc with unlocked := false } }
  else if bit v 0 then
    if s.flc.lockout then s
    else
      let pwd := s.flc.pwdHi.toNat * 2 ^ 32 + s.flc.pwdLo.toNat
      let ok := s.pwdMatches pwd
      let s := { s with flc := { s.flc with pwdHi := 0, pwdLo := 0 } }
      if ok then { s with flc := { s.flc with unlocked := true } }
      else
        let n := s.flc.fails + 1
        let s := { s with flc := { s.flc with fails := n, lockout := decide (3 ≤ n) } }
        let s := s.raise Pg.flc ini 0x820 n 0x21
        if 3 ≤ n then s.event Pg.flc 3 else s
  else s

/-- `FLASH_UNLOCK` (R392). -/
def execFlashUnlock (ini : Initiator) (s : State) : Host.Outcome State Fault Refusal :=
  .next (s.pageWrite ini Pg.flc 0x820 1 (fun s => s.pwctrlWrite ini 1))

/-- `FLASH_RELOCK` (R392). -/
def execFlashRelock (ini : Initiator) (s : State) : Host.Outcome State Fault Refusal :=
  .next (s.pageWrite ini Pg.flc 0x820 2 (fun s => s.pwctrlWrite ini 2))

/-- A write of FLC_PWD_LO or FLC_PWD_HI. -/
def State.pwdWrite (s : State) (hi : Bool) (v : Word) : State :=
  if hi then { s with flc := { s.flc with pwdHi := v } } else { s with flc := { s.flc with pwdLo := v } }

/-! ### Supply loss and the domain (R394, R396) -/

/-- `ERASE_RESUME`: FLC comes ON and finds an erase intent open: the sector is erased again (R396). -/
def execEraseResume (blank : Bool) (s : State) : Host.Outcome State Fault Refusal :=
  .next (
    match s.flc.intent with
    | none => s
    | some sec =>
      if s.flc.op.isSome ∨ !s.ready Dm.flc then s
      else
        let o : FlashOp := { kind := .erase, item := none, pos := sec * 0x1000, stop := sec * 0x1000 + 0x1000 }
        let (s, st) :=
          if blank then
            let r := s.sectorRec sec
            let n := min (r.count + 1) 0xFFFFFF
            let s := (s.blankSector sec).setSector sec { state := if 100000 < n then 1 else r.state, count := n }
            (if 100000 < n then s.event Pg.flc 0 else s, Sc.done)
          else match s.retireSector sec o with
            | (s, _, true) => (s.blankSector sec, Sc.mediaRetired)
            | (s, _, false) => (s, Sc.mediaUncorrectable)
        { s with flc := { s.flc with
            intent := none
            rstinfo := word (0x40000000 + 2 * 0x10000000 + 4 * 0x1000000 + st * 0x10000 + sec % 1024) } })

/-- The supply fails in a medium operation: the word in programming is undefined, an erase stays open (R396). -/
def State.flashCut (s : State) : State :=
  match s.flc.op with
  | none => s
  | some o =>
    let s := { s with flc := { s.flc with op := none } }
    if o.kind = .program then
      let g := s.freeCtr + 1
      (List.range 8).foldl (fun s k =>
        s.setOctet (0x08000000 + o.pos + k) (Config.lostByte g (0x08000000 + o.pos + k))) { s with freeCtr := g }
    else s

/-- FLC goes OFF: UNLOCKED clears (R394). -/
def State.flcOff (s : State) : State :=
  { s with flc := { s.flc with unlocked := false, pwdHi := 0, pwdLo := 0 } }

end Sys2Proof.Machine
end

