-- ==== Sys2Proof/Machine/Mac.lean ====
section
/-! DEFINITION. IEEE 802.15.4 MAC frames as far as the link controller parses them: the MHR, the auxiliary
security header, header IEs, Varade's elements, and frame security (R135, R205, R213, R226 to R229).
PRESUMED: the spec names IEEE 802.15.4-2020 and does not restate its formats. -/

namespace Sys2Proof.Machine.Mac

open Sys2Proof.Machine

/-- The parsed MHR. -/
structure Mhr where
  typ : Nat
  security : Bool
  ar : Bool
  comp : Bool
  version : Nat
  seq : Option Nat
  dpan : Option Nat
  /-- Destination and source addresses: octets, two or eight of them, least significant first. -/
  dst : Option (List Byte)
  span : Option Nat
  src : Option (List Byte)
  /-- Offset of the auxiliary security header, its length, and its fields. -/
  auxAt : Nat
  level : Nat
  kidMode : Nat
  noCounter : Bool
  asn : Bool
  counter : Nat
  keySrc : List Byte
  keyIdx : Nat
  /-- Header IEs: element ID, offset of the content and its length. -/
  ies : List (Nat × Nat × Nat)
  /-- The length of the MHR with its header IEs. -/
  len : Nat
  deriving DecidableEq, Repr

def le (bs : List Byte) (k n : Nat) : Nat := natOfBytesLE ((bs.drop k).take n)

/-- Whether the PAN IDs are present, by the standard's table: destination, source. -/
def pansOf (version d s : Nat) (comp : Bool) : Bool × Bool :=
  if version ≤ 1 then (d != 0, s != 0 && !comp)
  else if d = 0 ∧ s = 0 then (comp, false)
  else if s = 0 then (!comp, false)
  else if d = 0 then (false, !comp)
  else if d = 3 ∧ s = 3 then (!comp, false)
  else (true, !comp)

/-- Octets of an address of a mode. -/
def addrLen (m : Nat) : Nat := match m with | 2 => 2 | 3 => 8 | _ => 0

/-- Header IEs from an offset on, with the offset after them. -/
def parseIes (f : List Byte) : Nat → Nat → Option (List (Nat × Nat × Nat) × Nat)
  | 0, _ => none
  | n + 1, k =>
    if f.length < k + 2 then (if f.length = k then some ([], k) else none)
    else
      let d := le f k 2
      let len := d % 128
      let id := d / 128 % 256
      if 2 ^ 15 ≤ d ∨ f.length < k + 2 + len then none
      else if id = 0x7E ∨ id = 0x7F then some ([], k + 2)
      else match parseIes f n (k + 2 + len) with
        | some (l, e) => some ((id, k + 2, len) :: l, e)
        | none => none

/-- The MHR of a frame, where it parses within the frame's length. -/
def parse (f : List Byte) : Option Mhr :=
  let fc := le f 0 2
  let version := fc / 2 ^ 12 % 4
  let dm := fc / 2 ^ 10 % 4
  let sm := fc / 2 ^ 14 % 4
  let comp := fc.testBit 6
  let security := fc.testBit 3
  let noSeq := version == 2 && fc.testBit 8
  let iePresent := version == 2 && fc.testBit 9
  if f.length < 2 ∨ version = 3 ∨ dm = 1 ∨ sm = 1 then none
  else
    let (dp, sp) := pansOf version dm sm comp
    let k := 2
    let seq := if noSeq then none else some (le f k 1)
    let k := if noSeq then k else k + 1
    let dpan := if dp then some (le f k 2) else none
    let k := if dp then k + 2 else k
    let dst := if dm = 0 then none else some ((f.drop k).take (addrLen dm))
    let k := k + addrLen dm
    let span := if sp then some (le f k 2) else none
    let k := if sp then k + 2 else k
    let src := if sm = 0 then none else some ((f.drop k).take (addrLen sm))
    let k := k + addrLen sm
    let auxAt := k
    let sc := le f k 1
    let kidMode := sc / 8 % 4
    let noCounter := sc.testBit 5
    let asn := sc.testBit 6
    let cl := if noCounter then 0 else if asn then 5 else 4
    let sl := match kidMode with | 2 => 4 | 3 => 8 | _ => 0
    let il := if kidMode = 0 then 0 else 1
    let k := if security then k + 1 + cl + sl + il else k
    let ies := if iePresent then parseIes f f.length k else some ([], k)
    match ies with
    | none => none
    | some (ies, e) =>
      if f.length < e then none
      else some {
        typ := fc % 8, security, ar := fc.testBit 5, comp, version, seq, dpan, dst, span, src, auxAt
        level := if security then sc % 8 else 0, kidMode, noCounter, asn
        counter := le f (auxAt + 1) 4
        keySrc := (f.drop (auxAt + 1 + cl)).take sl, keyIdx := le f (auxAt + 1 + cl + sl) il
        ies, len := e }

/-- LNK parses this type (R135). -/
def Mhr.known (m : Mhr) : Bool := m.typ ≤ 3

/-- MIC octets of a level. -/
def micLen (level : Nat) : Nat := match level % 4 with | 1 => 4 | 2 => 8 | 3 => 16 | _ => 0

/-- The CCM* nonce: source extended address, most significant octet first, counter, level. -/
def nonce (ext : List Byte) (counter level : Nat) : List Byte :=
  (padTo 8 ext).reverse ++ bytesBE 4 counter ++ [BitVec.ofNat 8 level]

/-- A frame secured: the header's counter is written, the payload encrypted from level 5 on, and the MIC takes
the last octets of the MPDU. -/
def secure (key ext f : List Byte) (m : Mhr) (counter : Nat) : List Byte :=
  let f := f.take (m.auxAt + 1) ++ bytesLE 4 counter ++ f.drop (m.auxAt + 5)
  let n := micLen m.level
  let hdr := f.take m.len
  let p := (f.take (f.length - n)).drop m.len
  let no := nonce ext counter m.level
  if m.level = 0 then f
  else if 4 ≤ m.level then
    let (c, t) := Crypto.ccmEncrypt key no hdr p n
    hdr ++ c ++ t
  else hdr ++ p ++ Crypto.ccmTag key no (hdr ++ p) [] n

/-- A received MPDU decrypted, and whether its MIC agrees. -/
def unsecure (key ext f : List Byte) (m : Mhr) : List Byte × Bool :=
  let n := micLen m.level
  let hdr := f.take m.len
  let body := (f.take (f.length - n)).drop m.len
  let mic := f.drop (f.length - n)
  let no := nonce ext m.counter m.level
  if m.level = 0 then (f, true)
  else if f.length < m.len + n then (f, false)
  else if 4 ≤ m.level then
    let (p, ok) := Crypto.ccmDecrypt key no hdr body mic
    (hdr ++ p ++ mic, ok)
  else (f, mic == Crypto.ccmTag key no (hdr ++ body) [] n)

/-! ### Varade's elements (R227, R228) -/

/-- Varade elements of a frame under an OUI: SUB, offset of the field after SUB, and its length. -/
def elements (f : List Byte) (m : Mhr) (oui : Nat) : List (Nat × Nat × Nat) :=
  m.ies.filterMap (fun (id, at_, len) =>
    if id = 0 ∧ 4 ≤ len ∧ le f at_ 3 = oui then some (le f (at_ + 3) 1, at_ + 4, len - 4) else none)

def element (f : List Byte) (m : Mhr) (oui sub n : Nat) : Option Nat :=
  ((elements f m oui).find? (fun (s, _, l) => s == sub && n ≤ l)).map (fun e => e.2.1)

/-- A wake frame (R228), with TTD in 50 µs units. -/
def wakeFrame (f : List Byte) (m : Mhr) (oui : Nat) : Option Nat :=
  if m.version = 2 ∧ m.typ = 1 ∧ !m.security ∧ !m.ar ∧ m.seq = none ∧ m.dpan = none ∧ (m.dst.map List.length) = some 2 ∧
      m.src = none ∧ m.ies.length = 1 ∧ m.len = f.length then
    (element f m oui 1 2).map (fun k => le f k 2)
  else none

/-- The octets of a wake frame for a short address. -/
def buildWake (oui dst ttd : Nat) : List Byte :=
  bytesLE 2 (1 + 64 + 256 + 512 + 2 * 1024 + 2 * 4096) ++ bytesLE 2 dst ++ bytesLE 2 6 ++ bytesLE 3 oui ++ [1] ++ bytesLE 2 ttd

/-- The field of an element replaced. -/
def put (f : List Byte) (k : Nat) (bs : List Byte) : List Byte := f.take k ++ bs ++ f.drop (k + bs.length)

end Sys2Proof.Machine.Mac
end

