-- ==== Sys2Proof/Machine/Rf.lean ====
section
/-! DEFINITION. The receive front end and the synthesiser: antennas, gain, front-end module pins, background
calibration, the receive loop and its recovery, calibration gaps, CAL items and the transmit store
(R152 to R181). -/

namespace Sys2Proof.Machine

/-! ### Antennas (R154 to R156) -/

/-- ARR of the running arrangement: 0 single, 1 diversity, 2 dual. -/
def State.arrangement (s : State) : Nat := s.fieldOf Pg.rfe 0 0x800 1 0

/-- A write of RFE_ANTSEL. -/
def State.antselWrite (s : State) (v : Word) : State :=
  let w := s.reg Pg.rfe 0 0x804
  if s.arrangement ≠ 1 then s
  else if bit v 0 = bit w 16 ∧ !bit w 31 then s
  else s.setReg Pg.rfe 0 0x804 (setBit (setBit w 0 (bit v 0)) 31 true)

/-- `ANTSEL_WRITE` (R156). -/
def execAntselWrite (ini : Initiator) (value : Word) (s : State) : Host.Outcome State Fault Refusal :=
  .next (s.pageWrite ini Pg.rfe 0x804 value (fun s => s.antselWrite value))

/-- A pending antenna change takes effect. -/
def State.antSwitch (s : State) : State :=
  let w := s.reg Pg.rfe 0 0x804
  if bit w 31 then
    (s.setReg Pg.rfe 0 0x804 (setBit (setBit w 16 (bit w 0)) 31 false)).event Pg.rfe 2
  else s

/-- `ANT_SWITCH`: the first cycle at which no lane is held (R156). -/
def execAntSwitch (s : State) : Host.Outcome State Fault Refusal :=
  .next (if s.anyLane (fun _ => true) then s else s.antSwitch)

/-- The narrow lane measures antennas: diversity, and NBSEL. -/
def State.nbMeasures (s : State) : Bool := s.arrangement == 1 && s.fieldOf Pg.rfe 0 0x800 4 4 == 1

/-- `ANT_MEASURE_SWITCH`: the first correlation is taken, and the narrow lane changes antenna (R156). -/
def execAntMeasureSwitch (corr : Nat) (s : State) : Host.Outcome State Fault Refusal :=
  .next (match s.lane nbLane with
    | some l =>
      if s.nbMeasures ∧ !l.frame ∧ l.measured = none ∧ l.antNow = l.ant then
        s.setLane nbLane (some { l with measured := some corr, antNow := 1 - l.antNow })
      else s
    | none => s)

/-- `ANT_MEASURE_CHOOSE`: the antenna with the higher correlation stays; of two equal ones the manual names
none (R156). -/
def execAntMeasureChoose (corr : Nat) (s : State) : Host.Outcome State Fault Refusal :=
  .next (match s.lane nbLane with
    | some l =>
      match l.measured with
      | some first =>
        if l.antNow = l.ant ∨ l.frame then s
        else
          let (v, s) := if corr = first then s.fresh else (0, s)
          let back := decide (corr < first) || (corr == first && bit v 0)
          s.setLane nbLane (some { l with measured := none, antNow := if back then l.ant else l.antNow })
      | none => s
    | none => s)

/-- After a switch of RFE_ANT an arrangement without diversity uses antenna A (R155). -/
def State.antSwitched (s : State) : State :=
  if s.arrangement = 1 then s else s.setReg Pg.rfe 0 0x804 0

/-! ### Gain (R157, R158) -/

/-- Frames in progress carry a warning. -/
def State.warnLanes (s : State) (f : Lane → Lane) : State :=
  s.lanesHeld.foldl (fun s l => s.setLane l.no (some (f l))) s

/-- A write of RFE_AGC. -/
def State.agcWrite (s : State) (ini : Initiator) (v : Word) : State :=
  let s := s.plainWrite ini Pg.rfe 0 0x808 v
  let w := s.reg Pg.rfe 0 0x808
  if bits w 31 30 = 2 then s.setField Pg.rfe 0 0x80C 3 0 (bits w 19 16) else s

/-- `AGC_STEP`: the ADC peak has stayed near full scale (`up`), or low (R158). -/
def execAgcStep (up : Bool) (s : State) : Host.Outcome State Fault Refusal :=
  .next (
    let idx := s.fieldOf Pg.rfe 0 0x80C 3 0
    let frozen := (s.lane nbLane).isSome
    if !s.ready Dm.rfe ∨ s.path = 0 ∨ s.fieldOf Pg.rfe 0 0x808 31 30 ≠ 0 ∨ frozen ∨ (up ∧ 11 ≤ idx) ∨ (!up ∧ idx = 0) then s
    else
      let s := s.setField Pg.rfe 0 0x80C 3 0 (if up then idx + 1 else idx - 1)
      ((s.count Pg.rfe 0 0x80C 31 16 1).event Pg.rfe 0).warnLanes (fun l => { l with gainStep := true }))

/-- `ADC_CLIP`: RFRX_A receives more than −12 dBm (R109). -/
def execAdcClip (s : State) : Host.Outcome State Fault Refusal :=
  .next (if !s.ready Dm.rfe ∨ s.path = 0 then s
    else (s.event Pg.chz 2).warnLanes (fun l => { l with clip := true }))

/-! ### Background calibration (R171, R172) -/

/-- `IQSEED_WRITE`: the estimator is loaded and CONV clears (R172). -/
def execIqseedWrite (ini : Initiator) (value : Word) (s : State) : Host.Outcome State Fault Refusal :=
  .next (s.pageWrite ini Pg.rfe 0x818 value (fun s => s.setReg Pg.rfe 0 0x814 (value &&& 0x0FFF0FFF)))

/-- `IQ_CONVERGE`: the estimate converges at `phase` and `gain` (R171, R172, R153). -/
def execIqConverge (phase gain : Nat) (s : State) : Host.Outcome State Fault Refusal :=
  .next (if !s.ready Dm.rfe ∨ s.path = 0 ∨ !bit (s.reg Pg.rfe 0 0x810) 31 then s
    else
      let s := s.setReg Pg.rfe 0 0x814 (word (0x80000000 + phase % 0x1000 * 0x10000 + gain % 0x1000))
      if s.recv.iqDone then s
      else { s with recv := { s.recv with iqDone := true } }.event Pg.rfe 1)

/-- The computed registers of the RFE page: the DC estimate is measured while receiving. -/
def State.rfeRead (s : State) (off : Nat) : Option (Word × State) :=
  if off = 0x81C ∧ s.ready Dm.rfe ∧ s.path ≠ 0 ∧ bit (s.reg Pg.rfe 0 0x810) 30 then
    let (v, s) := s.fresh
    some (v, s.setReg Pg.rfe 0 0x81C v)
  else if off = 0x818 then some (0, s)
  else none

/-! ### The FEM pins (R159, R160) -/

/-- State of the FEM table in force. -/
def State.femState (s : State) : Nat :=
  if s.syn.gap.isSome then 5
  else if s.txa.fem then (if bit (s.reg Pg.txa 0 0x800) 0 then 4 else 3)
  else if s.domOn Dm.rfe ∧ s.path ≠ 0 then
    let ant := if s.path = 2 then (match s.lane nbLane with | some l => l.antNow | none => s.antenna) else s.antenna
    1 + ant
  else 0

/-- Levels of FEM5 to FEM0. -/
def State.femPins (s : State) : Nat :=
  if s.domOn Dm.rfe ∨ s.domOn Dm.txa then s.fieldOf Pg.rfe 0 (0x840 + 4 * s.femState) 5 0 else 0

/-! ### Temperature and drift (R168, R169) -/

/-- The die temperature in °C, 8 bits. -/
def State.celsius (s : State) : Nat := unsigned 8 (inSteps 168 4 s.syn.die)

/-- The temperature lies more than TDELTA from a calibration temperature. -/
def State.drifted (s : State) (die : Int) (tcal : Nat) : Bool :=
  let d := die - 4 * signed 8 tcal
  decide (2 * (s.fieldOf Pg.syn 0 0x800 15 8 : Nat) < d.natAbs)

/-- MODE_T and MODE_R: mode B. -/
def State.modeT (s : State) : Bool := bit (s.reg Pg.syn 0 0x800) 1
def State.modeR (s : State) : Bool := bit (s.reg Pg.syn 0 0x800) 0
def State.autoGap (s : State) : Bool := bit (s.reg Pg.syn 0 0x800) 31

def State.setSyn (s : State) (f : Syn → Syn) : State := { s with syn := f s.syn }

/-- `TEMP_UPDATE`: SYN reads the die temperature, every 1 ms (R168, R169). -/
def execTempUpdate (die : Int) (s : State) : Host.Outcome State Fault Refusal :=
  .next (
    let s := s.setSyn (fun y => { y with die })
    if !s.domOn Dm.syn then s
    else
      let s := s.setField Pg.syn 0 0x810 15 0 (unsigned 16 die)
      let driftR := s.modeR && s.drifted die (s.fieldOf Pg.syn 0 0x810 31 24)
      let driftT := s.modeT && s.drifted die (s.fieldOf Pg.syn 0 0x810 23 16)
      let onT := driftT && !s.syn.driftT
      let onR := driftR && !s.syn.driftR
      let s := s.setSyn (fun y => { y with driftT, driftR })
      let s := if onT then (s.event Pg.syn 1).setSyn (fun y => { y with sweepDue := true }) else s
      if onR then
        let s := s.event Pg.syn 1
        if s.autoGap then s.setSyn (fun y => { y with auto := true }) else s
      else s)

/-- `VT_EDGE`: the receive loop's tuning voltage leaves its central 80 %, or is back in it (R169). -/
def execVtEdge (outside : Bool) (s : State) : Host.Outcome State Fault Refusal :=
  .next (if !s.domOn Dm.syn then s
    else
      let before := s.syn.vtOut
      let s := s.setSyn (fun y => { y with vtOut := outside })
      if outside ∧ !before then
        let s := s.event Pg.syn 2
        if s.autoGap then s.setSyn (fun y => { y with auto := true }) else s
      else s)

/-! ### The transmit store (R166, R167, R179) -/

/-- Spacing of the store in kHz. -/
def stepKhz (c : Nat) : Nat := [200, 100, 400].getD c 200

/-- The frequency of a store entry under a pair of registers, none at or above COUNT. -/
def entryFreq (base count : Word) (e : Nat) : Option Nat :=
  let st := stepKhz (bits base 25 24)
  if e < bits count 8 0 then some (bits base 19 0 + st / 2 + e * st) else none

def State.freqOf (s : State) (e : Nat) : Option Nat := entryFreq (s.reg Pg.syn 0 0x804) (s.reg Pg.syn 0 0x808) e
def State.storeEntry (s : State) (e : Nat) : StoreEntry := Sparse.get {} s.syn.store e
def State.setEntry (s : State) (e : Nat) (x : StoreEntry) : State :=
  s.setSyn (fun y => { y with store := Sparse.set {} y.store e x })

/-- An entry is calibrated now: its codes are opaque (R179). -/
def State.calibrate (s : State) (e freq : Nat) : State :=
  let (v, s) := s.fresh
  s.setEntry e { valid := true, freq, temp := s.celsius, codes := bits v 23 0 }

/-- Entries below COUNT that are not valid. -/
def State.invalidEntries (s : State) : Nat :=
  ((List.range (s.fieldOf Pg.syn 0 0x808 8 0)).filter (fun e => !(s.storeEntry e).valid)).length

/-- Entries whose frequency changes become invalid (R167). -/
def State.invalidate (s : State) (base count : Word) : State :=
  (List.range 256).foldl (fun s e =>
    if s.freqOf e ≠ entryFreq base count e then s.setEntry e { s.storeEntry e with valid := false } else s) s

/-- No calibration of the transmit loop runs or is paused. -/
def State.calT (s : State) : Bool :=
  s.syn.sweep.isSome || (match s.syn.cal with | some c => !c.filter && !c.bandR | none => false)

/-- The transmit loop is idle (R167, R179). -/
def State.txIdle (s : State) : Bool := s.txa.st == .idle && s.syn.sweep.isNone

/-- A SYN item works on the store (R167). -/
def State.storeBusy (s : State) : Bool :=
  s.flm.ift.any (fun i => i.unit == Pg.syn && i.st == .active && i.result.isNone &&
    (i.opcode == 2 || i.opcode == 3 || (i.opcode == 1 && i.uflags / 8 % 2 == 1)))

/-- The agreement of the SYN page (R167). -/
def State.synAgree (s : State) : Mismatch :=
  let cfg := s.stagedReg Pg.syn 0 0x800
  let base := s.stagedReg Pg.syn 0 0x804
  let n := bits (s.stagedReg Pg.syn 0 0x808) 8 0
  if bits cfg 15 8 = 0 then some (0, 0x800)
  else if n = 0 ∨ 256 < n then some (0, 0x808)
  else if bits base 19 0 < 750000 then some (0, 0x804)
  else if 960000 < bits base 19 0 + n * stepKhz (bits base 25 24) then some (0, 0x804)
  else none

/-- The switch of the SYN page; SYN_CFG committed again starts a new lock attempt (R167, R170). -/
def State.synSwitch (s : State) (c : Commit) : State :=
  if s.enabled Pg.syn && (s.txa.st != .idle || s.syn.sweep.isSome || s.storeBusy) then s
  else
    let base := s.reg Pg.syn 0 0x804
    let count := s.reg Pg.syn 0 0x808
    let again := s.hasStaged Pg.syn 0 0x800
    let s := (s.switchCommit c).invalidate base count
    if again then s.setSyn (fun y => { y with rxFails := 0 }) else s

/-! ### The receive loop (R162, R164, R169, R170) -/

/-- The receive loop has a target: the part receives and SYN is ON. -/
def State.rxWanted (s : State) : Bool := s.path != 0 && s.domOn Dm.rfe && s.domOn Dm.syn

/-- The receive entry of the target: the span centre, or a narrow entry. -/
def State.rxTarget (s : State) : Nat := if s.path = 2 then 1 + s.recv.nb.entry else 0

/-- The receive loop locks (R169). -/
def State.rxLock (s : State) : State :=
  if !s.rxWanted ∨ s.syn.rxLocked ∨ 1 < s.syn.rxFails ∨ s.syn.recovery then s
  else
    let t := s.rxTarget
    let s := s.setSyn (fun y => { y with
      rxLocked := true, rxFails := 0, stuck := false
      rxValid := if s.modeR then y.rxValid else Sparse.set false y.rxValid t true })
    s.unblank.moveOn

/-- The receive loop has not locked 100 µs after its tune (R170). -/
def State.rxTimeout (s : State) (air : List Air) : State :=
  if !s.rxWanted ∨ s.syn.rxLocked ∨ 1 < s.syn.rxFails ∨ s.syn.recovery then s
  else if s.syn.rxFails = 0 then s.setSyn (fun y => { y with rxFails := 1, recovery := true })
  else
    let s := s.setSyn (fun y => { y with
      rxFails := 2, stuck := true
      cal := y.cal.map (fun c => { c with loopFailed := true }) })
    ((s.event Pg.syn 0).count Pg.syn 0 0x814 31 16 1).deafen air

/-- `RX_LOCK_LOST`: the locked receive loop loses lock, and recovers as at a failed tune (R170). -/
def execRxLockLost (s : State) : Host.Outcome State Fault Refusal :=
  .next (if !s.syn.rxLocked then s
    else s.setSyn (fun y => { y with rxLocked := false, rxFails := 1, recovery := true }))

/-! ### CAL items and gaps (R171 to R178) -/

/-- Neither path receives (R171). -/
def State.offline (s : State) : Bool := s.path == 0 || (!s.enabled Pg.chz && s.fieldOf Pg.phy 0 0xB10 1 0 == 0)

/-- FILTER has run. -/
def State.filterDone (s : State) : State :=
  let (v, s) := s.fresh
  s.setReg Pg.rfe 0 0x820 (v ||| 0x80000000)

/-- BAND_R has run: anchors, the five receive entries and TCAL_R. -/
def State.bandDone (s : State) : State :=
  (s.setSyn (fun y => { y with rxValid := (List.range 5).map (fun k => (k, true)), vtOut := false })).setField
    Pg.syn 0 0x810 31 24 s.celsius

/-- The end of the entries that a CAL item calibrates: COUNT excludes those above. -/
def State.calEnd (s : State) (c : CalRun) : Nat := min (c.first + c.count) (s.fieldOf Pg.syn 0 0x808 8 0)

/-- Entries of a CAL item that COUNT excludes. -/
def State.calSkipped (s : State) (c : CalRun) : Nat := if c.store then c.count - (s.calEnd c - c.first) else 0

/-- The CAL item completes with a status, and with what it has done (R178). -/
def State.calEnds (s : State) (c : CalRun) (status : Nat) : State :=
  (s.setSyn (fun y => { y with cal := none })).finish c.item
    { status, wb := s.calSkipped c % 512, time := c.gapAt.map (fun p => (p.2, p.1)), rep6 := word (c.failedEntries % 512) }

/-- The CAL item is done (R178). -/
def State.calFinish (s : State) (c : CalRun) : State :=
  s.calEnds c (if c.loopFailed then Sc.internal
    else if s.calSkipped c ≠ 0 ∨ c.failedEntries ≠ 0 then Sc.doneWarn else Sc.done)

/-- What a CAL item does next once its receive calibrations are done: the anchor sweep, then the entries. -/
def State.calNext (s : State) (c : CalRun) : State :=
  if c.anchor then s.setSyn (fun y => { y with cal := some c, sweep := some (y.sweep.getD 0) })
  else if c.store ∧ c.first + c.next < s.calEnd c then s.setSyn (fun y => { y with cal := some c })
  else s.calFinish c

/-- The receive calibrations of a CAL item run without a gap (R177). -/
def State.calOffline (s : State) (c : CalRun) : State :=
  let s := if c.filter then s.filterDone else s
  let s := if c.bandR then s.bandDone else s
  s.calNext { c with filter := false, bandR := false, due := false }

/-- The CAL item of an entry whose turn it is: SYN executes its items one at a time in fetch order (R176). -/
def State.synItem (s : State) (op entry : Nat) : Option Item :=
  match s.item entry with
  | some i =>
    if i.unit = Pg.syn ∧ i.opcode = op ∧ i.st = .active ∧ i.result = none ∧
        s.fetchTurn i then
      some i
    else none
  | none => none

/-- `CAL`: the item starts, or, once it waits for a gap, is tried again because the part is offline
(R174, R177). -/
def execSynCal (entry : Nat) (s : State) : Host.Outcome State Fault Refusal :=
  .next (
    match s.synItem 1 entry with
    | none => s
    | some i =>
      let f := i.uflags
      let filter := f % 2 = 1
      let band := f / 2 % 2 = 1
      let anchor := f / 4 % 2 = 1
      let count := i.addrA % 512
      let store := f / 8 % 2 = 1
      let gap := filter ∨ band
      if !s.ready Dm.syn then s.wake Dm.syn
      else match s.syn.cal with
      | some c => if c.item = entry ∧ (c.filter ∨ c.bandR) ∧ s.offline ∧ s.syn.gap.isNone then s.calOffline c else s
      | none =>
        if !gap ∧ !anchor ∧ (!store ∨ count = 0) then s.finish entry { status := Sc.doneZero }
        else if gap ∧ i.timed ∧ !i.launched then s
        else
          let c : CalRun := { item := entry, filter, bandR := band, due := i.timed, anchor, store
                              first := i.addrA / 0x10000 % 512, count }
          if gap then (if s.offline then s.calOffline c else s.setSyn (fun y => { y with cal := some c }))
          else s.calNext c)

/-- A gap is requested and not yet granted (R168). -/
def State.gapReq (s : State) : Bool :=
  s.syn.gap.isNone && !s.syn.granted && (s.syn.auto || s.syn.recovery ||
    (match s.syn.cal with | some c => (c.filter || c.bandR) && !c.due | none => false))

/-- Something lets a gap start now: recovery, a grant, or a timed item at its launch (R174). -/
def State.gapDue (s : State) : Bool :=
  s.syn.recovery || s.syn.granted ||
    (match s.syn.cal with | some c => (c.filter || c.bandR) && c.due | none => false)

/-- `GAP_START`: unless a transmission's blank is in force, the gap starts (R106, R173, R175). -/
def execGapStart (air : List Air) (flips : List Flip) (s : State) : Host.Outcome State Fault Refusal :=
  let s := s.applyFlips flips
  .next (
    if !s.gapDue ∨ s.syn.gap.isSome ∨ s.recv.tx.isSome ∨ !s.txaQuiet ∨ !s.domOn Dm.syn then s
    else
      -- the CAL item whose calibrations the gap performs: one that was granted or is launched
      let served := match s.syn.cal with
        | some c => if (c.filter ∨ c.bandR) ∧ (c.due ∨ s.syn.granted) then some c else none
        | none => none
      let filter := match served with | some c => c.filter | none => false
      let band := s.syn.auto || s.syn.recovery || (match served with | some c => c.bandR | none => false)
      let g : Gap := { item := served.map (·.item), filter, bandR := band, sec := s.tim.sec, ns := s.tim.ns }
      let s := s.setSyn (fun y => { y with
        gap := some g, granted := false, auto := false, recovery := false, rxLocked := false
        cal := y.cal.map (fun c => if served.isSome then { c with gapAt := some (s.tim.sec, s.tim.ns) } else c) })
      (((s.event Pg.chz 3).event Pg.syn 3).deafen air).displaceUses)

/-- The calibrations of a gap that had completed when an abort cut it: FILTER 420 µs and BAND_R 920 µs
after its start (R173, R178). -/
def State.gapCut (s : State) : State :=
  match s.syn.gap with
  | none => s
  | some g =>
    if g.cut then s
    else
      let el := s.nowNs - (g.sec * 1000000000 + g.ns)
      let s := if g.filter ∧ 420000 ≤ el then s.filterDone else s
      let s := if g.bandR ∧ 920000 ≤ el then s.bandDone else s
      s.setSyn (fun y => { y with gap := some { g with cut := true, item := none } })

/-- `GAP_END`: the gap is over (R173): results apply, GAP clears, channels pass through SETTLING, and a CAL
item goes on to its transmit calibrations or ends. -/
def execGapEnd (s : State) : Host.Outcome State Fault Refusal :=
  .next (
    match s.syn.gap with
    | none => s
    | some g =>
      let s := if g.cut then s else
        let s := if g.filter then s.filterDone else s
        if g.bandR then s.bandDone else s
      let s := ((s.setSyn (fun y => { y with gap := none })).event Pg.syn 4).antSwitch
      let s := s.unblank.moveOn
      match s.syn.cal with
      | some c => if g.item = some c.item then s.calNext { c with filter := false, bandR := false, due := false } else s
      | none => s)

/-- A tune request that waited for a calibration step goes on (R186). -/
def State.stepOver (s : State) : State := { s with txa := { s.txa with waits := false } }

/-- A step of a transmit-loop calibration may complete: the loop is idle, or a tune waits for this step to end. -/
def State.stepRuns (s : State) : Bool := s.domOn Dm.syn && (s.txa.st == .idle || s.txa.waits)

/-- `ANCHOR_T_STEP`: one of the sixteen steps of the anchor sweep is done (R171). -/
def execAnchorTStep (s : State) : Host.Outcome State Fault Refusal :=
  .next (
    match s.syn.sweep with
    | none => s
    | some n =>
      if !s.stepRuns then s
      else
        let s := s.stepOver
        if n + 1 < 16 then s.setSyn (fun y => { y with sweep := some (n + 1) })
        else
          let s := (s.setSyn (fun y => { y with sweep := none })).setField Pg.syn 0 0x810 23 16 s.celsius
          match s.syn.cal with
          | some c => if c.anchor ∧ !c.filter ∧ !c.bandR then s.calNext { c with anchor := false } else s
          | none => s)

/-- `DRIFT_ANCHOR_SWEEP`: in mode B a sweep starts at the next idle moment after TEMP_DRIFT (R169). -/
def execDriftAnchorSweep (s : State) : Host.Outcome State Fault Refusal :=
  .next (if s.syn.sweepDue ∧ s.modeT ∧ s.domOn Dm.syn ∧ s.txIdle ∧ !s.calT then
    s.setSyn (fun y => { y with sweepDue := false, sweep := some 0 }) else s)

/-- `STORE_T_ENTRY`: STORE_T ends with an entry, locked on it or not (R178). -/
def execStoreTEntry (locked : Bool) (s : State) : Host.Outcome State Fault Refusal :=
  .next (
    match s.syn.cal with
    | none => s
    | some c =>
      let e := c.first + c.next
      if c.filter ∨ c.bandR ∨ c.anchor ∨ !c.store ∨ s.calEnd c ≤ e ∨ s.syn.sweep.isSome ∨ !s.stepRuns then s
      else
        let s := s.stepOver
        match locked, s.freqOf e with
        | true, some f => (s.calibrate e f).calNext { c with next := c.next + 1 }
        | _, _ => (s.setEntry e { s.storeEntry e with valid := false }).calNext
            { c with next := c.next + 1, failedEntries := c.failedEntries + 1 })

/-! ### STORE_SAVE and STORE_LOAD (R179) -/

/-- The eight octets of an entry. -/
def StoreEntry.octets (x : StoreEntry) : List Byte :=
  bytesOfWords [word (x.valid.toNat * 0x80000000 + x.freq % 2 ^ 20), word (x.temp % 256 * 0x1000000 + x.codes % 2 ^ 24)]

/-- LENGTH obeys the rule. -/
def storeLengthOk (n : Nat) : Bool := n % 8 == 0 && n ≤ 2048

/-- `STORE_SAVE`. -/
def execStoreSave (entry : Nat) (flips : List Flip) (s : State) : Host.Outcome State Fault Refusal :=
  let s := s.applyFlips flips
  .next (
    match s.synItem 2 entry with
    | none => s
    | some i =>
      if i.timed ∧ !i.launched then s
      else if !s.ready Dm.syn then s.wake Dm.syn
      else if !storeLengthOk i.length then s.finish entry { status := Sc.internal }
      else
        match s.unitWrite i.addrB (((List.range (i.length / 8)).map s.storeEntry).flatMap StoreEntry.octets) with
        | (s, .waits) => s
        | (s, .refused) => s.finish entry { status := Sc.channelFailed }
        | (s, .ok _ _) => s.finish entry { status := Sc.done, actual := i.length })

/-- The entry that eight octets of an image spell for place `e`: invalid where its frequency is another
or it has none. -/
def State.loadEntry (s : State) (e : Nat) (bs : List Byte) : StoreEntry :=
  let w0 := wordOfBytes bs
  let w1 := wordOfBytes (bs.drop 4)
  let ok := bit w0 31 && s.freqOf e == some (bits w0 19 0)
  { valid := ok, freq := bits w0 19 0, temp := bits w1 31 24, codes := bits w1 23 0 }

/-- `STORE_LOAD`: once the transmit loop is idle, all entries apply in one cycle. -/
def execStoreLoad (entry : Nat) (flips : List Flip) (s : State) : Host.Outcome State Fault Refusal :=
  let s := s.applyFlips flips
  .next (
    match s.synItem 3 entry with
    | none => s
    | some i =>
      if i.timed ∧ !i.launched then s
      else if !s.ready Dm.syn then s.wake Dm.syn
      else if !storeLengthOk i.length then s.finish entry { status := Sc.internal }
      else if !s.txIdle then s
      else
        match s.unitRead i.addrA i.length with
        | (s, .waits) => s
        | (s, .refused) => s.finish entry { status := Sc.channelFailed }
        | (s, .ok bs _) =>
          match knownBytes bs with
          | none => s.finish entry { status := Sc.mediaUncorrectable }
          | some bs =>
            let n := i.length / 8
            let s := (List.range n).foldl (fun s e => s.setEntry e (s.loadEntry e (bs.drop (8 * e)))) s
            let bad := ((List.range n).filter (fun e => !(s.storeEntry e).valid)).length
            s.finish entry { status := if bad = 0 then Sc.done else Sc.doneWarn, actual := i.length, rep6 := word (bad % 512) })

/-! ### Domains (R162, R163, R181) -/

/-- SYN comes ON; from OFF both loops run their anchor sweeps before the first lock (R181). -/
def State.synOn (s : State) (fromOff : Bool) : State :=
  let s := s.rxRetune.setSyn (fun y => { y with txLocked := false })
  if fromOff then
    let s := s.setSyn (fun y => { y with store := [], rxValid := [] })
    (s.setField Pg.syn 0 0x810 31 24 s.celsius).setField Pg.syn 0 0x810 23 16 s.celsius
  else s

/-- RFE comes ON: the step count starts over, and from OFF FILTER runs (R153, R157, R181). -/
def State.rfeOn (s : State) (fromOff : Bool) : State :=
  let s := (s.setField Pg.rfe 0 0x80C 31 16 0)
  let s := { s with recv := { s.recv with iqDone := false } }.rxRetune
  if fromOff then s.filterDone else s

/-- SYN leaves ON: neither loop is locked, and what ran ends. A receive loop that failed twice stays failed through
RETENTION; a soft reset, or OFF, starts over (R170). -/
def State.synLeaves (s : State) (retained : Bool) : State :=
  s.setSyn (fun y => { y with rxLocked := false, txLocked := false, gap := none, cal := none, sweep := none
                              granted := false, recovery := false, stuck := y.stuck && retained
                              rxFails := if y.stuck && retained then y.rxFails else 0 })

/-- A CAL item that `p` names and that runs completes from outside: it keeps what it has done, and a gap that serves it
goes to its restore phase (R178). -/
def State.calAborted (s : State) (p : Nat → Bool) (status : Nat) : State :=
  match s.syn.cal with
  | none => s
  | some c =>
    if !p c.item then s
    else
      let s := if s.syn.gap.any (fun g => g.item == some c.item) then s.gapCut else s
      (s.setSyn (fun y => { y with
        sweep := if c.anchor && !c.filter && !c.bandR then none else y.sweep, granted := y.granted && y.auto })).calEnds c status

/-! ### SYN_STAT and TXA_STAT (R168, R182) -/

def State.synRead (s : State) (off : Nat) : Option Word :=
  if off = 0x80C then
    some (word (s.syn.rxLocked.toNat * 0x80000000 + s.syn.txLocked.toNat * 0x40000000 + s.syn.gap.isSome.toNat * 0x20000000 +
      s.gapReq.toNat * 0x10000000 + s.calT.toNat * 0x8000000 + s.syn.vtOut.toNat * 0x4000000 + s.invalidEntries % 512))
  else none

end Sys2Proof.Machine
end

