-- ==== Sys2Proof/Machine/Link.lean ====
section
/-! DEFINITION. The link controller's table: neighbour contexts, anchors and guards, key slots and counters,
events, beacon tracking's states, commits, and the page's status registers (R194 to R204, R227, R230, R231,
R237 to R239). -/

namespace Sys2Proof.Machine

open Mac

def State.setLnk (s : State) (f : Lnk → Lnk) : State := { s with lnk := f s.lnk }

/-- A register of the LNK page: of context `c`, or of the block. -/
def State.nb (s : State) (c off : Nat) : Word := s.reg Pg.lnk c off
def State.lreg (s : State) (off : Nat) : Word := s.reg Pg.lnk 0 off
def keyOff' (k o : Nat) : Nat := 0xA00 + 16 * k + o
def State.slotReg (s : State) (k o : Nat) : Word := s.reg Pg.lnk 0 (keyOff' k o)

def State.ctxOf (s : State) (c : Nat) : NbCtx := Sparse.get {} s.lnk.ctxs c
def State.setCtx (s : State) (c : Nat) (x : NbCtx) : State := s.setLnk (fun l => { l with ctxs := Sparse.set {} l.ctxs c x })

/-- Context fields of LNK_NB_CFG. -/
def State.nbValid (s : State) (c : Nat) : Bool := bit (s.nb c 0x10C) 31
def State.nbSleep (s : State) (c : Nat) : Bool := bits (s.nb c 0x10C) 30 29 == 1
def State.nbTrain (s : State) (c : Nat) : Bool := bit (s.nb c 0x10C) 28
def State.nbKey (s : State) (c : Nat) : Nat := bits (s.nb c 0x10C) 25 20

/-- VALID contexts, in ascending order. -/
def State.validCtxs (s : State) : List Nat :=
  s.regs.filterMap (fun e => if onPage Pg.lnk e.1 && keyOff e.1 == 0x10C && bit e.2 31 then some (keyIdx e.1) else none)

/-- The key slot is VALID and its handle in Palette holds a key (R344). -/
def State.slotValid (s : State) (k page : Nat) : Bool := bit (s.slotReg k 0) 31 && (s.palKey page k).isSome
def State.slotGroup (s : State) (k : Nat) : Bool := bit (s.slotReg k 0) 30

/-- The slot's key source in a mode. -/
def State.slotSource (s : State) (k mode : Nat) : List Byte :=
  match mode with
  | 2 => bytesOfWord (s.slotReg k 8)
  | 3 => bytesOfWord (s.slotReg k 8) ++ bytesOfWord (s.slotReg k 12)
  | _ => []

/-- A header's key identifier is a slot's. -/
def State.slotMatches (s : State) (k : Nat) (m : Mhr) : Bool :=
  let cfg := s.slotReg k 0
  bits cfg 9 8 == m.kidMode && (m.kidMode == 0 || (bits cfg 7 0 == m.keyIdx && s.slotSource k m.kidMode == m.keySrc))

/-- The own extended address, and a context's, least significant octet first. -/
def State.ownExt (s : State) : List Byte := bytesOfWord (s.lreg 0x800) ++ bytesOfWord (s.lreg 0x804)
def State.nbExt (s : State) (c : Nat) : List Byte := bytesOfWord (s.nb c 0x100) ++ bytesOfWord (s.nb c 0x104)
def State.ownPan (s : State) : Nat := bits (s.lreg 0x808) 31 16
def State.ownShort (s : State) : Nat := bits (s.lreg 0x808) 15 0
def State.oui (s : State) : Nat := bits (s.lreg 0x844) 23 0
def State.ieEn (s : State) : Bool := bit (s.lreg 0x844) 31

/-- The context that a frame's source matches (R201). -/
def State.ctxOfSource (s : State) (m : Mhr) : Option Nat :=
  match m.src with
  | none => none
  | some a =>
    if a.length = 8 then s.validCtxs.find? (fun c => s.nbExt c == a)
    else
      let pan := m.span.getD (m.dpan.getD s.ownPan)
      s.validCtxs.find? (fun c => bits (s.nb c 0x108) 31 16 == pan && bits (s.nb c 0x108) 15 0 == natOfBytesLE a)

/-! ### Events (R237, R238) -/

/-- An event is raised: merged where its kind and index are still pending. -/
def State.lnkEvent (s : State) (kind idx : Nat) (value : Word) : State :=
  if !bit (s.lreg 0x848) 31 then s
  else
    let e : LnkEvent := { kind, idx, value, sec := s.tim.sec, ns := s.tim.ns, no := s.flm.raised }
    if s.lnk.events.any (fun x => x.kind == kind && x.idx == idx) then
      s.setLnk (fun l => { l with events := l.events.map (fun x =>
        if x.kind = kind ∧ x.idx = idx then { e with merged := true, no := x.no } else x) })
    else { s with flm := { s.flm with raised := s.flm.raised + 1 }, lnk := { s.lnk with events := s.lnk.events ++ [e] } }

/-- `LNK_EVENT_POST`: the oldest pending event is posted when its tailrace has room. -/
def execLnkEventPost (s : State) : Host.Outcome State Fault Refusal :=
  .next (match s.lnk.events with
    | [] => s
    | e :: es =>
      let t := bits (s.lreg 0x848) 29 24
      if !bit (s.lreg 0x848) 31 ∨ !s.trRoom t ∨ !s.noHeld t ∨ s.raisedBefore t e.no then s
      else match s.rangeStatus (s.trAddr t) 32 with
        | .stall d => s.wake d
        | .ready =>
          let r : Report := { unit := Pg.lnk, tail := t, status := Sc.done, tag := word (e.kind * 0x1000000 + e.idx % 0x800)
                              ns := e.ns, sec := e.sec, rep6 := e.value, rep7 := word e.merged.toNat }
          (s.setLnk (fun l => { l with events := es })).writeReport r
        | _ => s)

/-! ### Anchors and guards (R230, R231) -/

/-- Units of 1/32 768 ns. -/
abbrev tickDen : Nat := 32768

/-- Tw in 1/32 768 ns: a context's period, or the beacon interval. -/
def State.period (s : State) (c : Nat) (beacon : Bool) : Nat :=
  if beacon then bits (s.lreg 0x834) 31 16 * 10000000 * tickDen else bits (s.nb c 0x110) 31 16 * 1000000000

/-- The drift bound in 0.01 ppm. -/
def State.drift (s : State) (c : Nat) : Nat :=
  if (s.ctxOf c).rated then bits (s.lreg 0x824) 15 0 else bits (s.lreg 0x824) 31 16

/-- P_k after an anchor, in ns. -/
def State.predict (s : State) (c : Nat) (beacon : Bool) (a k : Nat) : Int :=
  a + inSteps 231 (tickDen * 100000000) (((k * s.period c beacon : Nat) : Int) * (100000000 + (s.ctxOf c).rate))

/-- The guard for a target `d` ns after the anchor, in ns. -/
def State.guardNs (s : State) (c : Nat) (cfg : Word) (d : Int) : Int :=
  (bits cfg 31 16 * 1000 : Nat) + inSteps 231 100000000 (2 * s.drift c * d)

/-- The number of the first target whose P − G is no earlier than `e`. -/
def State.firstTarget (s : State) (c : Nat) (beacon : Bool) (cfg : Word) (a : Nat) (e : Int) : Nat :=
  let num : Int := (e - a + (bits cfg 31 16 * 1000 : Nat)) * 100000000 * tickDen * 100000000
  let den : Int := (100000000 - 2 * s.drift c) * (s.period c beacon : Nat) * (100000000 + (s.ctxOf c).rate)
  if den ≤ 0 then 1 else max 1 ((num + den - 1) / den).toNat

/-- The guard is evaluated for a target (R202): it is recorded, and beyond GUARD_MAX SYNC becomes 2. -/
def State.evalGuard (s : State) (c : Nat) (cfg : Word) (g : Int) : State :=
  let x := s.ctxOf c
  let exceeds := (bits cfg 15 0 * 10000 : Nat) < g
  let s := s.setCtx c { x with guard := min 65535 (inSteps 198 10000 g).toNat, sync := if exceeds ∧ x.sync = 1 then 2 else x.sync }
  if exceeds ∧ x.sync = 1 then (s.event Pg.lnk 3).lnkEvent 4 c (word (inSteps 237 1000 g).toNat) else s

/-- A context's guard for its next target from `e` on, evaluated; the target and guard where it has an anchor. -/
def State.evalNext (s : State) (c : Nat) (beacon : Bool) (cfg : Word) (e : Int) : State × Option (Int × Int) :=
  match (s.ctxOf c).anchor with
  | none => (s, none)
  | some a =>
    if s.period c beacon = 0 then (s, none)
    else
      let p := s.predict c beacon a (s.firstTarget c beacon cfg a e)
      let g := s.guardNs c cfg (p - a)
      (s.evalGuard c cfg g, some (p, g))

/-- A new anchor. -/
def State.anchorAt (s : State) (c : Nat) (beacon : Bool) (a2 : Nat) : State :=
  let x := s.ctxOf c
  let tw := s.period c beacon
  let x' := match x.anchor with
    | none => x
    | some a1 =>
      let d : Int := (a2 : Int) - a1
      let k := if tw = 0 then 0 else ((2 * d * tickDen + tw) / (2 * tw)).toNat
      if d < 10000000000 ∨ k = 0 then x
      else
        let raw := inSteps 230 (k * tw) ((d * tickDen - (k * tw : Nat)) * 100000000)
        let r := if x.rated then x.rate + inSteps 230 4 (raw - x.rate) else raw
        { x with rate := clampInt (-32768) 32767 r, rated := true }
  let s := s.setCtx c { x' with anchor := some a2, sync := 1, nanch := satInc 16 x.nanch }
  if x.sync = 2 then s.lnkEvent 5 c (word (unsigned 32 x'.rate)) else s

/-- The anchor and RATE are dropped (R198, R201, R230). -/
def State.unanchor (s : State) (c : Nat) : State :=
  s.setCtx c { s.ctxOf c with anchor := none, sync := 0, rated := false, rate := 0 }

/-! ### Outgoing counters (R203, R204) -/

/-- The counter of a context under its slot, or of a group slot. -/
def State.counterAt (s : State) (c k : Nat) : Nat × Nat := if s.slotGroup k then (0, keyOff' k 4) else (c, 0x114)

/-- The index of the counter's events. -/
def State.counterIdx (s : State) (c k : Nat) : Nat := if s.slotGroup k then k + 0x400 else c

/-- A counter is assigned; none is left at 0xFFFF_FFFF. -/
def State.assignCounter (s : State) (c k : Nat) : State × Option Nat :=
  let (i, off) := s.counterAt c k
  let v := (s.reg Pg.lnk i off).toNat
  if v = 0xFFFFFFFF then ((s.event Pg.lnk 5).lnkEvent 7 (s.counterIdx c k) 0xFFFFFFFF, none)
  else
    let s := s.setReg Pg.lnk i off (word (v + 1))
    let m := bits (s.lreg 0x80C) 4 0
    let s := if m ≠ 0 ∧ (v + 1) % 2 ^ m = 0 then (s.event Pg.lnk 4).lnkEvent 6 (s.counterIdx c k) (word (v + 1)) else s
    (s, some v)

/-! ### Writes of LNK_NB_CTRL, reads of LNK_NB_STATE, the minute (R198, R202) -/

/-- A write of LNK_NB_CTRL. -/
def State.nbCtrl (s : State) (ini : Initiator) (v : Word) : State :=
  let c := s.chsel Pg.lnk ini
  let s := if bit v 2 then s.unanchor c else s
  if bit v 1 && bit v 0 then s.raise Pg.lnk ini 0x134 c Err.range
  else if bit v 0 then s.setCtx c { s.ctxOf c with pending := true }
  else if bit v 1 then s.setCtx c { s.ctxOf c with pending := false }
  else s

/-- `UNANCHOR`, `PEND_SET` and `PEND_CLR`. -/
def execUnanchor (ini : Initiator) (s : State) : Host.Outcome State Fault Refusal :=
  .next (s.pageWrite ini Pg.lnk 0x134 4 (fun s => s.nbCtrl ini 4))
def execPendSet (ini : Initiator) (s : State) : Host.Outcome State Fault Refusal :=
  .next (s.pageWrite ini Pg.lnk 0x134 1 (fun s => s.nbCtrl ini 1))
def execPendClr (ini : Initiator) (s : State) : Host.Outcome State Fault Refusal :=
  .next (s.pageWrite ini Pg.lnk 0x134 2 (fun s => s.nbCtrl ini 2))

/-! ### Uses of the narrow radio (R235) -/

/-- The beacon source context and entry. -/
def State.bcnCtx (s : State) : Nat := bits (s.lreg 0x830) 9 0
def State.bcnWide (s : State) : Bool := bit (s.lreg 0x830) 30

/-- An own sample is in progress. -/
def State.sampling (s : State) : Bool := s.recv.nb.use == .sample && s.recv.nb.phase != .stopped

/-- Entries that an RXWIN item selects, and the dwell on each in µs (R223). -/
def State.winMask (s : State) (i : Item) : Nat := ((List.range 4).filter (fun k => s.nbListed k && (i.addrB % 16).testBit k)).foldl (fun m k => m + 2 ^ k) 0
def State.winDwell (s : State) (i : Item) : Option Nat :=
  some (i.length / max 1 ((List.range 4).filter (s.winMask i).testBit).length)

/-- A window of LNK that is open on the narrow path, the one of highest rank, but for use `u`: the entry it listens on,
its use, the entries to visit after it, and its dwell. -/
def State.openUse (s : State) (u : NbUse) : Option (Nat × NbUse × Nat × Option Nat) :=
  match s.lnk.dataAt, s.lnk.dataEnd.isSome && u != .data with
  | some (e, _), true => some (e, .data, 0, none)
  | _, _ =>
  match s.lnk.fpEnd, u != .fp with
  | some (e, _), true => some (e, .fp, 0, none)
  | _, _ =>
  if s.lnk.bcnEnd.isSome && !s.bcnWide && !s.lnk.bcnShut && u != .beacon then some (bits (s.lreg 0x830) 29 28, .beacon, 0, none)
  else if u == .rxwin then none
  else match s.lnk.wins.findSome? (fun w => s.item w.item) with
    | some i => (s.nbFrom 0 (fun k => (s.winMask i).testBit k)).map (fun k => (k, .rxwin, s.winMask i, s.winDwell i))
    | none => none

/-- A use of the narrow path ends: another window that is open takes it, or it leaves the path (R235). -/
def State.closeUse (s : State) (u : NbUse) : State :=
  let nb := s.recv.nb
  if nb.use ≠ u ∨ nb.phase = .stopped then s
  else match s.openUse u with
    | some (k, v, mask, dwell) =>
      if (s.lane nbLane).isSome ∨ k = nb.entry then { s with recv := { s.recv with nb := { nb with use := v, mask, dwell } } }
      else s.nbGo k mask v dwell
    | none => s.nbGiveUp

/-- The context is the beacon source. -/
def State.isBeacon (s : State) (c : Nat) : Bool := bit (s.lreg 0x830) 31 && bits (s.lreg 0x830) 9 0 == c

/-- LNK_NB_STATE; the read evaluates the guard. -/
def State.nbStateRead (s : State) (c : Nat) : Word × State :=
  let (s, _) := s.evalNext c (s.isBeacon c) (s.lreg 0x820) s.nowNs
  let x := s.ctxOf c
  (word (x.sync * 0x40000000 + x.rated.toNat * 0x20000000 + x.fcrxSet.toNat * 0x10000000 + x.pending.toNat * 0x8000000 +
    min 2047 (s.lnk.minutes - x.ageFrom) * 0x10000 + x.guard), s)

/-- `NB_STATE_READ` (R202). -/
def execNbStateRead (ini : Initiator) (s : State) : Host.Outcome State Fault Refusal :=
  .next (s.pageRead ini Pg.lnk 0x128 (fun s => s.nbStateRead (s.chsel Pg.lnk ini)))

/-- `NB_AGE_MINUTE`: a minute passes for every context (R198). -/
def execNbAgeMinute (s : State) : Host.Outcome State Fault Refusal :=
  .next (if (s.dom Dm.lnk).st = .off then s else s.setLnk (fun l => { l with minutes := l.minutes + 1 }))

/-! ### Beacon tracking's states (R234) -/

/-- A pass of the search starts: on the narrow path one dwell on each entry of the list. -/
def State.bcnPass (s : State) : State :=
  if s.bcnWide ∨ s.path ≠ 2 then s
  else match s.nbFrom 0 (fun _ => true) with
    | some k => ((s.wake Dm.rfe).wake Dm.syn).nbGo k 0xF .search s.searchDwell
    | none => s

/-- A search starts. -/
def State.bcnSearch (s : State) : State :=
  (s.setLnk (fun l => { l with bcn := .lost, passes := 0, bcnEnd := none, bcnShut := false, passDone := false })).bcnPass

/-- The next window is armed: that of the first target whose P − G lies after now. A later change of LNK_BCNPER acts from
the window after it (R200). -/
def State.bcnArm (s : State) : State :=
  let c := s.bcnCtx
  match (s.ctxOf c).anchor with
  | some a =>
    let p := s.predict c true a (s.firstTarget c true (s.lreg 0x820) a (s.nowNs + 1))
    s.setLnk (fun l => { l with bcn := .track, bcnEnd := none, bcnShut := false, bcnAt := p })
  | none => s

/-- Tracking starts from OFF or SEARCH_FAILED. -/
def State.bcnStart (s : State) : State :=
  let s := s.setLnk (fun l => { l with miss := 0 })
  if (s.ctxOf s.bcnCtx).anchor.isSome then s.bcnArm else s.bcnSearch

/-- Tracking is lost. -/
def State.bcnLose (s : State) : State :=
  ((s.event Pg.lnk 0).lnkEvent 1 s.bcnCtx (word s.lnk.miss)).bcnSearch

/-- The narrow path stops what it does for a use, where it does. -/
def State.nbLeave (s : State) (p : NbUse → Bool) : State :=
  if p s.recv.nb.use ∧ s.recv.nb.phase ≠ .stopped then s.nbGiveUp else s

/-- A commit that carries LNK_BCN. -/
def State.bcnCommit (s : State) : State :=
  if !bit (s.lreg 0x830) 31 then
    (((s.setLnk (fun l => { l with bcn := .off, bcnEnd := none, bcnShut := false, miss := 0 })).closeUse .beacon).closeUse .search)
  else if s.lnk.bcn = .off ∨ s.lnk.bcn = .failed then s.bcnStart
  else s

/-! ### Commits (R199 to R201) -/

/-- Contexts with a staged or running set. -/
def State.lnkCtxs (s : State) : List Nat :=
  ((s.staged ++ s.regs).filterMap (fun e =>
    if onPage Pg.lnk e.1 && 0x100 ≤ keyOff e.1 && keyOff e.1 < 0x800 then some (keyIdx e.1) else none)).eraseDups.mergeSort

/-- The agreement rules of R199. -/
def State.lnkAgree (s : State) : Mismatch :=
  let g := fun c off => s.stagedReg Pg.lnk c off
  let all := s.lnkCtxs
  let ok := all.filter (fun c => bit (g c 0x10C) 31)
  let key := fun c => bits (g c 0x10C) 25 20
  let clash := fun c => ok.find? (fun d => d < c &&
    ((g c 0x100 == g d 0x100 && g c 0x104 == g d 0x104) ||
     (g c 0x108 == g d 0x108 && bits (g c 0x108) 15 0 != 0xFFFE && bits (g c 0x108) 15 0 != 0xFFFF)))
  let group := fun k => bit (s.stagedReg Pg.lnk 0 (keyOff' k 0)) 30
  let sameKey := fun c => bits (s.nb c 0x10C) 25 20 == key c
  let tabs := s.tables
  let bcn := g 0 0x830
  let tx := g 0 0x810
  let gap := g 0 0x83C
  match ok.find? (fun c => (clash c).isSome) with
  | some c => some (c, 0x100)
  | none =>
  match ok.find? (fun c => ok.any (fun d => d < c && key d == key c && !group (key c))) with
  | some c => some (c, 0x10C)
  | none =>
  match all.find? (fun c => s.hasStaged Pg.lnk c 0x114 && sameKey c && (g c 0x114).toNat < (s.nb c 0x114).toNat) with
  | some c => some (c, 0x114)
  | none =>
  match (List.range 64).find? (fun k => (s.stagedReg Pg.lnk 0 (keyOff' k 4)).toNat < (s.slotReg k 4).toNat) with
  | some k => some (k, keyOff' k 4)
  | none =>
  match all.find? (fun c => s.hasStaged Pg.lnk c 0x118 && sameKey c && (s.ctxOf c).fcrxSet && (g c 0x118).toNat < (s.nb c 0x118).toNat) with
  | some c => some (c, 0x118)
  | none =>
  match ok.find? (fun c => bits (g c 0x10C) 30 29 == 1 && (bits (g c 0x110) 31 16 < 2 || bits (g c 0x110) 15 0 == 0)) with
  | some c => some (c, 0x110)
  | none =>
  match ok.find? (fun c => !tabs.any (fun t => bit (t (bits (g c 0x10C) 15 12) 0) 31) || s.fieldOf Pg.syn 0 0x808 8 0 ≤ bits (g c 0x10C) 8 0) with
  | some c => some (c, 0x10C)
  | none =>
  if bit bcn 31 ∧ (!bit (g (bits bcn 9 0) 0x10C) 31 ∨ bits (g (bits bcn 9 0) 0x10C) 30 29 = 1) then some (bits bcn 9 0, 0x830)
  else if bit (g 0 0x848) 31 ∧ !s.trEn (bits (g 0 0x848) 29 24) then some (0, 0x848)
  else if bits tx 11 8 < bits tx 15 12 then some (0, 0x810)
  else if bits gap 15 0 < bits gap 31 16 then some (0, 0x83C)
  else none

/-- The MPDU of a received frame, without its FCS. -/
def RxFrame.mpdu (f : RxFrame) : List Byte := f.lane.data.take (f.lane.data.length - fcsLen f.lane.fcs2)

/-- No item naming the context lies between counter assignment and completion, and no frame from it is in the security
stage (R200). -/
def State.ctxQuiet (s : State) (c : Nat) : Bool :=
  !s.lnk.jobs.any (fun j => j.ctx == some c && j.counter.isSome) && !s.lnk.acks.any (fun a => a.ctx == some c && a.tuned) &&
  !s.recv.queue.any (fun f => f.toLnk && (parse f.mpdu).bind s.ctxOfSource == some c)

/-- What a context's commit does beyond its registers (R201, R230). -/
def State.ctxCommitted (old s : State) (c : Nat) (fcrx : Bool) : State :=
  let keyNew := old.nbKey c != s.nbKey c || (!old.nbValid c && s.nbValid c)
  let x := { s.ctxOf c with nanch := 0 }
  let x := if keyNew && !fcrx then { x with fcrxSet := false, seqValid := false } else x
  let x := if fcrx then { x with fcrxSet := true } else x
  let s := s.setCtx c x
  if old.nbExt c ≠ s.nbExt c ∨ bits (old.nb c 0x110) 31 16 ≠ bits (s.nb c 0x110) 31 16 then s.unanchor c else s

/-- The LNK page switches what has reached its point (R200). -/
def State.lnkSwitch (s : State) (c : Commit) : State :=
  let named := fun k => namedBy c.page c.index c.all k
  let now := fun k => named k && (0x800 ≤ keyOff k || !s.enabled Pg.lnk || s.ctxQuiet (keyIdx k))
  let moved := (s.staged.filter (fun e => now e.1)).map (·.1)
  let ctxs := ((moved.filter (fun k => keyOff k < 0x800)).map keyIdx).eraseDups
  let sl := moved.any (fun k => keyOff k == 0x828)
  let was := bit (s.lreg 0x828) 31
  let old := s
  let s := s.switchKeys now
  let s := ctxs.foldl (fun s i => old.ctxCommitted s i (moved.any (fun k => keyIdx k == i && keyOff k == 0x118))) s
  let s := if !sl then s
    else if !bit (s.lreg 0x828) 31 then s.setLnk (fun l => { l with nextSample := none })
    else if was then s else s.setLnk (fun l => { l with nextSample := some (s.ticks + 1) })
  let s := if moved.any (fun k => keyOff k == 0x830) then s.bcnCommit else s
  s.endCommit c

/-- Fields of a staged write of the page that no value range of the table covers, with the values they take:
MINLVL 4, TXCH above 255, PERIOD below 2, FCMARK 1 to 7 and 25 to 31, and LISTEN_US below 160 under ETSI (R198, R217). -/
def State.lnkStaged (s : State) (ini : Initiator) (off : Nat) (v : Word) : State :=
  let idx := s.setIndex Pg.lnk ini off
  let cur := s.stagedReg Pg.lnk idx off
  let m := bits v 4 0
  let (bad, v') :=
    if off = 0x10C ∧ (bits v 18 16 = 4 ∨ 255 < bits v 8 0) then
      let v := if bits v 18 16 = 4 then setBits v 18 16 (bits cur 18 16) else v
      (true, if 255 < bits v 8 0 then setBits v 8 0 (bits cur 8 0) else v)
    else if off = 0x110 ∧ bits v 31 16 < 2 then (true, setBits v 31 16 (bits cur 31 16))
    else if off = 0x80C ∧ ((1 ≤ m ∧ m ≤ 7) ∨ 25 ≤ m) then (true, setBits v 4 0 (bits cur 4 0))
    else if off = 0x818 ∧ bit v 31 ∧ bits v 15 0 < 160 then (true, setBits v 15 0 (bits cur 15 0))
    else (false, v)
  let t := s.stageWrite ini Pg.lnk off v'
  if bad && s.claim Pg.lnk != none && s.claim Pg.lnk != some ini then t
  else if bad && !s.locked Pg.lnk && !s.commitPend Pg.lnk then t.raise Pg.lnk ini off idx Err.range else t

/-! ### Status registers -/

/-- The computed registers of the page. -/
def State.lnkRead (s : State) (idx off : Nat) : Option (Word × State) :=
  let x := s.ctxOf idx
  let v := fun (w : Word) => some (w, s)
  match off with
  | 0x11C => v (word (x.anchor.getD 0 % 1000000000))
  | 0x120 => v (word (x.anchor.getD 0 / 1000000000 % 2 ^ 18))
  | 0x124 => v (word (unsigned 16 x.rate * 0x10000 + x.nanch))
  | 0x128 => some (s.nbStateRead idx)
  | 0x12C => v (word (x.seq * 0x1000000 + x.lqi * 0x10000 + x.rssi * 0x100 + x.seqValid.toNat))
  | 0x838 =>
    let st := match s.lnk.bcn with | .off => 0 | .track => 1 | .lost => 2 | .failed => 3
    v (word (st * 0x20000000 + s.lnk.miss * 0x1000000 + s.lnk.hits))
  | 0x84C => v s.lnk.secerr
  | _ => none

end Sys2Proof.Machine
end

