-- ==== Sys2Proof/Machine/Transmit.lean ====
section
/-! DEFINITION. The transmit side: LNK's schedule of TX and WAKECODE items, listen-before-talk, tune requests,
TXA's ramps and holds, and the ends of attempts (R108, R133, R151, R161, R169, R170, R182 to R187, R190, R203,
R212 to R224, R229, R232, R233, R235). -/

namespace Sys2Proof.Machine

open Mac

/-! ### Air time (R133, R151, R184) -/

/-- Spreading factor of a code. -/
def sfOf (c : Nat) : Nat := 8 * 2 ^ c

/-- Bits of PHR and PSDU of `len` octets, coded or not. -/
def bodyBits (fec : Bool) (len : Nat) : Nat := if fec then codedBits len else 16 + 8 * len

/-- Air time of a frame in ns. -/
def airNs (mod : Word) (pre len : Nat) : Nat :=
  let m := mtMode mod
  let fec := mtFecTx mod
  let ns := fun (b r : Nat) => (inSteps 133 r (((b * 1000000000 : Nat)) : Int)).toNat
  if m ≤ 3 then ns (8 * pre + 16 + bodyBits fec len) (rateOf m)
  else if m = 4 then ns (2 * (8 * pre + 32) + 8 * len) 300000
  else if mtFmt mod then Config.oqpskAir len (mtSf mod)
  else (64 * pre + 128 + sfOf (mtSf mod) * bodyBits fec len) * 10000

/-- Time of preamble and SFD in ns. -/
def shrNs (mod : Word) (pre : Nat) : Nat :=
  let m := mtMode mod
  if m ≤ 4 then (inSteps 133 (rateOf m) ((((8 * pre + 16) * 1000000000 : Nat)) : Int)).toNat
  else if mtFmt mod then Config.oqpskShr (mtSf mod)
  else (64 * pre + 128) * 10000

/-- The smallest count of preamble units that covers a time in ns; the standard's preamble has no count (R126). -/
def preFor (mod : Word) (t : Nat) : Nat :=
  if mtMode mod ≤ 4 then (t * rateOf (mtMode mod) + 8000000000 - 1) / 8000000000
  else if mtFmt mod then 0 else (t + 639999) / 640000

/-- D_TX in ns. -/
def dTx (mod : Word) : Nat := [314000, 79625, 16500, 6500, 6500, 11500].getD (mtMode mod) 11500

/-- L of a frame of `n` octets. -/
def psduLen (mod : Word) (n : Nat) : Nat := n + fcsLen (mtFcsTwo mod)

/-- The PSDU of a frame: its octets and its FCS (R127). -/
def withFcs (mod : Word) (f : List Byte) : List Byte := f ++ fcsOf (mtFcsTwo mod) f

/-- T_LEAD in ns (R184). -/
def State.tLead (s : State) : Nat := [12000, 20000, 36000].getD (s.fieldOf Pg.txa 0 0x800 5 4) 36000

/-- BOARD_TX in ns. -/
def State.boardTx (s : State) : Nat := s.fieldOf Pg.phy 0 0xC04 15 0

/-- The ramp-begin instant of a launch (R184, R253), and the launch that a ramp begun at an instant has. -/
def State.rampAt (s : State) (launch : Int) : Int := launch - s.tLead - (s.boardTx : Nat)
def State.launchFrom (s : State) (ramp : Int) : Int := ramp + s.tLead + (s.boardTx : Nat)

/-! ### Jobs -/

def State.job (s : State) (entry : Nat) : Option TxJob := s.lnk.jobs.find? (fun j => j.item == entry)
def State.updJob (s : State) (entry : Nat) (f : TxJob → TxJob) : State :=
  s.setLnk (fun l => { l with jobs := l.jobs.map (fun j => if j.item = entry then f j else j) })
def State.dropJob (s : State) (entry : Nat) : State :=
  s.setLnk (fun l => { l with jobs := l.jobs.filter (fun j => j.item != entry) })

/-- Latched fields, in ns. -/
def TxJob.tuneLead (j : TxJob) : Nat := bits j.txcfg 31 24 * 1000
def TxJob.listenNs (j : TxJob) : Nat := bits j.lbtcfg 15 0 * 1000
def TxJob.turnNs (j : TxJob) : Nat := bits j.ackcfg 31 16 * 1000
def TxJob.len (j : TxJob) : Nat := if j.wake then 0 else psduLen j.mod j.mpdu.length

/-- PRE_LEN of the entry, and the preamble count that the attempt's frame has (R139, R232). -/
def TxJob.entryPre (j : TxJob) : Nat := bits j.tx 31 16
def TxJob.preLen (j : TxJob) : Nat := max j.entryPre j.pre

/-- Air time of the job's frame, of one wake frame of its train, and of all that it sends. -/
def TxJob.air (j : TxJob) : Nat := if j.wake then (j.pilot + 250 + 16 * 250) * 1000 else airNs j.mod j.preLen j.len
def TxJob.wakeAir (j : TxJob) : Nat := airNs j.mod j.entryPre (psduLen j.mod 12)
def TxJob.airAll (j : TxJob) : Nat := j.train * j.wakeAir + j.air

/-- The result of a TX or WAKECODE item (R222, R250). -/
def TxJob.result (j : TxJob) (status : Nat) (fp : Bool) (lqi rssi : Nat) : Result :=
  { status, wb := min 15 j.attempts + min 15 j.busyTotal * 0x10 + j.fallback.toNat * 0x100 + fp.toNat * 0x200
    time := if j.wake then none else some (j.stamp.getD (0, 0)), actual := if j.attempts = 0 then 0 else j.len
    rep6 := word (j.counter.getD 0), rep7 := word (lqi * 0x1000000 + rssi * 0x10000 + j.ctx.getD 0) }

/-- The context's count of a failed send. -/
def State.countFail (s : State) (j : TxJob) (status : Nat) : State :=
  match j.ctx with
  | none => s
  | some c =>
    if status = Sc.noAck then s.count Pg.lnk c 0x130 15 8 1
    else if status = Sc.channelBusy then s.count Pg.lnk c 0x130 7 0 1 else s

/-- NO_ACK completions in a row make LNK ask for the other antenna (R220, R156). -/
def State.noteNoack (s : State) (status : Nat) : State :=
  if status ≠ Sc.noAck then s.setLnk (fun l => { l with noacks := 0 })
  else
    let cfg := s.lreg 0x840
    let n := s.lnk.noacks + 1
    let s := s.setLnk (fun l => { l with noacks := n })
    let free : Bool := match s.lnk.antReq with | some t => t + bits cfg 7 0 * 1000000000 ≤ s.nowNs | none => true
    if bit cfg 31 ∧ s.arrangement = 1 ∧ bits cfg 11 8 ≤ n ∧ free then
      let now := s.nowNs
      (s.antselWrite (if bit (s.reg Pg.rfe 0 0x804) 16 then 0 else 1)).setLnk (fun l => { l with noacks := 0, antReq := some now })
    else s

/-! ### TXA's tunes and HOLD (R185, R186) -/

/-- TXA takes a tune request, or holds it while it ramps or sends. One that meets a running calibration in IDLE waits for
its step (R186). -/
def State.tune (s : State) (key : TxKey) (freq store : Nat) : State :=
  let go := fun (s : State) (waits : Bool) =>
    { s with syn := { s.syn with txLocked := false }
             txa := { s.txa with st := .tune, cur := some key, freq, entry := store, retried := false, waits, cutFrame := false } }
  match s.txa.st with
  | .rampUp | .send | .rampDown => { s with txa := { s.txa with held := s.txa.held ++ [(key, freq, store)] } }
  | .hold | .ready =>
    if s.txa.freq = freq ∧ s.syn.txLocked then
      { s with txa := { s.txa with st := .ready, cur := some key, entry := store, cutFrame := false } }
    else go s false
  | .idle => go s s.calT
  | .tune => go s s.txa.waits

/-- TXA takes up the oldest tune request that it holds. -/
def State.takeHeld (s : State) : State :=
  match s.txa.held with
  | (k, f, e) :: rest => ({ s with txa := { s.txa with held := rest } }).tune k f e
  | [] => s

/-- TXA enters HOLD, and takes up what it holds (R185). -/
def State.toHold (s : State) : State :=
  let now : Int := s.nowNs
  { s with txa := { s.txa with st := .hold, cur := none, holdAt := now } }.takeHeld

/-- TXA gives up the frame in hand before its ramp, with the FEM state and the blank that were started for it. -/
def State.dropCurrent (s : State) : State :=
  let began := s.txa.begins.isSome
  let lead := s.txa.fem && s.txa.downAt.isNone
  let ready := s.txa.st == .ready
  let s := { s with txa := { s.txa with cur := none, begins := none, fem := s.txa.fem && !lead } }
  let s := if began then s.blankEnd.moveOn else s
  if ready then s.toHold else s

/-- A frame is no longer TXA's: neither in hand before its ramp nor held. -/
def State.unhand (s : State) (k : TxKey) : State :=
  let s := { s with txa := { s.txa with held := s.txa.held.filter (fun h => h.1 != k) } }
  if s.txa.cur = some k ∧ s.txaQuiet then s.dropCurrent else s

/-! ### Uses of the narrow radio (R235) -/

/-- Rank of what the narrow path does. -/
def nbRank (u : NbUse) : Nat :=
  match u with
  | .ack => 1 | .lbt => 4 | .data => 5 | .fp => 5 | .beacon => 6 | .rxwin => 7 | .sample => 8 | .search => 9 | .list => 9

/-- A use of rank `r` on entry `k` that would run until `till` is displaced. -/
def State.displaced (s : State) (r k : Nat) (till : Int) : Bool :=
  let nb := s.recv.nb
  s.path != 2 || s.calBlank || !s.txaQuiet ||
  s.lnk.jobs.any (fun j => j.ackWait.isSome) ||
  s.lnk.acks.any (fun a => decide (s.rampAt a.at_ ≤ till)) ||
  ((s.lane nbLane).isSome && nb.entry != k) ||
  (decide (4 < r) && s.lnk.jobs.any (fun j => match j.launch with
    | some t => decide (s.rampAt t - j.tuneLead - (if j.lbt then j.listenNs else 0) < till)
    | none => false)) ||
  (nb.phase != .stopped && nb.entry != k && decide (nbRank nb.use < r))

/-- The narrow path listens on an entry for a window, unless a listen without an end of its own is there already; an own
sample that it takes the path from is skipped. -/
def State.listenOn (s : State) (k mask : Nat) (u : NbUse) (dwell : Option Nat) : State :=
  let s := (s.wake Dm.rfe).wake Dm.syn
  let nb := s.recv.nb
  if nb.entry = k ∧ nb.phase ≠ .stopped ∧ nb.dwell.isNone ∧ nb.use ≠ .lbt then s
  else
    let s := if s.sampling ∧ (s.lane nbLane).isNone then s.count Pg.lnk 0 0x850 7 0 1 else s
    if (s.lane nbLane).isSome then { s with recv := { s.recv with nb := { nb with use := u, mask, dwell } } }
    else s.nbGo k mask u dwell

/-- A transmission may take the narrow radio: no lane is held, and an untimed one waits for what is open (R235). -/
def State.radioFree (s : State) (timed : Bool) : Bool :=
  s.path != 2 || ((s.lane nbLane).isNone &&
    (timed || !(s.lnk.dataEnd.isSome || s.lnk.fpEnd.isSome || (s.lnk.bcnEnd.isSome && !s.bcnWide) || !s.lnk.wins.isEmpty || s.sampling)))

/-- The entry whose frequency is `freq`. -/
def State.narrowFor (s : State) (freq : Nat) : Option Nat :=
  s.nbFrom 0 (fun k => bits (s.reg Pg.phy 0 (0xB20 + 4 * k)) 19 0 == freq)

/-- The narrow path listens on after an acknowledgement with frame pending (R222, R235). -/
def State.fpListen (s : State) (freq : Nat) : State :=
  let ms := bits (s.lreg 0x82C) 7 0
  if s.path ≠ 2 ∨ ms = 0 then s
  else match s.narrowFor freq with
    | some k =>
      let t : Int := s.nowNs + ms * 1000000
      if s.displaced 5 k t then s
      else (s.setLnk (fun l => { l with fpEnd := some (k, t) })).listenOn k 0 .fp none
    | none => s

/-! ### Ends of jobs -/

/-- The item ends with a status: the job leaves the schedule, and TXA, where it holds it before a ramp. -/
def State.txEnd (s : State) (j : TxJob) (status : Nat) (fp : Bool := false) (lqi rssi : Nat := 0) : State :=
  let s := ((s.finish j.item (j.result status fp lqi rssi)).countFail j status).dropJob j.item
  let s := if status = Sc.noAck ∨ status = Sc.done ∨ status = Sc.doneWarn then s.noteNoack status else s
  let s := ((s.unhand (.item j.item)).closeUse .ack).closeUse .lbt
  if fp then s.fpListen j.freq else s

/-- The status of a frame that was sent as requested. -/
def TxJob.good (j : TxJob) : Nat := if j.fallback then Sc.doneWarn else Sc.done

/-! ### Frequencies that can be measured (R216) -/

/-- The centre of channel `n` in kHz. -/
def State.chzKhz (s : State) (n : Nat) : Nat :=
  let st := stepKhz s.spacing
  s.fieldOf Pg.chz 0 0x800 19 0 + st / 2 + n * st

/-- Channels of the plan on which a frequency is measured: one, or the two of an M4 pair. -/
def State.wideFor (s : State) (freq : Nat) (mod : Word) : List Nat :=
  match s.channels.find? (fun n => s.chzKhz n == freq) with
  | some n => [n]
  | none =>
    if mtMode mod = 4 ∧ s.spacing = 0 then
      match s.channels.find? (fun n => n % 2 == 0 && s.chzKhz n + 100 == freq && n + 1 < s.chcount Pg.chz) with
      | some n => [n, n + 1]
      | none => []
    else []

/-- The busy threshold in force, with its ceiling under ETSI (R217). -/
def State.lbtThreshold (s : State) (j : TxJob) : Nat :=
  let t := bits j.lbtcfg 23 16
  let bw := if s.path = 2 then (match s.narrowFor j.freq with | some k => bits (s.reg Pg.phy 0 (0xB20 + 4 * k)) 29 28 | none => 0) else s.spacing
  let top := if mtMode j.mod = 4 ∧ s.path ≠ 2 ∧ s.spacing = 0 then 140 else [134, 128, 140].getD bw 134
  if bit j.lbtcfg 31 then min t top else t

/-! ### Dwell accounting (R219) -/

/-- Air time of a store entry over the window that ends now. -/
def State.dwellUsed (s : State) (store : Nat) : Nat :=
  let from_ : Int := s.nowNs - (bits (s.lreg 0x81C) 23 16 * 1000000000 : Nat)
  (s.lnk.air.map (fun (e, t, n) => if e = store ∧ from_ < t then n else 0)).sum

def State.dwellOn (s : State) : Bool := bit (s.lreg 0x81C) 31
def State.dwellMax (s : State) : Nat := bits (s.lreg 0x81C) 15 0 * 1000000

/-- What a job sends would take its entry above the limit. -/
def State.dwellFull (s : State) (j : TxJob) : Bool := s.dwellOn && s.dwellMax < s.dwellUsed j.store + j.airAll

/-- What a job sends can never fit. -/
def State.dwellNever (s : State) (j : TxJob) : Bool := s.dwellOn && s.dwellMax < j.airAll

/-- Air time is accounted. -/
def State.noteAir (s : State) (store n : Nat) : State :=
  let now : Int := s.nowNs
  s.setLnk (fun l => { l with air := l.air.filter (fun e => now - 255000000000 < e.2.1) ++ [(store, now, n)] })

/-! ### Planning an attempt (R202, R215, R229, R232, R233) -/

/-- The launch, preamble and train of the next attempt; `none` where STRICT refuses it. A decision to send to a context
evaluates its guard (R202). -/
def State.plan (s : State) (j : TxJob) (timed : Option Int) (strict : Bool) : State × Option TxJob :=
  let plain := { j with launch := timed, deadline := timed.isSome, due := none, pre := 0, train := 0, sent := false, listen := .none
                        tuned := false, backoff := none, dwellWait := false, busy := 0 }
  match j.ctx with
  | none => (s, some plain)
  | some c =>
    let lead := j.tuneLead + (if j.lbt then j.listenNs else 0) + s.tLead
    let e : Int := max ((s.nowNs : Int) + lead) (timed.getD 0)
    let (s, t) := if s.nbValid c then s.evalNext c (s.isBeacon c) j.guardcfg e else (s, none)
    if !j.sleepy ∨ !s.nbSleep c then (s, some plain)
    else
      let win := bits (s.nb c 0x110) 15 0 * 1000
      let cover := fun (x : Nat) (launch : Option Int) (fb : Bool) =>
        if s.nbTrain c then { plain with launch, train := (x + j.wakeAir + j.wakeAir - 1) / j.wakeAir, fallback := fb }
        else { plain with launch, pre := preFor j.mod x, fallback := fb }
      match (s.ctxOf c).sync, t with
      | 1, some (p, g) => (s, some (cover (2 * g.toNat + win) (some (p - g)) false))
      | _, _ =>
        if strict then (s, none)
        else (s, some (cover ((s.period c false + tickDen - 1) / tickDen + win) timed true))

/-- The header of a secured frame fits its slot: rank 6 of R221. -/
def State.keyFits (s : State) (c : Nat) (mpdu : List Byte) : Bool :=
  let k := s.nbKey c
  match parse mpdu with
  | some m => m.security && m.level != 4 && s.slotMatches k m && m.len + micLen m.level ≤ mpdu.length
  | none => false

/-- An item fails at issue with INTERNAL, its index recorded (R133, R166, R216). -/
def State.txInternal (s : State) (i : Item) (detail : Option Nat) : State :=
  let s := match detail with
    | some d => s.raise Pg.lnk (initiatorOf (s.wrOwner i.ring)) (Config.errOffset Pg.lnk Err.internal) d Err.internal
    | none => s
  s.finish i.id { status := Sc.internal }

/-- STRICT of an item. -/
def State.strict (s : State) (entry : Nat) : Bool := match s.item entry with | some i => i.uflags.testBit 4 | none => false

/-- The launch time of an item that carries one, in ns. -/
def State.timeOf (s : State) (i : Item) : Option Int := if i.timed then some (s.launchNs i.ns i.secLo) else none

/-- A job enters the schedule with its plan; one that can never fit its dwell limit does not (R219, R221). -/
def State.schedule (s : State) (i : Item) (j : TxJob) : State :=
  match s.plan j (s.timeOf i) (s.strict i.id) with
  | (s, none) => s.finish i.id (j.result Sc.unsync false 0 0)
  | (s, some j) => if s.dwellNever j then s.txInternal i none else s.setLnk (fun l => { l with jobs := l.jobs ++ [j] })

/-- The attempt that a send would make takes longer than its entry may ever be used: rank 5 of R221, before the keys. -/
def State.neverFits (s : State) (i : Item) (j : TxJob) : Bool :=
  s.dwellNever j || (match (s.plan j (s.timeOf i) (s.strict i.id)).2 with | some j => s.dwellNever j | none => false)

/-- Ranks 5 to 7 of R221 for a TX item whose MPDU is `mpdu`. -/
def State.txIssue (s : State) (i : Item) (mpdu : List Byte) : State :=
  let b := i.w 2
  let f := i.uflags
  let noctx := bit b 26
  let c := bits b 9 0
  let useCtx := bit b 27 && !noctx
  let entry := if useCtx then bits (s.nb c 0x10C) 15 12 else bits b 31 28
  let store := if useCtx then bits (s.nb c 0x10C) 8 0 else bits b 24 16
  let mod := s.reg Pg.phy 0 (mtOff entry 0)
  let secure := f.testBit 0
  let ackreq := f.testBit 1
  let lbt := f.testBit 2
  let sleepy := f.testBit 3
  let level := if i.uparam.testBit 7 then some (i.uparam % 128) else none
  let l := psduLen mod mpdu.length
  match s.freqOf store with
  | none => s.txInternal i (some store)
  | some freq =>
    let lat := fun k => i.lat.getD k 0
    let j : TxJob := { item := i.id, wake := false, txcfg := lat 0, ackcfg := lat 1, lbtcfg := lat 2, guardcfg := lat 3
                       ctx := if noctx then none else some c, entry, mod, tx := s.reg Pg.phy 0 (mtOff entry 2), store, freq, level
                       secure, ackreq, lbt, sleepy, mpdu }
    let narrow := s.path == 2
    let seen := if narrow then (s.narrowFor freq).isSome
      else !(s.wideFor freq mod).isEmpty || (s.path == 0 && (s.narrowFor freq).isSome)
    if !bit mod 31 ∨ bits (s.reg Pg.phy 0 (mtOff entry 1)) 10 0 < l then s.txInternal i (some entry)
    else if (lbt ∨ (ackreq ∧ narrow)) ∧ !seen then s.txInternal i (some entry)
    else if s.neverFits i j then s.txInternal i none
    else if (secure ∨ sleepy) ∧ (noctx ∨ !s.nbValid c) then s.finish i.id (j.result Sc.keyAbsent false 0 0)
    else if secure ∧ (!s.slotValid (s.nbKey c) 14 ∨ !s.keyFits c mpdu) then s.finish i.id (j.result Sc.keyAbsent false 0 0)
    else s.schedule i j

/-- An LNK item that has no job yet and may enter the schedule of 64. -/
def State.lnkItem (s : State) (op entry : Nat) : Option Item :=
  match s.item entry with
  | some i =>
    if i.unit = Pg.lnk ∧ i.opcode = op ∧ i.st = .active ∧ i.result = none ∧ (s.job entry).isNone ∧ s.ready Dm.lnk then some i else none
  | none => none

/-- `TX`: the item enters LNK's schedule, or completes at issue (R213 to R221). -/
def execLnkTx (entry : Nat) (flips : List Flip) (s : State) : Host.Outcome State Fault Refusal :=
  let s := s.applyFlips flips
  .next (match s.lnkItem 1 entry with
    | none => s
    | some i =>
      if 64 ≤ s.lnk.jobs.length then s
      else match s.unitRead i.addrA i.length with
        | (s, .waits) => s
        | (s, .refused) => s.finish entry { status := Sc.channelFailed }
        | (s, .ok bs _) => match knownBytes bs with
          | none => s.finish entry { status := Sc.mediaUncorrectable }
          | some m => s.txIssue i m)

/-- `WAKECODE`: the wake signal enters the schedule (R224). -/
def execLnkWakecode (entry : Nat) (s : State) : Host.Outcome State Fault Refusal :=
  .next (match s.lnkItem 3 entry with
    | none => s
    | some i =>
      let freq := bits (i.w 2) 19 0
      let lbt := i.uflags.testBit 2
      let lat := fun k => i.lat.getD k 0
      let store := ((List.range 256).find? (fun e => s.freqOf e == some freq)).getD 0x1FF
      let j : TxJob := { item := i.id, wake := true, txcfg := lat 0, ackcfg := lat 1, lbtcfg := lat 2, guardcfg := lat 3, ctx := none
                         entry := 0, mod := 0, tx := 0, store, freq
                         level := if i.uparam.testBit 7 then some (i.uparam % 128) else none
                         pilot := i.length, code := BitVec.ofNat 16 i.addrA, secure := false, ackreq := false, lbt
                         sleepy := false, mpdu := [] }
      let seen := if s.path = 2 then (s.narrowFor freq).isSome else !(s.wideFor freq 0).isEmpty || (s.narrowFor freq).isSome
      if 64 ≤ s.lnk.jobs.length then s
      else if freq < 750000 ∨ 960000 < freq then s.txInternal i none
      else if lbt ∧ !seen then s.txInternal i (some store)
      else s.schedule i j)

/-! ### The schedule (R215) -/

/-- The frame is on the air. -/
def State.onAirNow (s : State) (k : TxKey) : Bool := s.txa.cur == some k && !s.txaQuiet

/-- The ramp-begin instant of an attempt, where one is set. -/
def State.jobRamp (s : State) (j : TxJob) : Option Int := match j.launch with | some t => some (s.rampAt t) | none => j.due

/-- The instant for which an attempt without one would be prepared now: the longer of TUNE_LEAD and the listen. -/
def State.dueNow (s : State) (j : TxJob) : Int :=
  (s.nowNs : Int) + (max j.tuneLead (if j.lbt then j.listenNs + 5000 else 0) : Nat)

/-- A commit of the context is PEND: items that name it wait before counter assignment (R200). -/
def State.ctxPend (s : State) (c : Nat) : Bool :=
  match s.commitOf Pg.lnk with
  | some m => s.staged.any (fun e => namedBy Pg.lnk m.index m.all e.1 && keyOff e.1 < 0x800 && keyIdx e.1 == c)
  | none => false
def State.jobPend (s : State) (j : TxJob) : Bool := match j.ctx with | some c => j.counter.isNone && s.ctxPend c | none => false

/-- An attempt that is to be made, and that nothing but its turn holds back. -/
def State.waiting (s : State) (j : TxJob) : Bool :=
  j.backoff.isNone && j.ackWait.isNone && !j.dwellWait && !s.onAirNow (.item j.item) && !s.jobPend j

/-- Of two items, the one of the lower ring, then of the lower slot. -/
def State.lowerSlot (s : State) (a b : Nat) : Bool :=
  match s.item a, s.item b with
  | some i, some k => decide (i.ring < k.ring) || (i.ring == k.ring && decide (i.slot < k.slot))
  | _, _ => false

/-- Attempt `k` comes before attempt `j`: it ramps earlier, at the same instant it has the lower slot, and of two that
have no instant yet it was fetched first. -/
def State.before (s : State) (k j : TxJob) : Bool :=
  match s.jobRamp k, s.jobRamp j with
  | some a, some b => decide (a < b) || (a == b && s.lowerSlot k.item j.item)
  | some a, none => decide (a ≤ s.dueNow j)
  | none, some _ => false
  | none, none => (s.flm.ift.takeWhile (fun i => i.id != j.item)).any (fun i => i.id == k.item)

/-- It is the attempt's turn: none that waits comes before it, and none waits for its acknowledgement. -/
def State.turn (s : State) (j : TxJob) : Bool :=
  s.lnk.jobs.all (fun k => k.item == j.item || (k.ackWait.isNone && !(s.waiting k && s.before k j)))

/-- An attempt without an instant gets one as its first preparation begins. -/
def State.withDue (s : State) (j : TxJob) : TxJob :=
  if j.launch.isNone ∧ j.due.isNone then { j with due := some (s.dueNow j) } else j

/-! ### Listen before talk (R216 to R218) -/

/-- The path on which a job listens is there; `none` while it must wait. -/
def State.listenReady (s : State) (j : TxJob) : State × Option Bool :=
  if s.path = 1 then
    match s.wideFor j.freq j.mod with
    | [] => (s, some false)
    | ns =>
      let q := fun n => s.domainOf Pg.chz n
      if ns.any (fun n => !s.domOn (q n) && s.dreq (q n) == 3) then (s, some false)
      else if ns.any (fun n => !s.ready (q n)) then (ns.foldl (fun s n => s.wake (q n)) s, none)
      else if !s.wideOn (ns.headD 0) ∨ ns.any (fun n => (s.chan n).st == .settling || s.recv.unsettled.contains n || s.blanked n) then
        (s, none)
      else (s, some true)
  else if s.path = 2 then
    match s.narrowFor j.freq with
    | none => (s, some false)
    | some k =>
      let s := (s.wake Dm.rfe).wake Dm.syn
      let nb := s.recv.nb
      if !s.radioFree j.launch.isSome then (s, none)
      else
        let s := if nb.entry = k ∧ nb.phase ≠ .stopped ∧ nb.dwell.isNone then s else s.displaceUses.nbGo k 0 .lbt none
        (s, if s.recv.nb.phase = .dwell ∧ s.narrowOn ∧ s.recv.tx.isNone ∧ !s.calBlank then some true else none)
  else (s, some false)

/-- `LBT_LISTEN_START`: the listen of an attempt begins, LISTEN_US and 5 µs before the ramp-begin instant. -/
def execLbtListenStart (entry : Nat) (s : State) : Host.Outcome State Fault Refusal :=
  .next (match s.job entry with
    | none => s
    | some j =>
      let early : Bool := match s.jobRamp j with
        | some t => decide ((s.nowNs : Int) < t - 5000 - j.listenNs)
        | none => decide (j.listenNs + 5000 < j.tuneLead)
      if !j.lbt ∨ j.listen ≠ .none ∨ early ∨ !s.txaQuiet ∨ !s.waiting j ∨ !s.turn j then s
      else match s.listenReady j with
        | (s, none) => s
        | (s, some false) => s.txEnd j Sc.internal
        | (s, some true) => s.updJob entry (fun j => { s.withDue j with listen := .running }))

/-- A backoff of `draw` modulo 2^BE units, with BE after `n` results (R218). -/
def TxJob.backoffNs (j : TxJob) (n draw : Nat) : Nat :=
  let be := min (bits j.txcfg 15 12 + n) (bits j.txcfg 11 8)
  draw % 2 ^ be * (bits j.txcfg 7 0 * 10000)

/-- `LBT_LISTEN_END`: `powers` are the means of the listen's groups, in 0.01 dBm, and `draw` the random draw. TXA gives
back the tune of a frame that does not go now. -/
def execLbtListenEnd (entry : Nat) (powers : List Int) (draw : Nat) (s : State) : Host.Outcome State Fault Refusal :=
  .next (match s.job entry with
    | none => s
    | some j =>
      if j.listen ≠ .running then s
      else if powers.all (fun p => encodePower p < s.lbtThreshold j) then s.updJob entry (fun j => { j with listen := .free })
      else
        let j := { j with busyTotal := j.busyTotal + 1 }
        if bits j.txcfg 19 16 ≤ j.busy + 1 then s.txEnd j Sc.channelBusy
        else
          let t : Int := s.nowNs + j.backoffNs j.busy draw
          let s := s.updJob entry (fun _ => { j with listen := .none, tuned := false, due := none, busy := j.busy + 1, backoff := some t })
          (s.unhand (.item entry)).closeUse .lbt)

/-- An attempt is planned anew (R233). -/
def State.replan (s : State) (j : TxJob) : State :=
  match s.plan j none (s.strict j.item) with
  | (s, none) => s.txEnd j Sc.unsync
  | (s, some k) => if s.dwellNever k then s.txEnd j Sc.internal else s.updJob j.item (fun _ => k)

/-- `BACKOFF_EXPIRE`: the next listen, or, after an attempt, the next attempt, is planned. -/
def execBackoffExpire (entry : Nat) (s : State) : Host.Outcome State Fault Refusal :=
  .next (match s.job entry with
    | none => s
    | some j =>
      match j.backoff with
      | none => s
      | some t =>
        if (s.nowNs : Int) < t then s
        else if j.busy ≠ 0 then s.updJob entry (fun j => { j with backoff := none })
        else s.replan j)

/-- `DWELL_WINDOW_FREE`: the window has freed the air time that a frame waits for (R219). -/
def execDwellWindowFree (entry : Nat) (s : State) : Host.Outcome State Fault Refusal :=
  .next (match s.job entry with
    | none => s
    | some j => if j.dwellWait ∧ !s.dwellFull j then s.updJob entry (fun j => { j with dwellWait := false, due := none }) else s)

/-! ### The frame of an attempt (R203, R214, R229) -/

/-- The next own dwell start at or after an instant, in ns (R225, R229). -/
def State.ownDwell (s : State) (t : Int) : Option Int :=
  match s.lnk.nextSample with
  | none => none
  | some n =>
    let per : Int := s.tim.tickper.toNat
    let at_ := fun (k : Nat) => (s.tim.edgeNs : Int) + ((n : Int) + k * bits (s.lreg 0x828) 15 0 - s.ticks) * per / 65536 + 208000
    let step := bits (s.lreg 0x828) 15 0 * s.tim.tickper.toNat / 65536
    let k := if step = 0 then 0 else ((t - at_ 0 + step - 1) / step).toNat
    some (at_ k)

/-- PHASE and TIME elements are filled for a frame whose SFD ends at `sfd` and which ends at `fin`. -/
def State.fillIes (s : State) (f : List Byte) (sfd fin : Int) : List Byte :=
  if !s.ieEn then f
  else match parse f with
    | none => f
    | some m =>
      let f := match element f m s.oui 2 5, bit (s.lreg 0x80C) 29, s.ownDwell fin with
        | some k, true, some d =>
          put f k (bytesLE 2 (bits (s.lreg 0x828) 15 0) ++ bytesLE 3 (inSteps 227 1000 (d - sfd)).toNat)
        | _, _, _ => f
      match element f m s.oui 3 6 with
      | some k =>
        let t := sfd.toNat
        put f k (bytesLE 6 (t % 1000000000 + t / 1000000000 % 2 ^ 18 * 2 ^ 30))
      | none => f

/-- The launch of an attempt: its own, or, where it has none, that of the ramp-begin instant it is prepared for. -/
def State.launchOf (s : State) (j : TxJob) : Int := j.launch.getD (s.launchFrom (j.due.getD (s.dueNow j)))

/-- The launch of the data frame: after the train where there is one. -/
def TxJob.dataLaunch (j : TxJob) (launch : Int) : Int := launch + (if j.train = 0 then 0 else (j.train * j.wakeAir + j.turnNs : Nat))

/-- The frame as it goes to the antenna when the attempt is launched at an instant, without FCS. -/
def State.buildFrame (s : State) (j : TxJob) (launch : Int) (counter : Option Nat) : List Byte :=
  let t := j.dataLaunch launch
  let f := s.fillIes j.mpdu (t + shrNs j.mod j.preLen) (t + airNs j.mod j.preLen j.len)
  match counter, j.slot, parse f with
  | some n, some k, some m => match s.palKey 14 k with
    | some key => secure key.octets s.ownExt f m n
    | none => f
  | _, _, _ => f

/-! ### Tune requests (R185, R186) -/

/-- TXA or SYN is held OFF by its effective request. -/
def State.txHeldOff (s : State) : Bool :=
  [Dm.txa, Dm.syn].any (fun d => !s.domOn d && s.dreq d == 3)

/-- TXA is free for a frame's tune request. -/
def State.txaFree (s : State) : Bool := s.txa.cur.isNone || !s.txaQuiet

/-- LNK makes the tune request of an attempt: the counter is assigned and the frame built (R203, R204, R229). -/
def State.tuneItem (s : State) (j : TxJob) : State :=
  if s.txHeldOff then s.txEnd j Sc.abortedDomainOff
  else if !s.ready Dm.txa ∨ !s.ready Dm.syn then (s.wake Dm.txa).wake Dm.syn
  else if s.dwellFull j then s.updJob j.item (fun j => { j with dwellWait := true })
  else
    let j := s.withDue j
    let done := fun (s : State) (n : Option Nat) (k : Option Nat) =>
      let j := { j with slot := k, counter := n }
      let f := s.buildFrame j (s.launchOf j) n
      (s.updJob j.item (fun _ => { j with tuned := true, frame := f })).tune (.item j.item) j.freq j.store
    match j.secure, j.ctx with
    | true, some c =>
      let k := s.nbKey c
      if !s.nbValid c ∨ !s.slotValid k 14 then s.txEnd j Sc.keyAbsent
      else if s.engineFree.isNone then s
      else match j.counter with
        | some n => done s (some n) (some k)
        | none => match s.assignCounter c k with
          | (s, none) => s.txEnd j Sc.keyAbsent
          | (s, some n) => done s (some n) (some k)
    | _, _ => done s none none

/-- The tune request of an acknowledgement. -/
def State.tuneAck (s : State) : State :=
  match s.lnk.acks with
  | [] => s
  | a :: rest =>
    if a.tuned then s
    else if s.txHeldOff ∨ !s.ready Dm.txa ∨ !s.ready Dm.syn then s
    else
      let go := fun (s : State) (f : List Byte) =>
        (s.setLnk (fun l => { l with acks := { a with tuned := true, frame := f } :: rest })).tune .ack a.freq a.store
      match a.slot, a.ctx, parse a.mhr with
      | some k, some c, some m =>
        if !s.slotValid k 14 ∨ s.engineFree.isNone then s
        else match s.assignCounter c k, s.palKey 14 k with
          | (s, some n), some key => go s (secure key.octets s.ownExt (a.mhr ++ List.replicate (micLen m.level) 0) m n)
          | (s, _), _ => s
      | _, _, _ => go s a.mhr

/-- `TUNE_REQUEST`: for an item's attempt, TUNE_LEAD before its ramp-begin, or for the acknowledgement due. -/
def execTuneRequest (key : TuneFor) (s : State) : Host.Outcome State Fault Refusal :=
  .next (match key with
    | .ack => if s.txaFree then s.tuneAck else s
    | .item entry => match s.job entry with
      | none => s
      | some j =>
        let early : Bool := match s.jobRamp j with
          | some t => decide ((s.nowNs : Int) < t - j.tuneLead)
          | none => j.lbt && j.listen == .none && decide (j.tuneLead < j.listenNs + 5000)
        if j.tuned ∨ early ∨ !s.waiting j ∨ !s.turn j ∨ !s.txaFree then s
        else s.tuneItem j)

/-! ### Locking (R169, R170) -/

/-- The transmit loop locks: in mode A the store entry is written where it was invalid or has drifted. -/
def State.txLock (s : State) : State :=
  if s.txa.st ≠ .tune ∨ s.txa.waits ∨ !s.domOn Dm.syn then s
  else
    let e := s.txa.entry
    let x := s.storeEntry e
    let s := if s.modeT ∨ 256 ≤ e then s
      else if !x.valid then (if s.freqOf e = some s.txa.freq then s.calibrate e s.txa.freq else s)
      else if s.drifted s.syn.die x.temp then (s.calibrate e s.txa.freq).count Pg.syn 0 0x814 15 0 1
      else s
    let s := { s with syn := { s.syn with txLocked := true }, txa := { s.txa with retried := false } }
    if s.txa.cur.isSome then { s with txa := { s.txa with st := .ready } } else s.toHold

/-- `LOOP_LOCK` of the transmit or the receive loop. -/
def execLoopLock (tx : Bool) (s : State) : Host.Outcome State Fault Refusal := .next (if tx then s.txLock else s.rxLock)

/-- The transmission in hand ends without having been sent, or cut. -/
def State.endCurrent (s : State) (status : Nat) : State :=
  match s.txa.cur with
  | some (.item e) => match s.job e with
    | some j => s.txEnd j status
    | none => s.unhand (.item e)
  | some .ack =>
    let s := s.setLnk (fun l => { l with acks := l.acks.drop 1 })
    ((s.unhand .ack).count Pg.lnk 0 0x850 15 8 1).event Pg.lnk 7
  | none => s

/-- The transmit loop has not locked 100 µs after its tune: an anchor sweep and one retry, then LOCK_FAIL, which a CAL item
in progress reports too (R170, R178). -/
def State.txTimeout (s : State) : State :=
  if s.txa.st ≠ .tune ∨ s.txa.waits then s
  else if !s.txa.retried then
    ({ s with txa := { s.txa with retried := true } }).setField Pg.syn 0 0x810 23 16 s.celsius
  else
    let s := ((s.event Pg.syn 0).count Pg.syn 0 0x814 31 16 1).setSyn (fun y => { y with
      cal := y.cal.map (fun c => { c with loopFailed := true }) })
    let s := { s with txa := { s.txa with st := .idle, retried := false } }
    (s.endCurrent Sc.internal).takeHeld

/-- `LOCK_TIMEOUT`. -/
def execLockTimeout (tx : Bool) (air : List Air) (s : State) : Host.Outcome State Fault Refusal :=
  .next (if tx then s.txTimeout else s.rxTimeout air)

/-! ### Ramps (R108, R161, R184, R185, R187) -/

/-- TXA is ready for its frame: locked on its frequency, no gap in force. -/
def State.txReady (s : State) : Bool := s.txa.st == .ready && s.syn.txLocked && s.syn.gap.isNone && s.txa.cur.isSome

/-- The listen of the frame in hand is over, where it has one. -/
def State.txGo (s : State) : Bool :=
  match s.txa.cur with
  | some (.item e) => match s.job e with | some j => !j.lbt || j.listen == .free | none => false
  | some .ack => true
  | none => false

/-- The ramp-begin instant of the frame in hand, where it has a launch instant. -/
def State.curRamp (s : State) : Option Int :=
  match s.txa.cur with
  | some (.item e) => (s.job e).bind (fun j => j.launch.map s.rampAt)
  | some .ack => s.lnk.acks.head?.map (fun a => s.rampAt a.at_)
  | none => none

/-- The ramp-begin instant for which an untimed frame in hand is prepared. -/
def State.curDue (s : State) : Int :=
  match s.txa.cur with
  | some (.item e) => ((s.job e).bind (·.due)).getD 0
  | _ => 0

/-- A frame in hand has the narrow radio at an instant of its own (R235). -/
def State.curFree (s : State) : Bool := s.txa.cur == some .ack || s.radioFree s.curRamp.isSome

/-- TXA is ready for the frame in hand, whose listen is over and which has the radio. -/
def State.mayGo (s : State) : Bool := s.txReady && s.txGo && s.curFree

/-- The channels that a transmission at a frequency blanks (R108). -/
def State.blankZone (s : State) (freq : Nat) : Nat × Nat :=
  let n := s.chcount Pg.chz
  if s.arrangement ≠ 2 then (0, n - 1)
  else
    let near := s.channels.filter (fun c => s.chzKhz c < freq + 4000 && freq < s.chzKhz c + 4000)
    match near.head?, near.getLast? with
    | some a, some b => (a, b)
    | _, _ => (511, 0)

/-- The frame's blank starts 5 µs before its ramp-begin instant: of one with a launch instant in that very cycle, of an
untimed one in the first cycle in which it may ramp, which makes its ramp-begin instant 5 µs later (R184). -/
def State.blankAt (s : State) : Option Int :=
  if !s.mayGo ∨ s.txa.begins.isSome then none
  else match s.curRamp with
    | some t => if s.atInstant (t - 5000) then some t else none
    | none => if s.curDue - 5000 ≤ (s.nowNs : Int) then some ((s.nowNs : Int) + 5000) else none

/-- `TX_BLANK_START`: the receive blank starts, when TXA is ready then (R108, R184, R185). -/
def execTxBlankStart (air : List Air) (flips : List Flip) (s : State) : Host.Outcome State Fault Refusal :=
  let s := s.applyFlips flips
  .next (match s.blankAt with
    | none => s
    | some t =>
      let (lo, hi) := s.blankZone s.txa.freq
      let s := s.blankStart lo hi air
      let s := if s.path = 2 then s.displaceUses else s
      { s with txa := { s.txa with begins := some t } })

/-- `TX_BLANK_END`: 15 µs after the ramp-down. -/
def execTxBlankEnd (s : State) : Host.Outcome State Fault Refusal :=
  .next (
    let past : Bool := match s.txa.downAt with | some t => decide (t + 15000 ≤ (s.nowNs : Int)) | none => true
    if s.recv.tx.isNone ∨ !s.txaQuiet ∨ s.txa.begins.isSome ∨ !past then s else s.blankEnd.moveOn)

/-- `FEM_LEAD`: LEAD before the ramp-begin instant the FEM state changes, when TXA is ready then (R161, R185). -/
def execFemLead (s : State) : Host.Outcome State Fault Refusal :=
  .next (
    let lead : Int := (s.fieldOf Pg.rfe 0 0x860 7 0 * 1000 : Nat)
    let now : Bool := match s.curRamp, s.txa.begins with
      | some t, _ => s.atInstant (t - lead)
      | none, some b => decide (b - lead ≤ (s.nowNs : Int))
      | none, none => false
    if s.mayGo ∧ now then { s with txa := { s.txa with fem := true, downAt := none } } else s)

/-- `FEM_LAG`: LAG after the ramp-down the FEM state ends (R159, R161). -/
def execFemLag (s : State) : Host.Outcome State Fault Refusal :=
  .next (match s.txa.downAt with
    | some t =>
      if s.txaQuiet ∧ t + (s.fieldOf Pg.rfe 0 0x860 15 8 * 1000 : Nat) ≤ (s.nowNs : Int) then { s with txa := { s.txa with fem := false } } else s
    | none => s)

/-- What a job sends: a train's wake frames with their TTD, which stays 0 where LNK fills no elements, or the frame with
its FCS, or a wake signal (R190, R227 to R229). -/
def State.airOut (s : State) (j : TxJob) : List Burst :=
  if j.wake then [.wake j.pilot j.code]
  else if j.train = 0 then [.frame j.mod j.preLen (withFcs j.mod j.frame)]
  else
    let dst := bits (s.nb (j.ctx.getD 0) 0x108) 15 0
    (List.range j.train).map (fun n =>
      let ttd := ((j.train - n) * j.wakeAir + j.turnNs - shrNs j.mod j.entryPre) / 50000
      .frame j.mod j.entryPre (withFcs j.mod (buildWake s.oui dst (if s.ieEn then ttd else 0))))

/-- The PA level at ramp begin (R183). -/
def State.paLevel (s : State) (l : Option Nat) : Nat :=
  let l := l.getD (s.fieldOf Pg.txa 0 0x804 6 0)
  if bit (s.reg Pg.txa 0 0x800) 0 then min 40 l else l

/-- Words MOD and TX of a table entry. -/
def State.modOf (s : State) (e : Nat) : Word := s.reg Pg.phy 0 (mtOff e 0)
def State.txOf (s : State) (e : Nat) : Word := s.reg Pg.phy 0 (mtOff e 2)

/-- TXA latches the sending entry at launch (R142). A frame whose launch is not the one it was built for, or whose entry
has changed, has its elements filled for this launch, under the same counter (R203, R229; log entry 111). -/
def State.latchJob (s : State) (j : TxJob) : TxJob :=
  if j.wake then j
  else
    let launch := j.launch.getD (s.launchFrom s.nowNs)
    let k := { j with mod := s.modOf j.entry, tx := s.txOf j.entry }
    let key := match j.slot with | some n => (s.palKey 14 n).isSome | none => true
    if (launch = s.launchOf j ∧ k.mod = j.mod ∧ k.tx = j.tx) ∨ !key then k
    else { k with frame := s.buildFrame k launch k.counter }

/-- The decision of an SFD that lies ahead of a ramp begun now, for a frame launched at an instant (R151, R253). -/
def State.sfdAhead (s : State) (mod : Word) (pre : Nat) (launch : Int) : SfdDue :=
  let t := s.tLead + shrNs mod pre - dTx mod
  { cycles := t / 5, corr := dTx mod + t % 5 + (s.rampAt launch - s.nowNs) }

/-- The PA ramp begins, with what goes on the air. -/
def State.rampUp (s : State) (level : Option Nat) (out : List Burst) (sfd : Option SfdDue) : State :=
  { s with txa := { s.txa with st := .rampUp, level := s.paLevel level, ramp := s.fieldOf Pg.txa 0 0x800 5 4, onAir := out
                               begins := none, downAt := none, sfd } }

/-- The ramp of the frame in hand begins. -/
def State.ramp (s : State) : State :=
  match s.txa.cur with
  | some (.item e) => match s.job e with
    | some j =>
      let j := s.latchJob j
      let launch := j.launch.getD (s.launchFrom s.nowNs)
      (s.updJob e (fun _ => j)).rampUp j.level (s.airOut j)
        (if j.wake ∨ j.train ≠ 0 then none else some (s.sfdAhead j.mod j.preLen launch))
    | none => s.rampUp none [] none
  | _ => match s.lnk.acks with
    | a :: rest =>
      let a := { a with mod := s.modOf a.entry, tx := s.txOf a.entry }
      let pre := bits a.tx 31 16
      (s.setLnk (fun l => { l with acks := a :: rest })).rampUp none [.frame a.mod pre (withFcs a.mod a.frame)]
        (some (s.sfdAhead a.mod pre a.at_))
    | [] => s.rampUp none [] none

/-- An item's frame in hand ramps now: at its instant where it has one, else 5 µs after its blank's start (R184, R254). -/
def State.rampNow (s : State) : Bool :=
  s.mayGo && s.txa.cur != some .ack &&
  (match s.curRamp, s.txa.begins with
   | some t, _ => s.atInstant t
   | none, some b => decide (b ≤ (s.nowNs : Int))
   | none, none => false)

/-- `RAMP_BEGIN`. -/
def execRampBegin (s : State) : Host.Outcome State Fault Refusal := .next (if s.rampNow then s.ramp else s)

/-- `RAMP_BEGIN_PASSED`: the ramp-begin instant of an attempt has passed before it could ramp. A timed item's first attempt
is LATE; an attempt without a deadline is planned again, or, where its train has gone, goes as it can (R187, R215, R233;
log entry 111). -/
def execRampBeginPassed (entry : Nat) (s : State) : Host.Outcome State Fault Refusal :=
  .next (match s.job entry with
    | none => s
    | some j =>
      match j.launch with
      | none => s
      | some t =>
        let mine := s.txa.cur = some (.item entry)
        if s.onAirNow (.item entry) ∨ j.ackWait.isSome ∨ j.backoff.isSome ∧ !j.deadline ∨ (s.nowNs : Int) < s.rampAt t ∨ (mine ∧ s.rampNow) then s
        else if j.deadline then
          let s := if mine then (s.event Pg.txa 1).count Pg.txa 0 0x810 15 8 1 else s
          s.txEnd j Sc.late
        else if mine ∧ j.tuned ∧ j.train = 0 ∧ j.sent then
          let now : Int := s.nowNs
          s.updJob entry (fun j => { j with launch := none, due := some now })
        else ((s.unhand (.item entry)).closeUse .lbt).replan j)

/-- `RAMP_UP_DONE`. -/
def execRampUpDone (s : State) : Host.Outcome State Fault Refusal :=
  .next (if s.txa.st = .rampUp then { s with txa := { s.txa with st := .send } } else s)

/-- `LAST_SYMBOL_OUT`: the last symbol reaches the antenna, after the SFD's end, and the ramp-down begins. -/
def execLastSymbolOut (s : State) : Host.Outcome State Fault Refusal :=
  .next (if s.txa.st ≠ .send ∨ (s.txa.sfd.isSome ∧ s.tim.running) then s
    else
      let s := match s.txa.sfd with | some d => s.sfdDecided d | none => s
      let s := { s with txa := { s.txa with st := .rampDown } }
      let now : Int := s.nowNs
      match s.txa.cur with
      | some (.item e) => s.updJob e (fun j => { j with endAt := now })
      | _ => s)

/-- `TX_LOCK_LOST` (R185). -/
def execTxLockLost (s : State) : Host.Outcome State Fault Refusal :=
  .next (
    let s' := { s with syn := { s.syn with txLocked := false } }
    match s.txa.st with
    | .rampUp | .send =>
      let s := ((s'.event Pg.txa 2).count Pg.txa 0 0x810 7 0 1).endCurrent Sc.internal
      { s with txa := { s.txa with st := .rampDown, cur := none, cutFrame := true, sfd := none } }
    | .ready => (({ s' with txa := { s'.txa with st := .idle } }).endCurrent Sc.internal).takeHeld
    | .hold => { s' with txa := { s'.txa with st := .idle } }
    | _ => s)

/-- The attempt's acknowledgement wait starts (R220). -/
def State.waitAck (s : State) (j : TxJob) : State :=
  let d := j.turnNs + shrNs j.mod j.entryPre + bits j.ackcfg 15 0 * 1000
  let s := s.updJob j.item (fun j => { j with ackWait := some (j.endAt + d) })
  match s.path, s.narrowFor j.freq with
  | 2, some k =>
    let s := (s.wake Dm.rfe).wake Dm.syn
    let nb := s.recv.nb
    if (s.lane nbLane).isSome ∨ (nb.entry = k ∧ nb.phase ≠ .stopped ∧ nb.dwell.isNone) then s else s.nbGo k 0 .ack none
  | _, _ => s

/-- A frame of an item has been sent; a train leaves the data frame, TURN_US after its last bit. -/
def State.itemSent (s : State) (j : TxJob) : State :=
  if j.train ≠ 0 then
    let t := j.endAt + (j.turnNs : Nat)
    let s := s.noteAir j.store (j.train * j.wakeAir)
    let s := s.updJob j.item (fun j => { j with train := 0, launch := some t, sent := true })
    { s with txa := { s.txa with st := .ready, cur := some (.item j.item) } }
  else
    let st := s.txa.stamp
    let s := s.noteAir j.store j.air
    let j := { j with attempts := j.attempts + 1, tuned := false, sent := false, listen := .none
                      stamp := if j.wake then none else some (st % 1000000000, st / 1000000000) }
    let s := s.updJob j.item (fun _ => j)
    if j.ackreq then s.waitAck j else s.txEnd j (if j.cancel then Sc.abortedSw else j.good)

/-- What TXA returns for the frame that has ramped down (R185, R209). -/
def State.frameSent (s : State) (cur : Option TxKey) : State :=
  let s := (s.event Pg.txa 0).count Pg.txa 0 0x810 31 16 1
  match cur with
  | some (.item e) => match s.job e with | some j => s.itemSent j | none => s
  | some .ack =>
    let s := match s.lnk.acks.head? with
      | some a => s.noteAir a.store (airNs a.mod (bits a.tx 31 16) (psduLen a.mod a.frame.length))
      | none => s
    (s.setLnk (fun l => { l with acks := l.acks.drop 1 })).count Pg.lnk 0 0x850 31 16 1
  | none => s

/-- `RAMP_DOWN_DONE`: the frame is sent, or was cut, and TXA enters HOLD and takes up what it holds (R185). -/
def execRampDownDone (s : State) : Host.Outcome State Fault Refusal :=
  .next (if s.txa.st ≠ .rampDown then s
    else
      let now : Int := s.nowNs
      let cur := s.txa.cur
      let cut := s.txa.cutFrame
      let s := { s with txa := { s.txa with st := .hold, cur := none, cutFrame := false, onAir := [], downAt := some now, holdAt := now } }
      let s := if cut then s else s.frameSent cur
      if s.txa.cur.isSome then s else s.toHold)

/-- `HOLD_EXPIRE`: HOLD_US after the entry to HOLD the loop is powered down. -/
def execHoldExpire (s : State) : Host.Outcome State Fault Refusal :=
  .next (if s.txa.st = .hold ∧ s.txa.holdAt + (s.fieldOf Pg.txa 0 0x808 15 0 * 1000 : Nat) ≤ (s.nowNs : Int) then
    { s with txa := { s.txa with st := .idle }, syn := { s.syn with txLocked := false } } else s)

/-! ### Ends of acknowledgement waits (R220) -/

/-- A frame whose SFD was accepted within the wait is still coming in, or waits to be checked. -/
def State.ackComing (s : State) (j : TxJob) (t : Int) : Bool :=
  let hit := fun (l : Lane) => l.frame && decide (j.endAt ≤ ((l.sec * 1000000000 + l.ns : Nat) : Int)) &&
    decide (((l.sec * 1000000000 + l.ns : Nat) : Int) ≤ t) && mtMode l.mod == mtMode j.mod
  s.anyLane hit || s.recv.queue.any (fun f => hit f.lane)

/-- `ACK_WAIT_END`: `draw` is the random draw of the retry's backoff. -/
def execAckWaitEnd (entry draw : Nat) (s : State) : Host.Outcome State Fault Refusal :=
  .next (match s.job entry with
    | none => s
    | some j =>
      match j.ackWait with
      | none => s
      | some t =>
        if (s.nowNs : Int) < t ∨ s.ackComing j t then s
        else
          let s := s.closeUse .ack
          let j := { j with ackWait := none }
          if j.cancel then s.txEnd j Sc.abortedSw
          else if bits j.txcfg 23 20 ≤ j.attempts - 1 then s.txEnd j Sc.noAck
          else
            let b : Int := s.nowNs + j.backoffNs 0 draw
            s.updJob entry (fun _ => { j with launch := none, due := none, backoff := some b, busy := 0 }))

/-- Completions from outside record what the item had done, and the schedule drops it (R221, R239). -/
def State.jobsAborted (s : State) (p : Nat → Bool) (status : Nat) : State :=
  (s.lnk.jobs.filter (fun j => p j.item)).foldl (fun s j => s.txEnd j status) s

/-- TXA or SYN leaves, or is reset: it ramps down at once (R185). -/
def State.txaStops (s : State) : State :=
  { s with txa := { s.txa with st := .idle, cur := none, held := [], fem := false, waits := false, onAir := [], cutFrame := false
                               retried := false, begins := none, sfd := none, downAt := none }
           syn := { s.syn with txLocked := false }
           lnk := { s.lnk with acks := s.lnk.acks.filter (fun a => !a.tuned) } }

/-- TXA_STAT. -/
def State.txaRead (s : State) (off : Nat) : Option Word :=
  if off = 0x80C then
    let st := match s.txa.st with | .idle => 0 | .tune => 1 | .ready => 2 | .rampUp => 3 | .send => 4 | .rampDown => 5 | .hold => 6
    some (word (st * 0x20000000 + s.txa.entry))
  else none

end Sys2Proof.Machine
end

