-- ==== Sys2Proof/Machine/LinkRx.lean ====
section
/-! DEFINITION. The receive side of the link controller: receive security, acknowledgements, receive windows,
own sampling, data and beacon windows, and the grant of calibration gaps (R205 to R211, R220 to R226, R230,
R234 to R236). -/

namespace Sys2Proof.Machine

open Mac

/-! ### The check order (R206) -/

/-- A destination is the part's: its own address (`true`), or the broadcast short address (`false`). A frame
that carries no destination PAN ID names the own PAN. -/
def State.addressed (s : State) (m : Mhr) : Option Bool :=
  let pan := match m.dpan with | some p => p == s.ownPan || p == 0xFFFF | none => true
  match m.dst with
  | none => none
  | some a =>
    if !pan then none
    else if a.length = 8 then (if a = s.ownExt then some true else none)
    else
      let n := natOfBytesLE a
      if n = 0xFFFF then some false else if n = s.ownShort then some true else none

/-- The key slot of a secured frame (check 3): the context's own where it matches, else the first that does. -/
def State.rxSlot (s : State) (c : Nat) (m : Mhr) : Option Nat :=
  let own := s.nbKey c
  let fits := fun k => s.slotValid k 15 && s.slotMatches k m
  if m.kidMode = 0 then (if s.slotValid own 15 then some own else none)
  else if fits own then some own
  else match (List.range 64).find? fits with
    | some k => if s.slotGroup k then some k else none
    | none => none

/-- Lowest level accepted from a context. -/
def State.minLevel (s : State) (c : Nat) : Nat := bits (s.nb c 0x10C) 18 16

/-- The counter of a frame is not above the last accepted one (check 5). -/
def State.replayed (s : State) (c counter : Nat) : Bool :=
  counter == 0xFFFFFFFF || ((s.ctxOf c).fcrxSet && counter ≤ (s.nb c 0x118).toNat)

/-- The first of checks 1 to 5 that applies: its status and CAUSE. -/
def State.headerCheck (s : State) (c : Option Nat) (m : Mhr) : Option (Nat × Nat) :=
  if m.security ∧ (m.level = 4 ∨ m.noCounter ∨ m.asn) then some (Sc.authFail, 6)
  else match c with
    | none => if m.security then some (Sc.keyAbsent, 1) else none
    | some c =>
      if m.security ∧ (s.rxSlot c m).isNone then some (Sc.keyAbsent, 2)
      else if m.level < s.minLevel c then some (Sc.authFail, 3)
      else if m.security ∧ s.replayed c m.counter then some (Sc.replay, 4)
      else none

/-- A duplicate of the last accepted frame (R210). -/
def State.duplicate (s : State) (c : Nat) (m : Mhr) : Bool :=
  let x := s.ctxOf c
  m.security && m.counter == (s.nb c 0x118).toNat && x.seqValid && m.seq == some x.seq

/-- Check 6: the frame decrypted under its slot's key, with the source's extended address in the nonce. -/
def State.openFrame (s : State) (c : Nat) (m : Mhr) (f : List Byte) : List Byte × Bool :=
  match (s.rxSlot c m).bind (s.palKey 15) with
  | some key =>
    let ext := match m.src with | some a => if a.length = 8 then a else s.nbExt c | none => s.nbExt c
    unsecure key.octets ext f m
  | none => (f, false)

/-! ### Failures and posting (R208) -/

/-- The frame at the head of the queue leaves it and is posted; those behind it that LNK does not take follow. -/
def State.postHead (s : State) (f : RxFrame) : State :=
  let rest := s.recv.queue.drop 1
  (({ s with recv := { s.recv with queue := [] } }).postFrame f).flushFrames rest

/-- A receive window that waits for a context ends with a frame accepted from it (R223). -/
def State.winSees (s : State) (f : RxFrame) (accepted : Option Nat) : State :=
  let slot := match f.lane.slots with | some (p, _) => p % s.hrSize f.lane.hring | none => 0
  let hit := fun (w : RxWin) => w.ctx.isSome && w.ctx == accepted
  let done := s.lnk.wins.filter hit
  let s := s.setLnk (fun l => { l with wins := l.wins.filter (fun w => !hit w) })
  let s := if s.lnk.wins.isEmpty then s.closeUse .rxwin else s
  done.foldl (fun s w => s.finish w.item { status := Sc.done, time := some (f.lane.ns, f.lane.sec)
                                           rep6 := word (f.lane.hring * 0x10000000 + slot) }) s

/-- A frame fails a check: SEC_FAIL, LNK_SECERR and the context's count; it is posted with the status. -/
def State.secFailed (s : State) (f : RxFrame) (c : Option Nat) (status cause : Nat) : State :=
  let slot := match f.lane.slots with | some (p, _) => p % s.hrSize f.lane.hring | none => 0
  let s := s.setLnk (fun l => { l with secerr := word (cause * 0x10000000 + c.getD 0 * 0x10000 + f.lane.hring * 0x1000 + slot) })
  let s := s.event Pg.lnk 6
  match c with
  | none => s
  | some c =>
    if status = Sc.replay then s.count Pg.lnk c 0x130 31 24 1
    else if status = Sc.authFail then s.count Pg.lnk c 0x130 23 16 1 else s

/-! ### Acceptance (R207, R230, R234) -/

/-- The receive stamp of a frame in ns. -/
def Lane.stampNs (l : Lane) : Nat := l.sec * 1000000000 + l.ns

/-- Beacon tracking takes an accepted beacon. -/
def State.bcnAccept (s : State) (f : RxFrame) (m : Mhr) (mpdu : List Byte) : State :=
  let c := s.bcnCtx
  let s := s.anchorAt c true f.lane.stampNs
  let s := match (if s.ieEn then element mpdu m s.oui 3 6 else none) with
    | some k =>
      let v := le mpdu k 6
      let b : BeaconTime := { ns := v % 2 ^ 30, secLo := v / 2 ^ 30 % 2 ^ 18, rxSec := f.lane.sec, rxNs := f.lane.ns, slewAt := f.lane.slewAt }
      { s with tim := { s.tim with beacons := s.tim.beacons ++ [b] } }
    | none => s
  match s.lnk.bcn with
  | .track =>
    match s.lnk.bcnEnd with
    | none => s
    | some _ =>
      ((s.setLnk (fun l => { l with miss := 0, hits := satInc 16 l.hits })).bcnArm).closeUse .beacon
  | .lost =>
    let s := (s.event Pg.lnk 1).lnkEvent 2 c (word s.lnk.passes)
    ((s.setLnk (fun l => { l with miss := 0 })).bcnArm).closeUse .search
  | _ => s

/-- A frame that passes all checks updates its context. -/
def State.accept (s : State) (f : RxFrame) (c : Nat) (m : Mhr) (mpdu : List Byte) : State :=
  let x := s.ctxOf c
  let s := if m.security then s.setReg Pg.lnk c 0x118 (word m.counter) else s
  let s := s.setCtx c { x with fcrxSet := x.fcrxSet || m.security, seqValid := m.seq.isSome, seq := m.seq.getD x.seq
                               lqi := f.lqi, rssi := f.lane.rssi, ageFrom := s.lnk.minutes }
  let s := if s.isBeacon c ∧ m.typ = 0 then s.bcnAccept f m mpdu else s
  if s.nbSleep c ∧ s.ieEn ∧ !s.isBeacon c then
    match element mpdu m s.oui 2 5 with
    | some k => s.anchorAt c false (f.lane.stampNs + le mpdu (k + 2) 3 * 1000)
    | none => s
  else s

/-! ### Acknowledgements due (R209, R210) -/

/-- An Imm-Ack. -/
def immAck (seq : Nat) (pending : Bool) : List Byte := bytesLE 2 (2 + pending.toNat * 16) ++ bytesLE 1 seq

/-- The header of an Enh-Ack for a frame; its destination is the frame's source, without a PAN ID. -/
def enhAck (m : Mhr) (pending : Bool) : List Byte :=
  let src := m.src.getD []
  let mode := match src.length with | 2 => 2 | 8 => 3 | _ => 0
  let fc := 2 + m.security.toNat * 8 + pending.toNat * 16 + (mode != 0).toNat * 64 + m.seq.isNone.toNat * 256 + mode * 1024 + 0x2000
  let seq := match m.seq with | some n => bytesLE 1 n | none => []
  let aux := if m.security then
      bytesLE 1 (m.level + m.kidMode * 8) ++ bytesLE 4 0 ++ m.keySrc ++ (if m.kidMode = 0 then [] else bytesLE 1 m.keyIdx)
    else []
  bytesLE 2 fc ++ seq ++ src ++ aux

/-- The frequency on which a lane received, in kHz. -/
def State.laneKhz (s : State) (l : Lane) : Nat :=
  if l.no = nbLane then bits (s.reg Pg.phy 0 (0xB20 + 4 * l.chan)) 19 0
  else s.chzKhz l.chan + (if l.pair then 100 else 0)

/-- The time from a frame's stamp to its last bit at the antenna, in ns. -/
def Lane.bodyNs (l : Lane) : Nat :=
  let mod := setBit l.mod 3 l.coded
  airNs mod 8 l.data.length - shrNs mod 8

/-- The acknowledgement of a frame becomes due, where R209 asks for one. -/
def State.ackDue (s : State) (f : RxFrame) (c : Option Nat) (m : Mhr) : State :=
  if !bit (s.lreg 0x80C) 30 ∨ !m.ar ∨ s.addressed m ≠ some true then s
  else
    let freq := s.laneKhz f.lane
    let pend := match c with | some c => (s.ctxOf c).pending | none => false
    let store := ((List.range 256).find? (fun e => s.freqOf e == some freq)).getD 0x1FF
    let enh := m.version == 2
    let at_ : Int := f.lane.stampNs + f.lane.bodyNs + bits (s.lreg 0x814) 31 16 * 1000
    let a : AckDue :=
      { at_, freq, store, entry := f.lane.entry, mod := f.lane.mod, tx := s.reg Pg.phy 0 (mtOff f.lane.entry 2), ctx := c
        mhr := if enh then enhAck m pend else immAck (m.seq.getD 0) pend, level := if enh then m.level else 0
        slot := if enh && m.security then c.bind (fun c => s.rxSlot c m) else none }
    s.setLnk (fun l => { l with acks := l.acks ++ [a] })

/-! ### Wake frames (R226) -/

/-- The slots of a frame that is not posted are free again: PROD stays, so that the next reservation takes them. -/
def State.returnSlots (s : State) : State :=
  let rest := s.recv.queue.drop 1
  ({ s with recv := { s.recv with queue := [] } }).flushFrames rest

/-- A wake frame of the narrow path: a data window is planned, or the sample ends. -/
def State.wakeHeard (s : State) (f : RxFrame) (m : Mhr) (ttd : Nat) : State :=
  let dst := natOfBytesLE (m.dst.getD [])
  let s := s.returnSlots
  if dst = s.ownShort ∨ dst = 0xFFFF then
    let t : Int := (f.lane.stampNs + ttd * 50000 : Nat) - (100000 : Int)
    s.setLnk (fun l => { l with dataAt := some (f.lane.chan, t) })
  else if s.recv.nb.use = .sample ∧ (s.lane nbLane).isNone ∧ s.recv.nb.phase ≠ .stopped then s.nbHalt.radioRests
  else s

/-! ### The security stage (R206 to R208) -/

/-- The attempt whose acknowledgement the frame is: sent before it, in its mode, waiting still. -/
def State.ackFor (s : State) (f : RxFrame) (m : Mhr) : Option TxJob :=
  let t : Int := f.lane.stampNs
  s.lnk.jobs.find? (fun j =>
    (match j.ackWait with | some e => decide (j.endAt ≤ t) && decide (t ≤ e) | none => false) &&
    m.typ == 2 && mtMode f.lane.mod == mtMode j.mod && s.laneKhz f.lane == j.freq &&
    (match parse j.mpdu with | some d => d.seq == m.seq | none => false) &&
    (m.version ≤ 1 || s.addressed m == some true))

/-- A frame reads and checks as R206 says; `must` is the context that an Enh-Ack is checked against. The
answer is the state after check 6 and the verdict: what fails, or the plaintext; nothing while it must wait. -/
def State.secured (s : State) (f : RxFrame) (c : Option Nat) (m : Mhr) : Option (State × (Nat × Nat) ⊕ List Byte) :=
  let body := f.mpdu
  match s.headerCheck c m with
  | some e => some (.inl (s, e))
  | none =>
    match m.security, c, f.lane.slots with
    | true, some c, some (p, _) =>
      if s.engineFree.isNone then none
      else
        let (out, ok) := s.openFrame c m body
        match s.ringStatus f.lane.hring p 0 out.length with
        | .ready =>
          let s := (s.ringPlace f.lane.hring p 0 out).1
          if ok then some (.inr out) else some (.inl (s, (Sc.authFail, 5)))
        | _ => none
    | _, _, _ => some (.inr body)

/-- The plaintext of a frame that passed stands in its slots. -/
def State.placePlain (s : State) (f : RxFrame) (out : List Byte) : State :=
  match f.lane.slots with
  | some (p, _) => if out = f.mpdu then s else (s.ringPlace f.lane.hring p 0 out).1
  | none => s

/-- The memory that a frame waits for is asked to wake. -/
def State.secWaits (s : State) (f : RxFrame) : State :=
  match f.lane.slots with
  | some (p, _) => match s.ringStatus f.lane.hring p 0 f.mpdu.length with
    | .stall d => s.wake d
    | _ => s
  | none => s

/-- The frame is processed under the receive check order against context `c`. -/
def State.rxProcess (s : State) (f : RxFrame) (c : Option Nat) (m : Mhr) : State :=
  match s.secured f c m with
  | none => s.secWaits f
  | some (.inl (s, (status, cause))) =>
    let s := s.secFailed f c status cause
    let dup := match c with | some c => status == Sc.replay && s.duplicate c m | none => false
    let s := if dup then s.ackDue f c m else s
    (s.winSees f none).postHead { f with status }
  | some (.inr out) =>
    let s := s.placePlain f out
    let s := match c with | some c => s.accept f c m out | none => s
    ((s.ackDue f c m).winSees f c).postHead f

/-- `LNK_RX_SECURITY`: the frame at the head of the queue passes through LNK and is posted. The frame that an
attempt waits for is left to `ACK_RECEIVE`. -/
def execLnkRxSecurity (flips : List Flip) (s : State) : Host.Outcome State Fault Refusal :=
  let s := s.applyFlips flips
  .next (match s.recv.queue with
    | [] => s
    | f :: _ =>
      if !s.ready Dm.lnk then s.wake Dm.lnk
      else match parse f.mpdu with
        | none => (s.winSees f none).postHead f
        | some m =>
          let wake := if s.ieEn && f.lane.no == nbLane then wakeFrame f.mpdu m s.oui else none
          match wake with
          | some ttd => s.wakeHeard f m ttd
          | none =>
            if (s.ackFor f m).isSome then s
            else if !bit (s.lreg 0x80C) 31 ∨ !m.known ∨ (s.addressed m).isNone then (s.winSees f none).postHead f
            else s.rxProcess f (s.ctxOfSource m) m)

/-- `ACK_RECEIVE`: the awaited acknowledgement is at the head of the queue: an Enh-Ack is checked against the
item's context, and the attempt completes (R220 to R222). -/
def execAckReceive (flips : List Flip) (s : State) : Host.Outcome State Fault Refusal :=
  let s := s.applyFlips flips
  .next (match s.recv.queue with
    | [] => s
    | f :: _ =>
      if !s.ready Dm.lnk then s.wake Dm.lnk
      else match parse f.mpdu with
        | none => s
        | some m => match s.ackFor f m with
          | none => s
          | some j =>
            let fp := (le f.mpdu 0 2).testBit 4
            let done := fun (s : State) => s.txEnd { j with ackWait := none } (if j.cancel then Sc.abortedSw else j.good) fp f.lqi f.lane.rssi
            if m.version ≤ 1 then done ((s.winSees f none).postHead f)
            else match s.secured f j.ctx m with
              | none => s.secWaits f
              | some (.inl (s, (status, cause))) =>
                ((s.secFailed f j.ctx status cause).winSees f none).postHead { f with status }
              | some (.inr out) =>
                let s := s.placePlain f out
                let s := match j.ctx with | some c => s.accept f c m out | none => s
                done ((s.winSees f j.ctx).postHead f))

/-! ### The acknowledgement's instant (R211) -/

/-- The end of an acknowledgement's ramp-down. -/
def State.ackOver (s : State) (a : AckDue) : Int :=
  a.at_ + (airNs a.mod (bits a.tx 31 16) (psduLen a.mod a.frame.length) : Nat) + ((s.tLead - 4000 : Nat) : Int)

/-- The acknowledgement would end in the lead of a scheduled frame. -/
def State.ackLate (s : State) (a : AckDue) : Bool :=
  s.lnk.jobs.any (fun j => j.ackWait.isNone && (match s.jobRamp j with
    | some t => decide (t - j.tuneLead < s.ackOver a)
    | none => false))

/-- The acknowledgement at the head is not sent. -/
def State.ackSkip (s : State) : State :=
  let s := s.setLnk (fun l => { l with acks := l.acks.drop 1 })
  ((s.unhand .ack).count Pg.lnk 0 0x850 15 8 1).event Pg.lnk 7

/-- `ACK_INSTANT`: the ramp-begin instant of the acknowledgement due. It ramps in that very cycle, or is not sent. -/
def execAckInstant (s : State) : Host.Outcome State Fault Refusal :=
  .next (match s.lnk.acks with
    | [] => s
    | a :: _ =>
      if (s.nowNs : Int) < s.rampAt a.at_ ∨ s.onAirNow .ack then s
      else if s.txa.cur = some .ack ∧ s.txReady ∧ !s.ackLate a ∧ s.atInstant (s.rampAt a.at_) then s.ramp
      else s.ackSkip)

/-- A timer of LNK in AON fires: PWR has asserted REF_EN ahead of it (R460), and records the source where it is in
force (R194, R463). -/
def State.lnkTimer (s : State) : State :=
  let s := if s.clk.refEn.isSome then s
    else { s with clk := { s.clk with refEn := some (s.ticks - (s.fieldOf Pg.pwr 0 0x81C 7 0 + 1)) } }
  if bit (s.reg Pg.pwr 0 0x808) 8 then
    (s.setReg Pg.pwr 0 0x80C (s.reg Pg.pwr 0 0x80C ||| 0x100)).event Pg.pwr 8
  else s

/-! ### RXWIN (R223) -/

/-- A window opens at its launch time, or at once; where the radio is taken, late. A window of no length is done at once
(R223). Its timer wakes LNK (R194). -/
def State.rxwinOpens (s : State) (entry : Nat) : State :=
  match s.item entry with
  | none => s
  | some i =>
    let start : Int := if i.timed then s.launchNs i.ns i.secLo else s.nowNs
    let stop : Int := start + (i.length * 1000 : Nat)
    let ctx := if i.uflags.testBit 0 then some (bits (i.w 2) 25 16) else none
    let go := fun (s : State) => s.setLnk (fun l => { l with wins := l.wins ++ [{ item := entry, endAt := stop, ctx }] })
    if i.unit ≠ Pg.lnk ∨ i.opcode ≠ 2 ∨ i.st ≠ .active ∨ i.result.isSome ∨ s.lnk.wins.any (fun w => w.item == entry) then s
    else if i.length = 0 then s.finish entry { status := Sc.doneZero }
    else if i.timed ∧ !i.launched then s
    else if !s.ready Dm.lnk then s.lnkTimer.wake Dm.lnk
    else if i.timed ∧ stop ≤ (s.nowNs : Int) then s.finish entry { status := Sc.late }
    else if s.path ≠ 2 then go s
    else match s.nbFrom 0 (fun k => (s.winMask i).testBit k) with
      | none => go s
      | some k => if s.displaced 7 k stop then s else (go s.lnkTimer).listenOn k (s.winMask i) .rxwin (s.winDwell i)

/-- `RXWIN`. -/
def execLnkRxwin (entry : Nat) (s : State) : Host.Outcome State Fault Refusal := .next (s.rxwinOpens entry)

/-- `RXWIN_WINDOW_END`. -/
def execRxwinWindowEnd (entry : Nat) (s : State) : Host.Outcome State Fault Refusal :=
  .next (match s.lnk.wins.find? (fun w => w.item == entry) with
    | none => s
    | some w =>
      if (s.nowNs : Int) < w.endAt then s
      else
        let s := s.setLnk (fun l => { l with wins := l.wins.filter (fun x => x.item != entry) })
        let r : Result := match w.ctx with
          | some _ => { status := Sc.noAck }
          | none => { status := Sc.done, wb := min 32767 w.count }
        let s := s.finish entry r
        if s.lnk.wins.isEmpty then s.closeUse .rxwin else s)

/-! ### Own sampling, data windows, frame-pending listening (R222, R225, R226) -/

/-- An own sample is skipped. -/
def State.sampleSkip (s : State) : State := s.count Pg.lnk 0 0x850 7 0 1

/-- `SAMPLE_START`: the tick of the next own sample has come. -/
def execSampleStart (s : State) : Host.Outcome State Fault Refusal :=
  .next (match s.lnk.nextSample with
    | none => s
    | some n =>
      if s.ticks < n then s
      else
        let sl := s.lreg 0x828
        let mask := bits sl 27 24
        let s := s.setLnk (fun l => { l with nextSample := some (n + bits sl 15 0) })
        let k := s.nbFrom 0 (fun k => mask.testBit k)
        let count := ((List.range 4).filter (fun k => s.nbListed k && mask.testBit k)).length
        let till : Int := (s.nowNs + 208000 + count * (bits (s.lreg 0x82C) 31 16 * 1000) : Nat)
        if s.fieldOf Pg.phy 0 0xB10 1 0 ≠ 2 ∨ s.path ≠ 2 then s.sampleSkip
        else match k with
          | none => s
          | some k =>
            if s.displaced 8 4 till ∨ s.recv.nb.phase ≠ .stopped then s.sampleSkip
            else ((s.lnkTimer.wake Dm.rfe).wake Dm.syn).nbGo k mask .sample (some (bits (s.lreg 0x82C) 31 16)))

/-- `DATA_WINDOW_OPEN`: 100 µs before the announced instant. -/
def execDataWindowOpen (s : State) : Host.Outcome State Fault Refusal :=
  .next (match s.lnk.dataAt with
    | none => s
    | some (k, t) =>
      if s.lnk.dataEnd.isSome ∨ (s.nowNs : Int) < t then s
      else
        let stop : Int := t + (bits (s.lreg 0x82C) 15 8 * 1000000 : Nat)
        if s.displaced 5 k stop then s.setLnk (fun l => { l with dataAt := none })
        else (s.lnkTimer.setLnk (fun l => { l with dataEnd := some stop })).listenOn k 0 .data none)

/-- `DATA_WINDOW_END`. -/
def execDataWindowEnd (s : State) : Host.Outcome State Fault Refusal :=
  .next (match s.lnk.dataEnd with
    | none => s
    | some e =>
      if (s.nowNs : Int) < e then s
      else (s.setLnk (fun l => { l with dataAt := none, dataEnd := none })).closeUse .data)

/-- `FP_LISTEN_END`: FP_MS after the acknowledgement with frame pending. -/
def execFpListenEnd (s : State) : Host.Outcome State Fault Refusal :=
  .next (match s.lnk.fpEnd with
    | none => s
    | some (_, e) =>
      if (s.nowNs : Int) < e then s
      else (s.setLnk (fun l => { l with fpEnd := none })).closeUse .fp)

/-! ### Beacon windows and search (R234) -/

/-- The preamble and SFD time of the beacon source's entry. -/
def State.bcnShr (s : State) : Nat :=
  let e := bits (s.nb s.bcnCtx 0x10C) 15 12
  shrNs (s.reg Pg.phy 0 (mtOff e 0)) (bits (s.reg Pg.phy 0 (mtOff e 2)) 31 16)

/-- `BEACON_WINDOW_OPEN`: at P − G of the armed target. -/
def execBeaconWindowOpen (s : State) : Host.Outcome State Fault Refusal :=
  .next (match s.lnk.bcn, s.lnk.bcnEnd, (s.ctxOf s.bcnCtx).anchor with
    | .track, none, some a =>
      let c := s.bcnCtx
      let cfg := s.lreg 0x820
      let p := s.lnk.bcnAt
      let g := s.guardNs c cfg (p - a)
      if (s.nowNs : Int) < p - g then s
      else
        let s := s.evalGuard c cfg g
        let stop := p + g + (s.bcnShr : Nat)
        let k := bits (s.lreg 0x830) 29 28
        if (bits cfg 15 0 * 10000 : Nat) < g then s.bcnLose
        else if (if s.bcnWide then s.calBlank else s.displaced 6 k stop) then s.bcnArm
        else
          let s := s.lnkTimer.setLnk (fun l => { l with bcnEnd := some stop, bcnShut := false })
          if s.bcnWide then s else s.listenOn k 0 .beacon none
    | _, _, _ => s)

/-- A frame that may be the beacon is still coming in, or waits to be checked. -/
def State.bcnComing (s : State) (e : Int) : Bool :=
  let hit := fun (l : Lane) => l.frame && decide ((l.stampNs : Int) ≤ e)
  s.anyLane hit || s.recv.queue.any (fun f => hit f.lane)

/-- `BEACON_WINDOW_CLOSE`: the window closes without a beacon. One that was displaced while it was open counts no miss. -/
def execBeaconWindowClose (s : State) : Host.Outcome State Fault Refusal :=
  .next (match s.lnk.bcn, s.lnk.bcnEnd with
    | .track, some e =>
      if (s.nowNs : Int) < e ∨ s.bcnComing e then s
      else
        let shut := s.lnk.bcnShut
        let s := (s.setLnk (fun l => { l with bcnEnd := none, miss := if shut then l.miss else l.miss + 1 })).closeUse .beacon
        if s.lnk.miss < 3 then s.bcnArm else s.bcnLose
    | _, _ => s)

/-- `SEARCH_PASS_END`: one dwell on each enabled entry has ended, or one interval on the wideband path. A pass that another
use cut short starts over. -/
def execSearchPassEnd (s : State) : Host.Outcome State Fault Refusal :=
  .next (
    let narrow := !s.bcnWide && s.path == 2
    if s.lnk.bcn ≠ .lost ∨ (narrow ∧ (s.recv.nb.phase ≠ .stopped ∨ (s.lane nbLane).isSome)) then s
    else if narrow ∧ !s.lnk.passDone then s.bcnPass
    else
      let n := s.lnk.passes + 1
      let limit := bits (s.lreg 0x834) 15 0
      let s := s.setLnk (fun l => { l with passes := n, passDone := false })
      if limit ≠ 0 ∧ limit ≤ n then
        (((s.event Pg.lnk 2).lnkEvent 3 s.bcnCtx (word n)).closeUse .search).setLnk (fun l => { l with bcn := .failed })
      else s.bcnPass)

/-! ### Calibration gaps (R236) -/

/-- A scheduled use falls within the 1.1 ms from now. -/
def State.useWithin (s : State) : Bool :=
  let e : Int := (s.nowNs + 1100000 : Nat)
  s.lnk.acks.any (fun a => decide (a.at_ ≤ e)) ||
  s.lnk.jobs.any (fun j => j.ackWait.isNone && (match j.launch with | some t => decide (t - j.tuneLead ≤ e) | none => false)) ||
  s.lnk.bcnEnd.isSome ||
  (match s.lnk.bcn, (s.ctxOf s.bcnCtx).anchor with
    | .track, some a =>
      let p := s.lnk.bcnAt
      decide (p - s.guardNs s.bcnCtx (s.lreg 0x820) (p - a) ≤ e)
    | _, _ => false) ||
  (match s.lnk.dataAt with | some (_, t) => decide (t ≤ e) | none => false) ||
  !s.lnk.wins.isEmpty ||
  s.flm.ift.any (fun i => i.unit == Pg.lnk && i.opcode == 2 && i.st == .active && i.result.isNone &&
    (!i.timed || decide (s.launchNs i.ns i.secLo ≤ e))) ||
  (s.recv.nb.use == .sample && s.recv.nb.phase != .stopped) ||
  (match s.lnk.nextSample with
    | some n => decide ((s.tim.edgeNs : Int) + ((n : Int) - s.ticks) * s.tim.tickper.toNat / 65536 ≤ e)
    | none => false)

/-- `GAP_GRANT`: LNK grants a requested gap that has waited `waited` ms. -/
def execGapGrant (waited : Nat) (s : State) : Host.Outcome State Fault Refusal :=
  .next (
    let cfg := s.lreg 0x83C
    let quiet := (s.txa.st == .idle || s.txa.st == .hold) && !s.useWithin
    let still := !s.anyLane (·.frame) || decide (bits cfg 31 16 ≤ waited)
    if !s.gapReq ∨ !s.ready Dm.lnk then s
    else if (quiet && still) ∨ (bits cfg 15 0 ≤ waited ∧ s.recv.tx.isNone) then { s with syn := { s.syn with granted := true } }
    else s)

/-! ### KEY_ERASE (R357) -/

/-- No frame under LNK's slot `k` stands in the security stage, or between counter assignment and completion. -/
def State.slotQuiet (s : State) (k : Nat) : Bool :=
  !s.lnk.jobs.any (fun j => j.slot == some k && j.counter.isSome) && !s.lnk.acks.any (fun a => a.slot == some k && a.tuned) &&
  !s.recv.queue.any (fun f => f.toLnk && (parse f.mpdu).any (fun m => m.security && (s.ctxOfSource m).bind (fun c => s.rxSlot c m) == some k))

/-- `KEY_ERASE`: on LNK's pages it waits while a frame under the slot is in work. -/
def execKeyErase (entry : Nat) (flips : List Flip) (s : State) : Host.Outcome State Fault Refusal :=
  .next ((s.applyFlips flips).keyItem 13 entry (fun s i b =>
    let h := pbHandle b
    if !lnkPage i.palPage then (s.loseKey i.palPage h).secDone i 0
    else if s.slotQuiet h then ((s.loseKey 14 h).loseKey 15 h).secDone i 0
    else s.setPal (fun q => { q with erases := q.erases ++ [(h, i.id)] })))

/-- Whether the KEY_ERASE item of a waiting erasure (its slot and its item) is still ACTIVE and unended (R357). -/
def State.eraseLive (s : State) (e : Nat × Nat) : Bool :=
  match s.item e.2 with
  | some i => i.unit == Pg.pal && i.opcode == 13 && i.st == .active && i.result.isNone
  | none => false

/-- `KEY_ERASE_EFFECT`: the waiting erase of an LNK slot takes effect, where its item has not ended otherwise (R357). -/
def execKeyEraseEffect (slot : Nat) (s : State) : Host.Outcome State Fault Refusal :=
  .next (match s.pal.erases.find? (fun e => e.1 == slot && s.eraseLive e) with
    | none => s
    | some e =>
      if !s.slotQuiet slot then s
      else
        let s := ((s.loseKey 14 slot).loseKey 15 slot).setPal (fun q => { q with erases := q.erases.filter (fun x => x.1 != slot) })
        s.finish e.2 { status := Sc.done })

end Sys2Proof.Machine
end

