-- ==== Sys2Proof/Machine/Millrace.lean ====
section
/-! DEFINITION. Millrace: producers, capture windows, the steps of an input, counters and stamps (R484 to R494). -/

namespace Sys2Proof.Machine

def State.setMrc (s : State) (f : Mrc → Mrc) : State := { s with mrc := f s.mrc }
def State.mrcIn (s : State) (c : Nat) : MrcInput := Sparse.get {} s.mrc.inputs c
def State.setMrcIn (s : State) (c : Nat) (x : MrcInput) : State :=
  s.setMrc (fun m => { m with inputs := Sparse.set {} m.inputs c x })

/-! ### Producers (R484) -/

/-- A level producer is asserted. -/
def State.levelOf (s : State) (p : Nat) : Bool :=
  match p with
  | 10 => s.rtc.alm
  | 12 => bit (s.reg Pg.wrx 0 0x818) 0
  | 13 => bit (s.reg Pg.wrx 0 0x818) 1
  | 14 => s.tag.field
  | 39 => s.eth.link
  | 44 | 45 | 46 | 47 => bit (s.reg Pg.mrc 0 0xA04) (p - 44)
  | _ => false

/-- The level producers. -/
def levelProducers : List Nat := [10, 12, 13, 14, 39, 44, 45, 46, 47]

/-- The producers that a value of MRC_IN selects on its enabled slots (R488). -/
def slotsOf (v : Word) : List Nat :=
  (if bit v 31 then [bits v 30 24] else []) ++ (if bit v 23 then [bits v 22 16] else [])

/-! ### Consumers (R485) -/

/-- The domain that the task of an input needs. -/
def mrcDomain (c : Nat) : Nat :=
  if (1 ≤ c && c ≤ 4) || (24 ≤ c && c ≤ 29) then Dm.per else Dm.aon

/-- The task is busy. -/
def State.mrcBusy (s : State) (c : Nat) : Bool :=
  if 1 ≤ c && c ≤ 4 then (s.mrcIn c).unread
  else if 8 ≤ c && c ≤ 15 then bit (s.reg Pg.mrc 0 0x010) (c - 8)
  else if 24 ≤ c && c ≤ 27 then (s.mrcIn c).acted
  else if c == 28 || c == 29 then (s.serial (0x38 + (c - 28))).bus
  else false

/-- OVERRUN of an input sets (R487, R489). -/
def State.mrcOverrun (s : State) (c : Nat) : State :=
  (s.setMrcIn c { s.mrcIn c with overrun := true }).event Pg.mrc 8

def cntVal (n : Nat) : Nat := 0xA20 + 8 * n
def cntCmp (n : Nat) : Nat := 0xA24 + 8 * n

/-- Counter `n` increments, and fires its match where it is left at or above CMP (R488). -/
def State.cntInc (s : State) (n : Nat) : State :=
  let v := min (2 ^ 32 - 1) ((s.reg Pg.mrc 0 (cntVal n)).toNat + 1)
  let cmp := (s.reg Pg.mrc 0 (cntCmp n)).toNat
  let s := s.setReg Pg.mrc 0 (cntVal n) (word v)
  if cmp ≠ 0 ∧ cmp ≤ v then s.pulse (40 + n) else s

/-- A STAMP capture of TIM (R491). -/
def State.capture (s : State) (n : Nat) (late : Bool) : State :=
  let s := s.setReg Pg.mrc 0 (0xA60 + 8 * n) (word (late.toNat * 0x80000000 + s.tim.ns % 2 ^ 30))
  let s := s.setReg Pg.mrc 0 (0xA64 + 8 * n) (word s.tim.sec)
  s.setMrcIn (1 + n) { s.mrcIn (1 + n) with unread := true }

/-- The action of an input's task; `late` where the trigger comes from the latch. -/
def State.mrcTask (s : State) (c : Nat) (late : Bool) : State :=
  if c = 0 then s.setMrc (fun m => { m with wakeLatch := true })
  else if c ≤ 4 then s.capture (c - 1) late
  else if c < 8 then s
  else if c ≤ 15 then s.event Pg.mrc (c - 8)
  else if c ≤ 23 then
    let p := c - 16
    if bits (s.padOf p) 2 0 = 3 then
      s.withPins (fun s => s.setMrc (fun m => { m with toggles := Sparse.set false m.toggles p (!Sparse.get false m.toggles p) }))
    else s
  else if c ≤ 27 then (s.setMrcIn c { s.mrcIn c with acted := true }).pwmStart (c - 24)
  else if c ≤ 29 then s.dliTrigger (c - 28)
  else if c < 32 then s
  else if c ≤ 35 then s.cntInc (c - 32)
  else if c ≤ 39 then (s.setReg Pg.mrc 0 (cntVal (c - 36)) 0).setMrc (fun m => { m with cleared := (c - 36) :: m.cleared })
  else s

/-! ### The steps of an input (R489, R490, R492) -/

/-- A counter action is discarded for an earlier one of the same window. -/
def State.mrcLoses (s : State) (c : Nat) : Bool :=
  (32 ≤ c && c ≤ 39) && (Sparse.get false s.mrc.written ((c - 32) % 4) || (c < 36 && s.mrc.cleared.contains (c - 32)))

/-- Steps 3 to 5 for a trigger. -/
def State.mrcTrigger (s : State) (c : Nat) : State :=
  let d := mrcDomain c
  let x := s.dom d
  let i := s.mrcIn c
  if x.phase = .idleCommit ∨ x.phase = .save ∨ x.phase = .switch then s
  else if !s.domOn d then
    if i.latched then s.mrcOverrun c
    else (s.setMrcIn c { i with latched := true, last := some s.ticks }).wake d
  else if s.mrcBusy c ∨ s.mrcLoses c then s.mrcOverrun c
  else
    (s.setMrcIn c { i with fired := true, last := some s.ticks }).mrcTask c false

/-- The interval of an input's limiter has not passed. -/
def State.mrcLimits (s : State) (c minTicks : Nat) : Bool :=
  match (s.mrcIn c).last with
  | some t => s.ticks < t + minTicks
  | none => false

/-- All steps of an input: `v` is the value of MRC_IN in force, `fires` says which producers give an arrival. -/
def State.mrcStep (s : State) (c : Nat) (v : Word) (fires : Nat → Bool) : State :=
  let arrivals : List Nat := (slotsOf v).eraseDups.filter fires
  if arrivals.isEmpty then s
  else
    let s := if 1 < arrivals.length then s.setMrcIn c { s.mrcIn c with coalesced := true } else s
    let i := s.mrcIn c
    if s.mrcLimits c (bits v 14 0) then
      if !bit v 15 then s.setMrcIn c { i with limited := true }
      else if i.deferred then s.mrcOverrun c
      else s.setMrcIn c { i with limited := true, deferred := true }
    else s.mrcTrigger c

/-- The order of the inputs of a window: counters are cleared before they increment (R492). -/
def inputOrder : List Nat := List.range 32 ++ [36, 37, 38, 39] ++ [32, 33, 34, 35] ++ (List.range 8).map (40 + ·)

/-- `MRC_CAPTURE_WINDOW`: what has fired since the last window is judged in this one. -/
def execMrcCaptureWindow (s : State) : Host.Outcome State Fault Refusal :=
  .next (
    let pulses := s.mrc.pulses
    let old := s.mrc.levels
    let now := levelProducers.map (fun p => (p, s.levelOf p))
    let rises := fun p => !Sparse.get false old p && s.levelOf p && levelProducers.contains p
    let fires := fun p => pulses.contains p || rises p
    let was := s.mrc.was
    let ran := s.mrc.inputs
    let regs := fun c => (Sparse.get none was c).getD (s.reg Pg.mrc 0 (0x800 + 4 * c))
    let s := s.setMrc (fun m => { m with pulses := [], was := [], cleared := []
                                         levels := now.foldl (fun l e => Sparse.set false l e.1 e.2) [] })
    let s := inputOrder.foldl (fun s c => s.mrcStep c (regs c) fires) s
    let s := (List.range 4).foldl (fun s n => if (Sparse.get {} ran (24 + n)).acted then s.setMrcIn (24 + n) { s.mrcIn (24 + n) with acted := false } else s) s
    s.setMrc (fun m => { m with written := [] }))

/-- `DEFERRED_TRIGGER`: at the tick edge that ends the interval the deferred trigger goes on at step 3. -/
def execDeferredTrigger (input : Nat) (s : State) : Host.Outcome State Fault Refusal :=
  .next (
    let i := s.mrcIn input
    if 48 ≤ input ∨ !i.deferred ∨ s.mrcLimits input (bits (s.reg Pg.mrc 0 (0x800 + 4 * input)) 14 0) then s
    else (s.setMrcIn input { i with deferred := false, last := some s.ticks }).mrcTrigger input)

/-- `LATCHED_TRIGGER_ACT`: the domain is ON and the latched trigger acts. -/
def execLatchedTriggerAct (input : Nat) (s : State) : Host.Outcome State Fault Refusal :=
  .next (
    let i := s.mrcIn input
    if 48 ≤ input ∨ !i.latched ∨ !s.domOn (mrcDomain input) then s
    else (s.setMrcIn input { i with latched := false, fired := true }).mrcTask input true)

/-! ### Registers (R487, R488) -/

/-- A write of MRC_SWPULSE. -/
def State.swPulses (s : State) (v : Word) : State :=
  (List.range 8).foldl (fun s k => if bit v k then s.pulse (48 + k) else s) s

/-- A write of MRC_IN: it acts from the next window, and a producer above 95 leaves it unchanged. -/
def State.mrcInWrite (s : State) (ini : Initiator) (off : Nat) (v : Word) : State :=
  let c := (off - 0x800) / 4
  if s.locked Pg.mrc then s.lockedErr ini Pg.mrc off
  else if 96 ≤ bits v 30 24 ∨ 96 ≤ bits v 22 16 then s.raise Pg.mrc ini off 0 Err.range
  else
    let w := (Sparse.get none s.mrc.was c).getD (s.reg Pg.mrc 0 off)
    (s.setMrc (fun m => { m with was := Sparse.set none m.was c (some w) })).setReg Pg.mrc 0 off v

/-- A write of MRC_INSTAT. -/
def State.instatWrite (s : State) (c : Nat) (v : Word) : State :=
  let i := s.mrcIn c
  s.setMrcIn c { i with latched := i.latched && !bit v 30, limited := i.limited && !bit v 3
                        coalesced := i.coalesced && !bit v 2, overrun := i.overrun && !bit v 1, fired := i.fired && !bit v 0 }

/-- A write of MRC_CNTn_VAL. -/
def State.cntWrite (s : State) (n : Nat) (v : Word) : State :=
  (s.setReg Pg.mrc 0 (cntVal n) v).setMrc (fun m => { m with written := Sparse.set false m.written n true })

/-- Writes with an effect of their own; `none` for the others. -/
def State.mrcWrite (s : State) (ini : Initiator) (off : Nat) (v : Word) : Option State :=
  if 0x800 ≤ off ∧ off < 0x8C0 then some (s.mrcInWrite ini off v)
  else if 0x900 ≤ off ∧ off < 0x9C0 then some (s.instatWrite ((off - 0x900) / 4) v)
  else if off = 0xA00 then some (s.swPulses v)
  else if off = 0xA18 then some (if bit v 0 then s.setMrc (fun m => { m with wakeLatch := false }) else s)
  else if 0xA20 ≤ off ∧ off < 0xA40 ∧ off % 8 = 0 then some (s.cntWrite ((off - 0xA20) / 8) v)
  else none

/-- MRC_INSTAT. -/
def State.instat (s : State) (c : Nat) : Word :=
  let i := s.mrcIn c
  word ((s.mrcBusy c).toNat * 2 ^ 31 + i.latched.toNat * 2 ^ 30 + i.deferred.toNat * 2 ^ 29 + i.limited.toNat * 8 +
    i.coalesced.toNat * 4 + i.overrun.toNat * 2 + i.fired.toNat)

/-- The read of MRC_STAMPn_NS ends the busy condition (R491). -/
def State.stampRead (s : State) (n : Nat) : Word × State :=
  (s.reg Pg.mrc 0 (0xA60 + 8 * n), s.setMrcIn (1 + n) { s.mrcIn (1 + n) with unread := false })

/-- Reads with an answer of their own. -/
def State.mrcRead (s : State) (off : Nat) : Option (Word × State) :=
  let ovr := fun base => (List.range 32).foldl (fun w k => setBit w k (s.mrcIn (base + k)).overrun) 0
  if 0x900 ≤ off ∧ off < 0x9C0 then some (s.instat ((off - 0x900) / 4), s)
  else if off = 0xA10 then some (ovr 0, s)
  else if off = 0xA14 then some (ovr 32, s)
  else if off = 0xA18 then some (word s.mrc.wakeLatch.toNat, s)
  else if 0xA60 ≤ off ∧ off < 0xA80 ∧ off % 8 = 0 then some (s.stampRead ((off - 0xA60) / 8))
  else none

/-- `SW_PULSE`, `SW_LEVEL`, `STAMP_READ` and `CNT_WRITE`: accesses to the page. -/
def execSwPulse (ini : Initiator) (value : Word) (s : State) : Host.Outcome State Fault Refusal :=
  .next (s.pageWrite ini Pg.mrc 0xA00 value (fun s => s.swPulses value))
def execSwLevel (ini : Initiator) (value : Word) (s : State) : Host.Outcome State Fault Refusal :=
  .next (s.pageWrite ini Pg.mrc 0xA04 value (fun s => s.plainWrite ini Pg.mrc 0 0xA04 value))
def execStampRead (ini : Initiator) (stamp : Nat) (s : State) : Host.Outcome State Fault Refusal :=
  .next (s.pageRead ini Pg.mrc (0xA60 + 8 * (stamp % 4)) (fun s => s.stampRead (stamp % 4)))
def execCntWrite (ini : Initiator) (counter : Nat) (value : Word) (s : State) : Host.Outcome State Fault Refusal :=
  .next (s.pageWrite ini Pg.mrc (cntVal (counter % 4)) value (fun s => s.cntWrite (counter % 4) value))

/-! ### The wake output and resets (R486, R494) -/

/-- The output of PWR_WAKE: LATCH, or a level producer selected on its slots that is asserted. -/
def State.mrcWake (s : State) : Bool :=
  s.mrc.wakeLatch || (slotsOf (s.reg Pg.mrc 0 0x800)).any s.levelOf

/-- What a reset of the block leaves beside its registers. -/
def State.mrcReset (s : State) : State := s.setMrc (fun m => { levels := m.levels, toggles := m.toggles })

end Sys2Proof.Machine
end

