-- ==== Sys2Proof/Machine/Nand.lean ====
section
/-! DEFINITION. The NAND storage manager: medium, map and write buffer, its work items, wear, failure and patrol
(R397 to R416). -/

namespace Sys2Proof.Machine

def State.setNmc (s : State) (f : Nand → Nand) : State := { s with nmc := f s.nmc }
def State.nmcReg (s : State) (off : Nat) : Word := s.reg Pg.nmc 0 off

/-! ### Geometry (R398, R400, R402) -/

def State.tgCfg (s : State) (t : Nat) : Word := s.reg Pg.nmc t 0x100
def State.tgPresent (s : State) (t : Nat) : Bool := t < 4 && bit (s.tgCfg t) 31
def State.tgBlocks (s : State) (t : Nat) : Nat := bits (s.reg Pg.nmc t 0x104) 18 0

/-- Logical pages in a physical page, and pages in a block, from NMC_TG_CFG. -/
def tgSlots (cfg : Word) : Nat := 2 ^ bits cfg 29 28
def tgPpb (cfg : Word) : Nat := 64 * 2 ^ bits cfg 25 24

/-- Bits that a codeword corrects, and its parity octets, by ECC. -/
def eccBits (e : Nat) : Nat := match e with | 0 => 24 | 1 => 40 | 2 => 60 | _ => 72
def eccParity (e : Nat) : Nat := match e with | 0 => 42 | 1 => 70 | 2 => 105 | _ => 126

/-- Spare octets that a page needs. -/
def spareNeed (cfg : Word) (e : Nat) : Nat := 2 + 4 * tgSlots cfg * eccParity e + 8 * tgSlots cfg

def blkNo (t b : Nat) : Nat := t * 2 ^ 18 + b
def State.blk (s : State) (k : Nat) : NandBlk := Sparse.get {} s.nmc.blks k
def State.setBlk (s : State) (k : Nat) (x : NandBlk) : State := s.setNmc (fun n => { n with blks := Sparse.set {} n.blks k x })
def NandBlk.bad (x : NandBlk) : Bool := x.factory || x.grown

/-- Erases of a block since delivery. -/
def State.eraseCount (s : State) (k : Nat) : Nat := Sparse.get 0 s.nmc.base (k / 2 ^ 18) + (s.blk k).erases

/-- The listed blocks of a target that satisfy `p`. -/
def State.countBlks (s : State) (t : Nat) (p : NandBlk → Bool) : Nat :=
  (s.nmc.blks.filter (fun e => e.1 / 2 ^ 18 == t && e.1 % 2 ^ 18 < s.tgBlocks t && p e.2)).length

/-- GOOD: of an unidentified target, every block. -/
def State.tgGood (s : State) (t : Nat) : Nat := s.tgBlocks t - s.countBlks t NandBlk.bad

/-- Erased blocks in the free pool of a target: 16 blocks are the system area. -/
def State.tgFree (s : State) (t : Nat) : Nat := s.tgGood t - 16 - s.countBlks t (fun b => !b.bad && b.used != 0)

/-- Logical pages on a block. -/
def State.validOn (s : State) (t b : Nat) : List (Nat × NandPage) := s.nmc.pages.filter (fun e => e.2.target == t && e.2.block == b)

/-- The map's octets for a number of logical pages and blocks. -/
def mapOctets (lpages blocks : Nat) : Nat := (4 * lpages + 8 * blocks + 4095) / 4096 * 4096

/-- NMC_MAPSIZE, and where the map starts on the fabric. -/
def State.mapSize (s : State) : Nat :=
  mapOctets (s.nmcReg 0x81C).toNat (((List.range 4).map (fun t => if s.tgPresent t then s.tgBlocks t else 0)).sum)
def State.mapAddr (s : State) : Nat := 0x80000000 + (s.nmcReg 0x818).toNat

/-! ### Agreement (R401) -/

/-- The first rule that fails, with the target or 0x10. -/
def State.nmcAgree (s : State) (c : Nat → Nat → Bool) : Mismatch :=
  let cfg := fun t => s.stagedReg Pg.nmc t 0x100
  let blocks := fun t => bits (s.stagedReg Pg.nmc t 0x104) 18 0
  let g := fun o => s.stagedReg Pg.nmc 0 o
  let on := (List.range 4).filter (fun t => bit (cfg t) 31)
  let ecc := bits (g 0x800) 1 0
  let good := fun t => blocks t - s.countBlks t NandBlk.bad
  let cap := (on.map (fun t => (good t - 16 - bits (g 0x820) 15 0) * tgPpb (cfg t) * tgSlots (cfg t))).sum
  let msize := mapOctets (g 0x81C).toNat (on.map blocks).sum
  let mbase := (g 0x818).toNat
  let wb := (g 0x824).toNat
  let slots := bits (g 0x828) 7 0
  let psize := (on.map (fun t => 4096 * tgSlots (cfg t))).foldl max 4096
  let wbEnd := wb + slots * psize
  match on.find? (fun t => bits (cfg t) 11 0 < spareNeed (cfg t) ecc || blocks t == 0) with
  | some t => some (t, 0x100)
  | none =>
    if bits (g 0x804) 15 8 < bits (g 0x804) 7 0 ∨ eccBits ecc < bits (g 0x804) 15 8 then some (0x10, 0x804)
    else if s.dramCfg.mapSize < mbase + msize ∨ (0x80000000 + mbase < wbEnd ∧ wb < 0x80000000 + mbase + msize) then some (0x10, 0x818)
    else if !((0x10000000 ≤ wb && wbEnd ≤ 0x10200000) || inWindow wb (slots * psize)) then some (0x10, 0x824)
    else if slots < 2 * on.length then some (0x10, 0x828)
    else if cap < (g 0x81C).toNat then some (0x10, 0x81C)
    else if s.nmc.st ≠ .unmounted ∧ (s.staged.any (fun e => onPage Pg.nmc e.1 && c (keyIdx e.1) (keyOff e.1) &&
        [0x100, 0x104, 0x800, 0x81C, 0x818, 0x824].contains (keyOff e.1))) then some (0x10, 0x830)
    else if bit (g 0x838) 31 ∧ !s.trEn (bits (g 0x838) 29 24) then some (0x10, 0x838)
    else none

/-- The switch point: the first cycle with no target operation running. -/
def State.nmcSwitch (s : State) (c : Commit) : State := if s.nmc.ops.isEmpty then s.switchCommit c else s

/-! ### Reports (R416) -/

def State.nmcReport (s : State) (event t status w6 w7 : Nat) : State :=
  let ev := s.nmcReg 0x838
  if bit ev 31 then
    s.report { unit := Pg.nmc, tail := bits ev 29 24, status, tag := word (event * 0x1000000 + t % 4)
               ns := s.tim.ns, sec := s.tim.sec % 2 ^ 18, rep6 := word w6, rep7 := word w7 }
  else s

/-! ### The pool (R410, R414) -/

/-- Blocks of a target that are erased and good. -/
def State.nandErased (s : State) (t b : Nat) : Bool := b < s.tgBlocks t && !(s.blk (blkNo t b)).bad && (s.blk (blkNo t b)).used == 0

/-- The free block with the lowest erase count; `choice` where it is one of several. -/
def State.takeBlock (s : State) (t choice : Nat) : Option Nat :=
  if s.tgFree t = 0 then none
  else
    let least := fun b => s.nandErased t b && (List.range (s.tgBlocks t)).all (fun a => !s.nandErased t a || s.eraseCount (blkNo t b) ≤ s.eraseCount (blkNo t a))
    if least choice then some choice else (List.range (s.tgBlocks t)).find? least

/-- SPARE_LOW (R414). -/
def State.checkSpare (s : State) (t : Nat) : State :=
  let resv := bits (s.nmcReg 0x820) 15 0
  let held := resv - s.countBlks t (·.grown)
  let isLow := 4 * (s.tgFree t - held) < resv
  if isLow ∧ !Sparse.get false s.nmc.low t then
    ((s.setNmc (fun n => { n with low := Sparse.set false n.low t true })).event Pg.nmc 4).nmcReport 6 t Sc.doneWarn (s.tgFree t) resv
  else if !isLow then s.setNmc (fun n => { n with low := Sparse.set false n.low t false })
  else s

/-- The store becomes READONLY. -/
def State.goReadonly (s : State) (t : Nat) : State :=
  if s.nmc.st = .mounted then
    ((s.setNmc (fun n => { n with st := .readonly })).event Pg.nmc 5).nmcReport 7 t Sc.mediaUncorrectable (s.tgFree t) 0
  else s

/-- The open block of a target, or one from the pool. -/
def State.openBlock (s : State) (t choice : Nat) : State × Option Nat :=
  match Sparse.get 0 s.nmc.opened t with
  | b + 1 => (s, some b)
  | 0 =>
    match s.takeBlock t choice with
    | some b => ((s.setNmc (fun n => { n with opened := Sparse.set 0 n.opened t (b + 1) })).checkSpare t, some b)
    | none => (s.goReadonly t, none)

/-! ### Items (R406 to R409) -/

def Item.lpn (i : Item) : Nat := if i.opcode = 1 then i.addrA else i.addrB
def Item.lpnCount (i : Item) : Nat := i.length / 4096

/-- An item that touches logical pages, and its range. -/
def Item.touches (i j : Item) : Bool :=
  i.opcode ≤ 3 && j.opcode ≤ 3 && i.lpn < j.lpn + j.lpnCount && j.lpn < i.lpn + i.lpnCount

/-- A PROGRAM that has copied data. -/
def State.nandJob (s : State) (entry : Nat) : Option NandJob := s.nmc.jobs.find? (fun j => j.item == entry)

/-- A PROGRAM all of whose data is in the write buffer or beyond. -/
def State.nandCopied (s : State) (i : Item) : Bool :=
  match s.nandJob i.id with
  | some j => i.lpnCount ≤ j.copied
  | none => false

/-- An NMC item that may run: NMC is ready, and earlier items of the same pages have run or copied (R407). -/
def State.nmcItem (s : State) (op entry : Nat) : Option Item :=
  match s.item entry with
  | some i =>
    if i.unit = Pg.nmc ∧ i.opcode = op ∧ i.st = .active ∧ i.result = none ∧ (i.timed → i.launched) ∧ s.ready Dm.nmc ∧
        !s.nandCopied i ∧
        (s.flm.ift.takeWhile (fun j => j.id != entry)).all (fun j =>
          j.unit != Pg.nmc || !i.touches j || j.result.isSome || j.st == .retiring || s.nandCopied j) then some i
    else none
  | none => none

/-- How an item went. -/
structure NandRep where
  bits : Nat := 0
  retired : Nat := 0
  first : Nat := 0xFFFFFFFF
  cause : Nat := 0

def State.nandEnd (s : State) (i : Item) (status actual : Nat) (r : NandRep) : State :=
  s.finish i.id { status, actual, wb := min 127 r.retired * 256 + min 255 r.bits, rep6 := word r.first, rep7 := word r.cause }

/-- A breach of rank 5. -/
def State.nandBad (s : State) (i : Item) : Bool :=
  (i.length % 4096 != 0 || (s.nmcReg 0x81C).toNat < i.lpn + i.lpnCount ||
    (i.opcode == 1 && i.addrB % 8 != 0) || (i.opcode == 2 && i.addrA % 8 != 0)) ||
  s.nmc.st == .unmounted

/-- The map in DRAM is reached: `none` where it waits. A refusal unmounts the store once the item has ended (R415). -/
def State.withMap (s : State) (i : Item) (k : State → State) : State :=
  match s.rangeStatus s.mapAddr s.mapSize with
  | .ready => k s
  | .stall d => s.wake d
  | _ => (s.nandEnd i Sc.channelFailed 0 {}).setNmc (fun n => { n with st := .unmounted })

/-- The map's entry of a page of the item lies in a rank under migration (R408). -/
def State.mapMigrates (s : State) (i : Item) : Bool :=
  (List.range i.lpnCount).any (fun k => s.rkState (s.dramCfg.locate (s.mapAddr + 4 * (i.lpn + k) - 0x80000000)).1 == Rk.migrating)

/-- The map takes a change that no work item of its own brings: it waits for the DRAM, and a refusal unmounts the store
once what `lost` says has ended (R415). -/
def State.withMapFor (s : State) (k lost : State → State) : State :=
  match s.rangeStatus s.mapAddr s.mapSize with
  | .ready => k s
  | .stall d => s.wake d
  | _ => (lost s).setNmc (fun n => { n with st := .unmounted })

/-- A map entry changes in DRAM; no rule gives its form. -/
def State.mapEntry (s : State) (lpn : Nat) : State :=
  let (v, s) := s.fresh
  (s.putOctets (s.mapAddr + 4 * lpn) (bytesOfWord v)).1

/-- A block is scheduled for relocation. -/
def State.nandSchedule (s : State) (k : Nat) (c : RelocCause) : State :=
  if s.nmc.sched.any (fun e => e.1 == k) then s
  else s.setNmc (fun n => { n with sched := n.sched ++ [(k, c)] })

/-- A page read of a block finds corrected bits (R411). -/
def State.noteRead (s : State) (k most : Nat) : State :=
  let x := s.blk k
  let s := s.setBlk k { x with reads := x.reads + 1 }
  let thr := s.nmcReg 0x804
  let young := s.ticks < x.at_ + bits thr 31 24 * 3600 * 32768
  let s := if bits thr 15 8 ≤ most then s.nandSchedule k (if young then .worn most else .bits most) else s
  if bits (s.nmcReg 0x810) 23 0 ≤ x.reads + 1 then s.nandSchedule k .reads else s

/-- The newest content of a page that waits or is being programmed. -/
def State.buffered (s : State) (lpn : Nat) : Option WbPage :=
  ((s.nmc.ops.flatMap (·.pages)) ++ s.nmc.wb.map (·.2)).foldl (fun a p =>
    if p.lpn == lpn && p.live && (match a with | some q => decide (q.seq ≤ p.seq) | none => true) then some p else a) none

/-- A page becomes poisoned, and its block is refreshed (R409). -/
def State.poisonPage (s : State) (lpn : Nat) (g : NandPage) : State :=
  let s := s.setNmc (fun n => { n with pages := Sparse.insert n.pages lpn { g with poisoned := true } })
  let s := (s.event Pg.nmc 3).nmcReport 4 g.target Sc.mediaUncorrectable lpn g.block
  s.nandSchedule (blkNo g.target g.block) (.bits 0xFF)

/-- A READ so far: octets, the most bits, the first page that failed and why, and the ECC results left. -/
structure NandScan where
  out : List Byte := []
  most : Nat := 0
  corr : Bool := false
  fail : Option (Nat × Nat) := none
  ecc : List NandEcc
  deriving DecidableEq, Repr

/-- A logical page is read. -/
def State.readLpn (s : State) (w : NandScan) (lpn : Nat) : State × NandScan :=
  match s.buffered lpn with
  | some p => (s, { w with out := w.out ++ p.data })
  | none =>
    match s.nmc.pages.find? (fun e => e.1 == lpn) with
    | none => (s, { w with out := w.out ++ List.replicate 4096 0xFF })
    | some (_, g) =>
      let k := blkNo g.target g.block
      let fail := fun c => match w.fail with | some f => some f | none => some (lpn, c)
      match w.ecc.headD (.corrected 0) with
      | .corrected n =>
        let s := s.noteRead k n
        let w := { w with ecc := w.ecc.tail, out := w.out ++ g.data, most := max w.most n, corr := w.corr || bits (s.nmcReg 0x804) 7 0 ≤ n }
        (s, if g.poisoned then { w with fail := fail 2 } else w)
      | .lost octets =>
        let s := (s.noteRead k 0).poisonPage lpn g
        (s, { w with ecc := w.ecc.tail, out := w.out ++ padTo 4096 octets, fail := fail (if g.poisoned then 2 else 1) })

/-- `READ`. -/
def execNandRead (entry : Nat) (ecc : List NandEcc) (s : State) : Host.Outcome State Fault Refusal :=
  .next (match s.nmcItem 1 entry with
    | none => s
    | some i =>
      if s.nandBad i then s.nandEnd i Sc.internal 0 {}
      else s.withMap i (fun s =>
        match s.rangeStatus i.addrB i.length with
        | .stall d => s.wake d
        | .ready =>
          let (s, w) := (List.range i.lpnCount).foldl (fun (p : State × NandScan) k => p.1.readLpn p.2 (i.lpn + k)) (s, { ecc })
          let (s, e) := s.putOctets i.addrB w.out
          let r : NandRep := { bits := w.most, first := (w.fail.map (·.1)).getD 0xFFFFFFFF, cause := (w.fail.map (·.2)).getD 0 }
          let st := if w.fail.isSome then Sc.mediaUncorrectable else if e.migrated || s.mapMigrates i then Sc.rankMigrated
            else if w.corr then Sc.mediaCorrected else Sc.done
          s.nandEnd i st i.length r
        | _ => s.nandEnd i Sc.channelFailed 0 {}))

/-! ### Programs at the targets (R406, R413) -/

/-- Targets that take data. -/
def State.onlineTgs (s : State) : List Nat :=
  (List.range 4).filter (fun t => s.tgPresent t && Sparse.get .absent s.nmc.tgs t == .online)

/-- Pages that wait for a target. -/
def State.waitingFor (s : State) (t : Nat) : List WbPage := (s.nmc.wb.filter (fun e => e.1 == t)).map (·.2)

/-- Pages leave the write buffer. -/
def State.takeWb (s : State) (ps : List WbPage) : State :=
  s.setNmc (fun n => { n with wb := n.wb.filter (fun e => !ps.any (fun p => p.seq == e.2.seq)) })

/-- A PROGRAM ends before all its pages are programmed: what waits of it leaves the buffer. -/
def State.refuseProgram (s : State) (i : Item) (status : Nat) (r : NandRep) : State :=
  (s.setNmc (fun n => { n with wb := n.wb.filter (fun e => e.2.item != some i.id), jobs := n.jobs.filter (fun j => j.item != i.id) })).nandEnd
    i status 0 r

/-- An item whose data cannot be placed ends READONLY. -/
def State.refuseJob (s : State) (entry lpn : Nat) : State :=
  match s.item entry with
  | some i => s.refuseProgram i Sc.mediaUncorrectable { first := lpn, cause := 3 }
  | none => s

/-- A physical page is programmed at a target: up to its slots of the pages that wait. -/
def State.startProgram (s : State) (t choice : Nat) : State :=
  if s.nmc.ops.any (fun o => o.target == t) then s
  else match s.waitingFor t with
    | [] => s
    | p :: ps =>
      match s.openBlock t choice with
      | (s, some b) =>
        let pages := (p :: ps).take (tgSlots (s.tgCfg t))
        (s.takeWb pages).setNmc (fun n => { n with ops := n.ops ++ [{ target := t, block := b, pages }] })
      | (s, none) => (p :: ps).foldl (fun s q => match q.item with | some e => s.refuseJob e q.lpn | none => s) s

/-- A used block whose pages are all superseded, not open: it is erased in the background. -/
def State.dirtyBlock (s : State) (t : Nat) : Option Nat :=
  (s.nmc.blks.find? (fun e => e.1 / 2 ^ 18 == t && !e.2.bad && e.2.used != 0 && Sparse.get 0 s.nmc.opened t != e.1 % 2 ^ 18 + 1 &&
    (s.validOn t (e.1 % 2 ^ 18)).isEmpty && !s.nmc.ops.any (fun o => o.target == t && o.block == e.1 % 2 ^ 18))).map (·.1 % 2 ^ 18)

/-- Idle targets start what waits: full physical pages, then erases. -/
def State.nandStart (s : State) (choice : Nat) : State :=
  if s.flm.drains.any (fun d => d.unit == Pg.nmc) || s.resetDue.isSome then s else
  s.onlineTgs.foldl (fun s t =>
    let s := if tgSlots (s.tgCfg t) ≤ (s.waitingFor t).length then s.startProgram t choice else s
    if s.nmc.ops.any (fun o => o.target == t) then s
    else match s.dirtyBlock t with
      | some b => s.setNmc (fun n => { n with ops := n.ops ++ [{ target := t, block := b }] })
      | none => s) s

/-- Physical pages that the write buffer holds: those that fill up, by target, and those in a running program. -/
def State.wbHeld (s : State) : Nat :=
  ((List.range 4).map (fun t => ((s.waitingFor t).length + tgSlots (s.tgCfg t) - 1) / tgSlots (s.tgCfg t))).sum +
    (s.nmc.ops.filter (fun o => !o.pages.isEmpty)).length

/-- The write buffer takes a logical page for a target: into a physical page that fills up, or into a free one of the
SLOTS of NMC_WBCFG (R400). -/
def State.wbTakes (s : State) (t : Nat) : Bool :=
  (s.waitingFor t).length % tgSlots (s.tgCfg t) != 0 || s.wbHeld < bits (s.nmcReg 0x828) 7 0

/-- Logical pages enter the write buffer while it takes them, on the targets in turn (R400, R410). -/
def State.bufferPages : List (List Byte) → Nat → Option Nat → State → State
  | [], _, _, s => s
  | d :: ds, lpn, item, s =>
    let on := s.onlineTgs
    let t := on.getD (s.nmc.turn % on.length) 0
    if s.wbTakes t then
      State.bufferPages ds (lpn + 1) item
        (s.setNmc (fun n => { n with wb := n.wb ++ [(t, { lpn, seq := n.seq, item, data := d })], seq := n.seq + 1, turn := n.turn + 1 }))
    else s

/-- How many of `n` further logical pages the write buffer takes now. -/
def State.wbRoom (s : State) (n : Nat) : Nat := (State.bufferPages (List.replicate n []) 0 none s).nmc.seq - s.nmc.seq

/-- The octets of the write buffer: SLOTS physical pages of the largest target. -/
def State.wbBytes (s : State) : Nat :=
  bits (s.nmcReg 0x828) 7 0 * ((List.range 4).map (fun t => if s.tgPresent t then 4096 * tgSlots (s.tgCfg t) else 4096)).foldl max 4096

/-- A PROGRAM has copied `n` further pages. -/
def State.noteCopied (s : State) (i : Item) (n : Nat) (migrated : Bool) : State :=
  let more := fun (j : NandJob) => { j with copied := j.copied + n, migrated := j.migrated || migrated }
  if (s.nandJob i.id).isSome then
    s.setNmc (fun m => { m with jobs := m.jobs.map (fun j => if j.item == i.id then more j else j) })
  else s.setNmc (fun m => { m with jobs := m.jobs ++ [{ item := i.id, left := i.lpnCount, copied := n, migrated }] })

/-- `PROGRAM`: as much of its data as the write buffer takes is copied into it, and full pages start; the rest follows when
the command is given again. -/
def execNandProgram (entry choice : Nat) (flips : List Flip) (s : State) : Host.Outcome State Fault Refusal :=
  let s := s.applyFlips flips
  .next (match s.nmcItem 2 entry with
    | none => s
    | some i =>
      if s.nandBad i then s.nandEnd i Sc.internal 0 {}
      else s.withMap i (fun s =>
        let from_ := ((s.nandJob entry).map (·.copied)).getD 0
        let n := s.wbRoom (i.lpnCount - from_)
        match s.rangeStatus (s.nmcReg 0x824).toNat s.wbBytes, s.unitRead (i.addrA + 4096 * from_) (4096 * n) with
        | .stall d, _ => s.wake d
        | .refused, _ => s.refuseProgram i Sc.channelFailed {}
        | .held _, _ => s.refuseProgram i Sc.channelFailed {}
        | _, (s, .waits) => s
        | _, (s, .refused) => s.refuseProgram i Sc.channelFailed {}
        | _, (s, .ok bs e) =>
          match knownBytes bs with
          | none => s.refuseProgram i Sc.mediaUncorrectable { first := i.lpn + from_, cause := 1 }
          | some bs =>
            if s.nmc.st = .readonly ∨ s.onlineTgs.isEmpty then s.refuseProgram i Sc.mediaUncorrectable { first := i.lpn + from_, cause := 3 }
            else
              ((State.bufferPages ((List.range n).map (fun k => (bs.drop (4096 * k)).take 4096)) (i.lpn + from_) (some entry) s).noteCopied i n
                (e.migrated || s.mapMigrates i)).nandStart choice))

/-- `WB_HOLD_EXPIRE`: a partly filled physical page of a target is programmed. -/
def execWbHoldExpire (target choice : Nat) (s : State) : Host.Outcome State Fault Refusal :=
  .next (if s.ready Dm.nmc ∧ s.onlineTgs.contains target then s.startProgram target choice else s)

/-- The unit's items are being completed, with this status (R415); or an ABORT of the item's ring waits. -/
def State.nandCut (s : State) (i : Item) : Option Nat :=
  match s.flm.drains.find? (fun d => d.unit == Pg.nmc) with
  | some d => some d.status
  | none => if s.resetDue.isSome then some Sc.abortedReset else if s.ringState i.ring = .aborting then some Sc.abortedSw else none

/-- An item's page is programmed and journaled; with its last the item is done. -/
def State.pageDone (s : State) (entry : Nat) : State :=
  match s.nandJob entry, s.item entry with
  | some j, some i =>
    if j.left ≤ 1 then
      let st := if j.retired ≠ 0 then Sc.mediaRetired else if j.migrated then Sc.rankMigrated else Sc.done
      (s.setNmc (fun n => { n with jobs := n.jobs.filter (fun x => x.item != entry) })).nandEnd i st i.length { retired := j.retired }
    else s.setNmc (fun n => { n with jobs := n.jobs.map (fun x => if x.item == entry then { x with left := x.left - 1 } else x) })
  | _, _ => s

/-- A logical page stands on the medium: the map takes it where it is the newest (R404, R407). -/
def State.mapPage (s : State) (t b : Nat) (p : WbPage) : State :=
  let newer := match s.nmc.pages.find? (fun e => e.1 == p.lpn) with | some (_, g) => decide (g.seq < p.seq) | none => true
  if p.live && newer then
    (s.setNmc (fun n => { n with pages := Sparse.insert n.pages p.lpn { target := t, block := b, seq := p.seq, data := p.data } })).mapEntry p.lpn
  else s

/-- A physical page of a block is used up; a full block is no longer open. -/
def State.usePage (s : State) (t b : Nat) : State :=
  let k := blkNo t b
  let x := s.blk k
  let s := s.setBlk k { x with used := x.used + 1, at_ := s.ticks }
  if tgPpb (s.tgCfg t) ≤ x.used + 1 then s.setNmc (fun n => { n with opened := Sparse.set 0 n.opened t 0 }) else s

/-- The valid pages of a block move to a free one; `lost` cannot be corrected (R411, R413). -/
def State.moveBlock (s : State) (t b choice : Nat) (lost : List Nat) : State :=
  let valid := s.validOn t b
  if valid.isEmpty then s
  else match s.takeBlock t choice with
    | none => s.goReadonly t
    | some b' =>
      let s := valid.foldl (fun s e =>
        let g := e.2
        let bad := lost.contains e.1
        let s := if bad && !g.poisoned then (s.event Pg.nmc 3).nmcReport 4 t Sc.mediaUncorrectable e.1 b else s
        (s.setNmc (fun n => { n with pages := Sparse.insert n.pages e.1 { g with block := b', poisoned := g.poisoned || bad } })).mapEntry e.1) s
      let used := (valid.length + tgSlots (s.tgCfg t) - 1) / tgSlots (s.tgCfg t)
      let s := s.setBlk (blkNo t b') { s.blk (blkNo t b') with used, at_ := s.ticks }
      let s := if used < tgPpb (s.tgCfg t) ∧ Sparse.get 0 s.nmc.opened t = 0 then s.setNmc (fun n => { n with opened := Sparse.set 0 n.opened t (b' + 1) }) else s
      s.checkSpare t

/-- A block is grown bad: it is open no more, and nothing is scheduled for it (R413). -/
def State.growBad (s : State) (t b : Nat) : State :=
  let k := blkNo t b
  (s.setBlk k { s.blk k with grown := true }).setNmc (fun n => { n with
    opened := if Sparse.get 0 n.opened t = b + 1 then Sparse.set 0 n.opened t 0 else n.opened
    sched := n.sched.filter (fun e => e.1 != k) })

/-- A retirement is counted and reported: 1 program failure, 2 erase failure, 3 worn (R413, R416). -/
def State.retireReport (s : State) (t b cause : Nat) : State :=
  (((s.count Pg.nmc 0 0x834 15 0 1).event Pg.nmc 2).nmcReport 3 t Sc.mediaRetired b cause).checkSpare t

/-- A block that holds nothing to move is retired as grown bad (R411, R413). -/
def State.retireBlock (s : State) (t b cause : Nat) : State := (s.growBad t b).retireReport t b cause

/-- A worn block is retired (R411). -/
def State.wearOut (s : State) (t b : Nat) : State :=
  (((s.event Pg.nmc 1).nmcReport 2 t Sc.mediaCorrected b (s.eraseCount (blkNo t b)))).retireBlock t b 3

/-- An item whose pages were moved from a failing block. -/
def State.jobRetired (s : State) (entry : Nat) : State :=
  s.setNmc (fun n => { n with jobs := n.jobs.map (fun j => if j.item == entry then { j with retired := j.retired + 1 } else j) })

/-- An item that is being aborted ends once no operation of it runs. -/
def State.nandCutItems (s : State) (entries : List Nat) : State :=
  entries.foldl (fun s e =>
    match s.item e with
    | some i =>
      match s.nandCut i with
      | some st =>
        if i.result.isNone && !s.unstoppable i then
          (s.setNmc (fun n => { n with wb := n.wb.filter (fun w => w.2.item != some e), jobs := n.jobs.filter (fun j => j.item != e) })).finish e { status := st }
        else s
      | none => s
    | none => s) s

/-- An operation ends while the map's DRAM refuses: its pages stand unmapped until the next MOUNT, and its items complete
CHANNEL_FAILED (R405, R408, R415). -/
def State.opUnmapped (s : State) (o : NandOp) : State :=
  let s := s.setNmc (fun n => { n with
    ops := n.ops.filter (fun x => x.target != o.target)
    torn := n.torn ++ o.pages.map (fun p => (o.target, o.block, p)) })
  (o.pages.filterMap (·.item)).eraseDups.foldl (fun s e =>
    match s.item e with
    | some i => s.refuseProgram i Sc.channelFailed {}
    | none => s) s

/-- `NAND_OP_DONE`: the operation at a target ends; `failed` is its Read Status. -/
def execNandOpDone (target : Nat) (failed : Bool) (choice : Nat) (s : State) : Host.Outcome State Fault Refusal :=
  .next (match s.nmc.ops.find? (fun o => o.target == target) with
    | none => s
    | some o => s.withMapFor (fun s =>
      let s := s.setNmc (fun n => { n with ops := n.ops.filter (fun x => x.target != target) })
      let k := blkNo target o.block
      let items := (o.pages.filterMap (·.item)).eraseDups
      if o.pages.isEmpty then
        if failed then (s.retireBlock target o.block 2).nandStart choice
        else
          let s := s.setBlk k { s.blk k with erases := (s.blk k).erases + 1, used := 0, reads := 0 }
          let s := s.setNmc (fun n => { n with moveErases := n.moveErases + 1, sched := n.sched.filter (fun e => e.1 != k) })
          (if bits (s.nmcReg 0x80C) 23 0 ≤ s.eraseCount k then s.wearOut target o.block else s).nandStart choice
      else if failed then
        let moved := (items ++ (s.nmc.jobs.map (·.item)).filter (fun e => (s.validOn target o.block).any (fun v =>
          match s.item e with | some i => i.lpn ≤ v.1 && v.1 < i.lpn + i.lpnCount | none => false))).eraseDups
        let s := ((s.growBad target o.block).moveBlock target o.block choice []).retireReport target o.block 1
        let s := moved.foldl (fun s e => s.jobRetired e) s
        let s := s.setNmc (fun n => { n with wb := o.pages.map (fun p => (target, p)) ++ n.wb })
        s.startProgram target choice
      else
        let s := o.pages.foldl (fun s p => s.mapPage target o.block p) s
        let s := s.usePage target o.block
        let s := o.pages.foldl (fun s p => match p.item with | some e => s.pageDone e | none => s) s
        (s.nandCutItems items).nandStart choice) (fun s => s.opUnmapped o))

/-- `ERASE`: pages that wait to be programmed are overtaken. -/
def execNandErase (entry : Nat) (s : State) : Host.Outcome State Fault Refusal :=
  .next (match s.nmcItem 3 entry with
    | none => s
    | some i =>
      if s.nandBad i then s.nandEnd i Sc.internal 0 {}
      else s.withMap i (fun s =>
        let mine := fun l => i.lpn ≤ l && l < i.lpn + i.lpnCount
        let dead := fun (p : WbPage) => if mine p.lpn then { p with live := false } else p
        let s := s.setNmc (fun n => { n with pages := Sparse.keep (fun l => !mine l) n.pages, wb := n.wb.map (fun e => (e.1, dead e.2))
                                             ops := n.ops.map (fun o => { o with pages := o.pages.map dead }) })
        let s := (List.range i.lpnCount).foldl (fun s k => s.mapEntry (i.lpn + k)) s
        (s.nandEnd i (if s.mapMigrates i then Sc.rankMigrated else Sc.done) i.length {}).nandStart 0))

/-- `FLUSH`: every earlier PROGRAM of any ring has completed. A checkpoint changes nothing that a command shows. -/
def execNandFlush (entry : Nat) (s : State) : Host.Outcome State Fault Refusal :=
  .next (match s.nmcItem 4 entry with
    | none => s
    | some i =>
      if s.nmc.st = .unmounted then s.nandEnd i Sc.internal 0 {}
      else if (s.flm.ift.takeWhile (fun j => j.id != entry)).all (fun j => j.unit != Pg.nmc || j.opcode != 2 || j.result.isSome || j.st == .retiring) then
        s.withMap i (fun s => s.nandEnd i Sc.done 0 {})
      else s)

/-! ### Format and mount (R403 to R405) -/

/-- Every target is identified; those in `failing`, and MOUNT's that were never formatted, fail. -/
def State.identify (s : State) (failing : List Nat) : State :=
  (List.range 4).foldl (fun s t =>
    if s.tgPresent t then
      s.setNmc (fun n => { n with tgs := Sparse.set .absent n.tgs t (if failing.contains t then .failed else .identified) })
    else s) s

/-- The identified targets serve the store. -/
def State.tgsOnline (s : State) : State :=
  s.setNmc (fun n => { n with tgs := n.tgs.map (fun e => if e.2 = .identified then (e.1, .online) else e) })

def State.anyFailed (s : State) : Bool := (List.range 4).any (fun t => s.tgPresent t && Sparse.get .absent s.nmc.tgs t == .failed)

/-- The store is mounted. -/
def State.mounted (s : State) : State :=
  (s.tgsOnline.setNmc (fun n => { n with st := .mounted, torn := [] })).event Pg.nmc 0

/-- A MOUNT or FORMAT that NMC has begun and that has not ended (R400). -/
def State.mountItem (s : State) : Option Item :=
  s.flm.ift.find? (fun i => i.unit == Pg.nmc && i.st == .active && i.result.isNone && !i.lat.isEmpty)

/-- A MOUNT or FORMAT begins: the targets are identified; on a failure, with `bad`, or where the store is mounted or another
one runs, the item completes INTERNAL (R403). -/
def State.mountBegins (s : State) (i : Item) (failing : List Nat) (bad : State → Bool) : State :=
  if s.nmc.st ≠ .unmounted ∨ !s.nmc.ops.isEmpty ∨ s.mountItem.isSome then s.nandEnd i Sc.internal 0 {}
  else
    let s := s.identify failing
    if s.anyFailed ∨ bad s then s.nandEnd i Sc.internal 0 {} else s.updItem i.id (fun i => { i with lat := [1] })

/-- `MOUNT`: it begins, and given for its item again it ends (R404). -/
def execNandMount (entry : Nat) (failing : List Nat) (newer : List Nat) (s : State) : Host.Outcome State Fault Refusal :=
  .next (match s.nmcItem 5 entry with
    | none => s
    | some i => s.withMap i (fun s =>
        if i.lat.isEmpty then s.mountBegins i failing
          (fun s => (List.range 4).all (fun t => !s.tgPresent t) || (List.range 4).any (fun t => s.tgPresent t && !Sparse.get false s.nmc.formatted t))
        else
            let s := s.nmc.torn.foldl (fun s e => if newer.contains e.2.2.lpn then s.mapPage e.1 e.2.1 e.2.2 else s) s
            s.mounted.nandEnd i Sc.done 0 {}))

/-- `FORMAT`: it begins, and given for its item again it ends; a bad-block table that exists is kept (R403). -/
def execNandFormat (entry : Nat) (failing : List Nat) (factory bad : List (Nat × Nat)) (s : State) : Host.Outcome State Fault Refusal :=
  .next (match s.nmcItem 6 entry with
    | none => s
    | some i => s.withMap i (fun s =>
        if i.lat.isEmpty then s.mountBegins i failing (fun _ => false)
        else
            let on := (List.range 4).filter s.tgPresent
            let s := factory.foldl (fun s e =>
              if on.contains e.1 ∧ !Sparse.get false s.nmc.formatted e.1 then s.setBlk (blkNo e.1 e.2) { s.blk (blkNo e.1 e.2) with factory := true } else s) s
            let s := bad.foldl (fun s e =>
              if on.contains e.1 ∧ !(s.blk (blkNo e.1 e.2)).bad then s.setBlk (blkNo e.1 e.2) { s.blk (blkNo e.1 e.2) with grown := true } else s) s
            let s := s.setNmc (fun n => { n with
              blks := n.blks.map (fun e => if on.contains (e.1 / 2 ^ 18) then (e.1, { e.2 with used := 0, reads := 0 }) else e)
              base := on.foldl (fun m t => Sparse.set 0 m t (Sparse.get 0 m t + 1)) n.base
              formatted := on.foldl (fun m t => Sparse.set false m t true) n.formatted
              pages := [], opened := [], sched := [], wb := [], torn := [] })
            s.mounted.nandEnd i Sc.done 0 {}))

/-! ### Relocation, wear and patrol (R410 to R412) -/

/-- A block after its pages have moved: erased in the background, or retired as worn. -/
def State.relocated (s : State) (t b : Nat) (c : RelocCause) : State :=
  let k := blkNo t b
  let s := s.setNmc (fun n => { n with sched := n.sched.filter (fun e => e.1 != k)
                                       opened := if Sparse.get 0 n.opened t = b + 1 then Sparse.set 0 n.opened t 0 else n.opened })
  let refreshed := fun (m : Nat) => (s.count Pg.nmc 0 0x834 31 16 1).nmcReport 1 t Sc.mediaCorrected b m
  match c with
  | .worn _ => s.wearOut t b
  | .bits m => refreshed m
  | .reads => refreshed 0xFF

/-- `RELOCATION`: a scheduled block is relocated. -/
def execNandRelocation (target block choice : Nat) (lost : List Nat) (s : State) : Host.Outcome State Fault Refusal :=
  .next (match s.nmc.sched.find? (fun e => e.1 == blkNo target block) with
    | none => s
    | some e =>
      if !s.ready Dm.nmc ∨ s.nmc.st = .unmounted ∨ block ≥ 2 ^ 18 ∨ s.nmc.ops.any (fun o => o.target == target && o.block == block) then s
      else s.withMapFor (fun s =>
        let s := s.setNmc (fun n => { n with opened := if Sparse.get 0 n.opened target = block + 1 then Sparse.set 0 n.opened target 0 else n.opened })
        let s := s.moveBlock target block choice lost
        if (s.validOn target block).isEmpty then (s.relocated target block e.2).nandStart choice else s) (fun s => s))

/-- Erase counts of the good blocks: the lowest and highest, and the block in use with the lowest. -/
def State.spread (s : State) (t : Nat) : Nat :=
  let c := ((List.range (s.tgBlocks t)).filter (fun b => !(s.blk (blkNo t b)).bad)).map (fun b => s.eraseCount (blkNo t b))
  c.foldl max 0 - c.foldl min (c.headD 0)

/-- `STATIC_WEAR_MOVE`. -/
def execStaticWearMove (choice : Nat) (s : State) : Host.Outcome State Fault Refusal :=
  .next (
    let wear := s.nmcReg 0x808
    if !s.ready Dm.nmc ∨ s.nmc.st ≠ .mounted ∨ !bit wear 31 ∨ s.nmc.moveErases < 1000 then s
    else match s.onlineTgs.find? (fun t => bits wear 15 0 < s.spread t) with
      | none => s
      | some t =>
        let good := (List.range (s.tgBlocks t)).filter (fun b => !(s.blk (blkNo t b)).bad)
        let least := (good.map (fun b => s.eraseCount (blkNo t b))).foldl min (s.eraseCount (blkNo t (good.headD 0)))
        match good.find? (fun b => s.eraseCount (blkNo t b) == least && !(s.validOn t b).isEmpty && !s.nmc.ops.any (fun o => o.target == t && o.block == b)) with
        | none => s
        | some b => s.withMapFor (fun s =>
          let s := s.setNmc (fun n => { n with moveErases := 0, opened := if Sparse.get 0 n.opened t = b + 1 then Sparse.set 0 n.opened t 0 else n.opened })
          (s.moveBlock t b choice []).nandStart choice) (fun s => s))

/-- The next block in use of the patrol's pass. -/
def State.patrolNext (s : State) : Option Nat :=
  ((s.nmc.blks.filter (fun e => !e.2.bad && e.2.used != 0)).map (·.1)).find? (fun k => s.nmc.patrol ≤ k)

/-- A pass of the patrol over every block in use has completed; it is reported, and the next begins. -/
def State.patrolPass (s : State) : State :=
  if s.nmc.patrolRead = 0 then s.setNmc (fun n => { n with patrol := 0 })
  else (s.setNmc (fun n => { n with patrol := 0, patrolRead := 0, patrolSched := 0 })).nmcReport 5 0 Sc.done s.nmc.patrolRead s.nmc.patrolSched

/-- `PATROL_STEP`: one page of every valid physical page of the next block in use is read. -/
def execPatrolStep (ecc : List NandEcc) (s : State) : Host.Outcome State Fault Refusal :=
  .next (
    if !bit (s.nmcReg 0x814) 31 then s
    else if !s.ready Dm.nmc then (if s.domOff Dm.nmc then s else s.wake Dm.nmc)
    else if s.nmc.st = .unmounted then s
    else
      match s.patrolNext with
      | none => s.patrolPass
      | some k =>
        let before := s.nmc.sched.length
        let s := ecc.foldl (fun s e =>
          match e with
          | .corrected n => s.noteRead k n
          | .lost _ => match s.validOn (k / 2 ^ 18) (k % 2 ^ 18) with
            | e :: _ => (s.noteRead k 0).poisonPage e.1 e.2
            | [] => s) s
        let s := s.setNmc (fun n => { n with patrol := k + 1, patrolRead := n.patrolRead + 1, patrolSched := n.patrolSched + (n.sched.length - before) })
        if s.patrolNext.isNone then s.patrolPass else s)

/-! ### Registers and domain (R399, R400, R415) -/

/-- The computed registers of the page. -/
def State.nmcRead (s : State) (idx off : Nat) : Option Word :=
  let ts := Sparse.get .absent s.nmc.tgs idx
  let known := ts == .identified || ts == .online
  match off with
  | 0x108 => some (word ((match ts with | .absent => 0 | .identified => 1 | .online => 2 | .failed => 3) * 2 ^ 29 + (if known then s.tgGood idx else 0)))
  | 0x10C => some (if known then word (min 65535 (s.countBlks idx (·.grown)) * 65536 + min 65535 (s.countBlks idx (·.factory))) else 0)
  | 0x830 => some (word ((match s.nmc.st with
      | .unmounted => (match s.mountItem with | some i => if i.opcode = 5 then 1 else 3 | none => 0)
      | .mounted => 2
      | .readonly => 4) * 2 ^ 29 +
      (if s.nmc.st = .unmounted then 0 else (s.onlineTgs.map s.tgFree).sum)))
  | 0x83C => some (word s.mapSize)
  | _ => none

/-- NMC leaves ON for OFF, or is reset: the store is unmounted, and what waited is lost. Operations that a supply
loss cuts leave their pages torn (R405). -/
def State.nmcOff (s : State) : State :=
  s.setNmc (fun n => { n with
    st := .unmounted, tgs := [], wb := [], jobs := [], ops := [], sched := [], opened := [], low := []
    torn := n.torn ++ n.ops.flatMap (fun o => o.pages.map (fun p => (o.target, o.block, p))) })

/-- The NMC idle timer runs (R415). -/
def State.nmcIdle (s : State) : Bool := s.nmc.wb.isEmpty && s.nmc.ops.isEmpty

end Sys2Proof.Machine
end

