-- ==== Sys2Proof/Machine/Wake.lean ====
section
/-! DEFINITION. The wake receiver (R188 to R193). -/

namespace Sys2Proof.Machine

def State.wrxReg (s : State) (off : Nat) : Word := s.reg Pg.wrx 0 off

/-- Power as last measured. -/
def State.wrxRssi (s : State) (power : Int) : State := s.setField Pg.wrx 0 0x818 15 8 (encodePower power)

/-- A write of WRX_DUTY: ON at or above PERIOD has no effect (R189). -/
def State.wrxDutyWrite (s : State) (ini : Initiator) (v : Word) : State :=
  if !s.locked Pg.wrx ∧ bits v 31 16 ≤ bits v 7 0 then s.raise Pg.wrx ini 0x808 0 Err.range
  else s.plainWrite ini Pg.wrx 0 0x808 v

/-- Ticks that a calibration of the tuning adds to the ON time of its period: 200 µs (R193; log entry 113). -/
abbrev tuneTicks : Nat := 7

/-- `WRX_PERIOD_START`: the registers are sampled; the first ON period after the reference has started calibrates the tuning
(R193). -/
def execWrxPeriodStart (s : State) : Host.Outcome State Fault Refusal :=
  .next (
    let cfg := s.wrxReg 0x800
    let duty := s.wrxReg 0x808
    if !s.domOn Dm.wrx ∨ s.wrx.st ≠ .sleep ∨ bits cfg 1 0 = 0 ∨ s.ticks < s.wrx.next then s
    else
      let tune : Bool := bit cfg 8 && s.clk.refOk && !s.wrx.tuned
      let s := if tune then s.setField Pg.wrx 0 0x818 2 2 1 else s
      { s with wrx := { st := .sample, mode := bits cfg 1 0, code := s.wrxReg 0x804, level := bits (s.wrxReg 0x80C) 7 0
                        tuned := s.wrx.tuned || tune, onEnd := s.ticks + bits duty 7 0 + (if tune then tuneTicks else 0)
                        next := s.ticks + bits duty 31 16 } })

/-- WAKE_E sets. -/
def State.wakeE (s : State) : State := (s.setField Pg.wrx 0 0x818 0 0 1).event Pg.wrx 0

/-- `WRX_ENERGY_DETECT`: energy of `power`, in hundredths of a dBm, for 200 µs. -/
def execWrxEnergyDetect (power : Int) (s : State) : Host.Outcome State Fault Refusal :=
  .next (
    if !s.domOn Dm.wrx ∨ s.wrx.st ≠ .sample then s
    else
      let s := s.wrxRssi power
      let hunt := fun (s : State) => { s with wrx := { s.wrx with st := .hunt } }
      if encodePower power < s.wrx.level then s
      else match s.wrx.mode with
        | 1 => s.wakeE
        | 2 => hunt s
        | _ => hunt s.wakeE)

/-- `WRX_ON_END`: the ON time is over; `power` is the energy measured. -/
def execWrxOnEnd (power : Int) (s : State) : Host.Outcome State Fault Refusal :=
  .next (
    if s.wrx.st ≠ .sample ∨ s.ticks < s.wrx.onEnd then s
    else { s.wrxRssi power with wrx := { s.wrx with st := .sleep } })

/-- Bits in which two codes differ. -/
def codeErrors (a b : Half) : Nat := ((List.range 16).filter (fun k => bit a k != bit b k)).length

/-- `WRX_CODE_MATCH`: after a sync come the 16 bits `code`. -/
def execWrxCodeMatch (code : Half) (s : State) : Host.Outcome State Fault Refusal :=
  .next (
    let n := codeErrors code (s.wrx.code.setWidth 16)
    if s.wrx.st ≠ .hunt ∨ bits s.wrx.code 17 16 < n then s
    else
      let s := (s.setField Pg.wrx 0 0x818 31 24 n).setField Pg.wrx 0 0x818 1 1 1
      let s := (s.event Pg.wrx 1).count Pg.wrx 0 0x81C 31 16 1
      { s with wrx := { s.wrx with st := .sleep } })

/-- `WRX_HUNT_TIMEOUT`: HUNT_MS has passed. -/
def execWrxHuntTimeout (s : State) : Host.Outcome State Fault Refusal :=
  .next (if s.wrx.st ≠ .hunt then s
    else { s.count Pg.wrx 0 0x81C 15 0 1 with wrx := { s.wrx with st := .sleep } })

end Sys2Proof.Machine
end

