-- ==== Sys2Proof/Machine/Stop.lean ====
section
/-! DEFINITION. What ends a unit's work from outside: switch points of commits, the completion of a unit's items
(R33, R34), the soft reset of a page (R49) and what a block forgets with its registers (R43). -/

namespace Sys2Proof.Machine

/-! ### Switch points (R64) -/

/-- The accepted commit of a page switches, where its switch point has come; `mismatches` is of the write of the tag
store's system record. -/
def State.pageSwitch (s : State) (c : Commit) (mismatches : Nat) : State :=
  let now := fun (b : Bool) => b || !s.enabled c.page
  match c.page with
  | 0x05 => s.tagSwitch c mismatches
  | 0x08 =>
    if now (!s.anyLane (fun _ => true) && s.txaQuiet) then
      let s := s.switchCommit c
      if s.arrangement = 1 then s else s.setReg Pg.rfe 0 0x804 0
    else s
  | 0x09 => if now (s.txaQuiet && s.txa.st != .hold) then s.switchCommit c else s
  | 0x0A => s.synSwitch c
  | 0x0C => s.chzSwitch c
  | 0x0D => s.phySwitch c false
  | 0x10 => s.lnkSwitch c
  | 0x11 => s.timSwitch c
  | 0x12 => if now s.eth.tx.isNone then s.switchCommit c else s
  | 0x28 => if now (s.drc.alerts.all (fun e => e.2.isNone)) then (s.switchCommit c).drcSwitched else s
  | 0x2A => s.nmcSwitch c
  | 0x49 => s.pwmSwitch c
  | _ => s.switchCommit c

/-- `COMMIT_SWITCH`: the switch point of a page's accepted commit (R64). -/
def execCommitSwitch (page mismatches : Nat) (s : State) : Host.Outcome State Fault Refusal :=
  .next (match s.commitOf page with
    | some c => if page = Pg.chz ∨ s.ready (s.domainOf page c.index) then s.pageSwitch c mismatches else s
    | none => s)

/-! ### Completion of a unit's items (R33 to R35, R239) -/

/-- TXA ramps down at once, and the receive blank ends (R185). -/
def State.txStops (s : State) : State :=
  if s.txa.st = .idle then s
  else
    let s := s.txaStops
    if s.recv.tx.isSome then s.blankEnd.moveOn else s

/-- LNK's items end from outside: what they had done is recorded, windows close and acknowledgements are dropped. -/
def State.lnkStops (s : State) (status : Nat) : State :=
  let s := s.jobsAborted (fun _ => true) status
  let s := s.setLnk (fun l => { l with wins := [], acks := [] })
  (s.closeUse .rxwin).txStops

/-- What a unit does before its items complete with an abort status. -/
def State.unitStops (s : State) (page status : Nat) : State :=
  match page with
  | 0x09 | 0x10 => s.lnkStops status
  | 0x08 => s.calAborted (fun _ => true) status
  | 0x0A => (s.lnkStops status).calAborted (fun _ => true) status
  | 0x12 => s.ethCut status
  | 0x28 => s.drcAbandon
  | _ => s

/-- The units whose items end with a unit's: LNK's with TXA's and SYN's (R239), SYN's with RFE's (R178). -/
def alsoStopped (page : Nat) : List Nat :=
  match page with
  | 0x09 | 0x0A => [Pg.lnk]
  | 0x08 => [Pg.syn]
  | _ => []

/-- What a unit does once its items have been completed from outside. -/
def State.unitStopped (s : State) (page : Nat) (items : List Item) : State :=
  match page with
  | 0x05 => s.readerStops
  | 0x19 => s.palAborted items
  | 0x38 | 0x39 => s.armGone (fun i => i.unit == page)
  | _ => s

/-- A medium operation of the unit runs, for an item or not. -/
def State.mediumRuns (s : State) (unit : Nat) : Bool :=
  s.hasUnstoppable unit || (unit == Pg.flc && s.flc.op.isSome) || (unit == Pg.nmc && !s.nmc.ops.isEmpty)

/-- The executing and fetched items of a unit end, and its rings halt, once no medium operation of it runs. -/
def State.unitEnds (s : State) (unit status : Nat) : State × Bool :=
  let items := s.flm.ift.filter (fun i => i.unit == unit && i.st != .retiring)
  let (s, done) := s.completeUnit unit status
  let s := s.unitStopped unit items
  if done && !s.mediumRuns unit then (s, true) else (s, false)

/-- The items of a unit end from outside, with those of the units that end with it; `true` when all have. -/
def State.stopUnit (s : State) (unit status : Nat) : State × Bool :=
  let s := s.unitStops unit status
  let s := (alsoStopped unit).foldl (fun s u => (s.unitEnds u status).1) s
  s.unitEnds unit status

/-! ### What a block forgets (R43, R49) -/

/-- The state of a block that its registers stand for returns to reset, beside the registers themselves. -/
def State.pageForget (s : State) (page : Nat) : State :=
  match page with
  | 0x02 => s.mrcReset
  | 0x04 => { s with wrx := {} }
  | 0x05 => s.tagPageReset
  | 0x09 => { s.txStops with txa := {} }
  | 0x0A => s.synLeaves false
  | 0x0C => { s with recv := { s.recv with chans := [], snapSeq := 0, snapSecond := false } }
  | 0x0D => ({ s with recv := { s.recv with drops := [], nb := {} } })
  | 0x10 =>
    let s := s.nbLeave (fun u => u != .list)
    { s with lnk := { events := s.lnk.events } }
  | 0x11 => s.setTim (fun t => { t with
      slew := none, window := none, shadows := [], casLock := false, ppsOut := false, ppsLeft := 0, ppsFrom := 0, ppsDone := none
      beacons := [] })
  | 0x12 => { s with eth := { magic := s.eth.magic } }
  | 0x14 => { s with flm := { waiting := s.flm.waiting, drains := s.flm.drains } }
  | 0x18 => s.setSec (fun c => { c with healthy := true })
  | 0x19 => { s with pal := {} }
  | 0x1A => { s with upd := { resumes := s.upd.resumes } }
  | 0x20 => s.coreReset .l0
  | 0x21 => s.coreReset .l1
  | 0x22 => s.coreReset .c0
  | 0x23 => s.coreReset .c1
  | 0x28 => s.drcOff
  | 0x29 => s.flcOff
  | 0x2A => s.nmcOff
  | 0x30 => s.linksLost.casReset
  | 0x38 | 0x39 | 0x40 | 0x41 | 0x42 | 0x43 | 0x44 | 0x45 | 0x46 | 0x47 | 0x48 => s.setSerial page {}
  | 0x49 => s.setPer (fun p => { p with pwms := [] })
  | 0x4B => s.setPer (fun p => { p with hspi := {} })
  | _ => s

/-- Frames that wait for LNK's security stage are posted with an abort status (R239). -/
def State.queueAborted (s : State) (status : Nat) : State :=
  let (s, q) := s.settleFrames true s.recv.queue
  let s := { s with recv := { s.recv with queue := [] } }
  q.foldl (fun s f => s.postFrame (if f.toLnk then { f with status, cause := 0 } else f)) s

/-- What a soft reset of a page cuts on the air: `air` is what its lanes had decoded (R110, R239). -/
def State.cutForReset (s : State) (page : Nat) (air : List Air) : State :=
  match page with
  | 0x0C => s.cutLanes (fun l => l.no != nbLane) air Sc.abortedReset 0 false
  | 0x0D => (s.cutLanes (fun _ => true) air Sc.abortedReset 0 false).queueAborted Sc.abortedReset
  | 0x10 => s.queueAborted Sc.abortedReset
  | _ => s

/-- The end of a soft reset: the registers of the page and what they stand for (R49, R471). RSTCAUSE is cleared only
at power-up (R465). -/
def State.softResetEnd (s : State) (page : Nat) (air : List Air) : State :=
  if page = Pg.rtc then s.rtcSoftReset
  else
    let s := s.cutForReset page air
    let base := s.reg Pg.syn 0 0x804
    let count := s.reg Pg.syn 0 0x808
    let cause := s.reg Pg.pwr 0 0x82C
    let reset := fun (s : State) => if page = Pg.gpio then s.withPins (fun s => s.resetPage page) else s.resetPage page
    let s := (reset s).pageForget page
    let s := if page = Pg.syn then s.invalidate base count else s
    let s := if page = Pg.tag then s.setTag (fun t => { t with dirty := [], posted := [], writes := [], secured := [] }) else s
    if page = Pg.pwr then s.setReg Pg.pwr 0 0x82C cause else s

/-! ### Drains: completions that wait for a medium operation (R34, R395) -/

/-- A unit's items are all completed: what was to follow happens. The domain leaves from the next tick edge (R454). -/
def State.drained (s : State) (d : Drain) (air : List Air) : State :=
  match d.after with
  | .leave t =>
    let dm := s.domainOf d.unit 0
    if s.flm.drains.any (fun e => s.domainOf e.unit 0 == dm) then s
    else s.setDom dm { s.dom dm with leaving := some t, since := s.ticks }
  | .softReset => s.softResetEnd d.unit air
  | .partReset => s

/-- A drain whose medium operation has ended goes on. -/
def State.settleDrain (s : State) (air : List Air) (d : Drain) : State :=
  if s.mediumRuns d.unit then s
  else
    let (s, done) := s.unitEnds d.unit d.status
    if done then ({ s with flm := { s.flm with drains := s.flm.drains.erase d } }).drained d air else s

/-- Flume's own soft reset completes what it may (R560). -/
def State.settleFlume (s : State) : State :=
  if s.flm.resetting then
    let free := fun (i : Item) => !s.hasUnstoppable i.unit
    ((s.abortActive free Sc.abortedReset).abortFetched free Sc.abortedReset).flumeResetEnd
  else s

/-- Every completion that waited and may go on does. -/
def State.settle (s : State) (air : List Air := []) : State :=
  (s.flm.drains.foldl (fun s d => s.settleDrain air d) s).settleFlume

/-- The items of a unit complete with a status, and something follows. -/
def State.drainUnit (s : State) (unit status : Nat) (after : After) (air : List Air) : State :=
  let d : Drain := { unit, status, after }
  let s := s.unitStops unit status
  let s := (alsoStopped unit).foldl (fun s u => (s.unitEnds u status).1) s
  let s := { s with flm := { s.flm with drains := s.flm.drains ++ [d] } }
  let (s, done) := s.unitEnds unit status
  if done then ({ s with flm := { s.flm with drains := s.flm.drains.erase d } }).drained d air else s

/-- A write of SRST (R49). Flume's waits until every completion it holds is written (R560). -/
def State.softReset (s : State) (page : Nat) (air : List Air) : State :=
  if page = Pg.flm then
    let units := ((s.flm.ift.filter (fun i => i.st != .retiring)).map (·.unit)).eraseDups
    let s := units.foldl (fun s u =>
      let items := s.flm.ift.filter (fun i => i.unit == u && i.st != .retiring)
      ((s.unitStops u Sc.abortedReset).abortActive (fun i => i.unit == u) Sc.abortedReset).unitStopped u items) s
    ({ s with flm := { s.flm with resetting := true } }).settleFlume
  else s.drainUnit page Sc.abortedReset .softReset air

end Sys2Proof.Machine
end

