-- ==== Sys2Proof/Machine/Power.lean ====
section
/-! DEFINITION. The power controller: requests, the phases of entry and wake, clocks, VCORE, wake sources, the slow
tick, and the PWR page (R450 to R466). -/

namespace Sys2Proof.Machine

def State.setClk (s : State) (f : Clk → Clk) : State := { s with clk := f s.clk }

def DState.rank : DState → Nat
  | .off => 0 | .retention => 1 | .on => 2

/-- The higher of two states. -/
def DState.atLeast (a b : DState) : DState := if a.rank < b.rank then b else a

/-! ### Idleness (R453) -/

/-- BLK_STAT.BUSY of a page (R50). -/
def State.pageBusy (s : State) (page : Nat) : Bool :=
  match page with
  | 0x14 => !s.flm.ift.isEmpty
  | 0x29 => s.unitBusy page || s.flc.op.isSome
  | 0x2A => s.unitBusy page || !s.nmc.ops.isEmpty
  | 0x30 => s.unitBusy page || s.casBusy
  | _ => s.unitBusy page

/-- Further conditions of the chapters (R76, R271, R371, R415). -/
def State.unitIdle (s : State) (d : Nat) : Bool :=
  if 4 ≤ d && d ≤ 7 then !s.channels.any (fun n => s.quarterOf n == d - 4 && s.chanEn n)
  else if d = Dm.lnk ∨ d = Dm.ctl then s.coresRest d && (d != Dm.lnk || s.recv.queue.isEmpty)
  else if d = Dm.drc then
    (List.range 4).all (fun r => s.rkState r != Rk.migrating) &&
    (List.range 2).all (fun c => s.chState c != Chn.training && s.chState c != Chn.replay)
  else if d = Dm.nmc then s.nmcIdle
  else true

/-- The fabric domain that an access waits for. -/
def State.accessDomain (s : State) (a : Access) : Nat :=
  let n := a.addr.toNat
  if 0x40000000 ≤ n ∧ n < 0x40100000 then
    let page := (n - 0x40000000) / 0x1000
    s.domainOf page (s.setIndex page a.ini (n % 0x1000))
  else match regionOf n with
    | .flash => Dm.flc
    | .sram b => 32 + b
    | .dram => Dm.drc
    | _ => if 0x50000000 ≤ n ∧ n < 0x50010000 then Dm.sec else Dm.aon

/-- A stalled access waits for the domain. -/
def State.awaited (s : State) (d : Nat) : Bool := s.stalls.any (fun a => s.accessDomain a == d)

/-- The domain is idle: no access waits for it, its pages are neither busy nor staged, and no enabled ring of its
units holds unfetched work. -/
def State.domIdle (s : State) (d : Nat) : Bool :=
  !s.awaited d && s.unitIdle d &&
  (pagesOf d).all (fun p => !s.pageBusy p && !s.isStaged p) &&
  !(List.range 64).any (fun r => s.wrEn r && s.unfetched r != 0 && (pagesOf d).contains (s.wrUnit r))

/-- A tick of the idle timers. -/
def State.idleTick (s : State) : State :=
  allDomains.foldl (fun s d =>
    let x := s.dom d
    if d = Dm.aon ∨ !s.domOn d then s
    else if s.domIdle d then s.setDom d { x with idle := min (x.idle + 1) 0xFFFF }
    else s.setDom d { x with idle := 0 }) s

/-- The target of a domain's idle timer (R450, R466). -/
def State.idleTarget (s : State) (d : Nat) : DState :=
  if !hasRetention d ∨ bit (s.reg Pg.pwr d 0x104) 31 then .off else .retention

/-! ### Requests (R451, R452) -/

/-- The lower state that a domain's effective request asks for. -/
def State.asked (s : State) (d : Nat) : Option DState :=
  match s.dreq d with | 2 => some .retention | 3 => some .off | _ => none

/-- A domain follows a change of its effective request. For OFF its units' items complete first (R33); a request that
a rule holds up does nothing yet. -/
def State.follow (s : State) (d : Nat) (air : List Air) : State :=
  let x := s.dom d
  if d = Dm.aon ∨ !domPresent s.variant d ∨ x.phase ≠ .none then s
  else match s.asked d with
    | none =>
      if s.dreq d = 1 then s.setDom d { x with leaving := none, wakeReq := x.wakeReq || x.st != .on } else s
    | some t =>
      let u := t.atLeast (s.heldAt d)
      if x.st.rank ≤ u.rank then s.setDom d { x with leaving := none }
      else if x.leaving = some t ∨ s.flm.drains.any (fun e => s.domainOf e.unit 0 == d) then s
      else if u = .off ∧ !(pagesOf d).isEmpty ∧ !(5 ≤ d ∧ d ≤ 7) then
        (pagesOf d).foldl (fun s p => s.drainUnit p Sc.abortedDomainOff (.leave .off) air) s
      else s.setDom d { x with leaving := some t, since := s.ticks }

/-- The effective request of a domain has changed: an entry that has not reached IDLE_COMMIT is off. -/
def State.requested (s : State) (d : Nat) (air : List Air) : State :=
  (s.setDom d { s.dom d with leaving := none }).follow d air

/-- Every domain follows its request again: a hold has gone. -/
def State.followAll (s : State) (air : List Air) : State := allDomains.foldl (fun s d => s.follow d air) s

/-- A write of PWR_DM_CTRL in the window of a domain. -/
def State.dmCtrlWrite (s : State) (d : Nat) (v : Word) : State :=
  if !domPresent s.variant d then s
  else
    let was := s.dreq d
    let s := s.setReg Pg.pwr d 0x100 (v &&& 0x30)
    if s.dreq d = was then s else s.requested d []

/-- A write of BLK_CTRL (R48, R49, R69). The DREQ of CHZ is that of the quarter of the writer's channel. -/
def State.blkCtrlWrite (s : State) (ini : Initiator) (page : Nat) (v : Word) (air : List Air) : State :=
  let d := s.domainOf page (s.chsel page ini)
  let q := ctrlSet d
  let old := s.reg page q 0x008
  let en := s.enabled page
  let was := s.dreq d
  let same : Bool := bit v 0 == en && bits v 5 4 == bits old 5 4
  let s :=
    if s.locked page then (if same then s else s.raise page ini 0x008 0 Err.locked)
    else
      let s := s.setField page q 0x008 5 4 (bits v 5 4)
      let s := s.setField page 0 0x008 0 0 (bits v 0 0)
      let s := if page = Pg.cas ∧ en ∧ !bit v 0 then s.linksLost else s
      if s.dreq d = was then s else s.requested d air
  if bit v 1 then s.softReset page air else s

/-- `BLOCK_ENABLE`: BLK_CTRL.EN is written, and DREQ with its present value (R48). -/
def execBlockEnable (ini : Initiator) (page : Nat) (en : Bool) (s : State) : Host.Outcome State Fault Refusal :=
  .next (s.pageWrite ini page 0x008 0 (fun s =>
    let old := s.reg page (ctrlSet (s.domainOf page (s.chsel page ini))) 0x008
    s.blkCtrlWrite ini page (setBit (old &&& 0x30) 0 en) []))

/-- `SOFT_RESET`: SRST is written, with EN and DREQ at their present values (R49). -/
def execSoftReset (ini : Initiator) (page : Nat) (air : List Air) (s : State) : Host.Outcome State Fault Refusal :=
  .next (s.pageWrite ini page 0x008 0 (fun s =>
    let old := s.reg page (ctrlSet (s.domainOf page (s.chsel page ini))) 0x008
    s.blkCtrlWrite ini page (setBit (setBit (old &&& 0x30) 0 (s.enabled page)) 1 true) air))

/-- `DOMAIN_REQUEST`: DREQ is written, on a page or in the PWR window (R451). -/
def execDomainRequest (ini : Initiator) (page : Nat) (domain : Option Nat) (dreq : Nat) (s : State) : Host.Outcome State Fault Refusal :=
  .next (match domain with
    | some d => s.pageWrite ini Pg.pwr 0x100 0 (fun s => s.dmCtrlWrite d (word (dreq % 4 * 16)))
    | none => s.pageWrite ini page 0x008 0 (fun s =>
        s.blkCtrlWrite ini page (setBit (word (dreq % 4 * 16)) 0 (s.enabled page)) []))

/-! ### Entry (R453 to R455) -/

/-- `IDLE_TIMER_EXPIRE`: the count has reached TICKS (R453). -/
def execIdleTimerExpire (domain : Nat) (s : State) : Host.Outcome State Fault Refusal :=
  .next (
    let x := s.dom domain
    let ticks := s.fieldOf Pg.pwr domain 0x104 15 0
    let t := (s.idleTarget domain).atLeast (s.heldAt domain)
    if domain = Dm.aon ∨ !domPresent s.variant domain ∨ !s.domOn domain ∨ x.leaving.isSome ∨ s.dreq domain ≠ 0 ∨
        ticks = 0 ∨ x.idle < ticks ∨ !s.domIdle domain ∨ t = .on then s
    else s.setDom domain { x with leaving := some t, since := s.ticks - 1 })

/-- What the blocks of a domain do as it leaves ON. -/
def State.leaveOn (s : State) (d : Nat) (target : DState) (air : List Air) : State :=
  match d with
  | 1 => { s with wrx := {} }
  | 2 => (s.rfeLeaves air)
  | 3 => s.txStops.synLeaves (target != .off)
  | 4 | 5 | 6 | 7 => s.quarterLeaves (d - 4) air
  | 8 => s.txStops
  | 9 => s.queueAborted Sc.abortedDomainOff
  | 13 => (if target = .off then s.drcAbandon else s).drcLeaves.setClk (fun c => { c with dramLock := false })
  | 15 => s.setClk (fun c => { c with ethLock := false })
  | 16 => s.readerStops
  | 17 => s.linksLost
  | 18 => s.timSleep.latchPads
  | _ => s

/-- Staged values that a domain holds: CHZ's by quarter (R75, R76). -/
def State.stagedIn (s : State) (d k : Nat) : Bool :=
  (pagesOf d).contains (keyPage k) && s.domainOf (keyPage k) (keyIdx k) == d &&
  !(5 ≤ d && d ≤ 7 && 0x800 ≤ keyOff k)

/-- Staged sets are lost with a domain that goes OFF; an accepted commit is carried out first (R66). INITIATOR of
STAGE_LOST is the holder of the claim (DESIGN CHOICE, log entry 107). -/
def State.stagingOff (s : State) (d : Nat) : State :=
  let s := (pagesOf d).foldl (fun s p =>
    match s.commitOf p with
    | some c =>
      if s.staged.any (fun e => s.stagedIn d e.1) then
        let s := s.pageSwitch c 0
        match s.commitOf p with | some c => if p = Pg.chz then s else s.switchCommit c | none => s
      else s
    | none => s) s
  (pagesOf d).foldl (fun s p =>
    let mine := fun k => onPage p k && s.stagedIn d k
    if s.staged.any (fun e => mine e.1) then
      let holder := (s.claim p).getD .sec
      (({ s with staged := Sparse.keep (fun k => !mine k) s.staged }).releaseClaim p).raise p holder
        (Config.errOffset p Err.stageLost) (Config.errDetail p Err.stageLost) Err.stageLost
    else s) s

/-- The cores of a domain may be cut off: for RETENTION at acceptance points, for OFF with no access outstanding
(R271). The in-flight table keeps PER ON (R11). -/
def State.mayLeave (s : State) (d : Nat) (target : DState) : Bool :=
  if d = Dm.lnk ∨ d = Dm.ctl then
    (if target = .off then allCores.all (fun c => cpuDomain c != d || !(s.cpu c).stalled) else s.coresAtPoint d)
  else if d = Dm.per then s.flm.ift.isEmpty
  else true

/-- The Hopper has frames to post before the domain changes (R110). -/
def State.unposted (s : State) (d : Nat) : Bool :=
  if d = Dm.rfe then s.framesUnposted none
  else if 4 ≤ d ∧ d ≤ 7 then s.framesUnposted (some (d - 4)) else false

/-- `DOMAIN_IDLE_COMMIT`: at a tick edge the clocks are gated and outputs isolated; DSTATE reads 3 (R454). -/
def execDomainIdleCommit (domain : Nat) (air : List Air) (s : State) : Host.Outcome State Fault Refusal :=
  let s := (s.settle air).follow domain air
  let s := if s.dreq domain = 0 ∧ !s.domIdle domain then s.setDom domain { s.dom domain with leaving := none } else s
  .next (
    let x := s.dom domain
    match x.leaving with
    | none => s
    | some t =>
      let u := t.atLeast (s.heldAt domain)
      if x.phase ≠ .none ∨ s.ticks ≤ x.since ∨ x.st.rank ≤ u.rank ∨ s.awaited domain ∨ !s.mayLeave domain u then s
      else
        let s := if x.st = .on then s.leaveOn domain u air else s
        if x.st = .on ∧ s.unposted domain then s else
        let s := if u = .off then s.stagingOff domain else s
        s.setDom domain { s.dom domain with phase := .idleCommit, target := u, since := s.ticks, wakeReq := false })

/-- A phase of an entry passes to the next, `n` ticks from IDLE_COMMIT. -/
def State.phaseStep (s : State) (d n : Nat) (p q : Phase) : State :=
  let x := s.dom d
  if x.phase = p ∧ x.since + n ≤ s.ticks then s.setDom d { x with phase := q } else s

/-- `DOMAIN_SAVE` and `DOMAIN_SWITCH`. -/
def execDomainSave (domain : Nat) (s : State) : Host.Outcome State Fault Refusal := .next (s.phaseStep domain 1 .idleCommit .save)
def execDomainSwitch (domain : Nat) (s : State) : Host.Outcome State Fault Refusal := .next (s.phaseStep domain 2 .save .switch)

/-- Reports that wait in the stores of a domain's units are dropped and counted (R36). The Hopper keeps its own. -/
def State.storesLost (s : State) (p : Nat → Bool) : State :=
  (s.flm.waiting.filter (fun r => p r.unit)).foldl (fun s r => s.dropReport r) s

/-- What a domain loses in OFF. -/
def State.domLost (s : State) (d : Nat) : State :=
  let s := s.storesLost (fun u => u != Pg.chz && u != Pg.phy && (pagesOf d).contains u)
  if 32 ≤ d then s.loseRegion (d - 32)
  else match d with
    | 9 => { (s.nbLeave (fun u => u != .list)).lnkEventsLost with lnk := {} }
    | 11 => { s.setSec (fun c => { c with puf := none }) with pal := {} }
    | 12 => s.flcOff
    | 13 => s.drcOff
    | 14 => s.nmcOff
    | _ => s

/-- Nothing needs the reference or the system PLL once PER is neither ON nor waking (R459, R460). -/
def State.clocksRest (s : State) : State :=
  if s.domUp Dm.per ∨ (s.dom Dm.per).phase ≠ .none then s
  else { s.setClk (fun c => { c with refEn := none, refOk := false, sysLock := false }) with wrx := { s.wrx with tuned := false } }

/-- DSTATE settles: DOMAIN_CHG sets on the domain's pages (R51). -/
def State.domChg (s : State) (d : Nat) : State := (pagesOf d).foldl (fun s p => s.event p 29) s

/-- `DOMAIN_ENTRY_DONE`: the entry ends; a wake that is asserted then starts (R454, R455). -/
def execDomainEntryDone (domain : Nat) (s : State) : Host.Outcome State Fault Refusal :=
  .next (
    let x := s.dom domain
    if x.phase ≠ .switch ∨ s.ticks < x.since + 3 then s
    else
      let more := match x.leaving with | some t => if t.rank < x.target.rank then some t else none | none => none
      let wake := x.wakeReq && (s.dreq domain != 3 || x.warm)
      let s := s.setDom domain { x with st := x.target, phase := .none, idle := 0, leaving := more, wakeReq := wake }
      let s := if x.target = .off ∧ x.st ≠ .off then s.domLost domain else s
      let s := (s.count Pg.pwr domain 0x10C 15 0 1).domChg domain
      s.clocksRest.followAll [])

/-! ### Wake (R457, R464) -/

/-- A domain that is up or waking needs this one (R452). -/
def State.neededUp (s : State) (d : Nat) : Bool :=
  allDomains.any (fun e => (needs e).contains d && (s.dom e).phase == .waking)

/-- The domains that need VCORE at 0.9 V (R462). -/
def needsVcore (d : Nat) : Bool := d == Dm.drc || d == Dm.eth || d == Dm.cas

/-- `DOMAIN_WAKE`: a wake that is requested starts, with its clocks, unless the effective request is OFF; a wake source's
request stands whatever that is (R463). -/
def execDomainWake (domain : Nat) (s : State) : Host.Outcome State Fault Refusal :=
  .next (
    let x := s.dom domain
    if x.phase ≠ .none ∨ x.st = .on ∨ !domPresent s.variant domain ∨ !(x.wakeReq || s.dreq domain == 1) ∨
        (s.dreq domain = 3 ∧ !x.warm ∧ !s.neededUp domain) then s
    else
      let s := s.setDom domain { x with phase := .waking, since := s.ticks, leaving := none }
      let s := (needs domain).foldl (fun s n =>
        if n = Dm.per ∨ (s.dom n).st = .off ∨ ((s.dom n).phase ≠ .none ∧ (s.dom n).target = .off) then s.wakeOne n else s) s
      let s := if s.clk.refEn.isSome ∨ domain = Dm.wrx ∨ domain = Dm.tag then s
        else s.setClk (fun c => { c with refEn := some s.ticks })
      if needsVcore domain ∧ s.fieldOf Pg.pwr 0 0x824 0 0 = 1 then
        (s.setReg Pg.pwr 0 0x824 0).setClk (fun c => { c with ramping := true })
      else s)

/-- The clocks that a waking domain needs run: the system PLL, or, before the Primer first locks it, the reference
itself; DRC's and ETH's own PLL too (R459, R461). -/
def State.clocksReady (s : State) (d : Nat) : Bool :=
  d == Dm.wrx || d == Dm.tag ||
    ((s.clk.sysLock || !s.clk.started) && (d != Dm.drc || s.clk.dramLock) && (d != Dm.eth || s.clk.ethLock))

/-- The registers of a domain that comes from OFF return to reset, and GEN with them (R43, R62). UPD_BOOTRPT,
UPD_INSTRPT and UPD_VER lie in AON (R501), as do the registers of the pages of AON. -/
def State.domRegsReset (s : State) (d : Nat) : State :=
  let mine := fun k =>
    outsideHeader k && (pagesOf d).contains (keyPage k) && !(keyPage k == Pg.upd && 0x800 ≤ keyOff k && keyOff k < 0x818) &&
    (if keyPage k == Pg.chz then (if 0x800 ≤ keyOff k then d == Dm.chz0 else s.domainOf Pg.chz (keyIdx k) == d) else true)
  let s := s.clearRegs mine
  (pagesOf d).foldl (fun s p => if p = Pg.chz ∧ d ≠ Dm.chz0 then s else s.setReg p 0 0x02C 0) s

/-- What the blocks of a domain forget with it; a quarter forgets its channels. -/
def State.domForget (s : State) (d : Nat) : State :=
  if 5 ≤ d && d ≤ 7 then s else (pagesOf d).foldl (fun s p => s.pageForget p) s

/-- What the blocks of a domain do as it comes ON. -/
def State.enterOn (s : State) (d : Nat) (fromOff : Bool) : State :=
  match d with
  | 2 => (s.rfeOn fromOff).nbRest
  | 3 => s.synOn fromOff
  | 4 | 5 | 6 | 7 => s.quarterOn (d - 4)
  | _ => s

/-- A warm start: the core of a domain that a wake source targeted starts at its warm address (R464). -/
def State.warmStart (s : State) (d : Nat) : State :=
  let go := fun (c : Core) (off : Nat) => (s.setReg (cpuPage c) 0 0x804 (s.reg Pg.pwr 0 off &&& 0xFFFFFFFE)).runCore c
  if d = Dm.ctl then go .c0 0x814 else if d = Dm.lnk then go .l0 0x818 else s

/-- `DOMAIN_ON`: a waking domain reaches ON, after its time of R450. -/
def execDomainOn (domain : Nat) (s : State) : Host.Outcome State Fault Refusal :=
  .next (
    let x := s.dom domain
    let low : Bool := needsVcore domain && (s.clk.ramping || s.fieldOf Pg.pwr 0 0x824 0 0 == 1)
    if x.phase ≠ .waking ∨ !s.clocksReady domain ∨ low then s
    else
      let off : Bool := x.st == .off
      let s := s.setDom domain { x with st := .on, phase := .none, idle := 0, wakeReq := false, warm := false
                                        epoch := if off then x.epoch + 1 else x.epoch }
      let s := if off then (s.domRegsReset domain).domForget domain else s
      let s := s.enterOn domain off
      let s := (s.count Pg.pwr domain 0x10C 31 16 1).domChg domain
      let s := if x.warm && off then s.warmStart domain else s
      s.flushQueue.followAll [])

/-! ### Clocks and VCORE (R459 to R462) -/

/-- `REF_CHECK`: REF_TICKS after REF_EN, 1 024 edges have been counted (R460). -/
def execRefCheck (good : Bool) (s : State) : Host.Outcome State Fault Refusal :=
  .next (match s.clk.refEn with
    | none => s
    | some t => if s.ticks < t + s.fieldOf Pg.pwr 0 0x81C 7 0 ∨ !good then s else s.setClk (fun c => { c with refOk := true }))

/-- `REF_FAIL`: the reference is not good 4 ticks after REF_TICKS. -/
def execRefFail (s : State) : Host.Outcome State Fault Refusal :=
  .next (match s.clk.refEn with
    | none => s
    | some t => if s.clk.refOk ∨ s.ticks < t + s.fieldOf Pg.pwr 0 0x81C 7 0 + 4 then s else s.event Pg.pwr 17)

/-- `PLL_LOCK`: the system PLL while PER is up, the DRAM and Ethernet PLLs while their domains are. TIM counts from
the first lock after a part reset on; across sleep from its wake load (R241, R267). -/
def execPllLock (pll : Nat) (s : State) : Host.Outcome State Fault Refusal :=
  .next (
    if !s.clk.refOk then s
    else match pll with
      | 0 =>
        if !s.domUp Dm.per ∨ s.clk.sysLock then s
        else
          let s := s.setClk (fun c => { c with sysLock := true, started := true })
          if s.tim.cap.isNone then s.setTim (fun t => { t with running := true }) else s
      | 1 => if s.domUp Dm.drc then s.setClk (fun c => { c with dramLock := true }) else s
      | 2 => if s.domUp Dm.eth then s.setClk (fun c => { c with ethLock := true }) else s
      | _ => s)

/-- `XTAL_FAIL`: four edges of the slow crystal are missing (R268, R459, R472). -/
def execXtalFail (s : State) : Host.Outcome State Fault Refusal :=
  .next (
    if s.clk.xtalFail then s
    else
      let s := s.setClk (fun c => { c with xtalFail := true, xtalOk := false })
      let s := s.setTim (fun t => { t with sleepFail := t.sleepFail || t.cap.isSome, window := none })
      (s.event Pg.pwr 16).rtcOnRc)

/-- The crystal is in use again. -/
def State.xtalBack (s : State) (good : Bool) : State :=
  if s.clk.xtalFail ∧ good then
    (s.setClk (fun c => { c with xtalFail := false, xtalOk := true })).setRtc (fun r => { r with onRc := false })
  else s

/-- A write of PWR_CLKCFG; `good` is what XTAL_RETRY finds. -/
def State.clkCfgWrite (s : State) (ini : Initiator) (v : Word) (good : Bool) : State :=
  if s.locked Pg.pwr then s.lockedErr ini Pg.pwr 0x81C
  else
    let s := s.plainWrite ini Pg.pwr 0 0x81C v
    if bit v 31 then s.xtalBack good else s

/-- `XTAL_RETRY`: XTAL_RETRY is written, with REF_TICKS at its present value. -/
def execXtalRetry (ini : Initiator) (good : Bool) (s : State) : Host.Outcome State Fault Refusal :=
  .next (s.pageWrite ini Pg.pwr 0x81C 0 (fun s => s.clkCfgWrite ini (setBit (s.reg Pg.pwr 0 0x81C) 31 true) good))

/-- A write of PWR_VCORE (R462). -/
def State.vcoreWrite (s : State) (ini : Initiator) (v : Word) : State :=
  let low := bit v 0
  if s.locked Pg.pwr then s.lockedErr ini Pg.pwr 0x824
  else if low = bit (s.reg Pg.pwr 0 0x824) 0 then s
  else if low ∧ [Dm.drc, Dm.eth, Dm.cas].any (fun d => !s.domOff d) then s.raise Pg.pwr ini 0x824 0 Err.range
  else (s.setReg Pg.pwr 0 0x824 (v &&& 1)).setClk (fun c => { c with ramping := true })

/-- `VCORE_CHANGE`. -/
def execVcoreChange (ini : Initiator) (low : Bool) (s : State) : Host.Outcome State Fault Refusal :=
  .next (s.pageWrite ini Pg.pwr 0x824 (word low.toNat) (fun s => s.vcoreWrite ini (word low.toNat)))

/-- `VCORE_DONE`: 50 µs later. -/
def execVcoreDone (s : State) : Host.Outcome State Fault Refusal :=
  .next (if s.clk.ramping then (s.setClk (fun c => { c with ramping := false })).event Pg.pwr 18 else s)

/-! ### Wake sources (R463) -/

/-- A source is asserted; an edge is the command itself, where PWR takes it. -/
def State.sourceAsserts (s : State) (k : Nat) : Bool :=
  match k with
  | 0 => bit (s.reg Pg.wrx 0 0x818) 0
  | 1 => bit (s.reg Pg.wrx 0 0x818) 1
  | 2 => s.eth.magic
  | 3 => s.cas.activity || ((s.dom Dm.cas).st == .retention && (s.dom Dm.cas).phase == .none)
  | 4 => !s.domOn Dm.per
  | 5 => s.tag.field
  | 6 => true
  | 7 => s.mrcWake
  | _ => false

/-- A target domain of a source is asked to wake. -/
def State.wakeTarget (s : State) (d : Nat) : State :=
  if s.domOn d then s
  else
    let s := s.wake d
    s.setDom d { s.dom d with wakeReq := true, warm := true }

/-- A wake source asserts: where it is in force it latches and wakes its targets. -/
def State.wakeBy (s : State) (source : Nat) : State :=
  if 8 ≤ source ∨ !bit (s.reg Pg.pwr 0 0x808) source ∨ !s.sourceAsserts source then s
  else
    let s := if source = 3 then s.setCas (fun c => { c with activity := true }) else s
    let s := (s.setReg Pg.pwr 0 0x80C (setBit (s.reg Pg.pwr 0 0x80C) source true)).event Pg.pwr source
    let tgt := bits (s.reg Pg.pwr 0 0x810) (2 * source + 1) (2 * source)
    let s := if source = 3 then s.wake Dm.cas else s
    let s := if tgt.testBit 0 then s.wakeTarget Dm.lnk else s
    if tgt.testBit 1 then s.wakeTarget Dm.ctl else s

/-- `WAKE_SOURCE`. -/
def execWakeSource (source : Nat) (s : State) : Host.Outcome State Fault Refusal := .next (s.wakeBy source)

/-- A write of PWR_WAKESRC ends the requests that ETH and CAS latch. -/
def State.wakeSrcWrite (s : State) (v : Word) : State :=
  let s := s.setReg Pg.pwr 0 0x80C (s.reg Pg.pwr 0 0x80C &&& ~~~v)
  let s := if bit v 2 then { s with eth := { s.eth with magic := false } } else s
  if bit v 3 then s.setCas (fun c => { c with activity := false }) else s

/-! ### The slow tick (R266, R453, R468) -/

/-- `RTC_TICK`: a tick edge of the slow clock: the RTC counts, TIM notes the edge, and the idle timers advance. -/
def execRtcTick (s : State) : Host.Outcome State Fault Refusal :=
  let s := { s with ticks := s.ticks + 1, clk := { s.clk with xtalOk := !s.clk.xtalFail } }
  .next (s.timTickEdge.rtcTick.idleTick.settle)

/-- `TICKPER_WINDOW_END`: a window that has run its ticks writes TIM_TICKPER (R266, R483). -/
def execTickperWindowEnd (s : State) : Host.Outcome State Fault Refusal :=
  .next (match s.tim.window with
    | some w =>
      match w.done with
      | some e =>
        let next : TickWindow := { tick := w.tick + w.len, len := s.windowLen, start := e }
        (s.setTim (fun t => { t with tickper := w.period e, calStale := false, window := some next })).rtcFromTim
      | none => s
    | none => s)

/-! ### The PWR page (R465, R466) -/

/-- PHASE of PWR_DM_STAT. -/
def Phase.code : Phase → Nat
  | .none => 0 | .idleCommit => 1 | .save => 2 | .switch => 3 | .waking => 4

/-- PWR_DM_STAT of a domain. -/
def State.dmStat (s : State) (d : Nat) : Word :=
  let x := s.dom d
  let held : Bool := match s.asked d with | some t => decide (t.rank < (s.heldAt d).rank) | none => false
  if !domPresent s.variant d then 0
  else word (0x80000000 + x.phase.code * 0x10000000 + held.toNat * 0x1000000 + s.dstate d * 0x10000 + x.epoch.toNat)

/-- The registers of the page that are not held in its table. -/
def State.pwrRead (s : State) (idx off : Nat) : Option Word :=
  let on := fun base n => word ((List.range n).map (fun k => if s.dstate (base + k) = 2 ∧ domPresent s.variant (base + k) then 2 ^ k else 0)).sum
  let c := s.clk
  match off with
  | 0x108 => some (s.dmStat idx)
  | 0x800 => some (on 0 19)
  | 0x804 => some (on 32 16)
  | 0x820 => some (word (c.xtalOk.toNat * 0x80000000 + c.xtalFail.toNat * 0x40000000 + c.refOk.toNat * 0x20000000 +
      c.sysLock.toNat * 0x10000000 + c.dramLock.toNat * 0x8000000 + c.ethLock.toNat * 0x4000000))
  | 0x824 => some (setBit (s.reg Pg.pwr 0 0x824) 31 c.ramping)
  | _ => none

/-- A write of PWR_DM_IDLE; TARGET is fixed for some domains. -/
def State.dmIdleWrite (s : State) (ini : Initiator) (d : Nat) (v : Word) : State :=
  if s.locked Pg.pwr then s.lockedErr ini Pg.pwr 0x104
  else if !domPresent s.variant d then s
  else
    let fixed : Bool := !hasRetention d || d == Dm.sec || d == Dm.drc || d == Dm.nmc
    let v := v &&& 0x8000FFFF
    s.setReg Pg.pwr d 0x104 (if fixed then setBit v 31 (bit (s.reg Pg.pwr d 0x104) 31) else v)

/-- The writes of the page that have an effect of their own, but for PWR_RESET; `good` as in XTAL_RETRY. -/
def State.pwrWrite (s : State) (ini : Initiator) (idx off : Nat) (v : Word) (good : Bool) : Option State :=
  match off with
  | 0x100 => some (s.dmCtrlWrite idx v)
  | 0x104 => some (s.dmIdleWrite ini idx v)
  | 0x80C => some (s.wakeSrcWrite v)
  | 0x81C => some (s.clkCfgWrite ini v good)
  | 0x824 => some (s.vcoreWrite ini v)
  | _ => none

end Sys2Proof.Machine
end

