-- ==== Sys2Proof/Machine/Reset.lean ====
section
/-! DEFINITION. Items that end or start by time or abort (R27, R35, R252), and the resets of the part (R395, R466,
R539, R556). -/

namespace Sys2Proof.Machine

/-! ### RING_ABORT (R35, R178, R221, R415) -/

/-- A TX item whose frame or acknowledgement wait an abort lets end (R221). -/
def State.txRunsOn (s : State) (j : TxJob) : Bool :=
  (s.txa.cur == some (TxKey.item j.item) && (s.txa.st == .rampUp || s.txa.st == .send || s.txa.st == .rampDown)) || j.ackWait.isSome

/-- LNK's part in an abort of items: frames on the air go on, the rest is dropped. -/
def State.lnkCancel (s : State) (p : Nat → Bool) : State :=
  let on := s.lnk.jobs.filter (fun j => p j.item && s.txRunsOn j)
  let s := s.jobsAborted (fun e => p e && !on.any (fun j => j.item == e)) Sc.abortedSw
  let s := s.setLnk (fun l => { l with
    jobs := l.jobs.map (fun j => if on.any (fun k => k.item == j.item) then { j with cancel := true } else j)
    wins := l.wins.filter (fun w => !p w.item) })
  let s := if s.lnk.wins.isEmpty then s.closeUse .rxwin else s
  if on.isEmpty then s
  else s.flm.ift.foldl (fun s i => if p i.id && i.unit == Pg.lnk && !on.any (fun j => j.item == i.id) then
    s.updItem i.id (fun i => { i with st := .fetched }) else s) s

/-- A write of FLM_WR_CTRL with ABORT: each unit stops the ring's items in its own way, then they complete. -/
def State.ringAbortWrite (s : State) (ring : Nat) : State :=
  let items := s.flm.ift.filter (fun i => i.ring == ring && i.st == .active)
  let mine := fun e => items.any (fun i => i.id == e)
  let s := ((s.setRing ring .aborting).lnkCancel mine).calAborted mine Sc.abortedSw
  let tx := s.eth.tx.map (fun x : EthTx => { x with cancel := x.cancel || mine x.item })
  let s : State := { s with eth := { s.eth with tx } }
  let s := s.nandCutItems ((items.filter (fun i => i.unit == Pg.nmc)).map (·.id))
  let s := s.abortActive (fun i => i.ring == ring) Sc.abortedSw
  let s := ((items.map (·.unit)).eraseDups).foldl (fun s u => s.unitStopped u items) s
  s.abortRest ring

/-- A write of FLM_WR_CTRL (R33, R35). -/
def State.wrCtrlWrite (s : State) (ini : Initiator) (v : Word) : State :=
  let ring := s.chsel Pg.flm ini
  let s := if bit v 0 then s.ringResume ring else s
  if bit v 1 then s.ringAbortWrite ring else s

/-- `RING_ABORT`. -/
def execRingAbort (ini : Initiator) (s : State) : Host.Outcome State Fault Refusal :=
  .next (s.pageWrite ini Pg.flm 0x118 2 (fun s => s.wrCtrlWrite ini 2))

/-! ### ITEM_FINISH (R27) -/

/-- `ITEM_FINISH`: an item whose unit has finished it moves to RETIRING; what waited for it goes on. -/
def execItemFinish (entry : Nat) (s : State) : Host.Outcome State Fault Refusal :=
  .next (match s.item entry with
    | some i =>
      if i.st = .active ∧ i.result.isSome then
        let s := s.retireWith entry Sc.done
        (if s.ringState i.ring = .aborting then s.abortRest i.ring else s).settle
      else s
    | none => s)

/-! ### LAUNCH_TIME_REACHED (R252) -/

/-- TIM has reached an item's launch time. -/
def State.launchCome (s : State) (i : Item) : Bool :=
  s.pastShort i.ns i.secLo || (i.secLo == s.tim.sec % 2 ^ 18 && i.ns == s.tim.ns)

/-- LNK's TX and WAKECODE items read the launch time as an instant on the air. -/
def Item.airTimed (i : Item) : Bool := i.unit == Pg.lnk && (i.opcode == 1 || i.opcode == 3)

/-- `LAUNCH_TIME_REACHED`: the unit may start the item; a window opens, and a NOP is done. -/
def execLaunchTimeReached (entry : Nat) (flips : List Flip) (s : State) : Host.Outcome State Fault Refusal :=
  let s := s.applyFlips flips
  .next (match s.item entry with
    | some i =>
      if i.st = .active ∧ i.timed ∧ !i.launched ∧ !i.airTimed ∧ s.launchCome i then
        let s := s.updItem entry (fun i => { i with launched := true })
        if i.opcode = 0 then s.finish entry { status := Sc.done }
        else if i.unit = Pg.lnk then s.rxwinOpens entry
        else s
      else s
    | none => s)

/-! ### Part reset (R32, R36, R395, R457, R465, R560) -/

/-- What a part reset cuts on the air is reported, and then every report that waits is lost and counted (R36). -/
def State.resetReports (s : State) (air : List Air) : State :=
  let s := (s.cutLanes (fun _ => true) air Sc.abortedReset 0 false).queueAborted Sc.abortedReset
  (s.storesLost (fun _ => true)).lnkEventsLost

/-- Every item that a unit holds completes; rings whose ABORT waited are emptied (R32, R560). -/
def State.resetItems (s : State) : State :=
  let s := ((s.calAborted (fun _ => true) Sc.abortedReset).ethCut Sc.abortedReset).jobsAborted (fun _ => true) Sc.abortedReset
  let live := fun (st : ItemState) (s : State) =>
    (s.flm.ift.filter (fun i => i.st == st)).foldl (fun s i => s.retireWith i.id Sc.abortedReset) s
  let s := live .fetched (live .active s)
  (List.range 64).foldl (fun s r => if s.ringState r = RingState.aborting then s.abortUnfetched r else s) s

/-- Registers that a part reset leaves: Flume's while PER stays powered, and what VBAT keeps of the RTC and the
counters of MRC (R471, R473, R494, R560). -/
def keptByReset (per : Bool) (k : Nat) : Bool :=
  (per && keyPage k == Pg.flm && outsideHeader k) ||
  (keyPage k == Pg.rtc && outsideHeader k) ||
  (keyPage k == Pg.mrc && [0, 1, 2, 3].any (fun n => keyOff k == cntVal n))

/-- The state after a part reset, items and reports apart; `per`: PER stays powered. DRK is reconstructed after it
(R314, R325). -/
def State.afterReset (s : State) (cause : Nat) (per : Bool) : State :=
  let s := if (s.dom Dm.drc).st = DState.off then s else s.drcOff
  let s := s.nmcOff.mrcReset
  let sec := s.sec
  let s := { s with
    regs := Sparse.keep (keptByReset per) s.regs, staged := [], claims := [], commits := []
    doms := [], clk := { refEn := some s.ticks, xtalOk := true }, replies := [], stalls := [], debugErr := false
    flm := if per then { s.flm with waiting := [], drains := [] } else {}
    drc := {}
    flc := { s.flc with unlocked := false, pwdHi := 0, pwdLo := 0, fails := 0, lockout := false, deferred := none, op := none }
    tim := {}, recv := {}, syn := { die := s.syn.die }, txa := {}, wrx := {}
    eth := { sent := s.eth.sent, error := s.eth.error }
    rtc := { s.rtc with onRc := false, freezes := [], times := [], dates := [] }
    per := { gpio := { ins := s.per.gpio.ins } }
    tag := { s.tag with dirty := [], posted := [], writes := [], secured := [] }
    sec := { otp := sec.otp, chal := sec.chal + 1 }
    pal := {}, lnk := {}, cas := { master := s.cas.master }, upd := { resumes := s.upd.resumes }
    cpus := if s.testmode ∨ s.inReset then [] else [(2, { st := .run, run := true, ran := true })]
    booted := false, resetDue := none }
  (s.setReg Pg.pwr 0 0x82C (word cause)).tagPageReset

/-- A part reset with its cause. -/
def State.partReset (s : State) (cause : Nat) (air : List Air) : State :=
  let per : Bool := (s.dom Dm.per).st != DState.off
  ((s.resetReports air).resetItems).afterReset cause per

/-- A medium operation runs that a reset waits for. -/
def State.resetWaits (s : State) : Bool := s.flc.op.isSome || !s.nmc.ops.isEmpty

/-- CAUSE of FLC_RSTINFO for a cause of PWR_RSTCAUSE. -/
def rstCause (cause : Nat) : Nat := match cause with | 3 => 1 | 2 => 2 | _ => 3

/-- A part reset is requested: at once, or deferred, with the cores' clocks stopped (R395). The first request counts. -/
def State.requestReset (s : State) (cause : Nat) (air : List Air) : State :=
  if s.resetDue.isSome then s
  else if s.resetWaits then
    { s with resetDue := some cause, flc := { s.flc with deferred := if s.flc.op.isSome then some (rstCause cause) else none } }
  else s.partReset cause air

/-- A write of PWR_RESET (R466). -/
def State.resetWrite (s : State) (ini : Initiator) (v : Word) (air : List Air) : State :=
  if bits v 15 8 ≠ 0xD1 then s.raise Pg.pwr ini 0x828 0 Err.badKey
  else if bit v 0 then s.requestReset 4 air
  else s

/-- `SOFTWARE_PART_RESET`. -/
def execSoftwarePartReset (ini : Initiator) (value : Word) (air : List Air) (s : State) : Host.Outcome State Fault Refusal :=
  .next (s.pageWrite ini Pg.pwr 0x828 value (fun s => s.resetWrite ini value air))

/-- `RESET_N`: low for 1 µs or more; the straps are sampled as it rises (R539). -/
def execResetN (master testmode : Bool) (air : List Air) (s : State) : Host.Outcome State Fault Refusal :=
  .next ({ s with testmode, cas := { s.cas with master } }.requestReset 2 air)

/-- `WATCHDOG_EXPIRE`. -/
def execWatchdogExpire (air : List Air) (s : State) : Host.Outcome State Fault Refusal := .next (s.requestReset 3 air)

/-- `DEFERRED_RESET_APPLY`: no operation that it waited for runs any more. -/
def execDeferredResetApply (air : List Air) (s : State) : Host.Outcome State Fault Refusal :=
  .next (match s.resetDue with
    | some c => if s.resetWaits then s else s.partReset c air
    | none => s)

/-! ### Supply (R396, R405, R471, R556) -/

/-- Nothing but AON is powered: operations of the media are cut, and every SRAM bank loses its contents. -/
def State.supplyFails (s : State) : State :=
  let s := s.flashCut.nmcOff
  (List.range 16).foldl (fun s b => s.loseRegion b) s

/-- `BROWN_OUT`: the part resets at once, and stays in reset. -/
def execBrownOut (s : State) : Host.Outcome State Fault Refusal :=
  .next ({ s.supplyFails with inReset := true }.afterReset 5 false)

/-- What VBAT keeps is lost: the RTC, the counters of MRC, AON SRAM and FLC_RSTINFO. -/
def State.vbatLost (s : State) : State :=
  let s := s.loseRegion 20
  { s with rtc := {}, upd := {}, flc := { s.flc with rstinfo := 0 }
           regs := Sparse.keep (fun k => keyPage k != Pg.rtc && keyPage k != Pg.mrc) s.regs }

/-- `POWER_ON`: a power-up, or the end of a brown-out; the straps are sampled, the VIO banks sense their voltages, and C0
starts. -/
def execPowerOn (lost master testmode : Bool) (vio : List (VioBank × VioLevel)) (s : State) : Host.Outcome State Fault Refusal :=
  .next (
    if lost then
      ({ s.supplyFails with inReset := false, testmode, vio, cas := { s.cas with master } }.afterReset 1 false).vbatLost
    else if s.inReset then
      { s with inReset := false, testmode, vio, cas := { s.cas with master }
               cpus := if testmode then [] else [(2, { st := .run, run := true, ran := true })] }
    else s)

end Sys2Proof.Machine
end

