-- ==== Sys2Proof/Machine/Update.lean ====
section
/-! DEFINITION. Verified boot and field update: images, the UPD items, and the Primer's install, checks and recovery
service (R325 to R329, R495 to R516). -/

namespace Sys2Proof.Machine

open Crypto

def State.setUpd (s : State) (f : Upd → Upd) : State := { s with upd := f s.upd }

/-! ### Components and headers (R495 to R500) -/

/-- The installed slot of a component, its capacity, and its first sector. -/
def slotBase (c : Nat) : Nat := [0x08030000, 0x08070000, 0x08010000, 0x08020000].getD c 0
def slotCap (c : Nat) : Nat := [0x40000, 0x180000, 0x10000, 0x10000].getD c 0
/-- The installed header, and in the Sketch the staged header and the data area, by their bank 1 addresses. -/
def headerAt (c : Nat) : Nat := 0x08006000 + 0x1000 * c
def stagedAt (c : Nat) : Nat := 0x08200000 + 0x1000 * c
def sketchAt (c : Nat) : Nat := slotBase c + 0x200000

abbrev Header := List Byte
namespace Header
def word (h : Header) (k : Nat) : Word := leWord h k
def format (h : Header) : Nat := (h.word 0).toNat
def comp (h : Header) : Nat := (h.word 8).toNat
def version (h : Header) : Nat := (h.word 12).toNat
def rollback (h : Header) : Nat := (h.word 16).toNat
def size (h : Header) : Nat := (h.word 20).toNat
def entry0 (h : Header) : Nat := (h.word 24).toNat
def entry1 (h : Header) : Nat := (h.word 28).toNat
def bind (h : Header) : List Byte := cut h 32 32
def digest (h : Header) : List Byte := cut h 64 32
def min (h : Header) (k : Nat) : Nat := (h.word (96 + 8 * k)).toNat
def max (h : Header) (k : Nat) : Nat := (h.word (100 + 8 * k)).toNat
def table (h : Header) (j : Nat) : List Byte := cut h (128 + 32 * j) 32
def key (h : Header) : List Byte := cut h 256 64
def signature (h : Header) : List Byte := cut h 448 64
/-- Data chunks and table chunks (R498). -/
def chunks (h : Header) : Nat := (h.size + 4095) / 4096
def tables (h : Header) : Nat := (h.chunks + 127) / 128
end Header

def allZero (bs : List Byte) : Bool := bs.all (· == 0)

/-- The format check (R499, reason 2). -/
def Header.formatGood (h : Header) : Bool :=
  let c := h.comp
  let small := fun (e al : Nat) => decide (e < h.size) && e % al == 0
  h.length == 512 && h.format == 1 && decide (c ≤ 3) && decide (1 ≤ h.size) && decide (h.size ≤ slotCap c) &&
  (match c with
   | 0 => small h.entry0 4 && h.entry1 == 0
   | 1 => small h.entry0 2 && small h.entry1 2
   | _ => h.entry0 == 0 && h.entry1 == 0) &&
  (List.range 4).all (fun j => decide (j < h.tables) || allZero (h.table j)) &&
  allZero (cut h (96 + 8 * c) 8) && allZero (cut h 320 128)

/-- Check 3 of R326. -/
def State.hwMatches (s : State) (h : Header) : Bool :=
  if s.sec.otp.life = 3 then h.word 4 == s.hwtype else bits (h.word 4) 31 16 == Config.part.toNat

/-- Check 4. -/
def State.bindMatches (s : State) (h : Header) : Bool := allZero h.bind || h.bind == s.sec.otp.unitid

/-- Check 5. -/
def State.keyTrusted (s : State) (h : Header) : Bool :=
  let o := s.sec.otp
  if o.life = 3 then (List.range 4).any (fun n => o.unrevoked n && o.owner n == sha256 h.key)
  else h.key == varadeKey 1 || (!o.vr0Revoked && h.key == varadeKey 0)

/-- Check 8. -/
def Header.signed (h : Header) : Bool := ecdsaVerify h.key (sha256 (h.take 448)) h.signature

/-- Checks 2 to 6 of R326: the first that fails. The header is one of component `c`. -/
def State.headerFault (s : State) (h : Header) (c : Nat) : Option Nat :=
  if !h.formatGood ∨ h.comp ≠ c then some 2
  else if !s.hwMatches h then some 3
  else if !s.bindMatches h then some 4
  else if !s.keyTrusted h then some 5
  else if h.rollback < s.sec.otp.counter c then some 6
  else none

/-- Checks 7 and 8, with the component's octets where they can be read. -/
def Header.bodyFault (h : Header) (data : Option (List Byte)) : Option Nat :=
  if data.map sha256 ≠ some h.digest then some 7 else if !h.signed then some 8 else none

/-- A component whose version and header are at hand. -/
structure Ver where
  comp : Nat
  version : Nat
  header : Header

/-- The first component whose range for another fails; `none` where the set is compatible (R500). -/
def incompatible (vs : List Ver) : Option Nat :=
  (vs.find? (fun a => vs.any (fun b => b.comp != a.comp &&
    (decide (b.version < a.header.min b.comp) || decide (a.header.max b.comp < b.version))))).map (·.comp)

/-! ### What flash holds -/

/-- Octets of internal flash; `none` where a word is uncorrectable. -/
def State.flashOctets (s : State) (a n : Nat) : Option (List Byte) :=
  if (List.range ((n + 7) / 8)).any (fun k => match s.flashErr (a - 0x08000000 + 8 * k) with | .good => false | .single _ => false | _ => true)
  then none
  else some ((List.range n).map (fun k => s.octet (a + k)))

/-- The installed header of a component. -/
def State.installed (s : State) (c : Nat) : Header := (s.flashOctets (headerAt c) 512).getD []

/-- A record of the Sketch directory (R506). -/
structure DirRec where
  seq : Nat
  mask : Nat
  nand : Bool
  versions : List Nat

/-- The valid records of the directory. -/
def State.directory (s : State) : List DirRec :=
  (List.range 128).filterMap (fun k =>
    match s.flashOctets (0x08002000 + 64 * k) 64 with
    | some r =>
      if leWord r 0 = 1 ∧ cut r 32 32 = sha256 (r.take 32) then
        some { seq := (leWord r 4).toNat, mask := bits (leWord r 8) 3 0, nand := bit (leWord r 8) 8
               versions := (List.range 4).map (fun c => (leWord r (16 + 4 * c)).toNat) }
      else none
    | none => none)

/-- The highest SEQ of a valid record. -/
def State.highestSeq (s : State) : Nat := s.directory.foldl (fun a r => max a r.seq) 0

/-- The record in force. -/
def State.inForce (s : State) : Option DirRec := s.directory.find? (fun r => r.seq == s.highestSeq)

/-- The octets of a record. -/
def dirOctets (seq mask : Nat) (nand : Bool) (versions : List Nat) : List Byte :=
  let r := bytesLE 4 1 ++ bytesLE 4 seq ++ bytesLE 4 (mask % 16 + nand.toNat * 256) ++ bytesLE 4 0 ++ versions.flatMap (bytesLE 4)
  r ++ sha256 r

/-! ### The UPD items (R503 to R507) -/

def State.updSess (s : State) (k : Nat) : Option UpdSess := Sparse.get none s.upd.sess k

def State.setUpdSess (s : State) (k : Nat) (x : UpdSess) : State :=
  s.setUpd (fun u => { u with sess := Sparse.set none u.sess k (some x) })

/-- Every chunk of a session has been accepted. -/
def UpdSess.complete (x : UpdSess) : Bool :=
  let h : Header := x.header
  x.tables.length == h.tables && x.chunks.length == h.chunks

/-- The UPD item whose turn it is: one at a time in fetch order. -/
def State.updTurn (s : State) (op entry : Nat) : Option Item :=
  match s.activeItem Pg.upd op entry with
  | some i =>
    if s.ready Dm.per ∧ s.fetchTurn i then some i
    else none
  | none => none

/-- An item fails a check, with its reason in WB_DATA. -/
def State.updFail (s : State) (i : Item) (reason status : Nat) : State := s.finish i.id { status, wb := reason % 256 }

/-- A UPD item reads memory. -/
def State.updIn (s : State) (i : Item) (a n : Nat) (k : State → List Byte → State) : State :=
  match s.unitRead a n with
  | (s, .waits) => s
  | (s, .refused) => s.finish i.id { status := Sc.channelFailed }
  | (s, .ok bs _) =>
    match knownBytes bs with
    | none => s.finish i.id { status := Sc.mediaUncorrectable }
    | some bs => k s bs

/-- The checks of OPEN, in order (R504). -/
def State.openFault (s : State) (h : Header) (sess : Nat) : Option (Nat × Nat) :=
  let relay : Bool := decide (4 ≤ sess)
  if !h.formatGood ∨ (!relay ∧ h.comp ≠ sess) then some (2, Sc.internal)
  else if !relay ∧ !s.hwMatches h then some (3, Sc.internal)
  else if !relay ∧ !s.bindMatches h then some (4, Sc.authFail)
  else if !s.keyTrusted h then some (5, Sc.authFail)
  else if !relay ∧ h.rollback < s.sec.otp.counter h.comp then some (6, Sc.internal)
  else if !h.signed then some (8, Sc.authFail)
  else none

/-- `OPEN`. A LENGTH other than that of a header is no header, and fails check 1. -/
def execUpdOpen (entry : Nat) (flips : List Flip) (s : State) : Host.Outcome State Fault Refusal :=
  let s := s.applyFlips flips
  .next (match s.updTurn 1 entry with
    | none => s
    | some i =>
      if i.length ≠ 512 then s.updFail i 2 Sc.internal
      else s.updIn i i.addrA 512 (fun s h =>
        match s.openFault h (i.uparam % 8) with
        | some (r, st) => s.updFail i r st
        | none => (s.setUpdSess (i.uparam % 8) { header := h }).finish i.id { status := Sc.done, actual := 512 }))

/-- A CHUNK is refused, or accepted: counted. -/
def State.chunkFail (s : State) (i : Item) (reason status : Nat) : State := (s.count Pg.upd 0 0x81C 31 16 1).updFail i reason status
def State.chunkDone (s : State) (i : Item) (x : UpdSess) : State :=
  ((s.count Pg.upd 0 0x81C 15 0 1).setUpdSess (i.uparam % 8) x).finish i.id { status := Sc.done, actual := i.length }

/-- A number joins a list once. -/
def addOnce (k : Nat) (l : List Nat) : List Nat := if l.contains k then l else l ++ [k]

/-- `CHUNK` (R505). -/
def execUpdChunk (entry : Nat) (flips : List Flip) (s : State) : Host.Outcome State Fault Refusal :=
  let s := s.applyFlips flips
  .next (match s.updTurn 2 entry with
    | none => s
    | some i =>
      match s.updSess (i.uparam % 8) with
      | none => s.chunkFail i 0x20 Sc.internal
      | some x =>
        let h : Header := x.header
        let n := h.chunks
        if bit (i.w 0) 0 then
          let j := i.addrB % 4
          if h.tables ≤ j ∨ i.length ≠ 4096 then s.chunkFail i 0x21 Sc.internal
          else s.updIn i i.addrA 4096 (fun s bs =>
            if sha256 bs ≠ h.table j then s.chunkFail i 7 Sc.authFail
            else s.chunkDone i { x with tables := addOnce j x.tables })
        else
          let k := i.addrB % 512
          let size := if k + 1 = n then h.size - 4096 * (n - 1) else 4096
          if n ≤ k ∨ i.length ≠ size then s.chunkFail i 0x21 Sc.internal
          else s.updIn i (i.addrB / 4096 * 4096) 4096 (fun s t =>
            if sha256 t ≠ h.table (k / 128) then s.chunkFail i 7 Sc.authFail
            else s.updIn i i.addrA size (fun s bs =>
              if sha256 bs ≠ cut t (32 * (k % 128)) 32 then s.chunkFail i 7 Sc.authFail
              else s.chunkDone i { x with chunks := addOnce k x.chunks })))

/-- The set that a record for `mask` would leave: staged versions for the named components, UPD_VER for the rest. -/
def State.armSet (s : State) (mask : Nat) : List Ver :=
  (List.range 4).map (fun c =>
    if mask.testBit c then
      let h : Header := ((s.updSess c).map (·.header)).getD []
      { comp := c, version := h.version, header := h }
    else { comp := c, version := (s.reg Pg.upd 0 (0x808 + 4 * c)).toNat, header := s.installed c })

/-- `ARM` (R506). Region 0 is read for the directory and the installed headers. -/
def execUpdArm (entry : Nat) (flips : List Flip) (s : State) : Host.Outcome State Fault Refusal :=
  let s := s.applyFlips flips
  .next (match s.updTurn 3 entry with
    | none => s
    | some i =>
      let mask := i.uparam % 16
      let named := (List.range 4).filter (fun c => mask.testBit c)
      let nand := bit (i.w 0) 0
      if mask = 0 ∨ i.length ≠ 64 then s.updFail i 0x21 Sc.internal
      else if named.any (fun c => !(s.updSess c).any (·.complete)) then s.updFail i 0x22 Sc.internal
      else if nand ∧ !pagePresentNmc s.variant then s.updFail i 0x21 Sc.internal
      else match s.rangeStatus 0x08002000 0x8000 with
        | .stall d => s.wake d
        | .ready =>
          let vs := s.armSet mask
          if (incompatible vs).isSome then s.updFail i 9 Sc.internal
          else
            let r := dirOctets (s.highestSeq + 1) mask nand (vs.map (fun v => if mask.testBit v.comp then v.version else 0))
            match s.unitWrite i.addrB r with
            | (s, .waits) => s
            | (s, .refused) => s.finish i.id { status := Sc.channelFailed }
            | (s, .ok _ _) => s.finish i.id { status := Sc.done, actual := 64 }
        | _ => s.finish i.id { status := Sc.channelFailed })

/-- UPD_SESS. -/
def State.updRead (s : State) (off : Nat) : Option Word :=
  if off = 0x818 then
    let m := fun (p : UpdSess → Bool) => ((List.range 8).map (fun k => if (s.updSess k).any p then 2 ^ k else 0)).sum
    some (word (m (·.complete) * 0x100 + m (fun _ => true)))
  else none

/-! ### The Sketch (R497, R510) -/

/-- The boot parameter block in force: its words, where a copy is valid. Its values follow one another as words in the
order in which R510 lists them. -/
def State.bootBlock (s : State) : Option (List Word) :=
  let copy := fun a =>
    match s.flashOctets a 88 with
    | some b => if (leWord b 84).toNat = crc32 0xFFFFFFFF (b.take 84) ^^^ 0xFFFFFFFF then some (wordsOfBytes 21 b) else none
    | none => none
  match copy 0x08004000, copy 0x08005000 with
  | some a, some b => if (a.getD 20 0).toNat < (b.getD 20 0).toNat then some b else some a
  | some a, none => some a
  | none, b => b

/-- A domain is brought up from OFF by the Primer. -/
def State.primerDomain (s : State) (d : Nat) : State :=
  if s.domOn d then s
  else ((s.setDom d { s.dom d with st := .on, phase := .none, idle := 0, epoch := (s.dom d).epoch + 1 }).count Pg.pwr d 0x10C 31 16 1).domChg d

/-- DRC and NMC come up with the values of the boot parameter block, both channels train, and the store is mounted. -/
def State.primerStore (s : State) (b : List Word) : State :=
  let g := fun k => b.getD k 0
  let s := ((s.primerDomain Dm.drc).primerDomain Dm.nmc).setClk (fun c => { c with dramLock := true })
  let s := (List.range 4).foldl (fun s r => s.setReg Pg.drc r Dc.rkCfg (g r)) s
  let s := (((s.setReg Pg.drc 0 Dc.speed (g 4)).setReg Pg.drc 0 Dc.map (g 5)).drcSwitched).bumpGen Pg.drc
  let s := (List.range 4).foldl (fun s r =>
    if bit (s.reg Pg.drc r Dc.rkCfg) 31 then
      let (v, s) := s.fresh
      s.setReg Pg.drc r Dc.rkTrain (setBit (v &&& 0x40FFFFFF) 31 true)
    else s) s
  let s := [0, 1].foldl (fun s c => s.setCh c Chn.online 0) s
  let s := (List.range 4).foldl (fun s t => (s.setReg Pg.nmc t 0x100 (g (6 + t))).setReg Pg.nmc t 0x104 (g (10 + t))) s
  let s := [(0x800, 14), (0x818, 15), (0x81C, 16), (0x824, 17), (0x828, 18)].foldl (fun s p => s.setReg Pg.nmc 0 p.1 (g p.2)) s
  ((s.bumpGen Pg.nmc).identify []).mounted

/-- Octets of the Sketch by their bank 1 address: of flash, or of the store from `lpn` on; sectors in `lost` cannot be
read. -/
def State.sketchOctets (s : State) (lpn : Option Nat) (lost : List Nat) (a n : Nat) : Option (List Byte) :=
  match lpn with
  | none => s.flashOctets a n
  | some l =>
    let page := fun k => l + (k - 0x08200000) / 4096
    let bad := fun k => lost.contains ((k - 0x08200000) / 4096) ||
      s.nmc.pages.any (fun e => e.1 == page k && e.2.poisoned)
    if (List.range ((n + 4095) / 4096)).any (fun k => bad (a + 4096 * k)) then none
    else some ((List.range n).map (fun k =>
      match s.nmc.pages.find? (fun e => e.1 == page (a + k)) with
      | some e => e.2.data.getD ((a + k) % 4096) 0xFF
      | none => 0xFF))

/-! ### The install (R511 to R514) -/

/-- An install that runs: the flash writes left before it is cut, whether it was, and whether a write failed. -/
structure Install where
  s : State
  left : Option Nat
  cut : Bool := false
  failed : Option Nat := none
  bad : List Nat

/-- Nothing more happens. -/
def Install.ended (p : Install) : Bool := p.cut || p.failed.isSome

/-- One write of the medium. -/
def Install.act (p : Install) (f : Install → Install) : Install :=
  if p.ended then p
  else match p.left with
    | some 0 => { p with cut := true }
    | some (n + 1) => f { p with left := some n }
    | none => f p

/-- A sector is erased; one that fails goes to a spare while its bank has one (R390). -/
def Install.erase (p : Install) (sec : Nat) : Install :=
  p.act (fun p =>
    let o : FlashOp := { kind := .erase, item := none, pos := sec * 0x1000, stop := sec * 0x1000 + 0x1000 }
    if p.bad.contains sec then
      match p.s.retireSector sec o with
      | (s, _, true) => { p with s := s.blankSector sec, bad := p.bad.erase sec }
      | (s, _, false) => { p with s, failed := some 12 }
    else { p with s := p.s.erased o })

/-- Octets are programmed into erased flash. -/
def Install.program (p : Install) (a : Nat) (bs : List Byte) : Install :=
  p.act (fun p => { p with s := (bs.zipIdx).foldl (fun s (b, k) => (s.setOctet (a + k) b).setFlashErr (a + k - 0x08000000) .good) (p.s.cacheDrop a bs.length) })

/-- A word of the journal (R513). -/
structure JRec where
  type : Nat
  comp : Nat := 0
  sector : Nat := 0
  value : Nat := 0
  deriving DecidableEq

def JRec.octets (r : JRec) : List Byte :=
  bytesLE 8 (r.type * 2 ^ 56 + r.comp % 256 * 2 ^ 48 + r.sector % 65536 * 2 ^ 32 + r.value % 2 ^ 32)

/-- The words of a journal sector up to the one that ends it. -/
def State.journal (s : State) (sec : Nat) : List JRec :=
  ((List.range 512).map (fun k =>
    match s.flashOctets (0x08000000 + sec * 0x1000 + 8 * k) 8 with
    | some b =>
      let w := natOfBytesLE b
      let t := w / 2 ^ 56
      if 1 ≤ t ∧ t ≤ 5 then
        some ({ type := t, comp := w / 2 ^ 48 % 256, sector := w / 2 ^ 32 % 65536, value := w % 2 ^ 32 } : JRec)
      else none
    | none => none)).takeWhile (·.isSome) |>.filterMap id

/-- The journal of the install with sequence `seq`: empty where its BEGIN does not name it. -/
def State.journalOf (s : State) (seq : Nat) : List JRec :=
  let j := s.journal (seq % 2)
  match j.head? with
  | some r => if r.type = 1 ∧ r.value = seq % 2 ^ 32 then j else []
  | none => []

/-- A record joins the journal of `seq`. -/
def Install.log (p : Install) (seq : Nat) (r : JRec) : Install :=
  p.program (0x08000000 + seq % 2 * 0x1000 + 8 * (p.s.journal (seq % 2)).length) r.octets

/-- The first check of R511 that fails after the first, with its component. -/
def State.armFault (s : State) (r : DirRec) (lpn : Option Nat) (lost : List Nat) : Option (Nat × Nat) :=
  let named := (List.range 4).filter (fun c => r.mask.testBit c)
  let prot := fun (a n : Nat) => (s.protectedRegion (a - 0x08000000) n).isSome
  if prot 0x08000000 0x10000 then some (0xF, 10)
  else match named.find? (fun c => prot (slotBase c) (slotCap c)) with
  | some c => some (c, 10)
  | none =>
    let staged := fun c => s.sketchOctets lpn lost (stagedAt c) 512
    let fault := fun c =>
      match staged c with
      | none => some 11
      | some h =>
        match s.headerFault h c with
        | some f => some f
        | none =>
          if !Header.signed h then some 8
          else match s.sketchOctets lpn lost (sketchAt c) (Header.size h) with
            | none => some 11
            | some d => if sha256 d = Header.digest h then none else some 7
    match named.findSome? (fun c => (fault c).map (fun f => (c, f))) with
    | some f => some f
    | none =>
      let head := fun c => (staged c).getD []
      match named.find? (fun c => (Header.version (head c)) != r.versions.getD c 0) with
      | some c => some (c, 2)
      | none =>
        let vs := (List.range 4).map (fun c =>
          let h : Header := if r.mask.testBit c then head c else s.installed c
          ({ comp := c, version := h.version, header := h } : Ver))
        (incompatible vs).map (fun c => (c, 9))

/-- The component that is installed next (R512). -/
def nextComp (new old : Nat → Ver) (done left : List Nat) : Option Nat :=
  match left.find? (fun c => (incompatible ((List.range 4).map (fun k => if done.contains k || k == c then new k else old k))).isNone) with
  | some c => some c
  | none => left.head?

/-- The order of the components. -/
def compOrder (new old : Nat → Ver) : Nat → List Nat → List Nat → List Nat
  | 0, _, _ => []
  | n + 1, done, left =>
    match nextComp new old done left with
    | some c => c :: compOrder new old n (c :: done) (left.filter (· != c))
    | none => []

/-- A sector of a slot is copied: erased, programmed from the Sketch, and recorded. -/
def Install.sector (p : Install) (seq c k : Nat) (size : Nat) (lpn : Option Nat) (lost : List Nat) : Install :=
  let p := p.erase (slotBase c / 0x1000 % 1024 + k)
  match p.s.sketchOctets lpn lost (sketchAt c + 4096 * k) (min 4096 (size - 4096 * k)) with
  | none => if p.ended then p else { p with failed := some 11 }
  | some bs => (p.program (slotBase c + 4096 * k) bs).log seq { type := 3, comp := c, sector := k }

/-- A component is installed, from where the journal left it. -/
def Install.component (p : Install) (seq : Nat) (jr : List JRec) (c : Nat) (h : Header) (lpn : Option Nat) (lost : List Nat) : Install :=
  if jr.any (fun r => r.type == 4 && r.comp == c) then p
  else
    let p := if jr.any (fun r => r.type == 2 && r.comp == c) then p else p.log seq { type := 2, comp := c, value := h.version }
    let done := fun k => jr.any (fun r => r.type == 3 && r.comp == c && r.sector == k)
    let p := ((List.range h.chunks).filter (fun k => !done k)).foldl (fun p k => p.sector seq c k h.size lpn lost) p
    let p := (p.erase (6 + c)).program (headerAt c) h
    p.log seq { type := 4, comp := c, value := h.version }

/-- What a start reports of the install: RESULT, COMP, REASON, RESUMES and DONE of UPD_INSTRPT. -/
structure InstRpt where
  result : Nat := 0
  comp : Nat := 0xF
  reason : Nat := 0
  resumes : Nat := 0
  done : Nat := 0

/-- Step 6: a record with MASK 0 joins the directory, in the first erased place. -/
def Install.disarm (p : Install) : Install :=
  match (List.range 128).find? (fun k => (List.range 8).all (fun j => p.s.wordErased (0x2000 + 64 * k + 8 * j))) with
  | some k => p.program (0x08002000 + 64 * k) (dirOctets (p.s.highestSeq + 1) 0 false [0, 0, 0, 0])
  | none => p

/-- Step 2 of R325: the install that an armed record asks for. -/
def State.primerInstall (s : State) (cut : Option Nat) (bad : List Nat) (readable : Bool) (lost : List Nat) : Install × InstRpt :=
  let none_ : Install := { s, left := cut, bad }
  match s.inForce with
  | none => (none_, {})
  | some r =>
    let jr := s.journalOf r.seq
    if r.mask = 0 then (none_, {})
    else match jr.find? (fun x => x.type == 5) with
    | some e =>
      if e.value = 1 then (none_.disarm, { result := 2, resumes := s.upd.resumes, done := r.mask }) else (none_, {})
    | none =>
      let block := s.bootBlock
      let ok : Bool := !r.nand || (pagePresentNmc s.variant && readable && block.isSome)
      if !ok then (none_, { result := 3, reason := 11 })
      else
        let s := match r.nand, block with | true, some b => s.primerStore b | _, _ => s
        let lpn := if r.nand then some ((block.getD []).getD 19 0).toNat else none
        match s.armFault r lpn lost with
        | some (c, f) => ({ s, left := cut, bad }, { result := 3, comp := c, reason := f })
        | none =>
          let head := fun c => (s.sketchOctets lpn lost (stagedAt c) 512).getD []
          let new := fun c => ({ comp := c, version := (Header.version (head c)), header := head c } : Ver)
          let old := fun c => ({ comp := c, version := (s.installed c).version, header := s.installed c } : Ver)
          let named := (List.range 4).filter (fun c => r.mask.testBit c)
          let resumed := !jr.isEmpty
          let n := if resumed then satInc 8 s.upd.resumes else 0
          let s := s.setUpd (fun u => { u with resumes := n })
          let p : Install := { s, left := cut, bad }
          let p := if resumed then p else (p.erase (r.seq % 2)).log r.seq { type := 1, value := r.seq }
          -- components already done keep their place: they count as new
          let was := (jr.filter (fun x => x.type == 4)).map (·.comp)
          let begun := (jr.filter (fun x => x.type == 2)).map (·.comp)
          let order := begun ++ compOrder new old 4 begun (named.filter (fun c => !begun.contains c))
          let p := order.foldl (fun p c => if p.ended then p else
            let p' := p.component r.seq jr c (head c) lpn lost
            match p'.failed with | some _ => { p' with bad := c :: p'.bad } | none => p') p
          let rpt : InstRpt := { result := if resumed then 2 else 1, resumes := n }
          let doneMask := fun (p : Install) =>
            ((List.range 4).map (fun c => if was.contains c || (p.s.journalOf r.seq).any (fun x => x.type == 4 && x.comp == c) then 2 ^ c else 0)).sum
          match p.failed with
          | some f =>
            let c := p.bad.headD 0xF
            let p := { p with failed := none }.log r.seq { type := 5, value := 0 }
            (p, { rpt with result := 4, comp := c, reason := f, done := doneMask p })
          | none =>
            let p := (p.log r.seq { type := 5, value := 1 }).disarm
            (p, { rpt with done := doneMask p })

/-! ### Verified boot (R325 to R329, R515) -/

/-- Check 1 of R326: an installed header can be read and is not blank. -/
def State.present (s : State) (c : Nat) : Bool :=
  match s.flashOctets (headerAt c) 512 with
  | some h => !h.all (· == 0xFF)
  | none => false

/-- The first check that an installed component fails. -/
def State.compFault (s : State) (c : Nat) : Option Nat :=
  if !s.present c then some 1
  else
    let h := s.installed c
    match s.headerFault h c with
    | some f => some f
    | none => h.bodyFault (s.flashOctets (slotBase c) h.size)

/-- The first component that fails, and why: its own checks, then the compatibility of the set. -/
def State.bootFault (s : State) : Option (Nat × Nat) :=
  match (List.range 4).findSome? (fun c => (s.compFault c).map (fun f => (c, f))) with
  | some f => some f
  | none =>
    (incompatible ((List.range 4).map (fun c => ({ comp := c, version := (s.installed c).version, header := s.installed c } : Ver)))).map
      (fun c => (c, 9))

/-- MEAS over the components that pass, in order, up to the first that fails its own checks (R329). -/
def State.bootMeas (s : State) : List Byte :=
  ((List.range 4).takeWhile (fun c => (s.compFault c).isNone)).foldl (fun m c =>
    let h := s.installed c
    measExtend m c (cut h 12 4) h.digest) s.sec.meas

/-- Rings 62 and 63 of the recovery service (R516), and the host's access. -/
def State.recoveryRing (s : State) (ring unit base tail : Nat) : State :=
  let s := (s.setReg Pg.flm ring Fl.wrBase (word base)).setReg Pg.flm ring Fl.trBase (word tail)
  let s := s.setReg Pg.flm ring Fl.wrCredit (word (16 * 0x10000 + 4))
  let s := (s.setReg Pg.flm ring Fl.trCfg 0x80000004).setReg Pg.flm ring Fl.wrCfg
    (word (0x80000000 + ring * 0x1000000 + unit * 0x10000 + Initiator.host.id * 0x1000 + 4))
  [Fl.wrProd, Fl.wrCons, Fl.trProd, Fl.trCons].foldl (fun s o => s.setReg Pg.flm ring o 0) (s.setRing ring .idle)

def State.recovery (s : State) : State :=
  let s := (s.recoveryRing 62 Pg.upd 0x10000000 0x10001000).recoveryRing 63 Pg.flc 0x10000200 0x10001200
  let s := s.setField Pg.hspi 0 0x800 31 31 1
  s.setCpu .c0 { s.cpu .c0 with st := .wfi }

/-- What the Primer leaves in C0's registers: no rule says. -/
def State.primerLeaves (s : State) : State :=
  let (p, s) := (List.range 8).foldl (fun (a : List Word × State) _ => let (v, s) := a.2.fresh; (a.1 ++ [v], s)) ([], s)
  let (sp, s) := s.fresh
  let (fl, s) := s.fresh
  s.setCpu .c0 { s.cpu .c0 with p, sp, sw := fl &&& 0xF }

/-- Step 4 of R325, after the anti-rollback counters (R328). -/
def State.startAll (s : State) : State :=
  let s := (List.range 4).foldl (fun s c =>
    s.setOtp (fun o => { o with rollback := Sparse.set 0 o.rollback c (max (o.counter c) (min 64 (s.installed c).rollback)) })) s
  let s := s.setSec (fun x => { x with
    result := 1, comp := 0xF, reason := 0, root := sha256 (s.installed 0).key
    versions := (List.range 4).foldl (fun m c => Sparse.set 0 m c (word (s.installed c).version)) [] })
  let s := s.event Pg.sec 0
  let run := fun (s : State) (c : Core) (a : Nat) => (s.setReg (cpuPage c) 0 0x804 (word a)).runCore c
  let link := slotBase 0 + (s.installed 0).entry0
  let s := run (run (run s .l0 link) .l1 link) .c1 (slotBase 1 + (s.installed 1).entry1)
  let s := s.primerLeaves
  s.setCpu .c0 { s.cpu .c0 with pc := word (slotBase 1 + (s.installed 1).entry0) }

/-- UPD_BOOTRPT, UPD_INSTRPT and UPD_VER (R502, R515); FLC_RSTINFO is consumed. -/
def State.primerReports (s : State) (r : InstRpt) : State :=
  let i := s.flc.rstinfo
  let s := s.setReg Pg.upd 0 0x800 (word (0x80000000 + bits i 31 30 * 0x20000000 + s.fieldOf Pg.pwr 0 0x82C 3 0 * 0x1000000 +
    bits i 23 16 * 0x10000 + bits i 29 28 * 0x1000 + bits i 9 0))
  let s := { s with flc := { s.flc with rstinfo := 0 } }
  let s := s.setReg Pg.upd 0 0x804 (word (r.result * 0x10000000 + r.comp * 0x1000000 + r.reason * 0x10000 + r.resumes * 0x100 + r.done))
  let s := (List.range 4).foldl (fun s c => s.setReg Pg.upd 0 (0x808 + 4 * c) (word (s.installed c).version)) s
  if r.result = 1 ∨ r.result = 2 then (s.event Pg.upd 0).setSec (fun x => { x with installed := true })
  else if r.result = 3 ∨ r.result = 4 then s.event Pg.upd 1
  else s

/-- `PRIMER_BOOT`: the Primer's run after a part reset. -/
def execPrimerBoot (cut : Option Nat) (bad : List Nat) (readable : Bool) (lost : List Nat) (s : State) : Host.Outcome State Fault Refusal :=
  .next (
    if s.booted ∨ s.testmode ∨ !s.coreRuns .c0 then s
    else
      let (p, r) := s.primerInstall cut bad readable lost
      if p.cut then p.s
      else
        let s := { p.s.primerReports r with booted := true }
        let s := s.setSec (fun x => { x with meas := s.bootMeas })
        match s.bootFault with
        | some (c, f) => ((s.setSec (fun x => { x with result := 2, comp := c, reason := f })).event Pg.sec 0).recovery
        | none => s.startAll)

end Sys2Proof.Machine
end

