-- ==== Sys2Proof/Machine/Bus.lean ====
section
/-! DEFINITION. The fabric (R38, R39): what a read and a write of any address do, by the register's own page, and the
commands that are accesses to the common header or to a register without a row of its own. -/

namespace Sys2Proof.Machine

/-! ### The header (R45 to R69) -/

/-- BLK_STAT (R50). -/
def State.blkStat (s : State) (ini : Initiator) (page : Nat) : Word :=
  let d := s.domainOf page (s.chsel page ini)
  let owner := match s.claim page with | some i => i.id | none => 0
  word ((s.pageBusy page).toNat * 0x80000000 + (s.isStaged page).toNat * 0x40000000 + owner * 0x1000000 +
    s.dstate d * 0x10000 + (s.dom d).epoch.toNat)

/-- A read of the header. -/
def State.headerRead (s : State) (ini : Initiator) (page off : Nat) : Word :=
  match off with
  | 0x000 => blkId page
  | 0x004 => blkCap s.variant page
  | 0x008 => (s.reg page (ctrlSet (s.domainOf page (s.chsel page ini))) 0x008 &&& 0x30) ||| word (s.enabled page).toNat
  | 0x00C => s.blkStat ini page
  | 0x010 => s.reg page 0 0x010
  | 0x014 => s.reg page 0 0x014
  | 0x018 => s.reg page 0 0x010 &&& s.reg page 0 0x014
  | 0x01C => s.reg page 0 0x010
  | 0x020 => s.reg page 0 0x020
  | 0x024 => s.reg page 0 0x024
  | 0x028 => s.reg page 0 0x028
  | 0x02C => s.reg page 0 0x02C
  | 0x030 => s.reg page 0 0x030
  | 0x080 => s.reg page ini.id 0x080
  | 0x084 => word (s.chcount page)
  | _ => 0

/-- The agreement rules of a page's chapter, for a commit by `ini` of its index or of every set. -/
def State.agreement (s : State) (ini : Initiator) (page : Nat) (all : Bool) : Mismatch :=
  match page with
  | 0x05 => s.tagAgree
  | 0x0A => s.synAgree
  | 0x0C => s.chzAgree
  | 0x0D => s.phyAgree
  | 0x10 => s.lnkAgree
  | 0x11 => s.timAgree
  | 0x12 => s.ethAgree
  | 0x14 => s.flmAgree
  | 0x28 => s.drcAgree
  | 0x2A => s.nmcAgree (fun idx off => namedBy page (s.chsel page ini) all (regKey page idx off))
  | 0x30 => s.casAgree
  | 0x49 => s.pwmAgree
  | _ => none

/-- A write of INT_EN (R52). Bits without a cause of the page hold what is written, as those of INT_RAW hold what
INT_SET sets (DESIGN CHOICE, log entry 103). -/
def State.intEnWrite (s : State) (page : Nat) (v : Word) : State := s.setReg page 0 0x014 v

/-- A write of CFG_COMMIT, checked by the page's rules. -/
def State.cfgWrite (s : State) (ini : Initiator) (page : Nat) (v : Word) : State :=
  s.commitWrite ini page v (s.agreement ini page (bit v 3))

/-- A write of the header. -/
def State.headerWrite (s : State) (ini : Initiator) (page off : Nat) (v : Word) : State :=
  match off with
  | 0x008 => s.blkCtrlWrite ini page v []
  | 0x010 => s.intClear page v 0
  | 0x014 => s.intEnWrite page v
  | 0x01C => s.intSet page v
  | 0x020 => s.errClear page v
  | 0x028 => s.cfgWrite ini page v
  | 0x030 => s.lockWrite ini page v
  | 0x080 => s.chselWrite ini page v
  | _ => s

/-! ### The blocks' registers -/

/-- An answer that reads nothing but the state. -/
def State.pureRead (s : State) (w : Option Word) : Option (Word × State) := w.map (fun v => (v, s))

/-- The registers that a block computes; `none` for those that its table holds. -/
def State.blockRead (s : State) (ini : Initiator) (page idx off : Nat) : Option (Word × State) :=
  match page with
  | 0x00 => s.pureRead (s.pwrRead idx off)
  | 0x01 => s.rtcRegRead ini off
  | 0x02 => s.mrcRead off
  | 0x05 => s.pureRead (s.tagPageRead off)
  | 0x08 => s.rfeRead off
  | 0x09 => s.pureRead (s.txaRead off)
  | 0x0A => s.pureRead (s.synRead off)
  | 0x0C => s.chzRead idx off
  | 0x0D => s.phyRead off
  | 0x10 => s.lnkRead idx off
  | 0x11 => s.timRead ini off
  | 0x12 => s.pureRead (s.ethRead off)
  | 0x14 => s.pureRead (s.flmRead idx off)
  | 0x18 => s.pureRead (s.secRead off)
  | 0x19 => s.pureRead (s.palRead idx off)
  | 0x1A => s.pureRead (s.updRead off)
  | 0x28 => s.pureRead (if off = 0x804 then some (word s.dramCfg.mapSize) else none)
  | 0x29 => s.pureRead (s.flcRead off)
  | 0x2A => s.pureRead (s.nmcRead idx off)
  | 0x30 => s.pureRead (s.casRead off)
  | 0x49 => s.pureRead (s.pwmRead off)
  | 0x4A => s.pureRead (s.gpioRead off)
  | _ =>
    match coreOf page with
    | some c => s.cpuRead c off
    | none => s.pureRead (if 0x38 ≤ page ∧ page ≤ 0x48 ∧ off = 0x808 then some (s.perStat page) else none)

/-- A write of HSPI_IRQMAP, with the meanings of CPU_IRQMAP (R546, R313). -/
def State.hspiMapWrite (s : State) (ini : Initiator) (off : Nat) (v : Word) : State :=
  if !s.locked Pg.hspi ∧ (!pageListed (bits v 7 0) ∨ (bits v 15 8 ≠ 0xFF ∧ !(bits v 7 0 = Pg.flm ∧ bits v 15 8 < 64))) then
    s.raise Pg.hspi ini off 0 Err.range
  else s.plainWrite ini Pg.hspi 0 off v

/-- Writes of the radio's pages with an effect of their own. -/
def State.radioWrite (s : State) (ini : Initiator) (page off : Nat) (v : Word) : Option State :=
  if page = Pg.wrx ∧ off = 0x808 then some (s.wrxDutyWrite ini v)
  else if page = Pg.rfe ∧ off = 0x804 then some (s.antselWrite v)
  else if page = Pg.rfe ∧ off = 0x808 then some (s.agcWrite ini v)
  else if page = Pg.rfe ∧ off = 0x818 then some (s.setReg Pg.rfe 0 0x814 (v &&& 0x0FFF0FFF))
  else if page = Pg.phy ∧ 0x900 ≤ off ∧ off < 0xB00 then
    match (off - 0x900) % 0x20 with
    | 0x00 => some (s.hrBaseWrite ini ((off - 0x900) / 0x20) v)
    | 0x04 => some (s.hrCfgWrite ini ((off - 0x900) / 0x20) v)
    | 0x0C => some (s.hrConsWrite ((off - 0x900) / 0x20) v)
    | _ => none
  else if page = Pg.phy ∧ off = 0xB10 then some (s.nbCtrlWrite ini v)
  else if page = Pg.lnk ∧ off = 0x134 then some (s.nbCtrl ini v)
  else none

/-- Writes of TIM and ETH with an effect of their own. -/
def State.timeWrite (s : State) (ini : Initiator) (page off : Nat) (v : Word) : Option State :=
  if page = Pg.tim then
    if off = 0x824 then some (s.timStatWrite v)
    else if off = 0x844 then some (s.ppsOutWrite ini v)
    else if off = 0x848 then some (s.ppsOfsWrite ini v)
    else if 0x860 ≤ off ∧ off < 0x8A0 ∧ off % 16 = 0 then some (s.cmpCfgWrite ini ((off - 0x860) / 16) v)
    else if 0x860 ≤ off ∧ off < 0x8A0 ∧ off % 16 = 12 then some (s.cmpPerWrite ini ((off - 0x860) / 16) v)
    else none
  else if page = Pg.eth then
    match off with
    | 0x820 => some (s.ethRxbaseWrite ini v)
    | 0x824 => some (s.ethRxcfgWrite ini v)
    | 0x82C => some (s.setReg Pg.eth 0 0x82C (v &&& 0x7FF))
    | 0x838 => some (s.mdioWrite v)
    | _ => none
  else none

/-- Writes of Flume with an effect of their own. -/
def State.flumeWrite (s : State) (ini : Initiator) (off : Nat) (v : Word) : Option State :=
  if off = 0x100 then some (s.baseWrite ini 0x100 Fl.wrCfg v)
  else if off = Fl.wrCfg then some (s.wrCfgWrite ini v)
  else if off = Fl.wrProd then some (s.wrProdWrite ini v)
  else if off = 0x118 then some (s.wrCtrlWrite ini v)
  else if off = Fl.trBase then some (s.baseWrite ini Fl.trBase Fl.trCfg v)
  else if off = Fl.trCfg then some (s.trCfgWrite ini v)
  else if off = Fl.trCons then some (s.trConsWrite (s.chsel Pg.flm ini) v)
  else none

/-- Writes of the storage pages, the pads and the peripherals with an effect of their own. -/
def State.boardWrite (s : State) (ini : Initiator) (page off : Nat) (v : Word) : Option State :=
  if page = Pg.drc ∧ off = Dc.chctrl then some (s.chctrlWrite ini v)
  else if page = Pg.drc ∧ off = Dc.migctrl then some (s.migctrlWrite ini v)
  else if page = Pg.flc ∧ (off = 0x818 ∨ off = 0x81C) then some (s.pwdWrite (off == 0x81C) v)
  else if page = Pg.flc ∧ off = 0x820 then some (s.pwctrlWrite ini v)
  else if page = Pg.gpio ∧ off = 0x800 then some (s.withPins (fun s => s.plainWrite ini Pg.gpio 0 0x800 v))
  else if page = Pg.gpio ∧ off = 0x808 then some (s.holdWrite v)
  else if page = Pg.gpio ∧ 0x880 ≤ off ∧ off < 0x900 then some (s.padWrite ini ((off - 0x880) / 4) v)
  else if page = Pg.hspi ∧ 0x810 ≤ off ∧ off < 0x830 then some (s.hspiMapWrite ini off v)
  else if page = Pg.pwm ∧ 0x800 ≤ off ∧ off < 0x840 ∧ off % 16 = 8 then some (s.pwmCtrlWrite ini ((off - 0x800) / 16) v)
  else if 0x38 ≤ page ∧ page ≤ 0x48 ∧ off = 0x800 then some (s.perCfgWrite ini page v)
  else none

/-- The writes that a block gives an effect of their own; `none` for the others. -/
def State.blockWrite (s : State) (ini : Initiator) (page idx off : Nat) (v : Word) : Option State :=
  match page with
  | 0x00 =>
    if off = 0x828 then some (s.resetWrite ini v [])
    else
      let (w, s) := if off = 0x81C then s.fresh else (0, s)
      s.pwrWrite ini idx off v (bit w 0)
  | 0x01 => s.rtcRegWrite ini off v
  | 0x02 => s.mrcWrite ini off v
  | 0x05 => if off = 0x830 then some (s.dirtyWrite 0 v) else if off = 0x834 then some (s.dirtyWrite 32 v) else none
  | 0x14 => s.flumeWrite ini off v
  | 0x19 => if off = 0x104 then some (s.palCtrlWrite ini v) else none
  | 0x30 => s.casWrite ini off v
  | 0x11 | 0x12 => s.timeWrite ini page off v
  | 0x04 | 0x08 | 0x0D | 0x10 => s.radioWrite ini page off v
  | _ =>
    match coreOf page with
    | some c => s.cpuWrite ini c off v
    | none => s.boardWrite ini page off v

/-! ### Register accesses -/

/-- A window offset whose set does not exist: the page has none, or the bank names a set that a later plan has not (R57). -/
def State.noSet (s : State) (page idx off : Nat) : Bool := 0x100 ≤ off && off < 0x800 && s.chcount page ≤ idx

/-- A window access through a bank at or above CHCOUNT raises CHSEL_RANGE where the page has a window. -/
def State.staleBank (s : State) (ini : Initiator) (page idx off : Nat) : State :=
  if s.chcount page = 0 then s else s.raise page ini off idx Err.chselRange

/-- A read of a register that its page serves: its value, with read-to-clear fields cleared (R5, R7). -/
def State.regRead (s : State) (ini : Initiator) (page off : Nat) : Word × State :=
  if isHeader off then (s.headerRead ini page off, s)
  else
    let idx := s.setIndex page ini off
    if s.noSet page idx off then (0, s.staleBank ini page idx off)
    else
      let (v, s) := (s.blockRead ini page idx off).getD (if (regDef page off).isSome then s.reg page idx off else 0, s)
      match regDef page off with
      | some d => (v, if d.rc = 0 then s else s.setReg page idx off (s.reg page idx off &&& ~~~(word d.rc)))
      | none => (v, s)

/-- A write of a register that its page serves. -/
def State.regWrite (s : State) (ini : Initiator) (page off : Nat) (v : Word) : State :=
  if isHeader off then s.headerWrite ini page off v
  else
    let idx := s.setIndex page ini off
    if s.noSet page idx off then s.staleBank ini page idx off
    else match s.blockWrite ini page idx off v with
      | some s => s
      | none =>
        match regDef page off with
        | some d => if d.staged then (if page = Pg.lnk then s.lnkStaged ini off v else s.stageWrite ini page off v)
                    else s.plainWrite ini page idx off v
        | none => s

/-! ### The fabric -/

/-- The page and offset of an address in the register pages. -/
def pageAt (a : Nat) : Nat := (a - 0x40000000) / 0x1000
def isPageAddr (a : Nat) : Bool := 0x40000000 ≤ a && a < 0x40100000
def isPalAddr (a : Nat) : Bool := 0x50000000 ≤ a && a < 0x50010000

/-- An initiator is a core. -/
def coreIni (i : Initiator) : Bool := i.id < 4

/-- A read of a Palette window (R342). -/
def State.palAccess (s : State) (ini : Initiator) (a : Nat) : State × BusAns :=
  let p := (a - 0x50000000) / 0x1000
  if !s.palMayRead ini p then (s, .refused)
  else if s.ready Dm.sec then (s.touch Dm.sec, .ok (s.palWindow p (a % 0x1000)))
  else if (s.dom Dm.sec).phase = .none ∧ (s.dom Dm.sec).st ≠ .on ∧ s.dreq Dm.sec = 3 then
    (s.raise Pg.pal ini (a % 0x1000) p Err.domainHeld, .ok 0)
  else (s.wake Dm.sec, .stall Dm.sec)

/-- A memory access is refused before it reaches a memory (R38, R39). -/
def State.memRefused (s : State) (ini : Initiator) (a n : Nat) : Bool :=
  regionOf a == .none || !(n == 1 || n == 2 || n == 4) || a % n != 0 || (ini == .debug && !s.debugBus)

/-- The domain for which an access to a memory waits. -/
def memDomain (m : MemStatus) : Nat :=
  match m with | .stall d => d | .held d => d | _ => Dm.aon

/-- A read of `n` octets at a fabric address: the octets in a word, the lowest address in the low bits. -/
def State.busRead (s : State) (ini : Initiator) (a n : Nat) : State × BusAns :=
  if isPageAddr a then
    if n ≠ 4 ∨ a % 4 ≠ 0 then (s, .refused)
    else s.pageAccess ini (pageAt a) (a % 0x1000) false (fun s => s.regRead ini (pageAt a) (a % 0x1000))
  else if isPalAddr a then
    if n ≠ 4 ∨ a % 4 ≠ 0 then (s, .refused) else s.palAccess ini a
  else if s.memRefused ini a n then (s, .refused)
  else
    let d := memDomain (s.rangeStatus a n)
    match s.iniRead ini a n with
    | (s, .ok bs _) => (s, match knownBytes bs with | some bs => .ok (wordOfBytes bs) | none => .refused)
    | (s, .refused) => (s, .refused)
    | (s, .waits) => (s, .stall d)

/-- A write of `n` octets at a fabric address; ROM and flash take none, and refuse a core's (R38, R277). -/
def State.busWrite (s : State) (ini : Initiator) (a n : Nat) (v : Word) : State × BusAns :=
  if isPageAddr a then
    if n ≠ 4 ∨ a % 4 ≠ 0 then (s, .refused)
    else s.pageAccess ini (pageAt a) (a % 0x1000) true (fun s => (0, s.regWrite ini (pageAt a) (a % 0x1000) v))
  else if isPalAddr a then (s, .refused)
  else if s.memRefused ini a n then (s, .refused)
  else if regionOf a = .rom ∨ regionOf a = .flash then (s, if coreIni ini then .refused else .ok 0)
  else
    let d := memDomain (s.rangeStatus a n)
    match s.iniWrite ini a ((bytesOfWord v).take n) with
    | (s, .ok _ _) => (s, .ok 0)
    | (s, .refused) => (s, .refused)
    | (s, .waits) => (s, .stall d)

/-- The fabric's answer to an access. -/
def State.busAccess (s : State) (a : Access) : State × BusAns :=
  if a.write then s.busWrite a.ini a.addr.toNat a.size a.data else s.busRead a.ini a.addr.toNat a.size

/-- An access is made, and answered, refused or left to wait. -/
def State.access (s : State) (a : Access) : State := State.deliver a (s.busAccess a)

/-- `REGISTER_WRITE`: a write of any address of the fabric. -/
def execRegisterWrite (ini : Initiator) (addr : Word) (size : Nat) (data : Word) (flips : List Flip) (s : State) :
    Host.Outcome State Fault Refusal :=
  .next ((s.applyFlips flips).access ⟨ini, true, addr, size, data⟩)

/-- `RC_FIELD_READ`: a read of any address of the fabric. -/
def execRcFieldRead (ini : Initiator) (addr : Word) (size : Nat) (flips : List Flip) (s : State) : Host.Outcome State Fault Refusal :=
  .next ((s.applyFlips flips).access ⟨ini, false, addr, size, 0⟩)

/-- The list without its first element that satisfies `p`. -/
def dropFirst (p : α → Bool) : List α → List α
  | [] => []
  | x :: xs => if p x then xs else x :: dropFirst p xs

/-- `STALLED_ACCESS_SERVE`: the oldest access of `ini` that waits is made again; it goes on waiting where it is not served. -/
def execStalledAccessServe (ini : Initiator) (flips : List Flip) (s : State) : Host.Outcome State Fault Refusal :=
  let s := s.applyFlips flips
  .next (match s.stalls.find? (fun a => a.ini == ini) with
    | none => s
    | some a =>
      match s.busAccess a with
      | (t, .stall _) => t
      | r => State.deliver a ({ r.1 with stalls := dropFirst (fun x => x.ini == ini) r.1.stalls }, r.2))

/-! ### The commands of the common header -/

/-- `CHSEL_WRITE` (R57). -/
def execChselWrite (ini : Initiator) (page : Nat) (value : Word) (s : State) : Host.Outcome State Fault Refusal :=
  .next (s.pageWrite ini page 0x080 value (fun s => s.chselWrite ini page value))

/-- `INT_CLEAR`: `events` are the causes whose events come in the same cycle (R52). -/
def execIntClear (ini : Initiator) (page : Nat) (mask events : Word) (s : State) : Host.Outcome State Fault Refusal :=
  .next (s.pageWrite ini page 0x010 mask (fun s => s.intClear page mask events))

/-- `INT_SET` (R52). -/
def execIntSet (ini : Initiator) (page : Nat) (mask : Word) (s : State) : Host.Outcome State Fault Refusal :=
  .next (s.pageWrite ini page 0x01C mask (fun s => s.intSet page mask))

/-- `INT_EN_WRITE` (R52). -/
def execIntEnWrite (ini : Initiator) (page : Nat) (value : Word) (s : State) : Host.Outcome State Fault Refusal :=
  .next (s.pageWrite ini page 0x014 value (fun s => s.intEnWrite page value))

/-- `ERR_CLEAR` (R54). -/
def execErrClear (ini : Initiator) (page : Nat) (value : Word) (s : State) : Host.Outcome State Fault Refusal :=
  .next (s.pageWrite ini page 0x020 value (fun s => s.errClear page value))

/-- `STAGED_WRITE`: a write of a staged register (R61). -/
def execStagedWrite (ini : Initiator) (page off : Nat) (value : Word) (s : State) : Host.Outcome State Fault Refusal :=
  .next (match regDef page off with
    | some d => if d.staged then s.pageWrite ini page off value (fun s => s.regWrite ini page off value) else s
    | none => s)

/-- `COMMIT`: CFG_COMMIT is written with GO and without DISCARD (R63). -/
def execCfgCommit (ini : Initiator) (page : Nat) (value : Word) (s : State) : Host.Outcome State Fault Refusal :=
  let v := setBit (setBit value 0 true) 2 false
  .next (s.pageWrite ini page 0x028 v (fun s => s.cfgWrite ini page v))

/-- `DISCARD`: CFG_COMMIT is written with DISCARD and without GO (R65). -/
def execCfgDiscard (ini : Initiator) (page : Nat) (value : Word) (s : State) : Host.Outcome State Fault Refusal :=
  let v := setBit (setBit value 0 false) 2 true
  .next (s.pageWrite ini page 0x028 v (fun s => s.cfgWrite ini page v))

/-- `LOCK`: LOCK is written with KEY 0x5A and LOCKED 1 (R68). -/
def execPageLock (ini : Initiator) (page : Nat) (value : Word) (s : State) : Host.Outcome State Fault Refusal :=
  let v := setBit (setBits value 15 8 0x5A) 0 true
  .next (s.pageWrite ini page 0x030 v (fun s => s.lockWrite ini page v))

/-- `UNLOCK`: LOCK is written with KEY 0xA5 and LOCKED 0 (R68). -/
def execPageUnlock (ini : Initiator) (page : Nat) (value : Word) (s : State) : Host.Outcome State Fault Refusal :=
  let v := setBit (setBits value 15 8 0xA5) 0 false
  .next (s.pageWrite ini page 0x030 v (fun s => s.lockWrite ini page v))

end Sys2Proof.Machine
end

