-- ==== Sys2Proof/Machine/Cascade.lean ====
section
/-! DEFINITION. The cascade's work items and the snapshot (R524, R527 to R530). -/

namespace Sys2Proof.Machine

/-- The CAS item whose turn it is: one at a time in fetch order. `early`: it is set up before its launch time. -/
def State.casTurn (s : State) (op entry : Nat) (early : Bool) : Option Item :=
  match s.item entry with
  | some i =>
    if i.unit = Pg.cas ∧ i.opcode = op ∧ i.st = .active ∧ i.result = none ∧ (i.timed → i.launched ∨ early) ∧ s.ready Dm.cas ∧
        s.fetchTurn i then some i
    else none
  | none => none

/-- A CAS item reads local memory. -/
def State.casIn (s : State) (i : Item) (a n : Nat) (k : State → List Byte → State) : State :=
  match s.unitRead a n with
  | (s, .waits) => s
  | (s, .refused) => s.finish i.id { status := Sc.channelFailed }
  | (s, .ok bs _) =>
    match knownBytes bs with
    | none => s.finish i.id { status := Sc.mediaUncorrectable }
    | some bs => k s bs

/-- A CAS item writes what a slave returned to local memory, and ends. -/
def State.casOut (s : State) (i : Item) (a : Nat) (bs : List Byte) (status : Nat) : State :=
  match s.unitWrite a bs with
  | (s, .ok _ _) => s.finish i.id { status, actual := bs.length }
  | (s, .refused) => s.finish i.id { status := Sc.channelFailed }
  | (s, .waits) => s

/-- `RCOPY`: words to the slave, or from it; an access that the slave refuses ends the item. -/
def execCasRcopy (entry : Nat) (words : List Word) (refused : Option Nat) (flips : List Flip) (s : State) :
    Host.Outcome State Fault Refusal :=
  let s := s.applyFlips flips
  .next (match s.casTurn 1 entry false with
    | none => s
    | some i =>
      let n := i.length / 4
      let done := min n (refused.getD n)
      let status := if done < n then Sc.internal else Sc.done
      if i.uflags.testBit 0 then s.casOut i i.addrA (bytesOfWords ((List.range done).map (fun k => words.getD k 0))) status
      else s.casIn i i.addrA i.length (fun s bs =>
        (s.setCas (fun c => { c with sent := bs })).finish entry { status, actual := 4 * done }))

/-! ### Mask items (R527, R530) -/

/-- The instant of an item: its launch time, or now. -/
def State.casInstant (s : State) (i : Item) : Nat × Nat :=
  if i.timed then (i.ns, i.secLo) else (s.tim.ns, s.tim.sec % 2 ^ 18)

/-- The positions of a mask item that were not lost: REACHED. -/
def Item.reached (i : Item) : Nat :=
  ((i.casNames.filter (fun k => !bit (i.lat.getD 0 0) k)).map (2 ^ ·)).sum

/-- A mask item ends; a count of refused writes that seven bits do not hold is a free value. -/
def State.maskDone (s : State) (i : Item) (refused : Nat) (time : Option (Nat × Nat)) : State :=
  let (f, s) := if refused < 128 then (word refused, s) else s.fresh
  let lost : Bool := i.lat.getD 0 0 != 0
  s.finish i.id { status := if lost || refused != 0 then Sc.doneWarn else Sc.done, wb := i.reached + f.toNat % 128 * 256, time }

/-- The pairs that a BROADCAST writes on this part, in list order, as initiator 7; a write that waits holds the rest. -/
def State.casPairs : List Word → Nat → State → State
  | a :: v :: ps, entry, s =>
    match s.busWrite .cas a.toNat 4 v with
    | (s, .stall _) => s
    | (s, r) =>
      let s := s.updItem entry (fun i =>
        (i.keep 1 (i.lat.getD 1 0 + 1)).keep 2 (i.lat.getD 2 0 + word (r == BusAns.refused).toNat))
      State.casPairs ps entry s
  | _, _, s => s

/-- `BROADCAST`: the pairs go to every named part, this one included by bit 0 of MASK. -/
def execCasBroadcast (entry refused : Nat) (flips : List Flip) (s : State) : Host.Outcome State Fault Refusal :=
  let s := s.applyFlips flips
  .next (match s.casTurn 2 entry false with
    | none => s
    | some i =>
      s.casIn i i.addrA i.length (fun s bs =>
        let pairs := wordsOfBytes (i.length / 4) bs
        let s := s.setCas (fun c => { c with sent := bs })
        let s := if i.addrB.testBit 0 then State.casPairs (pairs.drop (2 * (i.lat.getD 1 0).toNat)) entry s else s
        match s.item entry with
        | some j =>
          if i.addrB.testBit 0 ∧ (j.lat.getD 1 0).toNat < i.length / 8 then s
          else s.maskDone j (refused + (j.lat.getD 2 0).toNat) (some (s.casInstant i))
        | none => s))

/-- `BARRIER`: every entry that a named slave had forwarded before it received the barrier is in the receive ring. -/
def execCasBarrier (entry : Nat) (s : State) : Host.Outcome State Fault Refusal :=
  .next (match s.casTurn 3 entry false with
    | some i => s.maskDone i 0 none
    | none => s)

/-- `SNAPSHOT`: the instant is set on every named part: the launch time, or the earliest at which all are reached. -/
def execCasSnapshot (entry : Nat) (s : State) : Host.Outcome State Fault Refusal :=
  .next (match s.casTurn 4 entry true with
    | none => s
    | some i =>
      if s.cas.snap.any (fun n => n.item == entry) then s
      else
        let t : Int := if i.timed then s.launchNs i.ns i.secLo else ((s.tim.sec * 1000000000 + s.tim.ns + s.casReach i : Nat) : Int)
        s.setCas (fun c => { c with snap := some ⟨entry, t⟩ }))

/-- What a capture finds at a register's address, without its side effects; `none` where its domain is not ON, or the
address names no register. -/
def State.peek (s : State) (a : Nat) : Option Word × State :=
  let page := pageAt a
  let off := a % 0x1000
  if !isPageAddr a ∨ !pageListed page then (none, s)
  else if !pagePresent s.variant page then (some (if off = 0 then blkId page else if off = 4 then blkCap s.variant page else 0), s)
  else if isHeader off ∨ s.domOn (s.domainOf page (s.setIndex page .cas off)) then
    let (v, t) := s.regRead .cas page off
    (some v, { s with freeCtr := t.freeCtr })
  else (none, s)

/-- Every register that a non-zero CAS_SNAPSEL names is captured, in one cycle (R529). -/
def State.snapAll (s : State) (t : Int) : State :=
  let cap := (List.range 8).foldl (fun (p : List (Option Word) × State) k =>
    let sel := s.reg Pg.cas 0 (0x830 + 4 * k)
    let (v, u) := if sel = 0 then (some (s.reg Pg.cas 0 (0x850 + 4 * k)), p.2) else p.2.peek sel.toNat
    (p.1 ++ [v], u)) ([], s)
  let s := cap.2
  let s := (List.range 8).foldl (fun s k => s.setReg Pg.cas 0 (0x850 + 4 * k) ((cap.1.getD k none).getD 0)) s
  let miss := ((List.range 8).filter (fun k => (cap.1.getD k none).isNone)).map (2 ^ ·)
  let s := s.setReg Pg.cas 0 0x878 (word miss.sum)
  let s := (s.setReg Pg.cas 0 0x870 (word (t % 1000000000).toNat)).setReg Pg.cas 0 0x874 (word (t / 1000000000).toNat)
  s.event Pg.cas 4

/-- `SNAPSHOT_CAPTURE`: the instant has come. On the master the item completes, and one that was aborted captures nothing. -/
def execSnapshotCapture (sec ns : Nat) (s : State) : Host.Outcome State Fault Refusal :=
  .next (
    if s.cas.master then
      match s.cas.snap with
      | none => s
      | some n =>
        if !s.reached n.at_ then s
        else
          let s := s.setCas (fun c => { c with snap := none })
          match s.item n.item with
          | some i =>
            if i.unit = Pg.cas ∧ i.opcode = 4 ∧ i.st = .active ∧ i.result = none then
              let s := if i.addrB.testBit 0 then s.snapAll n.at_ else s
              s.maskDone i 0 (some ((n.at_ % 1000000000).toNat, (n.at_ / 1000000000 % 2 ^ 18).toNat))
            else s
          | none => s
    else
      let t : Int := ((sec * 1000000000 + ns : Nat) : Int)
      if s.casRuns ∧ s.cas.up = .up ∧ s.reached t then s.snapAll t else s)

/-- `CAS_RESET`: every named slave is reset; on a slave, that reset. -/
def execCasReset (entry : Option Nat) (air : List Air) (s : State) : Host.Outcome State Fault Refusal :=
  .next (match entry with
    | none => if !s.cas.master ∧ s.casRuns ∧ s.cas.up = .up then s.requestReset 4 air else s
    | some e =>
      match s.casTurn 5 e false with
      | some i => s.maskDone i 0 (some (s.casInstant i))
      | none => s)

/-- `REGISTER`: the slave attests the challenge, and its report of 240 octets is written (R524). -/
def execCasRegister (entry : Nat) (report : List Byte) (flips : List Flip) (s : State) : Host.Outcome State Fault Refusal :=
  let s := s.applyFlips flips
  .next (match s.casTurn 6 entry false with
    | none => s
    | some i => s.casIn i i.addrA 32 (fun s bs =>
        (s.setCas (fun c => { c with sent := bs })).casOut i i.addrB (padTo 240 (report.take 240)) Sc.done))

/-- `ENUMERATE` (R522). -/
def execCasEnumerate (entry : Nat) (found : List CasFound) (s : State) : Host.Outcome State Fault Refusal :=
  .next (match s.casTurn 7 entry false with
    | some _ => (s.enumerate found).finish entry { status := Sc.done }
    | none => s)

end Sys2Proof.Machine
end

