-- ==== Sys2Proof/Machine/Flags.lean ====
section
/-! DEFINITION. The flags of an Ehriq core and the arithmetic at the edges (R273, R288 to R292, R294). A flag rule takes
the status word to the status word; values of 1 and 2 bytes lie in the low bits of a word. -/

namespace Sys2Proof.Machine

/-- A flag rule. -/
abbrev FlagRule := Word → Word

namespace Flag
abbrev v : Nat := 0
abbrev c : Nat := 1
abbrev z : Nat := 2
abbrev n : Nat := 3
abbrev dz : Nat := 4
abbrev ss : Nat := 5
end Flag

/-- A value cut to `k` bytes. -/
def cutTo (k : Nat) (w : Word) : Word := word (w.toNat % 2 ^ (8 * k))

/-- The signed value of `k` bytes. -/
def sval (k : Nat) (w : Word) : Int := signed (8 * k) w.toNat

/-- N and Z of a result of `k` bytes. -/
def setNZ (k : Nat) (r : Word) : FlagRule :=
  fun sw => setBit (setBit sw Flag.n (bit r (8 * k - 1))) Flag.z (cutTo k r == 0)

def setC (b : Bool) : FlagRule := fun sw => setBit sw Flag.c b
def setV (b : Bool) : FlagRule := fun sw => setBit sw Flag.v b
def setDZ (b : Bool) : FlagRule := fun sw => setBit sw Flag.dz b

/-- An integer lies outside the signed range of `n` bits. -/
def overflows (n : Nat) (x : Int) : Bool := decide (x < -(2 : Int) ^ (n - 1)) || decide ((2 : Int) ^ (n - 1) ≤ x)

/-- A result and its flag rule. -/
structure Alu where
  val : Word
  flags : FlagRule := id

/-- A + B + C at `k` bytes (R289). -/
def addW (k : Nat) (a b : Word) (cin : Bool) : Alu :=
  let x := (cutTo k a).toNat + (cutTo k b).toNat + cin.toNat
  let r := cutTo k (word x)
  { val := r, flags := fun sw => setV (overflows (8 * k) (sval k a + sval k b + cin.toNat)) (setC (decide (2 ^ (8 * k) ≤ x)) (setNZ k r sw)) }

/-- A − B − C at `k` bytes: C is the borrow (R289). -/
def subW (k : Nat) (a b : Word) (cin : Bool) : Alu :=
  let x : Int := ((cutTo k a).toNat : Int) - (cutTo k b).toNat - cin.toNat
  let r := word (unsigned (8 * k) x)
  { val := r, flags := fun sw => setV (overflows (8 * k) (sval k a - sval k b - cin.toNat)) (setC (decide (x < 0)) (setNZ k r sw)) }

/-- A result of logic: N and Z only. -/
def logicW (k : Nat) (r : Word) : Alu := { val := cutTo k r, flags := setNZ k r }

/-- MUL: V when the signed product is not its low word sign-extended. -/
def mulW (a b : Word) : Alu :=
  let p := sval 4 a * sval 4 b
  let r := word (unsigned 32 p)
  { val := r, flags := fun sw => setV (overflows 32 p) (setNZ 4 r sw) }

/-- The high word of a product. -/
def highW (p : Int) : Alu := logicW 4 (word (unsigned 64 p / 2 ^ 32))

/-- DIVS and its edges (R291). -/
def divsW (sat : Bool) (a b : Word) : Alu :=
  let x := sval 4 a
  let y := sval 4 b
  if y = 0 then
    let r : Word := if 0 ≤ x then 0x7FFFFFFF else 0x80000000
    { val := r, flags := fun sw => setDZ true (setV false (setNZ 4 r sw)) }
  else if x = -2147483648 ∧ y = -1 then
    let r : Word := if sat then 0x7FFFFFFF else 0x80000000
    { val := r, flags := fun sw =>
        let sw := setDZ false (setV true (setNZ 4 r sw))
        if sat then setBit sw Flag.ss true else sw }
  else
    let r := word (unsigned 32 (x.tdiv y))
    { val := r, flags := fun sw => setDZ false (setV false (setNZ 4 r sw)) }

/-- REMS: the remainder has the sign of A. -/
def remsW (a b : Word) : Alu :=
  let r := if sval 4 b = 0 then a else word (unsigned 32 ((sval 4 a).tmod (sval 4 b)))
  { val := r, flags := fun sw => setDZ (b == 0) (setV false (setNZ 4 r sw)) }

/-- DIVU and REMU. -/
def divuW (a b : Word) : Alu :=
  let r : Word := if b = 0 then 0xFFFFFFFF else word (a.toNat / b.toNat)
  { val := r, flags := fun sw => setDZ (b == 0) (setNZ 4 r sw) }
def remuW (a b : Word) : Alu :=
  let r : Word := if b = 0 then a else word (a.toNat % b.toNat)
  { val := r, flags := fun sw => setDZ (b == 0) (setNZ 4 r sw) }

/-! ### Shifts and rotates (R290) -/

/-- A result with C, where the count leaves C open `none`. -/
def shiftAlu (r : Word) (c : Option Bool) : Alu :=
  { val := r, flags := fun sw => (match c with | some b => setC b | none => id) (setNZ 4 r sw) }

def shlW (a : Word) (n : Nat) : Alu :=
  if n = 0 then shiftAlu a none
  else if n < 32 then shiftAlu (a <<< n) (some (bit a (32 - n)))
  else shiftAlu 0 (some (n == 32 && bit a 0))

def shrW (a : Word) (n : Nat) : Alu :=
  if n = 0 then shiftAlu a none
  else if n < 32 then shiftAlu (a >>> n) (some (bit a (n - 1)))
  else shiftAlu 0 (some (n == 32 && bit a 31))

def sarW (a : Word) (n : Nat) : Alu :=
  if n = 0 then shiftAlu a none
  else if n < 32 then shiftAlu (a.sshiftRight n) (some (bit a (n - 1)))
  else shiftAlu (if bit a 31 then 0xFFFFFFFF else 0) (some (bit a 31))

def rolW (a : Word) (n : Nat) : Alu :=
  if n = 0 then shiftAlu a none else
    let r := a.rotateLeft (n % 32)
    shiftAlu r (some (bit r 0))

def rorW (a : Word) (n : Nat) : Alu :=
  if n = 0 then shiftAlu a none else
    let r := a.rotateRight (n % 32)
    shiftAlu r (some (bit r 31))

/-- The count of a shift: the low six bits. -/
def shiftCount (b : Word) : Nat := bits b 5 0

/-! ### Bits of a word -/

/-- Leading zeros, 0 to 32. -/
def clzW (a : Word) : Word := word (((List.range 32).reverse.takeWhile (fun k => !bit a k)).length)

/-- The order of the bits, and of the bytes, reversed. -/
def brevW (a : Word) : Word := (List.range 32).foldl (fun w k => setBit w (31 - k) (bit a k)) 0
def bswapW (a : Word) : Word := wordOfBytes (bytesOfWord a).reverse

/-- The low `k` bytes sign-extended to a word. -/
def sextW (k : Nat) (a : Word) : Word := word (unsigned 32 (sval k a))

/-! ### Accumulators (R292, R294) -/

/-- An accumulator of 72 bits, two's complement. -/
abbrev Acc := BitVec 72

def accVal (a : Acc) : Int := signed 72 a.toNat
def accOf (x : Int) : Acc := BitVec.ofNat 72 (unsigned 72 x)

/-- The halves of a complex word: real in bits 15:0, imaginary in bits 31:16, both signed. -/
def re (w : Word) : Int := signed 16 (bits w 15 0)
def im (w : Word) : Int := signed 16 (bits w 31 16)

/-- What a complex multiply-accumulate adds: the real and the imaginary part, with B conjugated or not. -/
def cmul (conj : Bool) (a b : Word) : Int × Int :=
  if conj then (re a * re b + im a * im b, im a * re b - re a * im b)
  else (re a * re b - im a * im b, re a * im b + im a * re b)

/-- SAC: ACC shifted, rounded where asked; out of the signed 32-bit range the result depends on SAT (R294). -/
def sacW (sat : Bool) (acc : Acc) (rnd : Bool) (sh : Nat) : Alu :=
  let x := accVal acc + (if rnd ∧ 1 ≤ sh then (2 : Int) ^ (sh - 1) else 0)
  let v := x / (2 : Int) ^ sh
  let ovf := overflows 32 v
  let r := if ovf && sat then (if v < 0 then 0x80000000 else 0x7FFFFFFF) else word (unsigned 32 v)
  { val := r, flags := fun sw =>
      let sw := setV ovf (setNZ 4 r sw)
      if ovf && sat then setBit sw Flag.ss true else sw }

/-- The conditions of Bcc (R288). -/
def condHolds (cond : Nat) (sw : Word) : Bool :=
  let n := bit sw Flag.n
  let z := bit sw Flag.z
  let c := bit sw Flag.c
  let v := bit sw Flag.v
  match cond with
  | 0 => z | 1 => !z | 2 => !c | 3 => c | 4 => n | 5 => !n | 6 => v | 7 => !v
  | 8 => !c && !z | 9 => c || z | 10 => n == v | 11 => n != v | 12 => !z && n == v | 13 => z || n != v
  | 14 => true | _ => bit sw Flag.dz

end Sys2Proof.Machine
end

