-- ==== Sys2Proof/Machine/Operands.lean ====
section
/-! DEFINITION. The operands of an Ehriq instruction: specifiers and what each instruction takes (R274 to R276, R279 to
R281), effective addresses, and reads and checks of memory operands (R277, R278). -/

namespace Sys2Proof

/-! ### The fields of an instruction (R279, R281, R301) -/

/-- Of a 32-bit form: OPC, the size in its bits 1:0, and the specifier fields A, B and D. -/
def LongForm.opc (f : LongForm) : Nat := Machine.bits f.word 7 0
def LongForm.size (f : LongForm) : BitVec 2 := f.word.extractLsb' 0 2
def LongForm.a (f : LongForm) : BitVec 7 := f.word.extractLsb' 24 7
def LongForm.b (f : LongForm) : BitVec 7 := f.word.extractLsb' 17 7
def LongForm.d (f : LongForm) : BitVec 7 := f.word.extractLsb' 8 7

/-- A bit that the 32-bit form fixes is wrong: bits 31 and 16 are 0, and L is 1 (R279, R282, R283). -/
def LongForm.bad (f : LongForm) : Bool := Machine.bit f.word 31 || Machine.bit f.word 16 || !Machine.bit f.word 15

/-- The word begins a 32-bit form on this kind of core: a link core takes bit 31 for a paired word, a control core bit 15 of the
first halfword for a 16-bit instruction (R282, R283). -/
def LongForm.stands (f : LongForm) (c : Core) : Bool := if c.link then !Machine.bit f.word 31 else Machine.bit f.word 15

/-- A short operation is 15 bits: OP5, X and Y. -/
def shortOp5 (w : BitVec 15) : Nat := (w.extractLsb' 10 5).toNat
def shortX (w : BitVec 15) : BitVec 5 := w.extractLsb' 5 5
def shortY (w : BitVec 15) : BitVec 5 := w.extractLsb' 0 5

/-- Of a 16-bit instruction: the short operation in bits 14:0, and its fields. -/
def ShortForm.op (f : ShortForm) : BitVec 15 := f.half.extractLsb' 0 15
def ShortForm.op5 (f : ShortForm) : Nat := shortOp5 f.op
def ShortForm.x (f : ShortForm) : BitVec 5 := shortX f.op
def ShortForm.y (f : ShortForm) : BitVec 5 := shortY f.op

/-- Of a paired word: S, and the operations of slots A and B (R283). -/
def pairStop (w : Word) : Bool := Machine.bit w 30
def pairA (w : Word) : BitVec 15 := w.extractLsb' 15 15
def pairB (w : Word) : BitVec 15 := w.extractLsb' 0 15

/-- The extension halfword of a coprocessor instruction: FUNC and the element count N. -/
def fnFunc (h : Half) : Nat := Machine.bits h 7 0
def fnCount (h : Half) : Nat := Machine.bits h 15 8

/-- The octets of an instruction of `n` bytes, the low halfword first; a link core's last word is padded with 0. -/
def LongForm.code (f : LongForm) (n : Nat) : List Byte :=
  let hs := [f.word.extractLsb' 0 16, f.word.extractLsb' 16 16] ++ f.ext
  (List.range n).map (fun k => (hs.getD (k / 2) 0).extractLsb' (k % 2 * 8) 8)
def ShortForm.code (f : ShortForm) : List Byte := [f.half.extractLsb' 0 8, f.half.extractLsb' 8 8]
def pairCode (w : Word) : List Byte := Machine.bytesOfWord w

end Sys2Proof

namespace Sys2Proof.Machine

/-! ### What an instruction takes -/

/-- What a specifier field is: unused, a source or a destination of `k` bytes, a number, a code operand, an operand of a
coprocessor, or the frame of CALLM and RETM. -/
inductive Role where
  | none | src (k : Nat) | dst (k : Nat) | num | code | cop (k : Nat) | frame
  deriving DecidableEq, Repr

/-- The fields of a long instruction, and its own extension halfwords. -/
structure Shape where
  a : Role := .none
  b : Role := .none
  d : Role := .none
  own : Nat := 0
  deriving DecidableEq, Repr

/-- The operand size that bits 1:0 of OPC give; 3 is illegal, and counts as a word. -/
def sizeOf (opc : Nat) : Nat := match opc % 4 with | 0 => 1 | 1 => 2 | _ => 4

/-- OPC belongs to a family with sizes, from 0x04 to 0x33. -/
def isFamily (opc : Nat) : Bool := 0x04 ≤ opc && opc ≤ 0x33

/-- The fields of a family with sizes. -/
def familyShape (opc : Nat) : Shape :=
  let k := sizeOf opc
  match opc / 4 with
  | 1 | 8 | 9 => { a := .src k, d := .dst k }
  | 7 | 12 => { a := .src k, b := .src k }
  | _ => { a := .src k, b := .src k, d := .dst k }

/-- The fields of an OPC (R287); `none` for the reserved ones, which raise EMUL. -/
def shapeOf (opc : Nat) : Option Shape :=
  if isFamily opc then some (familyShape opc)
  else if 0xE0 ≤ opc ∧ opc ≤ 0xEF then some { a := .cop 4, b := .cop 4, d := .cop 4, own := 1 }
  else match opc with
    | 0x34 | 0x36 => some { a := .src 1, d := .dst 4 }
    | 0x35 | 0x37 => some { a := .src 2, d := .dst 4 }
    | 0x38 | 0x39 | 0x3A | 0x3C | 0x3D | 0x3E | 0x3F | 0x40 | 0x41 | 0x42 | 0x43 | 0x44 | 0x53 =>
      some { a := .src 4, b := .src 4, d := .dst 4 }
    | 0x45 | 0x46 | 0x47 => some { a := .src 4, d := .dst 4 }
    | 0x48 | 0x49 | 0x4A => some { a := .src 2, b := .src 2, d := .num }
    | 0x4B | 0x4C => some { a := .src 4, b := .src 4 }
    | 0x4D => some { d := .dst 4, own := 1 }
    | 0x4E => some { a := .src 4, d := .num }
    | 0x4F => some { d := .num }
    | 0x50 => some { a := .num, d := .dst 4 }
    | 0x51 => some { a := .src 4, d := .num }
    | 0x52 => some { a := .dst 4, d := .dst 4 }
    | 0x58 | 0x5A | 0x61 => some { a := .code }
    | 0x59 => some { a := .code, d := .num }
    | 0x5C => some { a := .frame, b := .code, own := 1 }
    | 0x5D => some { a := .frame }
    | 0x5F => some { own := 1 }
    | 0x60 => some { a := .src 4, own := 1 }
    | 0x00 | 0x5B | 0x5E | 0x62 | 0x63 | 0x64 | 0x65 | 0x66 | 0x67 => some {}
    | _ => none

/-- The extension halfwords of a specifier (R274). -/
def extCount (r : Role) (spec : BitVec 7) : Nat :=
  let m := fun (k : Nat) => match spec.toNat / 8 with
    | 4 | 5 | 6 | 7 | 10 => 1
    | 8 => 2
    | 9 => if k = 4 then 2 else 1
    | _ => 0
  match r with
  | .none | .num => 0
  | .src k | .dst k | .cop k => m k
  | .code | .frame => m 4

/-- The halfwords of a 32-bit form (R280). -/
def Shape.halfwords (h : Shape) (f : LongForm) : Nat := 2 + extCount h.a f.a + extCount h.b f.b + extCount h.d f.d + h.own

/-- Its length in bytes: link cores pad the last word. -/
def Shape.bytes (h : Shape) (c : Core) (f : LongForm) : Nat :=
  let n := h.halfwords f
  if c.link then (n + 1) / 2 * 4 else 2 * n

/-- The fields of a reserved opcode, which takes no extension of its own (R280). -/
def reservedShape : Shape := { a := .src 4, b := .src 4, d := .dst 4 }

/-- The length of the instruction that starts with a word; of a 16-bit instruction the low halfword counts. -/
def lengthOf (c : Core) (w : Word) : Nat :=
  let f : LongForm := { word := w, ext := [], via := ⟨false, []⟩ }
  if f.stands c then ((shapeOf f.opc).getD reservedShape).bytes c f else if c.link then 4 else 2

/-! ### Operands -/

/-- A specifier with its extension. -/
structure Opnd where
  mode : Nat
  n : Nat
  ext : Word
  deriving DecidableEq, Repr

/-- The operand of a field whose extension starts at halfword `i`. -/
def extOpnd (f : LongForm) (spec : BitVec 7) (i : Nat) : Opnd :=
  { mode := spec.toNat / 8, n := spec.toNat % 8, ext := word ((f.ext.getD i 0).toNat + (f.ext.getD (i + 1) 0).toNat * 0x10000) }

/-- The operands A, B and D, and the own extension halfword. -/
structure Opnds where
  a : Opnd
  b : Opnd
  d : Opnd
  own : Half
  deriving DecidableEq, Repr

def Shape.opnds (h : Shape) (f : LongForm) : Opnds :=
  let i := extCount h.a f.a
  let j := i + extCount h.b f.b
  { a := extOpnd f f.a 0, b := extOpnd f f.b i, d := extOpnd f f.d j, own := f.ext.getD (j + extCount h.d f.d) 0 }

/-- The operand that a short specifier names (R281). -/
def shortOpnd (x : BitVec 5) : Opnd :=
  { mode := match x.toNat / 8 with | 0 => 1 | 1 => 2 | 2 => 3 | _ => 0, n := x.toNat % 8, ext := 0 }

/-- The displacement of an operand, and the fields of a CIRC or BITREV extension. -/
def Opnd.disp (o : Opnd) : Int := signed 16 o.ext.toNat
def Opnd.circK (o : Opnd) : Nat := bits o.ext 15 12
def Opnd.circT (o : Opnd) : Int := signed 12 o.ext.toNat

/-- A specifier is one that R274 and R275 allow for an operand of `k` bytes. -/
def Opnd.modeOk (o : Opnd) (k : Nat) : Bool :=
  match o.mode with
  | 0 => k == 4
  | 1 | 2 | 3 | 4 => true
  | 5 => decide (2 ≤ o.circK)
  | 6 => decide (1 ≤ bits o.ext 3 0) && bits o.ext 15 4 == 0
  | 7 | 8 | 9 | 10 => o.n == 0
  | _ => false

/-- The specifier is allowed in its field (R275, R276, R279, R300, R301). -/
def Role.allows (r : Role) (o : Opnd) : Bool :=
  match r with
  | .none => o.mode == 0 && o.n == 0
  | .num => true
  | .src k => o.modeOk k
  | .dst k => o.modeOk k && o.mode != 9
  | .code => (o.mode == 0 || o.mode == 4 || o.mode == 8 || o.mode == 10) && o.modeOk 4
  | .cop _ => (o.mode == 1 || o.mode == 4 || o.mode == 7 || o.mode == 8 || o.mode == 10) && o.modeOk 4
  | .frame => (o.mode == 1 || o.mode == 4 || o.mode == 7 || o.mode == 8) && o.modeOk 4

/-- No field of a form whose operands are `o` is illegal. -/
def Shape.fits (h : Shape) (f : LongForm) (o : Opnds) : Bool :=
  !f.bad && h.a.allows o.a && h.b.allows o.b && h.d.allows o.d
def Shape.legal (h : Shape) (f : LongForm) : Bool := h.fits f (h.opnds f)

/-! ### Evaluation (R277) -/

/-- The evaluation of an instruction under way: the state with the side effects of its reads, the core's registers as
operands see them, the updates of pointers so far, and the instruction's address. -/
structure Ev where
  s : State
  c : Core
  x : Cpu
  pc : Word
  set : List (Nat × Word) := []
  deriving DecidableEq, Repr

/-- What a fault records: its vector, a data address, and whether slot B of a paired word raised it. -/
structure CoreFault where
  vector : Nat
  addr : Option Word := none
  slotB : Bool := false
  deriving DecidableEq, Repr

/-- The result of a part of an instruction. -/
inductive Res (α : Type) where
  | ok (v : α) (e : Ev)
  | fault (f : CoreFault) (s : State)
  | stall (domain : Nat)
  deriving DecidableEq, Repr

/-- What follows a part that went well. -/
def Res.andThen {α β : Type} (r : Res α) (k : α → Ev → Res β) : Res β :=
  match r with
  | .ok v e => k v e
  | .fault f s => .fault f s
  | .stall d => .stall d

/-- A word sum with an integer, modulo 2^32. -/
def plus (w : Word) (x : Int) : Word := word (unsigned 32 ((w.toNat : Int) + x))

/-- A pointer register as operands see it, and its update. -/
def Ev.p (e : Ev) (n : Nat) : Word := e.x.p.getD n 0
def Ev.setP (e : Ev) (n : Nat) (v : Word) : Ev := { e with x := { e.x with p := e.x.p.set n v }, set := e.set ++ [(n, v)] }

/-- Where an operand lies. -/
inductive Loc where
  | preg (n : Nat)
  | mem (a : Word)
  | imm (v : Word)
  deriving DecidableEq, Repr

/-- The circular update: the pointer stays in its block of 2^K bytes. -/
def circNext (k s : Nat) (t : Int) (p : Word) : Word :=
  let m := word (2 ^ k - 1)
  (p &&& ~~~m) ||| (plus p (t * s) &&& m)

/-- The low `k` bits of a number in reverse order. -/
def revBits (k i : Nat) : Nat := ((List.range k).map (fun j => (i.testBit j).toNat * 2 ^ (k - 1 - j))).sum

/-- The reverse-carry update over 2^K elements of `s` bytes. -/
def bitrevNext (k s : Nat) (p : Word) : Word :=
  let sh := Nat.log2 s
  let m := 2 ^ k - 1
  let i := (p.toNat >>> sh) % 2 ^ k
  let j := revBits k ((revBits k i + 1) % 2 ^ k)
  (p &&& ~~~(word (m <<< sh))) ||| word (j <<< sh)

/-- An operand of `k` bytes is evaluated, with its side effect (R274). -/
def Ev.locate (e : Ev) (k : Nat) (o : Opnd) : Loc × Ev :=
  let p := e.p o.n
  match o.mode with
  | 0 => (.preg o.n, e)
  | 1 => (.mem p, e)
  | 2 => (.mem p, e.setP o.n (plus p k))
  | 3 => (.mem (plus p (-(k : Int))), e.setP o.n (plus p (-(k : Int))))
  | 4 => (.mem (plus p (o.disp * k)), e)
  | 5 => (.mem p, e.setP o.n (circNext o.circK k o.circT p))
  | 6 => (.mem p, e.setP o.n (bitrevNext (bits o.ext 3 0) k p))
  | 7 => (.mem (plus e.x.sp (o.disp * k)), e)
  | 8 => (.mem o.ext, e)
  | 9 => (.imm (cutTo k o.ext), e)
  | _ => (.mem (plus e.pc (o.disp * k)), e)

/-- The target of a code operand (R276). -/
def Ev.target (e : Ev) (o : Opnd) : Word :=
  match o.mode with
  | 0 => e.p o.n
  | 4 => plus (e.p o.n) (o.disp * Core.unit e.c)
  | 8 => o.ext
  | _ => plus e.pc (o.disp * Core.unit e.c)

/-! ### Accesses of operands (R277, R42) -/

/-- `k` bytes at an address are read; an address that is no multiple of `k` raises MISALIGN, a refused access BUSERR. -/
def Ev.readMem (e : Ev) (k : Nat) (a : Word) : Res Word :=
  if a.toNat % k ≠ 0 then .fault { vector := 5, addr := some a } e.s
  else match e.s.busRead e.c.ini a.toNat k with
    | (s, .ok v) => .ok v { e with s }
    | (s, .refused) => .fault { vector := 4, addr := some a } s
    | (_, .stall d) => .stall d

/-- The value of an operand. -/
def Ev.read (e : Ev) (k : Nat) (l : Loc) : Res Word :=
  match l with
  | .preg n => .ok (e.p n) e
  | .imm v => .ok v e
  | .mem a => e.readMem k a

/-- A source operand: located, then read. -/
def Ev.src (e : Ev) (k : Nat) (o : Opnd) : Res Word :=
  let (l, e) := e.locate k o
  e.read k l

/-- How a write of `k` octets would be answered, without making it. -/
def State.writeAnswer (s : State) (ini : Initiator) (a k : Nat) : BusAns :=
  if isPageAddr a then
    if k ≠ 4 ∨ a % 4 ≠ 0 then .refused
    else match s.gate ini (pageAt a) (a % 0x1000) true with
      | .refused => .refused
      | .stall d => .stall d
      | _ => .ok 0
  else if isPalAddr a ∨ s.memRefused ini a k ∨ regionOf a = .rom ∨ regionOf a = .flash then .refused
  else match s.rangeStatus a k with
    | .ready => .ok 0
    | .stall d => .stall d
    | .held d => if 32 ≤ d then .ok 0 else .refused
    | .refused => .refused

/-- A destination in memory is checked: the write is made when the instruction commits (R278). -/
def Ev.checkMem (e : Ev) (k : Nat) (a : Word) : Res Unit :=
  if a.toNat % k ≠ 0 then .fault { vector := 5, addr := some a } e.s
  else match e.s.writeAnswer e.c.ini a.toNat k with
    | .ok _ => .ok () e
    | .refused => .fault { vector := 4, addr := some a } e.s
    | .stall d => .stall d

/-- A destination is checked. -/
def Ev.check (e : Ev) (k : Nat) (l : Loc) : Res Unit :=
  match l with
  | .mem a => e.checkMem k a
  | _ => .ok () e

/-- A destination operand: located, then checked. -/
def Ev.dst (e : Ev) (k : Nat) (o : Opnd) : Res Loc :=
  let (l, e) := e.locate k o
  (e.check k l).andThen (fun _ e => .ok l e)

/-- `n` elements of `k` bytes from an address on. -/
def Ev.readMany (k : Nat) : Nat → Word → Ev → Res (List Word)
  | 0, _, e => .ok [] e
  | n + 1, a, e => (e.readMem k a).andThen (fun v e =>
      (Ev.readMany k n (plus a k) e).andThen (fun vs e => .ok (v :: vs) e))

/-- `n` elements of `k` bytes from an address on are checked for writing. -/
def Ev.checkMany (k : Nat) : Nat → Word → Ev → Res Unit
  | 0, _, e => .ok () e
  | n + 1, a, e => (e.checkMem k a).andThen (fun _ e => Ev.checkMany k n (plus a k) e)

/-! ### What an instruction does -/

/-- The effect of an instruction, applied when it commits: pointers in order, the other registers, the stores in order, a
transfer of control, and a trap that follows. -/
structure Eff where
  set : List (Nat × Word) := []
  upd : Cpu → Cpu := id
  stores : List (Nat × Nat × Word) := []
  jump : Option Word := none
  wfi : Bool := false
  trap : Option (Nat × Option Word) := none
  hold : Bool := false

/-- The effect so far: the pointer updates of the operands. -/
def Ev.eff (e : Ev) : Eff := { set := e.set }

/-- A value goes to a destination of `k` bytes. -/
def Eff.put (f : Eff) (k : Nat) (l : Loc) (v : Word) : Eff :=
  match l with
  | .preg n => { f with set := f.set ++ [(n, v)] }
  | .mem a => { f with stores := f.stores ++ [(a.toNat, k, v)] }
  | .imm _ => f

/-- Further registers change. -/
def Eff.also (f : Eff) (u : Cpu → Cpu) : Eff := { f with upd := fun x => u (f.upd x) }

/-- Flags change. -/
def Eff.flags (f : Eff) (r : FlagRule) : Eff := f.also (fun x => { x with sw := r x.sw })

/-- The registers after the effect. -/
def Eff.apply (f : Eff) (x : Cpu) : Cpu := f.set.foldl (fun x (n, v) => { x with p := x.p.set n v }) (f.upd x)

/-- Consecutive elements of `k` bytes are stored from an address on. -/
def Eff.putMany (f : Eff) (k : Nat) (a : Word) (vs : List Word) : Eff :=
  { f with stores := f.stores ++ vs.zipIdx.map (fun (v, i) => ((plus a (k * i : Nat)).toNat, k, v)) }

end Sys2Proof.Machine
end

