-- ==== Sys2Proof/Machine/Entry.lean ====
section
/-! DEFINITION. How an Ehriq instruction is fetched, runs, commits or faults; the zero-overhead loops; entry to an exception
or interrupt; acceptance points (R278, R285, R297, R303 to R308). -/

namespace Sys2Proof.Machine

/-! ### Fetch (R269, R303) -/

/-- The instruction cache may hold the address: a control core, its cache on, flash or DRAM. -/
def State.cacheable (s : State) (c : Core) (a : Nat) : Bool :=
  !c.link && bit (s.reg (cpuPage c) 0 0x800) 0 && (regionOf a == .flash || regionOf a == .dram)

/-- The octets that the instruction cache holds of a range, where it holds all of them. -/
def Cpu.cached (x : Cpu) (a n : Nat) : Option (List Byte) :=
  if (List.range (n / 2)).all (fun k => Sparse.has x.icache (a + 2 * k)) then
    some ((List.range n).map (fun k => (Sparse.get 0 x.icache (a + k / 2 * 2)).extractLsb' (k % 2 * 8) 8))
  else none

/-- Fetched octets fill the instruction cache, which has room for 4096 halfwords. -/
def State.fillCache (s : State) (c : Core) (a : Nat) (bs : List Byte) : State :=
  let x := s.cpu c
  let m := (List.range (bs.length / 2)).foldl (fun m k =>
    Sparse.insert m (a + 2 * k) ((wordOfBytes ((bs.drop (2 * k)).take 2)).setWidth 16)) x.icache
  s.setCpu c { x with icache := m.take 4096 }

/-- The answer to a fetch. -/
inductive Fetched where
  | ok (code : List Byte) (s : State)
  | fault (vector : Nat) (s : State)
  | stall (domain : Nat)

/-- `n` octets are fetched from an address: from the instruction cache, where `hit` says that it still holds them, or from
memory. -/
def State.fetch (s : State) (c : Core) (hit : Bool) (a : Word) (n : Nat) : Fetched :=
  if a.toNat % Core.unit c ≠ 0 then .fault 5 s
  else match if hit && s.cacheable c a.toNat then (s.cpu c).cached a.toNat n else none with
    | some bs => .ok bs s
    | none =>
      let d := memDomain (s.rangeStatus a.toNat n)
      match s.iniRead c.ini a.toNat n with
      | (s, .ok bs _) =>
        match knownBytes bs with
        | some bs => .ok bs (if s.cacheable c a.toNat then s.fillCache c a.toNat bs else s)
        | none => .fault 4 s
      | (s, .refused) => .fault 4 s
      | (_, .waits) => .stall d

/-- The whole instruction at an address is fetched: what its first unit and its first word say of its length decides how
much that is. -/
def State.fetchInsn (s : State) (c : Core) (hit : Bool) (a : Word) : Fetched :=
  match s.fetch c hit a (Core.unit c) with
  | .ok bs t =>
    if !c.link && !bit (wordOfBytes bs) 15 then .ok bs t
    else match s.fetch c hit a 4 with
      | .ok bs t =>
        let n := lengthOf c (wordOfBytes bs)
        if n = 4 then .ok bs t else s.fetch c hit a n
      | r => r
  | r => r

/-! ### Entry (R305, R308) -/

/-- A fault during entry locks the core up. -/
def State.lockUp (s : State) (c : Core) : State :=
  (s.setCpu c { s.cpu c with st := .lockup, stalled := false, halting := false }).event (cpuPage c) 8

/-- The result of an entry: the state after it, or the domain for which it waits. -/
inductive Entered where
  | ok (s : State)
  | stall (domain : Nat)
  deriving DecidableEq, Repr

/-- The vector has been read: the core goes to its handler, where the whole first instruction can be fetched. -/
def State.enterAt (s : State) (c : Core) (prio : Option Nat) (h : Word) : Entered :=
  let x := s.cpu c
  let sw := match prio with | some p => setBits x.sw 22 20 (p + 1) | none => x.sw
  let s := s.setCpu c { x with pc := h, sw, st := .run, stalled := false }
  match s.fetchInsn c false h with
  | .ok _ s => .ok s
  | .fault _ s => .ok (s.lockUp c)
  | .stall d => .stall d

/-- Entry to vector `v` with a return address; `prio` of an interrupt. The entry for STACK skips the stack check. -/
def State.enter (s : State) (c : Core) (v : Nat) (ret : Word) (prio : Option Nat) : Entered :=
  let x := s.cpu c
  let sp := x.sp - 8
  let lim := s.reg (cpuPage c) 0 0x80C
  if sp.toNat % 4 ≠ 0 ∨ (v ≠ 8 ∧ lim ≠ 0 ∧ sp.toNat < lim.toNat) then .ok (s.lockUp c)
  else match s.writeAnswer c.ini sp.toNat 4, s.writeAnswer c.ini (sp + 4).toNat 4 with
    | .refused, _ => .ok (s.lockUp c)
    | .stall d, _ => .stall d
    | .ok _, .refused => .ok (s.lockUp c)
    | .ok _, .stall d => .stall d
    | .ok _, .ok _ =>
      let s := (s.busWrite c.ini sp.toNat 4 ret).1
      let s := (s.busWrite c.ini (sp + 4).toNat 4 x.sw).1
      let s := s.setCpu c { s.cpu c with sp }
      match s.busRead c.ini (s.reg (cpuPage c) 0 0x808 + word (4 * v)).toNat 4 with
      | (s, .ok h) => s.enterAt c prio h
      | (s, .refused) => .ok (s.lockUp c)
      | (_, .stall d) => .stall d

/-! ### Loops (R297) -/

/-- The loops that end at an instruction are evaluated, the innermost first; the next instruction. -/
def closeLoops (pc next : Word) : Nat → Cpu → Cpu × Word
  | 0, x => (x, next)
  | n + 1, x =>
    let k := x.ld - 1
    if x.ld = 0 ∨ x.le.getD k 0 ≠ pc then (x, next)
    else
      let left := x.lc.getD k 0 - 1
      let y := { x with lc := x.lc.set k left }
      if left ≠ 0 then (y, x.ls.getD k 0)
      else closeLoops pc next n { y with sw := setBits y.sw 26 24 k }

/-! ### Commit and fault -/

/-- What a core reports of an instruction: its length, its OPC or OP5 (and that of slot B), whether it is short; the
operations that it counts, and whether an acceptance point follows it. -/
structure Info where
  len : Nat
  opc : Nat
  opcB : Nat := 0
  short : Bool := false
  ops : Nat := 1
  point : Bool := true

/-- CPU_EXCINFO, CPU_EXCPC and CPU_EXCADDR record a fault or trap. -/
def State.record (s : State) (c : Core) (i : Info) (pc : Word) (f : CoreFault) : State :=
  let p := cpuPage c
  let w := word (f.vector * 0x1000000 + i.len % 256 * 0x10000 + f.slotB.toNat * 0x8000 + i.short.toNat * 0x100 +
    (if f.slotB then i.opcB else i.opc) % 256)
  let s := (s.setReg p 0 0x814 w).setReg p 0 0x81C pc
  match f.addr with | some a => s.setReg p 0 0x818 a | none => s

/-- An access waits: the core does, and a wake is asked for (R42, R456). -/
def State.stallCore (s : State) (c : Core) (d : Nat) : State :=
  let s := s.wake d
  s.setCpu c { s.cpu c with stalled := true }

/-- The core stands after an instruction, at an acceptance point or not; one that was told to stop halts there (R285). -/
def State.acceptPoint (s : State) (c : Core) (point : Bool) : State :=
  let x := s.cpu c
  if x.st ≠ .run ∧ x.st ≠ .wfi then s
  else if point || x.st == .wfi then
    let s := s.setCpu c { x with atPoint := true, pairs := 0 }
    if x.halting then s.haltCore c else s
  else s.setCpu c { x with pairs := x.pairs + 1 }

/-- A fault commits nothing: the core enters its handler, to return to the instruction (R278, R303). -/
def State.coreFault (s0 s : State) (c : Core) (i : Info) (pc : Word) (f : CoreFault) : State :=
  let s := s.record c i pc f
  let s := s.setCpu c { s.cpu c with stalled := false, atPoint := !c.link, pairs := 0 }
  match s.enter c f.vector pc none with
  | .ok s => if c.link then s else s.acceptPoint c true
  | .stall d => s0.stallCore c d

/-- An instruction commits: registers, then stores in order; then a trap is entered, or an acceptance point reached. -/
def State.commitCore (s0 s : State) (c : Core) (i : Info) (pc : Word) (f : Eff) : State :=
  let x := f.apply (s.cpu c)
  let seq := pc + word i.len
  let (x, next) := match f.jump, f.trap with
    | some t, _ => (x, t)
    | none, some _ => (x, seq)
    | none, none => closeLoops pc seq 4 x
  let s := s.setCpu c { x with pc := next, stalled := false, atPoint := false
                               st := if f.wfi then .wfi else .run, instret := x.instret + word i.ops }
  let s := f.stores.foldl (fun s (a, k, v) => (s.busWrite c.ini a k v).1) s
  if (s.cpu c).st ≠ .run ∧ (s.cpu c).st ≠ .wfi then s
  else if f.hold then (s.setCpu c { s.cpu c with run := false, atPoint := true, pairs := 0 }).haltCore c
  else match f.trap with
    | none => s.acceptPoint c i.point
    | some (v, addr) =>
      match (s.record c i pc { vector := v, addr }).enter c v seq none with
      | .ok s => s.acceptPoint c true
      | .stall d => s0.stallCore c d

/-! ### Execution -/

/-- The core goes on with an instruction: it runs, and no interrupt is to be taken first; one that is stalled is not
interrupted (R306). -/
def State.coreGoes (s : State) (c : Core) : Bool :=
  s.coreRuns c && ((s.cpu c).stalled || !((s.cpu c).atPoint && (s.cpu c).ie && (s.irqWinner c).isSome))

/-- The instruction at the PC is fetched, and executed where it is the one of the command, whose octets are `code`; `k`
evaluates its operands and gives its effect. -/
def State.execute (s : State) (c : Core) (via : Fetch) (code : List Byte) (i : Info) (k : Ev → Res Eff) : State :=
  let s := s.applyFlips via.flips
  if !s.coreGoes c then s
  else
    let x := s.cpu c
    match s.fetchInsn c via.hit x.pc with
    | .stall d => s.stallCore c d
    | .fault v t =>
      -- what was not fetched has no length and no opcode
      let (w, t) := t.fresh
      s.coreFault t c { len := bits w 23 16, opc := bits w 7 0, short := bit w 8 } x.pc { vector := v, slotB := bit w 15 }
    | .ok bs t =>
      if bs ≠ code then s else
      match k { s := t, c, x, pc := x.pc } with
      | .ok f e => s.commitCore e.s c i x.pc f
      | .fault f t => s.coreFault t c i x.pc f
      | .stall d => s.stallCore c d

/-- ILLEGAL, before any operand (R304). -/
def illegal {α : Type} (e : Ev) : Res α := .fault { vector := 1 } e.s

/-- A long instruction with a shape of its own and the rules beyond its specifiers that make it legal; a word that does not
spell it is another instruction. -/
def State.runShaped (s : State) (c : Core) (opc : Nat) (f : LongForm) (h : Shape) (ok : Bool) (k : Opnds → Ev → Res Eff) : State :=
  let n := h.bytes c f
  if !f.stands c || f.opc != opc then s
  else s.execute c f.via (f.code n) { len := n, opc } (fun e => if h.legal f && ok then k (h.opnds f) e else illegal e)

/-- A long instruction of one OPC. -/
def State.runLong (s : State) (c : Core) (opc : Nat) (f : LongForm) (ok : Bool) (k : Opnds → Ev → Res Eff) : State :=
  s.runShaped c opc f ((shapeOf opc).getD {}) ok k

/-- A long instruction of a family with sizes, `opc` its first: size 3 is ILLEGAL (R287). -/
def State.runSized (s : State) (c : Core) (opc : Nat) (f : LongForm) (k : Nat → Opnds → Ev → Res Eff) : State :=
  s.runLong c (opc + f.size.toNat) f (f.size != 3) (k (sizeOf f.size.toNat))

/-- The meaning of a short operation: its fields X and Y, and the core's evaluation. -/
abbrev ShortOp := BitVec 5 → BitVec 5 → Ev → Res Eff

/-- A short operation as a 16-bit instruction of a control core (R282); a link core has none alone. -/
def State.runShort (s : State) (c : Core) (op5 : Nat) (f : ShortForm) (k : ShortOp) : State :=
  if c.link || bit f.half 15 || f.op5 != op5 then s
  else s.execute c f.via f.code { len := 2, opc := op5, short := true } (k f.x f.y)

/-! ### INTERRUPT_ENTRY and WFI_WAKE (R306, R307) -/

/-- `INTERRUPT_ENTRY`: at an acceptance point the core takes the request that wins. -/
def execInterruptEntry (core : Core) (s : State) : Host.Outcome State Fault Refusal :=
  let x := s.cpu core
  .next (
    if !s.coreRuns core ∨ !x.atPoint ∨ x.stalled ∨ !x.ie then s
    else match s.irqWinner core with
      | none => s
      | some i =>
        match s.enter core (16 + i) x.pc (some (bits (s.irqMap core i) 25 24)) with
        | .ok s => s
        | .stall d => s.wake d)

/-- `WFI_WAKE`: an enabled line asserts, and the core continues after the WFI. -/
def execWfiWake (core : Core) (s : State) : Host.Outcome State Fault Refusal :=
  let x := s.cpu core
  .next (if x.st = .wfi ∧ s.ready (cpuDomain core) ∧ s.resetDue.isNone ∧ s.irqAny core
    then s.setCpu core { x with st := .run } else s)

end Sys2Proof.Machine
end

