-- ==== Sys2Proof/Machine/Ehriq.lean ====
section
/-! DEFINITION. The Ehriq instructions that move data and compute, long and short (R286, R287, R289 to R291). -/

namespace Sys2Proof.Machine

/-! ### Shared shapes of evaluation -/

/-- A result goes to its destination, with its flags. -/
def Ev.done (e : Ev) (k : Nat) (l : Loc) (r : Alu) : Res Eff := .ok ((e.eff.put k l r.val).flags r.flags) e

/-- D ← g(A) at sizes `k` of A and `m` of D; `g` also sees the status word. -/
def longUn (k m : Nat) (g : Word → Word → Alu) (o : Opnds) (e : Ev) : Res Eff :=
  (e.src k o.a).andThen fun a e => (e.dst m o.d).andThen fun l e => e.done m l (g e.x.sw a)

/-- D ← g(A, B). -/
def longBin (k : Nat) (g : Word → Word → Word → Alu) (o : Opnds) (e : Ev) : Res Eff :=
  (e.src k o.a).andThen fun a e => (e.src k o.b).andThen fun b e => (e.dst k o.d).andThen fun l e => e.done k l (g e.x.sw a b)

/-- The flags of g(A, B), without a result. -/
def longCmp (k : Nat) (g : Word → Word → Alu) (o : Opnds) (e : Ev) : Res Eff :=
  (e.src k o.a).andThen fun a e => (e.src k o.b).andThen fun b e => .ok (e.eff.flags (g a b).flags) e

/-- X ← g(X, Y): X is evaluated once, before Y. -/
def shortBin (g : Word → Word → Alu) : ShortOp := fun x y e =>
  let (l, e) := e.locate 4 (shortOpnd x)
  (e.read 4 l).andThen fun a e => (e.src 4 (shortOpnd y)).andThen fun b e => (e.check 4 l).andThen fun _ e => e.done 4 l (g a b)

/-- The flags of g(X, Y). -/
def shortCmp (g : Word → Word → Alu) : ShortOp := fun x y e =>
  (e.src 4 (shortOpnd x)).andThen fun a e => (e.src 4 (shortOpnd y)).andThen fun b e => .ok (e.eff.flags (g a b).flags) e

/-- X ← g(Y). -/
def shortUn (g : Word → Alu) : ShortOp := fun x y e =>
  (e.src 4 (shortOpnd y)).andThen fun b e => (e.dst 4 (shortOpnd x)).andThen fun l e => e.done 4 l (g b)

/-- X ← g(X), where Y is a value. -/
def shortImm (g : Word → BitVec 5 → Alu) : ShortOp := fun x y e =>
  let (l, e) := e.locate 4 (shortOpnd x)
  (e.read 4 l).andThen fun a e => (e.check 4 l).andThen fun _ e => e.done 4 l (g a y)

/-- The sign-extended value of a Y field. -/
def yVal (y : BitVec 5) : Word := word (unsigned 32 (signed 5 y.toNat))

/-- Either form of an instruction without sizes in its short form, `opc` the first of a family with sizes. -/
def State.runBoth (s : State) (c : Core) (opc op5 : Nat) (f : Form) (k : Nat → Opnds → Ev → Res Eff) (q : ShortOp) : State :=
  match f with
  | .long f => s.runSized c opc f k
  | .short f => s.runShort c op5 f q

/-! ### Short operations, as instructions and as slots of a paired word (R286) -/

def shNop : ShortOp := fun _ _ e => .ok e.eff e
def shMov : ShortOp := shortUn (fun b => { val := b })
def shAdd : ShortOp := shortBin (fun a b => addW 4 a b false)
def shSub : ShortOp := shortBin (fun a b => subW 4 a b false)
def shAnd : ShortOp := shortBin (fun a b => logicW 4 (a &&& b))
def shOr : ShortOp := shortBin (fun a b => logicW 4 (a ||| b))
def shXor : ShortOp := shortBin (fun a b => logicW 4 (a ^^^ b))
def shCmp : ShortOp := shortCmp (fun a b => subW 4 a b false)
def shTst : ShortOp := shortCmp (fun a b => logicW 4 (a &&& b))
def shNeg : ShortOp := shortUn (fun b => subW 4 0 b false)
def shNot : ShortOp := shortUn (fun b => logicW 4 (~~~b))
def shMovi : ShortOp := fun x y e => (e.dst 4 (shortOpnd x)).andThen fun l e => e.done 4 l { val := yVal y }
def shAddi : ShortOp := shortImm (fun a y => addW 4 a (yVal y) false)
def shShli : ShortOp := shortImm (fun a y => shlW a y.toNat)
def shShri : ShortOp := shortImm (fun a y => shrW a y.toNat)
def shSari : ShortOp := shortImm (fun a y => sarW a y.toNat)

/-! ### Moves and arithmetic -/

/-- `NOP`. -/
def execNop (core : Core) (form : Form) (s : State) : Host.Outcome State Fault Refusal :=
  .next (match form with
    | .long f => s.runLong core 0x00 f true (fun _ e => .ok e.eff e)
    | .short f => s.runShort core 0x00 f shNop)

/-- `MOV`. -/
def execMov (core : Core) (form : Form) (s : State) : Host.Outcome State Fault Refusal :=
  .next (s.runBoth core 0x04 0x01 form (fun k => longUn k k (fun _ a => { val := a })) shMov)

/-- `ADD`. -/
def execAdd (core : Core) (form : Form) (s : State) : Host.Outcome State Fault Refusal :=
  .next (s.runBoth core 0x08 0x02 form (fun k => longBin k (fun _ a b => addW k a b false)) shAdd)

/-- `SUB`. -/
def execSub (core : Core) (form : Form) (s : State) : Host.Outcome State Fault Refusal :=
  .next (s.runBoth core 0x0C 0x03 form (fun k => longBin k (fun _ a b => subW k a b false)) shSub)

/-- `AND`. -/
def execAnd (core : Core) (form : Form) (s : State) : Host.Outcome State Fault Refusal :=
  .next (s.runBoth core 0x10 0x04 form (fun k => longBin k (fun _ a b => logicW k (a &&& b))) shAnd)

/-- `OR`. -/
def execOr (core : Core) (form : Form) (s : State) : Host.Outcome State Fault Refusal :=
  .next (s.runBoth core 0x14 0x05 form (fun k => longBin k (fun _ a b => logicW k (a ||| b))) shOr)

/-- `XOR`. -/
def execXor (core : Core) (form : Form) (s : State) : Host.Outcome State Fault Refusal :=
  .next (s.runBoth core 0x18 0x06 form (fun k => longBin k (fun _ a b => logicW k (a ^^^ b))) shXor)

/-- `CMP`. -/
def execCmp (core : Core) (form : Form) (s : State) : Host.Outcome State Fault Refusal :=
  .next (s.runBoth core 0x1C 0x07 form (fun k => longCmp k (fun a b => subW k a b false)) shCmp)

/-- `NEG`. -/
def execNeg (core : Core) (form : Form) (s : State) : Host.Outcome State Fault Refusal :=
  .next (s.runBoth core 0x20 0x09 form (fun k => longUn k k (fun _ a => subW k 0 a false)) shNeg)

/-- `NOT`. -/
def execNot (core : Core) (form : Form) (s : State) : Host.Outcome State Fault Refusal :=
  .next (s.runBoth core 0x24 0x0A form (fun k => longUn k k (fun _ a => logicW k (~~~a))) shNot)

/-- `ADC`. -/
def execAdc (core : Core) (form : LongForm) (s : State) : Host.Outcome State Fault Refusal :=
  .next (s.runSized core 0x28 form (fun k => longBin k (fun sw a b => addW k a b (bit sw Flag.c))))

/-- `SBC`. -/
def execSbc (core : Core) (form : LongForm) (s : State) : Host.Outcome State Fault Refusal :=
  .next (s.runSized core 0x2C form (fun k => longBin k (fun sw a b => subW k a b (bit sw Flag.c))))

/-- `TST`. -/
def execTst (core : Core) (form : Form) (s : State) : Host.Outcome State Fault Refusal :=
  .next (s.runBoth core 0x30 0x08 form (fun k => longCmp k (fun a b => logicW k (a &&& b))) shTst)

/-- `MOVI`. -/
def execMovi (core : Core) (form : ShortForm) (s : State) : Host.Outcome State Fault Refusal := .next (s.runShort core 0x0B form shMovi)

/-- `ADDI`. -/
def execAddi (core : Core) (form : ShortForm) (s : State) : Host.Outcome State Fault Refusal := .next (s.runShort core 0x0C form shAddi)

/-- `SHLI`. -/
def execShli (core : Core) (form : ShortForm) (s : State) : Host.Outcome State Fault Refusal := .next (s.runShort core 0x0D form shShli)

/-- `SHRI`. -/
def execShri (core : Core) (form : ShortForm) (s : State) : Host.Outcome State Fault Refusal := .next (s.runShort core 0x0E form shShri)

/-- `SARI`. -/
def execSari (core : Core) (form : ShortForm) (s : State) : Host.Outcome State Fault Refusal := .next (s.runShort core 0x0F form shSari)

/-- `MOVSB`. -/
def execMovsb (core : Core) (form : LongForm) (s : State) : Host.Outcome State Fault Refusal :=
  .next (s.runLong core 0x34 form true (longUn 1 4 (fun _ a => { val := sextW 1 a })))

/-- `MOVSH`. -/
def execMovsh (core : Core) (form : LongForm) (s : State) : Host.Outcome State Fault Refusal :=
  .next (s.runLong core 0x35 form true (longUn 2 4 (fun _ a => { val := sextW 2 a })))

/-- `MOVZB`. -/
def execMovzb (core : Core) (form : LongForm) (s : State) : Host.Outcome State Fault Refusal :=
  .next (s.runLong core 0x36 form true (longUn 1 4 (fun _ a => { val := cutTo 1 a })))

/-- `MOVZH`. -/
def execMovzh (core : Core) (form : LongForm) (s : State) : Host.Outcome State Fault Refusal :=
  .next (s.runLong core 0x37 form true (longUn 2 4 (fun _ a => { val := cutTo 2 a })))

/-! ### Multiply and divide -/

/-- `MUL`. -/
def execMul (core : Core) (form : LongForm) (s : State) : Host.Outcome State Fault Refusal :=
  .next (s.runLong core 0x38 form true (longBin 4 (fun _ a b => mulW a b)))

/-- `MULHS`. -/
def execMulhs (core : Core) (form : LongForm) (s : State) : Host.Outcome State Fault Refusal :=
  .next (s.runLong core 0x39 form true (longBin 4 (fun _ a b => highW (sval 4 a * sval 4 b))))

/-- `MULHU`. -/
def execMulhu (core : Core) (form : LongForm) (s : State) : Host.Outcome State Fault Refusal :=
  .next (s.runLong core 0x3A form true (longBin 4 (fun _ a b => highW ((a.toNat * b.toNat : Nat) : Int))))

/-- A divide or remainder: with DZE a zero divisor raises DIVZERO after the result is written (R291). -/
def longDiv (g : Word → Word → Word → Alu) (o : Opnds) (e : Ev) : Res Eff :=
  (e.src 4 o.a).andThen fun a e => (e.src 4 o.b).andThen fun b e => (e.dst 4 o.d).andThen fun l e =>
    (e.done 4 l (g e.x.sw a b)).andThen fun f e =>
      .ok { f with trap := if b = 0 ∧ e.x.dze then some (6, none) else none } e

/-- `DIVS`. -/
def execDivs (core : Core) (form : LongForm) (s : State) : Host.Outcome State Fault Refusal :=
  .next (s.runLong core 0x3C form true (longDiv (fun sw a b => divsW (bit sw 29) a b)))

/-- `DIVU`. -/
def execDivu (core : Core) (form : LongForm) (s : State) : Host.Outcome State Fault Refusal :=
  .next (s.runLong core 0x3D form true (longDiv (fun _ a b => divuW a b)))

/-- `REMS`. -/
def execRems (core : Core) (form : LongForm) (s : State) : Host.Outcome State Fault Refusal :=
  .next (s.runLong core 0x3E form true (longDiv (fun _ a b => remsW a b)))

/-- `REMU`. -/
def execRemu (core : Core) (form : LongForm) (s : State) : Host.Outcome State Fault Refusal :=
  .next (s.runLong core 0x3F form true (longDiv (fun _ a b => remuW a b)))

/-! ### Shifts, rotates and bits -/

/-- `SHL`. -/
def execShl (core : Core) (form : LongForm) (s : State) : Host.Outcome State Fault Refusal :=
  .next (s.runLong core 0x40 form true (longBin 4 (fun _ a b => shlW a (shiftCount b))))

/-- `SHR`. -/
def execShr (core : Core) (form : LongForm) (s : State) : Host.Outcome State Fault Refusal :=
  .next (s.runLong core 0x41 form true (longBin 4 (fun _ a b => shrW a (shiftCount b))))

/-- `SAR`. -/
def execSar (core : Core) (form : LongForm) (s : State) : Host.Outcome State Fault Refusal :=
  .next (s.runLong core 0x42 form true (longBin 4 (fun _ a b => sarW a (shiftCount b))))

/-- `ROL`. -/
def execRol (core : Core) (form : LongForm) (s : State) : Host.Outcome State Fault Refusal :=
  .next (s.runLong core 0x43 form true (longBin 4 (fun _ a b => rolW a (shiftCount b))))

/-- `ROR`. -/
def execRor (core : Core) (form : LongForm) (s : State) : Host.Outcome State Fault Refusal :=
  .next (s.runLong core 0x44 form true (longBin 4 (fun _ a b => rorW a (shiftCount b))))

/-- `CLZ`. -/
def execClz (core : Core) (form : LongForm) (s : State) : Host.Outcome State Fault Refusal :=
  .next (s.runLong core 0x45 form true (longUn 4 4 (fun _ a => logicW 4 (clzW a))))

/-- `BREV`. -/
def execBrev (core : Core) (form : LongForm) (s : State) : Host.Outcome State Fault Refusal :=
  .next (s.runLong core 0x46 form true (longUn 4 4 (fun _ a => logicW 4 (brevW a))))

/-- `BSWAP`. -/
def execBswap (core : Core) (form : LongForm) (s : State) : Host.Outcome State Fault Refusal :=
  .next (s.runLong core 0x47 form true (longUn 4 4 (fun _ a => logicW 4 (bswapW a))))

/-! ### Accumulators (R292, R294, R295) -/

def Cpu.acc (x : Cpu) (a : Nat) : Acc := if a = 0 then x.acc0 else x.acc1
def Cpu.setAcc (x : Cpu) (a : Nat) (v : Acc) : Cpu := if a = 0 then { x with acc0 := v } else { x with acc1 := v }

/-- Both accumulators may gain a value; V says whether one that is written overflows. -/
def accAddEff (x : Cpu) (f : Eff) (adds : List (Nat × Int)) : Eff :=
  let v := adds.any (fun p => overflows 72 (accVal (x.acc p.1) + p.2))
  (adds.foldl (fun f p => f.also (fun y => y.setAcc p.1 (accOf (accVal (x.acc p.1) + p.2)))) f).flags (setV v)

/-- A halfword product is added to accumulator `a`, or subtracted. -/
def longMac (a : Nat) (neg : Bool) (o : Opnds) (e : Ev) : Res Eff :=
  (e.src 2 o.a).andThen fun u e => (e.src 2 o.b).andThen fun w e =>
    let p := sval 2 u * sval 2 w
    .ok (accAddEff e.x e.eff [(a, if neg then -p else p)]) e

/-- A complex product is added to both accumulators. -/
def cmacEff (conj : Bool) (x : Cpu) (f : Eff) (a b : Word) : Eff :=
  accAddEff x f [(0, (cmul conj a b).1), (1, (cmul conj a b).2)]

/-- A short MACD: its operands lie in memory, of `k` bytes. -/
def shortMac (k : Nat) (g : Cpu → Eff → Word → Word → Eff) : ShortOp := fun x y e =>
  if 24 ≤ x.toNat ∨ 24 ≤ y.toNat then illegal e
  else (e.src k (shortOpnd x)).andThen fun a e => (e.src k (shortOpnd y)).andThen fun b e => .ok (g e.x e.eff a b) e

def shMacdR (a : Nat) : ShortOp := shortMac 2 (fun x f u w => accAddEff x f [(a, sval 2 u * sval 2 w)])
def shMacdC (conj : Bool) : ShortOp := shortMac 4 (cmacEff conj)

/-- The accumulator that a D field names: 0 or 1 (R295). -/
def accField (f : LongForm) : Bool := f.d.toNat ≤ 1

/-- `MAC`. -/
def execMac (core : Core) (form : LongForm) (s : State) : Host.Outcome State Fault Refusal :=
  .next (s.runLong core 0x48 form (accField form) (longMac form.d.toNat false))

/-- `MSU`. -/
def execMsu (core : Core) (form : LongForm) (s : State) : Host.Outcome State Fault Refusal :=
  .next (s.runLong core 0x49 form (accField form) (longMac form.d.toNat true))

/-- `MACD_R`. -/
def execMacdR (core : Core) (form : Form) (s : State) : Host.Outcome State Fault Refusal :=
  .next (match form with
    | .long f => s.runLong core 0x4A f (accField f) (longMac f.d.toNat false)
    | .short f => s.runShort core (0x10 + f.op5 % 2) f (shMacdR (f.op5 % 2)))

/-- A long complex multiply-accumulate. -/
def longCmac (conj : Bool) (o : Opnds) (e : Ev) : Res Eff :=
  (e.src 4 o.a).andThen fun a e => (e.src 4 o.b).andThen fun b e => .ok (cmacEff conj e.x e.eff a b) e

/-- `MACD_C`. -/
def execMacdC (core : Core) (form : Form) (s : State) : Host.Outcome State Fault Refusal :=
  .next (match form with
    | .long f => s.runLong core 0x4B f true (longCmac false)
    | .short f => s.runShort core 0x12 f (shMacdC false))

/-- `MACD_CJ`. -/
def execMacdCj (core : Core) (form : Form) (s : State) : Host.Outcome State Fault Refusal :=
  .next (match form with
    | .long f => s.runLong core 0x4C f true (longCmac true)
    | .short f => s.runShort core 0x13 f (shMacdC true))

def shClra : ShortOp := fun x y e =>
  if x ≠ 0 ∨ 1 < y.toNat then illegal e else .ok (e.eff.also (fun u => u.setAcc y.toNat 0)) e

/-- `CLRA`. -/
def execClra (core : Core) (form : ShortForm) (s : State) : Host.Outcome State Fault Refusal := .next (s.runShort core 0x14 form shClra)

/-- `SAC`: its extension names the accumulator, rounding and the shift. -/
def execSac (core : Core) (form : LongForm) (s : State) : Host.Outcome State Fault Refusal :=
  let own := (((shapeOf 0x4D).getD {}).opnds form).own
  let sh := bits own 6 0
  .next (s.runLong core 0x4D form (decide (sh ≤ 40) && own &&& 0x7E80 == 0) (fun o e =>
    (e.dst 4 o.d).andThen fun l e => e.done 4 l (sacW e.x.sat (e.x.acc (bit own 15).toNat) (bit own 8) sh)))

/-- `LAC`. -/
def execLac (core : Core) (form : LongForm) (s : State) : Host.Outcome State Fault Refusal :=
  .next (s.runLong core 0x4E form (accField form) (fun o e =>
    (e.src 4 o.a).andThen fun a e => .ok (e.eff.also (fun x => x.setAcc form.d.toNat (accOf (sval 4 a)))) e))

/-- The accumulator operation with a number, which the D field names. -/
def State.runAccop (s : State) (c : Core) (num : Nat) (f : LongForm) (k : Cpu → Eff → Eff) : State :=
  if f.d.toNat ≠ num then s else s.runLong c 0x4F f true (fun _ e => .ok (k e.x e.eff) e)

/-- `ACC0_CLEAR`. -/
def execAcc0Clear (core : Core) (form : LongForm) (s : State) : Host.Outcome State Fault Refusal :=
  .next (s.runAccop core 0 form (fun _ f => f.also (fun y => { y with acc0 := 0 })))

/-- `ACC1_CLEAR`. -/
def execAcc1Clear (core : Core) (form : LongForm) (s : State) : Host.Outcome State Fault Refusal :=
  .next (s.runAccop core 1 form (fun _ f => f.also (fun y => { y with acc1 := 0 })))

/-- ACC0 takes an integer, modulo 2^72, with V. -/
def acc0Eff (f : Eff) (v : Int) : Eff := (f.also (fun y => { y with acc0 := accOf v })).flags (setV (overflows 72 v))

/-- `ACC_ADD`. -/
def execAccAdd (core : Core) (form : LongForm) (s : State) : Host.Outcome State Fault Refusal :=
  .next (s.runAccop core 2 form (fun x f => acc0Eff f (accVal x.acc0 + accVal x.acc1)))

/-- `ACC_SUB`. -/
def execAccSub (core : Core) (form : LongForm) (s : State) : Host.Outcome State Fault Refusal :=
  .next (s.runAccop core 3 form (fun x f => acc0Eff f (accVal x.acc0 - accVal x.acc1)))

/-- `ACC_SWAP`. -/
def execAccSwap (core : Core) (form : LongForm) (s : State) : Host.Outcome State Fault Refusal :=
  .next (s.runAccop core 4 form (fun x f => f.also (fun y => { y with acc0 := x.acc1, acc1 := x.acc0 })))

/-- `ACC_NEGATE`. -/
def execAccNegate (core : Core) (form : LongForm) (s : State) : Host.Outcome State Fault Refusal :=
  .next (s.runAccop core 5 form (fun x f => acc0Eff f (-accVal x.acc0)))

end Sys2Proof.Machine
end

