-- ==== Sys2Proof/Machine/Coproc.lean ====
section
/-! DEFINITION. The coprocessor instructions (R301, R302). Operands of octets are bytes, of blocks and complex numbers
words; every element is read before any is written. -/

namespace Sys2Proof.Machine

/-- The fields of a coprocessor instruction: all of them are read for its length. -/
def copABD : Shape := { a := .cop 4, b := .cop 4, d := .cop 4, own := 1 }

/-- Function `func` of coprocessor `cp`, whose fields are `h`: bank 1 raises COPROC, and a count of 0 writes nothing. The
length follows from OPC and the specifiers alone (R280). -/
def State.runCop (s : State) (c : Core) (cp func : Nat) (f : LongForm) (h : Shape) (k : Nat → Opnds → Ev → Res Eff) : State :=
  let n := lengthOf c f.word
  let o := copABD.opnds f
  if !f.stands c || f.opc / 2 != 0x70 + cp || fnFunc o.own != func then s
  else s.execute c f.via (f.code n) { len := n, opc := f.opc } (fun e =>
    if !h.fits f o then illegal e
    else if f.opc % 2 = 1 then .fault { vector := 3 } e.s
    else if fnCount o.own = 0 then .ok e.eff e
    else k (fnCount o.own) o e)

/-- The address of an operand whose elements are `k` bytes. -/
def Ev.addr (e : Ev) (k : Nat) (o : Opnd) : Word :=
  match (e.locate k o).1 with
  | .mem a => a
  | _ => 0

/-- `n` blocks of 16 octets, and octets, at an operand. -/
def Ev.blocks (e : Ev) (n : Nat) (o : Opnd) : Res (List Byte) :=
  (Ev.readMany 4 (4 * n) (e.addr 4 o) e).andThen fun ws e => .ok (bytesOfWords ws) e
def Ev.octets (e : Ev) (n : Nat) (o : Opnd) : Res (List Byte) :=
  (Ev.readMany 1 n (e.addr 1 o) e).andThen fun ws e => .ok (ws.map (fun w => w.setWidth 8)) e
def Ev.words (e : Ev) (n : Nat) (o : Opnd) : Res (List Word) := Ev.readMany 4 n (e.addr 4 o) e

/-- Octets go to a destination, by words or by bytes. -/
def Ev.toBlocks (e : Ev) (o : Opnd) (bs : List Byte) : Res Eff :=
  let a := e.addr 4 o
  (Ev.checkMany 4 (bs.length / 4) a e).andThen fun _ e => .ok (e.eff.putMany 4 a (wordsOfBytes (bs.length / 4) bs)) e
def Ev.toOctets (e : Ev) (o : Opnd) (bs : List Byte) : Res Eff :=
  let a := e.addr 1 o
  (Ev.checkMany 1 bs.length a e).andThen fun _ e => .ok (e.eff.putMany 1 a (bs.map (fun b => b.setWidth 32))) e

/-- Octets cut into blocks of 16. -/
def blocksOf (n : Nat) (bs : List Byte) : List (List Byte) := (List.range n).map (fun k => (bs.drop (16 * k)).take 16)

/-! ### CP0: cipher assist -/

def copAD : Shape := { a := .cop 4, d := .cop 4, own := 1 }

/-- `XOR128`. -/
def execXor128 (core : Core) (form : LongForm) (s : State) : Host.Outcome State Fault Refusal :=
  .next (s.runCop core 0 1 form copABD (fun count o e =>
    (e.blocks count o.a).andThen fun a e => (e.blocks count o.b).andThen fun b e => e.toBlocks o.d (xorBytes a b)))

/-- `GFMUL`: B is one block. -/
def execGfmul (core : Core) (form : LongForm) (s : State) : Host.Outcome State Fault Refusal :=
  .next (s.runCop core 0 2 form copABD (fun count o e =>
    (e.blocks count o.a).andThen fun a e => (e.blocks 1 o.b).andThen fun b e =>
      e.toBlocks o.d ((blocksOf count a).flatMap (fun x => Crypto.gfMul x b))))

/-- A block's last four octets counted on, as a big-endian number. -/
def ctrAdd (bs : List Byte) (n : Nat) : List Byte := bs.take 12 ++ bytesBE 4 ((natOfBytesBE (bs.drop 12) + n) % 2 ^ 32)

/-- `CTRINC`. -/
def execCtrinc (core : Core) (form : LongForm) (s : State) : Host.Outcome State Fault Refusal :=
  .next (s.runCop core 0 3 form copAD (fun count o e =>
    (e.blocks 1 o.a).andThen fun a e => e.toBlocks o.d (ctrAdd a count)))

/-- `REV128`. -/
def execRev128 (core : Core) (form : LongForm) (s : State) : Host.Outcome State Fault Refusal :=
  .next (s.runCop core 0 4 form copAD (fun count o e =>
    (e.blocks count o.a).andThen fun a e => e.toBlocks o.d ((blocksOf count a).flatMap List.reverse)))

/-! ### CP1: correlator assist -/

/-- Both accumulators gain integers, modulo 2^72; the flags stay. -/
def accGain (x : Cpu) (f : Eff) (p q : Int) : Eff :=
  f.also (fun y => { y with acc0 := accOf (accVal x.acc0 + p), acc1 := accOf (accVal x.acc1 + q) })

/-- The energy of a complex sample. -/
def energyOf (w : Word) : Int := re w * re w + im w * im w

/-- `XCORR`. -/
def execXcorr (core : Core) (form : LongForm) (s : State) : Host.Outcome State Fault Refusal :=
  .next (s.runCop core 1 1 form { a := .cop 4, b := .cop 4, own := 1 } (fun count o e =>
    (e.words count o.a).andThen fun a e => (e.words count o.b).andThen fun b e =>
      let ps := (a.zip b).map (fun p => cmul true p.1 p.2)
      .ok (accGain e.x e.eff (ps.map (·.1)).sum (ps.map (·.2)).sum) e))

/-- `ENERGY`. -/
def execEnergy (core : Core) (form : LongForm) (s : State) : Host.Outcome State Fault Refusal :=
  .next (s.runCop core 1 2 form { a := .cop 4, own := 1 } (fun count o e =>
    (e.words count o.a).andThen fun a e => .ok (accGain e.x e.eff (a.map energyOf).sum 0) e))

/-- The first index of the largest value. -/
def peakOf (xs : List Int) : Nat :=
  (xs.zipIdx.foldl (fun (best : Int × Nat) (p : Int × Nat) => if best.1 < p.1 then p else best) (-1, 0)).2

/-- `PEAK`. -/
def execPeak (core : Core) (form : LongForm) (s : State) : Host.Outcome State Fault Refusal :=
  .next (s.runCop core 1 3 form copAD (fun count o e =>
    (e.words count o.a).andThen fun a e =>
      let d := e.addr 4 o.d
      (e.checkMem 4 d).andThen fun _ e => .ok (e.eff.put 4 (.mem d) (word (peakOf (a.map energyOf)))) e))

/-! ### CP2: CRC and FEC assist -/

/-- A CRC of octets at A, from the value at B, to D. -/
def crcRun (k : Nat) (g : Nat → List Byte → Nat) (n : Nat) (o : Opnds) (e : Ev) : Res Eff :=
  (e.octets n o.a).andThen fun bs e => (e.readMem k (e.addr k o.b)).andThen fun v e =>
    let d := e.addr k o.d
    (e.checkMem k d).andThen fun _ e => .ok (e.eff.put k (.mem d) (word (g v.toNat bs))) e

/-- `CRC16`. -/
def execCrc16 (core : Core) (form : LongForm) (s : State) : Host.Outcome State Fault Refusal :=
  .next (s.runCop core 2 1 form copABD (crcRun 2 crc16))

/-- `CRC32`. -/
def execCrc32 (core : Core) (form : LongForm) (s : State) : Host.Outcome State Fault Refusal :=
  .next (s.runCop core 2 2 form copABD (crcRun 4 crc32))

/-- A coder runs over octets at A from the state in the low bits of B, of `k` bytes, which takes the state after them. -/
def coderRun (k width : Nat) (g : List Byte → Nat → List Byte × Nat) (n : Nat) (o : Opnds) (e : Ev) : Res Eff :=
  (e.octets n o.a).andThen fun bs e =>
    let b := e.addr k o.b
    (e.readMem k b).andThen fun v e =>
      let out := g bs (v.toNat % 2 ^ width)
      (e.checkMem k b).andThen fun _ e => (e.toOctets o.d out.1).andThen fun f e =>
        .ok (f.put k (.mem b) (word (v.toNat / 2 ^ width * 2 ^ width + out.2 % 2 ^ width))) e

/-- `PN9`. -/
def execPn9 (core : Core) (form : LongForm) (s : State) : Host.Outcome State Fault Refusal :=
  .next (s.runCop core 2 3 form copABD (coderRun 2 9 pn9))

/-- The octets of the K = 7 code of octets, and the encoder's state after them. -/
def convOctets (bs : List Byte) (st : Nat) : List Byte × Nat :=
  let (os, st) := convBits (bitsOfOctets bs) st
  (octetsOfBits (2 * bs.length) os, st)

/-- `CONV`. -/
def execConv (core : Core) (form : LongForm) (s : State) : Host.Outcome State Fault Refusal :=
  .next (s.runCop core 2 4 form copABD (coderRun 1 6 convOctets))

end Sys2Proof.Machine
end

