-- ==== Sys2Proof/Machine/EhriqCtl.lean ====
section
/-! DEFINITION. The Ehriq instructions that reach special registers, memory atomically and the flow of control, paired words
and reserved opcodes (R272, R273, R276, R282 to R288, R296 to R300, R303, R307, R309 to R311). -/

namespace Sys2Proof.Machine

/-! ### Special registers (R272) -/

/-- The three words of an accumulator: bits 31:0, 63:32 and 71:64, sign-extended. -/
def accWord (a : Acc) (k : Nat) : Word :=
  match k with
  | 0 => word (bits a 31 0) | 1 => word (bits a 63 32) | _ => word (unsigned 32 (signed 8 (bits a 71 64)))

/-- An accumulator with one of them replaced. -/
def setAccWord (a : Acc) (k : Nat) (v : Word) : Acc :=
  let part := fun (j : Nat) => if j = k then v.toNat else (accWord a j).toNat
  BitVec.ofNat 72 (part 0 + part 1 * 2 ^ 32 + part 2 % 256 * 2 ^ 64)

/-- The special register with a number. -/
def Ev.special (e : Ev) (num : Nat) : Word :=
  let x := e.x
  if num = 0 then x.sp
  else if num = 1 then x.sw
  else if num ≤ 5 then x.ls.getD (num - 2) 0
  else if num ≤ 9 then x.le.getD (num - 6) 0
  else if num ≤ 13 then x.lc.getD (num - 10) 0
  else if num ≤ 16 then accWord x.acc0 (num - 14)
  else if num ≤ 19 then accWord x.acc1 (num - 17)
  else if num = 20 then e.pc
  else word e.c.id

/-- A write of the special register with a number, 0 to 19. -/
def Cpu.setSpecial (x : Cpu) (num : Nat) (v : Word) : Cpu :=
  if num = 0 then { x with sp := v }
  else if num = 1 then { x with sw := v &&& swMask }
  else if num ≤ 5 then { x with ls := x.ls.set (num - 2) v }
  else if num ≤ 9 then { x with le := x.le.set (num - 6) v }
  else if num ≤ 13 then { x with lc := x.lc.set (num - 10) v }
  else if num ≤ 16 then { x with acc0 := setAccWord x.acc0 (num - 14) v }
  else { x with acc1 := setAccWord x.acc1 (num - 17) v }

/-- `MFS`. -/
def execMfs (core : Core) (form : LongForm) (s : State) : Host.Outcome State Fault Refusal :=
  .next (s.runLong core 0x50 form (decide (form.a.toNat ≤ 21)) (fun o e =>
    (e.dst 4 o.d).andThen fun l e => e.done 4 l { val := e.special form.a.toNat }))

/-- `MTS`: LD or ILVL above 4 is ILLEGAL, and changes nothing (R273). -/
def execMts (core : Core) (form : LongForm) (s : State) : Host.Outcome State Fault Refusal :=
  .next (s.runLong core 0x51 form (decide (form.d.toNat ≤ 19)) (fun o e =>
    (e.src 4 o.a).andThen fun v e =>
      if form.d = 1 ∧ (4 < bits v 26 24 ∨ 4 < bits v 22 20) then illegal e
      else .ok (e.eff.also (fun x => x.setSpecial form.d.toNat v)) e))

/-! ### Atomics (R310) -/

/-- A memory operand of an atomic instruction lies in SRAM, AON SRAM or DRAM. -/
def Ev.atomic (e : Ev) (l : Loc) : Res Unit :=
  match l with
  | .mem a =>
    if a.toNat % 4 ≠ 0 then .fault { vector := 5, addr := some a } e.s
    else match regionOf a.toNat with
      | .sram _ | .aon | .dram => .ok () e
      | _ => .fault { vector := 4, addr := some a } e.s
  | _ => .ok () e

/-- An operand that is read, and may be written when the instruction commits. -/
def Ev.readWrite (e : Ev) (o : Opnd) : Res (Loc × Word) :=
  let (l, e) := e.locate 4 o
  (e.atomic l).andThen fun _ e => (e.read 4 l).andThen fun v e => (e.check 4 l).andThen fun _ e => .ok (l, v) e

/-- `XCHG`. -/
def execXchg (core : Core) (form : LongForm) (s : State) : Host.Outcome State Fault Refusal :=
  .next (s.runLong core 0x52 form true (fun o e =>
    (e.readWrite o.a).andThen fun a e => (e.readWrite o.d).andThen fun d e =>
      .ok ((e.eff.put 4 d.1 a.2).put 4 a.1 d.2) e))

/-- `CAS`: the compare and the write of D are one access to memory; only Z changes. -/
def execCasOp (core : Core) (form : LongForm) (s : State) : Host.Outcome State Fault Refusal :=
  .next (s.runLong core 0x53 form true (fun o e =>
    (e.src 4 o.a).andThen fun a e => (e.src 4 o.b).andThen fun b e => (e.readWrite o.d).andThen fun d e =>
      let same := d.2 == a
      .ok ((if same then e.eff.put 4 d.1 b else e.eff).flags (fun sw => setBit sw Flag.z same)) e))

/-! ### Jumps and branches (R276, R286, R288) -/

/-- Control goes to a target. -/
def Eff.goto (f : Eff) (t : Word) : Eff := { f with jump := some t }

/-- `J`. -/
def execJ (core : Core) (form : LongForm) (s : State) : Host.Outcome State Fault Refusal :=
  .next (s.runLong core 0x58 form true (fun o e => .ok (e.eff.goto (e.target o.a)) e))

/-- `BCC`: the condition stands in bits 3:0 of the D field, whose other bits are 0. -/
def execBcc (core : Core) (form : LongForm) (s : State) : Host.Outcome State Fault Refusal :=
  .next (s.runLong core 0x59 form (decide (form.d.toNat < 16)) (fun o e =>
    .ok (if condHolds form.d.toNat e.x.sw then e.eff.goto (e.target o.a) else e.eff) e))

/-- A short branch: its offset is X‖Y, signed, in fetch units. -/
def shBranch (p : Word → Bool) : ShortOp := fun x y e =>
  .ok (if p e.x.sw then e.eff.goto (plus e.pc (signed 10 (x.toNat * 32 + y.toNat) * Core.unit e.c)) else e.eff) e
def shBra : ShortOp := shBranch (fun _ => true)
def shBeq : ShortOp := shBranch (fun sw => bit sw Flag.z)
def shBne : ShortOp := shBranch (fun sw => !bit sw Flag.z)

/-- `BRA`. -/
def execBra (core : Core) (form : ShortForm) (s : State) : Host.Outcome State Fault Refusal := .next (s.runShort core 0x15 form shBra)

/-- `BEQ`. -/
def execBeq (core : Core) (form : ShortForm) (s : State) : Host.Outcome State Fault Refusal := .next (s.runShort core 0x16 form shBeq)

/-- `BNE`. -/
def execBne (core : Core) (form : ShortForm) (s : State) : Host.Outcome State Fault Refusal := .next (s.runShort core 0x17 form shBne)

/-! ### Calls (R299, R300) -/

/-- A push of 4 bytes is allowed by CPU_SPLIM. -/
def Ev.mayPush (e : Ev) : Bool :=
  let lim := e.s.reg (cpuPage e.c) 0 0x80C
  lim == 0 || decide (lim.toNat ≤ (e.x.sp - 4).toNat)

/-- `CALL`. -/
def execCall (core : Core) (form : LongForm) (s : State) : Host.Outcome State Fault Refusal :=
  let h := (shapeOf 0x5A).getD {}
  .next (s.runLong core 0x5A form true (fun o e =>
    let sp := e.x.sp - 4
    (e.checkMem 4 sp).andThen fun _ e =>
      if !e.mayPush then .fault { vector := 8 } e.s
      else .ok (((e.eff.put 4 (.mem sp) (e.pc + word (h.bytes core form))).also (fun x => { x with sp })).goto (e.target o.a)) e))

/-- RET, long or short. -/
def retEff (e : Ev) : Res Eff :=
  (e.readMem 4 e.x.sp).andThen fun t e => .ok ((e.eff.also (fun x => { x with sp := x.sp + 4 })).goto t) e

def shRet : ShortOp := fun x y e => if x ≠ 0 ∨ y ≠ 0 then illegal e else retEff e

/-- `RET`. -/
def execRet (core : Core) (form : Form) (s : State) : Host.Outcome State Fault Refusal :=
  .next (match form with
    | .long f => s.runLong core 0x5B f true (fun _ e => retEff e)
    | .short f => s.runShort core 0x18 f shRet)

/-- The address that an operand names. -/
def Ev.frame (e : Ev) (o : Opnd) : Word :=
  match (e.locate 4 o).1 with
  | .mem a => a
  | _ => 0

/-- The pointers that a mask names, in ascending order. -/
def maskRegs (m : Nat) : List Nat := (List.range 8).filter (fun n => m.testBit n)

/-- `CALLM`: the frame takes the return address, the mask and the named pointers. -/
def execCallm (core : Core) (form : LongForm) (s : State) : Host.Outcome State Fault Refusal :=
  let h := (shapeOf 0x5C).getD {}
  let m := (h.opnds form).own.toNat
  .next (s.runLong core 0x5C form (decide (m < 256)) (fun o e =>
    let f := e.frame o.a
    let ws := (e.pc + word (h.bytes core form)) :: word m :: (maskRegs m).map e.p
    (Ev.checkMany 4 ws.length f e).andThen fun _ e => .ok ((e.eff.putMany 4 f ws).goto (e.target o.b)) e))

/-- `RETM`. -/
def execRetm (core : Core) (form : LongForm) (s : State) : Host.Outcome State Fault Refusal :=
  .next (s.runLong core 0x5D form true (fun o e =>
    let f := e.frame o.a
    (e.readMem 4 (f + 4)).andThen fun m e =>
      let rs := maskRegs (bits m 7 0)
      (Ev.readMany 4 rs.length (f + 8) e).andThen fun vs e =>
        (e.readMem 4 f).andThen fun t e => .ok ({ e.eff with set := e.set ++ rs.zip vs }.goto t) e))

/-! ### Exceptions (R303, R305) -/

/-- `RETI`: PC and SW come from the stack. -/
def execReti (core : Core) (form : LongForm) (s : State) : Host.Outcome State Fault Refusal :=
  .next (s.runLong core 0x5E form true (fun _ e =>
    (e.readMem 4 e.x.sp).andThen fun t e => (e.readMem 4 (e.x.sp + 4)).andThen fun sw e =>
      .ok ((e.eff.also (fun x => { x with sp := x.sp + 8, sw := sw &&& swMask })).goto t) e))

/-- `TRAP`: CPU_EXCADDR takes CODE. -/
def execTrap (core : Core) (form : LongForm) (s : State) : Host.Outcome State Fault Refusal :=
  .next (s.runLong core 0x5F form true (fun o e => .ok { e.eff with trap := some (9, some (word o.own.toNat)) } e))

/-- A debugger may hold a core: the gate is open, outside ENROLLED or by a token with CORES (R331, R332). -/
def State.debugCores (s : State) : Bool := s.sec.otp.life != 3 || (s.sec.dbgOpen && s.sec.perms.testBit 0)

/-- `BKPT`: a trap, or a halt where a debugger holds the core. -/
def execBkpt (core : Core) (held : Bool) (form : LongForm) (s : State) : Host.Outcome State Fault Refusal :=
  .next (s.runLong core 0x65 form true (fun _ e =>
    .ok (if held && e.s.debugCores then { e.eff with hold := true } else { e.eff with trap := some (10, none) }) e))

/-! ### Loops (R296, R298) -/

/-- The address after the instruction at `a`, which is fetched for its length. -/
def Ev.after (e : Ev) (a : Word) : Res Word :=
  match e.s.fetchInsn e.c false a with
  | .ok bs s => .ok (plus a bs.length) { e with s }
  | .fault v s => .fault { vector := v } s
  | .stall d => .stall d

/-- A level of the loop registers is set up. -/
def Cpu.pushLoop (x : Cpu) (start last count : Word) : Cpu :=
  let k := x.ld
  { x with ls := x.ls.set k start, le := x.le.set k last, lc := x.lc.set k count, sw := setBits x.sw 26 24 (k + 1) }

/-- `LOOP`. -/
def execLoop (core : Core) (form : LongForm) (s : State) : Host.Outcome State Fault Refusal :=
  let h := (shapeOf 0x60).getD {}
  let n := h.bytes core form
  let last := (h.opnds form).own.toNat * Core.unit core
  .next (s.runLong core 0x60 form (decide (n ≤ last)) (fun o e =>
    (e.src 4 o.a).andThen fun count e =>
      let le := plus e.pc last
      if count = 0 then (e.after le).andThen fun t e => .ok (e.eff.goto t) e
      else if 4 ≤ e.x.ld then .fault { vector := 7 } e.s
      else .ok (e.eff.also (fun x => x.pushLoop (plus e.pc n) le count)) e))

/-- `BRKL`. -/
def execBrkl (core : Core) (form : LongForm) (s : State) : Host.Outcome State Fault Refusal :=
  .next (s.runLong core 0x61 form true (fun o e =>
    if e.x.ld = 0 then illegal e
    else .ok ((e.eff.flags (fun sw => setBits sw 26 24 (e.x.ld - 1))).goto (e.target o.a)) e))

/-! ### Waiting, order, caches and IE (R307, R309, R311) -/

def shWfi : ShortOp := fun x y e => if x ≠ 0 ∨ y ≠ 0 then illegal e else .ok { e.eff with wfi := true } e

/-- `WFI`. -/
def execWfi (core : Core) (form : Form) (s : State) : Host.Outcome State Fault Refusal :=
  .next (match form with
    | .long f => s.runLong core 0x62 f true (fun _ e => .ok { e.eff with wfi := true } e)
    | .short f => s.runShort core 0x19 f shWfi)

/-- `SYNC`: the core's writes are visible as it makes them. -/
def execSync (core : Core) (form : LongForm) (s : State) : Host.Outcome State Fault Refusal :=
  .next (s.runLong core 0x63 form true (fun _ e => .ok e.eff e))

/-- `ICINV`: the core's instruction cache holds nothing afterwards. -/
def execIcinv (core : Core) (form : LongForm) (s : State) : Host.Outcome State Fault Refusal :=
  .next (s.runLong core 0x64 form true (fun _ e => .ok (e.eff.also (fun x => { x with icache := [] })) e))

/-- `DI`. -/
def execDi (core : Core) (form : LongForm) (s : State) : Host.Outcome State Fault Refusal :=
  .next (s.runLong core 0x66 form true (fun _ e => .ok (e.eff.flags (fun sw => setBit sw 31 false)) e))

/-- `EI`. -/
def execEi (core : Core) (form : LongForm) (s : State) : Host.Outcome State Fault Refusal :=
  .next (s.runLong core 0x67 form true (fun _ e => .ok (e.eff.flags (fun sw => setBit sw 31 true)) e))

/-! ### Paired words (R284, R285) -/

/-- The short operation with a number; the reserved ones raise EMUL (R286). -/
def shortOp (op5 : Nat) : ShortOp :=
  match op5 with
  | 0x00 => shNop | 0x01 => shMov | 0x02 => shAdd | 0x03 => shSub | 0x04 => shAnd | 0x05 => shOr | 0x06 => shXor
  | 0x07 => shCmp | 0x08 => shTst | 0x09 => shNeg | 0x0A => shNot | 0x0B => shMovi | 0x0C => shAddi
  | 0x0D => shShli | 0x0E => shShri | 0x0F => shSari | 0x10 => shMacdR 0 | 0x11 => shMacdR 1
  | 0x12 => shMacdC false | 0x13 => shMacdC true | 0x14 => shClra | 0x15 => shBra | 0x16 => shBeq | 0x17 => shBne
  | 0x18 => shRet | 0x19 => shWfi
  | _ => fun _ _ e => .fault { vector := 2 } e.s

/-- BRA, BEQ, BNE, RET and WFI stand in slot B only. -/
def slotBOnly (op5 : Nat) : Bool := 0x15 ≤ op5 && op5 ≤ 0x19

/-- A fault of slot B. -/
def inSlotB (r : Res Eff) : Res Eff :=
  match r with
  | .fault f s => .fault { f with slotB := true } s
  | r => r

/-- Both slots read the state from before the word, and B's effect follows A's. -/
def pairEff (a b : BitVec 15) (e : Ev) : Res Eff :=
  let ra := if slotBOnly (shortOp5 a) then illegal e else shortOp (shortOp5 a) (shortX a) (shortY a) e
  ra.andThen fun f e' =>
    (inSlotB (shortOp (shortOp5 b) (shortX b) (shortY b) { e with s := e'.s })).andThen fun g e'' =>
      .ok { set := f.set ++ g.set, upd := fun x => g.upd (f.upd x), stores := f.stores ++ g.stores
            jump := g.jump, wfi := g.wfi } e''

/-- `PAIRED_WORD`, on a link core. An acceptance point follows with S, and at the eighth word without. -/
def execPairedWord (core : Core) (word : Word) (via : Fetch) (s : State) : Host.Outcome State Fault Refusal :=
  let a := pairA word
  let b := pairB word
  .next (
    if !core.link || !bit word 31 then s
    else s.execute core via (pairCode word)
      { len := 4, opc := shortOp5 a, opcB := shortOp5 b, short := true, ops := 2
        point := pairStop word || decide (7 ≤ (s.cpu core).pairs) }
      (pairEff a b))

/-! ### Words without a row of their own -/

/-- FUNC values that the table of a coprocessor has (R302). -/
def funcKnown (cp func : Nat) : Bool :=
  match cp with
  | 0 => 1 ≤ func && func ≤ 4
  | 1 => 1 ≤ func && func ≤ 3
  | 2 => 1 ≤ func && func ≤ 4
  | _ => false

/-- A specifier field that an unknown coprocessor function may have: unused, or an operand of R301. -/
def copFieldOk (o : Opnd) : Bool := Role.allows .none o || Role.allows (.cop 4) o

/-- The fault of a coprocessor word that no function of the table fits. -/
def copFault (f : LongForm) (o : Opnds) (e : Ev) : Res Eff :=
  if f.bad || !copFieldOk o.a || !copFieldOk o.b || !copFieldOk o.d then illegal e
  else if 6 ≤ f.opc % 16 ∨ f.opc % 2 = 1 then .fault { vector := 3 } e.s
  else illegal e

/-- `EMUL`: a reserved opcode raises EMUL; a coprocessor that is absent COPROC; a FUNC or an ACCOP number outside its
table ILLEGAL. A word that another row spells is none of these, and nothing happens. -/
def execEmul (core : Core) (form : Form) (s : State) : Host.Outcome State Fault Refusal :=
  .next (match form with
    | .short f => if 0x1A ≤ f.op5 then s.runShort core f.op5 f (shortOp f.op5) else s
    | .long f =>
      let n := f.opc
      let len := lengthOf core f.word
      if !f.stands core then s
      else match shapeOf n with
        | none => s.execute core f.via (f.code len) { len, opc := n } (fun e => .fault { vector := 2 } e.s)
        | some h =>
          let o := h.opnds f
          if 0xE0 ≤ n ∧ n ≤ 0xEF ∧ !(funcKnown (n % 16 / 2) (fnFunc o.own) && n % 2 == 0) then
            s.execute core f.via (f.code len) { len, opc := n } (copFault f o)
          else if n = 0x4F ∧ 5 < f.d.toNat then s.runLong core 0x4F f false (fun _ e => illegal e)
          else s)

end Sys2Proof.Machine
end

