-- ==== Sys2Proof/Machine/HostSpi.lean ====
section
/-! DEFINITION. The host SPI target (R543 to R546). -/

namespace Sys2Proof.Machine

def State.setHspi (s : State) (f : Hspi → Hspi) : State := { s with per := { s.per with hspi := f s.per.hspi } }


/-- The octets of a frame that starts with `cmd`, its CRC included. -/
def hostFrameLen (cmd : Byte) : Nat := 7 + (if cmd.getLsbD 7 then 0 else 4 * (cmd.toNat % 16 + 1))

/-- The status octet (R544). -/
def hostStatus (disabled format crc bus : Bool) : Byte :=
  BitVec.ofNat 8 (0x40 + disabled.toNat * 8 + format.toNat * 4 + crc.toNat * 2 + bus.toNat)

/-- The frame is answered. -/
def State.hostAnswer (s : State) (bs : List Byte) : State :=
  s.setHspi (fun h => { h with frame := none, ended := true, answer := 0xFF :: bs })

/-- What follows the wait octets of a frame whose accesses were made: words that no access brought are 0. -/
def HostFrame.reply (f : HostFrame) (bus : Bool) : List Byte :=
  let ws := f.got ++ List.replicate (f.total - f.got.length) 0
  let bs := ws.flatMap (fun w => bytesBE 4 w.toNat)
  (if f.read then 0x5A :: (bs ++ fcsOf true bs) else []) ++ [hostStatus false false false bus]

/-- The access that a frame makes next. -/
def HostFrame.next (f : HostFrame) : Access := ⟨.host, !f.read, word f.addr, 4, f.words.headD 0⟩

/-- The frame after its access has been answered with `w`. -/
def HostFrame.took (f : HostFrame) (w : Word) : HostFrame :=
  { f with
    got := if f.read then f.got ++ [w] else f.got
    words := f.words.drop 1
    addr := if f.fix then f.addr else (f.addr + 4) % 2 ^ 32
    left := f.left - 1
    out := false }

/-- The accesses of a frame are made in order, up to one that waits or is refused. -/
def State.hostRun : Nat → State → State
  | 0, s => s
  | n + 1, s =>
    match s.per.hspi.frame with
    | none => s
    | some f =>
      if f.out then
        if s.stalls.any (fun a => a.ini == .host) then s
        else if (s.replyOf .host).error then s.hostAnswer (f.reply true)
        else State.hostRun n (s.setHspi (fun h => { h with frame := some (f.took (s.replyOf .host).data) }))
      else if f.left = 0 then s.hostAnswer (f.reply false)
      else State.hostRun n ((s.access f.next).setHspi (fun h => { h with frame := some { f with out := true } }))

/-- A complete frame is checked; HSPI_CNT counts it. -/
def State.hostCheck (s : State) (rx : List Byte) : State :=
  let cmd := rx.headD 0
  let body := rx.take (hostFrameLen cmd - 2)
  let s := s.setHspi (fun h => { h with rx := [] })
  let s := s.count Pg.hspi 0 0x808 31 16 1
  let crc := !(fcsOk true (rx.take (hostFrameLen cmd)))
  let s := if crc then (s.count Pg.hspi 0 0x808 15 0 1).event Pg.hspi 8 else s
  let disabled := !bit (s.reg Pg.hspi 0 0x800) 31
  let format := cmd.getLsbD 5 || cmd.getLsbD 4
  if disabled || format || crc then s.hostAnswer [hostStatus disabled format crc false]
  else
    let n := cmd.toNat % 16 + 1
    let f : HostFrame :=
      { read := cmd.getLsbD 7, fix := cmd.getLsbD 6, addr := (Crypto.wordBE (body.drop 1)).toNat
        words := (List.range n).map (fun k => Crypto.wordBE (body.drop (5 + 4 * k))), left := n, total := n }
    State.hostRun (2 * n + 1) (s.setHspi (fun h => { h with frame := some f }))

/-- `HOST_FRAME`: the host clocks octets. A frame that begins while PER is not ON wakes the part, and its octets are held. -/
def execHostFrame (octets : List Byte) (flips : List Flip) (s : State) : Host.Outcome State Fault Refusal :=
  let s := s.applyFlips flips
  .next (
    let h := s.per.hspi
    if h.ended ∨ !s.supplied .a then s
    else if h.frame.isSome then State.hostRun 33 s
    else
      let rx := h.rx ++ octets
      let s := if h.rx.isEmpty ∧ !octets.isEmpty ∧ !s.domOn Dm.per then s.wakeBy 4 else s
      let s := s.setHspi (fun h => { h with rx })
      match rx with
      | [] => s
      | cmd :: _ => if s.domOn Dm.per ∧ hostFrameLen cmd ≤ rx.length then s.hostCheck rx else s)

/-- The level that HOST_IRQ_N is driven to: low while the line of an enabled entry is asserted (R546). -/
def State.hostIrqN (s : State) : Bool :=
  !(List.range 8).any (fun i =>
    let m := s.reg Pg.hspi 0 (0x810 + 4 * i)
    bit m 31 && s.mappedLine m)

/-- `HOST_CS_RISE`: the frame ends; an access that waits is still served, and its result discarded (R545). -/
def execHostCsRise (s : State) : Host.Outcome State Fault Refusal :=
  .next (s.setHspi (fun h => { h with rx := [], frame := none, ended := false }))

end Sys2Proof.Machine
end

