-- ==== Sys2Proof/Machine/Dispatch.lean ====
section
/-! DEFINITION. The dispatch: one arm per command, each one direct call of that command's meaning. -/

namespace Sys2Proof.Machine

-- The effect of a command on everything but the queue of waiting commands.
def exec (i : Instr) (s : State) : Host.Outcome State Fault Refusal :=
  match i with
  | .registerWrite ini addr size data flips => Sys2Proof.Machine.execRegisterWrite ini addr size data flips s
  | .rcFieldRead ini addr size flips => Sys2Proof.Machine.execRcFieldRead ini addr size flips s
  | .stalledAccessServe ini flips => Sys2Proof.Machine.execStalledAccessServe ini flips s
  | .chselWrite ini page value => Sys2Proof.Machine.execChselWrite ini page value s
  | .blockEnable ini page en => Sys2Proof.Machine.execBlockEnable ini page en s
  | .softReset ini page air => Sys2Proof.Machine.execSoftReset ini page air s
  | .domainRequest ini page domain dreq => Sys2Proof.Machine.execDomainRequest ini page domain dreq s
  | .intClear ini page mask events => Sys2Proof.Machine.execIntClear ini page mask events s
  | .intSet ini page mask => Sys2Proof.Machine.execIntSet ini page mask s
  | .intEnWrite ini page value => Sys2Proof.Machine.execIntEnWrite ini page value s
  | .errClear ini page value => Sys2Proof.Machine.execErrClear ini page value s
  | .stagedWrite ini page off value => Sys2Proof.Machine.execStagedWrite ini page off value s
  | .cfgCommit ini page value => Sys2Proof.Machine.execCfgCommit ini page value s
  | .cfgDiscard ini page value => Sys2Proof.Machine.execCfgDiscard ini page value s
  | .commitSwitch page mismatches => Sys2Proof.Machine.execCommitSwitch page mismatches s
  | .pageLock ini page value => Sys2Proof.Machine.execPageLock ini page value s
  | .pageUnlock ini page value => Sys2Proof.Machine.execPageUnlock ini page value s
  | .wrProdWrite ini value => Sys2Proof.Machine.execWrProdWrite ini value s
  | .ringEnable ini value => Sys2Proof.Machine.execRingEnable ini value s
  | .ringAbort ini => Sys2Proof.Machine.execRingAbort ini s
  | .ringResume ini => Sys2Proof.Machine.execRingResume ini s
  | .trCfgWrite ini value => Sys2Proof.Machine.execTrCfgWrite ini value s
  | .trConsWrite ini value => Sys2Proof.Machine.execTrConsWrite ini value s
  | .descriptorFetch flips => Sys2Proof.Machine.execDescriptorFetch flips s
  | .itemIssue entry => Sys2Proof.Machine.execItemIssue entry s
  | .itemFinish entry => Sys2Proof.Machine.execItemFinish entry s
  | .itemRetire entry flips => Sys2Proof.Machine.execItemRetire entry flips s
  | .tailraceModTime ring => Sys2Proof.Machine.execTailraceModTime ring s
  | .reportPost index overflow => Sys2Proof.Machine.execReportPost index overflow s
  | .settlingDone channel => Sys2Proof.Machine.execSettlingDone channel s
  | .slotDetect rx snr next power => Sys2Proof.Machine.execSlotDetect rx snr next power s
  | .sfdFound rx seen hz back power => Sys2Proof.Machine.execSfdFound rx seen hz back power s
  | .sfdTimeout rx => Sys2Proof.Machine.execSfdTimeout rx s
  | .phrDecode rx phr snr10 corr => Sys2Proof.Machine.execPhrDecode rx phr snr10 corr s
  | .frameEnd rx octets snr10 corr flips => Sys2Proof.Machine.execFrameEnd rx octets snr10 corr flips s
  | .hopperChunkCopy rx octets flips => Sys2Proof.Machine.execHopperChunkCopy rx octets flips s
  | .hrConsWrite ini ring value => Sys2Proof.Machine.execHrConsWrite ini ring value s
  | .hopperRingEnable ini ring value => Sys2Proof.Machine.execHopperRingEnable ini ring value s
  | .nfWindowEnd channel idle power => Sys2Proof.Machine.execNfWindowEnd channel idle power s
  | .nfSnapshot => Sys2Proof.Machine.execNfSnapshot s
  | .agcStep up => Sys2Proof.Machine.execAgcStep up s
  | .adcClip => Sys2Proof.Machine.execAdcClip s
  | .gapStart air flips => Sys2Proof.Machine.execGapStart air flips s
  | .gapEnd => Sys2Proof.Machine.execGapEnd s
  | .gapGrant waited => Sys2Proof.Machine.execGapGrant waited s
  | .txBlankStart air flips => Sys2Proof.Machine.execTxBlankStart air flips s
  | .txBlankEnd => Sys2Proof.Machine.execTxBlankEnd s
  | .antselWrite ini value => Sys2Proof.Machine.execAntselWrite ini value s
  | .antSwitch => Sys2Proof.Machine.execAntSwitch s
  | .antMeasureSwitch corr => Sys2Proof.Machine.execAntMeasureSwitch corr s
  | .antMeasureChoose corr => Sys2Proof.Machine.execAntMeasureChoose corr s
  | .iqseedWrite ini value => Sys2Proof.Machine.execIqseedWrite ini value s
  | .iqConverge phase gain => Sys2Proof.Machine.execIqConverge phase gain s
  | .nbStop ini => Sys2Proof.Machine.execNbStop ini s
  | .nbCycle ini => Sys2Proof.Machine.execNbCycle ini s
  | .nbRunLnk ini => Sys2Proof.Machine.execNbRunLnk ini s
  | .nbDwellEnd => Sys2Proof.Machine.execNbDwellEnd s
  | .nbRetuneDone => Sys2Proof.Machine.execNbRetuneDone s
  | .tuneRequest key => Sys2Proof.Machine.execTuneRequest key s
  | .loopLock tx => Sys2Proof.Machine.execLoopLock tx s
  | .lockTimeout tx air => Sys2Proof.Machine.execLockTimeout tx air s
  | .rxLockLost => Sys2Proof.Machine.execRxLockLost s
  | .tempUpdate die => Sys2Proof.Machine.execTempUpdate die s
  | .vtEdge outside => Sys2Proof.Machine.execVtEdge outside s
  | .driftAnchorSweep => Sys2Proof.Machine.execDriftAnchorSweep s
  | .synCal entry => Sys2Proof.Machine.execSynCal entry s
  | .storeTEntry locked => Sys2Proof.Machine.execStoreTEntry locked s
  | .anchorTStep => Sys2Proof.Machine.execAnchorTStep s
  | .storeSave entry flips => Sys2Proof.Machine.execStoreSave entry flips s
  | .storeLoad entry flips => Sys2Proof.Machine.execStoreLoad entry flips s
  | .rampBegin => Sys2Proof.Machine.execRampBegin s
  | .rampBeginPassed entry => Sys2Proof.Machine.execRampBeginPassed entry s
  | .femLead => Sys2Proof.Machine.execFemLead s
  | .femLag => Sys2Proof.Machine.execFemLag s
  | .rampUpDone => Sys2Proof.Machine.execRampUpDone s
  | .lastSymbolOut => Sys2Proof.Machine.execLastSymbolOut s
  | .rampDownDone => Sys2Proof.Machine.execRampDownDone s
  | .txLockLost => Sys2Proof.Machine.execTxLockLost s
  | .holdExpire => Sys2Proof.Machine.execHoldExpire s
  | .wrxPeriodStart => Sys2Proof.Machine.execWrxPeriodStart s
  | .wrxEnergyDetect power => Sys2Proof.Machine.execWrxEnergyDetect power s
  | .wrxOnEnd power => Sys2Proof.Machine.execWrxOnEnd power s
  | .wrxCodeMatch code => Sys2Proof.Machine.execWrxCodeMatch code s
  | .wrxHuntTimeout => Sys2Proof.Machine.execWrxHuntTimeout s
  | .lnkTx entry flips => Sys2Proof.Machine.execLnkTx entry flips s
  | .lnkRxwin entry => Sys2Proof.Machine.execLnkRxwin entry s
  | .rxwinWindowEnd entry => Sys2Proof.Machine.execRxwinWindowEnd entry s
  | .lnkWakecode entry => Sys2Proof.Machine.execLnkWakecode entry s
  | .lbtListenStart entry => Sys2Proof.Machine.execLbtListenStart entry s
  | .lbtListenEnd entry powers draw => Sys2Proof.Machine.execLbtListenEnd entry powers draw s
  | .backoffExpire entry => Sys2Proof.Machine.execBackoffExpire entry s
  | .ackReceive flips => Sys2Proof.Machine.execAckReceive flips s
  | .ackWaitEnd entry draw => Sys2Proof.Machine.execAckWaitEnd entry draw s
  | .ackInstant => Sys2Proof.Machine.execAckInstant s
  | .dwellWindowFree entry => Sys2Proof.Machine.execDwellWindowFree entry s
  | .lnkRxSecurity flips => Sys2Proof.Machine.execLnkRxSecurity flips s
  | .sampleStart => Sys2Proof.Machine.execSampleStart s
  | .dataWindowOpen => Sys2Proof.Machine.execDataWindowOpen s
  | .dataWindowEnd => Sys2Proof.Machine.execDataWindowEnd s
  | .fpListenEnd => Sys2Proof.Machine.execFpListenEnd s
  | .nbStateRead ini => Sys2Proof.Machine.execNbStateRead ini s
  | .unanchor ini => Sys2Proof.Machine.execUnanchor ini s
  | .pendSet ini => Sys2Proof.Machine.execPendSet ini s
  | .pendClr ini => Sys2Proof.Machine.execPendClr ini s
  | .beaconWindowOpen => Sys2Proof.Machine.execBeaconWindowOpen s
  | .beaconWindowClose => Sys2Proof.Machine.execBeaconWindowClose s
  | .searchPassEnd => Sys2Proof.Machine.execSearchPassEnd s
  | .lnkEventPost => Sys2Proof.Machine.execLnkEventPost s
  | .keyEraseEffect slot => Sys2Proof.Machine.execKeyEraseEffect slot s
  | .timNsRead ini => Sys2Proof.Machine.execTimNsRead ini s
  | .timSet => Sys2Proof.Machine.execTimSet s
  | .timStep => Sys2Proof.Machine.execTimStep s
  | .timSlew => Sys2Proof.Machine.execTimSlew s
  | .slewDone => Sys2Proof.Machine.execSlewDone s
  | .timSecond => Sys2Proof.Machine.execTimSecond s
  | .cmpFire comparator => Sys2Proof.Machine.execCmpFire comparator s
  | .ppsOutPulse => Sys2Proof.Machine.execPpsOutPulse s
  | .ppsOutPulseEnd => Sys2Proof.Machine.execPpsOutPulseEnd s
  | .ppsInCapture rising => Sys2Proof.Machine.execPpsInCapture rising s
  | .beaconSync => Sys2Proof.Machine.execBeaconSync s
  | .tickperWindowEnd => Sys2Proof.Machine.execTickperWindowEnd s
  | .timWakeLoad => Sys2Proof.Machine.execTimWakeLoad s
  | .ethTx entry back flips => Sys2Proof.Machine.execEthTx entry back flips s
  | .ethFrameReceive octets back flips => Sys2Proof.Machine.execEthFrameReceive octets back flips s
  | .ethRxconsWrite ini value => Sys2Proof.Machine.execEthRxconsWrite ini value s
  | .mdioTransfer ini value => Sys2Proof.Machine.execMdioTransfer ini value s
  | .mdioDone data => Sys2Proof.Machine.execMdioDone data s
  | .ethLinkChange up speed => Sys2Proof.Machine.execEthLinkChange up speed s
  | .ethMagicPacket => Sys2Proof.Machine.execEthMagicPacket s
  | .coreRun ini core => Sys2Proof.Machine.execCoreRun ini core s
  | .coreHalt ini core => Sys2Proof.Machine.execCoreHalt ini core s
  | .interruptEntry core => Sys2Proof.Machine.execInterruptEntry core s
  | .wfiWake core => Sys2Proof.Machine.execWfiWake core s
  | .pairedWord core word via => Sys2Proof.Machine.execPairedWord core word via s
  | .nop core form => Sys2Proof.Machine.execNop core form s
  | .mov core form => Sys2Proof.Machine.execMov core form s
  | .add core form => Sys2Proof.Machine.execAdd core form s
  | .sub core form => Sys2Proof.Machine.execSub core form s
  | .and core form => Sys2Proof.Machine.execAnd core form s
  | .or core form => Sys2Proof.Machine.execOr core form s
  | .xor core form => Sys2Proof.Machine.execXor core form s
  | .cmp core form => Sys2Proof.Machine.execCmp core form s
  | .neg core form => Sys2Proof.Machine.execNeg core form s
  | .not core form => Sys2Proof.Machine.execNot core form s
  | .adc core form => Sys2Proof.Machine.execAdc core form s
  | .sbc core form => Sys2Proof.Machine.execSbc core form s
  | .tst core form => Sys2Proof.Machine.execTst core form s
  | .movi core form => Sys2Proof.Machine.execMovi core form s
  | .addi core form => Sys2Proof.Machine.execAddi core form s
  | .shli core form => Sys2Proof.Machine.execShli core form s
  | .shri core form => Sys2Proof.Machine.execShri core form s
  | .sari core form => Sys2Proof.Machine.execSari core form s
  | .movsb core form => Sys2Proof.Machine.execMovsb core form s
  | .movsh core form => Sys2Proof.Machine.execMovsh core form s
  | .movzb core form => Sys2Proof.Machine.execMovzb core form s
  | .movzh core form => Sys2Proof.Machine.execMovzh core form s
  | .mul core form => Sys2Proof.Machine.execMul core form s
  | .mulhs core form => Sys2Proof.Machine.execMulhs core form s
  | .mulhu core form => Sys2Proof.Machine.execMulhu core form s
  | .divs core form => Sys2Proof.Machine.execDivs core form s
  | .divu core form => Sys2Proof.Machine.execDivu core form s
  | .rems core form => Sys2Proof.Machine.execRems core form s
  | .remu core form => Sys2Proof.Machine.execRemu core form s
  | .shl core form => Sys2Proof.Machine.execShl core form s
  | .shr core form => Sys2Proof.Machine.execShr core form s
  | .sar core form => Sys2Proof.Machine.execSar core form s
  | .rol core form => Sys2Proof.Machine.execRol core form s
  | .ror core form => Sys2Proof.Machine.execRor core form s
  | .clz core form => Sys2Proof.Machine.execClz core form s
  | .brev core form => Sys2Proof.Machine.execBrev core form s
  | .bswap core form => Sys2Proof.Machine.execBswap core form s
  | .mac core form => Sys2Proof.Machine.execMac core form s
  | .msu core form => Sys2Proof.Machine.execMsu core form s
  | .macdR core form => Sys2Proof.Machine.execMacdR core form s
  | .macdC core form => Sys2Proof.Machine.execMacdC core form s
  | .macdCj core form => Sys2Proof.Machine.execMacdCj core form s
  | .clra core form => Sys2Proof.Machine.execClra core form s
  | .sac core form => Sys2Proof.Machine.execSac core form s
  | .lac core form => Sys2Proof.Machine.execLac core form s
  | .acc0Clear core form => Sys2Proof.Machine.execAcc0Clear core form s
  | .acc1Clear core form => Sys2Proof.Machine.execAcc1Clear core form s
  | .accAdd core form => Sys2Proof.Machine.execAccAdd core form s
  | .accSub core form => Sys2Proof.Machine.execAccSub core form s
  | .accSwap core form => Sys2Proof.Machine.execAccSwap core form s
  | .accNegate core form => Sys2Proof.Machine.execAccNegate core form s
  | .mfs core form => Sys2Proof.Machine.execMfs core form s
  | .mts core form => Sys2Proof.Machine.execMts core form s
  | .xchg core form => Sys2Proof.Machine.execXchg core form s
  | .casOp core form => Sys2Proof.Machine.execCasOp core form s
  | .j core form => Sys2Proof.Machine.execJ core form s
  | .bcc core form => Sys2Proof.Machine.execBcc core form s
  | .bra core form => Sys2Proof.Machine.execBra core form s
  | .beq core form => Sys2Proof.Machine.execBeq core form s
  | .bne core form => Sys2Proof.Machine.execBne core form s
  | .call core form => Sys2Proof.Machine.execCall core form s
  | .ret core form => Sys2Proof.Machine.execRet core form s
  | .callm core form => Sys2Proof.Machine.execCallm core form s
  | .retm core form => Sys2Proof.Machine.execRetm core form s
  | .reti core form => Sys2Proof.Machine.execReti core form s
  | .trap core form => Sys2Proof.Machine.execTrap core form s
  | .loop core form => Sys2Proof.Machine.execLoop core form s
  | .brkl core form => Sys2Proof.Machine.execBrkl core form s
  | .wfi core form => Sys2Proof.Machine.execWfi core form s
  | .sync core form => Sys2Proof.Machine.execSync core form s
  | .icinv core form => Sys2Proof.Machine.execIcinv core form s
  | .bkpt core held form => Sys2Proof.Machine.execBkpt core held form s
  | .di core form => Sys2Proof.Machine.execDi core form s
  | .ei core form => Sys2Proof.Machine.execEi core form s
  | .emul core form => Sys2Proof.Machine.execEmul core form s
  | .xor128 core form => Sys2Proof.Machine.execXor128 core form s
  | .gfmul core form => Sys2Proof.Machine.execGfmul core form s
  | .ctrinc core form => Sys2Proof.Machine.execCtrinc core form s
  | .rev128 core form => Sys2Proof.Machine.execRev128 core form s
  | .xcorr core form => Sys2Proof.Machine.execXcorr core form s
  | .energy core form => Sys2Proof.Machine.execEnergy core form s
  | .peak core form => Sys2Proof.Machine.execPeak core form s
  | .crc16 core form => Sys2Proof.Machine.execCrc16 core form s
  | .crc32 core form => Sys2Proof.Machine.execCrc32 core form s
  | .pn9 core form => Sys2Proof.Machine.execPn9 core form s
  | .conv core form => Sys2Proof.Machine.execConv core form s
  | .drkReconstructDone ok => Sys2Proof.Machine.execDrkReconstructDone ok s
  | .secHash entry flips => Sys2Proof.Machine.execSecHash entry flips s
  | .secVerify entry flips => Sys2Proof.Machine.execSecVerify entry flips s
  | .secSign entry flips => Sys2Proof.Machine.execSecSign entry flips s
  | .secRandom entry flips => Sys2Proof.Machine.execSecRandom entry flips s
  | .secAttest entry flips => Sys2Proof.Machine.execSecAttest entry flips s
  | .secExtend entry flips => Sys2Proof.Machine.execSecExtend entry flips s
  | .secPubkey entry flips => Sys2Proof.Machine.execSecPubkey entry flips s
  | .secEnroll entry writes flips => Sys2Proof.Machine.execSecEnroll entry writes flips s
  | .ownerAdd entry flips => Sys2Proof.Machine.execOwnerAdd entry flips s
  | .ownerRevoke entry flips => Sys2Proof.Machine.execOwnerRevoke entry flips s
  | .ownerRetire entry flips => Sys2Proof.Machine.execOwnerRetire entry flips s
  | .rngHealthFail => Sys2Proof.Machine.execRngHealthFail s
  | .debugTokenWrite octets => Sys2Proof.Machine.execDebugTokenWrite octets s
  | .debugTokenVerdict => Sys2Proof.Machine.execDebugTokenVerdict s
  | .pageClaim ini => Sys2Proof.Machine.execPageClaim ini s
  | .pageRelease ini => Sys2Proof.Machine.execPageRelease ini s
  | .pageScrubDone page => Sys2Proof.Machine.execPageScrubDone page s
  | .palEncrypt entry flips => Sys2Proof.Machine.execPalEncrypt entry flips s
  | .palDecrypt entry flips => Sys2Proof.Machine.execPalDecrypt entry flips s
  | .palMacGen entry flips => Sys2Proof.Machine.execPalMacGen entry flips s
  | .palMacCheck entry flips => Sys2Proof.Machine.execPalMacCheck entry flips s
  | .keyLoad entry flips => Sys2Proof.Machine.execKeyLoad entry flips s
  | .keyUnwrap entry flips => Sys2Proof.Machine.execKeyUnwrap entry flips s
  | .keyWrap entry flips => Sys2Proof.Machine.execKeyWrap entry flips s
  | .keyDerive entry flips => Sys2Proof.Machine.execKeyDerive entry flips s
  | .keyGen entry flips => Sys2Proof.Machine.execKeyGen entry flips s
  | .keyErase entry flips => Sys2Proof.Machine.execKeyErase entry flips s
  | .engineDispatch flips => Sys2Proof.Machine.execEngineDispatch flips s
  | .messageSuspend lnk octets => Sys2Proof.Machine.execMessageSuspend lnk octets s
  | .primerBoot cut bad readable lost => Sys2Proof.Machine.execPrimerBoot cut bad readable lost s
  | .updOpen entry flips => Sys2Proof.Machine.execUpdOpen entry flips s
  | .updChunk entry flips => Sys2Proof.Machine.execUpdChunk entry flips s
  | .updArm entry flips => Sys2Proof.Machine.execUpdArm entry flips s
  | .channelTrain ini value => Sys2Proof.Machine.execChannelTrain ini value s
  | .trainingDone channel failed results => Sys2Proof.Machine.execTrainingDone channel failed results s
  | .drcRefresh rank postpone => Sys2Proof.Machine.execDrcRefresh rank postpone s
  | .parityAlert channel reissued items => Sys2Proof.Machine.execParityAlert channel reissued items s
  | .parityReplayDone channel rejected => Sys2Proof.Machine.execParityReplayDone channel rejected s
  | .alertStuck channel => Sys2Proof.Machine.execAlertStuck channel s
  | .eccWindowEnd => Sys2Proof.Machine.execEccWindowEnd s
  | .migrationStart ini value => Sys2Proof.Machine.execMigrationStart ini value s
  | .migrationStop ini value => Sys2Proof.Machine.execMigrationStop ini value s
  | .migrationSlotCopy flips => Sys2Proof.Machine.execMigrationSlotCopy flips s
  | .migrationDone => Sys2Proof.Machine.execMigrationDone s
  | .drcCopy entry flips => Sys2Proof.Machine.execDrcCopy entry flips s
  | .drcFill entry flips => Sys2Proof.Machine.execDrcFill entry flips s
  | .drcScrub entry flips => Sys2Proof.Machine.execDrcScrub entry flips s
  | .flcProgram entry flips => Sys2Proof.Machine.execFlcProgram entry flips s
  | .flcErase entry => Sys2Proof.Machine.execFlcErase entry s
  | .flcVerify entry flips => Sys2Proof.Machine.execFlcVerify entry flips s
  | .flcCounters entry => Sys2Proof.Machine.execFlcCounters entry s
  | .flcProtect entry salt => Sys2Proof.Machine.execFlcProtect entry salt s
  | .erasePulse blank => Sys2Proof.Machine.execErasePulse blank s
  | .programWord verified => Sys2Proof.Machine.execProgramWord verified s
  | .flashUnlock ini => Sys2Proof.Machine.execFlashUnlock ini s
  | .flashRelock ini => Sys2Proof.Machine.execFlashRelock ini s
  | .eraseResume blank => Sys2Proof.Machine.execEraseResume blank s
  | .nandRead entry ecc => Sys2Proof.Machine.execNandRead entry ecc s
  | .nandProgram entry choice flips => Sys2Proof.Machine.execNandProgram entry choice flips s
  | .nandErase entry => Sys2Proof.Machine.execNandErase entry s
  | .nandFlush entry => Sys2Proof.Machine.execNandFlush entry s
  | .nandMount entry failing newer => Sys2Proof.Machine.execNandMount entry failing newer s
  | .nandFormat entry failing factory bad => Sys2Proof.Machine.execNandFormat entry failing factory bad s
  | .wbHoldExpire target choice => Sys2Proof.Machine.execWbHoldExpire target choice s
  | .nandOpDone target failed choice => Sys2Proof.Machine.execNandOpDone target failed choice s
  | .nandRelocation target block choice lost => Sys2Proof.Machine.execNandRelocation target block choice lost s
  | .staticWearMove choice => Sys2Proof.Machine.execStaticWearMove choice s
  | .patrolStep ecc => Sys2Proof.Machine.execPatrolStep ecc s
  | .tagInventory entry foreign answers flips => Sys2Proof.Machine.execTagInventory entry foreign answers flips s
  | .tagSelect entry foreign answers flips => Sys2Proof.Machine.execTagSelect entry foreign answers flips s
  | .tagPassword entry foreign answers flips => Sys2Proof.Machine.execTagPassword entry foreign answers flips s
  | .tagAuthenticate entry foreign first second => Sys2Proof.Machine.execTagAuthenticate entry foreign first second s
  | .tagRead entry foreign answers => Sys2Proof.Machine.execTagRead entry foreign answers s
  | .tagWrite entry foreign answers flips => Sys2Proof.Machine.execTagWrite entry foreign answers flips s
  | .tagVerifyOrigin entry foreign answers flips => Sys2Proof.Machine.execTagVerifyOrigin entry foreign answers flips s
  | .tagHalt entry foreign => Sys2Proof.Machine.execTagHalt entry foreign s
  | .tagTset entry how flips => Sys2Proof.Machine.execTagTset entry how flips s
  | .tagSread entry decayed => Sys2Proof.Machine.execTagSread entry decayed s
  | .tagSwrite entry how flips => Sys2Proof.Machine.execTagSwrite entry how flips s
  | .fieldHoldExpire => Sys2Proof.Machine.execFieldHoldExpire s
  | .fieldDetect vbatOk decayed => Sys2Proof.Machine.execFieldDetect vbatOk decayed s
  | .fieldLost => Sys2Proof.Machine.execFieldLost s
  | .lockoutEnd => Sys2Proof.Machine.execLockoutEnd s
  | .cmdInventory n pre => Sys2Proof.Machine.execCmdInventory n pre s
  | .cmdSelect id => Sys2Proof.Machine.execCmdSelect id s
  | .cmdPwd password => Sys2Proof.Machine.execCmdPwd password s
  | .cmdAuth1 ra => Sys2Proof.Machine.execCmdAuth1 ra s
  | .cmdAuth2 tr => Sys2Proof.Machine.execCmdAuth2 tr s
  | .cmdRead record offset length decayed => Sys2Proof.Machine.execCmdRead record offset length decayed s
  | .cmdWrite record data how => Sys2Proof.Machine.execCmdWrite record data how s
  | .cmdHalt => Sys2Proof.Machine.execCmdHalt s
  | .tagReply => Sys2Proof.Machine.execTagReply s
  | .dirtyReport => Sys2Proof.Machine.execDirtyReport s
  | .idleTimerExpire domain => Sys2Proof.Machine.execIdleTimerExpire domain s
  | .domainIdleCommit domain air => Sys2Proof.Machine.execDomainIdleCommit domain air s
  | .domainSave domain => Sys2Proof.Machine.execDomainSave domain s
  | .domainSwitch domain => Sys2Proof.Machine.execDomainSwitch domain s
  | .domainEntryDone domain => Sys2Proof.Machine.execDomainEntryDone domain s
  | .domainWake domain => Sys2Proof.Machine.execDomainWake domain s
  | .domainOn domain => Sys2Proof.Machine.execDomainOn domain s
  | .wakeSource source => Sys2Proof.Machine.execWakeSource source s
  | .xtalFail => Sys2Proof.Machine.execXtalFail s
  | .xtalRetry ini good => Sys2Proof.Machine.execXtalRetry ini good s
  | .refCheck good => Sys2Proof.Machine.execRefCheck good s
  | .refFail => Sys2Proof.Machine.execRefFail s
  | .pllLock pll => Sys2Proof.Machine.execPllLock pll s
  | .vcoreChange ini low => Sys2Proof.Machine.execVcoreChange ini low s
  | .vcoreDone => Sys2Proof.Machine.execVcoreDone s
  | .softwarePartReset ini value air => Sys2Proof.Machine.execSoftwarePartReset ini value air s
  | .resetN master testmode air => Sys2Proof.Machine.execResetN master testmode air s
  | .watchdogExpire air => Sys2Proof.Machine.execWatchdogExpire air s
  | .deferredResetApply air => Sys2Proof.Machine.execDeferredResetApply air s
  | .powerOn lost master testmode vio => Sys2Proof.Machine.execPowerOn lost master testmode vio s
  | .brownOut => Sys2Proof.Machine.execBrownOut s
  | .rtcTick => Sys2Proof.Machine.execRtcTick s
  | .rtcRead ini off => Sys2Proof.Machine.execRtcRead ini off s
  | .goTime ini value => Sys2Proof.Machine.execGoTime ini value s
  | .goDate ini value => Sys2Proof.Machine.execGoDate ini value s
  | .goWday ini value => Sys2Proof.Machine.execGoWday ini value s
  | .rtcLoad => Sys2Proof.Machine.execRtcLoad s
  | .zcEdge since => Sys2Proof.Machine.execZcEdge since s
  | .zcWindowEnd => Sys2Proof.Machine.execZcWindowEnd s
  | .zcGap => Sys2Proof.Machine.execZcGap s
  | .mrcCaptureWindow => Sys2Proof.Machine.execMrcCaptureWindow s
  | .deferredTrigger input => Sys2Proof.Machine.execDeferredTrigger input s
  | .latchedTriggerAct input => Sys2Proof.Machine.execLatchedTriggerAct input s
  | .swPulse ini value => Sys2Proof.Machine.execSwPulse ini value s
  | .swLevel ini value => Sys2Proof.Machine.execSwLevel ini value s
  | .stampRead ini stamp => Sys2Proof.Machine.execStampRead ini stamp s
  | .cntWrite ini counter value => Sys2Proof.Machine.execCntWrite ini counter value s
  | .gpioEdge pin level => Sys2Proof.Machine.execGpioEdge pin level s
  | .gpioRelease ini => Sys2Proof.Machine.execGpioRelease ini s
  | .linkTrainStart down => Sys2Proof.Machine.execLinkTrainStart down s
  | .linkUp down => Sys2Proof.Machine.execLinkUp down s
  | .linkTrainTimeout down => Sys2Proof.Machine.execLinkTrainTimeout down s
  | .cellCrcFail down => Sys2Proof.Machine.execCellCrcFail down s
  | .linkDown down => Sys2Proof.Machine.execLinkDown down s
  | .casTimingExchange down sec ns rtt addend => Sys2Proof.Machine.execCasTimingExchange down sec ns rtt addend s
  | .enumeration found position => Sys2Proof.Machine.execEnumeration found position s
  | .casAccept ini position => Sys2Proof.Machine.execCasAccept ini position s
  | .casDrop ini position => Sys2Proof.Machine.execCasDrop ini position s
  | .forwardEntry flips => Sys2Proof.Machine.execForwardEntry flips s
  | .forwardReceive origin unlocked entry psdu flips => Sys2Proof.Machine.execForwardReceive origin unlocked entry psdu flips s
  | .casRxconsWrite ini value => Sys2Proof.Machine.execCasRxconsWrite ini value s
  | .casRcopy entry words refused flips => Sys2Proof.Machine.execCasRcopy entry words refused flips s
  | .casBroadcast entry refused flips => Sys2Proof.Machine.execCasBroadcast entry refused flips s
  | .casBarrier entry => Sys2Proof.Machine.execCasBarrier entry s
  | .casSnapshot entry => Sys2Proof.Machine.execCasSnapshot entry s
  | .snapshotCapture sec ns => Sys2Proof.Machine.execSnapshotCapture sec ns s
  | .casReset entry air => Sys2Proof.Machine.execCasReset entry air s
  | .casRegister entry report flips => Sys2Proof.Machine.execCasRegister entry report flips s
  | .casEnumerate entry found => Sys2Proof.Machine.execCasEnumerate entry found s
  | .hostFrame octets flips => Sys2Proof.Machine.execHostFrame octets flips s
  | .hostCsRise => Sys2Proof.Machine.execHostCsRise s
  | .serialTx entry lost nack flips => Sys2Proof.Machine.execSerialTx entry lost nack flips s
  | .serialRx entry octets lost nack => Sys2Proof.Machine.execSerialRx entry octets lost nack s
  | .serialXfer entry octets flips => Sys2Proof.Machine.execSerialXfer entry octets flips s
  | .dliSend entry collided back => Sys2Proof.Machine.execDliSend entry collided back s
  | .dliArm entry collided back => Sys2Proof.Machine.execDliArm entry collided back s
  | .uartRxOctet uart octet err => Sys2Proof.Machine.execUartRxOctet uart octet err s
  | .uartReport uart => Sys2Proof.Machine.execUartReport uart s
  | .daliMonitorFrame dli frame len => Sys2Proof.Machine.execDaliMonitorFrame dli frame len s
  | .i2cHoldTimeout i2c => Sys2Proof.Machine.execI2cHoldTimeout i2c s
  | .pwmWrap pwm => Sys2Proof.Machine.execPwmWrap pwm s
  | .launchTimeReached entry flips => Sys2Proof.Machine.execLaunchTimeReached entry flips s
  | .nbAgeMinute => Sys2Proof.Machine.execNbAgeMinute s

end Sys2Proof.Machine
end

