-- ==== Sys2Proof/Machine/Step.lean ====
section
/-! DEFINITION. One step of the block: the command at the front of the queue runs on the rest of the
queue; on an empty queue one fabric cycle passes. -/

namespace Sys2Proof.Machine

/-- With no command waiting, one cycle of the fabric clock passes: TIM counts where it runs (R241), and so do the
cycle counters of the cores (R312) and of the PWMs. Every other effect of time is an event command of its own. -/
def State.idleCycle (s : State) : State := s.fabricRun 1

/-- One step of the block. -/
def step (s : State) : Host.Outcome State Fault Refusal :=
  match s.pending with
  | [] => .next s.idleCycle
  | c :: rest => exec c { s with pending := rest }

/-- The state with the command that a word spells at the front of its queue. No row of the table gives
bits, so no word spells a command. -/
def State.withFetchWord (s : State) (nbits w : Nat) : State :=
  match Sys2Proof.decodeTableWord nbits w with
  | some c => { s with pending := c :: s.pending }
  | none => s

end Sys2Proof.Machine
end

