-- ==== Sys2Proof/Safety.lean ====
section
/-! DEFINITION. What a sound state of the part is, in the terms that the statements use: the canonical
form of its sparse data; the kinds of state, and what it is for a command to change some of them and
nothing else. -/

namespace Sys2Proof.Machine

/-! ### Sound states -/

/-- An entry of memory says something: its octet is not the one that its key reads as when unlisted. In a
region whose contents are lost, what an unlisted key reads as is unknown, and every written octet is listed. -/
def Memory.tells (s : State) (e : Host.Cell) : Bool := !(s.unwrittenKnown e.1 && e.2 == s.unwritten e.1)

/-- The canonical form of memory: addresses strictly rising, and no entry equal to what its address reads as
when unlisted. -/
def Memory.wf (s : State) : Bool := Sparse.rising s.mem && s.mem.all (Memory.tells s)

/-- The registers' canonical form: keys strictly rising. -/
def State.regsWf (s : State) : Bool := Sparse.rising s.regs

/-- A sound state: memory and registers are held in their canonical forms. -/
def State.wf (s : State) : Bool := Memory.wf s && s.regsWf

/-! ### Accesses -/

/-- The state in which a register of a page takes an access that the page serves: where it reaches a domain, that is outside
the header and through a bank that names a set, it has returned the domain's idle timer to 0 (R453, R57). -/
def State.accessed (s : State) (ini : Initiator) (page off : Nat) : State :=
  if isHeader off || s.staleSet ini page off then s else s.touch (s.domainOf page (s.setIndex page ini off))

/-! ### Kinds of state -/

/-- The kinds of state beside the registers of the pages, the variant's fuses and the queue. -/
inductive Part where
  | staged | claims | commits | mem | lost | doms | clk | ticks | replies | stalls | debugErr | freeCtr
  | flm | drc | flc | nmc | tim | recv | syn | txa | wrx | eth | rtc | per | tag | mrc | sec | pal | lnk
  | cpus | cas | upd | booted | testmode | inReset | vio | resetDue
  deriving DecidableEq, Repr

/-- Every kind of state. -/
def Part.every : List Part :=
  [.staged, .claims, .commits, .mem, .lost, .doms, .clk, .ticks, .replies, .stalls, .debugErr, .freeCtr] ++
  [.flm, .drc, .flc, .nmc, .tim, .recv, .syn, .txa, .wrx, .eth, .rtc, .per, .tag, .mrc, .sec, .pal, .lnk] ++
  [.cpus, .cas, .upd, .booted, .testmode, .inReset, .vio, .resetDue]

/-- Every kind of state but those named. -/
def Part.but (l : List Part) : List Part := Part.every.filter (fun p => !l.contains p)

/-- Two states agree in a kind of state. -/
def Part.same (p : Part) (s t : State) : Prop :=
  match p with
  | .staged => t.staged = s.staged
  | .claims => t.claims = s.claims
  | .commits => t.commits = s.commits
  | .mem => t.mem = s.mem
  | .lost => t.lost = s.lost
  | .doms => t.doms = s.doms
  | .clk => t.clk = s.clk
  | .ticks => t.ticks = s.ticks
  | .replies => t.replies = s.replies
  | .stalls => t.stalls = s.stalls
  | .debugErr => t.debugErr = s.debugErr
  | .freeCtr => t.freeCtr = s.freeCtr
  | .flm => t.flm = s.flm
  | .drc => t.drc = s.drc
  | .flc => t.flc = s.flc
  | .nmc => t.nmc = s.nmc
  | .tim => t.tim = s.tim
  | .recv => t.recv = s.recv
  | .syn => t.syn = s.syn
  | .txa => t.txa = s.txa
  | .wrx => t.wrx = s.wrx
  | .eth => t.eth = s.eth
  | .rtc => t.rtc = s.rtc
  | .per => t.per = s.per
  | .tag => t.tag = s.tag
  | .mrc => t.mrc = s.mrc
  | .sec => t.sec = s.sec
  | .pal => t.pal = s.pal
  | .lnk => t.lnk = s.lnk
  | .cpus => t.cpus = s.cpus
  | .cas => t.cas = s.cas
  | .upd => t.upd = s.upd
  | .booted => t.booted = s.booted
  | .testmode => t.testmode = s.testmode
  | .inReset => t.inReset = s.inReset
  | .vio => t.vio = s.vio
  | .resetDue => t.resetDue = s.resetDue

/-- What a change may reach: kinds of state, and the pages whose registers it may write, or every page. -/
structure Touch where
  parts : List Part := []
  pages : List Nat := []
  all : Bool := false
  deriving DecidableEq, Repr

/-- What an access of the fabric may reach: everything but the count of slow ticks, the TESTMODE strap and the
supplies, since a register write may reset, stop or start any unit of the part. -/
def Touch.bus : Touch := { parts := Part.but [.ticks, .testmode, .inReset, .vio], all := true }

/-- One touch is contained in another. -/
def Touch.le (v w : Touch) : Bool :=
  v.parts.all w.parts.contains && (w.all || (!v.all && v.pages.all w.pages.contains))

/-- A state follows another within a touch: the fuses and the queue stand, a sound state stays sound, and
every kind of state and every register of a page outside the touch is unchanged. -/
structure Within (w : Touch) (s t : State) : Prop where
  variant : t.variant = s.variant
  pending : t.pending = s.pending
  wf : s.wf = true → t.wf = true
  regs : w.all = false → ∀ page idx off, page ∉ w.pages → t.reg page idx off = s.reg page idx off
  same : ∀ p, p ∉ w.parts → p.same s t

/-- An outcome's next state, if any, follows a state within a touch. -/
def OutWithin (w : Touch) (s : State) (o : Host.Outcome State Fault Refusal) : Prop :=
  ∀ t, o = .next t → Within w s t

/-! ### Accesses of the units -/

/-- A unit's read of `n` octets is served at once, every octet of it known. -/
def State.reads (s : State) (a n : Nat) (bs : List Byte) (t : State) : Prop :=
  ∃ os e, s.unitRead a n = (t, .ok os e) ∧ knownBytes os = some bs

/-- A unit's write of octets is served at once. -/
def State.writes (s : State) (a : Nat) (bs : List Byte) (t : State) : Prop := ∃ e, s.unitWrite a bs = (t, .ok () e)

/-- A key item of Palette stands to be executed (R355), its parameter block `b` read, and it may work on its page. -/
def State.keyTurn (s : State) (op entry : Nat) (i : Item) (b : List Byte) (t : State) : Prop :=
  s.item entry = some i ∧ i.unit = Pg.pal ∧ i.opcode = op ∧ i.st = .active ∧ i.result = none ∧ (i.timed = true → i.launched = true) ∧
  s.sec.puf.isSome = true ∧ s.ready Dm.sec = true ∧ s.pal.erases.any (fun e => e.2 == entry) = false ∧
  s.reads i.addrA 32 b t ∧ t.palMay i true = true

/-- The field of a reader item: it stands already, or the part switches its own on where it senses no other (R436). -/
def State.fieldFor (s : State) (foreign : Bool) : Option State :=
  if !bit (s.tagReg 0x800) 31 then none
  else if s.tag.own then some s
  else if foreign ∨ s.tag.field then none
  else some (s.setTag (fun t => { t with own := true, ext := false, sess := 0, sel := [] }))

/-- An exchange with a tag succeeds within its tries, with `n0` made before: the data, and what is reported (R437, R438). -/
def State.answered (s : State) (answers : List UpReply) (n0 : Nat) (data : List Byte) (r : TagRep) : Prop :=
  ∃ n last, (exchange s.tagTries (answers.map replyAnswer) n0 0 = .ok 0 data n last ∧ r = { exchanges := n, last }) ∨
    (exchange s.tagTries (answers.map replyAnswer) n0 0 = .ok 6 data n last ∧ r = { exchanges := n, last, stale := true })

/-! ### The course of an instruction of a core (R277, R278)

An instruction goes its course when the core comes to it, its bytes are fetched, its operands are read and
its destinations may be written. The statements about instructions name these stages. -/

/-- The operand size of a long instruction of a family with sizes (R287). -/
abbrev opSize (f : LongForm) : Nat := sizeOf f.size.toNat

/-- The core comes to an instruction of these octets, which its fetch answers: the evaluation of its operands begins. -/
def State.begins (s : State) (c : Core) (via : Fetch) (code : List Byte) : Option Ev :=
  let u := s.applyFlips via.flips
  if u.coreGoes c then
    match u.fetchInsn c via.hit (u.cpu c).pc with
    | .ok bs t => if bs = code then some { s := t, c, x := u.cpu c, pc := (u.cpu c).pc } else none
    | _ => none
  else none

/-- A long instruction with these fields begins, and its word spells OPC and nothing illegal: its operands, and their
evaluation. -/
def State.beginsShaped (s : State) (c : Core) (opc : Nat) (f : LongForm) (h : Shape) : Option (Opnds × Ev) :=
  if f.stands c && f.opc == opc && h.legal f then (s.begins c f.via (f.code (h.bytes c f))).map (fun e => (h.opnds f, e)) else none

/-- A long instruction of an OPC begins. -/
def State.beginsLong (s : State) (c : Core) (opc : Nat) (f : LongForm) : Option (Opnds × Ev) :=
  s.beginsShaped c opc f ((shapeOf opc).getD {})

/-- A 16-bit instruction of a control core begins, its halfword spelling OP5. -/
def State.beginsShort (s : State) (c : Core) (op5 : Nat) (f : ShortForm) : Option Ev :=
  if c.link || bit f.half 15 || f.op5 != op5 then none else s.begins c f.via f.code

/-- Function `func` of coprocessor `cp` begins, in bank 0, its fields those of `h`: its operands, and their evaluation. -/
def State.beginsCop (s : State) (c : Core) (cp func : Nat) (f : LongForm) (h : Shape) : Option (Opnds × Ev) :=
  let o := copABD.opnds f
  if f.stands c && f.opc == 0xE0 + 2 * cp && fnFunc o.own == func && h.fits f o then
    (s.begins c f.via (f.code (lengthOf c f.word))).map (fun e => (o, e)) else none

/-- An instruction's effect commits after the evaluation `e` of its operands. -/
def State.ends (s : State) (c : Core) (via : Fetch) (i : Info) (e : Ev) (f : Eff) : State :=
  let u := s.applyFlips via.flips
  u.commitCore e.s c i (u.cpu c).pc f

/-- The effect of a long instruction, and of a short one, commits. -/
def State.endsLong (s : State) (c : Core) (opc : Nat) (f : LongForm) (e : Ev) (x : Eff) : State :=
  s.ends c f.via { len := ((shapeOf opc).getD {}).bytes c f, opc } e x
def State.endsShort (s : State) (c : Core) (op5 : Nat) (f : ShortForm) (e : Ev) (x : Eff) : State :=
  s.ends c f.via { len := 2, opc := op5, short := true } e x

/-- D ← g(A) on operands of `k` and `m` bytes, with g's flags: from every state in which A is read and D may be
written, the command answers that. `g` is given the form and the status word. -/
def LongUnary (cmd : Core → LongForm → Instr) (opc : LongForm → Nat) (ok : LongForm → Prop) (k m : LongForm → Nat)
    (g : LongForm → Word → Word → Alu) : Prop :=
  ∀ (c : Core) (f : LongForm) (s : State) (o : Opnds) (e e1 e2 : Ev) (a : Word) (l : Loc),
    s.beginsLong c (opc f) f = some (o, e) → ok f → e.src (k f) o.a = .ok a e1 → e1.dst (m f) o.d = .ok l e2 →
    exec (cmd c f) s = .next (s.endsLong c (opc f) f e2
      ((e2.eff.put (m f) l (g f e2.x.sw a).val).flags (g f e2.x.sw a).flags))

/-- D ← g(A, B) on operands of `k` bytes, with g's flags. -/
def LongBinary (cmd : Core → LongForm → Instr) (opc : LongForm → Nat) (ok : LongForm → Prop) (k : LongForm → Nat)
    (g : LongForm → Word → Word → Word → Alu) : Prop :=
  ∀ (c : Core) (f : LongForm) (s : State) (o : Opnds) (e e1 e2 e3 : Ev) (a b : Word) (l : Loc),
    s.beginsLong c (opc f) f = some (o, e) → ok f → e.src (k f) o.a = .ok a e1 → e1.src (k f) o.b = .ok b e2 →
    e2.dst (k f) o.d = .ok l e3 →
    exec (cmd c f) s = .next (s.endsLong c (opc f) f e3
      ((e3.eff.put (k f) l (g f e3.x.sw a b).val).flags (g f e3.x.sw a b).flags))

/-- The flags of g(A, B), and no result. -/
def LongCompare (cmd : Core → LongForm → Instr) (opc : LongForm → Nat) (ok : LongForm → Prop) (k : LongForm → Nat)
    (g : LongForm → Word → Word → Alu) : Prop :=
  ∀ (c : Core) (f : LongForm) (s : State) (o : Opnds) (e e1 e2 : Ev) (a b : Word),
    s.beginsLong c (opc f) f = some (o, e) → ok f → e.src (k f) o.a = .ok a e1 → e1.src (k f) o.b = .ok b e2 →
    exec (cmd c f) s = .next (s.endsLong c (opc f) f e2 (e2.eff.flags (g f a b).flags))

/-- A long instruction that takes no operand from memory: its effect, of the operands and their evaluation. -/
def LongPlain (cmd : Core → LongForm → Instr) (opc : Nat) (ok : LongForm → Prop) (x : LongForm → Opnds → Ev → Eff) : Prop :=
  ∀ (c : Core) (f : LongForm) (s : State) (o : Opnds) (e : Ev), s.beginsLong c opc f = some (o, e) → ok f →
    exec (cmd c f) s = .next (s.endsLong c opc f e (x f o e))

/-- A short instruction of a control core X ← g(X, Y): X is located once, and read before Y. -/
def ShortBinary (cmd : Core → ShortForm → Instr) (op5 : Nat) (g : Word → Word → Alu) : Prop :=
  ∀ (c : Core) (f : ShortForm) (s : State) (e e1 e2 e3 : Ev) (a b : Word), s.beginsShort c op5 f = some e →
    let l := (e.locate 4 (shortOpnd f.x)).1
    (e.locate 4 (shortOpnd f.x)).2.read 4 l = .ok a e1 → e1.src 4 (shortOpnd f.y) = .ok b e2 → e2.check 4 l = .ok () e3 →
    exec (cmd c f) s = .next (s.endsShort c op5 f e3 ((e3.eff.put 4 l (g a b).val).flags (g a b).flags))

/-- A short instruction X ← g(Y). -/
def ShortUnary (cmd : Core → ShortForm → Instr) (op5 : Nat) (g : Word → Alu) : Prop :=
  ∀ (c : Core) (f : ShortForm) (s : State) (e e1 e2 : Ev) (b : Word) (l : Loc), s.beginsShort c op5 f = some e →
    e.src 4 (shortOpnd f.y) = .ok b e1 → e1.dst 4 (shortOpnd f.x) = .ok l e2 →
    exec (cmd c f) s = .next (s.endsShort c op5 f e2 ((e2.eff.put 4 l (g b).val).flags (g b).flags))

/-- A short instruction that sets the flags of g(X, Y). -/
def ShortCompare (cmd : Core → ShortForm → Instr) (op5 : Nat) (g : Word → Word → Alu) : Prop :=
  ∀ (c : Core) (f : ShortForm) (s : State) (e e1 e2 : Ev) (a b : Word), s.beginsShort c op5 f = some e →
    e.src 4 (shortOpnd f.x) = .ok a e1 → e1.src 4 (shortOpnd f.y) = .ok b e2 →
    exec (cmd c f) s = .next (s.endsShort c op5 f e2 (e2.eff.flags (g a b).flags))

/-- A short instruction X ← g(X), Y a value. -/
def ShortImmediate (cmd : Core → ShortForm → Instr) (op5 : Nat) (g : Word → BitVec 5 → Alu) : Prop :=
  ∀ (c : Core) (f : ShortForm) (s : State) (e e1 e2 : Ev) (a : Word), s.beginsShort c op5 f = some e →
    let l := (e.locate 4 (shortOpnd f.x)).1
    (e.locate 4 (shortOpnd f.x)).2.read 4 l = .ok a e1 → e1.check 4 l = .ok () e2 →
    exec (cmd c f) s = .next (s.endsShort c op5 f e2 ((e2.eff.put 4 l (g a f.y).val).flags (g a f.y).flags))

/-- A short instruction that takes no operand from memory. -/
def ShortPlain (cmd : Core → ShortForm → Instr) (op5 : Nat) (ok : ShortForm → Prop) (x : ShortForm → Ev → Eff) : Prop :=
  ∀ (c : Core) (f : ShortForm) (s : State) (e : Ev), s.beginsShort c op5 f = some e → ok f →
    exec (cmd c f) s = .next (s.endsShort c op5 f e (x f e))

/-- The effect of a coprocessor function commits. -/
def State.endsCop (s : State) (c : Core) (cp : Nat) (f : LongForm) (e : Ev) (x : Eff) : State :=
  s.ends c f.via { len := lengthOf c f.word, opc := 0xE0 + 2 * cp } e x

end Sys2Proof.Machine
end

