-- ==== Sys2Proof/Machine/Footprint.lean ====
section
/-! DEFINITION. The footprint of every command: the kinds of state that it may change, and the pages whose
registers it may write. It names what the chapters let the command reach, and bounds the meaning from outside:
the meanings do not use it. -/

namespace Sys2Proof.Machine

/-- What a command may change. An access of the fabric through a register may reach whatever that register
controls (`Touch.bus`); every other command reaches the units that its row names, and the clocks, counters and
reports that they share. -/
def footprint : Instr → Touch
  | .registerWrite .. | .rcFieldRead .. | .stalledAccessServe .. | .stagedWrite .. | .interruptEntry ..
  | .pairedWord .. | .nop .. | .mov .. | .add .. | .sub .. | .and .. | .or .. | .xor .. | .cmp .. | .neg .. | .not ..
  | .adc .. | .sbc .. | .tst .. | .movi .. | .addi .. | .shli .. | .shri .. | .sari .. | .movsb .. | .movsh ..
  | .movzb .. | .movzh .. | .mul .. | .mulhs .. | .mulhu .. | .divs .. | .divu .. | .rems .. | .remu .. | .shl ..
  | .shr .. | .sar .. | .rol .. | .ror .. | .clz .. | .brev .. | .bswap .. | .mac .. | .msu .. | .macdR .. | .macdC ..
  | .macdCj .. | .clra .. | .sac .. | .lac .. | .acc0Clear .. | .acc1Clear .. | .accAdd .. | .accSub .. | .accSwap ..
  | .accNegate .. | .mfs .. | .mts .. | .xchg .. | .casOp .. | .j .. | .bcc .. | .bra .. | .beq .. | .bne ..
  | .call .. | .ret .. | .callm .. | .retm .. | .reti .. | .trap .. | .loop .. | .brkl .. | .wfi .. | .sync ..
  | .icinv .. | .bkpt .. | .di .. | .ei .. | .emul .. | .xor128 .. | .gfmul .. | .ctrinc .. | .rev128 .. | .xcorr ..
  | .energy .. | .peak .. | .crc16 .. | .crc32 .. | .pn9 .. | .conv .. | .softwarePartReset .. | .watchdogExpire ..
  | .deferredResetApply .. | .casBroadcast .. | .casReset .. | .hostFrame .. => Touch.bus
  | .chselWrite _ page _ | .intClear _ page _ _ | .intSet _ page _ | .intEnWrite _ page _ | .errClear _ page _
  | .pageLock _ page _ | .pageUnlock _ page _ => { parts := [.doms, .replies, .stalls, .debugErr, .mrc], pages := [page, Pg.sec] }
  | .blockEnable .. | .softReset .. | .domainRequest .. =>
    { parts := Part.but [.clk, .ticks, .booted, .testmode, .inReset, .vio, .resetDue], all := true }
  | .cfgCommit _ page _ | .cfgDiscard _ page _ =>
    { parts := [.staged, .claims, .commits, .doms, .replies, .stalls, .debugErr, .mrc], pages := [page, Pg.sec] }
  | .commitSwitch .. => { parts := [.staged, .claims, .commits, .doms, .tim, .recv, .syn, .tag, .mrc, .lnk], all := true }
  | .wrProdWrite .. | .trCfgWrite .. | .trConsWrite .. => { parts := [.doms, .replies, .stalls, .debugErr, .mrc], pages := [Pg.flm, Pg.sec] }
  | .ringEnable .. | .ringResume .. => { parts := [.doms, .replies, .stalls, .debugErr, .flm, .mrc], pages := [Pg.flm, Pg.sec] }
  | .ringAbort .. =>
    { parts := Part.but [.mem, .lost, .clk, .ticks, .drc, .tim, .wrx, .rtc, .sec, .cpus, .cas, .upd, .booted, .testmode, .inReset, .vio, .resetDue], all := true }
  | .descriptorFetch .. => { parts := [.doms, .freeCtr, .flm, .drc, .flc, .mrc], pages := [Pg.drc, Pg.flc, Pg.flm] }
  | .itemIssue .. => { parts := [.doms, .flm, .mrc], pages := [Pg.flm] }
  | .itemFinish .. | .domainOn .. =>
    { parts := Part.but [.clk, .ticks, .replies, .debugErr, .booted, .testmode, .inReset, .vio, .resetDue], all := true }
  | .itemRetire .. => { parts := [.staged, .claims, .commits, .mem, .doms, .flm, .drc, .flc, .mrc], all := true }
  | .tailraceModTime .. => { pages := [Pg.flm] }
  | .reportPost .. => { parts := [.mem, .doms, .flm, .drc, .mrc], pages := [Pg.flm, Pg.drc] }
  | .settlingDone .. | .antMeasureSwitch .. | .nbRetuneDone => { parts := [.recv] }
  | .slotDetect .. => { parts := [.freeCtr, .recv, .mrc], pages := [Pg.chz, Pg.phy] }
  | .sfdFound .. => { parts := [.recv], pages := [Pg.chz, Pg.phy] }
  | .sfdTimeout .. | .txBlankEnd | .nbDwellEnd => { parts := [.staged, .claims, .commits, .doms, .recv, .syn, .mrc, .lnk], all := true }
  | .phrDecode .. => { parts := [.staged, .claims, .commits, .mem, .doms, .flm, .drc, .recv, .syn, .mrc, .lnk], all := true }
  | .frameEnd .. => { parts := [.staged, .claims, .commits, .mem, .doms, .flm, .drc, .flc, .recv, .syn, .mrc, .lnk], all := true }
  | .hopperChunkCopy .. => { parts := [.mem, .doms, .flm, .drc, .flc, .recv, .mrc, .lnk], pages := [Pg.drc, Pg.flm, Pg.phy] }
  | .hrConsWrite .. | .hopperRingEnable .. => { parts := [.doms, .replies, .stalls, .debugErr, .mrc], pages := [Pg.phy, Pg.sec] }
  | .nfWindowEnd .. => { parts := [.recv], pages := [Pg.chz] }
  | .nfSnapshot => { parts := [.mem, .doms, .flm, .drc, .recv, .mrc], pages := [Pg.drc, Pg.chz] }
  | .agcStep .. | .iqConverge .. => { parts := [.recv, .mrc], pages := [Pg.rfe] }
  | .adcClip => { parts := [.recv, .mrc], pages := [Pg.chz] }
  | .gapStart .. => { parts := [.mem, .doms, .flm, .drc, .flc, .recv, .syn, .mrc, .lnk], pages := [Pg.chz, Pg.syn, Pg.drc, Pg.flm, Pg.phy, Pg.lnk] }
  | .gapEnd => { parts := [.staged, .claims, .commits, .doms, .freeCtr, .flm, .recv, .syn, .mrc, .lnk], all := true }
  | .gapGrant .. | .rxLockLost | .driftAnchorSweep => { parts := [.syn] }
  | .txBlankStart .. => { parts := [.mem, .doms, .flm, .drc, .flc, .recv, .txa, .mrc, .lnk], pages := [Pg.chz, Pg.drc, Pg.flm, Pg.phy, Pg.lnk] }
  | .antselWrite .. | .iqseedWrite .. => { parts := [.doms, .replies, .stalls, .debugErr, .mrc], pages := [Pg.rfe, Pg.sec] }
  | .antSwitch => { parts := [.mrc], pages := [Pg.rfe] }
  | .antMeasureChoose .. => { parts := [.freeCtr, .recv] }
  | .nbStop .. | .nbCycle .. | .nbRunLnk .. => { parts := [.doms, .replies, .stalls, .debugErr, .recv, .syn, .mrc], pages := [Pg.phy, Pg.sec] }
  | .tuneRequest .. | .rampBeginPassed .. | .rampDownDone | .txLockLost | .lbtListenStart .. | .lbtListenEnd ..
  | .backoffExpire .. | .ackWaitEnd .. => { parts := [.staged, .claims, .commits, .doms, .flm, .recv, .syn, .txa, .mrc, .lnk], all := true }
  | .loopLock .. => { parts := [.staged, .claims, .commits, .doms, .freeCtr, .recv, .syn, .txa, .mrc, .lnk], all := true }
  | .lockTimeout .. => { parts := [.staged, .claims, .commits, .mem, .doms, .flm, .drc, .recv, .syn, .txa, .mrc, .lnk], all := true }
  | .tempUpdate .. | .vtEdge .. => { parts := [.syn, .mrc], pages := [Pg.syn] }
  | .synCal .. => { parts := [.doms, .freeCtr, .flm, .syn], pages := [Pg.rfe, Pg.syn] }
  | .storeTEntry .. => { parts := [.freeCtr, .flm, .syn, .txa] }
  | .anchorTStep => { parts := [.flm, .syn, .txa], pages := [Pg.syn] }
  | .storeSave .. | .updArm .. | .drcFill .. => { parts := [.mem, .doms, .flm, .drc, .flc, .mrc], pages := [Pg.drc] }
  | .storeLoad .. => { parts := [.doms, .freeCtr, .flm, .drc, .flc, .syn, .mrc], pages := [Pg.drc, Pg.flc] }
  | .rampBegin | .lastSymbolOut => { parts := [.txa, .lnk] }
  | .femLead | .femLag | .rampUpDone => { parts := [.txa] }
  | .holdExpire => { parts := [.syn, .txa] }
  | .wrxPeriodStart | .wrxOnEnd .. | .wrxHuntTimeout => { parts := [.wrx], pages := [Pg.wrx] }
  | .wrxEnergyDetect .. | .wrxCodeMatch .. => { parts := [.wrx, .mrc], pages := [Pg.wrx] }
  | .lnkTx .. => { parts := [.doms, .freeCtr, .flm, .drc, .flc, .mrc, .lnk], pages := [Pg.drc, Pg.flc, Pg.lnk] }
  | .lnkRxwin .. => { parts := [.doms, .clk, .flm, .recv, .syn, .mrc, .lnk], pages := [Pg.pwr, Pg.lnk] }
  | .rxwinWindowEnd .. => { parts := [.flm, .recv, .syn, .lnk] }
  | .lnkWakecode .. => { parts := [.flm, .mrc, .lnk], pages := [Pg.lnk] }
  | .ackReceive .. =>
    { parts := Part.but [.lost, .clk, .ticks, .replies, .stalls, .debugErr, .freeCtr, .nmc, .wrx, .eth, .rtc, .per, .tag, .sec, .pal, .cpus, .cas, .upd, .booted, .testmode, .inReset, .vio, .resetDue], all := true }
  | .ackInstant => { parts := [.staged, .claims, .commits, .doms, .recv, .syn, .txa, .mrc, .lnk], all := true }
  | .dwellWindowFree .. | .nbAgeMinute => { parts := [.lnk] }
  | .lnkRxSecurity .. => { parts := [.mem, .doms, .flm, .drc, .flc, .tim, .recv, .syn, .mrc, .lnk], pages := [Pg.flm, Pg.phy, Pg.drc, Pg.lnk] }
  | .sampleStart => { parts := [.doms, .clk, .recv, .syn, .mrc, .lnk], pages := [Pg.lnk, Pg.pwr] }
  | .dataWindowOpen => { parts := [.doms, .clk, .recv, .syn, .mrc, .lnk], pages := [Pg.pwr, Pg.lnk] }
  | .dataWindowEnd | .fpListenEnd => { parts := [.recv, .syn, .lnk] }
  | .nbStateRead .. => { parts := [.doms, .replies, .stalls, .debugErr, .flm, .mrc, .lnk], pages := [Pg.lnk, Pg.sec] }
  | .unanchor .. | .pendSet .. | .pendClr .. => { parts := [.doms, .replies, .stalls, .debugErr, .mrc, .lnk], pages := [Pg.lnk, Pg.sec] }
  | .beaconWindowOpen => { parts := [.doms, .clk, .flm, .recv, .syn, .mrc, .lnk], pages := [Pg.lnk, Pg.pwr] }
  | .beaconWindowClose | .searchPassEnd => { parts := [.doms, .flm, .recv, .syn, .mrc, .lnk], pages := [Pg.lnk] }
  | .lnkEventPost => { parts := [.mem, .doms, .flm, .drc, .mrc, .lnk], pages := [Pg.drc, Pg.flm] }
  | .keyEraseEffect .. => { parts := [.flm, .pal] }
  | .timNsRead .. => { parts := [.doms, .replies, .stalls, .debugErr, .tim, .mrc], pages := [Pg.tim, Pg.sec] }
  | .timSet | .timStep | .timSlew => { parts := [.staged, .claims, .commits, .tim, .mrc], all := true }
  | .slewDone | .timSecond => { parts := [.staged, .claims, .commits, .tim, .txa, .per, .mrc, .cpus], all := true }
  | .cmpFire .. | .ppsInCapture .. => { parts := [.mrc], pages := [Pg.tim] }
  | .ppsOutPulse | .ppsOutPulseEnd => { parts := [.tim] }
  | .beaconSync | .timWakeLoad => { parts := [.tim, .mrc], pages := [Pg.tim] }
  | .tickperWindowEnd => { parts := [.freeCtr, .tim, .rtc, .mrc], pages := [Pg.rtc] }
  | .ethTx .. => { parts := [.doms, .freeCtr, .flm, .drc, .flc, .eth, .mrc], pages := [Pg.drc, Pg.flc] }
  | .ethFrameReceive .. => { parts := [.mem, .doms, .flm, .drc, .flc, .mrc], pages := [Pg.eth, Pg.drc] }
  | .ethRxconsWrite .. | .mdioTransfer .. => { parts := [.doms, .replies, .stalls, .debugErr, .mrc], pages := [Pg.eth, Pg.sec] }
  | .mdioDone .. => { pages := [Pg.eth] }
  | .ethLinkChange .. | .ethMagicPacket => { parts := [.eth] }
  | .coreRun .. | .coreHalt .. => { parts := [.doms, .replies, .stalls, .debugErr, .mrc, .cpus], all := true }
  | .wfiWake .. => { parts := [.cpus] }
  | .drkReconstructDone .. | .rngHealthFail | .debugTokenVerdict => { parts := [.mrc, .sec], pages := [Pg.sec] }
  | .secHash .. | .secSign .. | .secAttest .. | .keyWrap .. =>
    { parts := [.mem, .doms, .freeCtr, .flm, .drc, .flc, .mrc], pages := [Pg.drc, Pg.sec, Pg.flc] }
  | .secVerify .. => { parts := [.doms, .freeCtr, .flm, .drc, .flc, .mrc], pages := [Pg.drc, Pg.flc, Pg.sec] }
  | .secRandom .. | .secPubkey .. => { parts := [.mem, .doms, .freeCtr, .flm, .drc, .flc, .mrc], pages := [Pg.drc, Pg.sec] }
  | .secExtend .. | .ownerAdd .. | .ownerRevoke .. | .ownerRetire .. =>
    { parts := [.doms, .freeCtr, .flm, .drc, .flc, .mrc, .sec], pages := [Pg.drc, Pg.flc, Pg.sec] }
  | .secEnroll .. => { parts := [.mem, .doms, .freeCtr, .flm, .drc, .flc, .mrc, .sec], pages := [Pg.drc, Pg.sec, Pg.flc] }
  | .debugTokenWrite .. => { parts := [.sec] }
  | .pageClaim .. | .pageRelease .. => { parts := [.doms, .replies, .stalls, .debugErr, .mrc, .pal], pages := [Pg.pal, Pg.sec] }
  | .pageScrubDone .. => { parts := [.mrc, .pal], pages := [Pg.pal] }
  | .palEncrypt .. | .palDecrypt .. | .palMacGen .. | .palMacCheck .. =>
    { parts := [.mem, .doms, .freeCtr, .flm, .drc, .flc, .mrc, .pal], pages := [Pg.pal, Pg.drc, Pg.sec, Pg.flc] }
  | .keyLoad .. | .keyDerive .. | .keyGen .. | .keyErase .. | .engineDispatch .. =>
    { parts := [.doms, .freeCtr, .flm, .drc, .flc, .mrc, .pal], pages := [Pg.drc, Pg.flc, Pg.sec] }
  | .keyUnwrap .. => { parts := [.doms, .freeCtr, .flm, .drc, .flc, .mrc, .pal], pages := [Pg.pal, Pg.drc, Pg.flc, Pg.sec] }
  | .messageSuspend .. => { parts := [.pal], pages := [Pg.pal] }
  | .primerBoot .. => { parts := [.mem, .doms, .clk, .freeCtr, .flm, .flc, .nmc, .mrc, .sec, .cpus, .upd, .booted], all := true }
  | .updOpen .. => { parts := [.doms, .freeCtr, .flm, .drc, .flc, .mrc, .upd], pages := [Pg.drc, Pg.flc] }
  | .updChunk .. => { parts := [.doms, .freeCtr, .flm, .drc, .flc, .mrc, .upd], pages := [Pg.upd, Pg.drc, Pg.flc] }
  | .channelTrain .. => { parts := [.doms, .replies, .stalls, .debugErr, .mrc], pages := [Pg.drc, Pg.sec] }
  | .trainingDone .. => { parts := [.mrc], pages := [Pg.drc] }
  | .drcRefresh .. => { parts := [.drc] }
  | .parityAlert .. | .eccWindowEnd => { parts := [.drc], pages := [Pg.drc] }
  | .parityReplayDone .. | .alertStuck .. => { parts := [.mem, .freeCtr, .flm, .drc, .mrc], pages := [Pg.drc] }
  | .migrationStart .. | .migrationStop .. => { parts := [.doms, .replies, .stalls, .debugErr, .flm, .drc, .mrc], pages := [Pg.drc, Pg.sec] }
  | .migrationSlotCopy .. => { parts := [.mem, .flm, .drc, .flc, .mrc], pages := [Pg.drc] }
  | .migrationDone => { parts := [.flm, .drc, .mrc], pages := [Pg.drc] }
  | .drcCopy .. => { parts := [.mem, .doms, .freeCtr, .flm, .drc, .flc, .mrc], pages := [Pg.drc, Pg.flc] }
  | .drcScrub .. | .flcVerify .. | .flcProtect .. => { parts := [.doms, .freeCtr, .flm, .drc, .flc, .mrc], pages := [Pg.drc, Pg.flc] }
  | .flcProgram .. => { parts := [.doms, .freeCtr, .flm, .drc, .flc, .mrc], pages := [Pg.flc, Pg.drc] }
  | .flcErase .. => { parts := [.doms, .flm, .flc, .mrc], pages := [Pg.flc] }
  | .flcCounters .. => { parts := [.mem, .doms, .flm, .drc, .mrc], pages := [Pg.drc] }
  | .erasePulse .. | .programWord .. => { parts := [.mem, .freeCtr, .flm, .flc, .mrc, .cpus], pages := [Pg.flc] }
  | .flashUnlock .. | .flashRelock .. => { parts := [.doms, .replies, .stalls, .debugErr, .flc, .mrc], pages := [Pg.flc, Pg.sec] }
  | .eraseResume .. => { parts := [.mem, .freeCtr, .flc, .mrc, .cpus], pages := [Pg.flc] }
  | .nandRead .. => { parts := [.mem, .doms, .flm, .drc, .nmc, .mrc], pages := [Pg.nmc, Pg.drc] }
  | .nandProgram .. => { parts := [.doms, .freeCtr, .flm, .drc, .flc, .nmc, .mrc], pages := [Pg.drc, Pg.flc, Pg.nmc] }
  | .nandErase .. | .nandMount .. => { parts := [.mem, .doms, .freeCtr, .flm, .drc, .nmc, .mrc], pages := [Pg.drc, Pg.nmc] }
  | .nandFlush .. => { parts := [.doms, .flm, .nmc] }
  | .nandFormat .. | .patrolStep .. => { parts := [.doms, .flm, .nmc, .mrc], pages := [Pg.nmc] }
  | .wbHoldExpire .. => { parts := [.flm, .nmc, .mrc], pages := [Pg.nmc] }
  | .nandOpDone .. | .nandRelocation .. | .staticWearMove .. =>
    { parts := [.mem, .doms, .freeCtr, .flm, .drc, .nmc, .mrc], pages := [Pg.nmc, Pg.drc] }
  | .tagInventory .. => { parts := [.mem, .doms, .freeCtr, .flm, .drc, .flc, .tag, .mrc], pages := [Pg.drc, Pg.tag, Pg.flc] }
  | .tagSelect .. | .tagPassword .. | .tagWrite .. | .tagVerifyOrigin .. | .tagTset .. | .tagSwrite .. =>
    { parts := [.doms, .freeCtr, .flm, .drc, .flc, .tag, .mrc], pages := [Pg.tag, Pg.drc, Pg.flc] }
  | .tagAuthenticate .. => { parts := [.doms, .freeCtr, .flm, .tag, .mrc], pages := [Pg.tag] }
  | .tagRead .. => { parts := [.mem, .doms, .flm, .drc, .tag, .mrc], pages := [Pg.drc, Pg.tag] }
  | .tagHalt .. => { parts := [.flm, .tag, .mrc], pages := [Pg.tag] }
  | .tagSread .. => { parts := [.mem, .doms, .freeCtr, .flm, .drc, .tag, .mrc], pages := [Pg.tag, Pg.drc] }
  | .fieldHoldExpire | .fieldLost | .lockoutEnd | .cmdInventory .. | .cmdSelect .. | .cmdHalt | .tagReply => { parts := [.tag] }
  | .fieldDetect .. | .cmdRead .. | .cmdWrite .. => { parts := [.tag, .mrc], pages := [Pg.tag] }
  | .cmdPwd .. | .cmdAuth2 .. => { parts := [.tag], pages := [Pg.tag] }
  | .cmdAuth1 .. => { parts := [.freeCtr, .tag] }
  | .dirtyReport => { parts := [.flm, .tag] }
  | .idleTimerExpire .. | .domainSave .. | .domainSwitch .. => { parts := [.doms] }
  | .domainIdleCommit .. | .domainEntryDone .. =>
    { parts := Part.but [.ticks, .replies, .debugErr, .booted, .testmode, .inReset, .vio, .resetDue], all := true }
  | .domainWake .. => { parts := [.doms, .clk], pages := [Pg.pwr] }
  | .wakeSource .. => { parts := [.doms, .mrc, .cas], pages := [Pg.pwr] }
  | .xtalFail => { parts := [.clk, .tim, .rtc, .mrc], pages := [Pg.pwr, Pg.rtc] }
  | .xtalRetry .. => { parts := [.doms, .clk, .replies, .stalls, .debugErr, .rtc, .mrc], pages := [Pg.pwr, Pg.sec] }
  | .refCheck .. => { parts := [.clk] }
  | .refFail => { parts := [.mrc], pages := [Pg.pwr] }
  | .pllLock .. => { parts := [.clk, .tim] }
  | .vcoreChange .. => { parts := [.doms, .clk, .replies, .stalls, .debugErr, .mrc], pages := [Pg.pwr, Pg.sec] }
  | .vcoreDone => { parts := [.clk, .mrc], pages := [Pg.pwr] }
  | .resetN .. => { parts := Part.but [.ticks, .inReset, .vio], all := true }
  | .powerOn .. => { parts := Part.but [.ticks], all := true }
  | .brownOut => { parts := Part.but [.ticks, .testmode, .vio], all := true }
  | .rtcTick => { parts := Part.but [.replies, .debugErr, .booted, .testmode, .inReset, .vio, .resetDue], all := true }
  | .rtcRead .. | .goTime .. | .goDate .. | .goWday .. => { parts := [.doms, .replies, .stalls, .debugErr, .rtc, .mrc], pages := [Pg.rtc, Pg.sec] }
  | .rtcLoad => { parts := [.rtc, .mrc], pages := [Pg.rtc] }
  | .zcEdge .. => { parts := [.rtc, .mrc] }
  | .zcWindowEnd => { parts := [.freeCtr, .rtc, .mrc], pages := [Pg.rtc] }
  | .zcGap => { parts := [.rtc] }
  | .mrcCaptureWindow | .deferredTrigger .. => { parts := [.staged, .claims, .commits, .doms, .per, .mrc], all := true }
  | .latchedTriggerAct .. | .pwmWrap .. => { parts := [.staged, .claims, .commits, .per, .mrc], all := true }
  | .swPulse .. | .swLevel .. | .stampRead .. | .cntWrite .. => { parts := [.doms, .replies, .stalls, .debugErr, .mrc], pages := [Pg.mrc, Pg.sec] }
  | .gpioEdge .. => { parts := [.per, .mrc] }
  | .gpioRelease .. => { parts := [.doms, .replies, .stalls, .debugErr, .per, .mrc], pages := [Pg.gpio, Pg.sec] }
  | .linkTrainStart .. | .linkUp .. => { parts := [.mrc, .cas], pages := [Pg.cas] }
  | .linkTrainTimeout .. | .casSnapshot .. => { parts := [.cas] }
  | .cellCrcFail .. => { pages := [Pg.cas] }
  | .linkDown .. => { parts := [.flm, .tim, .mrc, .cas], pages := [Pg.cas] }
  | .casTimingExchange .. => { parts := [.freeCtr, .tim, .mrc, .cas], pages := [Pg.cas, Pg.tim] }
  | .enumeration .. | .casEnumerate .. => { parts := [.flm, .mrc, .cas], pages := [Pg.cas] }
  | .casAccept .. | .casDrop .. => { parts := [.doms, .replies, .stalls, .debugErr, .flm, .mrc, .cas], pages := [Pg.cas, Pg.sec] }
  | .forwardEntry .. => { parts := [.doms, .freeCtr, .flm, .drc, .flc, .mrc, .cas], pages := [Pg.drc, Pg.flc, Pg.flm, Pg.phy] }
  | .forwardReceive .. => { parts := [.mem, .doms, .flm, .drc, .flc, .mrc], pages := [Pg.drc, Pg.cas] }
  | .casRxconsWrite .. => { parts := [.doms, .replies, .stalls, .debugErr, .mrc], pages := [Pg.cas, Pg.sec] }
  | .casRcopy .. | .casRegister .. => { parts := [.mem, .doms, .freeCtr, .flm, .drc, .flc, .mrc, .cas], pages := [Pg.drc, Pg.flc] }
  | .casBarrier .. => { parts := [.freeCtr, .flm] }
  | .snapshotCapture .. => { parts := [.freeCtr, .flm, .tim, .rtc, .mrc, .lnk, .cas], all := true }
  | .hostCsRise | .i2cHoldTimeout .. => { parts := [.per] }
  | .serialTx .. => { parts := [.doms, .freeCtr, .flm, .drc, .flc, .per, .mrc], pages := [Pg.drc, Pg.flc] }
  | .serialRx .. => { parts := [.mem, .doms, .flm, .drc, .per, .mrc], all := true }
  | .serialXfer .. => { parts := [.mem, .doms, .freeCtr, .flm, .drc, .flc, .per, .mrc], pages := [Pg.drc, Pg.flc] }
  | .dliSend .. | .dliArm .. => { parts := [.flm, .per, .mrc] }
  | .uartRxOctet .. => { parts := [.per], all := true }
  | .uartReport .. => { parts := [.flm, .per] }
  | .daliMonitorFrame .. => { parts := [.flm, .mrc] }
  | .launchTimeReached .. => { parts := [.doms, .clk, .flm, .drc, .flc, .recv, .syn, .mrc, .lnk], pages := [Pg.pwr, Pg.lnk] }

end Sys2Proof.Machine
end

