-- ==== Sys2Proof/Certificates/Slice0/Obligations.lean ====
section
/-! DEFINITION. The statements for the provers: what a step is, what every command leaves alone, for each command the states
and operands from which it takes its effect, and the rules of the spec on registers, rings, memory, time and arithmetic. -/

open Sys2Proof Sys2Proof.Machine

/-! ### The machine as a whole -/

/-- A step takes the command at the front of the queue and runs it on the state with the queue's rest. -/
def Obligations.StepRunsFrontCommand : Prop :=
  ∀ (c : Instr) (s : State) (rest : List Instr), s.pending = c :: rest → step s = exec c { s with pending := rest }

/-- On an empty queue a step lets one cycle of the fabric clock pass: the cycle counters of the cores and the counters of the
PWMs count it, and so does TIM where it runs. That an empty queue stands for a cycle is the model's choice (log entry 3). -/
def Obligations.EmptyQueueLetsACyclePass : Prop :=
  ∀ (s : State), s.pending = [] → step s = .next (((s.coresCount 1).pwmCycles 1).timRun 1)

/-- Every command has an effect from every state: none faults and none is refused. Where it rests on the model's own choice or
reading it follows log entry 2. -/
def Obligations.EveryCommandAnswers : Prop :=
  ∀ (c : Instr) (s : State), ∃ t, exec c s = .next t

/-- Every step answers a state, takes one command off the queue where one waits, and adds none; the fuses of the part stand.
Where it rests on the model's own choice or reading it follows log entry 3. -/
def Obligations.StepTakesOneCommand : Prop :=
  ∀ (s : State), ∃ t, step s = .next t ∧ t.pending = s.pending.tail ∧ t.variant = s.variant

/-- A command changes the kinds of state and the pages that its footprint names, and nothing else: the queue, the fuses, every
other kind of state and every register of every other page are as they were. -/
def Obligations.CommandsKeepToTheirFootprint : Prop :=
  ∀ (c : Instr) (s t : State), exec c s = .next t → Within (footprint c) s t

/-- A step keeps memory and registers in their canonical forms, so that equal contents are equal data. -/
def Obligations.StepKeepsStatesSound : Prop :=
  ∀ (s t : State), s.wf = true → step s = .next t → t.wf = true

/-- The state after reset is sound. -/
def Obligations.ResetIsSound : Prop := State.reset.wf = true

/-- After reset every header register that the header's table gives a value reads it, every CHSEL bank is 0, the domains are ON
or OFF as the table of domains says, C0 runs from address 0 and the other cores are in HALT, TIM stands at 0, no work is in
flight, memory lists nothing and no command waits (R45, R58, R240, R270, R450). Where it rests on the model's own choice or
reading it follows log entries 3, 11 and 12. -/
def Obligations.ResetLeavesTheStatedValues : Prop :=
  (∀ page ∈ allPages, ∀ off ∈ [0x008, 0x010, 0x014, 0x020, 0x024, 0x028, 0x02C, 0x030], State.reset.reg page 0 off = 0) ∧
  (∀ page ∈ allPages, ∀ (ini : Initiator), State.reset.chsel page ini = 0) ∧
  (∀ d ∈ allDomains, (State.reset.dom d).phase = .none ∧
    (State.reset.dom d).st = if d ∈ [0, 9, 10, 11, 12, 18] ∨ 32 ≤ d then DState.on else .off) ∧
  (State.reset.cpu .c0).st = .run ∧ (State.reset.cpu .c0).pc = 0 ∧
  (∀ c ∈ [Core.l0, .l1, .c1], (State.reset.cpu c).st = .halt) ∧
  State.reset.tim.sec = 0 ∧ State.reset.tim.ns = 0 ∧ State.reset.flm.ift = [] ∧ State.reset.mem = [] ∧ State.reset.pending = []

/-! ### Commands complete: the fabric and every page -/

/-- A write or a read of a register without a row of its own sets, reads and clears the register's fields by their access types
and is answered; a write to SRAM or AON SRAM sets its octets; an access that waited is answered once it is served. Where it
rests on the model's own choice or reading it follows log entries 6, 15, 18, 19, 20, 21 and 22. -/
def Obligations.FabricAccessesComplete : Prop :=
  (∀ (ini : Initiator) (page off : Nat) (v : Word) (s : State) (d : RegDef), page < 256 → off < 0x1000 → off % 4 = 0 →
    isHeader off = false → s.gate ini page off true = .serve → regDef page off = some d → d.staged = false →
    let u := s.accessed ini page off
    let idx := u.setIndex page ini off
    u.noSet page idx off = false → u.blockWrite ini page idx off v = none → (d.config && u.locked page) = false →
    outOfRange d v = false →
    exec (.registerWrite ini (word (pageAddr page off)) 4 v []) s =
      .next ((u.setReg page idx off (writeValue d (u.reg page idx off) v)).setReply ini 0 false)) ∧
  (∀ (ini : Initiator) (addr v : Word) (n : Nat) (flips : List Flip) (s : State),
    let u := s.applyFlips flips
    let a := addr.toNat
    a < 0x80000000 → isPageAddr a = false → isPalAddr a = false → u.memRefused ini a n = false →
    regionOf a ≠ .rom → regionOf a ≠ .flash → u.rangeStatus a ((bytesOfWord v).take n).length = .ready →
    exec (.registerWrite ini addr n v flips) s =
      .next ((u.putOctets a ((bytesOfWord v).take n)).1.setReply ini 0 false)) ∧
  (∀ (ini : Initiator) (page off : Nat) (s : State) (d : RegDef), page < 256 → off < 0x1000 → off % 4 = 0 →
    isHeader off = false → s.gate ini page off false = .serve → regDef page off = some d →
    let u := s.accessed ini page off
    let idx := u.setIndex page ini off
    u.noSet page idx off = false → u.blockRead ini page idx off = none → d.rc ≠ 0 →
    exec (.rcFieldRead ini (word (pageAddr page off)) 4 []) s =
      .next ((u.setReg page idx off (u.reg page idx off &&& ~~~(word d.rc))).setReply ini (u.reg page idx off) false)) ∧
  (∀ (ini : Initiator) (flips : List Flip) (s t : State) (a : Access) (v : Word),
    let u := s.applyFlips flips
    u.stalls.find? (fun x => x.ini == ini) = some a → u.busAccess a = (t, .ok v) →
    exec (.stalledAccessServe ini flips) s =
      .next ({ t with stalls := dropFirst (fun x => x.ini == ini) t.stalls }.setReply a.ini v false))

/-- The header commands that a page serves: the bank is selected, interrupts are cleared, set and enabled, the error record is
cleared, and the lock is taken and released. Where it rests on the model's own choice or reading it follows log entries 15,
18 and 24. -/
def Obligations.HeaderCommandsComplete : Prop :=
  (∀ (ini : Initiator) (page : Nat) (v : Word) (s : State), s.gate ini page 0x080 true = .serve → bits v 9 0 < s.chcount page →
    exec (.chselWrite ini page v) s = .next ((s.setReg page ini.id 0x080 (word (bits v 9 0))).setReply ini 0 false)) ∧
  (∀ (ini : Initiator) (page : Nat) (mask events : Word) (s : State), s.gate ini page 0x010 true = .serve →
    exec (.intClear ini page mask events) s =
      .next ((s.setReg page 0 0x010 ((s.reg page 0 0x010 &&& ~~~mask) ||| events)).setReply ini 0 false)) ∧
  (∀ (ini : Initiator) (page : Nat) (mask : Word) (s : State), s.gate ini page 0x01C true = .serve →
    (s.dom (s.domainOf page 0)).phase = .none →
    exec (.intSet ini page mask) s = .next ((s.setReg page 0 0x010 (s.reg page 0 0x010 ||| mask)).setReply ini 0 false)) ∧
  (∀ (ini : Initiator) (page : Nat) (v : Word) (s : State), s.gate ini page 0x014 true = .serve →
    exec (.intEnWrite ini page v) s = .next ((s.setReg page 0 0x014 v).setReply ini 0 false)) ∧
  (∀ (ini : Initiator) (page : Nat) (v : Word) (s : State), s.gate ini page 0x020 true = .serve →
    exec (.errClear ini page v) s = .next ((s.setReg page 0 0x020 (s.reg page 0 0x020 &&& ~~~v)).setReply ini 0 false)) ∧
  (∀ (ini : Initiator) (page : Nat) (v : Word) (s : State), s.gate ini page 0x030 true = .serve → s.locked page = false →
    exec (.pageLock ini page v) s =
      .next ((s.setReg page 0 0x030 (word (ini.id * 0x1000000 + (bit v 1).toNat * 2 + 1))).setReply ini 0 false)) ∧
  (∀ (ini : Initiator) (page : Nat) (v : Word) (s : State), s.gate ini page 0x030 true = .serve → s.locked page = true →
    bit (s.reg page 0 0x030) 1 = false → (bits (s.reg page 0 0x030) 26 24 = ini.id ∨ ini = .sec) →
    exec (.pageUnlock ini page v) s =
      .next ((s.setReg page 0 0x030 (setBit (s.reg page 0 0x030) 0 false)).setReply ini 0 false))

/-- Staged configuration: a staged register takes the written fields into the writer's staged set, and a field outside its range raises RANGE; an agreed commit of a staged
set is accepted and pends until its switch point; a discard forgets the named sets. A commit of Flume and of the cascade
switches at once, one of ETH while the MAC sends nothing, one of TXA while the transmitter is quiet and holds nothing, and
both at once with EN 0. Where it rests on the model's own choice or reading it follows log
entries 15, 16, 17 and 32. -/
def Obligations.StagingCommandsComplete : Prop :=
  (∀ (ini : Initiator) (page off : Nat) (v : Word) (s : State) (d : RegDef), isHeader off = false →
    s.gate ini page off true = .serve → regDef page off = some d → d.staged = true →
    let u := s.accessed ini page off
    let idx := u.setIndex page ini off
    u.noSet page idx off = false → u.blockWrite ini page idx off v = none → u.locked page = false →
    (u.claim page = none ∨ u.claim page = some ini) → u.commitPend page = false → (d.whole = true → outOfRange d v = false) →
    (page = Pg.lnk → (off = 0x10C → bits v 18 16 ≠ 4 ∧ bits v 8 0 ≤ 255) ∧ (off = 0x110 → 2 ≤ bits v 31 16) ∧
      (off = 0x80C → (bits v 4 0 = 0 ∨ 8 ≤ bits v 4 0) ∧ bits v 4 0 ≤ 24) ∧
      (off = 0x818 → bit v 31 = true → 160 ≤ bits v 15 0)) →
    exec (.stagedWrite ini page off v) s =
      let w := { u.setClaim page (some ini) with
        staged := Sparse.insert u.staged (regKey page idx off) (writeValue d (u.stagedReg page idx off) v) }
      .next ((if outOfRange d v then w.raise page ini off idx Err.range else w).setReply ini 0 false)) ∧
  (∀ (ini : Initiator) (page : Nat) (v : Word) (s : State), s.gate ini page 0x028 true = .serve → s.locked page = false →
    (s.claim page = none ∨ s.claim page = some ini) → s.commitPend page = false →
    (bit v 4 = true → bits v 23 8 = bits (s.reg page 0 0x02C) 15 0) →
    s.namesSet page (s.chsel page ini) (bit v 3) = true → s.agreement ini page (bit v 3) = none →
    exec (.cfgCommit ini page v) s =
      .next ({ s.setReg page 0 0x028 0x80000000 with
        commits := s.commits ++ [({ page, ini, all := bit v 3, index := s.chsel page ini } : Commit)] }.setReply ini 0 false)) ∧
  (∀ (ini : Initiator) (page : Nat) (v : Word) (s : State), s.gate ini page 0x028 true = .serve → s.locked page = false →
    (s.claim page = none ∨ s.claim page = some ini ∨ ini = .debug) → s.commitPend page = false →
    exec (.cfgDiscard ini page v) s =
      .next ((State.releaseClaim { s with
        staged := Sparse.keep (fun k => !(namedBy page (s.chsel page ini) (bit v 3) k)) s.staged } page).setReply ini 0 false)) ∧
  (∀ (page m : Nat) (s : State) (c : Commit), s.commitOf page = some c → s.ready (s.domainOf page c.index) = true →
    page = Pg.flm ∨ page = Pg.cas ∨ (page = Pg.eth ∧ (s.enabled page = false ∨ s.eth.tx = none)) ∨
      (page = Pg.txa ∧ (s.enabled page = false ∨ (s.txaQuiet = true ∧ s.txa.st ≠ .hold))) →
    exec (.commitSwitch page m) s = .next (s.switchCommit c))

/-- BLK_CTRL and PWR_DM_CTRL: EN is set or cleared, a soft reset is performed, and a domain follows a request that changes its
effective request. Where it rests on the model's own choice or reading it follows log entries 18, 69 and 77. -/
def Obligations.BlockControlCompletes : Prop :=
  (∀ (ini : Initiator) (page : Nat) (en : Bool) (s : State), s.wf = true → s.gate ini page 0x008 true = .serve →
    s.locked page = false → (page = Pg.cas → en = true) →
    let q := ctrlSet (s.domainOf page (s.chsel page ini))
    exec (.blockEnable ini page en) s =
      .next (((s.setField page q 0x008 5 4 (bits (s.reg page q 0x008) 5 4)).setField page 0 0x008 0 0 en.toNat).setReply ini 0 false)) ∧
  (∀ (ini : Initiator) (page : Nat) (air : List Air) (s : State), s.wf = true → s.gate ini page 0x008 true = .serve →
    s.locked page = false →
    let q := ctrlSet (s.domainOf page (s.chsel page ini))
    let u := (s.setField page q 0x008 5 4 (bits (s.reg page q 0x008) 5 4)).setField page 0 0x008 0 0 (s.enabled page).toNat
    exec (.softReset ini page air) s = .next ((u.softReset page air).setReply ini 0 false)) ∧
  (∀ (ini : Initiator) (page : Nat) (air : List Air) (s : State), s.gate ini page 0x008 true = .serve →
    s.locked page = true → exec (.softReset ini page air) s = .next ((s.softReset page air).setReply ini 0 false)) ∧
  (∀ (ini : Initiator) (page d dreq : Nat) (s : State), s.gate ini Pg.pwr 0x100 true = .serve → domPresent s.variant d = true →
    let u := s.accessed ini Pg.pwr 0x100
    let v := u.setReg Pg.pwr d 0x100 (word (dreq % 4 * 16))
    exec (.domainRequest ini page (some d) dreq) s =
      .next ((if v.dreq d = u.dreq d then v else v.requested d []).setReply ini 0 false)) ∧
  (∀ (ini : Initiator) (page dreq : Nat) (s : State), s.gate ini page 0x008 true = .serve → s.locked page = false →
    let d := s.domainOf page (s.chsel page ini)
    let v := (s.setField page (ctrlSet d) 0x008 5 4 (dreq % 4)).setField page 0 0x008 0 0 (s.enabled page).toNat
    exec (.domainRequest ini page none dreq) s =
      .next ((if v.dreq d = s.dreq d then v else v.requested d []).setReply ini 0 false))

/-! ### Commands complete: Easel -/

/-- The phases of a domain's entry into a lower state and of its wake: each acts on the domain's record at its tick and does what
leaving or reaching the state implies. Where it rests on the model's own choice or reading it follows log entries 4, 76, 77
and 79. -/
def Obligations.DomainPhasesComplete : Prop :=
  (∀ (d : Nat) (s : State), d ≠ Dm.aon → domPresent s.variant d = true → s.domOn d = true → (s.dom d).leaving = none →
    s.dreq d = 0 → s.fieldOf Pg.pwr d 0x104 15 0 ≠ 0 → s.fieldOf Pg.pwr d 0x104 15 0 ≤ (s.dom d).idle → s.domIdle d = true →
    (s.idleTarget d).atLeast (s.heldAt d) ≠ .on →
    exec (.idleTimerExpire d) s = .next (s.setDom d { s.dom d with
      leaving := some ((s.idleTarget d).atLeast (s.heldAt d)), since := s.ticks - 1 })) ∧
  (∀ (d : Nat) (air : List Air) (s : State) (t : DState),
    let u := (s.settle air).follow d air
    let w := t.atLeast (u.heldAt d)
    (u.dreq d ≠ 0 ∨ u.domIdle d = true) → (u.dom d).leaving = some t → (u.dom d).phase = .none → (u.dom d).since < u.ticks →
    w.rank < (u.dom d).st.rank → u.awaited d = false → u.mayLeave d w = true →
    let v := if (u.dom d).st = .on then u.leaveOn d w air else u
    ((u.dom d).st = .on → v.unposted d = false) →
    let v := if w = .off then v.stagingOff d else v
    exec (.domainIdleCommit d air) s = .next (v.setDom d { v.dom d with
      phase := .idleCommit, target := w, since := v.ticks, wakeReq := false })) ∧
  (∀ (d : Nat) (s : State), (s.dom d).phase = .idleCommit → (s.dom d).since + 1 ≤ s.ticks →
    exec (.domainSave d) s = .next (s.setDom d { s.dom d with phase := .save })) ∧
  (∀ (d : Nat) (s : State), (s.dom d).phase = .save → (s.dom d).since + 2 ≤ s.ticks →
    exec (.domainSwitch d) s = .next (s.setDom d { s.dom d with phase := .switch })) ∧
  (∀ (d : Nat) (s : State), (s.dom d).phase = .switch → (s.dom d).since + 3 ≤ s.ticks →
    let x := s.dom d
    let more := match x.leaving with | some t => if t.rank < x.target.rank then some t else none | none => none
    let u := s.setDom d { x with
      st := x.target, phase := .none, idle := 0, leaving := more, wakeReq := x.wakeReq && (s.dreq d != 3 || x.warm) }
    let u := if x.target = .off ∧ x.st ≠ .off then u.domLost d else u
    exec (.domainEntryDone d) s = .next (((u.count Pg.pwr d 0x10C 15 0 1).domChg d).clocksRest.followAll [])) ∧
  (∀ (d : Nat) (s : State), (s.dom d).phase = .none → (s.dom d).st ≠ .on → domPresent s.variant d = true →
    ((s.dom d).wakeReq = true ∨ s.dreq d = 1) → (s.dreq d ≠ 3 ∨ s.neededUp d = true) →
    let u := s.setDom d { s.dom d with phase := .waking, since := s.ticks, leaving := none }
    let u := (needs d).foldl (fun s n =>
      if n = Dm.per ∨ (s.dom n).st = .off ∨ ((s.dom n).phase ≠ .none ∧ (s.dom n).target = .off) then s.wakeOne n else s) u
    let u := if u.clk.refEn.isSome ∨ d = Dm.wrx ∨ d = Dm.tag then u else u.setClk (fun c => { c with refEn := some u.ticks })
    exec (.domainWake d) s = .next (
      if needsVcore d ∧ u.fieldOf Pg.pwr 0 0x824 0 0 = 1 then
        (u.setReg Pg.pwr 0 0x824 0).setClk (fun c => { c with ramping := true })
      else u)) ∧
  (∀ (d : Nat) (s : State), (s.dom d).phase = .waking → s.clocksReady d = true →
    (needsVcore d = true → s.clk.ramping = false ∧ s.fieldOf Pg.pwr 0 0x824 0 0 ≠ 1) →
    let x := s.dom d
    let off : Bool := x.st == .off
    let u := s.setDom d { x with
      st := .on, phase := .none, idle := 0, wakeReq := false, warm := false, epoch := if off then x.epoch + 1 else x.epoch }
    let u := if off then (u.domRegsReset d).domForget d else u
    let u := ((u.enterOn d off).count Pg.pwr d 0x10C 31 16 1).domChg d
    exec (.domainOn d) s = .next ((if x.warm && off then u.warmStart d else u).flushQueue.followAll []))

/-- Clocks, VCORE, wake sources and the slow tick. Where it rests on the model's own choice or reading it follows log entries 4
and 78. -/
def Obligations.ClockCommandsComplete : Prop :=
  (∀ (k : Nat) (s : State), k < 8 → bit (s.reg Pg.pwr 0 0x808) k = true → s.sourceAsserts k = true →
    let u := if k = 3 then s.setCas (fun c => { c with activity := true }) else s
    let u := (u.setReg Pg.pwr 0 0x80C (setBit (u.reg Pg.pwr 0 0x80C) k true)).event Pg.pwr k
    let tgt := bits (u.reg Pg.pwr 0 0x810) (2 * k + 1) (2 * k)
    let u := if k = 3 then u.wake Dm.cas else u
    let u := if tgt.testBit 0 then u.wakeTarget Dm.lnk else u
    exec (.wakeSource k) s = .next (if tgt.testBit 1 then u.wakeTarget Dm.ctl else u)) ∧
  (∀ (ini : Initiator) (s : State), s.gate ini Pg.pwr 0x81C true = .serve → s.locked Pg.pwr = false →
    let u := (s.accessed ini Pg.pwr 0x81C).plainWrite ini Pg.pwr 0 0x81C
      (setBit (s.reg Pg.pwr 0 0x81C) 31 true)
    u.clk.xtalFail = true →
    exec (.xtalRetry ini true) s = .next (((u.setClk (fun c => { c with
      xtalFail := false, xtalOk := true })).setRtc (fun r => { r with onRc := false })).setReply ini 0 false)) ∧
  (∀ (ini : Initiator) (low : Bool) (s : State), s.gate ini Pg.pwr 0x824 true = .serve → s.locked Pg.pwr = false →
    low ≠ bit (s.reg Pg.pwr 0 0x824) 0 →
    let u := s.accessed ini Pg.pwr 0x824
    (low = true → u.domOff Dm.drc = true ∧ u.domOff Dm.eth = true ∧ u.domOff Dm.cas = true) →
    exec (.vcoreChange ini low) s = .next
      (((u.setReg Pg.pwr 0 0x824 (word low.toNat)).setClk (fun c => { c with ramping := true })).setReply ini 0 false)) ∧
  (∀ (s : State), s.clk.xtalFail = false →
    let u := s.setClk (fun c => { c with xtalFail := true, xtalOk := false })
    let u := u.setTim (fun t => { t with sleepFail := t.sleepFail || t.cap.isSome, window := none })
    exec .xtalFail s = .next (u.event Pg.pwr 16).rtcOnRc) ∧
  (∀ (s : State) (t : Nat), s.clk.refEn = some t → t + s.fieldOf Pg.pwr 0 0x81C 7 0 ≤ s.ticks →
    exec (.refCheck true) s = .next (s.setClk (fun c => { c with refOk := true }))) ∧
  (∀ (s : State) (t : Nat), s.clk.refEn = some t → s.clk.refOk = false → t + s.fieldOf Pg.pwr 0 0x81C 7 0 + 4 ≤ s.ticks →
    exec .refFail s = .next (s.event Pg.pwr 17)) ∧
  (∀ (s : State), s.clk.refOk = true → s.domUp Dm.per = true → s.clk.sysLock = false →
    let u := s.setClk (fun c => { c with sysLock := true, started := true })
    exec (.pllLock 0) s = .next (if s.tim.cap.isNone then u.setTim (fun t => { t with running := true }) else u)) ∧
  (∀ (s : State), s.clk.refOk = true → s.domUp Dm.drc = true →
    exec (.pllLock 1) s = .next (s.setClk (fun c => { c with dramLock := true }))) ∧
  (∀ (s : State), s.clk.refOk = true → s.domUp Dm.eth = true →
    exec (.pllLock 2) s = .next (s.setClk (fun c => { c with ethLock := true }))) ∧
  (∀ (s : State), s.clk.ramping = true →
    exec .vcoreDone s = .next ((s.setClk (fun c => { c with ramping := false })).event Pg.pwr 18)) ∧
  (∀ (s : State), exec .rtcTick s = .next
    (State.settle { s with ticks := s.ticks + 1, clk := { s.clk with xtalOk := !s.clk.xtalFail } }.timTickEdge.rtcTick.idleTick)) ∧
  (∀ (s : State) (w : TickWindow) (e : Int), s.tim.window = some w → w.done = some e →
    exec .tickperWindowEnd s = .next (s.setTim (fun t => { t with
      tickper := w.period e, calStale := false, window := some { tick := w.tick + w.len, len := s.windowLen, start := e } })).rtcFromTim)

/-- Resets and the supply: a part reset is performed at once, or once the medium operations it waits for have ended; a brown-out
holds the part in reset, and power-up senses the banks' supplies and starts C0. Where it rests on the model's own choice or reading it follows log entries
80 and 81. -/
def Obligations.ResetCommandsComplete : Prop :=
  (∀ (ini : Initiator) (v : Word) (air : List Air) (s : State), s.gate ini Pg.pwr 0x828 true = .serve → bits v 15 8 = 0xD1 →
    bit v 0 = true →
    let u := s.accessed ini Pg.pwr 0x828
    u.resetDue = none → u.resetWaits = false →
    exec (.softwarePartReset ini v air) s = .next ((u.partReset 4 air).setReply ini 0 false)) ∧
  (∀ (m tm : Bool) (air : List Air) (s : State), s.resetDue = none → s.resetWaits = false →
    exec (.resetN m tm air) s = .next (State.partReset { s with testmode := tm, cas := { s.cas with master := m } } 2 air)) ∧
  (∀ (air : List Air) (s : State), s.resetDue = none → s.resetWaits = false →
    exec (.watchdogExpire air) s = .next (s.partReset 3 air)) ∧
  (∀ (air : List Air) (s : State), s.resetDue = none → s.resetWaits = true →
    exec (.watchdogExpire air) s = .next { s with
      resetDue := some 3, flc := { s.flc with deferred := if s.flc.op.isSome then some 1 else none } }) ∧
  (∀ (air : List Air) (s : State) (c : Nat), s.resetDue = some c → s.resetWaits = false →
    exec (.deferredResetApply air) s = .next (s.partReset c air)) ∧
  (∀ (s : State), exec .brownOut s = .next (State.afterReset { s.supplyFails with inReset := true } 5 false)) ∧
  (∀ (m tm : Bool) (vio : List (VioBank × VioLevel)) (s : State), exec (.powerOn true m tm vio) s = .next
    (State.afterReset { s.supplyFails with
      inReset := false, testmode := tm, vio := vio, cas := { s.cas with master := m } } 1 false).vbatLost) ∧
  (∀ (m tm : Bool) (vio : List (VioBank × VioLevel)) (s : State), s.inReset = true → exec (.powerOn false m tm vio) s = .next { s with
    inReset := false, testmode := tm, vio := vio, cas := { s.cas with master := m },
    cpus := if tm then [] else [(2, { st := .run, run := true, ran := true })] })

/-! ### Commands complete: Flume -/

/-- Flume's engine: a granted ring's descriptor enters the in-flight table, an issued item starts, a finished item retires, a
retired item is posted on its tailrace, and a waiting report is written. Where it rests on the model's own choice or reading
it follows log entries 25, 26, 27, 28 and 31. -/
def Obligations.FlumeEngineCompletes : Prop :=
  (∀ (flips : List Flip) (s t : State) (r : Nat) (bs : List (Option Byte)) (os : List Byte) (e : EccSum),
    let u := s.applyFlips flips
    u.grant = some r →
    let v := { u with flm := { u.flm with
      lastUnit := u.wrUnit r, lastRing := Sparse.set 63 u.flm.lastRing (u.wrUnit r) r } }
    v.unitRead (v.slotAddr r (u.wrCons r % u.wrSize r)) 32 = (t, .ok bs e) → knownBytes bs = some os →
    let it : Item := {
      id := t.freeEntry, ring := r, slot := u.wrCons r % u.wrSize r, unit := u.wrUnit r, words := wordsOfBytes 8 os, st := .fetched,
      lat := if u.wrUnit r = Pg.lnk then [0x810, 0x814, 0x818, 0x820].map (t.reg Pg.lnk 0) else [] }
    let t := { t with flm := { t.flm with ift := t.flm.ift ++ [it] } }
    exec (.descriptorFetch flips) s =
      .next (t.setReg Pg.flm r Fl.wrCons (word ((t.wrCons r + 1) % (2 * t.wrSize r)))).noteInUse) ∧
  (∀ (k : Nat) (s : State) (i : Item), s.item k = some i → i.st = .fetched → s.mayIssue i = true →
    exec (.itemIssue k) s = .next (s.issue i)) ∧
  (∀ (k : Nat) (s : State) (i : Item), s.item k = some i → i.st = .fetched → s.mayIssue i = true → i.unit ≠ Pg.cas →
    pagePresent s.variant i.unit = true → s.ready (epochDomain i.unit) = true → opDefined i.unit i.opcode = true →
    (i.timed = true → i.ns < 1000000000 ∧ s.pastShort i.ns i.secLo = false) →
    (i.epochChk = true → i.epoch = s.epochOf i) → (opMoves i.unit i.opcode = true → i.length ≠ 0) →
    (i.opcode = 0 → i.timed = true) →
    let u := s.touch (epochDomain i.unit)
    let u := u.updItem i.id (fun j => { j with epochSeen := (u.dom (epochDomain i.unit)).epoch.toNat })
    exec (.itemIssue k) s = .next (u.updItem i.id (fun j => { j with st := .active }))) ∧
  (∀ (k : Nat) (s : State) (i : Item), s.item k = some i → i.st = .active → i.result.isSome = true →
    let u := s.retireWith k Sc.done
    exec (.itemFinish k) s = .next (State.settle (if u.ringState i.ring = .aborting then u.abortRest i.ring else u))) ∧
  (∀ (k : Nat) (flips : List Flip) (s t : State) (i : Item),
    let u := s.applyFlips flips
    u.item k = some i → i.st = .retiring → u.mayRetire i = true → u.trRoom (u.wrTail i.ring) = true →
    u.rangeStatus (u.trAddr (u.wrTail i.ring)) 32 = .ready → u.writeBack i = (t, true) →
    exec (.itemRetire k flips) s = .next ((t.postEntry (u.wrTail i.ring) {
        unsol := false, ovf := false, ring := i.ring, epoch := i.epochSeen, status := i.res.status, unit := i.unit, index := i.slot,
        tag := i.tag, actual := i.res.actual, ns := (i.res.time.getD (0, 0)).1, sec := (i.res.time.getD (0, 0)).2,
        rep6 := i.res.rep6, rep7 := i.res.rep7 } i.irq).freeItem i.id).flumeResetEnd) ∧
  (∀ (k : Nat) (s : State) (r : Report), s.flm.waiting[k]? = some r →
    s.raisedBefore r.tail r.no = false → s.trRoom r.tail = true → s.noHeld r.tail = true →
    s.rangeStatus (s.trAddr r.tail) 32 = .ready →
    exec (.reportPost k false) s = .next (s.writeReport r)) ∧
  (∀ (k : Nat) (s : State) (r : Report), s.flm.waiting[k]? = some r → storeFull r = true → s.trRoom r.tail = false →
    exec (.reportPost k true) s = .next (s.dropReport r)) ∧
  (∀ (r : Nat) (s : State), s.trEn r = true → s.fieldOf Pg.flm r Fl.trCfg 15 4 ≠ 0 → s.trPending r ≠ 0 →
    exec (.tailraceModTime r) s = .next (s.setTrPend r true)) ∧
  (∀ (k : Nat) (flips : List Flip) (s : State) (i : Item),
    let u := s.applyFlips flips
    u.item k = some i → i.st = .active → i.timed = true → i.launched = false → i.airTimed = false → u.launchCome i = true →
    i.opcode ≠ 0 → i.unit ≠ Pg.lnk →
    exec (.launchTimeReached k flips) s = .next (u.updItem k (fun i => { i with launched := true })))

/-- The writes of Flume's rings: an owner advances PROD, a ring and a tailrace are enabled and disabled, a ring is aborted or
resumed, and a consumed tailrace clears its pending bit. Where it rests on the model's own choice or reading it follows log
entries 15, 26 and 30. -/
def Obligations.RingRegisterWritesComplete : Prop :=
  (∀ (ini : Initiator) (v : Word) (s : State), s.gate ini Pg.flm Fl.wrProd true = .serve →
    let u := s.accessed ini Pg.flm Fl.wrProd
    let r := u.chsel Pg.flm ini
    u.wrOwner r = ini.id → subMod (2 * u.wrSize r) (bits v 10 0) (u.wrCons r) ≤ u.wrSize r →
    exec (.wrProdWrite ini v) s = .next ((u.setReg Pg.flm r Fl.wrProd (word (bits v 10 0))).setReply ini 0 false)) ∧
  (∀ (ini : Initiator) (v : Word) (s : State), s.gate ini Pg.flm Fl.wrCfg true = .serve →
    let u := s.accessed ini Pg.flm Fl.wrCfg
    let r := u.chsel Pg.flm ini
    u.locked Pg.flm = false → u.wrEn r = false → bit v 31 = true → 4 ≤ bits v 3 0 → bits v 3 0 ≤ 10 →
    pageListed (bits v 23 16) = true → pagePresent s.variant (bits v 23 16) = true →
    exec (.ringEnable ini v) s = .next (((((u.setReg Pg.flm r Fl.wrCfg (v &&& 0xFFFF700F)).setReg Pg.flm r Fl.wrProd 0).setReg
      Pg.flm r Fl.wrCons 0).setRing r .idle).setReply ini 0 false)) ∧
  (∀ (ini : Initiator) (v : Word) (s : State), s.gate ini Pg.flm Fl.wrCfg true = .serve →
    let u := s.accessed ini Pg.flm Fl.wrCfg
    let r := u.chsel Pg.flm ini
    u.locked Pg.flm = false → u.wrEn r = true →
    exec (.ringEnable ini v) s = .next ((u.setReg Pg.flm r Fl.wrCfg
      ((u.reg Pg.flm r Fl.wrCfg &&& 0x3FFFFFFF) ||| (v &&& 0xC0000000))).setReply ini 0 false)) ∧
  (∀ (ini : Initiator) (s : State), s.gate ini Pg.flm 0x118 true = .serve →
    let u := s.accessed ini Pg.flm 0x118
    exec (.ringAbort ini) s = .next ((u.ringAbortWrite (u.chsel Pg.flm ini)).setReply ini 0 false)) ∧
  (∀ (ini : Initiator) (s : State), s.gate ini Pg.flm 0x118 true = .serve →
    let u := s.accessed ini Pg.flm 0x118
    u.ringState (u.chsel Pg.flm ini) = .halted →
    exec (.ringResume ini) s = .next ((u.setRing (u.chsel Pg.flm ini) .idle).setReply ini 0 false)) ∧
  (∀ (ini : Initiator) (v : Word) (s : State), s.gate ini Pg.flm Fl.trCfg true = .serve →
    let u := s.accessed ini Pg.flm Fl.trCfg
    let r := u.chsel Pg.flm ini
    u.locked Pg.flm = false → u.trEn r = false → bit v 31 = true → 4 ≤ bits v 3 0 → bits v 3 0 ≤ 10 →
    exec (.trCfgWrite ini v) s = .next (((((u.setReg Pg.flm r Fl.trCfg (v &&& 0x80FFFFFF)).setReg Pg.flm r Fl.trProd 0).setReg
      Pg.flm r Fl.trCons 0).setFull r false).setReply ini 0 false)) ∧
  (∀ (ini : Initiator) (v : Word) (s : State), s.gate ini Pg.flm Fl.trCfg true = .serve →
    let u := s.accessed ini Pg.flm Fl.trCfg
    let r := u.chsel Pg.flm ini
    u.locked Pg.flm = false → u.trEn r = true →
    let u := u.setReg Pg.flm r Fl.trCfg ((u.reg Pg.flm r Fl.trCfg &&& 0xF) ||| (v &&& 0x80FFFFF0))
    exec (.trCfgWrite ini v) s = .next ((if bit v 31 then u.modLook r else u.clearTrPend r).setReply ini 0 false)) ∧
  (∀ (ini : Initiator) (v : Word) (s : State), s.gate ini Pg.flm Fl.trCons true = .serve →
    let u := s.accessed ini Pg.flm Fl.trCons
    let r := u.chsel Pg.flm ini
    let u := u.setReg Pg.flm r Fl.trCons (v &&& 0x7FF)
    exec (.trConsWrite ini v) s = .next ((if u.trCons r = u.trProd r then u.clearTrPend r else u).setReply ini 0 false))

/-! ### Commands complete: the radio chain -/

/-- Reception: a settled channel searches, a detection claims a lane, an SFD freezes the offset and takes the stamp, and a
frame's PHR, chunks and end are taken, or the lane is given up. Where it rests on the model's own choice or reading it
follows log entries 1, 33, 34, 35, 36 and 37. -/
def Obligations.ReceptionCompletes : Prop :=
  (∀ (n : Nat) (s : State), (s.chan n).st = .settling → s.enabled Pg.chz = true → s.wideOn n = true →
    exec (.settlingDone n) s = .next (State.setChan { s with
      recv := { s.recv with unsettled := s.recv.unsettled.filter (· != n) } } n { st := .search })) ∧
  (∀ (n b : Nat) (bs snr next : List Nat) (power : Int) (s : State), (s.chan n).st = .search → s.enabled Pg.chz = true →
    s.wideOn n = true → s.claimsHeld = false → s.detects n snr = b :: bs →
    (∀ k ∈ b :: bs, s.pairSlot n k = false) →
    exec (.slotDetect (.wide n) snr next power) s = .next (s.claimWide n b (encodePower power))) ∧
  (∀ (b : Nat) (snr next : List Nat) (power : Int) (s : State), s.recv.nb.phase = .dwell → s.narrowOn = true →
    s.claimsHeld = false → (s.lane nbLane).isNone = true → s.calBlank = false → s.recv.tx = none →
    let k := s.recv.nb.entry
    let ent := s.reg Pg.phy 0 (0xB20 + 4 * k)
    let set := s.reg Pg.phy 0 0xB14
    let cfg := s.reg Pg.phy 0 0xB18
    (List.range 4).find? (fun b => slotOn set b && bit ent (24 + b) &&
      (match snr[b]? with | some v => threshold (s.reg Pg.phy 0 (mtOff (slotMode set b) 1)) 0 ≤ v | none => false)) = some b →
    let l := s.fresh.2.newLane nbLane k b set (s.reg Pg.phy 0 0xB30) (bits cfg 29 24) (bits cfg 19 16) true Config.narrowReports
      (bits ent 29 28) Dm.rfe s.antenna (anyPower s.fresh.1) (encodePower power)
    let u := { s.fresh.2 with recv := { s.fresh.2.recv with nb := { s.fresh.2.recv.nb with floor := some (anyPower s.fresh.1) } } }
    exec (.slotDetect .narrow snr next power) s = .next ((u.setLane nbLane (some l)).event Pg.phy 2)) ∧
  (∀ (rx : RxChan) (seen : List Nat) (hz : Int) (back : Nat) (power : Int) (s : State) (l : Lane) (c : Bool),
    RxChan.lane s rx = some l → l.frame = false → sfdVerdict l.mod seen = some c →
    let f := afcFreeze l.afc hz
    let fe := unsigned 16 (inSteps 89 10 f.1)
    let t := s.rxStamp l back
    let u := s.setLane l.no (some { l with
      frame := true, coded := c, freqErr := fe, afcLimit := f.2, rssi := encodePower power,
      sec := t / 1000000000, ns := t % 1000000000, slewAt := s.tim.slewed })
    exec (.sfdFound rx seen hz back power) s = .next (match rx with
      | .wide n => (u.setReg Pg.chz n 0x114 (word fe)).setChan n { u.chan n with st := .frame }
      | .narrow => u.setReg Pg.phy 0 0xB34 (word fe))) ∧
  (∀ (rx : RxChan) (s : State) (l : Lane), RxChan.lane s rx = some l → l.frame = false →
    let u := s.freeLane l false
    exec (.sfdTimeout rx) s = .next (if l.no = nbLane then u else u.count Pg.chz l.chan 0x11C 15 0 1).moveOn) ∧
  (∀ (rx : RxChan) (phr : Phr) (snr10 : Int) (corr len : Nat) (two white : Bool) (s : State) (l : Lane),
    RxChan.lane s rx = some l → l.frame = true → l.len = none → phrFields l phr = some (len, two, white) →
    lengthOk l len two = true → len ≠ 0 →
    exec (.phrDecode rx phr snr10 corr) s =
      .next (s.reserve { l with len := some len, fcs2 := two, white := white } len).moveOn) ∧
  (∀ (rx : RxChan) (octets : List Byte) (snr10 : Int) (corr len : Nat) (flips : List Flip) (s : State) (l : Lane),
    let u := s.applyFlips flips
    RxChan.lane u rx = some l → l.len = some len →
    let m := { l.take octets with data := padTo len (l.take octets).data }
    exec (.frameEnd rx octets snr10 corr flips) s =
      .next ((u.toChunks m).endFrame m (fcsOk m.fcs2 m.data) 1 (lqiOf snr10) (fecOf m corr)).moveOn) ∧
  (∀ (rx : RxChan) (octets : List Byte) (flips : List Flip) (s t : State) (l m : Lane) (k : Nat) (ok : Bool),
    let u := (s.applyFlips flips).flushQueue
    let x := l.take (octets.take 256)
    RxChan.lane u rx = some l → l.dropped = false → l.slots ≠ none → u.hrDram l.hring = true →
    x.data.length % 256 = 0 → x.data.length < x.len.getD 0 → (u.toChunks x).spill x x.data.length false = (t, m, ok) →
    256 * m.chunks.length ≤ m.data.length - m.copied → m.chunks.length < 2 → (t.setLane m.no (some m)).freeChunk = some k →
    exec (.hopperChunkCopy rx octets flips) s =
      .next ((t.setLane m.no (some m)).setLane m.no (some { m with chunks := m.chunks ++ [k] })))

/-- Noise floor, gain, antenna and image calibration; the Hopper's rings; the narrow path's runs and dwells. Where it rests on
the model's own choice or reading it follows log entries 8, 9, 32, 34, 37 and 38. -/
def Obligations.ReceiverUpkeepCompletes : Prop :=
  (∀ (n idle : Nat) (power : Int) (s : State), s.chanEn n = true → s.enabled Pg.chz = true → s.wideOn n = true →
    exec (.nfWindowEnd n idle power) s = .next (State.setReg { s with recv := { s.recv with nfAt := some (s.tim.sec, s.tim.ns) } } Pg.chz n 0x110 (
      if idle < 2 ^ (s.fieldOf Pg.chz 0 0x804 3 0 - 2) then incField (s.reg Pg.chz n 0x110) 31 24 1
      else word (encodePower power)))) ∧
  (∀ (s t : State) (e : EccSum),
    let cfg := s.reg Pg.chz 0 0x804
    let a := (s.reg Pg.chz 0 0x808).toNat + (if s.recv.snapSecond then 0x100 else 0)
    bits cfg 23 8 ≠ 0 → s.domOn Dm.chz0 = true → pagePresent s.variant Pg.chz = true →
    s.unitWrite a (s.channels.map s.snapOctet) = (t, .ok () e) →
    let n := t.recv.snapSeq
    let u := State.event { t with recv := { t.recv with snapSeq := n + 1, snapSecond := !t.recv.snapSecond } } Pg.chz 1
    let r : Report := { unit := Pg.chz, tail := bits cfg 29 24, status := Sc.done, tag := word n, actual := (s.channels.map s.snapOctet).length,
                        ns := (u.recv.nfAt.getD (0, 0)).2, sec := (u.recv.nfAt.getD (0, 0)).1, rep6 := word a }
    exec .nfSnapshot s = .next (if bit cfg 31 then { u with
      flm := { u.flm with waiting := u.flm.waiting ++ [{ r with no := u.flm.raised }], raised := u.flm.raised + 1 } } else u)) ∧
  (∀ (up : Bool) (s : State),
    let idx := s.fieldOf Pg.rfe 0 0x80C 3 0
    s.ready Dm.rfe = true → s.path ≠ 0 → s.fieldOf Pg.rfe 0 0x808 31 30 = 0 → s.lane nbLane = none →
    (if up then idx < 11 else idx ≠ 0) →
    exec (.agcStep up) s = .next ((((s.setField Pg.rfe 0 0x80C 3 0 (if up then idx + 1 else idx - 1)).count
      Pg.rfe 0 0x80C 31 16 1).event Pg.rfe 0).warnLanes (fun l => { l with gainStep := true }))) ∧
  (∀ (s : State), s.ready Dm.rfe = true → s.path ≠ 0 →
    exec .adcClip s = .next ((s.event Pg.chz 2).warnLanes (fun l => { l with clip := true }))) ∧
  (∀ (ini : Initiator) (v : Word) (s : State), s.gate ini Pg.rfe 0x804 true = .serve →
    let u := s.accessed ini Pg.rfe 0x804
    u.arrangement = 1 → (bit v 0 ≠ bit (u.reg Pg.rfe 0 0x804) 16 ∨ bit (u.reg Pg.rfe 0 0x804) 31 = true) →
    exec (.antselWrite ini v) s = .next
      ((u.setReg Pg.rfe 0 0x804 (setBit (setBit (u.reg Pg.rfe 0 0x804) 0 (bit v 0)) 31 true)).setReply ini 0 false)) ∧
  (∀ (s : State), s.anyLane (fun _ => true) = false → bit (s.reg Pg.rfe 0 0x804) 31 = true →
    exec .antSwitch s = .next ((s.setReg Pg.rfe 0 0x804
      (setBit (setBit (s.reg Pg.rfe 0 0x804) 16 (bit (s.reg Pg.rfe 0 0x804) 0)) 31 false)).event Pg.rfe 2)) ∧
  (∀ (corr : Nat) (s : State) (l : Lane), s.lane nbLane = some l → s.nbMeasures = true → l.frame = false → l.measured = none →
    l.antNow = l.ant →
    exec (.antMeasureSwitch corr) s = .next (s.setLane nbLane (some { l with measured := some corr, antNow := 1 - l.antNow }))) ∧
  (∀ (corr first : Nat) (s : State) (l : Lane), s.lane nbLane = some l → l.measured = some first → l.frame = false →
    l.antNow ≠ l.ant →
    let u := if corr = first then s.fresh.2 else s
    let back := decide (corr < first) || (corr == first && bit s.fresh.1 0)
    exec (.antMeasureChoose corr) s = .next (u.setLane nbLane (some { l with
      measured := none, antNow := if back then l.ant else l.antNow }))) ∧
  (∀ (ini : Initiator) (v : Word) (s : State), s.gate ini Pg.rfe 0x818 true = .serve →
    exec (.iqseedWrite ini v) s =
      .next (((s.accessed ini Pg.rfe 0x818).setReg Pg.rfe 0 0x814 (v &&& 0x0FFF0FFF)).setReply ini 0 false)) ∧
  (∀ (p g : Nat) (s : State), s.ready Dm.rfe = true → s.path ≠ 0 → bit (s.reg Pg.rfe 0 0x810) 31 = true →
    let u := s.setReg Pg.rfe 0 0x814 (word (0x80000000 + p % 0x1000 * 0x10000 + g % 0x1000))
    exec (.iqConverge p g) s = .next (
      if s.recv.iqDone then u else State.event { u with recv := { u.recv with iqDone := true } } Pg.rfe 1)) ∧
  (∀ (ini : Initiator) (r : Nat) (v : Word) (s : State), r < 16 → s.gate ini Pg.phy (hrOff r 12) true = .serve →
    exec (.hrConsWrite ini r v) s = .next
      ((((s.accessed ini Pg.phy (hrOff r 12)).setReg Pg.phy 0 (hrOff r 12) (v &&& 0x7FF)).hrLow r).setReply ini 0 false)) ∧
  (∀ (ini : Initiator) (r : Nat) (v : Word) (s : State), r < 16 → s.gate ini Pg.phy (hrOff r 4) true = .serve →
    let u := s.accessed ini Pg.phy (hrOff r 4)
    u.locked Pg.phy = false → bit (u.hr r 4) 31 = false → bit v 31 = true → 7 ≤ bits v 11 8 → bits v 11 8 ≤ 11 →
    4 ≤ bits v 3 0 → bits v 3 0 ≤ 10 →
    exec (.hopperRingEnable ini r v) s = .next ((((u.setReg Pg.phy 0 (hrOff r 4) (v &&& 0x80FF0F0F)).setReg
      Pg.phy 0 (hrOff r 8) 0).setReg Pg.phy 0 (hrOff r 12) 0).setReply ini 0 false)) ∧
  (∀ (ini : Initiator) (s : State), s.gate ini Pg.phy 0xB10 true = .serve →
    let u := (s.accessed ini Pg.phy 0xB10).setReg Pg.phy 0 0xB10 0
    exec (.nbStop ini) s = .next ((if (u.lane nbLane).isSome then u else u.nbHalt).setReply ini 0 false)) ∧
  (∀ (ini : Initiator) (s : State), s.gate ini Pg.phy 0xB10 true = .serve →
    let u := (s.accessed ini Pg.phy 0xB10).setReg Pg.phy 0 0xB10 1
    exec (.nbCycle ini) s = .next
      ((if u.recv.nb.phase ≠ .stopped ∨ (u.lane nbLane).isSome then u else u.nbStart).setReply ini 0 false)) ∧
  (∀ (ini : Initiator) (s : State), s.gate ini Pg.phy 0xB10 true = .serve →
    let u := (s.accessed ini Pg.phy 0xB10).setReg Pg.phy 0 0xB10 2
    exec (.nbRunLnk ini) s = .next ((if (u.lane nbLane).isSome then u else u.nbHalt).setReply ini 0 false)) ∧
  (∀ (s : State), ((s.recv.nb.phase = .dwell ∧ s.recv.nb.dwell.isSome = true) ∨ s.recv.nb.phase = .leaving) → (s.lane nbLane).isNone = true →
    exec .nbDwellEnd s = .next s.nbNext) ∧
  (∀ (s : State), s.recv.nb.phase = .retune → s.narrowOn = true →
    exec .nbRetuneDone s = .next { s with recv := { s.recv with nb := { s.recv.nb with phase := .dwell } } })

/-- The synthesiser: gaps are granted, begun and ended, CAL items run, the receive loop loses lock, temperature and tuning
voltage are followed, and the transmit store is calibrated, saved and loaded. Where it rests on the model's own choice or
reading it follows log entries 4, 8, 39 and 40. -/
def Obligations.CalibrationCompletes : Prop :=
  (∀ (waited : Nat) (s : State), s.gapReq = true → s.ready Dm.lnk = true → bits (s.lreg 0x83C) 15 0 ≤ waited → s.recv.tx = none →
    exec (.gapGrant waited) s = .next { s with syn := { s.syn with granted := true } }) ∧
  (∀ (waited : Nat) (s : State), s.gapReq = true → s.ready Dm.lnk = true → (s.txa.st = .idle ∨ s.txa.st = .hold) →
    s.useWithin = false → (s.anyLane (·.frame) = false ∨ bits (s.lreg 0x83C) 31 16 ≤ waited) →
    exec (.gapGrant waited) s = .next { s with syn := { s.syn with granted := true } }) ∧
  (∀ (air : List Air) (flips : List Flip) (s : State),
    let u := s.applyFlips flips
    u.gapDue = true → u.syn.gap = none → u.recv.tx = none → u.txaQuiet = true → u.domOn Dm.syn = true → u.syn.cal = none →
    let g : Gap := {
      item := none, filter := false, bandR := u.syn.auto || u.syn.recovery || false, sec := u.tim.sec, ns := u.tim.ns }
    let v := u.setSyn (fun y => { y with
      gap := some g, granted := false, auto := false, recovery := false, rxLocked := false, cal := none })
    exec (.gapStart air flips) s = .next (((v.event Pg.chz 3).event Pg.syn 3).deafen air).displaceUses) ∧
  (∀ (air : List Air) (flips : List Flip) (s : State) (c : CalRun),
    let u := s.applyFlips flips
    u.gapDue = true → u.syn.gap = none → u.recv.tx = none → u.txaQuiet = true → u.domOn Dm.syn = true → u.syn.cal = some c →
    (c.filter = true ∨ c.bandR = true) → (c.due = true ∨ u.syn.granted = true) →
    let g : Gap := {
      item := some c.item, filter := c.filter, bandR := u.syn.auto || u.syn.recovery || c.bandR, sec := u.tim.sec, ns := u.tim.ns }
    let v := u.setSyn (fun y => { y with
      gap := some g, granted := false, auto := false, recovery := false, rxLocked := false,
      cal := some { c with gapAt := some (u.tim.sec, u.tim.ns) } })
    exec (.gapStart air flips) s = .next (((v.event Pg.chz 3).event Pg.syn 3).deafen air).displaceUses) ∧
  (∀ (s : State) (g : Gap), s.syn.gap = some g →
    let u := if g.cut then s else
      let u := if g.filter then s.filterDone else s
      if g.bandR then u.bandDone else u
    let u := (((u.setSyn (fun y => { y with gap := none })).event Pg.syn 4).antSwitch).unblank.moveOn
    exec .gapEnd s = .next (match u.syn.cal with
      | some c => if g.item = some c.item then u.calNext { c with filter := false, bandR := false, due := false } else u
      | none => u)) ∧
  (∀ (s : State), s.syn.rxLocked = true →
    exec .rxLockLost s = .next (s.setSyn (fun y => { y with rxLocked := false, rxFails := 1, recovery := true }))) ∧
  (∀ (die : Int) (s : State), s.domOn Dm.syn = true →
    let u := (s.setSyn (fun y => { y with die := die })).setField Pg.syn 0 0x810 15 0 (unsigned 16 die)
    let driftT := u.modeT && u.drifted die (u.fieldOf Pg.syn 0 0x810 23 16)
    let driftR := u.modeR && u.drifted die (u.fieldOf Pg.syn 0 0x810 31 24)
    let v := u.setSyn (fun y => { y with driftT := driftT, driftR := driftR })
    let v := if driftT && !s.syn.driftT then (v.event Pg.syn 1).setSyn (fun y => { y with sweepDue := true }) else v
    exec (.tempUpdate die) s = .next (
      if driftR && !s.syn.driftR then
        let w := v.event Pg.syn 1
        if w.autoGap then w.setSyn (fun y => { y with auto := true }) else w
      else v)) ∧
  (∀ (out : Bool) (s : State), s.domOn Dm.syn = true →
    let u := s.setSyn (fun y => { y with vtOut := out })
    exec (.vtEdge out) s = .next (
      if out ∧ !s.syn.vtOut then
        let w := u.event Pg.syn 2
        if w.autoGap then w.setSyn (fun y => { y with auto := true }) else w
      else u)) ∧
  (∀ (s : State), s.syn.sweepDue = true → s.modeT = true → s.domOn Dm.syn = true → s.txIdle = true → s.calT = false →
    exec .driftAnchorSweep s = .next (s.setSyn (fun y => { y with sweepDue := false, sweep := some 0 })))

/-- The synthesiser's items and locks: CAL is begun or has nothing to do, its sweep and store steps go on, the store is saved and
loaded, and a loop locks or times out. Where it rests on the model's own choice or reading it follows log entries 4, 39 and
40. -/
def Obligations.SynthesiserItemsComplete : Prop :=
  (∀ (k : Nat) (s : State) (i : Item), s.synItem 1 k = some i → s.ready Dm.syn = true → s.syn.cal = none →
    i.uflags % 8 = 0 → (i.uflags / 8 % 2 = 0 ∨ i.addrA % 512 = 0) →
    exec (.synCal k) s = .next (s.finish k { status := Sc.doneZero })) ∧
  (∀ (k : Nat) (s : State) (i : Item), s.synItem 1 k = some i → s.ready Dm.syn = true → s.syn.cal = none →
    (i.uflags % 2 = 1 ∨ i.uflags / 2 % 2 = 1) → (i.timed = true → i.launched = true) →
    let c : CalRun := {
      item := k, filter := decide (i.uflags % 2 = 1), bandR := decide (i.uflags / 2 % 2 = 1), due := i.timed,
      anchor := decide (i.uflags / 4 % 2 = 1), store := decide (i.uflags / 8 % 2 = 1), first := i.addrA / 0x10000 % 512,
      count := i.addrA % 512 }
    exec (.synCal k) s = .next (if s.offline then s.calOffline c else s.setSyn (fun y => { y with cal := some c }))) ∧
  (∀ (s : State) (n : Nat), s.syn.sweep = some n → s.stepRuns = true → n + 1 < 16 →
    exec .anchorTStep s = .next (s.stepOver.setSyn (fun y => { y with sweep := some (n + 1) }))) ∧
  (∀ (s : State), s.syn.sweep = some 15 → s.stepRuns = true →
    let u := (s.stepOver.setSyn (fun y => { y with sweep := none })).setField Pg.syn 0 0x810 23 16 s.celsius
    exec .anchorTStep s = .next (match u.syn.cal with
      | some c => if c.anchor ∧ !c.filter ∧ !c.bandR then u.calNext { c with anchor := false } else u
      | none => u)) ∧
  (∀ (s : State) (c : CalRun) (f : Nat), s.syn.cal = some c → c.filter = false → c.bandR = false → c.anchor = false →
    c.store = true → c.first + c.next < s.calEnd c → s.syn.sweep = none → s.stepRuns = true →
    s.stepOver.freqOf (c.first + c.next) = some f →
    exec (.storeTEntry true) s =
      .next ((s.stepOver.calibrate (c.first + c.next) f).calNext { c with next := c.next + 1 })) ∧
  (∀ (s : State) (c : CalRun), s.syn.cal = some c → c.filter = false → c.bandR = false → c.anchor = false →
    c.store = true → c.first + c.next < s.calEnd c → s.syn.sweep = none → s.stepRuns = true →
    let e := c.first + c.next
    exec (.storeTEntry false) s = .next ((s.stepOver.setEntry e { s.stepOver.storeEntry e with valid := false }).calNext
      { c with next := c.next + 1, failedEntries := c.failedEntries + 1 })) ∧
  (∀ (k : Nat) (flips : List Flip) (s t : State) (i : Item) (e : EccSum),
    let u := s.applyFlips flips
    u.synItem 2 k = some i → (i.timed = true → i.launched = true) → u.ready Dm.syn = true → storeLengthOk i.length = true →
    u.unitWrite i.addrB (((List.range (i.length / 8)).map u.storeEntry).flatMap StoreEntry.octets) = (t, .ok () e) →
    exec (.storeSave k flips) s = .next (t.finish k { status := Sc.done, actual := i.length })) ∧
  (∀ (k : Nat) (flips : List Flip) (s t : State) (i : Item) (bs : List (Option Byte)) (os : List Byte) (e : EccSum),
    let u := s.applyFlips flips
    u.synItem 3 k = some i → (i.timed = true → i.launched = true) → u.ready Dm.syn = true → storeLengthOk i.length = true →
    u.txIdle = true → u.unitRead i.addrA i.length = (t, .ok bs e) → knownBytes bs = some os →
    let n := i.length / 8
    let v := (List.range n).foldl (fun s e => s.setEntry e (s.loadEntry e (os.drop (8 * e)))) t
    let bad := ((List.range n).filter (fun e => !(v.storeEntry e).valid)).length
    exec (.storeLoad k flips) s = .next (v.finish k {
      status := if bad = 0 then Sc.done else Sc.doneWarn, actual := i.length, rep6 := word (bad % 512) })) ∧
  (∀ (s : State), s.txa.st = .tune → s.txa.waits = false → s.domOn Dm.syn = true →
    let e := s.txa.entry
    let x := s.storeEntry e
    let u := if s.modeT ∨ 256 ≤ e then s
      else if !x.valid then (if s.freqOf e = some s.txa.freq then s.calibrate e s.txa.freq else s)
      else if s.drifted s.syn.die x.temp then (s.calibrate e s.txa.freq).count Pg.syn 0 0x814 15 0 1
      else s
    let v := { u with syn := { u.syn with txLocked := true }, txa := { u.txa with retried := false } }
    exec (.loopLock true) s = .next (if v.txa.cur.isSome then { v with txa := { v.txa with st := .ready } } else v.toHold)) ∧
  (∀ (s : State), s.rxWanted = true → s.syn.rxLocked = false → s.syn.rxFails ≤ 1 → s.syn.recovery = false →
    let u := s.setSyn (fun y => { y with
      rxLocked := true, rxFails := 0, stuck := false
      rxValid := if s.modeR then y.rxValid else Sparse.set false y.rxValid s.rxTarget true })
    exec (.loopLock false) s = .next u.unblank.moveOn) ∧
  (∀ (air : List Air) (s : State), s.txa.st = .tune → s.txa.waits = false → s.txa.retried = false →
    let u := { s with txa := { s.txa with retried := true } }
    exec (.lockTimeout true air) s = .next (u.setField Pg.syn 0 0x810 23 16 s.celsius)) ∧
  (∀ (air : List Air) (s : State), s.txa.st = .tune → s.txa.waits = false → s.txa.retried = true →
    let u := ((s.event Pg.syn 0).count Pg.syn 0 0x814 31 16 1).setSyn (fun y => { y with
      cal := y.cal.map (fun c => { c with loopFailed := true }) })
    let u := { u with txa := { u.txa with st := .idle, retried := false } }
    exec (.lockTimeout true air) s = .next (u.endCurrent Sc.internal).takeHeld) ∧
  (∀ (air : List Air) (s : State), s.rxWanted = true → s.syn.rxLocked = false → s.syn.recovery = false → s.syn.rxFails = 0 →
    exec (.lockTimeout false air) s = .next (s.setSyn (fun y => { y with rxFails := 1, recovery := true }))) ∧
  (∀ (air : List Air) (s : State), s.rxWanted = true → s.syn.rxLocked = false → s.syn.recovery = false → s.syn.rxFails = 1 →
    let u := s.setSyn (fun y => { y with
      rxFails := 2, stuck := true, cal := y.cal.map (fun c => { c with loopFailed := true }) })
    exec (.lockTimeout false air) s = .next (((u.event Pg.syn 0).count Pg.syn 0 0x814 31 16 1).deafen air))

/-- Transmission: the tune request, the blank, the front end, the ramps and the hold, and what ends a frame early. Where it rests
on the model's own choice or reading it follows log entries 4, 31, 36, 40 and 111. -/
def Obligations.TransmitChainCompletes : Prop :=
  (∀ (s : State), s.txaFree = true → exec (.tuneRequest .ack) s = .next s.tuneAck) ∧
  (∀ (k : Nat) (s : State) (j : TxJob), s.job k = some j → j.tuned = false →
    (∀ t, s.jobRamp j = some t → t - j.tuneLead ≤ s.nowNs) →
    (s.jobRamp j = none → j.lbt = true → j.listen = .none → j.listenNs + 5000 ≤ j.tuneLead) →
    s.waiting j = true → s.turn j = true → s.txaFree = true → s.txHeldOff = false → s.ready Dm.txa = true →
    s.ready Dm.syn = true → s.dwellFull j = false → (s.withDue j).secure = false →
    let i := { s.withDue j with slot := none, counter := none }
    exec (.tuneRequest (.item k)) s = .next ((s.updJob i.item (fun _ => { i with
      tuned := true, frame := s.buildFrame i (s.launchOf i) none })).tune (.item i.item) i.freq i.store)) ∧
  (∀ (k c n : Nat) (s t : State) (j : TxJob), s.job k = some j → j.tuned = false →
    (∀ t, s.jobRamp j = some t → t - j.tuneLead ≤ s.nowNs) →
    (s.jobRamp j = none → j.lbt = true → j.listen = .none → j.listenNs + 5000 ≤ j.tuneLead) →
    s.waiting j = true → s.turn j = true → s.txaFree = true → s.txHeldOff = false → s.ready Dm.txa = true →
    s.ready Dm.syn = true → s.dwellFull j = false → (s.withDue j).secure = true → (s.withDue j).ctx = some c →
    s.nbValid c = true → s.slotValid (s.nbKey c) 14 = true → s.engineFree.isSome = true →
    (match (s.withDue j).counter with | some n => (s, some n) | none => s.assignCounter c (s.nbKey c)) = (t, some n) →
    let i := { s.withDue j with slot := some (s.nbKey c), counter := some n }
    exec (.tuneRequest (.item k)) s = .next ((t.updJob i.item (fun _ => { i with
      tuned := true, frame := t.buildFrame i (t.launchOf i) (some n) })).tune (.item i.item) i.freq i.store)) ∧
  (∀ (air : List Air) (flips : List Flip) (s : State) (t : Int),
    let u := s.applyFlips flips
    u.blankAt = some t →
    let v := u.blankStart (u.blankZone u.txa.freq).1 (u.blankZone u.txa.freq).2 air
    let v := if v.path = 2 then v.displaceUses else v
    exec (.txBlankStart air flips) s = .next { v with txa := { v.txa with begins := some t } }) ∧
  (∀ (s : State), s.recv.tx.isSome = true → s.txaQuiet = true → s.txa.begins = none →
    (∀ t, s.txa.downAt = some t → t + 15000 ≤ s.nowNs) → exec .txBlankEnd s = .next s.blankEnd.moveOn) ∧
  (∀ (s : State), s.mayGo = true →
    let lead : Int := (s.fieldOf Pg.rfe 0 0x860 7 0 * 1000 : Nat)
    (match s.curRamp, s.txa.begins with
      | some t, _ => s.atInstant (t - lead) = true
      | none, some b => b - lead ≤ s.nowNs
      | none, none => False) →
    exec .femLead s = .next { s with txa := { s.txa with fem := true, downAt := none } }) ∧
  (∀ (s : State) (t : Int), s.txa.downAt = some t → s.txaQuiet = true →
    t + (s.fieldOf Pg.rfe 0 0x860 15 8 * 1000 : Nat) ≤ s.nowNs →
    exec .femLag s = .next { s with txa := { s.txa with fem := false } }) ∧
  (∀ (s : State), s.rampNow = true → exec .rampBegin s = .next s.ramp) ∧
  (∀ (k : Nat) (s : State) (j : TxJob) (t : Int), s.job k = some j → j.launch = some t → s.onAirNow (.item k) = false →
    j.ackWait = none → j.deadline = true → s.rampAt t ≤ s.nowNs → (s.txa.cur = some (.item k) → s.rampNow = false) →
    let u := if s.txa.cur = some (.item k) then (s.event Pg.txa 1).count Pg.txa 0 0x810 15 8 1 else s
    exec (.rampBeginPassed k) s = .next (u.txEnd j Sc.late)) ∧
  (∀ (k : Nat) (s : State) (j : TxJob) (t : Int), s.job k = some j → j.launch = some t → s.onAirNow (.item k) = false →
    j.ackWait = none → j.backoff = none → j.deadline = false → s.rampAt t ≤ s.nowNs → s.txa.cur = some (.item k) →
    s.rampNow = false → j.tuned = true → j.train = 0 → j.sent = true →
    exec (.rampBeginPassed k) s = .next (s.updJob k (fun j => { j with launch := none, due := some (s.nowNs : Int) }))) ∧
  (∀ (k : Nat) (s : State) (j : TxJob) (t : Int), s.job k = some j → j.launch = some t → s.onAirNow (.item k) = false →
    j.ackWait = none → j.backoff = none → j.deadline = false → s.rampAt t ≤ s.nowNs →
    (s.txa.cur = some (.item k) → s.rampNow = false) →
    ¬ (s.txa.cur = some (.item k) ∧ j.tuned = true ∧ j.train = 0 ∧ j.sent = true) →
    exec (.rampBeginPassed k) s = .next (((s.unhand (.item k)).closeUse .lbt).replan j)) ∧
  (∀ (s : State), s.txa.st = .rampUp → exec .rampUpDone s = .next { s with txa := { s.txa with st := .send } }) ∧
  (∀ (s : State), s.txa.st = .send → (s.txa.sfd = none ∨ s.tim.running = false) →
    let u := match s.txa.sfd with | some d => s.sfdDecided d | none => s
    let v := { u with txa := { u.txa with st := .rampDown } }
    exec .lastSymbolOut s = .next (match v.txa.cur with
      | some (.item e) => v.updJob e (fun j => { j with endAt := (v.nowNs : Int) })
      | _ => v)) ∧
  (∀ (s : State), (s.txa.st = .rampUp ∨ s.txa.st = .send) →
    let u := ({ s with syn := { s.syn with txLocked := false } }.event Pg.txa 2).count Pg.txa 0 0x810 7 0 1
    let v := u.endCurrent Sc.internal
    exec .txLockLost s = .next { v with txa := { v.txa with st := .rampDown, cur := none, cutFrame := true, sfd := none } }) ∧
  (∀ (s : State), s.txa.st = .ready →
    let u := { s with syn := { s.syn with txLocked := false }, txa := { s.txa with st := .idle } }
    exec .txLockLost s = .next (u.endCurrent Sc.internal).takeHeld) ∧
  (∀ (s : State), s.txa.st = .hold →
    exec .txLockLost s = .next { s with syn := { s.syn with txLocked := false }, txa := { s.txa with st := .idle } }) ∧
  (∀ (s : State) (e : Nat) (j : TxJob), s.txa.st = .rampDown → s.txa.cutFrame = false → s.txa.cur = some (.item e) →
    let u := { s with txa := { s.txa with
      st := .hold, cur := none, cutFrame := false, onAir := [], downAt := some (s.nowNs : Int), holdAt := (s.nowNs : Int) } }
    let u := (u.event Pg.txa 0).count Pg.txa 0 0x810 31 16 1
    u.job e = some j →
    let v := u.itemSent j
    exec .rampDownDone s = .next (if v.txa.cur.isSome then v else v.toHold)) ∧
  (∀ (s : State), s.txa.st = .rampDown → s.txa.cutFrame = true →
    exec .rampDownDone s = .next (State.toHold { s with txa := { s.txa with
      st := .hold, cur := none, cutFrame := false, onAir := [], downAt := some (s.nowNs : Int), holdAt := (s.nowNs : Int) } })) ∧
  (∀ (s : State), s.txa.st = .hold → s.txa.holdAt + (s.fieldOf Pg.txa 0 0x808 15 0 * 1000 : Nat) ≤ s.nowNs →
    exec .holdExpire s = .next { s with txa := { s.txa with st := .idle }, syn := { s.syn with txLocked := false } })

/-! ### Commands complete: Link -/

/-- LNK's transmissions: items enter the schedule, listen before talk and backoffs run, and acknowledgement waits end. Where it
rests on the model's own choice or reading it follows log entries 30, 31, 41, 42, 44 and 45. -/
def Obligations.LinkTransmitCompletes : Prop :=
  (∀ (k : Nat) (flips : List Flip) (s t : State) (i : Item) (bs : List (Option Byte)) (os : List Byte) (e : EccSum),
    let u := s.applyFlips flips
    u.lnkItem 1 k = some i → u.lnk.jobs.length < 64 → u.unitRead i.addrA i.length = (t, .ok bs e) → knownBytes bs = some os →
    exec (.lnkTx k flips) s = .next (t.txIssue i os)) ∧
  (∀ (k : Nat) (s : State) (i : Item),
    s.lnkItem 3 k = some i → s.lnk.jobs.length < 64 →
    let freq := bits (i.w 2) 19 0
    let lat := fun k => i.lat.getD k 0
    let j : TxJob := {
      item := i.id, wake := true, txcfg := lat 0, ackcfg := lat 1, lbtcfg := lat 2, guardcfg := lat 3, ctx := none,
      entry := 0, mod := 0, tx := 0, store := ((List.range 256).find? (fun e => s.freqOf e == some freq)).getD 0x1FF, freq,
      level := if i.uparam.testBit 7 then some (i.uparam % 128) else none, pilot := i.length,
      code := BitVec.ofNat 16 i.addrA, secure := false, ackreq := false,
      lbt := i.uflags.testBit 2,
      sleepy := false, mpdu := [] }
    750000 ≤ freq → freq ≤ 960000 →
    (i.uflags.testBit 2 = true → (if s.path = 2 then (s.narrowFor freq).isSome
      else !(s.wideFor freq 0).isEmpty || (s.narrowFor freq).isSome) = true) →
    exec (.lnkWakecode k) s = .next (s.schedule i j)) ∧
  (∀ (k : Nat) (s t : State) (j : TxJob), s.job k = some j → j.lbt = true → j.listen = .none →
    (∀ r, s.jobRamp j = some r → r - 5000 - j.listenNs ≤ s.nowNs) →
    (s.jobRamp j = none → j.tuneLead ≤ j.listenNs + 5000) → s.txaQuiet = true → s.waiting j = true → s.turn j = true →
    s.listenReady j = (t, some true) →
    exec (.lbtListenStart k) s = .next (t.updJob k (fun j => { t.withDue j with listen := .running }))) ∧
  (∀ (k : Nat) (powers : List Int) (draw : Nat) (s : State) (j : TxJob), s.job k = some j → j.listen = .running →
    powers.all (fun p => encodePower p < s.lbtThreshold j) = true →
    exec (.lbtListenEnd k powers draw) s = .next (s.updJob k (fun j => { j with listen := .free }))) ∧
  (∀ (k : Nat) (powers : List Int) (draw : Nat) (s : State) (j : TxJob), s.job k = some j → j.listen = .running →
    powers.all (fun p => encodePower p < s.lbtThreshold j) = false →
    let i := { j with busyTotal := j.busyTotal + 1 }
    exec (.lbtListenEnd k powers draw) s = .next (
      if bits j.txcfg 19 16 ≤ j.busy + 1 then s.txEnd i Sc.channelBusy
      else ((s.updJob k (fun _ => { i with
        listen := .none, tuned := false, due := none, busy := j.busy + 1,
        backoff := some ((s.nowNs : Int) + i.backoffNs j.busy draw) })).unhand (.item k)).closeUse .lbt)) ∧
  (∀ (k : Nat) (s : State) (j : TxJob) (t : Int), s.job k = some j → j.backoff = some t → t ≤ s.nowNs → j.busy ≠ 0 →
    exec (.backoffExpire k) s = .next (s.updJob k (fun j => { j with backoff := none }))) ∧
  (∀ (k : Nat) (s : State) (j : TxJob) (t : Int), s.job k = some j → j.backoff = some t → t ≤ s.nowNs → j.busy = 0 →
    exec (.backoffExpire k) s = .next (s.replan j)) ∧
  (∀ (k : Nat) (s : State) (j : TxJob), s.job k = some j → j.dwellWait = true → s.dwellFull j = false →
    exec (.dwellWindowFree k) s = .next (s.updJob k (fun j => { j with dwellWait := false, due := none }))) ∧
  (∀ (k draw : Nat) (s : State) (j : TxJob) (t : Int), s.job k = some j → j.ackWait = some t → t ≤ s.nowNs →
    s.ackComing j t = false →
    let u := s.closeUse .ack
    let i := { j with ackWait := none }
    exec (.ackWaitEnd k draw) s = .next (
      if j.cancel then u.txEnd i Sc.abortedSw
      else if bits j.txcfg 23 20 ≤ j.attempts - 1 then u.txEnd i Sc.noAck
      else u.updJob k (fun _ => { i with
        launch := none, due := none, backoff := some ((u.nowNs : Int) + i.backoffNs 0 draw), busy := 0 }))) ∧
  (∀ (s : State) (a : AckDue) (rest : List AckDue), s.lnk.acks = a :: rest → s.rampAt a.at_ ≤ s.nowNs →
    s.onAirNow .ack = false → s.txa.cur = some .ack → s.txReady = true → s.ackLate a = false →
    s.atInstant (s.rampAt a.at_) = true → exec .ackInstant s = .next s.ramp) ∧
  (∀ (s : State) (a : AckDue) (rest : List AckDue), s.lnk.acks = a :: rest → s.rampAt a.at_ ≤ s.nowNs →
    s.onAirNow .ack = false →
    ¬ (s.txa.cur = some .ack ∧ s.txReady = true ∧ s.ackLate a = false ∧ s.atInstant (s.rampAt a.at_) = true) →
    exec .ackInstant s = .next s.ackSkip)

/-- LNK's reception and its use of the narrow radio: frames and acknowledgements pass its security, windows open and close,
beacons are followed, and events are posted. Where it rests on the model's own choice or reading it follows log entries 41,
42, 43, 46 and 47. -/
def Obligations.LinkReceiveCompletes : Prop :=
  (∀ (flips : List Flip) (s : State) (f : RxFrame) (q : List RxFrame),
    let u := s.applyFlips flips
    u.recv.queue = f :: q → u.ready Dm.lnk = true → Mac.parse f.mpdu = none →
    exec (.lnkRxSecurity flips) s = .next ((u.winSees f none).postHead f)) ∧
  (∀ (flips : List Flip) (s : State) (f : RxFrame) (q : List RxFrame) (m : Mac.Mhr),
    let u := s.applyFlips flips
    u.recv.queue = f :: q → u.ready Dm.lnk = true → Mac.parse f.mpdu = some m → u.ieEn = false → u.ackFor f m = none →
    exec (.lnkRxSecurity flips) s = .next (
      if !bit (u.lreg 0x80C) 31 ∨ !m.known ∨ (u.addressed m).isNone then (u.winSees f none).postHead f
      else u.rxProcess f (u.ctxOfSource m) m)) ∧
  (∀ (flips : List Flip) (s : State) (f : RxFrame) (q : List RxFrame) (m : Mac.Mhr) (ttd : Nat),
    let u := s.applyFlips flips
    u.recv.queue = f :: q → u.ready Dm.lnk = true → Mac.parse f.mpdu = some m → u.ieEn = true → f.lane.no = nbLane →
    Mac.wakeFrame f.mpdu m u.oui = some ttd →
    exec (.lnkRxSecurity flips) s = .next (u.wakeHeard f m ttd)) ∧
  (∀ (flips : List Flip) (s : State) (f : RxFrame) (q : List RxFrame) (m : Mac.Mhr) (j : TxJob),
    let u := s.applyFlips flips
    u.recv.queue = f :: q → u.ready Dm.lnk = true → Mac.parse f.mpdu = some m → u.ackFor f m = some j → m.version ≤ 1 →
    exec (.ackReceive flips) s = .next (((u.winSees f none).postHead f).txEnd { j with ackWait := none }
      (if j.cancel then Sc.abortedSw else j.good) ((Mac.le f.mpdu 0 2).testBit 4) f.lqi f.lane.rssi)) ∧
  (∀ (flips : List Flip) (s : State) (f : RxFrame) (q : List RxFrame) (m : Mac.Mhr) (j : TxJob) (out : List Byte),
    let u := s.applyFlips flips
    u.recv.queue = f :: q → u.ready Dm.lnk = true → Mac.parse f.mpdu = some m → u.ackFor f m = some j → 1 < m.version →
    u.secured f j.ctx m = some (.inr out) →
    let v := u.placePlain f out
    let v := match j.ctx with | some c => v.accept f c m out | none => v
    exec (.ackReceive flips) s = .next (((v.winSees f j.ctx).postHead f).txEnd { j with ackWait := none }
      (if j.cancel then Sc.abortedSw else j.good) ((Mac.le f.mpdu 0 2).testBit 4) f.lqi f.lane.rssi)) ∧
  (∀ (k : Nat) (s : State) (i : Item), s.lnkItem 2 k = some i → s.lnk.wins.any (fun w => w.item == k) = false →
    (i.timed = true → i.launched = true) → i.length ≠ 0 →
    let stop : Int := (if i.timed then s.launchNs i.ns i.secLo else (s.nowNs : Int)) + (i.length * 1000 : Nat)
    (i.timed = true → (s.nowNs : Int) < stop) → s.path ≠ 2 →
    let ctx := if i.uflags.testBit 0 then some (bits (i.w 2) 25 16) else none
    exec (.lnkRxwin k) s =
      .next (s.setLnk (fun l => { l with wins := l.wins ++ [({ item := k, endAt := stop, ctx } : RxWin)] }))) ∧
  (∀ (k n : Nat) (s : State) (i : Item), s.lnkItem 2 k = some i → s.lnk.wins.any (fun w => w.item == k) = false →
    (i.timed = true → i.launched = true) → i.length ≠ 0 →
    let stop : Int := (if i.timed then s.launchNs i.ns i.secLo else (s.nowNs : Int)) + (i.length * 1000 : Nat)
    (i.timed = true → (s.nowNs : Int) < stop) → s.path = 2 → s.nbFrom 0 (fun e => (s.winMask i).testBit e) = some n →
    s.displaced 7 n stop = false →
    let ctx := if i.uflags.testBit 0 then some (bits (i.w 2) 25 16) else none
    exec (.lnkRxwin k) s = .next ((s.lnkTimer.setLnk (fun l => { l with
      wins := l.wins ++ [({ item := k, endAt := stop, ctx } : RxWin)] })).listenOn n (s.winMask i) .rxwin (s.winDwell i))) ∧
  (∀ (k : Nat) (s : State) (w : RxWin), s.lnk.wins.find? (fun w => w.item == k) = some w → w.endAt ≤ s.nowNs →
    let u := s.setLnk (fun l => { l with wins := l.wins.filter (fun x => x.item != k) })
    let u := u.finish k (match w.ctx with
      | some _ => { status := Sc.noAck }
      | none => { status := Sc.done, wb := min 32767 w.count })
    exec (.rxwinWindowEnd k) s = .next (if u.lnk.wins.isEmpty then u.closeUse .rxwin else u)) ∧
  (∀ (s : State) (n : Nat), s.lnk.nextSample = some n → n ≤ s.ticks →
    let sl := s.lreg 0x828
    let mask := bits sl 27 24
    let u := s.setLnk (fun l => { l with nextSample := some (n + bits sl 15 0) })
    let count := ((List.range 4).filter (fun k => u.nbListed k && mask.testBit k)).length
    let till : Int := (u.nowNs + 208000 + count * (bits (u.lreg 0x82C) 31 16 * 1000) : Nat)
    exec .sampleStart s = .next (
      if u.fieldOf Pg.phy 0 0xB10 1 0 ≠ 2 ∨ u.path ≠ 2 then u.sampleSkip
      else match u.nbFrom 0 (fun k => mask.testBit k) with
        | none => u
        | some k =>
          if u.displaced 8 4 till ∨ u.recv.nb.phase ≠ .stopped then u.sampleSkip
          else ((u.lnkTimer.wake Dm.rfe).wake Dm.syn).nbGo k mask .sample (some (bits (u.lreg 0x82C) 31 16)))) ∧
  (∀ (s : State) (k : Nat) (t : Int), s.lnk.dataAt = some (k, t) → s.lnk.dataEnd = none → t ≤ s.nowNs →
    let stop : Int := t + (bits (s.lreg 0x82C) 15 8 * 1000000 : Nat)
    exec .dataWindowOpen s = .next (
      if s.displaced 5 k stop then s.setLnk (fun l => { l with dataAt := none })
      else (s.lnkTimer.setLnk (fun l => { l with dataEnd := some stop })).listenOn k 0 .data none)) ∧
  (∀ (s : State) (e : Int), s.lnk.dataEnd = some e → e ≤ s.nowNs →
    exec .dataWindowEnd s = .next ((s.setLnk (fun l => { l with dataAt := none, dataEnd := none })).closeUse .data)) ∧
  (∀ (s : State) (k : Nat) (e : Int), s.lnk.fpEnd = some (k, e) → e ≤ s.nowNs →
    exec .fpListenEnd s = .next ((s.setLnk (fun l => { l with fpEnd := none })).closeUse .fp)) ∧
  (∀ (s : State) (e : LnkEvent) (es : List LnkEvent), s.lnk.events = e :: es → bit (s.lreg 0x848) 31 = true →
    let t := bits (s.lreg 0x848) 29 24
    s.trRoom t = true → s.noHeld t = true → s.raisedBefore t e.no = false → s.rangeStatus (s.trAddr t) 32 = .ready →
    exec .lnkEventPost s = .next ((s.setLnk (fun l => { l with events := es })).writeReport {
      unit := Pg.lnk, tail := t, status := Sc.done, tag := word (e.kind * 0x1000000 + e.idx % 0x800),
      ns := e.ns, sec := e.sec, rep6 := e.value, rep7 := word e.merged.toNat }))

/-- LNK's upkeep and the wake receiver: context state is read and commanded, minutes pass, the beacon's window opens and closes,
a search pass ends; and WRX samples, detects energy, hunts for its code and sleeps again. Where it rests on the model's own
choice or reading it follows log entries 4, 45, 46, 47, 48 and 113. -/
def Obligations.LinkUpkeepCompletes : Prop :=
  (∀ (ini : Initiator) (s : State), s.gate ini Pg.lnk 0x128 false = .serve →
    let u := s.accessed ini Pg.lnk 0x128
    let c := u.chsel Pg.lnk ini
    let v := (u.evalNext c (u.isBeacon c) (u.lreg 0x820) u.nowNs).1
    let x := v.ctxOf c
    exec (.nbStateRead ini) s = .next (v.setReply ini (word (x.sync * 0x40000000 + x.rated.toNat * 0x20000000 +
      x.fcrxSet.toNat * 0x10000000 + x.pending.toNat * 0x8000000 + min 2047 (v.lnk.minutes - x.ageFrom) * 0x10000 + x.guard)) false)) ∧
  (∀ (ini : Initiator) (s : State), s.gate ini Pg.lnk 0x134 true = .serve →
    let u := s.accessed ini Pg.lnk 0x134
    let c := u.chsel Pg.lnk ini
    exec (.unanchor ini) s = .next ((u.unanchor c).setReply ini 0 false) ∧
    exec (.pendSet ini) s = .next ((u.setCtx c { u.ctxOf c with pending := true }).setReply ini 0 false) ∧
    exec (.pendClr ini) s = .next ((u.setCtx c { u.ctxOf c with pending := false }).setReply ini 0 false)) ∧
  (∀ (s : State), (s.dom Dm.lnk).st ≠ .off →
    exec .nbAgeMinute s = .next (s.setLnk (fun l => { l with minutes := l.minutes + 1 }))) ∧
  (∀ (s : State) (a : Nat), s.lnk.bcn = .track → s.lnk.bcnEnd = none → (s.ctxOf s.bcnCtx).anchor = some a →
    let c := s.bcnCtx
    let cfg := s.lreg 0x820
    let p := s.lnk.bcnAt
    let g := s.guardNs c cfg (p - a)
    p - g ≤ s.nowNs →
    let u := s.evalGuard c cfg g
    let stop := p + g + (u.bcnShr : Nat)
    let k := bits (u.lreg 0x830) 29 28
    exec .beaconWindowOpen s = .next (
      if (bits cfg 15 0 * 10000 : Nat) < g then u.bcnLose
      else if (if u.bcnWide then u.calBlank else u.displaced 6 k stop) then u.bcnArm
      else
        let v := u.lnkTimer.setLnk (fun l => { l with bcnEnd := some stop, bcnShut := false })
        if v.bcnWide then v else v.listenOn k 0 .beacon none)) ∧
  (∀ (s : State) (e : Int), s.lnk.bcn = .track → s.lnk.bcnEnd = some e → e ≤ s.nowNs → s.bcnComing e = false →
    let u := (s.setLnk (fun l => { l with
      bcnEnd := none, miss := if s.lnk.bcnShut then l.miss else l.miss + 1 })).closeUse .beacon
    exec .beaconWindowClose s = .next (if u.lnk.miss < 3 then u.bcnArm else u.bcnLose)) ∧
  (∀ (s : State), s.lnk.bcn = .lost → (s.bcnWide = false → s.path = 2 →
      s.recv.nb.phase = .stopped ∧ s.lane nbLane = none ∧ s.lnk.passDone = true) →
    let n := s.lnk.passes + 1
    let limit := bits (s.lreg 0x834) 15 0
    let u := s.setLnk (fun l => { l with passes := n, passDone := false })
    exec .searchPassEnd s = .next (
      if limit ≠ 0 ∧ limit ≤ n then
        (((u.event Pg.lnk 2).lnkEvent 3 u.bcnCtx (word n)).closeUse .search).setLnk (fun l => { l with bcn := .failed })
      else u.bcnPass)) ∧
  (∀ (s : State), s.lnk.bcn = .lost → s.bcnWide = false → s.path = 2 → s.recv.nb.phase = .stopped →
    s.lane nbLane = none → s.lnk.passDone = false → exec .searchPassEnd s = .next s.bcnPass) ∧
  (∀ (s : State), s.domOn Dm.wrx = true → s.wrx.st = .sleep → bits (s.wrxReg 0x800) 1 0 ≠ 0 → s.wrx.next ≤ s.ticks →
    let cfg := s.wrxReg 0x800
    let duty := s.wrxReg 0x808
    let tune := bit cfg 8 && s.clk.refOk && !s.wrx.tuned
    let u := if tune then s.setField Pg.wrx 0 0x818 2 2 1 else s
    exec .wrxPeriodStart s = .next { u with wrx := {
      st := .sample, mode := bits cfg 1 0, code := u.wrxReg 0x804, level := bits (u.wrxReg 0x80C) 7 0
      tuned := u.wrx.tuned || tune, onEnd := u.ticks + bits duty 7 0 + (if tune then tuneTicks else 0)
      next := u.ticks + bits duty 31 16 } }) ∧
  (∀ (power : Int) (s : State), s.domOn Dm.wrx = true → s.wrx.st = .sample →
    let u := s.wrxRssi power
    exec (.wrxEnergyDetect power) s = .next (
      if encodePower power < u.wrx.level then u
      else if u.wrx.mode = 1 then u.wakeE
      else if u.wrx.mode = 2 then { u with wrx := { u.wrx with st := .hunt } }
      else { u.wakeE with wrx := { u.wakeE.wrx with st := .hunt } })) ∧
  (∀ (power : Int) (s : State), s.wrx.st = .sample → s.wrx.onEnd ≤ s.ticks →
    exec (.wrxOnEnd power) s = .next { s.wrxRssi power with wrx := { s.wrx with st := .sleep } }) ∧
  (∀ (code : Half) (s : State), s.wrx.st = .hunt → codeErrors code (s.wrx.code.setWidth 16) ≤ bits s.wrx.code 17 16 →
    let u := (s.setField Pg.wrx 0 0x818 31 24 (codeErrors code (s.wrx.code.setWidth 16))).setField Pg.wrx 0 0x818 1 1 1
    let u := (u.event Pg.wrx 1).count Pg.wrx 0 0x81C 31 16 1
    exec (.wrxCodeMatch code) s = .next { u with wrx := { u.wrx with st := .sleep } }) ∧
  (∀ (s : State), s.wrx.st = .hunt →
    exec .wrxHuntTimeout s = .next { s.count Pg.wrx 0 0x81C 15 0 1 with wrx := { s.wrx with st := .sleep } })

/-! ### Commands complete: time and Ethernet -/

/-- The time system's commands: TIM is read, set, stepped and slewed, its seconds and slews run to their ends, comparators fire,
pulses go out and come in, a beacon synchronises, and TIM is loaded after sleep. Where it rests on the model's own choice or
reading it follows log entries 4, 8 and 49. -/
def Obligations.TimeCommandsComplete : Prop :=
  (∀ (ini : Initiator) (s : State), s.gate ini Pg.tim 0x800 false = .serve →
    let u := s.accessed ini Pg.tim 0x800
    exec (.timNsRead ini) s = .next ((u.setTim (fun t => { t with
      shadows := Sparse.set (0, 0) t.shadows ini.id (t.sec, t.frac) })).setReply ini (word u.tim.ns) false)) ∧
  (∀ (s : State) (c : Commit), s.commitOf Pg.tim = some c → s.hasStaged Pg.tim 0 0x814 = true →
    (bits (s.stagedReg Pg.tim 0 0x814) 1 0 = 1 → exec .timSet s = .next (s.timSwitch c)) ∧
    (bits (s.stagedReg Pg.tim 0 0x814) 1 0 = 2 → exec .timStep s = .next (s.timSwitch c)) ∧
    (bits (s.stagedReg Pg.tim 0 0x814) 1 0 = 3 → exec .timSlew s = .next (s.timSwitch c))) ∧
  (∀ (s : State) (rem : Int), s.tim.slew = some rem → s.tim.running = true →
    exec .slewDone s = .next (s.fabricRun (s.slewCycles rem))) ∧
  (∀ (s : State), s.tim.running = true → exec .timSecond s = .next (s.fabricRun s.cyclesToSecond)) ∧
  (∀ (k : Nat) (s : State), k < 4 → bit (s.reg Pg.tim 0 (cmpOff k 0)) 31 = true → s.cmpTarget k ≤ s.cmpNow →
    let cfg := s.reg Pg.tim 0 (cmpOff k 0)
    let per := (s.reg Pg.tim 0 (cmpOff k 12)).toNat
    let u := s.event Pg.tim (3 + k)
    let n := (u.cmpNow - s.cmpTarget k) / per + 1
    let t := s.cmpTarget k + n * per
    exec (.cmpFire k) s = .next (
      if bit cfg 30 ∧ per ≠ 0 then
        ((u.setReg Pg.tim 0 (cmpOff k 4) (word (t % 1000000000))).setReg Pg.tim 0 (cmpOff k 8) (word (t / 1000000000))).setReg
          Pg.tim 0 (cmpOff k 0) (setBit (setBit cfg 28 true) 29 (bit cfg 29 || false || 1 < n))
      else u.setReg Pg.tim 0 (cmpOff k 0) (setBit (setBit (setBit cfg 28 true) 29 (bit cfg 29 || false)) 31 false))) ∧
  (∀ (s : State), bit (s.reg Pg.tim 0 0x844) 31 = true → (bit (s.reg Pg.tim 0 0x844) 29 = true → s.tim.trusted = true) →
    s.tim.running = true → s.tim.ppsFrom ≤ s.ppsBoundary → s.tim.ppsDone ≠ some s.ppsBoundary →
    exec .ppsOutPulse s = .next (s.setTim (fun t => { t with
      ppsOut := true, ppsDone := some s.ppsBoundary, ppsLeft := bits (s.reg Pg.tim 0 0x844) 9 0 * 200000 }))) ∧
  (∀ (s : State), s.tim.ppsLeft = 0 → exec .ppsOutPulseEnd s = .next (s.setTim (fun t => { t with ppsOut := false }))) ∧
  (∀ (rising : Bool) (s : State), bit (s.reg Pg.tim 0 0x84C) 31 = true → bit (s.reg Pg.tim 0 0x84C) 30 = !rising →
    s.domOn Dm.per = true → s.tim.running = true → s.supplied .c = true →
    let t := (s.tim.sec * 1000000000 + s.tim.ns + 2 ^ 48 * 1000000000 - bits (s.reg Pg.tim 0 0x84C) 15 0) % (2 ^ 48 * 1000000000)
    exec (.ppsInCapture rising) s = .next ((((s.setReg Pg.tim 0 0x850 (word (t % 1000000000))).setReg Pg.tim 0 0x854
      (word (t / 1000000000))).count Pg.tim 0 0x858 15 0 1).event Pg.tim 2)) ∧
  (∀ (s : State) (b : BeaconTime) (bs : List BeaconTime), s.tim.beacons = b :: bs →
    let u := s.setTim (fun t => { t with beacons := bs })
    let cfg := u.reg Pg.tim 0 0x8A0
    let o : Int := (rebuildSec b.secLo b.rxSec * 1000000000 + b.ns) - (b.rxSec * 1000000000 + b.rxNs : Nat)
    let v := ((u.setReg Pg.tim 0 0x8A4 (word (unsigned 32 (clampInt (-(2 ^ 31 - 1)) (2 ^ 31 - 1) o)))).count Pg.tim 0 0x8A8 15 0 1).event Pg.tim 7
    let d := o - (v.tim.slewed - b.slewAt) / 2 ^ 28
    exec .beaconSync s = .next (
      if bits cfg 31 30 = 0 then u
      else if bits cfg 31 30 = 2 ∧ v.tim.trusted ∧ !v.tim.casLock ∧ !v.commitPend Pg.tim then
        (if d.natAbs < bits cfg 23 0 then v.timSlew d false else v.timStep d false).count Pg.tim 0 0x8A8 31 16 1
      else v)) ∧
  (∀ (s : State) (t0 n0 : Nat), s.tim.cap = some (t0, n0) → s.clk.sysLock = true → s.tim.sleepFail = false →
    let n := s.ticks - n0
    let el := n * s.tim.tickper.toNat
    let unc := if s.tim.calStale then 2000 else s.fieldOf Pg.tim 0 0x834 15 0
    let u := (s.setUnits ((t0 + el * 2 ^ 12 : Nat) : Int)).jumped
    exec .timWakeLoad s = .next (u.setTim (fun t => { t with
      cap := none, running := true, waketicks := n % 2 ^ 32,
      wakeunc := min (30 + (inSteps 267 (2 ^ 16 * 100000000) ((el * unc : Nat) : Int)).toNat) 0xFFFFFFFF })))

/-- The Ethernet commands: a frame goes out and is sent to its end, a frame comes in, the receive ring is given back, a management transfer starts and
ends, the link changes and a magic packet is seen. Where it rests on the model's own choice or reading it follows log entry
51. -/
def Obligations.EthernetCommandsComplete : Prop :=
  (∀ (k back : Nat) (flips : List Flip) (s t : State) (i : Item) (bs : List (Option Byte)) (f : List Byte) (e : EccSum),
    let u := s.applyFlips flips
    let start : Int := (u.nowNs : Int) - back + (u.fieldOf Pg.eth 0 0x810 31 16 : Nat)
    u.ethItem k = some i → u.ready Dm.eth = true → u.eth.tx = none → 14 ≤ i.length → i.length + 4 ≤ u.maxFrame →
    u.ethLate i start = false → u.eth.link = true → (i.timed = true → u.launchNs i.ns i.secLo ≤ start) →
    u.unitRead i.addrA i.length = (t, .ok bs e) → knownBytes bs = some f →
    exec (.ethTx k back flips) s = .next (t.ethSend i f back)) ∧
  (∀ (k back : Nat) (flips : List Flip) (s : State) (i : Item) (x : EthTx),
    let u := s.applyFlips flips
    u.ethItem k = some i → u.ready Dm.eth = true → u.eth.tx = some x → x.item = k →
    exec (.ethTx k back flips) s = .next (u.ethSent x)) ∧
  (∀ (octets : List Byte) (back : Nat) (flips : List Flip) (s t : State) (r : MemAns Unit),
    let u := s.applyFlips flips
    u.ready Dm.eth = true → u.eth.link = true → u.supplied .e = true → octets.length ≤ u.maxFrame → fcsOk false octets = true →
    u.ethAccepts octets = true → u.ethFree = true →
    let slot := u.ethProd % u.ethSize
    u.unitWrite ((u.ethRx 0x820).toNat + 2048 * slot) octets = (t, r) → r ≠ .waits →
    let at_ := t.ethStamp back (-(t.fieldOf Pg.eth 0 0x810 15 0 : Nat))
    let rep : Report := {
      unit := Pg.eth, tail := bits (t.ethRx 0x824) 29 24, status := Sc.done, actual := octets.length
      ns := at_ % 1000000000, sec := at_ / 1000000000, index := slot
      rep6 := match ptpEvent (t.ethRx 0x80C) (octets.take (octets.length - 4)) with
        | some (_, _, ty) => word (0x80000000 + ty * 0x1000000)
        | none => 0 }
    let v := t.setReg Pg.eth 0 0x828 (word ((t.ethProd + 1) % (2 * t.ethSize)))
    exec (.ethFrameReceive octets back flips) s = .next { v with flm := { v.flm with
      waiting := v.flm.waiting ++ [{ rep with no := v.flm.raised }], raised := v.flm.raised + 1 } }) ∧
  (∀ (ini : Initiator) (v : Word) (s : State), s.gate ini Pg.eth 0x82C true = .serve →
    exec (.ethRxconsWrite ini v) s =
      .next (((s.accessed ini Pg.eth 0x82C).setReg Pg.eth 0 0x82C (v &&& 0x7FF)).setReply ini 0 false)) ∧
  (∀ (ini : Initiator) (v : Word) (s : State), s.gate ini Pg.eth 0x838 true = .serve →
    let u := s.accessed ini Pg.eth 0x838
    bit (u.reg Pg.eth 0 0x838) 31 = false →
    exec (.mdioTransfer ini v) s =
      .next ((u.setReg Pg.eth 0 0x838 ((v ||| 0x80000000) &&& word (fld 31 30 + fld 25 0))).setReply ini 0 false)) ∧
  (∀ (data : Half) (s : State), bit (s.reg Pg.eth 0 0x838) 31 = true → s.ready Dm.eth = true →
    let w := setBit (s.reg Pg.eth 0 0x838) 31 false
    exec (.mdioDone data) s =
      .next (s.setReg Pg.eth 0 0x838 (if bit (s.reg Pg.eth 0 0x838) 30 then setBits w 15 0 data.toNat else w))) ∧
  (∀ (up : Bool) (speed : Nat) (s : State), s.ready Dm.eth = true →
    exec (.ethLinkChange up speed) s = .next { s with eth := { s.eth with link := up, speed := min speed 2 } }) ∧
  (∀ (s : State), (s.dom Dm.eth).st = .retention → (s.dom Dm.eth).phase = .none → bit (s.reg Pg.eth 0 0x83C) 31 = true →
    exec .ethMagicPacket s = .next { s with eth := { s.eth with magic := true } })

/-! ### Commands complete: the Ehriq cores -/

/-- The Ehriq instructions that move data and compute, in both forms: each answers the state with its result at its destination
and its flags. Where it rests on the model's own choice or reading it follows log entries 13, 52 and 54. -/
def Obligations.DataInstructionsComplete : Prop :=
  (LongPlain (fun c f => .nop c (.long f)) 0 (fun _ => True) (fun _ _ e => e.eff)) ∧
  (ShortPlain (fun c f => .nop c (.short f)) 0 (fun _ => True) (fun _ e => e.eff)) ∧
  (LongUnary (fun c f => .mov c (.long f)) (fun f => 0x04 + f.size.toNat) (fun f => f.size ≠ 3) opSize
    opSize (fun _ _ a => { val := a })) ∧
  (ShortUnary (fun c f => .mov c (.short f)) 1 (fun b => { val := b })) ∧
  (LongBinary (fun c f => .add c (.long f)) (fun f => 0x08 + f.size.toNat) (fun f => f.size ≠ 3) opSize
    (fun f _ a b => addW (opSize f) a b false)) ∧
  (ShortBinary (fun c f => .add c (.short f)) 2 (fun a b => addW 4 a b false)) ∧
  (LongBinary (fun c f => .sub c (.long f)) (fun f => 0x0C + f.size.toNat) (fun f => f.size ≠ 3) opSize
    (fun f _ a b => subW (opSize f) a b false)) ∧
  (ShortBinary (fun c f => .sub c (.short f)) 3 (fun a b => subW 4 a b false)) ∧
  (LongBinary (fun c f => .and c (.long f)) (fun f => 0x10 + f.size.toNat) (fun f => f.size ≠ 3) opSize
    (fun f _ a b => logicW (opSize f) (a &&& b))) ∧
  (ShortBinary (fun c f => .and c (.short f)) 4 (fun a b => logicW 4 (a &&& b))) ∧
  (LongBinary (fun c f => .or c (.long f)) (fun f => 0x14 + f.size.toNat) (fun f => f.size ≠ 3) opSize
    (fun f _ a b => logicW (opSize f) (a ||| b))) ∧
  (ShortBinary (fun c f => .or c (.short f)) 5 (fun a b => logicW 4 (a ||| b))) ∧
  (LongBinary (fun c f => .xor c (.long f)) (fun f => 0x18 + f.size.toNat) (fun f => f.size ≠ 3) opSize
    (fun f _ a b => logicW (opSize f) (a ^^^ b))) ∧
  (ShortBinary (fun c f => .xor c (.short f)) 6 (fun a b => logicW 4 (a ^^^ b))) ∧
  (LongCompare (fun c f => .cmp c (.long f)) (fun f => 0x1C + f.size.toNat) (fun f => f.size ≠ 3) opSize
    (fun f a b => subW (opSize f) a b false)) ∧
  (ShortCompare (fun c f => .cmp c (.short f)) 7 (fun a b => subW 4 a b false)) ∧
  (LongUnary (fun c f => .neg c (.long f)) (fun f => 0x20 + f.size.toNat) (fun f => f.size ≠ 3) opSize
    opSize (fun f _ a => subW (opSize f) 0 a false)) ∧
  (ShortUnary (fun c f => .neg c (.short f)) 9 (fun b => subW 4 0 b false)) ∧
  (LongUnary (fun c f => .not c (.long f)) (fun f => 0x24 + f.size.toNat) (fun f => f.size ≠ 3) opSize
    opSize (fun f _ a => logicW (opSize f) (~~~a))) ∧
  (ShortUnary (fun c f => .not c (.short f)) 10 (fun b => logicW 4 (~~~b))) ∧
  (LongBinary .adc (fun f => 0x28 + f.size.toNat) (fun f => f.size ≠ 3) opSize
    (fun f sw a b => addW (opSize f) a b (bit sw Flag.c))) ∧
  (LongBinary .sbc (fun f => 0x2C + f.size.toNat) (fun f => f.size ≠ 3) opSize
    (fun f sw a b => subW (opSize f) a b (bit sw Flag.c))) ∧
  (LongCompare (fun c f => .tst c (.long f)) (fun f => 0x30 + f.size.toNat) (fun f => f.size ≠ 3) opSize
    (fun f a b => logicW (opSize f) (a &&& b))) ∧
  (ShortCompare (fun c f => .tst c (.short f)) 8 (fun a b => logicW 4 (a &&& b))) ∧
  (∀ (c : Core) (f : ShortForm) (s : State) (e e1 : Ev) (l : Loc), s.beginsShort c 11 f = some e →
    e.dst 4 (shortOpnd f.x) = .ok l e1 →
    exec (.movi c f) s = .next (s.endsShort c 11 f e1 (e1.eff.put 4 l (word (unsigned 32 (signed 5 f.y.toNat)))))) ∧
  (ShortImmediate .addi 12 (fun a y => addW 4 a (word (unsigned 32 (signed 5 y.toNat))) false)) ∧
  (ShortImmediate .shli 13 (fun a y => shlW a y.toNat)) ∧
  (ShortImmediate .shri 14 (fun a y => shrW a y.toNat)) ∧
  (ShortImmediate .sari 15 (fun a y => sarW a y.toNat)) ∧
  (LongUnary .movsb (fun _ => 0x34) (fun _ => True) (fun _ => 1) (fun _ => 4) (fun _ _ a => { val := sextW 1 a })) ∧
  (LongUnary .movsh (fun _ => 0x35) (fun _ => True) (fun _ => 2) (fun _ => 4) (fun _ _ a => { val := sextW 2 a })) ∧
  (LongUnary .movzb (fun _ => 0x36) (fun _ => True) (fun _ => 1) (fun _ => 4) (fun _ _ a => { val := cutTo 1 a })) ∧
  (LongUnary .movzh (fun _ => 0x37) (fun _ => True) (fun _ => 2) (fun _ => 4) (fun _ _ a => { val := cutTo 2 a })) ∧
  (LongBinary .mul (fun _ => 0x38) (fun _ => True) (fun _ => 4) (fun _ _ a b => mulW a b)) ∧
  (LongBinary .mulhs (fun _ => 0x39) (fun _ => True) (fun _ => 4) (fun _ _ a b => highW (sval 4 a * sval 4 b))) ∧
  (LongBinary .mulhu (fun _ => 0x3A) (fun _ => True) (fun _ => 4) (fun _ _ a b => highW ((a.toNat * b.toNat : Nat) : Int))) ∧
  (∀ (c : Core) (f : LongForm) (s : State) (o : Opnds) (e e1 e2 e3 : Ev) (a b : Word) (l : Loc),
    e.src 4 o.a = .ok a e1 → e1.src 4 o.b = .ok b e2 → e2.dst 4 o.d = .ok l e3 →
    let x := fun (r : Alu) => { (e3.eff.put 4 l r.val).flags r.flags with trap := if b = 0 ∧ bit e3.x.sw 30 then some (6, none) else none }
    (s.beginsLong c 0x3C f = some (o, e) → exec (.divs c f) s = .next (s.endsLong c 0x3C f e3 (x (divsW (bit e3.x.sw 29) a b)))) ∧
    (s.beginsLong c 0x3D f = some (o, e) → exec (.divu c f) s = .next (s.endsLong c 0x3D f e3 (x (divuW a b)))) ∧
    (s.beginsLong c 0x3E f = some (o, e) → exec (.rems c f) s = .next (s.endsLong c 0x3E f e3 (x (remsW a b)))) ∧
    (s.beginsLong c 0x3F f = some (o, e) → exec (.remu c f) s = .next (s.endsLong c 0x3F f e3 (x (remuW a b))))) ∧
  (LongBinary .shl (fun _ => 0x40) (fun _ => True) (fun _ => 4) (fun _ _ a b => shlW a (bits b 5 0))) ∧
  (LongBinary .shr (fun _ => 0x41) (fun _ => True) (fun _ => 4) (fun _ _ a b => shrW a (bits b 5 0))) ∧
  (LongBinary .sar (fun _ => 0x42) (fun _ => True) (fun _ => 4) (fun _ _ a b => sarW a (bits b 5 0))) ∧
  (LongBinary .rol (fun _ => 0x43) (fun _ => True) (fun _ => 4) (fun _ _ a b => rolW a (bits b 5 0))) ∧
  (LongBinary .ror (fun _ => 0x44) (fun _ => True) (fun _ => 4) (fun _ _ a b => rorW a (bits b 5 0))) ∧
  (LongUnary .clz (fun _ => 0x45) (fun _ => True) (fun _ => 4) (fun _ => 4) (fun _ _ a => logicW 4 (clzW a))) ∧
  (LongUnary .brev (fun _ => 0x46) (fun _ => True) (fun _ => 4) (fun _ => 4) (fun _ _ a => logicW 4 (brevW a))) ∧
  (LongUnary .bswap (fun _ => 0x47) (fun _ => True) (fun _ => 4) (fun _ => 4) (fun _ _ a => logicW 4 (bswapW a)))

/-- The accumulator instructions: products are added and subtracted, sums stored and loaded, and the operations on both
accumulators run, each with the flags that it sets. Where it rests on the model's own choice or reading it follows log
entries 13, 52 and 54. -/
def Obligations.AccumulatorInstructionsComplete : Prop :=
  (∀ (c : Core) (f : LongForm) (s : State) (o : Opnds) (e e1 e2 : Ev) (a b : Word), f.d.toNat ≤ 1 →
    e.src 2 o.a = .ok a e1 → e1.src 2 o.b = .ok b e2 →
    let p := sval 2 a * sval 2 b
    let x := fun (v : Int) => (e2.eff.also (fun y => y.setAcc f.d.toNat (accOf (accVal (e2.x.acc f.d.toNat) + v)))).flags
      (setV (overflows 72 (accVal (e2.x.acc f.d.toNat) + v)))
    (s.beginsLong c 0x48 f = some (o, e) → exec (.mac c f) s = .next (s.endsLong c 0x48 f e2 (x p))) ∧
    (s.beginsLong c 0x49 f = some (o, e) → exec (.msu c f) s = .next (s.endsLong c 0x49 f e2 (x (-p)))) ∧
    (s.beginsLong c 0x4A f = some (o, e) → exec (.macdR c (.long f)) s = .next (s.endsLong c 0x4A f e2 (x p)))) ∧
  (∀ (c : Core) (f : ShortForm) (s : State) (e e1 e2 : Ev) (a b : Word) (k : Bool), s.beginsShort c (0x10 + k.toNat) f = some e →
    f.x.toNat < 24 → f.y.toNat < 24 → e.src 2 (shortOpnd f.x) = .ok a e1 → e1.src 2 (shortOpnd f.y) = .ok b e2 →
    let v := accVal (e2.x.acc k.toNat) + sval 2 a * sval 2 b
    exec (.macdR c (.short f)) s = .next (s.endsShort c (0x10 + k.toNat) f e2
      ((e2.eff.also (fun y => y.setAcc k.toNat (accOf v))).flags (setV (overflows 72 v))))) ∧
  (∀ (c : Core) (f : LongForm) (s : State) (o : Opnds) (e e1 e2 : Ev) (a b : Word),
    e.src 4 o.a = .ok a e1 → e1.src 4 o.b = .ok b e2 →
    let x := fun (j : Bool) =>
      let u := accVal e2.x.acc0 + (cmul j a b).1
      let v := accVal e2.x.acc1 + (cmul j a b).2
      ((e2.eff.also (fun y => { y with acc0 := accOf u })).also (fun y => { y with acc1 := accOf v })).flags
        (setV (overflows 72 u || overflows 72 v))
    (s.beginsLong c 0x4B f = some (o, e) → exec (.macdC c (.long f)) s = .next (s.endsLong c 0x4B f e2 (x false))) ∧
    (s.beginsLong c 0x4C f = some (o, e) → exec (.macdCj c (.long f)) s = .next (s.endsLong c 0x4C f e2 (x true)))) ∧
  (∀ (c : Core) (f : ShortForm) (s : State) (e e1 e2 : Ev) (a b : Word),
    f.x.toNat < 24 → f.y.toNat < 24 → e.src 4 (shortOpnd f.x) = .ok a e1 → e1.src 4 (shortOpnd f.y) = .ok b e2 →
    let x := fun (j : Bool) =>
      let u := accVal e2.x.acc0 + (cmul j a b).1
      let v := accVal e2.x.acc1 + (cmul j a b).2
      ((e2.eff.also (fun y => { y with acc0 := accOf u })).also (fun y => { y with acc1 := accOf v })).flags
        (setV (overflows 72 u || overflows 72 v))
    (s.beginsShort c 0x12 f = some e → exec (.macdC c (.short f)) s = .next (s.endsShort c 0x12 f e2 (x false))) ∧
    (s.beginsShort c 0x13 f = some e → exec (.macdCj c (.short f)) s = .next (s.endsShort c 0x13 f e2 (x true)))) ∧
  (ShortPlain .clra 0x14 (fun f => f.x = 0 ∧ f.y.toNat ≤ 1) (fun f e => e.eff.also (fun y => y.setAcc f.y.toNat 0))) ∧
  (∀ (c : Core) (f : LongForm) (s : State) (o : Opnds) (e e1 : Ev) (l : Loc), s.beginsLong c 0x4D f = some (o, e) →
    bits o.own 6 0 ≤ 40 → o.own &&& 0x7E80 = 0 → e.dst 4 o.d = .ok l e1 →
    let r := sacW (bit e1.x.sw 29) (if bit o.own 15 then e1.x.acc1 else e1.x.acc0) (bit o.own 8) (bits o.own 6 0)
    exec (.sac c f) s = .next (s.endsLong c 0x4D f e1 ((e1.eff.put 4 l r.val).flags r.flags))) ∧
  (∀ (c : Core) (f : LongForm) (s : State) (o : Opnds) (e e1 : Ev) (a : Word), s.beginsLong c 0x4E f = some (o, e) →
    f.d.toNat ≤ 1 → e.src 4 o.a = .ok a e1 →
    exec (.lac c f) s = .next (s.endsLong c 0x4E f e1 (e1.eff.also (fun y => y.setAcc f.d.toNat (accOf (sval 4 a)))))) ∧
  (LongPlain .acc0Clear 0x4F (fun f => f.d = 0) (fun _ _ e => e.eff.also (fun y => { y with acc0 := 0 }))) ∧
  (LongPlain .acc1Clear 0x4F (fun f => f.d = 1) (fun _ _ e => e.eff.also (fun y => { y with acc1 := 0 }))) ∧
  (LongPlain .accAdd 0x4F (fun f => f.d = 2) (fun _ _ e =>
    let v := accVal e.x.acc0 + accVal e.x.acc1
    (e.eff.also (fun y => { y with acc0 := accOf v })).flags (setV (overflows 72 v)))) ∧
  (LongPlain .accSub 0x4F (fun f => f.d = 3) (fun _ _ e =>
    let v := accVal e.x.acc0 - accVal e.x.acc1
    (e.eff.also (fun y => { y with acc0 := accOf v })).flags (setV (overflows 72 v)))) ∧
  (LongPlain .accSwap 0x4F (fun f => f.d = 4) (fun _ _ e => e.eff.also (fun y => { y with acc0 := e.x.acc1, acc1 := e.x.acc0 }))) ∧
  (LongPlain .accNegate 0x4F (fun f => f.d = 5) (fun _ _ e =>
    let v := -accVal e.x.acc0
    (e.eff.also (fun y => { y with acc0 := accOf v })).flags (setV (overflows 72 v))))

/-- The special-register, atomic and control instructions: registers and memory move, control goes to its target, frames are
pushed and popped, loops are set up and left, and the core waits. Where it rests on the model's own choice or reading it
follows log entries 13, 53, 54, 55 and 58. -/
def Obligations.ControlInstructionsComplete : Prop :=
  (∀ (c : Core) (f : LongForm) (s : State) (o : Opnds) (e e1 : Ev) (l : Loc), s.beginsLong c 0x50 f = some (o, e) →
    f.a.toNat ≤ 21 → e.dst 4 o.d = .ok l e1 →
    exec (.mfs c f) s = .next (s.endsLong c 0x50 f e1 (e1.eff.put 4 l (e1.special f.a.toNat)))) ∧
  (∀ (c : Core) (f : LongForm) (s : State) (o : Opnds) (e e1 : Ev) (v : Word), s.beginsLong c 0x51 f = some (o, e) →
    f.d.toNat ≤ 19 → e.src 4 o.a = .ok v e1 → (f.d = 1 → bits v 26 24 ≤ 4 ∧ bits v 22 20 ≤ 4) →
    exec (.mts c f) s = .next (s.endsLong c 0x51 f e1 (e1.eff.also (fun x => x.setSpecial f.d.toNat v)))) ∧
  (∀ (c : Core) (f : LongForm) (s : State) (o : Opnds) (e e1 e2 : Ev) (a d : Loc × Word), s.beginsLong c 0x52 f = some (o, e) →
    e.readWrite o.a = .ok a e1 → e1.readWrite o.d = .ok d e2 →
    exec (.xchg c f) s = .next (s.endsLong c 0x52 f e2 ((e2.eff.put 4 d.1 a.2).put 4 a.1 d.2))) ∧
  (∀ (c : Core) (f : LongForm) (s : State) (o : Opnds) (e e1 e2 e3 : Ev) (a b : Word) (d : Loc × Word),
    s.beginsLong c 0x53 f = some (o, e) → e.src 4 o.a = .ok a e1 → e1.src 4 o.b = .ok b e2 → e2.readWrite o.d = .ok d e3 →
    exec (.casOp c f) s = .next (s.endsLong c 0x53 f e3
      ((if d.2 == a then e3.eff.put 4 d.1 b else e3.eff).flags (fun sw => setBit sw Flag.z (d.2 == a))))) ∧
  (LongPlain .j 0x58 (fun _ => True) (fun _ o e => e.eff.goto (e.target o.a))) ∧
  (LongPlain .bcc 0x59 (fun f => f.d.toNat < 16) (fun f o e => if condHolds f.d.toNat e.x.sw then e.eff.goto (e.target o.a) else e.eff)) ∧
  (∀ (c : Core) (f : ShortForm) (s : State) (e : Ev),
    let x := fun (p : Bool) =>
      if p then e.eff.goto (plus e.pc (signed 10 (f.x.toNat * 32 + f.y.toNat) * 2)) else e.eff
    (s.beginsShort c 0x15 f = some e → exec (.bra c f) s = .next (s.endsShort c 0x15 f e (x true))) ∧
    (s.beginsShort c 0x16 f = some e → exec (.beq c f) s = .next (s.endsShort c 0x16 f e (x (bit e.x.sw Flag.z)))) ∧
    (s.beginsShort c 0x17 f = some e → exec (.bne c f) s = .next (s.endsShort c 0x17 f e (x (!bit e.x.sw Flag.z))))) ∧
  (∀ (c : Core) (f : LongForm) (s : State) (o : Opnds) (e e1 : Ev), s.beginsLong c 0x5A f = some (o, e) →
    e.checkMem 4 (e.x.sp - 4) = .ok () e1 → e1.mayPush = true →
    let ret := e1.pc + word (((shapeOf 0x5A).getD {}).bytes c f)
    exec (.call c f) s = .next (s.endsLong c 0x5A f e1
      (((e1.eff.put 4 (.mem (e.x.sp - 4)) ret).also (fun x => { x with sp := e.x.sp - 4 })).goto (e1.target o.a)))) ∧
  (∀ (c : Core) (f : LongForm) (s : State) (o : Opnds) (e e1 : Ev) (t : Word), s.beginsLong c 0x5B f = some (o, e) →
    e.readMem 4 e.x.sp = .ok t e1 →
    exec (.ret c (.long f)) s = .next (s.endsLong c 0x5B f e1 ((e1.eff.also (fun x => { x with sp := x.sp + 4 })).goto t))) ∧
  (∀ (c : Core) (f : ShortForm) (s : State) (e e1 : Ev) (t : Word), s.beginsShort c 0x18 f = some e →
    f.x = 0 → f.y = 0 → e.readMem 4 e.x.sp = .ok t e1 →
    exec (.ret c (.short f)) s = .next (s.endsShort c 0x18 f e1 ((e1.eff.also (fun x => { x with sp := x.sp + 4 })).goto t))) ∧
  (∀ (c : Core) (f : LongForm) (s : State) (o : Opnds) (e e1 : Ev), s.beginsLong c 0x5C f = some (o, e) → o.own.toNat < 256 →
    let ret := e.pc + word (((shapeOf 0x5C).getD {}).bytes c f)
    let ws := ret :: word o.own.toNat :: (maskRegs o.own.toNat).map e.p
    Ev.checkMany 4 ws.length (e.frame o.a) e = .ok () e1 →
    exec (.callm c f) s = .next (s.endsLong c 0x5C f e1 ((e1.eff.putMany 4 (e.frame o.a) ws).goto (e1.target o.b)))) ∧
  (∀ (c : Core) (f : LongForm) (s : State) (o : Opnds) (e e1 e2 e3 : Ev) (m t : Word) (vs : List Word),
    s.beginsLong c 0x5D f = some (o, e) → e.readMem 4 (e.frame o.a + 4) = .ok m e1 →
    Ev.readMany 4 (maskRegs (bits m 7 0)).length (e.frame o.a + 8) e1 = .ok vs e2 → e2.readMem 4 (e.frame o.a) = .ok t e3 →
    exec (.retm c f) s = .next (s.endsLong c 0x5D f e3
      ({ e3.eff with set := e3.set ++ (maskRegs (bits m 7 0)).zip vs }.goto t))) ∧
  (∀ (c : Core) (f : LongForm) (s : State) (o : Opnds) (e e1 e2 : Ev) (t sw : Word), s.beginsLong c 0x5E f = some (o, e) →
    e.readMem 4 e.x.sp = .ok t e1 → e1.readMem 4 (e1.x.sp + 4) = .ok sw e2 →
    exec (.reti c f) s = .next (s.endsLong c 0x5E f e2
      ((e2.eff.also (fun x => { x with sp := x.sp + 8, sw := sw &&& 0xE770003F })).goto t))) ∧
  (LongPlain .trap 0x5F (fun _ => True) (fun _ o e => { e.eff with trap := some (9, some (word o.own.toNat)) })) ∧
  (∀ (c : Core) (held : Bool) (f : LongForm) (s : State) (o : Opnds) (e : Ev), s.beginsLong c 0x65 f = some (o, e) →
    exec (.bkpt c held f) s = .next (s.endsLong c 0x65 f e
      (if held && e.s.debugCores then { e.eff with hold := true } else { e.eff with trap := some (10, none) }))) ∧
  (∀ (c : Core) (f : LongForm) (s : State) (o : Opnds) (e e1 : Ev) (count : Word), s.beginsLong c 0x60 f = some (o, e) →
    let n := ((shapeOf 0x60).getD {}).bytes c f
    let last := o.own.toNat * Core.unit c
    n ≤ last → e.src 4 o.a = .ok count e1 → count ≠ 0 → e1.x.ld < 4 →
    exec (.loop c f) s = .next (s.endsLong c 0x60 f e1
      (e1.eff.also (fun x => x.pushLoop (plus e1.pc n) (plus e1.pc last) count)))) ∧
  (∀ (c : Core) (f : LongForm) (s : State) (o : Opnds) (e e1 e2 : Ev) (t : Word), s.beginsLong c 0x60 f = some (o, e) →
    let last := o.own.toNat * Core.unit c
    ((shapeOf 0x60).getD {}).bytes c f ≤ last → e.src 4 o.a = .ok 0 e1 → e1.after (plus e1.pc last) = .ok t e2 →
    exec (.loop c f) s = .next (s.endsLong c 0x60 f e2 (e2.eff.goto t))) ∧
  (∀ (c : Core) (f : LongForm) (s : State) (o : Opnds) (e : Ev), s.beginsLong c 0x61 f = some (o, e) → e.x.ld ≠ 0 →
    exec (.brkl c f) s = .next (s.endsLong c 0x61 f e ((e.eff.flags (fun sw => setBits sw 26 24 (e.x.ld - 1))).goto (e.target o.a)))) ∧
  (LongPlain (fun c f => .wfi c (.long f)) 0x62 (fun _ => True) (fun _ _ e => { e.eff with wfi := true })) ∧
  (ShortPlain (fun c f => .wfi c (.short f)) 0x19 (fun f => f.x = 0 ∧ f.y = 0) (fun _ e => { e.eff with wfi := true })) ∧
  (LongPlain .sync 0x63 (fun _ => True) (fun _ _ e => e.eff)) ∧
  (LongPlain .icinv 0x64 (fun _ => True) (fun _ _ e => e.eff.also (fun x => { x with icache := [] }))) ∧
  (LongPlain .di 0x66 (fun _ => True) (fun _ _ e => e.eff.flags (fun sw => setBit sw 31 false))) ∧
  (LongPlain .ei 0x67 (fun _ => True) (fun _ _ e => e.eff.flags (fun sw => setBit sw 31 true)))

/-- Paired words, the words of no other row, and the commands of the cores: both slots of a word take effect, a reserved opcode
raises EMUL, an absent coprocessor COPROC, an undefined function or field ILLEGAL, a core runs, halts, takes an interrupt and wakes. Where it rests on the model's own choice or reading it follows
log entries 53, 55, 56 and 57. -/
def Obligations.CoreControlCompletes : Prop :=
  (∀ (c : Core) (w : Word) (via : Fetch) (s : State) (e e1 e2 : Ev) (f g : Eff), c.link = true → bit w 31 = true →
    s.begins c via (bytesOfWord w) = some e →
    let a := pairA w
    let b := pairB w
    slotBOnly (shortOp5 a) = false → shortOp (shortOp5 a) (shortX a) (shortY a) e = .ok f e1 →
    shortOp (shortOp5 b) (shortX b) (shortY b) { e with s := e1.s } = .ok g e2 →
    exec (.pairedWord c w via) s = .next (s.ends c via
      { len := 4, opc := shortOp5 a, opcB := shortOp5 b, short := true, ops := 2
        point := bit w 30 || decide (7 ≤ (s.cpu c).pairs) } e2
      { set := f.set ++ g.set, upd := fun x => g.upd (f.upd x), stores := f.stores ++ g.stores, jump := g.jump, wfi := g.wfi })) ∧
  (∀ (c : Core) (f : LongForm) (s : State) (e : Ev), f.stands c = true → shapeOf f.opc = none →
    let u := s.applyFlips f.via.flips
    let n := lengthOf c f.word
    s.begins c f.via (f.code n) = some e →
    exec (.emul c (.long f)) s = .next (u.coreFault e.s c { len := n, opc := f.opc } (u.cpu c).pc { vector := 2 })) ∧
  (∀ (c : Core) (f : LongForm) (s : State) (e : Ev) (h : Shape), f.stands c = true → shapeOf f.opc = some h →
    0xE0 ≤ f.opc → f.opc ≤ 0xEF → (funcKnown (f.opc % 16 / 2) (fnFunc (h.opnds f).own) = false ∨ f.opc % 2 = 1) →
    let u := s.applyFlips f.via.flips
    let n := lengthOf c f.word
    let legal := !f.bad && copFieldOk (h.opnds f).a && copFieldOk (h.opnds f).b && copFieldOk (h.opnds f).d
    s.begins c f.via (f.code n) = some e →
    exec (.emul c (.long f)) s = .next (u.coreFault e.s c { len := n, opc := f.opc } (u.cpu c).pc {
      vector := if legal && (decide (6 ≤ f.opc % 16) || decide (f.opc % 2 = 1)) then 3 else 1 })) ∧
  (∀ (c : Core) (f : LongForm) (s : State) (e : Ev), f.stands c = true → f.opc = 0x4F → 5 < f.d.toNat →
    let u := s.applyFlips f.via.flips
    let n := ((shapeOf 0x4F).getD {}).bytes c f
    s.begins c f.via (f.code n) = some e →
    exec (.emul c (.long f)) s = .next (u.coreFault e.s c { len := n, opc := 0x4F } (u.cpu c).pc { vector := 1 })) ∧
  (∀ (c : Core) (f : ShortForm) (s : State) (e : Ev), 0x1A ≤ f.op5 →
    let u := s.applyFlips f.via.flips
    s.beginsShort c f.op5 f = some e →
    exec (.emul c (.short f)) s =
      .next (u.coreFault e.s c { len := 2, opc := f.op5, short := true } (u.cpu c).pc { vector := 2 })) ∧
  (∀ (ini : Initiator) (c : Core) (s : State), s.gate ini (cpuPage c) 0x800 true = .serve →
    let u := s.accessed ini (cpuPage c) 0x800
    exec (.coreRun ini c) s = .next ((u.cpuCtrlWrite c (setBit (u.reg (cpuPage c) 0 0x800) 31 true)).setReply ini 0 false) ∧
    exec (.coreHalt ini c) s = .next ((u.cpuCtrlWrite c (setBit (u.reg (cpuPage c) 0 0x800) 31 false)).setReply ini 0 false)) ∧
  (∀ (c : Core) (s t : State) (i : Nat), s.coreRuns c = true → (s.cpu c).atPoint = true → (s.cpu c).stalled = false →
    (s.cpu c).ie = true → s.irqWinner c = some i →
    s.enter c (16 + i) (s.cpu c).pc (some (bits (s.irqMap c i) 25 24)) = .ok t →
    exec (.interruptEntry c) s = .next t) ∧
  (∀ (c : Core) (s : State), (s.cpu c).st = .wfi → s.ready (cpuDomain c) = true → s.resetDue = none → s.irqAny c = true →
    exec (.wfiWake c) s = .next (s.setCpu c { s.cpu c with st := .run }))

/-- The coprocessor functions: each writes what the spec's table gives for its operands, in bank 0 with a count N above 0; a count
of 0 changes no operand. Where it rests on the model's own choice or reading it follows log entries 52, 56 and 58. -/
def Obligations.CoprocessorInstructionsComplete : Prop :=
  let ab : Shape := { a := .cop 4, b := .cop 4, own := 1 }
  let az : Shape := { a := .cop 4, own := 1 }
  (∀ (c : Core) (f : LongForm) (s : State) (o : Opnds) (e e1 e2 e3 : Ev) (a b : List Byte), fnCount o.own ≠ 0 →
    e.blocks (fnCount o.own) o.a = .ok a e1 →
    let q := e2.addr 4 o.d
    let w := fun (bs : List Byte) => s.endsCop c 0 f e3 (e3.eff.putMany 4 q (wordsOfBytes (bs.length / 4) bs))
    (s.beginsCop c 0 1 f copABD = some (o, e) → e1.blocks (fnCount o.own) o.b = .ok b e2 →
      Ev.checkMany 4 ((xorBytes a b).length / 4) q e2 = .ok () e3 →
      exec (.xor128 c f) s = .next (w (xorBytes a b))) ∧
    (s.beginsCop c 0 2 f copABD = some (o, e) → e1.blocks 1 o.b = .ok b e2 →
      let r := (blocksOf (fnCount o.own) a).flatMap (fun x => Crypto.gfMul x b)
      Ev.checkMany 4 (r.length / 4) q e2 = .ok () e3 → exec (.gfmul c f) s = .next (w r))) ∧
  (∀ (c : Core) (f : LongForm) (s : State) (o : Opnds) (e e1 e2 : Ev) (a : List Byte), fnCount o.own ≠ 0 →
    let q := e1.addr 4 o.d
    let w := fun (bs : List Byte) => s.endsCop c 0 f e2 (e2.eff.putMany 4 q (wordsOfBytes (bs.length / 4) bs))
    (s.beginsCop c 0 3 f copAD = some (o, e) → e.blocks 1 o.a = .ok a e1 →
      let r := a.take 12 ++ bytesBE 4 ((natOfBytesBE (a.drop 12) + fnCount o.own) % 2 ^ 32)
      Ev.checkMany 4 (r.length / 4) q e1 = .ok () e2 → exec (.ctrinc c f) s = .next (w r)) ∧
    (s.beginsCop c 0 4 f copAD = some (o, e) → e.blocks (fnCount o.own) o.a = .ok a e1 →
      let r := (blocksOf (fnCount o.own) a).flatMap List.reverse
      Ev.checkMany 4 (r.length / 4) q e1 = .ok () e2 → exec (.rev128 c f) s = .next (w r))) ∧
  (∀ (c : Core) (f : LongForm) (s : State) (o : Opnds) (e e1 e2 : Ev) (a b : List Word), fnCount o.own ≠ 0 →
    s.beginsCop c 1 1 f ab = some (o, e) → e.words (fnCount o.own) o.a = .ok a e1 → e1.words (fnCount o.own) o.b = .ok b e2 →
    let ps := (a.zip b).map (fun p => cmul true p.1 p.2)
    exec (.xcorr c f) s = .next (s.endsCop c 1 f e2
      (e2.eff.also (fun y => { y with acc0 := accOf (accVal e2.x.acc0 + (ps.map (·.1)).sum)
                                      acc1 := accOf (accVal e2.x.acc1 + (ps.map (·.2)).sum) })))) ∧
  (∀ (c : Core) (f : LongForm) (s : State) (o : Opnds) (e e1 : Ev) (a : List Word), fnCount o.own ≠ 0 →
    s.beginsCop c 1 2 f az = some (o, e) → e.words (fnCount o.own) o.a = .ok a e1 →
    exec (.energy c f) s = .next (s.endsCop c 1 f e1
      (e1.eff.also (fun y => { y with acc0 := accOf (accVal e1.x.acc0 + (a.map (fun w => re w * re w + im w * im w)).sum)
                                      acc1 := accOf (accVal e1.x.acc1 + 0) })))) ∧
  (∀ (c : Core) (f : LongForm) (s : State) (o : Opnds) (e e1 e2 : Ev) (a : List Word), fnCount o.own ≠ 0 →
    s.beginsCop c 1 3 f copAD = some (o, e) → e.words (fnCount o.own) o.a = .ok a e1 → e1.checkMem 4 (e1.addr 4 o.d) = .ok () e2 →
    exec (.peak c f) s = .next (s.endsCop c 1 f e2
      (e2.eff.put 4 (.mem (e1.addr 4 o.d)) (word (peakOf (a.map (fun w => re w * re w + im w * im w))))))) ∧
  (∀ (c : Core) (f : LongForm) (s : State) (o : Opnds) (e e1 e2 e3 : Ev) (bs : List Byte) (v : Word), fnCount o.own ≠ 0 →
    e.octets (fnCount o.own) o.a = .ok bs e1 →
    let w := fun (k r : Nat) => s.endsCop c 2 f e3 (e3.eff.put k (.mem (e2.addr k o.d)) (word r))
    (s.beginsCop c 2 1 f copABD = some (o, e) → e1.readMem 2 (e1.addr 2 o.b) = .ok v e2 → e2.checkMem 2 (e2.addr 2 o.d) = .ok () e3 →
      exec (.crc16 c f) s = .next (w 2 (crc16 v.toNat bs))) ∧
    (s.beginsCop c 2 2 f copABD = some (o, e) → e1.readMem 4 (e1.addr 4 o.b) = .ok v e2 → e2.checkMem 4 (e2.addr 4 o.d) = .ok () e3 →
      exec (.crc32 c f) s = .next (w 4 (crc32 v.toNat bs)))) ∧
  (∀ (c : Core) (f : LongForm) (s : State) (o : Opnds) (e e1 e2 e3 e4 : Ev) (bs : List Byte) (v : Word), fnCount o.own ≠ 0 →
    e.octets (fnCount o.own) o.a = .ok bs e1 →
    let w := fun (k width : Nat) (out : List Byte × Nat) => s.endsCop c 2 f e4
      ((e4.eff.putMany 1 (e3.addr 1 o.d) (out.1.map (fun b => b.setWidth 32))).put k (.mem (e1.addr k o.b))
        (word (v.toNat / 2 ^ width * 2 ^ width + out.2 % 2 ^ width)))
    (s.beginsCop c 2 3 f copABD = some (o, e) → e1.readMem 2 (e1.addr 2 o.b) = .ok v e2 → e2.checkMem 2 (e1.addr 2 o.b) = .ok () e3 →
      Ev.checkMany 1 (pn9 bs (v.toNat % 2 ^ 9)).1.length (e3.addr 1 o.d) e3 = .ok () e4 →
      exec (.pn9 c f) s = .next (w 2 9 (pn9 bs (v.toNat % 2 ^ 9)))) ∧
    (s.beginsCop c 2 4 f copABD = some (o, e) → e1.readMem 1 (e1.addr 1 o.b) = .ok v e2 → e2.checkMem 1 (e1.addr 1 o.b) = .ok () e3 →
      Ev.checkMany 1 (convOctets bs (v.toNat % 2 ^ 6)).1.length (e3.addr 1 o.d) e3 = .ok () e4 →
      exec (.conv c f) s = .next (w 1 6 (convOctets bs (v.toNat % 2 ^ 6))))) ∧
  (∀ (c : Core) (f : LongForm) (s : State) (o : Opnds) (e : Ev), fnCount o.own = 0 →
    let w := fun (cp : Nat) => s.endsCop c cp f e e.eff
    (s.beginsCop c 0 1 f copABD = some (o, e) → exec (.xor128 c f) s = .next (w 0)) ∧
    (s.beginsCop c 0 2 f copABD = some (o, e) → exec (.gfmul c f) s = .next (w 0)) ∧
    (s.beginsCop c 0 3 f copAD = some (o, e) → exec (.ctrinc c f) s = .next (w 0)) ∧
    (s.beginsCop c 0 4 f copAD = some (o, e) → exec (.rev128 c f) s = .next (w 0)) ∧
    (s.beginsCop c 1 1 f ab = some (o, e) → exec (.xcorr c f) s = .next (w 1)) ∧
    (s.beginsCop c 1 2 f az = some (o, e) → exec (.energy c f) s = .next (w 1)) ∧
    (s.beginsCop c 1 3 f copAD = some (o, e) → exec (.peak c f) s = .next (w 1)) ∧
    (s.beginsCop c 2 1 f copABD = some (o, e) → exec (.crc16 c f) s = .next (w 2)) ∧
    (s.beginsCop c 2 2 f copABD = some (o, e) → exec (.crc32 c f) s = .next (w 2)) ∧
    (s.beginsCop c 2 3 f copABD = some (o, e) → exec (.pn9 c f) s = .next (w 2)) ∧
    (s.beginsCop c 2 4 f copABD = some (o, e) → exec (.conv c f) s = .next (w 2)))

/-! ### Commands complete: security, update and memories -/

/-- SEC's commands: reconstruction ends, items hash, verify, sign, attest, enroll and run owner commands, the random source fails
its test, and the debug gate takes a token and gives its verdict. Where it rests on the model's own choice or reading it
follows log entries 23, 59, 60, 61 and 62. -/
def Obligations.SecurityCommandsComplete : Prop :=
  (∀ (ok : Bool) (s : State), s.domOn Dm.sec = true → s.sec.puf = none →
    let good := ok && !s.sec.otp.helperGone
    let u := s.setSec (fun c => { c with puf := some good })
    exec (.drkReconstructDone ok) s = .next (if good then u else u.event Pg.sec 3)) ∧
  (∀ (k : Nat) (flips : List Flip) (s t v : State) (i : Item) (m : List Byte),
    let u := s.applyFlips flips
    u.secItem 1 k = some i → u.reads i.addrA i.length m t → t.writes i.addrB (Crypto.sha256 m) v →
    exec (.secHash k flips) s = .next (v.finish i.id { status := Sc.done, actual := 32 })) ∧
  (∀ (k : Nat) (flips : List Flip) (s t : State) (i : Item) (m : List Byte),
    let u := s.applyFlips flips
    u.secItem 2 k = some i → i.length = 160 → u.reads i.addrA 160 m t →
    exec (.secVerify k flips) s = .next (
      if Crypto.ecdsaVerify ((m.drop 32).take 64) (m.take 32) (m.drop 96) then t.finish i.id { status := Sc.done }
      else t.fresh.2.finish i.id { status := Sc.authFail, wb := bits t.fresh.1 7 0 })) ∧
  (∀ (k : Nat) (flips : List Flip) (s t v : State) (i : Item) (m : List Byte),
    let u := s.applyFlips flips
    u.secItem 3 k = some i → i.length = 32 → u.sec.otp.life = 3 → u.sec.healthy = true → u.pufOk = true →
    u.reads i.addrA 32 m t → (t.unitSign 1 m).2.writes i.addrB (t.unitSign 1 m).1 v →
    exec (.secSign k flips) s = .next (v.finish i.id { status := Sc.done, actual := 64 })) ∧
  (∀ (k : Nat) (flips : List Flip) (s v : State) (i : Item),
    let u := s.applyFlips flips
    u.secItem 4 k = some i → u.sec.healthy = true → (u.random i.length).2.writes i.addrB (u.random i.length).1 v →
    exec (.secRandom k flips) s = .next (v.finish i.id { status := Sc.done, actual := i.length })) ∧
  (∀ (k : Nat) (flips : List Flip) (s t v : State) (i : Item) (m : List Byte),
    let u := s.applyFlips flips
    u.secItem 5 k = some i → i.length = 32 → u.sec.otp.life = 3 → u.sec.healthy = true → u.pufOk = true →
    u.reads i.addrA 32 m t →
    let r := t.attestReport m
    (t.unitSign 2 r).2.writes i.addrB (r ++ (t.unitSign 2 r).1) v →
    exec (.secAttest k flips) s = .next (v.finish i.id { status := Sc.done, actual := 240 })) ∧
  (∀ (k : Nat) (flips : List Flip) (s t : State) (i : Item) (m : List Byte),
    let u := s.applyFlips flips
    u.secItem 6 k = some i → i.length = 32 → u.reads i.addrA 32 m t →
    let v := (t.random 4).2
    exec (.secExtend k flips) s = .next ((v.setSec (fun c => { c with
      meas := Crypto.sha256 (c.meas ++ [0xFF] ++ (t.random 4).1 ++ m) })).finish i.id { status := Sc.done })) ∧
  (∀ (k : Nat) (flips : List Flip) (s v : State) (i : Item),
    let u := s.applyFlips flips
    u.secItem 7 k = some i → i.length = 64 → u.sec.otp.life = 3 → u.pufOk = true →
    u.writes i.addrB (Crypto.publicKey (unitKey u.sec.otp.salt)) v →
    exec (.secPubkey k flips) s = .next (v.finish i.id { status := Sc.done, actual := 64 })) ∧
  (∀ (k writes : Nat) (flips : List Flip) (s t : State) (i : Item) (c : List Byte),
    let u := s.applyFlips flips
    u.secItem 8 k = some i → i.length = 144 → u.reads i.addrA 144 c t → t.sec.healthy = true → t.pufOk = true →
    t.rangeStatus i.addrB 160 = .ready →
    let slot := if (Sparse.get [] t.sec.otp.salts 0).isEmpty then 0 else 1
    let salt := (t.random 32).1
    let pub := Crypto.publicKey (unitKey salt)
    let id := Crypto.sha256 pub
    let w := (t.random 32).2.setOtp (fun o => ((enrolWrites c salt id slot).take writes).foldl (fun o f => f o) o)
    let x := w.unitSign 3 (pub ++ bytesOfWord w.hwtype ++ w.sec.otp.owner 0)
    exec (.secEnroll k writes flips) s = .next (
      if t.enrolBad c then t.secFail i Sc.internal (some 1)
      else if !t.enrolSigned c then t.secFail i Sc.authFail (some 3)
      else if writes < 6 then w
      else x.2.secOut i i.addrB (pub ++ id ++ x.1) (fun s => s.finish i.id { status := Sc.done, actual := 160 }))) ∧
  (∀ (k : Nat) (flips : List Flip) (s t : State) (i : Item) (c : List Byte),
    let u := s.applyFlips flips
    u.secItem 9 k = some i → i.length = 232 → u.reads i.addrA 232 c t → t.ownerCheck c = none →
    ((leWord c 0).toNat = 1 → exec (.ownerAdd k flips) s = .next ((t.setOtp (fun o => { o with
      owners := Sparse.set [] o.owners (bits (leWord c 4) 1 0) (Crypto.sha256 (cut c 40 64)) })).finish i.id { status := Sc.done })) ∧
    ((leWord c 0).toNat = 2 → exec (.ownerRevoke k flips) s = .next ((t.setOtp (fun o => { o with
      revoked := Sparse.set false o.revoked (bits (leWord c 4) 1 0) true })).finish i.id { status := Sc.done })) ∧
    ((leWord c 0).toNat = 3 → exec (.ownerRetire k flips) s = .next (((t.setOtp (fun o => { o with
      life := 7, helperGone := true })).finish i.id { status := Sc.done }).setSec (fun c => { c with
        puf := c.puf.map (fun _ => false) })))) ∧
  (∀ (s : State), s.domOn Dm.sec = true →
    exec .rngHealthFail s = .next ((s.setSec (fun c => { c with healthy := false, rngFails := satInc 16 c.rngFails })).event Pg.sec 2)) ∧
  (∀ (octets : List Byte) (s : State), s.sec.lockout = false → s.sec.token = none → s.domOn Dm.sec = true →
    exec (.debugTokenWrite octets) s = .next (s.setSec (fun c => { c with token := some (octets.take 192) }))) ∧
  (∀ (s : State) (t : List Byte), s.sec.token = some t →
    exec .debugTokenVerdict s = .next (
      let u := s.setSec (fun c => { c with token := none, chal := c.chal + 1 })
      if s.tokenGood t then
        (u.setSec (fun c => { c with dbgOpen := true, perms := c.perms ||| bits (leWord t 4) 2 0 })).event Pg.sec 1
      else (u.setSec (fun c => { c with fails := min 3 (c.fails + 1), lockout := c.lockout || decide (3 ≤ c.fails + 1) })).event Pg.sec 1))

/-- Palette's page and engine commands and its cipher items: pages are claimed, released and scrubbed, an engine takes and
suspends a message, and a message that an engine runs comes to its end. Where it rests on the model's own choice or reading
it follows log entries 59, 61 and 63. -/
def Obligations.PaletteMessagesComplete : Prop :=
  (∀ (ini : Initiator) (s : State), s.gate ini Pg.pal 0x104 true = .serve →
    let u := s.accessed ini Pg.pal 0x104
    let p := u.chsel Pg.pal ini
    u.locked Pg.pal = false →
    (lnkPage p = false → u.palPage p = .free → exec (.pageClaim ini) s = .next ((u.setPalPage p (.owned ini)).setReply ini 0 false)) ∧
    (u.palPage p = .owned ini → u.palInflight p = 0 →
      exec (.pageRelease ini) s = .next (((u.emptyPage p).setPalPage p .scrubbing).setReply ini 0 false))) ∧
  (∀ (p : Nat) (s : State), s.palPage p = .scrubbing →
    exec (.pageScrubDone p) s = .next ((s.setPalPage p .free).event Pg.pal 1)) ∧
  (∀ (flips : List Flip) (s : State) (e : Nat),
    let u := s.applyFlips flips
    u.engineFree = some e → u.ready Dm.sec = true → u.sec.puf ≠ none →
    (∀ i, u.flm.ift.find? (fun i => u.palWaits i && i.urgent) = some i → exec (.engineDispatch flips) s = .next (u.takeItem e i)) ∧
    (u.flm.ift.find? (fun i => u.palWaits i && i.urgent) = none →
      (∀ p ps, u.suspendedMsgs = p :: ps → exec (.engineDispatch flips) s = .next (u.resumeMsg e p.2)) ∧
      (∀ i, u.suspendedMsgs = [] → u.flm.ift.find? u.palWaits = some i → exec (.engineDispatch flips) s = .next (u.takeItem e i)))) ∧
  (∀ (lnk : Bool) (octets : Nat) (s : State) (a b : PalMsg), s.engine 0 = some a → s.engine 1 = some b → a.urgent = false →
    b.urgent = false → ((lnk && s.lnkFrame) || s.flm.ift.any (fun i => s.palWaits i && i.urgent)) = true →
    let e := if a.order < b.order then 1 else 0
    let m := if a.order < b.order then b else a
    let u := match s.item m.item with | some i => s.count Pg.pal i.palPage 0x10C 15 0 1 | none => s
    exec (.messageSuspend lnk octets) s = .next (u.setPal (fun q => { q with
      engines := Sparse.set none q.engines e none
      suspended := q.suspended ++ [(e, { m with susp := satInc 8 m.susp, octets := octets / 16 * 16 })] }))) ∧
  (∀ (k a aad : Nat) (flips : List Flip) (s t v : State) (i : Item) (m : PalMsg) (c : PalCtx) (key bs : List Byte),
    let u := s.applyFlips flips
    u.item k = some i → [0, 1].findSome? (fun e => (u.engine e).filter (fun m => m.item == k)) = some m → m.key = some key →
    u.cipherBad i m.block = none →
    (i.seg ≤ 1 ∧ a = i.addrA + 32 ∧ aad = pbAad m.block ∧
        c = { handle := pbHandle m.block, mode := pbMode m.block, key := some key, op := i.opcode, iv := pbIv m.block
              m := pbTag m.block, total := pbTotal m.block, aad := [], data := [] } ∨
      1 < i.seg ∧ a = i.addrA ∧ aad = 0 ∧ u.palCtx i.palPage i.ctx = some c) →
    let last := i.seg = 0 ∨ i.seg = 3
    u.reads a (i.length + (if last ∧ (i.opcode = 2 ∨ i.opcode = 4) then c.m else 0)) bs t →
    let given := c.aad ++ bs.take aad
    let data := cut bs aad (i.length - aad)
    let all := c.data ++ data
    let tag := fun (p e : List Byte) => streamTag c.mode key c.iv given p e c.m
    let next := if last then none else some { c with aad := given, data := all }
    let out := payloadOut c.mode key c.iv c.data.length data
    let whole := payloadOut c.mode key c.iv 0 all
    (i.opcode = 1 →
      let w := if last then out ++ tag all whole else out
      t.writes i.addrB w v → exec (.palEncrypt k flips) s = .next (v.cipherEnd i m Sc.done 0 w.length all.length false next)) ∧
    (i.opcode = 2 → t.writes i.addrB out v →
      exec (.palDecrypt k flips) s = .next (
        if last ∧ bs.drop i.length ≠ tag whole all then v.cipherEnd i m Sc.authFail 0 out.length all.length false none
        else if !last then v.cipherEnd i m Sc.doneWarn 0 out.length all.length true next
        else v.cipherEnd i m Sc.done 0 out.length all.length false next)) ∧
    (i.opcode = 3 →
      let w := if last then tag all [] else []
      t.writes i.addrB w v → exec (.palMacGen k flips) s = .next (v.cipherEnd i m Sc.done 0 w.length all.length false next)) ∧
    (i.opcode = 4 → t.writes i.addrB [] v →
      exec (.palMacCheck k flips) s = .next (
        if last ∧ bs.drop i.length ≠ tag all [] then v.cipherEnd i m Sc.authFail 0 0 all.length false none
        else v.cipherEnd i m Sc.done 0 0 all.length false next)))

/-- Palette's key items: keys are loaded, unwrapped, wrapped, derived, generated and erased. Where it rests on the model's own
choice or reading it follows log entries 59, 60, 61, 62 and 63. -/
def Obligations.KeyItemsComplete : Prop :=
  (∀ (k : Nat) (flips : List Flip) (s t v : State) (i : Item) (b key : List Byte), (s.applyFlips flips).keyTurn 8 k i b t →
    i.length = 16 ∨ i.length = 32 → t.targetBad i b i.length = false →
    t.sec.otp.life = 1 ∨ t.sec.otp.life = 3 ∧ t.sec.otp.plainKey = true → t.reads (i.addrA + 32) i.length key v →
    exec (.keyLoad k flips) s = .next ((v.install i (pbHandle b) { origin := 0, usage := pbUsage b % 64, octets := key }).finish i.id
      { status := Sc.done })) ∧
  (∀ (k : Nat) (flips : List Flip) (s t v : State) (i : Item) (b w blob : List Byte), (s.applyFlips flips).keyTurn 9 k i b t →
    t.auxKey i b 3 kstor = some w → i.length = 52 ∨ i.length = 68 → t.targetBad i b (i.length - 36) = false →
    t.reads (i.addrA + 32) i.length blob v →
    let n := i.length - 36
    let hdr := cut blob 12 8
    let c := cut blob 20 n
    (hdr.getD 0 0).toNat = 1 → (hdr.getD 1 0).toNat = (if n = 32 then 1 else 0) →
    exec (.keyUnwrap k flips) s = .next (
      if Crypto.gcmTag w (blob.take 12) hdr c ≠ cut blob (20 + n) 16 then
        ((v.count Pg.pal i.palPage 0x10C 31 16 1).event Pg.pal 0).finish i.id { status := Sc.authFail }
      else (v.install i (pbHandle b) { origin := 1, usage := (hdr.getD 2 0).toNat % 64
                                       octets := Crypto.ctr w (Crypto.gcmCtr (blob.take 12)) c }).finish i.id
        { status := Sc.done, rep6 := leWord hdr 4 })) ∧
  (∀ (k : Nat) (flips : List Flip) (s t v x : State) (i : Item) (b w label : List Byte) (key : Key),
    (s.applyFlips flips).keyTurn 10 k i b t → t.palKey i.palPage (pbHandle b) = some key → t.auxKey i b 3 kstor = some w →
    key.usage.testBit 5 = true → i.length = 4 → t.sec.healthy = true → t.reads (i.addrA + 32) 4 label v →
    let iv := (v.random 12).1
    let hdr := [1, if key.octets.length = 32 then 1 else 0, BitVec.ofNat 8 key.usage, 0] ++ label
    let c := Crypto.ctr w (Crypto.gcmCtr iv) key.octets
    let blob := iv ++ hdr ++ c ++ Crypto.gcmTag w iv hdr c
    (v.random 12).2.writes i.addrB blob x →
    exec (.keyWrap k flips) s = .next (x.finish i.id { status := Sc.done, actual := blob.length })) ∧
  (∀ (k : Nat) (flips : List Flip) (s t v : State) (i : Item) (b src label : List Byte), (s.applyFlips flips).keyTurn 11 k i b t →
    let n := if pbSize b then 32 else 16
    t.auxKey i b 4 kapp = some src → i.length ≤ 64 → t.targetBad i b n = false → t.reads (i.addrA + 32) i.length label v →
    exec (.keyDerive k flips) s = .next ((v.install i (pbHandle b) {
      origin := 3, usage := pbUsage b % 64, octets := Crypto.kdf src label [] (8 * n) }).finish i.id { status := Sc.done })) ∧
  (∀ (k : Nat) (flips : List Flip) (s t : State) (i : Item) (b : List Byte), (s.applyFlips flips).keyTurn 12 k i b t →
    let n := if pbSize b then 32 else 16
    t.targetBad i b n = false → t.sec.healthy = true →
    exec (.keyGen k flips) s = .next (((t.random n).2.install i (pbHandle b) {
      origin := 2, usage := pbUsage b % 64, octets := (t.random n).1 }).finish i.id { status := Sc.done })) ∧
  (∀ (k : Nat) (flips : List Flip) (s t : State) (i : Item) (b : List Byte), (s.applyFlips flips).keyTurn 13 k i b t →
    let h := pbHandle b
    exec (.keyErase k flips) s = .next (
      if lnkPage i.palPage = false then (t.loseKey i.palPage h).finish i.id { status := Sc.done }
      else if t.slotQuiet h then ((t.loseKey 14 h).loseKey 15 h).finish i.id { status := Sc.done }
      else t.setPal (fun q => { q with erases := q.erases ++ [(h, i.id)] }))) ∧
  (∀ (slot : Nat) (s : State) (e : Nat × Nat), s.pal.erases.find? (fun e => e.1 == slot && s.eraseLive e) = some e → s.slotQuiet slot = true →
    exec (.keyEraseEffect slot) s = .next ((((s.loseKey 14 slot).loseKey 15 slot).setPal (fun q => { q with
      erases := q.erases.filter (fun x => x.1 != slot) })).finish e.2 { status := Sc.done }))

/-- The update unit and the Primer: an image is opened, its tables and chunks are taken, an activation is written, and the Primer
installs and starts the part. Where it rests on the model's own choice or reading it follows log entries 59, 64, 65, 66 and
91. -/
def Obligations.UpdateCommandsComplete : Prop :=
  (∀ (k : Nat) (flips : List Flip) (s t : State) (i : Item) (h : List Byte),
    let u := s.applyFlips flips
    u.updTurn 1 k = some i → i.length = 512 → u.reads i.addrA 512 h t → t.openFault h (i.uparam % 8) = none →
    exec (.updOpen k flips) s = .next ((t.setUpdSess (i.uparam % 8) { header := h }).finish i.id { status := Sc.done, actual := 512 })) ∧
  (∀ (k : Nat) (flips : List Flip) (s t : State) (i : Item) (x : UpdSess) (bs : List Byte),
    let u := s.applyFlips flips
    u.updTurn 2 k = some i → u.updSess (i.uparam % 8) = some x → bit (i.w 0) 0 = true →
    i.addrB % 4 < Header.tables x.header → i.length = 4096 → u.reads i.addrA 4096 bs t →
    Crypto.sha256 bs = Header.table x.header (i.addrB % 4) →
    exec (.updChunk k flips) s = .next (((t.count Pg.upd 0 0x81C 15 0 1).setUpdSess (i.uparam % 8)
      { x with tables := addOnce (i.addrB % 4) x.tables }).finish i.id { status := Sc.done, actual := 4096 })) ∧
  (∀ (k : Nat) (flips : List Flip) (s t v : State) (i : Item) (x : UpdSess) (tb bs : List Byte),
    let u := s.applyFlips flips
    let j := i.addrB % 512
    let n := Header.chunks x.header
    let size := if j + 1 = n then Header.size x.header - 4096 * (n - 1) else 4096
    u.updTurn 2 k = some i → u.updSess (i.uparam % 8) = some x → bit (i.w 0) 0 = false → j < n → i.length = size →
    u.reads (i.addrB / 4096 * 4096) 4096 tb t → Crypto.sha256 tb = Header.table x.header (j / 128) →
    t.reads i.addrA size bs v → Crypto.sha256 bs = cut tb (32 * (j % 128)) 32 →
    exec (.updChunk k flips) s = .next (((v.count Pg.upd 0 0x81C 15 0 1).setUpdSess (i.uparam % 8)
      { x with chunks := addOnce j x.chunks }).finish i.id { status := Sc.done, actual := size })) ∧
  (∀ (k : Nat) (flips : List Flip) (s t : State) (i : Item),
    let u := s.applyFlips flips
    let mask := i.uparam % 16
    let nand := bit (i.w 0) 0
    u.updTurn 3 k = some i → mask ≠ 0 → i.length = 64 →
    ((List.range 4).filter (fun c => mask.testBit c)).any (fun c => !(u.updSess c).any (·.complete)) = false →
    (nand = true → pagePresentNmc u.variant = true) → u.rangeStatus 0x08002000 0x8000 = .ready →
    incompatible (u.armSet mask) = none →
    u.writes i.addrB (dirOctets (u.highestSeq + 1) mask nand ((u.armSet mask).map (fun v =>
      if mask.testBit v.comp then v.version else 0))) t →
    exec (.updArm k flips) s = .next (t.finish i.id { status := Sc.done, actual := 64 })) ∧
  (∀ (cut : Option Nat) (bad : List Nat) (readable : Bool) (lost : List Nat) (s : State), s.booted = false → s.testmode = false →
    s.coreRuns .c0 = true →
    let p := (s.primerInstall cut bad readable lost).1
    let u := { p.s.primerReports (s.primerInstall cut bad readable lost).2 with booted := true }
    let v := u.setSec (fun x => { x with meas := u.bootMeas })
    exec (.primerBoot cut bad readable lost) s = .next (
      if p.cut then p.s
      else match v.bootFault with
        | none => v.startAll
        | some (c, f) => ((v.setSec (fun x => { x with result := 2, comp := c, reason := f })).event Pg.sec 0).recovery))

/-- The DRAM controller: channels train, ranks are refreshed, parity alerts are replayed or fail a channel, error windows end, a
rank migrates, and its items copy, fill and scrub. Where it rests on the model's own choice or reading it follows log entries
1, 67, 68 and 69. -/
def Obligations.DramCommandsComplete : Prop :=
  (∀ (ini : Initiator) (v : Word) (s : State), s.gate ini Pg.drc Dc.chctrl true = .serve → bit v 0 = true →
    let u := s.accessed ini Pg.drc Dc.chctrl
    let ch := (bit v 4).toNat
    bit (word (subunits u.variant Pg.drc)) ch = true → u.chState ch ≠ Chn.training → u.chState ch ≠ Chn.replay →
    exec (.channelTrain ini v) s = .next ((u.setCh ch Chn.training 0).setReply ini 0 false)) ∧
  (∀ (ch failed : Nat) (results : List (Nat × Nat × Nat)) (s : State), ch ≤ 1 → s.chState ch = Chn.training → failed ≤ 6 →
    let u := (List.range 2).foldl (fun s k =>
      if bit (s.reg Pg.drc (2 * ch + k) Dc.rkCfg) 31 then
        s.setReg Pg.drc (2 * ch + k) Dc.rkTrain (trainWord (failed == 0) (results.getD k (0, 0, 0)))
      else s) s
    exec (.trainingDone ch failed results) s =
      .next ((u.setCh ch (if failed = 0 then Chn.online else Chn.untrained) failed).event Pg.drc 7)) ∧
  (∀ (rank : Nat) (postpone : Bool) (s : State), rank ≤ 3 → s.domOn Dm.drc = true →
    let n := Sparse.get 0 s.drc.postponed rank
    exec (.drcRefresh rank postpone) s = .next (
      if postpone ∧ n < s.fieldOf Pg.drc 0 Dc.refcfg 3 0 then
        { s with drc := { s.drc with postponed := Sparse.set 0 s.drc.postponed rank (n + 1) } }
      else { s with drc := { s.drc with postponed := Sparse.set 0 s.drc.postponed rank 0
                                        rows := Sparse.keep (fun k => k / 16 != rank) s.drc.rows } })) ∧
  (∀ (ch reissued : Nat) (items : List Nat) (s : State), ch ≤ 1 → s.ready Dm.drc = true → s.chState ch = Chn.online →
    let u := s.setCh ch Chn.replay 0
    exec (.parityAlert ch reissued items) s = .next { u with drc := { u.drc with
      alerts := Sparse.set none u.drc.alerts ch (some ⟨1, min reissued 32, items⟩) } }) ∧
  (∀ (ch : Nat) (s : State) (a : Alert), ch ≤ 1 → s.chState ch = Chn.replay → Sparse.get none s.drc.alerts ch = some a →
    let u := (if ch = 0 then s.count Pg.drc 0 Dc.parcnt 15 0 a.reissued else s.count Pg.drc 0 Dc.parcnt 31 16 a.reissued).event Pg.drc 2
    let v := { u with drc := { u.drc with alerts := Sparse.set none u.drc.alerts ch none } }
    exec (.parityReplayDone ch false) s =
      .next (a.items.foldl (fun s e => s.updItem e (fun i => { i with replayed := true })) (v.setCh ch Chn.online 0)) ∧
    exec (.parityReplayDone ch true) s = .next (
      if 2 ≤ a.fails then u.failChannel ch 7 a.items
      else { u with drc := { u.drc with alerts := Sparse.set none u.drc.alerts ch (some { a with fails := a.fails + 1 }) } }) ∧
    exec (.alertStuck ch) s = .next (s.failChannel ch 8 a.items)) ∧
  (∀ (s : State), s.domOn Dm.drc = true →
    let u := (List.range 4).foldl (fun s r => s.setReg Pg.drc r Dc.rkCewin 0) s
    exec .eccWindowEnd s = .next { u with drc := { u.drc with reported := [] } }) ∧
  (∀ (ini : Initiator) (v : Word) (s : State) (t : Nat), s.gate ini Pg.drc Dc.migctrl true = .serve → bit v 31 = true → bit v 30 = false →
    let u := s.accessed ini Pg.drc Dc.migctrl
    u.spareRank = some t → u.drc.mig = none → u.drc.migDone = false → u.rkState (bits v 1 0) = Rk.online →
    u.chState (bits v 1 0 / 2) = Chn.online → u.chState (t / 2) = Chn.online →
    exec (.migrationStart ini v) s = .next ((u.migStart (bits v 1 0) t 3).setReply ini 0 false)) ∧
  (∀ (ini : Initiator) (v : Word) (s : State) (src t : Nat), s.gate ini Pg.drc Dc.migctrl true = .serve → bit v 31 = false → bit v 30 = true →
    let u := s.accessed ini Pg.drc Dc.migctrl
    u.drc.mig = some (src, t) →
    let w := (((u.setRk src Rk.online 0).setRk t Rk.spare 0).setReg Pg.drc src Dc.rkMigpos 0)
    let w := { w with drc := { w.drc with mig := none } }
    exec (.migrationStop ini v) s = .next (((w.event Pg.drc 6).drcReport DrcEv.migStop src Sc.doneWarn (word t)
      (word (u.fieldOf Pg.drc src Dc.rkMigpos 21 0))).setReply ini 0 false)) ∧
  (∀ (flips : List Flip) (s : State) (src t : Nat),
    let u := s.applyFlips flips
    let pos := u.fieldOf Pg.drc src Dc.rkMigpos 21 0
    u.drc.mig = some (src, t) → u.ready Dm.drc = true → u.migChannelsOnline src t = true →
    pos < rankSlots (u.reg Pg.drc src Dc.rkCfg) →
    exec (.migrationSlotCopy flips) s = .next (((List.range 224).foldl (fun s k => s.migWord src t (1792 * pos + 8 * k)) u).setReg
      Pg.drc src Dc.rkMigpos (word (pos + 1)))) ∧
  (∀ (s : State) (src t : Nat), s.drc.mig = some (src, t) → s.ready Dm.drc = true →
    rankSlots (s.reg Pg.drc src Dc.rkCfg) ≤ s.fieldOf Pg.drc src Dc.rkMigpos 21 0 →
    let u := (s.setRk src Rk.retired t).setRk t Rk.standin src
    let v := { u with drc := { u.drc with mig := none, migDone := true } }
    exec .migrationDone s = .next ((v.event Pg.drc 5).drcReport DrcEv.migDone src Sc.rankMigrated (word t) (word u.drc.poisoned))) ∧
  (∀ (k : Nat) (flips : List Flip) (s t : State) (i : Item) (bs : List (Option Byte)) (e : EccSum),
    let u := s.applyFlips flips
    u.activeItem Pg.drc 1 k = some i → u.ready Dm.drc = true → (inWindow i.addrA i.length || inWindow i.addrB i.length) = true →
    u.drcRangeBad i.addrA i.length = false → u.drcRangeBad i.addrB i.length = false →
    u.rangeStatus i.addrA i.length = .ready → u.rangeStatus i.addrB i.length = .ready →
    let n := min (u.readyPrefix i.addrA i.length) (u.readyPrefix i.addrB i.length)
    u.unitRead i.addrA n = (t, .ok bs e) →
    let p := t.putOctets i.addrB (bs.map (·.getD 0))
    let f := e.join { p.2 with bad := [] }
    exec (.drcCopy k flips) s = .next ((p.1.poisonCopied i.addrB bs).drcFinish i (drcStatus (decide (n < i.length)) f i.replayed false) n f)) ∧
  (∀ (k : Nat) (flips : List Flip) (s : State) (i : Item),
    let u := s.applyFlips flips
    u.activeItem Pg.drc 2 k = some i → u.ready Dm.drc = true → i.addrB % 4 = 0 → i.length % 4 = 0 → inWindow i.addrB i.length = true →
    u.drcRangeBad i.addrB i.length = false → u.rangeStatus i.addrB i.length = .ready →
    let n := u.readyPrefix i.addrB i.length
    let p := u.putOctets i.addrB ((fillBytes (i.w 1) i.length).take n)
    let f := { p.2 with bad := [] }
    exec (.drcFill k flips) s = .next (p.1.drcFinish i (drcStatus (decide (n < i.length)) f i.replayed false) n f)) ∧
  (∀ (k : Nat) (flips : List Flip) (s t : State) (i : Item) (bs : List (Option Byte)) (e : EccSum),
    let u := s.applyFlips flips
    u.activeItem Pg.drc 3 k = some i → u.ready Dm.drc = true → i.addrA % 64 = 0 → i.length % 64 = 0 → inWindow i.addrA i.length = true →
    u.drcRangeBad i.addrA i.length = false → u.rangeStatus i.addrA i.length = .ready →
    let n := u.readyPrefix i.addrA i.length
    u.unitRead i.addrA n true = (t, .ok bs e) →
    exec (.drcScrub k flips) s = .next (t.drcFinish i (drcStatus (decide (n < i.length)) e i.replayed true) n e))

/-- Flash and its controller: words are programmed, sectors erased, verified, counted and protected, pulses and attempts end, the
password unlocks and relocks, and an open erase is done again. Where it rests on the model's own choice or reading it follows
log entries 1, 59 and 70. -/
def Obligations.FlashCommandsComplete : Prop :=
  (∀ (k : Nat) (flips : List Flip) (s t : State) (i : Item) (bs : List (Option Byte)) (e : EccSum),
    let u := s.applyFlips flips
    let ofs := flashOfs i.addrB
    u.flcItem 1 k = some i → u.ready Dm.flc = true → i.addrB % 8 = 0 → i.length % 8 = 0 → inFlash i.addrB i.length = true →
    inMemories i.addrA i.length = true → (List.range (i.length / 8)).any (fun j => !u.wordErased (ofs + 8 * j)) = false →
    u.protectedRegion ofs i.length = none → u.unitRead i.addrA i.length = (t, .ok bs e) → (knownBytes bs).isSome = true →
    t.anySector ofs i.length (fun r => r.state == 3) = false →
    exec (.flcProgram k flips) s = .next { t with flc := { t.flc with
      op := some { kind := .program, item := some k, pos := ofs, stop := ofs + i.length, start := ofs, src := bs } } }) ∧
  (∀ (k : Nat) (s : State) (i : Item),
    let ofs := flashOfs i.addrB
    s.flcItem 2 k = some i → s.ready Dm.flc = true → i.addrB % 4096 = 0 → i.length % 4096 = 0 → inFlash i.addrB i.length = true →
    s.protectedRegion ofs i.length = none → (s.sectorRec (ofs / 0x1000)).state ≠ 3 →
    exec (.flcErase k) s = .next { s with flc := { s.flc with
      op := some { kind := .erase, item := some k, pos := ofs, stop := ofs + i.length, start := ofs }
      intent := some (ofs / 0x1000) } }) ∧
  (∀ (k : Nat) (flips : List Flip) (s t v : State) (i : Item) (want got : List (Option Byte)) (e e' : EccSum),
    let u := s.applyFlips flips
    let blank := i.uflags % 2 = 1
    u.flcItem 3 k = some i → u.ready Dm.flc = true → i.addrB % 8 = 0 → i.length % 8 = 0 → inFlash i.addrB i.length = true →
    (¬blank → inMemories i.addrA i.length = true ∧ u.unitRead i.addrA i.length = (t, .ok want e)) →
    (blank → t = u ∧ want = List.replicate i.length (some 0xFF) ∧ e = {}) →
    t.unitRead i.addrB i.length = (v, .ok got e') → e.bad = [] → e'.bad = [] →
    let diff := firstDiff got want
    exec (.flcVerify k flips) s = .next (v.finish i.id {
      status := if v.fieldOf Pg.flc 0 0x808 7 0 ≤ e'.corrected ∧ e'.corrected ≠ 0 then Sc.mediaCorrected
        else if diff.isSome then Sc.doneWarn else Sc.done
      actual := i.length
      rep6 := match diff with | some j => word (flashOfs i.addrB + j) | none => 0 })) ∧
  (∀ (k : Nat) (s t : State) (i : Item), s.flcItem 4 k = some i → s.ready Dm.flc = true → i.length % 4 = 0 →
    i.addrA + i.length / 4 ≤ 1024 → inMemories i.addrB i.length = true →
    s.writes i.addrB (bytesOfWords ((List.range (i.length / 4)).map (fun j => counterWord (s.sectorRec (i.addrA + j))))) t →
    exec (.flcCounters k) s = .next (t.finish i.id { status := Sc.done, actual := i.length })) ∧
  (∀ (k : Nat) (salt : List Byte) (s t : State) (i : Item) (bs : List Byte), s.flcItem 5 k = some i → s.ready Dm.flc = true →
    s.flc.op = none → i.length = 16 → inMemories i.addrA 16 = true → s.flc.unlocked = true → s.reads i.addrA 16 bs t →
    exec (.flcProtect k salt) s = .next { t with flc := { t.flc with
      op := some { kind := .info, item := some k, pos := 0, stop := 16, src := bs.map some } } }) ∧
  (∀ (k : Nat) (salt : List Byte) (s : State) (o : FlashOp), s.flc.op = some o → o.kind = .info → o.item = some k →
    let bs := o.src.map (·.getD 0)
    exec (.flcProtect k salt) s = .next (State.endFlashOp { s with flc := { s.flc with
      prot := natOfBytesLE (bs.take 8), salt := padTo 16 salt
      hash := some (pwdHash salt (natOfBytesLE (bs.drop 8))), rowSeq := s.flc.rowSeq + 1 } } { o with pos := 16 } Sc.done)) ∧
  (∀ (blank : Bool) (s : State) (o : FlashOp), s.flc.op = some o → o.kind = .erase →
    let o := { o with tries := o.tries + 1 }
    let m := { o with maxPulses := max o.maxPulses o.tries }
    exec (.erasePulse blank) s = .next (
      if blank then s.erased o
      else if o.tries < 12 then { s with flc := { s.flc with op := some o } }
      else
        let r := s.retireSector (o.pos / 0x1000) m
        if r.2.2 then (r.1.blankSector (r.2.1.pos / 0x1000)).nextErase r.2.1 else r.1.endFlashOp r.2.1 Sc.mediaUncorrectable)) ∧
  (∀ (verified : Bool) (s : State) (o : FlashOp), s.flc.op = some o → o.kind = .program →
    let r := s.retireSector (o.pos / 0x1000) o
    exec (.programWord verified) s = .next (
      if verified then s.wordDone o
      else if o.tries < 3 then { s with flc := { s.flc with op := some { o with tries := o.tries + 1 } } }
      else if r.2.2 then r.1.wordDone r.2.1 else r.1.endFlashOp r.2.1 Sc.mediaUncorrectable)) ∧
  (∀ (ini : Initiator) (s : State), s.gate ini Pg.flc 0x820 true = .serve →
    let u := s.accessed ini Pg.flc 0x820
    let w := { u with flc := { u.flc with pwdHi := 0, pwdLo := 0 } }
    exec (.flashRelock ini) s = .next (State.setReply { u with flc := { u.flc with unlocked := false } } ini 0 false) ∧
    (u.flc.lockout = false → u.pwdMatches (u.flc.pwdHi.toNat * 2 ^ 32 + u.flc.pwdLo.toNat) = true →
      exec (.flashUnlock ini) s = .next (State.setReply { w with flc := { w.flc with unlocked := true } } ini 0 false))) ∧
  (∀ (blank : Bool) (s : State) (sec : Nat), s.flc.intent = some sec → s.flc.op = none → s.ready Dm.flc = true →
    let o : FlashOp := { kind := .erase, item := none, pos := sec * 0x1000, stop := sec * 0x1000 + 0x1000 }
    let r := s.retireSector sec o
    let n := min ((s.sectorRec sec).count + 1) 0xFFFFFF
    let b := (s.blankSector sec).setSector sec { state := if 100000 < n then 1 else (s.sectorRec sec).state, count := n }
    let u := if blank then (if 100000 < n then b.event Pg.flc 0 else b)
      else if r.2.2 then r.1.blankSector sec else r.1
    let st := if blank then Sc.done else if r.2.2 then Sc.mediaRetired else Sc.mediaUncorrectable
    exec (.eraseResume blank) s = .next { u with flc := { u.flc with
      intent := none
      rstinfo := word (0x40000000 + 2 * 0x10000000 + 4 * 0x1000000 + st * 0x10000 + sec % 1024) } })

/-! ### Commands complete: the peripherals -/

/-- The real-time clock, the trigger matrix, the pins and the pulse generators: readings freeze, commits are taken and act, mains
edges count, triggers fire and act, counters are written and pins move. Where it rests on the model's own choice or reading
it follows log entries 8, 9, 82, 83 and 84. -/
def Obligations.ClockTriggerPinCommandsComplete : Prop :=
  (∀ (ini : Initiator) (off : Nat) (s : State), off = 0x800 ∨ off = 0x804 ∨ off = 0x808 → s.gate ini Pg.rtc off false = .serve →
    let u := s.accessed ini Pg.rtc off
    exec (.rtcRead ini off) s = .next ((u.rtcShadow ini off).2.setReply ini (u.rtcShadow ini off).1 false)) ∧
  (∀ (ini : Initiator) (v : Word) (s : State), s.gate ini Pg.rtc 0x80C true = .serve →
    let u := s.accessed ini Pg.rtc 0x80C
    let l := fun (v : Word) => ({ time := bit v 0, date := bit v 1, wday := bit v 2, timeWord := Sparse.get 0 u.rtc.times ini.id
                                  dateWord := Sparse.get 0 u.rtc.dates ini.id } : RtcLoad)
    let t := fun (v : Word) => (u.setRtc (fun r => { r with load := some (l v) })).setReply ini 0 false
    u.locked Pg.rtc = false → u.rtc.load = none →
    (bit v 0 = true → impossible (l v) = none → exec (.goTime ini v) s = .next (t v)) ∧
    (bit v 1 = true → impossible (l v) = none → exec (.goDate ini v) s = .next (t v)) ∧
    (bit v 2 = true → impossible (l v) = none → exec (.goWday ini v) s = .next (t v))) ∧
  (∀ (s : State) (l : RtcLoad), s.rtc.load = some l → l.due = true → exec .rtcLoad s = .next s.rtcLoad) ∧
  (∀ (since : Nat) (s : State), 10000 ≤ since → s.supplied .c = true →
    let u := s.pulse 38
    exec (.zcEdge since) s = .next (if u.trimSrc = 1 then u.setRtc (fun r => { r with zc := r.zc + 1 }) else u)) ∧
  (∀ (s : State), s.trimSrc = 1 → 3600 * s.fieldOf Pg.rtc 0 0x81C 15 0 ≤ s.rtc.zcSecs →
    let d : Int := (s.rtc.zc : Int) - s.zcNominal
    exec .zcWindowEnd s = .next (
      if s.zcNominal < 1000 * d.natAbs then s.zcRestart else s.zcRestart.rtcMeasure d s.zcNominal s.zcRestart.trimReg)) ∧
  (∀ (s : State), s.trimSrc = 1 → exec .zcGap s = .next s.zcRestart) ∧
  (∀ (s : State),
    let fires := fun p => s.mrc.pulses.contains p || (!Sparse.get false s.mrc.levels p && s.levelOf p && levelProducers.contains p)
    let u := s.setMrc (fun m => { m with
      pulses := [], was := [], cleared := []
      levels := (levelProducers.map (fun p => (p, s.levelOf p))).foldl (fun l e => Sparse.set false l e.1 e.2) [] })
    let v := inputOrder.foldl (fun t c => t.mrcStep c ((Sparse.get none s.mrc.was c).getD (s.reg Pg.mrc 0 (0x800 + 4 * c))) fires) u
    let w := (List.range 4).foldl (fun t n =>
      if (Sparse.get {} s.mrc.inputs (24 + n)).acted then t.setMrcIn (24 + n) { t.mrcIn (24 + n) with acted := false } else t) v
    exec .mrcCaptureWindow s = .next (w.setMrc (fun m => { m with written := [] }))) ∧
  (∀ (k : Nat) (s : State), k < 48 → (s.mrcIn k).deferred = true →
    s.mrcLimits k (bits (s.reg Pg.mrc 0 (0x800 + 4 * k)) 14 0) = false →
    exec (.deferredTrigger k) s =
      .next ((s.setMrcIn k { s.mrcIn k with deferred := false, last := some s.ticks }).mrcTrigger k)) ∧
  (∀ (k : Nat) (s : State), k < 48 → (s.mrcIn k).latched = true → s.domOn (mrcDomain k) = true →
    exec (.latchedTriggerAct k) s =
      .next ((s.setMrcIn k { s.mrcIn k with latched := false, fired := true }).mrcTask k true)) ∧
  (∀ (ini : Initiator) (v : Word) (s : State), s.gate ini Pg.mrc 0xA00 true = .serve →
    exec (.swPulse ini v) s = .next (((List.range 8).foldl (fun s k => if bit v k then s.pulse (48 + k) else s)
      (s.accessed ini Pg.mrc 0xA00)).setReply ini 0 false)) ∧
  (∀ (ini : Initiator) (v : Word) (s : State), s.gate ini Pg.mrc 0xA04 true = .serve →
    let u := s.accessed ini Pg.mrc 0xA04
    exec (.swLevel ini v) s =
      .next ((u.setReg Pg.mrc 0 0xA04 ((u.reg Pg.mrc 0 0xA04 &&& ~~~0xF) ||| (v &&& 0xF))).setReply ini 0 false)) ∧
  (∀ (ini : Initiator) (n : Nat) (s : State), n < 4 → s.gate ini Pg.mrc (0xA60 + 8 * n) false = .serve →
    let u := s.accessed ini Pg.mrc (0xA60 + 8 * n)
    exec (.stampRead ini n) s = .next ((u.setMrcIn (1 + n) { u.mrcIn (1 + n) with unread := false }).setReply ini
      (u.reg Pg.mrc 0 (0xA60 + 8 * n)) false)) ∧
  (∀ (ini : Initiator) (n : Nat) (v : Word) (s : State), n < 4 → s.gate ini Pg.mrc (cntVal n) true = .serve →
    exec (.cntWrite ini n v) s = .next ((((s.accessed ini Pg.mrc (cntVal n)).setReg Pg.mrc 0 (cntVal n) v).setMrc (fun m => { m with
      written := Sparse.set false m.written n true })).setReply ini 0 false)) ∧
  (∀ (pin : Nat) (level : Bool) (s : State), pin < 32 →
    exec (.gpioEdge pin level) s = .next (s.withPins (fun s => s.setGpio (fun g => { g with ins := setBit g.ins pin level })))) ∧
  (∀ (ini : Initiator) (s : State), s.gate ini Pg.gpio 0x808 true = .serve →
    exec (.gpioRelease ini) s = .next (((s.accessed ini Pg.gpio 0x808).withPins (fun s => s.setGpio (fun g => { g with
      held := false, pads := [], outs := 0 }))).setReply ini 0 false)) ∧
  (∀ (k : Nat) (s : State), k < 4 → s.ready Dm.per = true → s.pwmRuns k = true →
    exec (.pwmWrap k) s = .next ((s.pwmStart k).pulse (32 + k)))

/-- The serial units, DALI and the host port: items send, receive and exchange octets, frames go out and are monitored, octets
queue and are reported, the bus hold ends, and the host's frames are taken and answered. Where it rests on the model's own
choice or reading it follows log entries 1, 85 and 86. -/
def Obligations.SerialCommandsComplete : Prop :=
  (∀ (k : Nat) (lost : Bool) (nack : Option Nat) (flips : List Flip) (s t : State) (i : Item) (bs : List Byte),
    let u := s.applyFlips flips
    u.perItem k 1 = some i → isDli i.unit = false → i.serialBad = false → u.reads i.addrA i.length bs t →
    let n := if isI2c i.unit && lost then 0 else if isI2c i.unit then min (nack.getD bs.length) bs.length else bs.length
    let st := if isI2c i.unit && lost then Sc.channelBusy else if isI2c i.unit && nack.isSome then Sc.noAck else Sc.done
    let v := t.takeCfg i.unit
    let w := v.setSerial i.unit { v.serial i.unit with sent := bs.take n }
    exec (.serialTx k lost nack flips) s = .next ((w.holdBus i (i.hold && st == Sc.done)).finish k { status := st, actual := n })) ∧
  (∀ (k : Nat) (octets : List (Byte × Bool)) (s : State) (i : Item), s.perItem k 2 = some i → isDli i.unit = false →
    i.serialBad = false → isUart i.unit = false → i.length ≤ octets.length → s.rangeStatus i.addrB i.length = .ready →
    exec (.serialRx k octets false false) s = .next (((s.takeCfg i.unit).holdBus i (i.hold && !isI2c i.unit)).rxEnd i
      ((octets.map (fun o => (o.1, false))).take i.length) false)) ∧
  (∀ (k : Nat) (octets : List (Byte × Bool)) (lost nack : Bool) (s : State) (i : Item), s.perItem k 2 = some i →
    i.serialBad = false → isUart i.unit = true →
    let x := s.serial i.unit
    let new := octets.map (fun o => (uartOctet (s.reg i.unit 0 0x800) o.1, o.2))
    let got := (x.fifo ++ new).take i.length
    i.length ≤ got.length ∨ i.uparam ≠ 0 → s.rangeStatus i.addrB got.length = .ready →
    let u := s.takeCfg i.unit
    exec (.serialRx k octets lost nack) s = .next (((u.setSerial i.unit { u.serial i.unit with fifo := x.fifo.drop i.length }).count
      i.unit 0 0x80C 31 16 (new.filter (·.2)).length).rxEnd i got (decide (got.length < i.length)))) ∧
  (∀ (k : Nat) (octets : List (Byte × Bool)) (s : State) (i : Item), s.perItem k 2 = some i → i.serialBad = false →
    isI2c i.unit = true →
    exec (.serialRx k octets true false) s = .next (((s.takeCfg i.unit).holdBus i false).finish k { status := Sc.channelBusy }) ∧
    exec (.serialRx k octets false true) s = .next (((s.takeCfg i.unit).holdBus i false).finish k { status := Sc.noAck })) ∧
  (∀ (k : Nat) (octets : List Byte) (flips : List Flip) (s t : State) (i : Item) (bs : List Byte),
    let u := s.applyFlips flips
    u.perItem k 3 = some i → isSpim i.unit = true → u.rangeStatus i.addrB i.length = .ready → u.reads i.addrA i.length bs t →
    let v := t.takeCfg i.unit
    let w := v.setSerial i.unit { v.serial i.unit with sent := bs }
    exec (.serialXfer k octets flips) s = .next ((w.holdBus i i.hold).rxEnd i ((padTo i.length octets).map (fun b => (b, false))) false)) ∧
  (∀ (k : Nat) (collided : Bool) (back : Option (Byte × Bool)) (s : State) (i : Item), s.perItem k 1 = some i → isDli i.unit = true →
    i.dliBad = false → (s.serial i.unit).bus = false →
    exec (.dliSend k collided back) s = .next ((s.takeCfg i.unit).dliEnd i collided back)) ∧
  (∀ (k : Nat) (collided : Bool) (back : Option (Byte × Bool)) (s : State) (i : Item), s.item k = some i → s.perItem k 2 = some i →
    isDli i.unit = true → (s.serial i.unit).arm = none → i.dliBad = false →
    let u := s.takeCfg i.unit
    exec (.dliArm k collided back) s = .next (u.setSerial i.unit { u.serial i.unit with arm := some k })) ∧
  (∀ (k : Nat) (collided : Bool) (back : Option (Byte × Bool)) (s : State) (i : Item), s.item k = some i →
    isDli i.unit = true → (s.serial i.unit).arm = some k → (s.serial i.unit).bus = true →
    let u := s.setSerial i.unit { s.serial i.unit with arm := none, bus := false, cut := none }
    exec (.dliArm k collided back) s = .next (
      match (s.serial i.unit).cut with
      | some status => u.finish k { status }
      | none => u.dliEnd i collided back)) ∧
  (∀ (k : Nat) (frame : Word) (len : Nat) (s : State), k < 2 → s.ready Dm.per = true → s.supplied .c = true →
    let u := s.pulse (36 + k)
    let rep := u.reg (0x38 + k) 0 0x804
    exec (.daliMonitorFrame k frame len) s = .next (
      if bit (u.perCfg (0x38 + k)) 0 && bit rep 31 then
        u.report { unit := 0x38 + k, tail := bits rep 29 24, status := Sc.done, ns := u.tim.ns, sec := u.tim.sec
                   rep6 := frame, rep7 := word (len % 32) }
      else u)) ∧
  (∀ (k : Nat) (octet : Byte) (err : Bool) (s : State), k < 4 → s.ready Dm.per = true → s.supplied .a = true → s.rxRuns (0x40 + k) = false →
    let p := 0x40 + k
    let u := if err then s.count p 0 0x80C 31 16 1 else s
    exec (.uartRxOctet k octet err) s = .next (
      if 32 ≤ (u.serial p).fifo.length then u.count p 0 0x80C 15 0 1
      else u.setSerial p { u.serial p with fifo := (u.serial p).fifo ++ [(uartOctet (u.perCfg p) octet, err)] })) ∧
  (∀ (k : Nat) (s : State), k < 4 → s.ready Dm.per = true → s.rxRuns (0x40 + k) = false →
    let p := 0x40 + k
    let x := s.serial p
    let rep := s.reg p 0 0x804
    bit rep 31 = true → x.fifo ≠ [] →
    let got := x.fifo.take 8
    let bs := padTo 8 (got.map (·.1))
    let u := s.setSerial p { x with fifo := x.fifo.drop 8 }
    exec (.uartReport k) s = .next (u.report {
      unit := p, tail := bits rep 29 24, status := if got.any (·.2) then Sc.mediaUncorrectable else Sc.done
      actual := got.length, ns := s.tim.ns, sec := s.tim.sec, rep6 := wordOfBytes bs, rep7 := wordOfBytes (bs.drop 4) })) ∧
  (∀ (k : Nat) (s : State), k < 2 → s.unitBusy (0x44 + k) = false →
    exec (.i2cHoldTimeout k) s = .next (s.setSerial (0x44 + k) { s.serial (0x44 + k) with held := false })) ∧
  (∀ (octets : List Byte) (flips : List Flip) (s : State) (cmd : Byte) (rest : List Byte),
    let u := s.applyFlips flips
    u.per.hspi.ended = false → u.supplied .a = true → u.per.hspi.frame = none → u.per.hspi.rx ++ octets = cmd :: rest →
    let v := if u.per.hspi.rx.isEmpty ∧ !octets.isEmpty ∧ !u.domOn Dm.per then u.wakeBy 4 else u
    let w := v.setHspi (fun h => { h with rx := cmd :: rest })
    exec (.hostFrame octets flips) s =
      .next (if w.domOn Dm.per ∧ hostFrameLen cmd ≤ (cmd :: rest).length then w.hostCheck (cmd :: rest) else w)) ∧
  (∀ (s : State), exec .hostCsRise s = .next (s.setHspi (fun h => { h with rx := [], frame := none, ended := false })))

/-! ### Commands complete: the cascade, the tag and NAND -/

/-- The cascade: links train, come up, fail and go down, timing is exchanged, positions are given, accepted and dropped, entries
are forwarded and received, and the cascade's items run. Where it rests on the model's own choice or reading it follows log
entries 1, 50, 87, 88, 89 and 90. -/
def Obligations.CascadeCommandsComplete : Prop :=
  (∀ (down : Bool) (s : State), s.casRuns = true → s.casLink down = .down →
    exec (.linkTrainStart down) s = .next (
      if down = false ∧ s.cas.master = true then s.event Pg.cas 3
      else if down = true ∧ 7 ≤ s.cas.position then s
      else s.setLink down .training)) ∧
  (∀ (down : Bool) (s : State), s.casRuns = true → s.casLink down = .training →
    exec (.linkUp down) s = .next ((s.setLink down .up).event Pg.cas 0) ∧
    exec (.linkTrainTimeout down) s = .next (s.setLink down .training)) ∧
  (∀ (down : Bool) (s : State), s.casRuns = true → s.casLink down = .up →
    exec (.cellCrcFail down) s = .next (s.count Pg.cas 0 0x81C 31 16 1)) ∧
  (∀ (down : Bool) (s : State), s.casLink down = .up →
    let u := (s.setLink down .down).event Pg.cas 0
    let v := (u.count Pg.cas 0 0x81C 15 0 1).casEvent 4 u.cas.position (word down.toNat)
    exec (.linkDown down) s = .next (if down || v.cas.master then v
      else (v.setCas (fun c => { c with reg := false })).setTim (fun t => { t with casLock := false }))) ∧
  (∀ (sec ns rtt : Nat) (addend : Word) (s : State), s.casRuns = true → s.casLink true = .up →
    exec (.casTimingExchange true sec ns rtt addend) s = .next (s.setCas (fun c => { c with rttDn := rtt % 65536 }))) ∧
  (∀ (sec ns rtt : Nat) (addend : Word) (s : State), s.casRuns = true → s.casLink false = .up → s.cas.master = false →
    s.tim.running = true →
    let u := s.setCas (fun c => { c with rttUp := rtt % 65536 })
    let o : Int := ((sec * 1000000000 + ns : Nat) : Int) + inSteps 521 2 rtt - u.nowNs
    let v := u.fresh.2
    exec (.casTimingExchange false sec ns rtt addend) s = .next ((v.setReg Pg.cas 0 0x820
      (if -2 ^ 31 ≤ o ∧ o < 2 ^ 31 then word (unsigned 32 o) else u.fresh.1)).casSteer o addend)) ∧
  (∀ (found : List CasFound) (p : Nat) (s : State), s.casRuns = true →
    (s.cas.master = true → exec (.enumeration found p) s = .next (s.enumerate found)) ∧
    (s.cas.master = false → s.cas.up = .up → 1 ≤ p → p ≤ 7 →
      exec (.enumeration found p) s = .next (s.setCas (fun c => { c with position := p })))) ∧
  (∀ (ini : Initiator) (p : Nat) (s : State), p < 8 → s.cas.master = true → s.gate ini Pg.cas (0x940 + 4 * p) true = .serve →
    let u := s.accessed ini Pg.cas (0x940 + 4 * p)
    let x := u.casPos p
    u.locked Pg.cas = false →
    (x.st = .new → exec (.casAccept ini p) s =
      .next ((u.setPos p { x with st := .registered, sepoch := x.sepoch + 1 }).setReply ini 0 false)) ∧
    exec (.casDrop ini p) s = .next ((u.losePoss [p]).setReply ini 0 false)) ∧
  (∀ (s : State), s.cas.master = false → s.casRuns = true → s.cas.up = .up →
    exec (.casAccept .cas s.cas.position) s = .next (s.setCas (fun c => { c with reg := true }))) ∧
  (∀ (flips : List Flip) (s t : State) (bs : List Byte),
    let u := s.applyFlips flips
    let cfg := u.reg Pg.cas 0 0x804
    let r := bits cfg 29 24
    u.cas.master = false → u.cas.reg = true → u.casRuns = true → bit cfg 31 = true → u.cas.up = .up → u.trProd r ≠ u.trCons r →
    u.reads ((u.reg Pg.flm r Fl.trBase).toNat + 32 * (u.trCons r % u.trSize r)) 32 bs t →
    let ws := wordsOfBytes 8 bs
    let unit := bits (ws.getD 1 0) 23 16
    let next := word ((t.trCons r + 1) % (2 * t.trSize r))
    let ring := bits (ws.getD 2 0) 31 28
    let n := bits (ws.getD 3 0) 23 0
    let index := bits (ws.getD 1 0) 9 0
    let slots := (n + t.hrSlot ring - 1) / t.hrSlot ring
    exec (.forwardEntry flips) s = .next (
      if unit = Pg.chz ∨ unit = Pg.phy then
        let q := (t.psduRead ring index n).1
        let v := q.setCas (fun c => { c with
          sent := bs ++ q.psduOf ring index n
          fwd := c.fwd ++ (List.range slots).map (fun k => (ring, (index + k) % q.hrSize ring)) })
        if (t.psduRead ring index n).2 then q else (v.trConsWrite r next).releaseFwd ring (v.hrSize ring)
      else (t.setCas (fun c => { c with sent := bs })).trConsWrite r next)) ∧
  (∀ (origin : Nat) (unlocked : Bool) (entry : List Word) (psdu : List Byte) (flips : List Flip) (s t : State),
    let u := s.applyFlips flips
    let cfg := u.reg Pg.cas 0 0x80C
    let slot := u.rxProd % u.rxSize
    let w := fun k => entry.getD k 0
    u.cas.master = true → u.casRuns = true → u.cas.dn = .up → bit cfg 31 = true → (u.casPos origin).st = .registered →
    subMod (2 * u.rxSize) u.rxProd u.rxCons ≠ u.rxSize →
    u.writes ((u.reg Pg.cas 0 0x808).toNat + 4096 * slot) (bytesOfWords ((List.range 8).map w) ++ psdu.take 4064) t →
    let unit := bits (w 1) 23 16
    let kind := if unit = Pg.chz ∨ unit = Pg.phy then 1 else 2
    exec (.forwardReceive origin unlocked entry psdu flips) s =
      .next ((t.setReg Pg.cas 0 0x810 (word ((t.rxProd + 1) % (2 * t.rxSize)))).report {
        unit := Pg.cas, tail := bits cfg 29 24, status := bits (w 0) 7 0
        tag := word (kind * 0x1000000 + unit * 0x10000 + unlocked.toNat * 0x100 + origin % 8)
        actual := (psdu.take 4064).length, ns := bits (w 4) 29 0, sec := bits (w 5) 17 0, rep6 := w 6, rep7 := w 7, index := slot })) ∧
  (∀ (ini : Initiator) (v : Word) (s : State), s.gate ini Pg.cas 0x814 true = .serve →
    let u := s.accessed ini Pg.cas 0x814
    exec (.casRxconsWrite ini v) s =
      .next ((u.setReg Pg.cas 0 0x814 ((u.reg Pg.cas 0 0x814 &&& ~~~0x7FF) ||| (v &&& 0x7FF))).setReply ini 0 false)) ∧
  (∀ (k : Nat) (words : List Word) (refused : Option Nat) (flips : List Flip) (s t : State) (i : Item),
    let u := s.applyFlips flips
    let n := min (i.length / 4) (refused.getD (i.length / 4))
    let st := if n < i.length / 4 then Sc.internal else Sc.done
    u.casTurn 1 k false = some i →
    (i.uflags.testBit 0 = true → u.writes i.addrA (bytesOfWords ((List.range n).map (fun k => words.getD k 0))) t →
      exec (.casRcopy k words refused flips) s = .next (t.finish i.id {
        status := st, actual := (bytesOfWords ((List.range n).map (fun k => words.getD k 0))).length })) ∧
    (∀ bs, i.uflags.testBit 0 = false → u.reads i.addrA i.length bs t →
      exec (.casRcopy k words refused flips) s =
        .next ((t.setCas (fun c => { c with sent := bs })).finish k { status := st, actual := 4 * n }))) ∧
  (∀ (k refused : Nat) (flips : List Flip) (s t : State) (i j : Item) (bs : List Byte),
    let u := s.applyFlips flips
    u.casTurn 2 k false = some i → u.reads i.addrA i.length bs t →
    let v := t.setCas (fun c => { c with sent := bs })
    let w := if i.addrB.testBit 0 then State.casPairs ((wordsOfBytes (i.length / 4) bs).drop (2 * (i.lat.getD 1 0).toNat)) k v else v
    w.item k = some j → (i.addrB.testBit 0 = true → i.length / 8 ≤ (j.lat.getD 1 0).toNat) →
    exec (.casBroadcast k refused flips) s = .next (w.maskDone j (refused + (j.lat.getD 2 0).toNat) (some (w.casInstant i)))) ∧
  (∀ (k : Nat) (s : State) (i : Item), s.casTurn 3 k false = some i → exec (.casBarrier k) s = .next (s.maskDone i 0 none)) ∧
  (∀ (k : Nat) (s : State) (i : Item), s.casTurn 4 k true = some i → s.cas.snap.any (fun n => n.item == k) = false →
    let t : Int := if i.timed then s.launchNs i.ns i.secLo else ((s.tim.sec * 1000000000 + s.tim.ns + s.casReach i : Nat) : Int)
    exec (.casSnapshot k) s = .next (s.setCas (fun c => { c with snap := some ⟨k, t⟩ }))) ∧
  (∀ (sec ns : Nat) (s : State) (n : CasSnap) (i : Item), s.cas.master = true → s.cas.snap = some n → s.reached n.at_ = true →
    s.item n.item = some i → i.unit = Pg.cas → i.opcode = 4 → i.st = .active → i.result = none →
    let u := s.setCas (fun c => { c with snap := none })
    let v := if i.addrB.testBit 0 then u.snapAll n.at_ else u
    exec (.snapshotCapture sec ns) s =
      .next (v.maskDone i 0 (some ((n.at_ % 1000000000).toNat, (n.at_ / 1000000000 % 2 ^ 18).toNat)))) ∧
  (∀ (sec ns : Nat) (s : State), s.cas.master = false → s.casRuns = true → s.cas.up = .up →
    s.reached ((sec * 1000000000 + ns : Nat) : Int) = true →
    exec (.snapshotCapture sec ns) s = .next (s.snapAll ((sec * 1000000000 + ns : Nat) : Int))) ∧
  (∀ (k : Nat) (air : List Air) (s : State) (i : Item), s.casTurn 5 k false = some i →
    exec (.casReset (some k) air) s = .next (s.maskDone i 0 (some (s.casInstant i)))) ∧
  (∀ (air : List Air) (s : State), s.cas.master = false → s.casRuns = true → s.cas.up = .up →
    exec (.casReset none air) s = .next (s.requestReset 4 air)) ∧
  (∀ (k : Nat) (report : List Byte) (flips : List Flip) (s t v : State) (i : Item) (bs : List Byte),
    let u := s.applyFlips flips
    u.casTurn 6 k false = some i → u.reads i.addrA 32 bs t →
    (t.setCas (fun c => { c with sent := bs })).writes i.addrB (padTo 240 (report.take 240)) v →
    exec (.casRegister k report flips) s =
      .next (v.finish i.id { status := Sc.done, actual := (padTo 240 (report.take 240)).length })) ∧
  (∀ (k : Nat) (found : List CasFound) (s : State) (i : Item), s.casTurn 7 k false = some i →
    exec (.casEnumerate k found) s = .next ((s.enumerate found).finish k { status := Sc.done }))

/-- The tag role: the field comes and goes, the lockout ends, a reader's commands are answered, writes are answered later, and
dirty records are reported. Where it rests on the model's own choice or reading it follows log entries 1, 73 and 74. -/
def Obligations.TagRoleCompletes : Prop :=
  (∀ (vbat : Bool) (decayed : List (Nat × Bool)) (s : State), s.tag.field = false →
    let u := (s.decay decayed).event Pg.tag 0
    exec (.fieldDetect vbat decayed) s = .next (u.setTag (fun t => { t with
      field := true, vbatOk := vbat, st := if vbat && u.tagSys.role then .ready else .off, held := none }))) ∧
  (∀ (s : State), exec .fieldLost s = .next (s.setTag (fun t => { t with
    field := false, st := .off, held := none, reply := [], wreply := none }))) ∧
  (∀ (s : State), s.tag.field = false → s.tag.lockout = true →
    exec .lockoutEnd s = .next (s.setTag (fun t => { t with lockout := false, fails := 0 }))) ∧
  (∀ (n : Nat) (pre : List Byte) (s : State), s.tag.own = false → s.tag.st = .ready → n ≤ 64 →
    (idBits s.tagSys.id).take n = (idBits pre).take n →
    exec (.cmdInventory n pre) s = .next (s.setTag (fun t => { t with
      held := none, reply := upFrame ((idBits s.tagSys.id).drop n ++ bitsOfOctets (fcsOf true (padTo 8 s.tagSys.id))) }))) ∧
  (∀ (id : List Byte) (s : State), s.tag.own = false → s.tag.st ≠ .off → s.tag.st ≠ .quiet →
    (id = s.tagSys.id → exec (.cmdSelect id) s = .next (s.setTag (fun t => { t with
      held := none, st := if t.st = .ready then .opened else t.st, reply := upFrame (frameBits [0]) }))) ∧
    (id ≠ s.tagSys.id → exec (.cmdSelect id) s = .next (s.setTag (fun t => { t with held := none, st := .ready })))) ∧
  (∀ (pw : List Byte) (s : State), s.tag.own = false → s.tag.st = .opened → s.tag.lockout = false →
    let u := s.setTag (fun t => { t with held := none })
    exec (.cmdPwd pw) s = .next (
      if s.tagSys.pwd ≠ 0 ∧ wordOfBytes pw = s.tagSys.pwd then u.tagSecured.tagAnswer [0]
      else (u.tagFailure 31 24).tagAnswer [1])) ∧
  (∀ (ra k : List Byte) (s : State), s.tag.own = false → s.tag.st = .opened → s.tag.lockout = false → s.tagSys.key = some k →
    let u := s.setTag (fun t => { t with held := none })
    let rb := (u.freshOctets 2).1
    exec (.cmdAuth1 ra) s = .next (((u.freshOctets 2).2.setTag (fun t => { t with
      held := some (padTo 8 ra, rb) })).tagAnswer ([0] ++ rb ++ tagAuth k ra rb))) ∧
  (∀ (tr ra rb k : List Byte) (s : State), s.tag.own = false → s.tag.st = .opened → s.tag.held = some (ra, rb) →
    s.tagSys.key = some k →
    exec (.cmdAuth2 tr) s = .next (
      if padTo 8 tr = tagAuth k rb ra then s.tagSecured.tagAnswer [0] else (s.tagFailure 23 16).tagAnswer [1])) ∧
  (∀ (record offset length : Nat) (decayed : List (Nat × Bool)) (s : State),
    let u := s.decay decayed
    let v := u.setTag (fun t => { t with held := none })
    u.tag.own = false → u.tag.st = .opened ∨ u.tag.st = .secured → 1 ≤ length → length ≤ 128 → offset + length ≤ 128 →
    (record = 255 → exec (.cmdRead record offset length decayed) s = .next ((if v.tag.sys.stale then v.tagStale else v).tagAnswer
      ((if v.tag.sys.stale then 6 else 0) :: (v.infoRecord.drop offset).take length))) ∧
    (record < 64 → v.needsSecured record = false →
      exec (.cmdRead record offset length decayed) s = .next ((if (v.tagRec record).stale then v.tagStale else v).tagAnswer
        ((if (v.tagRec record).stale then 6 else 0) :: ((v.tagData record).drop offset).take length)))) ∧
  (∀ (record : Nat) (data : List Byte) (how : TagWrite) (s : State), s.tag.own = false →
    s.tag.st = .opened ∨ s.tag.st = .secured → data.length = 128 → record < 64 → s.needsSecured record = false →
    protBit s.tagSys.fprot0 s.tagSys.fprot1 record = false →
    let u := s.setTag (fun t => { t with held := none })
    let w := u.writeRec record data how (!u.tagCore)
    exec (.cmdWrite record data how) s = .next (
      match w.2 with
      | .done => (w.1.fieldWritten record).setTag (fun t => { t with wreply := some 0 })
      | .failed => w.1.setTag (fun t => { t with wreply := some 4 })
      | .low => w.1.setTag (fun t => { t with wreply := some 3 })
      | .collapsed => w.1)) ∧
  (∀ (s : State), s.tag.own = false → s.tag.st = .opened ∨ s.tag.st = .secured →
    exec .cmdHalt s = .next (s.setTag (fun t => { t with held := none, st := .quiet }))) ∧
  (∀ (s : State) (b : Byte), s.tag.wreply = some b →
    exec .tagReply s = .next (s.setTag (fun t => { t with wreply := none, reply := upFrame (frameBits [b]) }))) ∧
  (∀ (s : State) (r : Nat), s.domOn Dm.tag = true → bit (s.tagReg 0x83C) 31 = true →
    (List.range 64).find? (fun r => Sparse.get false s.tag.dirty r && !Sparse.get false s.tag.posted r) = some r →
    let u := s.setTag (fun t => { t with posted := Sparse.set false t.posted r true, writes := Sparse.set 0 t.writes r 0 })
    exec .dirtyReport s = .next (u.report {
      unit := Pg.tag, tail := bits (s.tagReg 0x83C) 29 24, status := Sc.done, tag := word (0x01000000 + r)
      ns := s.tim.ns, sec := s.tim.sec
      rep6 := word (match (s.tagRec r).frame with | some f => f.seq | none => 0)
      rep7 := word ((decide (1 < Sparse.get 0 s.tag.writes r)).toNat + (Sparse.get false s.tag.secured r).toNat * 2) }))

/-- The reader's items and the tag-role items: tags are found, selected, authenticated, read and written, their origin is
verified, and the part's own records are set, read and written. Where it rests on the model's own choice or reading it
follows log entries 1, 59, 73 and 75. -/
def Obligations.TagItemsComplete : Prop :=
  (∀ (k : Nat) (foreign : Bool) (answers : List UpReply) (flips : List Flip) (s t a : State) (i : Item) (block : List Byte),
    let u := s.applyFlips flips
    u.tagItem 1 k = some i → i.length % 16 = 0 → u.rangeStatus i.addrB i.length = .ready → u.reads i.addrA 16 block t →
    let n := (block.headD 0).toNat
    n ≤ 64 → t.fieldFor foreign = some a →
    let w := walk a.tagTries (i.length / 16) (2 * answers.length + 2) { stack := [(idBits (block.drop 8)).take n], answers }
    let v := a.setTag (fun t => { t with sent := w.sent })
    (∀ x, w.stack = [] → v.writes i.addrB w.found.flatten x →
      exec (.tagInventory k foreign answers flips) s = .next (x.tagEnd i (if w.abandoned ≠ 0 then Sc.doneWarn else Sc.done)
        { exchanges := w.exchanges } w.found.flatten.length (w.abandoned % 128 * 256 + w.found.length % 256))) ∧
    (∀ p ps x, w.stack = p :: ps →
      (v.putOctets i.addrA (BitVec.ofNat 8 p.length :: (block.drop 1).take 7 ++
        octetsOfBits 8 (p ++ List.replicate (64 - p.length) false))).1.writes i.addrB w.found.flatten x →
      exec (.tagInventory k foreign answers flips) s = .next (x.tagEnd i Sc.doneWarn
        { exchanges := w.exchanges, more := true } w.found.flatten.length (w.abandoned % 128 * 256 + w.found.length % 256)))) ∧
  (∀ (k : Nat) (foreign : Bool) (answers : List UpReply) (flips : List Flip) (s t v : State) (i : Item) (bs data : List Byte) (r : TagRep),
    let u := s.applyFlips flips
    v.answered answers 0 data r → t.fieldFor foreign = some v →
    (u.tagItem 2 k = some i → i.length = 8 → u.reads i.addrA 8 bs t →
      exec (.tagSelect k foreign answers flips) s = .next ((v.setTag (fun t => { t with
        sent := [downFrame (0x02 :: bs)], sess := 1, sel := bs })).tagEnd i Sc.done r)) ∧
    (u.tagItem 3 k = some i → i.length = 4 → u.reads i.addrA 4 bs t → u.tag.sess ≠ 0 → t.tag.sess ≠ 0 →
      exec (.tagPassword k foreign answers flips) s = .next ((v.setTag (fun t => { t with
        sent := [downFrame (0x03 :: bs)], sess := 2 })).tagEnd i Sc.done r)) ∧
    (u.tagItem 6 k = some i → i.length = 128 → u.reads i.addrA 128 bs t → u.tag.sess ≠ 0 → t.tag.sess ≠ 0 →
      exec (.tagWrite k foreign answers flips) s = .next ((v.setTag (fun t => { t with
        sent := [downFrame (0x07 :: BitVec.ofNat 8 (i.addrB % 256) :: bs)] })).tagEnd i Sc.done r)) ∧
    (u.tagItem 7 k = some i → u.ready Dm.sec = true → i.length = 64 → u.reads i.addrA 64 bs t → u.tag.sess ≠ 0 → t.tag.sess ≠ 0 →
      let x := v.setTag (fun t => { t with sent := [downFrame [0x06, 0xFF, 0, 128]] })
      let info := padTo 128 data
      exec (.tagVerifyOrigin k foreign answers flips) s = .next (
        if info.take 8 ≠ x.tag.sel ∨ !Crypto.ecdsaVerify bs (Crypto.sha256 (0x45 :: info.take 8)) ((info.drop 16).take 64) then
          x.tagEnd i Sc.authFail r
        else x.tagEnd i (if r.stale then Sc.doneWarn else Sc.done) r))) ∧
  (∀ (k : Nat) (foreign : Bool) (first second : List UpReply) (s v : State) (i : Item) (data data' key : List Byte) (r r' : TagRep),
    s.tagItem 4 k = some i → s.ready Dm.sec = true → s.sec.puf ≠ none → s.engineFree ≠ none → s.tag.sess ≠ 0 →
    (s.palKey i.palPage (i.addrB % 64)).any (fun k => k.octets.length != 16) = false → s.sec.healthy = true →
    s.fieldFor foreign = some v → lnkPage i.palPage = false → v.palMay i false = true →
    v.usable i.palPage (i.addrB % 64) 0 = some key →
    let ra := (v.random 8).1
    let w := (v.random 8).2
    let rb := padTo 8 data
    w.answered first 0 data r → padTo 8 (data.drop 8) = tagAuth key ra rb → w.answered second r.exchanges data' r' →
    r.exchanges ≠ 0 →
    exec (.tagAuthenticate k foreign first second) s = .next ((w.setTag (fun t => { t with
      sent := [downFrame (0x04 :: ra), downFrame (0x05 :: tagAuth key rb ra)], sess := 2 })).tagEnd i Sc.done r')) ∧
  (∀ (k : Nat) (foreign : Bool) (answers : List UpReply) (s v w : State) (i : Item) (data : List Byte) (r : TagRep),
    let off := bits (i.w 1) 7 0
    s.tagItem 5 k = some i → off + i.length ≤ 128 → s.rangeStatus i.addrB i.length = .ready → s.tag.sess ≠ 0 →
    s.fieldFor foreign = some v → v.answered answers 0 data r →
    State.writes (v.setTag (fun t => { t with
      sent := [downFrame [0x06, BitVec.ofNat 8 (bits (i.w 1) 15 8), BitVec.ofNat 8 off, BitVec.ofNat 8 i.length]] })) i.addrB (padTo i.length data) w →
    exec (.tagRead k foreign answers) s =
      .next (w.tagEnd i (if r.stale then Sc.doneWarn else Sc.done) r (padTo i.length data).length)) ∧
  (∀ (k : Nat) (foreign : Bool) (s v : State) (i : Item), s.tagItem 8 k = some i → s.fieldFor foreign = some v →
    exec (.tagHalt k foreign) s = .next ((v.setTag (fun t => { t with sess := 0, sel := [], sent := [downFrame [0x08]] })).tagEnd i Sc.done
      { exchanges := 1 })) ∧
  (∀ (s : State), s.flm.ift.any (fun i => i.unit == Pg.tag && i.opcode ≤ 8) = false →
    exec .fieldHoldExpire s = .next (s.setTag (fun t => { t with own := false, sess := 0, sel := [] }))) ∧
  (∀ (k : Nat) (how : TagWrite) (flips : List Flip) (s t : State) (i : Item) (b : List Byte),
    let u := s.applyFlips flips
    u.tagItem 16 k = some i → i.length = 80 → u.reads i.addrA 80 b t →
    let f := leWord b 12
    (bit f 0 = true → b.take 8 ≠ List.replicate 8 0xFF) → (bit f 2 = true → t.ready Dm.sec = true) →
    let key := if lnkPage i.palPage ∨ !t.palMay i false then none
      else (t.usable i.palPage (i.addrB % 64) 5).filter (fun k => k.length == 16)
    (bit f 2 = true → key ≠ none) →
    let y := t.tagSys
    let w := t.writeSys { y with
      id := if bit f 0 then b.take 8 else y.id, pwd := if bit f 1 then leWord b 8 else y.pwd
      key := if bit f 2 then key else y.key, sig := if bit f 3 then some (cut b 16 64) else y.sig } how
    exec (.tagTset k how flips) s = .next (
      if w.2 = .done then w.1.tagEnd i Sc.done {} else w.1.tagEnd i Sc.mediaUncorrectable { cause := 5 })) ∧
  (∀ (k : Nat) (decayed : List (Nat × Bool)) (s t : State) (i : Item),
    let u := s.decay decayed
    let n := i.length / 128
    u.tagItem 17 k = some i → i.length % 128 = 0 → i.addrA + n ≤ 65 → u.rangeStatus i.addrB i.length = .ready →
    let stale := (List.range n).filter (fun k => if i.addrA + k = 64 then u.tag.sys.stale else (u.tagRec (i.addrA + k)).stale)
    let r := State.sreadData n i.addrA (stale.foldl (fun s _ => s.tagStale) u)
    r.2.writes i.addrB r.1 t →
    exec (.tagSread k decayed) s = .next (t.tagEnd i (if stale.isEmpty then Sc.done else Sc.doneWarn) { stale := !stale.isEmpty } r.1.length)) ∧
  (∀ (k : Nat) (how : List TagWrite) (flips : List Flip) (s t : State) (i : Item) (bs : List Byte),
    let u := s.applyFlips flips
    let n := i.length / 128
    u.tagItem 18 k = some i → i.length % 128 = 0 → i.addrB + n ≤ 64 → u.reads i.addrA i.length bs t →
    let r := State.swriteAll (Crypto.blocks 128 n bs) i.addrB how 0 t
    exec (.tagSwrite k how flips) s = .next (r.1.tagEnd i (if r.2.2 then Sc.done else Sc.mediaUncorrectable)
      { cause := if r.2.2 then 0 else 5 } (128 * r.2.1)))

/-- NMC: logical pages are read, programmed and erased, a flush waits for the programs before it, the store is mounted and
formatted, operations end at the targets, and blocks are relocated, levelled and patrolled. Where it rests on the model's own
choice or reading it follows log entries 1, 71 and 72. -/
def Obligations.NandCommandsComplete : Prop :=
  (∀ (k : Nat) (ecc : List NandEcc) (s : State) (i : Item), s.nmcItem 1 k = some i → s.nandBad i = false →
    s.rangeStatus s.mapAddr s.mapSize = .ready → s.rangeStatus i.addrB i.length = .ready →
    let p := (List.range i.lpnCount).foldl (fun (p : State × NandScan) j => p.1.readLpn p.2 (i.lpn + j)) (s, { ecc })
    let q := p.1.putOctets i.addrB p.2.out
    exec (.nandRead k ecc) s = .next (q.1.nandEnd i
      (if p.2.fail.isSome then Sc.mediaUncorrectable else if q.2.migrated || q.1.mapMigrates i then Sc.rankMigrated
        else if p.2.corr then Sc.mediaCorrected else Sc.done) i.length
      { bits := p.2.most, first := (p.2.fail.map (·.1)).getD 0xFFFFFFFF, cause := (p.2.fail.map (·.2)).getD 0 })) ∧
  (∀ (k choice : Nat) (flips : List Flip) (s t : State) (i : Item) (bs : List Byte) (os : List (Option Byte)) (e : EccSum),
    let u := s.applyFlips flips
    let first := ((u.nandJob k).map (·.copied)).getD 0
    let n := u.wbRoom (i.lpnCount - first)
    u.nmcItem 2 k = some i → u.nandBad i = false → u.rangeStatus u.mapAddr u.mapSize = .ready →
    u.rangeStatus (u.nmcReg 0x824).toNat u.wbBytes = .ready → u.unitRead (i.addrA + 4096 * first) (4096 * n) = (t, .ok os e) →
    knownBytes os = some bs → t.nmc.st ≠ .readonly → t.onlineTgs ≠ [] →
    let v := State.bufferPages ((List.range n).map (fun j => (bs.drop (4096 * j)).take 4096)) (i.lpn + first) (some k) t
    exec (.nandProgram k choice flips) s = .next ((v.noteCopied i n (e.migrated || t.mapMigrates i)).nandStart choice)) ∧
  (∀ (k : Nat) (s : State) (i : Item), s.nmcItem 3 k = some i → s.nandBad i = false →
    s.rangeStatus s.mapAddr s.mapSize = .ready →
    let mine := fun l => i.lpn ≤ l && l < i.lpn + i.lpnCount
    let dead := fun (p : WbPage) => if mine p.lpn then { p with live := false } else p
    let u := s.setNmc (fun n => { n with
      pages := Sparse.keep (fun l => !mine l) n.pages
      wb := n.wb.map (fun e => (e.1, dead e.2))
      ops := n.ops.map (fun o => { o with pages := o.pages.map dead }) })
    let v := (List.range i.lpnCount).foldl (fun s j => s.mapEntry (i.lpn + j)) u
    exec (.nandErase k) s = .next ((v.nandEnd i (if v.mapMigrates i then Sc.rankMigrated else Sc.done) i.length {}).nandStart 0)) ∧
  (∀ (k : Nat) (s : State) (i : Item), s.nmcItem 4 k = some i → s.nmc.st ≠ .unmounted →
    s.rangeStatus s.mapAddr s.mapSize = .ready →
    (∀ j ∈ s.flm.ift.takeWhile (fun j => j.id != k), j.unit = Pg.nmc → j.opcode = 2 → j.result.isSome = true ∨ j.st = .retiring) →
    exec (.nandFlush k) s = .next (s.nandEnd i Sc.done 0 {})) ∧
  (∀ (k : Nat) (failing newer : List Nat) (factory bad : List (Nat × Nat)) (s : State) (i : Item),
    s.nmcItem 5 k = some i ∨ s.nmcItem 6 k = some i → i.lat = [] → s.rangeStatus s.mapAddr s.mapSize = .ready →
    s.nmc.st = .unmounted → s.nmc.ops = [] → s.mountItem = none →
    let u := s.identify failing
    u.anyFailed = false →
    (s.nmcItem 5 k = some i → (List.range 4).any u.tgPresent = true →
      (∀ t, t < 4 → u.tgPresent t = true → Sparse.get false u.nmc.formatted t = true) →
      exec (.nandMount k failing newer) s = .next (u.updItem i.id (fun i => { i with lat := [1] }))) ∧
    (s.nmcItem 6 k = some i →
      exec (.nandFormat k failing factory bad) s = .next (u.updItem i.id (fun i => { i with lat := [1] })))) ∧
  (∀ (k : Nat) (failing newer : List Nat) (s : State) (i : Item), s.nmcItem 5 k = some i → i.lat ≠ [] →
    s.rangeStatus s.mapAddr s.mapSize = .ready →
    let v := s.nmc.torn.foldl (fun s e => if newer.contains e.2.2.lpn then s.mapPage e.1 e.2.1 e.2.2 else s) s
    exec (.nandMount k failing newer) s = .next (v.mounted.nandEnd i Sc.done 0 {})) ∧
  (∀ (k : Nat) (failing : List Nat) (factory bad : List (Nat × Nat)) (s : State) (i : Item), s.nmcItem 6 k = some i → i.lat ≠ [] →
    s.rangeStatus s.mapAddr s.mapSize = .ready →
    let on := (List.range 4).filter s.tgPresent
    let v := factory.foldl (fun s e =>
      if on.contains e.1 ∧ !Sparse.get false s.nmc.formatted e.1 then s.setBlk (blkNo e.1 e.2) { s.blk (blkNo e.1 e.2) with factory := true } else s) s
    let w := bad.foldl (fun s e =>
      if on.contains e.1 ∧ !(s.blk (blkNo e.1 e.2)).bad then s.setBlk (blkNo e.1 e.2) { s.blk (blkNo e.1 e.2) with grown := true } else s) v
    let x := w.setNmc (fun n => { n with
      blks := n.blks.map (fun e => if on.contains (e.1 / 2 ^ 18) then (e.1, { e.2 with used := 0, reads := 0 }) else e)
      base := on.foldl (fun m t => Sparse.set 0 m t (Sparse.get 0 m t + 1)) n.base
      formatted := on.foldl (fun m t => Sparse.set false m t true) n.formatted
      pages := [], opened := [], sched := [], wb := [], torn := [] })
    exec (.nandFormat k failing factory bad) s = .next (x.mounted.nandEnd i Sc.done 0 {})) ∧
  (∀ (target choice : Nat) (s : State), s.ready Dm.nmc = true → target ∈ s.onlineTgs →
    exec (.wbHoldExpire target choice) s = .next (s.startProgram target choice)) ∧
  (∀ (target choice : Nat) (s : State) (o : NandOp), s.nmc.ops.find? (fun o => o.target == target) = some o →
    s.rangeStatus s.mapAddr s.mapSize = .ready →
    let u := s.setNmc (fun n => { n with ops := n.ops.filter (fun x => x.target != target) })
    let k := blkNo target o.block
    let v := (u.setBlk k { u.blk k with erases := (u.blk k).erases + 1, used := 0, reads := 0 }).setNmc
      (fun n => { n with moveErases := n.moveErases + 1, sched := n.sched.filter (fun e => e.1 != k) })
    let placed := (o.pages.foldl (fun s p => s.mapPage target o.block p) u).usePage target o.block
    let moved := ((o.pages.filterMap (·.item)).eraseDups ++ (u.nmc.jobs.map (·.item)).filter (fun e => (u.validOn target o.block).any (fun v =>
      match u.item e with | some i => i.lpn ≤ v.1 && v.1 < i.lpn + i.lpnCount | none => false))).eraseDups
    let failed := moved.foldl (fun s e => s.jobRetired e) (((u.growBad target o.block).moveBlock target o.block choice []).retireReport target o.block 1)
    (o.pages = [] →
      exec (.nandOpDone target true choice) s = .next ((u.retireBlock target o.block 2).nandStart choice) ∧
      exec (.nandOpDone target false choice) s = .next
        ((if bits (v.nmcReg 0x80C) 23 0 ≤ v.eraseCount k then v.wearOut target o.block else v).nandStart choice)) ∧
    (o.pages ≠ [] →
      exec (.nandOpDone target true choice) s = .next
        ((failed.setNmc (fun n => { n with wb := o.pages.map (fun p => (target, p)) ++ n.wb })).startProgram target choice) ∧
      exec (.nandOpDone target false choice) s = .next
        (((o.pages.foldl (fun s p => match p.item with | some e => s.pageDone e | none => s) placed).nandCutItems
          (o.pages.filterMap (·.item)).eraseDups).nandStart choice))) ∧
  (∀ (target block choice : Nat) (lost : List Nat) (s : State) (e : Nat × RelocCause),
    s.nmc.sched.find? (fun e => e.1 == blkNo target block) = some e → s.ready Dm.nmc = true → s.nmc.st ≠ .unmounted →
    block < 2 ^ 18 → s.nmc.ops.any (fun o => o.target == target && o.block == block) = false →
    s.rangeStatus s.mapAddr s.mapSize = .ready →
    let u := (s.setNmc (fun n => { n with
      opened := if Sparse.get 0 n.opened target = block + 1 then Sparse.set 0 n.opened target 0 else n.opened })).moveBlock target block choice lost
    exec (.nandRelocation target block choice lost) s = .next (
      if u.validOn target block = [] then (u.relocated target block e.2).nandStart choice else u)) ∧
  (∀ (choice : Nat) (s : State) (t b : Nat), s.ready Dm.nmc = true → s.nmc.st = .mounted → bit (s.nmcReg 0x808) 31 = true →
    1000 ≤ s.nmc.moveErases → s.onlineTgs.find? (fun t => bits (s.nmcReg 0x808) 15 0 < s.spread t) = some t →
    let good := (List.range (s.tgBlocks t)).filter (fun b => !(s.blk (blkNo t b)).bad)
    let least := (good.map (fun b => s.eraseCount (blkNo t b))).foldl min (s.eraseCount (blkNo t (good.headD 0)))
    good.find? (fun b => s.eraseCount (blkNo t b) == least && !(s.validOn t b).isEmpty && !s.nmc.ops.any (fun o => o.target == t && o.block == b)) = some b →
    s.rangeStatus s.mapAddr s.mapSize = .ready →
    exec (.staticWearMove choice) s = .next (((s.setNmc (fun n => { n with
      moveErases := 0
      opened := if Sparse.get 0 n.opened t = b + 1 then Sparse.set 0 n.opened t 0 else n.opened })).moveBlock t b choice []).nandStart choice)) ∧
  (∀ (ecc : List NandEcc) (s : State), bit (s.nmcReg 0x814) 31 = true → s.ready Dm.nmc = true → s.nmc.st ≠ .unmounted →
    (s.patrolNext = none → exec (.patrolStep ecc) s = .next s.patrolPass) ∧
    (∀ k, s.patrolNext = some k →
      let u := ecc.foldl (fun s e =>
        match e with
        | .corrected n => s.noteRead k n
        | .lost _ => match s.validOn (k / 2 ^ 18) (k % 2 ^ 18) with
          | e :: _ => (s.noteRead k 0).poisonPage e.1 e.2
          | [] => s) s
      let v := u.setNmc (fun n => { n with
        patrol := k + 1
        patrolRead := n.patrolRead + 1
        patrolSched := n.patrolSched + (n.sched.length - s.nmc.sched.length) })
      exec (.patrolStep ecc) s = .next (if v.patrolNext.isNone then v.patrolPass else v)))

/-! ### Registers, errors and rings -/

/-- An error writes CODE and ERR_INFO and counts, and a write of all ones clears CODE and COUNT (R54). -/
def Obligations.ErrorsAreRecorded : Prop :=
  (∀ (s : State) (page : Nat) (ini : Initiator) (off detail code : Nat), s.wf = true → code < 256 →
    let t := s.raise page ini off detail code
    bits (t.reg page 0 0x020) 7 0 = code ∧
    bits (t.reg page 0 0x020) 23 16 = min 255 (bits (s.reg page 0 0x020) 23 16 + 1) ∧
    bits (t.reg page 0 0x020) 15 8 = 0 ∧ bits (t.reg page 0 0x020) 31 24 = 0 ∧
    bits (t.reg page 0 0x024) 31 29 = ini.id ∧ bits (t.reg page 0 0x024) 27 16 = off % 0x1000 ∧
    bits (t.reg page 0 0x024) 15 0 = detail % 0x10000) ∧
  (∀ (s : State) (page : Nat) (ini : Initiator), s.wf = true → s.gate ini page 0x020 true = .serve →
    ∃ t, exec (.errClear ini page 0xFFFFFFFF) s = .next t ∧
      bits (t.reg page 0 0x020) 7 0 = 0 ∧ bits (t.reg page 0 0x020) 23 16 = 0)

/-- Only a ring's owner advances PROD, and not more than SIZE ahead of CONS; a write that is ignored records the ring and the
initiator; and the banks of CHSEL of two initiators do not disturb each other (R14). Where it rests on the model's own choice
or reading it follows log entry 15. -/
def Obligations.OnlyTheOwnerAdvancesProd : Prop :=
  (∀ (ini : Initiator) (value : Word) (s : State), s.wf = true → s.gate ini Pg.flm 0x108 true = .serve →
    let ring := s.chsel Pg.flm ini
    let ahead := (bits value 10 0 + 2 * s.wrSize ring - s.wrCons ring % (2 * s.wrSize ring)) % (2 * s.wrSize ring)
    ∃ t, exec (.wrProdWrite ini value) s = .next t ∧
      (ini.id = s.wrOwner ring ∧ ahead ≤ s.wrSize ring → t.reg Pg.flm ring 0x108 = word (bits value 10 0)) ∧
      (¬(ini.id = s.wrOwner ring ∧ ahead ≤ s.wrSize ring) →
        t.reg Pg.flm ring 0x108 = s.reg Pg.flm ring 0x108 ∧
        bits (t.reg Pg.flm 0 0x024) 31 29 = ini.id ∧ bits (t.reg Pg.flm 0 0x024) 15 0 = ring)) ∧
  (∀ (ini other : Initiator) (page : Nat) (value : Word) (s t : State), other.id ≠ ini.id →
    exec (.chselWrite ini page value) s = .next t → t.chsel Pg.flm other = s.chsel Pg.flm other)

/-- A short time is read against the seconds of TIM: within 2^17 s it is an instant of the current second or a later one,
and from there on it lies in the past (R22). -/
def Obligations.ShortTimesAreReadAgainstTim : Prop :=
  ∀ (s : State) (ns secLo : Nat), secLo < 2 ^ 18 → ns < 1000000000 →
    let d := (secLo + 2 ^ 18 - s.tim.sec % 2 ^ 18) % 2 ^ 18
    (d < 2 ^ 17 → s.launchNs ns secLo = ((s.tim.sec + d) * 1000000000 + ns : Nat)) ∧
    (2 ^ 17 ≤ d → s.pastShort ns secLo = true)

/-- A NOP of any unit completes DONE, and an opcode that its unit does not define completes INTERNAL with UNDEF_OPCODE: both
leave memory as it is (R12, R559). Where it rests on the model's own choice or reading it follows log entries 15 and 28. -/
def Obligations.NopsAndUndefinedOpcodes : Prop :=
  (∀ (unit : Nat), opDefined unit 0 = true ∧ opDefined unit 0xFF = false) ∧
  (∀ (k : Nat) (s : State) (i : Item), s.wf = true → s.item k = some i → i.st = .fetched → s.mayIssue i = true → i.result = none →
    pagePresent s.variant i.unit = true → s.ready (epochDomain i.unit) = true →
    (i.opcode = 0 → i.timed = false → (i.epochChk = true → i.epoch = s.epochOf i) →
      ∃ t j, exec (.itemIssue k) s = .next t ∧ t.mem = s.mem ∧ t.item k = some j ∧ j.st = .retiring ∧
        j.result = some { status := Sc.done }) ∧
    (opDefined i.unit i.opcode = false →
      ∃ t j, exec (.itemIssue k) s = .next t ∧ t.mem = s.mem ∧ t.item k = some j ∧ j.st = .retiring ∧
        j.result = some { status := Sc.internal } ∧
        bits (t.reg Pg.flm 0 0x020) 7 0 = 0x06 ∧
        bits (t.reg Pg.flm 0 0x024) 31 29 = s.wrOwner i.ring ∧ bits (t.reg Pg.flm 0 0x024) 27 16 = 0x104 ∧
        bits (t.reg Pg.flm 0 0x024) 15 0 = i.ring % 0x10000))

/-- A tailrace ring that is not enabled takes no entry: no completion, report or link event moves its PROD or is stored (R37).
Where it rests on the model's own choice or reading it follows log entry 26. -/
def Obligations.ClosedTailracesTakeNoEntry : Prop :=
  (∀ (k : Nat) (flips : List Flip) (s t : State) (i : Item), s.item k = some i → s.trEn (s.wrTail i.ring) = false →
    exec (.itemRetire k flips) s = .next t → t.mem = s.mem ∧ t.trProd (s.wrTail i.ring) = s.trProd (s.wrTail i.ring)) ∧
  (∀ (k : Nat) (overflow : Bool) (s t : State) (r : Report), s.flm.waiting[k]? = some r → s.trEn r.tail = false →
    exec (.reportPost k overflow) s = .next t → t.mem = s.mem ∧ t.trProd r.tail = s.trProd r.tail) ∧
  (∀ (s t : State) (ring : Nat), ring = s.fieldOf Pg.lnk 0 0x848 29 24 → s.trEn ring = false →
    exec .lnkEventPost s = .next t → t.mem = s.mem ∧ t.trProd ring = s.trProd ring)

/-- Outside the header a page answers by its domain's state (R42, R456): held OFF it ignores the access with DOMAIN_HELD and
no bus error; where it is neither served nor held the domain is woken and the access waits; the header is always served, and
so is a window whose CHSEL names no set that exists (R74). Where it rests on the model's own choice or reading it follows log
entries 6 and 21. -/
def Obligations.AccessesFollowTheDomain : Prop :=
  ∀ (ini : Initiator) (page off : Nat) (v : Word) (s : State), page < 256 → off < 0x1000 → off % 4 = 0 →
    pageListed page = true → pagePresent s.variant page = true →
    (∀ w, permitted ini page off w = true) → (ini = .debug → s.debugBus = true) →
    let idx := s.setIndex page ini off
    let d := s.domainOf page idx
    let a := word (pageAddr page off)
    (isHeader off = true ∨ s.staleSet ini page off = true → s.gate ini page off true = .serve ∧ s.gate ini page off false = .serve) ∧
    (isHeader off = false → s.staleSet ini page off = false → domPresent s.variant d = true → s.ready d = false →
      (s.domOn d = false ∧ (s.dom d).phase = .none ∧ (s.dom d).st ≠ .on ∧ s.dreq d = 3 →
        exec (.registerWrite ini a 4 v []) s = .next ((s.raise page ini off idx 0x0B).setReply ini 0 false) ∧
        exec (.rcFieldRead ini a 4 []) s = .next ((s.raise page ini off idx 0x0B).setReply ini 0 false)) ∧
      (s.domOn d = true ∨ (s.dom d).phase ≠ .none ∨ (s.dom d).st = .on ∨ s.dreq d ≠ 3 →
        (∃ t, exec (.registerWrite ini a 4 v []) s = .next t ∧ t.stalls = s.stalls ++ [⟨ini, true, a, 4, v⟩] ∧
          t.regs = s.regs ∧ t.mem = s.mem ∧ (s.domOn d = false → (t.dom d).wakeReq = true)) ∧
        (∃ t, exec (.rcFieldRead ini a 4 []) s = .next t ∧ t.stalls = s.stalls ++ [⟨ini, false, a, 4, 0⟩] ∧
          t.regs = s.regs ∧ t.mem = s.mem ∧ (s.domOn d = false → (t.dom d).wakeReq = true))))

/-- A write to SRAM or AON SRAM sets the octets that it names, in little-endian order, and every other octet of memory reads as
before. Where it rests on the model's own choice or reading it follows log entries 12 and 22. -/
def Obligations.MemoryWritesSetTheirOctets : Prop :=
  ∀ (ini : Initiator) (addr v : Word) (n : Nat) (s : State), s.wf = true →
    let a := addr.toNat
    n ≤ 4 → (0x10000000 ≤ a ∧ a + n ≤ 0x10200000) ∨ (0x18000000 ≤ a ∧ a + n ≤ 0x18002000) →
    s.memRefused ini a n = false → s.rangeStatus a n = .ready →
    ∃ t, exec (.registerWrite ini addr n v []) s = .next t ∧
      (∀ k, k < n → t.memOctet (a + k) = (v >>> (8 * k)).setWidth 8) ∧
      (∀ x, x < a ∨ a + n ≤ x → t.memOctet x = s.memOctet x)

/-- The months have their usual lengths, and February has 29 days in years divisible by 4, except years divisible by 100 that
are not divisible by 400 (R469). -/
def Obligations.MonthLengths : Prop :=
  (∀ (y : Nat), monthDays y 2 = if y % 4 = 0 ∧ (y % 100 ≠ 0 ∨ y % 400 = 0) then 29 else 28) ∧
  monthDays 2000 2 = 29 ∧ monthDays 2100 2 = 28 ∧
  (∀ (y m : Nat), m ∈ [1, 3, 5, 7, 8, 10, 12] → monthDays y m = 31) ∧ (∀ (y m : Nat), m ∈ [4, 6, 9, 11] → monthDays y m = 30)

/-! ### Ehriq arithmetic -/

/-- The flags of additions and subtractions at each operand size: C is the carry out or the borrow, V is signed overflow, N is
the top bit of the result and Z says that it is zero; DZ stands (R289). -/
def Obligations.SumsAndDifferencesSetTheirFlags : Prop :=
  ∀ (k : Nat) (a b sw : Word) (cin : Bool), k = 1 ∨ k = 2 ∨ k = 4 →
    let m := 2 ^ (8 * k)
    let x := a.toNat % m
    let y := b.toNat % m
    let flags := fun (r : Alu) (c v : Prop) =>
      (bit (r.flags sw) Flag.c = true ↔ c) ∧ (bit (r.flags sw) Flag.v = true ↔ v) ∧
      (bit (r.flags sw) Flag.n = true ↔ m / 2 ≤ r.val.toNat) ∧ (bit (r.flags sw) Flag.z = true ↔ r.val = 0) ∧
      bit (r.flags sw) Flag.dz = bit sw Flag.dz
    (addW k a b cin).val.toNat = (x + y + cin.toNat) % m ∧
    flags (addW k a b cin) (m ≤ x + y + cin.toNat) (sval k a + sval k b + cin.toNat ≠ sval k (addW k a b cin).val) ∧
    ((subW k a b cin).val.toNat + y + cin.toNat) % m = x ∧ (subW k a b cin).val.toNat < m ∧
    flags (subW k a b cin) (x < y + cin.toNat) (sval k a - sval k b - cin.toNat ≠ sval k (subW k a b cin).val)

/-- Shifts and rotates by each range of counts: the result, and C as the last bit out or the result's end bit (R290). -/
def Obligations.ShiftsAndRotatesByCount : Prop :=
  ∀ (a sw : Word) (n : Nat), n < 64 →
    let c := fun (r : Alu) => bit (r.flags sw) Flag.c
    (n = 0 → ∀ g ∈ [shlW, shrW, sarW, rolW, rorW], (g a n).val = a ∧ c (g a n) = bit sw Flag.c) ∧
    (1 ≤ n → n ≤ 31 →
      (shlW a n).val.toNat = a.toNat * 2 ^ n % 2 ^ 32 ∧ c (shlW a n) = bit a (32 - n) ∧
      (shrW a n).val.toNat = a.toNat / 2 ^ n ∧ c (shrW a n) = bit a (n - 1) ∧
      (sarW a n).val.toInt = a.toInt / 2 ^ n ∧ c (sarW a n) = bit a (n - 1)) ∧
    (n = 32 → (shlW a n).val = 0 ∧ c (shlW a n) = bit a 0 ∧ (shrW a n).val = 0 ∧ c (shrW a n) = bit a 31) ∧
    (33 ≤ n → (shlW a n).val = 0 ∧ c (shlW a n) = false ∧ (shrW a n).val = 0 ∧ c (shrW a n) = false) ∧
    (32 ≤ n → (sarW a n).val = (if bit a 31 then 0xFFFFFFFF else 0) ∧ c (sarW a n) = bit a 31) ∧
    (1 ≤ n →
      (∀ i, i < 32 → bit (rolW a n).val ((i + n) % 32) = bit a i) ∧ c (rolW a n) = bit (rolW a n).val 0 ∧
      (∀ i, i < 32 → bit (rorW a n).val i = bit a ((i + n) % 32)) ∧ c (rorW a n) = bit (rorW a n).val 31)

/-- An instruction of two words or registers whose result goes to a register changes that register, the flags, the program
counter and the loops that end there, and nothing else of its core; memory, the other cores and every page but those of its
core and of the memories that it is fetched from are as they were. Where it rests on the model's own choice or reading it
follows log entries 13, 54 and 57. -/
def Obligations.RegisterResultsLeaveTheRest : Prop :=
  ∀ (c : Core) (i : Instr) (opc : Nat) (f : LongForm) (s : State) (o : Opnds) (e : Ev),
    (i, opc) ∈ [(Instr.mov c (.long f), 0x06), (.add c (.long f), 0x0A), (.sub c (.long f), 0x0E), (.and c (.long f), 0x12),
      (.or c (.long f), 0x16), (.xor c (.long f), 0x1A), (.neg c (.long f), 0x22), (.not c (.long f), 0x26),
      (.adc c f, 0x2A), (.sbc c f, 0x2E), (.mul c f, 0x38), (.shl c f, 0x40), (.shr c f, 0x41), (.sar c f, 0x42),
      (.rol c f, 0x43), (.ror c f, 0x44), (.clz c f, 0x45), (.brev c f, 0x46), (.bswap c f, 0x47)] →
    f.size = 2 → s.beginsLong c opc f = some (o, e) → o.d.mode = 0 → (o.a.mode = 0 ∨ o.a.mode = 9) → (o.b.mode = 0 ∨ o.b.mode = 9) →
    ∃ t, exec i s = .next t ∧
      Within { parts := [.doms, .flm, .drc, .flc, .mrc, .cpus], pages := [Pg.pwr, Pg.drc, Pg.flc, cpuPage c] } s t ∧
      (∀ c', c' ≠ c → t.cpu c' = s.cpu c') ∧
      let x := s.cpu c
      let y := t.cpu c
      (∀ n, n ≠ o.d.n → y.p.getD n 0 = x.p.getD n 0) ∧ y.sp = x.sp ∧ y.acc0 = x.acc0 ∧ y.acc1 = x.acc1 ∧ y.ls = x.ls ∧ y.le = x.le ∧
      y.sw &&& 0xF8FFFFF0 = x.sw &&& 0xF8FFFFF0

/-! ### The air, the caches and the pins -/

/-- Whitening is undone by whitening with the same generator state, and leaves the generator where it left it before (R128). -/
def Obligations.WhiteningUndoesItself : Prop :=
  ∀ (bs : List Byte) (g : Nat), pn9 (pn9 bs g).1 g = (bs, (pn9 bs g).2) ∧ (pn9 bs g).1.length = bs.length

/-- A coded stream holds whole blocks of 256 code bits, as many as its bits, the tail and the pad need, and the interleaver puts
code bit k of a block at column k mod 16 and row k div 16, read column by column (R129). -/
def Obligations.CodedStreamsHoldWholeBlocks : Prop :=
  (∀ (l : List Bool), (fecBits l).length = 256 * ((2 * (l.length + 6) + 255) / 256)) ∧
  (∀ (b : List Bool) (k : Nat), k < 256 → (interleave b)[16 * (k % 16) + k / 16]? = some (b.getD k false))

/-- A long-reach frame is PRE_LEN preamble symbols, two symbols of SFD and every bit of its header and payload as the chips of
its spreading factor; a 1 is the inverse of a 0, which is the code's sequence, most significant bit first; and the chips go
alternately to I and Q (R120, R124). -/
def Obligations.LongReachFramesAreSpread : Prop :=
  (∀ (n v k : Nat), k < n → (spread n v false)[k]? = some (v.testBit (n - 1 - k)) ∧
    (spread n v true)[k]? = some (!v.testBit (n - 1 - k))) ∧
  (∀ (mod : Word) (pre : Nat) (psdu : List Byte), (longChips mod pre psdu).length =
    64 * pre + 128 + 8 * 2 ^ mtSf mod * (bodyStream mod (phrLong mod psdu.length) psdu).length) ∧
  (∀ (l : List Bool) (k : Nat), (toRails l).1[k]? = l[2 * k]? ∧ (toRails l).2[k]? = l[2 * k + 1]?)

/-- ICINV leaves its core's instruction cache empty, an erased sector and a programmed word of flash leave no line of their
addresses in any cache, and from an empty cache nothing is fetched but from memory (R311). -/
def Obligations.CachesFollowIcinvAndFlash : Prop :=
  (∀ (c : Core) (f : LongForm) (s : State) (o : Opnds) (e : Ev), s.beginsLong c 0x64 f = some (o, e) →
    ∃ t, exec (.icinv c f) s = .next t ∧ (t.cpu c).icache = []) ∧
  (∀ (s : State) (sec k : Nat) (c : Core), 0x08000000 + sec * 0x1000 ≤ k → k < 0x08001000 + sec * 0x1000 →
    ((s.blankSector sec).cpu c).icache.any (fun x => x.1 == k) = false) ∧
  (∀ (s : State) (o : FlashOp) (k : Nat) (c : Core), 0x08000000 + o.pos ≤ k → k < 0x08000008 + o.pos →
    ((s.wordDone o).cpu c).icache.any (fun x => x.1 == k) = false) ∧
  (∀ (s : State) (c : Core) (a : Word) (n : Nat), (s.cpu c).icache = [] → 2 ≤ n → s.fetch c true a n = s.fetch c false a n)

/-- A pin of a bank without supply reads 0 whatever its pad is driven to, and an edge at it is seen by nothing (R538). -/
def Obligations.UnsuppliedPinsReadZero : Prop :=
  ∀ (p : Nat) (s : State), p < 32 → s.supplied (pinBank p) = false →
    s.pinLevel p = false ∧ (∃ w, s.gpioRead 0x804 = some w ∧ bit w p = false) ∧
    (∀ level, ∃ t, exec (.gpioEdge p level) s = .next t ∧ t.pinLevel p = false ∧ t.mrc = s.mrc ∧
      t.gpioRead 0x804 = s.gpioRead 0x804)
end

