-- ==== Sys2Proof/Laws/Access.lean ====
section
/-! SUPPORT. What an access of a register page does where the page serves it: its effect, and the answer. -/

namespace Sys2Proof.Machine

/-! ### The address of a register -/

theorem pageAddr_toNat {page off : Nat} (hp : page < 256) (ho : off < 0x1000) : (word (pageAddr page off)).toNat = pageAddr page off := by
  unfold word pageAddr; rw [BitVec.toNat_ofNat]; omega

theorem pageAddr_is {page off : Nat} (hp : page < 256) (ho : off < 0x1000) : isPageAddr (pageAddr page off) = true := by
  unfold isPageAddr pageAddr; simp only [Bool.and_eq_true, decide_eq_true_eq]; omega

theorem pageAddr_page {page off : Nat} (ho : off < 0x1000) : pageAt (pageAddr page off) = page := by
  unfold pageAt pageAddr; omega

theorem pageAddr_off {page off : Nat} (ho : off < 0x1000) : pageAddr page off % 0x1000 = off := by
  unfold pageAddr; omega

theorem pageAddr_al {page off : Nat} (ho : off % 4 = 0) : pageAddr page off % 4 = 0 := by
  unfold pageAddr; omega

/-! ### What the fabric answers (R39, R42) -/

/-- A write to a page's word is an access of that page. -/
theorem busWrite_page (s : State) (ini : Initiator) (a : Nat) (v : Word) (h : isPageAddr a = true) (h4 : a % 4 = 0) :
    s.busWrite ini a 4 v = s.pageAccess ini (pageAt a) (a % 0x1000) true (fun s => (0, s.regWrite ini (pageAt a) (a % 0x1000) v)) := by
  unfold State.busWrite
  simp only [h, h4, if_true, ne_eq, not_true, or_self, if_false]

/-- A read of a page's word is an access of that page. -/
theorem busRead_page (s : State) (ini : Initiator) (a : Nat) (h : isPageAddr a = true) (h4 : a % 4 = 0) :
    s.busRead ini a 4 = s.pageAccess ini (pageAt a) (a % 0x1000) false (fun s => s.regRead ini (pageAt a) (a % 0x1000)) := by
  unfold State.busRead
  simp only [h, h4, if_true, ne_eq, not_true, or_self, if_false]

/-- A register that its page serves: the access takes effect, and is answered. -/
theorem pageAccess_served (s : State) (ini : Initiator) (page off : Nat) (w : Bool) (eff : State → Word × State)
    (hg : s.gate ini page off w = .serve) :
    s.pageAccess ini page off w eff = ((eff (s.accessed ini page off)).2, .ok (eff (s.accessed ini page off)).1) := by
  unfold State.pageAccess State.accessed
  rw [hg]

/-- A write that a page serves takes effect, and its reply is no error. -/
theorem pageWrite_served (s : State) (ini : Initiator) (page off : Nat) (v : Word) (eff : State → State)
    (hg : s.gate ini page off true = .serve) :
    s.pageWrite ini page off v eff = (eff (s.accessed ini page off)).setReply ini 0 false := by
  unfold State.pageWrite
  rw [pageAccess_served _ _ _ _ _ _ hg]
  rfl

/-- A read that a page serves takes effect, and its value is the reply. -/
theorem pageRead_served (s : State) (ini : Initiator) (page off : Nat) (eff : State → Word × State)
    (hg : s.gate ini page off false = .serve) :
    s.pageRead ini page off eff =
      (eff (s.accessed ini page off)).2.setReply ini (eff (s.accessed ini page off)).1 false := by
  unfold State.pageRead
  rw [pageAccess_served _ _ _ _ _ _ hg]
  rfl

/-- An access of a header register only takes effect: it restarts no idle timer and names no bank. -/
theorem State.accessed_header (s : State) (ini : Initiator) (page : Nat) {off : Nat} (hh : isHeader off = true) :
    s.accessed ini page off = s := by
  unfold State.accessed
  rw [if_pos (by rw [hh]; rfl)]

/-- A write of a header register that its page serves. -/
theorem pageWrite_header (s : State) (ini : Initiator) (page off : Nat) (v : Word) (eff : State → State)
    (hg : s.gate ini page off true = .serve) (hh : isHeader off = true) :
    s.pageWrite ini page off v eff = (eff s).setReply ini 0 false := by
  rw [pageWrite_served _ _ _ _ _ _ hg, State.accessed_header _ _ _ hh]

/-- An access leaves every register, and everything but a domain's idle count. -/
theorem State.accessed_reg (s : State) (ini : Initiator) (page off p i o : Nat) :
    (s.accessed ini page off).reg p i o = s.reg p i o := by
  unfold State.accessed State.touch
  split
  · rfl
  · split <;> rfl

/-- An immediate register without an effect of its own takes the written fields (R5, R6). -/
theorem regWrite_plain (s : State) (ini : Initiator) (page off : Nat) (v : Word) (d : RegDef) 
    (hh : isHeader off = false) (hd : regDef page off = some d) (hst : d.staged = false)
    (hn : s.noSet page (s.setIndex page ini off) off = false)
    (hb : s.blockWrite ini page (s.setIndex page ini off) off v = none)
    (hl : (d.config && s.locked page) = false) 
    (hr : outOfRange d v = false) : s.regWrite ini page off v = s.setReg page (s.setIndex page ini off) off (writeValue d (s.reg page (s.setIndex page ini off) off) v) := by
    unfold State.regWrite
    simp only [hh, Bool.false_eq_true, if_false]
    simp only [hn, hb, hd, hst, State.plainWrite, hl, hr, Bool.false_eq_true, if_false]

end Sys2Proof.Machine
end

