-- ==== Sys2Proof/Laws/Air.lean ====
section
/-! SUPPORT. The air link of the tag: octets survive their bits, and a reply frame is heard as the octets it carries
(R418 to R420). -/

namespace Sys2Proof.Machine

theorem octet_ofBits (b : Byte) :
    BitVec.ofNat 8 ((((List.range 8).map (fun k => b.getLsbD k)).zipIdx.foldl (fun a (b, k) => a + b.toNat * 2 ^ k) 0)) = b := by
  revert b; decide +kernel

theorem octets_ofBits (bs : List Byte) : ∀ n, n = bs.length → octetsOfBits n (bitsOfOctets bs) = bs := by
  induction bs with
  | nil => intro n h; subst h; rfl
  | cons b bs ih =>
    intro n h; subst h
    have hl : ((List.range 8).map (fun k => b.getLsbD k)).length = 8 := by simp
    simp only [List.length_cons, octetsOfBits, bitsOfOctets, List.flatMap_cons, List.take_left' hl, List.drop_left' hl, octet_ofBits]
    exact congrArg _ (ih _ rfl)

theorem bitsOfOctets_length (bs : List Byte) : (bitsOfOctets bs).length = 8 * bs.length := by
  induction bs with
  | nil => rfl
  | cons b bs ih => simp only [bitsOfOctets, List.flatMap_cons, List.length_append, List.length_cons] at ih ⊢; rw [ih]; simp; omega

theorem hearBits_frame (l : List Bool) : ∀ k, hearBits (l.map (fun b => (b, !b))) k = (l, none) := by
  induction l with
  | nil => intro k; rfl
  | cons b l ih => intro k; cases b <;> simp [hearBits, ih]

theorem fcs2_length (bs : List Byte) : (fcsOf true bs).length = 2 := rfl

/-- A reply frame without a collision is heard as the status octet and the data it carries. -/
theorem replyAnswer_frame (st : Byte) (data : List Byte) (level : Byte) :
    replyAnswer ⟨upFrame (frameBits (st :: data)), level⟩ = .ok st data := by
  have hb : hearReply ⟨upFrame (frameBits (st :: data)), level⟩ = some (frameBits (st :: data), none) := by
    simp only [hearReply, upFrame, List.map_cons, List.cons_append, List.nil_append,
      Bool.not_true, Bool.not_false, hearBits_frame]
  have hn : (frameBits (st :: data)).length = 8 * (data.length + 3) := by
    simp only [frameBits, bitsOfOctets_length, List.length_append, List.length_cons, fcs2_length]
  have ho : octetsOfBits (data.length + 3) (frameBits (st :: data)) = (st :: data) ++ fcsOf true (st :: data) :=
    octets_ofBits _ _ (by simp [fcs2_length])
  have h8 : 8 * (data.length + 3) / 8 = data.length + 3 := by omega
  have hm : 8 * (data.length + 3) % 8 = 0 := by omega
  have hl : ((st :: data) ++ fcsOf true (st :: data)).length - 2 = (st :: data).length := by simp [fcs2_length]
  simp only [replyAnswer, hb, hn, h8, ho, hl, List.take_left, List.drop_left, hm, true_and, if_true]

end Sys2Proof.Machine
end

