-- ==== Sys2Proof/Laws/Bits.lean ====
section
/-! SUPPORT. What the fields of a word read after some of its bits are replaced. -/

namespace Sys2Proof.Machine

theorem testBit_bits {n : Nat} (w : BitVec n) (hi lo i : Nat) :
    (bits w hi lo).testBit i = (decide (i < hi + 1 - lo) && w.getLsbD (lo + i)) := by
  unfold bits
  rw [Nat.testBit_mod_two_pow, Nat.testBit_shiftRight]
  rfl

theorem getLsbD_setBits (w : Word) (hi lo v i : Nat) (h : i < 32) :
    (setBits w hi lo v).getLsbD i = if lo ≤ i ∧ i ≤ hi then v.testBit (i - lo) else w.getLsbD i := by
  unfold setBits
  simp only [BitVec.getLsbD_or, BitVec.getLsbD_and, BitVec.getLsbD_not, BitVec.getLsbD_ofNat, h, decide_true, Bool.true_and,
    Nat.testBit_shiftLeft, Nat.testBit_mod_two_pow, Nat.testBit_two_pow_sub_one]
  by_cases h1 : lo ≤ i
  · by_cases h2 : i ≤ hi
    · have : i - lo < hi + 1 - lo := by omega
      simp [h1, h2, this]
    · have : ¬ (i - lo < hi + 1 - lo) := by omega
      simp [h1, h2, this]
  · simp [h1]

theorem bits_setBits (w : Word) (hi lo v : Nat) (h : hi < 32) : bits (setBits w hi lo v) hi lo = v % 2 ^ (hi + 1 - lo) := by
  apply Nat.eq_of_testBit_eq
  intro i
  rw [testBit_bits, Nat.testBit_mod_two_pow]
  by_cases hi' : i < hi + 1 - lo
  · rw [getLsbD_setBits _ _ _ _ _ (by omega), if_pos (by omega)]
    simp [hi']
  · simp [hi']

theorem bits_setBits_ne (w : Word) (hi lo v hi' lo' : Nat) (h : hi' < 32) (hd : hi < lo' ∨ hi' < lo) :
    bits (setBits w hi lo v) hi' lo' = bits w hi' lo' := by
  apply Nat.eq_of_testBit_eq
  intro i
  rw [testBit_bits, testBit_bits]
  by_cases hi' : i < hi' + 1 - lo'
  · rw [getLsbD_setBits _ _ _ _ _ (by omega), if_neg (by omega)]
  · simp [hi']

theorem bit_setBit (w : Word) (i : Nat) (b : Bool) (h : i < 32) : bit (setBit w i b) i = b := by
  unfold bit setBit
  rw [getLsbD_setBits _ _ _ _ _ h, if_pos (by omega)]
  cases b <;> simp

theorem bit_setBits_ne (w : Word) (hi lo v i : Nat) (h : i < 32) (hd : i < lo ∨ hi < i) : bit (setBits w hi lo v) i = bit w i := by
  unfold bit
  rw [getLsbD_setBits _ _ _ _ _ h, if_neg (by omega)]

theorem bit_setBit_ne (w : Word) (i j : Nat) (b : Bool) (h : j < 32) (hd : j ≠ i) : bit (setBit w i b) j = bit w j :=
  bit_setBits_ne w i i _ j h (by omega)

theorem bits_setBit_ne (w : Word) (i hi lo : Nat) (b : Bool) (h : hi < 32) (hd : i < lo ∨ hi < i) :
    bits (setBit w i b) hi lo = bits w hi lo := bits_setBits_ne w i i _ hi lo h hd

theorem word_toNat_lt (n : Nat) (h : n < 4294967296) : (word n).toNat = n := by
  unfold word; rw [BitVec.toNat_ofNat]; omega

end Sys2Proof.Machine
end

