-- ==== Sys2Proof/Laws/Alu.lean ====
section
/-! SUPPORT. What the flags of a status word read after a flag rule, and the sizes of operands. -/

namespace Sys2Proof.Machine

theorem bit_setBit_if (w : Word) (i j : Nat) (b : Bool) (hj : j < 32) : bit (setBit w i b) j = if j = i then b else bit w j := by
  split
  · next h => subst h; exact bit_setBit w j b hj
  · next h => exact bit_setBit_ne w i j b hj h

theorem cutTo_toNat (k : Nat) (w : Word) (h : k = 1 ∨ k = 2 ∨ k = 4) : (cutTo k w).toNat = w.toNat % 2 ^ (8 * k) := by
  unfold cutTo word
  rw [BitVec.toNat_ofNat]
  have := w.isLt
  rcases h with rfl | rfl | rfl <;> omega

theorem bit_top (w : Word) (k : Nat) (h : k = 1 ∨ k = 2 ∨ k = 4) (hw : w.toNat < 2 ^ (8 * k)) : bit w (8 * k - 1) = decide (2 ^ (8 * k) / 2 ≤ w.toNat) := by
  unfold bit BitVec.getLsbD
  rw [Nat.testBit_eq_decide_div_mod_eq]
  congr 1
  rcases h with rfl | rfl | rfl <;> simp at * <;> omega

theorem shiftAlu_c (r : Word) (c : Option Bool) (sw : Word) : bit ((shiftAlu r c).flags sw) Flag.c = c.getD (bit sw Flag.c) := by
  unfold shiftAlu setNZ
  cases c <;> simp [setC, bit_setBit_if _ _ _ _ (by decide : Flag.c < 32), Flag.c, Flag.z, Flag.n]

theorem shiftAlu_val (r : Word) (c : Option Bool) : (shiftAlu r c).val = r := rfl

end Sys2Proof.Machine
end

