-- ==== Sys2Proof/Laws/Ehriq.lean ====
section
/-! SUPPORT. What an Ehriq instruction answers once its fetch, its operands and its destinations are served. -/

namespace Sys2Proof.Machine

theorem execute_begins {s : State} {c : Core} {via : Fetch} {code : List Byte} {i : Info} {k : Ev → Res Eff} {e e' : Ev} {f : Eff}
    (h : s.begins c via code = some e) (hk : k e = .ok f e') : s.execute c via code i k = s.ends c via i e' f := by
  simp only [State.begins] at h
  unfold State.execute State.ends
  split at h
  · next hg =>
    simp only [hg]
    split at h
    · next bs t ht =>
      split at h
      · next hb =>
        simp only [Option.some.injEq] at h
        subst h
        simp [ht, hk, hb]
      · cases h
    · cases h
  · cases h

/-- A fault of the evaluation records itself and enters its handler. -/
theorem execute_faults {s : State} {c : Core} {via : Fetch} {code : List Byte} {i : Info} {k : Ev → Res Eff} {e : Ev} {f : CoreFault}
    {t : State} (h : s.begins c via code = some e) (hk : k e = .fault f t) :
    s.execute c via code i k = (s.applyFlips via.flips).coreFault t c i ((s.applyFlips via.flips).cpu c).pc f := by
  simp only [State.begins] at h
  unfold State.execute
  split at h
  · next hg =>
    simp only [hg]
    split at h
    · next bs t ht =>
      split at h
      · next hb =>
        simp only [Option.some.injEq] at h
        subst h
        simp [ht, hk, hb]
      · cases h
    · cases h
  · cases h

theorem beginsShaped_some {s : State} {c : Core} {opc : Nat} {h : Shape} {f : LongForm} {o : Opnds} {e : Ev}
    (hb : s.beginsShaped c opc f h = some (o, e)) :
    (f.stands c = true ∧ f.opc = opc) ∧ h.legal f = true ∧ o = h.opnds f ∧ s.begins c f.via (f.code (h.bytes c f)) = some e := by
  unfold State.beginsShaped at hb
  split at hb
  · next hl =>
    simp only [Bool.and_eq_true, beq_iff_eq] at hl
    simp only [Option.map_eq_some_iff, Prod.mk.injEq] at hb
    obtain ⟨e', h1, h2, h3⟩ := hb
    exact ⟨hl.1, hl.2, h2.symm, h3 ▸ h1⟩
  · cases hb

theorem beginsCop_some {s : State} {c : Core} {cp func : Nat} {h : Shape} {f : LongForm} {o : Opnds} {e : Ev}
    (hb : s.beginsCop c cp func f h = some (o, e)) :
    f.stands c = true ∧ f.opc = 0xE0 + 2 * cp ∧ fnFunc (copABD.opnds f).own = func ∧ h.fits f (copABD.opnds f) = true ∧
      o = copABD.opnds f ∧ s.begins c f.via (f.code (lengthOf c f.word)) = some e := by
  unfold State.beginsCop at hb
  dsimp only at hb
  split at hb
  · next hl =>
    simp only [Bool.and_eq_true, beq_iff_eq] at hl
    simp only [Option.map_eq_some_iff, Prod.mk.injEq] at hb
    obtain ⟨e', h1, h2, h3⟩ := hb
    exact ⟨hl.1.1.1, hl.1.1.2, hl.1.2, hl.2, h2.symm, h3 ▸ h1⟩
  · cases hb

theorem runShaped_begins {s : State} {c : Core} {opc : Nat} {f : LongForm} {h : Shape} {k : Opnds → Ev → Res Eff} {o : Opnds} {e e' : Ev}
    {x : Eff} (hb : s.beginsShaped c opc f h = some (o, e)) (hk : k o e = .ok x e') :
    s.runShaped c opc f h true k = s.ends c f.via { len := h.bytes c f, opc } e' x := by
  obtain ⟨⟨hs, ho⟩, hl, rfl, hb'⟩ := beginsShaped_some hb
  unfold State.runShaped
  rw [if_neg (by simp [hs, ho])]
  refine execute_begins (i := ⟨_, opc, 0, false, 1, true⟩) hb' ?_
  simp only [hl, Bool.and_true, if_true, hk]

theorem runLong_begins {s : State} {c : Core} {opc : Nat} {f : LongForm} {k : Opnds → Ev → Res Eff} {o : Opnds} {e e' : Ev}
    {x : Eff} (hb : s.beginsLong c opc f = some (o, e)) (hk : k o e = .ok x e') :
    s.runLong c opc f true k = s.endsLong c opc f e' x := runShaped_begins hb hk

theorem runSized_begins {s : State} {c : Core} {opc : Nat} {f : LongForm} {k : Nat → Opnds → Ev → Res Eff} {o : Opnds}
    {e e' : Ev} {x : Eff} (hb : s.beginsLong c (opc + f.size.toNat) f = some (o, e)) (hs : f.size ≠ 3)
    (hk : k (sizeOf f.size.toNat) o e = .ok x e') :
    s.runSized c opc f k = s.endsLong c (opc + f.size.toNat) f e' x := by
  unfold State.runSized
  rw [bne_iff_ne.mpr hs]
  exact runLong_begins hb hk

theorem runShort_begins {s : State} {c : Core} {op5 : Nat} {f : ShortForm} {k : ShortOp} {e e' : Ev} {x : Eff}
    (hb : s.beginsShort c op5 f = some e) (hk : k f.x f.y e = .ok x e') :
    s.runShort c op5 f k = s.endsShort c op5 f e' x := by
  unfold State.beginsShort at hb
  unfold State.runShort
  split at hb
  · cases hb
  · next hs =>
    rw [if_neg hs]
    exact execute_begins (i := ⟨2, op5, 0, true, 1, true⟩) hb hk

/-- A coprocessor function in bank 0 with a count above 0. -/
theorem runCop_begins {s : State} {c : Core} {cp func : Nat} {f : LongForm} {h : Shape} {k : Nat → Opnds → Ev → Res Eff}
    {o : Opnds} {e e' : Ev} {x : Eff} (hb : s.beginsCop c cp func f h = some (o, e)) (hn : fnCount o.own ≠ 0)
    (hk : k (fnCount o.own) o e = .ok x e') : s.runCop c cp func f h k = s.endsCop c cp f e' x := by
  obtain ⟨hs, ho, hf, hfit, rfl, hb'⟩ := beginsCop_some hb
  unfold State.runCop
  dsimp only
  rw [if_neg (by simp [hs, ho, hf]; omega)]
  refine (execute_begins (i := ⟨_, _, 0, false, 1, true⟩) hb' ?_).trans (by rw [ho]; rfl)
  rw [hfit, if_neg (by decide), if_neg (by omega), if_neg hn, hk]

/-! ### Operations on operands -/

theorem longUn_ok {o e e1 e2 a l k m} {g : Word → Word → Alu} (h1 : Ev.src e k o.a = .ok a e1) (h2 : e1.dst m o.d = .ok l e2) :
   longUn k m g o e = .ok ((e2.eff.put m l (g e2.x.sw a).val).flags (g e2.x.sw a).flags) e2 := by
  simp only [longUn, h1, Res.andThen, h2, Ev.done]

theorem longBin_ok {o e e1 e2 e3 a b l k} {g : Word → Word → Word → Alu} (h1 : Ev.src e k o.a = .ok a e1) (h2 : e1.src k o.b = .ok b e2) (h3 : e2.dst k o.d = .ok l e3) :
   longBin k g o e = .ok ((e3.eff.put k l (g e3.x.sw a b).val).flags (g e3.x.sw a b).flags) e3 := by
  simp only [longBin, h1, Res.andThen, h2, h3, Ev.done]

theorem longCmp_ok {o e e1 e2 a b k} {g : Word → Word → Alu} (h1 : Ev.src e k o.a = .ok a e1) (h2 : e1.src k o.b = .ok b e2)  :
   longCmp k g o e = .ok (e2.eff.flags (g a b).flags) e2 := by
  simp only [longCmp, h1, Res.andThen, h2]

theorem runLong_begins_if {s : State} {c : Core} {opc : Nat} {f : LongForm} {ok : Bool} {k : Opnds → Ev → Res Eff} {o : Opnds} {e e' : Ev}
    {x : Eff} (hok : ok = true) (hb : s.beginsLong c opc f = some (o, e)) (hk : k o e = .ok x e') :
    s.runLong c opc f ok k = s.endsLong c opc f e' x := by subst hok; exact runLong_begins hb hk

/-- A coprocessor function with a count of 0 writes nothing. -/
theorem runCop_zero {s : State} {c : Core} {cp func : Nat} {f : LongForm} {h : Shape} {k : Nat → Opnds → Ev → Res Eff}
    {o : Opnds} {e : Ev} (hb : s.beginsCop c cp func f h = some (o, e)) (hn : fnCount o.own = 0) :
    s.runCop c cp func f h k = s.endsCop c cp f e e.eff := by
  obtain ⟨hs, ho, hf, hfit, rfl, hb'⟩ := beginsCop_some hb
  unfold State.runCop
  dsimp only
  rw [if_neg (by simp [hs, ho, hf]; omega)]
  refine (execute_begins (i := ⟨_, _, 0, false, 1, true⟩) hb' ?_).trans (by rw [ho]; rfl)
  rw [hfit, if_neg (by decide), if_neg (by omega), if_pos hn]

end Sys2Proof.Machine
end

