-- ==== Sys2Proof/Laws/Within.lean ====
section
/-! SUPPORT. The rules of `Within`: it is closed under composition, and the primitive updates of the state
keep it. -/

namespace Sys2Proof.Machine

/-! ### Sparse maps -/

namespace Sparse

variable {α : Type}

theorem risingFrom_mono {m : Sparse α} {a b : Nat} (h : a ≤ b) (hm : risingFrom b m = true) :
    risingFrom a m = true := by
  cases m with
  | nil => rfl
  | cons e m =>
    obtain ⟨k, v⟩ := e
    simp only [risingFrom, Bool.and_eq_true, decide_eq_true_eq] at hm ⊢
    exact ⟨Nat.le_trans h hm.1, hm.2⟩

theorem risingFrom_insert (m : Sparse α) (k : Nat) (v : α) (b : Nat) (hb : b ≤ k)
    (hm : risingFrom b m = true) : risingFrom b (insert m k v) = true := by
  induction m generalizing b with
  | nil => simp [insert, risingFrom, hb]
  | cons e m ih =>
    obtain ⟨k', v'⟩ := e
    simp only [risingFrom, Bool.and_eq_true, decide_eq_true_eq] at hm
    unfold insert
    split
    · rename_i h
      simp only [risingFrom, Bool.and_eq_true, decide_eq_true_eq]
      exact ⟨hb, h, hm.2⟩
    · split
      · rename_i h
        subst h
        simp only [risingFrom, Bool.and_eq_true, decide_eq_true_eq]
        exact ⟨hb, hm.2⟩
      · simp only [risingFrom, Bool.and_eq_true, decide_eq_true_eq]
        exact ⟨hm.1, ih (k' + 1) (by omega) hm.2⟩

theorem risingFrom_erase (m : Sparse α) (k b : Nat) (hm : risingFrom b m = true) :
    risingFrom b (erase m k) = true := by
  induction m generalizing b with
  | nil => rfl
  | cons e m ih =>
    obtain ⟨k', v'⟩ := e
    simp only [risingFrom, Bool.and_eq_true, decide_eq_true_eq] at hm
    unfold erase
    split
    · exact risingFrom_mono (by omega) hm.2
    · simp only [risingFrom, Bool.and_eq_true, decide_eq_true_eq]
      exact ⟨hm.1, ih _ hm.2⟩

theorem risingFrom_keep (p : Nat → Bool) (m : Sparse α) (b : Nat) (hm : risingFrom b m = true) :
    risingFrom b (keep p m) = true := by
  induction m generalizing b with
  | nil => rfl
  | cons e m ih =>
    obtain ⟨k', v'⟩ := e
    simp only [risingFrom, Bool.and_eq_true, decide_eq_true_eq] at hm
    have h := ih (k' + 1) hm.2
    unfold keep at h ⊢
    rw [List.filter_cons]
    split
    · simp only [risingFrom, Bool.and_eq_true, decide_eq_true_eq]
      exact ⟨hm.1, h⟩
    · exact risingFrom_mono (by omega) h

theorem rising_insert {m : Sparse α} (k : Nat) (v : α) (hm : rising m = true) : rising (insert m k v) = true :=
  risingFrom_insert m k v 0 (Nat.zero_le k) hm

theorem rising_keep {m : Sparse α} (p : Nat → Bool) (hm : rising m = true) : rising (keep p m) = true :=
  risingFrom_keep p m 0 hm

theorem rising_set [DecidableEq α] {m : Sparse α} (d : α) (k : Nat) (v : α) (hm : rising m = true) :
    rising (set d m k v) = true := by
  unfold set
  split
  · exact risingFrom_erase m k 0 hm
  · exact rising_insert k v hm

theorem mem_insert {m : Sparse α} {k : Nat} {v : α} {e : Nat × α} (h : e ∈ insert m k v) : e = (k, v) ∨ e ∈ m := by
  induction m with
  | nil => simpa [insert] using h
  | cons f m ih =>
    obtain ⟨k', v'⟩ := f
    unfold insert at h
    split at h
    · simpa using h
    · split at h
      · simp only [List.mem_cons] at h ⊢
        exact h.imp id .inr
      · simp only [List.mem_cons] at h ⊢
        rcases h with h | h
        · exact .inr (.inl h)
        · exact (ih h).imp id .inr

theorem mem_erase {m : Sparse α} {k : Nat} {e : Nat × α} (h : e ∈ erase m k) : e ∈ m := by
  induction m with
  | nil => exact h
  | cons f m ih =>
    obtain ⟨k', v'⟩ := f
    unfold erase at h
    split at h
    · exact List.mem_cons_of_mem _ h
    · simp only [List.mem_cons] at h ⊢
      exact h.imp id ih

/-- A key reads what was put at it. -/
theorem get_insert (d : α) (m : Sparse α) (k : Nat) (v : α) : get d (insert m k v) k = v := by
  induction m with
  | nil => simp [insert, get]
  | cons f m ih =>
    obtain ⟨k', v'⟩ := f
    unfold insert
    split
    · simp [get]
    · split
      · simp [get]
      · rename_i h
        simp only [get, ih]
        rw [if_neg (fun h' => h h'.symm)]

/-- Other keys read as before an insertion. -/
theorem get_insert_ne (d : α) (m : Sparse α) {k j : Nat} (v : α) (h : j ≠ k) : get d (insert m k v) j = get d m j := by
  induction m with
  | nil => simp [insert, get, h.symm]
  | cons f m ih =>
    obtain ⟨k', v'⟩ := f
    unfold insert
    split
    · simp [get, h.symm]
    · split
      · rename_i h'
        subst h'
        simp [get, h.symm]
      · simp only [get, ih]

/-- Other keys read as before an erasure. -/
theorem get_erase_ne (d : α) (m : Sparse α) {k j : Nat} (h : j ≠ k) : get d (erase m k) j = get d m j := by
  induction m with
  | nil => rfl
  | cons f m ih =>
    obtain ⟨k', v'⟩ := f
    unfold erase
    split
    · rename_i h'
      subst h'
      simp [get, h.symm]
    · simp only [get, ih]

/-- A key below every listed key reads as the default. -/
theorem get_below (d : α) (m : Sparse α) {k b : Nat} (hm : risingFrom b m = true) (h : k < b) : get d m k = d := by
  induction m generalizing b with
  | nil => rfl
  | cons f m ih =>
    obtain ⟨k', v'⟩ := f
    simp only [risingFrom, Bool.and_eq_true, decide_eq_true_eq] at hm
    simp only [get]
    rw [if_neg (by omega)]
    exact ih hm.2 (by omega)

/-- An erased key reads as the default. -/
theorem get_erase (d : α) (m : Sparse α) (k b : Nat) (hm : risingFrom b m = true) : get d (erase m k) k = d := by
  induction m generalizing b with
  | nil => rfl
  | cons f m ih =>
    obtain ⟨k', v'⟩ := f
    simp only [risingFrom, Bool.and_eq_true, decide_eq_true_eq] at hm
    unfold erase
    split
    · rename_i h
      subst h
      exact get_below d m hm.2 (Nat.lt_succ_self _)
    · rename_i h
      simp only [get]
      rw [if_neg h]
      exact ih _ hm.2

/-- A key reads what was set at it, in a map with rising keys. -/
theorem get_set [DecidableEq α] (d : α) (m : Sparse α) (k : Nat) (v : α) (hm : rising m = true) :
    get d (set d m k v) k = v := by
  unfold set
  split
  · rename_i h
    rw [get_erase d m k 0 hm, h]
  · exact get_insert d m k v

/-- Other keys read as before. -/
theorem get_set_ne [DecidableEq α] (d d' : α) (m : Sparse α) {k j : Nat} (v : α) (h : j ≠ k) :
    get d' (set d m k v) j = get d' m j := by
  unfold set
  split
  · exact get_erase_ne d' m h
  · exact get_insert_ne d' m v h

/-- Whether a key that is kept is listed, and what it reads as, does not change. -/
theorem get_keep (d : α) (p : Nat → Bool) (m : Sparse α) {k : Nat} (h : p k = true) : get d (keep p m) k = get d m k := by
  induction m with
  | nil => rfl
  | cons f m ih =>
    obtain ⟨k', v'⟩ := f
    unfold keep at ih ⊢
    rw [List.filter_cons]
    split
    · simp only [get, ih]
    · rename_i h'
      rw [ih]
      simp only [get]
      rw [if_neg]
      rintro rfl
      exact h' h

end Sparse

/-! ### Registers -/

theorem keyPage_regKey (page idx off : Nat) : keyPage (regKey page idx off) = page := by
  unfold keyPage regKey
  omega

theorem regKey_ne {page idx off page' idx' off' : Nat} (h : page' ≠ page) : regKey page' idx' off' ≠ regKey page idx off := by
  intro he
  apply h
  rw [← keyPage_regKey page idx off, ← he, keyPage_regKey]

/-! ### Composition -/

theorem Touch.le_parts {v w : Touch} (h : v.le w = true) {p : Part} (hp : p ∉ w.parts) : p ∉ v.parts := by
  intro hv
  simp only [Touch.le, Bool.and_eq_true, List.all_eq_true] at h
  exact hp (List.contains_iff_mem.mp (h.1 p hv))

theorem Touch.le_pages {v w : Touch} (h : v.le w = true) (hw : w.all = false) {p : Nat} (hp : p ∉ w.pages) :
    v.all = false ∧ p ∉ v.pages := by
  simp only [Touch.le, Bool.and_eq_true, hw, Bool.false_or, List.all_eq_true, Bool.not_eq_true'] at h
  exact ⟨h.2.1, fun hv => hp (List.contains_iff_mem.mp (h.2.2 p hv))⟩

theorem Within.refl {w : Touch} {s : State} : Within w s s where
  variant := rfl
  pending := rfl
  wf := id
  regs := fun _ _ _ _ _ => rfl
  same := fun p _ => by cases p <;> rfl

theorem Part.same_trans {p : Part} {s t u : State} (h : p.same s t) (h' : p.same t u) : p.same s u := by
  cases p <;> exact Eq.trans h' h

/-- A change within a smaller touch follows. -/
theorem Within.step {v w : Touch} {s x y : State} (h : Within v x y) (hx : Within w s x) (hw : v.le w = true) :
    Within w s y where
  variant := h.variant.trans hx.variant
  pending := h.pending.trans hx.pending
  wf := fun k => h.wf (hx.wf k)
  regs := fun ha page idx off hp => by
    obtain ⟨a, b⟩ := Touch.le_pages hw ha hp
    exact (h.regs a page idx off b).trans (hx.regs ha page idx off hp)
  same := fun p hp => Part.same_trans (hx.same p hp) (h.same p (Touch.le_parts hw hp))

theorem Touch.le_refl (w : Touch) : w.le w = true := by
  simp only [Touch.le, Bool.and_eq_true, Bool.or_eq_true, List.all_eq_true, List.contains_iff_mem, imp_self, implies_true,
    true_and]
  cases w.all <;> simp

theorem Touch.le_trans {u v w : Touch} (h : u.le v = true) (h' : v.le w = true) : u.le w = true := by
  simp only [Touch.le, Bool.and_eq_true, Bool.or_eq_true, Bool.not_eq_true', List.all_eq_true, List.contains_iff_mem] at h h' ⊢
  refine ⟨fun p hp => h'.1 p (h.1 p hp), ?_⟩
  rcases h'.2 with h' | h'
  · exact .inl h'
  · rcases h.2 with h | h
    · rw [h] at h'
      cases h'.1
    · exact .inr ⟨h.1, fun p hp => h'.2 p (h.2 p hp)⟩

theorem Within.trans {w : Touch} {s x y : State} (hx : Within w s x) (h : Within w x y) : Within w s y :=
  h.step hx w.le_refl

/-- A change follows another; what it may reach lies within the touch. -/
theorem Within.then {v w : Touch} {s x y : State} (h : Within v x y) (hx : Within w s x)
    (hw : v.le w = true := by first | decide | simp [Touch.le, Touch.bus, Part.but, Part.every]) : Within w s y := h.step hx hw

/-- An intermediate state is shown to follow once. -/
theorem Within.cut {w : Touch} {s x y : State} (h : Within w s x) (k : Within w s x → Within w s y) : Within w s y := k h

theorem Within.ite₁ {β : Type} {w : Touch} {s : State} {x y : State × β} {c : Prop} [Decidable c] (hx : Within w s x.1)
    (hy : Within w s y.1) : Within w s (if c then x else y).1 := by
  split
  · exact hx
  · exact hy

theorem Within.ite₂ {β : Type} {w : Touch} {s : State} {x y : β × State} {c : Prop} [Decidable c] (hx : Within w s x.2)
    (hy : Within w s y.2) : Within w s (if c then x else y).2 := by
  split
  · exact hx
  · exact hy

theorem Within.mono {v w : Touch} {s t : State} (h : Within v s t) (hw : v.le w = true) : Within w s t :=
  h.step .refl hw

theorem Within.ite {w : Touch} {s x y : State} {c : Prop} [Decidable c] (hx : Within w s x) (hy : Within w s y) :
    Within w s (if c then x else y) := by
  split
  · exact hx
  · exact hy

/-- A fold keeps within a touch that each of its steps keeps. -/
theorem Within.foldl {α : Type} {w : Touch} {s x : State} {f : State → α → State} {l : List α}
    (hf : ∀ y a, Within w s y → Within w s (f y a)) (hx : Within w s x) : Within w s (l.foldl f x) := by
  induction l generalizing x with
  | nil => exact hx
  | cons a l ih => exact ih (hf x a hx)

theorem Within.foldl₁ {α β : Type} {w : Touch} {s : State} {f : State × β → α → State × β} {l : List α} {x : State × β}
    (hf : ∀ y a, Within w s y.1 → Within w s (f y a).1) (hx : Within w s x.1) : Within w s (l.foldl f x).1 := by
  induction l generalizing x with
  | nil => exact hx
  | cons a l ih => exact ih (hf x a hx)

theorem Within.foldl₂ {α β : Type} {w : Touch} {s : State} {f : β × State → α → β × State} {l : List α} {x : β × State}
    (hf : ∀ y a, Within w s y.2 → Within w s (f y a).2) (hx : Within w s x.2) : Within w s (l.foldl f x).2 := by
  induction l generalizing x with
  | nil => exact hx
  | cons a l ih => exact ih (hf x a hx)

theorem Within.fst {β : Type} {w : Touch} {s x : State} {b : β} {p : State × β} (h : p = (x, b)) (hp : Within w s p.1) :
    Within w s x := by
  rw [h] at hp
  exact hp

theorem Within.snd {β : Type} {w : Touch} {s x : State} {b : β} {p : β × State} (h : p = (b, x)) (hp : Within w s p.2) :
    Within w s x := by
  rw [h] at hp
  exact hp

theorem OutWithin.next {w : Touch} {s x : State} (h : Within w s x) : OutWithin w s (.next x) := by
  intro t ht
  cases ht
  exact h

theorem OutWithin.then {v w : Touch} {s x : State} {o : Host.Outcome State Fault Refusal} (h : OutWithin v x o)
    (hx : Within w s x) (hw : v.le w = true := by first | decide | simp [Touch.le, Touch.bus, Part.but, Part.every]) :
    OutWithin w s o := fun t ht => (h t ht).step hx hw

theorem OutWithin.cut {w : Touch} {s x : State} {o : Host.Outcome State Fault Refusal} (h : Within w s x)
    (k : Within w s x → OutWithin w s o) : OutWithin w s o := k h

theorem OutWithin.ite {w : Touch} {s : State} {x y : Host.Outcome State Fault Refusal} {c : Prop} [Decidable c]
    (hx : OutWithin w s x) (hy : OutWithin w s y) : OutWithin w s (if c then x else y) := by
  split
  · exact hx
  · exact hy

/-! ### Primitive updates -/

/-- A change of other parts than registers, memory and losses. -/
theorem Within.of_parts {w : Touch} {s x y : State} (hx : Within w s x) (hv : y.variant = x.variant)
    (hp : y.pending = x.pending) (hr : y.regs = x.regs) (hm : y.mem = x.mem) (hl : y.lost = x.lost)
    (h : ∀ p, p ∉ w.parts → p.same x y) : Within w s y where
  variant := hv.trans hx.variant
  pending := hp.trans hx.pending
  wf := fun k => by
    have := hx.wf k
    unfold State.wf Memory.wf Memory.tells State.regsWf State.unwrittenKnown State.unwritten at this ⊢
    rw [hm, hl, hr]
    exact this
  regs := fun ha page idx off hn => by
    rw [← hx.regs ha page idx off hn]
    unfold State.reg
    rw [hr]
  same := fun p hn => Part.same_trans (hx.same p hn) (h p hn)

theorem State.reg_setReg_page (s : State) (page idx off : Nat) (v : Word) {page' : Nat} (idx' off' : Nat) (h : page' ≠ page) :
    (s.setReg page idx off v).reg page' idx' off' = s.reg page' idx' off' := by
  unfold State.reg State.setReg
  exact Sparse.get_set_ne _ _ _ v (regKey_ne h)

theorem State.setReg_within (s : State) (page idx off : Nat) (v : Word) : Within { pages := [page] } s (s.setReg page idx off v) where
  variant := rfl
  pending := rfl
  wf := fun k => by
    unfold State.wf at k ⊢
    rw [Bool.and_eq_true] at k ⊢
    exact ⟨k.1, Sparse.rising_set _ _ v k.2⟩
  regs := fun _ page' idx' off' hn => s.reg_setReg_page page idx off v idx' off' (by simpa using hn)
  same := fun p _ => by cases p <;> rfl

theorem State.clearRegs_within (s : State) (p : Nat → Bool) : Within { all := true } s (s.clearRegs p) where
  variant := rfl
  pending := rfl
  wf := fun k => by
    unfold State.wf at k ⊢
    rw [Bool.and_eq_true] at k ⊢
    exact ⟨k.1, Sparse.rising_keep (fun k => !p k) k.2⟩
  regs := fun h => by cases h
  same := fun p _ => by cases p <;> rfl

/-- The octets that a memory holds are listed in canonical form after one is written. -/
theorem Memory.wf_setOctet (s : State) (k : Nat) (b : Byte) (h : Memory.wf s = true) : Memory.wf (s.setOctet k b) = true := by
  unfold Memory.wf at h ⊢
  rw [Bool.and_eq_true, List.all_eq_true] at h ⊢
  unfold State.setOctet
  split
  · rename_i hk
    refine ⟨Sparse.rising_set _ k b h.1, fun e he => ?_⟩
    simp only [Sparse.set] at he
    show Memory.tells s e = true
    split at he
    · exact h.2 e (Sparse.mem_erase he)
    · rename_i hb
      rcases Sparse.mem_insert he with rfl | he
      · simp [Memory.tells, hb]
      · exact h.2 e he
  · rename_i hk
    refine ⟨Sparse.rising_insert k b h.1, fun e he => ?_⟩
    show Memory.tells s e = true
    rcases Sparse.mem_insert he with rfl | he
    · simp [Memory.tells, hk]
    · exact h.2 e he

theorem State.setOctet_regs (s : State) (k : Nat) (b : Byte) : (s.setOctet k b).regs = s.regs := by
  unfold State.setOctet
  split <;> rfl

theorem State.setOctet_within (s : State) (k : Nat) (b : Byte) : Within { parts := [.mem] } s (s.setOctet k b) where
  variant := by unfold State.setOctet; split <;> rfl
  pending := by unfold State.setOctet; split <;> rfl
  wf := fun h => by
    unfold State.wf at h ⊢
    rw [Bool.and_eq_true] at h ⊢
    refine ⟨Memory.wf_setOctet s k b h.1, ?_⟩
    unfold State.regsWf
    rw [State.setOctet_regs]
    exact h.2
  regs := fun _ page idx off _ => by
    unfold State.reg
    rw [State.setOctet_regs]
  same := fun p hp => by
    unfold State.setOctet
    split <;> cases p <;> first | rfl | exact absurd (by simp) hp

theorem Memory.wf_keep (s : State) (p : Nat → Bool) (h : Memory.wf s = true) :
    Memory.wf { s with mem := Sparse.keep p s.mem } = true := by
  unfold Memory.wf at h ⊢
  rw [Bool.and_eq_true, List.all_eq_true] at h ⊢
  refine ⟨Sparse.rising_keep p h.1, fun e he => h.2 e ?_⟩
  exact (List.mem_filter.mp he).1

theorem Memory.wf_loseRegion (s : State) (r : Nat) (h : Memory.wf s = true) : Memory.wf (s.loseRegion r) = true := by
  unfold Memory.wf at h ⊢
  rw [Bool.and_eq_true, List.all_eq_true] at h ⊢
  refine ⟨Sparse.rising_keep (fun k => regionOfKey k != some r) h.1, fun e he => ?_⟩
  have hm := h.2 e (List.mem_filter.mp he).1
  have hp : regionOfKey e.1 ≠ some r := by simpa using (List.mem_filter.mp he).2
  have hg : ∀ q, regionOfKey e.1 = some q → Sparse.get 0 (s.loseRegion r).lost q = Sparse.get 0 s.lost q := fun q hq =>
    Sparse.get_insert_ne 0 s.lost _ (fun hqr => hp (hqr ▸ hq))
  have hk : (s.loseRegion r).unwrittenKnown e.1 = s.unwrittenKnown e.1 := by
    unfold State.unwrittenKnown
    split
    · rename_i q hq
      rw [hg q hq]
    · rfl
  have hu : (s.loseRegion r).unwritten e.1 = s.unwritten e.1 := by
    unfold State.unwritten
    split
    · rfl
    · split
      · rename_i q hq
        rw [hg q hq]
      · rfl
  unfold Memory.tells at hm ⊢
  rw [hk, hu]
  exact hm

theorem State.loseRegion_within (s : State) (r : Nat) : Within { parts := [.mem, .lost, .freeCtr] } s (s.loseRegion r) where
  variant := rfl
  pending := rfl
  wf := fun h => by
    unfold State.wf at h ⊢
    rw [Bool.and_eq_true] at h ⊢
    exact ⟨Memory.wf_loseRegion s r h.1, h.2⟩
  regs := fun _ _ _ _ _ => rfl
  same := fun p hp => by cases p <;> first | rfl | exact absurd (by simp) hp

/-! ### Updates of parts -/

/-- An update of parts that the touch names. -/
theorem Within.of_mk {w : Touch} {s x : State}
    {a2 : Sparse Word} {a3 : Sparse (Option Initiator) } {a4 : List Commit} {a7 : Sparse Dom} {a8 : Clk} {a9 : Nat}
    {a10 : Sparse Reply} {a11 : List Access} {a12 : Bool} {a13 : Nat} {a14 : Flume} {a15 : Dram} {a16 : Flash}
    {a17 : Nand} {a18 : Tim} {a19 : Recv} {a20 : Syn} {a21 : Txa} {a22 : Wrx} {a23 : Eth} {a24 : Rtc} {a25 : Periph}
    {a26 : Tag} {a27 : Mrc} {a28 : Sec} {a29 : Pal} {a30 : Lnk} {a31 : Sparse Cpu} {a32 : Casc} {a33 : Upd}
    {a34 : Bool} {a35 : Bool} {a36 : Bool} {a37 : List (VioBank × VioLevel)} {a38 : Option Nat}
    (hx : Within w s x) (h : ∀ p, p ∉ w.parts → p.same x (State.mk
      x.variant x.regs a2 a3 a4 x.mem x.lost a7 a8 a9 a10 a11 a12 a13 a14 a15 a16 a17 a18 a19 a20 a21 a22 a23 a24 a25
      a26 a27 a28 a29 a30 a31 a32 a33 a34 a35 a36 a37 a38 x.pending) := by
      intro p hp; cases p <;> first | (exfalso; apply hp; first | decide | (simp; done)) | exact Eq.refl _) :
    Within w s (State.mk
      x.variant x.regs a2 a3 a4 x.mem x.lost a7 a8 a9 a10 a11 a12 a13 a14 a15 a16 a17 a18 a19 a20 a21 a22 a23 a24 a25
      a26 a27 a28 a29 a30 a31 a32 a33 a34 a35 a36 a37 a38 x.pending) :=
  hx.of_parts rfl rfl rfl rfl rfl h

/-! ### Optional results -/

/-- The state of an optional result, if any, follows within a touch. -/
def OptWithin (w : Touch) (s : State) (o : Option State) : Prop := ∀ t, o = some t → Within w s t

/-- The state beside an optional value, if any, follows within a touch. -/
def ReadWithin {α : Type} (w : Touch) (s : State) (o : Option (α × State)) : Prop := ∀ v t, o = some (v, t) → Within w s t

theorem OptWithin.none {w : Touch} {s : State} : OptWithin w s none := fun _ h => by cases h

theorem OptWithin.some {w : Touch} {s x : State} (h : Within w s x) : OptWithin w s (some x) := fun t ht => by
  cases ht
  exact h

theorem OptWithin.cut {w : Touch} {s x : State} {o : Option State} (h : Within w s x)
    (k : Within w s x → OptWithin w s o) : OptWithin w s o := k h

theorem OptWithin.ite {w : Touch} {s : State} {x y : Option State} {c : Prop} [Decidable c]
    (hx : OptWithin w s x) (hy : OptWithin w s y) : OptWithin w s (if c then x else y) := by
  split
  · exact hx
  · exact hy

theorem OptWithin.then {v w : Touch} {s x : State} {o : Option State} (h : OptWithin v x o) (hx : Within w s x)
    (hw : v.le w = true := by first | decide | simp [Touch.le, Touch.bus, Part.but, Part.every]) : OptWithin w s o :=
  fun t ht => (h t ht).step hx hw

theorem OptWithin.mono {v w : Touch} {s : State} {o : Option State} (h : OptWithin v s o) (hw : v.le w = true) :
    OptWithin w s o := fun t ht => (h t ht).mono hw

theorem ReadWithin.none {α : Type} {w : Touch} {s : State} : ReadWithin w s (none : Option (α × State)) :=
  fun _ _ h => by cases h

theorem ReadWithin.some {α : Type} {w : Touch} {s : State} {r : α × State} (h : Within w s r.2) : ReadWithin w s (some r) :=
  fun v t ht => by
    cases ht
    exact h

theorem ReadWithin.cut {α : Type} {w : Touch} {s x : State} {o : Option (α × State)} (h : Within w s x)
    (k : Within w s x → ReadWithin w s o) : ReadWithin w s o := k h

theorem ReadWithin.ite {α : Type} {w : Touch} {s : State} {x y : Option (α × State)} {c : Prop} [Decidable c]
    (hx : ReadWithin w s x) (hy : ReadWithin w s y) : ReadWithin w s (if c then x else y) := by
  split
  · exact hx
  · exact hy

theorem ReadWithin.then {α : Type} {v w : Touch} {s x : State} {o : Option (α × State)} (h : ReadWithin v x o)
    (hx : Within w s x) (hw : v.le w = true := by first | decide | simp [Touch.le, Touch.bus, Part.but, Part.every]) :
    ReadWithin w s o := fun a t ht => (h a t ht).step hx hw

theorem ReadWithin.mono {α : Type} {v w : Touch} {s : State} {o : Option (α × State)} (h : ReadWithin v s o)
    (hw : v.le w = true) : ReadWithin w s o := fun x t ht => (h x t ht).mono hw

end Sys2Proof.Machine
end

