-- ==== Sys2Proof/Laws/WithinCore.lean ====
section
/-! SUPPORT. The rules of `Within` for the evaluation of an instruction: its reads reach what an access of the
fabric reaches. -/

namespace Sys2Proof.Machine

/-- The state of an evaluation follows within what an access reaches. -/
def EvW (s : State) (e : Ev) : Prop := Within Touch.bus s e.s

/-- The state that a part of an instruction leaves follows within what an access reaches. -/
def ResW {α : Type} (s : State) (r : Res α) : Prop :=
  match r with
  | .ok _ e => EvW s e
  | .fault _ t => Within Touch.bus s t
  | .stall _ => True

theorem ResW.ok {α : Type} {s : State} {v : α} {e : Ev} (h : EvW s e) : ResW s (.ok v e) := h

theorem ResW.fault {α : Type} {s : State} {f : CoreFault} {t : State} (h : Within Touch.bus s t) :
    ResW s (.fault f t : Res α) := h

theorem ResW.stall {α : Type} {s : State} {d : Nat} : ResW s (.stall d : Res α) := trivial

theorem ResW.ite {α : Type} {s : State} {x y : Res α} {c : Prop} [Decidable c] (hx : ResW s x) (hy : ResW s y) :
    ResW s (if c then x else y) := by
  split
  · exact hx
  · exact hy

theorem ResW.andThen {α β : Type} {s : State} {r : Res α} {k : α → Ev → Res β} (h : ResW s r)
    (hk : ∀ v e, EvW s e → ResW s (k v e)) : ResW s (r.andThen k) := by
  unfold Res.andThen
  split
  · exact hk _ _ h
  · exact h
  · exact h

theorem EvW.mk {s t : State} {c : Core} {x : Cpu} {pc : Word} {set : List (Nat × Word)} (h : Within Touch.bus s t) :
    EvW s { s := t, c, x, pc, set } := h

/-- Locating an operand leaves the state. -/
theorem Ev.locate_state (e : Ev) (k : Nat) (o : Opnd) : (e.locate k o).2.s = e.s := by
  unfold Ev.locate
  dsimp only
  split <;> rfl

theorem EvW.locate₂ {s : State} {e : Ev} {k : Nat} {o : Opnd} (h : EvW s e) : EvW s (e.locate k o).2 := by
  unfold EvW
  rw [Ev.locate_state]
  exact h

theorem EvW.locate {s : State} {e f : Ev} {k : Nat} {o : Opnd} {l : Loc} (hl : e.locate k o = (l, f)) (h : EvW s e) :
    EvW s f := by
  have hf := EvW.locate₂ (k := k) (o := o) h
  rw [hl] at hf
  exact hf

end Sys2Proof.Machine
end

