-- ==== Sys2Proof/Laws/FrameOps.lean ====
section
/-! SUPPORT. What each operation of Machine/Ops.lean may change, and that it keeps a sound state sound. -/

namespace Sys2Proof.Machine

-- one proof at a time: the file holds many small ones
set_option Elab.async false

theorem State.setField_within (s : State) (page : Nat) (idx : Nat) (off : Nat) (hi : Nat) (lo : Nat) (v : Nat) :
    Within { pages := [page] } s (State.setField s page idx off hi lo v) := by
  unfold State.setField
  refine (State.setReg_within ..).then ?_
  exact .refl

theorem State.count_within (s : State) (page : Nat) (idx : Nat) (off : Nat) (hi : Nat) (lo : Nat) (k : Nat) :
    Within { pages := [page] } s (State.count s page idx off hi lo k) := by
  unfold State.count
  refine (State.setReg_within ..).then ?_
  exact .refl

theorem State.fresh_within (s : State) : Within { parts := [.freeCtr] } s (State.fresh s).2 := by
  unfold State.fresh
  dsimp only
  refine Within.of_mk ?_
  exact .refl

theorem State.setDom_within (s : State) (d : Nat) (x : Dom) : Within { parts := [.doms] } s (State.setDom s d x) := by
  unfold State.setDom
  refine Within.of_mk ?_
  exact .refl

theorem State.wakeOne_within (s : State) (d : Nat) : Within { parts := [.doms] } s (State.wakeOne s d) := by
  unfold State.wakeOne
  refine Within.ite ?_ ?_
  · exact .refl
  · refine (State.setDom_within ..).then ?_
    exact .refl

theorem State.wake_within (s : State) (d : Nat) : Within { parts := [.doms] } s (State.wake s d) := by
  unfold State.wake
  refine Within.foldl (fun s1 a2 h3 => ?_) ?_
  · extract_lets +onlyGivenNames s4
    refine Within.ite ?_ ?_
    · refine (State.wakeOne_within ..).then ?_
      exact h3
    · exact h3
  · refine (State.wakeOne_within ..).then ?_
    exact .refl

theorem State.rest_within (s : State) (d : Nat) : Within { parts := [.doms] } s (State.rest s d) := by
  unfold State.rest
  extract_lets +onlyGivenNames s1
  refine Within.ite ?_ ?_
  · refine (State.setDom_within ..).then ?_
    exact .refl
  · exact .refl

theorem State.touch_within (s : State) (d : Nat) : Within { parts := [.doms] } s (State.touch s d) := by
  unfold State.touch
  refine Within.ite ?_ ?_
  · exact .refl
  · refine (State.setDom_within ..).then ?_
    exact .refl

theorem State.interrupt_within (s : State) (page : Nat) (mask : Word) :
    Within { pages := [page] } s (State.interrupt s page mask) := by
  unfold State.interrupt
  refine (State.setReg_within ..).then ?_
  exact .refl

theorem State.pulse_within (s : State) (p : Nat) : Within { parts := [.mrc] } s (State.pulse s p) := by
  unfold State.pulse
  refine Within.of_mk ?_
  exact .refl

theorem State.event_within (s : State) (page : Nat) (b : Nat) :
    Within { parts := [.mrc], pages := [page] } s (State.event s page b) := by
  unfold State.event
  extract_lets +onlyGivenNames s1
  refine Within.cut (x := s1) ?_ (fun h2 => ?_)
  · unfold s1
    refine (State.interrupt_within ..).then ?_
    exact .refl
  clear_value s1
  split
  · rename_i v3 v4 v5
    refine (State.pulse_within ..).then ?_
    exact h2
  · rename_i v6 v7
    exact h2

theorem State.raise_within (s : State) (page : Nat) (ini : Initiator) (off : Nat) (detail : Nat) (code : Nat) :
    Within { parts := [.mrc], pages := [page] } s (State.raise s page ini off detail code) := by
  unfold State.raise
  extract_lets +onlyGivenNames s1
  extract_lets +onlyGivenNames s2
  refine Within.cut (x := s2) ?_ (fun h3 => ?_)
  · unfold s2
    refine (State.setReg_within ..).then ?_
    exact .refl
  clear_value s2
  extract_lets +onlyGivenNames s4
  refine Within.cut (x := s4) ?_ (fun h5 => ?_)
  · unfold s4
    refine (State.setReg_within ..).then ?_
    exact h3
  clear_value s4
  refine (State.event_within ..).then ?_
  exact h5

theorem State.setClaim_within (s : State) (page : Nat) (c : Option Initiator) :
    Within { parts := [.claims] } s (State.setClaim s page c) := by
  unfold State.setClaim
  refine Within.of_mk ?_
  exact .refl

theorem State.releaseClaim_within (s : State) (page : Nat) :
    Within { parts := [.claims] } s (State.releaseClaim s page) := by
  unfold State.releaseClaim
  refine Within.ite ?_ ?_
  · exact .refl
  · refine (State.setClaim_within ..).then ?_
    exact .refl

theorem State.loseStaged_within (s : State) (page : Nat) (ini : Initiator) :
    Within { parts := [.staged, .claims, .mrc], pages := [page] } s (State.loseStaged s page ini) := by
  unfold State.loseStaged
  extract_lets +onlyGivenNames s1
  refine Within.ite ?_ ?_
  · extract_lets +onlyGivenNames s2
    refine Within.cut (x := s2) ?_ (fun h3 => ?_)
    · unfold s2
      refine Within.of_mk ?_
      exact .refl
    clear_value s2
    refine (State.raise_within ..).then ?_
    refine (State.releaseClaim_within ..).then ?_
    exact h3
  · exact .refl

end Sys2Proof.Machine
end

