-- ==== Sys2Proof/Laws/FrameDramMap.lean ====
section
/-! SUPPORT. What each operation of Machine/DramMap.lean may change, and that it keeps a sound state sound. -/

namespace Sys2Proof.Machine

-- one proof at a time: the file holds many small ones
set_option Elab.async false

theorem State.setRk_within (s : State) (r : Nat) (st : Nat) (partner : Nat) :
    Within { pages := [Pg.drc] } s (State.setRk s r st partner) := by
  unfold State.setRk
  refine (State.setReg_within ..).then ?_
  exact .refl

theorem State.setCh_within (s : State) (ch : Nat) (st : Nat) (fail : Nat) :
    Within { pages := [Pg.drc] } s (State.setCh s ch st fail) := by
  unfold State.setCh
  refine (State.setField_within ..).then ?_
  refine (State.setField_within ..).then ?_
  exact .refl

theorem State.report_within (s : State) (r : Report) : Within { parts := [.flm] } s (State.report s r) := by
  unfold State.report
  refine Within.of_mk ?_
  exact .refl

theorem State.drcReport_within (s : State) (event : Nat) (rank : Nat) (status : Nat) (w6 : Word) (w7 : Word) :
    Within { parts := [.flm] } s (State.drcReport s event rank status w6 w7) := by
  unfold State.drcReport
  extract_lets +onlyGivenNames s1
  refine Within.ite ?_ ?_
  · refine (State.report_within ..).then ?_
    exact .refl
  · exact .refl

theorem State.migStart_within (s : State) (src : Nat) (t : Nat) (cause : Nat) :
    Within { parts := [.flm, .drc, .mrc], pages := [Pg.drc] } s (State.migStart s src t cause) := by
  unfold State.migStart
  extract_lets +onlyGivenNames s1
  refine Within.cut (x := s1) ?_ (fun h2 => ?_)
  · unfold s1
    refine (State.setRk_within ..).then ?_
    refine (State.setRk_within ..).then ?_
    exact .refl
  clear_value s1
  extract_lets +onlyGivenNames s3
  refine Within.cut (x := s3) ?_ (fun h4 => ?_)
  · unfold s3
    refine (State.setReg_within ..).then ?_
    exact h2
  clear_value s3
  extract_lets +onlyGivenNames s5
  extract_lets +onlyGivenNames s6
  refine Within.cut (x := s6) ?_ (fun h7 => ?_)
  · unfold s6
    refine Within.of_mk ?_
    exact h4
  clear_value s6
  refine (State.drcReport_within ..).then ?_
  refine (State.event_within ..).then ?_
  exact h7

theorem State.migAuto_within (s : State) (src : Nat) (cause : Nat) :
    Within { parts := [.flm, .drc, .mrc], pages := [Pg.drc] } s (State.migAuto s src cause) := by
  unfold State.migAuto
  refine Within.ite ?_ ?_
  · refine Within.ite ?_ ?_
    · refine (State.drcReport_within ..).then ?_
      exact .refl
    · refine Within.ite ?_ ?_
      · exact .refl
      · split
        · rename_i v1 v2 v3
          refine Within.ite ?_ ?_
          · refine (State.migStart_within ..).then ?_
            exact .refl
          · refine (State.drcReport_within ..).then ?_
            exact .refl
        · rename_i v4 v5
          refine (State.drcReport_within ..).then ?_
          exact .refl
  · exact .refl

theorem State.migStop_within (s : State) :
    Within { parts := [.flm, .drc, .mrc], pages := [Pg.drc] } s (State.migStop s) := by
  unfold State.migStop
  split
  · rename_i v1 v2
    exact .refl
  · rename_i v3 v4 v5 v6
    extract_lets +onlyGivenNames s7
    extract_lets +onlyGivenNames s8
    refine Within.cut (x := s8) ?_ (fun h9 => ?_)
    · unfold s8
      refine (State.setRk_within ..).then ?_
      refine (State.setRk_within ..).then ?_
      exact .refl
    clear_value s8
    extract_lets +onlyGivenNames s10
    refine Within.cut (x := s10) ?_ (fun h11 => ?_)
    · unfold s10
      refine (State.setReg_within ..).then ?_
      exact h9
    clear_value s10
    extract_lets +onlyGivenNames s12
    extract_lets +onlyGivenNames s13
    refine Within.cut (x := s13) ?_ (fun h14 => ?_)
    · unfold s13
      refine Within.of_mk ?_
      exact h11
    clear_value s13
    refine (State.drcReport_within ..).then ?_
    refine (State.event_within ..).then ?_
    exact h14

theorem State.setWordErr_within (s : State) (r : Nat) (d : Nat) (e : WordErr) :
    Within { parts := [.drc] } s (State.setWordErr s r d e) := by
  unfold State.setWordErr
  refine Within.of_mk ?_
  exact .refl

theorem State.setFlashErr_within (s : State) (ofs : Nat) (e : WordErr) :
    Within { parts := [.flc] } s (State.setFlashErr s ofs e) := by
  unfold State.setFlashErr
  refine Within.of_mk ?_
  exact .refl

theorem State.applyFlips_within (s : State) (fs : List Flip) :
    Within { parts := [.drc, .flc] } s (State.applyFlips s fs) := by
  unfold State.applyFlips
  refine Within.foldl (fun s1 a2 h3 => ?_) ?_
  · split
    · rename_i v4 v5 v6
      refine (State.setWordErr_within ..).then ?_
      exact h3
    · rename_i v7 v8
      refine (State.setFlashErr_within ..).then ?_
      exact h3
  · exact .refl

theorem State.errWord_within (s : State) (a : Nat) (kind : Nat) (rank : Nat) (syn : BitVec 8) :
    Within { pages := [Pg.drc] } s (State.errWord s a kind rank syn) := by
  unfold State.errWord
  refine (State.setReg_within ..).then ?_
  refine (State.setReg_within ..).then ?_
  exact .refl

theorem State.noteCorrected_within (s : State) (r : Nat) (d : Nat) (a : Nat) (syn : BitVec 8) (back : Bool) :
    Within { parts := [.flm, .drc, .mrc], pages := [Pg.drc] } s (State.noteCorrected s r d a syn back) := by
  unfold State.noteCorrected
  extract_lets +onlyGivenNames s1
  refine Within.cut (x := s1) ?_ (fun h2 => ?_)
  · unfold s1
    refine (State.count_within ..).then ?_
    exact .refl
  clear_value s1
  extract_lets +onlyGivenNames s3
  refine Within.cut (x := s3) ?_ (fun h4 => ?_)
  · unfold s3
    refine (State.count_within ..).then ?_
    exact h2
  clear_value s3
  extract_lets +onlyGivenNames s5
  refine Within.cut (x := s5) ?_ (fun h6 => ?_)
  · unfold s5
    refine Within.ite ?_ ?_
    · refine (State.setWordErr_within ..).then ?_
      exact h4
    · exact h4
  clear_value s5
  extract_lets +onlyGivenNames s7
  extract_lets +onlyGivenNames s8
  refine Within.ite ?_ ?_
  · extract_lets +onlyGivenNames s9
    extract_lets +onlyGivenNames s10
    refine Within.cut (x := s10) ?_ (fun h11 => ?_)
    · unfold s10
      refine Within.of_mk ?_
      exact h6
    clear_value s10
    extract_lets +onlyGivenNames s12
    refine Within.cut (x := s12) ?_ (fun h13 => ?_)
    · unfold s12
      refine (State.event_within ..).then ?_
      refine (State.errWord_within ..).then ?_
      exact h11
    clear_value s12
    refine (State.migAuto_within ..).then ?_
    refine (State.drcReport_within ..).then ?_
    exact h13
  · exact h6

theorem State.noteUncorrectable_within (s : State) (r : Nat) (a : Nat) (kind : Nat) (syn : BitVec 8) :
    Within { parts := [.flm, .drc, .mrc], pages := [Pg.drc] } s (State.noteUncorrectable s r a kind syn) := by
  unfold State.noteUncorrectable
  extract_lets +onlyGivenNames s1
  refine Within.cut (x := s1) ?_ (fun h2 => ?_)
  · unfold s1
    refine (State.count_within ..).then ?_
    exact .refl
  clear_value s1
  extract_lets +onlyGivenNames s3
  refine Within.cut (x := s3) ?_ (fun h4 => ?_)
  · unfold s3
    refine (State.event_within ..).then ?_
    refine (State.errWord_within ..).then ?_
    exact h2
  clear_value s3
  extract_lets +onlyGivenNames s5
  refine Within.cut (x := s5) ?_ (fun h6 => ?_)
  · unfold s5
    refine (State.drcReport_within ..).then ?_
    exact h4
  clear_value s5
  refine (State.migAuto_within ..).then ?_
  exact h6

theorem State.openRow_within (s : State) (r : Nat) (d : Nat) : Within { parts := [.drc] } s (State.openRow s r d) := by
  unfold State.openRow
  extract_lets +onlyGivenNames s1
  extract_lets +onlyGivenNames s2
  extract_lets +onlyGivenNames s3
  refine Within.of_mk ?_
  exact .refl

theorem State.checkWord_within (s : State) (c : DramCfg) (a : Nat) (scrub : Bool) (e : EccSum) :
    Within { parts := [.flm, .drc, .mrc], pages := [Pg.drc] } s (State.checkWord s c a scrub e).1 := by
  unfold State.checkWord
  split
  rename_i v1 v2 v3 v4
  extract_lets +onlyGivenNames s5
  extract_lets +onlyGivenNames s6
  extract_lets +onlyGivenNames s7
  refine Within.cut (x := s7) ?_ (fun h8 => ?_)
  · unfold s7
    refine (State.openRow_within ..).then ?_
    exact .refl
  clear_value s7
  split
  · rename_i v9 v10
    dsimp only
    exact h8
  · rename_i v11 v12 v13
    dsimp only
    refine (State.noteCorrected_within ..).then ?_
    exact h8
  · rename_i v14 v15 v16
    dsimp only
    refine (State.noteUncorrectable_within ..).then ?_
    exact h8
  · rename_i v17 v18
    dsimp only
    refine (State.noteUncorrectable_within ..).then ?_
    exact h8

theorem State.checkWords_within (s : State) (ws : List Nat) (scrub : Bool) :
    Within { parts := [.flm, .drc, .mrc], pages := [Pg.drc] } s (State.checkWords s ws scrub).1 := by
  unfold State.checkWords
  refine Within.foldl₁ (fun s1 a2 h3 => ?_) ?_
  · refine (State.checkWord_within ..).then ?_
    exact h3
  · dsimp only
    exact .refl

theorem State.setDramOctet_within (s : State) (a : Nat) (b : Byte) :
    Within { parts := [.mem] } s (State.setDramOctet s a b) := by
  unfold State.setDramOctet
  split
  rename_i v1 v2 v3 v4
  refine Within.foldl (fun s5 a6 h7 => ?_) ?_
  · refine (State.setOctet_within ..).then ?_
    exact h7
  · exact .refl

theorem State.freshWord_within (s : State) (a : Nat) (e : WordErr) :
    Within { parts := [.drc] } s (State.freshWord s a e) := by
  unfold State.freshWord
  split
  rename_i v1 v2 v3 v4
  refine Within.foldl (fun s5 a6 h7 => ?_) ?_
  · refine (State.setWordErr_within ..).then ?_
    refine (State.openRow_within ..).then ?_
    exact h7
  · exact .refl

theorem State.writeWord_within (s : State) (a : Nat) (n : Nat) (w : Nat) (e : EccSum) :
    Within { parts := [.flm, .drc, .mrc], pages := [Pg.drc] } s (State.writeWord s a n w e).1 := by
  unfold State.writeWord
  refine Within.ite₁ ?_ ?_
  · split
    rename_i v1 v2 v3 v4
    dsimp only
    refine (State.freshWord_within ..).then ?_
    exact .refl
  · split
    rename_i v5 v6 v7 v8
    refine Within.ite₁ ?_ ?_
    · dsimp only
      refine (State.freshWord_within ..).then ?_
      refine Within.fst v8 ?_
      refine (State.checkWord_within ..).then ?_
      exact .refl
    · dsimp only
      refine (State.freshWord_within ..).then ?_
      refine Within.fst v8 ?_
      refine (State.checkWord_within ..).then ?_
      exact .refl

theorem State.writeDram_within (s : State) (a : Nat) (bs : List Byte) :
    Within { parts := [.mem, .flm, .drc, .mrc], pages := [Pg.drc] } s (State.writeDram s a bs).1 := by
  unfold State.writeDram
  split
  rename_i v1 v2 v3 v4
  dsimp only
  refine Within.foldl (fun s5 a6 h7 => ?_) ?_
  · refine (State.setDramOctet_within ..).then ?_
    exact h7
  · refine Within.fst v4 ?_
    refine Within.foldl₁ (fun s8 a9 h10 => ?_) ?_
    · refine (State.writeWord_within ..).then ?_
      exact h10
    · dsimp only
      exact .refl

end Sys2Proof.Machine
end

