-- ==== Sys2Proof/Laws/FrameMemory.lean ====
section
/-! SUPPORT. What each operation of Machine/Memory.lean may change, and that it keeps a sound state sound. -/

namespace Sys2Proof.Machine

-- one proof at a time: the file holds many small ones
set_option Elab.async false

theorem State.flashAnswer_within (s : State) (ofs : Nat) :
    Within { parts := [.freeCtr] } s (State.flashAnswer s ofs).2 := by
  unfold State.flashAnswer
  refine Within.ite₂ ?_ ?_
  · split
    rename_i v1 v2 v3 v4
    dsimp only
    refine Within.snd v4 ?_
    refine (State.fresh_within ..).then ?_
    exact .refl
  · dsimp only
    exact .refl

theorem State.checkMem_within (s : State) (w : Nat) (scrub : Bool) (e : EccSum) :
    Within { parts := [.doms, .freeCtr, .flm, .drc, .mrc], pages := [Pg.drc, Pg.flc] } s (State.checkMem s w scrub e).1 := by
  unfold State.checkMem
  split
  · rename_i v1 v2
    split
    rename_i v3 v4 v5 v6
    dsimp only
    refine Within.fst v6 ?_
    refine (State.checkWord_within ..).then ?_
    exact .refl
  · rename_i v7 v8
    split
    · rename_i v9 v10 v11
      dsimp only
      refine Within.snd v11 ?_
      refine (State.flashAnswer_within ..).then ?_
      exact .refl
    · rename_i v12 v13 v14 v15
      dsimp only
      refine (State.count_within ..).then ?_
      refine Within.snd v15 ?_
      refine (State.flashAnswer_within ..).then ?_
      exact .refl
    · rename_i v16 v17 v18 v19 v20 v21
      extract_lets +onlyGivenNames s22
      refine Within.cut (x := s22) ?_ (fun h23 => ?_)
      · unfold s22
        refine (State.count_within ..).then ?_
        refine Within.snd v21 ?_
        refine (State.flashAnswer_within ..).then ?_
        exact .refl
      clear_value s22
      dsimp only
      refine (State.event_within ..).then ?_
      refine (State.setReg_within ..).then ?_
      exact h23
  · rename_i v24 v25 v26
    dsimp only
    refine (State.touch_within ..).then ?_
    exact .refl
  · rename_i v27 v28 v29 v30
    dsimp only
    exact .refl

theorem State.cacheDrop_within (s : State) (a : Nat) (n : Nat) : Within { parts := [.cpus] } s (State.cacheDrop s a n) := by
  unfold State.cacheDrop
  refine Within.of_mk ?_
  exact .refl

theorem State.notReady_within (s : State) {α : Type} (m : MemStatus) :
    Within { parts := [.doms] } s (s.notReady m : State × MemAns α).1 := by
  unfold State.notReady
  split
  · exact (State.wake_within ..).then .refl
  · exact .refl

theorem State.unitRead_within (s : State) (a n : Nat) (scrub : Bool) :
    Within { parts := [.doms, .freeCtr, .flm, .drc, .mrc], pages := [Pg.drc, Pg.flc] } s (s.unitRead a n scrub).1 := by
  unfold State.unitRead
  split
  · exact Within.foldl₁ (fun p w h => (State.checkMem_within ..).then h) .refl
  · exact (State.notReady_within ..).then .refl

theorem State.putOctet_within (s : State) (a : Nat) (b : Byte) : Within { parts := [.mem] } s (State.putOctet s a b) := by
  unfold State.putOctet
  split
  · rename_i v1 v2 v3
    refine (State.setOctet_within ..).then ?_
    exact .refl
  · rename_i v4 v5
    refine (State.setOctet_within ..).then ?_
    exact .refl
  · rename_i v6 v7 v8
    exact .refl

theorem State.putOctets_within (s : State) (a : Nat) (bs : List Byte) :
    Within { parts := [.mem, .doms, .flm, .drc, .mrc], pages := [Pg.drc] } s (State.putOctets s a bs).1 := by
  unfold State.putOctets
  refine Within.ite₁ ?_ ?_
  · refine (State.writeDram_within ..).then ?_
    exact .refl
  · extract_lets +onlyGivenNames s1
    refine Within.cut (x := s1) ?_ (fun h2 => ?_)
    · unfold s1
      split
      · rename_i v3 v4 v5
        refine (State.touch_within ..).then ?_
        exact .refl
      · rename_i v6 v7
        exact .refl
    clear_value s1
    dsimp only
    refine Within.foldl (fun s8 a9 h10 => ?_) ?_
    · refine (State.putOctet_within ..).then ?_
      exact h10
    · exact h2

theorem State.unitWrite_within (s : State) (a : Nat) (bs : List Byte) :
    Within { parts := [.mem, .doms, .flm, .drc, .mrc], pages := [Pg.drc] } s (s.unitWrite a bs).1 := by
  unfold State.unitWrite
  split
  · exact (State.putOctets_within ..).then .refl
  · exact (State.notReady_within ..).then .refl

theorem State.iniRead_within (s : State) (ini : Initiator) (a : Nat) (n : Nat) :
    Within { parts := [.doms, .freeCtr, .flm, .drc, .mrc], pages := [Pg.pwr, Pg.drc, Pg.flc] } s (State.iniRead s ini a n).1 := by
  unfold State.iniRead
  split
  · rename_i v1 v2 v3
    dsimp only
    refine (State.raise_within ..).then ?_
    exact .refl
  · rename_i v4 v5
    refine (State.unitRead_within ..).then ?_
    exact .refl

theorem State.iniWrite_within (s : State) (ini : Initiator) (a : Nat) (bs : List Byte) :
    Within { parts := [.mem, .doms, .flm, .drc, .mrc], pages := [Pg.pwr, Pg.drc] } s (State.iniWrite s ini a bs).1 := by
  unfold State.iniWrite
  split
  · rename_i v1 v2 v3
    dsimp only
    refine (State.raise_within ..).then ?_
    exact .refl
  · rename_i v4 v5
    refine (State.unitWrite_within ..).then ?_
    exact .refl

end Sys2Proof.Machine
end

