-- ==== Sys2Proof/Laws/FrameGate.lean ====
section
/-! SUPPORT. What each operation of Machine/Gate.lean may change, and that it keeps a sound state sound. -/

namespace Sys2Proof.Machine

-- one proof at a time: the file holds many small ones
set_option Elab.async false

theorem State.setReply_within (s : State) (ini : Initiator) (data : Word) (error : Bool) :
    Within { parts := [.replies] } s (State.setReply s ini data error) := by
  unfold State.setReply
  refine Within.of_mk ?_
  exact .refl

theorem State.busError_within (s : State) (ini : Initiator) (addr : Nat) :
    Within { parts := [.replies, .debugErr, .mrc], pages := [Pg.sec] } s (State.busError s ini addr) := by
  unfold State.busError
  extract_lets +onlyGivenNames s1
  refine Within.cut (x := s1) ?_ (fun h2 => ?_)
  · unfold s1
    refine (State.setReply_within ..).then ?_
    exact .refl
  clear_value s1
  split
  · rename_i v3
    refine (State.raise_within ..).then ?_
    exact h2
  · rename_i v4
    refine Within.of_mk ?_
    exact h2
  · rename_i v5 v6 v7
    exact h2

theorem State.stallAccess_within (s : State) (a : Access) (d : Nat) :
    Within { parts := [.doms, .stalls] } s (State.stallAccess s a d) := by
  unfold State.stallAccess
  extract_lets +onlyGivenNames s1
  refine Within.cut (x := s1) ?_ (fun h2 => ?_)
  · unfold s1
    refine (State.wake_within ..).then ?_
    exact .refl
  clear_value s1
  refine Within.of_mk ?_
  exact h2

theorem State.pageAccess_within {w : Touch} {s x : State} {ini : Initiator} {page off : Nat} {write : Bool}
    {eff : State → Word × State} (hx : Within w s x) (hk : ∀ y, Within w s y → Within w s (eff y).2)
    (hw : Touch.le { parts := [.doms, .mrc], pages := [page] } w = true := by first | decide | simp [Touch.le, Touch.bus, Part.but, Part.every]) :
    Within w s (x.pageAccess ini page off write eff).1 := by
  have hd : ∀ {y z : State}, Within { parts := [.doms] } y z → Within w s y → Within w s z := fun h hy =>
    (h.mono (by simp [Touch.le])).step hy hw
  have hr : ∀ {y z : State}, Within { parts := [.mrc], pages := [page] } y z → Within w s y → Within w s z := fun h hy =>
    (h.mono (by simp [Touch.le])).step hy hw
  unfold State.pageAccess
  split
  · refine hk _ ?_
    split
    · exact hx
    · exact hd (State.touch_within ..) hx
  · exact hx
  · exact hx
  · exact hr (State.raise_within ..) hx
  · exact hd (State.wake_within ..) hx

theorem State.deliver_within {w : Touch} {s : State} {a : Access} {r : State × BusAns} (hx : Within w s r.1)
    (hw : Touch.le { parts := [.doms, .replies, .stalls, .debugErr, .mrc], pages := [Pg.sec] } w = true := by
      first | decide | simp [Touch.le, Touch.bus, Part.but, Part.every]) : Within w s (State.deliver a r) := by
  have hs : ∀ {v : Touch} {y z : State}, Within v y z →
      v.le { parts := [.doms, .replies, .stalls, .debugErr, .mrc], pages := [Pg.sec] } = true →
      Within w s y → Within w s z := fun h hv hy => (h.mono hv).step hy hw
  unfold State.deliver
  split
  · exact hs (State.setReply_within ..) (by decide) hx
  · exact hs (State.busError_within ..) (by decide) hx
  · exact hs (State.stallAccess_within ..) (by decide) hx

theorem State.pageWrite_within {w : Touch} {s x : State} {ini : Initiator} {page off : Nat} {v : Word}
    {eff : State → State} (hx : Within w s x) (hk : ∀ y, Within w s y → Within w s (eff y))
    (hw : Touch.le { parts := [.doms, .replies, .stalls, .debugErr, .mrc], pages := [page, Pg.sec] } w = true := by
      first | decide | simp [Touch.le, Touch.bus, Part.but, Part.every]) : Within w s (x.pageWrite ini page off v eff) := by
  unfold State.pageWrite
  have h := Touch.le_trans (u := { parts := [.doms, .mrc], pages := [page] }) (by simp [Touch.le]) hw
  refine State.deliver_within (State.pageAccess_within hx (fun y hy => hk y hy) h) ?_
  exact Touch.le_trans (by simp [Touch.le]) hw

theorem State.pageRead_within {w : Touch} {s x : State} {ini : Initiator} {page off : Nat}
    {eff : State → Word × State} (hx : Within w s x) (hk : ∀ y, Within w s y → Within w s (eff y).2)
    (hw : Touch.le { parts := [.doms, .replies, .stalls, .debugErr, .mrc], pages := [page, Pg.sec] } w = true := by
      first | decide | simp [Touch.le, Touch.bus, Part.but, Part.every]) : Within w s (x.pageRead ini page off eff) := by
  unfold State.pageRead
  have h := Touch.le_trans (u := { parts := [.doms, .mrc], pages := [page] }) (by simp [Touch.le]) hw
  refine State.deliver_within (State.pageAccess_within hx hk h) ?_
  exact Touch.le_trans (by simp [Touch.le]) hw

theorem State.lockedErr_within (s : State) (ini : Initiator) (page : Nat) (off : Nat) :
    Within { parts := [.mrc], pages := [page] } s (State.lockedErr s ini page off) := by
  unfold State.lockedErr
  refine (State.raise_within ..).then ?_
  exact .refl

theorem State.plainWrite_within (s : State) (ini : Initiator) (page : Nat) (idx : Nat) (off : Nat) (v : Word) :
    Within { parts := [.mrc], pages := [page] } s (State.plainWrite s ini page idx off v) := by
  unfold State.plainWrite
  split
  · rename_i v1 v2
    exact .refl
  · rename_i v3 v4 v5
    refine Within.ite ?_ ?_
    · refine (State.lockedErr_within ..).then ?_
      exact .refl
    · extract_lets +onlyGivenNames s6
      refine Within.cut (x := s6) ?_ (fun h7 => ?_)
      · unfold s6
        refine (State.setReg_within ..).then ?_
        exact .refl
      clear_value s6
      refine Within.ite ?_ ?_
      · refine (State.raise_within ..).then ?_
        exact h7
      · exact h7

theorem State.stageWrite_within (s : State) (ini : Initiator) (page : Nat) (off : Nat) (v : Word) :
    Within { parts := [.staged, .claims, .mrc], pages := [page] } s (State.stageWrite s ini page off v) := by
  unfold State.stageWrite
  extract_lets +onlyGivenNames s1
  split
  · rename_i v2 v3
    exact .refl
  · rename_i v4 v5 v6
    refine Within.ite ?_ ?_
    · refine (State.lockedErr_within ..).then ?_
      exact .refl
    · refine Within.ite ?_ ?_
      · refine (State.raise_within ..).then ?_
        exact .refl
      · refine Within.ite ?_ ?_
        · refine (State.raise_within ..).then ?_
          exact .refl
        · refine Within.ite ?_ ?_
          · refine (State.raise_within ..).then ?_
            exact .refl
          · extract_lets +onlyGivenNames s7
            refine Within.cut (x := s7) ?_ (fun h8 => ?_)
            · unfold s7
              refine (State.setClaim_within ..).then ?_
              exact .refl
            clear_value s7
            extract_lets +onlyGivenNames s9
            refine Within.cut (x := s9) ?_ (fun h10 => ?_)
            · unfold s9
              refine Within.of_mk ?_
              exact h8
            clear_value s9
            refine Within.ite ?_ ?_
            · refine (State.raise_within ..).then ?_
              exact h10
            · exact h10

theorem State.refuseCommit_within (s : State) (ini : Initiator) (page : Nat) (off : Nat) (detail : Nat) (code : Nat) :
    Within { parts := [.mrc], pages := [page] } s (State.refuseCommit s ini page off detail code) := by
  unfold State.refuseCommit
  refine (State.raise_within ..).then ?_
  refine (State.setField_within ..).then ?_
  exact .refl

theorem State.bumpGen_within (s : State) (page : Nat) : Within { pages := [page] } s (State.bumpGen s page) := by
  unfold State.bumpGen
  refine (State.setReg_within ..).then ?_
  exact .refl

theorem State.commit_within (s : State) (ini : Initiator) (page : Nat) (v : Word) (agree : Mismatch) :
    Within { parts := [.commits, .mrc], pages := [page] } s (State.commit s ini page v agree) := by
  unfold State.commit
  extract_lets +onlyGivenNames s1
  extract_lets +onlyGivenNames s2
  refine Within.ite ?_ ?_
  · refine (State.refuseCommit_within ..).then ?_
    exact .refl
  · refine Within.ite ?_ ?_
    · refine (State.refuseCommit_within ..).then ?_
      exact .refl
    · refine Within.ite ?_ ?_
      · refine (State.refuseCommit_within ..).then ?_
        exact .refl
      · refine Within.ite ?_ ?_
        · refine (State.refuseCommit_within ..).then ?_
          exact .refl
        · refine Within.ite ?_ ?_
          · refine (State.event_within ..).then ?_
            refine (State.setField_within ..).then ?_
            exact .refl
          · split
            · rename_i v3 v4 v5
              refine (State.refuseCommit_within ..).then ?_
              exact .refl
            · rename_i v6
              extract_lets +onlyGivenNames s7
              refine Within.cut (x := s7) ?_ (fun h8 => ?_)
              · unfold s7
                refine (State.setReg_within ..).then ?_
                exact .refl
              clear_value s7
              refine Within.of_mk ?_
              exact h8

theorem State.discard_within (s : State) (ini : Initiator) (page : Nat) (v : Word) :
    Within { parts := [.staged, .claims, .mrc], pages := [page] } s (State.discard s ini page v) := by
  unfold State.discard
  extract_lets +onlyGivenNames s1
  refine Within.ite ?_ ?_
  · refine (State.raise_within ..).then ?_
    exact .refl
  · refine Within.ite ?_ ?_
    · refine (State.raise_within ..).then ?_
      exact .refl
    · refine (State.releaseClaim_within ..).then ?_
      refine Within.of_mk ?_
      exact .refl

theorem State.commitWrite_within (s : State) (ini : Initiator) (page : Nat) (v : Word) (agree : Mismatch) :
    Within { parts := [.staged, .claims, .commits, .mrc], pages := [page] } s (State.commitWrite s ini page v agree) := by
  unfold State.commitWrite
  extract_lets +onlyGivenNames s1
  extract_lets +onlyGivenNames s2
  refine Within.ite ?_ ?_
  · refine (State.raise_within ..).then ?_
    refine Within.ite ?_ ?_
    · refine (State.setField_within ..).then ?_
      exact .refl
    · exact .refl
  · refine Within.ite ?_ ?_
    · refine (State.raise_within ..).then ?_
      exact .refl
    · refine Within.ite ?_ ?_
      · refine (State.discard_within ..).then ?_
        exact .refl
      · refine Within.ite ?_ ?_
        · refine (State.commit_within ..).then ?_
          exact .refl
        · exact .refl

theorem State.switchCommit_within (s : State) (c : Commit) :
    Within { parts := [.staged, .claims, .commits, .mrc], all := true } s (State.switchCommit s c) := by
  unfold State.switchCommit
  extract_lets +onlyGivenNames s1
  extract_lets +onlyGivenNames s2
  extract_lets +onlyGivenNames s3
  refine Within.cut (x := s3) ?_ (fun h4 => ?_)
  · unfold s3
    refine Within.foldl (fun s5 a6 h7 => ?_) ?_
    · refine (State.setReg_within ..).then ?_
      exact h7
    · exact .refl
  clear_value s3
  extract_lets +onlyGivenNames s8
  refine Within.cut (x := s8) ?_ (fun h9 => ?_)
  · unfold s8
    refine Within.of_mk ?_
    exact h4
  clear_value s8
  extract_lets +onlyGivenNames s10
  refine Within.cut (x := s10) ?_ (fun h11 => ?_)
  · unfold s10
    refine (State.setField_within ..).then ?_
    refine (State.bumpGen_within ..).then ?_
    exact h9
  clear_value s10
  refine (State.releaseClaim_within ..).then ?_
  refine (State.event_within ..).then ?_
  exact h11

theorem State.lockWrite_within (s : State) (ini : Initiator) (page : Nat) (v : Word) :
    Within { parts := [.mrc], pages := [page] } s (State.lockWrite s ini page v) := by
  unfold State.lockWrite
  extract_lets +onlyGivenNames s1
  extract_lets +onlyGivenNames s2
  refine Within.ite ?_ ?_
  · refine Within.ite ?_ ?_
    · refine (State.raise_within ..).then ?_
      exact .refl
    · refine (State.setReg_within ..).then ?_
      exact .refl
  · refine Within.ite ?_ ?_
    · refine Within.ite ?_ ?_
      · refine (State.setReg_within ..).then ?_
        exact .refl
      · refine (State.raise_within ..).then ?_
        exact .refl
    · refine (State.raise_within ..).then ?_
      exact .refl

theorem State.chselWrite_within (s : State) (ini : Initiator) (page : Nat) (v : Word) :
    Within { parts := [.mrc], pages := [page] } s (State.chselWrite s ini page v) := by
  unfold State.chselWrite
  extract_lets +onlyGivenNames s1
  refine Within.ite ?_ ?_
  · refine (State.raise_within ..).then ?_
    exact .refl
  · refine (State.setReg_within ..).then ?_
    exact .refl

theorem State.intClear_within (s : State) (page : Nat) (mask : Word) (events : Word) :
    Within { pages := [page] } s (State.intClear s page mask events) := by
  unfold State.intClear
  refine (State.setReg_within ..).then ?_
  exact .refl

theorem State.intSet_within (s : State) (page : Nat) (mask : Word) :
    Within { pages := [page] } s (State.intSet s page mask) := by
  unfold State.intSet
  extract_lets +onlyGivenNames s1
  refine Within.ite ?_ ?_
  · exact .refl
  · refine (State.interrupt_within ..).then ?_
    exact .refl

theorem State.errClear_within (s : State) (page : Nat) (v : Word) :
    Within { pages := [page] } s (State.errClear s page v) := by
  unfold State.errClear
  refine (State.setReg_within ..).then ?_
  exact .refl

end Sys2Proof.Machine
end

