-- ==== Sys2Proof/Laws/FrameFlume.lean ====
section
/-! SUPPORT. What each operation of Machine/Flume.lean may change, and that it keeps a sound state sound. -/

namespace Sys2Proof.Machine

-- one proof at a time: the file holds many small ones
set_option Elab.async false

theorem State.setRing_within (s : State) (ring : Nat) (x : RingState) :
    Within { parts := [.flm] } s (State.setRing s ring x) := by
  unfold State.setRing
  refine Within.of_mk ?_
  exact .refl

theorem State.ringErr_within (s : State) (ring : Nat) (code : Nat) :
    Within { parts := [.mrc], pages := [Pg.flm] } s (State.ringErr s ring code) := by
  unfold State.ringErr
  refine (State.raise_within ..).then ?_
  exact .refl

theorem State.updItem_within (s : State) (entry : Nat) (f : Item → Item) :
    Within { parts := [.flm] } s (State.updItem s entry f) := by
  unfold State.updItem
  refine Within.of_mk ?_
  exact .refl

theorem State.noteInUse_within (s : State) : Within { pages := [Pg.flm] } s (State.noteInUse s) := by
  unfold State.noteInUse
  extract_lets +onlyGivenNames s1
  refine Within.ite ?_ ?_
  · refine (State.setField_within ..).then ?_
    exact .refl
  · exact .refl

theorem State.freeItem_within (s : State) (entry : Nat) :
    Within { parts := [.flm], pages := [Pg.flm] } s (State.freeItem s entry) := by
  unfold State.freeItem
  extract_lets +onlyGivenNames s1
  refine Within.cut (x := s1) ?_ (fun h2 => ?_)
  · unfold s1
    refine (State.noteInUse_within ..).then ?_
    exact .refl
  clear_value s1
  refine Within.of_mk ?_
  exact h2

theorem State.finish_within (s : State) (entry : Nat) (r : Result) :
    Within { parts := [.flm] } s (State.finish s entry r) := by
  unfold State.finish
  refine (State.updItem_within ..).then ?_
  exact .refl

theorem State.retireWith_within (s : State) (entry : Nat) (status : Nat) :
    Within { parts := [.flm] } s (State.retireWith s entry status) := by
  unfold State.retireWith
  extract_lets +onlyGivenNames s1
  extract_lets +onlyGivenNames s2
  extract_lets +onlyGivenNames s3
  refine Within.cut (x := s3) ?_ (fun h4 => ?_)
  · unfold s3
    refine Within.of_mk ?_
    exact .refl
  clear_value s3
  refine (State.updItem_within ..).then ?_
  exact h4

theorem State.fetchRing_within (s : State) (ring : Nat) :
    Within { parts := [.doms, .freeCtr, .flm, .drc, .mrc], pages := [Pg.drc, Pg.flc, Pg.flm] } s (State.fetchRing s ring) := by
  unfold State.fetchRing
  extract_lets +onlyGivenNames s1
  extract_lets +onlyGivenNames s2
  extract_lets +onlyGivenNames s3
  extract_lets +onlyGivenNames s4
  refine Within.cut (x := s4) ?_ (fun h5 => ?_)
  · unfold s4
    refine Within.of_mk ?_
    exact .refl
  clear_value s4
  split
  · rename_i v6 v7 v8
    refine Within.fst v8 ?_
    refine (State.unitRead_within ..).then ?_
    exact h5
  · rename_i v9 v10 v11
    refine (State.ringErr_within ..).then ?_
    refine (State.setRing_within ..).then ?_
    refine Within.fst v11 ?_
    refine (State.unitRead_within ..).then ?_
    exact h5
  · rename_i v12 v13 v14 v15 v16
    split
    · rename_i v17 v18
      refine (State.ringErr_within ..).then ?_
      refine (State.setRing_within ..).then ?_
      refine Within.fst v16 ?_
      refine (State.unitRead_within ..).then ?_
      exact h5
    · rename_i v19 v20 v21
      extract_lets +onlyGivenNames s22
      extract_lets +onlyGivenNames s23
      extract_lets +onlyGivenNames s24
      refine Within.cut (x := s24) ?_ (fun h25 => ?_)
      · unfold s24
        refine Within.of_mk ?_
        refine Within.fst v16 ?_
        refine (State.unitRead_within ..).then ?_
        exact h5
      clear_value s24
      extract_lets +onlyGivenNames s26
      refine Within.cut (x := s26) ?_ (fun h27 => ?_)
      · unfold s26
        refine (State.setReg_within ..).then ?_
        exact h25
      clear_value s26
      refine (State.noteInUse_within ..).then ?_
      exact h27

theorem execDescriptorFetch_within (flips : List Flip) (s : State) :
    OutWithin { parts := [.doms, .freeCtr, .flm, .drc, .flc, .mrc], pages := [Pg.drc, Pg.flc, Pg.flm] } s (execDescriptorFetch flips s) := by
  unfold execDescriptorFetch
  extract_lets +onlyGivenNames s1
  refine OutWithin.cut (x := s1) ?_ (fun h2 => ?_)
  · unfold s1
    refine (State.applyFlips_within ..).then ?_
    exact .refl
  clear_value s1
  refine OutWithin.next ?_
  split
  · rename_i v3 v4 v5
    refine (State.fetchRing_within ..).then ?_
    exact h2
  · rename_i v6 v7
    exact h2

theorem State.issue_within (s : State) (i : Item) :
    Within { parts := [.doms, .flm, .mrc], pages := [Pg.flm] } s (State.issue s i) := by
  unfold State.issue
  extract_lets +onlyGivenNames s1
  extract_lets +onlyGivenNames s2
  extract_lets +onlyGivenNames s3
  refine Within.ite ?_ ?_
  · refine (State.retireWith_within ..).then ?_
    unfold s3
    refine (State.updItem_within ..).then ?_
    exact .refl
  · refine Within.ite ?_ ?_
    · refine (State.retireWith_within ..).then ?_
      unfold s3
      refine (State.updItem_within ..).then ?_
      exact .refl
    · refine Within.ite ?_ ?_
      · refine (State.ringErr_within ..).then ?_
        refine (State.retireWith_within ..).then ?_
        unfold s3
        refine (State.updItem_within ..).then ?_
        exact .refl
      · refine Within.ite ?_ ?_
        · refine (State.ringErr_within ..).then ?_
          refine (State.retireWith_within ..).then ?_
          unfold s3
          refine (State.updItem_within ..).then ?_
          exact .refl
        · refine Within.ite ?_ ?_
          · refine (State.wake_within ..).then ?_
            exact .refl
          · refine Within.ite ?_ ?_
            · refine (State.retireWith_within ..).then ?_
              unfold s3
              refine (State.updItem_within ..).then ?_
              exact .refl
            · refine Within.ite ?_ ?_
              · refine (State.retireWith_within ..).then ?_
                unfold s3
                refine (State.updItem_within ..).then ?_
                exact .refl
              · refine Within.ite ?_ ?_
                · refine (State.retireWith_within ..).then ?_
                  unfold s3
                  refine (State.updItem_within ..).then ?_
                  exact .refl
                · refine Within.ite ?_ ?_
                  · refine (State.wake_within ..).then ?_
                    exact .refl
                  · refine Within.ite ?_ ?_
                    · refine (State.retireWith_within ..).then ?_
                      unfold s3
                      refine (State.updItem_within ..).then ?_
                      refine (State.touch_within ..).then ?_
                      exact .refl
                    · refine Within.ite ?_ ?_
                      · refine (State.retireWith_within ..).then ?_
                        unfold s3
                        refine (State.updItem_within ..).then ?_
                        exact .refl
                      · refine Within.ite ?_ ?_
                        · refine (State.retireWith_within ..).then ?_
                          unfold s3
                          refine (State.updItem_within ..).then ?_
                          exact .refl
                        · refine (State.updItem_within ..).then ?_
                          unfold s3
                          refine (State.updItem_within ..).then ?_
                          refine (State.touch_within ..).then ?_
                          exact .refl

theorem execItemIssue_within (entry : Nat) (s : State) :
    OutWithin { parts := [.doms, .flm, .mrc], pages := [Pg.flm] } s (execItemIssue entry s) := by
  unfold execItemIssue
  refine OutWithin.next ?_
  split
  · rename_i v1 v2 v3
    refine Within.ite ?_ ?_
    · refine (State.issue_within ..).then ?_
      exact .refl
    · exact .refl
  · rename_i v4 v5
    exact .refl

theorem State.setTrPend_within (s : State) (t : Nat) (b : Bool) :
    Within { pages := [Pg.flm] } s (State.setTrPend s t b) := by
  unfold State.setTrPend
  extract_lets +onlyGivenNames s1
  refine (State.setReg_within ..).then ?_
  exact .refl

theorem State.modLook_within (s : State) (t : Nat) : Within { pages := [Pg.flm] } s (State.modLook s t) := by
  unfold State.modLook
  extract_lets +onlyGivenNames s1
  refine Within.ite ?_ ?_
  · refine (State.setTrPend_within ..).then ?_
    exact .refl
  · exact .refl

theorem State.setFull_within (s : State) (t : Nat) (b : Bool) : Within { pages := [Pg.flm] } s (State.setFull s t b) := by
  unfold State.setFull
  refine (State.setReg_within ..).then ?_
  exact .refl

theorem State.postEntry_within (s : State) (t : Nat) (e : Entry) (irq : Bool) :
    Within { parts := [.mem, .doms, .flm, .drc, .mrc], pages := [Pg.drc, Pg.flm] } s (State.postEntry s t e irq) := by
  unfold State.postEntry
  split
  rename_i v1 v2 v3 v4
  extract_lets +onlyGivenNames s5
  refine Within.cut (x := s5) ?_ (fun h6 => ?_)
  · unfold s5
    refine (State.setReg_within ..).then ?_
    refine Within.fst v4 ?_
    refine (State.putOctets_within ..).then ?_
    exact .refl
  clear_value s5
  extract_lets +onlyGivenNames s7
  refine Within.cut (x := s7) ?_ (fun h8 => ?_)
  · unfold s7
    refine (State.setFull_within ..).then ?_
    exact h6
  clear_value s7
  refine Within.ite ?_ ?_
  · refine (State.setTrPend_within ..).then ?_
    exact h8
  · refine (State.modLook_within ..).then ?_
    exact h8

theorem State.writeBack_within (s : State) (i : Item) :
    Within { parts := [.mem, .doms, .flm, .drc, .mrc], pages := [Pg.drc, Pg.flm] } s (State.writeBack s i).1 := by
  unfold State.writeBack
  extract_lets +onlyGivenNames s1
  extract_lets +onlyGivenNames s2
  extract_lets +onlyGivenNames s3
  split
  · rename_i v4 v5
    extract_lets +onlyGivenNames s6
    refine Within.cut (x := s6) ?_ (fun h7 => ?_)
    · unfold s6
      split
      · rename_i v8 v9 v10 v11
        refine (State.putOctets_within ..).then ?_
        exact .refl
      · rename_i v12 v13
        exact .refl
    clear_value s6
    dsimp only
    refine (State.putOctets_within ..).then ?_
    exact h7
  · rename_i v14 v15 v16
    dsimp only
    refine (State.wake_within ..).then ?_
    exact .refl
  · rename_i v17 v18 v19
    dsimp only
    refine (State.ringErr_within ..).then ?_
    exact .refl

theorem State.resetPage_within (s : State) (page : Nat) :
    Within { parts := [.staged, .claims, .commits], all := true } s (State.resetPage s page) := by
  unfold State.resetPage
  extract_lets +onlyGivenNames s1
  refine Within.cut (x := s1) ?_ (fun h2 => ?_)
  · unfold s1
    refine (State.clearRegs_within ..).then ?_
    exact .refl
  clear_value s1
  extract_lets +onlyGivenNames s3
  refine Within.cut (x := s3) ?_ (fun h4 => ?_)
  · unfold s3
    refine Within.of_mk ?_
    exact h2
  clear_value s3
  extract_lets +onlyGivenNames s5
  refine Within.cut (x := s5) ?_ (fun h6 => ?_)
  · unfold s5
    refine (State.setReg_within ..).then ?_
    refine (State.setClaim_within ..).then ?_
    exact h4
  clear_value s5
  extract_lets +onlyGivenNames s7
  refine Within.cut (x := s7) ?_ (fun h8 => ?_)
  · unfold s7
    refine (State.setReg_within ..).then ?_
    refine (State.setField_within ..).then ?_
    exact h6
  clear_value s7
  refine (State.setField_within ..).then ?_
  exact h8

theorem State.flumeResetEnd_within (s : State) :
    Within { parts := [.staged, .claims, .commits, .flm], all := true } s (State.flumeResetEnd s) := by
  unfold State.flumeResetEnd
  refine Within.ite ?_ ?_
  · extract_lets +onlyGivenNames s1
    refine Within.cut (x := s1) ?_ (fun h2 => ?_)
    · unfold s1
      refine (State.resetPage_within ..).then ?_
      exact .refl
    clear_value s1
    refine Within.of_mk ?_
    exact h2
  · exact .refl

theorem State.retireItem_within (s : State) (i : Item) :
    Within { parts := [.staged, .claims, .commits, .mem, .doms, .flm, .drc, .mrc], all := true } s (State.retireItem s i) := by
  unfold State.retireItem
  extract_lets +onlyGivenNames s1
  refine Within.ite ?_ ?_
  · refine (State.setFull_within ..).then ?_
    exact .refl
  · split
    · rename_i v2 v3 v4
      refine (State.wake_within ..).then ?_
      exact .refl
    · rename_i v5 v6
      split
      rename_i v7 v8 v9 v10
      refine Within.ite ?_ ?_
      · refine Within.fst v10 ?_
        refine (State.writeBack_within ..).then ?_
        exact .refl
      · extract_lets +onlyGivenNames s11
        split
        rename_i v12 v13 v14 v15
        extract_lets +onlyGivenNames s16
        refine (State.flumeResetEnd_within ..).then ?_
        refine (State.freeItem_within ..).then ?_
        refine (State.postEntry_within ..).then ?_
        refine Within.fst v10 ?_
        refine (State.writeBack_within ..).then ?_
        exact .refl
    · rename_i v17 v18 v19
      refine (State.setFull_within ..).then ?_
      exact .refl

theorem execItemRetire_within (entry : Nat) (flips : List Flip) (s : State) :
    OutWithin { parts := [.staged, .claims, .commits, .mem, .doms, .flm, .drc, .flc, .mrc], all := true } s (execItemRetire entry flips s) := by
  unfold execItemRetire
  extract_lets +onlyGivenNames s1
  refine OutWithin.cut (x := s1) ?_ (fun h2 => ?_)
  · unfold s1
    refine (State.applyFlips_within ..).then ?_
    exact .refl
  clear_value s1
  refine OutWithin.next ?_
  split
  · rename_i v3 v4 v5
    refine Within.ite ?_ ?_
    · refine (State.retireItem_within ..).then ?_
      exact h2
    · exact h2
  · rename_i v6 v7
    exact h2

theorem State.writeReport_within (s : State) (r : Report) :
    Within { parts := [.mem, .doms, .flm, .drc, .mrc], pages := [Pg.drc, Pg.flm] } s (State.writeReport s r) := by
  unfold State.writeReport
  extract_lets +onlyGivenNames s1
  extract_lets +onlyGivenNames s2
  extract_lets +onlyGivenNames s3
  extract_lets +onlyGivenNames s4
  refine Within.cut (x := s4) ?_ (fun h5 => ?_)
  · unfold s4
    refine Within.of_mk ?_
    exact .refl
  clear_value s4
  refine (State.postEntry_within ..).then ?_
  exact h5

theorem State.countDrop_within (s : State) (t : Nat) :
    Within { parts := [.flm], pages := [Pg.flm] } s (State.countDrop s t) := by
  unfold State.countDrop
  refine (State.count_within ..).then ?_
  refine Within.of_mk ?_
  exact .refl

theorem State.dropReport_within (s : State) (r : Report) :
    Within { parts := [.flm], pages := [Pg.flm] } s (State.dropReport s r) := by
  unfold State.dropReport
  refine (State.countDrop_within ..).then ?_
  refine Within.of_mk ?_
  exact .refl

theorem State.lnkEventsLost_within (s : State) :
    Within { parts := [.flm, .lnk], pages := [Pg.flm] } s (State.lnkEventsLost s) := by
  unfold State.lnkEventsLost
  extract_lets +onlyGivenNames s1
  extract_lets +onlyGivenNames s2
  refine Within.cut (x := s2) ?_ (fun h3 => ?_)
  · unfold s2
    refine Within.foldl (fun s4 a5 h6 => ?_) ?_
    · refine (State.countDrop_within ..).then ?_
      exact h6
    · exact .refl
  clear_value s2
  refine Within.of_mk ?_
  exact h3

theorem execReportPost_within (index : Nat) (overflow : Bool) (s : State) :
    OutWithin { parts := [.mem, .doms, .flm, .drc, .mrc], pages := [Pg.flm, Pg.drc] } s (execReportPost index overflow s) := by
  unfold execReportPost
  refine OutWithin.next ?_
  split
  · rename_i v1 v2
    exact .refl
  · rename_i v3 v4 v5
    extract_lets +onlyGivenNames s6
    refine Within.ite ?_ ?_
    · refine Within.ite ?_ ?_
      · refine (State.dropReport_within ..).then ?_
        exact .refl
      · exact .refl
    · refine Within.ite ?_ ?_
      · exact .refl
      · split
        · rename_i v7 v8
          refine (State.writeReport_within ..).then ?_
          exact .refl
        · rename_i v9 v10 v11
          refine (State.wake_within ..).then ?_
          exact .refl
        · rename_i v12 v13 v14
          refine Within.ite ?_ ?_
          · refine (State.dropReport_within ..).then ?_
            exact .refl
          · exact .refl

theorem State.wrProdWrite_within (s : State) (ini : Initiator) (v : Word) :
    Within { parts := [.mrc], pages := [Pg.flm] } s (State.wrProdWrite s ini v) := by
  unfold State.wrProdWrite
  extract_lets +onlyGivenNames s1
  extract_lets +onlyGivenNames s2
  refine Within.ite ?_ ?_
  · refine (State.raise_within ..).then ?_
    exact .refl
  · refine Within.ite ?_ ?_
    · refine (State.raise_within ..).then ?_
      exact .refl
    · refine (State.setReg_within ..).then ?_
      exact .refl

theorem execWrProdWrite_within (ini : Initiator) (value : Word) (s : State) :
    OutWithin { parts := [.doms, .replies, .stalls, .debugErr, .mrc], pages := [Pg.flm, Pg.sec] } s (execWrProdWrite ini value s) := by
  unfold execWrProdWrite
  refine OutWithin.next ?_
  refine State.pageWrite_within ?_ (fun s1 h2 => ?_)
  · exact .refl
  · refine (State.wrProdWrite_within ..).then ?_
    exact h2

theorem State.wrCfgWrite_within (s : State) (ini : Initiator) (v : Word) :
    Within { parts := [.flm, .mrc], pages := [Pg.flm] } s (State.wrCfgWrite s ini v) := by
  unfold State.wrCfgWrite
  extract_lets +onlyGivenNames s1
  extract_lets +onlyGivenNames s2
  extract_lets +onlyGivenNames s3
  refine Within.ite ?_ ?_
  · refine (State.lockedErr_within ..).then ?_
    exact .refl
  · refine Within.ite ?_ ?_
    · refine (State.setReg_within ..).then ?_
      exact .refl
    · refine Within.ite ?_ ?_
      · refine (State.setReg_within ..).then ?_
        exact .refl
      · extract_lets +onlyGivenNames s4
        refine Within.ite ?_ ?_
        · refine (State.raise_within ..).then ?_
          refine (State.setReg_within ..).then ?_
          exact .refl
        · extract_lets +onlyGivenNames s5
          refine Within.cut (x := s5) ?_ (fun h6 => ?_)
          · unfold s5
            refine (State.setReg_within ..).then ?_
            exact .refl
          clear_value s5
          refine (State.setRing_within ..).then ?_
          refine (State.setReg_within ..).then ?_
          refine (State.setReg_within ..).then ?_
          exact h6

theorem execRingEnable_within (ini : Initiator) (value : Word) (s : State) :
    OutWithin { parts := [.doms, .replies, .stalls, .debugErr, .flm, .mrc], pages := [Pg.flm, Pg.sec] } s (execRingEnable ini value s) := by
  unfold execRingEnable
  refine OutWithin.next ?_
  refine State.pageWrite_within ?_ (fun s1 h2 => ?_)
  · exact .refl
  · refine (State.wrCfgWrite_within ..).then ?_
    exact h2

theorem State.baseWrite_within (s : State) (ini : Initiator) (off : Nat) (cfg : Nat) (v : Word) :
    Within { parts := [.mrc], pages := [Pg.flm] } s (State.baseWrite s ini off cfg v) := by
  unfold State.baseWrite
  extract_lets +onlyGivenNames s1
  refine Within.ite ?_ ?_
  · refine (State.lockedErr_within ..).then ?_
    exact .refl
  · refine Within.ite ?_ ?_
    · exact .refl
    · refine (State.setReg_within ..).then ?_
      exact .refl

theorem State.cutFlash_within (s : State) (p : Item → Bool) (status : Nat) :
    Within { parts := [.flc] } s (State.cutFlash s p status) := by
  unfold State.cutFlash
  split
  · rename_i v1 v2 v3
    refine Within.ite ?_ ?_
    · refine Within.of_mk ?_
      exact .refl
    · exact .refl
  · rename_i v4 v5
    exact .refl

theorem State.cutDali_within (s : State) (p : Item → Bool) (status : Nat) :
    Within { parts := [.per] } s (State.cutDali s p status) := by
  unfold State.cutDali
  refine Within.foldl (fun s1 a2 h3 => ?_) ?_
  · refine Within.of_mk ?_
    exact h3
  · exact .refl

theorem State.abortActive_within (s : State) (p : Item → Bool) (status : Nat) :
    Within { parts := [.flm, .flc, .per] } s (State.abortActive s p status) := by
  unfold State.abortActive
  extract_lets +onlyGivenNames s1
  refine Within.ite ?_ ?_
  · extract_lets +onlyGivenNames s2
    refine Within.cut (x := s2) ?_ (fun h3 => ?_)
    · unfold s2
      refine Within.foldl (fun s4 a5 h6 => ?_) ?_
      · refine (State.retireWith_within ..).then ?_
        exact h6
      · exact .refl
    clear_value s2
    refine (State.cutDali_within ..).then ?_
    refine (State.cutFlash_within ..).then ?_
    refine Within.foldl (fun s7 a8 h9 => ?_) ?_
    · refine Within.ite ?_ ?_
      · refine (State.updItem_within ..).then ?_
        exact h9
      · exact h9
    · exact h3
  · refine Within.foldl (fun s10 a11 h12 => ?_) ?_
    · refine (State.retireWith_within ..).then ?_
      exact h12
    · exact .refl

theorem State.abortFetched_within (s : State) (p : Item → Bool) (status : Nat) :
    Within { parts := [.flm] } s (State.abortFetched s p status) := by
  unfold State.abortFetched
  refine Within.foldl (fun s1 a2 h3 => ?_) ?_
  · refine (State.retireWith_within ..).then ?_
    exact h3
  · exact .refl

theorem State.abortUnfetched_within (s : State) (ring : Nat) :
    Within { parts := [.flm], pages := [Pg.flm] } s (State.abortUnfetched s ring) := by
  unfold State.abortUnfetched
  extract_lets +onlyGivenNames s1
  extract_lets +onlyGivenNames s2
  refine Within.cut (x := s2) ?_ (fun h3 => ?_)
  · unfold s2
    refine Within.foldl (fun s4 a5 h6 => ?_) ?_
    · extract_lets +onlyGivenNames s7
      extract_lets +onlyGivenNames s8
      extract_lets +onlyGivenNames s9
      refine Within.of_mk ?_
      exact h6
    · exact .refl
  clear_value s2
  refine (State.setRing_within ..).then ?_
  refine (State.setReg_within ..).then ?_
  exact h3

theorem State.abortRest_within (s : State) (ring : Nat) :
    Within { parts := [.flm], pages := [Pg.flm] } s (State.abortRest s ring) := by
  unfold State.abortRest
  refine Within.ite ?_ ?_
  · exact .refl
  · refine (State.abortUnfetched_within ..).then ?_
    refine (State.abortFetched_within ..).then ?_
    exact .refl

theorem State.ringAbort_within (s : State) (ring : Nat) :
    Within { parts := [.flm, .flc, .per], pages := [Pg.flm] } s (State.ringAbort s ring) := by
  unfold State.ringAbort
  refine (State.abortRest_within ..).then ?_
  refine (State.abortActive_within ..).then ?_
  refine (State.setRing_within ..).then ?_
  exact .refl

theorem State.ringResume_within (s : State) (ring : Nat) : Within { parts := [.flm] } s (State.ringResume s ring) := by
  unfold State.ringResume
  refine Within.ite ?_ ?_
  · refine (State.setRing_within ..).then ?_
    exact .refl
  · exact .refl

theorem execRingResume_within (ini : Initiator) (s : State) :
    OutWithin { parts := [.doms, .replies, .stalls, .debugErr, .flm, .mrc], pages := [Pg.flm, Pg.sec] } s (execRingResume ini s) := by
  unfold execRingResume
  refine OutWithin.next ?_
  refine State.pageWrite_within ?_ (fun s1 h2 => ?_)
  · exact .refl
  · refine (State.ringResume_within ..).then ?_
    exact h2

theorem State.clearTrPend_within (s : State) (t : Nat) : Within { pages := [Pg.flm] } s (State.clearTrPend s t) := by
  unfold State.clearTrPend
  refine (State.setTrPend_within ..).then ?_
  exact .refl

theorem State.trCfgWrite_within (s : State) (ini : Initiator) (v : Word) :
    Within { parts := [.mrc], pages := [Pg.flm] } s (State.trCfgWrite s ini v) := by
  unfold State.trCfgWrite
  extract_lets +onlyGivenNames s1
  extract_lets +onlyGivenNames s2
  extract_lets +onlyGivenNames s3
  refine Within.ite ?_ ?_
  · refine (State.lockedErr_within ..).then ?_
    exact .refl
  · refine Within.ite ?_ ?_
    · extract_lets +onlyGivenNames s4
      refine Within.cut (x := s4) ?_ (fun h5 => ?_)
      · unfold s4
        refine (State.setReg_within ..).then ?_
        exact .refl
      clear_value s4
      refine Within.ite ?_ ?_
      · refine (State.modLook_within ..).then ?_
        exact h5
      · refine (State.clearTrPend_within ..).then ?_
        exact h5
    · refine Within.ite ?_ ?_
      · refine (State.setReg_within ..).then ?_
        exact .refl
      · refine Within.ite ?_ ?_
        · refine (State.raise_within ..).then ?_
          refine (State.setReg_within ..).then ?_
          exact .refl
        · extract_lets +onlyGivenNames s6
          refine Within.cut (x := s6) ?_ (fun h7 => ?_)
          · unfold s6
            refine (State.setReg_within ..).then ?_
            exact .refl
          clear_value s6
          refine (State.setFull_within ..).then ?_
          refine (State.setReg_within ..).then ?_
          refine (State.setReg_within ..).then ?_
          exact h7

theorem execTrCfgWrite_within (ini : Initiator) (value : Word) (s : State) :
    OutWithin { parts := [.doms, .replies, .stalls, .debugErr, .mrc], pages := [Pg.flm, Pg.sec] } s (execTrCfgWrite ini value s) := by
  unfold execTrCfgWrite
  refine OutWithin.next ?_
  refine State.pageWrite_within ?_ (fun s1 h2 => ?_)
  · exact .refl
  · refine (State.trCfgWrite_within ..).then ?_
    exact h2

theorem State.trConsWrite_within (s : State) (t : Nat) (v : Word) :
    Within { pages := [Pg.flm] } s (State.trConsWrite s t v) := by
  unfold State.trConsWrite
  extract_lets +onlyGivenNames s1
  refine Within.cut (x := s1) ?_ (fun h2 => ?_)
  · unfold s1
    refine (State.setReg_within ..).then ?_
    exact .refl
  clear_value s1
  refine Within.ite ?_ ?_
  · refine (State.clearTrPend_within ..).then ?_
    exact h2
  · exact h2

theorem execTrConsWrite_within (ini : Initiator) (value : Word) (s : State) :
    OutWithin { parts := [.doms, .replies, .stalls, .debugErr, .mrc], pages := [Pg.flm, Pg.sec] } s (execTrConsWrite ini value s) := by
  unfold execTrConsWrite
  refine OutWithin.next ?_
  refine State.pageWrite_within ?_ (fun s1 h2 => ?_)
  · exact .refl
  · refine (State.trConsWrite_within ..).then ?_
    exact h2

theorem execTailraceModTime_within (ring : Nat) (s : State) :
    OutWithin { pages := [Pg.flm] } s (execTailraceModTime ring s) := by
  unfold execTailraceModTime
  refine OutWithin.next ?_
  refine Within.ite ?_ ?_
  · refine (State.setTrPend_within ..).then ?_
    exact .refl
  · exact .refl

theorem State.haltRings_within (s : State) (unit : Nat) : Within { parts := [.flm] } s (State.haltRings s unit) := by
  unfold State.haltRings
  refine Within.foldl (fun s1 a2 h3 => ?_) ?_
  · refine Within.ite ?_ ?_
    · refine (State.setRing_within ..).then ?_
      exact h3
    · exact h3
  · exact .refl

theorem State.completeUnit_within (s : State) (unit : Nat) (status : Nat) :
    Within { parts := [.flm, .flc, .per] } s (State.completeUnit s unit status).1 := by
  unfold State.completeUnit
  extract_lets +onlyGivenNames s1
  refine Within.cut (x := s1) ?_ (fun h2 => ?_)
  · unfold s1
    refine (State.abortActive_within ..).then ?_
    exact .refl
  clear_value s1
  refine Within.ite₁ ?_ ?_
  · dsimp only
    exact h2
  · dsimp only
    refine (State.haltRings_within ..).then ?_
    refine (State.abortFetched_within ..).then ?_
    exact h2

end Sys2Proof.Machine
end

