-- ==== Sys2Proof/Laws/FrameDram.lean ====
section
/-! SUPPORT. What each operation of Machine/Dram.lean may change, and that it keeps a sound state sound. -/

namespace Sys2Proof.Machine

-- one proof at a time: the file holds many small ones
set_option Elab.async false

theorem State.drcSwitched_within (s : State) : Within { pages := [Pg.drc] } s (State.drcSwitched s) := by
  unfold State.drcSwitched
  refine Within.foldl (fun s1 a2 h3 => ?_) ?_
  · extract_lets +onlyGivenNames s4
    refine Within.ite ?_ ?_
    · exact h3
    · refine Within.ite ?_ ?_
      · refine (State.setRk_within ..).then ?_
        exact h3
      · refine Within.ite ?_ ?_
        · refine (State.setRk_within ..).then ?_
          exact h3
        · refine Within.ite ?_ ?_
          · refine (State.setRk_within ..).then ?_
            exact h3
          · refine Within.ite ?_ ?_
            · exact h3
            · refine (State.setRk_within ..).then ?_
              exact h3
  · exact .refl

theorem State.chctrlWrite_within (s : State) (ini : Initiator) (v : Word) :
    Within { parts := [.mrc], pages := [Pg.drc] } s (State.chctrlWrite s ini v) := by
  unfold State.chctrlWrite
  extract_lets +onlyGivenNames s1
  refine Within.ite ?_ ?_
  · exact .refl
  · refine Within.ite ?_ ?_
    · refine (State.raise_within ..).then ?_
      exact .refl
    · refine Within.ite ?_ ?_
      · exact .refl
      · refine (State.setCh_within ..).then ?_
        exact .refl

theorem execChannelTrain_within (ini : Initiator) (value : Word) (s : State) :
    OutWithin { parts := [.doms, .replies, .stalls, .debugErr, .mrc], pages := [Pg.drc, Pg.sec] } s (execChannelTrain ini value s) := by
  unfold execChannelTrain
  refine OutWithin.next ?_
  refine State.pageWrite_within ?_ (fun s1 h2 => ?_)
  · exact .refl
  · refine (State.chctrlWrite_within ..).then ?_
    exact h2

theorem execTrainingDone_within (channel : Nat) (failed : Nat) (results : List (Nat × Nat × Nat)) (s : State) :
    OutWithin { parts := [.mrc], pages := [Pg.drc] } s (execTrainingDone channel failed results s) := by
  unfold execTrainingDone
  refine OutWithin.next ?_
  refine Within.ite ?_ ?_
  · exact .refl
  · extract_lets +onlyGivenNames s1
    refine Within.cut (x := s1) ?_ (fun h2 => ?_)
    · unfold s1
      refine Within.foldl (fun s3 a4 h5 => ?_) ?_
      · extract_lets +onlyGivenNames s6
        refine Within.ite ?_ ?_
        · refine (State.setReg_within ..).then ?_
          exact h5
        · exact h5
      · exact .refl
    clear_value s1
    refine (State.event_within ..).then ?_
    refine (State.setCh_within ..).then ?_
    exact h2

theorem execDrcRefresh_within (rank : Nat) (postpone : Bool) (s : State) :
    OutWithin { parts := [.drc] } s (execDrcRefresh rank postpone s) := by
  unfold execDrcRefresh
  extract_lets +onlyGivenNames s1
  refine OutWithin.next ?_
  refine Within.ite ?_ ?_
  · exact .refl
  · refine Within.ite ?_ ?_
    · refine Within.of_mk ?_
      exact .refl
    · refine Within.of_mk ?_
      exact .refl

theorem State.undefineOctets_within (s : State) (a : Nat) (n : Nat) (ch : Nat) :
    Within { parts := [.mem, .freeCtr] } s (State.undefineOctets s a n ch) := by
  unfold State.undefineOctets
  extract_lets +onlyGivenNames s1
  extract_lets +onlyGivenNames s2
  refine Within.cut (x := s2) ?_ (fun h3 => ?_)
  · unfold s2
    refine Within.of_mk ?_
    exact .refl
  clear_value s2
  refine Within.foldl (fun s4 a5 h6 => ?_) ?_
  · refine Within.ite ?_ ?_
    · split
      rename_i v7 v8 v9 v10
      refine Within.ite ?_ ?_
      · refine (State.setDramOctet_within ..).then ?_
        exact h6
      · exact h6
    · exact h6
  · exact h3

theorem State.failChannel_within (s : State) (ch : Nat) (code : Nat) (items : List Nat) :
    Within { parts := [.mem, .freeCtr, .flm, .drc, .mrc], pages := [Pg.drc] } s (State.failChannel s ch code items) := by
  unfold State.failChannel
  extract_lets +onlyGivenNames s1
  refine Within.cut (x := s1) ?_ (fun h2 => ?_)
  · unfold s1
    refine (State.setCh_within ..).then ?_
    exact .refl
  clear_value s1
  extract_lets +onlyGivenNames s3
  refine Within.cut (x := s3) ?_ (fun h4 => ?_)
  · unfold s3
    refine Within.foldl (fun s5 a6 h7 => ?_) ?_
    · refine (State.finish_within ..).then ?_
      refine (State.undefineOctets_within ..).then ?_
      exact h7
    · exact h2
  clear_value s3
  extract_lets +onlyGivenNames s8
  refine Within.cut (x := s8) ?_ (fun h9 => ?_)
  · unfold s8
    refine (State.drcReport_within ..).then ?_
    refine (State.event_within ..).then ?_
    exact h4
  clear_value s8
  extract_lets +onlyGivenNames s10
  extract_lets +onlyGivenNames s11
  refine Within.cut (x := s11) ?_ (fun h12 => ?_)
  · unfold s11
    refine Within.of_mk ?_
    exact h9
  clear_value s11
  split
  · rename_i v13 v14 v15 v16
    refine Within.ite ?_ ?_
    · refine (State.migStop_within ..).then ?_
      exact h12
    · exact h12
  · rename_i v17 v18
    exact h12

theorem execParityAlert_within (channel : Nat) (reissued : Nat) (items : List Nat) (s : State) :
    OutWithin { parts := [.drc], pages := [Pg.drc] } s (execParityAlert channel reissued items s) := by
  unfold execParityAlert
  refine OutWithin.next ?_
  refine Within.ite ?_ ?_
  · exact .refl
  · extract_lets +onlyGivenNames s1
    refine Within.cut (x := s1) ?_ (fun h2 => ?_)
    · unfold s1
      refine (State.setCh_within ..).then ?_
      exact .refl
    clear_value s1
    refine Within.of_mk ?_
    exact h2

theorem execParityReplayDone_within (channel : Nat) (rejected : Bool) (s : State) :
    OutWithin { parts := [.mem, .freeCtr, .flm, .drc, .mrc], pages := [Pg.drc] } s (execParityReplayDone channel rejected s) := by
  unfold execParityReplayDone
  refine OutWithin.next ?_
  split
  · rename_i v1 v2
    exact .refl
  · rename_i v3 v4 v5
    refine Within.ite ?_ ?_
    · exact .refl
    · extract_lets +onlyGivenNames s6
      refine Within.cut (x := s6) ?_ (fun h7 => ?_)
      · unfold s6
        refine Within.ite ?_ ?_
        · refine (State.count_within ..).then ?_
          exact .refl
        · refine (State.count_within ..).then ?_
          exact .refl
      clear_value s6
      extract_lets +onlyGivenNames s8
      refine Within.cut (x := s8) ?_ (fun h9 => ?_)
      · unfold s8
        refine (State.event_within ..).then ?_
        exact h7
      clear_value s8
      refine Within.ite ?_ ?_
      · refine Within.ite ?_ ?_
        · refine (State.failChannel_within ..).then ?_
          exact h9
        · refine Within.of_mk ?_
          exact h9
      · extract_lets +onlyGivenNames s10
        extract_lets +onlyGivenNames s11
        refine Within.cut (x := s11) ?_ (fun h12 => ?_)
        · unfold s11
          refine Within.of_mk ?_
          exact h9
        clear_value s11
        extract_lets +onlyGivenNames s13
        refine Within.cut (x := s13) ?_ (fun h14 => ?_)
        · unfold s13
          refine (State.setCh_within ..).then ?_
          exact h12
        clear_value s13
        refine Within.foldl (fun s15 a16 h17 => ?_) ?_
        · refine (State.updItem_within ..).then ?_
          exact h17
        · exact h14

theorem execAlertStuck_within (channel : Nat) (s : State) :
    OutWithin { parts := [.mem, .freeCtr, .flm, .drc, .mrc], pages := [Pg.drc] } s (execAlertStuck channel s) := by
  unfold execAlertStuck
  refine OutWithin.next ?_
  split
  · rename_i v1 v2
    exact .refl
  · rename_i v3 v4 v5
    refine Within.ite ?_ ?_
    · exact .refl
    · refine (State.failChannel_within ..).then ?_
      exact .refl

theorem execEccWindowEnd_within (s : State) : OutWithin { parts := [.drc], pages := [Pg.drc] } s (execEccWindowEnd s) := by
  unfold execEccWindowEnd
  refine OutWithin.next ?_
  refine Within.ite ?_ ?_
  · exact .refl
  · extract_lets +onlyGivenNames s1
    refine Within.cut (x := s1) ?_ (fun h2 => ?_)
    · unfold s1
      refine Within.foldl (fun s3 a4 h5 => ?_) ?_
      · refine (State.setReg_within ..).then ?_
        exact h5
      · exact .refl
    clear_value s1
    refine Within.of_mk ?_
    exact h2

theorem State.migctrlWrite_within (s : State) (ini : Initiator) (v : Word) :
    Within { parts := [.flm, .drc, .mrc], pages := [Pg.drc] } s (State.migctrlWrite s ini v) := by
  unfold State.migctrlWrite
  extract_lets +onlyGivenNames s1
  refine Within.ite ?_ ?_
  · refine (State.raise_within ..).then ?_
    exact .refl
  · refine Within.ite ?_ ?_
    · refine (State.migStop_within ..).then ?_
      exact .refl
    · refine Within.ite ?_ ?_
      · split
        · rename_i v2 v3
          refine (State.raise_within ..).then ?_
          exact .refl
        · rename_i v4 v5 v6
          refine Within.ite ?_ ?_
          · refine (State.raise_within ..).then ?_
            exact .refl
          · refine Within.ite ?_ ?_
            · refine (State.raise_within ..).then ?_
              exact .refl
            · refine Within.ite ?_ ?_
              · refine (State.raise_within ..).then ?_
                exact .refl
              · refine (State.migStart_within ..).then ?_
                exact .refl
      · exact .refl

theorem execMigrationStart_within (ini : Initiator) (value : Word) (s : State) :
    OutWithin { parts := [.doms, .replies, .stalls, .debugErr, .flm, .drc, .mrc], pages := [Pg.drc, Pg.sec] } s (execMigrationStart ini value s) := by
  unfold execMigrationStart
  refine OutWithin.next ?_
  refine State.pageWrite_within ?_ (fun s1 h2 => ?_)
  · exact .refl
  · refine (State.migctrlWrite_within ..).then ?_
    exact h2

theorem execMigrationStop_within (ini : Initiator) (value : Word) (s : State) :
    OutWithin { parts := [.doms, .replies, .stalls, .debugErr, .flm, .drc, .mrc], pages := [Pg.drc, Pg.sec] } s (execMigrationStop ini value s) := by
  unfold execMigrationStop
  refine OutWithin.next ?_
  refine State.pageWrite_within ?_ (fun s1 h2 => ?_)
  · exact .refl
  · refine (State.migctrlWrite_within ..).then ?_
    exact h2

theorem State.migWord_within (s : State) (src : Nat) (t : Nat) (d : Nat) :
    Within { parts := [.mem, .flm, .drc, .mrc], pages := [Pg.drc] } s (State.migWord s src t d) := by
  have hp : ∀ x : State, Within { parts := [.drc] } x { x with drc := { x.drc with poisoned := x.drc.poisoned + 1 } } :=
    fun x => Within.of_mk .refl
  unfold State.migWord
  cases s.wordErr src d
  all_goals
    dsimp only
    refine Within.ite ?_ ?_
    · refine (State.drcReport_within ..).then ?_
      refine (hp _).then ?_
      refine (State.setWordErr_within ..).then ?_
      refine Within.foldl (fun y k hy => (State.setOctet_within ..).then hy) ?_
      first
        | exact .refl
        | refine (State.noteCorrected_within ..).then ?_; exact .refl
        | refine (State.noteUncorrectable_within ..).then ?_; exact .refl
    · refine (State.setWordErr_within ..).then ?_
      refine Within.foldl (fun y k hy => (State.setOctet_within ..).then hy) ?_
      first
        | exact .refl
        | refine (State.noteCorrected_within ..).then ?_; exact .refl
        | refine (State.noteUncorrectable_within ..).then ?_; exact .refl

theorem execMigrationSlotCopy_within (flips : List Flip) (s : State) :
    OutWithin { parts := [.mem, .flm, .drc, .flc, .mrc], pages := [Pg.drc] } s (execMigrationSlotCopy flips s) := by
  unfold execMigrationSlotCopy
  extract_lets +onlyGivenNames s1
  refine OutWithin.cut (x := s1) ?_ (fun h2 => ?_)
  · unfold s1
    refine (State.applyFlips_within ..).then ?_
    exact .refl
  clear_value s1
  refine OutWithin.next ?_
  split
  · rename_i v3 v4
    exact h2
  · rename_i v5 v6 v7 v8
    extract_lets +onlyGivenNames s9
    refine Within.ite ?_ ?_
    · exact h2
    · extract_lets +onlyGivenNames s10
      refine Within.cut (x := s10) ?_ (fun h11 => ?_)
      · unfold s10
        refine Within.foldl (fun s12 a13 h14 => ?_) ?_
        · refine (State.migWord_within ..).then ?_
          exact h14
        · exact h2
      clear_value s10
      refine (State.setReg_within ..).then ?_
      exact h11

theorem execMigrationDone_within (s : State) :
    OutWithin { parts := [.flm, .drc, .mrc], pages := [Pg.drc] } s (execMigrationDone s) := by
  unfold execMigrationDone
  refine OutWithin.next ?_
  split
  · rename_i v1 v2
    exact .refl
  · rename_i v3 v4 v5 v6
    refine Within.ite ?_ ?_
    · exact .refl
    · extract_lets +onlyGivenNames s7
      refine Within.cut (x := s7) ?_ (fun h8 => ?_)
      · unfold s7
        refine (State.setRk_within ..).then ?_
        refine (State.setRk_within ..).then ?_
        exact .refl
      clear_value s7
      extract_lets +onlyGivenNames s9
      extract_lets +onlyGivenNames s10
      extract_lets +onlyGivenNames s11
      refine Within.cut (x := s11) ?_ (fun h12 => ?_)
      · unfold s11
        refine Within.of_mk ?_
        exact h8
      clear_value s11
      refine (State.drcReport_within ..).then ?_
      refine (State.event_within ..).then ?_
      exact h12

theorem State.drcFinish_within (s : State) (i : Item) (status : Nat) (actual : Nat) (e : EccSum) :
    Within { parts := [.flm] } s (State.drcFinish s i status actual e) := by
  unfold State.drcFinish
  extract_lets +onlyGivenNames s1
  refine (State.finish_within ..).then ?_
  exact .refl

theorem State.poisonCopied_within (s : State) (b : Nat) (bs : List (Option Byte)) :
    Within { parts := [.drc] } s (State.poisonCopied s b bs) := by
  unfold State.poisonCopied
  refine Within.foldl (fun s1 a2 h3 => ?_) ?_
  · split
    rename_i v4 v5 v6
    refine Within.ite ?_ ?_
    · refine (State.freshWord_within ..).then ?_
      exact h3
    · exact h3
  · exact .refl

theorem execDrcCopy_within (entry : Nat) (flips : List Flip) (s : State) :
    OutWithin { parts := [.mem, .doms, .freeCtr, .flm, .drc, .flc, .mrc], pages := [Pg.drc, Pg.flc] } s (execDrcCopy entry flips s) := by
  unfold execDrcCopy
  extract_lets +onlyGivenNames s1
  refine OutWithin.cut (x := s1) ?_ (fun h2 => ?_)
  · unfold s1
    refine (State.applyFlips_within ..).then ?_
    exact .refl
  clear_value s1
  refine OutWithin.next ?_
  split
  · rename_i v3 v4
    exact h2
  · rename_i v5 v6 v7
    refine Within.ite ?_ ?_
    · refine (State.wake_within ..).then ?_
      exact h2
    · refine Within.ite ?_ ?_
      · refine (State.drcFinish_within ..).then ?_
        exact h2
      · split
        · rename_i v8 v9 v10 v11
          refine (State.wake_within ..).then ?_
          exact h2
        · rename_i v12 v13 v14 v15 v16
          refine (State.wake_within ..).then ?_
          exact h2
        · rename_i v17 v18 v19 v20
          extract_lets +onlyGivenNames s21
          split
          · rename_i v22 v23 v24 v25 v26
            split
            rename_i v27 v28 v29 v30
            extract_lets +onlyGivenNames s31
            refine Within.cut (x := s31) ?_ (fun h32 => ?_)
            · unfold s31
              refine (State.poisonCopied_within ..).then ?_
              refine Within.fst v30 ?_
              refine (State.putOctets_within ..).then ?_
              refine Within.fst v26 ?_
              refine (State.unitRead_within ..).then ?_
              exact h2
            clear_value s31
            extract_lets +onlyGivenNames s33
            refine (State.drcFinish_within ..).then ?_
            exact h32
          · rename_i v34 v35 v36 v37 v38
            refine Within.fst v38 ?_
            refine (State.unitRead_within ..).then ?_
            exact h2

theorem execDrcFill_within (entry : Nat) (flips : List Flip) (s : State) :
    OutWithin { parts := [.mem, .doms, .flm, .drc, .flc, .mrc], pages := [Pg.drc] } s (execDrcFill entry flips s) := by
  unfold execDrcFill
  extract_lets +onlyGivenNames s1
  refine OutWithin.cut (x := s1) ?_ (fun h2 => ?_)
  · unfold s1
    refine (State.applyFlips_within ..).then ?_
    exact .refl
  clear_value s1
  refine OutWithin.next ?_
  split
  · rename_i v3 v4
    exact h2
  · rename_i v5 v6 v7
    refine Within.ite ?_ ?_
    · refine (State.wake_within ..).then ?_
      exact h2
    · refine Within.ite ?_ ?_
      · refine (State.drcFinish_within ..).then ?_
        exact h2
      · split
        · rename_i v8 v9 v10
          refine (State.wake_within ..).then ?_
          exact h2
        · rename_i v11 v12
          extract_lets +onlyGivenNames s13
          split
          rename_i v14 v15 v16 v17
          extract_lets +onlyGivenNames s18
          refine (State.drcFinish_within ..).then ?_
          refine Within.fst v17 ?_
          refine (State.putOctets_within ..).then ?_
          exact h2

theorem execDrcScrub_within (entry : Nat) (flips : List Flip) (s : State) :
    OutWithin { parts := [.doms, .freeCtr, .flm, .drc, .flc, .mrc], pages := [Pg.drc, Pg.flc] } s (execDrcScrub entry flips s) := by
  unfold execDrcScrub
  extract_lets +onlyGivenNames s1
  refine OutWithin.cut (x := s1) ?_ (fun h2 => ?_)
  · unfold s1
    refine (State.applyFlips_within ..).then ?_
    exact .refl
  clear_value s1
  refine OutWithin.next ?_
  split
  · rename_i v3 v4
    exact h2
  · rename_i v5 v6 v7
    refine Within.ite ?_ ?_
    · refine (State.wake_within ..).then ?_
      exact h2
    · refine Within.ite ?_ ?_
      · refine (State.drcFinish_within ..).then ?_
        exact h2
      · split
        · rename_i v8 v9 v10
          refine (State.wake_within ..).then ?_
          exact h2
        · rename_i v11 v12
          extract_lets +onlyGivenNames s13
          split
          · rename_i v14 v15 v16 v17 v18
            refine (State.drcFinish_within ..).then ?_
            refine Within.fst v18 ?_
            refine (State.unitRead_within ..).then ?_
            exact h2
          · rename_i v19 v20 v21 v22 v23
            refine Within.fst v23 ?_
            refine (State.unitRead_within ..).then ?_
            exact h2

theorem State.drcLeaves_within (s : State) : Within { parts := [.drc] } s (State.drcLeaves s) := by
  unfold State.drcLeaves
  refine Within.of_mk ?_
  exact .refl

theorem State.drcOff_within (s : State) : Within { parts := [.mem, .lost, .freeCtr, .drc] } s (State.drcOff s) := by
  unfold State.drcOff
  extract_lets +onlyGivenNames s1
  refine Within.cut (x := s1) ?_ (fun h2 => ?_)
  · unfold s1
    refine Within.foldl (fun s3 a4 h5 => ?_) ?_
    · refine (State.loseRegion_within ..).then ?_
      exact h5
    · exact .refl
  clear_value s1
  refine Within.of_mk ?_
  exact h2

theorem State.drcAbandon_within (s : State) :
    Within { parts := [.flm, .drc, .mrc], pages := [Pg.drc] } s (State.drcAbandon s) := by
  unfold State.drcAbandon
  refine (State.migStop_within ..).then ?_
  exact .refl

end Sys2Proof.Machine
end

