-- ==== Sys2Proof/Laws/FrameFlash.lean ====
section
/-! SUPPORT. What each operation of Machine/Flash.lean may change, and that it keeps a sound state sound. -/

namespace Sys2Proof.Machine

-- one proof at a time: the file holds many small ones
set_option Elab.async false

theorem State.setSector_within (s : State) (sec : Nat) (r : SectorRec) :
    Within { parts := [.flc] } s (State.setSector s sec r) := by
  unfold State.setSector
  refine Within.of_mk ?_
  exact .refl

theorem State.flcErr_within (s : State) (i : Item) (detail : Nat) (code : Nat) :
    Within { parts := [.mrc], pages := [Pg.flc] } s (State.flcErr s i detail code) := by
  unfold State.flcErr
  refine (State.raise_within ..).then ?_
  exact .refl

theorem State.flcFinish_within (s : State) (i : Item) (status : Nat) (actual : Nat) :
    Within { parts := [.flm] } s (State.flcFinish s i status actual) := by
  unfold State.flcFinish
  refine (State.finish_within ..).then ?_
  exact .refl

theorem execFlcProgram_within (entry : Nat) (flips : List Flip) (s : State) :
    OutWithin { parts := [.doms, .freeCtr, .flm, .drc, .flc, .mrc], pages := [Pg.flc, Pg.drc] } s (execFlcProgram entry flips s) := by
  unfold execFlcProgram
  extract_lets +onlyGivenNames s1
  refine OutWithin.cut (x := s1) ?_ (fun h2 => ?_)
  · unfold s1
    refine (State.applyFlips_within ..).then ?_
    exact .refl
  clear_value s1
  refine OutWithin.next ?_
  split
  · rename_i v3 v4
    exact h2
  · rename_i v5 v6 v7
    extract_lets +onlyGivenNames s8
    refine Within.ite ?_ ?_
    · refine (State.wake_within ..).then ?_
      exact h2
    · refine Within.ite ?_ ?_
      · refine (State.flcFinish_within ..).then ?_
        exact h2
      · split
        · rename_i v9 v10 v11
          refine (State.flcErr_within ..).then ?_
          refine (State.flcFinish_within ..).then ?_
          exact h2
        · rename_i v12 v13
          split
          · rename_i v14 v15 v16
            refine Within.fst v16 ?_
            refine (State.unitRead_within ..).then ?_
            exact h2
          · rename_i v17 v18 v19
            refine (State.flcFinish_within ..).then ?_
            refine Within.fst v19 ?_
            refine (State.unitRead_within ..).then ?_
            exact h2
          · rename_i v20 v21 v22 v23 v24
            refine Within.ite ?_ ?_
            · refine (State.flcFinish_within ..).then ?_
              refine Within.fst v24 ?_
              refine (State.unitRead_within ..).then ?_
              exact h2
            · refine Within.of_mk ?_
              refine Within.fst v24 ?_
              refine (State.unitRead_within ..).then ?_
              exact h2

theorem execFlcErase_within (entry : Nat) (s : State) :
    OutWithin { parts := [.doms, .flm, .flc, .mrc], pages := [Pg.flc] } s (execFlcErase entry s) := by
  unfold execFlcErase
  refine OutWithin.next ?_
  split
  · rename_i v1 v2
    exact .refl
  · rename_i v3 v4 v5
    extract_lets +onlyGivenNames s6
    refine Within.ite ?_ ?_
    · refine (State.wake_within ..).then ?_
      exact .refl
    · refine Within.ite ?_ ?_
      · refine (State.flcFinish_within ..).then ?_
        exact .refl
      · split
        · rename_i v7 v8 v9
          refine (State.flcErr_within ..).then ?_
          refine (State.flcFinish_within ..).then ?_
          exact .refl
        · rename_i v10 v11
          refine Within.ite ?_ ?_
          · refine (State.flcFinish_within ..).then ?_
            exact .refl
          · refine Within.of_mk ?_
            exact .refl

theorem State.endFlashOp_within (s : State) (o : FlashOp) (status : Nat) :
    Within { parts := [.flm, .flc] } s (State.endFlashOp s o status) := by
  unfold State.endFlashOp
  extract_lets +onlyGivenNames s1
  extract_lets +onlyGivenNames s2
  refine Within.cut (x := s2) ?_ (fun h3 => ?_)
  · unfold s2
    refine Within.of_mk ?_
    exact .refl
  clear_value s2
  extract_lets +onlyGivenNames s4
  extract_lets +onlyGivenNames s5
  refine Within.cut (x := s5) ?_ (fun h6 => ?_)
  · unfold s5
    split
    · rename_i v7 v8 v9
      refine Within.of_mk ?_
      exact h3
    · rename_i v10 v11
      exact h3
  clear_value s5
  split
  · rename_i v12 v13 v14
    refine (State.finish_within ..).then ?_
    exact h6
  · rename_i v15 v16
    exact h6

theorem State.copySector_within (s : State) (sec : Nat) (o : FlashOp) :
    Within { parts := [.mem, .freeCtr, .flc, .mrc], pages := [Pg.flc] } s (State.copySector s sec o).1 := by
  unfold State.copySector
  refine Within.foldl₁ (fun s1 a2 h3 => ?_) ?_
  · extract_lets +onlyGivenNames s4
    split
    · rename_i v5 v6
      exact h3
    · rename_i v7 v8 v9
      dsimp only
      refine (State.setFlashErr_within ..).then ?_
      refine (State.count_within ..).then ?_
      exact h3
    · rename_i v10 v11 v12
      extract_lets +onlyGivenNames s13
      refine Within.cut (x := s13) ?_ (fun h14 => ?_)
      · unfold s13
        refine (State.count_within ..).then ?_
        exact h3
      clear_value s13
      extract_lets +onlyGivenNames s15
      refine Within.cut (x := s15) ?_ (fun h16 => ?_)
      · unfold s15
        refine (State.event_within ..).then ?_
        refine (State.setReg_within ..).then ?_
        exact h14
      clear_value s15
      extract_lets +onlyGivenNames s17
      extract_lets +onlyGivenNames s18
      refine Within.cut (x := s18) ?_ (fun h19 => ?_)
      · unfold s18
        refine Within.of_mk ?_
        exact h16
      clear_value s18
      extract_lets +onlyGivenNames s20
      refine Within.cut (x := s20) ?_ (fun h21 => ?_)
      · unfold s20
        refine Within.foldl (fun s22 a23 h24 => ?_) ?_
        · refine (State.setOctet_within ..).then ?_
          exact h24
        · exact h19
      clear_value s20
      dsimp only
      refine (State.setFlashErr_within ..).then ?_
      exact h21
  · dsimp only
    exact .refl

theorem State.retireSector_within (s : State) (sec : Nat) (o : FlashOp) :
    Within { parts := [.mem, .freeCtr, .flc, .mrc], pages := [Pg.flc] } s (State.retireSector s sec o).1 := by
  unfold State.retireSector
  extract_lets +onlyGivenNames s1
  split
  · rename_i v2 v3
    dsimp only
    refine (State.setSector_within ..).then ?_
    exact .refl
  · rename_i v4 v5 v6 v7
    extract_lets +onlyGivenNames s8
    extract_lets +onlyGivenNames s9
    split
    rename_i v10 v11 v12 v13
    extract_lets +onlyGivenNames s14
    extract_lets +onlyGivenNames s15
    refine Within.cut (x := s15) ?_ (fun h16 => ?_)
    · unfold s15
      refine Within.of_mk ?_
      refine Within.fst v13 ?_
      refine Within.ite₁ ?_ ?_
      · refine (State.copySector_within ..).then ?_
        exact .refl
      · dsimp only
        exact .refl
    clear_value s15
    dsimp only
    refine (State.event_within ..).then ?_
    refine (State.setSector_within ..).then ?_
    exact h16

theorem State.blankSector_within (s : State) (sec : Nat) : Within { parts := [.mem, .flc, .cpus] } s (s.blankSector sec) where
  variant := rfl
  pending := rfl
  wf := fun h => by
    unfold State.wf at h ⊢
    rw [Bool.and_eq_true] at h ⊢
    exact ⟨Memory.wf_keep s (fun k => k < 0x08000000 + sec * 0x1000 || 0x08000000 + sec * 0x1000 + 0x1000 ≤ k) h.1, h.2⟩
  regs := fun _ _ _ _ _ => rfl
  same := fun p hp => by cases p <;> first | rfl | exact absurd (by simp) hp

theorem State.nextErase_within (s : State) (o : FlashOp) : Within { parts := [.flm, .flc] } s (State.nextErase s o) := by
  unfold State.nextErase
  extract_lets +onlyGivenNames s1
  extract_lets +onlyGivenNames s2
  refine Within.ite ?_ ?_
  · refine (State.endFlashOp_within ..).then ?_
    exact .refl
  · refine Within.ite ?_ ?_
    · refine (State.endFlashOp_within ..).then ?_
      exact .refl
    · split
      · rename_i v3 v4 v5
        refine (State.endFlashOp_within ..).then ?_
        exact .refl
      · rename_i v6 v7
        refine Within.ite ?_ ?_
        · refine (State.endFlashOp_within ..).then ?_
          exact .refl
        · refine Within.of_mk ?_
          exact .refl

theorem State.erased_within (s : State) (o : FlashOp) :
    Within { parts := [.mem, .flm, .flc, .mrc, .cpus], pages := [Pg.flc] } s (State.erased s o) := by
  unfold State.erased
  extract_lets +onlyGivenNames s1
  extract_lets +onlyGivenNames s2
  extract_lets +onlyGivenNames s3
  extract_lets +onlyGivenNames s4
  extract_lets +onlyGivenNames s5
  refine Within.cut (x := s5) ?_ (fun h6 => ?_)
  · unfold s5
    refine (State.setSector_within ..).then ?_
    refine (State.blankSector_within ..).then ?_
    exact .refl
  clear_value s5
  extract_lets +onlyGivenNames s7
  refine Within.cut (x := s7) ?_ (fun h8 => ?_)
  · unfold s7
    refine Within.ite ?_ ?_
    · refine (State.event_within ..).then ?_
      exact h6
    · exact h6
  clear_value s7
  refine (State.nextErase_within ..).then ?_
  exact h8

theorem execErasePulse_within (blank : Bool) (s : State) :
    OutWithin { parts := [.mem, .freeCtr, .flm, .flc, .mrc, .cpus], pages := [Pg.flc] } s (execErasePulse blank s) := by
  unfold execErasePulse
  refine OutWithin.next ?_
  split
  · rename_i v1 v2
    exact .refl
  · rename_i v3 v4 v5
    refine Within.ite ?_ ?_
    · exact .refl
    · extract_lets +onlyGivenNames s6
      refine Within.ite ?_ ?_
      · refine (State.erased_within ..).then ?_
        exact .refl
      · refine Within.ite ?_ ?_
        · refine Within.of_mk ?_
          exact .refl
        · extract_lets +onlyGivenNames s7
          split
          · rename_i v8 v9 v10 v11
            refine (State.nextErase_within ..).then ?_
            refine (State.blankSector_within ..).then ?_
            refine Within.fst v11 ?_
            refine (State.retireSector_within ..).then ?_
            exact .refl
          · rename_i v12 v13 v14 v15
            refine (State.endFlashOp_within ..).then ?_
            refine Within.fst v15 ?_
            refine (State.retireSector_within ..).then ?_
            exact .refl

theorem State.wordDone_within (s : State) (o : FlashOp) :
    Within { parts := [.mem, .flm, .flc, .cpus] } s (State.wordDone s o) := by
  unfold State.wordDone
  extract_lets +onlyGivenNames s1
  refine Within.cut (x := s1) ?_ (fun h2 => ?_)
  · unfold s1
    refine Within.foldl (fun s3 a4 h5 => ?_) ?_
    · refine (State.setOctet_within ..).then ?_
      exact h5
    · exact .refl
  clear_value s1
  extract_lets +onlyGivenNames s6
  refine Within.cut (x := s6) ?_ (fun h7 => ?_)
  · unfold s6
    refine (State.cacheDrop_within ..).then ?_
    refine (State.setFlashErr_within ..).then ?_
    exact h2
  clear_value s6
  extract_lets +onlyGivenNames s8
  extract_lets +onlyGivenNames s9
  refine Within.ite ?_ ?_
  · refine (State.endFlashOp_within ..).then ?_
    exact h7
  · split
    · rename_i v10 v11 v12
      refine Within.ite ?_ ?_
      · refine (State.endFlashOp_within ..).then ?_
        exact h7
      · refine Within.of_mk ?_
        exact h7
    · rename_i v13 v14
      refine Within.of_mk ?_
      exact h7

theorem execProgramWord_within (verified : Bool) (s : State) :
    OutWithin { parts := [.mem, .freeCtr, .flm, .flc, .mrc, .cpus], pages := [Pg.flc] } s (execProgramWord verified s) := by
  unfold execProgramWord
  refine OutWithin.next ?_
  split
  · rename_i v1 v2
    exact .refl
  · rename_i v3 v4 v5
    refine Within.ite ?_ ?_
    · exact .refl
    · refine Within.ite ?_ ?_
      · refine (State.wordDone_within ..).then ?_
        exact .refl
      · refine Within.ite ?_ ?_
        · refine Within.of_mk ?_
          exact .refl
        · split
          · rename_i v6 v7 v8 v9
            refine (State.wordDone_within ..).then ?_
            refine Within.fst v9 ?_
            refine (State.retireSector_within ..).then ?_
            exact .refl
          · rename_i v10 v11 v12 v13
            refine (State.endFlashOp_within ..).then ?_
            refine Within.fst v13 ?_
            refine (State.retireSector_within ..).then ?_
            exact .refl

theorem execFlcVerify_within (entry : Nat) (flips : List Flip) (s : State) :
    OutWithin { parts := [.doms, .freeCtr, .flm, .drc, .flc, .mrc], pages := [Pg.drc, Pg.flc] } s (execFlcVerify entry flips s) := by
  unfold execFlcVerify
  extract_lets +onlyGivenNames s1
  refine OutWithin.cut (x := s1) ?_ (fun h2 => ?_)
  · unfold s1
    refine (State.applyFlips_within ..).then ?_
    exact .refl
  clear_value s1
  refine OutWithin.next ?_
  split
  · rename_i v3 v4
    exact h2
  · rename_i v5 v6 v7
    extract_lets +onlyGivenNames s8
    refine Within.ite ?_ ?_
    · refine (State.wake_within ..).then ?_
      exact h2
    · refine Within.ite ?_ ?_
      · refine (State.flcFinish_within ..).then ?_
        exact h2
      · split
        · rename_i v9 v10 v11
          refine Within.fst v11 ?_
          refine Within.ite₁ ?_ ?_
          · dsimp only
            exact h2
          · refine (State.unitRead_within ..).then ?_
            exact h2
        · rename_i v12 v13 v14
          refine (State.flcFinish_within ..).then ?_
          refine Within.fst v14 ?_
          refine Within.ite₁ ?_ ?_
          · dsimp only
            exact h2
          · refine (State.unitRead_within ..).then ?_
            exact h2
        · rename_i v15 v16 v17 v18 v19
          split
          · rename_i v20 v21 v22 v23 v24
            refine Within.ite ?_ ?_
            · refine (State.flcFinish_within ..).then ?_
              refine Within.fst v24 ?_
              refine (State.unitRead_within ..).then ?_
              refine Within.fst v19 ?_
              refine Within.ite₁ ?_ ?_
              · dsimp only
                exact h2
              · refine (State.unitRead_within ..).then ?_
                exact h2
            · extract_lets +onlyGivenNames s25
              extract_lets +onlyGivenNames s26
              extract_lets +onlyGivenNames s27
              refine (State.finish_within ..).then ?_
              refine Within.fst v24 ?_
              refine (State.unitRead_within ..).then ?_
              refine Within.fst v19 ?_
              refine Within.ite₁ ?_ ?_
              · dsimp only
                exact h2
              · refine (State.unitRead_within ..).then ?_
                exact h2
          · rename_i v28 v29 v30 v31 v32
            refine Within.fst v32 ?_
            refine (State.unitRead_within ..).then ?_
            refine Within.fst v19 ?_
            refine Within.ite₁ ?_ ?_
            · dsimp only
              exact h2
            · refine (State.unitRead_within ..).then ?_
              exact h2

theorem execFlcCounters_within (entry : Nat) (s : State) :
    OutWithin { parts := [.mem, .doms, .flm, .drc, .mrc], pages := [Pg.drc] } s (execFlcCounters entry s) := by
  unfold execFlcCounters
  refine OutWithin.next ?_
  split
  · rename_i v1 v2
    exact .refl
  · rename_i v3 v4 v5
    refine Within.ite ?_ ?_
    · refine (State.wake_within ..).then ?_
      exact .refl
    · refine Within.ite ?_ ?_
      · refine (State.flcFinish_within ..).then ?_
        exact .refl
      · split
        · rename_i v6 v7 v8
          refine Within.fst v8 ?_
          refine (State.unitWrite_within ..).then ?_
          exact .refl
        · rename_i v9 v10 v11
          refine (State.flcFinish_within ..).then ?_
          refine Within.fst v11 ?_
          refine (State.unitWrite_within ..).then ?_
          exact .refl
        · rename_i v12 v13 v14 v15 v16
          refine (State.flcFinish_within ..).then ?_
          refine Within.fst v16 ?_
          refine (State.unitWrite_within ..).then ?_
          exact .refl

theorem State.rowWritten_within (s : State) (o : FlashOp) (salt : List Byte) :
    Within { parts := [.flm, .flc] } s (State.rowWritten s o salt) := by
  unfold State.rowWritten
  extract_lets +onlyGivenNames s1
  extract_lets +onlyGivenNames s2
  extract_lets +onlyGivenNames s3
  refine Within.cut (x := s3) ?_ (fun h4 => ?_)
  · unfold s3
    refine Within.of_mk ?_
    exact .refl
  clear_value s3
  refine (State.endFlashOp_within ..).then ?_
  exact h4

theorem execFlcProtect_within (entry : Nat) (salt : List Byte) (s : State) :
    OutWithin { parts := [.doms, .freeCtr, .flm, .drc, .flc, .mrc], pages := [Pg.drc, Pg.flc] } s (execFlcProtect entry salt s) := by
  unfold execFlcProtect
  refine OutWithin.next ?_
  split
  · rename_i v1 v2 v3
    refine Within.ite ?_ ?_
    · refine (State.rowWritten_within ..).then ?_
      exact .refl
    · exact .refl
  · rename_i v4 v5
    split
    · rename_i v6 v7
      exact .refl
    · rename_i v8 v9 v10
      refine Within.ite ?_ ?_
      · refine (State.wake_within ..).then ?_
        exact .refl
      · refine Within.ite ?_ ?_
        · refine (State.flcFinish_within ..).then ?_
          exact .refl
        · split
          · rename_i v11 v12 v13
            refine Within.fst v13 ?_
            refine (State.unitRead_within ..).then ?_
            exact .refl
          · rename_i v14 v15 v16
            refine (State.flcFinish_within ..).then ?_
            refine Within.fst v16 ?_
            refine (State.unitRead_within ..).then ?_
            exact .refl
          · rename_i v17 v18 v19 v20 v21
            split
            · rename_i v22 v23
              refine (State.flcFinish_within ..).then ?_
              refine Within.fst v21 ?_
              refine (State.unitRead_within ..).then ?_
              exact .refl
            · rename_i v24 v25 v26
              refine Within.of_mk ?_
              refine Within.fst v21 ?_
              refine (State.unitRead_within ..).then ?_
              exact .refl

theorem State.pwctrlWrite_within (s : State) (ini : Initiator) (v : Word) :
    Within { parts := [.flc, .mrc], pages := [Pg.flc] } s (State.pwctrlWrite s ini v) := by
  unfold State.pwctrlWrite
  refine Within.ite ?_ ?_
  · refine (State.raise_within ..).then ?_
    exact .refl
  · refine Within.ite ?_ ?_
    · refine Within.of_mk ?_
      exact .refl
    · refine Within.ite ?_ ?_
      · refine Within.ite ?_ ?_
        · exact .refl
        · extract_lets +onlyGivenNames s1
          extract_lets +onlyGivenNames s2
          extract_lets +onlyGivenNames s3
          extract_lets +onlyGivenNames s4
          refine Within.cut (x := s4) ?_ (fun h5 => ?_)
          · unfold s4
            refine Within.of_mk ?_
            exact .refl
          refine Within.ite ?_ ?_
          · refine Within.of_mk ?_
            exact h5
          · extract_lets +onlyGivenNames s6
            extract_lets +onlyGivenNames s7
            extract_lets +onlyGivenNames s8
            refine Within.cut (x := s8) ?_ (fun h9 => ?_)
            · unfold s8
              refine Within.of_mk ?_
              exact h5
            clear_value s8
            extract_lets +onlyGivenNames s10
            refine Within.cut (x := s10) ?_ (fun h11 => ?_)
            · unfold s10
              refine (State.raise_within ..).then ?_
              exact h9
            clear_value s10
            refine Within.ite ?_ ?_
            · refine (State.event_within ..).then ?_
              exact h11
            · exact h11
      · exact .refl

theorem execFlashUnlock_within (ini : Initiator) (s : State) :
    OutWithin { parts := [.doms, .replies, .stalls, .debugErr, .flc, .mrc], pages := [Pg.flc, Pg.sec] } s (execFlashUnlock ini s) := by
  unfold execFlashUnlock
  refine OutWithin.next ?_
  refine State.pageWrite_within ?_ (fun s1 h2 => ?_)
  · exact .refl
  · refine (State.pwctrlWrite_within ..).then ?_
    exact h2

theorem execFlashRelock_within (ini : Initiator) (s : State) :
    OutWithin { parts := [.doms, .replies, .stalls, .debugErr, .flc, .mrc], pages := [Pg.flc, Pg.sec] } s (execFlashRelock ini s) := by
  unfold execFlashRelock
  refine OutWithin.next ?_
  refine State.pageWrite_within ?_ (fun s1 h2 => ?_)
  · exact .refl
  · refine (State.pwctrlWrite_within ..).then ?_
    exact h2

theorem State.pwdWrite_within (s : State) (hi : Bool) (v : Word) :
    Within { parts := [.flc] } s (State.pwdWrite s hi v) := by
  unfold State.pwdWrite
  refine Within.ite ?_ ?_
  · refine Within.of_mk ?_
    exact .refl
  · refine Within.of_mk ?_
    exact .refl

theorem execEraseResume_within (blank : Bool) (s : State) :
    OutWithin { parts := [.mem, .freeCtr, .flc, .mrc, .cpus], pages := [Pg.flc] } s (execEraseResume blank s) := by
  unfold execEraseResume
  refine OutWithin.next ?_
  split
  · rename_i v1 v2
    exact .refl
  · rename_i v3 v4 v5
    refine Within.ite ?_ ?_
    · exact .refl
    · extract_lets +onlyGivenNames s6
      split
      rename_i v7 v8 v9 v10
      refine Within.of_mk ?_
      refine Within.fst v10 ?_
      refine Within.ite₁ ?_ ?_
      · extract_lets +onlyGivenNames s11
        extract_lets +onlyGivenNames s12
        extract_lets +onlyGivenNames s13
        refine Within.cut (x := s13) ?_ (fun h14 => ?_)
        · unfold s13
          refine (State.setSector_within ..).then ?_
          refine (State.blankSector_within ..).then ?_
          exact .refl
        clear_value s13
        dsimp only
        refine Within.ite ?_ ?_
        · refine (State.event_within ..).then ?_
          exact h14
        · exact h14
      · split
        · rename_i v15 v16 v17 v18
          dsimp only
          refine (State.blankSector_within ..).then ?_
          refine Within.fst v18 ?_
          refine (State.retireSector_within ..).then ?_
          exact .refl
        · rename_i v19 v20 v21 v22
          dsimp only
          refine Within.fst v22 ?_
          refine (State.retireSector_within ..).then ?_
          exact .refl

theorem State.flashCut_within (s : State) : Within { parts := [.mem, .freeCtr, .flc] } s (State.flashCut s) := by
  unfold State.flashCut
  split
  · rename_i v1 v2
    exact .refl
  · rename_i v3 v4 v5
    extract_lets +onlyGivenNames s6
    extract_lets +onlyGivenNames s7
    refine Within.cut (x := s7) ?_ (fun h8 => ?_)
    · unfold s7
      refine Within.of_mk ?_
      exact .refl
    clear_value s7
    refine Within.ite ?_ ?_
    · extract_lets +onlyGivenNames s9
      refine Within.foldl (fun s10 a11 h12 => ?_) ?_
      · refine (State.setOctet_within ..).then ?_
        exact h12
      · refine Within.of_mk ?_
        exact h8
    · exact h8

theorem State.flcOff_within (s : State) : Within { parts := [.flc] } s (State.flcOff s) := by
  unfold State.flcOff
  refine Within.of_mk ?_
  exact .refl

end Sys2Proof.Machine
end

