-- ==== Sys2Proof/Laws/FrameReceiver.lean ====
section
/-! SUPPORT. What each operation of Machine/Receiver.lean may change, and that it keeps a sound state sound. -/

namespace Sys2Proof.Machine

-- one proof at a time: the file holds many small ones
set_option Elab.async false

theorem State.setChan_within (s : State) (n : Nat) (c : Chan) : Within { parts := [.recv] } s (State.setChan s n c) := by
  unfold State.setChan
  refine Within.of_mk ?_
  exact .refl

theorem State.setLane_within (s : State) (k : Nat) (l : Option Lane) :
    Within { parts := [.recv] } s (State.setLane s k l) := by
  unfold State.setLane
  refine Within.of_mk ?_
  exact .refl

theorem State.resumeChan_within (s : State) (n : Nat) : Within { parts := [.recv] } s (State.resumeChan s n) := by
  unfold State.resumeChan
  extract_lets +onlyGivenNames s1
  refine Within.ite ?_ ?_
  · refine (State.setChan_within ..).then ?_
    exact .refl
  · exact .refl

theorem State.noteLanes_within (s : State) : Within { pages := [Pg.chz] } s (State.noteLanes s) := by
  unfold State.noteLanes
  extract_lets +onlyGivenNames s1
  refine Within.foldl (fun s2 a3 h4 => ?_) ?_
  · extract_lets +onlyGivenNames s5
    refine Within.ite ?_ ?_
    · refine (State.setField_within ..).then ?_
      exact h4
    · exact h4
  · exact .refl

theorem State.freeLane_nb {s s1 : State} (h : Within { parts := [.recv], pages := [Pg.chz] } s s1) :
    Within { parts := [.recv], pages := [Pg.chz] } s (if s1.recv.nb.phase = .stopped then s1
      else { s1 with recv := { s1.recv with nb := { s1.recv.nb with phase := .leaving } } }) := by
  refine Within.ite ?_ ?_
  · exact h
  · refine Within.of_mk ?_
    exact h

theorem State.freeLane_wide {s s1 : State} {n k : Nat} {x : Chan} {pair : Bool}
    (h : Within { parts := [.recv], pages := [Pg.chz] } s s1) :
    Within { parts := [.recv], pages := [Pg.chz] } s (if pair then (s1.setChan n x).resumeChan k else s1.setChan n x) := by
  refine Within.ite ?_ ?_
  · refine (State.resumeChan_within ..).then ?_
    refine (State.setChan_within ..).then ?_
    exact h
  · refine (State.setChan_within ..).then ?_
    exact h

theorem State.freeLane_within (s : State) (l : Lane) (paused : Bool) :
    Within { parts := [.recv], pages := [Pg.chz] } s (State.freeLane s l paused) := by
  have h : Within { parts := [.recv], pages := [Pg.chz] } s (s.noteLanes.setLane l.no none) :=
    (State.setLane_within ..).then ((State.noteLanes_within ..).then .refl)
  unfold State.freeLane
  exact Within.ite (State.freeLane_nb h) (State.freeLane_wide h)

theorem State.claimWide_within (s : State) (n : Nat) (b : Nat) (rssi : Nat) :
    Within { parts := [.recv, .mrc], pages := [Pg.chz] } s (State.claimWide s n b rssi) := by
  unfold State.claimWide
  extract_lets +onlyGivenNames s1
  split
  · rename_i v2 v3
    refine (State.event_within ..).then ?_
    refine (State.count_within ..).then ?_
    exact .refl
  · rename_i v4 v5 v6
    extract_lets +onlyGivenNames s7
    extract_lets +onlyGivenNames s8
    extract_lets +onlyGivenNames s9
    refine Within.cut (x := s9) ?_ (fun h10 => ?_)
    · unfold s9
      refine (State.setChan_within ..).then ?_
      refine (State.setLane_within ..).then ?_
      exact .refl
    clear_value s9
    extract_lets +onlyGivenNames s11
    refine Within.cut (x := s11) ?_ (fun h12 => ?_)
    · unfold s11
      refine (State.noteLanes_within ..).then ?_
      refine (State.count_within ..).then ?_
      exact h10
    clear_value s11
    refine Within.ite ?_ ?_
    · refine (State.setChan_within ..).then ?_
      exact h12
    · exact h12

theorem State.detectWide_within (s : State) (n : Nat) (snr : List Nat) (next : List Nat) (rssi : Nat) :
    Within { parts := [.recv, .mrc], pages := [Pg.chz] } s (State.detectWide s n snr next rssi) := by
  unfold State.detectWide
  extract_lets +onlyGivenNames s1
  refine Within.ite ?_ ?_
  · exact .refl
  · extract_lets +onlyGivenNames s2
    extract_lets +onlyGivenNames s3
    extract_lets +onlyGivenNames s4
    extract_lets +onlyGivenNames s5
    refine Within.cut (x := s5) ?_ (fun h6 => ?_)
    · unfold s5
      clear_value s5
      clear_value s4
      clear_value s3
      split
      · rename_i v7 v8 v9
        refine (State.claimWide_within ..).then ?_
        exact .refl
      · rename_i v10
        exact .refl
    clear_value s5
    refine Within.ite ?_ ?_
    · clear_value s4
      clear_value s3
      clear_value s2
      split
      · rename_i v11 v12 v13
        refine (State.claimWide_within ..).then ?_
        exact h6
      · rename_i v14
        exact h6
    · exact h6

theorem State.detectNarrow_within (s : State) (snr : List Nat) (rssi : Nat) :
    Within { parts := [.freeCtr, .recv, .mrc], pages := [Pg.phy] } s (State.detectNarrow s snr rssi) := by
  unfold State.detectNarrow
  extract_lets +onlyGivenNames s1
  extract_lets +onlyGivenNames s2
  extract_lets +onlyGivenNames s3
  extract_lets +onlyGivenNames s4
  refine Within.ite ?_ ?_
  · exact .refl
  · split
    · rename_i v5 v6
      exact .refl
    · rename_i v7 v8 v9
      split
      rename_i v10 v11 v12 v13
      extract_lets +onlyGivenNames s14
      extract_lets +onlyGivenNames s15
      extract_lets +onlyGivenNames s16
      extract_lets +onlyGivenNames s17
      extract_lets +onlyGivenNames s18
      refine Within.cut (x := s18) ?_ (fun h19 => ?_)
      · unfold s18
        refine Within.of_mk ?_
        refine Within.snd v13 ?_
        refine (State.fresh_within ..).then ?_
        exact .refl
      clear_value s18
      refine (State.event_within ..).then ?_
      refine (State.setLane_within ..).then ?_
      exact h19

theorem execSlotDetect_within (rx : RxChan) (snr : List Nat) (next : List Nat) (power : Int) (s : State) :
    OutWithin { parts := [.freeCtr, .recv, .mrc], pages := [Pg.chz, Pg.phy] } s (execSlotDetect rx snr next power s) := by
  unfold execSlotDetect
  refine OutWithin.next ?_
  split
  · rename_i v1 v2
    refine (State.detectWide_within ..).then ?_
    exact .refl
  · rename_i v3
    refine (State.detectNarrow_within ..).then ?_
    exact .refl

theorem execSfdFound_within (rx : RxChan) (seen : List Nat) (hz : Int) (back : Nat) (power : Int) (s : State) :
    OutWithin { parts := [.recv], pages := [Pg.chz, Pg.phy] } s (execSfdFound rx seen hz back power s) := by
  unfold execSfdFound
  refine OutWithin.next ?_
  split
  · rename_i v1 v2
    exact .refl
  · rename_i v3 v4 v5
    refine Within.ite ?_ ?_
    · exact .refl
    · split
      · rename_i v6 v7
        exact .refl
      · rename_i v8 v9 v10
        split
        rename_i v11 v12 v13 v14
        extract_lets +onlyGivenNames s15
        extract_lets +onlyGivenNames s16
        extract_lets +onlyGivenNames s17
        extract_lets +onlyGivenNames s18
        refine Within.cut (x := s18) ?_ (fun h19 => ?_)
        · unfold s18
          refine (State.setLane_within ..).then ?_
          exact .refl
        clear_value s18
        split
        · rename_i v20 v21
          refine (State.setChan_within ..).then ?_
          refine (State.setReg_within ..).then ?_
          exact h19
        · rename_i v22
          refine (State.setReg_within ..).then ?_
          exact h19

theorem State.sfdTimeout_within (s : State) (rx : RxChan) :
    Within { parts := [.recv], pages := [Pg.chz] } s (State.sfdTimeout s rx) := by
  unfold State.sfdTimeout
  split
  · rename_i v1 v2
    exact .refl
  · rename_i v3 v4 v5
    refine Within.ite ?_ ?_
    · exact .refl
    · extract_lets +onlyGivenNames s6
      refine Within.cut (x := s6) ?_ (fun h7 => ?_)
      · unfold s6
        refine (State.freeLane_within ..).then ?_
        exact .refl
      clear_value s6
      refine Within.ite ?_ ?_
      · exact h7
      · refine (State.count_within ..).then ?_
        exact h7

theorem State.hrLow_within (s : State) (h : Nat) : Within { parts := [.mrc], pages := [Pg.phy] } s (State.hrLow s h) := by
  unfold State.hrLow
  extract_lets +onlyGivenNames s1
  refine Within.ite ?_ ?_
  · refine (State.event_within ..).then ?_
    exact .refl
  · exact .refl

theorem State.dropFrame_within (s : State) (l : Lane) :
    Within { parts := [.recv, .mrc], pages := [Pg.phy] } s (State.dropFrame s l) := by
  unfold State.dropFrame
  extract_lets +onlyGivenNames s1
  refine Within.cut (x := s1) ?_ (fun h2 => ?_)
  · unfold s1
    refine (State.event_within ..).then ?_
    refine (State.count_within ..).then ?_
    exact .refl
  clear_value s1
  extract_lets +onlyGivenNames s3
  extract_lets +onlyGivenNames s4
  refine Within.cut (x := s4) ?_ (fun h5 => ?_)
  · unfold s4
    refine Within.of_mk ?_
    exact h2
  clear_value s4
  refine (State.setLane_within ..).then ?_
  exact h5

theorem State.toChunks_within (s : State) (l : Lane) :
    Within { parts := [.mem, .doms, .flm, .drc, .mrc], pages := [Pg.drc] } s (State.toChunks s l) := by
  unfold State.toChunks
  refine Within.foldl (fun s1 a2 h3 => ?_) ?_
  · split
    rename_i v4 v5 v6
    extract_lets +onlyGivenNames s7
    extract_lets +onlyGivenNames s8
    split
    · rename_i v9 v10
      refine (State.putOctets_within ..).then ?_
      exact h3
    · rename_i v11 v12 v13
      refine (State.putOctets_within ..).then ?_
      refine (State.wake_within ..).then ?_
      exact h3
    · rename_i v14 v15 v16
      exact h3
  · exact .refl

theorem State.ringPlace_within (s : State) (h : Nat) (first : Nat) (k : Nat) (bs : List Byte) :
    Within { parts := [.mem, .doms, .flm, .drc, .mrc], pages := [Pg.drc] } s (State.ringPlace s h first k bs).1 := by
  unfold State.ringPlace
  split
  rename_i v1 v2 v3 v4
  split
  rename_i v5 v6 v7 v8
  refine Within.ite₁ ?_ ?_
  · split
    rename_i v9 v10 v11 v12
    dsimp only
    refine Within.fst v12 ?_
    refine (State.putOctets_within ..).then ?_
    refine Within.fst v8 ?_
    refine (State.putOctets_within ..).then ?_
    exact .refl
  · dsimp only
    refine Within.fst v8 ?_
    refine (State.putOctets_within ..).then ?_
    exact .refl

theorem State.spill_within (s : State) (l : Lane) (upTo : Nat) (must : Bool) :
    Within { parts := [.mem, .doms, .flm, .drc, .mrc], pages := [Pg.drc] } s (State.spill s l upTo must).1 := by
  unfold State.spill
  split
  · rename_i v1 v2
    dsimp only
    exact .refl
  · rename_i v3 v4 v5 v6
    extract_lets +onlyGivenNames s7
    refine Within.ite₁ ?_ ?_
    · dsimp only
      exact .refl
    · extract_lets +onlyGivenNames s8
      extract_lets +onlyGivenNames s9
      split
      · rename_i v10 v11
        unfold s9
        split
        rename_i v12 v13 v14 v15
        dsimp only
        refine Within.fst v15 ?_
        refine (State.ringPlace_within ..).then ?_
        exact .refl
      · rename_i v16 v17 v18
        refine Within.ite₁ ?_ ?_
        · unfold s9
          split
          rename_i v19 v20 v21 v22
          dsimp only
          refine Within.fst v22 ?_
          refine (State.ringPlace_within ..).then ?_
          refine (State.wake_within ..).then ?_
          exact .refl
        · dsimp only
          refine (State.wake_within ..).then ?_
          exact .refl
      · rename_i v23 v24 v25
        dsimp only
        exact .refl

theorem State.hrAdvance_within (s : State) (l : Lane) : Within { pages := [Pg.phy] } s (State.hrAdvance s l) := by
  unfold State.hrAdvance
  split
  · rename_i v1 v2
    exact .refl
  · rename_i v3 v4 v5 v6
    extract_lets +onlyGivenNames s7
    extract_lets +onlyGivenNames s8
    refine Within.ite ?_ ?_
    · refine (State.setReg_within ..).then ?_
      exact .refl
    · exact .refl

theorem State.postFrame_within (s : State) (f : RxFrame) :
    Within { parts := [.flm, .recv, .lnk], pages := [Pg.flm, Pg.phy] } s (State.postFrame s f) := by
  unfold State.postFrame
  extract_lets +onlyGivenNames s1
  extract_lets +onlyGivenNames s2
  extract_lets +onlyGivenNames s3
  extract_lets +onlyGivenNames s4
  extract_lets +onlyGivenNames s5
  refine Within.cut (x := s5) ?_ (fun h6 => ?_)
  · unfold s5
    refine Within.of_mk ?_
    exact .refl
  clear_value s5
  extract_lets +onlyGivenNames s7
  extract_lets +onlyGivenNames s8
  refine Within.cut (x := s8) ?_ (fun h9 => ?_)
  · unfold s8
    refine Within.ite ?_ ?_
    · refine (State.countDrop_within ..).then ?_
      exact h6
    · refine (State.report_within ..).then ?_
      refine Within.of_mk ?_
      exact h6
  clear_value s8
  refine (State.hrAdvance_within ..).then ?_
  exact h9

theorem State.settleFrame_within (s : State) (f : RxFrame) (must : Bool) :
    Within { parts := [.mem, .doms, .flm, .drc, .mrc], pages := [Pg.drc] } s (State.settleFrame s f must).1 := by
  unfold State.settleFrame
  refine Within.ite₁ ?_ ?_
  · split
    rename_i v1 v2 v3 v4 v5
    dsimp only
    refine Within.fst v5 ?_
    refine (State.spill_within ..).then ?_
    exact .refl
  · dsimp only
    exact .refl

theorem State.settleFrames_within (s : State) (must : Bool) (fs : List RxFrame) :
    Within { parts := [.mem, .doms, .flm, .drc, .mrc], pages := [Pg.drc] } s (State.settleFrames s must fs).1 := by
  induction fs generalizing s with
  | nil =>
    unfold State.settleFrames
    exact .refl
  | cons f fs ih =>
    unfold State.settleFrames
    dsimp only
    refine (ih _).then ?_
    refine (State.settleFrame_within ..).then ?_
    exact .refl

theorem State.flushFrames_within (s : State) (fs : List RxFrame) :
    Within { parts := [.flm, .recv, .lnk], pages := [Pg.flm, Pg.phy] } s (s.flushFrames fs) := by
  induction fs generalizing s with
  | nil =>
    unfold State.flushFrames
    refine Within.of_mk ?_
    exact .refl
  | cons f fs ih =>
    unfold State.flushFrames
    split
    · refine Within.of_mk ?_
      exact .refl
    · refine (ih _).then ?_
      refine (State.postFrame_within ..).then ?_
      refine Within.of_mk ?_
      exact .refl

theorem State.flushQueue_within (s : State) :
    Within { parts := [.mem, .doms, .flm, .drc, .recv, .mrc, .lnk], pages := [Pg.drc, Pg.flm, Pg.phy] } s (State.flushQueue s) := by
  unfold State.flushQueue
  split
  rename_i v1 v2 v3 v4
  refine (State.flushFrames_within ..).then ?_
  refine Within.fst v4 ?_
  refine (State.settleFrames_within ..).then ?_
  exact .refl

theorem State.handOver_within (s : State) (f : RxFrame) :
    Within { parts := [.mem, .doms, .flm, .drc, .recv, .mrc, .lnk], pages := [Pg.drc, Pg.flm, Pg.phy] } s (State.handOver s f) := by
  unfold State.handOver
  refine (State.flushQueue_within ..).then ?_
  refine Within.of_mk ?_
  exact .refl

theorem State.endFrame_within (s : State) (l : Lane) (crc : Bool) (cause : Nat) (lqi : Nat) (fec : Nat) :
    Within { parts := [.mem, .doms, .flm, .drc, .recv, .mrc, .lnk], pages := [Pg.chz, Pg.drc, Pg.flm, Pg.phy] } s (State.endFrame s l crc cause lqi fec) := by
  unfold State.endFrame
  extract_lets +onlyGivenNames s1
  refine Within.cut (x := s1) ?_ (fun h2 => ?_)
  · unfold s1
    refine (State.freeLane_within ..).then ?_
    exact .refl
  clear_value s1
  extract_lets +onlyGivenNames s3
  refine Within.cut (x := s3) ?_ (fun h4 => ?_)
  · unfold s3
    refine Within.ite ?_ ?_
    · refine (State.count_within ..).then ?_
      exact h2
    · exact h2
  clear_value s3
  refine Within.ite ?_ ?_
  · exact h4
  · refine (State.handOver_within ..).then ?_
    exact h4

theorem State.reserve_within (s : State) (l : Lane) (len : Nat) :
    Within { parts := [.recv, .mrc], pages := [Pg.phy] } s (State.reserve s l len) := by
  unfold State.reserve
  extract_lets +onlyGivenNames s1
  extract_lets +onlyGivenNames s2
  extract_lets +onlyGivenNames s3
  refine Within.ite ?_ ?_
  · refine (State.dropFrame_within ..).then ?_
    exact .refl
  · extract_lets +onlyGivenNames s4
    refine (State.hrLow_within ..).then ?_
    refine (State.setLane_within ..).then ?_
    exact .refl

theorem State.phrDecode_within (s : State) (rx : RxChan) (phr : Phr) (snr10 : Int) (corr : Nat) :
    Within { parts := [.mem, .doms, .flm, .drc, .recv, .mrc, .lnk], pages := [Pg.chz, Pg.drc, Pg.flm, Pg.phy] } s (State.phrDecode s rx phr snr10 corr) := by
  unfold State.phrDecode
  split
  · rename_i v1 v2
    exact .refl
  · rename_i v3 v4 v5
    refine Within.ite ?_ ?_
    · exact .refl
    · split
      · rename_i v6 v7
        refine (State.endFrame_within ..).then ?_
        exact .refl
      · rename_i v8 v9 v10 v11 v12
        refine Within.ite ?_ ?_
        · refine (State.endFrame_within ..).then ?_
          exact .refl
        · extract_lets +onlyGivenNames s13
          refine Within.ite ?_ ?_
          · refine (State.endFrame_within ..).then ?_
            exact .refl
          · refine (State.reserve_within ..).then ?_
            exact .refl

theorem State.copyChunks_within (s : State) (l : Lane) :
    Within { parts := [.mem, .doms, .flm, .drc, .recv, .mrc], pages := [Pg.drc, Pg.phy] } s (State.copyChunks s l) := by
  unfold State.copyChunks
  extract_lets +onlyGivenNames s1
  refine Within.cut (x := s1) ?_ (fun h2 => ?_)
  · unfold s1
    refine (State.toChunks_within ..).then ?_
    exact .refl
  clear_value s1
  split
  rename_i v3 v4 v5 v6 v7
  extract_lets +onlyGivenNames s8
  refine Within.cut (x := s8) ?_ (fun h9 => ?_)
  · unfold s8
    refine (State.setLane_within ..).then ?_
    refine Within.fst v7 ?_
    refine (State.spill_within ..).then ?_
    exact h2
  clear_value s8
  refine Within.ite ?_ ?_
  · split
    · rename_i v10 v11 v12
      refine Within.ite ?_ ?_
      · refine (State.setLane_within ..).then ?_
        exact h9
      · refine (State.dropFrame_within ..).then ?_
        exact h9
    · rename_i v13 v14
      refine (State.dropFrame_within ..).then ?_
      exact h9
  · exact h9

theorem execHopperChunkCopy_within (rx : RxChan) (octets : List Byte) (flips : List Flip) (s : State) :
    OutWithin { parts := [.mem, .doms, .flm, .drc, .flc, .recv, .mrc, .lnk], pages := [Pg.drc, Pg.flm, Pg.phy] } s (execHopperChunkCopy rx octets flips s) := by
  unfold execHopperChunkCopy
  extract_lets +onlyGivenNames s1
  refine OutWithin.cut (x := s1) ?_ (fun h2 => ?_)
  · unfold s1
    refine (State.flushQueue_within ..).then ?_
    refine (State.applyFlips_within ..).then ?_
    exact .refl
  clear_value s1
  refine OutWithin.next ?_
  split
  · rename_i v3 v4
    exact h2
  · rename_i v5 v6 v7
    refine Within.ite ?_ ?_
    · exact h2
    · extract_lets +onlyGivenNames s8
      refine Within.ite ?_ ?_
      · exact h2
      · refine (State.copyChunks_within ..).then ?_
        exact h2

theorem State.frameEnd_within (s : State) (rx : RxChan) (octets : List Byte) (snr10 : Int) (corr : Nat) :
    Within { parts := [.mem, .doms, .flm, .drc, .recv, .mrc, .lnk], pages := [Pg.drc, Pg.chz, Pg.flm, Pg.phy] } s (State.frameEnd s rx octets snr10 corr) := by
  unfold State.frameEnd
  split
  · rename_i v1 v2
    exact .refl
  · rename_i v3 v4 v5
    split
    · rename_i v6 v7
      exact .refl
    · rename_i v8 v9 v10
      extract_lets +onlyGivenNames s11
      extract_lets +onlyGivenNames s12
      refine (State.endFrame_within ..).then ?_
      refine (State.toChunks_within ..).then ?_
      exact .refl

theorem State.releaseLane_within (s : State) (l : Lane) (paused : Bool) :
    Within { parts := [.recv], pages := [Pg.chz] } s (State.releaseLane s l paused) := by
  unfold State.releaseLane
  extract_lets +onlyGivenNames s1
  refine Within.cut (x := s1) ?_ (fun h2 => ?_)
  · unfold s1
    refine (State.freeLane_within ..).then ?_
    exact .refl
  clear_value s1
  refine Within.ite ?_ ?_
  · exact h2
  · refine (State.count_within ..).then ?_
    exact h2

theorem State.cutLane_within (s : State) (l : Lane) (a : Air) (status : Nat) (cause : Nat) (paused : Bool) :
    Within { parts := [.mem, .doms, .flm, .drc, .recv, .mrc, .lnk], pages := [Pg.drc, Pg.chz, Pg.flm, Pg.phy] } s (State.cutLane s l a status cause paused) := by
  unfold State.cutLane
  extract_lets +onlyGivenNames s1
  extract_lets +onlyGivenNames s2
  extract_lets +onlyGivenNames s3
  refine Within.cut (x := s3) ?_ (fun h4 => ?_)
  · unfold s3
    refine (State.freeLane_within ..).then ?_
    refine (State.toChunks_within ..).then ?_
    exact .refl
  clear_value s3
  refine Within.ite ?_ ?_
  · exact h4
  · refine (State.handOver_within ..).then ?_
    exact h4

theorem State.cutLanes_within (s : State) (p : Lane → Bool) (air : List Air) (status : Nat) (cause : Nat) (paused : Bool) :
    Within { parts := [.mem, .doms, .flm, .drc, .recv, .mrc, .lnk], pages := [Pg.chz, Pg.drc, Pg.flm, Pg.phy] } s (State.cutLanes s p air status cause paused) := by
  unfold State.cutLanes
  extract_lets +onlyGivenNames s1
  extract_lets +onlyGivenNames s2
  refine Within.cut (x := s2) ?_ (fun h3 => ?_)
  · unfold s2
    refine Within.foldl (fun s4 a5 h6 => ?_) ?_
    · refine (State.releaseLane_within ..).then ?_
      exact h6
    · exact .refl
  clear_value s2
  refine Within.foldl (fun s7 a8 h9 => ?_) ?_
  · refine (State.cutLane_within ..).then ?_
    exact h9
  · exact h3

theorem State.pauseChans_within (s : State) (p : Nat → Bool) : Within { parts := [.recv] } s (State.pauseChans s p) := by
  unfold State.pauseChans
  refine Within.foldl (fun s1 a2 h3 => ?_) ?_
  · refine Within.ite ?_ ?_
    · refine (State.setChan_within ..).then ?_
      exact h3
    · exact h3
  · exact .refl

theorem State.unsettle_within (s : State) (p : Nat → Bool) : Within { parts := [.recv] } s (State.unsettle s p) := by
  unfold State.unsettle
  extract_lets +onlyGivenNames s1
  refine Within.of_mk ?_
  exact .refl

theorem State.unblank_within (s : State) : Within { parts := [.recv] } s (State.unblank s) := by
  unfold State.unblank
  refine Within.foldl (fun s1 a2 h3 => ?_) ?_
  · refine (State.resumeChan_within ..).then ?_
    exact h3
  · exact .refl

theorem State.nbHalt_within (s : State) : Within { parts := [.recv] } s (State.nbHalt s) := by
  unfold State.nbHalt
  refine Within.of_mk ?_
  exact .refl

theorem State.displaceUses_within (s : State) :
    Within { parts := [.recv, .lnk], pages := [Pg.lnk] } s (State.displaceUses s) := by
  unfold State.displaceUses
  extract_lets +onlyGivenNames s1
  extract_lets +onlyGivenNames s2
  refine Within.cut (x := s2) ?_ (fun h3 => ?_)
  · unfold s2
    refine Within.ite ?_ ?_
    · refine Within.of_mk ?_
      exact .refl
    · exact .refl
  clear_value s2
  refine Within.ite ?_ ?_
  · refine (State.nbHalt_within ..).then ?_
    refine (State.count_within ..).then ?_
    exact h3
  · exact h3

theorem State.deafen_within (s : State) (air : List Air) :
    Within { parts := [.mem, .doms, .flm, .drc, .recv, .mrc, .lnk], pages := [Pg.chz, Pg.drc, Pg.flm, Pg.phy] } s (State.deafen s air) := by
  unfold State.deafen
  refine (State.unsettle_within ..).then ?_
  refine (State.pauseChans_within ..).then ?_
  refine (State.cutLanes_within ..).then ?_
  exact .refl

theorem State.blankStart_within (s : State) (lo : Nat) (hi : Nat) (air : List Air) :
    Within { parts := [.mem, .doms, .flm, .drc, .recv, .mrc, .lnk], pages := [Pg.chz, Pg.drc, Pg.flm, Pg.phy] } s (State.blankStart s lo hi air) := by
  unfold State.blankStart
  extract_lets +onlyGivenNames s1
  extract_lets +onlyGivenNames s2
  refine Within.cut (x := s2) ?_ (fun h3 => ?_)
  · unfold s2
    refine Within.of_mk ?_
    exact .refl
  clear_value s2
  extract_lets +onlyGivenNames s4
  extract_lets +onlyGivenNames s5
  extract_lets +onlyGivenNames s6
  refine Within.cut (x := s6) ?_ (fun h7 => ?_)
  · unfold s6
    refine Within.of_mk ?_
    exact h3
  clear_value s6
  extract_lets +onlyGivenNames s8
  extract_lets +onlyGivenNames s9
  refine Within.cut (x := s9) ?_ (fun h10 => ?_)
  · unfold s9
    refine Within.foldl (fun s11 a12 h13 => ?_) ?_
    · refine (State.count_within ..).then ?_
      exact h13
    · exact h7
  clear_value s9
  extract_lets +onlyGivenNames s14
  refine Within.cut (x := s14) ?_ (fun h15 => ?_)
  · unfold s14
    refine (State.cutLanes_within ..).then ?_
    exact h10
  clear_value s14
  refine (State.unsettle_within ..).then ?_
  refine (State.pauseChans_within ..).then ?_
  exact h15

theorem State.blankEnd_within (s : State) : Within { parts := [.recv] } s (State.blankEnd s) := by
  unfold State.blankEnd
  refine (State.unblank_within ..).then ?_
  refine Within.of_mk ?_
  exact .refl

theorem State.quarterLeaves_within (s : State) (q : Nat) (air : List Air) :
    Within { parts := [.mem, .doms, .flm, .drc, .recv, .mrc, .lnk], pages := [Pg.chz, Pg.drc, Pg.flm, Pg.phy] } s (State.quarterLeaves s q air) := by
  unfold State.quarterLeaves
  extract_lets +onlyGivenNames s1
  refine Within.cut (x := s1) ?_ (fun h2 => ?_)
  · unfold s1
    refine (State.unsettle_within ..).then ?_
    refine (State.cutLanes_within ..).then ?_
    exact .refl
  clear_value s1
  refine Within.foldl (fun s3 a4 h5 => ?_) ?_
  · refine Within.ite ?_ ?_
    · refine (State.setChan_within ..).then ?_
      exact h5
    · exact h5
  · exact h2

theorem State.rfeLeaves_within (s : State) (air : List Air) :
    Within { parts := [.mem, .doms, .flm, .drc, .recv, .mrc, .lnk], pages := [Pg.chz, Pg.drc, Pg.flm, Pg.phy] } s (State.rfeLeaves s air) := by
  unfold State.rfeLeaves
  extract_lets +onlyGivenNames s1
  refine Within.cut (x := s1) ?_ (fun h2 => ?_)
  · unfold s1
    refine (State.unsettle_within ..).then ?_
    refine (State.nbHalt_within ..).then ?_
    refine (State.cutLanes_within ..).then ?_
    exact .refl
  clear_value s1
  refine Within.foldl (fun s3 a4 h5 => ?_) ?_
  · refine Within.ite ?_ ?_
    · refine (State.setChan_within ..).then ?_
      exact h5
    · exact h5
  · exact h2

theorem State.quarterOn_within (s : State) (q : Nat) : Within { parts := [.recv] } s (State.quarterOn s q) := by
  unfold State.quarterOn
  extract_lets +onlyGivenNames s1
  refine Within.cut (x := s1) ?_ (fun h2 => ?_)
  · unfold s1
    refine (State.unsettle_within ..).then ?_
    exact .refl
  clear_value s1
  refine Within.foldl (fun s3 a4 h5 => ?_) ?_
  · refine Within.ite ?_ ?_
    · refine (State.setChan_within ..).then ?_
      exact h5
    · exact h5
  · exact h2

theorem execSettlingDone_within (channel : Nat) (s : State) :
    OutWithin { parts := [.recv] } s (execSettlingDone channel s) := by
  unfold execSettlingDone
  refine OutWithin.next ?_
  refine Within.ite ?_ ?_
  · exact .refl
  · extract_lets +onlyGivenNames s1
    extract_lets +onlyGivenNames s2
    refine Within.cut (x := s2) ?_ (fun h3 => ?_)
    · unfold s2
      refine Within.of_mk ?_
      exact .refl
    refine Within.ite ?_ ?_
    · refine (State.setChan_within ..).then ?_
      exact h3
    · exact h3

theorem execNfWindowEnd_within (channel : Nat) (idle : Nat) (power : Int) (s : State) :
    OutWithin { parts := [.recv], pages := [Pg.chz] } s (execNfWindowEnd channel idle power s) := by
  unfold execNfWindowEnd
  refine OutWithin.next ?_
  refine Within.ite ?_ ?_
  · exact .refl
  · extract_lets +onlyGivenNames s1
    extract_lets +onlyGivenNames s2
    refine Within.cut (x := s2) ?_ (fun h3 => ?_)
    · unfold s2
      refine Within.of_mk ?_
      exact .refl
    clear_value s2
    extract_lets +onlyGivenNames s4
    extract_lets +onlyGivenNames s5
    refine Within.ite ?_ ?_
    · refine (State.setReg_within ..).then ?_
      exact h3
    · refine (State.setReg_within ..).then ?_
      exact h3

theorem execNfSnapshot_within (s : State) :
    OutWithin { parts := [.mem, .doms, .flm, .drc, .recv, .mrc], pages := [Pg.drc, Pg.chz] } s (execNfSnapshot s) := by
  unfold execNfSnapshot
  refine OutWithin.next ?_
  extract_lets +onlyGivenNames s1
  refine Within.ite ?_ ?_
  · exact .refl
  · extract_lets +onlyGivenNames s2
    extract_lets +onlyGivenNames s3
    split
    · rename_i v4 v5 v6
      refine Within.fst v6 ?_
      refine (State.unitWrite_within ..).then ?_
      exact .refl
    · rename_i v7 v8 v9 v10 v11
      extract_lets +onlyGivenNames s12
      extract_lets +onlyGivenNames s13
      extract_lets +onlyGivenNames s14
      refine Within.cut (x := s14) ?_ (fun h15 => ?_)
      · unfold s14
        refine Within.of_mk ?_
        refine Within.fst v11 ?_
        refine (State.unitWrite_within ..).then ?_
        exact .refl
      clear_value s14
      extract_lets +onlyGivenNames s16
      refine Within.cut (x := s16) ?_ (fun h17 => ?_)
      · unfold s16
        refine (State.event_within ..).then ?_
        exact h15
      clear_value s16
      refine Within.ite ?_ ?_
      · extract_lets +onlyGivenNames s18
        refine (State.report_within ..).then ?_
        exact h17
      · exact h17

theorem State.hrConsWrite_within (s : State) (h : Nat) (v : Word) :
    Within { parts := [.mrc], pages := [Pg.phy] } s (State.hrConsWrite s h v) := by
  unfold State.hrConsWrite
  refine (State.hrLow_within ..).then ?_
  refine (State.setReg_within ..).then ?_
  exact .refl

theorem execHrConsWrite_within (ini : Initiator) (ring : Nat) (value : Word) (s : State) :
    OutWithin { parts := [.doms, .replies, .stalls, .debugErr, .mrc], pages := [Pg.phy, Pg.sec] } s (execHrConsWrite ini ring value s) := by
  unfold execHrConsWrite
  refine OutWithin.next ?_
  refine Within.ite ?_ ?_
  · exact .refl
  · refine State.pageWrite_within ?_ (fun s1 h2 => ?_)
    · exact .refl
    · refine (State.hrConsWrite_within ..).then ?_
      exact h2

theorem State.hrCfgWrite_within (s : State) (ini : Initiator) (h : Nat) (v : Word) :
    Within { parts := [.mrc], pages := [Pg.phy] } s (State.hrCfgWrite s ini h v) := by
  unfold State.hrCfgWrite
  extract_lets +onlyGivenNames s1
  extract_lets +onlyGivenNames s2
  extract_lets +onlyGivenNames s3
  refine Within.ite ?_ ?_
  · refine (State.lockedErr_within ..).then ?_
    exact .refl
  · refine Within.ite ?_ ?_
    · refine (State.setReg_within ..).then ?_
      exact .refl
    · refine Within.ite ?_ ?_
      · refine (State.setReg_within ..).then ?_
        exact .refl
      · refine Within.ite ?_ ?_
        · refine (State.raise_within ..).then ?_
          refine (State.setReg_within ..).then ?_
          exact .refl
        · refine (State.setReg_within ..).then ?_
          refine (State.setReg_within ..).then ?_
          refine (State.setReg_within ..).then ?_
          exact .refl

theorem State.hrBaseWrite_within (s : State) (ini : Initiator) (h : Nat) (v : Word) :
    Within { parts := [.mrc], pages := [Pg.phy] } s (State.hrBaseWrite s ini h v) := by
  unfold State.hrBaseWrite
  refine Within.ite ?_ ?_
  · refine (State.lockedErr_within ..).then ?_
    exact .refl
  · refine Within.ite ?_ ?_
    · exact .refl
    · refine (State.setReg_within ..).then ?_
      exact .refl

theorem execHopperRingEnable_within (ini : Initiator) (ring : Nat) (value : Word) (s : State) :
    OutWithin { parts := [.doms, .replies, .stalls, .debugErr, .mrc], pages := [Pg.phy, Pg.sec] } s (execHopperRingEnable ini ring value s) := by
  unfold execHopperRingEnable
  refine OutWithin.next ?_
  refine Within.ite ?_ ?_
  · exact .refl
  · refine State.pageWrite_within ?_ (fun s1 h2 => ?_)
    · exact .refl
    · refine (State.hrCfgWrite_within ..).then ?_
      exact h2

theorem State.rxRetune_within (s : State) : Within { parts := [.syn] } s (State.rxRetune s) := by
  unfold State.rxRetune
  refine Within.of_mk ?_
  exact .refl

theorem State.nbGo_within (s : State) (k : Nat) (mask : Nat) (use : NbUse) (dwell : Option Nat) :
    Within { parts := [.recv, .syn] } s (State.nbGo s k mask use dwell) := by
  unfold State.nbGo
  extract_lets +onlyGivenNames s1
  extract_lets +onlyGivenNames s2
  refine Within.cut (x := s2) ?_ (fun h3 => ?_)
  · unfold s2
    refine Within.ite ?_ ?_
    · refine (State.rxRetune_within ..).then ?_
      exact .refl
    · exact .refl
  clear_value s2
  refine Within.of_mk ?_
  exact h3

theorem State.nbStart_within (s : State) : Within { parts := [.recv, .syn] } s (State.nbStart s) := by
  unfold State.nbStart
  refine Within.ite ?_ ?_
  · exact .refl
  · split
    · rename_i v1 v2 v3
      refine (State.nbGo_within ..).then ?_
      exact .refl
    · rename_i v4 v5
      exact .refl

theorem State.nbRest_within (s : State) : Within { parts := [.recv, .syn] } s (State.nbRest s) := by
  unfold State.nbRest
  refine Within.ite ?_ ?_
  · refine (State.nbStart_within ..).then ?_
    refine (State.nbHalt_within ..).then ?_
    exact .refl
  · refine (State.nbHalt_within ..).then ?_
    exact .refl

theorem State.nbGiveUp_within (s : State) : Within { parts := [.recv, .syn] } s (State.nbGiveUp s) := by
  unfold State.nbGiveUp
  refine Within.ite ?_ ?_
  · refine Within.of_mk ?_
    exact .refl
  · refine (State.nbRest_within ..).then ?_
    exact .refl

theorem State.nbCtrlWrite_within (s : State) (ini : Initiator) (v : Word) :
    Within { parts := [.recv, .syn, .mrc], pages := [Pg.phy] } s (State.nbCtrlWrite s ini v) := by
  unfold State.nbCtrlWrite
  split
  · rename_i v1 v2
    refine (State.raise_within ..).then ?_
    exact .refl
  · rename_i v3 v4
    extract_lets +onlyGivenNames s5
    refine Within.cut (x := s5) ?_ (fun h6 => ?_)
    · unfold s5
      refine (State.setReg_within ..).then ?_
      exact .refl
    clear_value s5
    refine Within.ite ?_ ?_
    · exact h6
    · refine (State.nbStart_within ..).then ?_
      exact h6
  · rename_i v7 v8 v9
    extract_lets +onlyGivenNames s10
    refine Within.cut (x := s10) ?_ (fun h11 => ?_)
    · unfold s10
      refine (State.setReg_within ..).then ?_
      exact .refl
    clear_value s10
    refine Within.ite ?_ ?_
    · exact h11
    · refine (State.nbHalt_within ..).then ?_
      exact h11

theorem execNbStop_within (ini : Initiator) (s : State) :
    OutWithin { parts := [.doms, .replies, .stalls, .debugErr, .recv, .syn, .mrc], pages := [Pg.phy, Pg.sec] } s (execNbStop ini s) := by
  unfold execNbStop
  refine OutWithin.next ?_
  refine State.pageWrite_within ?_ (fun s1 h2 => ?_)
  · exact .refl
  · refine (State.nbCtrlWrite_within ..).then ?_
    exact h2

theorem execNbCycle_within (ini : Initiator) (s : State) :
    OutWithin { parts := [.doms, .replies, .stalls, .debugErr, .recv, .syn, .mrc], pages := [Pg.phy, Pg.sec] } s (execNbCycle ini s) := by
  unfold execNbCycle
  refine OutWithin.next ?_
  refine State.pageWrite_within ?_ (fun s1 h2 => ?_)
  · exact .refl
  · refine (State.nbCtrlWrite_within ..).then ?_
    exact h2

theorem execNbRunLnk_within (ini : Initiator) (s : State) :
    OutWithin { parts := [.doms, .replies, .stalls, .debugErr, .recv, .syn, .mrc], pages := [Pg.phy, Pg.sec] } s (execNbRunLnk ini s) := by
  unfold execNbRunLnk
  refine OutWithin.next ?_
  refine State.pageWrite_within ?_ (fun s1 h2 => ?_)
  · exact .refl
  · refine (State.nbCtrlWrite_within ..).then ?_
    exact h2

theorem State.switchKeys_within (s : State) (p : Nat → Bool) :
    Within { parts := [.staged], all := true } s (State.switchKeys s p) := by
  unfold State.switchKeys
  extract_lets +onlyGivenNames s1
  extract_lets +onlyGivenNames s2
  refine Within.cut (x := s2) ?_ (fun h3 => ?_)
  · unfold s2
    refine Within.foldl (fun s4 a5 h6 => ?_) ?_
    · refine (State.setReg_within ..).then ?_
      exact h6
    · exact .refl
  clear_value s2
  refine Within.of_mk ?_
  exact h3

theorem State.endCommit_within (s : State) (c : Commit) :
    Within { parts := [.claims, .commits, .mrc], all := true } s (State.endCommit s c) := by
  unfold State.endCommit
  refine Within.ite ?_ ?_
  · exact .refl
  · extract_lets +onlyGivenNames s1
    refine Within.cut (x := s1) ?_ (fun h2 => ?_)
    · unfold s1
      refine Within.of_mk ?_
      exact .refl
    clear_value s1
    extract_lets +onlyGivenNames s3
    refine Within.cut (x := s3) ?_ (fun h4 => ?_)
    · unfold s3
      refine (State.setField_within ..).then ?_
      refine (State.bumpGen_within ..).then ?_
      exact h2
    clear_value s3
    refine (State.releaseClaim_within ..).then ?_
    refine (State.event_within ..).then ?_
    exact h4

theorem State.chanSwitched_within (s : State) (n : Nat) : Within { parts := [.recv] } s (State.chanSwitched s n) := by
  unfold State.chanSwitched
  extract_lets +onlyGivenNames s1
  refine Within.ite ?_ ?_
  · exact .refl
  · refine Within.ite ?_ ?_
    · refine (State.setChan_within ..).then ?_
      exact .refl
    · refine Within.ite ?_ ?_
      · refine (State.setChan_within ..).then ?_
        exact .refl
      · exact .refl

theorem State.chzSwitch_within (s : State) (c : Commit) :
    Within { parts := [.staged, .claims, .commits, .recv, .mrc], all := true } s (State.chzSwitch s c) := by
  unfold State.chzSwitch
  extract_lets +onlyGivenNames s1
  refine Within.ite ?_ ?_
  · refine Within.ite ?_ ?_
    · exact .refl
    · extract_lets +onlyGivenNames s2
      extract_lets +onlyGivenNames s3
      extract_lets +onlyGivenNames s4
      extract_lets +onlyGivenNames s5
      refine Within.cut (x := s5) ?_ (fun h6 => ?_)
      · unfold s5
        refine (State.switchKeys_within ..).then ?_
        exact .refl
      clear_value s5
      extract_lets +onlyGivenNames s7
      refine Within.cut (x := s7) ?_ (fun h8 => ?_)
      · unfold s7
        refine Within.foldl (fun s9 a10 h11 => ?_) ?_
        · refine Within.ite ?_ ?_
          · exact h11
          · refine (State.setReg_within ..).then ?_
            exact h11
        · exact h6
      clear_value s7
      extract_lets +onlyGivenNames s12
      extract_lets +onlyGivenNames s13
      refine Within.cut (x := s13) ?_ (fun h14 => ?_)
      · unfold s13
        refine (State.unsettle_within ..).then ?_
        refine Within.of_mk ?_
        exact h8
      clear_value s13
      refine (State.endCommit_within ..).then ?_
      refine Within.foldl (fun s15 a16 h17 => ?_) ?_
      · refine (State.chanSwitched_within ..).then ?_
        exact h17
      · exact h14
  · extract_lets +onlyGivenNames s18
    extract_lets +onlyGivenNames s19
    extract_lets +onlyGivenNames s20
    refine Within.cut (x := s20) ?_ (fun h21 => ?_)
    · unfold s20
      refine (State.switchKeys_within ..).then ?_
      exact .refl
    clear_value s20
    refine (State.endCommit_within ..).then ?_
    refine Within.foldl (fun s22 a23 h24 => ?_) ?_
    · refine (State.chanSwitched_within ..).then ?_
      exact h24
    · exact h21

theorem State.pathSwitched_within (s : State) (old : Nat) :
    Within { parts := [.recv, .syn], pages := [Pg.chz] } s (State.pathSwitched s old) := by
  unfold State.pathSwitched
  extract_lets +onlyGivenNames s1
  refine Within.cut (x := s1) ?_ (fun h2 => ?_)
  · unfold s1
    refine Within.foldl (fun s3 a4 h5 => ?_) ?_
    · refine (State.releaseLane_within ..).then ?_
      exact h5
    · exact .refl
  clear_value s1
  refine Within.ite ?_ ?_
  · exact h2
  · extract_lets +onlyGivenNames s6
    refine Within.cut (x := s6) ?_ (fun h7 => ?_)
    · unfold s6
      refine (State.unsettle_within ..).then ?_
      refine (State.nbHalt_within ..).then ?_
      refine (State.rxRetune_within ..).then ?_
      exact h2
    clear_value s6
    extract_lets +onlyGivenNames s8
    refine Within.cut (x := s8) ?_ (fun h9 => ?_)
    · unfold s8
      refine Within.foldl (fun s10 a11 h12 => ?_) ?_
      · refine Within.ite ?_ ?_
        · refine (State.setChan_within ..).then ?_
          exact h12
        · exact h12
      · exact h7
    clear_value s8
    refine (State.nbRest_within ..).then ?_
    exact h9

theorem State.phySwitch_within (s : State) (c : Commit) (dwellEnds : Bool) :
    Within { parts := [.staged, .claims, .commits, .recv, .syn, .mrc], all := true } s (State.phySwitch s c dwellEnds) := by
  unfold State.phySwitch
  extract_lets +onlyGivenNames s1
  extract_lets +onlyGivenNames s2
  extract_lets +onlyGivenNames s3
  refine Within.ite ?_ ?_
  · exact .refl
  · extract_lets +onlyGivenNames s4
    extract_lets +onlyGivenNames s5
    refine Within.cut (x := s5) ?_ (fun h6 => ?_)
    · unfold s5
      refine (State.switchKeys_within ..).then ?_
      exact .refl
    clear_value s5
    refine (State.endCommit_within ..).then ?_
    refine Within.ite ?_ ?_
    · refine (State.pathSwitched_within ..).then ?_
      exact h6
    · exact h6

theorem State.radioRests_within (s : State) : Within { parts := [.doms] } s (State.radioRests s) := by
  unfold State.radioRests
  refine Within.ite ?_ ?_
  · refine (State.rest_within ..).then ?_
    refine (State.rest_within ..).then ?_
    exact .refl
  · exact .refl

theorem State.nbNext_within (s : State) :
    Within { parts := [.staged, .claims, .commits, .doms, .recv, .syn, .mrc, .lnk], all := true } s (State.nbNext s) := by
  unfold State.nbNext
  extract_lets +onlyGivenNames s1
  extract_lets +onlyGivenNames s2
  refine Within.cut (x := s2) ?_ (fun h3 => ?_)
  · unfold s2
    split
    · rename_i v4 v5 v6
      refine (State.phySwitch_within ..).then ?_
      exact .refl
    · rename_i v7 v8
      exact .refl
  refine Within.ite ?_ ?_
  · refine (State.nbHalt_within ..).then ?_
    exact h3
  · split
    · rename_i v9 v10
      refine Within.ite ?_ ?_
      · refine (State.nbHalt_within ..).then ?_
        exact h3
      · split
        · rename_i v11 v12 v13
          refine (State.nbGo_within ..).then ?_
          exact h3
        · rename_i v14 v15
          refine (State.nbStart_within ..).then ?_
          exact h3
    · rename_i v16 v17
      split
      · rename_i v18 v19 v20
        refine (State.nbGo_within ..).then ?_
        exact h3
      · rename_i v21 v22
        split
        · rename_i v23 v24
          refine (State.radioRests_within ..).then ?_
          refine (State.event_within ..).then ?_
          refine (State.nbRest_within ..).then ?_
          exact h3
        · rename_i v25 v26
          refine (State.event_within ..).then ?_
          refine (State.nbRest_within ..).then ?_
          refine Within.of_mk ?_
          exact h3
        · rename_i v27 v28 v29
          refine (State.nbRest_within ..).then ?_
          exact h3

theorem State.moveOn_within (s : State) :
    Within { parts := [.staged, .claims, .commits, .doms, .recv, .syn, .mrc, .lnk], all := true } s (State.moveOn s) := by
  unfold State.moveOn
  refine Within.ite ?_ ?_
  · refine (State.nbNext_within ..).then ?_
    exact .refl
  · exact .refl

theorem execSfdTimeout_within (rx : RxChan) (s : State) :
    OutWithin { parts := [.staged, .claims, .commits, .doms, .recv, .syn, .mrc, .lnk], all := true } s (execSfdTimeout rx s) := by
  unfold execSfdTimeout
  refine OutWithin.next ?_
  refine (State.moveOn_within ..).then ?_
  refine (State.sfdTimeout_within ..).then ?_
  exact .refl

theorem execPhrDecode_within (rx : RxChan) (phr : Phr) (snr10 : Int) (corr : Nat) (s : State) :
    OutWithin { parts := [.staged, .claims, .commits, .mem, .doms, .flm, .drc, .recv, .syn, .mrc, .lnk], all := true } s (execPhrDecode rx phr snr10 corr s) := by
  unfold execPhrDecode
  refine OutWithin.next ?_
  refine (State.moveOn_within ..).then ?_
  refine (State.phrDecode_within ..).then ?_
  exact .refl

theorem execFrameEnd_within (rx : RxChan) (octets : List Byte) (snr10 : Int) (corr : Nat) (flips : List Flip) (s : State) :
    OutWithin { parts := [.staged, .claims, .commits, .mem, .doms, .flm, .drc, .flc, .recv, .syn, .mrc, .lnk], all := true } s (execFrameEnd rx octets snr10 corr flips s) := by
  unfold execFrameEnd
  refine OutWithin.next ?_
  refine (State.moveOn_within ..).then ?_
  refine (State.frameEnd_within ..).then ?_
  refine (State.applyFlips_within ..).then ?_
  exact .refl

theorem execNbDwellEnd_within (s : State) :
    OutWithin { parts := [.staged, .claims, .commits, .doms, .recv, .syn, .mrc, .lnk], all := true } s (execNbDwellEnd s) := by
  unfold execNbDwellEnd
  refine OutWithin.next ?_
  refine Within.ite ?_ ?_
  · refine (State.nbNext_within ..).then ?_
    exact .refl
  · exact .refl

theorem execNbRetuneDone_within (s : State) : OutWithin { parts := [.recv] } s (execNbRetuneDone s) := by
  unfold execNbRetuneDone
  refine OutWithin.next ?_
  refine Within.ite ?_ ?_
  · refine Within.of_mk ?_
    exact .refl
  · exact .refl

theorem State.measured_within (s : State) (live : Bool) (keep : Word) :
    Within { parts := [.freeCtr] } s (State.measured s live keep).2 := by
  unfold State.measured
  refine Within.ite₂ ?_ ?_
  · split
    rename_i v1 v2 v3 v4
    dsimp only
    refine Within.snd v4 ?_
    refine (State.fresh_within ..).then ?_
    exact .refl
  · dsimp only
    exact .refl

theorem State.chzRead_within (s : State) (idx : Nat) (off : Nat) :
    ReadWithin { parts := [.freeCtr], pages := [Pg.chz] } s (State.chzRead s idx off) := by
  unfold State.chzRead
  split
  · rename_i v1
    refine ReadWithin.some ?_
    refine (State.measured_within ..).then ?_
    exact .refl
  · rename_i v2
    refine ReadWithin.some ?_
    dsimp only
    exact .refl
  · rename_i v3
    refine ReadWithin.some ?_
    dsimp only
    exact .refl
  · rename_i v4
    refine ReadWithin.some ?_
    dsimp only
    exact .refl
  · rename_i v5 v6 v7 v8 v9
    exact ReadWithin.none

theorem State.phyRead_within (s : State) (off : Nat) : ReadWithin { parts := [.freeCtr] } s (State.phyRead s off) := by
  unfold State.phyRead
  refine ReadWithin.ite ?_ ?_
  · extract_lets +onlyGivenNames s1
    extract_lets +onlyGivenNames s2
    split
    · rename_i v3 v4 v5
      refine ReadWithin.some ?_
      dsimp only
      exact .refl
    · rename_i v6 v7
      refine ReadWithin.some ?_
      refine (State.measured_within ..).then ?_
      exact .refl
  · refine ReadWithin.ite ?_ ?_
    · extract_lets +onlyGivenNames s8
      refine ReadWithin.some ?_
      dsimp only
      exact .refl
    · exact ReadWithin.none

end Sys2Proof.Machine
end

