-- ==== Sys2Proof/Laws/FrameRf.lean ====
section
/-! SUPPORT. What each operation of Machine/Rf.lean may change, and that it keeps a sound state sound. -/

namespace Sys2Proof.Machine

-- one proof at a time: the file holds many small ones
set_option Elab.async false

theorem State.antselWrite_within (s : State) (v : Word) : Within { pages := [Pg.rfe] } s (State.antselWrite s v) := by
  unfold State.antselWrite
  extract_lets +onlyGivenNames s1
  refine Within.ite ?_ ?_
  · exact .refl
  · refine Within.ite ?_ ?_
    · exact .refl
    · refine (State.setReg_within ..).then ?_
      exact .refl

theorem execAntselWrite_within (ini : Initiator) (value : Word) (s : State) :
    OutWithin { parts := [.doms, .replies, .stalls, .debugErr, .mrc], pages := [Pg.rfe, Pg.sec] } s (execAntselWrite ini value s) := by
  unfold execAntselWrite
  refine OutWithin.next ?_
  refine State.pageWrite_within ?_ (fun s1 h2 => ?_)
  · exact .refl
  · refine (State.antselWrite_within ..).then ?_
    exact h2

theorem State.antSwitch_within (s : State) : Within { parts := [.mrc], pages := [Pg.rfe] } s (State.antSwitch s) := by
  unfold State.antSwitch
  extract_lets +onlyGivenNames s1
  refine Within.ite ?_ ?_
  · refine (State.event_within ..).then ?_
    refine (State.setReg_within ..).then ?_
    exact .refl
  · exact .refl

theorem execAntSwitch_within (s : State) : OutWithin { parts := [.mrc], pages := [Pg.rfe] } s (execAntSwitch s) := by
  unfold execAntSwitch
  refine OutWithin.next ?_
  refine Within.ite ?_ ?_
  · exact .refl
  · refine (State.antSwitch_within ..).then ?_
    exact .refl

theorem execAntMeasureSwitch_within (corr : Nat) (s : State) :
    OutWithin { parts := [.recv] } s (execAntMeasureSwitch corr s) := by
  unfold execAntMeasureSwitch
  refine OutWithin.next ?_
  split
  · rename_i v1 v2 v3
    refine Within.ite ?_ ?_
    · refine (State.setLane_within ..).then ?_
      exact .refl
    · exact .refl
  · rename_i v4 v5
    exact .refl

theorem execAntMeasureChoose_within (corr : Nat) (s : State) :
    OutWithin { parts := [.freeCtr, .recv] } s (execAntMeasureChoose corr s) := by
  unfold execAntMeasureChoose
  refine OutWithin.next ?_
  split
  · rename_i v1 v2 v3
    split
    · rename_i v4 v5 v6
      refine Within.ite ?_ ?_
      · exact .refl
      · split
        rename_i v7 v8 v9 v10
        extract_lets +onlyGivenNames s11
        refine (State.setLane_within ..).then ?_
        refine Within.snd v10 ?_
        refine Within.ite₂ ?_ ?_
        · refine (State.fresh_within ..).then ?_
          exact .refl
        · dsimp only
          exact .refl
    · rename_i v12 v13
      exact .refl
  · rename_i v14 v15
    exact .refl

theorem State.antSwitched_within (s : State) : Within { pages := [Pg.rfe] } s (State.antSwitched s) := by
  unfold State.antSwitched
  refine Within.ite ?_ ?_
  · exact .refl
  · refine (State.setReg_within ..).then ?_
    exact .refl

theorem State.warnLanes_within (s : State) (f : Lane → Lane) : Within { parts := [.recv] } s (State.warnLanes s f) := by
  unfold State.warnLanes
  refine Within.foldl (fun s1 a2 h3 => ?_) ?_
  · refine (State.setLane_within ..).then ?_
    exact h3
  · exact .refl

theorem State.agcWrite_within (s : State) (ini : Initiator) (v : Word) :
    Within { parts := [.mrc], pages := [Pg.rfe] } s (State.agcWrite s ini v) := by
  unfold State.agcWrite
  extract_lets +onlyGivenNames s1
  refine Within.cut (x := s1) ?_ (fun h2 => ?_)
  · unfold s1
    refine (State.plainWrite_within ..).then ?_
    exact .refl
  clear_value s1
  extract_lets +onlyGivenNames s3
  refine Within.ite ?_ ?_
  · refine (State.setField_within ..).then ?_
    exact h2
  · exact h2

theorem execAgcStep_within (up : Bool) (s : State) :
    OutWithin { parts := [.recv, .mrc], pages := [Pg.rfe] } s (execAgcStep up s) := by
  unfold execAgcStep
  refine OutWithin.next ?_
  extract_lets +onlyGivenNames s1
  extract_lets +onlyGivenNames s2
  refine Within.ite ?_ ?_
  · exact .refl
  · extract_lets +onlyGivenNames s3
    refine Within.cut (x := s3) ?_ (fun h4 => ?_)
    · unfold s3
      refine (State.setField_within ..).then ?_
      exact .refl
    clear_value s3
    refine (State.warnLanes_within ..).then ?_
    refine (State.event_within ..).then ?_
    refine (State.count_within ..).then ?_
    exact h4

theorem execAdcClip_within (s : State) : OutWithin { parts := [.recv, .mrc], pages := [Pg.chz] } s (execAdcClip s) := by
  unfold execAdcClip
  refine OutWithin.next ?_
  refine Within.ite ?_ ?_
  · exact .refl
  · refine (State.warnLanes_within ..).then ?_
    refine (State.event_within ..).then ?_
    exact .refl

theorem execIqseedWrite_within (ini : Initiator) (value : Word) (s : State) :
    OutWithin { parts := [.doms, .replies, .stalls, .debugErr, .mrc], pages := [Pg.rfe, Pg.sec] } s (execIqseedWrite ini value s) := by
  unfold execIqseedWrite
  refine OutWithin.next ?_
  refine State.pageWrite_within ?_ (fun s1 h2 => ?_)
  · exact .refl
  · refine (State.setReg_within ..).then ?_
    exact h2

theorem execIqConverge_within (phase : Nat) (gain : Nat) (s : State) :
    OutWithin { parts := [.recv, .mrc], pages := [Pg.rfe] } s (execIqConverge phase gain s) := by
  unfold execIqConverge
  refine OutWithin.next ?_
  refine Within.ite ?_ ?_
  · exact .refl
  · extract_lets +onlyGivenNames s1
    refine Within.cut (x := s1) ?_ (fun h2 => ?_)
    · unfold s1
      refine (State.setReg_within ..).then ?_
      exact .refl
    clear_value s1
    refine Within.ite ?_ ?_
    · exact h2
    · refine (State.event_within ..).then ?_
      refine Within.of_mk ?_
      exact h2

theorem State.rfeRead_within (s : State) (off : Nat) :
    ReadWithin { parts := [.freeCtr], pages := [Pg.rfe] } s (State.rfeRead s off) := by
  unfold State.rfeRead
  refine ReadWithin.ite ?_ ?_
  · split
    rename_i v1 v2 v3 v4
    refine ReadWithin.some ?_
    dsimp only
    refine (State.setReg_within ..).then ?_
    refine Within.snd v4 ?_
    refine (State.fresh_within ..).then ?_
    exact .refl
  · refine ReadWithin.ite ?_ ?_
    · refine ReadWithin.some ?_
      dsimp only
      exact .refl
    · exact ReadWithin.none

theorem State.setSyn_within (s : State) (f : Syn → Syn) : Within { parts := [.syn] } s (State.setSyn s f) := by
  unfold State.setSyn
  refine Within.of_mk ?_
  exact .refl

theorem execTempUpdate_within (die : Int) (s : State) :
    OutWithin { parts := [.syn, .mrc], pages := [Pg.syn] } s (execTempUpdate die s) := by
  unfold execTempUpdate
  refine OutWithin.next ?_
  extract_lets +onlyGivenNames s1
  refine Within.cut (x := s1) ?_ (fun h2 => ?_)
  · unfold s1
    refine (State.setSyn_within ..).then ?_
    exact .refl
  clear_value s1
  refine Within.ite ?_ ?_
  · exact h2
  · extract_lets +onlyGivenNames s3
    refine Within.cut (x := s3) ?_ (fun h4 => ?_)
    · unfold s3
      refine (State.setField_within ..).then ?_
      exact h2
    clear_value s3
    extract_lets +onlyGivenNames s5
    extract_lets +onlyGivenNames s6
    extract_lets +onlyGivenNames s7
    extract_lets +onlyGivenNames s8
    extract_lets +onlyGivenNames s9
    refine Within.cut (x := s9) ?_ (fun h10 => ?_)
    · unfold s9
      refine (State.setSyn_within ..).then ?_
      exact h4
    clear_value s9
    extract_lets +onlyGivenNames s11
    refine Within.cut (x := s11) ?_ (fun h12 => ?_)
    · unfold s11
      refine Within.ite ?_ ?_
      · refine (State.setSyn_within ..).then ?_
        refine (State.event_within ..).then ?_
        exact h10
      · exact h10
    clear_value s11
    refine Within.ite ?_ ?_
    · extract_lets +onlyGivenNames s13
      refine Within.cut (x := s13) ?_ (fun h14 => ?_)
      · unfold s13
        refine (State.event_within ..).then ?_
        exact h12
      clear_value s13
      refine Within.ite ?_ ?_
      · refine (State.setSyn_within ..).then ?_
        exact h14
      · exact h14
    · exact h12

theorem execVtEdge_within (outside : Bool) (s : State) :
    OutWithin { parts := [.syn, .mrc], pages := [Pg.syn] } s (execVtEdge outside s) := by
  unfold execVtEdge
  refine OutWithin.next ?_
  refine Within.ite ?_ ?_
  · exact .refl
  · extract_lets +onlyGivenNames s1
    extract_lets +onlyGivenNames s2
    refine Within.cut (x := s2) ?_ (fun h3 => ?_)
    · unfold s2
      refine (State.setSyn_within ..).then ?_
      exact .refl
    clear_value s2
    refine Within.ite ?_ ?_
    · extract_lets +onlyGivenNames s4
      refine Within.cut (x := s4) ?_ (fun h5 => ?_)
      · unfold s4
        refine (State.event_within ..).then ?_
        exact h3
      clear_value s4
      refine Within.ite ?_ ?_
      · refine (State.setSyn_within ..).then ?_
        exact h5
      · exact h5
    · exact h3

theorem State.setEntry_within (s : State) (e : Nat) (x : StoreEntry) :
    Within { parts := [.syn] } s (State.setEntry s e x) := by
  unfold State.setEntry
  refine (State.setSyn_within ..).then ?_
  exact .refl

theorem State.calibrate_within (s : State) (e : Nat) (freq : Nat) :
    Within { parts := [.freeCtr, .syn] } s (State.calibrate s e freq) := by
  unfold State.calibrate
  split
  rename_i v1 v2 v3 v4
  refine (State.setEntry_within ..).then ?_
  refine Within.snd v4 ?_
  refine (State.fresh_within ..).then ?_
  exact .refl

theorem State.invalidate_within (s : State) (base : Word) (count : Word) :
    Within { parts := [.syn] } s (State.invalidate s base count) := by
  unfold State.invalidate
  refine Within.foldl (fun s1 a2 h3 => ?_) ?_
  · refine Within.ite ?_ ?_
    · refine (State.setEntry_within ..).then ?_
      exact h3
    · exact h3
  · exact .refl

theorem State.synSwitch_within (s : State) (c : Commit) :
    Within { parts := [.staged, .claims, .commits, .syn, .mrc], all := true } s (State.synSwitch s c) := by
  unfold State.synSwitch
  refine Within.ite ?_ ?_
  · exact .refl
  · extract_lets +onlyGivenNames s1
    extract_lets +onlyGivenNames s2
    extract_lets +onlyGivenNames s3
    extract_lets +onlyGivenNames s4
    refine Within.cut (x := s4) ?_ (fun h5 => ?_)
    · unfold s4
      refine (State.invalidate_within ..).then ?_
      refine (State.switchCommit_within ..).then ?_
      exact .refl
    clear_value s4
    refine Within.ite ?_ ?_
    · refine (State.setSyn_within ..).then ?_
      exact h5
    · exact h5

theorem State.rxLock_within (s : State) :
    Within { parts := [.staged, .claims, .commits, .doms, .recv, .syn, .mrc, .lnk], all := true } s (State.rxLock s) := by
  unfold State.rxLock
  refine Within.ite ?_ ?_
  · exact .refl
  · extract_lets +onlyGivenNames s1
    extract_lets +onlyGivenNames s2
    refine Within.cut (x := s2) ?_ (fun h3 => ?_)
    · unfold s2
      refine (State.setSyn_within ..).then ?_
      exact .refl
    clear_value s2
    refine (State.moveOn_within ..).then ?_
    refine (State.unblank_within ..).then ?_
    exact h3

theorem State.rxTimeout_within (s : State) (air : List Air) :
    Within { parts := [.mem, .doms, .flm, .drc, .recv, .syn, .mrc, .lnk], pages := [Pg.syn, Pg.chz, Pg.drc, Pg.flm, Pg.phy] } s (State.rxTimeout s air) := by
  unfold State.rxTimeout
  refine Within.ite ?_ ?_
  · exact .refl
  · refine Within.ite ?_ ?_
    · refine (State.setSyn_within ..).then ?_
      exact .refl
    · extract_lets +onlyGivenNames s1
      refine Within.cut (x := s1) ?_ (fun h2 => ?_)
      · unfold s1
        refine (State.setSyn_within ..).then ?_
        exact .refl
      clear_value s1
      refine (State.deafen_within ..).then ?_
      refine (State.count_within ..).then ?_
      refine (State.event_within ..).then ?_
      exact h2

theorem execRxLockLost_within (s : State) : OutWithin { parts := [.syn] } s (execRxLockLost s) := by
  unfold execRxLockLost
  refine OutWithin.next ?_
  refine Within.ite ?_ ?_
  · exact .refl
  · refine (State.setSyn_within ..).then ?_
    exact .refl

theorem State.filterDone_within (s : State) : Within { parts := [.freeCtr], pages := [Pg.rfe] } s (State.filterDone s) := by
  unfold State.filterDone
  split
  rename_i v1 v2 v3 v4
  refine (State.setReg_within ..).then ?_
  refine Within.snd v4 ?_
  refine (State.fresh_within ..).then ?_
  exact .refl

theorem State.bandDone_within (s : State) : Within { parts := [.syn], pages := [Pg.syn] } s (State.bandDone s) := by
  unfold State.bandDone
  refine (State.setField_within ..).then ?_
  refine (State.setSyn_within ..).then ?_
  exact .refl

theorem State.calEnds_within (s : State) (c : CalRun) (status : Nat) :
    Within { parts := [.flm, .syn] } s (State.calEnds s c status) := by
  unfold State.calEnds
  refine (State.finish_within ..).then ?_
  refine (State.setSyn_within ..).then ?_
  exact .refl

theorem State.calFinish_within (s : State) (c : CalRun) : Within { parts := [.flm, .syn] } s (State.calFinish s c) := by
  unfold State.calFinish
  refine (State.calEnds_within ..).then ?_
  exact .refl

theorem State.calNext_within (s : State) (c : CalRun) : Within { parts := [.flm, .syn] } s (State.calNext s c) := by
  unfold State.calNext
  refine Within.ite ?_ ?_
  · refine (State.setSyn_within ..).then ?_
    exact .refl
  · refine Within.ite ?_ ?_
    · refine (State.setSyn_within ..).then ?_
      exact .refl
    · refine (State.calFinish_within ..).then ?_
      exact .refl

theorem State.calOffline_within (s : State) (c : CalRun) :
    Within { parts := [.freeCtr, .flm, .syn], pages := [Pg.rfe, Pg.syn] } s (State.calOffline s c) := by
  unfold State.calOffline
  extract_lets +onlyGivenNames s1
  refine Within.cut (x := s1) ?_ (fun h2 => ?_)
  · unfold s1
    refine Within.ite ?_ ?_
    · refine (State.filterDone_within ..).then ?_
      exact .refl
    · exact .refl
  clear_value s1
  extract_lets +onlyGivenNames s3
  refine Within.cut (x := s3) ?_ (fun h4 => ?_)
  · unfold s3
    refine Within.ite ?_ ?_
    · refine (State.bandDone_within ..).then ?_
      exact h2
    · exact h2
  clear_value s3
  refine (State.calNext_within ..).then ?_
  exact h4

theorem execSynCal_within (entry : Nat) (s : State) :
    OutWithin { parts := [.doms, .freeCtr, .flm, .syn], pages := [Pg.rfe, Pg.syn] } s (execSynCal entry s) := by
  unfold execSynCal
  refine OutWithin.next ?_
  split
  · rename_i v1 v2
    exact .refl
  · rename_i v3 v4 v5
    extract_lets +onlyGivenNames s6
    extract_lets +onlyGivenNames s7
    extract_lets +onlyGivenNames s8
    extract_lets +onlyGivenNames s9
    extract_lets +onlyGivenNames s10
    extract_lets +onlyGivenNames s11
    extract_lets +onlyGivenNames s12
    refine Within.ite ?_ ?_
    · refine (State.wake_within ..).then ?_
      exact .refl
    · split
      · rename_i v13 v14 v15
        refine Within.ite ?_ ?_
        · refine (State.calOffline_within ..).then ?_
          exact .refl
        · exact .refl
      · rename_i v16 v17
        refine Within.ite ?_ ?_
        · refine (State.finish_within ..).then ?_
          exact .refl
        · refine Within.ite ?_ ?_
          · exact .refl
          · extract_lets +onlyGivenNames s18
            refine Within.ite ?_ ?_
            · refine Within.ite ?_ ?_
              · refine (State.calOffline_within ..).then ?_
                exact .refl
              · refine (State.setSyn_within ..).then ?_
                exact .refl
            · refine (State.calNext_within ..).then ?_
              exact .refl

theorem execGapStart_within (air : List Air) (flips : List Flip) (s : State) :
    OutWithin { parts := [.mem, .doms, .flm, .drc, .flc, .recv, .syn, .mrc, .lnk], pages := [Pg.chz, Pg.syn, Pg.drc, Pg.flm, Pg.phy, Pg.lnk] } s (execGapStart air flips s) := by
  unfold execGapStart
  extract_lets +onlyGivenNames s1
  refine OutWithin.cut (x := s1) ?_ (fun h2 => ?_)
  · unfold s1
    refine (State.applyFlips_within ..).then ?_
    exact .refl
  clear_value s1
  refine OutWithin.next ?_
  refine Within.ite ?_ ?_
  · exact h2
  · extract_lets +onlyGivenNames s3
    extract_lets +onlyGivenNames s4
    extract_lets +onlyGivenNames s5
    extract_lets +onlyGivenNames s6
    extract_lets +onlyGivenNames s7
    refine Within.cut (x := s7) ?_ (fun h8 => ?_)
    · unfold s7
      refine (State.setSyn_within ..).then ?_
      exact h2
    clear_value s7
    refine (State.displaceUses_within ..).then ?_
    refine (State.deafen_within ..).then ?_
    refine (State.event_within ..).then ?_
    refine (State.event_within ..).then ?_
    exact h8

theorem State.gapCut_within (s : State) :
    Within { parts := [.freeCtr, .syn], pages := [Pg.rfe, Pg.syn] } s (State.gapCut s) := by
  unfold State.gapCut
  split
  · rename_i v1 v2
    exact .refl
  · rename_i v3 v4 v5
    refine Within.ite ?_ ?_
    · exact .refl
    · extract_lets +onlyGivenNames s6
      extract_lets +onlyGivenNames s7
      refine Within.cut (x := s7) ?_ (fun h8 => ?_)
      · unfold s7
        refine Within.ite ?_ ?_
        · refine (State.filterDone_within ..).then ?_
          exact .refl
        · exact .refl
      clear_value s7
      extract_lets +onlyGivenNames s9
      refine Within.cut (x := s9) ?_ (fun h10 => ?_)
      · unfold s9
        refine Within.ite ?_ ?_
        · refine (State.bandDone_within ..).then ?_
          exact h8
        · exact h8
      clear_value s9
      refine (State.setSyn_within ..).then ?_
      exact h10

theorem execGapEnd_within (s : State) :
    OutWithin { parts := [.staged, .claims, .commits, .doms, .freeCtr, .flm, .recv, .syn, .mrc, .lnk], all := true } s (execGapEnd s) := by
  unfold execGapEnd
  refine OutWithin.next ?_
  split
  · rename_i v1 v2
    exact .refl
  · rename_i v3 v4 v5
    extract_lets +onlyGivenNames s6
    refine Within.cut (x := s6) ?_ (fun h7 => ?_)
    · unfold s6
      refine Within.ite ?_ ?_
      · refine (State.filterDone_within ..).then ?_
        exact .refl
      · exact .refl
    clear_value s6
    extract_lets +onlyGivenNames s8
    refine Within.cut (x := s8) ?_ (fun h9 => ?_)
    · unfold s8
      refine Within.ite ?_ ?_
      · exact .refl
      · refine Within.ite ?_ ?_
        · refine (State.bandDone_within ..).then ?_
          exact h7
        · exact h7
    clear_value s8
    extract_lets +onlyGivenNames s10
    refine Within.cut (x := s10) ?_ (fun h11 => ?_)
    · unfold s10
      refine (State.antSwitch_within ..).then ?_
      refine (State.event_within ..).then ?_
      refine (State.setSyn_within ..).then ?_
      exact h9
    clear_value s10
    extract_lets +onlyGivenNames s12
    refine Within.cut (x := s12) ?_ (fun h13 => ?_)
    · unfold s12
      refine (State.moveOn_within ..).then ?_
      refine (State.unblank_within ..).then ?_
      exact h11
    clear_value s12
    split
    · rename_i v14 v15 v16
      refine Within.ite ?_ ?_
      · refine (State.calNext_within ..).then ?_
        exact h13
      · exact h13
    · rename_i v17 v18
      exact h13

theorem State.stepOver_within (s : State) : Within { parts := [.txa] } s (State.stepOver s) := by
  unfold State.stepOver
  refine Within.of_mk ?_
  exact .refl

theorem execAnchorTStep_within (s : State) :
    OutWithin { parts := [.flm, .syn, .txa], pages := [Pg.syn] } s (execAnchorTStep s) := by
  unfold execAnchorTStep
  refine OutWithin.next ?_
  split
  · rename_i v1 v2
    exact .refl
  · rename_i v3 v4 v5
    refine Within.ite ?_ ?_
    · exact .refl
    · extract_lets +onlyGivenNames s6
      refine Within.cut (x := s6) ?_ (fun h7 => ?_)
      · unfold s6
        refine (State.stepOver_within ..).then ?_
        exact .refl
      clear_value s6
      refine Within.ite ?_ ?_
      · refine (State.setSyn_within ..).then ?_
        exact h7
      · extract_lets +onlyGivenNames s8
        refine Within.cut (x := s8) ?_ (fun h9 => ?_)
        · unfold s8
          refine (State.setField_within ..).then ?_
          refine (State.setSyn_within ..).then ?_
          exact h7
        clear_value s8
        split
        · rename_i v10 v11 v12
          refine Within.ite ?_ ?_
          · refine (State.calNext_within ..).then ?_
            exact h9
          · exact h9
        · rename_i v13 v14
          exact h9

theorem execDriftAnchorSweep_within (s : State) : OutWithin { parts := [.syn] } s (execDriftAnchorSweep s) := by
  unfold execDriftAnchorSweep
  refine OutWithin.next ?_
  refine Within.ite ?_ ?_
  · refine (State.setSyn_within ..).then ?_
    exact .refl
  · exact .refl

theorem execStoreTEntry_within (locked : Bool) (s : State) :
    OutWithin { parts := [.freeCtr, .flm, .syn, .txa] } s (execStoreTEntry locked s) := by
  unfold execStoreTEntry
  refine OutWithin.next ?_
  split
  · rename_i v1 v2
    exact .refl
  · rename_i v3 v4 v5
    extract_lets +onlyGivenNames s6
    refine Within.ite ?_ ?_
    · exact .refl
    · extract_lets +onlyGivenNames s7
      refine Within.cut (x := s7) ?_ (fun h8 => ?_)
      · unfold s7
        refine (State.stepOver_within ..).then ?_
        exact .refl
      clear_value s7
      split
      · rename_i v9 v10 v11 v12
        refine (State.calNext_within ..).then ?_
        refine (State.calibrate_within ..).then ?_
        exact h8
      · rename_i v13 v14 v15 v16
        refine (State.calNext_within ..).then ?_
        refine (State.setEntry_within ..).then ?_
        exact h8

theorem execStoreSave_within (entry : Nat) (flips : List Flip) (s : State) :
    OutWithin { parts := [.mem, .doms, .flm, .drc, .flc, .mrc], pages := [Pg.drc] } s (execStoreSave entry flips s) := by
  unfold execStoreSave
  extract_lets +onlyGivenNames s1
  refine OutWithin.cut (x := s1) ?_ (fun h2 => ?_)
  · unfold s1
    refine (State.applyFlips_within ..).then ?_
    exact .refl
  clear_value s1
  refine OutWithin.next ?_
  split
  · rename_i v3 v4
    exact h2
  · rename_i v5 v6 v7
    refine Within.ite ?_ ?_
    · exact h2
    · refine Within.ite ?_ ?_
      · refine (State.wake_within ..).then ?_
        exact h2
      · refine Within.ite ?_ ?_
        · refine (State.finish_within ..).then ?_
          exact h2
        · split
          · rename_i v8 v9 v10
            refine Within.fst v10 ?_
            refine (State.unitWrite_within ..).then ?_
            exact h2
          · rename_i v11 v12 v13
            refine (State.finish_within ..).then ?_
            refine Within.fst v13 ?_
            refine (State.unitWrite_within ..).then ?_
            exact h2
          · rename_i v14 v15 v16 v17 v18
            refine (State.finish_within ..).then ?_
            refine Within.fst v18 ?_
            refine (State.unitWrite_within ..).then ?_
            exact h2

theorem execStoreLoad_within (entry : Nat) (flips : List Flip) (s : State) :
    OutWithin { parts := [.doms, .freeCtr, .flm, .drc, .flc, .syn, .mrc], pages := [Pg.drc, Pg.flc] } s (execStoreLoad entry flips s) := by
  unfold execStoreLoad
  extract_lets +onlyGivenNames s1
  refine OutWithin.cut (x := s1) ?_ (fun h2 => ?_)
  · unfold s1
    refine (State.applyFlips_within ..).then ?_
    exact .refl
  clear_value s1
  refine OutWithin.next ?_
  split
  · rename_i v3 v4
    exact h2
  · rename_i v5 v6 v7
    refine Within.ite ?_ ?_
    · exact h2
    · refine Within.ite ?_ ?_
      · refine (State.wake_within ..).then ?_
        exact h2
      · refine Within.ite ?_ ?_
        · refine (State.finish_within ..).then ?_
          exact h2
        · refine Within.ite ?_ ?_
          · exact h2
          · split
            · rename_i v8 v9 v10
              refine Within.fst v10 ?_
              refine (State.unitRead_within ..).then ?_
              exact h2
            · rename_i v11 v12 v13
              refine (State.finish_within ..).then ?_
              refine Within.fst v13 ?_
              refine (State.unitRead_within ..).then ?_
              exact h2
            · rename_i v14 v15 v16 v17 v18
              split
              · rename_i v19 v20
                refine (State.finish_within ..).then ?_
                refine Within.fst v18 ?_
                refine (State.unitRead_within ..).then ?_
                exact h2
              · rename_i v21 v22 v23
                extract_lets +onlyGivenNames s24
                extract_lets +onlyGivenNames s25
                refine Within.cut (x := s25) ?_ (fun h26 => ?_)
                · unfold s25
                  refine Within.foldl (fun s27 a28 h29 => ?_) ?_
                  · refine (State.setEntry_within ..).then ?_
                    exact h29
                  · refine Within.fst v18 ?_
                    refine (State.unitRead_within ..).then ?_
                    exact h2
                clear_value s25
                extract_lets +onlyGivenNames s30
                refine (State.finish_within ..).then ?_
                exact h26

theorem State.synOn_within (s : State) (fromOff : Bool) :
    Within { parts := [.syn], pages := [Pg.syn] } s (State.synOn s fromOff) := by
  unfold State.synOn
  extract_lets +onlyGivenNames s1
  refine Within.cut (x := s1) ?_ (fun h2 => ?_)
  · unfold s1
    refine (State.setSyn_within ..).then ?_
    refine (State.rxRetune_within ..).then ?_
    exact .refl
  clear_value s1
  refine Within.ite ?_ ?_
  · extract_lets +onlyGivenNames s3
    refine Within.cut (x := s3) ?_ (fun h4 => ?_)
    · unfold s3
      refine (State.setSyn_within ..).then ?_
      exact h2
    clear_value s3
    refine (State.setField_within ..).then ?_
    refine (State.setField_within ..).then ?_
    exact h4
  · exact h2

theorem State.rfeOn_within (s : State) (fromOff : Bool) :
    Within { parts := [.freeCtr, .recv, .syn], pages := [Pg.rfe] } s (State.rfeOn s fromOff) := by
  unfold State.rfeOn
  extract_lets +onlyGivenNames s1
  refine Within.cut (x := s1) ?_ (fun h2 => ?_)
  · unfold s1
    refine (State.setField_within ..).then ?_
    exact .refl
  clear_value s1
  extract_lets +onlyGivenNames s3
  extract_lets +onlyGivenNames s4
  refine Within.cut (x := s4) ?_ (fun h5 => ?_)
  · unfold s4
    refine (State.rxRetune_within ..).then ?_
    refine Within.of_mk ?_
    exact h2
  clear_value s4
  refine Within.ite ?_ ?_
  · refine (State.filterDone_within ..).then ?_
    exact h5
  · exact h5

theorem State.synLeaves_within (s : State) (retained : Bool) :
    Within { parts := [.syn] } s (State.synLeaves s retained) := by
  unfold State.synLeaves
  refine (State.setSyn_within ..).then ?_
  exact .refl

theorem State.calAborted_within (s : State) (p : Nat → Bool) (status : Nat) :
    Within { parts := [.freeCtr, .flm, .syn], pages := [Pg.rfe, Pg.syn] } s (State.calAborted s p status) := by
  unfold State.calAborted
  split
  · rename_i v1 v2
    exact .refl
  · rename_i v3 v4 v5
    refine Within.ite ?_ ?_
    · exact .refl
    · extract_lets +onlyGivenNames s6
      refine Within.cut (x := s6) ?_ (fun h7 => ?_)
      · unfold s6
        refine Within.ite ?_ ?_
        · refine (State.gapCut_within ..).then ?_
          exact .refl
        · exact .refl
      clear_value s6
      refine (State.calEnds_within ..).then ?_
      refine (State.setSyn_within ..).then ?_
      exact h7

end Sys2Proof.Machine
end

