-- ==== Sys2Proof/Laws/FrameRtc.lean ====
section
/-! SUPPORT. What each operation of Machine/Rtc.lean may change, and that it keeps a sound state sound. -/

namespace Sys2Proof.Machine

-- one proof at a time: the file holds many small ones
set_option Elab.async false

theorem State.setRtc_within (s : State) (f : Rtc → Rtc) : Within { parts := [.rtc] } s (State.setRtc s f) := by
  unfold State.setRtc
  refine Within.of_mk ?_
  exact .refl

theorem State.rtcCommit_within (s : State) (ini : Initiator) (v : Word) :
    Within { parts := [.rtc, .mrc], pages := [Pg.rtc] } s (State.rtcCommit s ini v) := by
  unfold State.rtcCommit
  extract_lets +onlyGivenNames s1
  refine Within.ite ?_ ?_
  · refine (State.lockedErr_within ..).then ?_
    exact .refl
  · refine Within.ite ?_ ?_
    · refine (State.raise_within ..).then ?_
      exact .refl
    · refine Within.ite ?_ ?_
      · exact .refl
      · split
        · rename_i v2 v3 v4
          refine (State.raise_within ..).then ?_
          refine (State.event_within ..).then ?_
          refine (State.setRtc_within ..).then ?_
          exact .refl
        · rename_i v5 v6
          refine (State.setRtc_within ..).then ?_
          exact .refl

theorem execGoTime_within (ini : Initiator) (value : Word) (s : State) :
    OutWithin { parts := [.doms, .replies, .stalls, .debugErr, .rtc, .mrc], pages := [Pg.rtc, Pg.sec] } s (execGoTime ini value s) := by
  unfold execGoTime
  refine OutWithin.next ?_
  refine State.pageWrite_within ?_ (fun s1 h2 => ?_)
  · exact .refl
  · refine (State.rtcCommit_within ..).then ?_
    exact h2

theorem execGoDate_within (ini : Initiator) (value : Word) (s : State) :
    OutWithin { parts := [.doms, .replies, .stalls, .debugErr, .rtc, .mrc], pages := [Pg.rtc, Pg.sec] } s (execGoDate ini value s) := by
  unfold execGoDate
  refine OutWithin.next ?_
  refine State.pageWrite_within ?_ (fun s1 h2 => ?_)
  · exact .refl
  · refine (State.rtcCommit_within ..).then ?_
    exact h2

theorem execGoWday_within (ini : Initiator) (value : Word) (s : State) :
    OutWithin { parts := [.doms, .replies, .stalls, .debugErr, .rtc, .mrc], pages := [Pg.rtc, Pg.sec] } s (execGoWday ini value s) := by
  unfold execGoWday
  refine OutWithin.next ?_
  refine State.pageWrite_within ?_ (fun s1 h2 => ?_)
  · exact .refl
  · refine (State.rtcCommit_within ..).then ?_
    exact h2

theorem State.rtcLoad_within (s : State) : Within { parts := [.rtc, .mrc], pages := [Pg.rtc] } s (State.rtcLoad s) := by
  unfold State.rtcLoad
  split
  · rename_i v1 v2
    exact .refl
  · rename_i v3 v4 v5
    refine Within.ite ?_ ?_
    · exact .refl
    · extract_lets +onlyGivenNames s6
      extract_lets +onlyGivenNames s7
      extract_lets +onlyGivenNames s8
      refine Within.cut (x := s8) ?_ (fun h9 => ?_)
      · unfold s8
        refine (State.setRtc_within ..).then ?_
        exact .refl
      clear_value s8
      refine (State.event_within ..).then ?_
      exact h9

theorem execRtcLoad_within (s : State) : OutWithin { parts := [.rtc, .mrc], pages := [Pg.rtc] } s (execRtcLoad s) := by
  unfold execRtcLoad
  refine OutWithin.next ?_
  refine (State.rtcLoad_within ..).then ?_
  exact .refl

theorem State.rtcAlarm_within (s : State) : Within { parts := [.rtc, .mrc], pages := [Pg.rtc] } s (State.rtcAlarm s) := by
  unfold State.rtcAlarm
  extract_lets +onlyGivenNames s1
  extract_lets +onlyGivenNames s2
  refine Within.ite ?_ ?_
  · refine (State.event_within ..).then ?_
    refine (State.setRtc_within ..).then ?_
    exact .refl
  · exact .refl

theorem State.rtcTick_within (s : State) : Within { parts := [.rtc, .mrc], pages := [Pg.rtc] } s (State.rtcTick s) := by
  unfold State.rtcTick
  extract_lets +onlyGivenNames s1
  refine Within.cut (x := s1) ?_ (fun h2 => ?_)
  · unfold s1
    refine (State.rtcLoad_within ..).then ?_
    exact .refl
  clear_value s1
  extract_lets +onlyGivenNames s3
  refine Within.cut (x := s3) ?_ (fun h4 => ?_)
  · unfold s3
    refine (State.setRtc_within ..).then ?_
    exact h2
  clear_value s3
  refine Within.ite ?_ ?_
  · split
    rename_i v5 v6 v7 v8
    extract_lets +onlyGivenNames s9
    refine Within.cut (x := s9) ?_ (fun h10 => ?_)
    · unfold s9
      refine (State.event_within ..).then ?_
      refine Within.of_mk ?_
      exact h4
    clear_value s9
    extract_lets +onlyGivenNames s11
    refine Within.cut (x := s11) ?_ (fun h12 => ?_)
    · unfold s11
      refine Within.ite ?_ ?_
      · refine (State.event_within ..).then ?_
        exact h10
      · exact h10
    clear_value s11
    refine (State.rtcAlarm_within ..).then ?_
    exact h12
  · refine (State.setRtc_within ..).then ?_
    exact h4

theorem State.rtcShadow_within (s : State) (ini : Initiator) (off : Nat) :
    Within { parts := [.rtc] } s (State.rtcShadow s ini off).2 := by
  unfold State.rtcShadow
  extract_lets +onlyGivenNames s1
  extract_lets +onlyGivenNames s2
  extract_lets +onlyGivenNames s3
  extract_lets +onlyGivenNames s4
  dsimp only
  refine (State.setRtc_within ..).then ?_
  exact .refl

theorem execRtcRead_within (ini : Initiator) (off : Nat) (s : State) :
    OutWithin { parts := [.doms, .replies, .stalls, .debugErr, .rtc, .mrc], pages := [Pg.rtc, Pg.sec] } s (execRtcRead ini off s) := by
  unfold execRtcRead
  refine OutWithin.next ?_
  refine Within.ite ?_ ?_
  · refine State.pageRead_within ?_ (fun s1 h2 => ?_)
    · exact .refl
    · refine (State.rtcShadow_within ..).then ?_
      exact h2
  · exact .refl

theorem State.rtcRegRead_within (s : State) (ini : Initiator) (off : Nat) :
    ReadWithin { parts := [.rtc] } s (State.rtcRegRead s ini off) := by
  unfold State.rtcRegRead
  split
  · rename_i v1
    refine ReadWithin.some ?_
    refine (State.rtcShadow_within ..).then ?_
    exact .refl
  · rename_i v2
    refine ReadWithin.some ?_
    refine (State.rtcShadow_within ..).then ?_
    exact .refl
  · rename_i v3
    refine ReadWithin.some ?_
    refine (State.rtcShadow_within ..).then ?_
    exact .refl
  · rename_i v4
    refine ReadWithin.some ?_
    dsimp only
    exact .refl
  · rename_i v5
    refine ReadWithin.some ?_
    dsimp only
    exact .refl
  · rename_i v6
    refine ReadWithin.some ?_
    dsimp only
    exact .refl
  · rename_i v7
    refine ReadWithin.some ?_
    dsimp only
    exact .refl
  · rename_i v8 v9 v10 v11 v12 v13 v14 v15
    exact ReadWithin.none

theorem State.rtcRegWrite_within (s : State) (ini : Initiator) (off : Nat) (v : Word) :
    OptWithin { parts := [.rtc, .mrc], pages := [Pg.rtc] } s (State.rtcRegWrite s ini off v) := by
  unfold State.rtcRegWrite
  split
  · rename_i v1
    refine OptWithin.some ?_
    refine (State.setRtc_within ..).then ?_
    exact .refl
  · rename_i v2
    refine OptWithin.some ?_
    refine (State.setRtc_within ..).then ?_
    exact .refl
  · rename_i v3
    refine OptWithin.some ?_
    refine (State.rtcCommit_within ..).then ?_
    exact .refl
  · rename_i v4
    refine OptWithin.some ?_
    refine (State.setRtc_within ..).then ?_
    exact .refl
  · rename_i v5
    refine OptWithin.ite ?_ ?_
    · refine OptWithin.some ?_
      refine (State.raise_within ..).then ?_
      exact .refl
    · exact OptWithin.none
  · rename_i v6 v7 v8 v9 v10 v11
    exact OptWithin.none

theorem State.rtcCoreReset_within (s : State) (ini : Initiator) :
    Within { parts := [.rtc] } s (State.rtcCoreReset s ini) := by
  unfold State.rtcCoreReset
  refine (State.setRtc_within ..).then ?_
  exact .refl

theorem State.rtcMeasure_within (s : State) (num : Int) (den : Nat) (base : Int) :
    Within { parts := [.freeCtr, .rtc, .mrc], pages := [Pg.rtc] } s (State.rtcMeasure s num den base) := by
  unfold State.rtcMeasure
  extract_lets +onlyGivenNames s1
  split
  rename_i v2 v3 v4 v5
  extract_lets +onlyGivenNames s6
  extract_lets +onlyGivenNames s7
  refine Within.cut (x := s7) ?_ (fun h8 => ?_)
  · unfold s7
    refine (State.setRtc_within ..).then ?_
    refine Within.snd v5 ?_
    refine (State.fresh_within ..).then ?_
    exact .refl
  clear_value s7
  refine Within.ite ?_ ?_
  · extract_lets +onlyGivenNames s9
    refine (State.event_within ..).then ?_
    refine (State.setField_within ..).then ?_
    exact h8
  · exact h8

theorem State.zcRestart_within (s : State) : Within { parts := [.rtc] } s (State.zcRestart s) := by
  unfold State.zcRestart
  refine (State.setRtc_within ..).then ?_
  exact .refl

theorem execZcEdge_within (since : Nat) (s : State) : OutWithin { parts := [.rtc, .mrc] } s (execZcEdge since s) := by
  unfold execZcEdge
  refine OutWithin.next ?_
  refine Within.ite ?_ ?_
  · exact .refl
  · extract_lets +onlyGivenNames s1
    refine Within.cut (x := s1) ?_ (fun h2 => ?_)
    · unfold s1
      refine (State.pulse_within ..).then ?_
      exact .refl
    clear_value s1
    refine Within.ite ?_ ?_
    · refine (State.setRtc_within ..).then ?_
      exact h2
    · exact h2

theorem execZcWindowEnd_within (s : State) :
    OutWithin { parts := [.freeCtr, .rtc, .mrc], pages := [Pg.rtc] } s (execZcWindowEnd s) := by
  unfold execZcWindowEnd
  refine OutWithin.next ?_
  refine Within.ite ?_ ?_
  · exact .refl
  · extract_lets +onlyGivenNames s1
    extract_lets +onlyGivenNames s2
    extract_lets +onlyGivenNames s3
    refine Within.cut (x := s3) ?_ (fun h4 => ?_)
    · unfold s3
      refine (State.zcRestart_within ..).then ?_
      exact .refl
    clear_value s3
    refine Within.ite ?_ ?_
    · exact h4
    · refine (State.rtcMeasure_within ..).then ?_
      exact h4

theorem execZcGap_within (s : State) : OutWithin { parts := [.rtc] } s (execZcGap s) := by
  unfold execZcGap
  refine OutWithin.next ?_
  refine Within.ite ?_ ?_
  · refine (State.zcRestart_within ..).then ?_
    exact .refl
  · exact .refl

theorem State.rtcFromTim_within (s : State) :
    Within { parts := [.freeCtr, .rtc, .mrc], pages := [Pg.rtc] } s (State.rtcFromTim s) := by
  unfold State.rtcFromTim
  refine Within.ite ?_ ?_
  · exact .refl
  · refine (State.rtcMeasure_within ..).then ?_
    exact .refl

theorem State.rtcOnRc_within (s : State) : Within { parts := [.rtc, .mrc], pages := [Pg.rtc] } s (State.rtcOnRc s) := by
  unfold State.rtcOnRc
  refine (State.event_within ..).then ?_
  refine (State.setRtc_within ..).then ?_
  exact .refl

theorem State.rtcSoftReset_within (s : State) : Within { parts := [.rtc], pages := [Pg.rtc] } s (State.rtcSoftReset s) := by
  unfold State.rtcSoftReset
  refine (State.setReg_within ..).then ?_
  refine (State.setRtc_within ..).then ?_
  exact .refl

end Sys2Proof.Machine
end

