-- ==== Sys2Proof/Laws/FrameCpu.lean ====
section
/-! SUPPORT. What each operation of Machine/Cpu.lean may change, and that it keeps a sound state sound. -/

namespace Sys2Proof.Machine

-- one proof at a time: the file holds many small ones
set_option Elab.async false

theorem State.setCpu_within (s : State) (c : Core) (x : Cpu) : Within { parts := [.cpus] } s (State.setCpu s c x) := by
  unfold State.setCpu
  refine Within.of_mk ?_
  exact .refl

theorem State.haltCore_within (s : State) (c : Core) :
    Within { parts := [.mrc, .cpus], all := true } s (State.haltCore s c) := by
  unfold State.haltCore
  refine (State.event_within ..).then ?_
  refine (State.setCpu_within ..).then ?_
  exact .refl

theorem State.runCore_within (s : State) (c : Core) : Within { parts := [.cpus] } s (State.runCore s c) := by
  unfold State.runCore
  extract_lets +onlyGivenNames s1
  split
  · rename_i v2 v3
    refine Within.ite ?_ ?_
    · refine (State.setCpu_within ..).then ?_
      exact .refl
    · refine (State.setCpu_within ..).then ?_
      exact .refl
  · rename_i v4 v5
    refine (State.setCpu_within ..).then ?_
    exact .refl

theorem State.stopCore_within (s : State) (c : Core) :
    Within { parts := [.mrc, .cpus], all := true } s (State.stopCore s c) := by
  unfold State.stopCore
  extract_lets +onlyGivenNames s1
  extract_lets +onlyGivenNames s2
  refine Within.cut (x := s2) ?_ (fun h3 => ?_)
  · unfold s2
    refine (State.setCpu_within ..).then ?_
    exact .refl
  clear_value s2
  split
  · rename_i v4 v5
    refine Within.ite ?_ ?_
    · refine (State.haltCore_within ..).then ?_
      exact h3
    · refine (State.setCpu_within ..).then ?_
      exact h3
  · rename_i v6 v7
    refine (State.haltCore_within ..).then ?_
    exact h3
  · rename_i v8 v9 v10
    exact h3

theorem State.cpuCtrlWrite_within (s : State) (c : Core) (v : Word) :
    Within { parts := [.mrc, .cpus], all := true } s (State.cpuCtrlWrite s c v) := by
  unfold State.cpuCtrlWrite
  extract_lets +onlyGivenNames s1
  refine Within.cut (x := s1) ?_ (fun h2 => ?_)
  · unfold s1
    refine Within.ite ?_ ?_
    · exact .refl
    · refine (State.setReg_within ..).then ?_
      exact .refl
  clear_value s1
  extract_lets +onlyGivenNames s3
  refine Within.ite ?_ ?_
  · exact h2
  · refine Within.ite ?_ ?_
    · refine (State.runCore_within ..).then ?_
      exact h2
    · refine (State.stopCore_within ..).then ?_
      exact h2

theorem execCoreRun_within (ini : Initiator) (core : Core) (s : State) :
    OutWithin { parts := [.doms, .replies, .stalls, .debugErr, .mrc, .cpus], all := true } s (execCoreRun ini core s) := by
  unfold execCoreRun
  refine OutWithin.next ?_
  refine State.pageWrite_within ?_ (fun s1 h2 => ?_)
  · exact .refl
  · refine (State.cpuCtrlWrite_within ..).then ?_
    exact h2

theorem execCoreHalt_within (ini : Initiator) (core : Core) (s : State) :
    OutWithin { parts := [.doms, .replies, .stalls, .debugErr, .mrc, .cpus], all := true } s (execCoreHalt ini core s) := by
  unfold execCoreHalt
  refine OutWithin.next ?_
  refine State.pageWrite_within ?_ (fun s1 h2 => ?_)
  · exact .refl
  · refine (State.cpuCtrlWrite_within ..).then ?_
    exact h2

theorem State.clearBanks_within (s : State) (ini : Initiator) : Within { all := true } s (State.clearBanks s ini) := by
  unfold State.clearBanks
  refine (State.clearRegs_within ..).then ?_
  exact .refl

theorem State.coreClaimsLost_within (s : State) (ini : Initiator) :
    Within { parts := [.staged, .claims, .mrc], all := true } s (State.coreClaimsLost s ini) := by
  unfold State.coreClaimsLost
  refine Within.foldl (fun s1 a2 h3 => ?_) ?_
  · refine (State.loseStaged_within ..).then ?_
    exact h3
  · exact .refl

theorem State.coreReset_within (s : State) (c : Core) :
    Within { parts := [.staged, .claims, .stalls, .tim, .rtc, .mrc, .cpus], all := true } s (State.coreReset s c) := by
  unfold State.coreReset
  extract_lets +onlyGivenNames s1
  refine Within.cut (x := s1) ?_ (fun h2 => ?_)
  · unfold s1
    refine (State.setCpu_within ..).then ?_
    exact .refl
  clear_value s1
  extract_lets +onlyGivenNames s3
  refine Within.cut (x := s3) ?_ (fun h4 => ?_)
  · unfold s3
    refine Within.of_mk ?_
    exact h2
  clear_value s3
  extract_lets +onlyGivenNames s5
  refine Within.cut (x := s5) ?_ (fun h6 => ?_)
  · unfold s5
    refine (State.rtcCoreReset_within ..).then ?_
    refine (State.coreClaimsLost_within ..).then ?_
    refine (State.clearBanks_within ..).then ?_
    exact h4
  clear_value s5
  refine Within.of_mk ?_
  exact h6

theorem State.irqMapWrite_within (s : State) (ini : Initiator) (c : Core) (off : Nat) (v : Word) :
    Within { parts := [.mrc], all := true } s (State.irqMapWrite s ini c off v) := by
  unfold State.irqMapWrite
  extract_lets +onlyGivenNames s1
  extract_lets +onlyGivenNames s2
  refine Within.ite ?_ ?_
  · refine (State.lockedErr_within ..).then ?_
    exact .refl
  · refine Within.ite ?_ ?_
    · refine (State.raise_within ..).then ?_
      exact .refl
    · refine (State.plainWrite_within ..).then ?_
      exact .refl

theorem State.cpuRead_within (s : State) (c : Core) (off : Nat) : ReadWithin {} s (State.cpuRead s c off) := by
  unfold State.cpuRead
  extract_lets +onlyGivenNames s1
  split
  · rename_i v2
    refine ReadWithin.some ?_
    dsimp only
    exact .refl
  · rename_i v3
    refine ReadWithin.some ?_
    dsimp only
    exact .refl
  · rename_i v4
    refine ReadWithin.some ?_
    dsimp only
    exact .refl
  · rename_i v5
    refine ReadWithin.some ?_
    dsimp only
    exact .refl
  · rename_i v6 v7 v8 v9 v10
    exact ReadWithin.none

theorem State.cpuWrite_within (s : State) (ini : Initiator) (c : Core) (off : Nat) (v : Word) :
    OptWithin { parts := [.mrc, .cpus], all := true } s (State.cpuWrite s ini c off v) := by
  unfold State.cpuWrite
  refine OptWithin.ite ?_ ?_
  · refine OptWithin.some ?_
    refine (State.cpuCtrlWrite_within ..).then ?_
    exact .refl
  · refine OptWithin.ite ?_ ?_
    · refine OptWithin.some ?_
      refine (State.irqMapWrite_within ..).then ?_
      exact .refl
    · exact OptWithin.none

theorem State.coresCount_within (s : State) (k : Nat) : Within { parts := [.cpus] } s (State.coresCount s k) := by
  unfold State.coresCount
  refine Within.of_mk ?_
  exact .refl

end Sys2Proof.Machine
end

