-- ==== Sys2Proof/Laws/FramePeriph.lean ====
section
/-! SUPPORT. What each operation of Machine/Periph.lean may change, and that it keeps a sound state sound. -/

namespace Sys2Proof.Machine

-- one proof at a time: the file holds many small ones
set_option Elab.async false

theorem State.setPer_within (s : State) (f : Periph → Periph) : Within { parts := [.per] } s (State.setPer s f) := by
  unfold State.setPer
  refine Within.of_mk ?_
  exact .refl

theorem State.setSerial_within (s : State) (page : Nat) (x : Serial) :
    Within { parts := [.per] } s (State.setSerial s page x) := by
  unfold State.setSerial
  refine (State.setPer_within ..).then ?_
  exact .refl

theorem State.takeCfg_within (s : State) (page : Nat) : Within { parts := [.per] } s (State.takeCfg s page) := by
  unfold State.takeCfg
  refine (State.setSerial_within ..).then ?_
  exact .refl

theorem State.holdBus_within (s : State) (i : Item) (held : Bool) :
    Within { parts := [.per] } s (State.holdBus s i held) := by
  unfold State.holdBus
  refine Within.ite ?_ ?_
  · exact .refl
  · refine (State.setSerial_within ..).then ?_
    exact .refl

theorem execSerialTx_within (entry : Nat) (lost : Bool) (nack : Option Nat) (flips : List Flip) (s : State) :
    OutWithin { parts := [.doms, .freeCtr, .flm, .drc, .flc, .per, .mrc], pages := [Pg.drc, Pg.flc] } s (execSerialTx entry lost nack flips s) := by
  unfold execSerialTx
  extract_lets +onlyGivenNames s1
  refine OutWithin.cut (x := s1) ?_ (fun h2 => ?_)
  · unfold s1
    refine (State.applyFlips_within ..).then ?_
    exact .refl
  clear_value s1
  refine OutWithin.next ?_
  split
  · rename_i v3 v4
    exact h2
  · rename_i v5 v6 v7
    refine Within.ite ?_ ?_
    · exact h2
    · refine Within.ite ?_ ?_
      · refine (State.finish_within ..).then ?_
        exact h2
      · split
        · rename_i v8 v9 v10
          refine Within.fst v10 ?_
          refine (State.unitRead_within ..).then ?_
          exact h2
        · rename_i v11 v12 v13
          refine (State.finish_within ..).then ?_
          refine Within.fst v13 ?_
          refine (State.unitRead_within ..).then ?_
          exact h2
        · rename_i v14 v15 v16 v17 v18
          split
          · rename_i v19 v20
            refine (State.finish_within ..).then ?_
            refine Within.fst v18 ?_
            refine (State.unitRead_within ..).then ?_
            exact h2
          · rename_i v21 v22 v23
            extract_lets +onlyGivenNames s24
            refine Within.cut (x := s24) ?_ (fun h25 => ?_)
            · unfold s24
              refine (State.takeCfg_within ..).then ?_
              refine Within.fst v18 ?_
              refine (State.unitRead_within ..).then ?_
              exact h2
            clear_value s24
            extract_lets +onlyGivenNames s26
            extract_lets +onlyGivenNames s27
            extract_lets +onlyGivenNames s28
            extract_lets +onlyGivenNames s29
            extract_lets +onlyGivenNames s30
            refine Within.cut (x := s30) ?_ (fun h31 => ?_)
            · unfold s30
              refine (State.setSerial_within ..).then ?_
              exact h25
            clear_value s30
            refine (State.finish_within ..).then ?_
            refine (State.holdBus_within ..).then ?_
            exact h31

theorem State.rxEnd_within (s : State) (i : Item) (got : List (Byte × Bool)) (short : Bool) :
    Within { parts := [.mem, .doms, .flm, .drc, .mrc], pages := [Pg.drc] } s (State.rxEnd s i got short) := by
  unfold State.rxEnd
  extract_lets +onlyGivenNames s1
  split
  · rename_i v2 v3 v4
    refine (State.finish_within ..).then ?_
    refine Within.fst v4 ?_
    refine (State.unitWrite_within ..).then ?_
    exact .refl
  · rename_i v5 v6 v7 v8 v9
    extract_lets +onlyGivenNames s10
    refine (State.finish_within ..).then ?_
    refine Within.fst v9 ?_
    refine (State.unitWrite_within ..).then ?_
    exact .refl

theorem execSerialRx_within (entry : Nat) (octets : List (Byte × Bool)) (lost : Bool) (nack : Bool) (s : State) :
    OutWithin { parts := [.mem, .doms, .flm, .drc, .per, .mrc], all := true } s (execSerialRx entry octets lost nack s) := by
  unfold execSerialRx
  refine OutWithin.next ?_
  split
  · rename_i v1 v2
    exact .refl
  · rename_i v3 v4 v5
    refine Within.ite ?_ ?_
    · exact .refl
    · refine Within.ite ?_ ?_
      · refine (State.finish_within ..).then ?_
        exact .refl
      · refine Within.ite ?_ ?_
        · refine (State.finish_within ..).then ?_
          refine (State.holdBus_within ..).then ?_
          refine (State.takeCfg_within ..).then ?_
          exact .refl
        · refine Within.ite ?_ ?_
          · refine (State.finish_within ..).then ?_
            refine (State.holdBus_within ..).then ?_
            refine (State.takeCfg_within ..).then ?_
            exact .refl
          · extract_lets +onlyGivenNames s6
            extract_lets +onlyGivenNames s7
            extract_lets +onlyGivenNames s8
            extract_lets +onlyGivenNames s9
            extract_lets +onlyGivenNames s10
            extract_lets +onlyGivenNames s11
            extract_lets +onlyGivenNames s12
            refine Within.ite ?_ ?_
            · exact .refl
            · split
              · rename_i v13 v14 v15
                refine (State.wake_within ..).then ?_
                exact .refl
              · rename_i v16 v17
                extract_lets +onlyGivenNames s18
                refine Within.cut (x := s18) ?_ (fun h19 => ?_)
                · unfold s18
                  refine (State.takeCfg_within ..).then ?_
                  exact .refl
                clear_value s18
                extract_lets +onlyGivenNames s20
                extract_lets +onlyGivenNames s21
                refine Within.cut (x := s21) ?_ (fun h22 => ?_)
                · unfold s21
                  refine Within.ite ?_ ?_
                  · refine (State.count_within ..).then ?_
                    refine (State.setSerial_within ..).then ?_
                    exact h19
                  · exact h19
                clear_value s21
                refine (State.rxEnd_within ..).then ?_
                refine (State.holdBus_within ..).then ?_
                exact h22

theorem execSerialXfer_within (entry : Nat) (octets : List Byte) (flips : List Flip) (s : State) :
    OutWithin { parts := [.mem, .doms, .freeCtr, .flm, .drc, .flc, .per, .mrc], pages := [Pg.drc, Pg.flc] } s (execSerialXfer entry octets flips s) := by
  unfold execSerialXfer
  extract_lets +onlyGivenNames s1
  refine OutWithin.cut (x := s1) ?_ (fun h2 => ?_)
  · unfold s1
    refine (State.applyFlips_within ..).then ?_
    exact .refl
  clear_value s1
  refine OutWithin.next ?_
  split
  · rename_i v3 v4
    exact h2
  · rename_i v5 v6 v7
    refine Within.ite ?_ ?_
    · exact h2
    · split
      · rename_i v8 v9 v10 v11
        refine (State.wake_within ..).then ?_
        exact h2
      · rename_i v12 v13 v14 v15 v16
        refine Within.fst v15 ?_
        refine (State.unitRead_within ..).then ?_
        exact h2
      · rename_i v17 v18 v19 v20 v21
        refine (State.finish_within ..).then ?_
        refine Within.fst v20 ?_
        refine (State.unitRead_within ..).then ?_
        exact h2
      · rename_i v22 v23 v24 v25 v26 v27 v28
        split
        · rename_i v29 v30
          refine (State.finish_within ..).then ?_
          refine Within.fst v27 ?_
          refine (State.unitRead_within ..).then ?_
          exact h2
        · rename_i v31 v32 v33
          extract_lets +onlyGivenNames s34
          refine Within.cut (x := s34) ?_ (fun h35 => ?_)
          · unfold s34
            refine (State.takeCfg_within ..).then ?_
            refine Within.fst v27 ?_
            refine (State.unitRead_within ..).then ?_
            exact h2
          clear_value s34
          extract_lets +onlyGivenNames s36
          extract_lets +onlyGivenNames s37
          refine Within.cut (x := s37) ?_ (fun h38 => ?_)
          · unfold s37
            refine (State.setSerial_within ..).then ?_
            exact h35
          clear_value s37
          refine (State.rxEnd_within ..).then ?_
          refine (State.holdBus_within ..).then ?_
          exact h38

theorem State.dliEnd_within (s : State) (i : Item) (collided : Bool) (back : Option (Byte × Bool)) :
    Within { parts := [.flm, .per, .mrc] } s (State.dliEnd s i collided back) := by
  unfold State.dliEnd
  extract_lets +onlyGivenNames s1
  extract_lets +onlyGivenNames s2
  refine Within.cut (x := s2) ?_ (fun h3 => ?_)
  · unfold s2
    refine (State.setSerial_within ..).then ?_
    exact .refl
  clear_value s2
  refine Within.ite ?_ ?_
  · refine (State.finish_within ..).then ?_
    exact h3
  · extract_lets +onlyGivenNames s4
    refine Within.cut (x := s4) ?_ (fun h5 => ?_)
    · unfold s4
      refine Within.ite ?_ ?_
      · refine (State.pulse_within ..).then ?_
        exact h3
      · exact h3
    clear_value s4
    refine Within.ite ?_ ?_
    · refine (State.finish_within ..).then ?_
      exact h5
    · split
      · rename_i v6
        refine (State.finish_within ..).then ?_
        exact h5
      · rename_i v7 v8 v9
        refine (State.finish_within ..).then ?_
        exact h5

theorem execDliSend_within (entry : Nat) (collided : Bool) (back : Option (Byte × Bool)) (s : State) :
    OutWithin { parts := [.flm, .per, .mrc] } s (execDliSend entry collided back s) := by
  unfold execDliSend
  refine OutWithin.next ?_
  split
  · rename_i v1 v2
    exact .refl
  · rename_i v3 v4 v5
    refine Within.ite ?_ ?_
    · exact .refl
    · refine Within.ite ?_ ?_
      · refine (State.finish_within ..).then ?_
        exact .refl
      · refine Within.ite ?_ ?_
        · exact .refl
        · refine (State.dliEnd_within ..).then ?_
          refine (State.takeCfg_within ..).then ?_
          exact .refl

theorem execDliArm_within (entry : Nat) (collided : Bool) (back : Option (Byte × Bool)) (s : State) :
    OutWithin { parts := [.flm, .per, .mrc] } s (execDliArm entry collided back s) := by
  unfold execDliArm
  refine OutWithin.next ?_
  split
  · rename_i v1 v2
    exact .refl
  · rename_i v3 v4 v5
    extract_lets +onlyGivenNames s6
    refine Within.ite ?_ ?_
    · refine Within.ite ?_ ?_
      · exact .refl
      · extract_lets +onlyGivenNames s7
        refine Within.cut (x := s7) ?_ (fun h8 => ?_)
        · unfold s7
          refine (State.setSerial_within ..).then ?_
          exact .refl
        clear_value s7
        split
        · rename_i v9 v10 v11
          refine (State.finish_within ..).then ?_
          exact h8
        · rename_i v12 v13
          refine (State.dliEnd_within ..).then ?_
          exact h8
    · split
      · rename_i v14 v15
        exact .refl
      · rename_i v16 v17 v18
        refine Within.ite ?_ ?_
        · exact .refl
        · refine Within.ite ?_ ?_
          · refine (State.finish_within ..).then ?_
            exact .refl
          · refine (State.setSerial_within ..).then ?_
            refine (State.takeCfg_within ..).then ?_
            exact .refl

theorem State.dliTrigger_within (s : State) (n : Nat) : Within { parts := [.per] } s (State.dliTrigger s n) := by
  unfold State.dliTrigger
  extract_lets +onlyGivenNames s1
  extract_lets +onlyGivenNames s2
  refine Within.ite ?_ ?_
  · refine (State.setSerial_within ..).then ?_
    exact .refl
  · exact .refl

theorem State.armGone_within (s : State) (p : Item → Bool) : Within { parts := [.per] } s (State.armGone s p) := by
  unfold State.armGone
  refine Within.foldl (fun s1 a2 h3 => ?_) ?_
  · extract_lets +onlyGivenNames s4
    split
    · rename_i v5 v6 v7
      refine Within.ite ?_ ?_
      · refine (State.setSerial_within ..).then ?_
        exact h3
      · exact h3
    · rename_i v8 v9
      exact h3
  · exact .refl

theorem execDaliMonitorFrame_within (dli : Nat) (frame : Word) (len : Nat) (s : State) :
    OutWithin { parts := [.flm, .mrc] } s (execDaliMonitorFrame dli frame len s) := by
  unfold execDaliMonitorFrame
  refine OutWithin.next ?_
  extract_lets +onlyGivenNames s1
  refine Within.ite ?_ ?_
  · exact .refl
  · extract_lets +onlyGivenNames s2
    refine Within.cut (x := s2) ?_ (fun h3 => ?_)
    · unfold s2
      refine (State.pulse_within ..).then ?_
      exact .refl
    clear_value s2
    extract_lets +onlyGivenNames s4
    refine Within.ite ?_ ?_
    · extract_lets +onlyGivenNames s5
      refine (State.report_within ..).then ?_
      exact h3
    · exact h3

theorem execUartRxOctet_within (uart : Nat) (octet : Byte) (err : Bool) (s : State) :
    OutWithin { parts := [.per], all := true } s (execUartRxOctet uart octet err s) := by
  unfold execUartRxOctet
  refine OutWithin.next ?_
  extract_lets +onlyGivenNames s1
  refine Within.ite ?_ ?_
  · exact .refl
  · extract_lets +onlyGivenNames s2
    refine Within.cut (x := s2) ?_ (fun h3 => ?_)
    · unfold s2
      refine Within.ite ?_ ?_
      · refine (State.count_within ..).then ?_
        exact .refl
      · exact .refl
    clear_value s2
    extract_lets +onlyGivenNames s4
    refine Within.ite ?_ ?_
    · refine (State.count_within ..).then ?_
      exact h3
    · refine (State.setSerial_within ..).then ?_
      exact h3

theorem execUartReport_within (uart : Nat) (s : State) : OutWithin { parts := [.flm, .per] } s (execUartReport uart s) := by
  unfold execUartReport
  refine OutWithin.next ?_
  extract_lets +onlyGivenNames s1
  extract_lets +onlyGivenNames s2
  extract_lets +onlyGivenNames s3
  refine Within.ite ?_ ?_
  · exact .refl
  · extract_lets +onlyGivenNames s4
    extract_lets +onlyGivenNames s5
    extract_lets +onlyGivenNames s6
    extract_lets +onlyGivenNames s7
    refine Within.cut (x := s7) ?_ (fun h8 => ?_)
    · unfold s7
      refine (State.setSerial_within ..).then ?_
      exact .refl
    clear_value s7
    refine (State.report_within ..).then ?_
    exact h8

theorem execI2cHoldTimeout_within (i2c : Nat) (s : State) : OutWithin { parts := [.per] } s (execI2cHoldTimeout i2c s) := by
  unfold execI2cHoldTimeout
  refine OutWithin.next ?_
  extract_lets +onlyGivenNames s1
  refine Within.ite ?_ ?_
  · exact .refl
  · refine (State.setSerial_within ..).then ?_
    exact .refl

theorem State.perCfgWrite_within (s : State) (ini : Initiator) (page : Nat) (v : Word) :
    Within { parts := [.mrc], pages := [page] } s (State.perCfgWrite s ini page v) := by
  unfold State.perCfgWrite
  refine Within.ite ?_ ?_
  · extract_lets +onlyGivenNames s1
    refine Within.cut (x := s1) ?_ (fun h2 => ?_)
    · unfold s1
      refine (State.plainWrite_within ..).then ?_
      exact .refl
    clear_value s1
    refine Within.ite ?_ ?_
    · exact h2
    · refine (State.raise_within ..).then ?_
      exact h2
  · refine (State.plainWrite_within ..).then ?_
    exact .refl

theorem State.switchPart_within (s : State) (c : Commit) (p : Nat → Bool) :
    Within { parts := [.staged, .claims, .commits, .mrc], all := true } s (State.switchPart s c p) := by
  unfold State.switchPart
  extract_lets +onlyGivenNames s1
  extract_lets +onlyGivenNames s2
  extract_lets +onlyGivenNames s3
  refine Within.cut (x := s3) ?_ (fun h4 => ?_)
  · unfold s3
    refine Within.foldl (fun s5 a6 h7 => ?_) ?_
    · refine (State.setReg_within ..).then ?_
      exact h7
    · exact .refl
  clear_value s3
  extract_lets +onlyGivenNames s8
  refine Within.cut (x := s8) ?_ (fun h9 => ?_)
  · unfold s8
    refine Within.of_mk ?_
    exact h4
  clear_value s8
  refine Within.ite ?_ ?_
  · exact h9
  · extract_lets +onlyGivenNames s10
    refine Within.cut (x := s10) ?_ (fun h11 => ?_)
    · unfold s10
      refine Within.of_mk ?_
      exact h9
    clear_value s10
    extract_lets +onlyGivenNames s12
    refine Within.cut (x := s12) ?_ (fun h13 => ?_)
    · unfold s12
      refine (State.setField_within ..).then ?_
      refine (State.bumpGen_within ..).then ?_
      exact h11
    clear_value s12
    refine (State.releaseClaim_within ..).then ?_
    refine (State.event_within ..).then ?_
    exact h13

theorem State.setPwm_within (s : State) (n : Nat) (x : PwmCount) : Within { parts := [.per] } s (State.setPwm s n x) := by
  unfold State.setPwm
  refine (State.setPer_within ..).then ?_
  exact .refl

theorem State.pwmStart_within (s : State) (n : Nat) :
    Within { parts := [.staged, .claims, .commits, .per, .mrc], all := true } s (State.pwmStart s n) := by
  unfold State.pwmStart
  extract_lets +onlyGivenNames s1
  refine Within.cut (x := s1) ?_ (fun h2 => ?_)
  · unfold s1
    refine (State.setPwm_within ..).then ?_
    exact .refl
  clear_value s1
  split
  · rename_i v3 v4 v5
    refine (State.switchPart_within ..).then ?_
    exact h2
  · rename_i v6 v7
    exact h2

theorem State.pwmSwitch_within (s : State) (c : Commit) :
    Within { parts := [.staged, .claims, .commits, .mrc], all := true } s (State.pwmSwitch s c) := by
  unfold State.pwmSwitch
  refine (State.switchPart_within ..).then ?_
  exact .refl

theorem State.pwmWrap_within (s : State) (n : Nat) :
    Within { parts := [.staged, .claims, .commits, .per, .mrc], all := true } s (State.pwmWrap s n) := by
  unfold State.pwmWrap
  refine (State.pulse_within ..).then ?_
  refine (State.pwmStart_within ..).then ?_
  exact .refl

theorem execPwmWrap_within (pwm : Nat) (s : State) :
    OutWithin { parts := [.staged, .claims, .commits, .per, .mrc], all := true } s (execPwmWrap pwm s) := by
  unfold execPwmWrap
  refine OutWithin.next ?_
  refine Within.ite ?_ ?_
  · exact .refl
  · refine (State.pwmWrap_within ..).then ?_
    exact .refl

theorem State.pwmStep_within (s : State) (k : Nat) (n : Nat) :
    Within { parts := [.staged, .claims, .commits, .per, .mrc], all := true } s (State.pwmStep s k n) := by
  unfold State.pwmStep
  refine Within.ite ?_ ?_
  · exact .refl
  · extract_lets +onlyGivenNames s1
    extract_lets +onlyGivenNames s2
    extract_lets +onlyGivenNames s3
    extract_lets +onlyGivenNames s4
    refine Within.ite ?_ ?_
    · refine (State.setPwm_within ..).then ?_
      exact .refl
    · extract_lets +onlyGivenNames s5
      refine Within.cut (x := s5) ?_ (fun h6 => ?_)
      · unfold s5
        refine (State.pwmWrap_within ..).then ?_
        exact .refl
      clear_value s5
      extract_lets +onlyGivenNames s7
      refine (State.setPwm_within ..).then ?_
      exact h6

theorem State.pwmCycles_within (s : State) (k : Nat) :
    Within { parts := [.staged, .claims, .commits, .per, .mrc], all := true } s (State.pwmCycles s k) := by
  unfold State.pwmCycles
  refine Within.foldl (fun s1 a2 h3 => ?_) ?_
  · refine (State.pwmStep_within ..).then ?_
    exact h3
  · exact .refl

theorem State.pwmCtrlWrite_within (s : State) (ini : Initiator) (n : Nat) (v : Word) :
    Within { parts := [.per, .mrc], pages := [Pg.pwm] } s (State.pwmCtrlWrite s ini n v) := by
  unfold State.pwmCtrlWrite
  extract_lets +onlyGivenNames s1
  refine Within.cut (x := s1) ?_ (fun h2 => ?_)
  · unfold s1
    refine (State.plainWrite_within ..).then ?_
    exact .refl
  clear_value s1
  refine Within.ite ?_ ?_
  · exact h2
  · refine (State.setPwm_within ..).then ?_
    exact h2

theorem State.setGpio_within (s : State) (f : Gpio → Gpio) : Within { parts := [.per] } s (State.setGpio s f) := by
  unfold State.setGpio
  refine (State.setPer_within ..).then ?_
  exact .refl

theorem State.withPins_within {w : Touch} {s x : State} {f : State → State}
    (hx : Within w s x) (hk : ∀ y, Within w s y → Within w s (f y))
    (hw : Touch.le { parts := [.mrc] } w = true := by first | decide | simp [Touch.le, Touch.bus, Part.but, Part.every]) :
    Within w s (x.withPins f) := by
  have hs : ∀ {v : Touch} {y z : State}, Within v y z → v.le { parts := [.mrc] } = true → Within w s y → Within w s z :=
    fun h hv hy => (h.mono hv).step hy hw
  unfold State.withPins
  refine Within.foldl (fun y p hy => ?_) (hk _ hx)
  dsimp only
  split
  · exact hs (State.pulse_within ..) (by decide) hy
  · exact hy

theorem execGpioEdge_within (pin : Nat) (level : Bool) (s : State) :
    OutWithin { parts := [.per, .mrc] } s (execGpioEdge pin level s) := by
  unfold execGpioEdge
  refine OutWithin.next ?_
  refine Within.ite ?_ ?_
  · exact .refl
  · refine State.withPins_within ?_ (fun s1 h2 => ?_)
    · exact .refl
    · refine (State.setGpio_within ..).then ?_
      exact h2

theorem State.padWrite_within (s : State) (ini : Initiator) (p : Nat) (v : Word) :
    Within { parts := [.mrc], pages := [Pg.gpio] } s (State.padWrite s ini p v) := by
  unfold State.padWrite
  extract_lets +onlyGivenNames s1
  extract_lets +onlyGivenNames s2
  extract_lets +onlyGivenNames s3
  extract_lets +onlyGivenNames s4
  refine Within.ite ?_ ?_
  · refine (State.lockedErr_within ..).then ?_
    exact .refl
  · refine State.withPins_within ?_ (fun s5 h6 => ?_)
    · exact .refl
    · extract_lets +onlyGivenNames s10
      extract_lets +onlyGivenNames s11
      refine Within.cut (x := s11) ?_ (fun h12 => ?_)
      · unfold s11
        refine (State.plainWrite_within ..).then ?_
        exact h6
      clear_value s11
      extract_lets +onlyGivenNames s13
      refine Within.cut (x := s13) ?_ (fun h14 => ?_)
      · unfold s13
        refine Within.ite ?_ ?_
        · refine (State.raise_within ..).then ?_
          exact h12
        · exact h12
      clear_value s13
      refine Within.ite ?_ ?_
      · refine Within.of_mk ?_
        exact h14
      · exact h14

theorem State.holdWrite_within (s : State) (v : Word) : Within { parts := [.per, .mrc] } s (State.holdWrite s v) := by
  unfold State.holdWrite
  refine Within.ite ?_ ?_
  · refine State.withPins_within ?_ (fun s1 h2 => ?_)
    · exact .refl
    · refine (State.setGpio_within ..).then ?_
      exact h2
  · exact .refl

theorem execGpioRelease_within (ini : Initiator) (s : State) :
    OutWithin { parts := [.doms, .replies, .stalls, .debugErr, .per, .mrc], pages := [Pg.gpio, Pg.sec] } s (execGpioRelease ini s) := by
  unfold execGpioRelease
  refine OutWithin.next ?_
  refine State.pageWrite_within ?_ (fun s1 h2 => ?_)
  · exact .refl
  · refine (State.holdWrite_within ..).then ?_
    exact h2

theorem State.latchPads_within (s : State) : Within { parts := [.per] } s (State.latchPads s) := by
  unfold State.latchPads
  extract_lets +onlyGivenNames s1
  extract_lets +onlyGivenNames s2
  refine (State.setGpio_within ..).then ?_
  exact .refl

end Sys2Proof.Machine
end

