-- ==== Sys2Proof/Laws/FrameTime.lean ====
section
/-! SUPPORT. What each operation of Machine/Time.lean may change, and that it keeps a sound state sound. -/

namespace Sys2Proof.Machine

-- one proof at a time: the file holds many small ones
set_option Elab.async false

theorem State.setTim_within (s : State) (f : Tim → Tim) : Within { parts := [.tim] } s (State.setTim s f) := by
  unfold State.setTim
  refine Within.of_mk ?_
  exact .refl

theorem State.setUnits_within (s : State) (u : Int) : Within { parts := [.tim] } s (State.setUnits s u) := by
  unfold State.setUnits
  extract_lets +onlyGivenNames s1
  refine (State.setTim_within ..).then ?_
  exact .refl

theorem State.countTo_within (s : State) (u : Nat) : Within { parts := [.tim, .mrc] } s (State.countTo s u) := by
  unfold State.countTo
  extract_lets +onlyGivenNames s1
  extract_lets +onlyGivenNames s2
  refine Within.cut (x := s2) ?_ (fun h3 => ?_)
  · unfold s2
    refine (State.setUnits_within ..).then ?_
    exact .refl
  clear_value s2
  refine Within.ite ?_ ?_
  · exact h3
  · refine (State.pulse_within ..).then ?_
    exact h3

theorem State.jumped_within (s : State) : Within { parts := [.tim] } s (State.jumped s) := by
  unfold State.jumped
  refine (State.setTim_within ..).then ?_
  exact .refl

theorem State.slewEnd_within (s : State) (rem : Int) :
    Within { parts := [.tim, .mrc], pages := [Pg.tim] } s (State.slewEnd s rem) := by
  unfold State.slewEnd
  refine (State.event_within ..).then ?_
  refine (State.setTim_within ..).then ?_
  exact .refl

theorem State.timCount_within (s : State) (k : Nat) :
    Within { parts := [.tim, .mrc], pages := [Pg.tim] } s (State.timCount s k) := by
  unfold State.timCount
  extract_lets +onlyGivenNames s1
  refine Within.cut (x := s1) ?_ (fun h2 => ?_)
  · unfold s1
    refine (State.setTim_within ..).then ?_
    exact .refl
  clear_value s1
  extract_lets +onlyGivenNames s3
  split
  · rename_i v4 v5
    refine (State.countTo_within ..).then ?_
    exact h2
  · rename_i v6 v7 v8
    refine Within.ite ?_ ?_
    · refine (State.slewEnd_within ..).then ?_
      refine (State.countTo_within ..).then ?_
      exact h2
    · extract_lets +onlyGivenNames s9
      extract_lets +onlyGivenNames s10
      refine Within.cut (x := s10) ?_ (fun h11 => ?_)
      · unfold s10
        refine (State.countTo_within ..).then ?_
        exact h2
      clear_value s10
      refine (State.setTim_within ..).then ?_
      exact h11

theorem State.sfdDecided_within (s : State) (d : SfdDue) : Within { parts := [.txa] } s (State.sfdDecided s d) := by
  unfold State.sfdDecided
  extract_lets +onlyGivenNames s1
  refine Within.of_mk ?_
  exact .refl

theorem State.timRun_within (s : State) (k : Nat) :
    Within { parts := [.tim, .txa, .mrc], pages := [Pg.tim] } s (State.timRun s k) := by
  unfold State.timRun
  refine Within.ite ?_ ?_
  · exact .refl
  · split
    · rename_i v1 v2
      refine (State.timCount_within ..).then ?_
      exact .refl
    · rename_i v3 v4 v5
      refine Within.ite ?_ ?_
      · refine (State.timCount_within ..).then ?_
        refine (State.sfdDecided_within ..).then ?_
        refine (State.timCount_within ..).then ?_
        exact .refl
      · refine (State.timCount_within ..).then ?_
        refine Within.of_mk ?_
        exact .refl

theorem State.fabricRun_within (s : State) (k : Nat) :
    Within { parts := [.staged, .claims, .commits, .tim, .txa, .per, .mrc, .cpus], all := true } s (State.fabricRun s k) := by
  unfold State.fabricRun
  refine (State.timRun_within ..).then ?_
  refine (State.pwmCycles_within ..).then ?_
  refine (State.coresCount_within ..).then ?_
  exact .refl

theorem execTimSecond_within (s : State) :
    OutWithin { parts := [.staged, .claims, .commits, .tim, .txa, .per, .mrc, .cpus], all := true } s (execTimSecond s) := by
  unfold execTimSecond
  refine OutWithin.next ?_
  refine Within.ite ?_ ?_
  · refine (State.fabricRun_within ..).then ?_
    exact .refl
  · exact .refl

theorem execSlewDone_within (s : State) :
    OutWithin { parts := [.staged, .claims, .commits, .tim, .txa, .per, .mrc, .cpus], all := true } s (execSlewDone s) := by
  unfold execSlewDone
  refine OutWithin.next ?_
  split
  · rename_i v1 v2 v3
    refine Within.ite ?_ ?_
    · refine (State.fabricRun_within ..).then ?_
      exact .refl
    · exact .refl
  · rename_i v4 v5
    exact .refl

theorem State.timNsRead_within (s : State) (ini : Initiator) : Within { parts := [.tim] } s (State.timNsRead s ini).2 := by
  unfold State.timNsRead
  dsimp only
  refine (State.setTim_within ..).then ?_
  exact .refl

theorem State.timRead_within (s : State) (ini : Initiator) (off : Nat) :
    ReadWithin { parts := [.tim] } s (State.timRead s ini off) := by
  unfold State.timRead
  extract_lets +onlyGivenNames s1
  extract_lets +onlyGivenNames s2
  split
  · rename_i v3
    refine ReadWithin.some ?_
    refine (State.timNsRead_within ..).then ?_
    exact .refl
  · rename_i v4
    unfold s2
    refine ReadWithin.some ?_
    dsimp only
    exact .refl
  · rename_i v5
    unfold s2
    refine ReadWithin.some ?_
    dsimp only
    exact .refl
  · rename_i v6
    unfold s2
    refine ReadWithin.some ?_
    dsimp only
    exact .refl
  · rename_i v7
    unfold s2
    refine ReadWithin.some ?_
    dsimp only
    exact .refl
  · rename_i v8
    unfold s2
    refine ReadWithin.some ?_
    dsimp only
    exact .refl
  · rename_i v9
    unfold s2
    refine ReadWithin.some ?_
    dsimp only
    exact .refl
  · rename_i v10
    unfold s2
    refine ReadWithin.some ?_
    dsimp only
    exact .refl
  · rename_i v11
    unfold s2
    refine ReadWithin.some ?_
    dsimp only
    exact .refl
  · rename_i v12
    unfold s2
    refine ReadWithin.some ?_
    dsimp only
    exact .refl
  · rename_i v13
    unfold s2
    refine ReadWithin.some ?_
    dsimp only
    exact .refl
  · rename_i v14 v15 v16 v17 v18 v19 v20 v21 v22 v23 v24 v25
    exact ReadWithin.none

theorem execTimNsRead_within (ini : Initiator) (s : State) :
    OutWithin { parts := [.doms, .replies, .stalls, .debugErr, .tim, .mrc], pages := [Pg.tim, Pg.sec] } s (execTimNsRead ini s) := by
  unfold execTimNsRead
  refine OutWithin.next ?_
  refine State.pageRead_within ?_ (fun s1 h2 => ?_)
  · exact .refl
  · refine (State.timNsRead_within ..).then ?_
    exact h2

theorem State.timStatWrite_within (s : State) (v : Word) : Within { parts := [.tim] } s (State.timStatWrite s v) := by
  unfold State.timStatWrite
  refine Within.ite ?_ ?_
  · refine (State.setTim_within ..).then ?_
    exact .refl
  · exact .refl

theorem State.noteLast_within (s : State) : Within { parts := [.tim] } s (State.noteLast s) := by
  unfold State.noteLast
  refine (State.setTim_within ..).then ?_
  exact .refl

theorem State.adjusted_within (s : State) (trust : Bool) :
    Within { parts := [.tim, .mrc], pages := [Pg.tim] } s (State.adjusted s trust) := by
  unfold State.adjusted
  extract_lets +onlyGivenNames s1
  refine Within.cut (x := s1) ?_ (fun h2 => ?_)
  · unfold s1
    refine (State.setTim_within ..).then ?_
    exact .refl
  clear_value s1
  refine (State.event_within ..).then ?_
  refine (State.jumped_within ..).then ?_
  refine (State.noteLast_within ..).then ?_
  exact h2

theorem State.timSet_within (s : State) (sec : Nat) (ns : Nat) (trust : Bool) :
    Within { parts := [.tim, .mrc], pages := [Pg.tim] } s (State.timSet s sec ns trust) := by
  unfold State.timSet
  refine (State.adjusted_within ..).then ?_
  refine (State.setUnits_within ..).then ?_
  exact .refl

theorem State.timStep_within (s : State) (d : Int) (trust : Bool) :
    Within { parts := [.tim, .mrc], pages := [Pg.tim] } s (State.timStep s d trust) := by
  unfold State.timStep
  refine (State.adjusted_within ..).then ?_
  refine (State.setUnits_within ..).then ?_
  exact .refl

theorem State.timSlew_within (s : State) (d : Int) (trust : Bool) :
    Within { parts := [.tim, .mrc], pages := [Pg.tim] } s (State.timSlew s d trust) := by
  unfold State.timSlew
  extract_lets +onlyGivenNames s1
  refine Within.cut (x := s1) ?_ (fun h2 => ?_)
  · unfold s1
    refine (State.noteLast_within ..).then ?_
    refine (State.setTim_within ..).then ?_
    exact .refl
  clear_value s1
  refine Within.ite ?_ ?_
  · refine (State.slewEnd_within ..).then ?_
    exact h2
  · exact h2

theorem State.timSwitch_within (s : State) (c : Commit) :
    Within { parts := [.staged, .claims, .commits, .tim, .mrc], all := true } s (State.timSwitch s c) := by
  unfold State.timSwitch
  extract_lets +onlyGivenNames s1
  extract_lets +onlyGivenNames s2
  extract_lets +onlyGivenNames s3
  refine Within.cut (x := s3) ?_ (fun h4 => ?_)
  · unfold s3
    refine (State.switchCommit_within ..).then ?_
    exact .refl
  clear_value s3
  extract_lets +onlyGivenNames s5
  refine Within.cut (x := s5) ?_ (fun h6 => ?_)
  · unfold s5
    refine Within.ite ?_ ?_
    · exact h4
    · refine (State.setTim_within ..).then ?_
      exact h4
  clear_value s5
  extract_lets +onlyGivenNames s7
  extract_lets +onlyGivenNames s8
  extract_lets +onlyGivenNames s9
  extract_lets +onlyGivenNames s10
  refine Within.ite ?_ ?_
  · exact h6
  · extract_lets +onlyGivenNames s11
    refine Within.cut (x := s11) ?_ (fun h12 => ?_)
    · unfold s11
      refine (State.setField_within ..).then ?_
      exact h6
    clear_value s11
    split
    · rename_i v13 v14
      refine (State.timSet_within ..).then ?_
      exact h12
    · rename_i v15 v16
      refine (State.timStep_within ..).then ?_
      exact h12
    · rename_i v17 v18
      refine (State.timSlew_within ..).then ?_
      exact h12
    · rename_i v19 v20 v21 v22
      exact h12

theorem execTimSet_within (s : State) :
    OutWithin { parts := [.staged, .claims, .commits, .tim, .mrc], all := true } s (execTimSet s) := by
  unfold execTimSet
  refine OutWithin.next ?_
  split
  · rename_i v1 v2 v3
    refine (State.timSwitch_within ..).then ?_
    exact .refl
  · rename_i v4 v5
    exact .refl

theorem execTimStep_within (s : State) :
    OutWithin { parts := [.staged, .claims, .commits, .tim, .mrc], all := true } s (execTimStep s) := by
  unfold execTimStep
  refine OutWithin.next ?_
  split
  · rename_i v1 v2 v3
    refine (State.timSwitch_within ..).then ?_
    exact .refl
  · rename_i v4 v5
    exact .refl

theorem execTimSlew_within (s : State) :
    OutWithin { parts := [.staged, .claims, .commits, .tim, .mrc], all := true } s (execTimSlew s) := by
  unfold execTimSlew
  refine OutWithin.next ?_
  split
  · rename_i v1 v2 v3
    refine (State.timSwitch_within ..).then ?_
    exact .refl
  · rename_i v4 v5
    exact .refl

theorem State.loseTrust_within (s : State) : Within { parts := [.tim] } s (State.loseTrust s) := by
  unfold State.loseTrust
  refine (State.setTim_within ..).then ?_
  exact .refl

theorem State.cmpFire_within (s : State) (c : Nat) (late : Bool) :
    Within { parts := [.mrc], pages := [Pg.tim] } s (State.cmpFire s c late) := by
  unfold State.cmpFire
  extract_lets +onlyGivenNames s1
  extract_lets +onlyGivenNames s2
  extract_lets +onlyGivenNames s3
  extract_lets +onlyGivenNames s4
  refine Within.cut (x := s4) ?_ (fun h5 => ?_)
  · unfold s4
    refine (State.event_within ..).then ?_
    exact .refl
  clear_value s4
  refine Within.ite ?_ ?_
  · extract_lets +onlyGivenNames s6
    extract_lets +onlyGivenNames s7
    extract_lets +onlyGivenNames s8
    refine Within.cut (x := s8) ?_ (fun h9 => ?_)
    · unfold s8
      refine (State.setReg_within ..).then ?_
      exact h5
    clear_value s8
    extract_lets +onlyGivenNames s10
    refine Within.cut (x := s10) ?_ (fun h11 => ?_)
    · unfold s10
      refine (State.setReg_within ..).then ?_
      exact h9
    clear_value s10
    refine (State.setReg_within ..).then ?_
    exact h11
  · refine (State.setReg_within ..).then ?_
    exact h5

theorem execCmpFire_within (comparator : Nat) (s : State) :
    OutWithin { parts := [.mrc], pages := [Pg.tim] } s (execCmpFire comparator s) := by
  unfold execCmpFire
  refine OutWithin.next ?_
  refine Within.ite ?_ ?_
  · refine (State.cmpFire_within ..).then ?_
    exact .refl
  · exact .refl

theorem State.cmpCfgWrite_within (s : State) (ini : Initiator) (c : Nat) (v : Word) :
    Within { parts := [.mrc], pages := [Pg.tim] } s (State.cmpCfgWrite s ini c v) := by
  unfold State.cmpCfgWrite
  extract_lets +onlyGivenNames s1
  extract_lets +onlyGivenNames s2
  refine Within.cut (x := s2) ?_ (fun h3 => ?_)
  · unfold s2
    refine (State.plainWrite_within ..).then ?_
    exact .refl
  clear_value s2
  refine Within.ite ?_ ?_
  · refine (State.cmpFire_within ..).then ?_
    exact h3
  · exact h3

theorem State.cmpPerWrite_within (s : State) (ini : Initiator) (c : Nat) (v : Word) :
    Within { parts := [.mrc], pages := [Pg.tim] } s (State.cmpPerWrite s ini c v) := by
  unfold State.cmpPerWrite
  refine Within.ite ?_ ?_
  · refine (State.lockedErr_within ..).then ?_
    exact .refl
  · refine Within.ite ?_ ?_
    · refine (State.raise_within ..).then ?_
      exact .refl
    · refine (State.setReg_within ..).then ?_
      exact .refl

theorem State.ppsOfsWrite_within (s : State) (ini : Initiator) (v : Word) :
    Within { parts := [.mrc], pages := [Pg.tim] } s (State.ppsOfsWrite s ini v) := by
  unfold State.ppsOfsWrite
  refine Within.ite ?_ ?_
  · refine (State.lockedErr_within ..).then ?_
    exact .refl
  · refine Within.ite ?_ ?_
    · refine (State.raise_within ..).then ?_
      exact .refl
    · refine (State.setReg_within ..).then ?_
      exact .refl

theorem State.ppsOutWrite_within (s : State) (ini : Initiator) (v : Word) :
    Within { parts := [.tim, .mrc], pages := [Pg.tim] } s (State.ppsOutWrite s ini v) := by
  unfold State.ppsOutWrite
  extract_lets +onlyGivenNames s1
  extract_lets +onlyGivenNames s2
  refine Within.cut (x := s2) ?_ (fun h3 => ?_)
  · unfold s2
    refine (State.plainWrite_within ..).then ?_
    exact .refl
  clear_value s2
  refine Within.ite ?_ ?_
  · refine (State.jumped_within ..).then ?_
    exact h3
  · exact h3

theorem execPpsOutPulse_within (s : State) : OutWithin { parts := [.tim] } s (execPpsOutPulse s) := by
  unfold execPpsOutPulse
  refine OutWithin.next ?_
  extract_lets +onlyGivenNames s1
  extract_lets +onlyGivenNames s2
  refine Within.ite ?_ ?_
  · refine (State.setTim_within ..).then ?_
    exact .refl
  · exact .refl

theorem execPpsOutPulseEnd_within (s : State) : OutWithin { parts := [.tim] } s (execPpsOutPulseEnd s) := by
  unfold execPpsOutPulseEnd
  refine OutWithin.next ?_
  refine Within.ite ?_ ?_
  · refine (State.setTim_within ..).then ?_
    exact .refl
  · exact .refl

theorem execPpsInCapture_within (rising : Bool) (s : State) :
    OutWithin { parts := [.mrc], pages := [Pg.tim] } s (execPpsInCapture rising s) := by
  unfold execPpsInCapture
  refine OutWithin.next ?_
  extract_lets +onlyGivenNames s1
  refine Within.ite ?_ ?_
  · exact .refl
  · extract_lets +onlyGivenNames s2
    extract_lets +onlyGivenNames s3
    refine Within.cut (x := s3) ?_ (fun h4 => ?_)
    · unfold s3
      refine (State.setReg_within ..).then ?_
      exact .refl
    clear_value s3
    extract_lets +onlyGivenNames s5
    refine Within.cut (x := s5) ?_ (fun h6 => ?_)
    · unfold s5
      refine (State.setReg_within ..).then ?_
      exact h4
    clear_value s5
    refine (State.event_within ..).then ?_
    refine (State.count_within ..).then ?_
    exact h6

theorem execBeaconSync_within (s : State) :
    OutWithin { parts := [.tim, .mrc], pages := [Pg.tim] } s (execBeaconSync s) := by
  unfold execBeaconSync
  refine OutWithin.next ?_
  split
  · rename_i v1 v2
    exact .refl
  · rename_i v3 v4 v5 v6
    extract_lets +onlyGivenNames s7
    refine Within.cut (x := s7) ?_ (fun h8 => ?_)
    · unfold s7
      refine (State.setTim_within ..).then ?_
      exact .refl
    clear_value s7
    extract_lets +onlyGivenNames s9
    refine Within.ite ?_ ?_
    · exact h8
    · extract_lets +onlyGivenNames s10
      extract_lets +onlyGivenNames s11
      extract_lets +onlyGivenNames s12
      refine Within.cut (x := s12) ?_ (fun h13 => ?_)
      · unfold s12
        refine (State.setReg_within ..).then ?_
        exact h8
      clear_value s12
      extract_lets +onlyGivenNames s14
      refine Within.cut (x := s14) ?_ (fun h15 => ?_)
      · unfold s14
        refine (State.event_within ..).then ?_
        refine (State.count_within ..).then ?_
        exact h13
      clear_value s14
      refine Within.ite ?_ ?_
      · extract_lets +onlyGivenNames s16
        extract_lets +onlyGivenNames s17
        refine Within.cut (x := s17) ?_ (fun h18 => ?_)
        · unfold s17
          refine Within.ite ?_ ?_
          · refine (State.timSlew_within ..).then ?_
            exact h15
          · refine (State.timStep_within ..).then ?_
            exact h15
        clear_value s17
        refine (State.count_within ..).then ?_
        exact h18
      · exact h15

theorem State.timSleep_within (s : State) : Within { parts := [.tim, .mrc], pages := [Pg.tim] } s (State.timSleep s) := by
  unfold State.timSleep
  extract_lets +onlyGivenNames s1
  refine Within.cut (x := s1) ?_ (fun h2 => ?_)
  · unfold s1
    split
    · rename_i v3 v4 v5
      refine (State.slewEnd_within ..).then ?_
      refine (State.setUnits_within ..).then ?_
      exact .refl
    · rename_i v6 v7
      exact .refl
  clear_value s1
  refine (State.setTim_within ..).then ?_
  exact h2

theorem execTimWakeLoad_within (s : State) :
    OutWithin { parts := [.tim, .mrc], pages := [Pg.tim] } s (execTimWakeLoad s) := by
  unfold execTimWakeLoad
  refine OutWithin.next ?_
  split
  · rename_i v1 v2
    exact .refl
  · rename_i v3 v4 v5 v6
    refine Within.ite ?_ ?_
    · exact .refl
    · extract_lets +onlyGivenNames s7
      extract_lets +onlyGivenNames s8
      refine Within.ite ?_ ?_
      · extract_lets +onlyGivenNames s9
        refine Within.cut (x := s9) ?_ (fun h10 => ?_)
        · unfold s9
          refine (State.jumped_within ..).then ?_
          refine (State.setUnits_within ..).then ?_
          exact .refl
        clear_value s9
        extract_lets +onlyGivenNames s11
        refine Within.cut (x := s11) ?_ (fun h12 => ?_)
        · unfold s11
          refine (State.setTim_within ..).then ?_
          exact h10
        clear_value s11
        refine (State.event_within ..).then ?_
        refine (State.loseTrust_within ..).then ?_
        exact h12
      · extract_lets +onlyGivenNames s13
        extract_lets +onlyGivenNames s14
        refine Within.cut (x := s14) ?_ (fun h15 => ?_)
        · unfold s14
          refine (State.jumped_within ..).then ?_
          refine (State.setUnits_within ..).then ?_
          exact .refl
        clear_value s14
        extract_lets +onlyGivenNames s16
        refine (State.setTim_within ..).then ?_
        exact h15

theorem State.timTickEdge_within (s : State) : Within { parts := [.tim] } s (State.timTickEdge s) := by
  unfold State.timTickEdge
  extract_lets +onlyGivenNames s1
  refine Within.cut (x := s1) ?_ (fun h2 => ?_)
  · unfold s1
    refine (State.setTim_within ..).then ?_
    exact .refl
  clear_value s1
  refine Within.ite ?_ ?_
  · refine (State.setTim_within ..).then ?_
    exact h2
  · split
    · rename_i v3 v4
      refine (State.setTim_within ..).then ?_
      exact h2
    · rename_i v5 v6 v7
      refine Within.ite ?_ ?_
      · refine (State.setTim_within ..).then ?_
        exact h2
      · exact h2

end Sys2Proof.Machine
end

