-- ==== Sys2Proof/Laws/FrameEthernet.lean ====
section
/-! SUPPORT. What each operation of Machine/Ethernet.lean may change, and that it keeps a sound state sound. -/

namespace Sys2Proof.Machine

-- one proof at a time: the file holds many small ones
set_option Elab.async false

theorem State.ethSend_within (s : State) (i : Item) (f : List Byte) (back : Nat) :
    Within { parts := [.eth] } s (State.ethSend s i f back) := by
  unfold State.ethSend
  extract_lets +onlyGivenNames s1
  extract_lets +onlyGivenNames s2
  extract_lets +onlyGivenNames s3
  extract_lets +onlyGivenNames s4
  extract_lets +onlyGivenNames s5
  split
  rename_i v6 v7 v8 v9
  extract_lets +onlyGivenNames s10
  refine Within.of_mk ?_
  exact .refl

theorem State.ethSent_within (s : State) (x : EthTx) : Within { parts := [.flm, .eth] } s (State.ethSent s x) := by
  unfold State.ethSent
  extract_lets +onlyGivenNames s1
  extract_lets +onlyGivenNames s2
  refine Within.cut (x := s2) ?_ (fun h3 => ?_)
  · unfold s2
    refine Within.of_mk ?_
    exact .refl
  clear_value s2
  refine (State.finish_within ..).then ?_
  exact h3

theorem State.ethCut_within (s : State) (status : Nat) : Within { parts := [.flm, .eth] } s (State.ethCut s status) := by
  unfold State.ethCut
  split
  · rename_i v1 v2
    exact .refl
  · rename_i v3 v4 v5
    extract_lets +onlyGivenNames s6
    extract_lets +onlyGivenNames s7
    refine Within.cut (x := s7) ?_ (fun h8 => ?_)
    · unfold s7
      refine Within.of_mk ?_
      exact .refl
    clear_value s7
    refine (State.finish_within ..).then ?_
    exact h8

theorem execEthTx_within (entry : Nat) (back : Nat) (flips : List Flip) (s : State) :
    OutWithin { parts := [.doms, .freeCtr, .flm, .drc, .flc, .eth, .mrc], pages := [Pg.drc, Pg.flc] } s (execEthTx entry back flips s) := by
  unfold execEthTx
  extract_lets +onlyGivenNames s1
  refine OutWithin.cut (x := s1) ?_ (fun h2 => ?_)
  · unfold s1
    refine (State.applyFlips_within ..).then ?_
    exact .refl
  clear_value s1
  refine OutWithin.next ?_
  split
  · rename_i v3 v4
    exact h2
  · rename_i v5 v6 v7
    extract_lets +onlyGivenNames s8
    refine Within.ite ?_ ?_
    · refine (State.wake_within ..).then ?_
      exact h2
    · split
      · rename_i v9 v10 v11
        refine Within.ite ?_ ?_
        · refine (State.ethSent_within ..).then ?_
          exact h2
        · exact h2
      · rename_i v12 v13
        refine Within.ite ?_ ?_
        · refine (State.finish_within ..).then ?_
          exact h2
        · refine Within.ite ?_ ?_
          · refine (State.finish_within ..).then ?_
            exact h2
          · refine Within.ite ?_ ?_
            · exact h2
            · split
              · rename_i v14 v15 v16
                refine Within.fst v16 ?_
                refine (State.unitRead_within ..).then ?_
                exact h2
              · rename_i v17 v18 v19
                refine (State.finish_within ..).then ?_
                refine Within.fst v19 ?_
                refine (State.unitRead_within ..).then ?_
                exact h2
              · rename_i v20 v21 v22 v23 v24
                split
                · rename_i v25 v26
                  refine (State.finish_within ..).then ?_
                  refine Within.fst v24 ?_
                  refine (State.unitRead_within ..).then ?_
                  exact h2
                · rename_i v27 v28 v29
                  refine (State.ethSend_within ..).then ?_
                  refine Within.fst v24 ?_
                  refine (State.unitRead_within ..).then ?_
                  exact h2

theorem execEthFrameReceive_within (octets : List Byte) (back : Nat) (flips : List Flip) (s : State) :
    OutWithin { parts := [.mem, .doms, .flm, .drc, .flc, .mrc], pages := [Pg.eth, Pg.drc] } s (execEthFrameReceive octets back flips s) := by
  unfold execEthFrameReceive
  extract_lets +onlyGivenNames s1
  refine OutWithin.cut (x := s1) ?_ (fun h2 => ?_)
  · unfold s1
    refine (State.applyFlips_within ..).then ?_
    exact .refl
  clear_value s1
  refine OutWithin.next ?_
  refine Within.ite ?_ ?_
  · exact h2
  · refine Within.ite ?_ ?_
    · refine (State.count_within ..).then ?_
      exact h2
    · refine Within.ite ?_ ?_
      · exact h2
      · refine Within.ite ?_ ?_
        · refine (State.count_within ..).then ?_
          exact h2
        · extract_lets +onlyGivenNames s3
          split
          · rename_i v4 v5 v6
            refine Within.fst v6 ?_
            refine (State.unitWrite_within ..).then ?_
            exact h2
          · rename_i v7 v8 v9 v10 v11
            extract_lets +onlyGivenNames s12
            extract_lets +onlyGivenNames s13
            extract_lets +onlyGivenNames s14
            extract_lets +onlyGivenNames s15
            extract_lets +onlyGivenNames s16
            refine Within.cut (x := s16) ?_ (fun h17 => ?_)
            · unfold s16
              refine (State.setReg_within ..).then ?_
              refine Within.fst v11 ?_
              refine (State.unitWrite_within ..).then ?_
              exact h2
            clear_value s16
            refine (State.report_within ..).then ?_
            exact h17

theorem execEthRxconsWrite_within (ini : Initiator) (value : Word) (s : State) :
    OutWithin { parts := [.doms, .replies, .stalls, .debugErr, .mrc], pages := [Pg.eth, Pg.sec] } s (execEthRxconsWrite ini value s) := by
  unfold execEthRxconsWrite
  refine OutWithin.next ?_
  refine State.pageWrite_within ?_ (fun s1 h2 => ?_)
  · exact .refl
  · refine (State.setReg_within ..).then ?_
    exact h2

theorem State.ethRxcfgWrite_within (s : State) (ini : Initiator) (v : Word) :
    Within { parts := [.mrc], pages := [Pg.eth] } s (State.ethRxcfgWrite s ini v) := by
  unfold State.ethRxcfgWrite
  extract_lets +onlyGivenNames s1
  extract_lets +onlyGivenNames s2
  refine Within.ite ?_ ?_
  · refine (State.lockedErr_within ..).then ?_
    exact .refl
  · refine Within.ite ?_ ?_
    · refine (State.setReg_within ..).then ?_
      exact .refl
    · refine Within.ite ?_ ?_
      · refine (State.setReg_within ..).then ?_
        exact .refl
      · refine Within.ite ?_ ?_
        · refine (State.raise_within ..).then ?_
          refine (State.setReg_within ..).then ?_
          exact .refl
        · refine (State.setReg_within ..).then ?_
          refine (State.setReg_within ..).then ?_
          refine (State.setReg_within ..).then ?_
          exact .refl

theorem State.ethRxbaseWrite_within (s : State) (ini : Initiator) (v : Word) :
    Within { parts := [.mrc], pages := [Pg.eth] } s (State.ethRxbaseWrite s ini v) := by
  unfold State.ethRxbaseWrite
  refine Within.ite ?_ ?_
  · refine (State.lockedErr_within ..).then ?_
    exact .refl
  · refine Within.ite ?_ ?_
    · exact .refl
    · refine (State.setReg_within ..).then ?_
      exact .refl

theorem State.mdioWrite_within (s : State) (v : Word) : Within { pages := [Pg.eth] } s (State.mdioWrite s v) := by
  unfold State.mdioWrite
  refine Within.ite ?_ ?_
  · exact .refl
  · refine (State.setReg_within ..).then ?_
    exact .refl

theorem execMdioTransfer_within (ini : Initiator) (value : Word) (s : State) :
    OutWithin { parts := [.doms, .replies, .stalls, .debugErr, .mrc], pages := [Pg.eth, Pg.sec] } s (execMdioTransfer ini value s) := by
  unfold execMdioTransfer
  refine OutWithin.next ?_
  refine State.pageWrite_within ?_ (fun s1 h2 => ?_)
  · exact .refl
  · refine (State.mdioWrite_within ..).then ?_
    exact h2

theorem execMdioDone_within (data : Half) (s : State) : OutWithin { pages := [Pg.eth] } s (execMdioDone data s) := by
  unfold execMdioDone
  refine OutWithin.next ?_
  extract_lets +onlyGivenNames s1
  refine Within.ite ?_ ?_
  · exact .refl
  · extract_lets +onlyGivenNames s2
    refine (State.setReg_within ..).then ?_
    exact .refl

theorem execEthLinkChange_within (up : Bool) (speed : Nat) (s : State) :
    OutWithin { parts := [.eth] } s (execEthLinkChange up speed s) := by
  unfold execEthLinkChange
  refine OutWithin.next ?_
  refine Within.ite ?_ ?_
  · exact .refl
  · refine Within.of_mk ?_
    exact .refl

theorem execEthMagicPacket_within (s : State) : OutWithin { parts := [.eth] } s (execEthMagicPacket s) := by
  unfold execEthMagicPacket
  refine OutWithin.next ?_
  refine Within.ite ?_ ?_
  · refine Within.of_mk ?_
    exact .refl
  · exact .refl

end Sys2Proof.Machine
end

