-- ==== Sys2Proof/Laws/FrameSecurity.lean ====
section
/-! SUPPORT. What each operation of Machine/Security.lean may change, and that it keeps a sound state sound. -/

namespace Sys2Proof.Machine

-- one proof at a time: the file holds many small ones
set_option Elab.async false

theorem State.setSec_within (s : State) (f : Sec → Sec) : Within { parts := [.sec] } s (State.setSec s f) := by
  unfold State.setSec
  refine Within.of_mk ?_
  exact .refl

theorem State.setOtp_within (s : State) (f : Otp → Otp) : Within { parts := [.sec] } s (State.setOtp s f) := by
  unfold State.setOtp
  refine (State.setSec_within ..).then ?_
  exact .refl

theorem State.freshOctets_within (n : Nat) (s : State) : Within { parts := [.freeCtr] } s (State.freshOctets n s).2 := by
  induction n generalizing s with
  | zero => exact .refl
  | succ n ih =>
    refine (ih _).then ?_
    refine (State.fresh_within ..).then ?_
    exact .refl

theorem State.random_within (s : State) (n : Nat) : Within { parts := [.freeCtr] } s (State.random s n).2 := by
  unfold State.random
  split
  rename_i v1 v2 v3 v4
  dsimp only
  refine Within.snd v4 ?_
  refine (State.freshOctets_within ..).then ?_
  exact .refl

theorem State.unitSign_within (s : State) (p : Nat) (m : List Byte) :
    Within { parts := [.freeCtr] } s (State.unitSign s p m).2 := by
  unfold State.unitSign
  split
  rename_i v1 v2 v3 v4
  dsimp only
  refine Within.snd v4 ?_
  refine (State.random_within ..).then ?_
  exact .refl

theorem execDrkReconstructDone_within (ok : Bool) (s : State) :
    OutWithin { parts := [.mrc, .sec], pages := [Pg.sec] } s (execDrkReconstructDone ok s) := by
  unfold execDrkReconstructDone
  refine OutWithin.next ?_
  refine Within.ite ?_ ?_
  · exact .refl
  · extract_lets +onlyGivenNames s1
    extract_lets +onlyGivenNames s2
    refine Within.cut (x := s2) ?_ (fun h3 => ?_)
    · unfold s2
      refine (State.setSec_within ..).then ?_
      exact .refl
    clear_value s2
    refine Within.ite ?_ ?_
    · exact h3
    · refine (State.event_within ..).then ?_
      exact h3

theorem State.secIn_within {w : Touch} {s x : State} {i : Item} {a n : Nat} {k : State → List Byte → State}
    (hx : Within w s x) (hk : ∀ y bs, Within w s y → Within w s (k y bs))
    (hw : Touch.le { parts := [.doms, .freeCtr, .flm, .drc, .mrc], pages := [Pg.drc, Pg.flc, Pg.sec] } w = true := by first | decide | simp [Touch.le, Touch.bus, Part.but, Part.every]) :
    Within w s (x.secIn i a n k) := by
  have hs : ∀ {v : Touch} {y z : State}, Within v y z → v.le { parts := [.doms, .freeCtr, .flm, .drc, .mrc], pages := [Pg.drc, Pg.flc, Pg.sec] } = true → Within w s y → Within w s z :=
    fun h hv hy => (h.mono hv).step hy hw
  have hu := hs (State.unitRead_within x a n false) (by decide) hx
  unfold State.secIn
  split <;> rename_i h <;> have hy := Within.fst h hu
  · exact hy
  · exact hs (State.finish_within ..) (by decide) (hs (State.raise_within ..) (by decide) hy)
  · split
    · exact hs (State.finish_within ..) (by decide) hy
    · exact hk _ _ hy

theorem State.secOut_within {w : Touch} {s x : State} {i : Item} {a : Nat} {bs : List Byte} {k : State → State}
    (hx : Within w s x) (hk : ∀ y, Within w s y → Within w s (k y))
    (hw : Touch.le { parts := [.mem, .doms, .flm, .drc, .mrc], pages := [Pg.drc, Pg.sec] } w = true := by first | decide | simp [Touch.le, Touch.bus, Part.but, Part.every]) :
    Within w s (x.secOut i a bs k) := by
  have hs : ∀ {v : Touch} {y z : State}, Within v y z → v.le { parts := [.mem, .doms, .flm, .drc, .mrc], pages := [Pg.drc, Pg.sec] } = true → Within w s y → Within w s z :=
    fun h hv hy => (h.mono hv).step hy hw
  have hu := hs (State.unitWrite_within x a bs) (by decide) hx
  unfold State.secOut
  split <;> rename_i h <;> have hy := Within.fst h hu
  · exact hy
  · exact hs (State.finish_within ..) (by decide) (hs (State.raise_within ..) (by decide) hy)
  · exact hk _ hy

theorem State.secFail_within (s : State) (i : Item) (status : Nat) (check : Option Nat) :
    Within { parts := [.freeCtr, .flm] } s (State.secFail s i status check) := by
  unfold State.secFail
  split
  · rename_i v1 v2
    refine (State.finish_within ..).then ?_
    exact .refl
  · rename_i v3
    split
    rename_i v4 v5 v6 v7
    refine (State.finish_within ..).then ?_
    refine Within.snd v7 ?_
    refine (State.fresh_within ..).then ?_
    exact .refl

theorem State.secDone_within (s : State) (i : Item) (n : Nat) : Within { parts := [.flm] } s (State.secDone s i n) := by
  unfold State.secDone
  refine (State.finish_within ..).then ?_
  exact .refl

theorem State.secRun_within {w : Touch} {s x : State} {op entry : Nat} {len : Option Nat} {k : State → Item → State}
    (hx : Within w s x) (hk : ∀ y i, Within w s y → Within w s (k y i))
    (hw : Touch.le { parts := [.freeCtr, .flm] } w = true := by first | decide | simp [Touch.le, Touch.bus, Part.but, Part.every]) :
    Within w s (x.secRun op entry len k) := by
  have hs : ∀ {v : Touch} {y z : State}, Within v y z → v.le { parts := [.freeCtr, .flm] } = true → Within w s y → Within w s z :=
    fun h hv hy => (h.mono hv).step hy hw
  unfold State.secRun
  split
  · exact hx
  · split
    · exact hs (State.secFail_within ..) (by decide) hx
    · exact hk _ _ hx

theorem execSecHash_within (entry : Nat) (flips : List Flip) (s : State) :
    OutWithin { parts := [.mem, .doms, .freeCtr, .flm, .drc, .flc, .mrc], pages := [Pg.drc, Pg.sec, Pg.flc] } s (execSecHash entry flips s) := by
  unfold execSecHash
  refine OutWithin.next ?_
  refine State.secRun_within ?_ (fun s1 a3 h2 => ?_)
  · refine (State.applyFlips_within ..).then ?_
    exact .refl
  · refine State.secIn_within ?_ (fun s6 a8 h7 => ?_)
    · exact h2
    · refine State.secOut_within ?_ (fun s11 h12 => ?_)
      · exact h7
      · refine (State.secDone_within ..).then ?_
        exact h12

theorem execSecVerify_within (entry : Nat) (flips : List Flip) (s : State) :
    OutWithin { parts := [.doms, .freeCtr, .flm, .drc, .flc, .mrc], pages := [Pg.drc, Pg.flc, Pg.sec] } s (execSecVerify entry flips s) := by
  unfold execSecVerify
  refine OutWithin.next ?_
  refine State.secRun_within ?_ (fun s1 a3 h2 => ?_)
  · refine (State.applyFlips_within ..).then ?_
    exact .refl
  · refine State.secIn_within ?_ (fun s6 a8 h7 => ?_)
    · exact h2
    · refine Within.ite ?_ ?_
      · refine (State.secDone_within ..).then ?_
        exact h7
      · refine (State.secFail_within ..).then ?_
        exact h7

theorem State.needUnit_within {w : Touch} {s x : State} {i : Item} {rnd : Bool} {k : State → State}
    (hx : Within w s x) (hk : ∀ y, Within w s y → Within w s (k y))
    (hw : Touch.le { parts := [.freeCtr, .flm] } w = true := by first | decide | simp [Touch.le, Touch.bus, Part.but, Part.every]) :
    Within w s (x.needUnit i rnd k) := by
  have hs : ∀ {v : Touch} {y z : State}, Within v y z → v.le { parts := [.freeCtr, .flm] } = true → Within w s y → Within w s z :=
    fun h hv hy => (h.mono hv).step hy hw
  unfold State.needUnit
  split
  · exact hs (State.secFail_within ..) (by decide) hx
  · split
    · exact hs (State.finish_within ..) (by decide) hx
    · exact hk _ hx

theorem execSecSign_within (entry : Nat) (flips : List Flip) (s : State) :
    OutWithin { parts := [.mem, .doms, .freeCtr, .flm, .drc, .flc, .mrc], pages := [Pg.drc, Pg.sec, Pg.flc] } s (execSecSign entry flips s) := by
  unfold execSecSign
  refine OutWithin.next ?_
  refine State.secRun_within ?_ (fun s1 a3 h2 => ?_)
  · refine (State.applyFlips_within ..).then ?_
    exact .refl
  · refine State.needUnit_within ?_ (fun s6 h7 => ?_)
    · exact h2
    · refine State.secIn_within ?_ (fun s11 a13 h12 => ?_)
      · exact h7
      · split
        rename_i v16 v17 v18 v19
        refine State.secOut_within ?_ (fun s20 h21 => ?_)
        · refine Within.snd v19 ?_
          refine (State.unitSign_within ..).then ?_
          exact h12
        · refine (State.secDone_within ..).then ?_
          exact h21

theorem execSecRandom_within (entry : Nat) (flips : List Flip) (s : State) :
    OutWithin { parts := [.mem, .doms, .freeCtr, .flm, .drc, .flc, .mrc], pages := [Pg.drc, Pg.sec] } s (execSecRandom entry flips s) := by
  unfold execSecRandom
  refine OutWithin.next ?_
  refine State.secRun_within ?_ (fun s1 a3 h2 => ?_)
  · refine (State.applyFlips_within ..).then ?_
    exact .refl
  · refine Within.ite ?_ ?_
    · refine (State.secFail_within ..).then ?_
      exact h2
    · split
      rename_i v6 v7 v8 v9
      refine State.secOut_within ?_ (fun s10 h11 => ?_)
      · refine Within.snd v9 ?_
        refine (State.random_within ..).then ?_
        exact h2
      · refine (State.secDone_within ..).then ?_
        exact h11

theorem execSecAttest_within (entry : Nat) (flips : List Flip) (s : State) :
    OutWithin { parts := [.mem, .doms, .freeCtr, .flm, .drc, .flc, .mrc], pages := [Pg.drc, Pg.sec, Pg.flc] } s (execSecAttest entry flips s) := by
  unfold execSecAttest
  refine OutWithin.next ?_
  refine State.secRun_within ?_ (fun s1 a3 h2 => ?_)
  · refine (State.applyFlips_within ..).then ?_
    exact .refl
  · refine State.needUnit_within ?_ (fun s6 h7 => ?_)
    · exact h2
    · refine State.secIn_within ?_ (fun s11 a13 h12 => ?_)
      · exact h7
      · extract_lets +onlyGivenNames s16
        split
        rename_i v17 v18 v19 v20
        refine State.secOut_within ?_ (fun s21 h22 => ?_)
        · refine Within.snd v20 ?_
          refine (State.unitSign_within ..).then ?_
          exact h12
        · refine (State.secDone_within ..).then ?_
          exact h22

theorem execSecExtend_within (entry : Nat) (flips : List Flip) (s : State) :
    OutWithin { parts := [.doms, .freeCtr, .flm, .drc, .flc, .mrc, .sec], pages := [Pg.drc, Pg.flc, Pg.sec] } s (execSecExtend entry flips s) := by
  unfold execSecExtend
  refine OutWithin.next ?_
  refine State.secRun_within ?_ (fun s1 a3 h2 => ?_)
  · refine (State.applyFlips_within ..).then ?_
    exact .refl
  · refine State.secIn_within ?_ (fun s6 a8 h7 => ?_)
    · exact h2
    · split
      rename_i v11 v12 v13 v14
      refine (State.secDone_within ..).then ?_
      refine (State.setSec_within ..).then ?_
      refine Within.snd v14 ?_
      refine (State.random_within ..).then ?_
      exact h7

theorem execSecPubkey_within (entry : Nat) (flips : List Flip) (s : State) :
    OutWithin { parts := [.mem, .doms, .freeCtr, .flm, .drc, .flc, .mrc], pages := [Pg.drc, Pg.sec] } s (execSecPubkey entry flips s) := by
  unfold execSecPubkey
  refine OutWithin.next ?_
  refine State.secRun_within ?_ (fun s1 a3 h2 => ?_)
  · refine (State.applyFlips_within ..).then ?_
    exact .refl
  · refine State.needUnit_within ?_ (fun s6 h7 => ?_)
    · exact h2
    · refine State.secOut_within ?_ (fun s11 h12 => ?_)
      · exact h7
      · refine (State.secDone_within ..).then ?_
        exact h12

theorem execSecEnroll_within (entry : Nat) (writes : Nat) (flips : List Flip) (s : State) :
    OutWithin { parts := [.mem, .doms, .freeCtr, .flm, .drc, .flc, .mrc, .sec], pages := [Pg.drc, Pg.sec, Pg.flc] } s (execSecEnroll entry writes flips s) := by
  unfold execSecEnroll
  refine OutWithin.next ?_
  refine State.secRun_within ?_ (fun s1 a3 h2 => ?_)
  · refine (State.applyFlips_within ..).then ?_
    exact .refl
  · refine State.secIn_within ?_ (fun s6 a8 h7 => ?_)
    · exact h2
    · refine Within.ite ?_ ?_
      · refine (State.secFail_within ..).then ?_
        exact h7
      · refine Within.ite ?_ ?_
        · refine (State.secFail_within ..).then ?_
          exact h7
        · refine Within.ite ?_ ?_
          · refine (State.finish_within ..).then ?_
            exact h7
          · refine Within.ite ?_ ?_
            · refine (State.secFail_within ..).then ?_
              exact h7
            · refine Within.ite ?_ ?_
              · refine State.secOut_within ?_ (fun s11 h12 => ?_)
                · exact h7
                · exact h12
              · extract_lets +onlyGivenNames s16
                split
                rename_i v17 v18 v19 v20
                extract_lets +onlyGivenNames s21
                extract_lets +onlyGivenNames s22
                extract_lets +onlyGivenNames s23
                refine Within.cut (x := s23) ?_ (fun h24 => ?_)
                · unfold s23
                  refine (State.setOtp_within ..).then ?_
                  refine Within.snd v20 ?_
                  refine (State.random_within ..).then ?_
                  exact h7
                clear_value s23
                refine Within.ite ?_ ?_
                · exact h24
                · split
                  rename_i v25 v26 v27 v28
                  refine State.secOut_within ?_ (fun s29 h30 => ?_)
                  · refine Within.snd v28 ?_
                    refine (State.unitSign_within ..).then ?_
                    exact h24
                  · refine (State.secDone_within ..).then ?_
                    exact h30

theorem State.ownerCmd_within (s : State) (cmd : Nat) (entry : Nat) (eff : List Byte → Otp → Otp) :
    Within { parts := [.doms, .freeCtr, .flm, .drc, .mrc, .sec], pages := [Pg.drc, Pg.flc, Pg.sec] } s (State.ownerCmd s cmd entry eff) := by
  unfold State.ownerCmd
  refine State.secRun_within ?_ (fun s1 a3 h2 => ?_)
  · exact .refl
  · refine State.secIn_within ?_ (fun s6 a8 h7 => ?_)
    · exact h2
    · extract_lets +onlyGivenNames s11
      refine Within.ite ?_ ?_
      · exact h7
      · split
        · rename_i v12 v13 v14 v15
          refine (State.secFail_within ..).then ?_
          exact h7
        · rename_i v16 v17
          refine (State.secDone_within ..).then ?_
          refine (State.setOtp_within ..).then ?_
          exact h7

theorem execOwnerAdd_within (entry : Nat) (flips : List Flip) (s : State) :
    OutWithin { parts := [.doms, .freeCtr, .flm, .drc, .flc, .mrc, .sec], pages := [Pg.drc, Pg.flc, Pg.sec] } s (execOwnerAdd entry flips s) := by
  unfold execOwnerAdd
  refine OutWithin.next ?_
  refine (State.ownerCmd_within ..).then ?_
  refine (State.applyFlips_within ..).then ?_
  exact .refl

theorem execOwnerRevoke_within (entry : Nat) (flips : List Flip) (s : State) :
    OutWithin { parts := [.doms, .freeCtr, .flm, .drc, .flc, .mrc, .sec], pages := [Pg.drc, Pg.flc, Pg.sec] } s (execOwnerRevoke entry flips s) := by
  unfold execOwnerRevoke
  refine OutWithin.next ?_
  refine (State.ownerCmd_within ..).then ?_
  refine (State.applyFlips_within ..).then ?_
  exact .refl

theorem execOwnerRetire_within (entry : Nat) (flips : List Flip) (s : State) :
    OutWithin { parts := [.doms, .freeCtr, .flm, .drc, .flc, .mrc, .sec], pages := [Pg.drc, Pg.flc, Pg.sec] } s (execOwnerRetire entry flips s) := by
  unfold execOwnerRetire
  extract_lets +onlyGivenNames s1
  refine OutWithin.cut (x := s1) ?_ (fun h2 => ?_)
  · unfold s1
    refine (State.ownerCmd_within ..).then ?_
    refine (State.applyFlips_within ..).then ?_
    exact .refl
  clear_value s1
  refine OutWithin.next ?_
  refine Within.ite ?_ ?_
  · refine (State.setSec_within ..).then ?_
    exact h2
  · exact h2

theorem execRngHealthFail_within (s : State) :
    OutWithin { parts := [.mrc, .sec], pages := [Pg.sec] } s (execRngHealthFail s) := by
  unfold execRngHealthFail
  refine OutWithin.next ?_
  refine Within.ite ?_ ?_
  · exact .refl
  · refine (State.event_within ..).then ?_
    refine (State.setSec_within ..).then ?_
    exact .refl

theorem execDebugTokenWrite_within (octets : List Byte) (s : State) :
    OutWithin { parts := [.sec] } s (execDebugTokenWrite octets s) := by
  unfold execDebugTokenWrite
  refine OutWithin.next ?_
  refine Within.ite ?_ ?_
  · exact .refl
  · refine (State.setSec_within ..).then ?_
    exact .refl

theorem execDebugTokenVerdict_within (s : State) :
    OutWithin { parts := [.mrc, .sec], pages := [Pg.sec] } s (execDebugTokenVerdict s) := by
  unfold execDebugTokenVerdict
  refine OutWithin.next ?_
  split
  · rename_i v1 v2
    exact .refl
  · rename_i v3 v4 v5
    extract_lets +onlyGivenNames s6
    refine (State.event_within ..).then ?_
    refine (State.setSec_within ..).then ?_
    exact .refl

end Sys2Proof.Machine
end

