-- ==== Sys2Proof/Laws/FramePalette.lean ====
section
/-! SUPPORT. What each operation of Machine/Palette.lean may change, and that it keeps a sound state sound. -/

namespace Sys2Proof.Machine

-- one proof at a time: the file holds many small ones
set_option Elab.async false

theorem State.setPal_within (s : State) (f : Pal → Pal) : Within { parts := [.pal] } s (State.setPal s f) := by
  unfold State.setPal
  refine Within.of_mk ?_
  exact .refl

theorem State.setPalPage_within (s : State) (p : Nat) (x : PalState) :
    Within { parts := [.pal] } s (State.setPalPage s p x) := by
  unfold State.setPalPage
  refine (State.setPal_within ..).then ?_
  exact .refl

theorem State.setPalKey_within (s : State) (p : Nat) (h : Nat) (k : Option Key) :
    Within { parts := [.pal] } s (State.setPalKey s p h k) := by
  unfold State.setPalKey
  refine (State.setPal_within ..).then ?_
  exact .refl

theorem State.setPalCtx_within (s : State) (p : Nat) (c : Nat) (x : Option PalCtx) :
    Within { parts := [.pal] } s (State.setPalCtx s p c x) := by
  unfold State.setPalCtx
  refine (State.setPal_within ..).then ?_
  exact .refl

theorem State.emptyPage_within (s : State) (p : Nat) : Within { parts := [.pal] } s (State.emptyPage s p) := by
  unfold State.emptyPage
  refine (State.setPal_within ..).then ?_
  exact .refl

theorem State.palCtrlWrite_within (s : State) (ini : Initiator) (v : Word) :
    Within { parts := [.mrc, .pal], pages := [Pg.pal] } s (State.palCtrlWrite s ini v) := by
  unfold State.palCtrlWrite
  extract_lets +onlyGivenNames s1
  extract_lets +onlyGivenNames s2
  refine Within.ite ?_ ?_
  · refine (State.lockedErr_within ..).then ?_
    exact .refl
  · split
    · rename_i v3 v4
      refine Within.ite ?_ ?_
      · refine (State.setPalPage_within ..).then ?_
        exact .refl
      · unfold s2
        refine (State.raise_within ..).then ?_
        exact .refl
    · rename_i v5 v6
      refine Within.ite ?_ ?_
      · unfold s2
        refine (State.raise_within ..).then ?_
        exact .refl
      · refine Within.ite ?_ ?_
        · unfold s2
          refine (State.raise_within ..).then ?_
          exact .refl
        · refine (State.setPalPage_within ..).then ?_
          refine (State.emptyPage_within ..).then ?_
          exact .refl
    · rename_i v7 v8
      refine (State.raise_within ..).then ?_
      exact .refl
    · rename_i v9 v10 v11 v12
      exact .refl

theorem execPageClaim_within (ini : Initiator) (s : State) :
    OutWithin { parts := [.doms, .replies, .stalls, .debugErr, .mrc, .pal], pages := [Pg.pal, Pg.sec] } s (execPageClaim ini s) := by
  unfold execPageClaim
  refine OutWithin.next ?_
  refine State.pageWrite_within ?_ (fun s1 h2 => ?_)
  · exact .refl
  · refine (State.palCtrlWrite_within ..).then ?_
    exact h2

theorem execPageRelease_within (ini : Initiator) (s : State) :
    OutWithin { parts := [.doms, .replies, .stalls, .debugErr, .mrc, .pal], pages := [Pg.pal, Pg.sec] } s (execPageRelease ini s) := by
  unfold execPageRelease
  refine OutWithin.next ?_
  refine State.pageWrite_within ?_ (fun s1 h2 => ?_)
  · exact .refl
  · refine (State.palCtrlWrite_within ..).then ?_
    exact h2

theorem execPageScrubDone_within (page : Nat) (s : State) :
    OutWithin { parts := [.mrc, .pal], pages := [Pg.pal] } s (execPageScrubDone page s) := by
  unfold execPageScrubDone
  refine OutWithin.next ?_
  refine Within.ite ?_ ?_
  · refine (State.event_within ..).then ?_
    refine (State.setPalPage_within ..).then ?_
    exact .refl
  · exact .refl

theorem State.startMsg_within (s : State) (e : Nat) (m : PalMsg) : Within { parts := [.pal] } s (State.startMsg s e m) := by
  unfold State.startMsg
  refine (State.setPal_within ..).then ?_
  exact .refl

theorem State.resumeMsg_within (s : State) (e : Nat) (m : PalMsg) :
    Within { parts := [.pal] } s (State.resumeMsg s e m) := by
  unfold State.resumeMsg
  refine (State.setPal_within ..).then ?_
  exact .refl

theorem State.takeItem_within (s : State) (e : Nat) (i : Item) :
    Within { parts := [.doms, .freeCtr, .flm, .drc, .mrc, .pal], pages := [Pg.drc, Pg.flc, Pg.sec] } s (State.takeItem s e i) := by
  unfold State.takeItem
  refine Within.ite ?_ ?_
  · refine State.secIn_within ?_ (fun s1 a3 h2 => ?_)
    · exact .refl
    · refine (State.startMsg_within ..).then ?_
      exact h2
  · refine (State.startMsg_within ..).then ?_
    exact .refl

theorem execEngineDispatch_within (flips : List Flip) (s : State) :
    OutWithin { parts := [.doms, .freeCtr, .flm, .drc, .flc, .mrc, .pal], pages := [Pg.drc, Pg.flc, Pg.sec] } s (execEngineDispatch flips s) := by
  unfold execEngineDispatch
  extract_lets +onlyGivenNames s1
  refine OutWithin.cut (x := s1) ?_ (fun h2 => ?_)
  · unfold s1
    refine (State.applyFlips_within ..).then ?_
    exact .refl
  clear_value s1
  refine OutWithin.next ?_
  split
  · rename_i v3 v4
    exact h2
  · rename_i v5 v6 v7
    refine Within.ite ?_ ?_
    · exact h2
    · split
      · rename_i v8 v9 v10
        refine (State.takeItem_within ..).then ?_
        exact h2
      · rename_i v11 v12
        split
        · rename_i v13 v14 v15 v16
          refine (State.resumeMsg_within ..).then ?_
          exact h2
        · rename_i v17 v18
          split
          · rename_i v19 v20 v21
            refine (State.takeItem_within ..).then ?_
            exact h2
          · rename_i v22 v23
            exact h2

theorem execMessageSuspend_within (lnk : Bool) (octets : Nat) (s : State) :
    OutWithin { parts := [.pal], pages := [Pg.pal] } s (execMessageSuspend lnk octets s) := by
  unfold execMessageSuspend
  refine OutWithin.next ?_
  split
  · rename_i v1 v2 v3 v4 v5 v6
    extract_lets +onlyGivenNames s7
    refine Within.ite ?_ ?_
    · exact .refl
    · extract_lets +onlyGivenNames s8
      extract_lets +onlyGivenNames s9
      extract_lets +onlyGivenNames s10
      refine Within.cut (x := s10) ?_ (fun h11 => ?_)
      · unfold s10
        split
        · rename_i v12 v13 v14
          refine (State.count_within ..).then ?_
          exact .refl
        · rename_i v15 v16
          exact .refl
      clear_value s10
      refine (State.setPal_within ..).then ?_
      exact h11
  · rename_i v17 v18 v19
    exact .refl

theorem State.leaveEngine_within (s : State) (entry : Nat) : Within { parts := [.pal] } s (State.leaveEngine s entry) := by
  unfold State.leaveEngine
  refine (State.setPal_within ..).then ?_
  exact .refl

theorem State.cipherEnd_within (s : State) (i : Item) (m : PalMsg) (status : Nat) (wb : Nat) (actual : Nat) (processed : Nat) (unverified : Bool) (ctx : Option PalCtx) :
    Within { parts := [.flm, .mrc, .pal], pages := [Pg.pal] } s (State.cipherEnd s i m status wb actual processed unverified ctx) := by
  unfold State.cipherEnd
  extract_lets +onlyGivenNames s1
  refine Within.cut (x := s1) ?_ (fun h2 => ?_)
  · unfold s1
    refine (State.leaveEngine_within ..).then ?_
    exact .refl
  clear_value s1
  extract_lets +onlyGivenNames s3
  refine Within.cut (x := s3) ?_ (fun h4 => ?_)
  · unfold s3
    refine Within.ite ?_ ?_
    · exact h2
    · refine (State.setPalCtx_within ..).then ?_
      exact h2
  clear_value s3
  extract_lets +onlyGivenNames s5
  refine Within.cut (x := s5) ?_ (fun h6 => ?_)
  · unfold s5
    refine Within.ite ?_ ?_
    · refine (State.event_within ..).then ?_
      refine (State.count_within ..).then ?_
      exact h4
    · exact h4
  clear_value s5
  refine (State.finish_within ..).then ?_
  exact h6

theorem State.cipherRun_within (s : State) (i : Item) (m : PalMsg) (c : PalCtx) (key : List Byte) (data : List Byte) (tag : List Byte) :
    Within { parts := [.mem, .doms, .flm, .drc, .mrc, .pal], pages := [Pg.pal, Pg.drc, Pg.sec] } s (State.cipherRun s i m c key data tag) := by
  unfold State.cipherRun
  extract_lets +onlyGivenNames s1
  extract_lets +onlyGivenNames s2
  extract_lets +onlyGivenNames s3
  extract_lets +onlyGivenNames s4
  extract_lets +onlyGivenNames s5
  extract_lets +onlyGivenNames s6
  extract_lets +onlyGivenNames s7
  extract_lets +onlyGivenNames s8
  extract_lets +onlyGivenNames s9
  refine State.secOut_within ?_ (fun s10 h11 => ?_)
  · exact .refl
  · extract_lets +onlyGivenNames s15
    refine Within.ite ?_ ?_
    · refine (State.cipherEnd_within ..).then ?_
      exact h11
    · refine Within.ite ?_ ?_
      · refine (State.cipherEnd_within ..).then ?_
        exact h11
      · refine (State.cipherEnd_within ..).then ?_
        exact h11

theorem State.cipherRead_within (s : State) (i : Item) (m : PalMsg) (c : PalCtx) (key : List Byte) (a : Nat) (aad : Nat) :
    Within { parts := [.mem, .doms, .freeCtr, .flm, .drc, .mrc, .pal], pages := [Pg.pal, Pg.drc, Pg.sec, Pg.flc] } s (State.cipherRead s i m c key a aad) := by
  unfold State.cipherRead
  extract_lets +onlyGivenNames s1
  extract_lets +onlyGivenNames s2
  refine State.secIn_within ?_ (fun s3 a5 h4 => ?_)
  · exact .refl
  · refine (State.cipherRun_within ..).then ?_
    exact h4

theorem State.palCipher_within (s : State) (op : Nat) (entry : Nat) :
    Within { parts := [.mem, .doms, .freeCtr, .flm, .drc, .mrc, .pal], pages := [Pg.pal, Pg.drc, Pg.sec, Pg.flc] } s (State.palCipher s op entry) := by
  unfold State.palCipher
  split
  · rename_i v1 v2 v3 v4 v5 v6
    refine Within.ite ?_ ?_
    · exact .refl
    · extract_lets +onlyGivenNames s7
      extract_lets +onlyGivenNames s8
      split
      · rename_i v9 v10
        refine Within.ite ?_ ?_
        · refine (State.cipherEnd_within ..).then ?_
          exact .refl
        · refine (State.cipherEnd_within ..).then ?_
          exact .refl
      · rename_i v11 v12 v13
        split
        · rename_i v14 v15 v16 v17
          refine (State.cipherEnd_within ..).then ?_
          exact .refl
        · rename_i v18 v19
          extract_lets +onlyGivenNames s20
          refine Within.ite ?_ ?_
          · extract_lets +onlyGivenNames s21
            refine (State.cipherRead_within ..).then ?_
            exact .refl
          · clear_value s20
            clear_value s8
            clear_value s7
            split
            · rename_i v22 v23
              refine (State.cipherRead_within ..).then ?_
              exact .refl
            · rename_i v24
              exact .refl
  · rename_i v25 v26 v27
    exact .refl

theorem execPalEncrypt_within (entry : Nat) (flips : List Flip) (s : State) :
    OutWithin { parts := [.mem, .doms, .freeCtr, .flm, .drc, .flc, .mrc, .pal], pages := [Pg.pal, Pg.drc, Pg.sec, Pg.flc] } s (execPalEncrypt entry flips s) := by
  unfold execPalEncrypt
  refine OutWithin.next ?_
  refine (State.palCipher_within ..).then ?_
  refine (State.applyFlips_within ..).then ?_
  exact .refl

theorem execPalDecrypt_within (entry : Nat) (flips : List Flip) (s : State) :
    OutWithin { parts := [.mem, .doms, .freeCtr, .flm, .drc, .flc, .mrc, .pal], pages := [Pg.pal, Pg.drc, Pg.sec, Pg.flc] } s (execPalDecrypt entry flips s) := by
  unfold execPalDecrypt
  refine OutWithin.next ?_
  refine (State.palCipher_within ..).then ?_
  refine (State.applyFlips_within ..).then ?_
  exact .refl

theorem execPalMacGen_within (entry : Nat) (flips : List Flip) (s : State) :
    OutWithin { parts := [.mem, .doms, .freeCtr, .flm, .drc, .flc, .mrc, .pal], pages := [Pg.pal, Pg.drc, Pg.sec, Pg.flc] } s (execPalMacGen entry flips s) := by
  unfold execPalMacGen
  refine OutWithin.next ?_
  refine (State.palCipher_within ..).then ?_
  refine (State.applyFlips_within ..).then ?_
  exact .refl

theorem execPalMacCheck_within (entry : Nat) (flips : List Flip) (s : State) :
    OutWithin { parts := [.mem, .doms, .freeCtr, .flm, .drc, .flc, .mrc, .pal], pages := [Pg.pal, Pg.drc, Pg.sec, Pg.flc] } s (execPalMacCheck entry flips s) := by
  unfold execPalMacCheck
  refine OutWithin.next ?_
  refine (State.palCipher_within ..).then ?_
  refine (State.applyFlips_within ..).then ?_
  exact .refl

theorem State.palAborted_within (s : State) (items : List Item) :
    Within { parts := [.pal] } s (State.palAborted s items) := by
  unfold State.palAborted
  refine Within.foldl (fun s1 a2 h3 => ?_) ?_
  · refine (State.setPalCtx_within ..).then ?_
    exact h3
  · exact .refl

theorem State.keyItem_within {w : Touch} {s x : State} {op entry : Nat} {k : State → Item → List Byte → State}
    (hx : Within w s x) (hk : ∀ y i bs, Within w s y → Within w s (k y i bs))
    (hw : Touch.le { parts := [.doms, .freeCtr, .flm, .drc, .mrc], pages := [Pg.drc, Pg.flc, Pg.sec] } w = true := by first | decide | simp [Touch.le, Touch.bus, Part.but, Part.every]) :
    Within w s (x.keyItem op entry k) := by
  have hs : ∀ {v : Touch} {y z : State}, Within v y z → v.le { parts := [.doms, .freeCtr, .flm, .drc, .mrc], pages := [Pg.drc, Pg.flc, Pg.sec] } = true → Within w s y → Within w s z :=
    fun h hv hy => (h.mono hv).step hy hw
  unfold State.keyItem
  split
  · split
    · refine State.secIn_within hx (fun y bs hy => ?_) hw
      split
      · exact hk _ _ _ hy
      · exact hs (State.finish_within ..) (by decide) hy
    · exact hx
  · exact hx

theorem State.keyBad_within (s : State) (i : Item) (check : Nat) :
    Within { parts := [.flm] } s (State.keyBad s i check) := by
  unfold State.keyBad
  refine (State.finish_within ..).then ?_
  exact .refl

theorem State.install_within (s : State) (i : Item) (h : Nat) (k : Key) :
    Within { parts := [.pal] } s (State.install s i h k) := by
  unfold State.install
  refine Within.ite ?_ ?_
  · extract_lets +onlyGivenNames s1
    refine (State.setPalKey_within ..).then ?_
    refine (State.setPalKey_within ..).then ?_
    exact .refl
  · refine (State.setPalKey_within ..).then ?_
    exact .refl

theorem execKeyLoad_within (entry : Nat) (flips : List Flip) (s : State) :
    OutWithin { parts := [.doms, .freeCtr, .flm, .drc, .flc, .mrc, .pal], pages := [Pg.drc, Pg.flc, Pg.sec] } s (execKeyLoad entry flips s) := by
  unfold execKeyLoad
  refine OutWithin.next ?_
  refine State.keyItem_within ?_ (fun s1 a3 b4 h2 => ?_)
  · refine (State.applyFlips_within ..).then ?_
    exact .refl
  · refine Within.ite ?_ ?_
    · refine (State.keyBad_within ..).then ?_
      exact h2
    · refine Within.ite ?_ ?_
      · refine (State.keyBad_within ..).then ?_
        exact h2
      · refine Within.ite ?_ ?_
        · refine (State.keyBad_within ..).then ?_
          exact h2
        · refine State.secIn_within ?_ (fun s6 a8 h7 => ?_)
          · exact h2
          · refine (State.secDone_within ..).then ?_
            refine (State.install_within ..).then ?_
            exact h7

theorem execKeyUnwrap_within (entry : Nat) (flips : List Flip) (s : State) :
    OutWithin { parts := [.doms, .freeCtr, .flm, .drc, .flc, .mrc, .pal], pages := [Pg.pal, Pg.drc, Pg.flc, Pg.sec] } s (execKeyUnwrap entry flips s) := by
  unfold execKeyUnwrap
  refine OutWithin.next ?_
  refine State.keyItem_within ?_ (fun s1 a3 b4 h2 => ?_)
  · refine (State.applyFlips_within ..).then ?_
    exact .refl
  · split
    · rename_i v6 v7
      refine (State.finish_within ..).then ?_
      exact h2
    · rename_i v8 v9 v10
      refine Within.ite ?_ ?_
      · refine (State.keyBad_within ..).then ?_
        exact h2
      · refine Within.ite ?_ ?_
        · refine (State.keyBad_within ..).then ?_
          exact h2
        · refine State.secIn_within ?_ (fun s11 a13 h12 => ?_)
          · exact h2
          · extract_lets +onlyGivenNames s16
            extract_lets +onlyGivenNames s17
            extract_lets +onlyGivenNames s18
            extract_lets +onlyGivenNames s19
            refine Within.ite ?_ ?_
            · refine (State.keyBad_within ..).then ?_
              exact h12
            · refine Within.ite ?_ ?_
              · refine (State.finish_within ..).then ?_
                refine (State.event_within ..).then ?_
                refine (State.count_within ..).then ?_
                exact h12
              · refine (State.finish_within ..).then ?_
                refine (State.install_within ..).then ?_
                exact h12

theorem execKeyWrap_within (entry : Nat) (flips : List Flip) (s : State) :
    OutWithin { parts := [.mem, .doms, .freeCtr, .flm, .drc, .flc, .mrc], pages := [Pg.drc, Pg.sec, Pg.flc] } s (execKeyWrap entry flips s) := by
  unfold execKeyWrap
  refine OutWithin.next ?_
  refine State.keyItem_within ?_ (fun s1 a3 b4 h2 => ?_)
  · refine (State.applyFlips_within ..).then ?_
    exact .refl
  · split
    · rename_i v6 v7 v8 v9 v10 v11
      refine Within.ite ?_ ?_
      · refine (State.finish_within ..).then ?_
        exact h2
      · refine Within.ite ?_ ?_
        · refine (State.keyBad_within ..).then ?_
          exact h2
        · refine Within.ite ?_ ?_
          · refine (State.keyBad_within ..).then ?_
            exact h2
          · refine State.secIn_within ?_ (fun s12 a14 h13 => ?_)
            · exact h2
            · split
              rename_i v17 v18 v19 v20
              extract_lets +onlyGivenNames s21
              extract_lets +onlyGivenNames s22
              extract_lets +onlyGivenNames s23
              refine State.secOut_within ?_ (fun s24 h25 => ?_)
              · refine Within.snd v20 ?_
                refine (State.random_within ..).then ?_
                exact h13
              · refine (State.secDone_within ..).then ?_
                exact h25
    · rename_i v29 v30 v31
      refine (State.finish_within ..).then ?_
      exact h2

theorem execKeyDerive_within (entry : Nat) (flips : List Flip) (s : State) :
    OutWithin { parts := [.doms, .freeCtr, .flm, .drc, .flc, .mrc, .pal], pages := [Pg.drc, Pg.flc, Pg.sec] } s (execKeyDerive entry flips s) := by
  unfold execKeyDerive
  refine OutWithin.next ?_
  refine State.keyItem_within ?_ (fun s1 a3 b4 h2 => ?_)
  · refine (State.applyFlips_within ..).then ?_
    exact .refl
  · extract_lets +onlyGivenNames s6
    split
    · rename_i v7 v8
      refine (State.finish_within ..).then ?_
      exact h2
    · rename_i v9 v10 v11
      refine Within.ite ?_ ?_
      · refine (State.keyBad_within ..).then ?_
        exact h2
      · refine Within.ite ?_ ?_
        · refine (State.keyBad_within ..).then ?_
          exact h2
        · refine State.secIn_within ?_ (fun s12 a14 h13 => ?_)
          · exact h2
          · refine (State.secDone_within ..).then ?_
            refine (State.install_within ..).then ?_
            exact h13

theorem execKeyGen_within (entry : Nat) (flips : List Flip) (s : State) :
    OutWithin { parts := [.doms, .freeCtr, .flm, .drc, .flc, .mrc, .pal], pages := [Pg.drc, Pg.flc, Pg.sec] } s (execKeyGen entry flips s) := by
  unfold execKeyGen
  refine OutWithin.next ?_
  refine State.keyItem_within ?_ (fun s1 a3 b4 h2 => ?_)
  · refine (State.applyFlips_within ..).then ?_
    exact .refl
  · extract_lets +onlyGivenNames s6
    refine Within.ite ?_ ?_
    · refine (State.keyBad_within ..).then ?_
      exact h2
    · refine Within.ite ?_ ?_
      · refine (State.keyBad_within ..).then ?_
        exact h2
      · split
        rename_i v7 v8 v9 v10
        refine (State.secDone_within ..).then ?_
        refine (State.install_within ..).then ?_
        refine Within.snd v10 ?_
        refine (State.random_within ..).then ?_
        exact h2

theorem State.loseKey_within (s : State) (p : Nat) (h : Nat) : Within { parts := [.pal] } s (State.loseKey s p h) := by
  unfold State.loseKey
  extract_lets +onlyGivenNames s1
  refine (State.setPal_within ..).then ?_
  exact .refl

end Sys2Proof.Machine
end

