-- ==== Sys2Proof/Laws/FrameLink.lean ====
section
/-! SUPPORT. What each operation of Machine/Link.lean may change, and that it keeps a sound state sound. -/

namespace Sys2Proof.Machine

-- one proof at a time: the file holds many small ones
set_option Elab.async false

theorem State.setLnk_within (s : State) (f : Lnk → Lnk) : Within { parts := [.lnk] } s (State.setLnk s f) := by
  unfold State.setLnk
  refine Within.of_mk ?_
  exact .refl

theorem State.setCtx_within (s : State) (c : Nat) (x : NbCtx) : Within { parts := [.lnk] } s (State.setCtx s c x) := by
  unfold State.setCtx
  refine (State.setLnk_within ..).then ?_
  exact .refl

theorem State.lnkEvent_within (s : State) (kind : Nat) (idx : Nat) (value : Word) :
    Within { parts := [.flm, .lnk] } s (State.lnkEvent s kind idx value) := by
  unfold State.lnkEvent
  refine Within.ite ?_ ?_
  · exact .refl
  · extract_lets +onlyGivenNames s1
    refine Within.ite ?_ ?_
    · refine (State.setLnk_within ..).then ?_
      exact .refl
    · refine Within.of_mk ?_
      exact .refl

theorem execLnkEventPost_within (s : State) :
    OutWithin { parts := [.mem, .doms, .flm, .drc, .mrc, .lnk], pages := [Pg.drc, Pg.flm] } s (execLnkEventPost s) := by
  unfold execLnkEventPost
  refine OutWithin.next ?_
  split
  · rename_i v1 v2
    exact .refl
  · rename_i v3 v4 v5 v6
    extract_lets +onlyGivenNames s7
    refine Within.ite ?_ ?_
    · exact .refl
    · split
      · rename_i v8 v9 v10
        refine (State.wake_within ..).then ?_
        exact .refl
      · rename_i v11 v12
        extract_lets +onlyGivenNames s13
        refine (State.writeReport_within ..).then ?_
        refine (State.setLnk_within ..).then ?_
        exact .refl
      · rename_i v14 v15 v16
        exact .refl

theorem State.evalGuard_within (s : State) (c : Nat) (cfg : Word) (g : Int) :
    Within { parts := [.flm, .mrc, .lnk], pages := [Pg.lnk] } s (State.evalGuard s c cfg g) := by
  unfold State.evalGuard
  extract_lets +onlyGivenNames s1
  extract_lets +onlyGivenNames s2
  extract_lets +onlyGivenNames s3
  refine Within.cut (x := s3) ?_ (fun h4 => ?_)
  · unfold s3
    refine (State.setCtx_within ..).then ?_
    exact .refl
  clear_value s3
  refine Within.ite ?_ ?_
  · refine (State.lnkEvent_within ..).then ?_
    refine (State.event_within ..).then ?_
    exact h4
  · exact h4

theorem State.evalNext_within (s : State) (c : Nat) (beacon : Bool) (cfg : Word) (e : Int) :
    Within { parts := [.flm, .mrc, .lnk], pages := [Pg.lnk] } s (State.evalNext s c beacon cfg e).1 := by
  unfold State.evalNext
  split
  · rename_i v1 v2
    dsimp only
    exact .refl
  · rename_i v3 v4 v5
    refine Within.ite₁ ?_ ?_
    · dsimp only
      exact .refl
    · extract_lets +onlyGivenNames s6
      extract_lets +onlyGivenNames s7
      dsimp only
      refine (State.evalGuard_within ..).then ?_
      exact .refl

theorem State.anchorAt_within (s : State) (c : Nat) (beacon : Bool) (a2 : Nat) :
    Within { parts := [.flm, .lnk] } s (State.anchorAt s c beacon a2) := by
  unfold State.anchorAt
  extract_lets +onlyGivenNames s1
  extract_lets +onlyGivenNames s2
  extract_lets +onlyGivenNames s3
  extract_lets +onlyGivenNames s4
  refine Within.cut (x := s4) ?_ (fun h5 => ?_)
  · unfold s4
    refine (State.setCtx_within ..).then ?_
    exact .refl
  clear_value s4
  refine Within.ite ?_ ?_
  · refine (State.lnkEvent_within ..).then ?_
    exact h5
  · exact h5

theorem State.unanchor_within (s : State) (c : Nat) : Within { parts := [.lnk] } s (State.unanchor s c) := by
  unfold State.unanchor
  refine (State.setCtx_within ..).then ?_
  exact .refl

theorem State.assignCounter_within (s : State) (c : Nat) (k : Nat) :
    Within { parts := [.flm, .mrc, .lnk], pages := [Pg.lnk] } s (State.assignCounter s c k).1 := by
  unfold State.assignCounter
  split
  rename_i v1 v2 v3 v4
  extract_lets +onlyGivenNames s5
  refine Within.ite₁ ?_ ?_
  · dsimp only
    refine (State.lnkEvent_within ..).then ?_
    refine (State.event_within ..).then ?_
    exact .refl
  · extract_lets +onlyGivenNames s6
    refine Within.cut (x := s6) ?_ (fun h7 => ?_)
    · unfold s6
      refine (State.setReg_within ..).then ?_
      exact .refl
    clear_value s6
    extract_lets +onlyGivenNames s8
    extract_lets +onlyGivenNames s9
    refine Within.cut (x := s9) ?_ (fun h10 => ?_)
    · unfold s9
      refine Within.ite ?_ ?_
      · refine (State.lnkEvent_within ..).then ?_
        refine (State.event_within ..).then ?_
        exact h7
      · exact h7
    clear_value s9
    dsimp only
    exact h10

theorem State.nbCtrl_within (s : State) (ini : Initiator) (v : Word) :
    Within { parts := [.mrc, .lnk], pages := [Pg.lnk] } s (State.nbCtrl s ini v) := by
  unfold State.nbCtrl
  extract_lets +onlyGivenNames s1
  extract_lets +onlyGivenNames s2
  refine Within.cut (x := s2) ?_ (fun h3 => ?_)
  · unfold s2
    refine Within.ite ?_ ?_
    · refine (State.unanchor_within ..).then ?_
      exact .refl
    · exact .refl
  clear_value s2
  refine Within.ite ?_ ?_
  · refine (State.raise_within ..).then ?_
    exact h3
  · refine Within.ite ?_ ?_
    · refine (State.setCtx_within ..).then ?_
      exact h3
    · refine Within.ite ?_ ?_
      · refine (State.setCtx_within ..).then ?_
        exact h3
      · exact h3

theorem execUnanchor_within (ini : Initiator) (s : State) :
    OutWithin { parts := [.doms, .replies, .stalls, .debugErr, .mrc, .lnk], pages := [Pg.lnk, Pg.sec] } s (execUnanchor ini s) := by
  unfold execUnanchor
  refine OutWithin.next ?_
  refine State.pageWrite_within ?_ (fun s1 h2 => ?_)
  · exact .refl
  · refine (State.nbCtrl_within ..).then ?_
    exact h2

theorem execPendSet_within (ini : Initiator) (s : State) :
    OutWithin { parts := [.doms, .replies, .stalls, .debugErr, .mrc, .lnk], pages := [Pg.lnk, Pg.sec] } s (execPendSet ini s) := by
  unfold execPendSet
  refine OutWithin.next ?_
  refine State.pageWrite_within ?_ (fun s1 h2 => ?_)
  · exact .refl
  · refine (State.nbCtrl_within ..).then ?_
    exact h2

theorem execPendClr_within (ini : Initiator) (s : State) :
    OutWithin { parts := [.doms, .replies, .stalls, .debugErr, .mrc, .lnk], pages := [Pg.lnk, Pg.sec] } s (execPendClr ini s) := by
  unfold execPendClr
  refine OutWithin.next ?_
  refine State.pageWrite_within ?_ (fun s1 h2 => ?_)
  · exact .refl
  · refine (State.nbCtrl_within ..).then ?_
    exact h2

theorem State.closeUse_within (s : State) (u : NbUse) : Within { parts := [.recv, .syn] } s (State.closeUse s u) := by
  unfold State.closeUse
  extract_lets +onlyGivenNames s1
  refine Within.ite ?_ ?_
  · exact .refl
  · split
    · rename_i v2 v3 v4 v5 v6 v7
      refine Within.ite ?_ ?_
      · refine Within.of_mk ?_
        exact .refl
      · refine (State.nbGo_within ..).then ?_
        exact .refl
    · rename_i v8 v9
      refine (State.nbGiveUp_within ..).then ?_
      exact .refl

theorem State.nbStateRead_within (s : State) (c : Nat) :
    Within { parts := [.flm, .mrc, .lnk], pages := [Pg.lnk] } s (State.nbStateRead s c).2 := by
  unfold State.nbStateRead
  split
  rename_i v1 v2 v3 v4
  extract_lets +onlyGivenNames s5
  dsimp only
  refine Within.fst v4 ?_
  refine (State.evalNext_within ..).then ?_
  exact .refl

theorem execNbStateRead_within (ini : Initiator) (s : State) :
    OutWithin { parts := [.doms, .replies, .stalls, .debugErr, .flm, .mrc, .lnk], pages := [Pg.lnk, Pg.sec] } s (execNbStateRead ini s) := by
  unfold execNbStateRead
  refine OutWithin.next ?_
  refine State.pageRead_within ?_ (fun s1 h2 => ?_)
  · exact .refl
  · refine (State.nbStateRead_within ..).then ?_
    exact h2

theorem execNbAgeMinute_within (s : State) : OutWithin { parts := [.lnk] } s (execNbAgeMinute s) := by
  unfold execNbAgeMinute
  refine OutWithin.next ?_
  refine Within.ite ?_ ?_
  · exact .refl
  · refine (State.setLnk_within ..).then ?_
    exact .refl

theorem State.bcnPass_within (s : State) : Within { parts := [.doms, .recv, .syn] } s (State.bcnPass s) := by
  unfold State.bcnPass
  refine Within.ite ?_ ?_
  · exact .refl
  · split
    · rename_i v1 v2 v3
      refine (State.nbGo_within ..).then ?_
      refine (State.wake_within ..).then ?_
      refine (State.wake_within ..).then ?_
      exact .refl
    · rename_i v4 v5
      exact .refl

theorem State.bcnSearch_within (s : State) : Within { parts := [.doms, .recv, .syn, .lnk] } s (State.bcnSearch s) := by
  unfold State.bcnSearch
  refine (State.bcnPass_within ..).then ?_
  refine (State.setLnk_within ..).then ?_
  exact .refl

theorem State.bcnArm_within (s : State) : Within { parts := [.lnk] } s (State.bcnArm s) := by
  unfold State.bcnArm
  extract_lets +onlyGivenNames s1
  split
  · rename_i v2 v3 v4
    extract_lets +onlyGivenNames s5
    refine (State.setLnk_within ..).then ?_
    exact .refl
  · rename_i v6 v7
    exact .refl

theorem State.bcnStart_within (s : State) : Within { parts := [.doms, .recv, .syn, .lnk] } s (State.bcnStart s) := by
  unfold State.bcnStart
  extract_lets +onlyGivenNames s1
  refine Within.cut (x := s1) ?_ (fun h2 => ?_)
  · unfold s1
    refine (State.setLnk_within ..).then ?_
    exact .refl
  clear_value s1
  refine Within.ite ?_ ?_
  · refine (State.bcnArm_within ..).then ?_
    exact h2
  · refine (State.bcnSearch_within ..).then ?_
    exact h2

theorem State.bcnLose_within (s : State) :
    Within { parts := [.doms, .flm, .recv, .syn, .mrc, .lnk], pages := [Pg.lnk] } s (State.bcnLose s) := by
  unfold State.bcnLose
  refine (State.bcnSearch_within ..).then ?_
  refine (State.lnkEvent_within ..).then ?_
  refine (State.event_within ..).then ?_
  exact .refl

theorem State.nbLeave_within (s : State) (p : NbUse → Bool) : Within { parts := [.recv, .syn] } s (State.nbLeave s p) := by
  unfold State.nbLeave
  refine Within.ite ?_ ?_
  · refine (State.nbGiveUp_within ..).then ?_
    exact .refl
  · exact .refl

theorem State.bcnCommit_within (s : State) : Within { parts := [.doms, .recv, .syn, .lnk] } s (State.bcnCommit s) := by
  unfold State.bcnCommit
  refine Within.ite ?_ ?_
  · refine (State.closeUse_within ..).then ?_
    refine (State.closeUse_within ..).then ?_
    refine (State.setLnk_within ..).then ?_
    exact .refl
  · refine Within.ite ?_ ?_
    · refine (State.bcnStart_within ..).then ?_
      exact .refl
    · exact .refl

theorem State.ctxCommitted_within (old s : State) (c : Nat) (fcrx : Bool) :
    Within { parts := [.lnk] } s (State.ctxCommitted old s c fcrx) := by
  unfold State.ctxCommitted
  dsimp only
  refine Within.ite ?_ ?_
  · refine (State.unanchor_within ..).then ?_
    refine (State.setCtx_within ..).then ?_
    exact .refl
  · refine (State.setCtx_within ..).then ?_
    exact .refl

theorem State.lnkSwitch_within (s : State) (c : Commit) :
    Within { parts := [.staged, .claims, .commits, .doms, .recv, .syn, .mrc, .lnk], all := true } s (State.lnkSwitch s c) := by
  unfold State.lnkSwitch
  extract_lets +onlyGivenNames s1
  extract_lets +onlyGivenNames s2
  extract_lets +onlyGivenNames s3
  extract_lets +onlyGivenNames s4
  extract_lets +onlyGivenNames s5
  extract_lets +onlyGivenNames s6
  extract_lets +onlyGivenNames s7
  refine Within.cut (x := s7) ?_ (fun h8 => ?_)
  · unfold s7
    exact .refl
  clear_value s7
  extract_lets +onlyGivenNames s9
  refine Within.cut (x := s9) ?_ (fun h10 => ?_)
  · unfold s9
    refine (State.switchKeys_within ..).then ?_
    exact .refl
  clear_value s9
  extract_lets +onlyGivenNames s11
  refine Within.cut (x := s11) ?_ (fun h12 => ?_)
  · unfold s11
    refine Within.foldl (fun s13 a14 h15 => ?_) ?_
    · refine (State.ctxCommitted_within ..).then ?_
      exact h15
    · exact h10
  clear_value s11
  extract_lets +onlyGivenNames s16
  refine Within.cut (x := s16) ?_ (fun h17 => ?_)
  · unfold s16
    refine Within.ite ?_ ?_
    · exact h12
    · refine Within.ite ?_ ?_
      · refine (State.setLnk_within ..).then ?_
        exact h12
      · refine Within.ite ?_ ?_
        · exact h12
        · refine (State.setLnk_within ..).then ?_
          exact h12
  clear_value s16
  extract_lets +onlyGivenNames s18
  refine Within.cut (x := s18) ?_ (fun h19 => ?_)
  · unfold s18
    refine Within.ite ?_ ?_
    · refine (State.bcnCommit_within ..).then ?_
      exact h17
    · exact h17
  clear_value s18
  refine (State.endCommit_within ..).then ?_
  exact h19

theorem State.lnkStaged_within (s : State) (ini : Initiator) (off : Nat) (v : Word) :
    Within { parts := [.staged, .claims, .mrc], pages := [Pg.lnk] } s (State.lnkStaged s ini off v) := by
  unfold State.lnkStaged
  extract_lets +onlyGivenNames s1
  extract_lets +onlyGivenNames s2
  extract_lets +onlyGivenNames s3
  split
  rename_i v4 v5 v6 v7
  extract_lets +onlyGivenNames s8
  refine Within.cut (x := s8) ?_ (fun h9 => ?_)
  · unfold s8
    refine (State.stageWrite_within ..).then ?_
    exact .refl
  clear_value s8
  refine Within.ite ?_ ?_
  · exact h9
  · refine Within.ite ?_ ?_
    · refine (State.raise_within ..).then ?_
      exact h9
    · exact h9

theorem State.lnkRead_within (s : State) (idx : Nat) (off : Nat) :
    ReadWithin { parts := [.flm, .mrc, .lnk], pages := [Pg.lnk] } s (State.lnkRead s idx off) := by
  unfold State.lnkRead
  extract_lets +onlyGivenNames s1
  extract_lets +onlyGivenNames s2
  split
  · rename_i v3
    unfold s2
    refine ReadWithin.some ?_
    dsimp only
    exact .refl
  · rename_i v4
    unfold s2
    refine ReadWithin.some ?_
    dsimp only
    exact .refl
  · rename_i v5
    unfold s2
    refine ReadWithin.some ?_
    dsimp only
    exact .refl
  · rename_i v6
    refine ReadWithin.some ?_
    refine (State.nbStateRead_within ..).then ?_
    exact .refl
  · rename_i v7
    unfold s2
    refine ReadWithin.some ?_
    dsimp only
    exact .refl
  · rename_i v8
    extract_lets +onlyGivenNames s9
    unfold s2
    refine ReadWithin.some ?_
    dsimp only
    exact .refl
  · rename_i v10
    unfold s2
    refine ReadWithin.some ?_
    dsimp only
    exact .refl
  · rename_i v11 v12 v13 v14 v15 v16 v17 v18
    exact ReadWithin.none

end Sys2Proof.Machine
end

