-- ==== Sys2Proof/Laws/FrameTransmit.lean ====
section
/-! SUPPORT. What each operation of Machine/Transmit.lean may change, and that it keeps a sound state sound. -/

namespace Sys2Proof.Machine

-- one proof at a time: the file holds many small ones
set_option Elab.async false

theorem State.updJob_within (s : State) (entry : Nat) (f : TxJob → TxJob) :
    Within { parts := [.lnk] } s (State.updJob s entry f) := by
  unfold State.updJob
  refine (State.setLnk_within ..).then ?_
  exact .refl

theorem State.dropJob_within (s : State) (entry : Nat) : Within { parts := [.lnk] } s (State.dropJob s entry) := by
  unfold State.dropJob
  refine (State.setLnk_within ..).then ?_
  exact .refl

theorem State.countFail_within (s : State) (j : TxJob) (status : Nat) :
    Within { pages := [Pg.lnk] } s (State.countFail s j status) := by
  unfold State.countFail
  split
  · rename_i v1 v2
    exact .refl
  · rename_i v3 v4 v5
    refine Within.ite ?_ ?_
    · refine (State.count_within ..).then ?_
      exact .refl
    · refine Within.ite ?_ ?_
      · refine (State.count_within ..).then ?_
        exact .refl
      · exact .refl

theorem State.noteNoack_within (s : State) (status : Nat) :
    Within { parts := [.lnk], pages := [Pg.rfe] } s (State.noteNoack s status) := by
  unfold State.noteNoack
  refine Within.ite ?_ ?_
  · refine (State.setLnk_within ..).then ?_
    exact .refl
  · extract_lets +onlyGivenNames s1
    extract_lets +onlyGivenNames s2
    extract_lets +onlyGivenNames s3
    refine Within.cut (x := s3) ?_ (fun h4 => ?_)
    · unfold s3
      refine (State.setLnk_within ..).then ?_
      exact .refl
    clear_value s3
    extract_lets +onlyGivenNames s5
    refine Within.ite ?_ ?_
    · extract_lets +onlyGivenNames s6
      refine (State.setLnk_within ..).then ?_
      refine (State.antselWrite_within ..).then ?_
      exact h4
    · exact h4

theorem State.tune_within (s : State) (key : TxKey) (freq : Nat) (store : Nat) :
    Within { parts := [.syn, .txa] } s (State.tune s key freq store) := by
  unfold State.tune
  extract_lets +onlyGivenNames s1
  split
  · rename_i v2 v3
    refine Within.of_mk ?_
    exact .refl
  · rename_i v4 v5
    refine Within.of_mk ?_
    exact .refl
  · rename_i v6 v7
    refine Within.of_mk ?_
    exact .refl
  · rename_i v8 v9
    refine Within.ite ?_ ?_
    · refine Within.of_mk ?_
      exact .refl
    · unfold s1
      refine Within.of_mk ?_
      exact .refl
  · rename_i v10 v11
    refine Within.ite ?_ ?_
    · refine Within.of_mk ?_
      exact .refl
    · unfold s1
      refine Within.of_mk ?_
      exact .refl
  · rename_i v12 v13
    unfold s1
    refine Within.of_mk ?_
    exact .refl
  · rename_i v14 v15
    unfold s1
    refine Within.of_mk ?_
    exact .refl

theorem State.takeHeld_within (s : State) : Within { parts := [.syn, .txa] } s (State.takeHeld s) := by
  unfold State.takeHeld
  split
  · rename_i v1 v2 v3 v4 v5 v6
    refine (State.tune_within ..).then ?_
    refine Within.of_mk ?_
    exact .refl
  · rename_i v7 v8
    exact .refl

theorem State.toHold_within (s : State) : Within { parts := [.syn, .txa] } s (State.toHold s) := by
  unfold State.toHold
  extract_lets +onlyGivenNames s1
  refine (State.takeHeld_within ..).then ?_
  refine Within.of_mk ?_
  exact .refl

theorem State.dropCurrent_within (s : State) :
    Within { parts := [.staged, .claims, .commits, .doms, .recv, .syn, .txa, .mrc, .lnk], all := true } s (State.dropCurrent s) := by
  unfold State.dropCurrent
  extract_lets +onlyGivenNames s1
  extract_lets +onlyGivenNames s2
  extract_lets +onlyGivenNames s3
  extract_lets +onlyGivenNames s4
  extract_lets +onlyGivenNames s5
  refine Within.cut (x := s5) ?_ (fun h6 => ?_)
  · unfold s5
    refine Within.of_mk ?_
    exact .refl
  clear_value s5
  extract_lets +onlyGivenNames s7
  refine Within.cut (x := s7) ?_ (fun h8 => ?_)
  · unfold s7
    refine Within.ite ?_ ?_
    · refine (State.moveOn_within ..).then ?_
      refine (State.blankEnd_within ..).then ?_
      exact h6
    · exact h6
  clear_value s7
  refine Within.ite ?_ ?_
  · refine (State.toHold_within ..).then ?_
    exact h8
  · exact h8

theorem State.unhand_within (s : State) (k : TxKey) :
    Within { parts := [.staged, .claims, .commits, .doms, .recv, .syn, .txa, .mrc, .lnk], all := true } s (State.unhand s k) := by
  unfold State.unhand
  extract_lets +onlyGivenNames s1
  extract_lets +onlyGivenNames s2
  refine Within.cut (x := s2) ?_ (fun h3 => ?_)
  · unfold s2
    refine Within.of_mk ?_
    exact .refl
  refine Within.ite ?_ ?_
  · refine (State.dropCurrent_within ..).then ?_
    exact h3
  · exact h3

theorem State.listenOn_within (s : State) (k : Nat) (mask : Nat) (u : NbUse) (dwell : Option Nat) :
    Within { parts := [.doms, .recv, .syn], pages := [Pg.lnk] } s (State.listenOn s k mask u dwell) := by
  unfold State.listenOn
  extract_lets +onlyGivenNames s1
  refine Within.cut (x := s1) ?_ (fun h2 => ?_)
  · unfold s1
    refine (State.wake_within ..).then ?_
    refine (State.wake_within ..).then ?_
    exact .refl
  clear_value s1
  extract_lets +onlyGivenNames s3
  refine Within.ite ?_ ?_
  · exact h2
  · extract_lets +onlyGivenNames s4
    refine Within.cut (x := s4) ?_ (fun h5 => ?_)
    · unfold s4
      refine Within.ite ?_ ?_
      · refine (State.count_within ..).then ?_
        exact h2
      · exact h2
    clear_value s4
    refine Within.ite ?_ ?_
    · refine Within.of_mk ?_
      exact h5
    · refine (State.nbGo_within ..).then ?_
      exact h5

theorem State.fpListen_within (s : State) (freq : Nat) :
    Within { parts := [.doms, .recv, .syn, .lnk], pages := [Pg.lnk] } s (State.fpListen s freq) := by
  unfold State.fpListen
  extract_lets +onlyGivenNames s1
  refine Within.ite ?_ ?_
  · exact .refl
  · split
    · rename_i v2 v3 v4
      extract_lets +onlyGivenNames s5
      refine Within.ite ?_ ?_
      · exact .refl
      · refine (State.listenOn_within ..).then ?_
        refine (State.setLnk_within ..).then ?_
        exact .refl
    · rename_i v6 v7
      exact .refl

theorem State.txEnd_within (s : State) (j : TxJob) (status : Nat) (fp : Bool) (lqi : Nat) (rssi : Nat) :
    Within { parts := [.staged, .claims, .commits, .doms, .flm, .recv, .syn, .txa, .mrc, .lnk], all := true } s (State.txEnd s j status fp lqi rssi) := by
  unfold State.txEnd
  extract_lets +onlyGivenNames s1
  refine Within.cut (x := s1) ?_ (fun h2 => ?_)
  · unfold s1
    refine (State.dropJob_within ..).then ?_
    refine (State.countFail_within ..).then ?_
    refine (State.finish_within ..).then ?_
    exact .refl
  clear_value s1
  extract_lets +onlyGivenNames s3
  refine Within.cut (x := s3) ?_ (fun h4 => ?_)
  · unfold s3
    refine Within.ite ?_ ?_
    · refine (State.noteNoack_within ..).then ?_
      exact h2
    · exact h2
  clear_value s3
  extract_lets +onlyGivenNames s5
  refine Within.cut (x := s5) ?_ (fun h6 => ?_)
  · unfold s5
    refine (State.closeUse_within ..).then ?_
    refine (State.closeUse_within ..).then ?_
    refine (State.unhand_within ..).then ?_
    exact h4
  clear_value s5
  refine Within.ite ?_ ?_
  · refine (State.fpListen_within ..).then ?_
    exact h6
  · exact h6

theorem State.noteAir_within (s : State) (store : Nat) (n : Nat) :
    Within { parts := [.lnk] } s (State.noteAir s store n) := by
  unfold State.noteAir
  extract_lets +onlyGivenNames s1
  refine (State.setLnk_within ..).then ?_
  exact .refl

theorem State.plan_within (s : State) (j : TxJob) (timed : Option Int) (strict : Bool) :
    Within { parts := [.flm, .mrc, .lnk], pages := [Pg.lnk] } s (State.plan s j timed strict).1 := by
  unfold State.plan
  extract_lets +onlyGivenNames s1
  split
  · rename_i v2 v3
    dsimp only
    exact .refl
  · rename_i v4 v5 v6
    extract_lets +onlyGivenNames s7
    extract_lets +onlyGivenNames s8
    split
    rename_i v9 v10 v11 v12
    refine Within.ite₁ ?_ ?_
    · dsimp only
      refine Within.fst v12 ?_
      refine Within.ite₁ ?_ ?_
      · refine (State.evalNext_within ..).then ?_
        exact .refl
      · dsimp only
        exact .refl
    · extract_lets +onlyGivenNames s13
      extract_lets +onlyGivenNames s14
      split
      · rename_i v15 v16 v17 v18 v19
        dsimp only
        refine Within.fst v12 ?_
        refine Within.ite₁ ?_ ?_
        · refine (State.evalNext_within ..).then ?_
          exact .refl
        · dsimp only
          exact .refl
      · rename_i v20 v21 v22 v23
        refine Within.ite₁ ?_ ?_
        · dsimp only
          refine Within.fst v12 ?_
          refine Within.ite₁ ?_ ?_
          · refine (State.evalNext_within ..).then ?_
            exact .refl
          · dsimp only
            exact .refl
        · dsimp only
          refine Within.fst v12 ?_
          refine Within.ite₁ ?_ ?_
          · refine (State.evalNext_within ..).then ?_
            exact .refl
          · dsimp only
            exact .refl

theorem State.txInternal_within (s : State) (i : Item) (detail : Option Nat) :
    Within { parts := [.flm, .mrc], pages := [Pg.lnk] } s (State.txInternal s i detail) := by
  unfold State.txInternal
  extract_lets +onlyGivenNames s1
  refine Within.cut (x := s1) ?_ (fun h2 => ?_)
  · unfold s1
    split
    · rename_i v3 v4
      refine (State.raise_within ..).then ?_
      exact .refl
    · rename_i v5
      exact .refl
  clear_value s1
  refine (State.finish_within ..).then ?_
  exact h2

theorem State.schedule_within (s : State) (i : Item) (j : TxJob) :
    Within { parts := [.flm, .mrc, .lnk], pages := [Pg.lnk] } s (State.schedule s i j) := by
  unfold State.schedule
  split
  · rename_i v1 v2 v3
    refine (State.finish_within ..).then ?_
    refine Within.fst v3 ?_
    refine (State.plan_within ..).then ?_
    exact .refl
  · rename_i v4 v5 v6 v7
    refine Within.ite ?_ ?_
    · refine (State.txInternal_within ..).then ?_
      refine Within.fst v7 ?_
      refine (State.plan_within ..).then ?_
      exact .refl
    · refine (State.setLnk_within ..).then ?_
      refine Within.fst v7 ?_
      refine (State.plan_within ..).then ?_
      exact .refl

theorem State.txIssue_within (s : State) (i : Item) (mpdu : List Byte) :
    Within { parts := [.flm, .mrc, .lnk], pages := [Pg.lnk] } s (State.txIssue s i mpdu) := by
  unfold State.txIssue
  extract_lets +onlyGivenNames s1
  extract_lets +onlyGivenNames s2
  extract_lets +onlyGivenNames s3
  extract_lets +onlyGivenNames s4
  extract_lets +onlyGivenNames s5
  extract_lets +onlyGivenNames s6
  extract_lets +onlyGivenNames s7
  extract_lets +onlyGivenNames s8
  extract_lets +onlyGivenNames s9
  extract_lets +onlyGivenNames s10
  extract_lets +onlyGivenNames s11
  extract_lets +onlyGivenNames s12
  extract_lets +onlyGivenNames s13
  extract_lets +onlyGivenNames s14
  split
  · rename_i v15 v16
    refine (State.txInternal_within ..).then ?_
    exact .refl
  · rename_i v17 v18 v19
    extract_lets +onlyGivenNames s20
    extract_lets +onlyGivenNames s21
    extract_lets +onlyGivenNames s22
    extract_lets +onlyGivenNames s23
    refine Within.ite ?_ ?_
    · refine (State.txInternal_within ..).then ?_
      exact .refl
    · refine Within.ite ?_ ?_
      · refine (State.txInternal_within ..).then ?_
        exact .refl
      · refine Within.ite ?_ ?_
        · refine (State.txInternal_within ..).then ?_
          exact .refl
        · refine Within.ite ?_ ?_
          · refine (State.finish_within ..).then ?_
            exact .refl
          · refine Within.ite ?_ ?_
            · refine (State.finish_within ..).then ?_
              exact .refl
            · refine (State.schedule_within ..).then ?_
              exact .refl

theorem execLnkTx_within (entry : Nat) (flips : List Flip) (s : State) :
    OutWithin { parts := [.doms, .freeCtr, .flm, .drc, .flc, .mrc, .lnk], pages := [Pg.drc, Pg.flc, Pg.lnk] } s (execLnkTx entry flips s) := by
  unfold execLnkTx
  extract_lets +onlyGivenNames s1
  refine OutWithin.cut (x := s1) ?_ (fun h2 => ?_)
  · unfold s1
    refine (State.applyFlips_within ..).then ?_
    exact .refl
  clear_value s1
  refine OutWithin.next ?_
  split
  · rename_i v3 v4
    exact h2
  · rename_i v5 v6 v7
    refine Within.ite ?_ ?_
    · exact h2
    · split
      · rename_i v8 v9 v10
        refine Within.fst v10 ?_
        refine (State.unitRead_within ..).then ?_
        exact h2
      · rename_i v11 v12 v13
        refine (State.finish_within ..).then ?_
        refine Within.fst v13 ?_
        refine (State.unitRead_within ..).then ?_
        exact h2
      · rename_i v14 v15 v16 v17 v18
        split
        · rename_i v19 v20
          refine (State.finish_within ..).then ?_
          refine Within.fst v18 ?_
          refine (State.unitRead_within ..).then ?_
          exact h2
        · rename_i v21 v22 v23
          refine (State.txIssue_within ..).then ?_
          refine Within.fst v18 ?_
          refine (State.unitRead_within ..).then ?_
          exact h2

theorem execLnkWakecode_within (entry : Nat) (s : State) :
    OutWithin { parts := [.flm, .mrc, .lnk], pages := [Pg.lnk] } s (execLnkWakecode entry s) := by
  unfold execLnkWakecode
  refine OutWithin.next ?_
  split
  · rename_i v1 v2
    exact .refl
  · rename_i v3 v4 v5
    extract_lets +onlyGivenNames s6
    extract_lets +onlyGivenNames s7
    extract_lets +onlyGivenNames s8
    extract_lets +onlyGivenNames s9
    extract_lets +onlyGivenNames s10
    extract_lets +onlyGivenNames s11
    refine Within.ite ?_ ?_
    · exact .refl
    · refine Within.ite ?_ ?_
      · refine (State.txInternal_within ..).then ?_
        exact .refl
      · refine Within.ite ?_ ?_
        · refine (State.txInternal_within ..).then ?_
          exact .refl
        · refine (State.schedule_within ..).then ?_
          exact .refl

theorem State.listenReady_within (s : State) (j : TxJob) :
    Within { parts := [.doms, .recv, .syn, .lnk], pages := [Pg.lnk] } s (State.listenReady s j).1 := by
  unfold State.listenReady
  refine Within.ite₁ ?_ ?_
  · split
    · rename_i v1 v2
      dsimp only
      exact .refl
    · rename_i v3 v4
      extract_lets +onlyGivenNames s5
      refine Within.ite₁ ?_ ?_
      · dsimp only
        exact .refl
      · refine Within.ite₁ ?_ ?_
        · dsimp only
          refine Within.foldl (fun s6 a7 h8 => ?_) ?_
          · refine (State.wake_within ..).then ?_
            exact h8
          · exact .refl
        · refine Within.ite₁ ?_ ?_
          · dsimp only
            exact .refl
          · dsimp only
            exact .refl
  · refine Within.ite₁ ?_ ?_
    · split
      · rename_i v9 v10
        dsimp only
        exact .refl
      · rename_i v11 v12 v13
        extract_lets +onlyGivenNames s14
        refine Within.cut (x := s14) ?_ (fun h15 => ?_)
        · unfold s14
          refine (State.wake_within ..).then ?_
          refine (State.wake_within ..).then ?_
          exact .refl
        clear_value s14
        extract_lets +onlyGivenNames s16
        refine Within.ite₁ ?_ ?_
        · dsimp only
          exact h15
        · extract_lets +onlyGivenNames s17
          refine Within.cut (x := s17) ?_ (fun h18 => ?_)
          · unfold s17
            refine Within.ite ?_ ?_
            · exact h15
            · refine (State.nbGo_within ..).then ?_
              refine (State.displaceUses_within ..).then ?_
              exact h15
          clear_value s17
          dsimp only
          exact h18
    · dsimp only
      exact .refl

theorem execLbtListenStart_within (entry : Nat) (s : State) :
    OutWithin { parts := [.staged, .claims, .commits, .doms, .flm, .recv, .syn, .txa, .mrc, .lnk], all := true } s (execLbtListenStart entry s) := by
  unfold execLbtListenStart
  refine OutWithin.next ?_
  split
  · rename_i v1 v2
    exact .refl
  · rename_i v3 v4 v5
    extract_lets +onlyGivenNames s6
    refine Within.ite ?_ ?_
    · exact .refl
    · split
      · rename_i v7 v8 v9
        refine Within.fst v9 ?_
        refine (State.listenReady_within ..).then ?_
        exact .refl
      · rename_i v10 v11 v12
        refine (State.txEnd_within ..).then ?_
        refine Within.fst v12 ?_
        refine (State.listenReady_within ..).then ?_
        exact .refl
      · rename_i v13 v14 v15
        refine (State.updJob_within ..).then ?_
        refine Within.fst v15 ?_
        refine (State.listenReady_within ..).then ?_
        exact .refl

theorem execLbtListenEnd_within (entry : Nat) (powers : List Int) (draw : Nat) (s : State) :
    OutWithin { parts := [.staged, .claims, .commits, .doms, .flm, .recv, .syn, .txa, .mrc, .lnk], all := true } s (execLbtListenEnd entry powers draw s) := by
  unfold execLbtListenEnd
  refine OutWithin.next ?_
  split
  · rename_i v1 v2
    exact .refl
  · rename_i v3 v4 v5
    refine Within.ite ?_ ?_
    · exact .refl
    · refine Within.ite ?_ ?_
      · refine (State.updJob_within ..).then ?_
        exact .refl
      · extract_lets +onlyGivenNames s6
        refine Within.ite ?_ ?_
        · refine (State.txEnd_within ..).then ?_
          exact .refl
        · extract_lets +onlyGivenNames s7
          extract_lets +onlyGivenNames s8
          refine Within.cut (x := s8) ?_ (fun h9 => ?_)
          · unfold s8
            refine (State.updJob_within ..).then ?_
            exact .refl
          clear_value s8
          refine (State.closeUse_within ..).then ?_
          refine (State.unhand_within ..).then ?_
          exact h9

theorem State.replan_within (s : State) (j : TxJob) :
    Within { parts := [.staged, .claims, .commits, .doms, .flm, .recv, .syn, .txa, .mrc, .lnk], all := true } s (State.replan s j) := by
  unfold State.replan
  split
  · rename_i v1 v2 v3
    refine (State.txEnd_within ..).then ?_
    refine Within.fst v3 ?_
    refine (State.plan_within ..).then ?_
    exact .refl
  · rename_i v4 v5 v6 v7
    refine Within.ite ?_ ?_
    · refine (State.txEnd_within ..).then ?_
      refine Within.fst v7 ?_
      refine (State.plan_within ..).then ?_
      exact .refl
    · refine (State.updJob_within ..).then ?_
      refine Within.fst v7 ?_
      refine (State.plan_within ..).then ?_
      exact .refl

theorem execBackoffExpire_within (entry : Nat) (s : State) :
    OutWithin { parts := [.staged, .claims, .commits, .doms, .flm, .recv, .syn, .txa, .mrc, .lnk], all := true } s (execBackoffExpire entry s) := by
  unfold execBackoffExpire
  refine OutWithin.next ?_
  split
  · rename_i v1 v2
    exact .refl
  · rename_i v3 v4 v5
    split
    · rename_i v6 v7
      exact .refl
    · rename_i v8 v9 v10
      refine Within.ite ?_ ?_
      · exact .refl
      · refine Within.ite ?_ ?_
        · refine (State.updJob_within ..).then ?_
          exact .refl
        · refine (State.replan_within ..).then ?_
          exact .refl

theorem execDwellWindowFree_within (entry : Nat) (s : State) :
    OutWithin { parts := [.lnk] } s (execDwellWindowFree entry s) := by
  unfold execDwellWindowFree
  refine OutWithin.next ?_
  split
  · rename_i v1 v2
    exact .refl
  · rename_i v3 v4 v5
    refine Within.ite ?_ ?_
    · refine (State.updJob_within ..).then ?_
      exact .refl
    · exact .refl

theorem State.tuneItem_within (s : State) (j : TxJob) :
    Within { parts := [.staged, .claims, .commits, .doms, .flm, .recv, .syn, .txa, .mrc, .lnk], all := true } s (State.tuneItem s j) := by
  unfold State.tuneItem
  refine Within.ite ?_ ?_
  · refine (State.txEnd_within ..).then ?_
    exact .refl
  · refine Within.ite ?_ ?_
    · refine (State.wake_within ..).then ?_
      refine (State.wake_within ..).then ?_
      exact .refl
    · refine Within.ite ?_ ?_
      · refine (State.updJob_within ..).then ?_
        exact .refl
      · extract_lets +onlyGivenNames s1
        extract_lets +onlyGivenNames s2
        split
        · rename_i v3 v4 v5 v6 v7
          extract_lets +onlyGivenNames s8
          refine Within.ite ?_ ?_
          · refine (State.txEnd_within ..).then ?_
            exact .refl
          · refine Within.ite ?_ ?_
            · exact .refl
            · split
              · rename_i v9 v10 v11
                unfold s2
                extract_lets +onlyGivenNames s12
                extract_lets +onlyGivenNames s13
                refine (State.tune_within ..).then ?_
                refine (State.updJob_within ..).then ?_
                exact .refl
              · rename_i v14 v15
                split
                · rename_i v16 v17 v18
                  refine (State.txEnd_within ..).then ?_
                  refine Within.fst v18 ?_
                  refine (State.assignCounter_within ..).then ?_
                  exact .refl
                · rename_i v19 v20 v21 v22
                  unfold s2
                  extract_lets +onlyGivenNames s23
                  extract_lets +onlyGivenNames s24
                  refine (State.tune_within ..).then ?_
                  refine (State.updJob_within ..).then ?_
                  refine Within.fst v22 ?_
                  refine (State.assignCounter_within ..).then ?_
                  exact .refl
        · rename_i v25 v26 v27
          unfold s2
          extract_lets +onlyGivenNames s28
          extract_lets +onlyGivenNames s29
          refine (State.tune_within ..).then ?_
          refine (State.updJob_within ..).then ?_
          exact .refl

theorem State.tuneAck_within (s : State) :
    Within { parts := [.flm, .syn, .txa, .mrc, .lnk], pages := [Pg.lnk] } s (State.tuneAck s) := by
  unfold State.tuneAck
  split
  · rename_i v1 v2
    exact .refl
  · rename_i v3 v4 v5 v6
    refine Within.ite ?_ ?_
    · exact .refl
    · refine Within.ite ?_ ?_
      · exact .refl
      · extract_lets +onlyGivenNames s7
        split
        · rename_i v8 v9 v10 v11 v12 v13 v14 v15 v16
          refine Within.ite ?_ ?_
          · exact .refl
          · split
            · rename_i v17 v18 v19 v20 v21 v22 v23
              unfold s7
              refine (State.tune_within ..).then ?_
              refine (State.setLnk_within ..).then ?_
              refine Within.fst v22 ?_
              refine (State.assignCounter_within ..).then ?_
              exact .refl
            · rename_i v24 v25 v26 v27 v28 v29
              refine Within.fst v28 ?_
              refine (State.assignCounter_within ..).then ?_
              exact .refl
        · rename_i v30 v31 v32 v33
          unfold s7
          refine (State.tune_within ..).then ?_
          refine (State.setLnk_within ..).then ?_
          exact .refl

theorem execTuneRequest_within (key : TuneFor) (s : State) :
    OutWithin { parts := [.staged, .claims, .commits, .doms, .flm, .recv, .syn, .txa, .mrc, .lnk], all := true } s (execTuneRequest key s) := by
  unfold execTuneRequest
  refine OutWithin.next ?_
  split
  · rename_i v1
    refine Within.ite ?_ ?_
    · refine (State.tuneAck_within ..).then ?_
      exact .refl
    · exact .refl
  · rename_i v2 v3
    split
    · rename_i v4 v5
      exact .refl
    · rename_i v6 v7 v8
      extract_lets +onlyGivenNames s9
      refine Within.ite ?_ ?_
      · exact .refl
      · refine (State.tuneItem_within ..).then ?_
        exact .refl

theorem State.txLock_within (s : State) :
    Within { parts := [.freeCtr, .syn, .txa], pages := [Pg.syn] } s (State.txLock s) := by
  unfold State.txLock
  refine Within.ite ?_ ?_
  · exact .refl
  · extract_lets +onlyGivenNames s1
    extract_lets +onlyGivenNames s2
    extract_lets +onlyGivenNames s3
    refine Within.cut (x := s3) ?_ (fun h4 => ?_)
    · unfold s3
      refine Within.ite ?_ ?_
      · exact .refl
      · refine Within.ite ?_ ?_
        · refine Within.ite ?_ ?_
          · refine (State.calibrate_within ..).then ?_
            exact .refl
          · exact .refl
        · refine Within.ite ?_ ?_
          · refine (State.count_within ..).then ?_
            refine (State.calibrate_within ..).then ?_
            exact .refl
          · exact .refl
    clear_value s3
    extract_lets +onlyGivenNames s5
    extract_lets +onlyGivenNames s6
    extract_lets +onlyGivenNames s7
    refine Within.cut (x := s7) ?_ (fun h8 => ?_)
    · unfold s7
      refine Within.of_mk ?_
      exact h4
    clear_value s7
    refine Within.ite ?_ ?_
    · refine Within.of_mk ?_
      exact h8
    · refine (State.toHold_within ..).then ?_
      exact h8

theorem execLoopLock_within (tx : Bool) (s : State) :
    OutWithin { parts := [.staged, .claims, .commits, .doms, .freeCtr, .recv, .syn, .txa, .mrc, .lnk], all := true } s (execLoopLock tx s) := by
  unfold execLoopLock
  refine OutWithin.next ?_
  refine Within.ite ?_ ?_
  · refine (State.txLock_within ..).then ?_
    exact .refl
  · refine (State.rxLock_within ..).then ?_
    exact .refl

theorem State.endCurrent_within (s : State) (status : Nat) :
    Within { parts := [.staged, .claims, .commits, .doms, .flm, .recv, .syn, .txa, .mrc, .lnk], all := true } s (State.endCurrent s status) := by
  unfold State.endCurrent
  split
  · rename_i v1 v2 v3
    split
    · rename_i v4 v5 v6
      refine (State.txEnd_within ..).then ?_
      exact .refl
    · rename_i v7 v8
      refine (State.unhand_within ..).then ?_
      exact .refl
  · rename_i v9 v10
    extract_lets +onlyGivenNames s11
    refine Within.cut (x := s11) ?_ (fun h12 => ?_)
    · unfold s11
      refine (State.setLnk_within ..).then ?_
      exact .refl
    clear_value s11
    refine (State.event_within ..).then ?_
    refine (State.count_within ..).then ?_
    refine (State.unhand_within ..).then ?_
    exact h12
  · rename_i v13 v14
    exact .refl

theorem State.txTimeout_within (s : State) :
    Within { parts := [.staged, .claims, .commits, .doms, .flm, .recv, .syn, .txa, .mrc, .lnk], all := true } s (State.txTimeout s) := by
  unfold State.txTimeout
  refine Within.ite ?_ ?_
  · exact .refl
  · refine Within.ite ?_ ?_
    · refine (State.setField_within ..).then ?_
      refine Within.of_mk ?_
      exact .refl
    · extract_lets +onlyGivenNames s1
      refine Within.cut (x := s1) ?_ (fun h2 => ?_)
      · unfold s1
        refine (State.setSyn_within ..).then ?_
        refine (State.count_within ..).then ?_
        refine (State.event_within ..).then ?_
        exact .refl
      clear_value s1
      extract_lets +onlyGivenNames s3
      extract_lets +onlyGivenNames s4
      refine Within.cut (x := s4) ?_ (fun h5 => ?_)
      · unfold s4
        refine Within.of_mk ?_
        exact h2
      clear_value s4
      refine (State.takeHeld_within ..).then ?_
      refine (State.endCurrent_within ..).then ?_
      exact h5

theorem execLockTimeout_within (tx : Bool) (air : List Air) (s : State) :
    OutWithin { parts := [.staged, .claims, .commits, .mem, .doms, .flm, .drc, .recv, .syn, .txa, .mrc, .lnk], all := true } s (execLockTimeout tx air s) := by
  unfold execLockTimeout
  refine OutWithin.next ?_
  refine Within.ite ?_ ?_
  · refine (State.txTimeout_within ..).then ?_
    exact .refl
  · refine (State.rxTimeout_within ..).then ?_
    exact .refl

theorem execTxBlankStart_within (air : List Air) (flips : List Flip) (s : State) :
    OutWithin { parts := [.mem, .doms, .flm, .drc, .flc, .recv, .txa, .mrc, .lnk], pages := [Pg.chz, Pg.drc, Pg.flm, Pg.phy, Pg.lnk] } s (execTxBlankStart air flips s) := by
  unfold execTxBlankStart
  extract_lets +onlyGivenNames s1
  refine OutWithin.cut (x := s1) ?_ (fun h2 => ?_)
  · unfold s1
    refine (State.applyFlips_within ..).then ?_
    exact .refl
  clear_value s1
  refine OutWithin.next ?_
  split
  · rename_i v3 v4
    exact h2
  · rename_i v5 v6 v7
    split
    rename_i v8 v9 v10 v11
    extract_lets +onlyGivenNames s12
    refine Within.cut (x := s12) ?_ (fun h13 => ?_)
    · unfold s12
      refine (State.blankStart_within ..).then ?_
      exact h2
    clear_value s12
    extract_lets +onlyGivenNames s14
    refine Within.cut (x := s14) ?_ (fun h15 => ?_)
    · unfold s14
      refine Within.ite ?_ ?_
      · refine (State.displaceUses_within ..).then ?_
        exact h13
      · exact h13
    clear_value s14
    refine Within.of_mk ?_
    exact h15

theorem execTxBlankEnd_within (s : State) :
    OutWithin { parts := [.staged, .claims, .commits, .doms, .recv, .syn, .mrc, .lnk], all := true } s (execTxBlankEnd s) := by
  unfold execTxBlankEnd
  refine OutWithin.next ?_
  extract_lets +onlyGivenNames s1
  refine Within.ite ?_ ?_
  · exact .refl
  · refine (State.moveOn_within ..).then ?_
    refine (State.blankEnd_within ..).then ?_
    exact .refl

theorem execFemLead_within (s : State) : OutWithin { parts := [.txa] } s (execFemLead s) := by
  unfold execFemLead
  refine OutWithin.next ?_
  extract_lets +onlyGivenNames s1
  extract_lets +onlyGivenNames s2
  refine Within.ite ?_ ?_
  · refine Within.of_mk ?_
    exact .refl
  · exact .refl

theorem execFemLag_within (s : State) : OutWithin { parts := [.txa] } s (execFemLag s) := by
  unfold execFemLag
  refine OutWithin.next ?_
  split
  · rename_i v1 v2 v3
    refine Within.ite ?_ ?_
    · refine Within.of_mk ?_
      exact .refl
    · exact .refl
  · rename_i v4 v5
    exact .refl

theorem State.rampUp_within (s : State) (level : Option Nat) (out : List Burst) (sfd : Option SfdDue) :
    Within { parts := [.txa] } s (State.rampUp s level out sfd) := by
  unfold State.rampUp
  refine Within.of_mk ?_
  exact .refl

theorem State.ramp_within (s : State) : Within { parts := [.txa, .lnk] } s (State.ramp s) := by
  unfold State.ramp
  split
  · rename_i v1 v2 v3
    split
    · rename_i v4 v5 v6
      extract_lets +onlyGivenNames s7
      extract_lets +onlyGivenNames s8
      refine (State.rampUp_within ..).then ?_
      refine (State.updJob_within ..).then ?_
      exact .refl
    · rename_i v9 v10
      refine (State.rampUp_within ..).then ?_
      exact .refl
  · rename_i v11 v12
    split
    · rename_i v13 v14 v15 v16
      extract_lets +onlyGivenNames s17
      extract_lets +onlyGivenNames s18
      refine (State.rampUp_within ..).then ?_
      refine (State.setLnk_within ..).then ?_
      exact .refl
    · rename_i v19 v20
      refine (State.rampUp_within ..).then ?_
      exact .refl

theorem execRampBegin_within (s : State) : OutWithin { parts := [.txa, .lnk] } s (execRampBegin s) := by
  unfold execRampBegin
  refine OutWithin.next ?_
  refine Within.ite ?_ ?_
  · refine (State.ramp_within ..).then ?_
    exact .refl
  · exact .refl

theorem execRampBeginPassed_within (entry : Nat) (s : State) :
    OutWithin { parts := [.staged, .claims, .commits, .doms, .flm, .recv, .syn, .txa, .mrc, .lnk], all := true } s (execRampBeginPassed entry s) := by
  unfold execRampBeginPassed
  refine OutWithin.next ?_
  split
  · rename_i v1 v2
    exact .refl
  · rename_i v3 v4 v5
    split
    · rename_i v6 v7
      exact .refl
    · rename_i v8 v9 v10
      extract_lets +onlyGivenNames s11
      refine Within.ite ?_ ?_
      · exact .refl
      · refine Within.ite ?_ ?_
        · extract_lets +onlyGivenNames s12
          refine Within.cut (x := s12) ?_ (fun h13 => ?_)
          · unfold s12
            refine Within.ite ?_ ?_
            · refine (State.count_within ..).then ?_
              refine (State.event_within ..).then ?_
              exact .refl
            · exact .refl
          clear_value s12
          refine (State.txEnd_within ..).then ?_
          exact h13
        · refine Within.ite ?_ ?_
          · extract_lets +onlyGivenNames s14
            refine (State.updJob_within ..).then ?_
            exact .refl
          · refine (State.replan_within ..).then ?_
            refine (State.closeUse_within ..).then ?_
            refine (State.unhand_within ..).then ?_
            exact .refl

theorem execRampUpDone_within (s : State) : OutWithin { parts := [.txa] } s (execRampUpDone s) := by
  unfold execRampUpDone
  refine OutWithin.next ?_
  refine Within.ite ?_ ?_
  · refine Within.of_mk ?_
    exact .refl
  · exact .refl

theorem execLastSymbolOut_within (s : State) : OutWithin { parts := [.txa, .lnk] } s (execLastSymbolOut s) := by
  unfold execLastSymbolOut
  refine OutWithin.next ?_
  refine Within.ite ?_ ?_
  · exact .refl
  · extract_lets +onlyGivenNames s1
    refine Within.cut (x := s1) ?_ (fun h2 => ?_)
    · unfold s1
      split
      · rename_i v3 v4 v5
        refine (State.sfdDecided_within ..).then ?_
        exact .refl
      · rename_i v6 v7
        exact .refl
    clear_value s1
    extract_lets +onlyGivenNames s8
    extract_lets +onlyGivenNames s9
    refine Within.cut (x := s9) ?_ (fun h10 => ?_)
    · unfold s9
      refine Within.of_mk ?_
      exact h2
    clear_value s9
    extract_lets +onlyGivenNames s11
    split
    · rename_i v12 v13 v14
      refine (State.updJob_within ..).then ?_
      exact h10
    · rename_i v15 v16
      exact h10

theorem execTxLockLost_within (s : State) :
    OutWithin { parts := [.staged, .claims, .commits, .doms, .flm, .recv, .syn, .txa, .mrc, .lnk], all := true } s (execTxLockLost s) := by
  unfold execTxLockLost
  refine OutWithin.next ?_
  extract_lets +onlyGivenNames s1
  extract_lets +onlyGivenNames s2
  refine Within.cut (x := s2) ?_ (fun h3 => ?_)
  · unfold s2
    refine Within.of_mk ?_
    exact .refl
  clear_value s2
  split
  · rename_i v4 v5
    extract_lets +onlyGivenNames s6
    refine Within.cut (x := s6) ?_ (fun h7 => ?_)
    · unfold s6
      refine (State.endCurrent_within ..).then ?_
      refine (State.count_within ..).then ?_
      refine (State.event_within ..).then ?_
      exact h3
    clear_value s6
    refine Within.of_mk ?_
    exact h7
  · rename_i v8 v9
    extract_lets +onlyGivenNames s10
    refine Within.cut (x := s10) ?_ (fun h11 => ?_)
    · unfold s10
      refine (State.endCurrent_within ..).then ?_
      refine (State.count_within ..).then ?_
      refine (State.event_within ..).then ?_
      exact h3
    clear_value s10
    refine Within.of_mk ?_
    exact h11
  · rename_i v12 v13
    refine (State.takeHeld_within ..).then ?_
    refine (State.endCurrent_within ..).then ?_
    refine Within.of_mk ?_
    exact h3
  · rename_i v14 v15
    refine Within.of_mk ?_
    exact h3
  · rename_i v16 v17 v18 v19 v20
    exact .refl

theorem State.waitAck_within (s : State) (j : TxJob) :
    Within { parts := [.doms, .recv, .syn, .lnk] } s (State.waitAck s j) := by
  unfold State.waitAck
  extract_lets +onlyGivenNames s1
  extract_lets +onlyGivenNames s2
  refine Within.cut (x := s2) ?_ (fun h3 => ?_)
  · unfold s2
    refine (State.updJob_within ..).then ?_
    exact .refl
  clear_value s2
  split
  · rename_i v4 v5 v6 v7 v8
    extract_lets +onlyGivenNames s9
    refine Within.cut (x := s9) ?_ (fun h10 => ?_)
    · unfold s9
      refine (State.wake_within ..).then ?_
      refine (State.wake_within ..).then ?_
      exact h3
    clear_value s9
    extract_lets +onlyGivenNames s11
    refine Within.ite ?_ ?_
    · exact h10
    · refine (State.nbGo_within ..).then ?_
      exact h10
  · rename_i v12 v13 v14
    exact h3

theorem State.itemSent_within (s : State) (j : TxJob) :
    Within { parts := [.staged, .claims, .commits, .doms, .flm, .recv, .syn, .txa, .mrc, .lnk], all := true } s (State.itemSent s j) := by
  unfold State.itemSent
  refine Within.ite ?_ ?_
  · extract_lets +onlyGivenNames s1
    extract_lets +onlyGivenNames s2
    refine Within.cut (x := s2) ?_ (fun h3 => ?_)
    · unfold s2
      refine (State.noteAir_within ..).then ?_
      exact .refl
    clear_value s2
    extract_lets +onlyGivenNames s4
    refine Within.cut (x := s4) ?_ (fun h5 => ?_)
    · unfold s4
      refine (State.updJob_within ..).then ?_
      exact h3
    clear_value s4
    refine Within.of_mk ?_
    exact h5
  · extract_lets +onlyGivenNames s6
    extract_lets +onlyGivenNames s7
    refine Within.cut (x := s7) ?_ (fun h8 => ?_)
    · unfold s7
      refine (State.noteAir_within ..).then ?_
      exact .refl
    clear_value s7
    extract_lets +onlyGivenNames s9
    extract_lets +onlyGivenNames s10
    refine Within.cut (x := s10) ?_ (fun h11 => ?_)
    · unfold s10
      refine (State.updJob_within ..).then ?_
      exact h8
    clear_value s10
    refine Within.ite ?_ ?_
    · refine (State.waitAck_within ..).then ?_
      exact h11
    · refine (State.txEnd_within ..).then ?_
      exact h11

theorem State.frameSent_within (s : State) (cur : Option TxKey) :
    Within { parts := [.staged, .claims, .commits, .doms, .flm, .recv, .syn, .txa, .mrc, .lnk], all := true } s (State.frameSent s cur) := by
  unfold State.frameSent
  extract_lets +onlyGivenNames s1
  refine Within.cut (x := s1) ?_ (fun h2 => ?_)
  · unfold s1
    refine (State.count_within ..).then ?_
    refine (State.event_within ..).then ?_
    exact .refl
  clear_value s1
  split
  · rename_i v3 v4
    split
    · rename_i v5 v6 v7
      refine (State.itemSent_within ..).then ?_
      exact h2
    · rename_i v8 v9
      exact h2
  · rename_i v10
    extract_lets +onlyGivenNames s11
    refine Within.cut (x := s11) ?_ (fun h12 => ?_)
    · unfold s11
      split
      · rename_i v13 v14 v15
        refine (State.noteAir_within ..).then ?_
        exact h2
      · rename_i v16 v17
        exact h2
    clear_value s11
    refine (State.count_within ..).then ?_
    refine (State.setLnk_within ..).then ?_
    exact h12
  · rename_i v18
    exact h2

theorem execRampDownDone_within (s : State) :
    OutWithin { parts := [.staged, .claims, .commits, .doms, .flm, .recv, .syn, .txa, .mrc, .lnk], all := true } s (execRampDownDone s) := by
  unfold execRampDownDone
  refine OutWithin.next ?_
  refine Within.ite ?_ ?_
  · exact .refl
  · extract_lets +onlyGivenNames s1
    extract_lets +onlyGivenNames s2
    extract_lets +onlyGivenNames s3
    extract_lets +onlyGivenNames s4
    extract_lets +onlyGivenNames s5
    refine Within.cut (x := s5) ?_ (fun h6 => ?_)
    · unfold s5
      refine Within.of_mk ?_
      exact .refl
    clear_value s5
    extract_lets +onlyGivenNames s7
    refine Within.cut (x := s7) ?_ (fun h8 => ?_)
    · unfold s7
      refine Within.ite ?_ ?_
      · exact h6
      · refine (State.frameSent_within ..).then ?_
        exact h6
    clear_value s7
    refine Within.ite ?_ ?_
    · exact h8
    · refine (State.toHold_within ..).then ?_
      exact h8

theorem execHoldExpire_within (s : State) : OutWithin { parts := [.syn, .txa] } s (execHoldExpire s) := by
  unfold execHoldExpire
  refine OutWithin.next ?_
  refine Within.ite ?_ ?_
  · refine Within.of_mk ?_
    exact .refl
  · exact .refl

theorem execAckWaitEnd_within (entry : Nat) (draw : Nat) (s : State) :
    OutWithin { parts := [.staged, .claims, .commits, .doms, .flm, .recv, .syn, .txa, .mrc, .lnk], all := true } s (execAckWaitEnd entry draw s) := by
  unfold execAckWaitEnd
  refine OutWithin.next ?_
  split
  · rename_i v1 v2
    exact .refl
  · rename_i v3 v4 v5
    split
    · rename_i v6 v7
      exact .refl
    · rename_i v8 v9 v10
      refine Within.ite ?_ ?_
      · exact .refl
      · extract_lets +onlyGivenNames s11
        refine Within.cut (x := s11) ?_ (fun h12 => ?_)
        · unfold s11
          refine (State.closeUse_within ..).then ?_
          exact .refl
        clear_value s11
        extract_lets +onlyGivenNames s13
        refine Within.ite ?_ ?_
        · refine (State.txEnd_within ..).then ?_
          exact h12
        · refine Within.ite ?_ ?_
          · refine (State.txEnd_within ..).then ?_
            exact h12
          · extract_lets +onlyGivenNames s14
            refine (State.updJob_within ..).then ?_
            exact h12

theorem State.jobsAborted_within (s : State) (p : Nat → Bool) (status : Nat) :
    Within { parts := [.staged, .claims, .commits, .doms, .flm, .recv, .syn, .txa, .mrc, .lnk], all := true } s (State.jobsAborted s p status) := by
  unfold State.jobsAborted
  refine Within.foldl (fun s1 a2 h3 => ?_) ?_
  · refine (State.txEnd_within ..).then ?_
    exact h3
  · exact .refl

theorem State.txaStops_within (s : State) : Within { parts := [.syn, .txa, .lnk] } s (State.txaStops s) := by
  unfold State.txaStops
  refine Within.of_mk ?_
  exact .refl

end Sys2Proof.Machine
end

