-- ==== Sys2Proof/Laws/FrameLinkRx.lean ====
section
/-! SUPPORT. What each operation of Machine/LinkRx.lean may change, and that it keeps a sound state sound. -/

namespace Sys2Proof.Machine

-- one proof at a time: the file holds many small ones
set_option Elab.async false

theorem State.postHead_within (s : State) (f : RxFrame) :
    Within { parts := [.flm, .recv, .lnk], pages := [Pg.flm, Pg.phy] } s (State.postHead s f) := by
  unfold State.postHead
  extract_lets +onlyGivenNames s1
  refine (State.flushFrames_within ..).then ?_
  refine (State.postFrame_within ..).then ?_
  refine Within.of_mk ?_
  exact .refl

theorem State.winSees_within (s : State) (f : RxFrame) (accepted : Option Nat) :
    Within { parts := [.flm, .recv, .syn, .lnk] } s (State.winSees s f accepted) := by
  unfold State.winSees
  extract_lets +onlyGivenNames s1
  extract_lets +onlyGivenNames s2
  extract_lets +onlyGivenNames s3
  extract_lets +onlyGivenNames s4
  refine Within.cut (x := s4) ?_ (fun h5 => ?_)
  · unfold s4
    refine (State.setLnk_within ..).then ?_
    exact .refl
  clear_value s4
  extract_lets +onlyGivenNames s6
  refine Within.cut (x := s6) ?_ (fun h7 => ?_)
  · unfold s6
    refine Within.ite ?_ ?_
    · refine (State.closeUse_within ..).then ?_
      exact h5
    · exact h5
  clear_value s6
  refine Within.foldl (fun s8 a9 h10 => ?_) ?_
  · refine (State.finish_within ..).then ?_
    exact h10
  · exact h7

theorem State.secFailed_within (s : State) (f : RxFrame) (c : Option Nat) (status : Nat) (cause : Nat) :
    Within { parts := [.mrc, .lnk], pages := [Pg.lnk] } s (State.secFailed s f c status cause) := by
  unfold State.secFailed
  extract_lets +onlyGivenNames s1
  extract_lets +onlyGivenNames s2
  refine Within.cut (x := s2) ?_ (fun h3 => ?_)
  · unfold s2
    refine (State.setLnk_within ..).then ?_
    exact .refl
  clear_value s2
  extract_lets +onlyGivenNames s4
  refine Within.cut (x := s4) ?_ (fun h5 => ?_)
  · unfold s4
    refine (State.event_within ..).then ?_
    exact h3
  clear_value s4
  split
  · rename_i v6
    exact h5
  · rename_i v7 v8
    refine Within.ite ?_ ?_
    · refine (State.count_within ..).then ?_
      exact h5
    · refine Within.ite ?_ ?_
      · refine (State.count_within ..).then ?_
        exact h5
      · exact h5

theorem State.bcnAccept_within (s : State) (f : RxFrame) (m : Mac.Mhr) (mpdu : List Byte) :
    Within { parts := [.flm, .tim, .recv, .syn, .mrc, .lnk], pages := [Pg.lnk] } s (State.bcnAccept s f m mpdu) := by
  unfold State.bcnAccept
  extract_lets +onlyGivenNames s1
  extract_lets +onlyGivenNames s2
  refine Within.cut (x := s2) ?_ (fun h3 => ?_)
  · unfold s2
    refine (State.anchorAt_within ..).then ?_
    exact .refl
  clear_value s2
  extract_lets +onlyGivenNames s4
  extract_lets +onlyGivenNames s5
  refine Within.cut (x := s5) ?_ (fun h6 => ?_)
  · unfold s5
    split
    · rename_i v7 v8 v9
      extract_lets +onlyGivenNames s10
      extract_lets +onlyGivenNames s11
      refine Within.of_mk ?_
      exact h3
    · rename_i v12 v13
      exact h3
  clear_value s5
  split
  · rename_i v14 v15
    split
    · rename_i v16 v17
      exact h6
    · rename_i v18 v19 v20
      refine (State.closeUse_within ..).then ?_
      refine (State.bcnArm_within ..).then ?_
      refine (State.setLnk_within ..).then ?_
      exact h6
  · rename_i v21 v22
    extract_lets +onlyGivenNames s23
    refine Within.cut (x := s23) ?_ (fun h24 => ?_)
    · unfold s23
      refine (State.lnkEvent_within ..).then ?_
      refine (State.event_within ..).then ?_
      exact h6
    clear_value s23
    refine (State.closeUse_within ..).then ?_
    refine (State.bcnArm_within ..).then ?_
    refine (State.setLnk_within ..).then ?_
    exact h24
  · rename_i v25 v26 v27
    exact h6

theorem State.accept_within (s : State) (f : RxFrame) (c : Nat) (m : Mac.Mhr) (mpdu : List Byte) :
    Within { parts := [.flm, .tim, .recv, .syn, .mrc, .lnk], pages := [Pg.lnk] } s (State.accept s f c m mpdu) := by
  unfold State.accept
  extract_lets +onlyGivenNames s1
  extract_lets +onlyGivenNames s2
  refine Within.cut (x := s2) ?_ (fun h3 => ?_)
  · unfold s2
    refine Within.ite ?_ ?_
    · refine (State.setReg_within ..).then ?_
      exact .refl
    · exact .refl
  clear_value s2
  extract_lets +onlyGivenNames s4
  refine Within.cut (x := s4) ?_ (fun h5 => ?_)
  · unfold s4
    refine (State.setCtx_within ..).then ?_
    exact h3
  clear_value s4
  extract_lets +onlyGivenNames s6
  refine Within.cut (x := s6) ?_ (fun h7 => ?_)
  · unfold s6
    refine Within.ite ?_ ?_
    · refine (State.bcnAccept_within ..).then ?_
      exact h5
    · exact h5
  clear_value s6
  refine Within.ite ?_ ?_
  · split
    · rename_i v8 v9 v10
      refine (State.anchorAt_within ..).then ?_
      exact h7
    · rename_i v11 v12
      exact h7
  · exact h7

theorem State.ackDue_within (s : State) (f : RxFrame) (c : Option Nat) (m : Mac.Mhr) :
    Within { parts := [.lnk] } s (State.ackDue s f c m) := by
  unfold State.ackDue
  refine Within.ite ?_ ?_
  · exact .refl
  · extract_lets +onlyGivenNames s1
    extract_lets +onlyGivenNames s2
    extract_lets +onlyGivenNames s3
    extract_lets +onlyGivenNames s4
    extract_lets +onlyGivenNames s5
    extract_lets +onlyGivenNames s6
    refine (State.setLnk_within ..).then ?_
    exact .refl

theorem State.returnSlots_within (s : State) :
    Within { parts := [.flm, .recv, .lnk], pages := [Pg.flm, Pg.phy] } s (State.returnSlots s) := by
  unfold State.returnSlots
  extract_lets +onlyGivenNames s1
  refine (State.flushFrames_within ..).then ?_
  refine Within.of_mk ?_
  exact .refl

theorem State.wakeHeard_within (s : State) (f : RxFrame) (m : Mac.Mhr) (ttd : Nat) :
    Within { parts := [.doms, .flm, .recv, .lnk], pages := [Pg.flm, Pg.phy] } s (State.wakeHeard s f m ttd) := by
  unfold State.wakeHeard
  extract_lets +onlyGivenNames s1
  extract_lets +onlyGivenNames s2
  refine Within.cut (x := s2) ?_ (fun h3 => ?_)
  · unfold s2
    refine (State.returnSlots_within ..).then ?_
    exact .refl
  clear_value s2
  refine Within.ite ?_ ?_
  · extract_lets +onlyGivenNames s4
    refine (State.setLnk_within ..).then ?_
    exact h3
  · refine Within.ite ?_ ?_
    · refine (State.radioRests_within ..).then ?_
      refine (State.nbHalt_within ..).then ?_
      exact h3
    · exact h3

theorem State.secured_within (s : State) (f : RxFrame) (c : Option Nat) (m : Mac.Mhr) {t : State} {e : Nat × Nat}
    (h : s.secured f c m = some (.inl (t, e))) :
    Within { parts := [.mem, .doms, .flm, .drc, .mrc], pages := [Pg.drc] } s t := by
  unfold State.secured at h
  dsimp only at h
  repeat' split at h
  all_goals cases h
  · exact .refl
  · refine (State.ringPlace_within ..).then ?_
    exact .refl

theorem State.placePlain_within (s : State) (f : RxFrame) (out : List Byte) :
    Within { parts := [.mem, .doms, .flm, .drc, .mrc], pages := [Pg.drc] } s (State.placePlain s f out) := by
  unfold State.placePlain
  split
  · rename_i v1 v2 v3 v4
    refine Within.ite ?_ ?_
    · exact .refl
    · refine (State.ringPlace_within ..).then ?_
      exact .refl
  · rename_i v5 v6
    exact .refl

theorem State.secWaits_within (s : State) (f : RxFrame) : Within { parts := [.doms] } s (State.secWaits s f) := by
  unfold State.secWaits
  split
  · rename_i v1 v2 v3 v4
    split
    · rename_i v5 v6 v7
      refine (State.wake_within ..).then ?_
      exact .refl
    · rename_i v8 v9
      exact .refl
  · rename_i v10 v11
    exact .refl

theorem State.rxProcess_within (s : State) (f : RxFrame) (c : Option Nat) (m : Mac.Mhr) :
    Within { parts := [.mem, .doms, .flm, .drc, .tim, .recv, .syn, .mrc, .lnk], pages := [Pg.drc, Pg.lnk, Pg.flm, Pg.phy] } s (State.rxProcess s f c m) := by
  unfold State.rxProcess
  split
  · rename_i v1 v2
    refine (State.secWaits_within ..).then ?_
    exact .refl
  · rename_i v3 v4 v5 v6 v7
    extract_lets +onlyGivenNames s8
    refine Within.cut (x := s8) ?_ (fun h9 => ?_)
    · unfold s8
      refine (State.secFailed_within ..).then ?_
      refine (State.secured_within _ _ _ _ v7).then ?_
      exact .refl
    clear_value s8
    extract_lets +onlyGivenNames s10
    extract_lets +onlyGivenNames s11
    refine Within.cut (x := s11) ?_ (fun h12 => ?_)
    · unfold s11
      refine Within.ite ?_ ?_
      · refine (State.ackDue_within ..).then ?_
        exact h9
      · exact h9
    clear_value s11
    refine (State.postHead_within ..).then ?_
    refine (State.winSees_within ..).then ?_
    exact h12
  · rename_i v13 v14 v15
    extract_lets +onlyGivenNames s16
    refine Within.cut (x := s16) ?_ (fun h17 => ?_)
    · unfold s16
      refine (State.placePlain_within ..).then ?_
      exact .refl
    clear_value s16
    extract_lets +onlyGivenNames s18
    refine Within.cut (x := s18) ?_ (fun h19 => ?_)
    · unfold s18
      split
      · rename_i v20 v21
        refine (State.accept_within ..).then ?_
        exact h17
      · rename_i v22
        exact h17
    clear_value s18
    refine (State.postHead_within ..).then ?_
    refine (State.winSees_within ..).then ?_
    refine (State.ackDue_within ..).then ?_
    exact h19

theorem execLnkRxSecurity_within (flips : List Flip) (s : State) :
    OutWithin { parts := [.mem, .doms, .flm, .drc, .flc, .tim, .recv, .syn, .mrc, .lnk], pages := [Pg.flm, Pg.phy, Pg.drc, Pg.lnk] } s (execLnkRxSecurity flips s) := by
  unfold execLnkRxSecurity
  extract_lets +onlyGivenNames s1
  refine OutWithin.cut (x := s1) ?_ (fun h2 => ?_)
  · unfold s1
    refine (State.applyFlips_within ..).then ?_
    exact .refl
  clear_value s1
  refine OutWithin.next ?_
  split
  · rename_i v3 v4
    exact h2
  · rename_i v5 v6 v7 v8
    refine Within.ite ?_ ?_
    · refine (State.wake_within ..).then ?_
      exact h2
    · split
      · rename_i v9 v10
        refine (State.postHead_within ..).then ?_
        refine (State.winSees_within ..).then ?_
        exact h2
      · rename_i v11 v12 v13
        extract_lets +onlyGivenNames s14
        clear_value s14
        split
        · rename_i v15 v16
          refine (State.wakeHeard_within ..).then ?_
          exact h2
        · rename_i v17
          refine Within.ite ?_ ?_
          · exact h2
          · refine Within.ite ?_ ?_
            · refine (State.postHead_within ..).then ?_
              refine (State.winSees_within ..).then ?_
              exact h2
            · refine (State.rxProcess_within ..).then ?_
              exact h2

theorem execAckReceive_within (flips : List Flip) (s : State) :
    OutWithin { parts := Part.but [.lost, .clk, .ticks, .replies, .stalls, .debugErr, .freeCtr, .nmc, .wrx, .eth, .rtc, .per, .tag, .sec, .pal, .cpus, .cas, .upd, .booted, .testmode, .inReset, .vio, .resetDue], all := true } s (execAckReceive flips s) := by
  unfold execAckReceive
  extract_lets +onlyGivenNames s1
  refine OutWithin.cut (x := s1) ?_ (fun h2 => ?_)
  · unfold s1
    refine (State.applyFlips_within ..).then ?_
    exact .refl
  clear_value s1
  refine OutWithin.next ?_
  split
  · rename_i v3 v4
    exact h2
  · rename_i v5 v6 v7 v8
    refine Within.ite ?_ ?_
    · refine (State.wake_within ..).then ?_
      exact h2
    · split
      · rename_i v9 v10
        exact h2
      · rename_i v11 v12 v13
        split
        · rename_i v14 v15
          exact h2
        · rename_i v16 v17 v18
          extract_lets +onlyGivenNames s19
          extract_lets +onlyGivenNames s20
          refine Within.ite ?_ ?_
          · unfold s20
            refine (State.txEnd_within ..).then ?_
            refine (State.postHead_within ..).then ?_
            refine (State.winSees_within ..).then ?_
            exact h2
          · split
            · rename_i v21 v22
              refine (State.secWaits_within ..).then ?_
              exact h2
            · rename_i v23 v24 v25 v26 v27
              refine (State.postHead_within ..).then ?_
              refine (State.winSees_within ..).then ?_
              refine (State.secFailed_within ..).then ?_
              refine (State.secured_within _ _ _ _ v27).then ?_
              exact h2
            · rename_i v28 v29 v30
              extract_lets +onlyGivenNames s31
              refine Within.cut (x := s31) ?_ (fun h32 => ?_)
              · unfold s31
                refine (State.placePlain_within ..).then ?_
                exact h2
              clear_value s31
              extract_lets +onlyGivenNames s33
              refine Within.cut (x := s33) ?_ (fun h34 => ?_)
              · unfold s33
                split
                · rename_i v35 v36 v37
                  refine (State.accept_within ..).then ?_
                  exact h32
                · rename_i v38 v39
                  exact h32
              clear_value s33
              unfold s20
              refine (State.txEnd_within ..).then ?_
              refine (State.postHead_within ..).then ?_
              refine (State.winSees_within ..).then ?_
              exact h34

theorem State.ackSkip_within (s : State) :
    Within { parts := [.staged, .claims, .commits, .doms, .recv, .syn, .txa, .mrc, .lnk], all := true } s (State.ackSkip s) := by
  unfold State.ackSkip
  extract_lets +onlyGivenNames s1
  refine Within.cut (x := s1) ?_ (fun h2 => ?_)
  · unfold s1
    refine (State.setLnk_within ..).then ?_
    exact .refl
  clear_value s1
  refine (State.event_within ..).then ?_
  refine (State.count_within ..).then ?_
  refine (State.unhand_within ..).then ?_
  exact h2

theorem execAckInstant_within (s : State) :
    OutWithin { parts := [.staged, .claims, .commits, .doms, .recv, .syn, .txa, .mrc, .lnk], all := true } s (execAckInstant s) := by
  unfold execAckInstant
  refine OutWithin.next ?_
  split
  · rename_i v1 v2
    exact .refl
  · rename_i v3 v4 v5 v6
    refine Within.ite ?_ ?_
    · exact .refl
    · refine Within.ite ?_ ?_
      · refine (State.ramp_within ..).then ?_
        exact .refl
      · refine (State.ackSkip_within ..).then ?_
        exact .refl

theorem State.lnkTimer_within (s : State) : Within { parts := [.clk, .mrc], pages := [Pg.pwr] } s (State.lnkTimer s) := by
  unfold State.lnkTimer
  extract_lets +onlyGivenNames s1
  extract_lets +onlyGivenNames s2
  refine Within.cut (x := s2) ?_ (fun h3 => ?_)
  · unfold s2
    refine Within.ite ?_ ?_
    · exact .refl
    · refine Within.of_mk ?_
      exact .refl
  clear_value s2
  refine Within.ite ?_ ?_
  · refine (State.event_within ..).then ?_
    refine (State.setReg_within ..).then ?_
    exact h3
  · exact h3

theorem State.rxwinOpens_within (s : State) (entry : Nat) :
    Within { parts := [.doms, .clk, .flm, .recv, .syn, .mrc, .lnk], pages := [Pg.pwr, Pg.lnk] } s (State.rxwinOpens s entry) := by
  unfold State.rxwinOpens
  split
  · rename_i v1 v2
    exact .refl
  · rename_i v3 v4 v5
    extract_lets +onlyGivenNames s6
    extract_lets +onlyGivenNames s7
    extract_lets +onlyGivenNames s8
    extract_lets +onlyGivenNames s9
    refine Within.ite ?_ ?_
    · exact .refl
    · refine Within.ite ?_ ?_
      · refine (State.finish_within ..).then ?_
        exact .refl
      · refine Within.ite ?_ ?_
        · exact .refl
        · refine Within.ite ?_ ?_
          · refine (State.wake_within ..).then ?_
            refine (State.lnkTimer_within ..).then ?_
            exact .refl
          · refine Within.ite ?_ ?_
            · refine (State.finish_within ..).then ?_
              exact .refl
            · refine Within.ite ?_ ?_
              · unfold s9
                refine (State.setLnk_within ..).then ?_
                exact .refl
              · split
                · rename_i v10 v11
                  unfold s9
                  refine (State.setLnk_within ..).then ?_
                  exact .refl
                · rename_i v12 v13 v14
                  refine Within.ite ?_ ?_
                  · exact .refl
                  · refine (State.listenOn_within ..).then ?_
                    unfold s9
                    refine (State.setLnk_within ..).then ?_
                    refine (State.lnkTimer_within ..).then ?_
                    exact .refl

theorem execLnkRxwin_within (entry : Nat) (s : State) :
    OutWithin { parts := [.doms, .clk, .flm, .recv, .syn, .mrc, .lnk], pages := [Pg.pwr, Pg.lnk] } s (execLnkRxwin entry s) := by
  unfold execLnkRxwin
  refine OutWithin.next ?_
  refine (State.rxwinOpens_within ..).then ?_
  exact .refl

theorem execRxwinWindowEnd_within (entry : Nat) (s : State) :
    OutWithin { parts := [.flm, .recv, .syn, .lnk] } s (execRxwinWindowEnd entry s) := by
  unfold execRxwinWindowEnd
  refine OutWithin.next ?_
  split
  · rename_i v1 v2
    exact .refl
  · rename_i v3 v4 v5
    refine Within.ite ?_ ?_
    · exact .refl
    · extract_lets +onlyGivenNames s6
      refine Within.cut (x := s6) ?_ (fun h7 => ?_)
      · unfold s6
        refine (State.setLnk_within ..).then ?_
        exact .refl
      clear_value s6
      extract_lets +onlyGivenNames s8
      extract_lets +onlyGivenNames s9
      refine Within.cut (x := s9) ?_ (fun h10 => ?_)
      · unfold s9
        refine (State.finish_within ..).then ?_
        exact h7
      clear_value s9
      refine Within.ite ?_ ?_
      · refine (State.closeUse_within ..).then ?_
        exact h10
      · exact h10

theorem State.sampleSkip_within (s : State) : Within { pages := [Pg.lnk] } s (State.sampleSkip s) := by
  unfold State.sampleSkip
  refine (State.count_within ..).then ?_
  exact .refl

theorem execSampleStart_within (s : State) :
    OutWithin { parts := [.doms, .clk, .recv, .syn, .mrc, .lnk], pages := [Pg.lnk, Pg.pwr] } s (execSampleStart s) := by
  unfold execSampleStart
  refine OutWithin.next ?_
  split
  · rename_i v1 v2
    exact .refl
  · rename_i v3 v4 v5
    refine Within.ite ?_ ?_
    · exact .refl
    · extract_lets +onlyGivenNames s6
      extract_lets +onlyGivenNames s7
      extract_lets +onlyGivenNames s8
      refine Within.cut (x := s8) ?_ (fun h9 => ?_)
      · unfold s8
        refine (State.setLnk_within ..).then ?_
        exact .refl
      clear_value s8
      extract_lets +onlyGivenNames s10
      extract_lets +onlyGivenNames s11
      extract_lets +onlyGivenNames s12
      refine Within.ite ?_ ?_
      · refine (State.sampleSkip_within ..).then ?_
        exact h9
      · clear_value s12
        clear_value s11
        clear_value s10
        split
        · rename_i v13
          exact h9
        · rename_i v14 v15
          refine Within.ite ?_ ?_
          · refine (State.sampleSkip_within ..).then ?_
            exact h9
          · refine (State.nbGo_within ..).then ?_
            refine (State.wake_within ..).then ?_
            refine (State.wake_within ..).then ?_
            refine (State.lnkTimer_within ..).then ?_
            exact h9

theorem execDataWindowOpen_within (s : State) :
    OutWithin { parts := [.doms, .clk, .recv, .syn, .mrc, .lnk], pages := [Pg.pwr, Pg.lnk] } s (execDataWindowOpen s) := by
  unfold execDataWindowOpen
  refine OutWithin.next ?_
  split
  · rename_i v1 v2
    exact .refl
  · rename_i v3 v4 v5 v6
    refine Within.ite ?_ ?_
    · exact .refl
    · extract_lets +onlyGivenNames s7
      refine Within.ite ?_ ?_
      · refine (State.setLnk_within ..).then ?_
        exact .refl
      · refine (State.listenOn_within ..).then ?_
        refine (State.setLnk_within ..).then ?_
        refine (State.lnkTimer_within ..).then ?_
        exact .refl

theorem execDataWindowEnd_within (s : State) : OutWithin { parts := [.recv, .syn, .lnk] } s (execDataWindowEnd s) := by
  unfold execDataWindowEnd
  refine OutWithin.next ?_
  split
  · rename_i v1 v2
    exact .refl
  · rename_i v3 v4 v5
    refine Within.ite ?_ ?_
    · exact .refl
    · refine (State.closeUse_within ..).then ?_
      refine (State.setLnk_within ..).then ?_
      exact .refl

theorem execFpListenEnd_within (s : State) : OutWithin { parts := [.recv, .syn, .lnk] } s (execFpListenEnd s) := by
  unfold execFpListenEnd
  refine OutWithin.next ?_
  split
  · rename_i v1 v2
    exact .refl
  · rename_i v3 v4 v5 v6
    refine Within.ite ?_ ?_
    · exact .refl
    · refine (State.closeUse_within ..).then ?_
      refine (State.setLnk_within ..).then ?_
      exact .refl

theorem execBeaconWindowOpen_within (s : State) :
    OutWithin { parts := [.doms, .clk, .flm, .recv, .syn, .mrc, .lnk], pages := [Pg.lnk, Pg.pwr] } s (execBeaconWindowOpen s) := by
  unfold execBeaconWindowOpen
  refine OutWithin.next ?_
  split
  · rename_i v1 v2 v3 v4 v5 v6 v7
    extract_lets +onlyGivenNames s8
    extract_lets +onlyGivenNames s9
    extract_lets +onlyGivenNames s10
    extract_lets +onlyGivenNames s11
    refine Within.ite ?_ ?_
    · exact .refl
    · extract_lets +onlyGivenNames s12
      refine Within.cut (x := s12) ?_ (fun h13 => ?_)
      · unfold s12
        refine (State.evalGuard_within ..).then ?_
        exact .refl
      clear_value s12
      extract_lets +onlyGivenNames s14
      extract_lets +onlyGivenNames s15
      refine Within.ite ?_ ?_
      · refine (State.bcnLose_within ..).then ?_
        exact h13
      · refine Within.ite ?_ ?_
        · refine (State.bcnArm_within ..).then ?_
          exact h13
        · extract_lets +onlyGivenNames s16
          refine Within.cut (x := s16) ?_ (fun h17 => ?_)
          · unfold s16
            refine (State.setLnk_within ..).then ?_
            refine (State.lnkTimer_within ..).then ?_
            exact h13
          clear_value s16
          refine Within.ite ?_ ?_
          · exact h17
          · refine (State.listenOn_within ..).then ?_
            exact h17
  · rename_i v18 v19 v20 v21
    exact .refl

theorem execBeaconWindowClose_within (s : State) :
    OutWithin { parts := [.doms, .flm, .recv, .syn, .mrc, .lnk], pages := [Pg.lnk] } s (execBeaconWindowClose s) := by
  unfold execBeaconWindowClose
  refine OutWithin.next ?_
  split
  · rename_i v1 v2 v3 v4 v5
    refine Within.ite ?_ ?_
    · exact .refl
    · extract_lets +onlyGivenNames s6
      extract_lets +onlyGivenNames s7
      refine Within.cut (x := s7) ?_ (fun h8 => ?_)
      · unfold s7
        refine (State.closeUse_within ..).then ?_
        refine (State.setLnk_within ..).then ?_
        exact .refl
      clear_value s7
      refine Within.ite ?_ ?_
      · refine (State.bcnArm_within ..).then ?_
        exact h8
      · refine (State.bcnLose_within ..).then ?_
        exact h8
  · rename_i v9 v10 v11
    exact .refl

theorem execSearchPassEnd_within (s : State) :
    OutWithin { parts := [.doms, .flm, .recv, .syn, .mrc, .lnk], pages := [Pg.lnk] } s (execSearchPassEnd s) := by
  unfold execSearchPassEnd
  refine OutWithin.next ?_
  extract_lets +onlyGivenNames s1
  refine Within.ite ?_ ?_
  · exact .refl
  · refine Within.ite ?_ ?_
    · refine (State.bcnPass_within ..).then ?_
      exact .refl
    · extract_lets +onlyGivenNames s2
      extract_lets +onlyGivenNames s3
      extract_lets +onlyGivenNames s4
      refine Within.cut (x := s4) ?_ (fun h5 => ?_)
      · unfold s4
        refine (State.setLnk_within ..).then ?_
        exact .refl
      clear_value s4
      refine Within.ite ?_ ?_
      · refine (State.setLnk_within ..).then ?_
        refine (State.closeUse_within ..).then ?_
        refine (State.lnkEvent_within ..).then ?_
        refine (State.event_within ..).then ?_
        exact h5
      · refine (State.bcnPass_within ..).then ?_
        exact h5

theorem execGapGrant_within (waited : Nat) (s : State) : OutWithin { parts := [.syn] } s (execGapGrant waited s) := by
  unfold execGapGrant
  refine OutWithin.next ?_
  extract_lets +onlyGivenNames s1
  extract_lets +onlyGivenNames s2
  extract_lets +onlyGivenNames s3
  refine Within.ite ?_ ?_
  · exact .refl
  · refine Within.ite ?_ ?_
    · refine Within.of_mk ?_
      exact .refl
    · exact .refl

theorem execKeyErase_within (entry : Nat) (flips : List Flip) (s : State) :
    OutWithin { parts := [.doms, .freeCtr, .flm, .drc, .flc, .mrc, .pal], pages := [Pg.drc, Pg.flc, Pg.sec] } s (execKeyErase entry flips s) := by
  unfold execKeyErase
  refine OutWithin.next ?_
  refine State.keyItem_within ?_ (fun s1 a3 b4 h2 => ?_)
  · refine (State.applyFlips_within ..).then ?_
    exact .refl
  · extract_lets +onlyGivenNames s6
    refine Within.ite ?_ ?_
    · refine (State.secDone_within ..).then ?_
      refine (State.loseKey_within ..).then ?_
      exact h2
    · refine Within.ite ?_ ?_
      · refine (State.secDone_within ..).then ?_
        refine (State.loseKey_within ..).then ?_
        refine (State.loseKey_within ..).then ?_
        exact h2
      · refine (State.setPal_within ..).then ?_
        exact h2

theorem execKeyEraseEffect_within (slot : Nat) (s : State) :
    OutWithin { parts := [.flm, .pal] } s (execKeyEraseEffect slot s) := by
  unfold execKeyEraseEffect
  refine OutWithin.next ?_
  split
  · rename_i v1 v2
    exact .refl
  · rename_i v3 v4 v5
    refine Within.ite ?_ ?_
    · exact .refl
    · extract_lets +onlyGivenNames s6
      refine Within.cut (x := s6) ?_ (fun h7 => ?_)
      · unfold s6
        refine (State.setPal_within ..).then ?_
        refine (State.loseKey_within ..).then ?_
        refine (State.loseKey_within ..).then ?_
        exact .refl
      clear_value s6
      refine (State.finish_within ..).then ?_
      exact h7

end Sys2Proof.Machine
end

