-- ==== Sys2Proof/Laws/FrameWake.lean ====
section
/-! SUPPORT. What each operation of Machine/Wake.lean may change, and that it keeps a sound state sound. -/

namespace Sys2Proof.Machine

-- one proof at a time: the file holds many small ones
set_option Elab.async false

theorem State.wrxRssi_within (s : State) (power : Int) : Within { pages := [Pg.wrx] } s (State.wrxRssi s power) := by
  unfold State.wrxRssi
  refine (State.setField_within ..).then ?_
  exact .refl

theorem State.wrxDutyWrite_within (s : State) (ini : Initiator) (v : Word) :
    Within { parts := [.mrc], pages := [Pg.wrx] } s (State.wrxDutyWrite s ini v) := by
  unfold State.wrxDutyWrite
  refine Within.ite ?_ ?_
  · refine (State.raise_within ..).then ?_
    exact .refl
  · refine (State.plainWrite_within ..).then ?_
    exact .refl

theorem execWrxPeriodStart_within (s : State) :
    OutWithin { parts := [.wrx], pages := [Pg.wrx] } s (execWrxPeriodStart s) := by
  unfold execWrxPeriodStart
  refine OutWithin.next ?_
  extract_lets +onlyGivenNames s1
  extract_lets +onlyGivenNames s2
  refine Within.ite ?_ ?_
  · exact .refl
  · extract_lets +onlyGivenNames s3
    extract_lets +onlyGivenNames s4
    refine Within.cut (x := s4) ?_ (fun h5 => ?_)
    · unfold s4
      refine Within.ite ?_ ?_
      · refine (State.setField_within ..).then ?_
        exact .refl
      · exact .refl
    clear_value s4
    refine Within.of_mk ?_
    exact h5

theorem State.wakeE_within (s : State) : Within { parts := [.mrc], pages := [Pg.wrx] } s (State.wakeE s) := by
  unfold State.wakeE
  refine (State.event_within ..).then ?_
  refine (State.setField_within ..).then ?_
  exact .refl

theorem execWrxEnergyDetect_within (power : Int) (s : State) :
    OutWithin { parts := [.wrx, .mrc], pages := [Pg.wrx] } s (execWrxEnergyDetect power s) := by
  unfold execWrxEnergyDetect
  refine OutWithin.next ?_
  refine Within.ite ?_ ?_
  · exact .refl
  · extract_lets +onlyGivenNames s1
    refine Within.cut (x := s1) ?_ (fun h2 => ?_)
    · unfold s1
      refine (State.wrxRssi_within ..).then ?_
      exact .refl
    clear_value s1
    extract_lets +onlyGivenNames s3
    refine Within.ite ?_ ?_
    · exact h2
    · split
      · rename_i v4 v5
        refine (State.wakeE_within ..).then ?_
        exact h2
      · rename_i v6 v7
        unfold s3
        refine Within.of_mk ?_
        exact h2
      · rename_i v8 v9 v10
        unfold s3
        refine Within.of_mk ?_
        refine (State.wakeE_within ..).then ?_
        exact h2

theorem execWrxOnEnd_within (power : Int) (s : State) :
    OutWithin { parts := [.wrx], pages := [Pg.wrx] } s (execWrxOnEnd power s) := by
  unfold execWrxOnEnd
  refine OutWithin.next ?_
  refine Within.ite ?_ ?_
  · exact .refl
  · extract_lets +onlyGivenNames s1
    refine Within.cut (x := s1) ?_ (fun h2 => ?_)
    · unfold s1
      refine (State.wrxRssi_within ..).then ?_
      exact .refl
    clear_value s1
    refine Within.of_mk ?_
    exact h2

theorem execWrxCodeMatch_within (code : Half) (s : State) :
    OutWithin { parts := [.wrx, .mrc], pages := [Pg.wrx] } s (execWrxCodeMatch code s) := by
  unfold execWrxCodeMatch
  refine OutWithin.next ?_
  extract_lets +onlyGivenNames s1
  refine Within.ite ?_ ?_
  · exact .refl
  · extract_lets +onlyGivenNames s2
    refine Within.cut (x := s2) ?_ (fun h3 => ?_)
    · unfold s2
      refine (State.setField_within ..).then ?_
      refine (State.setField_within ..).then ?_
      exact .refl
    clear_value s2
    extract_lets +onlyGivenNames s4
    refine Within.cut (x := s4) ?_ (fun h5 => ?_)
    · unfold s4
      refine (State.count_within ..).then ?_
      refine (State.event_within ..).then ?_
      exact h3
    clear_value s4
    refine Within.of_mk ?_
    exact h5

theorem execWrxHuntTimeout_within (s : State) :
    OutWithin { parts := [.wrx], pages := [Pg.wrx] } s (execWrxHuntTimeout s) := by
  unfold execWrxHuntTimeout
  refine OutWithin.next ?_
  refine Within.ite ?_ ?_
  · exact .refl
  · extract_lets +onlyGivenNames s1
    refine Within.cut (x := s1) ?_ (fun h2 => ?_)
    · unfold s1
      refine (State.count_within ..).then ?_
      exact .refl
    clear_value s1
    refine Within.of_mk ?_
    exact h2

end Sys2Proof.Machine
end

