-- ==== Sys2Proof/Laws/FrameMillrace.lean ====
section
/-! SUPPORT. What each operation of Machine/Millrace.lean may change, and that it keeps a sound state sound. -/

namespace Sys2Proof.Machine

-- one proof at a time: the file holds many small ones
set_option Elab.async false

theorem State.setMrc_within (s : State) (f : Mrc → Mrc) : Within { parts := [.mrc] } s (State.setMrc s f) := by
  unfold State.setMrc
  refine Within.of_mk ?_
  exact .refl

theorem State.setMrcIn_within (s : State) (c : Nat) (x : MrcInput) :
    Within { parts := [.mrc] } s (State.setMrcIn s c x) := by
  unfold State.setMrcIn
  refine (State.setMrc_within ..).then ?_
  exact .refl

theorem State.mrcOverrun_within (s : State) (c : Nat) :
    Within { parts := [.mrc], pages := [Pg.mrc] } s (State.mrcOverrun s c) := by
  unfold State.mrcOverrun
  refine (State.event_within ..).then ?_
  refine (State.setMrcIn_within ..).then ?_
  exact .refl

theorem State.cntInc_within (s : State) (n : Nat) : Within { parts := [.mrc], pages := [Pg.mrc] } s (State.cntInc s n) := by
  unfold State.cntInc
  extract_lets +onlyGivenNames s1
  extract_lets +onlyGivenNames s2
  extract_lets +onlyGivenNames s3
  refine Within.cut (x := s3) ?_ (fun h4 => ?_)
  · unfold s3
    refine (State.setReg_within ..).then ?_
    exact .refl
  clear_value s3
  refine Within.ite ?_ ?_
  · refine (State.pulse_within ..).then ?_
    exact h4
  · exact h4

theorem State.capture_within (s : State) (n : Nat) (late : Bool) :
    Within { parts := [.mrc], pages := [Pg.mrc] } s (State.capture s n late) := by
  unfold State.capture
  extract_lets +onlyGivenNames s1
  refine Within.cut (x := s1) ?_ (fun h2 => ?_)
  · unfold s1
    refine (State.setReg_within ..).then ?_
    exact .refl
  clear_value s1
  extract_lets +onlyGivenNames s3
  refine Within.cut (x := s3) ?_ (fun h4 => ?_)
  · unfold s3
    refine (State.setReg_within ..).then ?_
    exact h2
  clear_value s3
  refine (State.setMrcIn_within ..).then ?_
  exact h4

theorem State.mrcTask_within (s : State) (c : Nat) (late : Bool) :
    Within { parts := [.staged, .claims, .commits, .per, .mrc], all := true } s (State.mrcTask s c late) := by
  unfold State.mrcTask
  refine Within.ite ?_ ?_
  · refine (State.setMrc_within ..).then ?_
    exact .refl
  · refine Within.ite ?_ ?_
    · refine (State.capture_within ..).then ?_
      exact .refl
    · refine Within.ite ?_ ?_
      · exact .refl
      · refine Within.ite ?_ ?_
        · refine (State.event_within ..).then ?_
          exact .refl
        · refine Within.ite ?_ ?_
          · extract_lets +onlyGivenNames s1
            refine Within.ite ?_ ?_
            · refine State.withPins_within ?_ (fun s2 h3 => ?_)
              · exact .refl
              · refine (State.setMrc_within ..).then ?_
                exact h3
            · exact .refl
          · refine Within.ite ?_ ?_
            · refine (State.pwmStart_within ..).then ?_
              refine (State.setMrcIn_within ..).then ?_
              exact .refl
            · refine Within.ite ?_ ?_
              · refine (State.dliTrigger_within ..).then ?_
                exact .refl
              · refine Within.ite ?_ ?_
                · exact .refl
                · refine Within.ite ?_ ?_
                  · refine (State.cntInc_within ..).then ?_
                    exact .refl
                  · refine Within.ite ?_ ?_
                    · refine (State.setMrc_within ..).then ?_
                      refine (State.setReg_within ..).then ?_
                      exact .refl
                    · exact .refl

theorem State.mrcTrigger_within (s : State) (c : Nat) :
    Within { parts := [.staged, .claims, .commits, .doms, .per, .mrc], all := true } s (State.mrcTrigger s c) := by
  unfold State.mrcTrigger
  extract_lets +onlyGivenNames s1
  extract_lets +onlyGivenNames s2
  extract_lets +onlyGivenNames s3
  refine Within.ite ?_ ?_
  · exact .refl
  · refine Within.ite ?_ ?_
    · refine Within.ite ?_ ?_
      · refine (State.mrcOverrun_within ..).then ?_
        exact .refl
      · refine (State.wake_within ..).then ?_
        refine (State.setMrcIn_within ..).then ?_
        exact .refl
    · refine Within.ite ?_ ?_
      · refine (State.mrcOverrun_within ..).then ?_
        exact .refl
      · refine (State.mrcTask_within ..).then ?_
        refine (State.setMrcIn_within ..).then ?_
        exact .refl

theorem State.mrcStep_within (s : State) (c : Nat) (v : Word) (fires : Nat → Bool) :
    Within { parts := [.staged, .claims, .commits, .doms, .per, .mrc], all := true } s (State.mrcStep s c v fires) := by
  unfold State.mrcStep
  extract_lets +onlyGivenNames s1
  refine Within.ite ?_ ?_
  · exact .refl
  · extract_lets +onlyGivenNames s2
    extract_lets +onlyGivenNames s3
    refine Within.cut (x := s3) ?_ (fun h4 => ?_)
    · unfold s3
      refine Within.ite ?_ ?_
      · refine (State.setMrcIn_within ..).then ?_
        exact .refl
      · exact .refl
    clear_value s3
    extract_lets +onlyGivenNames s5
    refine Within.ite ?_ ?_
    · refine Within.ite ?_ ?_
      · refine (State.setMrcIn_within ..).then ?_
        exact h4
      · refine Within.ite ?_ ?_
        · refine (State.mrcOverrun_within ..).then ?_
          exact h4
        · refine (State.setMrcIn_within ..).then ?_
          exact h4
    · refine (State.mrcTrigger_within ..).then ?_
      exact h4

theorem execMrcCaptureWindow_within (s : State) :
    OutWithin { parts := [.staged, .claims, .commits, .doms, .per, .mrc], all := true } s (execMrcCaptureWindow s) := by
  unfold execMrcCaptureWindow
  refine OutWithin.next ?_
  extract_lets +onlyGivenNames s1
  extract_lets +onlyGivenNames s2
  extract_lets +onlyGivenNames s3
  extract_lets +onlyGivenNames s4
  extract_lets +onlyGivenNames s5
  extract_lets +onlyGivenNames s6
  extract_lets +onlyGivenNames s7
  extract_lets +onlyGivenNames s8
  extract_lets +onlyGivenNames s9
  refine Within.cut (x := s9) ?_ (fun h10 => ?_)
  · unfold s9
    refine (State.setMrc_within ..).then ?_
    exact .refl
  clear_value s9
  extract_lets +onlyGivenNames s11
  refine Within.cut (x := s11) ?_ (fun h12 => ?_)
  · unfold s11
    refine Within.foldl (fun s13 a14 h15 => ?_) ?_
    · refine (State.mrcStep_within ..).then ?_
      exact h15
    · exact h10
  clear_value s11
  extract_lets +onlyGivenNames s16
  refine Within.cut (x := s16) ?_ (fun h17 => ?_)
  · unfold s16
    refine Within.foldl (fun s18 a19 h20 => ?_) ?_
    · refine Within.ite ?_ ?_
      · refine (State.setMrcIn_within ..).then ?_
        exact h20
      · exact h20
    · exact h12
  clear_value s16
  refine (State.setMrc_within ..).then ?_
  exact h17

theorem execDeferredTrigger_within (input : Nat) (s : State) :
    OutWithin { parts := [.staged, .claims, .commits, .doms, .per, .mrc], all := true } s (execDeferredTrigger input s) := by
  unfold execDeferredTrigger
  refine OutWithin.next ?_
  extract_lets +onlyGivenNames s1
  refine Within.ite ?_ ?_
  · exact .refl
  · refine (State.mrcTrigger_within ..).then ?_
    refine (State.setMrcIn_within ..).then ?_
    exact .refl

theorem execLatchedTriggerAct_within (input : Nat) (s : State) :
    OutWithin { parts := [.staged, .claims, .commits, .per, .mrc], all := true } s (execLatchedTriggerAct input s) := by
  unfold execLatchedTriggerAct
  refine OutWithin.next ?_
  extract_lets +onlyGivenNames s1
  refine Within.ite ?_ ?_
  · exact .refl
  · refine (State.mrcTask_within ..).then ?_
    refine (State.setMrcIn_within ..).then ?_
    exact .refl

theorem State.swPulses_within (s : State) (v : Word) : Within { parts := [.mrc] } s (State.swPulses s v) := by
  unfold State.swPulses
  refine Within.foldl (fun s1 a2 h3 => ?_) ?_
  · refine Within.ite ?_ ?_
    · refine (State.pulse_within ..).then ?_
      exact h3
    · exact h3
  · exact .refl

theorem State.mrcInWrite_within (s : State) (ini : Initiator) (off : Nat) (v : Word) :
    Within { parts := [.mrc], pages := [Pg.mrc] } s (State.mrcInWrite s ini off v) := by
  unfold State.mrcInWrite
  extract_lets +onlyGivenNames s1
  refine Within.ite ?_ ?_
  · refine (State.lockedErr_within ..).then ?_
    exact .refl
  · refine Within.ite ?_ ?_
    · refine (State.raise_within ..).then ?_
      exact .refl
    · extract_lets +onlyGivenNames s2
      refine (State.setReg_within ..).then ?_
      refine (State.setMrc_within ..).then ?_
      exact .refl

theorem State.instatWrite_within (s : State) (c : Nat) (v : Word) :
    Within { parts := [.mrc] } s (State.instatWrite s c v) := by
  unfold State.instatWrite
  extract_lets +onlyGivenNames s1
  refine (State.setMrcIn_within ..).then ?_
  exact .refl

theorem State.cntWrite_within (s : State) (n : Nat) (v : Word) :
    Within { parts := [.mrc], pages := [Pg.mrc] } s (State.cntWrite s n v) := by
  unfold State.cntWrite
  refine (State.setMrc_within ..).then ?_
  refine (State.setReg_within ..).then ?_
  exact .refl

theorem State.mrcWrite_within (s : State) (ini : Initiator) (off : Nat) (v : Word) :
    OptWithin { parts := [.mrc], pages := [Pg.mrc] } s (State.mrcWrite s ini off v) := by
  unfold State.mrcWrite
  refine OptWithin.ite ?_ ?_
  · refine OptWithin.some ?_
    refine (State.mrcInWrite_within ..).then ?_
    exact .refl
  · refine OptWithin.ite ?_ ?_
    · refine OptWithin.some ?_
      refine (State.instatWrite_within ..).then ?_
      exact .refl
    · refine OptWithin.ite ?_ ?_
      · refine OptWithin.some ?_
        refine (State.swPulses_within ..).then ?_
        exact .refl
      · refine OptWithin.ite ?_ ?_
        · refine OptWithin.some ?_
          refine Within.ite ?_ ?_
          · refine (State.setMrc_within ..).then ?_
            exact .refl
          · exact .refl
        · refine OptWithin.ite ?_ ?_
          · refine OptWithin.some ?_
            refine (State.cntWrite_within ..).then ?_
            exact .refl
          · exact OptWithin.none

theorem State.stampRead_within (s : State) (n : Nat) : Within { parts := [.mrc] } s (State.stampRead s n).2 := by
  unfold State.stampRead
  dsimp only
  refine (State.setMrcIn_within ..).then ?_
  exact .refl

theorem State.mrcRead_within (s : State) (off : Nat) : ReadWithin { parts := [.mrc] } s (State.mrcRead s off) := by
  unfold State.mrcRead
  extract_lets +onlyGivenNames s1
  refine ReadWithin.ite ?_ ?_
  · refine ReadWithin.some ?_
    dsimp only
    exact .refl
  · refine ReadWithin.ite ?_ ?_
    · refine ReadWithin.some ?_
      dsimp only
      exact .refl
    · refine ReadWithin.ite ?_ ?_
      · refine ReadWithin.some ?_
        dsimp only
        exact .refl
      · refine ReadWithin.ite ?_ ?_
        · refine ReadWithin.some ?_
          dsimp only
          exact .refl
        · refine ReadWithin.ite ?_ ?_
          · refine ReadWithin.some ?_
            refine (State.stampRead_within ..).then ?_
            exact .refl
          · exact ReadWithin.none

theorem execSwPulse_within (ini : Initiator) (value : Word) (s : State) :
    OutWithin { parts := [.doms, .replies, .stalls, .debugErr, .mrc], pages := [Pg.mrc, Pg.sec] } s (execSwPulse ini value s) := by
  unfold execSwPulse
  refine OutWithin.next ?_
  refine State.pageWrite_within ?_ (fun s1 h2 => ?_)
  · exact .refl
  · refine (State.swPulses_within ..).then ?_
    exact h2

theorem execSwLevel_within (ini : Initiator) (value : Word) (s : State) :
    OutWithin { parts := [.doms, .replies, .stalls, .debugErr, .mrc], pages := [Pg.mrc, Pg.sec] } s (execSwLevel ini value s) := by
  unfold execSwLevel
  refine OutWithin.next ?_
  refine State.pageWrite_within ?_ (fun s1 h2 => ?_)
  · exact .refl
  · refine (State.plainWrite_within ..).then ?_
    exact h2

theorem execStampRead_within (ini : Initiator) (stamp : Nat) (s : State) :
    OutWithin { parts := [.doms, .replies, .stalls, .debugErr, .mrc], pages := [Pg.mrc, Pg.sec] } s (execStampRead ini stamp s) := by
  unfold execStampRead
  refine OutWithin.next ?_
  refine State.pageRead_within ?_ (fun s1 h2 => ?_)
  · exact .refl
  · refine (State.stampRead_within ..).then ?_
    exact h2

theorem execCntWrite_within (ini : Initiator) (counter : Nat) (value : Word) (s : State) :
    OutWithin { parts := [.doms, .replies, .stalls, .debugErr, .mrc], pages := [Pg.mrc, Pg.sec] } s (execCntWrite ini counter value s) := by
  unfold execCntWrite
  refine OutWithin.next ?_
  refine State.pageWrite_within ?_ (fun s1 h2 => ?_)
  · exact .refl
  · refine (State.cntWrite_within ..).then ?_
    exact h2

theorem State.mrcReset_within (s : State) : Within { parts := [.mrc] } s (State.mrcReset s) := by
  unfold State.mrcReset
  refine (State.setMrc_within ..).then ?_
  exact .refl

end Sys2Proof.Machine
end

