-- ==== Sys2Proof/Laws/FrameEasel.lean ====
section
/-! SUPPORT. What each operation of Machine/Easel.lean may change, and that it keeps a sound state sound. -/

namespace Sys2Proof.Machine

-- one proof at a time: the file holds many small ones
set_option Elab.async false

theorem State.setTag_within (s : State) (f : Tag → Tag) : Within { parts := [.tag] } s (State.setTag s f) := by
  unfold State.setTag
  refine Within.of_mk ?_
  exact .refl

theorem State.tagCount_within (s : State) (hi : Nat) (lo : Nat) (k : Nat) :
    Within { pages := [Pg.tag] } s (State.tagCount s hi lo k) := by
  unfold State.tagCount
  refine (State.count_within ..).then ?_
  exact .refl

theorem State.setTagRec_within (s : State) (r : Nat) (x : TagRec (List Byte)) :
    Within { parts := [.tag] } s (State.setTagRec s r x) := by
  unfold State.setTagRec
  refine (State.setTag_within ..).then ?_
  exact .refl

theorem State.decay_within (s : State) (l : List (Nat × Bool)) : Within { parts := [.tag] } s (State.decay s l) := by
  unfold State.decay
  refine Within.foldl (fun s1 a2 h3 => ?_) ?_
  · split
    rename_i v4 v5 v6
    refine Within.ite ?_ ?_
    · refine (State.setTag_within ..).then ?_
      exact h3
    · refine Within.ite ?_ ?_
      · refine (State.setTagRec_within ..).then ?_
        exact h3
      · exact h3
  · exact .refl

theorem State.tagReload_within (s : State) : Within { pages := [Pg.tag] } s (State.tagReload s) := by
  unfold State.tagReload
  extract_lets +onlyGivenNames s1
  extract_lets +onlyGivenNames s2
  refine Within.cut (x := s2) ?_ (fun h3 => ?_)
  · unfold s2
    refine (State.setField_within ..).then ?_
    exact .refl
  clear_value s2
  refine (State.setReg_within ..).then ?_
  refine (State.setReg_within ..).then ?_
  refine (State.setReg_within ..).then ?_
  refine (State.setReg_within ..).then ?_
  exact h3

theorem State.tagStale_within (s : State) : Within { parts := [.mrc], pages := [Pg.tag] } s (State.tagStale s) := by
  unfold State.tagStale
  refine (State.event_within ..).then ?_
  refine (State.tagCount_within ..).then ?_
  exact .refl

theorem State.writeSys_within (s : State) (y : TagSys) (w : TagWrite) :
    Within { parts := [.tag], pages := [Pg.tag] } s (State.writeSys s y w).1 := by
  unfold State.writeSys
  split
  rename_i v1 v2 v3 v4
  extract_lets +onlyGivenNames s5
  refine Within.cut (x := s5) ?_ (fun h6 => ?_)
  · unfold s5
    refine (State.setTag_within ..).then ?_
    exact .refl
  clear_value s5
  dsimp only
  refine (State.tagReload_within ..).then ?_
  refine Within.ite ?_ ?_
  · refine (State.tagCount_within ..).then ?_
    exact h6
  · exact h6

theorem State.writeRec_within (s : State) (n : Nat) (bs : List Byte) (w : TagWrite) (harvested : Bool) :
    Within { parts := [.tag], pages := [Pg.tag] } s (State.writeRec s n bs w harvested).1 := by
  unfold State.writeRec
  split
  rename_i v1 v2 v3 v4
  extract_lets +onlyGivenNames s5
  refine Within.cut (x := s5) ?_ (fun h6 => ?_)
  · unfold s5
    refine (State.setTagRec_within ..).then ?_
    exact .refl
  clear_value s5
  dsimp only
  refine Within.ite ?_ ?_
  · refine (State.tagCount_within ..).then ?_
    exact h6
  · exact h6

theorem State.tagAnswer_within (s : State) (bs : List Byte) : Within { parts := [.tag] } s (State.tagAnswer s bs) := by
  unfold State.tagAnswer
  refine (State.setTag_within ..).then ?_
  exact .refl

theorem State.tagCommand_within {w : Touch} {s x : State} {auth2 : Bool} {k : State → State}
    (hx : Within w s x) (hk : ∀ y, Within w s y → Within w s (k y))
    (hw : Touch.le { parts := [.tag] } w = true := by first | decide | simp [Touch.le, Touch.bus, Part.but, Part.every]) :
    Within w s (x.tagCommand auth2 k) := by
  have hs : ∀ {v : Touch} {y z : State}, Within v y z → v.le { parts := [.tag] } = true → Within w s y → Within w s z :=
    fun h hv hy => (h.mono hv).step hy hw
  unfold State.tagCommand
  split
  · exact hx
  · refine hk _ ?_
    split
    · exact hx
    · exact hs (State.setTag_within ..) (by decide) hx

theorem execFieldDetect_within (vbatOk : Bool) (decayed : List (Nat × Bool)) (s : State) :
    OutWithin { parts := [.tag, .mrc], pages := [Pg.tag] } s (execFieldDetect vbatOk decayed s) := by
  unfold execFieldDetect
  refine OutWithin.next ?_
  refine Within.ite ?_ ?_
  · exact .refl
  · extract_lets +onlyGivenNames s1
    refine Within.cut (x := s1) ?_ (fun h2 => ?_)
    · unfold s1
      refine (State.event_within ..).then ?_
      refine (State.decay_within ..).then ?_
      exact .refl
    clear_value s1
    extract_lets +onlyGivenNames s3
    refine (State.setTag_within ..).then ?_
    exact h2

theorem execFieldLost_within (s : State) : OutWithin { parts := [.tag] } s (execFieldLost s) := by
  unfold execFieldLost
  refine OutWithin.next ?_
  refine (State.setTag_within ..).then ?_
  exact .refl

theorem execLockoutEnd_within (s : State) : OutWithin { parts := [.tag] } s (execLockoutEnd s) := by
  unfold execLockoutEnd
  refine OutWithin.next ?_
  refine Within.ite ?_ ?_
  · exact .refl
  · refine (State.setTag_within ..).then ?_
    exact .refl

theorem State.tagFailure_within (s : State) (hi : Nat) (lo : Nat) :
    Within { parts := [.tag], pages := [Pg.tag] } s (State.tagFailure s hi lo) := by
  unfold State.tagFailure
  refine (State.setTag_within ..).then ?_
  refine (State.tagCount_within ..).then ?_
  exact .refl

theorem State.tagSecured_within (s : State) : Within { parts := [.tag] } s (State.tagSecured s) := by
  unfold State.tagSecured
  refine (State.setTag_within ..).then ?_
  exact .refl

theorem execCmdInventory_within (n : Nat) (pre : List Byte) (s : State) :
    OutWithin { parts := [.tag] } s (execCmdInventory n pre s) := by
  unfold execCmdInventory
  refine OutWithin.next ?_
  refine State.tagCommand_within ?_ (fun s1 h2 => ?_)
  · exact .refl
  · extract_lets +onlyGivenNames s6
    refine Within.ite ?_ ?_
    · refine (State.setTag_within ..).then ?_
      exact h2
    · exact h2

theorem execCmdSelect_within (id : List Byte) (s : State) : OutWithin { parts := [.tag] } s (execCmdSelect id s) := by
  unfold execCmdSelect
  refine OutWithin.next ?_
  refine State.tagCommand_within ?_ (fun s1 h2 => ?_)
  · exact .refl
  · refine Within.ite ?_ ?_
    · exact h2
    · refine Within.ite ?_ ?_
      · refine (State.tagAnswer_within ..).then ?_
        refine (State.setTag_within ..).then ?_
        exact h2
      · refine (State.setTag_within ..).then ?_
        exact h2

theorem execCmdPwd_within (password : List Byte) (s : State) :
    OutWithin { parts := [.tag], pages := [Pg.tag] } s (execCmdPwd password s) := by
  unfold execCmdPwd
  refine OutWithin.next ?_
  refine State.tagCommand_within ?_ (fun s1 h2 => ?_)
  · exact .refl
  · extract_lets +onlyGivenNames s6
    refine Within.ite ?_ ?_
    · exact h2
    · refine Within.ite ?_ ?_
      · refine (State.tagAnswer_within ..).then ?_
        exact h2
      · refine Within.ite ?_ ?_
        · refine (State.tagAnswer_within ..).then ?_
          refine (State.tagSecured_within ..).then ?_
          exact h2
        · refine (State.tagAnswer_within ..).then ?_
          refine (State.tagFailure_within ..).then ?_
          exact h2

theorem execCmdAuth1_within (ra : List Byte) (s : State) :
    OutWithin { parts := [.freeCtr, .tag] } s (execCmdAuth1 ra s) := by
  unfold execCmdAuth1
  refine OutWithin.next ?_
  refine State.tagCommand_within ?_ (fun s1 h2 => ?_)
  · exact .refl
  · refine Within.ite ?_ ?_
    · exact h2
    · refine Within.ite ?_ ?_
      · refine (State.tagAnswer_within ..).then ?_
        exact h2
      · split
        · rename_i v6 v7
          refine (State.tagAnswer_within ..).then ?_
          exact h2
        · rename_i v8 v9 v10
          split
          rename_i v11 v12 v13 v14
          refine (State.tagAnswer_within ..).then ?_
          refine (State.setTag_within ..).then ?_
          refine Within.snd v14 ?_
          refine (State.freshOctets_within ..).then ?_
          exact h2

theorem execCmdAuth2_within (tr : List Byte) (s : State) :
    OutWithin { parts := [.tag], pages := [Pg.tag] } s (execCmdAuth2 tr s) := by
  unfold execCmdAuth2
  refine OutWithin.next ?_
  refine State.tagCommand_within ?_ (fun s1 h2 => ?_)
  · exact .refl
  · refine Within.ite ?_ ?_
    · exact h2
    · extract_lets +onlyGivenNames s6
      refine Within.ite ?_ ?_
      · refine (State.tagAnswer_within ..).then ?_
        refine (State.tagSecured_within ..).then ?_
        exact h2
      · refine (State.tagAnswer_within ..).then ?_
        refine (State.tagFailure_within ..).then ?_
        exact h2

theorem execCmdRead_within (record : Nat) (offset : Nat) (length : Nat) (decayed : List (Nat × Bool)) (s : State) :
    OutWithin { parts := [.tag, .mrc], pages := [Pg.tag] } s (execCmdRead record offset length decayed s) := by
  unfold execCmdRead
  extract_lets +onlyGivenNames s1
  refine OutWithin.cut (x := s1) ?_ (fun h2 => ?_)
  · unfold s1
    refine (State.decay_within ..).then ?_
    exact .refl
  clear_value s1
  refine OutWithin.next ?_
  refine State.tagCommand_within ?_ (fun s3 h4 => ?_)
  · exact h2
  · refine Within.ite ?_ ?_
    · exact h4
    · refine Within.ite ?_ ?_
      · refine (State.tagAnswer_within ..).then ?_
        exact h4
      · refine Within.ite ?_ ?_
        · extract_lets +onlyGivenNames s8
          refine (State.tagAnswer_within ..).then ?_
          refine Within.ite ?_ ?_
          · refine (State.tagStale_within ..).then ?_
            exact h4
          · exact h4
        · refine Within.ite ?_ ?_
          · refine (State.tagAnswer_within ..).then ?_
            exact h4
          · extract_lets +onlyGivenNames s9
            extract_lets +onlyGivenNames s10
            refine (State.tagAnswer_within ..).then ?_
            refine Within.ite ?_ ?_
            · refine (State.tagStale_within ..).then ?_
              exact h4
            · exact h4

theorem State.fieldWritten_within (s : State) (r : Nat) :
    Within { parts := [.tag, .mrc], pages := [Pg.tag] } s (State.fieldWritten s r) := by
  unfold State.fieldWritten
  extract_lets +onlyGivenNames s1
  refine (State.event_within ..).then ?_
  refine (State.setTag_within ..).then ?_
  exact .refl

theorem execCmdWrite_within (record : Nat) (data : List Byte) (how : TagWrite) (s : State) :
    OutWithin { parts := [.tag, .mrc], pages := [Pg.tag] } s (execCmdWrite record data how s) := by
  unfold execCmdWrite
  refine OutWithin.next ?_
  refine State.tagCommand_within ?_ (fun s1 h2 => ?_)
  · exact .refl
  · extract_lets +onlyGivenNames s6
    refine Within.ite ?_ ?_
    · exact h2
    · refine Within.ite ?_ ?_
      · unfold s6
        refine (State.setTag_within ..).then ?_
        exact h2
      · refine Within.ite ?_ ?_
        · unfold s6
          refine (State.setTag_within ..).then ?_
          exact h2
        · split
          · rename_i v7 v8 v9
            unfold s6
            refine (State.setTag_within ..).then ?_
            refine (State.fieldWritten_within ..).then ?_
            refine Within.fst v9 ?_
            refine (State.writeRec_within ..).then ?_
            exact h2
          · rename_i v10 v11 v12
            unfold s6
            refine (State.setTag_within ..).then ?_
            refine Within.fst v12 ?_
            refine (State.writeRec_within ..).then ?_
            exact h2
          · rename_i v13 v14 v15
            unfold s6
            refine (State.setTag_within ..).then ?_
            refine Within.fst v15 ?_
            refine (State.writeRec_within ..).then ?_
            exact h2
          · rename_i v16 v17 v18
            refine Within.fst v18 ?_
            refine (State.writeRec_within ..).then ?_
            exact h2

theorem execTagReply_within (s : State) : OutWithin { parts := [.tag] } s (execTagReply s) := by
  unfold execTagReply
  refine OutWithin.next ?_
  split
  · rename_i v1 v2 v3
    refine (State.tagAnswer_within ..).then ?_
    refine (State.setTag_within ..).then ?_
    exact .refl
  · rename_i v4 v5
    exact .refl

theorem execCmdHalt_within (s : State) : OutWithin { parts := [.tag] } s (execCmdHalt s) := by
  unfold execCmdHalt
  refine OutWithin.next ?_
  refine State.tagCommand_within ?_ (fun s1 h2 => ?_)
  · exact .refl
  · refine Within.ite ?_ ?_
    · refine (State.setTag_within ..).then ?_
      exact h2
    · exact h2

theorem execDirtyReport_within (s : State) : OutWithin { parts := [.flm, .tag] } s (execDirtyReport s) := by
  unfold execDirtyReport
  refine OutWithin.next ?_
  refine Within.ite ?_ ?_
  · exact .refl
  · split
    · rename_i v1 v2
      exact .refl
    · rename_i v3 v4 v5
      extract_lets +onlyGivenNames s6
      extract_lets +onlyGivenNames s7
      extract_lets +onlyGivenNames s8
      refine Within.cut (x := s8) ?_ (fun h9 => ?_)
      · unfold s8
        refine (State.setTag_within ..).then ?_
        exact .refl
      clear_value s8
      refine (State.report_within ..).then ?_
      exact h9

theorem State.tagEnd_within (s : State) (i : Item) (status : Nat) (r : TagRep) (actual : Nat) (wb : Nat) :
    Within { parts := [.flm] } s (State.tagEnd s i status r actual wb) := by
  unfold State.tagEnd
  refine (State.finish_within ..).then ?_
  exact .refl

theorem State.fieldOn_within {w : Touch} {s x : State} {i : Item} {foreign : Bool} {k : State → State}
    (hx : Within w s x) (hk : ∀ y, Within w s y → Within w s (k y))
    (hw : Touch.le { parts := [.flm, .tag, .mrc], pages := [Pg.tag] } w = true := by first | decide | simp [Touch.le, Touch.bus, Part.but, Part.every]) :
    Within w s (x.fieldOn i foreign k) := by
  have hs : ∀ {v : Touch} {y z : State}, Within v y z → v.le { parts := [.flm, .tag, .mrc], pages := [Pg.tag] } = true → Within w s y → Within w s z :=
    fun h hv hy => (h.mono hv).step hy hw
  unfold State.fieldOn
  split
  · exact hs (State.tagEnd_within ..) (by decide) hx
  · split
    · exact hk _ hx
    · split
      · exact hs (State.tagEnd_within ..) (by decide) (hs (State.event_within ..) (by decide)
          (hs (State.setTag_within ..) (by decide) hx))
      · exact hk _ (hs (State.setTag_within ..) (by decide) hx)

theorem State.tagExchange_within {w : Touch} {s x : State} {i : Item} {cmd : List Byte} {answers : List UpReply} {n0 : Nat} {k : State → List Byte → TagRep → State}
    (hx : Within w s x) (hk : ∀ y bs r, Within w s y → Within w s (k y bs r))
    (hw : Touch.le { parts := [.flm, .tag] } w = true := by first | decide | simp [Touch.le, Touch.bus, Part.but, Part.every]) :
    Within w s (x.tagExchange i cmd answers n0 k) := by
  have hs : ∀ {v : Touch} {y z : State}, Within v y z → v.le { parts := [.flm, .tag] } = true → Within w s y → Within w s z :=
    fun h hv hy => (h.mono hv).step hy hw
  have hy := hs (State.setTag_within x (fun t => { t with sent := (if n0 = 0 then [] else t.sent) ++ [downFrame cmd] })) (by decide) hx
  unfold State.tagExchange
  dsimp only
  split
  · exact hs (State.tagEnd_within ..) (by decide) hy
  · split
    · exact hk _ _ _ hy
    · exact hk _ _ _ hy
    · exact hs (State.tagEnd_within ..) (by decide) hy
    · exact hs (State.tagEnd_within ..) (by decide) hy
    · exact hs (State.tagEnd_within ..) (by decide) hy
    · exact hs (State.tagEnd_within ..) (by decide) hy

theorem State.tagSource_within {w : Touch} {s x : State} {i : Item} {n : Nat} {k : State → List Byte → State}
    (hx : Within w s x) (hk : ∀ y bs, Within w s y → Within w s (k y bs))
    (hw : Touch.le { parts := [.doms, .freeCtr, .flm, .drc, .mrc], pages := [Pg.drc, Pg.flc] } w = true := by first | decide | simp [Touch.le, Touch.bus, Part.but, Part.every]) :
    Within w s (x.tagSource i n k) := by
  have hs : ∀ {v : Touch} {y z : State}, Within v y z → v.le { parts := [.doms, .freeCtr, .flm, .drc, .mrc], pages := [Pg.drc, Pg.flc] } = true → Within w s y → Within w s z :=
    fun h hv hy => (h.mono hv).step hy hw
  have hu := hs (State.unitRead_within x i.addrA n false) (by decide) hx
  unfold State.tagSource
  split <;> rename_i h <;> have hy := Within.fst h hu
  · exact hy
  · exact hs (State.tagEnd_within ..) (by decide) hy
  · split
    · exact hs (State.tagEnd_within ..) (by decide) hy
    · exact hk _ _ hy

theorem State.tagOut_within (s : State) (i : Item) (bs : List Byte) (status : Nat) (r : TagRep) (wb : Nat) :
    Within { parts := [.mem, .doms, .flm, .drc, .mrc], pages := [Pg.drc] } s (State.tagOut s i bs status r wb) := by
  unfold State.tagOut
  split
  · rename_i v1 v2 v3
    refine Within.fst v3 ?_
    refine (State.unitWrite_within ..).then ?_
    exact .refl
  · rename_i v4 v5 v6
    refine (State.tagEnd_within ..).then ?_
    refine Within.fst v6 ?_
    refine (State.unitWrite_within ..).then ?_
    exact .refl
  · rename_i v7 v8 v9 v10 v11
    refine (State.tagEnd_within ..).then ?_
    refine Within.fst v11 ?_
    refine (State.unitWrite_within ..).then ?_
    exact .refl

theorem State.tagDest_within {w : Touch} {s x : State} {i : Item} {n : Nat} {k : State → State}
    (hx : Within w s x) (hk : ∀ y, Within w s y → Within w s (k y))
    (hw : Touch.le { parts := [.doms] } w = true := by first | decide | simp [Touch.le, Touch.bus, Part.but, Part.every]) :
    Within w s (x.tagDest i n k) := by
  have hs : ∀ {v : Touch} {y z : State}, Within v y z → v.le { parts := [.doms] } = true → Within w s y → Within w s z :=
    fun h hv hy => (h.mono hv).step hy hw
  unfold State.tagDest
  split
  · exact hs (State.wake_within ..) (by decide) hx
  · exact hk _ hx

theorem execTagSelect_within (entry : Nat) (foreign : Bool) (answers : List UpReply) (flips : List Flip) (s : State) :
    OutWithin { parts := [.doms, .freeCtr, .flm, .drc, .flc, .tag, .mrc], pages := [Pg.tag, Pg.drc, Pg.flc] } s (execTagSelect entry foreign answers flips s) := by
  unfold execTagSelect
  extract_lets +onlyGivenNames s1
  refine OutWithin.cut (x := s1) ?_ (fun h2 => ?_)
  · unfold s1
    refine (State.applyFlips_within ..).then ?_
    exact .refl
  clear_value s1
  refine OutWithin.next ?_
  split
  · rename_i v3 v4
    exact h2
  · rename_i v5 v6 v7
    refine Within.ite ?_ ?_
    · refine (State.tagEnd_within ..).then ?_
      exact h2
    · refine State.tagSource_within ?_ (fun s8 a10 h9 => ?_)
      · exact h2
      · refine State.fieldOn_within ?_ (fun s13 h14 => ?_)
        · exact h9
        · extract_lets +onlyGivenNames s18
          refine Within.cut (x := s18) ?_ (fun h19 => ?_)
          · unfold s18
            refine (State.setTag_within ..).then ?_
            exact h14
          clear_value s18
          refine State.tagExchange_within ?_ (fun s20 a22 b23 h21 => ?_)
          · exact h19
          · refine (State.tagEnd_within ..).then ?_
            refine (State.setTag_within ..).then ?_
            exact h21

theorem State.withTag_within {w : Touch} {s x : State} {i : Item} {foreign : Bool} {k : State → State}
    (hx : Within w s x) (hk : ∀ y, Within w s y → Within w s (k y))
    (hw : Touch.le { parts := [.flm, .tag, .mrc], pages := [Pg.tag] } w = true := by first | decide | simp [Touch.le, Touch.bus, Part.but, Part.every]) :
    Within w s (x.withTag i foreign k) := by
  have hs : ∀ {v : Touch} {y z : State}, Within v y z → v.le { parts := [.flm, .tag, .mrc], pages := [Pg.tag] } = true → Within w s y → Within w s z :=
    fun h hv hy => (h.mono hv).step hy hw
  unfold State.withTag
  split
  · exact hs (State.tagEnd_within ..) (by decide) hx
  · exact State.fieldOn_within hx hk hw

theorem execTagPassword_within (entry : Nat) (foreign : Bool) (answers : List UpReply) (flips : List Flip) (s : State) :
    OutWithin { parts := [.doms, .freeCtr, .flm, .drc, .flc, .tag, .mrc], pages := [Pg.tag, Pg.drc, Pg.flc] } s (execTagPassword entry foreign answers flips s) := by
  unfold execTagPassword
  extract_lets +onlyGivenNames s1
  refine OutWithin.cut (x := s1) ?_ (fun h2 => ?_)
  · unfold s1
    refine (State.applyFlips_within ..).then ?_
    exact .refl
  clear_value s1
  refine OutWithin.next ?_
  split
  · rename_i v3 v4
    exact h2
  · rename_i v5 v6 v7
    refine Within.ite ?_ ?_
    · refine (State.tagEnd_within ..).then ?_
      exact h2
    · refine State.tagSource_within ?_ (fun s8 a10 h9 => ?_)
      · exact h2
      · refine State.withTag_within ?_ (fun s13 h14 => ?_)
        · exact h9
        · refine State.tagExchange_within ?_ (fun s18 a20 b21 h19 => ?_)
          · exact h14
          · refine (State.tagEnd_within ..).then ?_
            refine (State.setTag_within ..).then ?_
            exact h19

theorem execTagAuthenticate_within (entry : Nat) (foreign : Bool) (first : List UpReply) (second : List UpReply) (s : State) :
    OutWithin { parts := [.doms, .freeCtr, .flm, .tag, .mrc], pages := [Pg.tag] } s (execTagAuthenticate entry foreign first second s) := by
  unfold execTagAuthenticate
  refine OutWithin.next ?_
  split
  · rename_i v1 v2
    exact .refl
  · rename_i v3 v4 v5
    refine Within.ite ?_ ?_
    · refine (State.wake_within ..).then ?_
      exact .refl
    · refine Within.ite ?_ ?_
      · exact .refl
      · extract_lets +onlyGivenNames s6
        extract_lets +onlyGivenNames s7
        refine Within.ite ?_ ?_
        · refine (State.tagEnd_within ..).then ?_
          exact .refl
        · refine State.withTag_within ?_ (fun s8 h9 => ?_)
          · exact .refl
          · split
            · rename_i v13 v14
              refine (State.tagEnd_within ..).then ?_
              exact h9
            · rename_i v15 v16 v17
              split
              rename_i v18 v19 v20 v21
              refine State.tagExchange_within ?_ (fun s22 a24 b25 h23 => ?_)
              · refine Within.snd v21 ?_
                refine (State.random_within ..).then ?_
                exact h9
              · extract_lets +onlyGivenNames s27
                refine Within.ite ?_ ?_
                · refine (State.tagEnd_within ..).then ?_
                  exact h23
                · refine State.tagExchange_within ?_ (fun s28 a30 b31 h29 => ?_)
                  · exact h23
                  · refine (State.tagEnd_within ..).then ?_
                    refine (State.setTag_within ..).then ?_
                    exact h29

theorem execTagRead_within (entry : Nat) (foreign : Bool) (answers : List UpReply) (s : State) :
    OutWithin { parts := [.mem, .doms, .flm, .drc, .tag, .mrc], pages := [Pg.drc, Pg.tag] } s (execTagRead entry foreign answers s) := by
  unfold execTagRead
  refine OutWithin.next ?_
  split
  · rename_i v1 v2
    exact .refl
  · rename_i v3 v4 v5
    extract_lets +onlyGivenNames s6
    extract_lets +onlyGivenNames s7
    refine Within.ite ?_ ?_
    · refine (State.tagEnd_within ..).then ?_
      exact .refl
    · refine State.tagDest_within ?_ (fun s8 h9 => ?_)
      · exact .refl
      · refine State.withTag_within ?_ (fun s13 h14 => ?_)
        · exact h9
        · refine State.tagExchange_within ?_ (fun s18 a20 b21 h19 => ?_)
          · exact h14
          · refine (State.tagOut_within ..).then ?_
            exact h19

theorem execTagWrite_within (entry : Nat) (foreign : Bool) (answers : List UpReply) (flips : List Flip) (s : State) :
    OutWithin { parts := [.doms, .freeCtr, .flm, .drc, .flc, .tag, .mrc], pages := [Pg.tag, Pg.drc, Pg.flc] } s (execTagWrite entry foreign answers flips s) := by
  unfold execTagWrite
  extract_lets +onlyGivenNames s1
  refine OutWithin.cut (x := s1) ?_ (fun h2 => ?_)
  · unfold s1
    refine (State.applyFlips_within ..).then ?_
    exact .refl
  clear_value s1
  refine OutWithin.next ?_
  split
  · rename_i v3 v4
    exact h2
  · rename_i v5 v6 v7
    refine Within.ite ?_ ?_
    · refine (State.tagEnd_within ..).then ?_
      exact h2
    · refine State.tagSource_within ?_ (fun s8 a10 h9 => ?_)
      · exact h2
      · refine State.withTag_within ?_ (fun s13 h14 => ?_)
        · exact h9
        · refine State.tagExchange_within ?_ (fun s18 a20 b21 h19 => ?_)
          · exact h14
          · refine (State.tagEnd_within ..).then ?_
            exact h19

theorem execTagVerifyOrigin_within (entry : Nat) (foreign : Bool) (answers : List UpReply) (flips : List Flip) (s : State) :
    OutWithin { parts := [.doms, .freeCtr, .flm, .drc, .flc, .tag, .mrc], pages := [Pg.tag, Pg.drc, Pg.flc] } s (execTagVerifyOrigin entry foreign answers flips s) := by
  unfold execTagVerifyOrigin
  extract_lets +onlyGivenNames s1
  refine OutWithin.cut (x := s1) ?_ (fun h2 => ?_)
  · unfold s1
    refine (State.applyFlips_within ..).then ?_
    exact .refl
  clear_value s1
  refine OutWithin.next ?_
  split
  · rename_i v3 v4
    exact h2
  · rename_i v5 v6 v7
    refine Within.ite ?_ ?_
    · refine (State.wake_within ..).then ?_
      exact h2
    · refine Within.ite ?_ ?_
      · refine (State.tagEnd_within ..).then ?_
        exact h2
      · refine State.tagSource_within ?_ (fun s8 a10 h9 => ?_)
        · exact h2
        · refine State.withTag_within ?_ (fun s13 h14 => ?_)
          · exact h9
          · refine State.tagExchange_within ?_ (fun s18 a20 b21 h19 => ?_)
            · exact h14
            · extract_lets +onlyGivenNames s23
              refine Within.ite ?_ ?_
              · refine (State.tagEnd_within ..).then ?_
                exact h19
              · refine (State.tagEnd_within ..).then ?_
                exact h19

theorem execTagHalt_within (entry : Nat) (foreign : Bool) (s : State) :
    OutWithin { parts := [.flm, .tag, .mrc], pages := [Pg.tag] } s (execTagHalt entry foreign s) := by
  unfold execTagHalt
  refine OutWithin.next ?_
  split
  · rename_i v1 v2
    exact .refl
  · rename_i v3 v4 v5
    refine State.fieldOn_within ?_ (fun s6 h7 => ?_)
    · exact .refl
    · refine (State.tagEnd_within ..).then ?_
      refine (State.setTag_within ..).then ?_
      exact h7

theorem execTagInventory_within (entry : Nat) (foreign : Bool) (answers : List UpReply) (flips : List Flip) (s : State) :
    OutWithin { parts := [.mem, .doms, .freeCtr, .flm, .drc, .flc, .tag, .mrc], pages := [Pg.drc, Pg.tag, Pg.flc] } s (execTagInventory entry foreign answers flips s) := by
  unfold execTagInventory
  extract_lets +onlyGivenNames s1
  refine OutWithin.cut (x := s1) ?_ (fun h2 => ?_)
  · unfold s1
    refine (State.applyFlips_within ..).then ?_
    exact .refl
  clear_value s1
  refine OutWithin.next ?_
  split
  · rename_i v3 v4
    exact h2
  · rename_i v5 v6 v7
    refine Within.ite ?_ ?_
    · refine (State.tagEnd_within ..).then ?_
      exact h2
    · refine State.tagDest_within ?_ (fun s8 h9 => ?_)
      · exact h2
      · refine State.tagSource_within ?_ (fun s13 a15 h14 => ?_)
        · exact h9
        · extract_lets +onlyGivenNames s18
          refine Within.ite ?_ ?_
          · refine (State.tagEnd_within ..).then ?_
            exact h14
          · refine State.fieldOn_within ?_ (fun s19 h20 => ?_)
            · exact h14
            · extract_lets +onlyGivenNames s24
              extract_lets +onlyGivenNames s25
              refine Within.cut (x := s25) ?_ (fun h26 => ?_)
              · unfold s25
                refine (State.setTag_within ..).then ?_
                exact h20
              clear_value s25
              extract_lets +onlyGivenNames s27
              extract_lets +onlyGivenNames s28
              refine Within.cut (x := s28) ?_ (fun h29 => ?_)
              · unfold s28
                split
                · rename_i v30 v31 v32 v33
                  refine (State.putOctets_within ..).then ?_
                  exact h26
                · rename_i v34 v35
                  exact h26
              clear_value s28
              refine (State.tagOut_within ..).then ?_
              exact h29

theorem execFieldHoldExpire_within (s : State) : OutWithin { parts := [.tag] } s (execFieldHoldExpire s) := by
  unfold execFieldHoldExpire
  refine OutWithin.next ?_
  refine Within.ite ?_ ?_
  · exact .refl
  · refine (State.setTag_within ..).then ?_
    exact .refl

theorem execTagTset_within (entry : Nat) (how : TagWrite) (flips : List Flip) (s : State) :
    OutWithin { parts := [.doms, .freeCtr, .flm, .drc, .flc, .tag, .mrc], pages := [Pg.tag, Pg.drc, Pg.flc] } s (execTagTset entry how flips s) := by
  unfold execTagTset
  extract_lets +onlyGivenNames s1
  refine OutWithin.cut (x := s1) ?_ (fun h2 => ?_)
  · unfold s1
    refine (State.applyFlips_within ..).then ?_
    exact .refl
  clear_value s1
  refine OutWithin.next ?_
  split
  · rename_i v3 v4
    exact h2
  · rename_i v5 v6 v7
    refine Within.ite ?_ ?_
    · refine (State.tagEnd_within ..).then ?_
      exact h2
    · refine State.tagSource_within ?_ (fun s8 a10 h9 => ?_)
      · exact h2
      · extract_lets +onlyGivenNames s13
        refine Within.ite ?_ ?_
        · refine (State.tagEnd_within ..).then ?_
          exact h9
        · refine Within.ite ?_ ?_
          · refine (State.wake_within ..).then ?_
            exact h9
          · extract_lets +onlyGivenNames s14
            refine Within.ite ?_ ?_
            · refine (State.tagEnd_within ..).then ?_
              exact h9
            · extract_lets +onlyGivenNames s15
              extract_lets +onlyGivenNames s16
              extract_lets +onlyGivenNames s17
              extract_lets +onlyGivenNames s18
              extract_lets +onlyGivenNames s19
              split
              · rename_i v20 v21 v22
                refine (State.tagEnd_within ..).then ?_
                refine Within.fst v22 ?_
                refine (State.writeSys_within ..).then ?_
                exact h9
              · rename_i v23 v24 v25 v26 v27
                refine (State.tagEnd_within ..).then ?_
                refine Within.fst v27 ?_
                refine (State.writeSys_within ..).then ?_
                exact h9

theorem State.sreadData_within (n r : Nat) (s : State) : Within { parts := [.freeCtr] } s (State.sreadData n r s).2 := by
  induction n generalizing r s with
  | zero => exact .refl
  | succ n ih =>
    refine (ih (r + 1) _).then ?_
    refine Within.ite₂ ?_ ?_
    · refine (State.freshOctets_within ..).then ?_
      exact .refl
    · exact .refl

theorem execTagSread_within (entry : Nat) (decayed : List (Nat × Bool)) (s : State) :
    OutWithin { parts := [.mem, .doms, .freeCtr, .flm, .drc, .tag, .mrc], pages := [Pg.tag, Pg.drc] } s (execTagSread entry decayed s) := by
  unfold execTagSread
  extract_lets +onlyGivenNames s1
  refine OutWithin.cut (x := s1) ?_ (fun h2 => ?_)
  · unfold s1
    refine (State.decay_within ..).then ?_
    exact .refl
  clear_value s1
  refine OutWithin.next ?_
  split
  · rename_i v3 v4
    exact h2
  · rename_i v5 v6 v7
    extract_lets +onlyGivenNames s8
    extract_lets +onlyGivenNames s9
    refine Within.ite ?_ ?_
    · refine (State.tagEnd_within ..).then ?_
      exact h2
    · refine State.tagDest_within ?_ (fun s10 h11 => ?_)
      · exact h2
      · extract_lets +onlyGivenNames s15
        extract_lets +onlyGivenNames s16
        refine Within.cut (x := s16) ?_ (fun h17 => ?_)
        · unfold s16
          refine Within.foldl (fun s18 a19 h20 => ?_) ?_
          · refine (State.tagStale_within ..).then ?_
            exact h20
          · exact h11
        clear_value s16
        split
        rename_i v21 v22 v23 v24
        refine (State.tagOut_within ..).then ?_
        refine Within.snd v24 ?_
        refine (State.sreadData_within ..).then ?_
        exact h17

theorem State.swriteAll_within (bss : List (List Byte)) (r : Nat) (how : List TagWrite) (k : Nat) (s : State) :
    Within { parts := [.tag], pages := [Pg.tag] } s (State.swriteAll bss r how k s).1 := by
  induction bss generalizing r how k s with
  | nil => exact .refl
  | cons bs more ih =>
    have hw := State.writeRec_within s r bs (how.headD ⟨0, 3, none⟩) false
    unfold State.swriteAll
    split <;> rename_i h <;> have hy := Within.fst h hw
    · refine (ih ..).then ?_
      exact hy
    · exact hy

theorem execTagSwrite_within (entry : Nat) (how : List TagWrite) (flips : List Flip) (s : State) :
    OutWithin { parts := [.doms, .freeCtr, .flm, .drc, .flc, .tag, .mrc], pages := [Pg.tag, Pg.drc, Pg.flc] } s (execTagSwrite entry how flips s) := by
  unfold execTagSwrite
  extract_lets +onlyGivenNames s1
  refine OutWithin.cut (x := s1) ?_ (fun h2 => ?_)
  · unfold s1
    refine (State.applyFlips_within ..).then ?_
    exact .refl
  clear_value s1
  refine OutWithin.next ?_
  split
  · rename_i v3 v4
    exact h2
  · rename_i v5 v6 v7
    extract_lets +onlyGivenNames s8
    refine Within.ite ?_ ?_
    · refine (State.tagEnd_within ..).then ?_
      exact h2
    · refine State.tagSource_within ?_ (fun s9 a11 h10 => ?_)
      · exact h2
      · split
        rename_i v14 v15 v16 v17 v18
        refine (State.tagEnd_within ..).then ?_
        refine Within.fst v18 ?_
        refine (State.swriteAll_within ..).then ?_
        exact h10

theorem State.tagSwitch_within (s : State) (c : Commit) (mismatches : Nat) :
    Within { parts := [.staged, .claims, .commits, .tag, .mrc], all := true } s (State.tagSwitch s c mismatches) := by
  unfold State.tagSwitch
  refine Within.ite ?_ ?_
  · extract_lets +onlyGivenNames s1
    extract_lets +onlyGivenNames s2
    extract_lets +onlyGivenNames s3
    split
    · rename_i v4 v5 v6
      refine (State.tagReload_within ..).then ?_
      refine (State.switchCommit_within ..).then ?_
      refine Within.fst v6 ?_
      refine (State.writeSys_within ..).then ?_
      exact .refl
    · rename_i v7 v8 v9 v10 v11
      refine Within.fst v11 ?_
      refine (State.writeSys_within ..).then ?_
      exact .refl
  · refine (State.switchCommit_within ..).then ?_
    exact .refl

theorem State.dirtyWrite_within (s : State) (base : Nat) (v : Word) :
    Within { parts := [.tag] } s (State.dirtyWrite s base v) := by
  unfold State.dirtyWrite
  refine (State.setTag_within ..).then ?_
  exact .refl

theorem State.readerStops_within (s : State) : Within { parts := [.tag] } s (State.readerStops s) := by
  unfold State.readerStops
  refine (State.setTag_within ..).then ?_
  exact .refl

theorem State.tagPageReset_within (s : State) : Within { parts := [.tag], pages := [Pg.tag] } s (State.tagPageReset s) := by
  unfold State.tagPageReset
  refine (State.tagReload_within ..).then ?_
  refine (State.setTag_within ..).then ?_
  refine (State.readerStops_within ..).then ?_
  exact .refl

end Sys2Proof.Machine
end

