-- ==== Sys2Proof/Laws/FrameNand.lean ====
section
/-! SUPPORT. What each operation of Machine/Nand.lean may change, and that it keeps a sound state sound. -/

namespace Sys2Proof.Machine

-- one proof at a time: the file holds many small ones
set_option Elab.async false

theorem State.setNmc_within (s : State) (f : Nand → Nand) : Within { parts := [.nmc] } s (State.setNmc s f) := by
  unfold State.setNmc
  refine Within.of_mk ?_
  exact .refl

theorem State.setBlk_within (s : State) (k : Nat) (x : NandBlk) : Within { parts := [.nmc] } s (State.setBlk s k x) := by
  unfold State.setBlk
  refine (State.setNmc_within ..).then ?_
  exact .refl

theorem State.nmcSwitch_within (s : State) (c : Commit) :
    Within { parts := [.staged, .claims, .commits, .mrc], all := true } s (State.nmcSwitch s c) := by
  unfold State.nmcSwitch
  refine Within.ite ?_ ?_
  · refine (State.switchCommit_within ..).then ?_
    exact .refl
  · exact .refl

theorem State.nmcReport_within (s : State) (event : Nat) (t : Nat) (status : Nat) (w6 : Nat) (w7 : Nat) :
    Within { parts := [.flm] } s (State.nmcReport s event t status w6 w7) := by
  unfold State.nmcReport
  extract_lets +onlyGivenNames s1
  refine Within.ite ?_ ?_
  · refine (State.report_within ..).then ?_
    exact .refl
  · exact .refl

theorem State.checkSpare_within (s : State) (t : Nat) :
    Within { parts := [.flm, .nmc, .mrc], pages := [Pg.nmc] } s (State.checkSpare s t) := by
  unfold State.checkSpare
  extract_lets +onlyGivenNames s1
  extract_lets +onlyGivenNames s2
  extract_lets +onlyGivenNames s3
  refine Within.ite ?_ ?_
  · refine (State.nmcReport_within ..).then ?_
    refine (State.event_within ..).then ?_
    refine (State.setNmc_within ..).then ?_
    exact .refl
  · refine Within.ite ?_ ?_
    · refine (State.setNmc_within ..).then ?_
      exact .refl
    · exact .refl

theorem State.goReadonly_within (s : State) (t : Nat) :
    Within { parts := [.flm, .nmc, .mrc], pages := [Pg.nmc] } s (State.goReadonly s t) := by
  unfold State.goReadonly
  refine Within.ite ?_ ?_
  · refine (State.nmcReport_within ..).then ?_
    refine (State.event_within ..).then ?_
    refine (State.setNmc_within ..).then ?_
    exact .refl
  · exact .refl

theorem State.openBlock_within (s : State) (t : Nat) (choice : Nat) :
    Within { parts := [.flm, .nmc, .mrc], pages := [Pg.nmc] } s (State.openBlock s t choice).1 := by
  unfold State.openBlock
  split
  · rename_i v1 v2 v3
    dsimp only
    exact .refl
  · rename_i v4 v5
    split
    · rename_i v6 v7 v8
      dsimp only
      refine (State.checkSpare_within ..).then ?_
      refine (State.setNmc_within ..).then ?_
      exact .refl
    · rename_i v9 v10
      dsimp only
      refine (State.goReadonly_within ..).then ?_
      exact .refl

theorem State.nandEnd_within (s : State) (i : Item) (status : Nat) (actual : Nat) (r : NandRep) :
    Within { parts := [.flm] } s (State.nandEnd s i status actual r) := by
  unfold State.nandEnd
  refine (State.finish_within ..).then ?_
  exact .refl

theorem State.withMap_within {w : Touch} {s x : State} {i : Item} {k : State → State}
    (hx : Within w s x) (hk : ∀ y, Within w s y → Within w s (k y))
    (hw : Touch.le { parts := [.doms, .flm, .nmc] } w = true := by first | decide | simp [Touch.le, Touch.bus, Part.but, Part.every]) :
    Within w s (x.withMap i k) := by
  have hs : ∀ {v : Touch} {y z : State}, Within v y z → v.le { parts := [.doms, .flm, .nmc] } = true → Within w s y → Within w s z :=
    fun h hv hy => (h.mono hv).step hy hw
  unfold State.withMap
  split
  · exact hk _ hx
  · exact hs (State.wake_within ..) (by decide) hx
  · exact hs (State.setNmc_within ..) (by decide) (hs (State.nandEnd_within ..) (by decide) hx)

theorem State.withMapFor_within {w : Touch} {s x : State} {k l : State → State}
    (hx : Within w s x) (hk : ∀ y, Within w s y → Within w s (k y)) (hl : ∀ y, Within w s y → Within w s (l y))
    (hw : Touch.le { parts := [.doms, .nmc] } w = true := by first | decide | simp [Touch.le, Touch.bus, Part.but, Part.every]) :
    Within w s (x.withMapFor k l) := by
  have hs : ∀ {v : Touch} {y z : State}, Within v y z → v.le { parts := [.doms, .nmc] } = true → Within w s y → Within w s z :=
    fun h hv hy => (h.mono hv).step hy hw
  unfold State.withMapFor
  split
  · exact hk _ hx
  · exact hs (State.wake_within ..) (by decide) hx
  · exact hs (State.setNmc_within ..) (by decide) (hl _ hx)

theorem State.mapEntry_within (s : State) (lpn : Nat) :
    Within { parts := [.mem, .doms, .freeCtr, .flm, .drc, .mrc], pages := [Pg.drc] } s (State.mapEntry s lpn) := by
  unfold State.mapEntry
  split
  rename_i v1 v2 v3 v4
  refine (State.putOctets_within ..).then ?_
  refine Within.snd v4 ?_
  refine (State.fresh_within ..).then ?_
  exact .refl

theorem State.nandSchedule_within (s : State) (k : Nat) (c : RelocCause) :
    Within { parts := [.nmc] } s (State.nandSchedule s k c) := by
  unfold State.nandSchedule
  refine Within.ite ?_ ?_
  · exact .refl
  · refine (State.setNmc_within ..).then ?_
    exact .refl

theorem State.noteRead_within (s : State) (k : Nat) (most : Nat) :
    Within { parts := [.nmc] } s (State.noteRead s k most) := by
  unfold State.noteRead
  extract_lets +onlyGivenNames s1
  extract_lets +onlyGivenNames s2
  refine Within.cut (x := s2) ?_ (fun h3 => ?_)
  · unfold s2
    refine (State.setBlk_within ..).then ?_
    exact .refl
  clear_value s2
  extract_lets +onlyGivenNames s4
  extract_lets +onlyGivenNames s5
  extract_lets +onlyGivenNames s6
  refine Within.cut (x := s6) ?_ (fun h7 => ?_)
  · unfold s6
    refine Within.ite ?_ ?_
    · refine (State.nandSchedule_within ..).then ?_
      exact h3
    · exact h3
  clear_value s6
  refine Within.ite ?_ ?_
  · refine (State.nandSchedule_within ..).then ?_
    exact h7
  · exact h7

theorem State.poisonPage_within (s : State) (lpn : Nat) (g : NandPage) :
    Within { parts := [.flm, .nmc, .mrc], pages := [Pg.nmc] } s (State.poisonPage s lpn g) := by
  unfold State.poisonPage
  extract_lets +onlyGivenNames s1
  refine Within.cut (x := s1) ?_ (fun h2 => ?_)
  · unfold s1
    refine (State.setNmc_within ..).then ?_
    exact .refl
  clear_value s1
  extract_lets +onlyGivenNames s3
  refine Within.cut (x := s3) ?_ (fun h4 => ?_)
  · unfold s3
    refine (State.nmcReport_within ..).then ?_
    refine (State.event_within ..).then ?_
    exact h2
  clear_value s3
  refine (State.nandSchedule_within ..).then ?_
  exact h4

theorem State.readLpn_within (s : State) (w : NandScan) (lpn : Nat) :
    Within { parts := [.flm, .nmc, .mrc], pages := [Pg.nmc] } s (State.readLpn s w lpn).1 := by
  unfold State.readLpn
  split
  · rename_i v1 v2 v3
    dsimp only
    exact .refl
  · rename_i v4 v5
    split
    · rename_i v6 v7
      dsimp only
      exact .refl
    · rename_i v8 v9 v10 v11
      extract_lets +onlyGivenNames s12
      extract_lets +onlyGivenNames s13
      split
      · rename_i v14 v15 v16
        extract_lets +onlyGivenNames s17
        refine Within.cut (x := s17) ?_ (fun h18 => ?_)
        · unfold s17
          refine (State.noteRead_within ..).then ?_
          exact .refl
        clear_value s17
        extract_lets +onlyGivenNames s19
        dsimp only
        exact h18
      · rename_i v20 v21 v22
        extract_lets +onlyGivenNames s23
        refine Within.cut (x := s23) ?_ (fun h24 => ?_)
        · unfold s23
          refine (State.poisonPage_within ..).then ?_
          refine (State.noteRead_within ..).then ?_
          exact .refl
        clear_value s23
        dsimp only
        exact h24

theorem execNandRead_within (entry : Nat) (ecc : List NandEcc) (s : State) :
    OutWithin { parts := [.mem, .doms, .flm, .drc, .nmc, .mrc], pages := [Pg.nmc, Pg.drc] } s (execNandRead entry ecc s) := by
  unfold execNandRead
  refine OutWithin.next ?_
  split
  · rename_i v1 v2
    exact .refl
  · rename_i v3 v4 v5
    refine Within.ite ?_ ?_
    · refine (State.nandEnd_within ..).then ?_
      exact .refl
    · refine State.withMap_within ?_ (fun s6 h7 => ?_)
      · exact .refl
      · split
        · rename_i v11 v12 v13
          refine (State.wake_within ..).then ?_
          exact h7
        · rename_i v14 v15
          split
          rename_i v16 v17 v18 v19
          split
          rename_i v20 v21 v22 v23
          extract_lets +onlyGivenNames s24
          extract_lets +onlyGivenNames s25
          refine (State.nandEnd_within ..).then ?_
          refine Within.fst v23 ?_
          refine (State.putOctets_within ..).then ?_
          refine Within.fst v19 ?_
          refine Within.foldl₁ (fun s26 a27 h28 => ?_) ?_
          · refine (State.readLpn_within ..).then ?_
            exact h28
          · dsimp only
            exact h7
        · rename_i v29 v30 v31
          refine (State.nandEnd_within ..).then ?_
          exact h7

theorem State.takeWb_within (s : State) (ps : List WbPage) : Within { parts := [.nmc] } s (State.takeWb s ps) := by
  unfold State.takeWb
  refine (State.setNmc_within ..).then ?_
  exact .refl

theorem State.refuseProgram_within (s : State) (i : Item) (status : Nat) (r : NandRep) :
    Within { parts := [.flm, .nmc] } s (State.refuseProgram s i status r) := by
  unfold State.refuseProgram
  refine (State.nandEnd_within ..).then ?_
  refine (State.setNmc_within ..).then ?_
  exact .refl

theorem State.refuseJob_within (s : State) (entry : Nat) (lpn : Nat) :
    Within { parts := [.flm, .nmc] } s (State.refuseJob s entry lpn) := by
  unfold State.refuseJob
  split
  · rename_i v1 v2 v3
    refine (State.refuseProgram_within ..).then ?_
    exact .refl
  · rename_i v4 v5
    exact .refl

theorem State.startProgram_within (s : State) (t : Nat) (choice : Nat) :
    Within { parts := [.flm, .nmc, .mrc], pages := [Pg.nmc] } s (State.startProgram s t choice) := by
  unfold State.startProgram
  refine Within.ite ?_ ?_
  · exact .refl
  · split
    · rename_i v1 v2
      exact .refl
    · rename_i v3 v4 v5 v6
      split
      · rename_i v7 v8 v9 v10
        extract_lets +onlyGivenNames s11
        refine (State.setNmc_within ..).then ?_
        refine (State.takeWb_within ..).then ?_
        refine Within.fst v10 ?_
        refine (State.openBlock_within ..).then ?_
        exact .refl
      · rename_i v12 v13 v14
        refine Within.foldl (fun s15 a16 h17 => ?_) ?_
        · split
          · rename_i v18 v19 v20
            refine (State.refuseJob_within ..).then ?_
            exact h17
          · rename_i v21 v22
            exact h17
        · refine Within.fst v14 ?_
          refine (State.openBlock_within ..).then ?_
          exact .refl

theorem State.nandStart_within (s : State) (choice : Nat) :
    Within { parts := [.flm, .nmc, .mrc], pages := [Pg.nmc] } s (State.nandStart s choice) := by
  unfold State.nandStart
  refine Within.ite ?_ ?_
  · exact .refl
  · refine Within.foldl (fun s1 a2 h3 => ?_) ?_
    · extract_lets +onlyGivenNames s4
      refine Within.cut (x := s4) ?_ (fun h5 => ?_)
      · unfold s4
        refine Within.ite ?_ ?_
        · refine (State.startProgram_within ..).then ?_
          exact h3
        · exact h3
      clear_value s4
      refine Within.ite ?_ ?_
      · exact h5
      · split
        · rename_i v6 v7 v8
          refine (State.setNmc_within ..).then ?_
          exact h5
        · rename_i v9 v10
          exact h5
    · exact .refl

theorem State.bufferPages_within (ds : List (List Byte)) (lpn : Nat) (item : Option Nat) (s : State) :
    Within { parts := [.nmc] } s (State.bufferPages ds lpn item s) := by
  induction ds generalizing lpn s with
  | nil => exact .refl
  | cons d ds ih =>
    unfold State.bufferPages
    dsimp only
    split
    · refine (ih ..).then ?_
      refine (State.setNmc_within ..).then ?_
      exact .refl
    · exact .refl

theorem State.noteCopied_within (s : State) (i : Item) (n : Nat) (migrated : Bool) :
    Within { parts := [.nmc] } s (State.noteCopied s i n migrated) := by
  unfold State.noteCopied
  extract_lets +onlyGivenNames s1
  refine Within.ite ?_ ?_
  · refine (State.setNmc_within ..).then ?_
    exact .refl
  · refine (State.setNmc_within ..).then ?_
    exact .refl

theorem execNandProgram_within (entry : Nat) (choice : Nat) (flips : List Flip) (s : State) :
    OutWithin { parts := [.doms, .freeCtr, .flm, .drc, .flc, .nmc, .mrc], pages := [Pg.drc, Pg.flc, Pg.nmc] } s (execNandProgram entry choice flips s) := by
  unfold execNandProgram
  extract_lets +onlyGivenNames s1
  refine OutWithin.cut (x := s1) ?_ (fun h2 => ?_)
  · unfold s1
    refine (State.applyFlips_within ..).then ?_
    exact .refl
  clear_value s1
  refine OutWithin.next ?_
  split
  · rename_i v3 v4
    exact h2
  · rename_i v5 v6 v7
    refine Within.ite ?_ ?_
    · refine (State.nandEnd_within ..).then ?_
      exact h2
    · refine State.withMap_within ?_ (fun s8 h9 => ?_)
      · exact h2
      · extract_lets +onlyGivenNames s13
        extract_lets +onlyGivenNames s14
        split
        · rename_i v15 v16 v17 v18
          refine (State.wake_within ..).then ?_
          exact h9
        · rename_i v19 v20 v21
          refine (State.refuseProgram_within ..).then ?_
          exact h9
        · rename_i v22 v23 v24 v25
          refine (State.refuseProgram_within ..).then ?_
          exact h9
        · rename_i v26 v27 v28 v29 v30 v31 v32
          refine Within.fst v29 ?_
          refine (State.unitRead_within ..).then ?_
          exact h9
        · rename_i v33 v34 v35 v36 v37 v38 v39
          refine (State.refuseProgram_within ..).then ?_
          refine Within.fst v36 ?_
          refine (State.unitRead_within ..).then ?_
          exact h9
        · rename_i v40 v41 v42 v43 v44 v45 v46 v47 v48
          split
          · rename_i v49 v50
            refine (State.refuseProgram_within ..).then ?_
            refine Within.fst v45 ?_
            refine (State.unitRead_within ..).then ?_
            exact h9
          · rename_i v51 v52 v53
            refine Within.ite ?_ ?_
            · refine (State.refuseProgram_within ..).then ?_
              refine Within.fst v45 ?_
              refine (State.unitRead_within ..).then ?_
              exact h9
            · refine (State.nandStart_within ..).then ?_
              refine (State.noteCopied_within ..).then ?_
              refine (State.bufferPages_within ..).then ?_
              refine Within.fst v45 ?_
              refine (State.unitRead_within ..).then ?_
              exact h9

theorem execWbHoldExpire_within (target : Nat) (choice : Nat) (s : State) :
    OutWithin { parts := [.flm, .nmc, .mrc], pages := [Pg.nmc] } s (execWbHoldExpire target choice s) := by
  unfold execWbHoldExpire
  refine OutWithin.next ?_
  refine Within.ite ?_ ?_
  · refine (State.startProgram_within ..).then ?_
    exact .refl
  · exact .refl

theorem State.pageDone_within (s : State) (entry : Nat) : Within { parts := [.flm, .nmc] } s (State.pageDone s entry) := by
  unfold State.pageDone
  split
  · rename_i v1 v2 v3 v4 v5 v6
    refine Within.ite ?_ ?_
    · extract_lets +onlyGivenNames s7
      refine (State.nandEnd_within ..).then ?_
      refine (State.setNmc_within ..).then ?_
      exact .refl
    · refine (State.setNmc_within ..).then ?_
      exact .refl
  · rename_i v8 v9 v10
    exact .refl

theorem State.mapPage_within (s : State) (t : Nat) (b : Nat) (p : WbPage) :
    Within { parts := [.mem, .doms, .freeCtr, .flm, .drc, .nmc, .mrc], pages := [Pg.drc] } s (State.mapPage s t b p) := by
  unfold State.mapPage
  extract_lets +onlyGivenNames s1
  refine Within.ite ?_ ?_
  · refine (State.mapEntry_within ..).then ?_
    refine (State.setNmc_within ..).then ?_
    exact .refl
  · exact .refl

theorem State.usePage_within (s : State) (t : Nat) (b : Nat) : Within { parts := [.nmc] } s (State.usePage s t b) := by
  unfold State.usePage
  extract_lets +onlyGivenNames s1
  extract_lets +onlyGivenNames s2
  extract_lets +onlyGivenNames s3
  refine Within.cut (x := s3) ?_ (fun h4 => ?_)
  · unfold s3
    refine (State.setBlk_within ..).then ?_
    exact .refl
  clear_value s3
  refine Within.ite ?_ ?_
  · refine (State.setNmc_within ..).then ?_
    exact h4
  · exact h4

theorem State.moveBlock_within (s : State) (t : Nat) (b : Nat) (choice : Nat) (lost : List Nat) :
    Within { parts := [.mem, .doms, .freeCtr, .flm, .drc, .nmc, .mrc], pages := [Pg.nmc, Pg.drc] } s (State.moveBlock s t b choice lost) := by
  unfold State.moveBlock
  extract_lets +onlyGivenNames s1
  refine Within.ite ?_ ?_
  · exact .refl
  · split
    · rename_i v2 v3
      refine (State.goReadonly_within ..).then ?_
      exact .refl
    · rename_i v4 v5 v6
      extract_lets +onlyGivenNames s7
      refine Within.cut (x := s7) ?_ (fun h8 => ?_)
      · unfold s7
        refine Within.foldl (fun s9 a10 h11 => ?_) ?_
        · extract_lets +onlyGivenNames s12
          extract_lets +onlyGivenNames s13
          extract_lets +onlyGivenNames s14
          refine Within.cut (x := s14) ?_ (fun h15 => ?_)
          · unfold s14
            refine Within.ite ?_ ?_
            · refine (State.nmcReport_within ..).then ?_
              refine (State.event_within ..).then ?_
              exact h11
            · exact h11
          clear_value s14
          refine (State.mapEntry_within ..).then ?_
          refine (State.setNmc_within ..).then ?_
          exact h15
        · exact .refl
      clear_value s7
      extract_lets +onlyGivenNames s16
      extract_lets +onlyGivenNames s17
      extract_lets +onlyGivenNames s18
      refine Within.cut (x := s18) ?_ (fun h19 => ?_)
      · unfold s18
        refine (State.setBlk_within ..).then ?_
        exact h8
      clear_value s18
      extract_lets +onlyGivenNames s20
      refine Within.cut (x := s20) ?_ (fun h21 => ?_)
      · unfold s20
        refine Within.ite ?_ ?_
        · refine (State.setNmc_within ..).then ?_
          exact h19
        · exact h19
      clear_value s20
      refine (State.checkSpare_within ..).then ?_
      exact h21

theorem State.growBad_within (s : State) (t : Nat) (b : Nat) : Within { parts := [.nmc] } s (State.growBad s t b) := by
  unfold State.growBad
  extract_lets +onlyGivenNames s1
  refine (State.setNmc_within ..).then ?_
  refine (State.setBlk_within ..).then ?_
  exact .refl

theorem State.retireReport_within (s : State) (t : Nat) (b : Nat) (cause : Nat) :
    Within { parts := [.flm, .nmc, .mrc], pages := [Pg.nmc] } s (State.retireReport s t b cause) := by
  unfold State.retireReport
  refine (State.checkSpare_within ..).then ?_
  refine (State.nmcReport_within ..).then ?_
  refine (State.event_within ..).then ?_
  refine (State.count_within ..).then ?_
  exact .refl

theorem State.retireBlock_within (s : State) (t : Nat) (b : Nat) (cause : Nat) :
    Within { parts := [.flm, .nmc, .mrc], pages := [Pg.nmc] } s (State.retireBlock s t b cause) := by
  unfold State.retireBlock
  refine (State.retireReport_within ..).then ?_
  refine (State.growBad_within ..).then ?_
  exact .refl

theorem State.wearOut_within (s : State) (t : Nat) (b : Nat) :
    Within { parts := [.flm, .nmc, .mrc], pages := [Pg.nmc] } s (State.wearOut s t b) := by
  unfold State.wearOut
  refine (State.retireBlock_within ..).then ?_
  refine (State.nmcReport_within ..).then ?_
  refine (State.event_within ..).then ?_
  exact .refl

theorem State.jobRetired_within (s : State) (entry : Nat) : Within { parts := [.nmc] } s (State.jobRetired s entry) := by
  unfold State.jobRetired
  refine (State.setNmc_within ..).then ?_
  exact .refl

theorem State.nandCutItems_within (s : State) (entries : List Nat) :
    Within { parts := [.flm, .nmc] } s (State.nandCutItems s entries) := by
  unfold State.nandCutItems
  refine Within.foldl (fun s1 a2 h3 => ?_) ?_
  · split
    · rename_i v4 v5 v6
      split
      · rename_i v7 v8 v9
        refine Within.ite ?_ ?_
        · refine (State.finish_within ..).then ?_
          refine (State.setNmc_within ..).then ?_
          exact h3
        · exact h3
      · rename_i v10 v11
        exact h3
    · rename_i v12 v13
      exact h3
  · exact .refl

theorem State.opUnmapped_within (s : State) (o : NandOp) : Within { parts := [.flm, .nmc] } s (State.opUnmapped s o) := by
  unfold State.opUnmapped
  extract_lets +onlyGivenNames s1
  refine Within.cut (x := s1) ?_ (fun h2 => ?_)
  · unfold s1
    refine (State.setNmc_within ..).then ?_
    exact .refl
  clear_value s1
  refine Within.foldl (fun s3 a4 h5 => ?_) ?_
  · split
    · rename_i v6 v7 v8
      refine (State.refuseProgram_within ..).then ?_
      exact h5
    · rename_i v9 v10
      exact h5
  · exact h2

theorem execNandOpDone_within (target : Nat) (failed : Bool) (choice : Nat) (s : State) :
    OutWithin { parts := [.mem, .doms, .freeCtr, .flm, .drc, .nmc, .mrc], pages := [Pg.nmc, Pg.drc] } s (execNandOpDone target failed choice s) := by
  unfold execNandOpDone
  refine OutWithin.next ?_
  split
  · rename_i v1 v2
    exact .refl
  · rename_i v3 v4 v5
    refine State.withMapFor_within ?_ (fun s6 h7 => ?_) (fun s6 h7 => ?_)
    · exact .refl
    · extract_lets +onlyGivenNames s11
      refine Within.cut (x := s11) ?_ (fun h12 => ?_)
      · unfold s11
        refine (State.setNmc_within ..).then ?_
        exact h7
      clear_value s11
      extract_lets +onlyGivenNames s13
      extract_lets +onlyGivenNames s14
      refine Within.ite ?_ ?_
      · refine Within.ite ?_ ?_
        · refine (State.nandStart_within ..).then ?_
          refine (State.retireBlock_within ..).then ?_
          exact h12
        · extract_lets +onlyGivenNames s15
          extract_lets +onlyGivenNames s16
          refine Within.cut (x := s16) ?_ (fun h17 => ?_)
          · unfold s16
            refine (State.setBlk_within ..).then ?_
            exact h12
          clear_value s16
          extract_lets +onlyGivenNames s18
          refine Within.cut (x := s18) ?_ (fun h19 => ?_)
          · unfold s18
            refine (State.setNmc_within ..).then ?_
            exact h17
          clear_value s18
          refine (State.nandStart_within ..).then ?_
          refine Within.ite ?_ ?_
          · refine (State.wearOut_within ..).then ?_
            exact h19
          · exact h19
      · refine Within.ite ?_ ?_
        · extract_lets +onlyGivenNames s20
          extract_lets +onlyGivenNames s21
          refine Within.cut (x := s21) ?_ (fun h22 => ?_)
          · unfold s21
            refine (State.retireReport_within ..).then ?_
            refine (State.moveBlock_within ..).then ?_
            refine (State.growBad_within ..).then ?_
            exact h12
          clear_value s21
          extract_lets +onlyGivenNames s23
          refine Within.cut (x := s23) ?_ (fun h24 => ?_)
          · unfold s23
            refine Within.foldl (fun s25 a26 h27 => ?_) ?_
            · refine (State.jobRetired_within ..).then ?_
              exact h27
            · exact h22
          clear_value s23
          extract_lets +onlyGivenNames s28
          refine Within.cut (x := s28) ?_ (fun h29 => ?_)
          · unfold s28
            refine (State.setNmc_within ..).then ?_
            exact h24
          clear_value s28
          refine (State.startProgram_within ..).then ?_
          exact h29
        · extract_lets +onlyGivenNames s30
          refine Within.cut (x := s30) ?_ (fun h31 => ?_)
          · unfold s30
            refine Within.foldl (fun s32 a33 h34 => ?_) ?_
            · refine (State.mapPage_within ..).then ?_
              exact h34
            · exact h12
          clear_value s30
          extract_lets +onlyGivenNames s35
          refine Within.cut (x := s35) ?_ (fun h36 => ?_)
          · unfold s35
            refine (State.usePage_within ..).then ?_
            exact h31
          clear_value s35
          extract_lets +onlyGivenNames s37
          refine Within.cut (x := s37) ?_ (fun h38 => ?_)
          · unfold s37
            refine Within.foldl (fun s39 a40 h41 => ?_) ?_
            · split
              · rename_i v42 v43 v44
                refine (State.pageDone_within ..).then ?_
                exact h41
              · rename_i v45 v46
                exact h41
            · exact h36
          clear_value s37
          refine (State.nandStart_within ..).then ?_
          refine (State.nandCutItems_within ..).then ?_
          exact h38
    · refine (State.opUnmapped_within ..).then ?_
      exact h7

theorem execNandErase_within (entry : Nat) (s : State) :
    OutWithin { parts := [.mem, .doms, .freeCtr, .flm, .drc, .nmc, .mrc], pages := [Pg.drc, Pg.nmc] } s (execNandErase entry s) := by
  unfold execNandErase
  refine OutWithin.next ?_
  split
  · rename_i v1 v2
    exact .refl
  · rename_i v3 v4 v5
    refine Within.ite ?_ ?_
    · refine (State.nandEnd_within ..).then ?_
      exact .refl
    · refine State.withMap_within ?_ (fun s6 h7 => ?_)
      · exact .refl
      · extract_lets +onlyGivenNames s11
        extract_lets +onlyGivenNames s12
        extract_lets +onlyGivenNames s13
        refine Within.cut (x := s13) ?_ (fun h14 => ?_)
        · unfold s13
          refine (State.setNmc_within ..).then ?_
          exact h7
        clear_value s13
        extract_lets +onlyGivenNames s15
        refine Within.cut (x := s15) ?_ (fun h16 => ?_)
        · unfold s15
          refine Within.foldl (fun s17 a18 h19 => ?_) ?_
          · refine (State.mapEntry_within ..).then ?_
            exact h19
          · exact h14
        clear_value s15
        refine (State.nandStart_within ..).then ?_
        refine (State.nandEnd_within ..).then ?_
        exact h16

theorem execNandFlush_within (entry : Nat) (s : State) :
    OutWithin { parts := [.doms, .flm, .nmc] } s (execNandFlush entry s) := by
  unfold execNandFlush
  refine OutWithin.next ?_
  split
  · rename_i v1 v2
    exact .refl
  · rename_i v3 v4 v5
    refine Within.ite ?_ ?_
    · refine (State.nandEnd_within ..).then ?_
      exact .refl
    · refine Within.ite ?_ ?_
      · refine State.withMap_within ?_ (fun s6 h7 => ?_)
        · exact .refl
        · refine (State.nandEnd_within ..).then ?_
          exact h7
      · exact .refl

theorem State.identify_within (s : State) (failing : List Nat) :
    Within { parts := [.nmc] } s (State.identify s failing) := by
  unfold State.identify
  refine Within.foldl (fun s1 a2 h3 => ?_) ?_
  · refine Within.ite ?_ ?_
    · refine (State.setNmc_within ..).then ?_
      exact h3
    · exact h3
  · exact .refl

theorem State.tgsOnline_within (s : State) : Within { parts := [.nmc] } s (State.tgsOnline s) := by
  unfold State.tgsOnline
  refine (State.setNmc_within ..).then ?_
  exact .refl

theorem State.mounted_within (s : State) : Within { parts := [.nmc, .mrc], pages := [Pg.nmc] } s (State.mounted s) := by
  unfold State.mounted
  refine (State.event_within ..).then ?_
  refine (State.setNmc_within ..).then ?_
  refine (State.tgsOnline_within ..).then ?_
  exact .refl

theorem State.mountBegins_within (s : State) (i : Item) (failing : List Nat) (bad : State → Bool) :
    Within { parts := [.flm, .nmc] } s (State.mountBegins s i failing bad) := by
  unfold State.mountBegins
  refine Within.ite ?_ ?_
  · refine (State.nandEnd_within ..).then ?_
    exact .refl
  · extract_lets +onlyGivenNames s1
    refine Within.cut (x := s1) ?_ (fun h2 => ?_)
    · unfold s1
      refine (State.identify_within ..).then ?_
      exact .refl
    clear_value s1
    refine Within.ite ?_ ?_
    · refine (State.nandEnd_within ..).then ?_
      exact h2
    · refine (State.updItem_within ..).then ?_
      exact h2

theorem execNandMount_within (entry : Nat) (failing : List Nat) (newer : List Nat) (s : State) :
    OutWithin { parts := [.mem, .doms, .freeCtr, .flm, .drc, .nmc, .mrc], pages := [Pg.drc, Pg.nmc] } s (execNandMount entry failing newer s) := by
  unfold execNandMount
  refine OutWithin.next ?_
  split
  · rename_i v1 v2
    exact .refl
  · rename_i v3 v4 v5
    refine State.withMap_within ?_ (fun s6 h7 => ?_)
    · exact .refl
    · refine Within.ite ?_ ?_
      · refine (State.mountBegins_within ..).then ?_
        exact h7
      · extract_lets +onlyGivenNames s11
        refine Within.cut (x := s11) ?_ (fun h12 => ?_)
        · unfold s11
          refine Within.foldl (fun s13 a14 h15 => ?_) ?_
          · refine Within.ite ?_ ?_
            · refine (State.mapPage_within ..).then ?_
              exact h15
            · exact h15
          · exact h7
        clear_value s11
        refine (State.nandEnd_within ..).then ?_
        refine (State.mounted_within ..).then ?_
        exact h12

theorem execNandFormat_within (entry : Nat) (failing : List Nat) (factory : List (Nat × Nat)) (bad : List (Nat × Nat)) (s : State) :
    OutWithin { parts := [.doms, .flm, .nmc, .mrc], pages := [Pg.nmc] } s (execNandFormat entry failing factory bad s) := by
  unfold execNandFormat
  refine OutWithin.next ?_
  split
  · rename_i v1 v2
    exact .refl
  · rename_i v3 v4 v5
    refine State.withMap_within ?_ (fun s6 h7 => ?_)
    · exact .refl
    · refine Within.ite ?_ ?_
      · refine (State.mountBegins_within ..).then ?_
        exact h7
      · extract_lets +onlyGivenNames s11
        extract_lets +onlyGivenNames s12
        refine Within.cut (x := s12) ?_ (fun h13 => ?_)
        · unfold s12
          refine Within.foldl (fun s14 a15 h16 => ?_) ?_
          · refine Within.ite ?_ ?_
            · refine (State.setBlk_within ..).then ?_
              exact h16
            · exact h16
          · exact h7
        clear_value s12
        extract_lets +onlyGivenNames s17
        refine Within.cut (x := s17) ?_ (fun h18 => ?_)
        · unfold s17
          refine Within.foldl (fun s19 a20 h21 => ?_) ?_
          · refine Within.ite ?_ ?_
            · refine (State.setBlk_within ..).then ?_
              exact h21
            · exact h21
          · exact h13
        clear_value s17
        extract_lets +onlyGivenNames s22
        refine Within.cut (x := s22) ?_ (fun h23 => ?_)
        · unfold s22
          refine (State.setNmc_within ..).then ?_
          exact h18
        clear_value s22
        refine (State.nandEnd_within ..).then ?_
        refine (State.mounted_within ..).then ?_
        exact h23

theorem State.relocated_within (s : State) (t : Nat) (b : Nat) (c : RelocCause) :
    Within { parts := [.flm, .nmc, .mrc], pages := [Pg.nmc] } s (State.relocated s t b c) := by
  unfold State.relocated
  extract_lets +onlyGivenNames s1
  extract_lets +onlyGivenNames s2
  refine Within.cut (x := s2) ?_ (fun h3 => ?_)
  · unfold s2
    refine (State.setNmc_within ..).then ?_
    exact .refl
  clear_value s2
  extract_lets +onlyGivenNames s4
  split
  · rename_i v5 v6
    refine (State.wearOut_within ..).then ?_
    exact h3
  · rename_i v7 v8
    unfold s4
    refine (State.nmcReport_within ..).then ?_
    refine (State.count_within ..).then ?_
    exact h3
  · rename_i v9
    unfold s4
    refine (State.nmcReport_within ..).then ?_
    refine (State.count_within ..).then ?_
    exact h3

theorem execNandRelocation_within (target : Nat) (block : Nat) (choice : Nat) (lost : List Nat) (s : State) :
    OutWithin { parts := [.mem, .doms, .freeCtr, .flm, .drc, .nmc, .mrc], pages := [Pg.nmc, Pg.drc] } s (execNandRelocation target block choice lost s) := by
  unfold execNandRelocation
  refine OutWithin.next ?_
  split
  · rename_i v1 v2
    exact .refl
  · rename_i v3 v4 v5
    refine Within.ite ?_ ?_
    · exact .refl
    · refine State.withMapFor_within ?_ (fun s6 h7 => ?_) (fun s6 h7 => ?_)
      · exact .refl
      · extract_lets +onlyGivenNames s11
        refine Within.cut (x := s11) ?_ (fun h12 => ?_)
        · unfold s11
          refine (State.setNmc_within ..).then ?_
          exact h7
        clear_value s11
        extract_lets +onlyGivenNames s13
        refine Within.cut (x := s13) ?_ (fun h14 => ?_)
        · unfold s13
          refine (State.moveBlock_within ..).then ?_
          exact h12
        clear_value s13
        refine Within.ite ?_ ?_
        · refine (State.nandStart_within ..).then ?_
          refine (State.relocated_within ..).then ?_
          exact h14
        · exact h14
      · exact h7

theorem execStaticWearMove_within (choice : Nat) (s : State) :
    OutWithin { parts := [.mem, .doms, .freeCtr, .flm, .drc, .nmc, .mrc], pages := [Pg.nmc, Pg.drc] } s (execStaticWearMove choice s) := by
  unfold execStaticWearMove
  refine OutWithin.next ?_
  extract_lets +onlyGivenNames s1
  refine Within.ite ?_ ?_
  · exact .refl
  · split
    · rename_i v2 v3
      exact .refl
    · rename_i v4 v5 v6
      extract_lets +onlyGivenNames s7
      extract_lets +onlyGivenNames s8
      split
      · rename_i v9 v10
        exact .refl
      · rename_i v11 v12 v13
        refine State.withMapFor_within ?_ (fun s14 h15 => ?_) (fun s14 h15 => ?_)
        · exact .refl
        · extract_lets +onlyGivenNames s19
          refine Within.cut (x := s19) ?_ (fun h20 => ?_)
          · unfold s19
            refine (State.setNmc_within ..).then ?_
            exact h15
          clear_value s19
          refine (State.nandStart_within ..).then ?_
          refine (State.moveBlock_within ..).then ?_
          exact h20
        · exact h15

theorem State.patrolPass_within (s : State) : Within { parts := [.flm, .nmc] } s (State.patrolPass s) := by
  unfold State.patrolPass
  refine Within.ite ?_ ?_
  · refine (State.setNmc_within ..).then ?_
    exact .refl
  · refine (State.nmcReport_within ..).then ?_
    refine (State.setNmc_within ..).then ?_
    exact .refl

theorem execPatrolStep_within (ecc : List NandEcc) (s : State) :
    OutWithin { parts := [.doms, .flm, .nmc, .mrc], pages := [Pg.nmc] } s (execPatrolStep ecc s) := by
  unfold execPatrolStep
  refine OutWithin.next ?_
  refine Within.ite ?_ ?_
  · exact .refl
  · refine Within.ite ?_ ?_
    · refine Within.ite ?_ ?_
      · exact .refl
      · refine (State.wake_within ..).then ?_
        exact .refl
    · refine Within.ite ?_ ?_
      · exact .refl
      · split
        · rename_i v1 v2
          refine (State.patrolPass_within ..).then ?_
          exact .refl
        · rename_i v3 v4 v5
          extract_lets +onlyGivenNames s6
          extract_lets +onlyGivenNames s7
          refine Within.cut (x := s7) ?_ (fun h8 => ?_)
          · unfold s7
            refine Within.foldl (fun s9 a10 h11 => ?_) ?_
            · split
              · rename_i v12 v13
                refine (State.noteRead_within ..).then ?_
                exact h11
              · rename_i v14 v15
                split
                · rename_i v16 v17 v18 v19
                  refine (State.poisonPage_within ..).then ?_
                  refine (State.noteRead_within ..).then ?_
                  exact h11
                · rename_i v20 v21
                  exact h11
            · exact .refl
          clear_value s7
          extract_lets +onlyGivenNames s22
          refine Within.cut (x := s22) ?_ (fun h23 => ?_)
          · unfold s22
            refine (State.setNmc_within ..).then ?_
            exact h8
          clear_value s22
          refine Within.ite ?_ ?_
          · refine (State.patrolPass_within ..).then ?_
            exact h23
          · exact h23

theorem State.nmcOff_within (s : State) : Within { parts := [.nmc] } s (State.nmcOff s) := by
  unfold State.nmcOff
  refine (State.setNmc_within ..).then ?_
  exact .refl

end Sys2Proof.Machine
end

