-- ==== Sys2Proof/Laws/FrameChain.lean ====
section
/-! SUPPORT. What each operation of Machine/Chain.lean may change, and that it keeps a sound state sound. -/

namespace Sys2Proof.Machine

-- one proof at a time: the file holds many small ones
set_option Elab.async false

theorem State.setCas_within (s : State) (f : Casc → Casc) : Within { parts := [.cas] } s (State.setCas s f) := by
  unfold State.setCas
  refine Within.of_mk ?_
  exact .refl

theorem State.casEvent_within (s : State) (kind : Nat) (pos : Nat) (value : Word) :
    Within { parts := [.flm] } s (State.casEvent s kind pos value) := by
  unfold State.casEvent
  extract_lets +onlyGivenNames s1
  refine Within.ite ?_ ?_
  · refine (State.report_within ..).then ?_
    exact .refl
  · exact .refl

theorem State.setLink_within (s : State) (down : Bool) (x : LinkSt) :
    Within { parts := [.cas] } s (State.setLink s down x) := by
  unfold State.setLink
  refine (State.setCas_within ..).then ?_
  exact .refl

theorem State.linkLost_within (s : State) (down : Bool) :
    Within { parts := [.flm, .tim, .mrc, .cas], pages := [Pg.cas] } s (State.linkLost s down) := by
  unfold State.linkLost
  refine Within.ite ?_ ?_
  · exact .refl
  · extract_lets +onlyGivenNames s1
    refine Within.cut (x := s1) ?_ (fun h2 => ?_)
    · unfold s1
      refine (State.event_within ..).then ?_
      refine (State.setLink_within ..).then ?_
      exact .refl
    clear_value s1
    extract_lets +onlyGivenNames s3
    refine Within.cut (x := s3) ?_ (fun h4 => ?_)
    · unfold s3
      refine (State.casEvent_within ..).then ?_
      refine (State.count_within ..).then ?_
      exact h2
    clear_value s3
    refine Within.ite ?_ ?_
    · exact h4
    · refine (State.setTim_within ..).then ?_
      refine (State.setCas_within ..).then ?_
      exact h4

theorem State.linksLost_within (s : State) :
    Within { parts := [.flm, .tim, .mrc, .cas], pages := [Pg.cas] } s (State.linksLost s) := by
  unfold State.linksLost
  refine (State.linkLost_within ..).then ?_
  refine (State.linkLost_within ..).then ?_
  exact .refl

theorem execLinkTrainStart_within (down : Bool) (s : State) :
    OutWithin { parts := [.mrc, .cas], pages := [Pg.cas] } s (execLinkTrainStart down s) := by
  unfold execLinkTrainStart
  refine OutWithin.next ?_
  refine Within.ite ?_ ?_
  · exact .refl
  · refine Within.ite ?_ ?_
    · refine (State.event_within ..).then ?_
      exact .refl
    · refine Within.ite ?_ ?_
      · exact .refl
      · refine (State.setLink_within ..).then ?_
        exact .refl

theorem execLinkUp_within (down : Bool) (s : State) :
    OutWithin { parts := [.mrc, .cas], pages := [Pg.cas] } s (execLinkUp down s) := by
  unfold execLinkUp
  refine OutWithin.next ?_
  refine Within.ite ?_ ?_
  · refine (State.event_within ..).then ?_
    refine (State.setLink_within ..).then ?_
    exact .refl
  · exact .refl

theorem execLinkTrainTimeout_within (down : Bool) (s : State) :
    OutWithin { parts := [.cas] } s (execLinkTrainTimeout down s) := by
  unfold execLinkTrainTimeout
  refine OutWithin.next ?_
  refine Within.ite ?_ ?_
  · refine (State.setLink_within ..).then ?_
    exact .refl
  · exact .refl

theorem execCellCrcFail_within (down : Bool) (s : State) : OutWithin { pages := [Pg.cas] } s (execCellCrcFail down s) := by
  unfold execCellCrcFail
  refine OutWithin.next ?_
  refine Within.ite ?_ ?_
  · refine (State.count_within ..).then ?_
    exact .refl
  · exact .refl

theorem execLinkDown_within (down : Bool) (s : State) :
    OutWithin { parts := [.flm, .tim, .mrc, .cas], pages := [Pg.cas] } s (execLinkDown down s) := by
  unfold execLinkDown
  refine OutWithin.next ?_
  refine Within.ite ?_ ?_
  · refine (State.linkLost_within ..).then ?_
    exact .refl
  · exact .refl

theorem State.casSteer_within (s : State) (o : Int) (addend : Word) :
    Within { parts := [.tim, .mrc], pages := [Pg.tim] } s (State.casSteer s o addend) := by
  unfold State.casSteer
  extract_lets +onlyGivenNames s1
  refine Within.cut (x := s1) ?_ (fun h2 => ?_)
  · unfold s1
    refine Within.ite ?_ ?_
    · exact .refl
    · refine (State.setTim_within ..).then ?_
      refine (State.setReg_within ..).then ?_
      exact .refl
  clear_value s1
  refine Within.ite ?_ ?_
  · extract_lets +onlyGivenNames s3
    refine Within.cut (x := s3) ?_ (fun h4 => ?_)
    · unfold s3
      refine (State.adjusted_within ..).then ?_
      refine (State.setUnits_within ..).then ?_
      exact h2
    clear_value s3
    refine (State.setTim_within ..).then ?_
    exact h4
  · refine Within.ite ?_ ?_
    · refine (State.timStep_within ..).then ?_
      exact h2
    · refine Within.ite ?_ ?_
      · exact h2
      · refine (State.timSlew_within ..).then ?_
        exact h2

theorem execCasTimingExchange_within (down : Bool) (sec : Nat) (ns : Nat) (rtt : Nat) (addend : Word) (s : State) :
    OutWithin { parts := [.freeCtr, .tim, .mrc, .cas], pages := [Pg.cas, Pg.tim] } s (execCasTimingExchange down sec ns rtt addend s) := by
  unfold execCasTimingExchange
  refine OutWithin.next ?_
  refine Within.ite ?_ ?_
  · exact .refl
  · refine Within.ite ?_ ?_
    · refine (State.setCas_within ..).then ?_
      exact .refl
    · refine Within.ite ?_ ?_
      · exact .refl
      · extract_lets +onlyGivenNames s1
        refine Within.cut (x := s1) ?_ (fun h2 => ?_)
        · unfold s1
          refine (State.setCas_within ..).then ?_
          exact .refl
        clear_value s1
        extract_lets +onlyGivenNames s3
        split
        rename_i v4 v5 v6 v7
        extract_lets +onlyGivenNames s8
        refine (State.casSteer_within ..).then ?_
        refine (State.setReg_within ..).then ?_
        refine Within.snd v7 ?_
        refine (State.fresh_within ..).then ?_
        exact h2

theorem State.setPos_within (s : State) (k : Nat) (x : CasPos) : Within { parts := [.cas] } s (State.setPos s k x) := by
  unfold State.setPos
  refine (State.setCas_within ..).then ?_
  exact .refl

theorem State.endOne_within (s : State) (k : Nat) : Within { parts := [.flm] } s (State.endOne s k) := by
  unfold State.endOne
  refine Within.foldl (fun s1 a2 h3 => ?_) ?_
  · refine (State.retireWith_within ..).then ?_
    exact h3
  · exact .refl

theorem State.markMask_within (s : State) (k : Nat) : Within { parts := [.flm] } s (State.markMask s k) := by
  unfold State.markMask
  refine Within.foldl (fun s1 a2 h3 => ?_) ?_
  · refine (State.updItem_within ..).then ?_
    exact h3
  · exact .refl

theorem State.dropPos_within (s : State) (k : Nat) : Within { parts := [.flm, .cas] } s (State.dropPos s k) := by
  unfold State.dropPos
  extract_lets +onlyGivenNames s1
  refine (State.casEvent_within ..).then ?_
  refine (State.setPos_within ..).then ?_
  exact .refl

theorem State.losePoss_within (s : State) (ks : List Nat) : Within { parts := [.flm, .cas] } s (State.losePoss s ks) := by
  unfold State.losePoss
  extract_lets +onlyGivenNames s1
  refine Within.foldl (fun s2 a3 h4 => ?_) ?_
  · refine (State.dropPos_within ..).then ?_
    exact h4
  · refine Within.foldl (fun s5 a6 h7 => ?_) ?_
    · refine (State.markMask_within ..).then ?_
      exact h7
    · refine Within.foldl (fun s8 a9 h10 => ?_) ?_
      · refine (State.endOne_within ..).then ?_
        exact h10
      · exact .refl

theorem State.foundPos_within (s : State) (k : Nat) (f : CasFound) :
    Within { parts := [.flm, .mrc, .cas], pages := [Pg.cas] } s (State.foundPos s k f) := by
  unfold State.foundPos
  extract_lets +onlyGivenNames s1
  extract_lets +onlyGivenNames s2
  split
  · rename_i v3 v4
    refine (State.casEvent_within ..).then ?_
    refine (State.event_within ..).then ?_
    refine (State.setPos_within ..).then ?_
    exact .refl
  · rename_i v5 v6
    refine (State.setPos_within ..).then ?_
    exact .refl
  · rename_i v7 v8
    refine (State.setPos_within ..).then ?_
    exact .refl

theorem State.enumerate_within (s : State) (found : List CasFound) :
    Within { parts := [.flm, .mrc, .cas], pages := [Pg.cas] } s (State.enumerate s found) := by
  unfold State.enumerate
  extract_lets +onlyGivenNames s1
  extract_lets +onlyGivenNames s2
  extract_lets +onlyGivenNames s3
  refine Within.cut (x := s3) ?_ (fun h4 => ?_)
  · unfold s3
    refine (State.setCas_within ..).then ?_
    exact .refl
  clear_value s3
  extract_lets +onlyGivenNames s5
  refine Within.cut (x := s5) ?_ (fun h6 => ?_)
  · unfold s5
    refine (State.casEvent_within ..).then ?_
    refine (State.event_within ..).then ?_
    exact h4
  clear_value s5
  extract_lets +onlyGivenNames s7
  refine Within.cut (x := s7) ?_ (fun h8 => ?_)
  · unfold s7
    refine Within.foldl (fun s9 a10 h11 => ?_) ?_
    · split
      rename_i v12 v13 v14
      refine (State.foundPos_within ..).then ?_
      exact h11
    · exact h6
  clear_value s7
  refine (State.losePoss_within ..).then ?_
  exact h8

theorem execEnumeration_within (found : List CasFound) (position : Nat) (s : State) :
    OutWithin { parts := [.flm, .mrc, .cas], pages := [Pg.cas] } s (execEnumeration found position s) := by
  unfold execEnumeration
  refine OutWithin.next ?_
  refine Within.ite ?_ ?_
  · exact .refl
  · refine Within.ite ?_ ?_
    · refine (State.enumerate_within ..).then ?_
      exact .refl
    · refine Within.ite ?_ ?_
      · refine (State.setCas_within ..).then ?_
        exact .refl
      · exact .refl

theorem State.posCtrlWrite_within (s : State) (ini : Initiator) (k : Nat) (v : Word) :
    Within { parts := [.flm, .mrc, .cas], pages := [Pg.cas] } s (State.posCtrlWrite s ini k v) := by
  unfold State.posCtrlWrite
  extract_lets +onlyGivenNames s1
  refine Within.ite ?_ ?_
  · refine (State.lockedErr_within ..).then ?_
    exact .refl
  · refine Within.ite ?_ ?_
    · refine (State.raise_within ..).then ?_
      exact .refl
    · refine Within.ite ?_ ?_
      · refine (State.setPos_within ..).then ?_
        exact .refl
      · refine Within.ite ?_ ?_
        · refine (State.losePoss_within ..).then ?_
          exact .refl
        · exact .refl

theorem execCasAccept_within (ini : Initiator) (position : Nat) (s : State) :
    OutWithin { parts := [.doms, .replies, .stalls, .debugErr, .flm, .mrc, .cas], pages := [Pg.cas, Pg.sec] } s (execCasAccept ini position s) := by
  unfold execCasAccept
  refine OutWithin.next ?_
  refine Within.ite ?_ ?_
  · refine Within.ite ?_ ?_
    · refine (State.setCas_within ..).then ?_
      exact .refl
    · exact .refl
  · refine State.pageWrite_within ?_ (fun s1 h2 => ?_)
    · exact .refl
    · refine (State.posCtrlWrite_within ..).then ?_
      exact h2

theorem execCasDrop_within (ini : Initiator) (position : Nat) (s : State) :
    OutWithin { parts := [.doms, .replies, .stalls, .debugErr, .flm, .mrc, .cas], pages := [Pg.cas, Pg.sec] } s (execCasDrop ini position s) := by
  unfold execCasDrop
  refine OutWithin.next ?_
  refine State.pageWrite_within ?_ (fun s1 h2 => ?_)
  · exact .refl
  · refine (State.posCtrlWrite_within ..).then ?_
    exact h2

theorem State.releaseFwd_within (s : State) (ring n : Nat) :
    Within { parts := [.mrc, .cas], pages := [Pg.phy] } s (s.releaseFwd ring n) := by
  induction n generalizing s with
  | zero => exact .refl
  | succ n ih =>
    unfold State.releaseFwd
    dsimp only
    split
    · refine (ih ..).then ?_
      refine (State.hrConsWrite_within ..).then ?_
      refine (State.setCas_within ..).then ?_
      exact .refl
    · exact .refl

theorem State.psduRead_within (s : State) (ring : Nat) (index : Nat) (n : Nat) :
    Within { parts := [.doms, .freeCtr, .flm, .drc, .mrc], pages := [Pg.drc, Pg.flc] } s (State.psduRead s ring index n).1 := by
  unfold State.psduRead
  extract_lets +onlyGivenNames s1
  extract_lets +onlyGivenNames s2
  extract_lets +onlyGivenNames s3
  extract_lets +onlyGivenNames s4
  split
  rename_i v5 v6 v7 v8
  split
  rename_i v9 v10 v11 v12
  dsimp only
  refine Within.fst v12 ?_
  refine (State.unitRead_within ..).then ?_
  refine Within.fst v8 ?_
  refine (State.unitRead_within ..).then ?_
  exact .refl

theorem execForwardEntry_within (flips : List Flip) (s : State) :
    OutWithin { parts := [.doms, .freeCtr, .flm, .drc, .flc, .mrc, .cas], pages := [Pg.drc, Pg.flc, Pg.flm, Pg.phy] } s (execForwardEntry flips s) := by
  unfold execForwardEntry
  extract_lets +onlyGivenNames s1
  refine OutWithin.cut (x := s1) ?_ (fun h2 => ?_)
  · unfold s1
    refine (State.applyFlips_within ..).then ?_
    exact .refl
  clear_value s1
  refine OutWithin.next ?_
  extract_lets +onlyGivenNames s3
  extract_lets +onlyGivenNames s4
  refine Within.ite ?_ ?_
  · exact h2
  · extract_lets +onlyGivenNames s5
    split
    · rename_i v6 v7 v8 v9 v10
      split
      · rename_i v11 v12
        refine Within.fst v10 ?_
        refine (State.unitRead_within ..).then ?_
        exact h2
      · rename_i v13 v14 v15
        extract_lets +onlyGivenNames s16
        extract_lets +onlyGivenNames s17
        extract_lets +onlyGivenNames s18
        refine Within.ite ?_ ?_
        · extract_lets +onlyGivenNames s19
          extract_lets +onlyGivenNames s20
          extract_lets +onlyGivenNames s21
          extract_lets +onlyGivenNames s22
          split
          rename_i v23 v24 v25 v26
          refine Within.ite ?_ ?_
          · refine Within.fst v26 ?_
            refine (State.psduRead_within ..).then ?_
            refine Within.fst v10 ?_
            refine (State.unitRead_within ..).then ?_
            exact h2
          · extract_lets +onlyGivenNames s27
            refine Within.cut (x := s27) ?_ (fun h28 => ?_)
            · unfold s27
              refine (State.setCas_within ..).then ?_
              refine Within.fst v26 ?_
              refine (State.psduRead_within ..).then ?_
              refine Within.fst v10 ?_
              refine (State.unitRead_within ..).then ?_
              exact h2
            clear_value s27
            refine (State.releaseFwd_within ..).then ?_
            refine (State.trConsWrite_within ..).then ?_
            exact h28
        · refine (State.trConsWrite_within ..).then ?_
          refine (State.setCas_within ..).then ?_
          refine Within.fst v10 ?_
          refine (State.unitRead_within ..).then ?_
          exact h2
    · rename_i v29 v30 v31 v32 v33
      refine Within.fst v33 ?_
      refine (State.unitRead_within ..).then ?_
      exact h2

theorem execForwardReceive_within (origin : Nat) (unlocked : Bool) (entry : List Word) (psdu : List Byte) (flips : List Flip) (s : State) :
    OutWithin { parts := [.mem, .doms, .flm, .drc, .flc, .mrc], pages := [Pg.drc, Pg.cas] } s (execForwardReceive origin unlocked entry psdu flips s) := by
  unfold execForwardReceive
  extract_lets +onlyGivenNames s1
  refine OutWithin.cut (x := s1) ?_ (fun h2 => ?_)
  · unfold s1
    refine (State.applyFlips_within ..).then ?_
    exact .refl
  clear_value s1
  refine OutWithin.next ?_
  extract_lets +onlyGivenNames s3
  refine Within.ite ?_ ?_
  · exact h2
  · extract_lets +onlyGivenNames s4
    extract_lets +onlyGivenNames s5
    extract_lets +onlyGivenNames s6
    split
    · rename_i v7 v8 v9 v10 v11
      extract_lets +onlyGivenNames s12
      refine Within.cut (x := s12) ?_ (fun h13 => ?_)
      · unfold s12
        refine (State.setReg_within ..).then ?_
        refine Within.fst v11 ?_
        refine (State.unitWrite_within ..).then ?_
        exact h2
      clear_value s12
      extract_lets +onlyGivenNames s14
      extract_lets +onlyGivenNames s15
      refine (State.report_within ..).then ?_
      exact h13
    · rename_i v16 v17 v18 v19 v20
      refine Within.fst v20 ?_
      refine (State.unitWrite_within ..).then ?_
      exact h2

theorem State.rxCfgWrite_within (s : State) (ini : Initiator) (v : Word) :
    Within { parts := [.mrc], pages := [Pg.cas] } s (State.rxCfgWrite s ini v) := by
  unfold State.rxCfgWrite
  extract_lets +onlyGivenNames s1
  extract_lets +onlyGivenNames s2
  refine Within.ite ?_ ?_
  · refine (State.lockedErr_within ..).then ?_
    exact .refl
  · refine Within.ite ?_ ?_
    · refine (State.setReg_within ..).then ?_
      exact .refl
    · refine Within.ite ?_ ?_
      · refine Within.ite ?_ ?_
        · refine (State.raise_within ..).then ?_
          refine (State.setReg_within ..).then ?_
          exact .refl
        · refine (State.setReg_within ..).then ?_
          exact .refl
      · refine Within.ite ?_ ?_
        · refine (State.raise_within ..).then ?_
          refine (State.setReg_within ..).then ?_
          exact .refl
        · refine (State.setReg_within ..).then ?_
          refine (State.setReg_within ..).then ?_
          refine (State.setReg_within ..).then ?_
          exact .refl

theorem State.rxBaseWrite_within (s : State) (ini : Initiator) (v : Word) :
    Within { parts := [.mrc], pages := [Pg.cas] } s (State.rxBaseWrite s ini v) := by
  unfold State.rxBaseWrite
  refine Within.ite ?_ ?_
  · refine (State.lockedErr_within ..).then ?_
    exact .refl
  · refine Within.ite ?_ ?_
    · exact .refl
    · refine (State.setReg_within ..).then ?_
      exact .refl

theorem execCasRxconsWrite_within (ini : Initiator) (value : Word) (s : State) :
    OutWithin { parts := [.doms, .replies, .stalls, .debugErr, .mrc], pages := [Pg.cas, Pg.sec] } s (execCasRxconsWrite ini value s) := by
  unfold execCasRxconsWrite
  refine OutWithin.next ?_
  refine State.pageWrite_within ?_ (fun s1 h2 => ?_)
  · exact .refl
  · refine (State.plainWrite_within ..).then ?_
    exact h2

theorem State.casWrite_within (s : State) (ini : Initiator) (off : Nat) (v : Word) :
    OptWithin { parts := [.flm, .mrc, .cas], pages := [Pg.cas] } s (State.casWrite s ini off v) := by
  unfold State.casWrite
  refine OptWithin.ite ?_ ?_
  · refine OptWithin.some ?_
    refine (State.rxBaseWrite_within ..).then ?_
    exact .refl
  · refine OptWithin.ite ?_ ?_
    · refine OptWithin.some ?_
      refine (State.rxCfgWrite_within ..).then ?_
      exact .refl
    · refine OptWithin.ite ?_ ?_
      · refine OptWithin.some ?_
        refine (State.posCtrlWrite_within ..).then ?_
        exact .refl
      · exact OptWithin.none

theorem State.casReset_within (s : State) : Within { parts := [.cas] } s (State.casReset s) := by
  unfold State.casReset
  refine (State.setCas_within ..).then ?_
  exact .refl

end Sys2Proof.Machine
end

