-- ==== Sys2Proof/Laws/FrameStop.lean ====
section
/-! SUPPORT. What each operation of Machine/Stop.lean may change, and that it keeps a sound state sound. -/

namespace Sys2Proof.Machine

-- one proof at a time: the file holds many small ones
set_option Elab.async false

theorem State.pageSwitch_within (s : State) (c : Commit) (mismatches : Nat) :
    Within { parts := [.staged, .claims, .commits, .doms, .tim, .recv, .syn, .tag, .mrc, .lnk], all := true } s (State.pageSwitch s c mismatches) := by
  unfold State.pageSwitch
  extract_lets +onlyGivenNames s1
  split
  · rename_i v2 v3
    refine (State.tagSwitch_within ..).then ?_
    exact .refl
  · rename_i v4 v5
    refine Within.ite ?_ ?_
    · extract_lets +onlyGivenNames s6
      refine Within.cut (x := s6) ?_ (fun h7 => ?_)
      · unfold s6
        refine (State.switchCommit_within ..).then ?_
        exact .refl
      clear_value s6
      refine Within.ite ?_ ?_
      · exact h7
      · refine (State.setReg_within ..).then ?_
        exact h7
    · exact .refl
  · rename_i v8 v9
    refine Within.ite ?_ ?_
    · refine (State.switchCommit_within ..).then ?_
      exact .refl
    · exact .refl
  · rename_i v10 v11
    refine (State.synSwitch_within ..).then ?_
    exact .refl
  · rename_i v12 v13
    refine (State.chzSwitch_within ..).then ?_
    exact .refl
  · rename_i v14 v15
    refine (State.phySwitch_within ..).then ?_
    exact .refl
  · rename_i v16 v17
    refine (State.lnkSwitch_within ..).then ?_
    exact .refl
  · rename_i v18 v19
    refine (State.timSwitch_within ..).then ?_
    exact .refl
  · rename_i v20 v21
    refine Within.ite ?_ ?_
    · refine (State.switchCommit_within ..).then ?_
      exact .refl
    · exact .refl
  · rename_i v22 v23
    refine Within.ite ?_ ?_
    · refine (State.drcSwitched_within ..).then ?_
      refine (State.switchCommit_within ..).then ?_
      exact .refl
    · exact .refl
  · rename_i v24 v25
    refine (State.nmcSwitch_within ..).then ?_
    exact .refl
  · rename_i v26 v27
    refine (State.pwmSwitch_within ..).then ?_
    exact .refl
  · rename_i v28 v29 v30 v31 v32 v33 v34 v35 v36 v37 v38 v39 v40
    refine (State.switchCommit_within ..).then ?_
    exact .refl

theorem execCommitSwitch_within (page : Nat) (mismatches : Nat) (s : State) :
    OutWithin { parts := [.staged, .claims, .commits, .doms, .tim, .recv, .syn, .tag, .mrc, .lnk], all := true } s (execCommitSwitch page mismatches s) := by
  unfold execCommitSwitch
  refine OutWithin.next ?_
  split
  · rename_i v1 v2 v3
    refine Within.ite ?_ ?_
    · refine (State.pageSwitch_within ..).then ?_
      exact .refl
    · exact .refl
  · rename_i v4 v5
    exact .refl

theorem State.txStops_within (s : State) :
    Within { parts := [.staged, .claims, .commits, .doms, .recv, .syn, .txa, .mrc, .lnk], all := true } s (State.txStops s) := by
  unfold State.txStops
  refine Within.ite ?_ ?_
  · exact .refl
  · extract_lets +onlyGivenNames s1
    refine Within.cut (x := s1) ?_ (fun h2 => ?_)
    · unfold s1
      refine (State.txaStops_within ..).then ?_
      exact .refl
    clear_value s1
    refine Within.ite ?_ ?_
    · refine (State.moveOn_within ..).then ?_
      refine (State.blankEnd_within ..).then ?_
      exact h2
    · exact h2

theorem State.lnkStops_within (s : State) (status : Nat) :
    Within { parts := [.staged, .claims, .commits, .doms, .flm, .recv, .syn, .txa, .mrc, .lnk], all := true } s (State.lnkStops s status) := by
  unfold State.lnkStops
  extract_lets +onlyGivenNames s1
  refine Within.cut (x := s1) ?_ (fun h2 => ?_)
  · unfold s1
    refine (State.jobsAborted_within ..).then ?_
    exact .refl
  clear_value s1
  extract_lets +onlyGivenNames s3
  refine Within.cut (x := s3) ?_ (fun h4 => ?_)
  · unfold s3
    refine (State.setLnk_within ..).then ?_
    exact h2
  clear_value s3
  refine (State.txStops_within ..).then ?_
  refine (State.closeUse_within ..).then ?_
  exact h4

theorem State.unitStops_within (s : State) (page : Nat) (status : Nat) :
    Within { parts := Part.but [.mem, .lost, .clk, .ticks, .replies, .stalls, .debugErr, .flc, .nmc, .tim, .wrx, .rtc, .per, .tag, .sec, .pal, .cpus, .cas, .upd, .booted, .testmode, .inReset, .vio, .resetDue], all := true } s (State.unitStops s page status) := by
  unfold State.unitStops
  split
  · rename_i v1
    refine (State.lnkStops_within ..).then ?_
    exact .refl
  · rename_i v2
    refine (State.lnkStops_within ..).then ?_
    exact .refl
  · rename_i v3
    refine (State.calAborted_within ..).then ?_
    exact .refl
  · rename_i v4
    refine (State.calAborted_within ..).then ?_
    refine (State.lnkStops_within ..).then ?_
    exact .refl
  · rename_i v5
    refine (State.ethCut_within ..).then ?_
    exact .refl
  · rename_i v6
    refine (State.drcAbandon_within ..).then ?_
    exact .refl
  · rename_i v7 v8 v9 v10 v11 v12 v13
    exact .refl

theorem State.unitStopped_within (s : State) (page : Nat) (items : List Item) :
    Within { parts := [.per, .tag, .pal] } s (State.unitStopped s page items) := by
  unfold State.unitStopped
  split
  · rename_i v1
    refine (State.readerStops_within ..).then ?_
    exact .refl
  · rename_i v2
    refine (State.palAborted_within ..).then ?_
    exact .refl
  · rename_i v3
    refine (State.armGone_within ..).then ?_
    exact .refl
  · rename_i v4
    refine (State.armGone_within ..).then ?_
    exact .refl
  · rename_i v5 v6 v7 v8 v9
    exact .refl

theorem State.unitEnds_within (s : State) (unit : Nat) (status : Nat) :
    Within { parts := [.flm, .flc, .per, .tag, .pal] } s (State.unitEnds s unit status).1 := by
  unfold State.unitEnds
  extract_lets +onlyGivenNames s1
  split
  rename_i v2 v3 v4 v5
  extract_lets +onlyGivenNames s6
  refine Within.cut (x := s6) ?_ (fun h7 => ?_)
  · unfold s6
    refine (State.unitStopped_within ..).then ?_
    refine Within.fst v5 ?_
    refine (State.completeUnit_within ..).then ?_
    exact .refl
  clear_value s6
  refine Within.ite₁ ?_ ?_
  · dsimp only
    exact h7
  · dsimp only
    exact h7

theorem State.stopUnit_within (s : State) (unit : Nat) (status : Nat) :
    Within { parts := Part.but [.mem, .lost, .clk, .ticks, .replies, .stalls, .debugErr, .nmc, .tim, .wrx, .rtc, .sec, .cpus, .cas, .upd, .booted, .testmode, .inReset, .vio, .resetDue], all := true } s (State.stopUnit s unit status).1 := by
  unfold State.stopUnit
  extract_lets +onlyGivenNames s1
  refine Within.cut (x := s1) ?_ (fun h2 => ?_)
  · unfold s1
    refine (State.unitStops_within ..).then ?_
    exact .refl
  clear_value s1
  extract_lets +onlyGivenNames s3
  refine Within.cut (x := s3) ?_ (fun h4 => ?_)
  · unfold s3
    refine Within.foldl (fun s5 a6 h7 => ?_) ?_
    · refine (State.unitEnds_within ..).then ?_
      exact h7
    · exact h2
  clear_value s3
  refine (State.unitEnds_within ..).then ?_
  exact h4

theorem State.pageForget_within (s : State) (page : Nat) :
    Within { parts := Part.but [.clk, .ticks, .replies, .debugErr, .booted, .testmode, .inReset, .vio, .resetDue], all := true } s (State.pageForget s page) := by
  unfold State.pageForget
  split
  · rename_i v1
    refine (State.mrcReset_within ..).then ?_
    exact .refl
  · rename_i v2
    refine Within.of_mk ?_
    exact .refl
  · rename_i v3
    refine (State.tagPageReset_within ..).then ?_
    exact .refl
  · rename_i v4
    extract_lets +onlyGivenNames s5
    refine Within.cut (x := s5) ?_ (fun h6 => ?_)
    · unfold s5
      refine (State.txStops_within ..).then ?_
      exact .refl
    clear_value s5
    refine Within.of_mk ?_
    exact h6
  · rename_i v7
    refine (State.synLeaves_within ..).then ?_
    exact .refl
  · rename_i v8
    refine Within.of_mk ?_
    exact .refl
  · rename_i v9
    refine Within.of_mk ?_
    exact .refl
  · rename_i v10
    extract_lets +onlyGivenNames s11
    refine Within.cut (x := s11) ?_ (fun h12 => ?_)
    · unfold s11
      refine (State.nbLeave_within ..).then ?_
      exact .refl
    clear_value s11
    refine Within.of_mk ?_
    exact h12
  · rename_i v13
    refine (State.setTim_within ..).then ?_
    exact .refl
  · rename_i v14
    refine Within.of_mk ?_
    exact .refl
  · rename_i v15
    refine Within.of_mk ?_
    exact .refl
  · rename_i v16
    refine (State.setSec_within ..).then ?_
    exact .refl
  · rename_i v17
    refine Within.of_mk ?_
    exact .refl
  · rename_i v18
    refine Within.of_mk ?_
    exact .refl
  · rename_i v19
    refine (State.coreReset_within ..).then ?_
    exact .refl
  · rename_i v20
    refine (State.coreReset_within ..).then ?_
    exact .refl
  · rename_i v21
    refine (State.coreReset_within ..).then ?_
    exact .refl
  · rename_i v22
    refine (State.coreReset_within ..).then ?_
    exact .refl
  · rename_i v23
    refine (State.drcOff_within ..).then ?_
    exact .refl
  · rename_i v24
    refine (State.flcOff_within ..).then ?_
    exact .refl
  · rename_i v25
    refine (State.nmcOff_within ..).then ?_
    exact .refl
  · rename_i v26
    refine (State.casReset_within ..).then ?_
    refine (State.linksLost_within ..).then ?_
    exact .refl
  · rename_i v27
    refine (State.setSerial_within ..).then ?_
    exact .refl
  · rename_i v28
    refine (State.setSerial_within ..).then ?_
    exact .refl
  · rename_i v29
    refine (State.setSerial_within ..).then ?_
    exact .refl
  · rename_i v30
    refine (State.setSerial_within ..).then ?_
    exact .refl
  · rename_i v31
    refine (State.setSerial_within ..).then ?_
    exact .refl
  · rename_i v32
    refine (State.setSerial_within ..).then ?_
    exact .refl
  · rename_i v33
    refine (State.setSerial_within ..).then ?_
    exact .refl
  · rename_i v34
    refine (State.setSerial_within ..).then ?_
    exact .refl
  · rename_i v35
    refine (State.setSerial_within ..).then ?_
    exact .refl
  · rename_i v36
    refine (State.setSerial_within ..).then ?_
    exact .refl
  · rename_i v37
    refine (State.setSerial_within ..).then ?_
    exact .refl
  · rename_i v38
    refine (State.setPer_within ..).then ?_
    exact .refl
  · rename_i v39
    refine (State.setPer_within ..).then ?_
    exact .refl
  · rename_i v40 v41 v42 v43 v44 v45 v46 v47 v48 v49 v50 v51 v52 v53 v54 v55 v56 v57 v58 v59 v60 v61 v62 v63 v64 v65 v66 v67 v68 v69 v70 v71 v72 v73 v74 v75
    exact .refl

theorem State.queueAborted_within (s : State) (status : Nat) :
    Within { parts := [.mem, .doms, .flm, .drc, .recv, .mrc, .lnk], pages := [Pg.drc, Pg.flm, Pg.phy] } s (State.queueAborted s status) := by
  unfold State.queueAborted
  split
  rename_i v1 v2 v3 v4
  extract_lets +onlyGivenNames s5
  extract_lets +onlyGivenNames s6
  refine Within.cut (x := s6) ?_ (fun h7 => ?_)
  · unfold s6
    refine Within.of_mk ?_
    refine Within.fst v4 ?_
    refine (State.settleFrames_within ..).then ?_
    exact .refl
  clear_value s6
  refine Within.foldl (fun s8 a9 h10 => ?_) ?_
  · refine (State.postFrame_within ..).then ?_
    exact h10
  · exact h7

theorem State.cutForReset_within (s : State) (page : Nat) (air : List Air) :
    Within { parts := [.mem, .doms, .flm, .drc, .recv, .mrc, .lnk], pages := [Pg.chz, Pg.drc, Pg.flm, Pg.phy] } s (State.cutForReset s page air) := by
  unfold State.cutForReset
  split
  · rename_i v1
    refine (State.cutLanes_within ..).then ?_
    exact .refl
  · rename_i v2
    refine (State.queueAborted_within ..).then ?_
    refine (State.cutLanes_within ..).then ?_
    exact .refl
  · rename_i v3
    refine (State.queueAborted_within ..).then ?_
    exact .refl
  · rename_i v4 v5 v6 v7
    exact .refl

theorem State.softResetEnd_within (s : State) (page : Nat) (air : List Air) :
    Within { parts := Part.but [.clk, .ticks, .replies, .debugErr, .booted, .testmode, .inReset, .vio, .resetDue], all := true } s (State.softResetEnd s page air) := by
  unfold State.softResetEnd
  refine Within.ite ?_ ?_
  · refine (State.rtcSoftReset_within ..).then ?_
    exact .refl
  · extract_lets +onlyGivenNames s1
    refine Within.cut (x := s1) ?_ (fun h2 => ?_)
    · unfold s1
      refine (State.cutForReset_within ..).then ?_
      exact .refl
    clear_value s1
    extract_lets +onlyGivenNames s3
    extract_lets +onlyGivenNames s4
    extract_lets +onlyGivenNames s5
    extract_lets +onlyGivenNames s6
    extract_lets +onlyGivenNames s7
    refine Within.cut (x := s7) ?_ (fun h8 => ?_)
    · unfold s7
      refine (State.pageForget_within ..).then ?_
      unfold s6
      refine Within.ite ?_ ?_
      · refine State.withPins_within ?_ (fun s9 h10 => ?_)
        · exact h2
        · refine (State.resetPage_within ..).then ?_
          exact h10
      · refine (State.resetPage_within ..).then ?_
        exact h2
    clear_value s7
    extract_lets +onlyGivenNames s14
    refine Within.cut (x := s14) ?_ (fun h15 => ?_)
    · unfold s14
      refine Within.ite ?_ ?_
      · refine (State.invalidate_within ..).then ?_
        exact h8
      · exact h8
    clear_value s14
    extract_lets +onlyGivenNames s16
    refine Within.cut (x := s16) ?_ (fun h17 => ?_)
    · unfold s16
      refine Within.ite ?_ ?_
      · refine (State.setTag_within ..).then ?_
        exact h15
      · exact h15
    clear_value s16
    refine Within.ite ?_ ?_
    · refine (State.setReg_within ..).then ?_
      exact h17
    · exact h17

theorem State.drained_within (s : State) (d : Drain) (air : List Air) :
    Within { parts := Part.but [.clk, .ticks, .replies, .debugErr, .booted, .testmode, .inReset, .vio, .resetDue], all := true } s (State.drained s d air) := by
  unfold State.drained
  split
  · rename_i v1 v2 v3
    extract_lets +onlyGivenNames s4
    refine Within.ite ?_ ?_
    · exact .refl
    · refine (State.setDom_within ..).then ?_
      exact .refl
  · rename_i v5 v6
    refine (State.softResetEnd_within ..).then ?_
    exact .refl
  · rename_i v7 v8
    exact .refl

theorem State.settleDrain_within (s : State) (air : List Air) (d : Drain) :
    Within { parts := Part.but [.clk, .ticks, .replies, .debugErr, .booted, .testmode, .inReset, .vio, .resetDue], all := true } s (State.settleDrain s air d) := by
  unfold State.settleDrain
  refine Within.ite ?_ ?_
  · exact .refl
  · split
    rename_i v1 v2 v3 v4
    refine Within.ite ?_ ?_
    · refine (State.drained_within ..).then ?_
      refine Within.of_mk ?_
      refine Within.fst v4 ?_
      refine (State.unitEnds_within ..).then ?_
      exact .refl
    · refine Within.fst v4 ?_
      refine (State.unitEnds_within ..).then ?_
      exact .refl

theorem State.settleFlume_within (s : State) :
    Within { parts := [.staged, .claims, .commits, .flm, .flc, .per], all := true } s (State.settleFlume s) := by
  unfold State.settleFlume
  refine Within.ite ?_ ?_
  · extract_lets +onlyGivenNames s1
    refine (State.flumeResetEnd_within ..).then ?_
    refine (State.abortFetched_within ..).then ?_
    refine (State.abortActive_within ..).then ?_
    exact .refl
  · exact .refl

theorem State.settle_within (s : State) (air : (List Air)) :
    Within { parts := Part.but [.clk, .ticks, .replies, .debugErr, .booted, .testmode, .inReset, .vio, .resetDue], all := true } s (State.settle s air) := by
  unfold State.settle
  refine (State.settleFlume_within ..).then ?_
  refine Within.foldl (fun s1 a2 h3 => ?_) ?_
  · refine (State.settleDrain_within ..).then ?_
    exact h3
  · exact .refl

theorem State.drainUnit_within (s : State) (unit : Nat) (status : Nat) (after : After) (air : List Air) :
    Within { parts := Part.but [.clk, .ticks, .replies, .debugErr, .booted, .testmode, .inReset, .vio, .resetDue], all := true } s (State.drainUnit s unit status after air) := by
  unfold State.drainUnit
  extract_lets +onlyGivenNames s1
  extract_lets +onlyGivenNames s2
  refine Within.cut (x := s2) ?_ (fun h3 => ?_)
  · unfold s2
    refine (State.unitStops_within ..).then ?_
    exact .refl
  clear_value s2
  extract_lets +onlyGivenNames s4
  refine Within.cut (x := s4) ?_ (fun h5 => ?_)
  · unfold s4
    refine Within.foldl (fun s6 a7 h8 => ?_) ?_
    · refine (State.unitEnds_within ..).then ?_
      exact h8
    · exact h3
  clear_value s4
  extract_lets +onlyGivenNames s9
  extract_lets +onlyGivenNames s10
  refine Within.cut (x := s10) ?_ (fun h11 => ?_)
  · unfold s10
    refine Within.of_mk ?_
    exact h5
  clear_value s10
  split
  rename_i v12 v13 v14 v15
  refine Within.ite ?_ ?_
  · refine (State.drained_within ..).then ?_
    refine Within.of_mk ?_
    refine Within.fst v15 ?_
    refine (State.unitEnds_within ..).then ?_
    exact h11
  · refine Within.fst v15 ?_
    refine (State.unitEnds_within ..).then ?_
    exact h11

theorem State.softReset_within (s : State) (page : Nat) (air : List Air) :
    Within { parts := Part.but [.clk, .ticks, .replies, .debugErr, .booted, .testmode, .inReset, .vio, .resetDue], all := true } s (State.softReset s page air) := by
  unfold State.softReset
  refine Within.ite ?_ ?_
  · extract_lets +onlyGivenNames s1
    extract_lets +onlyGivenNames s2
    refine Within.cut (x := s2) ?_ (fun h3 => ?_)
    · unfold s2
      refine Within.foldl (fun s4 a5 h6 => ?_) ?_
      · extract_lets +onlyGivenNames s7
        refine (State.unitStopped_within ..).then ?_
        refine (State.abortActive_within ..).then ?_
        refine (State.unitStops_within ..).then ?_
        exact h6
      · exact .refl
    clear_value s2
    refine (State.settleFlume_within ..).then ?_
    refine Within.of_mk ?_
    exact h3
  · refine (State.drainUnit_within ..).then ?_
    exact .refl

end Sys2Proof.Machine
end

