-- ==== Sys2Proof/Laws/FramePower.lean ====
section
/-! SUPPORT. What each operation of Machine/Power.lean may change, and that it keeps a sound state sound. -/

namespace Sys2Proof.Machine

-- one proof at a time: the file holds many small ones
set_option Elab.async false

theorem State.setClk_within (s : State) (f : Clk → Clk) : Within { parts := [.clk] } s (State.setClk s f) := by
  unfold State.setClk
  refine Within.of_mk ?_
  exact .refl

theorem State.idleTick_within (s : State) : Within { parts := [.doms] } s (State.idleTick s) := by
  unfold State.idleTick
  refine Within.foldl (fun s1 a2 h3 => ?_) ?_
  · extract_lets +onlyGivenNames s4
    refine Within.ite ?_ ?_
    · exact h3
    · refine Within.ite ?_ ?_
      · refine (State.setDom_within ..).then ?_
        exact h3
      · refine (State.setDom_within ..).then ?_
        exact h3
  · exact .refl

theorem State.follow_within (s : State) (d : Nat) (air : List Air) :
    Within { parts := Part.but [.clk, .ticks, .replies, .debugErr, .booted, .testmode, .inReset, .vio, .resetDue], all := true } s (State.follow s d air) := by
  unfold State.follow
  extract_lets +onlyGivenNames s1
  refine Within.ite ?_ ?_
  · exact .refl
  · split
    · rename_i v2 v3
      refine Within.ite ?_ ?_
      · refine (State.setDom_within ..).then ?_
        exact .refl
      · exact .refl
    · rename_i v4 v5 v6
      extract_lets +onlyGivenNames s7
      refine Within.ite ?_ ?_
      · refine (State.setDom_within ..).then ?_
        exact .refl
      · refine Within.ite ?_ ?_
        · exact .refl
        · refine Within.ite ?_ ?_
          · refine Within.foldl (fun s8 a9 h10 => ?_) ?_
            · refine (State.drainUnit_within ..).then ?_
              exact h10
            · exact .refl
          · refine (State.setDom_within ..).then ?_
            exact .refl

theorem State.requested_within (s : State) (d : Nat) (air : List Air) :
    Within { parts := Part.but [.clk, .ticks, .replies, .debugErr, .booted, .testmode, .inReset, .vio, .resetDue], all := true } s (State.requested s d air) := by
  unfold State.requested
  refine (State.follow_within ..).then ?_
  refine (State.setDom_within ..).then ?_
  exact .refl

theorem State.followAll_within (s : State) (air : List Air) :
    Within { parts := Part.but [.clk, .ticks, .replies, .debugErr, .booted, .testmode, .inReset, .vio, .resetDue], all := true } s (State.followAll s air) := by
  unfold State.followAll
  refine Within.foldl (fun s1 a2 h3 => ?_) ?_
  · refine (State.follow_within ..).then ?_
    exact h3
  · exact .refl

theorem State.dmCtrlWrite_within (s : State) (d : Nat) (v : Word) :
    Within { parts := Part.but [.clk, .ticks, .replies, .debugErr, .booted, .testmode, .inReset, .vio, .resetDue], all := true } s (State.dmCtrlWrite s d v) := by
  unfold State.dmCtrlWrite
  refine Within.ite ?_ ?_
  · exact .refl
  · extract_lets +onlyGivenNames s1
    extract_lets +onlyGivenNames s2
    refine Within.cut (x := s2) ?_ (fun h3 => ?_)
    · unfold s2
      refine (State.setReg_within ..).then ?_
      exact .refl
    clear_value s2
    refine Within.ite ?_ ?_
    · exact h3
    · refine (State.requested_within ..).then ?_
      exact h3

theorem State.blkCtrlWrite_within (s : State) (ini : Initiator) (page : Nat) (v : Word) (air : List Air) :
    Within { parts := Part.but [.clk, .ticks, .replies, .debugErr, .booted, .testmode, .inReset, .vio, .resetDue], all := true } s (State.blkCtrlWrite s ini page v air) := by
  unfold State.blkCtrlWrite
  extract_lets +onlyGivenNames s1
  extract_lets +onlyGivenNames s2
  extract_lets +onlyGivenNames s3
  extract_lets +onlyGivenNames s4
  extract_lets +onlyGivenNames s5
  extract_lets +onlyGivenNames s6
  extract_lets +onlyGivenNames s7
  refine Within.cut (x := s7) ?_ (fun h8 => ?_)
  · unfold s7
    refine (State.setField_within ..).then ?_
    exact .refl
  clear_value s7
  extract_lets +onlyGivenNames s9
  refine Within.cut (x := s9) ?_ (fun h10 => ?_)
  · unfold s9
    refine (State.setField_within ..).then ?_
    exact h8
  clear_value s9
  extract_lets +onlyGivenNames s11
  refine Within.cut (x := s11) ?_ (fun h12 => ?_)
  · unfold s11
    refine Within.ite ?_ ?_
    · refine (State.linksLost_within ..).then ?_
      exact h10
    · exact h10
  clear_value s11
  extract_lets +onlyGivenNames s13
  refine Within.cut (x := s13) ?_ (fun h14 => ?_)
  · unfold s13
    refine Within.ite ?_ ?_
    · refine Within.ite ?_ ?_
      · exact .refl
      · refine (State.raise_within ..).then ?_
        exact .refl
    · refine Within.ite ?_ ?_
      · exact h12
      · refine (State.requested_within ..).then ?_
        exact h12
  clear_value s13
  refine Within.ite ?_ ?_
  · refine (State.softReset_within ..).then ?_
    exact h14
  · exact h14

theorem execBlockEnable_within (ini : Initiator) (page : Nat) (en : Bool) (s : State) :
    OutWithin { parts := Part.but [.clk, .ticks, .booted, .testmode, .inReset, .vio, .resetDue], all := true } s (execBlockEnable ini page en s) := by
  unfold execBlockEnable
  refine OutWithin.next ?_
  refine State.pageWrite_within ?_ (fun s1 h2 => ?_)
  · exact .refl
  · extract_lets +onlyGivenNames s6
    refine (State.blkCtrlWrite_within ..).then ?_
    exact h2

theorem execSoftReset_within (ini : Initiator) (page : Nat) (air : List Air) (s : State) :
    OutWithin { parts := Part.but [.clk, .ticks, .booted, .testmode, .inReset, .vio, .resetDue], all := true } s (execSoftReset ini page air s) := by
  unfold execSoftReset
  refine OutWithin.next ?_
  refine State.pageWrite_within ?_ (fun s1 h2 => ?_)
  · exact .refl
  · extract_lets +onlyGivenNames s6
    refine (State.blkCtrlWrite_within ..).then ?_
    exact h2

theorem execDomainRequest_within (ini : Initiator) (page : Nat) (domain : Option Nat) (dreq : Nat) (s : State) :
    OutWithin { parts := Part.but [.clk, .ticks, .booted, .testmode, .inReset, .vio, .resetDue], all := true } s (execDomainRequest ini page domain dreq s) := by
  unfold execDomainRequest
  refine OutWithin.next ?_
  split
  · rename_i v1 v2
    refine State.pageWrite_within ?_ (fun s3 h4 => ?_)
    · exact .refl
    · refine (State.dmCtrlWrite_within ..).then ?_
      exact h4
  · rename_i v8
    refine State.pageWrite_within ?_ (fun s9 h10 => ?_)
    · exact .refl
    · refine (State.blkCtrlWrite_within ..).then ?_
      exact h10

theorem execIdleTimerExpire_within (domain : Nat) (s : State) :
    OutWithin { parts := [.doms] } s (execIdleTimerExpire domain s) := by
  unfold execIdleTimerExpire
  refine OutWithin.next ?_
  extract_lets +onlyGivenNames s1
  extract_lets +onlyGivenNames s2
  extract_lets +onlyGivenNames s3
  refine Within.ite ?_ ?_
  · exact .refl
  · refine (State.setDom_within ..).then ?_
    exact .refl

theorem State.leaveOn_within (s : State) (d : Nat) (target : DState) (air : List Air) :
    Within { parts := Part.but [.lost, .ticks, .replies, .stalls, .debugErr, .freeCtr, .flc, .nmc, .eth, .rtc, .sec, .pal, .cpus, .upd, .booted, .testmode, .inReset, .vio, .resetDue], all := true } s (State.leaveOn s d target air) := by
  unfold State.leaveOn
  split
  · rename_i v1
    refine Within.of_mk ?_
    exact .refl
  · rename_i v2
    refine (State.rfeLeaves_within ..).then ?_
    exact .refl
  · rename_i v3
    refine (State.synLeaves_within ..).then ?_
    refine (State.txStops_within ..).then ?_
    exact .refl
  · rename_i v4
    refine (State.quarterLeaves_within ..).then ?_
    exact .refl
  · rename_i v5
    refine (State.quarterLeaves_within ..).then ?_
    exact .refl
  · rename_i v6
    refine (State.quarterLeaves_within ..).then ?_
    exact .refl
  · rename_i v7
    refine (State.quarterLeaves_within ..).then ?_
    exact .refl
  · rename_i v8
    refine (State.txStops_within ..).then ?_
    exact .refl
  · rename_i v9
    refine (State.queueAborted_within ..).then ?_
    exact .refl
  · rename_i v10
    refine (State.setClk_within ..).then ?_
    refine (State.drcLeaves_within ..).then ?_
    refine Within.ite ?_ ?_
    · refine (State.drcAbandon_within ..).then ?_
      exact .refl
    · exact .refl
  · rename_i v11
    refine (State.setClk_within ..).then ?_
    exact .refl
  · rename_i v12
    refine (State.readerStops_within ..).then ?_
    exact .refl
  · rename_i v13
    refine (State.linksLost_within ..).then ?_
    exact .refl
  · rename_i v14
    refine (State.latchPads_within ..).then ?_
    refine (State.timSleep_within ..).then ?_
    exact .refl
  · rename_i v15 v16 v17 v18 v19 v20 v21 v22 v23 v24 v25 v26 v27 v28 v29
    exact .refl

theorem State.stagingOff_within (s : State) (d : Nat) :
    Within { parts := [.staged, .claims, .commits, .doms, .tim, .recv, .syn, .tag, .mrc, .lnk], all := true } s (State.stagingOff s d) := by
  unfold State.stagingOff
  extract_lets +onlyGivenNames s1
  refine Within.cut (x := s1) ?_ (fun h2 => ?_)
  · unfold s1
    refine Within.foldl (fun s3 a4 h5 => ?_) ?_
    · split
      · rename_i v6 v7 v8
        refine Within.ite ?_ ?_
        · extract_lets +onlyGivenNames s9
          refine Within.cut (x := s9) ?_ (fun h10 => ?_)
          · unfold s9
            refine (State.pageSwitch_within ..).then ?_
            exact h5
          clear_value s9
          split
          · rename_i v11 v12 v13
            refine Within.ite ?_ ?_
            · exact h10
            · refine (State.switchCommit_within ..).then ?_
              exact h10
          · rename_i v14 v15
            exact h10
        · exact h5
      · rename_i v16 v17
        exact h5
    · exact .refl
  clear_value s1
  refine Within.foldl (fun s18 a19 h20 => ?_) ?_
  · extract_lets +onlyGivenNames s21
    refine Within.ite ?_ ?_
    · extract_lets +onlyGivenNames s22
      refine (State.raise_within ..).then ?_
      refine (State.releaseClaim_within ..).then ?_
      refine Within.of_mk ?_
      exact h20
    · exact h20
  · exact h2

theorem execDomainIdleCommit_within (domain : Nat) (air : List Air) (s : State) :
    OutWithin { parts := Part.but [.ticks, .replies, .debugErr, .booted, .testmode, .inReset, .vio, .resetDue], all := true } s (execDomainIdleCommit domain air s) := by
  unfold execDomainIdleCommit
  extract_lets +onlyGivenNames s1
  refine OutWithin.cut (x := s1) ?_ (fun h2 => ?_)
  · unfold s1
    refine (State.follow_within ..).then ?_
    refine (State.settle_within ..).then ?_
    exact .refl
  clear_value s1
  extract_lets +onlyGivenNames s3
  extract_lets +onlyGivenNames s4
  refine OutWithin.cut (x := s4) ?_ (fun h5 => ?_)
  · unfold s4
    refine Within.ite ?_ ?_
    · refine (State.setDom_within ..).then ?_
      exact h2
    · exact h2
  clear_value s4
  refine OutWithin.next ?_
  extract_lets +onlyGivenNames s6
  split
  · rename_i v7 v8
    exact h5
  · rename_i v9 v10 v11
    extract_lets +onlyGivenNames s12
    refine Within.ite ?_ ?_
    · exact h5
    · extract_lets +onlyGivenNames s13
      refine Within.cut (x := s13) ?_ (fun h14 => ?_)
      · unfold s13
        refine Within.ite ?_ ?_
        · refine (State.leaveOn_within ..).then ?_
          exact h5
        · exact h5
      clear_value s13
      refine Within.ite ?_ ?_
      · exact h14
      · extract_lets +onlyGivenNames s15
        refine Within.cut (x := s15) ?_ (fun h16 => ?_)
        · unfold s15
          refine Within.ite ?_ ?_
          · refine (State.stagingOff_within ..).then ?_
            exact h14
          · exact h14
        clear_value s15
        refine (State.setDom_within ..).then ?_
        exact h16

theorem State.phaseStep_within (s : State) (d : Nat) (n : Nat) (p : Phase) (q : Phase) :
    Within { parts := [.doms] } s (State.phaseStep s d n p q) := by
  unfold State.phaseStep
  extract_lets +onlyGivenNames s1
  refine Within.ite ?_ ?_
  · refine (State.setDom_within ..).then ?_
    exact .refl
  · exact .refl

theorem execDomainSave_within (domain : Nat) (s : State) : OutWithin { parts := [.doms] } s (execDomainSave domain s) := by
  unfold execDomainSave
  refine OutWithin.next ?_
  refine (State.phaseStep_within ..).then ?_
  exact .refl

theorem execDomainSwitch_within (domain : Nat) (s : State) :
    OutWithin { parts := [.doms] } s (execDomainSwitch domain s) := by
  unfold execDomainSwitch
  refine OutWithin.next ?_
  refine (State.phaseStep_within ..).then ?_
  exact .refl

theorem State.storesLost_within (s : State) (p : Nat → Bool) :
    Within { parts := [.flm], pages := [Pg.flm] } s (State.storesLost s p) := by
  unfold State.storesLost
  refine Within.foldl (fun s1 a2 h3 => ?_) ?_
  · refine (State.dropReport_within ..).then ?_
    exact h3
  · exact .refl

theorem State.domLost_within (s : State) (d : Nat) :
    Within { parts := [.mem, .lost, .freeCtr, .flm, .drc, .flc, .nmc, .recv, .syn, .sec, .pal, .lnk], pages := [Pg.flm] } s (State.domLost s d) := by
  unfold State.domLost
  extract_lets +onlyGivenNames s1
  refine Within.cut (x := s1) ?_ (fun h2 => ?_)
  · unfold s1
    refine (State.storesLost_within ..).then ?_
    exact .refl
  clear_value s1
  refine Within.ite ?_ ?_
  · refine (State.loseRegion_within ..).then ?_
    exact h2
  · split
    · rename_i v3
      extract_lets +onlyGivenNames s4
      refine Within.cut (x := s4) ?_ (fun h5 => ?_)
      · unfold s4
        refine (State.lnkEventsLost_within ..).then ?_
        refine (State.nbLeave_within ..).then ?_
        exact h2
      clear_value s4
      refine Within.of_mk ?_
      exact h5
    · rename_i v6
      extract_lets +onlyGivenNames s7
      refine Within.cut (x := s7) ?_ (fun h8 => ?_)
      · unfold s7
        refine (State.setSec_within ..).then ?_
        exact h2
      clear_value s7
      refine Within.of_mk ?_
      exact h8
    · rename_i v9
      refine (State.flcOff_within ..).then ?_
      exact h2
    · rename_i v10
      refine (State.drcOff_within ..).then ?_
      exact h2
    · rename_i v11
      refine (State.nmcOff_within ..).then ?_
      exact h2
    · rename_i v12 v13 v14 v15 v16 v17
      exact h2

theorem State.clocksRest_within (s : State) : Within { parts := [.clk, .wrx] } s (State.clocksRest s) := by
  unfold State.clocksRest
  refine Within.ite ?_ ?_
  · exact .refl
  · extract_lets +onlyGivenNames s1
    refine Within.cut (x := s1) ?_ (fun h2 => ?_)
    · unfold s1
      refine (State.setClk_within ..).then ?_
      exact .refl
    clear_value s1
    refine Within.of_mk ?_
    exact h2

theorem State.domChg_within (s : State) (d : Nat) : Within { parts := [.mrc], all := true } s (State.domChg s d) := by
  unfold State.domChg
  refine Within.foldl (fun s1 a2 h3 => ?_) ?_
  · refine (State.event_within ..).then ?_
    exact h3
  · exact .refl

theorem execDomainEntryDone_within (domain : Nat) (s : State) :
    OutWithin { parts := Part.but [.ticks, .replies, .debugErr, .booted, .testmode, .inReset, .vio, .resetDue], all := true } s (execDomainEntryDone domain s) := by
  unfold execDomainEntryDone
  refine OutWithin.next ?_
  extract_lets +onlyGivenNames s1
  refine Within.ite ?_ ?_
  · exact .refl
  · extract_lets +onlyGivenNames s2
    extract_lets +onlyGivenNames s3
    extract_lets +onlyGivenNames s4
    refine Within.cut (x := s4) ?_ (fun h5 => ?_)
    · unfold s4
      refine (State.setDom_within ..).then ?_
      exact .refl
    clear_value s4
    extract_lets +onlyGivenNames s6
    refine Within.cut (x := s6) ?_ (fun h7 => ?_)
    · unfold s6
      refine Within.ite ?_ ?_
      · refine (State.domLost_within ..).then ?_
        exact h5
      · exact h5
    clear_value s6
    extract_lets +onlyGivenNames s8
    refine Within.cut (x := s8) ?_ (fun h9 => ?_)
    · unfold s8
      refine (State.domChg_within ..).then ?_
      refine (State.count_within ..).then ?_
      exact h7
    clear_value s8
    refine (State.followAll_within ..).then ?_
    refine (State.clocksRest_within ..).then ?_
    exact h9

theorem execDomainWake_within (domain : Nat) (s : State) :
    OutWithin { parts := [.doms, .clk], pages := [Pg.pwr] } s (execDomainWake domain s) := by
  unfold execDomainWake
  refine OutWithin.next ?_
  extract_lets +onlyGivenNames s1
  refine Within.ite ?_ ?_
  · exact .refl
  · extract_lets +onlyGivenNames s2
    refine Within.cut (x := s2) ?_ (fun h3 => ?_)
    · unfold s2
      refine (State.setDom_within ..).then ?_
      exact .refl
    clear_value s2
    extract_lets +onlyGivenNames s4
    refine Within.cut (x := s4) ?_ (fun h5 => ?_)
    · unfold s4
      refine Within.foldl (fun s6 a7 h8 => ?_) ?_
      · refine Within.ite ?_ ?_
        · refine (State.wakeOne_within ..).then ?_
          exact h8
        · exact h8
      · exact h3
    clear_value s4
    extract_lets +onlyGivenNames s9
    refine Within.cut (x := s9) ?_ (fun h10 => ?_)
    · unfold s9
      refine Within.ite ?_ ?_
      · exact h5
      · refine (State.setClk_within ..).then ?_
        exact h5
    clear_value s9
    refine Within.ite ?_ ?_
    · refine (State.setClk_within ..).then ?_
      refine (State.setReg_within ..).then ?_
      exact h10
    · exact h10

theorem State.domRegsReset_within (s : State) (d : Nat) : Within { all := true } s (State.domRegsReset s d) := by
  unfold State.domRegsReset
  extract_lets +onlyGivenNames s1
  extract_lets +onlyGivenNames s2
  refine Within.cut (x := s2) ?_ (fun h3 => ?_)
  · unfold s2
    refine (State.clearRegs_within ..).then ?_
    exact .refl
  clear_value s2
  refine Within.foldl (fun s4 a5 h6 => ?_) ?_
  · refine Within.ite ?_ ?_
    · exact h6
    · refine (State.setReg_within ..).then ?_
      exact h6
  · exact h3

theorem State.domForget_within (s : State) (d : Nat) :
    Within { parts := Part.but [.clk, .ticks, .replies, .debugErr, .booted, .testmode, .inReset, .vio, .resetDue], all := true } s (State.domForget s d) := by
  unfold State.domForget
  refine Within.ite ?_ ?_
  · exact .refl
  · refine Within.foldl (fun s1 a2 h3 => ?_) ?_
    · refine (State.pageForget_within ..).then ?_
      exact h3
    · exact .refl

theorem State.enterOn_within (s : State) (d : Nat) (fromOff : Bool) :
    Within { parts := [.freeCtr, .recv, .syn], pages := [Pg.rfe, Pg.syn] } s (State.enterOn s d fromOff) := by
  unfold State.enterOn
  split
  · rename_i v1
    refine (State.nbRest_within ..).then ?_
    refine (State.rfeOn_within ..).then ?_
    exact .refl
  · rename_i v2
    refine (State.synOn_within ..).then ?_
    exact .refl
  · rename_i v3
    refine (State.quarterOn_within ..).then ?_
    exact .refl
  · rename_i v4
    refine (State.quarterOn_within ..).then ?_
    exact .refl
  · rename_i v5
    refine (State.quarterOn_within ..).then ?_
    exact .refl
  · rename_i v6
    refine (State.quarterOn_within ..).then ?_
    exact .refl
  · rename_i v7 v8 v9 v10 v11 v12 v13
    exact .refl

theorem State.warmStart_within (s : State) (d : Nat) :
    Within { parts := [.cpus], all := true } s (State.warmStart s d) := by
  unfold State.warmStart
  extract_lets +onlyGivenNames s1
  refine Within.ite ?_ ?_
  · unfold s1
    refine (State.runCore_within ..).then ?_
    refine (State.setReg_within ..).then ?_
    exact .refl
  · refine Within.ite ?_ ?_
    · unfold s1
      refine (State.runCore_within ..).then ?_
      refine (State.setReg_within ..).then ?_
      exact .refl
    · exact .refl

theorem execDomainOn_within (domain : Nat) (s : State) :
    OutWithin { parts := Part.but [.clk, .ticks, .replies, .debugErr, .booted, .testmode, .inReset, .vio, .resetDue], all := true } s (execDomainOn domain s) := by
  unfold execDomainOn
  refine OutWithin.next ?_
  extract_lets +onlyGivenNames s1
  extract_lets +onlyGivenNames s2
  refine Within.ite ?_ ?_
  · exact .refl
  · extract_lets +onlyGivenNames s3
    extract_lets +onlyGivenNames s4
    refine Within.cut (x := s4) ?_ (fun h5 => ?_)
    · unfold s4
      refine (State.setDom_within ..).then ?_
      exact .refl
    clear_value s4
    extract_lets +onlyGivenNames s6
    refine Within.cut (x := s6) ?_ (fun h7 => ?_)
    · unfold s6
      refine Within.ite ?_ ?_
      · refine (State.domForget_within ..).then ?_
        refine (State.domRegsReset_within ..).then ?_
        exact h5
      · exact h5
    clear_value s6
    extract_lets +onlyGivenNames s8
    refine Within.cut (x := s8) ?_ (fun h9 => ?_)
    · unfold s8
      refine (State.enterOn_within ..).then ?_
      exact h7
    clear_value s8
    extract_lets +onlyGivenNames s10
    refine Within.cut (x := s10) ?_ (fun h11 => ?_)
    · unfold s10
      refine (State.domChg_within ..).then ?_
      refine (State.count_within ..).then ?_
      exact h9
    clear_value s10
    extract_lets +onlyGivenNames s12
    refine Within.cut (x := s12) ?_ (fun h13 => ?_)
    · unfold s12
      refine Within.ite ?_ ?_
      · refine (State.warmStart_within ..).then ?_
        exact h11
      · exact h11
    clear_value s12
    refine (State.followAll_within ..).then ?_
    refine (State.flushQueue_within ..).then ?_
    exact h13

theorem execRefCheck_within (good : Bool) (s : State) : OutWithin { parts := [.clk] } s (execRefCheck good s) := by
  unfold execRefCheck
  refine OutWithin.next ?_
  split
  · rename_i v1 v2
    exact .refl
  · rename_i v3 v4 v5
    refine Within.ite ?_ ?_
    · exact .refl
    · refine (State.setClk_within ..).then ?_
      exact .refl

theorem execRefFail_within (s : State) : OutWithin { parts := [.mrc], pages := [Pg.pwr] } s (execRefFail s) := by
  unfold execRefFail
  refine OutWithin.next ?_
  split
  · rename_i v1 v2
    exact .refl
  · rename_i v3 v4 v5
    refine Within.ite ?_ ?_
    · exact .refl
    · refine (State.event_within ..).then ?_
      exact .refl

theorem execPllLock_within (pll : Nat) (s : State) : OutWithin { parts := [.clk, .tim] } s (execPllLock pll s) := by
  unfold execPllLock
  refine OutWithin.next ?_
  refine Within.ite ?_ ?_
  · exact .refl
  · split
    · rename_i v1
      refine Within.ite ?_ ?_
      · exact .refl
      · extract_lets +onlyGivenNames s2
        refine Within.cut (x := s2) ?_ (fun h3 => ?_)
        · unfold s2
          refine (State.setClk_within ..).then ?_
          exact .refl
        clear_value s2
        refine Within.ite ?_ ?_
        · refine (State.setTim_within ..).then ?_
          exact h3
        · exact h3
    · rename_i v4
      refine Within.ite ?_ ?_
      · refine (State.setClk_within ..).then ?_
        exact .refl
      · exact .refl
    · rename_i v5
      refine Within.ite ?_ ?_
      · refine (State.setClk_within ..).then ?_
        exact .refl
      · exact .refl
    · rename_i v6 v7 v8 v9
      exact .refl

theorem execXtalFail_within (s : State) :
    OutWithin { parts := [.clk, .tim, .rtc, .mrc], pages := [Pg.pwr, Pg.rtc] } s (execXtalFail s) := by
  unfold execXtalFail
  refine OutWithin.next ?_
  refine Within.ite ?_ ?_
  · exact .refl
  · extract_lets +onlyGivenNames s1
    refine Within.cut (x := s1) ?_ (fun h2 => ?_)
    · unfold s1
      refine (State.setClk_within ..).then ?_
      exact .refl
    clear_value s1
    extract_lets +onlyGivenNames s3
    refine Within.cut (x := s3) ?_ (fun h4 => ?_)
    · unfold s3
      refine (State.setTim_within ..).then ?_
      exact h2
    clear_value s3
    refine (State.rtcOnRc_within ..).then ?_
    refine (State.event_within ..).then ?_
    exact h4

theorem State.xtalBack_within (s : State) (good : Bool) : Within { parts := [.clk, .rtc] } s (State.xtalBack s good) := by
  unfold State.xtalBack
  refine Within.ite ?_ ?_
  · refine (State.setRtc_within ..).then ?_
    refine (State.setClk_within ..).then ?_
    exact .refl
  · exact .refl

theorem State.clkCfgWrite_within (s : State) (ini : Initiator) (v : Word) (good : Bool) :
    Within { parts := [.clk, .rtc, .mrc], pages := [Pg.pwr] } s (State.clkCfgWrite s ini v good) := by
  unfold State.clkCfgWrite
  refine Within.ite ?_ ?_
  · refine (State.lockedErr_within ..).then ?_
    exact .refl
  · extract_lets +onlyGivenNames s1
    refine Within.cut (x := s1) ?_ (fun h2 => ?_)
    · unfold s1
      refine (State.plainWrite_within ..).then ?_
      exact .refl
    clear_value s1
    refine Within.ite ?_ ?_
    · refine (State.xtalBack_within ..).then ?_
      exact h2
    · exact h2

theorem execXtalRetry_within (ini : Initiator) (good : Bool) (s : State) :
    OutWithin { parts := [.doms, .clk, .replies, .stalls, .debugErr, .rtc, .mrc], pages := [Pg.pwr, Pg.sec] } s (execXtalRetry ini good s) := by
  unfold execXtalRetry
  refine OutWithin.next ?_
  refine State.pageWrite_within ?_ (fun s1 h2 => ?_)
  · exact .refl
  · refine (State.clkCfgWrite_within ..).then ?_
    exact h2

theorem State.vcoreWrite_within (s : State) (ini : Initiator) (v : Word) :
    Within { parts := [.clk, .mrc], pages := [Pg.pwr] } s (State.vcoreWrite s ini v) := by
  unfold State.vcoreWrite
  extract_lets +onlyGivenNames s1
  refine Within.ite ?_ ?_
  · refine (State.lockedErr_within ..).then ?_
    exact .refl
  · refine Within.ite ?_ ?_
    · exact .refl
    · refine Within.ite ?_ ?_
      · refine (State.raise_within ..).then ?_
        exact .refl
      · refine (State.setClk_within ..).then ?_
        refine (State.setReg_within ..).then ?_
        exact .refl

theorem execVcoreChange_within (ini : Initiator) (low : Bool) (s : State) :
    OutWithin { parts := [.doms, .clk, .replies, .stalls, .debugErr, .mrc], pages := [Pg.pwr, Pg.sec] } s (execVcoreChange ini low s) := by
  unfold execVcoreChange
  refine OutWithin.next ?_
  refine State.pageWrite_within ?_ (fun s1 h2 => ?_)
  · exact .refl
  · refine (State.vcoreWrite_within ..).then ?_
    exact h2

theorem execVcoreDone_within (s : State) : OutWithin { parts := [.clk, .mrc], pages := [Pg.pwr] } s (execVcoreDone s) := by
  unfold execVcoreDone
  refine OutWithin.next ?_
  refine Within.ite ?_ ?_
  · refine (State.event_within ..).then ?_
    refine (State.setClk_within ..).then ?_
    exact .refl
  · exact .refl

theorem State.wakeTarget_within (s : State) (d : Nat) : Within { parts := [.doms] } s (State.wakeTarget s d) := by
  unfold State.wakeTarget
  refine Within.ite ?_ ?_
  · exact .refl
  · extract_lets +onlyGivenNames s1
    refine Within.cut (x := s1) ?_ (fun h2 => ?_)
    · unfold s1
      refine (State.wake_within ..).then ?_
      exact .refl
    clear_value s1
    refine (State.setDom_within ..).then ?_
    exact h2

theorem State.wakeBy_within (s : State) (source : Nat) :
    Within { parts := [.doms, .mrc, .cas], pages := [Pg.pwr] } s (State.wakeBy s source) := by
  unfold State.wakeBy
  refine Within.ite ?_ ?_
  · exact .refl
  · extract_lets +onlyGivenNames s1
    refine Within.cut (x := s1) ?_ (fun h2 => ?_)
    · unfold s1
      refine Within.ite ?_ ?_
      · refine (State.setCas_within ..).then ?_
        exact .refl
      · exact .refl
    clear_value s1
    extract_lets +onlyGivenNames s3
    refine Within.cut (x := s3) ?_ (fun h4 => ?_)
    · unfold s3
      refine (State.event_within ..).then ?_
      refine (State.setReg_within ..).then ?_
      exact h2
    clear_value s3
    extract_lets +onlyGivenNames s5
    extract_lets +onlyGivenNames s6
    refine Within.cut (x := s6) ?_ (fun h7 => ?_)
    · unfold s6
      refine Within.ite ?_ ?_
      · refine (State.wake_within ..).then ?_
        exact h4
      · exact h4
    clear_value s6
    extract_lets +onlyGivenNames s8
    refine Within.cut (x := s8) ?_ (fun h9 => ?_)
    · unfold s8
      refine Within.ite ?_ ?_
      · refine (State.wakeTarget_within ..).then ?_
        exact h7
      · exact h7
    clear_value s8
    refine Within.ite ?_ ?_
    · refine (State.wakeTarget_within ..).then ?_
      exact h9
    · exact h9

theorem execWakeSource_within (source : Nat) (s : State) :
    OutWithin { parts := [.doms, .mrc, .cas], pages := [Pg.pwr] } s (execWakeSource source s) := by
  unfold execWakeSource
  refine OutWithin.next ?_
  refine (State.wakeBy_within ..).then ?_
  exact .refl

theorem State.wakeSrcWrite_within (s : State) (v : Word) :
    Within { parts := [.eth, .cas], pages := [Pg.pwr] } s (State.wakeSrcWrite s v) := by
  unfold State.wakeSrcWrite
  extract_lets +onlyGivenNames s1
  refine Within.cut (x := s1) ?_ (fun h2 => ?_)
  · unfold s1
    refine (State.setReg_within ..).then ?_
    exact .refl
  clear_value s1
  extract_lets +onlyGivenNames s3
  extract_lets +onlyGivenNames s4
  refine Within.cut (x := s4) ?_ (fun h5 => ?_)
  · unfold s4
    refine Within.ite ?_ ?_
    · refine Within.of_mk ?_
      exact h2
    · exact h2
  clear_value s4
  refine Within.ite ?_ ?_
  · refine (State.setCas_within ..).then ?_
    exact h5
  · exact h5

theorem execRtcTick_within (s : State) :
    OutWithin { parts := Part.but [.replies, .debugErr, .booted, .testmode, .inReset, .vio, .resetDue], all := true } s (execRtcTick s) := by
  unfold execRtcTick
  extract_lets +onlyGivenNames s1
  extract_lets +onlyGivenNames s2
  refine OutWithin.cut (x := s2) ?_ (fun h3 => ?_)
  · unfold s2
    refine Within.of_mk ?_
    exact .refl
  clear_value s2
  refine OutWithin.next ?_
  refine (State.settle_within ..).then ?_
  refine (State.idleTick_within ..).then ?_
  refine (State.rtcTick_within ..).then ?_
  refine (State.timTickEdge_within ..).then ?_
  exact h3

theorem execTickperWindowEnd_within (s : State) :
    OutWithin { parts := [.freeCtr, .tim, .rtc, .mrc], pages := [Pg.rtc] } s (execTickperWindowEnd s) := by
  unfold execTickperWindowEnd
  refine OutWithin.next ?_
  split
  · rename_i v1 v2 v3
    split
    · rename_i v4 v5 v6
      extract_lets +onlyGivenNames s7
      refine (State.rtcFromTim_within ..).then ?_
      refine (State.setTim_within ..).then ?_
      exact .refl
    · rename_i v8 v9
      exact .refl
  · rename_i v10 v11
    exact .refl

theorem State.dmIdleWrite_within (s : State) (ini : Initiator) (d : Nat) (v : Word) :
    Within { parts := [.mrc], pages := [Pg.pwr] } s (State.dmIdleWrite s ini d v) := by
  unfold State.dmIdleWrite
  refine Within.ite ?_ ?_
  · refine (State.lockedErr_within ..).then ?_
    exact .refl
  · refine Within.ite ?_ ?_
    · exact .refl
    · extract_lets +onlyGivenNames s1
      extract_lets +onlyGivenNames s2
      refine (State.setReg_within ..).then ?_
      exact .refl

theorem State.pwrWrite_within (s : State) (ini : Initiator) (idx : Nat) (off : Nat) (v : Word) (good : Bool) :
    OptWithin { parts := Part.but [.ticks, .replies, .debugErr, .booted, .testmode, .inReset, .vio, .resetDue], all := true } s (State.pwrWrite s ini idx off v good) := by
  unfold State.pwrWrite
  split
  · rename_i v1
    refine OptWithin.some ?_
    refine (State.dmCtrlWrite_within ..).then ?_
    exact .refl
  · rename_i v2
    refine OptWithin.some ?_
    refine (State.dmIdleWrite_within ..).then ?_
    exact .refl
  · rename_i v3
    refine OptWithin.some ?_
    refine (State.wakeSrcWrite_within ..).then ?_
    exact .refl
  · rename_i v4
    refine OptWithin.some ?_
    refine (State.clkCfgWrite_within ..).then ?_
    exact .refl
  · rename_i v5
    refine OptWithin.some ?_
    refine (State.vcoreWrite_within ..).then ?_
    exact .refl
  · rename_i v6 v7 v8 v9 v10 v11
    exact OptWithin.none

end Sys2Proof.Machine
end

