-- ==== Sys2Proof/Laws/FrameReset.lean ====
section
/-! SUPPORT. What each operation of Machine/Reset.lean may change, and that it keeps a sound state sound. -/

namespace Sys2Proof.Machine

-- one proof at a time: the file holds many small ones
set_option Elab.async false

theorem State.lnkCancel_within (s : State) (p : Nat → Bool) :
    Within { parts := [.staged, .claims, .commits, .doms, .flm, .recv, .syn, .txa, .mrc, .lnk], all := true } s (State.lnkCancel s p) := by
  unfold State.lnkCancel
  extract_lets +onlyGivenNames s1
  extract_lets +onlyGivenNames s2
  refine Within.cut (x := s2) ?_ (fun h3 => ?_)
  · unfold s2
    refine (State.jobsAborted_within ..).then ?_
    exact .refl
  clear_value s2
  extract_lets +onlyGivenNames s4
  refine Within.cut (x := s4) ?_ (fun h5 => ?_)
  · unfold s4
    refine (State.setLnk_within ..).then ?_
    exact h3
  clear_value s4
  extract_lets +onlyGivenNames s6
  refine Within.cut (x := s6) ?_ (fun h7 => ?_)
  · unfold s6
    refine Within.ite ?_ ?_
    · refine (State.closeUse_within ..).then ?_
      exact h5
    · exact h5
  clear_value s6
  refine Within.ite ?_ ?_
  · exact h7
  · refine Within.foldl (fun s8 a9 h10 => ?_) ?_
    · refine Within.ite ?_ ?_
      · refine (State.updItem_within ..).then ?_
        exact h10
      · exact h10
    · exact h7

theorem State.ringAbortWrite_within (s : State) (ring : Nat) :
    Within { parts := Part.but [.mem, .lost, .clk, .ticks, .replies, .stalls, .debugErr, .drc, .tim, .wrx, .rtc, .sec, .cpus, .cas, .upd, .booted, .testmode, .inReset, .vio, .resetDue], all := true } s (State.ringAbortWrite s ring) := by
  unfold State.ringAbortWrite
  extract_lets +onlyGivenNames s1
  extract_lets +onlyGivenNames s2
  extract_lets +onlyGivenNames s3
  refine Within.cut (x := s3) ?_ (fun h4 => ?_)
  · unfold s3
    refine (State.calAborted_within ..).then ?_
    refine (State.lnkCancel_within ..).then ?_
    refine (State.setRing_within ..).then ?_
    exact .refl
  clear_value s3
  extract_lets +onlyGivenNames s5
  extract_lets +onlyGivenNames s6
  extract_lets +onlyGivenNames s7
  refine Within.cut (x := s7) ?_ (fun h8 => ?_)
  · unfold s7
    refine Within.of_mk ?_
    exact h4
  clear_value s7
  extract_lets +onlyGivenNames s9
  refine Within.cut (x := s9) ?_ (fun h10 => ?_)
  · unfold s9
    refine (State.nandCutItems_within ..).then ?_
    exact h8
  clear_value s9
  extract_lets +onlyGivenNames s11
  refine Within.cut (x := s11) ?_ (fun h12 => ?_)
  · unfold s11
    refine (State.abortActive_within ..).then ?_
    exact h10
  clear_value s11
  extract_lets +onlyGivenNames s13
  refine Within.cut (x := s13) ?_ (fun h14 => ?_)
  · unfold s13
    refine Within.foldl (fun s15 a16 h17 => ?_) ?_
    · refine (State.unitStopped_within ..).then ?_
      exact h17
    · exact h12
  clear_value s13
  refine (State.abortRest_within ..).then ?_
  exact h14

theorem State.wrCtrlWrite_within (s : State) (ini : Initiator) (v : Word) :
    Within { parts := Part.but [.mem, .lost, .clk, .ticks, .replies, .stalls, .debugErr, .drc, .tim, .wrx, .rtc, .sec, .cpus, .cas, .upd, .booted, .testmode, .inReset, .vio, .resetDue], all := true } s (State.wrCtrlWrite s ini v) := by
  unfold State.wrCtrlWrite
  extract_lets +onlyGivenNames s1
  extract_lets +onlyGivenNames s2
  refine Within.cut (x := s2) ?_ (fun h3 => ?_)
  · unfold s2
    refine Within.ite ?_ ?_
    · refine (State.ringResume_within ..).then ?_
      exact .refl
    · exact .refl
  clear_value s2
  refine Within.ite ?_ ?_
  · refine (State.ringAbortWrite_within ..).then ?_
    exact h3
  · exact h3

theorem execRingAbort_within (ini : Initiator) (s : State) :
    OutWithin { parts := Part.but [.mem, .lost, .clk, .ticks, .drc, .tim, .wrx, .rtc, .sec, .cpus, .cas, .upd, .booted, .testmode, .inReset, .vio, .resetDue], all := true } s (execRingAbort ini s) := by
  unfold execRingAbort
  refine OutWithin.next ?_
  refine State.pageWrite_within ?_ (fun s1 h2 => ?_)
  · exact .refl
  · refine (State.wrCtrlWrite_within ..).then ?_
    exact h2

theorem execItemFinish_within (entry : Nat) (s : State) :
    OutWithin { parts := Part.but [.clk, .ticks, .replies, .debugErr, .booted, .testmode, .inReset, .vio, .resetDue], all := true } s (execItemFinish entry s) := by
  unfold execItemFinish
  refine OutWithin.next ?_
  split
  · rename_i v1 v2 v3
    refine Within.ite ?_ ?_
    · extract_lets +onlyGivenNames s4
      refine Within.cut (x := s4) ?_ (fun h5 => ?_)
      · unfold s4
        refine (State.retireWith_within ..).then ?_
        exact .refl
      clear_value s4
      refine (State.settle_within ..).then ?_
      refine Within.ite ?_ ?_
      · refine (State.abortRest_within ..).then ?_
        exact h5
      · exact h5
    · exact .refl
  · rename_i v6 v7
    exact .refl

theorem execLaunchTimeReached_within (entry : Nat) (flips : List Flip) (s : State) :
    OutWithin { parts := [.doms, .clk, .flm, .drc, .flc, .recv, .syn, .mrc, .lnk], pages := [Pg.pwr, Pg.lnk] } s (execLaunchTimeReached entry flips s) := by
  unfold execLaunchTimeReached
  extract_lets +onlyGivenNames s1
  refine OutWithin.cut (x := s1) ?_ (fun h2 => ?_)
  · unfold s1
    refine (State.applyFlips_within ..).then ?_
    exact .refl
  clear_value s1
  refine OutWithin.next ?_
  split
  · rename_i v3 v4 v5
    refine Within.ite ?_ ?_
    · extract_lets +onlyGivenNames s6
      refine Within.cut (x := s6) ?_ (fun h7 => ?_)
      · unfold s6
        refine (State.updItem_within ..).then ?_
        exact h2
      clear_value s6
      refine Within.ite ?_ ?_
      · refine (State.finish_within ..).then ?_
        exact h7
      · refine Within.ite ?_ ?_
        · refine (State.rxwinOpens_within ..).then ?_
          exact h7
        · exact h7
    · exact h2
  · rename_i v8 v9
    exact h2

theorem State.resetReports_within (s : State) (air : List Air) :
    Within { parts := [.mem, .doms, .flm, .drc, .recv, .mrc, .lnk], pages := [Pg.chz, Pg.drc, Pg.flm, Pg.phy] } s (State.resetReports s air) := by
  unfold State.resetReports
  extract_lets +onlyGivenNames s1
  refine Within.cut (x := s1) ?_ (fun h2 => ?_)
  · unfold s1
    refine (State.queueAborted_within ..).then ?_
    refine (State.cutLanes_within ..).then ?_
    exact .refl
  clear_value s1
  refine (State.lnkEventsLost_within ..).then ?_
  refine (State.storesLost_within ..).then ?_
  exact h2

theorem State.resetItems_within (s : State) :
    Within { parts := [.staged, .claims, .commits, .doms, .freeCtr, .flm, .recv, .syn, .txa, .eth, .mrc, .lnk], all := true } s (State.resetItems s) := by
  unfold State.resetItems
  extract_lets +onlyGivenNames s1
  refine Within.cut (x := s1) ?_ (fun h2 => ?_)
  · unfold s1
    refine (State.jobsAborted_within ..).then ?_
    refine (State.ethCut_within ..).then ?_
    refine (State.calAborted_within ..).then ?_
    exact .refl
  clear_value s1
  extract_lets +onlyGivenNames s3
  extract_lets +onlyGivenNames s4
  refine Within.cut (x := s4) ?_ (fun h5 => ?_)
  · unfold s4
    unfold s3
    refine Within.foldl (fun s6 a7 h8 => ?_) ?_
    · refine (State.retireWith_within ..).then ?_
      exact h8
    · refine Within.foldl (fun s9 a10 h11 => ?_) ?_
      · refine (State.retireWith_within ..).then ?_
        exact h11
      · exact h2
  clear_value s4
  refine Within.foldl (fun s12 a13 h14 => ?_) ?_
  · refine Within.ite ?_ ?_
    · refine (State.abortUnfetched_within ..).then ?_
      exact h14
    · exact h14
  · exact h5

/-- A change that also returns registers to their reset values. -/
theorem Within.resetRegs {w : Touch} {s x y : State} (p : Nat → Bool) (hx : Within w s x) (hw : w.all = true) (hv : y.variant = x.variant)
    (hp : y.pending = x.pending) (hr : y.regs = Sparse.keep p x.regs) (hm : y.mem = x.mem) (hl : y.lost = x.lost)
    (h : ∀ q, q ∉ w.parts → q.same x y) : Within w s y where
  variant := hv.trans hx.variant
  pending := hp.trans hx.pending
  wf := fun k => by
    have := hx.wf k
    unfold State.wf Memory.wf Memory.tells State.regsWf State.unwrittenKnown State.unwritten at this ⊢
    rw [hm, hl, hr]
    rw [Bool.and_eq_true] at this ⊢
    exact ⟨this.1, Sparse.rising_keep p this.2⟩
  regs := fun ha => by rw [hw] at ha; cases ha
  same := fun q hn => Part.same_trans (hx.same q hn) (h q hn)

theorem State.afterReset_within (s : State) (cause : Nat) (per : Bool) :
    Within { parts := Part.but [.ticks, .testmode, .inReset, .vio], all := true } s (State.afterReset s cause per) := by
  unfold State.afterReset
  extract_lets +onlyGivenNames s1
  refine Within.cut (x := s1) ?_ (fun h1 => ?_)
  · unfold s1
    refine Within.ite ?_ ?_
    · exact .refl
    · refine (State.drcOff_within ..).then ?_
      exact .refl
  clear_value s1
  extract_lets +onlyGivenNames s2
  refine Within.cut (x := s2) ?_ (fun h2 => ?_)
  · unfold s2
    refine (State.mrcReset_within ..).then ?_
    refine (State.nmcOff_within ..).then ?_
    exact h1
  clear_value s2
  refine (State.tagPageReset_within ..).then ?_
  refine (State.setReg_within ..).then ?_
  refine Within.resetRegs (keptByReset per) h2 rfl rfl rfl rfl rfl rfl ?_
  intro q hq
  cases q <;> first | rfl | exact absurd (by decide) hq

theorem State.partReset_within (s : State) (cause : Nat) (air : List Air) :
    Within Touch.bus s (State.partReset s cause air) := by
  unfold State.partReset
  extract_lets +onlyGivenNames s1
  refine (State.afterReset_within ..).then ?_
  refine (State.resetItems_within ..).then ?_
  refine (State.resetReports_within ..).then ?_
  exact .refl

theorem State.requestReset_within (s : State) (cause : Nat) (air : List Air) :
    Within Touch.bus s (State.requestReset s cause air) := by
  unfold State.requestReset
  refine Within.ite ?_ ?_
  · exact .refl
  · refine Within.ite ?_ ?_
    · refine Within.of_mk ?_
      exact .refl
    · refine (State.partReset_within ..).then ?_
      exact .refl

theorem State.resetWrite_within (s : State) (ini : Initiator) (v : Word) (air : List Air) :
    Within Touch.bus s (State.resetWrite s ini v air) := by
  unfold State.resetWrite
  refine Within.ite ?_ ?_
  · refine (State.raise_within ..).then ?_
    exact .refl
  · refine Within.ite ?_ ?_
    · refine (State.requestReset_within ..).then ?_
      exact .refl
    · exact .refl

theorem execSoftwarePartReset_within (ini : Initiator) (value : Word) (air : List Air) (s : State) :
    OutWithin Touch.bus s (execSoftwarePartReset ini value air s) := by
  unfold execSoftwarePartReset
  refine OutWithin.next ?_
  refine State.pageWrite_within ?_ (fun s1 h2 => ?_)
  · exact .refl
  · refine (State.resetWrite_within ..).then ?_
    exact h2

theorem execResetN_within (master : Bool) (testmode : Bool) (air : List Air) (s : State) :
    OutWithin { parts := Part.but [.ticks, .inReset, .vio], all := true } s (execResetN master testmode air s) := by
  unfold execResetN
  refine OutWithin.next ?_
  refine (State.requestReset_within ..).then ?_
  refine Within.of_mk ?_
  exact .refl

theorem execWatchdogExpire_within (air : List Air) (s : State) : OutWithin Touch.bus s (execWatchdogExpire air s) := by
  unfold execWatchdogExpire
  refine OutWithin.next ?_
  refine (State.requestReset_within ..).then ?_
  exact .refl

theorem execDeferredResetApply_within (air : List Air) (s : State) :
    OutWithin Touch.bus s (execDeferredResetApply air s) := by
  unfold execDeferredResetApply
  refine OutWithin.next ?_
  split
  · rename_i v1 v2 v3
    refine Within.ite ?_ ?_
    · exact .refl
    · refine (State.partReset_within ..).then ?_
      exact .refl
  · rename_i v4 v5
    exact .refl

theorem State.supplyFails_within (s : State) :
    Within { parts := [.mem, .lost, .freeCtr, .flc, .nmc] } s (State.supplyFails s) := by
  unfold State.supplyFails
  extract_lets +onlyGivenNames s1
  refine Within.cut (x := s1) ?_ (fun h2 => ?_)
  · unfold s1
    refine (State.nmcOff_within ..).then ?_
    refine (State.flashCut_within ..).then ?_
    exact .refl
  clear_value s1
  refine Within.foldl (fun s3 a4 h5 => ?_) ?_
  · refine (State.loseRegion_within ..).then ?_
    exact h5
  · exact h2

theorem execBrownOut_within (s : State) :
    OutWithin { parts := Part.but [.ticks, .testmode, .vio], all := true } s (execBrownOut s) := by
  unfold execBrownOut
  refine OutWithin.next ?_
  refine (State.afterReset_within ..).then ?_
  extract_lets +onlyGivenNames s1
  refine Within.cut (x := s1) ?_ (fun h2 => ?_)
  · unfold s1
    refine (State.supplyFails_within ..).then ?_
    exact .refl
  clear_value s1
  refine Within.of_mk ?_
  exact h2

theorem State.vbatLost_within (s : State) :
    Within { parts := [.mem, .lost, .freeCtr, .flc, .rtc, .upd], all := true } s (State.vbatLost s) := by
  have h := (State.loseRegion_within s 20).mono (w := { parts := [.mem, .lost, .freeCtr, .flc, .rtc, .upd], all := true }) (by decide)
  unfold State.vbatLost
  refine Within.resetRegs (fun k => keyPage k != Pg.rtc && keyPage k != Pg.mrc) h rfl rfl rfl rfl rfl rfl ?_
  intro q hq
  cases q <;> first | rfl | exact absurd (by decide) hq

theorem execPowerOn_within (lost : Bool) (master : Bool) (testmode : Bool) (vio : List (VioBank × VioLevel)) (s : State) :
    OutWithin { parts := Part.but [.ticks], all := true } s (execPowerOn lost master testmode vio s) := by
  unfold execPowerOn
  refine OutWithin.next ?_
  refine Within.ite ?_ ?_
  · refine (State.vbatLost_within ..).then ?_
    refine (State.afterReset_within ..).then ?_
    extract_lets +onlyGivenNames s1
    refine Within.cut (x := s1) ?_ (fun h2 => ?_)
    · unfold s1
      refine (State.supplyFails_within ..).then ?_
      exact .refl
    clear_value s1
    refine Within.of_mk ?_
    exact h2
  · refine Within.ite ?_ ?_
    · refine Within.of_mk ?_
      exact .refl
    · exact .refl

end Sys2Proof.Machine
end

