-- ==== Sys2Proof/Laws/FrameUpdate.lean ====
section
/-! SUPPORT. What each operation of Machine/Update.lean may change, and that it keeps a sound state sound. -/

namespace Sys2Proof.Machine

-- one proof at a time: the file holds many small ones
set_option Elab.async false

theorem State.setUpd_within (s : State) (f : Upd → Upd) : Within { parts := [.upd] } s (State.setUpd s f) := by
  unfold State.setUpd
  refine Within.of_mk ?_
  exact .refl

theorem State.setUpdSess_within (s : State) (k : Nat) (x : UpdSess) :
    Within { parts := [.upd] } s (State.setUpdSess s k x) := by
  unfold State.setUpdSess
  refine (State.setUpd_within ..).then ?_
  exact .refl

theorem State.updFail_within (s : State) (i : Item) (reason : Nat) (status : Nat) :
    Within { parts := [.flm] } s (State.updFail s i reason status) := by
  unfold State.updFail
  refine (State.finish_within ..).then ?_
  exact .refl

theorem State.updIn_within {w : Touch} {s x : State} {i : Item} {a n : Nat} {k : State → List Byte → State}
    (hx : Within w s x) (hk : ∀ y bs, Within w s y → Within w s (k y bs))
    (hw : Touch.le { parts := [.doms, .freeCtr, .flm, .drc, .mrc], pages := [Pg.drc, Pg.flc] } w = true := by first | decide | simp [Touch.le, Touch.bus, Part.but, Part.every]) :
    Within w s (x.updIn i a n k) := by
  have hs : ∀ {v : Touch} {y z : State}, Within v y z → v.le { parts := [.doms, .freeCtr, .flm, .drc, .mrc], pages := [Pg.drc, Pg.flc] } = true → Within w s y → Within w s z :=
    fun h hv hy => (h.mono hv).step hy hw
  have hu := hs (State.unitRead_within x a n false) (by decide) hx
  unfold State.updIn
  split <;> rename_i h <;> have hy := Within.fst h hu
  · exact hy
  · exact hs (State.finish_within ..) (by decide) hy
  · split
    · exact hs (State.finish_within ..) (by decide) hy
    · exact hk _ _ hy

theorem execUpdOpen_within (entry : Nat) (flips : List Flip) (s : State) :
    OutWithin { parts := [.doms, .freeCtr, .flm, .drc, .flc, .mrc, .upd], pages := [Pg.drc, Pg.flc] } s (execUpdOpen entry flips s) := by
  unfold execUpdOpen
  extract_lets +onlyGivenNames s1
  refine OutWithin.cut (x := s1) ?_ (fun h2 => ?_)
  · unfold s1
    refine (State.applyFlips_within ..).then ?_
    exact .refl
  clear_value s1
  refine OutWithin.next ?_
  split
  · rename_i v3 v4
    exact h2
  · rename_i v5 v6 v7
    refine Within.ite ?_ ?_
    · refine (State.updFail_within ..).then ?_
      exact h2
    · refine State.updIn_within ?_ (fun s8 a10 h9 => ?_)
      · exact h2
      · split
        · rename_i v13 v14 v15 v16
          refine (State.updFail_within ..).then ?_
          exact h9
        · rename_i v17 v18
          refine (State.finish_within ..).then ?_
          refine (State.setUpdSess_within ..).then ?_
          exact h9

theorem State.chunkFail_within (s : State) (i : Item) (reason : Nat) (status : Nat) :
    Within { parts := [.flm], pages := [Pg.upd] } s (State.chunkFail s i reason status) := by
  unfold State.chunkFail
  refine (State.updFail_within ..).then ?_
  refine (State.count_within ..).then ?_
  exact .refl

theorem State.chunkDone_within (s : State) (i : Item) (x : UpdSess) :
    Within { parts := [.flm, .upd], pages := [Pg.upd] } s (State.chunkDone s i x) := by
  unfold State.chunkDone
  refine (State.finish_within ..).then ?_
  refine (State.setUpdSess_within ..).then ?_
  refine (State.count_within ..).then ?_
  exact .refl

theorem execUpdChunk_within (entry : Nat) (flips : List Flip) (s : State) :
    OutWithin { parts := [.doms, .freeCtr, .flm, .drc, .flc, .mrc, .upd], pages := [Pg.upd, Pg.drc, Pg.flc] } s (execUpdChunk entry flips s) := by
  unfold execUpdChunk
  extract_lets +onlyGivenNames s1
  refine OutWithin.cut (x := s1) ?_ (fun h2 => ?_)
  · unfold s1
    refine (State.applyFlips_within ..).then ?_
    exact .refl
  clear_value s1
  refine OutWithin.next ?_
  split
  · rename_i v3 v4
    exact h2
  · rename_i v5 v6 v7
    split
    · rename_i v8 v9
      refine (State.chunkFail_within ..).then ?_
      exact h2
    · rename_i v10 v11 v12
      extract_lets +onlyGivenNames s13
      extract_lets +onlyGivenNames s14
      refine Within.ite ?_ ?_
      · extract_lets +onlyGivenNames s15
        refine Within.ite ?_ ?_
        · refine (State.chunkFail_within ..).then ?_
          exact h2
        · refine State.updIn_within ?_ (fun s16 a18 h17 => ?_)
          · exact h2
          · refine Within.ite ?_ ?_
            · refine (State.chunkFail_within ..).then ?_
              exact h17
            · refine (State.chunkDone_within ..).then ?_
              exact h17
      · extract_lets +onlyGivenNames s21
        extract_lets +onlyGivenNames s22
        refine Within.ite ?_ ?_
        · refine (State.chunkFail_within ..).then ?_
          exact h2
        · refine State.updIn_within ?_ (fun s23 a25 h24 => ?_)
          · exact h2
          · refine Within.ite ?_ ?_
            · refine (State.chunkFail_within ..).then ?_
              exact h24
            · refine State.updIn_within ?_ (fun s28 a30 h29 => ?_)
              · exact h24
              · refine Within.ite ?_ ?_
                · refine (State.chunkFail_within ..).then ?_
                  exact h29
                · refine (State.chunkDone_within ..).then ?_
                  exact h29

theorem execUpdArm_within (entry : Nat) (flips : List Flip) (s : State) :
    OutWithin { parts := [.mem, .doms, .flm, .drc, .flc, .mrc], pages := [Pg.drc] } s (execUpdArm entry flips s) := by
  unfold execUpdArm
  extract_lets +onlyGivenNames s1
  refine OutWithin.cut (x := s1) ?_ (fun h2 => ?_)
  · unfold s1
    refine (State.applyFlips_within ..).then ?_
    exact .refl
  clear_value s1
  refine OutWithin.next ?_
  split
  · rename_i v3 v4
    exact h2
  · rename_i v5 v6 v7
    extract_lets +onlyGivenNames s8
    extract_lets +onlyGivenNames s9
    extract_lets +onlyGivenNames s10
    refine Within.ite ?_ ?_
    · refine (State.updFail_within ..).then ?_
      exact h2
    · refine Within.ite ?_ ?_
      · refine (State.updFail_within ..).then ?_
        exact h2
      · refine Within.ite ?_ ?_
        · refine (State.updFail_within ..).then ?_
          exact h2
        · split
          · rename_i v11 v12 v13
            refine (State.wake_within ..).then ?_
            exact h2
          · rename_i v14 v15
            extract_lets +onlyGivenNames s16
            refine Within.ite ?_ ?_
            · refine (State.updFail_within ..).then ?_
              exact h2
            · extract_lets +onlyGivenNames s17
              split
              · rename_i v18 v19 v20
                refine Within.fst v20 ?_
                refine (State.unitWrite_within ..).then ?_
                exact h2
              · rename_i v21 v22 v23
                refine (State.finish_within ..).then ?_
                refine Within.fst v23 ?_
                refine (State.unitWrite_within ..).then ?_
                exact h2
              · rename_i v24 v25 v26 v27 v28
                refine (State.finish_within ..).then ?_
                refine Within.fst v28 ?_
                refine (State.unitWrite_within ..).then ?_
                exact h2
          · rename_i v29 v30 v31
            refine (State.finish_within ..).then ?_
            exact h2

theorem State.primerDomain_within (s : State) (d : Nat) :
    Within { parts := [.doms, .mrc], all := true } s (State.primerDomain s d) := by
  unfold State.primerDomain
  refine Within.ite ?_ ?_
  · exact .refl
  · refine (State.domChg_within ..).then ?_
    refine (State.count_within ..).then ?_
    refine (State.setDom_within ..).then ?_
    exact .refl

theorem State.primerStore_within (s : State) (b : List Word) :
    Within { parts := [.doms, .clk, .freeCtr, .nmc, .mrc], all := true } s (State.primerStore s b) := by
  unfold State.primerStore
  extract_lets +onlyGivenNames s1
  extract_lets +onlyGivenNames s2
  refine Within.cut (x := s2) ?_ (fun h3 => ?_)
  · unfold s2
    refine (State.setClk_within ..).then ?_
    refine (State.primerDomain_within ..).then ?_
    refine (State.primerDomain_within ..).then ?_
    exact .refl
  clear_value s2
  extract_lets +onlyGivenNames s4
  refine Within.cut (x := s4) ?_ (fun h5 => ?_)
  · unfold s4
    refine Within.foldl (fun s6 a7 h8 => ?_) ?_
    · refine (State.setReg_within ..).then ?_
      exact h8
    · exact h3
  clear_value s4
  extract_lets +onlyGivenNames s9
  refine Within.cut (x := s9) ?_ (fun h10 => ?_)
  · unfold s9
    refine (State.bumpGen_within ..).then ?_
    refine (State.drcSwitched_within ..).then ?_
    refine (State.setReg_within ..).then ?_
    refine (State.setReg_within ..).then ?_
    exact h5
  clear_value s9
  extract_lets +onlyGivenNames s11
  refine Within.cut (x := s11) ?_ (fun h12 => ?_)
  · unfold s11
    refine Within.foldl (fun s13 a14 h15 => ?_) ?_
    · refine Within.ite ?_ ?_
      · split
        rename_i v16 v17 v18 v19
        refine (State.setReg_within ..).then ?_
        refine Within.snd v19 ?_
        refine (State.fresh_within ..).then ?_
        exact h15
      · exact h15
    · exact h10
  clear_value s11
  extract_lets +onlyGivenNames s20
  refine Within.cut (x := s20) ?_ (fun h21 => ?_)
  · unfold s20
    refine Within.foldl (fun s22 a23 h24 => ?_) ?_
    · refine (State.setCh_within ..).then ?_
      exact h24
    · exact h12
  clear_value s20
  extract_lets +onlyGivenNames s25
  refine Within.cut (x := s25) ?_ (fun h26 => ?_)
  · unfold s25
    refine Within.foldl (fun s27 a28 h29 => ?_) ?_
    · refine (State.setReg_within ..).then ?_
      refine (State.setReg_within ..).then ?_
      exact h29
    · exact h21
  clear_value s25
  extract_lets +onlyGivenNames s30
  refine Within.cut (x := s30) ?_ (fun h31 => ?_)
  · unfold s30
    refine Within.foldl (fun s32 a33 h34 => ?_) ?_
    · refine (State.setReg_within ..).then ?_
      exact h34
    · exact h26
  clear_value s30
  refine (State.mounted_within ..).then ?_
  refine (State.identify_within ..).then ?_
  refine (State.bumpGen_within ..).then ?_
  exact h31

/-- The state of an install follows within a touch. -/
theorem Install.act_within {w : Touch} {s : State} {p : Install} {f : Install → Install} (hp : Within w s p.s)
    (hf : ∀ q, Within w s q.s → Within w s (f q).s) : Within w s (p.act f).s := by
  unfold Install.act
  split
  · exact hp
  · split
    · exact hp
    · exact hf _ hp
    · exact hf _ hp

/-- What an install reaches. -/
def Touch.install : Touch := { parts := [.mem, .freeCtr, .flm, .flc, .mrc, .cpus], pages := [Pg.flc] }

theorem Install.erase_within {s : State} {p : Install} (sec : Nat) (hp : Within Touch.install s p.s) :
    Within Touch.install s (p.erase sec).s := by
  unfold Install.erase
  refine Install.act_within hp (fun q hq => ?_)
  dsimp only
  split
  · have hr := State.retireSector_within q.s sec { kind := .erase, item := none, pos := sec * 0x1000, stop := sec * 0x1000 + 0x1000 }
    split <;> rename_i h <;> rw [h] at hr
    · exact (State.blankSector_within _ _).step (hr.step hq (by decide)) (by decide)
    · exact hr.step hq (by decide)
  · dsimp only
    exact (State.erased_within q.s _).step hq (by decide)

theorem Install.program_within {s : State} {p : Install} (a : Nat) (bs : List Byte) (hp : Within Touch.install s p.s) :
    Within Touch.install s (p.program a bs).s := by
  unfold Install.program
  refine Install.act_within hp (fun q hq => ?_)
  refine Within.foldl (fun y b hy => ?_) ((State.cacheDrop_within ..).step hq (by decide))
  refine (State.setFlashErr_within ..).then ?_
  exact (State.setOctet_within ..).then hy

theorem Install.log_within {s : State} {p : Install} (seq : Nat) (r : JRec) (hp : Within Touch.install s p.s) :
    Within Touch.install s (p.log seq r).s := Install.program_within _ _ hp

theorem Install.disarm_within {s : State} {p : Install} (hp : Within Touch.install s p.s) :
    Within Touch.install s p.disarm.s := by
  unfold Install.disarm
  split
  · exact Install.program_within _ _ hp
  · exact hp

theorem Install.sector_within {s : State} {p : Install} (seq c k size : Nat) (lpn : Option Nat) (lost : List Nat)
    (hp : Within Touch.install s p.s) : Within Touch.install s (p.sector seq c k size lpn lost).s := by
  unfold Install.sector
  have he := Install.erase_within (slotBase c / 0x1000 % 1024 + k) hp
  dsimp only
  split
  · split
    · exact he
    · exact he
  · exact Install.log_within _ _ (Install.program_within _ _ he)

/-- A fold over an install. -/
theorem Install.foldl_within {α : Type} {s : State} {p : Install} {f : Install → α → Install} {l : List α}
    (hf : ∀ q a, Within Touch.install s q.s → Within Touch.install s (f q a).s) (hp : Within Touch.install s p.s) :
    Within Touch.install s (l.foldl f p).s := by
  induction l generalizing p with
  | nil => exact hp
  | cons a l ih => exact ih (hf p a hp)

theorem Install.component_within {s : State} {p : Install} (seq : Nat) (jr : List JRec) (c : Nat) (h : Header)
    (lpn : Option Nat) (lost : List Nat) (hp : Within Touch.install s p.s) :
    Within Touch.install s (p.component seq jr c h lpn lost).s := by
  unfold Install.component
  split
  · exact hp
  · dsimp only
    refine Install.log_within _ _ (Install.program_within _ _ (Install.erase_within _ (Install.foldl_within (fun q k hq =>
      Install.sector_within _ _ _ _ _ _ hq) ?_)))
    split
    · exact hp
    · exact Install.log_within _ _ hp

/-- What the Primer reaches while it installs. -/
def Touch.primer : Touch := { parts := [.mem, .doms, .clk, .freeCtr, .flm, .flc, .nmc, .mrc, .upd, .cpus], all := true }

theorem State.primerInstall_within (s : State) (cut : Option Nat) (bad : List Nat) (readable : Bool) (lost : List Nat) :
    Within Touch.primer s (s.primerInstall cut bad readable lost).1.s := by
  have hn : ∀ {y z : State}, Within Touch.install y z → Within Touch.primer s y → Within Touch.primer s z := fun h hy =>
    h.step hy (by decide)
  unfold State.primerInstall
  extract_lets +onlyGivenNames none_
  split
  · exact .refl
  · rename_i r _
    extract_lets +onlyGivenNames jr
    split
    · exact .refl
    · split
      · split
        · exact hn (Install.disarm_within (p := none_) .refl) .refl
        · exact .refl
      · extract_lets +onlyGivenNames block ok
        split
        · exact .refl
        · extract_lets +onlyGivenNames s1 lpn
          have h1 : Within Touch.primer s s1 := by
            unfold s1
            split
            · refine (State.primerStore_within ..).then ?_
              exact .refl
            · exact .refl
          clear_value s1
          split
          · exact h1
          · extract_lets +onlyGivenNames head new old named resumed n s2 p p1 was begun order p2 rpt doneMask
            have h2 : Within Touch.primer s s2 := (State.setUpd_within ..).then h1
            have hp1 : Within Touch.install s2 p1.s := by
              unfold p1
              split
              · exact .refl
              · exact Install.log_within _ _ (Install.erase_within _ .refl)
            have hp2 : Within Touch.install s2 p2.s := by
              refine Install.foldl_within (fun q c hq => ?_) hp1
              dsimp only
              split
              · exact hq
              · have hc := Install.component_within r.seq jr c (head c) lpn lost hq
                split
                · dsimp only
                  exact hc
                · exact hc
            clear_value p2 s2
            split <;> dsimp only
            · have h3 : Within Touch.install s2 ({ p2 with failed := none } : Install).s := by
                dsimp only
                exact hp2
              generalize ({ p2 with failed := none } : Install) = p3 at h3 ⊢
              exact hn (Install.log_within r.seq { type := 5, value := 0 } h3) h2
            · exact hn (Install.disarm_within (Install.log_within r.seq { type := 5, value := 1 } hp2)) h2

theorem State.recoveryRing_within (s : State) (ring : Nat) (unit : Nat) (base : Nat) (tail : Nat) :
    Within { parts := [.flm], pages := [Pg.flm] } s (State.recoveryRing s ring unit base tail) := by
  unfold State.recoveryRing
  extract_lets +onlyGivenNames s1
  refine Within.cut (x := s1) ?_ (fun h2 => ?_)
  · unfold s1
    refine (State.setReg_within ..).then ?_
    refine (State.setReg_within ..).then ?_
    exact .refl
  clear_value s1
  extract_lets +onlyGivenNames s3
  refine Within.cut (x := s3) ?_ (fun h4 => ?_)
  · unfold s3
    refine (State.setReg_within ..).then ?_
    exact h2
  clear_value s3
  extract_lets +onlyGivenNames s5
  refine Within.cut (x := s5) ?_ (fun h6 => ?_)
  · unfold s5
    refine (State.setReg_within ..).then ?_
    refine (State.setReg_within ..).then ?_
    exact h4
  clear_value s5
  refine Within.foldl (fun s7 a8 h9 => ?_) ?_
  · refine (State.setReg_within ..).then ?_
    exact h9
  · refine (State.setRing_within ..).then ?_
    exact h6

theorem State.recovery_within (s : State) :
    Within { parts := [.flm, .cpus], pages := [Pg.flm, Pg.hspi] } s (State.recovery s) := by
  unfold State.recovery
  extract_lets +onlyGivenNames s1
  refine Within.cut (x := s1) ?_ (fun h2 => ?_)
  · unfold s1
    refine (State.recoveryRing_within ..).then ?_
    refine (State.recoveryRing_within ..).then ?_
    exact .refl
  clear_value s1
  extract_lets +onlyGivenNames s3
  refine Within.cut (x := s3) ?_ (fun h4 => ?_)
  · unfold s3
    refine (State.setField_within ..).then ?_
    exact h2
  clear_value s3
  refine (State.setCpu_within ..).then ?_
  exact h4

theorem State.primerLeaves_within (s : State) : Within { parts := [.freeCtr, .cpus] } s (State.primerLeaves s) := by
  unfold State.primerLeaves
  split
  rename_i v1 v2 v3 v4
  split
  rename_i v5 v6 v7 v8
  split
  rename_i v9 v10 v11 v12
  refine (State.setCpu_within ..).then ?_
  refine Within.snd v12 ?_
  refine (State.fresh_within ..).then ?_
  refine Within.snd v8 ?_
  refine (State.fresh_within ..).then ?_
  refine Within.snd v4 ?_
  refine Within.foldl₂ (fun s13 a14 h15 => ?_) ?_
  · split
    rename_i v16 v17 v18 v19
    dsimp only
    refine Within.snd v19 ?_
    refine (State.fresh_within ..).then ?_
    exact h15
  · dsimp only
    exact .refl

theorem State.startAll_within (s : State) :
    Within { parts := [.freeCtr, .mrc, .sec, .cpus], all := true } s (State.startAll s) := by
  unfold State.startAll
  extract_lets +onlyGivenNames s1
  refine Within.cut (x := s1) ?_ (fun h2 => ?_)
  · unfold s1
    refine Within.foldl (fun s3 a4 h5 => ?_) ?_
    · refine (State.setOtp_within ..).then ?_
      exact h5
    · exact .refl
  clear_value s1
  extract_lets +onlyGivenNames s6
  refine Within.cut (x := s6) ?_ (fun h7 => ?_)
  · unfold s6
    refine (State.setSec_within ..).then ?_
    exact h2
  clear_value s6
  extract_lets +onlyGivenNames s8
  refine Within.cut (x := s8) ?_ (fun h9 => ?_)
  · unfold s8
    refine (State.event_within ..).then ?_
    exact h7
  clear_value s8
  extract_lets +onlyGivenNames s10
  extract_lets +onlyGivenNames s11
  extract_lets +onlyGivenNames s12
  refine Within.cut (x := s12) ?_ (fun h13 => ?_)
  · unfold s12
    unfold s10
    refine (State.runCore_within ..).then ?_
    refine (State.setReg_within ..).then ?_
    refine (State.runCore_within ..).then ?_
    refine (State.setReg_within ..).then ?_
    refine (State.runCore_within ..).then ?_
    refine (State.setReg_within ..).then ?_
    exact h9
  clear_value s12
  extract_lets +onlyGivenNames s14
  refine Within.cut (x := s14) ?_ (fun h15 => ?_)
  · unfold s14
    refine (State.primerLeaves_within ..).then ?_
    exact h13
  clear_value s14
  refine (State.setCpu_within ..).then ?_
  exact h15

theorem State.primerReports_within (s : State) (r : InstRpt) :
    Within { parts := [.flc, .mrc, .sec], pages := [Pg.upd] } s (State.primerReports s r) := by
  unfold State.primerReports
  extract_lets +onlyGivenNames s1
  extract_lets +onlyGivenNames s2
  refine Within.cut (x := s2) ?_ (fun h3 => ?_)
  · unfold s2
    refine (State.setReg_within ..).then ?_
    exact .refl
  clear_value s2
  extract_lets +onlyGivenNames s4
  extract_lets +onlyGivenNames s5
  refine Within.cut (x := s5) ?_ (fun h6 => ?_)
  · unfold s5
    refine Within.of_mk ?_
    exact h3
  clear_value s5
  extract_lets +onlyGivenNames s7
  refine Within.cut (x := s7) ?_ (fun h8 => ?_)
  · unfold s7
    refine (State.setReg_within ..).then ?_
    exact h6
  clear_value s7
  extract_lets +onlyGivenNames s9
  refine Within.cut (x := s9) ?_ (fun h10 => ?_)
  · unfold s9
    refine Within.foldl (fun s11 a12 h13 => ?_) ?_
    · refine (State.setReg_within ..).then ?_
      exact h13
    · exact h8
  clear_value s9
  refine Within.ite ?_ ?_
  · refine (State.setSec_within ..).then ?_
    refine (State.event_within ..).then ?_
    exact h10
  · refine Within.ite ?_ ?_
    · refine (State.event_within ..).then ?_
      exact h10
    · exact h10

theorem execPrimerBoot_within (cut : Option Nat) (bad : List Nat) (readable : Bool) (lost : List Nat) (s : State) :
    OutWithin { parts := [.mem, .doms, .clk, .freeCtr, .flm, .flc, .nmc, .mrc, .sec, .cpus, .upd, .booted], all := true } s
      (execPrimerBoot cut bad readable lost s) := by
  unfold execPrimerBoot
  refine OutWithin.next (Within.ite .refl ?_)
  have hp := (State.primerInstall_within s cut bad readable lost).mono
    (w := { parts := [.mem, .doms, .clk, .freeCtr, .flm, .flc, .nmc, .mrc, .sec, .cpus, .upd, .booted], all := true }) (by decide)
  generalize s.primerInstall cut bad readable lost = pr at hp ⊢
  obtain ⟨p, r⟩ := pr
  dsimp only at hp ⊢
  refine Within.ite hp ?_
  have hb : Within { parts := [.mem, .doms, .clk, .freeCtr, .flm, .flc, .nmc, .mrc, .sec, .cpus, .upd, .booted], all := true } s
      { p.s.primerReports r with booted := true } := by
    refine Within.of_mk ?_
    refine (State.primerReports_within ..).then ?_
    exact hp
  generalize ({ p.s.primerReports r with booted := true } : State) = y at hb ⊢
  have hm := (State.setSec_within y (fun x => { x with meas := y.bootMeas })).then hb
  generalize y.setSec (fun x => { x with meas := y.bootMeas }) = z at hm ⊢
  split
  · refine (State.recovery_within ..).then ?_
    refine (State.event_within ..).then ?_
    refine (State.setSec_within ..).then ?_
    exact hm
  · refine (State.startAll_within ..).then ?_
    exact hm

end Sys2Proof.Machine
end

