-- ==== Sys2Proof/Laws/FrameBus.lean ====
section
/-! SUPPORT. What each operation of Machine/Bus.lean may change, and that it keeps a sound state sound. -/

namespace Sys2Proof.Machine

-- one proof at a time: the file holds many small ones
set_option Elab.async false

theorem State.intEnWrite_within (s : State) (page : Nat) (v : Word) :
    Within { pages := [page] } s (State.intEnWrite s page v) := by
  unfold State.intEnWrite
  refine (State.setReg_within ..).then ?_
  exact .refl

theorem State.cfgWrite_within (s : State) (ini : Initiator) (page : Nat) (v : Word) :
    Within { parts := [.staged, .claims, .commits, .mrc], pages := [page] } s (State.cfgWrite s ini page v) := by
  unfold State.cfgWrite
  refine (State.commitWrite_within ..).then ?_
  exact .refl

theorem State.headerWrite_within (s : State) (ini : Initiator) (page : Nat) (off : Nat) (v : Word) :
    Within { parts := Part.but [.clk, .ticks, .replies, .debugErr, .booted, .testmode, .inReset, .vio, .resetDue], all := true } s (State.headerWrite s ini page off v) := by
  unfold State.headerWrite
  split
  · rename_i v1
    refine (State.blkCtrlWrite_within ..).then ?_
    exact .refl
  · rename_i v2
    refine (State.intClear_within ..).then ?_
    exact .refl
  · rename_i v3
    refine (State.intEnWrite_within ..).then ?_
    exact .refl
  · rename_i v4
    refine (State.intSet_within ..).then ?_
    exact .refl
  · rename_i v5
    refine (State.errClear_within ..).then ?_
    exact .refl
  · rename_i v6
    refine (State.cfgWrite_within ..).then ?_
    exact .refl
  · rename_i v7
    refine (State.lockWrite_within ..).then ?_
    exact .refl
  · rename_i v8
    refine (State.chselWrite_within ..).then ?_
    exact .refl
  · rename_i v9 v10 v11 v12 v13 v14 v15 v16 v17
    exact .refl

theorem State.pureRead_within (s : State) (v : Option Word) : ReadWithin {} s (s.pureRead v) := by
  unfold State.pureRead
  cases v with
  | none => exact ReadWithin.none
  | some v => exact ReadWithin.some .refl

theorem State.blockRead_within (s : State) (ini : Initiator) (page : Nat) (idx : Nat) (off : Nat) :
    ReadWithin { parts := [.freeCtr, .flm, .tim, .rtc, .mrc, .lnk], pages := [Pg.rfe, Pg.chz, Pg.lnk] } s (State.blockRead s ini page idx off) := by
  unfold State.blockRead
  split
  · rename_i v1
    refine (State.pureRead_within _ _).then ?_
    exact .refl
  · rename_i v2
    refine (State.rtcRegRead_within _ _ _).then ?_
    exact .refl
  · rename_i v3
    refine (State.mrcRead_within _ _).then ?_
    exact .refl
  · rename_i v4
    refine (State.pureRead_within _ _).then ?_
    exact .refl
  · rename_i v5
    refine (State.rfeRead_within _ _).then ?_
    exact .refl
  · rename_i v6
    refine (State.pureRead_within _ _).then ?_
    exact .refl
  · rename_i v7
    refine (State.pureRead_within _ _).then ?_
    exact .refl
  · rename_i v8
    refine (State.chzRead_within _ _ _).then ?_
    exact .refl
  · rename_i v9
    refine (State.phyRead_within _ _).then ?_
    exact .refl
  · rename_i v10
    refine (State.lnkRead_within _ _ _).then ?_
    exact .refl
  · rename_i v11
    refine (State.timRead_within _ _ _).then ?_
    exact .refl
  · rename_i v12
    refine (State.pureRead_within _ _).then ?_
    exact .refl
  · rename_i v13
    refine (State.pureRead_within _ _).then ?_
    exact .refl
  · rename_i v14
    refine (State.pureRead_within _ _).then ?_
    exact .refl
  · rename_i v15
    refine (State.pureRead_within _ _).then ?_
    exact .refl
  · rename_i v16
    refine (State.pureRead_within _ _).then ?_
    exact .refl
  · rename_i v17
    refine (State.pureRead_within _ _).then ?_
    exact .refl
  · rename_i v18
    refine (State.pureRead_within _ _).then ?_
    exact .refl
  · rename_i v19
    refine (State.pureRead_within _ _).then ?_
    exact .refl
  · rename_i v20
    refine (State.pureRead_within _ _).then ?_
    exact .refl
  · rename_i v21
    refine (State.pureRead_within _ _).then ?_
    exact .refl
  · rename_i v22
    refine (State.pureRead_within _ _).then ?_
    exact .refl
  · rename_i v23 v24 v25 v26 v27 v28 v29 v30 v31 v32 v33 v34 v35 v36 v37 v38 v39 v40 v41 v42 v43 v44 v45
    split
    · rename_i v46 v47 v48
      refine (State.cpuRead_within _ _ _).then ?_
      exact .refl
    · rename_i v49 v50
      refine (State.pureRead_within _ _).then ?_
      exact .refl

theorem State.hspiMapWrite_within (s : State) (ini : Initiator) (off : Nat) (v : Word) :
    Within { parts := [.mrc], pages := [Pg.hspi] } s (State.hspiMapWrite s ini off v) := by
  unfold State.hspiMapWrite
  refine Within.ite ?_ ?_
  · refine (State.raise_within ..).then ?_
    exact .refl
  · refine (State.plainWrite_within ..).then ?_
    exact .refl

theorem State.radioWrite_within (s : State) (ini : Initiator) (page : Nat) (off : Nat) (v : Word) :
    OptWithin { parts := [.recv, .syn, .mrc, .lnk], pages := [Pg.wrx, Pg.rfe, Pg.phy, Pg.lnk] } s (State.radioWrite s ini page off v) := by
  unfold State.radioWrite
  refine OptWithin.ite ?_ ?_
  · refine OptWithin.some ?_
    refine (State.wrxDutyWrite_within ..).then ?_
    exact .refl
  · refine OptWithin.ite ?_ ?_
    · refine OptWithin.some ?_
      refine (State.antselWrite_within ..).then ?_
      exact .refl
    · refine OptWithin.ite ?_ ?_
      · refine OptWithin.some ?_
        refine (State.agcWrite_within ..).then ?_
        exact .refl
      · refine OptWithin.ite ?_ ?_
        · refine OptWithin.some ?_
          refine (State.setReg_within ..).then ?_
          exact .refl
        · refine OptWithin.ite ?_ ?_
          · split
            · rename_i v1 v2
              refine OptWithin.some ?_
              refine (State.hrBaseWrite_within ..).then ?_
              exact .refl
            · rename_i v3 v4
              refine OptWithin.some ?_
              refine (State.hrCfgWrite_within ..).then ?_
              exact .refl
            · rename_i v5 v6
              refine OptWithin.some ?_
              refine (State.hrConsWrite_within ..).then ?_
              exact .refl
            · rename_i v7 v8 v9 v10
              exact OptWithin.none
          · refine OptWithin.ite ?_ ?_
            · refine OptWithin.some ?_
              refine (State.nbCtrlWrite_within ..).then ?_
              exact .refl
            · refine OptWithin.ite ?_ ?_
              · refine OptWithin.some ?_
                refine (State.nbCtrl_within ..).then ?_
                exact .refl
              · exact OptWithin.none

theorem State.timeWrite_within (s : State) (ini : Initiator) (page : Nat) (off : Nat) (v : Word) :
    OptWithin { parts := [.tim, .mrc], pages := [Pg.tim, Pg.eth] } s (State.timeWrite s ini page off v) := by
  unfold State.timeWrite
  refine OptWithin.ite ?_ ?_
  · refine OptWithin.ite ?_ ?_
    · refine OptWithin.some ?_
      refine (State.timStatWrite_within ..).then ?_
      exact .refl
    · refine OptWithin.ite ?_ ?_
      · refine OptWithin.some ?_
        refine (State.ppsOutWrite_within ..).then ?_
        exact .refl
      · refine OptWithin.ite ?_ ?_
        · refine OptWithin.some ?_
          refine (State.ppsOfsWrite_within ..).then ?_
          exact .refl
        · refine OptWithin.ite ?_ ?_
          · refine OptWithin.some ?_
            refine (State.cmpCfgWrite_within ..).then ?_
            exact .refl
          · refine OptWithin.ite ?_ ?_
            · refine OptWithin.some ?_
              refine (State.cmpPerWrite_within ..).then ?_
              exact .refl
            · exact OptWithin.none
  · refine OptWithin.ite ?_ ?_
    · split
      · rename_i v1
        refine OptWithin.some ?_
        refine (State.ethRxbaseWrite_within ..).then ?_
        exact .refl
      · rename_i v2
        refine OptWithin.some ?_
        refine (State.ethRxcfgWrite_within ..).then ?_
        exact .refl
      · rename_i v3
        refine OptWithin.some ?_
        refine (State.setReg_within ..).then ?_
        exact .refl
      · rename_i v4
        refine OptWithin.some ?_
        refine (State.mdioWrite_within ..).then ?_
        exact .refl
      · rename_i v5 v6 v7 v8 v9
        exact OptWithin.none
    · exact OptWithin.none

theorem State.flumeWrite_within (s : State) (ini : Initiator) (off : Nat) (v : Word) :
    OptWithin { parts := Part.but [.mem, .lost, .clk, .ticks, .replies, .stalls, .debugErr, .drc, .tim, .wrx, .rtc, .sec, .cpus, .cas, .upd, .booted, .testmode, .inReset, .vio, .resetDue], all := true } s (State.flumeWrite s ini off v) := by
  unfold State.flumeWrite
  refine OptWithin.ite ?_ ?_
  · refine OptWithin.some ?_
    refine (State.baseWrite_within ..).then ?_
    exact .refl
  · refine OptWithin.ite ?_ ?_
    · refine OptWithin.some ?_
      refine (State.wrCfgWrite_within ..).then ?_
      exact .refl
    · refine OptWithin.ite ?_ ?_
      · refine OptWithin.some ?_
        refine (State.wrProdWrite_within ..).then ?_
        exact .refl
      · refine OptWithin.ite ?_ ?_
        · refine OptWithin.some ?_
          refine (State.wrCtrlWrite_within ..).then ?_
          exact .refl
        · refine OptWithin.ite ?_ ?_
          · refine OptWithin.some ?_
            refine (State.baseWrite_within ..).then ?_
            exact .refl
          · refine OptWithin.ite ?_ ?_
            · refine OptWithin.some ?_
              refine (State.trCfgWrite_within ..).then ?_
              exact .refl
            · refine OptWithin.ite ?_ ?_
              · refine OptWithin.some ?_
                refine (State.trConsWrite_within ..).then ?_
                exact .refl
              · exact OptWithin.none

theorem State.boardWrite_within (s : State) (ini : Initiator) (page : Nat) (off : Nat) (v : Word) :
    OptWithin { parts := [.flm, .drc, .flc, .per, .mrc], pages := [Pg.drc, Pg.flc, Pg.gpio, Pg.hspi, Pg.pwm, page] } s (State.boardWrite s ini page off v) := by
  unfold State.boardWrite
  refine OptWithin.ite ?_ ?_
  · refine OptWithin.some ?_
    refine (State.chctrlWrite_within ..).then ?_
    exact .refl
  · refine OptWithin.ite ?_ ?_
    · refine OptWithin.some ?_
      refine (State.migctrlWrite_within ..).then ?_
      exact .refl
    · refine OptWithin.ite ?_ ?_
      · refine OptWithin.some ?_
        refine (State.pwdWrite_within ..).then ?_
        exact .refl
      · refine OptWithin.ite ?_ ?_
        · refine OptWithin.some ?_
          refine (State.pwctrlWrite_within ..).then ?_
          exact .refl
        · refine OptWithin.ite ?_ ?_
          · refine OptWithin.some ?_
            refine State.withPins_within ?_ (fun s1 h2 => ?_)
            · exact .refl
            · refine (State.plainWrite_within ..).then ?_
              exact h2
          · refine OptWithin.ite ?_ ?_
            · refine OptWithin.some ?_
              refine (State.holdWrite_within ..).then ?_
              exact .refl
            · refine OptWithin.ite ?_ ?_
              · refine OptWithin.some ?_
                refine (State.padWrite_within ..).then ?_
                exact .refl
              · refine OptWithin.ite ?_ ?_
                · refine OptWithin.some ?_
                  refine (State.hspiMapWrite_within ..).then ?_
                  exact .refl
                · refine OptWithin.ite ?_ ?_
                  · refine OptWithin.some ?_
                    refine (State.pwmCtrlWrite_within ..).then ?_
                    exact .refl
                  · refine OptWithin.ite ?_ ?_
                    · refine OptWithin.some ?_
                      refine (State.perCfgWrite_within ..).then ?_
                      exact .refl
                    · exact OptWithin.none

theorem State.blockWrite_within (s : State) (ini : Initiator) (page : Nat) (idx : Nat) (off : Nat) (v : Word) :
    OptWithin Touch.bus s (State.blockWrite s ini page idx off v) := by
  unfold State.blockWrite
  split
  · rename_i v1
    refine OptWithin.ite ?_ ?_
    · refine OptWithin.some ?_
      refine (State.resetWrite_within ..).then ?_
      exact .refl
    · split
      rename_i v2 v3 v4 v5
      refine (State.pwrWrite_within _ _ _ _ _ _).then ?_
      refine Within.snd v5 ?_
      refine Within.ite₂ ?_ ?_
      · refine (State.fresh_within ..).then ?_
        exact .refl
      · dsimp only
        exact .refl
  · rename_i v6
    refine (State.rtcRegWrite_within _ _ _ _).then ?_
    exact .refl
  · rename_i v7
    refine (State.mrcWrite_within _ _ _ _).then ?_
    exact .refl
  · rename_i v8
    refine OptWithin.ite ?_ ?_
    · refine OptWithin.some ?_
      refine (State.dirtyWrite_within ..).then ?_
      exact .refl
    · refine OptWithin.ite ?_ ?_
      · refine OptWithin.some ?_
        refine (State.dirtyWrite_within ..).then ?_
        exact .refl
      · exact OptWithin.none
  · rename_i v9
    refine (State.flumeWrite_within _ _ _ _).then ?_
    exact .refl
  · rename_i v10
    refine OptWithin.ite ?_ ?_
    · refine OptWithin.some ?_
      refine (State.palCtrlWrite_within ..).then ?_
      exact .refl
    · exact OptWithin.none
  · rename_i v11
    refine (State.casWrite_within _ _ _ _).then ?_
    exact .refl
  · rename_i v12
    refine (State.timeWrite_within _ _ _ _ _).then ?_
    exact .refl
  · rename_i v13
    refine (State.timeWrite_within _ _ _ _ _).then ?_
    exact .refl
  · rename_i v14
    refine (State.radioWrite_within _ _ _ _ _).then ?_
    exact .refl
  · rename_i v15
    refine (State.radioWrite_within _ _ _ _ _).then ?_
    exact .refl
  · rename_i v16
    refine (State.radioWrite_within _ _ _ _ _).then ?_
    exact .refl
  · rename_i v17
    refine (State.radioWrite_within _ _ _ _ _).then ?_
    exact .refl
  · rename_i v18 v19 v20 v21 v22 v23 v24 v25 v26 v27 v28 v29 v30 v31
    split
    · rename_i v32 v33 v34
      refine (State.cpuWrite_within _ _ _ _ _).then ?_
      exact .refl
    · rename_i v35 v36
      refine (State.boardWrite_within _ _ _ _ _).then ?_
      exact .refl

theorem State.staleBank_within (s : State) (ini : Initiator) (page : Nat) (idx : Nat) (off : Nat) :
    Within { parts := [.mrc], pages := [page] } s (State.staleBank s ini page idx off) := by
  unfold State.staleBank
  refine Within.ite ?_ ?_
  · exact .refl
  · refine (State.raise_within ..).then ?_
    exact .refl

theorem State.regRead_within (s : State) (ini : Initiator) (page off : Nat) :
    Within { parts := [.freeCtr, .flm, .tim, .rtc, .mrc, .lnk], pages := [page, Pg.rfe, Pg.chz, Pg.lnk] } s (s.regRead ini page off).2 := by
  unfold State.regRead
  split
  · exact .refl
  extract_lets +onlyGivenNames idx
  split
  · refine (State.staleBank_within ..).then ?_
    exact .refl
  · have hb : Within { parts := [.freeCtr, .flm, .tim, .rtc, .mrc, .lnk], pages := [page, Pg.rfe, Pg.chz, Pg.lnk] } s
        ((s.blockRead ini page idx off).getD (if (regDef page off).isSome then s.reg page idx off else 0, s)).2 := by
      cases h : s.blockRead ini page idx off with
      | none => exact .refl
      | some r =>
        obtain ⟨v, t⟩ := r
        refine (State.blockRead_within s ini page idx off _ _ h).then ?_
        exact .refl
    generalize (s.blockRead ini page idx off).getD (if (regDef page off).isSome then s.reg page idx off else 0, s) = r at hb ⊢
    obtain ⟨v, t⟩ := r
    dsimp only at hb ⊢
    split
    · dsimp only
      refine Within.ite ?_ ?_
      · exact hb
      · refine (State.setReg_within ..).then ?_
        exact hb
    · exact hb

theorem State.regWrite_within (s : State) (ini : Initiator) (page : Nat) (off : Nat) (v : Word) :
    Within Touch.bus s (State.regWrite s ini page off v) := by
  unfold State.regWrite
  refine Within.ite ?_ ?_
  · refine (State.headerWrite_within ..).then ?_
    exact .refl
  · extract_lets +onlyGivenNames s1
    refine Within.ite ?_ ?_
    · refine (State.staleBank_within ..).then ?_
      exact .refl
    · split
      · rename_i v2 v3 v4
        refine (State.blockWrite_within _ _ _ _ _ _ _ v4).then ?_
        exact .refl
      · rename_i v5 v6
        split
        · rename_i v7 v8 v9
          refine Within.ite ?_ ?_
          · refine Within.ite ?_ ?_
            · refine (State.lnkStaged_within ..).then ?_
              exact .refl
            · refine (State.stageWrite_within ..).then ?_
              exact .refl
          · refine (State.plainWrite_within ..).then ?_
            exact .refl
        · rename_i v10 v11
          exact .refl

theorem State.palAccess_within (s : State) (ini : Initiator) (a : Nat) :
    Within { parts := [.doms, .mrc], pages := [Pg.pal] } s (State.palAccess s ini a).1 := by
  unfold State.palAccess
  extract_lets +onlyGivenNames s1
  refine Within.ite₁ ?_ ?_
  · dsimp only
    exact .refl
  · refine Within.ite₁ ?_ ?_
    · dsimp only
      refine (State.touch_within ..).then ?_
      exact .refl
    · refine Within.ite₁ ?_ ?_
      · dsimp only
        refine (State.raise_within ..).then ?_
        exact .refl
      · dsimp only
        refine (State.wake_within ..).then ?_
        exact .refl

theorem State.busRead_within (s : State) (ini : Initiator) (a : Nat) (n : Nat) :
    Within { parts := [.doms, .freeCtr, .flm, .drc, .tim, .rtc, .mrc, .lnk], all := true } s (State.busRead s ini a n).1 := by
  unfold State.busRead
  refine Within.ite₁ ?_ ?_
  · refine Within.ite₁ ?_ ?_
    · dsimp only
      exact .refl
    · refine State.pageAccess_within ?_ (fun s1 h2 => ?_)
      · exact .refl
      · refine (State.regRead_within ..).then ?_
        exact h2
  · refine Within.ite₁ ?_ ?_
    · refine Within.ite₁ ?_ ?_
      · dsimp only
        exact .refl
      · refine (State.palAccess_within ..).then ?_
        exact .refl
    · refine Within.ite₁ ?_ ?_
      · dsimp only
        exact .refl
      · extract_lets +onlyGivenNames s6
        split
        · rename_i v7 v8 v9 v10 v11
          dsimp only
          refine Within.fst v11 ?_
          refine (State.iniRead_within ..).then ?_
          exact .refl
        · rename_i v12 v13 v14
          dsimp only
          refine Within.fst v14 ?_
          refine (State.iniRead_within ..).then ?_
          exact .refl
        · rename_i v15 v16 v17
          dsimp only
          refine Within.fst v17 ?_
          refine (State.iniRead_within ..).then ?_
          exact .refl

theorem State.busWrite_within (s : State) (ini : Initiator) (a : Nat) (n : Nat) (v : Word) :
    Within Touch.bus s (State.busWrite s ini a n v).1 := by
  unfold State.busWrite
  refine Within.ite₁ ?_ ?_
  · refine Within.ite₁ ?_ ?_
    · dsimp only
      exact .refl
    · refine State.pageAccess_within ?_ (fun s1 h2 => ?_)
      · exact .refl
      · dsimp only
        refine (State.regWrite_within ..).then ?_
        exact h2
  · refine Within.ite₁ ?_ ?_
    · dsimp only
      exact .refl
    · refine Within.ite₁ ?_ ?_
      · dsimp only
        exact .refl
      · refine Within.ite₁ ?_ ?_
        · dsimp only
          exact .refl
        · extract_lets +onlyGivenNames s6
          split
          · rename_i v7 v8 v9 v10 v11
            dsimp only
            refine Within.fst v11 ?_
            refine (State.iniWrite_within ..).then ?_
            exact .refl
          · rename_i v12 v13 v14
            dsimp only
            refine Within.fst v14 ?_
            refine (State.iniWrite_within ..).then ?_
            exact .refl
          · rename_i v15 v16 v17
            dsimp only
            refine Within.fst v17 ?_
            refine (State.iniWrite_within ..).then ?_
            exact .refl

theorem State.busAccess_within (s : State) (a : Access) : Within Touch.bus s (State.busAccess s a).1 := by
  unfold State.busAccess
  refine Within.ite₁ ?_ ?_
  · refine (State.busWrite_within ..).then ?_
    exact .refl
  · refine (State.busRead_within ..).then ?_
    exact .refl

theorem State.access_within (s : State) (a : Access) : Within Touch.bus s (State.access s a) := by
  unfold State.access
  refine State.deliver_within ?_
  refine (State.busAccess_within ..).then ?_
  exact .refl

theorem execRegisterWrite_within (ini : Initiator) (addr : Word) (size : Nat) (data : Word) (flips : List Flip) (s : State) :
    OutWithin Touch.bus s (execRegisterWrite ini addr size data flips s) := by
  unfold execRegisterWrite
  refine OutWithin.next ?_
  refine (State.access_within ..).then ?_
  refine (State.applyFlips_within ..).then ?_
  exact .refl

theorem execRcFieldRead_within (ini : Initiator) (addr : Word) (size : Nat) (flips : List Flip) (s : State) :
    OutWithin Touch.bus s (execRcFieldRead ini addr size flips s) := by
  unfold execRcFieldRead
  refine OutWithin.next ?_
  refine (State.access_within ..).then ?_
  refine (State.applyFlips_within ..).then ?_
  exact .refl

theorem execStalledAccessServe_within (ini : Initiator) (flips : List Flip) (s : State) :
    OutWithin Touch.bus s (execStalledAccessServe ini flips s) := by
  unfold execStalledAccessServe
  extract_lets +onlyGivenNames s1
  refine OutWithin.cut (x := s1) ?_ (fun h2 => ?_)
  · unfold s1
    refine (State.applyFlips_within ..).then ?_
    exact .refl
  clear_value s1
  refine OutWithin.next ?_
  split
  · rename_i v3 v4
    exact h2
  · rename_i v5 v6 v7
    split
    · rename_i v8 v9 v10 v11
      refine Within.fst v11 ?_
      refine (State.busAccess_within ..).then ?_
      exact h2
    · rename_i v12 v13
      refine State.deliver_within ?_
      dsimp only
      refine Within.of_mk ?_
      refine (State.busAccess_within ..).then ?_
      exact h2

theorem execChselWrite_within (ini : Initiator) (page : Nat) (value : Word) (s : State) :
    OutWithin { parts := [.doms, .replies, .stalls, .debugErr, .mrc], pages := [page, Pg.sec] } s (execChselWrite ini page value s) := by
  unfold execChselWrite
  refine OutWithin.next ?_
  refine State.pageWrite_within ?_ (fun s1 h2 => ?_)
  · exact .refl
  · refine (State.chselWrite_within ..).then ?_
    exact h2

theorem execIntClear_within (ini : Initiator) (page : Nat) (mask : Word) (events : Word) (s : State) :
    OutWithin { parts := [.doms, .replies, .stalls, .debugErr, .mrc], pages := [page, Pg.sec] } s (execIntClear ini page mask events s) := by
  unfold execIntClear
  refine OutWithin.next ?_
  refine State.pageWrite_within ?_ (fun s1 h2 => ?_)
  · exact .refl
  · refine (State.intClear_within ..).then ?_
    exact h2

theorem execIntSet_within (ini : Initiator) (page : Nat) (mask : Word) (s : State) :
    OutWithin { parts := [.doms, .replies, .stalls, .debugErr, .mrc], pages := [page, Pg.sec] } s (execIntSet ini page mask s) := by
  unfold execIntSet
  refine OutWithin.next ?_
  refine State.pageWrite_within ?_ (fun s1 h2 => ?_)
  · exact .refl
  · refine (State.intSet_within ..).then ?_
    exact h2

theorem execIntEnWrite_within (ini : Initiator) (page : Nat) (value : Word) (s : State) :
    OutWithin { parts := [.doms, .replies, .stalls, .debugErr, .mrc], pages := [page, Pg.sec] } s (execIntEnWrite ini page value s) := by
  unfold execIntEnWrite
  refine OutWithin.next ?_
  refine State.pageWrite_within ?_ (fun s1 h2 => ?_)
  · exact .refl
  · refine (State.intEnWrite_within ..).then ?_
    exact h2

theorem execErrClear_within (ini : Initiator) (page : Nat) (value : Word) (s : State) :
    OutWithin { parts := [.doms, .replies, .stalls, .debugErr, .mrc], pages := [page, Pg.sec] } s (execErrClear ini page value s) := by
  unfold execErrClear
  refine OutWithin.next ?_
  refine State.pageWrite_within ?_ (fun s1 h2 => ?_)
  · exact .refl
  · refine (State.errClear_within ..).then ?_
    exact h2

theorem execStagedWrite_within (ini : Initiator) (page : Nat) (off : Nat) (value : Word) (s : State) :
    OutWithin Touch.bus s (execStagedWrite ini page off value s) := by
  unfold execStagedWrite
  refine OutWithin.next ?_
  split
  · rename_i v1 v2 v3
    refine Within.ite ?_ ?_
    · refine State.pageWrite_within ?_ (fun s4 h5 => ?_)
      · exact .refl
      · refine (State.regWrite_within ..).then ?_
        exact h5
    · exact .refl
  · rename_i v9 v10
    exact .refl

theorem execCfgCommit_within (ini : Initiator) (page : Nat) (value : Word) (s : State) :
    OutWithin { parts := [.staged, .claims, .commits, .doms, .replies, .stalls, .debugErr, .mrc], pages := [page, Pg.sec] } s (execCfgCommit ini page value s) := by
  unfold execCfgCommit
  extract_lets +onlyGivenNames s1
  refine OutWithin.next ?_
  refine State.pageWrite_within ?_ (fun s2 h3 => ?_)
  · exact .refl
  · refine (State.cfgWrite_within ..).then ?_
    exact h3

theorem execCfgDiscard_within (ini : Initiator) (page : Nat) (value : Word) (s : State) :
    OutWithin { parts := [.staged, .claims, .commits, .doms, .replies, .stalls, .debugErr, .mrc], pages := [page, Pg.sec] } s (execCfgDiscard ini page value s) := by
  unfold execCfgDiscard
  extract_lets +onlyGivenNames s1
  refine OutWithin.next ?_
  refine State.pageWrite_within ?_ (fun s2 h3 => ?_)
  · exact .refl
  · refine (State.cfgWrite_within ..).then ?_
    exact h3

theorem execPageLock_within (ini : Initiator) (page : Nat) (value : Word) (s : State) :
    OutWithin { parts := [.doms, .replies, .stalls, .debugErr, .mrc], pages := [page, Pg.sec] } s (execPageLock ini page value s) := by
  unfold execPageLock
  extract_lets +onlyGivenNames s1
  refine OutWithin.next ?_
  refine State.pageWrite_within ?_ (fun s2 h3 => ?_)
  · exact .refl
  · refine (State.lockWrite_within ..).then ?_
    exact h3

theorem execPageUnlock_within (ini : Initiator) (page : Nat) (value : Word) (s : State) :
    OutWithin { parts := [.doms, .replies, .stalls, .debugErr, .mrc], pages := [page, Pg.sec] } s (execPageUnlock ini page value s) := by
  unfold execPageUnlock
  extract_lets +onlyGivenNames s1
  refine OutWithin.next ?_
  refine State.pageWrite_within ?_ (fun s2 h3 => ?_)
  · exact .refl
  · refine (State.lockWrite_within ..).then ?_
    exact h3

end Sys2Proof.Machine
end

