-- ==== Sys2Proof/Laws/FrameHostSpi.lean ====
section
/-! SUPPORT. What each operation of Machine/HostSpi.lean may change, and that it keeps a sound state sound. -/

namespace Sys2Proof.Machine

-- one proof at a time: the file holds many small ones
set_option Elab.async false

theorem State.setHspi_within (s : State) (f : Hspi → Hspi) : Within { parts := [.per] } s (State.setHspi s f) := by
  unfold State.setHspi
  refine Within.of_mk ?_
  exact .refl

theorem State.hostAnswer_within (s : State) (bs : List Byte) : Within { parts := [.per] } s (State.hostAnswer s bs) := by
  unfold State.hostAnswer
  refine (State.setHspi_within ..).then ?_
  exact .refl

theorem State.hostRun_within (n : Nat) (s : State) : Within Touch.bus s (State.hostRun n s) := by
  induction n generalizing s with
  | zero => exact .refl
  | succ n ih =>
    unfold State.hostRun
    split
    · exact .refl
    · split
      · split
        · exact .refl
        · split
          · refine (State.hostAnswer_within ..).then ?_
            exact .refl
          · refine (ih _).then ?_
            refine (State.setHspi_within ..).then ?_
            exact .refl
      · split
        · refine (State.hostAnswer_within ..).then ?_
          exact .refl
        · refine (ih _).then ?_
          refine (State.setHspi_within ..).then ?_
          refine (State.access_within ..).then ?_
          exact .refl

theorem State.hostCheck_within (s : State) (rx : List Byte) : Within Touch.bus s (State.hostCheck s rx) := by
  unfold State.hostCheck
  extract_lets +onlyGivenNames s1
  extract_lets +onlyGivenNames s2
  extract_lets +onlyGivenNames s3
  refine Within.cut (x := s3) ?_ (fun h4 => ?_)
  · unfold s3
    refine (State.setHspi_within ..).then ?_
    exact .refl
  clear_value s3
  extract_lets +onlyGivenNames s5
  refine Within.cut (x := s5) ?_ (fun h6 => ?_)
  · unfold s5
    refine (State.count_within ..).then ?_
    exact h4
  clear_value s5
  extract_lets +onlyGivenNames s7
  extract_lets +onlyGivenNames s8
  refine Within.cut (x := s8) ?_ (fun h9 => ?_)
  · unfold s8
    refine Within.ite ?_ ?_
    · refine (State.event_within ..).then ?_
      refine (State.count_within ..).then ?_
      exact h6
    · exact h6
  clear_value s8
  extract_lets +onlyGivenNames s10
  extract_lets +onlyGivenNames s11
  refine Within.ite ?_ ?_
  · refine (State.hostAnswer_within ..).then ?_
    exact h9
  · extract_lets +onlyGivenNames s12
    extract_lets +onlyGivenNames s13
    refine (State.hostRun_within ..).then ?_
    refine (State.setHspi_within ..).then ?_
    exact h9

theorem execHostFrame_within (octets : List Byte) (flips : List Flip) (s : State) :
    OutWithin Touch.bus s (execHostFrame octets flips s) := by
  unfold execHostFrame
  extract_lets +onlyGivenNames s1
  refine OutWithin.cut (x := s1) ?_ (fun h2 => ?_)
  · unfold s1
    refine (State.applyFlips_within ..).then ?_
    exact .refl
  clear_value s1
  refine OutWithin.next ?_
  extract_lets +onlyGivenNames s3
  refine Within.ite ?_ ?_
  · exact h2
  · refine Within.ite ?_ ?_
    · refine (State.hostRun_within ..).then ?_
      exact h2
    · extract_lets +onlyGivenNames s4
      extract_lets +onlyGivenNames s5
      refine Within.cut (x := s5) ?_ (fun h6 => ?_)
      · unfold s5
        refine Within.ite ?_ ?_
        · refine (State.wakeBy_within ..).then ?_
          exact h2
        · exact h2
      clear_value s5
      extract_lets +onlyGivenNames s7
      refine Within.cut (x := s7) ?_ (fun h8 => ?_)
      · unfold s7
        refine (State.setHspi_within ..).then ?_
        exact h6
      clear_value s7
      clear_value s4
      split
      · rename_i v9
        exact h8
      · rename_i v10 v11 v12
        refine Within.ite ?_ ?_
        · refine (State.hostCheck_within ..).then ?_
          exact h8
        · exact h8

theorem execHostCsRise_within (s : State) : OutWithin { parts := [.per] } s (execHostCsRise s) := by
  unfold execHostCsRise
  refine OutWithin.next ?_
  refine (State.setHspi_within ..).then ?_
  exact .refl

end Sys2Proof.Machine
end

