-- ==== Sys2Proof/Laws/FrameCascade.lean ====
section
/-! SUPPORT. What each operation of Machine/Cascade.lean may change, and that it keeps a sound state sound. -/

namespace Sys2Proof.Machine

-- one proof at a time: the file holds many small ones
set_option Elab.async false

theorem State.casIn_within {w : Touch} {s x : State} {i : Item} {a n : Nat} {k : State → List Byte → State}
    (hx : Within w s x) (hk : ∀ y bs, Within w s y → Within w s (k y bs))
    (hw : Touch.le { parts := [.doms, .freeCtr, .flm, .drc, .mrc], pages := [Pg.drc, Pg.flc] } w = true := by first | decide | simp [Touch.le, Touch.bus, Part.but, Part.every]) :
    Within w s (x.casIn i a n k) := by
  have hs : ∀ {v : Touch} {y z : State}, Within v y z → v.le { parts := [.doms, .freeCtr, .flm, .drc, .mrc], pages := [Pg.drc, Pg.flc] } = true → Within w s y → Within w s z :=
    fun h hv hy => (h.mono hv).step hy hw
  have hu := hs (State.unitRead_within x a n false) (by decide) hx
  unfold State.casIn
  split <;> rename_i h <;> have hy := Within.fst h hu
  · exact hy
  · exact hs (State.finish_within ..) (by decide) hy
  · split
    · exact hs (State.finish_within ..) (by decide) hy
    · exact hk _ _ hy

theorem State.casOut_within (s : State) (i : Item) (a : Nat) (bs : List Byte) (status : Nat) :
    Within { parts := [.mem, .doms, .flm, .drc, .mrc], pages := [Pg.drc] } s (State.casOut s i a bs status) := by
  unfold State.casOut
  split
  · rename_i v1 v2 v3 v4 v5
    refine (State.finish_within ..).then ?_
    refine Within.fst v5 ?_
    refine (State.unitWrite_within ..).then ?_
    exact .refl
  · rename_i v6 v7 v8
    refine (State.finish_within ..).then ?_
    refine Within.fst v8 ?_
    refine (State.unitWrite_within ..).then ?_
    exact .refl
  · rename_i v9 v10 v11
    refine Within.fst v11 ?_
    refine (State.unitWrite_within ..).then ?_
    exact .refl

theorem execCasRcopy_within (entry : Nat) (words : List Word) (refused : Option Nat) (flips : List Flip) (s : State) :
    OutWithin { parts := [.mem, .doms, .freeCtr, .flm, .drc, .flc, .mrc, .cas], pages := [Pg.drc, Pg.flc] } s (execCasRcopy entry words refused flips s) := by
  unfold execCasRcopy
  extract_lets +onlyGivenNames s1
  refine OutWithin.cut (x := s1) ?_ (fun h2 => ?_)
  · unfold s1
    refine (State.applyFlips_within ..).then ?_
    exact .refl
  clear_value s1
  refine OutWithin.next ?_
  split
  · rename_i v3 v4
    exact h2
  · rename_i v5 v6 v7
    extract_lets +onlyGivenNames s8
    extract_lets +onlyGivenNames s9
    extract_lets +onlyGivenNames s10
    refine Within.ite ?_ ?_
    · refine (State.casOut_within ..).then ?_
      exact h2
    · refine State.casIn_within ?_ (fun s11 a13 h12 => ?_)
      · exact h2
      · refine (State.finish_within ..).then ?_
        refine (State.setCas_within ..).then ?_
        exact h12

theorem State.maskDone_within (s : State) (i : Item) (refused : Nat) (time : Option (Nat × Nat)) :
    Within { parts := [.freeCtr, .flm] } s (State.maskDone s i refused time) := by
  unfold State.maskDone
  split
  rename_i v1 v2 v3 v4
  extract_lets +onlyGivenNames s5
  refine (State.finish_within ..).then ?_
  refine Within.snd v4 ?_
  refine Within.ite₂ ?_ ?_
  · dsimp only
    exact .refl
  · refine (State.fresh_within ..).then ?_
    exact .refl

theorem State.casPairs_within : ∀ (ps : List Word) (entry : Nat) (s : State), Within Touch.bus s (State.casPairs ps entry s)
  | [], _, _ => .refl
  | [_], _, _ => .refl
  | a :: v :: ps, entry, s => by
    have hw := State.busWrite_within s .cas a.toNat 4 v
    unfold State.casPairs
    split <;> rename_i h <;> have hy := Within.fst h hw
    · exact hy
    · refine (State.casPairs_within ps entry _).then ?_
      refine (State.updItem_within ..).then ?_
      exact hy

theorem execCasBroadcast_within (entry : Nat) (refused : Nat) (flips : List Flip) (s : State) :
    OutWithin Touch.bus s (execCasBroadcast entry refused flips s) := by
  unfold execCasBroadcast
  extract_lets +onlyGivenNames s1
  refine OutWithin.cut (x := s1) ?_ (fun h2 => ?_)
  · unfold s1
    refine (State.applyFlips_within ..).then ?_
    exact .refl
  clear_value s1
  refine OutWithin.next ?_
  split
  · rename_i v3 v4
    exact h2
  · rename_i v5 v6 v7
    refine State.casIn_within ?_ (fun s8 a10 h9 => ?_)
    · exact h2
    · extract_lets +onlyGivenNames s13
      extract_lets +onlyGivenNames s14
      refine Within.cut (x := s14) ?_ (fun h15 => ?_)
      · unfold s14
        refine (State.setCas_within ..).then ?_
        exact h9
      clear_value s14
      extract_lets +onlyGivenNames s16
      refine Within.cut (x := s16) ?_ (fun h17 => ?_)
      · unfold s16
        refine Within.ite ?_ ?_
        · refine (State.casPairs_within ..).then ?_
          exact h15
        · exact h15
      clear_value s16
      split
      · rename_i v18 v19 v20
        refine Within.ite ?_ ?_
        · exact h17
        · refine (State.maskDone_within ..).then ?_
          exact h17
      · rename_i v21 v22
        exact h17

theorem execCasBarrier_within (entry : Nat) (s : State) :
    OutWithin { parts := [.freeCtr, .flm] } s (execCasBarrier entry s) := by
  unfold execCasBarrier
  refine OutWithin.next ?_
  split
  · rename_i v1 v2 v3
    refine (State.maskDone_within ..).then ?_
    exact .refl
  · rename_i v4 v5
    exact .refl

theorem execCasSnapshot_within (entry : Nat) (s : State) : OutWithin { parts := [.cas] } s (execCasSnapshot entry s) := by
  unfold execCasSnapshot
  refine OutWithin.next ?_
  split
  · rename_i v1 v2
    exact .refl
  · rename_i v3 v4 v5
    refine Within.ite ?_ ?_
    · exact .refl
    · extract_lets +onlyGivenNames s6
      refine (State.setCas_within ..).then ?_
      exact .refl

theorem State.peek_within (s : State) (a : Nat) :
    Within { parts := [.freeCtr, .flm, .tim, .rtc, .mrc, .lnk], all := true } s (State.peek s a).2 := by
  unfold State.peek
  extract_lets +onlyGivenNames s1
  extract_lets +onlyGivenNames s2
  refine Within.ite₂ ?_ ?_
  · dsimp only
    exact .refl
  · refine Within.ite₂ ?_ ?_
    · dsimp only
      exact .refl
    · refine Within.ite₂ ?_ ?_
      · split
        rename_i v3 v4 v5 v6
        dsimp only
        refine Within.of_mk ?_
        exact .refl
      · dsimp only
        exact .refl

theorem State.snapAll_within (s : State) (t : Int) :
    Within { parts := [.freeCtr, .flm, .tim, .rtc, .mrc, .lnk], all := true } s (State.snapAll s t) := by
  unfold State.snapAll
  extract_lets +onlyGivenNames s1
  extract_lets +onlyGivenNames s2
  refine Within.cut (x := s2) ?_ (fun h3 => ?_)
  · unfold s2
    unfold s1
    refine Within.foldl₂ (fun s4 a5 h6 => ?_) ?_
    · extract_lets +onlyGivenNames s7
      split
      rename_i v8 v9 v10 v11
      dsimp only
      refine Within.snd v11 ?_
      refine Within.ite₂ ?_ ?_
      · dsimp only
        exact h6
      · refine (State.peek_within ..).then ?_
        exact h6
    · dsimp only
      exact .refl
  clear_value s2
  extract_lets +onlyGivenNames s12
  refine Within.cut (x := s12) ?_ (fun h13 => ?_)
  · unfold s12
    refine Within.foldl (fun s14 a15 h16 => ?_) ?_
    · refine (State.setReg_within ..).then ?_
      exact h16
    · exact h3
  clear_value s12
  extract_lets +onlyGivenNames s17
  extract_lets +onlyGivenNames s18
  refine Within.cut (x := s18) ?_ (fun h19 => ?_)
  · unfold s18
    refine (State.setReg_within ..).then ?_
    exact h13
  clear_value s18
  extract_lets +onlyGivenNames s20
  refine Within.cut (x := s20) ?_ (fun h21 => ?_)
  · unfold s20
    refine (State.setReg_within ..).then ?_
    refine (State.setReg_within ..).then ?_
    exact h19
  clear_value s20
  refine (State.event_within ..).then ?_
  exact h21

theorem execSnapshotCapture_within (sec : Nat) (ns : Nat) (s : State) :
    OutWithin { parts := [.freeCtr, .flm, .tim, .rtc, .mrc, .lnk, .cas], all := true } s (execSnapshotCapture sec ns s) := by
  unfold execSnapshotCapture
  refine OutWithin.next ?_
  refine Within.ite ?_ ?_
  · split
    · rename_i v1 v2
      exact .refl
    · rename_i v3 v4 v5
      refine Within.ite ?_ ?_
      · exact .refl
      · extract_lets +onlyGivenNames s6
        refine Within.cut (x := s6) ?_ (fun h7 => ?_)
        · unfold s6
          refine (State.setCas_within ..).then ?_
          exact .refl
        clear_value s6
        split
        · rename_i v8 v9 v10
          refine Within.ite ?_ ?_
          · extract_lets +onlyGivenNames s11
            refine Within.cut (x := s11) ?_ (fun h12 => ?_)
            · unfold s11
              refine Within.ite ?_ ?_
              · refine (State.snapAll_within ..).then ?_
                exact h7
              · exact h7
            clear_value s11
            refine (State.maskDone_within ..).then ?_
            exact h12
          · exact h7
        · rename_i v13 v14
          exact h7
  · extract_lets +onlyGivenNames s15
    refine Within.ite ?_ ?_
    · refine (State.snapAll_within ..).then ?_
      exact .refl
    · exact .refl

theorem execCasReset_within (entry : Option Nat) (air : List Air) (s : State) :
    OutWithin Touch.bus s (execCasReset entry air s) := by
  unfold execCasReset
  refine OutWithin.next ?_
  split
  · rename_i v1
    refine Within.ite ?_ ?_
    · refine (State.requestReset_within ..).then ?_
      exact .refl
    · exact .refl
  · rename_i v2 v3
    split
    · rename_i v4 v5 v6
      refine (State.maskDone_within ..).then ?_
      exact .refl
    · rename_i v7 v8
      exact .refl

theorem execCasRegister_within (entry : Nat) (report : List Byte) (flips : List Flip) (s : State) :
    OutWithin { parts := [.mem, .doms, .freeCtr, .flm, .drc, .flc, .mrc, .cas], pages := [Pg.drc, Pg.flc] } s (execCasRegister entry report flips s) := by
  unfold execCasRegister
  extract_lets +onlyGivenNames s1
  refine OutWithin.cut (x := s1) ?_ (fun h2 => ?_)
  · unfold s1
    refine (State.applyFlips_within ..).then ?_
    exact .refl
  clear_value s1
  refine OutWithin.next ?_
  split
  · rename_i v3 v4
    exact h2
  · rename_i v5 v6 v7
    refine State.casIn_within ?_ (fun s8 a10 h9 => ?_)
    · exact h2
    · refine (State.casOut_within ..).then ?_
      refine (State.setCas_within ..).then ?_
      exact h9

theorem execCasEnumerate_within (entry : Nat) (found : List CasFound) (s : State) :
    OutWithin { parts := [.flm, .mrc, .cas], pages := [Pg.cas] } s (execCasEnumerate entry found s) := by
  unfold execCasEnumerate
  refine OutWithin.next ?_
  split
  · rename_i v1 v2 v3
    refine (State.finish_within ..).then ?_
    refine (State.enumerate_within ..).then ?_
    exact .refl
  · rename_i v4 v5
    exact .refl

end Sys2Proof.Machine
end

