-- ==== Sys2Proof/Laws/FrameOperands.lean ====
section
/-! SUPPORT. What each operation of Machine/Operands.lean may change, and that it keeps a sound state sound. -/

namespace Sys2Proof.Machine

-- one proof at a time: the file holds many small ones
set_option Elab.async false

theorem Ev.readMem_within {s0 : State} {e : Ev} {k : Nat} {a : Word} (h0 : EvW s0 e) : ResW s0 (Ev.readMem e k a) := by
  unfold Ev.readMem
  refine ResW.ite ?_ ?_
  · refine ResW.fault ?_
    exact h0
  · split
    · rename_i v1 v2 v3 v4
      refine ResW.ok ?_
      refine EvW.mk ?_
      refine Within.fst v4 ?_
      refine (State.busRead_within ..).then ?_
      exact h0
    · rename_i v5 v6 v7
      refine ResW.fault ?_
      refine Within.fst v7 ?_
      refine (State.busRead_within ..).then ?_
      exact h0
    · rename_i v8 v9 v10 v11
      exact ResW.stall

theorem Ev.read_within {s0 : State} {e : Ev} {k : Nat} {l : Loc} (h0 : EvW s0 e) : ResW s0 (Ev.read e k l) := by
  unfold Ev.read
  split
  · rename_i v1 v2
    refine ResW.ok ?_
    exact h0
  · rename_i v3 v4
    refine ResW.ok ?_
    exact h0
  · rename_i v5 v6
    refine Ev.readMem_within ?_
    exact h0

theorem Ev.src_within {s0 : State} {e : Ev} {k : Nat} {o : Opnd} (h0 : EvW s0 e) : ResW s0 (Ev.src e k o) := by
  unfold Ev.src
  split
  rename_i v1 v2 v3 v4
  refine Ev.read_within ?_
  refine EvW.locate v4 ?_
  exact h0

theorem Ev.checkMem_within {s0 : State} {e : Ev} {k : Nat} {a : Word} (h0 : EvW s0 e) : ResW s0 (Ev.checkMem e k a) := by
  unfold Ev.checkMem
  refine ResW.ite ?_ ?_
  · refine ResW.fault ?_
    exact h0
  · split
    · rename_i v1 v2 v3
      refine ResW.ok ?_
      exact h0
    · rename_i v4 v5
      refine ResW.fault ?_
      exact h0
    · rename_i v6 v7 v8
      exact ResW.stall

theorem Ev.check_within {s0 : State} {e : Ev} {k : Nat} {l : Loc} (h0 : EvW s0 e) : ResW s0 (Ev.check e k l) := by
  unfold Ev.check
  split
  · rename_i v1 v2
    refine Ev.checkMem_within ?_
    exact h0
  · rename_i v3 v4
    refine ResW.ok ?_
    exact h0

theorem Ev.dst_within {s0 : State} {e : Ev} {k : Nat} {o : Opnd} (h0 : EvW s0 e) : ResW s0 (Ev.dst e k o) := by
  unfold Ev.dst
  split
  rename_i v1 v2 v3 v4
  refine ResW.andThen ?_ (fun a5 e6 h7 => ?_)
  · refine Ev.check_within ?_
    refine EvW.locate v4 ?_
    exact h0
  · refine ResW.ok ?_
    exact h7

theorem Ev.readMany_within {s0 : State} {k n : Nat} {a : Word} {e : Ev} (h : EvW s0 e) : ResW s0 (Ev.readMany k n a e) := by
  induction n generalizing a e with
  | zero => exact h
  | succ n ih =>
    unfold Ev.readMany
    refine ResW.andThen (Ev.readMem_within h) (fun v e1 h1 => ?_)
    exact ResW.andThen (ih h1) (fun vs e2 h2 => h2)

theorem Ev.checkMany_within {s0 : State} {k n : Nat} {a : Word} {e : Ev} (h : EvW s0 e) : ResW s0 (Ev.checkMany k n a e) := by
  induction n generalizing a e with
  | zero => exact h
  | succ n ih =>
    unfold Ev.checkMany
    exact ResW.andThen (Ev.checkMem_within h) (fun _ e1 h1 => ih h1)

end Sys2Proof.Machine
end

