-- ==== Sys2Proof/Laws/FrameEntry.lean ====
section
/-! SUPPORT. What each operation of Machine/Entry.lean may change, and that it keeps a sound state sound. -/

namespace Sys2Proof.Machine

-- one proof at a time: the file holds many small ones
set_option Elab.async false

theorem State.fillCache_within (s : State) (c : Core) (a : Nat) (bs : List Byte) :
    Within { parts := [.cpus] } s (State.fillCache s c a bs) := by
  unfold State.fillCache
  extract_lets +onlyGivenNames s1
  extract_lets +onlyGivenNames s2
  refine (State.setCpu_within ..).then ?_
  exact .refl

/-- The state that a fetch leaves follows within what an access reaches. -/
def FetchedW (s : State) (r : Fetched) : Prop :=
  (∀ bs t, r = .ok bs t → Within Touch.bus s t) ∧ (∀ v t, r = .fault v t → Within Touch.bus s t)

theorem FetchedW.ok {s t : State} {bs : List Byte} (h : Within Touch.bus s t) : FetchedW s (.ok bs t) :=
  ⟨fun _ _ hu => (by cases hu; exact h), fun _ _ hu => (by cases hu)⟩

theorem FetchedW.fault {s t : State} {v : Nat} (h : Within Touch.bus s t) : FetchedW s (.fault v t) :=
  ⟨fun _ _ hu => (by cases hu), fun _ _ hu => (by cases hu; exact h)⟩

theorem FetchedW.stall {s : State} {d : Nat} : FetchedW s (.stall d) :=
  ⟨fun _ _ hu => (by cases hu), fun _ _ hu => (by cases hu)⟩

theorem State.fetch_within {s x : State} {c : Core} {hit : Bool} {a : Word} {n : Nat} (hx : Within Touch.bus s x) :
    FetchedW s (x.fetch c hit a n) := by
  have hu := (State.iniRead_within x c.ini a.toNat n).step hx (w := Touch.bus) (by decide)
  unfold State.fetch
  dsimp only
  split
  · exact .fault hx
  · split
    · exact .ok hx
    · split <;> rename_i h <;> have hy := Within.fst h hu
      · split
        · refine .ok ?_
          split
          · exact (State.fillCache_within ..).then hy
          · exact hy
        · exact .fault hy
      · exact .fault hy
      · exact .stall

theorem State.fetchInsn_within {s x : State} {c : Core} {hit : Bool} {a : Word} (hx : Within Touch.bus s x) :
    FetchedW s (x.fetchInsn c hit a) := by
  unfold State.fetchInsn
  have h1 := State.fetch_within (c := c) (hit := hit) (a := a) (n := Core.unit c) hx
  split <;> rename_i he
  · split
    · exact .ok (h1.1 _ _ he)
    · have h2 := State.fetch_within (c := c) (hit := hit) (a := a) (n := 4) hx
      split <;> rename_i he2
      · dsimp only
        split
        · exact .ok (h2.1 _ _ he2)
        · exact State.fetch_within hx
      · exact h2
  · exact h1

theorem State.lockUp_within (s : State) (c : Core) :
    Within { parts := [.mrc, .cpus], all := true } s (State.lockUp s c) := by
  unfold State.lockUp
  refine (State.event_within ..).then ?_
  refine (State.setCpu_within ..).then ?_
  exact .refl

/-- The state that an entry leaves follows within what an access reaches. -/
def EnteredW (s : State) (r : Entered) : Prop := ∀ t, r = .ok t → Within Touch.bus s t

theorem EnteredW.ok {s t : State} (h : Within Touch.bus s t) : EnteredW s (.ok t) := fun u hu => by
  cases hu
  exact h

theorem EnteredW.stall {s : State} {d : Nat} : EnteredW s (.stall d) := fun u hu => by cases hu

theorem State.enterAt_within {s x : State} {c : Core} {prio : Option Nat} {h : Word} (hx : Within Touch.bus s x) :
    EnteredW s (x.enterAt c prio h) := by
  unfold State.enterAt
  extract_lets y sw z
  have hz : Within Touch.bus s z := (State.setCpu_within ..).then hx
  have hf := State.fetchInsn_within (c := c) (hit := false) (a := h) hz
  split <;> rename_i he
  · exact EnteredW.ok (hf.1 _ _ he)
  · refine EnteredW.ok ?_
    refine (State.lockUp_within ..).then ?_
    exact hf.2 _ _ he
  · exact EnteredW.stall

theorem State.enter_within {s x : State} {c : Core} {v : Nat} {ret : Word} {prio : Option Nat} (hx : Within Touch.bus s x) :
    EnteredW s (x.enter c v ret prio) := by
  have hl : EnteredW s (.ok (x.lockUp c)) := EnteredW.ok ((State.lockUp_within ..).then hx)
  unfold State.enter
  dsimp only
  split
  · exact hl
  · split
    · exact hl
    · exact EnteredW.stall
    · exact hl
    · exact EnteredW.stall
    · have h1 := (State.busWrite_within x c.ini ((x.cpu c).sp - 8).toNat 4 ret).then hx
      generalize (x.busWrite c.ini ((x.cpu c).sp - 8).toNat 4 ret).1 = s1 at h1 ⊢
      have h2 := (State.busWrite_within s1 c.ini ((x.cpu c).sp - 8 + 4).toNat 4 (x.cpu c).sw).then h1
      generalize (s1.busWrite c.ini ((x.cpu c).sp - 8 + 4).toNat 4 (x.cpu c).sw).1 = s2 at h2 ⊢
      have h3 := (State.setCpu_within s2 c { s2.cpu c with sp := (x.cpu c).sp - 8 }).then h2
      generalize s2.setCpu c { s2.cpu c with sp := (x.cpu c).sp - 8 } = s3 at h3 ⊢
      have hr := (State.busRead_within s3 c.ini (s3.reg (cpuPage c) 0 0x808 + word (4 * v)).toNat 4).then h3
      split <;> rename_i h <;> have hy := Within.fst h hr
      · exact State.enterAt_within hy
      · refine EnteredW.ok ?_
        refine (State.lockUp_within ..).then ?_
        exact hy
      · exact EnteredW.stall

theorem State.record_within (s : State) (c : Core) (i : Info) (pc : Word) (f : CoreFault) :
    Within { all := true } s (State.record s c i pc f) := by
  unfold State.record
  extract_lets +onlyGivenNames s1
  extract_lets +onlyGivenNames s2
  extract_lets +onlyGivenNames s3
  refine Within.cut (x := s3) ?_ (fun h4 => ?_)
  · unfold s3
    refine (State.setReg_within ..).then ?_
    refine (State.setReg_within ..).then ?_
    exact .refl
  clear_value s3
  split
  · rename_i v5 v6 v7
    refine (State.setReg_within ..).then ?_
    exact h4
  · rename_i v8 v9
    exact h4

theorem State.stallCore_within (s : State) (c : Core) (d : Nat) :
    Within { parts := [.doms, .cpus] } s (State.stallCore s c d) := by
  unfold State.stallCore
  extract_lets +onlyGivenNames s1
  refine Within.cut (x := s1) ?_ (fun h2 => ?_)
  · unfold s1
    refine (State.wake_within ..).then ?_
    exact .refl
  clear_value s1
  refine (State.setCpu_within ..).then ?_
  exact h2

theorem State.acceptPoint_within (s : State) (c : Core) (point : Bool) :
    Within { parts := [.mrc, .cpus], all := true } s (State.acceptPoint s c point) := by
  unfold State.acceptPoint
  extract_lets +onlyGivenNames s1
  refine Within.ite ?_ ?_
  · exact .refl
  · refine Within.ite ?_ ?_
    · extract_lets +onlyGivenNames s2
      refine Within.cut (x := s2) ?_ (fun h3 => ?_)
      · unfold s2
        refine (State.setCpu_within ..).then ?_
        exact .refl
      clear_value s2
      refine Within.ite ?_ ?_
      · refine (State.haltCore_within ..).then ?_
        exact h3
      · exact h3
    · refine (State.setCpu_within ..).then ?_
      exact .refl

theorem State.coreFault_within {s x0 x : State} {c : Core} {i : Info} {pc : Word} {f : CoreFault} (h0 : Within Touch.bus s x0)
    (hx : Within Touch.bus s x) : Within Touch.bus s (State.coreFault x0 x c i pc f) := by
  unfold State.coreFault
  dsimp only
  have h1 := (State.record_within x c i pc f).then hx
  generalize x.record c i pc f = s1 at h1 ⊢
  have h2 := (State.setCpu_within s1 c { s1.cpu c with stalled := false, atPoint := !c.link, pairs := 0 }).then h1
  have he := State.enter_within (c := c) (v := f.vector) (ret := pc) (prio := none) h2
  split <;> rename_i h
  · split
    · exact he _ h
    · refine (State.acceptPoint_within ..).then ?_
      exact he _ h
  · exact (State.stallCore_within ..).then h0

theorem State.commitCore_within {s x0 x : State} {c : Core} {i : Info} {pc : Word} {f : Eff} (h0 : Within Touch.bus s x0)
    (hx : Within Touch.bus s x) : Within Touch.bus s (State.commitCore x0 x c i pc f) := by
  have tail : ∀ (z : State) (seq : Word), Within Touch.bus s z → Within Touch.bus s
      (if (z.cpu c).st ≠ .run ∧ (z.cpu c).st ≠ .wfi then z
       else if f.hold then (z.setCpu c { z.cpu c with run := false, atPoint := true, pairs := 0 }).haltCore c
       else match f.trap with
         | none => z.acceptPoint c i.point
         | some (v, addr) =>
           match (z.record c i pc { vector := v, addr }).enter c v seq none with
           | .ok s => s.acceptPoint c true
           | .stall d => x0.stallCore c d) := by
    intro z seq h3
    split
    · exact h3
    · split
      · refine (State.haltCore_within ..).then ?_
        refine (State.setCpu_within ..).then ?_
        exact h3
      · split
        · refine (State.acceptPoint_within ..).then ?_
          exact h3
        · rename_i v addr _
          have he := State.enter_within (c := c) (v := v) (ret := seq) (prio := none)
            ((State.record_within z c i pc { vector := v, addr }).then h3)
          split <;> rename_i h
          · refine (State.acceptPoint_within ..).then ?_
            exact he _ h
          · refine (State.stallCore_within ..).then ?_
            exact h0
  unfold State.commitCore
  dsimp only
  refine tail _ _ ?_
  refine Within.foldl (fun z a hz => ?_) ?_
  · refine (State.busWrite_within ..).then ?_
    exact hz
  · refine (State.setCpu_within ..).then ?_
    exact hx

theorem State.execute_within {s x : State} {c : Core} {via : Fetch} {code : List Byte} {i : Info} {k : Ev → Res Eff} (hx : Within Touch.bus s x)
    (hk : ∀ e, EvW s e → ResW s (k e)) : Within Touch.bus s (x.execute c via code i k) := by
  unfold State.execute
  extract_lets +onlyGivenNames s1
  have h1 : Within Touch.bus s s1 := (State.applyFlips_within ..).then hx
  split
  · exact h1
  · extract_lets +onlyGivenNames y
    have hf := State.fetchInsn_within (c := c) (hit := via.hit) (a := y.pc) h1
    split <;> rename_i h
    · exact (State.stallCore_within ..).then h1
    · refine State.coreFault_within h1 ?_
      exact (State.fresh_within ..).then (hf.2 _ _ h)
    · split
      · exact h1
      · have hr := hk { s := _, c, x := y, pc := y.pc } (hf.1 _ _ h)
        split <;> rename_i hkr <;> rw [hkr] at hr
        · exact State.commitCore_within h1 hr
        · exact State.coreFault_within h1 hr
        · exact (State.stallCore_within ..).then h1

theorem illegal_within {α : Type} {s : State} {e : Ev} (h : EvW s e) : ResW s (illegal e : Res α) := h

theorem State.runShaped_within {s x : State} {c : Core} {opc : Nat} {f : LongForm} {h : Shape} {ok : Bool}
    {k : Opnds → Ev → Res Eff} (hx : Within Touch.bus s x) (hk : ∀ o e, EvW s e → ResW s (k o e)) :
    Within Touch.bus s (x.runShaped c opc f h ok k) := by
  unfold State.runShaped
  dsimp only
  split
  · exact hx
  · refine State.execute_within hx (fun e he => ?_)
    split
    · exact hk _ _ he
    · exact illegal_within he

theorem State.runLong_within {s x : State} {c : Core} {opc : Nat} {f : LongForm} {ok : Bool}
    {k : Opnds → Ev → Res Eff} (hx : Within Touch.bus s x) (hk : ∀ o e, EvW s e → ResW s (k o e)) :
    Within Touch.bus s (x.runLong c opc f ok k) := State.runShaped_within hx hk

theorem State.runSized_within {s x : State} {c : Core} {opc : Nat} {f : LongForm}
    {k : Nat → Opnds → Ev → Res Eff} (hx : Within Touch.bus s x) (hk : ∀ n o e, EvW s e → ResW s (k n o e)) :
    Within Touch.bus s (x.runSized c opc f k) := State.runLong_within hx (hk _)

theorem State.runShort_within {s x : State} {c : Core} {op5 : Nat} {f : ShortForm} {k : ShortOp} (hx : Within Touch.bus s x)
    (hk : ∀ a b e, EvW s e → ResW s (k a b e)) : Within Touch.bus s (x.runShort c op5 f k) := by
  unfold State.runShort
  split
  · exact hx
  · exact State.execute_within hx (fun e he => hk _ _ e he)

theorem execInterruptEntry_within (core : Core) (s : State) : OutWithin Touch.bus s (execInterruptEntry core s) := by
  unfold execInterruptEntry
  refine OutWithin.next ?_
  split
  · exact .refl
  · split
    · exact .refl
    · rename_i i _
      have he := State.enter_within (c := core) (v := 16 + i) (ret := (s.cpu core).pc)
        (prio := some (bits (s.irqMap core i) 25 24)) (Within.refl (w := Touch.bus) (s := s))
      split <;> rename_i h
      · exact he _ h
      · refine (State.wake_within ..).then ?_
        exact .refl

theorem execWfiWake_within (core : Core) (s : State) : OutWithin { parts := [.cpus] } s (execWfiWake core s) := by
  unfold execWfiWake
  extract_lets +onlyGivenNames s1
  refine OutWithin.next ?_
  refine Within.ite ?_ ?_
  · refine (State.setCpu_within ..).then ?_
    exact .refl
  · exact .refl

end Sys2Proof.Machine
end

