-- ==== Sys2Proof/Laws/FrameEhriq.lean ====
section
/-! SUPPORT. What each operation of Machine/Ehriq.lean may change, and that it keeps a sound state sound. -/

namespace Sys2Proof.Machine

-- one proof at a time: the file holds many small ones
set_option Elab.async false

theorem Ev.done_within {s0 : State} {e : Ev} {k : Nat} {l : Loc} {r : Alu} (h0 : EvW s0 e) : ResW s0 (Ev.done e k l r) := by
  unfold Ev.done
  refine ResW.ok ?_
  exact h0

theorem longUn_within {s0 : State} {k : Nat} {m : Nat} {g : Word → Word → Alu} {o : Opnds} {e : Ev} (h0 : EvW s0 e) :
    ResW s0 (longUn k m g o e) := by
  unfold longUn
  refine ResW.andThen ?_ (fun a1 e2 h3 => ?_)
  · refine Ev.src_within ?_
    exact h0
  · refine ResW.andThen ?_ (fun a4 e5 h6 => ?_)
    · refine Ev.dst_within ?_
      exact h3
    · refine Ev.done_within ?_
      exact h6

theorem longBin_within {s0 : State} {k : Nat} {g : Word → Word → Word → Alu} {o : Opnds} {e : Ev} (h0 : EvW s0 e) :
    ResW s0 (longBin k g o e) := by
  unfold longBin
  refine ResW.andThen ?_ (fun a1 e2 h3 => ?_)
  · refine Ev.src_within ?_
    exact h0
  · refine ResW.andThen ?_ (fun a4 e5 h6 => ?_)
    · refine Ev.src_within ?_
      exact h3
    · refine ResW.andThen ?_ (fun a7 e8 h9 => ?_)
      · refine Ev.dst_within ?_
        exact h6
      · refine Ev.done_within ?_
        exact h9

theorem longCmp_within {s0 : State} {k : Nat} {g : Word → Word → Alu} {o : Opnds} {e : Ev} (h0 : EvW s0 e) :
    ResW s0 (longCmp k g o e) := by
  unfold longCmp
  refine ResW.andThen ?_ (fun a1 e2 h3 => ?_)
  · refine Ev.src_within ?_
    exact h0
  · refine ResW.andThen ?_ (fun a4 e5 h6 => ?_)
    · refine Ev.src_within ?_
      exact h3
    · refine ResW.ok ?_
      exact h6

theorem shortBin_within {s0 : State} {g : Word → Word → Alu} {x_ y_ : BitVec 5} {e_ : Ev} (h0 : EvW s0 e_) :
    ResW s0 (shortBin g x_ y_ e_) := by
  unfold shortBin
  split
  rename_i v1 v2 v3 v4
  refine ResW.andThen ?_ (fun a5 e6 h7 => ?_)
  · refine Ev.read_within ?_
    refine EvW.locate v4 ?_
    exact h0
  · refine ResW.andThen ?_ (fun a8 e9 h10 => ?_)
    · refine Ev.src_within ?_
      exact h7
    · refine ResW.andThen ?_ (fun a11 e12 h13 => ?_)
      · refine Ev.check_within ?_
        exact h10
      · refine Ev.done_within ?_
        exact h13

theorem shortCmp_within {s0 : State} {g : Word → Word → Alu} {x_ y_ : BitVec 5} {e_ : Ev} (h0 : EvW s0 e_) :
    ResW s0 (shortCmp g x_ y_ e_) := by
  unfold shortCmp
  refine ResW.andThen ?_ (fun a1 e2 h3 => ?_)
  · refine Ev.src_within ?_
    exact h0
  · refine ResW.andThen ?_ (fun a4 e5 h6 => ?_)
    · refine Ev.src_within ?_
      exact h3
    · refine ResW.ok ?_
      exact h6

theorem shortUn_within {s0 : State} {g : Word → Alu} {x_ y_ : BitVec 5} {e_ : Ev} (h0 : EvW s0 e_) :
    ResW s0 (shortUn g x_ y_ e_) := by
  unfold shortUn
  refine ResW.andThen ?_ (fun a1 e2 h3 => ?_)
  · refine Ev.src_within ?_
    exact h0
  · refine ResW.andThen ?_ (fun a4 e5 h6 => ?_)
    · refine Ev.dst_within ?_
      exact h3
    · refine Ev.done_within ?_
      exact h6

theorem shortImm_within {s0 : State} {g : Word → BitVec 5 → Alu} {x_ y_ : BitVec 5} {e_ : Ev} (h0 : EvW s0 e_) :
    ResW s0 (shortImm g x_ y_ e_) := by
  unfold shortImm
  split
  rename_i v1 v2 v3 v4
  refine ResW.andThen ?_ (fun a5 e6 h7 => ?_)
  · refine Ev.read_within ?_
    refine EvW.locate v4 ?_
    exact h0
  · refine ResW.andThen ?_ (fun a8 e9 h10 => ?_)
    · refine Ev.check_within ?_
      exact h7
    · refine Ev.done_within ?_
      exact h10

theorem State.runBoth_within {s x : State} {c : Core} {opc op5 : Nat} {f : Form} {k : Nat → Opnds → Ev → Res Eff} {q : ShortOp}
    (hx : Within Touch.bus s x) (hk : ∀ n o e, EvW s e → ResW s (k n o e)) (hq : ∀ a b e, EvW s e → ResW s (q a b e)) :
    Within Touch.bus s (x.runBoth c opc op5 f k q) := by
  unfold State.runBoth
  split
  · exact State.runSized_within hx hk
  · exact State.runShort_within hx hq

theorem shNop_within {s0 : State}  {x_ y_ : BitVec 5} {e_ : Ev} (h0 : EvW s0 e_) : ResW s0 (shNop  x_ y_ e_) := by
  unfold shNop
  refine ResW.ok ?_
  exact h0

theorem shMov_within {s0 : State}  {x_ y_ : BitVec 5} {e_ : Ev} (h0 : EvW s0 e_) : ResW s0 (shMov  x_ y_ e_) := by
  unfold shMov
  refine shortUn_within ?_
  exact h0

theorem shAdd_within {s0 : State}  {x_ y_ : BitVec 5} {e_ : Ev} (h0 : EvW s0 e_) : ResW s0 (shAdd  x_ y_ e_) := by
  unfold shAdd
  refine shortBin_within ?_
  exact h0

theorem shSub_within {s0 : State}  {x_ y_ : BitVec 5} {e_ : Ev} (h0 : EvW s0 e_) : ResW s0 (shSub  x_ y_ e_) := by
  unfold shSub
  refine shortBin_within ?_
  exact h0

theorem shAnd_within {s0 : State}  {x_ y_ : BitVec 5} {e_ : Ev} (h0 : EvW s0 e_) : ResW s0 (shAnd  x_ y_ e_) := by
  unfold shAnd
  refine shortBin_within ?_
  exact h0

theorem shOr_within {s0 : State}  {x_ y_ : BitVec 5} {e_ : Ev} (h0 : EvW s0 e_) : ResW s0 (shOr  x_ y_ e_) := by
  unfold shOr
  refine shortBin_within ?_
  exact h0

theorem shXor_within {s0 : State}  {x_ y_ : BitVec 5} {e_ : Ev} (h0 : EvW s0 e_) : ResW s0 (shXor  x_ y_ e_) := by
  unfold shXor
  refine shortBin_within ?_
  exact h0

theorem shCmp_within {s0 : State}  {x_ y_ : BitVec 5} {e_ : Ev} (h0 : EvW s0 e_) : ResW s0 (shCmp  x_ y_ e_) := by
  unfold shCmp
  refine shortCmp_within ?_
  exact h0

theorem shTst_within {s0 : State}  {x_ y_ : BitVec 5} {e_ : Ev} (h0 : EvW s0 e_) : ResW s0 (shTst  x_ y_ e_) := by
  unfold shTst
  refine shortCmp_within ?_
  exact h0

theorem shNeg_within {s0 : State}  {x_ y_ : BitVec 5} {e_ : Ev} (h0 : EvW s0 e_) : ResW s0 (shNeg  x_ y_ e_) := by
  unfold shNeg
  refine shortUn_within ?_
  exact h0

theorem shNot_within {s0 : State}  {x_ y_ : BitVec 5} {e_ : Ev} (h0 : EvW s0 e_) : ResW s0 (shNot  x_ y_ e_) := by
  unfold shNot
  refine shortUn_within ?_
  exact h0

theorem shMovi_within {s0 : State}  {x_ y_ : BitVec 5} {e_ : Ev} (h0 : EvW s0 e_) : ResW s0 (shMovi  x_ y_ e_) := by
  unfold shMovi
  refine ResW.andThen ?_ (fun a1 e2 h3 => ?_)
  · refine Ev.dst_within ?_
    exact h0
  · refine Ev.done_within ?_
    exact h3

theorem shAddi_within {s0 : State}  {x_ y_ : BitVec 5} {e_ : Ev} (h0 : EvW s0 e_) : ResW s0 (shAddi  x_ y_ e_) := by
  unfold shAddi
  refine shortImm_within ?_
  exact h0

theorem shShli_within {s0 : State}  {x_ y_ : BitVec 5} {e_ : Ev} (h0 : EvW s0 e_) : ResW s0 (shShli  x_ y_ e_) := by
  unfold shShli
  refine shortImm_within ?_
  exact h0

theorem shShri_within {s0 : State}  {x_ y_ : BitVec 5} {e_ : Ev} (h0 : EvW s0 e_) : ResW s0 (shShri  x_ y_ e_) := by
  unfold shShri
  refine shortImm_within ?_
  exact h0

theorem shSari_within {s0 : State}  {x_ y_ : BitVec 5} {e_ : Ev} (h0 : EvW s0 e_) : ResW s0 (shSari  x_ y_ e_) := by
  unfold shSari
  refine shortImm_within ?_
  exact h0

theorem execNop_within (core : Core) (form : Form) (s : State) : OutWithin Touch.bus s (execNop core form s) := by
  unfold execNop
  refine OutWithin.next ?_
  split
  · rename_i v1 v2
    refine State.runLong_within ?_ (fun a5 e7 h4 => ?_)
    · exact .refl
    · refine ResW.ok ?_
      exact h4
  · rename_i v8 v9
    refine State.runShort_within ?_ (fun a12 b13 e14 h11 => ?_)
    · exact .refl
    · refine shNop_within ?_
      exact h11

theorem execMov_within (core : Core) (form : Form) (s : State) : OutWithin Touch.bus s (execMov core form s) := by
  unfold execMov
  refine OutWithin.next ?_
  refine State.runBoth_within ?_ (fun b4 a3 e5 h2 => ?_) (fun a3 b4 e5 h2 => ?_)
  · exact .refl
  · refine longUn_within ?_
    exact h2
  · refine shMov_within ?_
    exact h2

theorem execAdd_within (core : Core) (form : Form) (s : State) : OutWithin Touch.bus s (execAdd core form s) := by
  unfold execAdd
  refine OutWithin.next ?_
  refine State.runBoth_within ?_ (fun b4 a3 e5 h2 => ?_) (fun a3 b4 e5 h2 => ?_)
  · exact .refl
  · refine longBin_within ?_
    exact h2
  · refine shAdd_within ?_
    exact h2

theorem execSub_within (core : Core) (form : Form) (s : State) : OutWithin Touch.bus s (execSub core form s) := by
  unfold execSub
  refine OutWithin.next ?_
  refine State.runBoth_within ?_ (fun b4 a3 e5 h2 => ?_) (fun a3 b4 e5 h2 => ?_)
  · exact .refl
  · refine longBin_within ?_
    exact h2
  · refine shSub_within ?_
    exact h2

theorem execAnd_within (core : Core) (form : Form) (s : State) : OutWithin Touch.bus s (execAnd core form s) := by
  unfold execAnd
  refine OutWithin.next ?_
  refine State.runBoth_within ?_ (fun b4 a3 e5 h2 => ?_) (fun a3 b4 e5 h2 => ?_)
  · exact .refl
  · refine longBin_within ?_
    exact h2
  · refine shAnd_within ?_
    exact h2

theorem execOr_within (core : Core) (form : Form) (s : State) : OutWithin Touch.bus s (execOr core form s) := by
  unfold execOr
  refine OutWithin.next ?_
  refine State.runBoth_within ?_ (fun b4 a3 e5 h2 => ?_) (fun a3 b4 e5 h2 => ?_)
  · exact .refl
  · refine longBin_within ?_
    exact h2
  · refine shOr_within ?_
    exact h2

theorem execXor_within (core : Core) (form : Form) (s : State) : OutWithin Touch.bus s (execXor core form s) := by
  unfold execXor
  refine OutWithin.next ?_
  refine State.runBoth_within ?_ (fun b4 a3 e5 h2 => ?_) (fun a3 b4 e5 h2 => ?_)
  · exact .refl
  · refine longBin_within ?_
    exact h2
  · refine shXor_within ?_
    exact h2

theorem execCmp_within (core : Core) (form : Form) (s : State) : OutWithin Touch.bus s (execCmp core form s) := by
  unfold execCmp
  refine OutWithin.next ?_
  refine State.runBoth_within ?_ (fun b4 a3 e5 h2 => ?_) (fun a3 b4 e5 h2 => ?_)
  · exact .refl
  · refine longCmp_within ?_
    exact h2
  · refine shCmp_within ?_
    exact h2

theorem execNeg_within (core : Core) (form : Form) (s : State) : OutWithin Touch.bus s (execNeg core form s) := by
  unfold execNeg
  refine OutWithin.next ?_
  refine State.runBoth_within ?_ (fun b4 a3 e5 h2 => ?_) (fun a3 b4 e5 h2 => ?_)
  · exact .refl
  · refine longUn_within ?_
    exact h2
  · refine shNeg_within ?_
    exact h2

theorem execNot_within (core : Core) (form : Form) (s : State) : OutWithin Touch.bus s (execNot core form s) := by
  unfold execNot
  refine OutWithin.next ?_
  refine State.runBoth_within ?_ (fun b4 a3 e5 h2 => ?_) (fun a3 b4 e5 h2 => ?_)
  · exact .refl
  · refine longUn_within ?_
    exact h2
  · refine shNot_within ?_
    exact h2

theorem execAdc_within (core : Core) (form : LongForm) (s : State) : OutWithin Touch.bus s (execAdc core form s) := by
  unfold execAdc
  refine OutWithin.next ?_
  refine State.runSized_within ?_ (fun b4 a3 e5 h2 => ?_)
  · exact .refl
  · refine longBin_within ?_
    exact h2

theorem execSbc_within (core : Core) (form : LongForm) (s : State) : OutWithin Touch.bus s (execSbc core form s) := by
  unfold execSbc
  refine OutWithin.next ?_
  refine State.runSized_within ?_ (fun b4 a3 e5 h2 => ?_)
  · exact .refl
  · refine longBin_within ?_
    exact h2

theorem execTst_within (core : Core) (form : Form) (s : State) : OutWithin Touch.bus s (execTst core form s) := by
  unfold execTst
  refine OutWithin.next ?_
  refine State.runBoth_within ?_ (fun b4 a3 e5 h2 => ?_) (fun a3 b4 e5 h2 => ?_)
  · exact .refl
  · refine longCmp_within ?_
    exact h2
  · refine shTst_within ?_
    exact h2

theorem execMovi_within (core : Core) (form : ShortForm) (s : State) : OutWithin Touch.bus s (execMovi core form s) := by
  unfold execMovi
  refine OutWithin.next ?_
  refine State.runShort_within ?_ (fun a3 b4 e5 h2 => ?_)
  · exact .refl
  · refine shMovi_within ?_
    exact h2

theorem execAddi_within (core : Core) (form : ShortForm) (s : State) : OutWithin Touch.bus s (execAddi core form s) := by
  unfold execAddi
  refine OutWithin.next ?_
  refine State.runShort_within ?_ (fun a3 b4 e5 h2 => ?_)
  · exact .refl
  · refine shAddi_within ?_
    exact h2

theorem execShli_within (core : Core) (form : ShortForm) (s : State) : OutWithin Touch.bus s (execShli core form s) := by
  unfold execShli
  refine OutWithin.next ?_
  refine State.runShort_within ?_ (fun a3 b4 e5 h2 => ?_)
  · exact .refl
  · refine shShli_within ?_
    exact h2

theorem execShri_within (core : Core) (form : ShortForm) (s : State) : OutWithin Touch.bus s (execShri core form s) := by
  unfold execShri
  refine OutWithin.next ?_
  refine State.runShort_within ?_ (fun a3 b4 e5 h2 => ?_)
  · exact .refl
  · refine shShri_within ?_
    exact h2

theorem execSari_within (core : Core) (form : ShortForm) (s : State) : OutWithin Touch.bus s (execSari core form s) := by
  unfold execSari
  refine OutWithin.next ?_
  refine State.runShort_within ?_ (fun a3 b4 e5 h2 => ?_)
  · exact .refl
  · refine shSari_within ?_
    exact h2

theorem execMovsb_within (core : Core) (form : LongForm) (s : State) : OutWithin Touch.bus s (execMovsb core form s) := by
  unfold execMovsb
  refine OutWithin.next ?_
  refine State.runLong_within ?_ (fun a3 e5 h2 => ?_)
  · exact .refl
  · refine longUn_within ?_
    exact h2

theorem execMovsh_within (core : Core) (form : LongForm) (s : State) : OutWithin Touch.bus s (execMovsh core form s) := by
  unfold execMovsh
  refine OutWithin.next ?_
  refine State.runLong_within ?_ (fun a3 e5 h2 => ?_)
  · exact .refl
  · refine longUn_within ?_
    exact h2

theorem execMovzb_within (core : Core) (form : LongForm) (s : State) : OutWithin Touch.bus s (execMovzb core form s) := by
  unfold execMovzb
  refine OutWithin.next ?_
  refine State.runLong_within ?_ (fun a3 e5 h2 => ?_)
  · exact .refl
  · refine longUn_within ?_
    exact h2

theorem execMovzh_within (core : Core) (form : LongForm) (s : State) : OutWithin Touch.bus s (execMovzh core form s) := by
  unfold execMovzh
  refine OutWithin.next ?_
  refine State.runLong_within ?_ (fun a3 e5 h2 => ?_)
  · exact .refl
  · refine longUn_within ?_
    exact h2

theorem execMul_within (core : Core) (form : LongForm) (s : State) : OutWithin Touch.bus s (execMul core form s) := by
  unfold execMul
  refine OutWithin.next ?_
  refine State.runLong_within ?_ (fun a3 e5 h2 => ?_)
  · exact .refl
  · refine longBin_within ?_
    exact h2

theorem execMulhs_within (core : Core) (form : LongForm) (s : State) : OutWithin Touch.bus s (execMulhs core form s) := by
  unfold execMulhs
  refine OutWithin.next ?_
  refine State.runLong_within ?_ (fun a3 e5 h2 => ?_)
  · exact .refl
  · refine longBin_within ?_
    exact h2

theorem execMulhu_within (core : Core) (form : LongForm) (s : State) : OutWithin Touch.bus s (execMulhu core form s) := by
  unfold execMulhu
  refine OutWithin.next ?_
  refine State.runLong_within ?_ (fun a3 e5 h2 => ?_)
  · exact .refl
  · refine longBin_within ?_
    exact h2

theorem longDiv_within {s0 : State} {g : Word → Word → Word → Alu} {o : Opnds} {e : Ev} (h0 : EvW s0 e) :
    ResW s0 (longDiv g o e) := by
  unfold longDiv
  refine ResW.andThen ?_ (fun a1 e2 h3 => ?_)
  · refine Ev.src_within ?_
    exact h0
  · refine ResW.andThen ?_ (fun a4 e5 h6 => ?_)
    · refine Ev.src_within ?_
      exact h3
    · refine ResW.andThen ?_ (fun a7 e8 h9 => ?_)
      · refine Ev.dst_within ?_
        exact h6
      · refine ResW.andThen ?_ (fun a10 e11 h12 => ?_)
        · refine Ev.done_within ?_
          exact h9
        · refine ResW.ok ?_
          exact h12

theorem execDivs_within (core : Core) (form : LongForm) (s : State) : OutWithin Touch.bus s (execDivs core form s) := by
  unfold execDivs
  refine OutWithin.next ?_
  refine State.runLong_within ?_ (fun a3 e5 h2 => ?_)
  · exact .refl
  · refine longDiv_within ?_
    exact h2

theorem execDivu_within (core : Core) (form : LongForm) (s : State) : OutWithin Touch.bus s (execDivu core form s) := by
  unfold execDivu
  refine OutWithin.next ?_
  refine State.runLong_within ?_ (fun a3 e5 h2 => ?_)
  · exact .refl
  · refine longDiv_within ?_
    exact h2

theorem execRems_within (core : Core) (form : LongForm) (s : State) : OutWithin Touch.bus s (execRems core form s) := by
  unfold execRems
  refine OutWithin.next ?_
  refine State.runLong_within ?_ (fun a3 e5 h2 => ?_)
  · exact .refl
  · refine longDiv_within ?_
    exact h2

theorem execRemu_within (core : Core) (form : LongForm) (s : State) : OutWithin Touch.bus s (execRemu core form s) := by
  unfold execRemu
  refine OutWithin.next ?_
  refine State.runLong_within ?_ (fun a3 e5 h2 => ?_)
  · exact .refl
  · refine longDiv_within ?_
    exact h2

theorem execShl_within (core : Core) (form : LongForm) (s : State) : OutWithin Touch.bus s (execShl core form s) := by
  unfold execShl
  refine OutWithin.next ?_
  refine State.runLong_within ?_ (fun a3 e5 h2 => ?_)
  · exact .refl
  · refine longBin_within ?_
    exact h2

theorem execShr_within (core : Core) (form : LongForm) (s : State) : OutWithin Touch.bus s (execShr core form s) := by
  unfold execShr
  refine OutWithin.next ?_
  refine State.runLong_within ?_ (fun a3 e5 h2 => ?_)
  · exact .refl
  · refine longBin_within ?_
    exact h2

theorem execSar_within (core : Core) (form : LongForm) (s : State) : OutWithin Touch.bus s (execSar core form s) := by
  unfold execSar
  refine OutWithin.next ?_
  refine State.runLong_within ?_ (fun a3 e5 h2 => ?_)
  · exact .refl
  · refine longBin_within ?_
    exact h2

theorem execRol_within (core : Core) (form : LongForm) (s : State) : OutWithin Touch.bus s (execRol core form s) := by
  unfold execRol
  refine OutWithin.next ?_
  refine State.runLong_within ?_ (fun a3 e5 h2 => ?_)
  · exact .refl
  · refine longBin_within ?_
    exact h2

theorem execRor_within (core : Core) (form : LongForm) (s : State) : OutWithin Touch.bus s (execRor core form s) := by
  unfold execRor
  refine OutWithin.next ?_
  refine State.runLong_within ?_ (fun a3 e5 h2 => ?_)
  · exact .refl
  · refine longBin_within ?_
    exact h2

theorem execClz_within (core : Core) (form : LongForm) (s : State) : OutWithin Touch.bus s (execClz core form s) := by
  unfold execClz
  refine OutWithin.next ?_
  refine State.runLong_within ?_ (fun a3 e5 h2 => ?_)
  · exact .refl
  · refine longUn_within ?_
    exact h2

theorem execBrev_within (core : Core) (form : LongForm) (s : State) : OutWithin Touch.bus s (execBrev core form s) := by
  unfold execBrev
  refine OutWithin.next ?_
  refine State.runLong_within ?_ (fun a3 e5 h2 => ?_)
  · exact .refl
  · refine longUn_within ?_
    exact h2

theorem execBswap_within (core : Core) (form : LongForm) (s : State) : OutWithin Touch.bus s (execBswap core form s) := by
  unfold execBswap
  refine OutWithin.next ?_
  refine State.runLong_within ?_ (fun a3 e5 h2 => ?_)
  · exact .refl
  · refine longUn_within ?_
    exact h2

theorem longMac_within {s0 : State} {a : Nat} {neg : Bool} {o : Opnds} {e : Ev} (h0 : EvW s0 e) :
    ResW s0 (longMac a neg o e) := by
  unfold longMac
  refine ResW.andThen ?_ (fun a1 e2 h3 => ?_)
  · refine Ev.src_within ?_
    exact h0
  · refine ResW.andThen ?_ (fun a4 e5 h6 => ?_)
    · refine Ev.src_within ?_
      exact h3
    · extract_lets +onlyGivenNames s7
      refine ResW.ok ?_
      exact h6

theorem shortMac_within {s0 : State} {k : Nat} {g : Cpu → Eff → Word → Word → Eff} {x_ y_ : BitVec 5} {e_ : Ev} (h0 : EvW s0 e_) :
    ResW s0 (shortMac k g x_ y_ e_) := by
  unfold shortMac
  refine ResW.ite ?_ ?_
  · refine illegal_within ?_
    exact h0
  · refine ResW.andThen ?_ (fun a1 e2 h3 => ?_)
    · refine Ev.src_within ?_
      exact h0
    · refine ResW.andThen ?_ (fun a4 e5 h6 => ?_)
      · refine Ev.src_within ?_
        exact h3
      · refine ResW.ok ?_
        exact h6

theorem shMacdR_within {s0 : State} {a : Nat} {x_ y_ : BitVec 5} {e_ : Ev} (h0 : EvW s0 e_) :
    ResW s0 (shMacdR a x_ y_ e_) := by
  unfold shMacdR
  refine shortMac_within ?_
  exact h0

theorem shMacdC_within {s0 : State} {conj : Bool} {x_ y_ : BitVec 5} {e_ : Ev} (h0 : EvW s0 e_) :
    ResW s0 (shMacdC conj x_ y_ e_) := by
  unfold shMacdC
  refine shortMac_within ?_
  exact h0

theorem execMac_within (core : Core) (form : LongForm) (s : State) : OutWithin Touch.bus s (execMac core form s) := by
  unfold execMac
  refine OutWithin.next ?_
  refine State.runLong_within ?_ (fun a3 e5 h2 => ?_)
  · exact .refl
  · refine longMac_within ?_
    exact h2

theorem execMsu_within (core : Core) (form : LongForm) (s : State) : OutWithin Touch.bus s (execMsu core form s) := by
  unfold execMsu
  refine OutWithin.next ?_
  refine State.runLong_within ?_ (fun a3 e5 h2 => ?_)
  · exact .refl
  · refine longMac_within ?_
    exact h2

theorem execMacdR_within (core : Core) (form : Form) (s : State) : OutWithin Touch.bus s (execMacdR core form s) := by
  unfold execMacdR
  refine OutWithin.next ?_
  split
  · rename_i v1 v2
    refine State.runLong_within ?_ (fun a5 e7 h4 => ?_)
    · exact .refl
    · refine longMac_within ?_
      exact h4
  · rename_i v8 v9
    refine State.runShort_within ?_ (fun a12 b13 e14 h11 => ?_)
    · exact .refl
    · refine shMacdR_within ?_
      exact h11

theorem longCmac_within {s0 : State} {conj : Bool} {o : Opnds} {e : Ev} (h0 : EvW s0 e) : ResW s0 (longCmac conj o e) := by
  unfold longCmac
  refine ResW.andThen ?_ (fun a1 e2 h3 => ?_)
  · refine Ev.src_within ?_
    exact h0
  · refine ResW.andThen ?_ (fun a4 e5 h6 => ?_)
    · refine Ev.src_within ?_
      exact h3
    · refine ResW.ok ?_
      exact h6

theorem execMacdC_within (core : Core) (form : Form) (s : State) : OutWithin Touch.bus s (execMacdC core form s) := by
  unfold execMacdC
  refine OutWithin.next ?_
  split
  · rename_i v1 v2
    refine State.runLong_within ?_ (fun a5 e7 h4 => ?_)
    · exact .refl
    · refine longCmac_within ?_
      exact h4
  · rename_i v8 v9
    refine State.runShort_within ?_ (fun a12 b13 e14 h11 => ?_)
    · exact .refl
    · refine shMacdC_within ?_
      exact h11

theorem execMacdCj_within (core : Core) (form : Form) (s : State) : OutWithin Touch.bus s (execMacdCj core form s) := by
  unfold execMacdCj
  refine OutWithin.next ?_
  split
  · rename_i v1 v2
    refine State.runLong_within ?_ (fun a5 e7 h4 => ?_)
    · exact .refl
    · refine longCmac_within ?_
      exact h4
  · rename_i v8 v9
    refine State.runShort_within ?_ (fun a12 b13 e14 h11 => ?_)
    · exact .refl
    · refine shMacdC_within ?_
      exact h11

theorem shClra_within {s0 : State}  {x_ y_ : BitVec 5} {e_ : Ev} (h0 : EvW s0 e_) : ResW s0 (shClra  x_ y_ e_) := by
  unfold shClra
  refine ResW.ite ?_ ?_
  · refine illegal_within ?_
    exact h0
  · refine ResW.ok ?_
    exact h0

theorem execClra_within (core : Core) (form : ShortForm) (s : State) : OutWithin Touch.bus s (execClra core form s) := by
  unfold execClra
  refine OutWithin.next ?_
  refine State.runShort_within ?_ (fun a3 b4 e5 h2 => ?_)
  · exact .refl
  · refine shClra_within ?_
    exact h2

theorem execSac_within (core : Core) (form : LongForm) (s : State) : OutWithin Touch.bus s (execSac core form s) := by
  unfold execSac
  extract_lets +onlyGivenNames s1
  extract_lets +onlyGivenNames s2
  refine OutWithin.next ?_
  refine State.runLong_within ?_ (fun a5 e7 h4 => ?_)
  · exact .refl
  · refine ResW.andThen ?_ (fun a8 e9 h10 => ?_)
    · refine Ev.dst_within ?_
      exact h4
    · refine Ev.done_within ?_
      exact h10

theorem execLac_within (core : Core) (form : LongForm) (s : State) : OutWithin Touch.bus s (execLac core form s) := by
  unfold execLac
  refine OutWithin.next ?_
  refine State.runLong_within ?_ (fun a3 e5 h2 => ?_)
  · exact .refl
  · refine ResW.andThen ?_ (fun a6 e7 h8 => ?_)
    · refine Ev.src_within ?_
      exact h2
    · refine ResW.ok ?_
      exact h8

theorem State.runAccop_within {s x : State} {c : Core} {num : Nat} {f : LongForm} {k : Cpu → Eff → Eff} (hx : Within Touch.bus s x) :
    Within Touch.bus s (x.runAccop c num f k) := by
  unfold State.runAccop
  split
  · exact hx
  · exact State.runLong_within hx (fun _ _ he => he)

theorem execAcc0Clear_within (core : Core) (form : LongForm) (s : State) :
    OutWithin Touch.bus s (execAcc0Clear core form s) := by
  unfold execAcc0Clear
  refine OutWithin.next ?_
  refine State.runAccop_within ?_
  exact .refl

theorem execAcc1Clear_within (core : Core) (form : LongForm) (s : State) :
    OutWithin Touch.bus s (execAcc1Clear core form s) := by
  unfold execAcc1Clear
  refine OutWithin.next ?_
  refine State.runAccop_within ?_
  exact .refl

theorem execAccAdd_within (core : Core) (form : LongForm) (s : State) : OutWithin Touch.bus s (execAccAdd core form s) := by
  unfold execAccAdd
  refine OutWithin.next ?_
  refine State.runAccop_within ?_
  exact .refl

theorem execAccSub_within (core : Core) (form : LongForm) (s : State) : OutWithin Touch.bus s (execAccSub core form s) := by
  unfold execAccSub
  refine OutWithin.next ?_
  refine State.runAccop_within ?_
  exact .refl

theorem execAccSwap_within (core : Core) (form : LongForm) (s : State) :
    OutWithin Touch.bus s (execAccSwap core form s) := by
  unfold execAccSwap
  refine OutWithin.next ?_
  refine State.runAccop_within ?_
  exact .refl

theorem execAccNegate_within (core : Core) (form : LongForm) (s : State) :
    OutWithin Touch.bus s (execAccNegate core form s) := by
  unfold execAccNegate
  refine OutWithin.next ?_
  refine State.runAccop_within ?_
  exact .refl

end Sys2Proof.Machine
end

