-- ==== Sys2Proof/Laws/FrameEhriqCtl.lean ====
section
/-! SUPPORT. What each operation of Machine/EhriqCtl.lean may change, and that it keeps a sound state sound. -/

namespace Sys2Proof.Machine

-- one proof at a time: the file holds many small ones
set_option Elab.async false

theorem execMfs_within (core : Core) (form : LongForm) (s : State) : OutWithin Touch.bus s (execMfs core form s) := by
  unfold execMfs
  refine OutWithin.next ?_
  refine State.runLong_within ?_ (fun a3 e5 h2 => ?_)
  · exact .refl
  · refine ResW.andThen ?_ (fun a6 e7 h8 => ?_)
    · refine Ev.dst_within ?_
      exact h2
    · refine Ev.done_within ?_
      exact h8

theorem execMts_within (core : Core) (form : LongForm) (s : State) : OutWithin Touch.bus s (execMts core form s) := by
  unfold execMts
  refine OutWithin.next ?_
  refine State.runLong_within ?_ (fun a3 e5 h2 => ?_)
  · exact .refl
  · refine ResW.andThen ?_ (fun a6 e7 h8 => ?_)
    · refine Ev.src_within ?_
      exact h2
    · refine ResW.ite ?_ ?_
      · refine illegal_within ?_
        exact h8
      · refine ResW.ok ?_
        exact h8

theorem Ev.atomic_within {s0 : State} {e : Ev} {l : Loc} (h0 : EvW s0 e) : ResW s0 (Ev.atomic e l) := by
  unfold Ev.atomic
  split
  · rename_i v1 v2
    refine ResW.ite ?_ ?_
    · refine ResW.fault ?_
      exact h0
    · split
      · rename_i v3 v4 v5
        refine ResW.ok ?_
        exact h0
      · rename_i v6 v7
        refine ResW.ok ?_
        exact h0
      · rename_i v8 v9
        refine ResW.ok ?_
        exact h0
      · rename_i v10 v11 v12 v13
        refine ResW.fault ?_
        exact h0
  · rename_i v14 v15
    refine ResW.ok ?_
    exact h0

theorem Ev.readWrite_within {s0 : State} {e : Ev} {o : Opnd} (h0 : EvW s0 e) : ResW s0 (Ev.readWrite e o) := by
  unfold Ev.readWrite
  split
  rename_i v1 v2 v3 v4
  refine ResW.andThen ?_ (fun a5 e6 h7 => ?_)
  · refine Ev.atomic_within ?_
    refine EvW.locate v4 ?_
    exact h0
  · refine ResW.andThen ?_ (fun a8 e9 h10 => ?_)
    · refine Ev.read_within ?_
      exact h7
    · refine ResW.andThen ?_ (fun a11 e12 h13 => ?_)
      · refine Ev.check_within ?_
        exact h10
      · refine ResW.ok ?_
        exact h13

theorem execXchg_within (core : Core) (form : LongForm) (s : State) : OutWithin Touch.bus s (execXchg core form s) := by
  unfold execXchg
  refine OutWithin.next ?_
  refine State.runLong_within ?_ (fun a3 e5 h2 => ?_)
  · exact .refl
  · refine ResW.andThen ?_ (fun a6 e7 h8 => ?_)
    · refine Ev.readWrite_within ?_
      exact h2
    · refine ResW.andThen ?_ (fun a9 e10 h11 => ?_)
      · refine Ev.readWrite_within ?_
        exact h8
      · refine ResW.ok ?_
        exact h11

theorem execCasOp_within (core : Core) (form : LongForm) (s : State) : OutWithin Touch.bus s (execCasOp core form s) := by
  unfold execCasOp
  refine OutWithin.next ?_
  refine State.runLong_within ?_ (fun a3 e5 h2 => ?_)
  · exact .refl
  · refine ResW.andThen ?_ (fun a6 e7 h8 => ?_)
    · refine Ev.src_within ?_
      exact h2
    · refine ResW.andThen ?_ (fun a9 e10 h11 => ?_)
      · refine Ev.src_within ?_
        exact h8
      · refine ResW.andThen ?_ (fun a12 e13 h14 => ?_)
        · refine Ev.readWrite_within ?_
          exact h11
        · extract_lets +onlyGivenNames s15
          refine ResW.ok ?_
          exact h14

theorem execJ_within (core : Core) (form : LongForm) (s : State) : OutWithin Touch.bus s (execJ core form s) := by
  unfold execJ
  refine OutWithin.next ?_
  refine State.runLong_within ?_ (fun a3 e5 h2 => ?_)
  · exact .refl
  · refine ResW.ok ?_
    exact h2

theorem execBcc_within (core : Core) (form : LongForm) (s : State) : OutWithin Touch.bus s (execBcc core form s) := by
  unfold execBcc
  refine OutWithin.next ?_
  refine State.runLong_within ?_ (fun a3 e5 h2 => ?_)
  · exact .refl
  · refine ResW.ok ?_
    exact h2

theorem shBranch_within {s0 : State} {p : Word → Bool} {x_ y_ : BitVec 5} {e_ : Ev} (h0 : EvW s0 e_) :
    ResW s0 (shBranch p x_ y_ e_) := by
  unfold shBranch
  refine ResW.ok ?_
  exact h0

theorem shBra_within {s0 : State}  {x_ y_ : BitVec 5} {e_ : Ev} (h0 : EvW s0 e_) : ResW s0 (shBra  x_ y_ e_) := by
  unfold shBra
  refine shBranch_within ?_
  exact h0

theorem shBeq_within {s0 : State}  {x_ y_ : BitVec 5} {e_ : Ev} (h0 : EvW s0 e_) : ResW s0 (shBeq  x_ y_ e_) := by
  unfold shBeq
  refine shBranch_within ?_
  exact h0

theorem shBne_within {s0 : State}  {x_ y_ : BitVec 5} {e_ : Ev} (h0 : EvW s0 e_) : ResW s0 (shBne  x_ y_ e_) := by
  unfold shBne
  refine shBranch_within ?_
  exact h0

theorem execBra_within (core : Core) (form : ShortForm) (s : State) : OutWithin Touch.bus s (execBra core form s) := by
  unfold execBra
  refine OutWithin.next ?_
  refine State.runShort_within ?_ (fun a3 b4 e5 h2 => ?_)
  · exact .refl
  · refine shBra_within ?_
    exact h2

theorem execBeq_within (core : Core) (form : ShortForm) (s : State) : OutWithin Touch.bus s (execBeq core form s) := by
  unfold execBeq
  refine OutWithin.next ?_
  refine State.runShort_within ?_ (fun a3 b4 e5 h2 => ?_)
  · exact .refl
  · refine shBeq_within ?_
    exact h2

theorem execBne_within (core : Core) (form : ShortForm) (s : State) : OutWithin Touch.bus s (execBne core form s) := by
  unfold execBne
  refine OutWithin.next ?_
  refine State.runShort_within ?_ (fun a3 b4 e5 h2 => ?_)
  · exact .refl
  · refine shBne_within ?_
    exact h2

theorem execCall_within (core : Core) (form : LongForm) (s : State) : OutWithin Touch.bus s (execCall core form s) := by
  unfold execCall
  extract_lets +onlyGivenNames s1
  refine OutWithin.next ?_
  refine State.runLong_within ?_ (fun a4 e6 h3 => ?_)
  · exact .refl
  · extract_lets +onlyGivenNames s7
    refine ResW.andThen ?_ (fun a8 e9 h10 => ?_)
    · refine Ev.checkMem_within ?_
      exact h3
    · refine ResW.ite ?_ ?_
      · refine ResW.fault ?_
        exact h10
      · refine ResW.ok ?_
        exact h10

theorem retEff_within {s0 : State} {e : Ev} (h0 : EvW s0 e) : ResW s0 (retEff e) := by
  unfold retEff
  refine ResW.andThen ?_ (fun a1 e2 h3 => ?_)
  · refine Ev.readMem_within ?_
    exact h0
  · refine ResW.ok ?_
    exact h3

theorem shRet_within {s0 : State}  {x_ y_ : BitVec 5} {e_ : Ev} (h0 : EvW s0 e_) : ResW s0 (shRet  x_ y_ e_) := by
  unfold shRet
  refine ResW.ite ?_ ?_
  · refine illegal_within ?_
    exact h0
  · refine retEff_within ?_
    exact h0

theorem execRet_within (core : Core) (form : Form) (s : State) : OutWithin Touch.bus s (execRet core form s) := by
  unfold execRet
  refine OutWithin.next ?_
  split
  · rename_i v1 v2
    refine State.runLong_within ?_ (fun a5 e7 h4 => ?_)
    · exact .refl
    · refine retEff_within ?_
      exact h4
  · rename_i v8 v9
    refine State.runShort_within ?_ (fun a12 b13 e14 h11 => ?_)
    · exact .refl
    · refine shRet_within ?_
      exact h11

theorem execCallm_within (core : Core) (form : LongForm) (s : State) : OutWithin Touch.bus s (execCallm core form s) := by
  unfold execCallm
  extract_lets +onlyGivenNames s1
  extract_lets +onlyGivenNames s2
  refine OutWithin.next ?_
  refine State.runLong_within ?_ (fun a5 e7 h4 => ?_)
  · exact .refl
  · extract_lets +onlyGivenNames s8
    extract_lets +onlyGivenNames s9
    refine ResW.andThen ?_ (fun a10 e11 h12 => ?_)
    · refine Ev.checkMany_within ?_
      exact h4
    · refine ResW.ok ?_
      exact h12

theorem execRetm_within (core : Core) (form : LongForm) (s : State) : OutWithin Touch.bus s (execRetm core form s) := by
  unfold execRetm
  refine OutWithin.next ?_
  refine State.runLong_within ?_ (fun a3 e5 h2 => ?_)
  · exact .refl
  · extract_lets +onlyGivenNames s6
    refine ResW.andThen ?_ (fun a7 e8 h9 => ?_)
    · refine Ev.readMem_within ?_
      exact h2
    · extract_lets +onlyGivenNames s10
      refine ResW.andThen ?_ (fun a11 e12 h13 => ?_)
      · refine Ev.readMany_within ?_
        exact h9
      · refine ResW.andThen ?_ (fun a14 e15 h16 => ?_)
        · refine Ev.readMem_within ?_
          exact h13
        · refine ResW.ok ?_
          exact h16

theorem execReti_within (core : Core) (form : LongForm) (s : State) : OutWithin Touch.bus s (execReti core form s) := by
  unfold execReti
  refine OutWithin.next ?_
  refine State.runLong_within ?_ (fun a3 e5 h2 => ?_)
  · exact .refl
  · refine ResW.andThen ?_ (fun a6 e7 h8 => ?_)
    · refine Ev.readMem_within ?_
      exact h2
    · refine ResW.andThen ?_ (fun a9 e10 h11 => ?_)
      · refine Ev.readMem_within ?_
        exact h8
      · refine ResW.ok ?_
        exact h11

theorem execTrap_within (core : Core) (form : LongForm) (s : State) : OutWithin Touch.bus s (execTrap core form s) := by
  unfold execTrap
  refine OutWithin.next ?_
  refine State.runLong_within ?_ (fun a3 e5 h2 => ?_)
  · exact .refl
  · refine ResW.ok ?_
    exact h2

theorem execBkpt_within (core : Core) (held : Bool) (form : LongForm) (s : State) :
    OutWithin Touch.bus s (execBkpt core held form s) := by
  unfold execBkpt
  refine OutWithin.next ?_
  refine State.runLong_within ?_ (fun a3 e5 h2 => ?_)
  · exact .refl
  · refine ResW.ok ?_
    exact h2

theorem Ev.after_within {s0 : State} {e : Ev} {a : Word} (h0 : EvW s0 e) : ResW s0 (e.after a) := by
  have hf := State.fetchInsn_within (c := e.c) (hit := false) (a := a) h0
  unfold Ev.after
  split <;> rename_i h
  · exact hf.1 _ _ h
  · exact hf.2 _ _ h
  · exact ResW.stall

theorem execLoop_within (core : Core) (form : LongForm) (s : State) : OutWithin Touch.bus s (execLoop core form s) := by
  unfold execLoop
  extract_lets +onlyGivenNames s1
  extract_lets +onlyGivenNames s2
  extract_lets +onlyGivenNames s3
  refine OutWithin.next ?_
  refine State.runLong_within ?_ (fun a6 e8 h5 => ?_)
  · exact .refl
  · refine ResW.andThen ?_ (fun a9 e10 h11 => ?_)
    · refine Ev.src_within ?_
      exact h5
    · extract_lets +onlyGivenNames s12
      refine ResW.ite ?_ ?_
      · refine ResW.andThen ?_ (fun a13 e14 h15 => ?_)
        · refine Ev.after_within ?_
          exact h11
        · refine ResW.ok ?_
          exact h15
      · refine ResW.ite ?_ ?_
        · refine ResW.fault ?_
          exact h11
        · refine ResW.ok ?_
          exact h11

theorem execBrkl_within (core : Core) (form : LongForm) (s : State) : OutWithin Touch.bus s (execBrkl core form s) := by
  unfold execBrkl
  refine OutWithin.next ?_
  refine State.runLong_within ?_ (fun a3 e5 h2 => ?_)
  · exact .refl
  · refine ResW.ite ?_ ?_
    · refine illegal_within ?_
      exact h2
    · refine ResW.ok ?_
      exact h2

theorem shWfi_within {s0 : State}  {x_ y_ : BitVec 5} {e_ : Ev} (h0 : EvW s0 e_) : ResW s0 (shWfi  x_ y_ e_) := by
  unfold shWfi
  refine ResW.ite ?_ ?_
  · refine illegal_within ?_
    exact h0
  · refine ResW.ok ?_
    exact h0

theorem execWfi_within (core : Core) (form : Form) (s : State) : OutWithin Touch.bus s (execWfi core form s) := by
  unfold execWfi
  refine OutWithin.next ?_
  split
  · rename_i v1 v2
    refine State.runLong_within ?_ (fun a5 e7 h4 => ?_)
    · exact .refl
    · refine ResW.ok ?_
      exact h4
  · rename_i v8 v9
    refine State.runShort_within ?_ (fun a12 b13 e14 h11 => ?_)
    · exact .refl
    · refine shWfi_within ?_
      exact h11

theorem execSync_within (core : Core) (form : LongForm) (s : State) : OutWithin Touch.bus s (execSync core form s) := by
  unfold execSync
  refine OutWithin.next ?_
  refine State.runLong_within ?_ (fun a3 e5 h2 => ?_)
  · exact .refl
  · refine ResW.ok ?_
    exact h2

theorem execIcinv_within (core : Core) (form : LongForm) (s : State) : OutWithin Touch.bus s (execIcinv core form s) := by
  unfold execIcinv
  refine OutWithin.next ?_
  refine State.runLong_within ?_ (fun a3 e5 h2 => ?_)
  · exact .refl
  · refine ResW.ok ?_
    exact h2

theorem execDi_within (core : Core) (form : LongForm) (s : State) : OutWithin Touch.bus s (execDi core form s) := by
  unfold execDi
  refine OutWithin.next ?_
  refine State.runLong_within ?_ (fun a3 e5 h2 => ?_)
  · exact .refl
  · refine ResW.ok ?_
    exact h2

theorem execEi_within (core : Core) (form : LongForm) (s : State) : OutWithin Touch.bus s (execEi core form s) := by
  unfold execEi
  refine OutWithin.next ?_
  refine State.runLong_within ?_ (fun a3 e5 h2 => ?_)
  · exact .refl
  · refine ResW.ok ?_
    exact h2

theorem shortOp_within {s0 : State} {op5 : Nat} {x_ y_ : BitVec 5} {e_ : Ev} (h0 : EvW s0 e_) :
    ResW s0 (shortOp op5 x_ y_ e_) := by
  unfold shortOp
  split
  · rename_i v1
    refine shNop_within ?_
    exact h0
  · rename_i v2
    refine shMov_within ?_
    exact h0
  · rename_i v3
    refine shAdd_within ?_
    exact h0
  · rename_i v4
    refine shSub_within ?_
    exact h0
  · rename_i v5
    refine shAnd_within ?_
    exact h0
  · rename_i v6
    refine shOr_within ?_
    exact h0
  · rename_i v7
    refine shXor_within ?_
    exact h0
  · rename_i v8
    refine shCmp_within ?_
    exact h0
  · rename_i v9
    refine shTst_within ?_
    exact h0
  · rename_i v10
    refine shNeg_within ?_
    exact h0
  · rename_i v11
    refine shNot_within ?_
    exact h0
  · rename_i v12
    refine shMovi_within ?_
    exact h0
  · rename_i v13
    refine shAddi_within ?_
    exact h0
  · rename_i v14
    refine shShli_within ?_
    exact h0
  · rename_i v15
    refine shShri_within ?_
    exact h0
  · rename_i v16
    refine shSari_within ?_
    exact h0
  · rename_i v17
    refine shMacdR_within ?_
    exact h0
  · rename_i v18
    refine shMacdR_within ?_
    exact h0
  · rename_i v19
    refine shMacdC_within ?_
    exact h0
  · rename_i v20
    refine shMacdC_within ?_
    exact h0
  · rename_i v21
    refine shClra_within ?_
    exact h0
  · rename_i v22
    refine shBra_within ?_
    exact h0
  · rename_i v23
    refine shBeq_within ?_
    exact h0
  · rename_i v24
    refine shBne_within ?_
    exact h0
  · rename_i v25
    refine shRet_within ?_
    exact h0
  · rename_i v26
    refine shWfi_within ?_
    exact h0
  · rename_i v27 v28 v29 v30 v31 v32 v33 v34 v35 v36 v37 v38 v39 v40 v41 v42 v43 v44 v45 v46 v47 v48 v49 v50 v51 v52 v53
    dsimp only
    refine ResW.fault ?_
    exact h0

theorem inSlotB_within {s0 : State} {r : Res Eff} (h : ResW s0 r) : ResW s0 (inSlotB r) := by
  unfold inSlotB
  split
  · exact h
  · exact h

theorem pairEff_within {s0 : State} {a : BitVec 15} {b : BitVec 15} {e : Ev} (h0 : EvW s0 e) : ResW s0 (pairEff a b e) := by
  unfold pairEff
  extract_lets +onlyGivenNames s1
  refine ResW.andThen ?_ (fun a2 e3 h4 => ?_)
  · unfold s1
    refine ResW.ite ?_ ?_
    · refine illegal_within ?_
      exact h0
    · refine shortOp_within ?_
      exact h0
  · refine ResW.andThen ?_ (fun a5 e6 h7 => ?_)
    · refine inSlotB_within ?_
      refine shortOp_within ?_
      refine EvW.mk ?_
      exact h4
    · refine ResW.ok ?_
      exact h7

theorem execPairedWord_within (core : Core) (word : Word) (via : Fetch) (s : State) :
    OutWithin Touch.bus s (execPairedWord core word via s) := by
  unfold execPairedWord
  extract_lets +onlyGivenNames s1
  extract_lets +onlyGivenNames s2
  refine OutWithin.next ?_
  refine Within.ite ?_ ?_
  · exact .refl
  · refine State.execute_within ?_ (fun e7 h4 => ?_)
    · exact .refl
    · refine pairEff_within ?_
      exact h4

theorem copFault_within {s0 : State} {f : LongForm} {o : Opnds} {e : Ev} (h0 : EvW s0 e) : ResW s0 (copFault f o e) := by
  unfold copFault
  refine ResW.ite ?_ ?_
  · refine illegal_within ?_
    exact h0
  · refine ResW.ite ?_ ?_
    · refine ResW.fault ?_
      exact h0
    · refine illegal_within ?_
      exact h0

theorem execEmul_within (core : Core) (form : Form) (s : State) : OutWithin Touch.bus s (execEmul core form s) := by
  unfold execEmul
  refine OutWithin.next ?_
  split
  · rename_i v1 v2
    refine Within.ite ?_ ?_
    · refine State.runShort_within ?_ (fun a5 b6 e7 h4 => ?_)
      · exact .refl
      · refine shortOp_within ?_
        exact h4
    · exact .refl
  · rename_i v8 v9
    extract_lets +onlyGivenNames s10
    extract_lets +onlyGivenNames s11
    refine Within.ite ?_ ?_
    · exact .refl
    · split
      · rename_i v12 v13
        refine State.execute_within ?_ (fun e18 h15 => ?_)
        · exact .refl
        · refine ResW.fault ?_
          exact h15
      · rename_i v19 v20 v21
        extract_lets +onlyGivenNames s22
        refine Within.ite ?_ ?_
        · refine State.execute_within ?_ (fun e27 h24 => ?_)
          · exact .refl
          · refine copFault_within ?_
            exact h24
        · refine Within.ite ?_ ?_
          · refine State.runLong_within ?_ (fun a30 e32 h29 => ?_)
            · exact .refl
            · refine illegal_within ?_
              exact h29
          · exact .refl

end Sys2Proof.Machine
end

