-- ==== Sys2Proof/Laws/FrameCoproc.lean ====
section
/-! SUPPORT. What each operation of Machine/Coproc.lean may change, and that it keeps a sound state sound. -/

namespace Sys2Proof.Machine

-- one proof at a time: the file holds many small ones
set_option Elab.async false

theorem State.runCop_within {s x : State} {c : Core} {cp func : Nat} {f : LongForm} {h : Shape}
    {k : Nat → Opnds → Ev → Res Eff} (hx : Within Touch.bus s x) (hk : ∀ n o e, EvW s e → ResW s (k n o e)) :
    Within Touch.bus s (x.runCop c cp func f h k) := by
  unfold State.runCop
  dsimp only
  split
  · exact hx
  · refine State.execute_within hx (fun e he => ?_)
    split
    · exact illegal_within he
    · split
      · exact he
      · split
        · exact he
        · exact hk _ _ _ he

theorem Ev.blocks_within {s0 : State} {e : Ev} {n : Nat} {o : Opnd} (h0 : EvW s0 e) : ResW s0 (Ev.blocks e n o) := by
  unfold Ev.blocks
  refine ResW.andThen ?_ (fun a1 e2 h3 => ?_)
  · refine Ev.readMany_within ?_
    exact h0
  · refine ResW.ok ?_
    exact h3

theorem Ev.octets_within {s0 : State} {e : Ev} {n : Nat} {o : Opnd} (h0 : EvW s0 e) : ResW s0 (Ev.octets e n o) := by
  unfold Ev.octets
  refine ResW.andThen ?_ (fun a1 e2 h3 => ?_)
  · refine Ev.readMany_within ?_
    exact h0
  · refine ResW.ok ?_
    exact h3

theorem Ev.words_within {s0 : State} {e : Ev} {n : Nat} {o : Opnd} (h0 : EvW s0 e) : ResW s0 (Ev.words e n o) := by
  unfold Ev.words
  refine Ev.readMany_within ?_
  exact h0

theorem Ev.toBlocks_within {s0 : State} {e : Ev} {o : Opnd} {bs : List Byte} (h0 : EvW s0 e) :
    ResW s0 (Ev.toBlocks e o bs) := by
  unfold Ev.toBlocks
  extract_lets +onlyGivenNames s1
  refine ResW.andThen ?_ (fun a2 e3 h4 => ?_)
  · refine Ev.checkMany_within ?_
    exact h0
  · refine ResW.ok ?_
    exact h4

theorem Ev.toOctets_within {s0 : State} {e : Ev} {o : Opnd} {bs : List Byte} (h0 : EvW s0 e) :
    ResW s0 (Ev.toOctets e o bs) := by
  unfold Ev.toOctets
  extract_lets +onlyGivenNames s1
  refine ResW.andThen ?_ (fun a2 e3 h4 => ?_)
  · refine Ev.checkMany_within ?_
    exact h0
  · refine ResW.ok ?_
    exact h4

theorem execXor128_within (core : Core) (form : LongForm) (s : State) : OutWithin Touch.bus s (execXor128 core form s) := by
  unfold execXor128
  refine OutWithin.next ?_
  refine State.runCop_within ?_ (fun b4 a3 e5 h2 => ?_)
  · exact .refl
  · refine ResW.andThen ?_ (fun a6 e7 h8 => ?_)
    · refine Ev.blocks_within ?_
      exact h2
    · refine ResW.andThen ?_ (fun a9 e10 h11 => ?_)
      · refine Ev.blocks_within ?_
        exact h8
      · refine Ev.toBlocks_within ?_
        exact h11

theorem execGfmul_within (core : Core) (form : LongForm) (s : State) : OutWithin Touch.bus s (execGfmul core form s) := by
  unfold execGfmul
  refine OutWithin.next ?_
  refine State.runCop_within ?_ (fun b4 a3 e5 h2 => ?_)
  · exact .refl
  · refine ResW.andThen ?_ (fun a6 e7 h8 => ?_)
    · refine Ev.blocks_within ?_
      exact h2
    · refine ResW.andThen ?_ (fun a9 e10 h11 => ?_)
      · refine Ev.blocks_within ?_
        exact h8
      · refine Ev.toBlocks_within ?_
        exact h11

theorem execCtrinc_within (core : Core) (form : LongForm) (s : State) : OutWithin Touch.bus s (execCtrinc core form s) := by
  unfold execCtrinc
  refine OutWithin.next ?_
  refine State.runCop_within ?_ (fun b4 a3 e5 h2 => ?_)
  · exact .refl
  · refine ResW.andThen ?_ (fun a6 e7 h8 => ?_)
    · refine Ev.blocks_within ?_
      exact h2
    · refine Ev.toBlocks_within ?_
      exact h8

theorem execRev128_within (core : Core) (form : LongForm) (s : State) : OutWithin Touch.bus s (execRev128 core form s) := by
  unfold execRev128
  refine OutWithin.next ?_
  refine State.runCop_within ?_ (fun b4 a3 e5 h2 => ?_)
  · exact .refl
  · refine ResW.andThen ?_ (fun a6 e7 h8 => ?_)
    · refine Ev.blocks_within ?_
      exact h2
    · refine Ev.toBlocks_within ?_
      exact h8

theorem execXcorr_within (core : Core) (form : LongForm) (s : State) : OutWithin Touch.bus s (execXcorr core form s) := by
  unfold execXcorr
  refine OutWithin.next ?_
  refine State.runCop_within ?_ (fun b4 a3 e5 h2 => ?_)
  · exact .refl
  · refine ResW.andThen ?_ (fun a6 e7 h8 => ?_)
    · refine Ev.words_within ?_
      exact h2
    · refine ResW.andThen ?_ (fun a9 e10 h11 => ?_)
      · refine Ev.words_within ?_
        exact h8
      · extract_lets +onlyGivenNames s12
        refine ResW.ok ?_
        exact h11

theorem execEnergy_within (core : Core) (form : LongForm) (s : State) : OutWithin Touch.bus s (execEnergy core form s) := by
  unfold execEnergy
  refine OutWithin.next ?_
  refine State.runCop_within ?_ (fun b4 a3 e5 h2 => ?_)
  · exact .refl
  · refine ResW.andThen ?_ (fun a6 e7 h8 => ?_)
    · refine Ev.words_within ?_
      exact h2
    · refine ResW.ok ?_
      exact h8

theorem execPeak_within (core : Core) (form : LongForm) (s : State) : OutWithin Touch.bus s (execPeak core form s) := by
  unfold execPeak
  refine OutWithin.next ?_
  refine State.runCop_within ?_ (fun b4 a3 e5 h2 => ?_)
  · exact .refl
  · refine ResW.andThen ?_ (fun a6 e7 h8 => ?_)
    · refine Ev.words_within ?_
      exact h2
    · extract_lets +onlyGivenNames s9
      refine ResW.andThen ?_ (fun a10 e11 h12 => ?_)
      · refine Ev.checkMem_within ?_
        exact h8
      · refine ResW.ok ?_
        exact h12

theorem crcRun_within {s0 : State} {k : Nat} {g : Nat → List Byte → Nat} {n : Nat} {o : Opnds} {e : Ev} (h0 : EvW s0 e) :
    ResW s0 (crcRun k g n o e) := by
  unfold crcRun
  refine ResW.andThen ?_ (fun a1 e2 h3 => ?_)
  · refine Ev.octets_within ?_
    exact h0
  · refine ResW.andThen ?_ (fun a4 e5 h6 => ?_)
    · refine Ev.readMem_within ?_
      exact h3
    · extract_lets +onlyGivenNames s7
      refine ResW.andThen ?_ (fun a8 e9 h10 => ?_)
      · refine Ev.checkMem_within ?_
        exact h6
      · refine ResW.ok ?_
        exact h10

theorem execCrc16_within (core : Core) (form : LongForm) (s : State) : OutWithin Touch.bus s (execCrc16 core form s) := by
  unfold execCrc16
  refine OutWithin.next ?_
  refine State.runCop_within ?_ (fun b4 a3 e5 h2 => ?_)
  · exact .refl
  · refine crcRun_within ?_
    exact h2

theorem execCrc32_within (core : Core) (form : LongForm) (s : State) : OutWithin Touch.bus s (execCrc32 core form s) := by
  unfold execCrc32
  refine OutWithin.next ?_
  refine State.runCop_within ?_ (fun b4 a3 e5 h2 => ?_)
  · exact .refl
  · refine crcRun_within ?_
    exact h2

theorem coderRun_within {s0 : State} {k : Nat} {width : Nat} {g : List Byte → Nat → List Byte × Nat} {n : Nat} {o : Opnds} {e : Ev} (h0 : EvW s0 e) :
    ResW s0 (coderRun k width g n o e) := by
  unfold coderRun
  refine ResW.andThen ?_ (fun a1 e2 h3 => ?_)
  · refine Ev.octets_within ?_
    exact h0
  · extract_lets +onlyGivenNames s4
    refine ResW.andThen ?_ (fun a5 e6 h7 => ?_)
    · refine Ev.readMem_within ?_
      exact h3
    · extract_lets +onlyGivenNames s8
      refine ResW.andThen ?_ (fun a9 e10 h11 => ?_)
      · refine Ev.checkMem_within ?_
        exact h7
      · refine ResW.andThen ?_ (fun a12 e13 h14 => ?_)
        · refine Ev.toOctets_within ?_
          exact h11
        · refine ResW.ok ?_
          exact h14

theorem execPn9_within (core : Core) (form : LongForm) (s : State) : OutWithin Touch.bus s (execPn9 core form s) := by
  unfold execPn9
  refine OutWithin.next ?_
  refine State.runCop_within ?_ (fun b4 a3 e5 h2 => ?_)
  · exact .refl
  · refine coderRun_within ?_
    exact h2

theorem execConv_within (core : Core) (form : LongForm) (s : State) : OutWithin Touch.bus s (execConv core form s) := by
  unfold execConv
  refine OutWithin.next ?_
  refine State.runCop_within ?_ (fun b4 a3 e5 h2 => ?_)
  · exact .refl
  · refine coderRun_within ?_
    exact h2

end Sys2Proof.Machine
end

