-- ==== Sys2Proof/Laws/Items.lean ====
section
/-! SUPPORT. What the shared operations of the units' items do once their accesses are served: data is read and written, a
tag answers, and an item goes on. -/

namespace Sys2Proof.Machine

/-! ### LNK -/

/-- An item of LNK that is about to be performed is ACTIVE, without a result, and LNK is ready. -/
theorem lnkItem_some {s : State} {op k : Nat} {i : Item} (h : s.lnkItem op k = some i) :
    s.item k = some i ∧ i.unit = Pg.lnk ∧ i.opcode = op ∧ i.st = .active ∧ i.result = none ∧ s.ready Dm.lnk = true := by
  unfold State.lnkItem at h
  split at h
  · split at h
    · rename_i hc; cases h; exact ⟨‹_›, hc.1, hc.2.1, hc.2.2.1, hc.2.2.2.1, hc.2.2.2.2.2⟩
    · cases h
  · cases h

/-! ### SEC and Palette -/

/-- An item's data is read, and it goes on with it. -/
theorem secIn_reads {s t : State} {i : Item} {a n : Nat} {m : List Byte} {k : State → List Byte → State} (h : s.reads a n m t) :
   s.secIn i a n k = k t m := by
  obtain ⟨os, e, h1, h2⟩ := h
  simp only [State.secIn, h1, h2]

/-- An item's result is written, and it goes on. -/
theorem secOut_writes {s t : State} {i : Item} {a : Nat} {m : List Byte} {k : State → State} (h : s.writes a m t) :
   s.secOut i a m k = k t := by
  obtain ⟨e, h1⟩ := h
  simp only [State.secOut, h1]

/-- A SEC item of a length that its opcode takes is executed. -/
theorem secRun_some {s : State} {op k : Nat} {len} {i : Item} {f : State → Item → State} (h : s.secItem op k = some i) (hl : len = none ∨ len = some i.length) :
   s.secRun op k len f = f s i := by
  simp only [State.secRun, h]
  rw [if_neg]
  rcases hl with rfl | rfl <;> simp

/-- An item that needs the unit key goes on where the part is ENROLLED, healthy and reconstructed. -/
theorem needUnit_ok {s : State} {i rnd k} (h1 : s.sec.otp.life = 3) (h2 : rnd = true → s.sec.healthy = true) (h3 : s.pufOk = true) : s.needUnit i rnd k = k s := by
  simp only [State.needUnit]
  rw [if_neg (by rintro (a | ⟨a, b⟩); (rw [h1] at a; exact absurd a (by decide)); simp [h2 a] at b), if_neg (by simp [h1, h3])]

/-- A key item whose turn it is works on its page. -/
theorem keyItem_turn {s t : State} {op k i b f} (h : s.keyTurn op k i b t) : s.keyItem op k f = f t i b := by
  obtain ⟨h1, h2, h3, h4, h5, h6, h7, h8, h9, h10, h11⟩ := h
  simp only [State.keyItem, h1]
  rw [if_pos (by simp [h2, h3, h4, h5, h7, h8]; exact ⟨h6, by simpa using h9⟩), secIn_reads h10, if_pos h11]

/-! ### Updates -/

/-- An update item's data is read, and it goes on with it. -/
theorem updIn_reads {s t : State} {i : Item} {a n : Nat} {m : List Byte} {k : State → List Byte → State} (h : s.reads a n m t) :
   s.updIn i a n k = k t m := by
  obtain ⟨os, e, h1, h2⟩ := h
  simp only [State.updIn, h1, h2]

/-! ### Tags -/

/-- A tag answers within the tries of an exchange. -/
theorem tagExchange_answered {t : State} {i : Item} {cmd : List Byte} {answers : List UpReply} {n0 data r k} (h : t.answered answers n0 data r) :
  t.tagExchange i cmd answers n0 k = k (t.setTag (fun x => { x with sent := (if n0 = 0 then [] else x.sent) ++ [downFrame cmd] })) data r := by
  obtain ⟨n, last, ⟨h1, h2⟩ | ⟨h1, h2⟩⟩ := h <;> subst h2
  all_goals
    have e : (t.setTag (fun x => { x with sent := (if n0 = 0 then [] else x.sent) ++ [downFrame cmd] })).tagTries = t.tagTries := rfl
    simp only [State.tagExchange, e, h1]

/-- The reader's field stands, or is switched on. -/
theorem fieldOn_for {t v : State} {i foreign k} (h : t.fieldFor foreign = some v) : t.fieldOn i foreign k = k v := by
  unfold State.fieldFor at h
  unfold State.fieldOn
  split at h
  · cases h
  · rw [if_neg ‹_›]
    split at h
    · cases h; rw [if_pos ‹_›]
    · rw [if_neg ‹_›]
      split at h
      · cases h
      · cases h; rw [if_neg ‹_›]

/-- An item's data is read, and it goes on with it. -/
theorem tagSource_reads {s t : State} {i : Item} {n : Nat} {m : List Byte} {k : State → List Byte → State} (h : s.reads i.addrA n m t) :
   s.tagSource i n k = k t m := by
  obtain ⟨os, e, h1, h2⟩ := h
  simp only [State.tagSource, h1, h2]

/-- An item's result is written, and the item ends. -/
theorem tagOut_writes {s t : State} {i : Item} {m : List Byte} {st r wb} (h : s.writes i.addrB m t) :
   s.tagOut i m st r wb = t.tagEnd i st r m.length wb := by
  obtain ⟨e, h1⟩ := h
  simp only [State.tagOut, h1]

end Sys2Proof.Machine
end

