-- ==== Sys2Proof/Laws/State.lean ====
section
/-! SUPPORT. What the registers read after one is written, and what the updates of the state's parts leave. -/

namespace Sys2Proof.Machine

-- one proof at a time: the file holds many small ones
set_option Elab.async false

/-! ### Registers -/

theorem regKey_eq {page idx off page' idx' off' : Nat} : regKey page' idx' off' = regKey page idx off ↔
    page' = page ∧ idx' % 0x100000 = idx % 0x100000 ∧ off' % 0x1000 = off % 0x1000 := by
  unfold regKey
  constructor
  · intro h
    omega
  · rintro ⟨rfl, h, h'⟩
    rw [h, h']

/-- A register reads what was written, where the registers are held in their canonical form. -/
theorem State.reg_setReg (s : State) (page idx off : Nat) (v : Word) (h : s.regsWf = true) :
    (s.setReg page idx off v).reg page idx off = v := Sparse.get_set _ _ _ v h

/-- Every other register reads as before. -/
theorem State.reg_setReg_ne (s : State) {page idx off page' idx' off' : Nat} (v : Word)
    (h : ¬(page' = page ∧ idx' % 0x100000 = idx % 0x100000 ∧ off' % 0x1000 = off % 0x1000)) :
    (s.setReg page idx off v).reg page' idx' off' = s.reg page' idx' off' :=
  Sparse.get_set_ne _ _ _ v (fun k => h (regKey_eq.mp k))

theorem State.wf_regs {s : State} (h : s.wf = true) : s.regsWf = true := by
  unfold State.wf at h
  rw [Bool.and_eq_true] at h
  exact h.2

theorem State.wf_mem {s : State} (h : s.wf = true) : Memory.wf s = true := by
  unfold State.wf at h
  rw [Bool.and_eq_true] at h
  exact h.1

/-! ### The parts of the state after each update of one of them -/

/-! `setReg` changes `regs`. -/

@[simp] theorem State.setReg_variant (s : State) (page idx off : Nat) (v : Word) : (s.setReg page idx off v).variant = s.variant := rfl
@[simp] theorem State.setReg_staged (s : State) (page idx off : Nat) (v : Word) : (s.setReg page idx off v).staged = s.staged := rfl
@[simp] theorem State.setReg_claims (s : State) (page idx off : Nat) (v : Word) : (s.setReg page idx off v).claims = s.claims := rfl
@[simp] theorem State.setReg_commits (s : State) (page idx off : Nat) (v : Word) : (s.setReg page idx off v).commits = s.commits := rfl
@[simp] theorem State.setReg_mem (s : State) (page idx off : Nat) (v : Word) : (s.setReg page idx off v).mem = s.mem := rfl
@[simp] theorem State.setReg_lost (s : State) (page idx off : Nat) (v : Word) : (s.setReg page idx off v).lost = s.lost := rfl
@[simp] theorem State.setReg_doms (s : State) (page idx off : Nat) (v : Word) : (s.setReg page idx off v).doms = s.doms := rfl
@[simp] theorem State.setReg_clk (s : State) (page idx off : Nat) (v : Word) : (s.setReg page idx off v).clk = s.clk := rfl
@[simp] theorem State.setReg_ticks (s : State) (page idx off : Nat) (v : Word) : (s.setReg page idx off v).ticks = s.ticks := rfl
@[simp] theorem State.setReg_replies (s : State) (page idx off : Nat) (v : Word) : (s.setReg page idx off v).replies = s.replies := rfl
@[simp] theorem State.setReg_stalls (s : State) (page idx off : Nat) (v : Word) : (s.setReg page idx off v).stalls = s.stalls := rfl
@[simp] theorem State.setReg_debugErr (s : State) (page idx off : Nat) (v : Word) : (s.setReg page idx off v).debugErr = s.debugErr := rfl
@[simp] theorem State.setReg_freeCtr (s : State) (page idx off : Nat) (v : Word) : (s.setReg page idx off v).freeCtr = s.freeCtr := rfl
@[simp] theorem State.setReg_flm (s : State) (page idx off : Nat) (v : Word) : (s.setReg page idx off v).flm = s.flm := rfl
@[simp] theorem State.setReg_drc (s : State) (page idx off : Nat) (v : Word) : (s.setReg page idx off v).drc = s.drc := rfl
@[simp] theorem State.setReg_flc (s : State) (page idx off : Nat) (v : Word) : (s.setReg page idx off v).flc = s.flc := rfl
@[simp] theorem State.setReg_nmc (s : State) (page idx off : Nat) (v : Word) : (s.setReg page idx off v).nmc = s.nmc := rfl
@[simp] theorem State.setReg_tim (s : State) (page idx off : Nat) (v : Word) : (s.setReg page idx off v).tim = s.tim := rfl
@[simp] theorem State.setReg_recv (s : State) (page idx off : Nat) (v : Word) : (s.setReg page idx off v).recv = s.recv := rfl
@[simp] theorem State.setReg_syn (s : State) (page idx off : Nat) (v : Word) : (s.setReg page idx off v).syn = s.syn := rfl
@[simp] theorem State.setReg_txa (s : State) (page idx off : Nat) (v : Word) : (s.setReg page idx off v).txa = s.txa := rfl
@[simp] theorem State.setReg_wrx (s : State) (page idx off : Nat) (v : Word) : (s.setReg page idx off v).wrx = s.wrx := rfl
@[simp] theorem State.setReg_eth (s : State) (page idx off : Nat) (v : Word) : (s.setReg page idx off v).eth = s.eth := rfl
@[simp] theorem State.setReg_rtc (s : State) (page idx off : Nat) (v : Word) : (s.setReg page idx off v).rtc = s.rtc := rfl
@[simp] theorem State.setReg_per (s : State) (page idx off : Nat) (v : Word) : (s.setReg page idx off v).per = s.per := rfl
@[simp] theorem State.setReg_tag (s : State) (page idx off : Nat) (v : Word) : (s.setReg page idx off v).tag = s.tag := rfl
@[simp] theorem State.setReg_mrc (s : State) (page idx off : Nat) (v : Word) : (s.setReg page idx off v).mrc = s.mrc := rfl
@[simp] theorem State.setReg_sec (s : State) (page idx off : Nat) (v : Word) : (s.setReg page idx off v).sec = s.sec := rfl
@[simp] theorem State.setReg_pal (s : State) (page idx off : Nat) (v : Word) : (s.setReg page idx off v).pal = s.pal := rfl
@[simp] theorem State.setReg_lnk (s : State) (page idx off : Nat) (v : Word) : (s.setReg page idx off v).lnk = s.lnk := rfl
@[simp] theorem State.setReg_cpus (s : State) (page idx off : Nat) (v : Word) : (s.setReg page idx off v).cpus = s.cpus := rfl
@[simp] theorem State.setReg_cas (s : State) (page idx off : Nat) (v : Word) : (s.setReg page idx off v).cas = s.cas := rfl
@[simp] theorem State.setReg_upd (s : State) (page idx off : Nat) (v : Word) : (s.setReg page idx off v).upd = s.upd := rfl
@[simp] theorem State.setReg_booted (s : State) (page idx off : Nat) (v : Word) : (s.setReg page idx off v).booted = s.booted := rfl
@[simp] theorem State.setReg_testmode (s : State) (page idx off : Nat) (v : Word) : (s.setReg page idx off v).testmode = s.testmode := rfl
@[simp] theorem State.setReg_inReset (s : State) (page idx off : Nat) (v : Word) : (s.setReg page idx off v).inReset = s.inReset := rfl
@[simp] theorem State.setReg_vio (s : State) (page idx off : Nat) (v : Word) : (s.setReg page idx off v).vio = s.vio := rfl
@[simp] theorem State.setReg_resetDue (s : State) (page idx off : Nat) (v : Word) : (s.setReg page idx off v).resetDue = s.resetDue := rfl
@[simp] theorem State.setReg_pending (s : State) (page idx off : Nat) (v : Word) : (s.setReg page idx off v).pending = s.pending := rfl

/-! `setField` changes `regs`. -/

@[simp] theorem State.setField_variant (s : State) (page idx off hi lo v : Nat) : (s.setField page idx off hi lo v).variant = s.variant := rfl
@[simp] theorem State.setField_staged (s : State) (page idx off hi lo v : Nat) : (s.setField page idx off hi lo v).staged = s.staged := rfl
@[simp] theorem State.setField_claims (s : State) (page idx off hi lo v : Nat) : (s.setField page idx off hi lo v).claims = s.claims := rfl
@[simp] theorem State.setField_commits (s : State) (page idx off hi lo v : Nat) : (s.setField page idx off hi lo v).commits = s.commits := rfl
@[simp] theorem State.setField_mem (s : State) (page idx off hi lo v : Nat) : (s.setField page idx off hi lo v).mem = s.mem := rfl
@[simp] theorem State.setField_lost (s : State) (page idx off hi lo v : Nat) : (s.setField page idx off hi lo v).lost = s.lost := rfl
@[simp] theorem State.setField_doms (s : State) (page idx off hi lo v : Nat) : (s.setField page idx off hi lo v).doms = s.doms := rfl
@[simp] theorem State.setField_clk (s : State) (page idx off hi lo v : Nat) : (s.setField page idx off hi lo v).clk = s.clk := rfl
@[simp] theorem State.setField_ticks (s : State) (page idx off hi lo v : Nat) : (s.setField page idx off hi lo v).ticks = s.ticks := rfl
@[simp] theorem State.setField_replies (s : State) (page idx off hi lo v : Nat) : (s.setField page idx off hi lo v).replies = s.replies := rfl
@[simp] theorem State.setField_stalls (s : State) (page idx off hi lo v : Nat) : (s.setField page idx off hi lo v).stalls = s.stalls := rfl
@[simp] theorem State.setField_debugErr (s : State) (page idx off hi lo v : Nat) : (s.setField page idx off hi lo v).debugErr = s.debugErr := rfl
@[simp] theorem State.setField_freeCtr (s : State) (page idx off hi lo v : Nat) : (s.setField page idx off hi lo v).freeCtr = s.freeCtr := rfl
@[simp] theorem State.setField_flm (s : State) (page idx off hi lo v : Nat) : (s.setField page idx off hi lo v).flm = s.flm := rfl
@[simp] theorem State.setField_drc (s : State) (page idx off hi lo v : Nat) : (s.setField page idx off hi lo v).drc = s.drc := rfl
@[simp] theorem State.setField_flc (s : State) (page idx off hi lo v : Nat) : (s.setField page idx off hi lo v).flc = s.flc := rfl
@[simp] theorem State.setField_nmc (s : State) (page idx off hi lo v : Nat) : (s.setField page idx off hi lo v).nmc = s.nmc := rfl
@[simp] theorem State.setField_tim (s : State) (page idx off hi lo v : Nat) : (s.setField page idx off hi lo v).tim = s.tim := rfl
@[simp] theorem State.setField_recv (s : State) (page idx off hi lo v : Nat) : (s.setField page idx off hi lo v).recv = s.recv := rfl
@[simp] theorem State.setField_syn (s : State) (page idx off hi lo v : Nat) : (s.setField page idx off hi lo v).syn = s.syn := rfl
@[simp] theorem State.setField_txa (s : State) (page idx off hi lo v : Nat) : (s.setField page idx off hi lo v).txa = s.txa := rfl
@[simp] theorem State.setField_wrx (s : State) (page idx off hi lo v : Nat) : (s.setField page idx off hi lo v).wrx = s.wrx := rfl
@[simp] theorem State.setField_eth (s : State) (page idx off hi lo v : Nat) : (s.setField page idx off hi lo v).eth = s.eth := rfl
@[simp] theorem State.setField_rtc (s : State) (page idx off hi lo v : Nat) : (s.setField page idx off hi lo v).rtc = s.rtc := rfl
@[simp] theorem State.setField_per (s : State) (page idx off hi lo v : Nat) : (s.setField page idx off hi lo v).per = s.per := rfl
@[simp] theorem State.setField_tag (s : State) (page idx off hi lo v : Nat) : (s.setField page idx off hi lo v).tag = s.tag := rfl
@[simp] theorem State.setField_mrc (s : State) (page idx off hi lo v : Nat) : (s.setField page idx off hi lo v).mrc = s.mrc := rfl
@[simp] theorem State.setField_sec (s : State) (page idx off hi lo v : Nat) : (s.setField page idx off hi lo v).sec = s.sec := rfl
@[simp] theorem State.setField_pal (s : State) (page idx off hi lo v : Nat) : (s.setField page idx off hi lo v).pal = s.pal := rfl
@[simp] theorem State.setField_lnk (s : State) (page idx off hi lo v : Nat) : (s.setField page idx off hi lo v).lnk = s.lnk := rfl
@[simp] theorem State.setField_cpus (s : State) (page idx off hi lo v : Nat) : (s.setField page idx off hi lo v).cpus = s.cpus := rfl
@[simp] theorem State.setField_cas (s : State) (page idx off hi lo v : Nat) : (s.setField page idx off hi lo v).cas = s.cas := rfl
@[simp] theorem State.setField_upd (s : State) (page idx off hi lo v : Nat) : (s.setField page idx off hi lo v).upd = s.upd := rfl
@[simp] theorem State.setField_booted (s : State) (page idx off hi lo v : Nat) : (s.setField page idx off hi lo v).booted = s.booted := rfl
@[simp] theorem State.setField_testmode (s : State) (page idx off hi lo v : Nat) : (s.setField page idx off hi lo v).testmode = s.testmode := rfl
@[simp] theorem State.setField_inReset (s : State) (page idx off hi lo v : Nat) : (s.setField page idx off hi lo v).inReset = s.inReset := rfl
@[simp] theorem State.setField_vio (s : State) (page idx off hi lo v : Nat) : (s.setField page idx off hi lo v).vio = s.vio := rfl
@[simp] theorem State.setField_resetDue (s : State) (page idx off hi lo v : Nat) : (s.setField page idx off hi lo v).resetDue = s.resetDue := rfl
@[simp] theorem State.setField_pending (s : State) (page idx off hi lo v : Nat) : (s.setField page idx off hi lo v).pending = s.pending := rfl

/-! `setReply` changes `replies`. -/

@[simp] theorem State.setReply_variant (s : State) (ini : Initiator) (data : Word) (error : Bool) : (s.setReply ini data error).variant = s.variant := rfl
@[simp] theorem State.setReply_regs (s : State) (ini : Initiator) (data : Word) (error : Bool) : (s.setReply ini data error).regs = s.regs := rfl
@[simp] theorem State.setReply_staged (s : State) (ini : Initiator) (data : Word) (error : Bool) : (s.setReply ini data error).staged = s.staged := rfl
@[simp] theorem State.setReply_claims (s : State) (ini : Initiator) (data : Word) (error : Bool) : (s.setReply ini data error).claims = s.claims := rfl
@[simp] theorem State.setReply_commits (s : State) (ini : Initiator) (data : Word) (error : Bool) : (s.setReply ini data error).commits = s.commits := rfl
@[simp] theorem State.setReply_mem (s : State) (ini : Initiator) (data : Word) (error : Bool) : (s.setReply ini data error).mem = s.mem := rfl
@[simp] theorem State.setReply_lost (s : State) (ini : Initiator) (data : Word) (error : Bool) : (s.setReply ini data error).lost = s.lost := rfl
@[simp] theorem State.setReply_doms (s : State) (ini : Initiator) (data : Word) (error : Bool) : (s.setReply ini data error).doms = s.doms := rfl
@[simp] theorem State.setReply_clk (s : State) (ini : Initiator) (data : Word) (error : Bool) : (s.setReply ini data error).clk = s.clk := rfl
@[simp] theorem State.setReply_ticks (s : State) (ini : Initiator) (data : Word) (error : Bool) : (s.setReply ini data error).ticks = s.ticks := rfl
@[simp] theorem State.setReply_replies (s : State) (ini : Initiator) (data : Word) (error : Bool) : (s.setReply ini data error).replies = Sparse.set {} s.replies ini.id { data, error } := rfl
@[simp] theorem State.setReply_stalls (s : State) (ini : Initiator) (data : Word) (error : Bool) : (s.setReply ini data error).stalls = s.stalls := rfl
@[simp] theorem State.setReply_debugErr (s : State) (ini : Initiator) (data : Word) (error : Bool) : (s.setReply ini data error).debugErr = s.debugErr := rfl
@[simp] theorem State.setReply_freeCtr (s : State) (ini : Initiator) (data : Word) (error : Bool) : (s.setReply ini data error).freeCtr = s.freeCtr := rfl
@[simp] theorem State.setReply_flm (s : State) (ini : Initiator) (data : Word) (error : Bool) : (s.setReply ini data error).flm = s.flm := rfl
@[simp] theorem State.setReply_drc (s : State) (ini : Initiator) (data : Word) (error : Bool) : (s.setReply ini data error).drc = s.drc := rfl
@[simp] theorem State.setReply_flc (s : State) (ini : Initiator) (data : Word) (error : Bool) : (s.setReply ini data error).flc = s.flc := rfl
@[simp] theorem State.setReply_nmc (s : State) (ini : Initiator) (data : Word) (error : Bool) : (s.setReply ini data error).nmc = s.nmc := rfl
@[simp] theorem State.setReply_tim (s : State) (ini : Initiator) (data : Word) (error : Bool) : (s.setReply ini data error).tim = s.tim := rfl
@[simp] theorem State.setReply_recv (s : State) (ini : Initiator) (data : Word) (error : Bool) : (s.setReply ini data error).recv = s.recv := rfl
@[simp] theorem State.setReply_syn (s : State) (ini : Initiator) (data : Word) (error : Bool) : (s.setReply ini data error).syn = s.syn := rfl
@[simp] theorem State.setReply_txa (s : State) (ini : Initiator) (data : Word) (error : Bool) : (s.setReply ini data error).txa = s.txa := rfl
@[simp] theorem State.setReply_wrx (s : State) (ini : Initiator) (data : Word) (error : Bool) : (s.setReply ini data error).wrx = s.wrx := rfl
@[simp] theorem State.setReply_eth (s : State) (ini : Initiator) (data : Word) (error : Bool) : (s.setReply ini data error).eth = s.eth := rfl
@[simp] theorem State.setReply_rtc (s : State) (ini : Initiator) (data : Word) (error : Bool) : (s.setReply ini data error).rtc = s.rtc := rfl
@[simp] theorem State.setReply_per (s : State) (ini : Initiator) (data : Word) (error : Bool) : (s.setReply ini data error).per = s.per := rfl
@[simp] theorem State.setReply_tag (s : State) (ini : Initiator) (data : Word) (error : Bool) : (s.setReply ini data error).tag = s.tag := rfl
@[simp] theorem State.setReply_mrc (s : State) (ini : Initiator) (data : Word) (error : Bool) : (s.setReply ini data error).mrc = s.mrc := rfl
@[simp] theorem State.setReply_sec (s : State) (ini : Initiator) (data : Word) (error : Bool) : (s.setReply ini data error).sec = s.sec := rfl
@[simp] theorem State.setReply_pal (s : State) (ini : Initiator) (data : Word) (error : Bool) : (s.setReply ini data error).pal = s.pal := rfl
@[simp] theorem State.setReply_lnk (s : State) (ini : Initiator) (data : Word) (error : Bool) : (s.setReply ini data error).lnk = s.lnk := rfl
@[simp] theorem State.setReply_cpus (s : State) (ini : Initiator) (data : Word) (error : Bool) : (s.setReply ini data error).cpus = s.cpus := rfl
@[simp] theorem State.setReply_cas (s : State) (ini : Initiator) (data : Word) (error : Bool) : (s.setReply ini data error).cas = s.cas := rfl
@[simp] theorem State.setReply_upd (s : State) (ini : Initiator) (data : Word) (error : Bool) : (s.setReply ini data error).upd = s.upd := rfl
@[simp] theorem State.setReply_booted (s : State) (ini : Initiator) (data : Word) (error : Bool) : (s.setReply ini data error).booted = s.booted := rfl
@[simp] theorem State.setReply_testmode (s : State) (ini : Initiator) (data : Word) (error : Bool) : (s.setReply ini data error).testmode = s.testmode := rfl
@[simp] theorem State.setReply_inReset (s : State) (ini : Initiator) (data : Word) (error : Bool) : (s.setReply ini data error).inReset = s.inReset := rfl
@[simp] theorem State.setReply_vio (s : State) (ini : Initiator) (data : Word) (error : Bool) : (s.setReply ini data error).vio = s.vio := rfl
@[simp] theorem State.setReply_resetDue (s : State) (ini : Initiator) (data : Word) (error : Bool) : (s.setReply ini data error).resetDue = s.resetDue := rfl
@[simp] theorem State.setReply_pending (s : State) (ini : Initiator) (data : Word) (error : Bool) : (s.setReply ini data error).pending = s.pending := rfl

/-! `setDom` changes `doms`. -/

@[simp] theorem State.setDom_variant (s : State) (d : Nat) (x : Dom) : (s.setDom d x).variant = s.variant := rfl
@[simp] theorem State.setDom_regs (s : State) (d : Nat) (x : Dom) : (s.setDom d x).regs = s.regs := rfl
@[simp] theorem State.setDom_staged (s : State) (d : Nat) (x : Dom) : (s.setDom d x).staged = s.staged := rfl
@[simp] theorem State.setDom_claims (s : State) (d : Nat) (x : Dom) : (s.setDom d x).claims = s.claims := rfl
@[simp] theorem State.setDom_commits (s : State) (d : Nat) (x : Dom) : (s.setDom d x).commits = s.commits := rfl
@[simp] theorem State.setDom_mem (s : State) (d : Nat) (x : Dom) : (s.setDom d x).mem = s.mem := rfl
@[simp] theorem State.setDom_lost (s : State) (d : Nat) (x : Dom) : (s.setDom d x).lost = s.lost := rfl
@[simp] theorem State.setDom_doms (s : State) (d : Nat) (x : Dom) : (s.setDom d x).doms = Sparse.set (domReset d) s.doms d x := rfl
@[simp] theorem State.setDom_clk (s : State) (d : Nat) (x : Dom) : (s.setDom d x).clk = s.clk := rfl
@[simp] theorem State.setDom_ticks (s : State) (d : Nat) (x : Dom) : (s.setDom d x).ticks = s.ticks := rfl
@[simp] theorem State.setDom_replies (s : State) (d : Nat) (x : Dom) : (s.setDom d x).replies = s.replies := rfl
@[simp] theorem State.setDom_stalls (s : State) (d : Nat) (x : Dom) : (s.setDom d x).stalls = s.stalls := rfl
@[simp] theorem State.setDom_debugErr (s : State) (d : Nat) (x : Dom) : (s.setDom d x).debugErr = s.debugErr := rfl
@[simp] theorem State.setDom_freeCtr (s : State) (d : Nat) (x : Dom) : (s.setDom d x).freeCtr = s.freeCtr := rfl
@[simp] theorem State.setDom_flm (s : State) (d : Nat) (x : Dom) : (s.setDom d x).flm = s.flm := rfl
@[simp] theorem State.setDom_drc (s : State) (d : Nat) (x : Dom) : (s.setDom d x).drc = s.drc := rfl
@[simp] theorem State.setDom_flc (s : State) (d : Nat) (x : Dom) : (s.setDom d x).flc = s.flc := rfl
@[simp] theorem State.setDom_nmc (s : State) (d : Nat) (x : Dom) : (s.setDom d x).nmc = s.nmc := rfl
@[simp] theorem State.setDom_tim (s : State) (d : Nat) (x : Dom) : (s.setDom d x).tim = s.tim := rfl
@[simp] theorem State.setDom_recv (s : State) (d : Nat) (x : Dom) : (s.setDom d x).recv = s.recv := rfl
@[simp] theorem State.setDom_syn (s : State) (d : Nat) (x : Dom) : (s.setDom d x).syn = s.syn := rfl
@[simp] theorem State.setDom_txa (s : State) (d : Nat) (x : Dom) : (s.setDom d x).txa = s.txa := rfl
@[simp] theorem State.setDom_wrx (s : State) (d : Nat) (x : Dom) : (s.setDom d x).wrx = s.wrx := rfl
@[simp] theorem State.setDom_eth (s : State) (d : Nat) (x : Dom) : (s.setDom d x).eth = s.eth := rfl
@[simp] theorem State.setDom_rtc (s : State) (d : Nat) (x : Dom) : (s.setDom d x).rtc = s.rtc := rfl
@[simp] theorem State.setDom_per (s : State) (d : Nat) (x : Dom) : (s.setDom d x).per = s.per := rfl
@[simp] theorem State.setDom_tag (s : State) (d : Nat) (x : Dom) : (s.setDom d x).tag = s.tag := rfl
@[simp] theorem State.setDom_mrc (s : State) (d : Nat) (x : Dom) : (s.setDom d x).mrc = s.mrc := rfl
@[simp] theorem State.setDom_sec (s : State) (d : Nat) (x : Dom) : (s.setDom d x).sec = s.sec := rfl
@[simp] theorem State.setDom_pal (s : State) (d : Nat) (x : Dom) : (s.setDom d x).pal = s.pal := rfl
@[simp] theorem State.setDom_lnk (s : State) (d : Nat) (x : Dom) : (s.setDom d x).lnk = s.lnk := rfl
@[simp] theorem State.setDom_cpus (s : State) (d : Nat) (x : Dom) : (s.setDom d x).cpus = s.cpus := rfl
@[simp] theorem State.setDom_cas (s : State) (d : Nat) (x : Dom) : (s.setDom d x).cas = s.cas := rfl
@[simp] theorem State.setDom_upd (s : State) (d : Nat) (x : Dom) : (s.setDom d x).upd = s.upd := rfl
@[simp] theorem State.setDom_booted (s : State) (d : Nat) (x : Dom) : (s.setDom d x).booted = s.booted := rfl
@[simp] theorem State.setDom_testmode (s : State) (d : Nat) (x : Dom) : (s.setDom d x).testmode = s.testmode := rfl
@[simp] theorem State.setDom_inReset (s : State) (d : Nat) (x : Dom) : (s.setDom d x).inReset = s.inReset := rfl
@[simp] theorem State.setDom_vio (s : State) (d : Nat) (x : Dom) : (s.setDom d x).vio = s.vio := rfl
@[simp] theorem State.setDom_resetDue (s : State) (d : Nat) (x : Dom) : (s.setDom d x).resetDue = s.resetDue := rfl
@[simp] theorem State.setDom_pending (s : State) (d : Nat) (x : Dom) : (s.setDom d x).pending = s.pending := rfl

/-! `setClaim` changes `claims`. -/

@[simp] theorem State.setClaim_variant (s : State) (page : Nat) (c : Option Initiator) : (s.setClaim page c).variant = s.variant := rfl
@[simp] theorem State.setClaim_regs (s : State) (page : Nat) (c : Option Initiator) : (s.setClaim page c).regs = s.regs := rfl
@[simp] theorem State.setClaim_staged (s : State) (page : Nat) (c : Option Initiator) : (s.setClaim page c).staged = s.staged := rfl
@[simp] theorem State.setClaim_claims (s : State) (page : Nat) (c : Option Initiator) : (s.setClaim page c).claims = Sparse.set none s.claims page c := rfl
@[simp] theorem State.setClaim_commits (s : State) (page : Nat) (c : Option Initiator) : (s.setClaim page c).commits = s.commits := rfl
@[simp] theorem State.setClaim_mem (s : State) (page : Nat) (c : Option Initiator) : (s.setClaim page c).mem = s.mem := rfl
@[simp] theorem State.setClaim_lost (s : State) (page : Nat) (c : Option Initiator) : (s.setClaim page c).lost = s.lost := rfl
@[simp] theorem State.setClaim_doms (s : State) (page : Nat) (c : Option Initiator) : (s.setClaim page c).doms = s.doms := rfl
@[simp] theorem State.setClaim_clk (s : State) (page : Nat) (c : Option Initiator) : (s.setClaim page c).clk = s.clk := rfl
@[simp] theorem State.setClaim_ticks (s : State) (page : Nat) (c : Option Initiator) : (s.setClaim page c).ticks = s.ticks := rfl
@[simp] theorem State.setClaim_replies (s : State) (page : Nat) (c : Option Initiator) : (s.setClaim page c).replies = s.replies := rfl
@[simp] theorem State.setClaim_stalls (s : State) (page : Nat) (c : Option Initiator) : (s.setClaim page c).stalls = s.stalls := rfl
@[simp] theorem State.setClaim_debugErr (s : State) (page : Nat) (c : Option Initiator) : (s.setClaim page c).debugErr = s.debugErr := rfl
@[simp] theorem State.setClaim_freeCtr (s : State) (page : Nat) (c : Option Initiator) : (s.setClaim page c).freeCtr = s.freeCtr := rfl
@[simp] theorem State.setClaim_flm (s : State) (page : Nat) (c : Option Initiator) : (s.setClaim page c).flm = s.flm := rfl
@[simp] theorem State.setClaim_drc (s : State) (page : Nat) (c : Option Initiator) : (s.setClaim page c).drc = s.drc := rfl
@[simp] theorem State.setClaim_flc (s : State) (page : Nat) (c : Option Initiator) : (s.setClaim page c).flc = s.flc := rfl
@[simp] theorem State.setClaim_nmc (s : State) (page : Nat) (c : Option Initiator) : (s.setClaim page c).nmc = s.nmc := rfl
@[simp] theorem State.setClaim_tim (s : State) (page : Nat) (c : Option Initiator) : (s.setClaim page c).tim = s.tim := rfl
@[simp] theorem State.setClaim_recv (s : State) (page : Nat) (c : Option Initiator) : (s.setClaim page c).recv = s.recv := rfl
@[simp] theorem State.setClaim_syn (s : State) (page : Nat) (c : Option Initiator) : (s.setClaim page c).syn = s.syn := rfl
@[simp] theorem State.setClaim_txa (s : State) (page : Nat) (c : Option Initiator) : (s.setClaim page c).txa = s.txa := rfl
@[simp] theorem State.setClaim_wrx (s : State) (page : Nat) (c : Option Initiator) : (s.setClaim page c).wrx = s.wrx := rfl
@[simp] theorem State.setClaim_eth (s : State) (page : Nat) (c : Option Initiator) : (s.setClaim page c).eth = s.eth := rfl
@[simp] theorem State.setClaim_rtc (s : State) (page : Nat) (c : Option Initiator) : (s.setClaim page c).rtc = s.rtc := rfl
@[simp] theorem State.setClaim_per (s : State) (page : Nat) (c : Option Initiator) : (s.setClaim page c).per = s.per := rfl
@[simp] theorem State.setClaim_tag (s : State) (page : Nat) (c : Option Initiator) : (s.setClaim page c).tag = s.tag := rfl
@[simp] theorem State.setClaim_mrc (s : State) (page : Nat) (c : Option Initiator) : (s.setClaim page c).mrc = s.mrc := rfl
@[simp] theorem State.setClaim_sec (s : State) (page : Nat) (c : Option Initiator) : (s.setClaim page c).sec = s.sec := rfl
@[simp] theorem State.setClaim_pal (s : State) (page : Nat) (c : Option Initiator) : (s.setClaim page c).pal = s.pal := rfl
@[simp] theorem State.setClaim_lnk (s : State) (page : Nat) (c : Option Initiator) : (s.setClaim page c).lnk = s.lnk := rfl
@[simp] theorem State.setClaim_cpus (s : State) (page : Nat) (c : Option Initiator) : (s.setClaim page c).cpus = s.cpus := rfl
@[simp] theorem State.setClaim_cas (s : State) (page : Nat) (c : Option Initiator) : (s.setClaim page c).cas = s.cas := rfl
@[simp] theorem State.setClaim_upd (s : State) (page : Nat) (c : Option Initiator) : (s.setClaim page c).upd = s.upd := rfl
@[simp] theorem State.setClaim_booted (s : State) (page : Nat) (c : Option Initiator) : (s.setClaim page c).booted = s.booted := rfl
@[simp] theorem State.setClaim_testmode (s : State) (page : Nat) (c : Option Initiator) : (s.setClaim page c).testmode = s.testmode := rfl
@[simp] theorem State.setClaim_inReset (s : State) (page : Nat) (c : Option Initiator) : (s.setClaim page c).inReset = s.inReset := rfl
@[simp] theorem State.setClaim_vio (s : State) (page : Nat) (c : Option Initiator) : (s.setClaim page c).vio = s.vio := rfl
@[simp] theorem State.setClaim_resetDue (s : State) (page : Nat) (c : Option Initiator) : (s.setClaim page c).resetDue = s.resetDue := rfl
@[simp] theorem State.setClaim_pending (s : State) (page : Nat) (c : Option Initiator) : (s.setClaim page c).pending = s.pending := rfl

/-! `setRing` changes `flm`. -/

@[simp] theorem State.setRing_variant (s : State) (ring : Nat) (x : RingState) : (s.setRing ring x).variant = s.variant := rfl
@[simp] theorem State.setRing_regs (s : State) (ring : Nat) (x : RingState) : (s.setRing ring x).regs = s.regs := rfl
@[simp] theorem State.setRing_staged (s : State) (ring : Nat) (x : RingState) : (s.setRing ring x).staged = s.staged := rfl
@[simp] theorem State.setRing_claims (s : State) (ring : Nat) (x : RingState) : (s.setRing ring x).claims = s.claims := rfl
@[simp] theorem State.setRing_commits (s : State) (ring : Nat) (x : RingState) : (s.setRing ring x).commits = s.commits := rfl
@[simp] theorem State.setRing_mem (s : State) (ring : Nat) (x : RingState) : (s.setRing ring x).mem = s.mem := rfl
@[simp] theorem State.setRing_lost (s : State) (ring : Nat) (x : RingState) : (s.setRing ring x).lost = s.lost := rfl
@[simp] theorem State.setRing_doms (s : State) (ring : Nat) (x : RingState) : (s.setRing ring x).doms = s.doms := rfl
@[simp] theorem State.setRing_clk (s : State) (ring : Nat) (x : RingState) : (s.setRing ring x).clk = s.clk := rfl
@[simp] theorem State.setRing_ticks (s : State) (ring : Nat) (x : RingState) : (s.setRing ring x).ticks = s.ticks := rfl
@[simp] theorem State.setRing_replies (s : State) (ring : Nat) (x : RingState) : (s.setRing ring x).replies = s.replies := rfl
@[simp] theorem State.setRing_stalls (s : State) (ring : Nat) (x : RingState) : (s.setRing ring x).stalls = s.stalls := rfl
@[simp] theorem State.setRing_debugErr (s : State) (ring : Nat) (x : RingState) : (s.setRing ring x).debugErr = s.debugErr := rfl
@[simp] theorem State.setRing_freeCtr (s : State) (ring : Nat) (x : RingState) : (s.setRing ring x).freeCtr = s.freeCtr := rfl
@[simp] theorem State.setRing_drc (s : State) (ring : Nat) (x : RingState) : (s.setRing ring x).drc = s.drc := rfl
@[simp] theorem State.setRing_flc (s : State) (ring : Nat) (x : RingState) : (s.setRing ring x).flc = s.flc := rfl
@[simp] theorem State.setRing_nmc (s : State) (ring : Nat) (x : RingState) : (s.setRing ring x).nmc = s.nmc := rfl
@[simp] theorem State.setRing_tim (s : State) (ring : Nat) (x : RingState) : (s.setRing ring x).tim = s.tim := rfl
@[simp] theorem State.setRing_recv (s : State) (ring : Nat) (x : RingState) : (s.setRing ring x).recv = s.recv := rfl
@[simp] theorem State.setRing_syn (s : State) (ring : Nat) (x : RingState) : (s.setRing ring x).syn = s.syn := rfl
@[simp] theorem State.setRing_txa (s : State) (ring : Nat) (x : RingState) : (s.setRing ring x).txa = s.txa := rfl
@[simp] theorem State.setRing_wrx (s : State) (ring : Nat) (x : RingState) : (s.setRing ring x).wrx = s.wrx := rfl
@[simp] theorem State.setRing_eth (s : State) (ring : Nat) (x : RingState) : (s.setRing ring x).eth = s.eth := rfl
@[simp] theorem State.setRing_rtc (s : State) (ring : Nat) (x : RingState) : (s.setRing ring x).rtc = s.rtc := rfl
@[simp] theorem State.setRing_per (s : State) (ring : Nat) (x : RingState) : (s.setRing ring x).per = s.per := rfl
@[simp] theorem State.setRing_tag (s : State) (ring : Nat) (x : RingState) : (s.setRing ring x).tag = s.tag := rfl
@[simp] theorem State.setRing_mrc (s : State) (ring : Nat) (x : RingState) : (s.setRing ring x).mrc = s.mrc := rfl
@[simp] theorem State.setRing_sec (s : State) (ring : Nat) (x : RingState) : (s.setRing ring x).sec = s.sec := rfl
@[simp] theorem State.setRing_pal (s : State) (ring : Nat) (x : RingState) : (s.setRing ring x).pal = s.pal := rfl
@[simp] theorem State.setRing_lnk (s : State) (ring : Nat) (x : RingState) : (s.setRing ring x).lnk = s.lnk := rfl
@[simp] theorem State.setRing_cpus (s : State) (ring : Nat) (x : RingState) : (s.setRing ring x).cpus = s.cpus := rfl
@[simp] theorem State.setRing_cas (s : State) (ring : Nat) (x : RingState) : (s.setRing ring x).cas = s.cas := rfl
@[simp] theorem State.setRing_upd (s : State) (ring : Nat) (x : RingState) : (s.setRing ring x).upd = s.upd := rfl
@[simp] theorem State.setRing_booted (s : State) (ring : Nat) (x : RingState) : (s.setRing ring x).booted = s.booted := rfl
@[simp] theorem State.setRing_testmode (s : State) (ring : Nat) (x : RingState) : (s.setRing ring x).testmode = s.testmode := rfl
@[simp] theorem State.setRing_inReset (s : State) (ring : Nat) (x : RingState) : (s.setRing ring x).inReset = s.inReset := rfl
@[simp] theorem State.setRing_vio (s : State) (ring : Nat) (x : RingState) : (s.setRing ring x).vio = s.vio := rfl
@[simp] theorem State.setRing_resetDue (s : State) (ring : Nat) (x : RingState) : (s.setRing ring x).resetDue = s.resetDue := rfl
@[simp] theorem State.setRing_pending (s : State) (ring : Nat) (x : RingState) : (s.setRing ring x).pending = s.pending := rfl

/-! `updItem` changes `flm`. -/

@[simp] theorem State.updItem_variant (s : State) (k : Nat) (f : Item → Item) : (s.updItem k f).variant = s.variant := rfl
@[simp] theorem State.updItem_regs (s : State) (k : Nat) (f : Item → Item) : (s.updItem k f).regs = s.regs := rfl
@[simp] theorem State.updItem_staged (s : State) (k : Nat) (f : Item → Item) : (s.updItem k f).staged = s.staged := rfl
@[simp] theorem State.updItem_claims (s : State) (k : Nat) (f : Item → Item) : (s.updItem k f).claims = s.claims := rfl
@[simp] theorem State.updItem_commits (s : State) (k : Nat) (f : Item → Item) : (s.updItem k f).commits = s.commits := rfl
@[simp] theorem State.updItem_mem (s : State) (k : Nat) (f : Item → Item) : (s.updItem k f).mem = s.mem := rfl
@[simp] theorem State.updItem_lost (s : State) (k : Nat) (f : Item → Item) : (s.updItem k f).lost = s.lost := rfl
@[simp] theorem State.updItem_doms (s : State) (k : Nat) (f : Item → Item) : (s.updItem k f).doms = s.doms := rfl
@[simp] theorem State.updItem_clk (s : State) (k : Nat) (f : Item → Item) : (s.updItem k f).clk = s.clk := rfl
@[simp] theorem State.updItem_ticks (s : State) (k : Nat) (f : Item → Item) : (s.updItem k f).ticks = s.ticks := rfl
@[simp] theorem State.updItem_replies (s : State) (k : Nat) (f : Item → Item) : (s.updItem k f).replies = s.replies := rfl
@[simp] theorem State.updItem_stalls (s : State) (k : Nat) (f : Item → Item) : (s.updItem k f).stalls = s.stalls := rfl
@[simp] theorem State.updItem_debugErr (s : State) (k : Nat) (f : Item → Item) : (s.updItem k f).debugErr = s.debugErr := rfl
@[simp] theorem State.updItem_freeCtr (s : State) (k : Nat) (f : Item → Item) : (s.updItem k f).freeCtr = s.freeCtr := rfl
@[simp] theorem State.updItem_drc (s : State) (k : Nat) (f : Item → Item) : (s.updItem k f).drc = s.drc := rfl
@[simp] theorem State.updItem_flc (s : State) (k : Nat) (f : Item → Item) : (s.updItem k f).flc = s.flc := rfl
@[simp] theorem State.updItem_nmc (s : State) (k : Nat) (f : Item → Item) : (s.updItem k f).nmc = s.nmc := rfl
@[simp] theorem State.updItem_tim (s : State) (k : Nat) (f : Item → Item) : (s.updItem k f).tim = s.tim := rfl
@[simp] theorem State.updItem_recv (s : State) (k : Nat) (f : Item → Item) : (s.updItem k f).recv = s.recv := rfl
@[simp] theorem State.updItem_syn (s : State) (k : Nat) (f : Item → Item) : (s.updItem k f).syn = s.syn := rfl
@[simp] theorem State.updItem_txa (s : State) (k : Nat) (f : Item → Item) : (s.updItem k f).txa = s.txa := rfl
@[simp] theorem State.updItem_wrx (s : State) (k : Nat) (f : Item → Item) : (s.updItem k f).wrx = s.wrx := rfl
@[simp] theorem State.updItem_eth (s : State) (k : Nat) (f : Item → Item) : (s.updItem k f).eth = s.eth := rfl
@[simp] theorem State.updItem_rtc (s : State) (k : Nat) (f : Item → Item) : (s.updItem k f).rtc = s.rtc := rfl
@[simp] theorem State.updItem_per (s : State) (k : Nat) (f : Item → Item) : (s.updItem k f).per = s.per := rfl
@[simp] theorem State.updItem_tag (s : State) (k : Nat) (f : Item → Item) : (s.updItem k f).tag = s.tag := rfl
@[simp] theorem State.updItem_mrc (s : State) (k : Nat) (f : Item → Item) : (s.updItem k f).mrc = s.mrc := rfl
@[simp] theorem State.updItem_sec (s : State) (k : Nat) (f : Item → Item) : (s.updItem k f).sec = s.sec := rfl
@[simp] theorem State.updItem_pal (s : State) (k : Nat) (f : Item → Item) : (s.updItem k f).pal = s.pal := rfl
@[simp] theorem State.updItem_lnk (s : State) (k : Nat) (f : Item → Item) : (s.updItem k f).lnk = s.lnk := rfl
@[simp] theorem State.updItem_cpus (s : State) (k : Nat) (f : Item → Item) : (s.updItem k f).cpus = s.cpus := rfl
@[simp] theorem State.updItem_cas (s : State) (k : Nat) (f : Item → Item) : (s.updItem k f).cas = s.cas := rfl
@[simp] theorem State.updItem_upd (s : State) (k : Nat) (f : Item → Item) : (s.updItem k f).upd = s.upd := rfl
@[simp] theorem State.updItem_booted (s : State) (k : Nat) (f : Item → Item) : (s.updItem k f).booted = s.booted := rfl
@[simp] theorem State.updItem_testmode (s : State) (k : Nat) (f : Item → Item) : (s.updItem k f).testmode = s.testmode := rfl
@[simp] theorem State.updItem_inReset (s : State) (k : Nat) (f : Item → Item) : (s.updItem k f).inReset = s.inReset := rfl
@[simp] theorem State.updItem_vio (s : State) (k : Nat) (f : Item → Item) : (s.updItem k f).vio = s.vio := rfl
@[simp] theorem State.updItem_resetDue (s : State) (k : Nat) (f : Item → Item) : (s.updItem k f).resetDue = s.resetDue := rfl
@[simp] theorem State.updItem_pending (s : State) (k : Nat) (f : Item → Item) : (s.updItem k f).pending = s.pending := rfl

/-! `setChan` changes `recv`. -/

@[simp] theorem State.setChan_variant (s : State) (n : Nat) (c : Chan) : (s.setChan n c).variant = s.variant := rfl
@[simp] theorem State.setChan_regs (s : State) (n : Nat) (c : Chan) : (s.setChan n c).regs = s.regs := rfl
@[simp] theorem State.setChan_staged (s : State) (n : Nat) (c : Chan) : (s.setChan n c).staged = s.staged := rfl
@[simp] theorem State.setChan_claims (s : State) (n : Nat) (c : Chan) : (s.setChan n c).claims = s.claims := rfl
@[simp] theorem State.setChan_commits (s : State) (n : Nat) (c : Chan) : (s.setChan n c).commits = s.commits := rfl
@[simp] theorem State.setChan_mem (s : State) (n : Nat) (c : Chan) : (s.setChan n c).mem = s.mem := rfl
@[simp] theorem State.setChan_lost (s : State) (n : Nat) (c : Chan) : (s.setChan n c).lost = s.lost := rfl
@[simp] theorem State.setChan_doms (s : State) (n : Nat) (c : Chan) : (s.setChan n c).doms = s.doms := rfl
@[simp] theorem State.setChan_clk (s : State) (n : Nat) (c : Chan) : (s.setChan n c).clk = s.clk := rfl
@[simp] theorem State.setChan_ticks (s : State) (n : Nat) (c : Chan) : (s.setChan n c).ticks = s.ticks := rfl
@[simp] theorem State.setChan_replies (s : State) (n : Nat) (c : Chan) : (s.setChan n c).replies = s.replies := rfl
@[simp] theorem State.setChan_stalls (s : State) (n : Nat) (c : Chan) : (s.setChan n c).stalls = s.stalls := rfl
@[simp] theorem State.setChan_debugErr (s : State) (n : Nat) (c : Chan) : (s.setChan n c).debugErr = s.debugErr := rfl
@[simp] theorem State.setChan_freeCtr (s : State) (n : Nat) (c : Chan) : (s.setChan n c).freeCtr = s.freeCtr := rfl
@[simp] theorem State.setChan_flm (s : State) (n : Nat) (c : Chan) : (s.setChan n c).flm = s.flm := rfl
@[simp] theorem State.setChan_drc (s : State) (n : Nat) (c : Chan) : (s.setChan n c).drc = s.drc := rfl
@[simp] theorem State.setChan_flc (s : State) (n : Nat) (c : Chan) : (s.setChan n c).flc = s.flc := rfl
@[simp] theorem State.setChan_nmc (s : State) (n : Nat) (c : Chan) : (s.setChan n c).nmc = s.nmc := rfl
@[simp] theorem State.setChan_tim (s : State) (n : Nat) (c : Chan) : (s.setChan n c).tim = s.tim := rfl
@[simp] theorem State.setChan_syn (s : State) (n : Nat) (c : Chan) : (s.setChan n c).syn = s.syn := rfl
@[simp] theorem State.setChan_txa (s : State) (n : Nat) (c : Chan) : (s.setChan n c).txa = s.txa := rfl
@[simp] theorem State.setChan_wrx (s : State) (n : Nat) (c : Chan) : (s.setChan n c).wrx = s.wrx := rfl
@[simp] theorem State.setChan_eth (s : State) (n : Nat) (c : Chan) : (s.setChan n c).eth = s.eth := rfl
@[simp] theorem State.setChan_rtc (s : State) (n : Nat) (c : Chan) : (s.setChan n c).rtc = s.rtc := rfl
@[simp] theorem State.setChan_per (s : State) (n : Nat) (c : Chan) : (s.setChan n c).per = s.per := rfl
@[simp] theorem State.setChan_tag (s : State) (n : Nat) (c : Chan) : (s.setChan n c).tag = s.tag := rfl
@[simp] theorem State.setChan_mrc (s : State) (n : Nat) (c : Chan) : (s.setChan n c).mrc = s.mrc := rfl
@[simp] theorem State.setChan_sec (s : State) (n : Nat) (c : Chan) : (s.setChan n c).sec = s.sec := rfl
@[simp] theorem State.setChan_pal (s : State) (n : Nat) (c : Chan) : (s.setChan n c).pal = s.pal := rfl
@[simp] theorem State.setChan_lnk (s : State) (n : Nat) (c : Chan) : (s.setChan n c).lnk = s.lnk := rfl
@[simp] theorem State.setChan_cpus (s : State) (n : Nat) (c : Chan) : (s.setChan n c).cpus = s.cpus := rfl
@[simp] theorem State.setChan_cas (s : State) (n : Nat) (c : Chan) : (s.setChan n c).cas = s.cas := rfl
@[simp] theorem State.setChan_upd (s : State) (n : Nat) (c : Chan) : (s.setChan n c).upd = s.upd := rfl
@[simp] theorem State.setChan_booted (s : State) (n : Nat) (c : Chan) : (s.setChan n c).booted = s.booted := rfl
@[simp] theorem State.setChan_testmode (s : State) (n : Nat) (c : Chan) : (s.setChan n c).testmode = s.testmode := rfl
@[simp] theorem State.setChan_inReset (s : State) (n : Nat) (c : Chan) : (s.setChan n c).inReset = s.inReset := rfl
@[simp] theorem State.setChan_vio (s : State) (n : Nat) (c : Chan) : (s.setChan n c).vio = s.vio := rfl
@[simp] theorem State.setChan_resetDue (s : State) (n : Nat) (c : Chan) : (s.setChan n c).resetDue = s.resetDue := rfl
@[simp] theorem State.setChan_pending (s : State) (n : Nat) (c : Chan) : (s.setChan n c).pending = s.pending := rfl

/-! `setLane` changes `recv`. -/

@[simp] theorem State.setLane_variant (s : State) (n : Nat) (c : Option Lane) : (s.setLane n c).variant = s.variant := rfl
@[simp] theorem State.setLane_regs (s : State) (n : Nat) (c : Option Lane) : (s.setLane n c).regs = s.regs := rfl
@[simp] theorem State.setLane_staged (s : State) (n : Nat) (c : Option Lane) : (s.setLane n c).staged = s.staged := rfl
@[simp] theorem State.setLane_claims (s : State) (n : Nat) (c : Option Lane) : (s.setLane n c).claims = s.claims := rfl
@[simp] theorem State.setLane_commits (s : State) (n : Nat) (c : Option Lane) : (s.setLane n c).commits = s.commits := rfl
@[simp] theorem State.setLane_mem (s : State) (n : Nat) (c : Option Lane) : (s.setLane n c).mem = s.mem := rfl
@[simp] theorem State.setLane_lost (s : State) (n : Nat) (c : Option Lane) : (s.setLane n c).lost = s.lost := rfl
@[simp] theorem State.setLane_doms (s : State) (n : Nat) (c : Option Lane) : (s.setLane n c).doms = s.doms := rfl
@[simp] theorem State.setLane_clk (s : State) (n : Nat) (c : Option Lane) : (s.setLane n c).clk = s.clk := rfl
@[simp] theorem State.setLane_ticks (s : State) (n : Nat) (c : Option Lane) : (s.setLane n c).ticks = s.ticks := rfl
@[simp] theorem State.setLane_replies (s : State) (n : Nat) (c : Option Lane) : (s.setLane n c).replies = s.replies := rfl
@[simp] theorem State.setLane_stalls (s : State) (n : Nat) (c : Option Lane) : (s.setLane n c).stalls = s.stalls := rfl
@[simp] theorem State.setLane_debugErr (s : State) (n : Nat) (c : Option Lane) : (s.setLane n c).debugErr = s.debugErr := rfl
@[simp] theorem State.setLane_freeCtr (s : State) (n : Nat) (c : Option Lane) : (s.setLane n c).freeCtr = s.freeCtr := rfl
@[simp] theorem State.setLane_flm (s : State) (n : Nat) (c : Option Lane) : (s.setLane n c).flm = s.flm := rfl
@[simp] theorem State.setLane_drc (s : State) (n : Nat) (c : Option Lane) : (s.setLane n c).drc = s.drc := rfl
@[simp] theorem State.setLane_flc (s : State) (n : Nat) (c : Option Lane) : (s.setLane n c).flc = s.flc := rfl
@[simp] theorem State.setLane_nmc (s : State) (n : Nat) (c : Option Lane) : (s.setLane n c).nmc = s.nmc := rfl
@[simp] theorem State.setLane_tim (s : State) (n : Nat) (c : Option Lane) : (s.setLane n c).tim = s.tim := rfl
@[simp] theorem State.setLane_syn (s : State) (n : Nat) (c : Option Lane) : (s.setLane n c).syn = s.syn := rfl
@[simp] theorem State.setLane_txa (s : State) (n : Nat) (c : Option Lane) : (s.setLane n c).txa = s.txa := rfl
@[simp] theorem State.setLane_wrx (s : State) (n : Nat) (c : Option Lane) : (s.setLane n c).wrx = s.wrx := rfl
@[simp] theorem State.setLane_eth (s : State) (n : Nat) (c : Option Lane) : (s.setLane n c).eth = s.eth := rfl
@[simp] theorem State.setLane_rtc (s : State) (n : Nat) (c : Option Lane) : (s.setLane n c).rtc = s.rtc := rfl
@[simp] theorem State.setLane_per (s : State) (n : Nat) (c : Option Lane) : (s.setLane n c).per = s.per := rfl
@[simp] theorem State.setLane_tag (s : State) (n : Nat) (c : Option Lane) : (s.setLane n c).tag = s.tag := rfl
@[simp] theorem State.setLane_mrc (s : State) (n : Nat) (c : Option Lane) : (s.setLane n c).mrc = s.mrc := rfl
@[simp] theorem State.setLane_sec (s : State) (n : Nat) (c : Option Lane) : (s.setLane n c).sec = s.sec := rfl
@[simp] theorem State.setLane_pal (s : State) (n : Nat) (c : Option Lane) : (s.setLane n c).pal = s.pal := rfl
@[simp] theorem State.setLane_lnk (s : State) (n : Nat) (c : Option Lane) : (s.setLane n c).lnk = s.lnk := rfl
@[simp] theorem State.setLane_cpus (s : State) (n : Nat) (c : Option Lane) : (s.setLane n c).cpus = s.cpus := rfl
@[simp] theorem State.setLane_cas (s : State) (n : Nat) (c : Option Lane) : (s.setLane n c).cas = s.cas := rfl
@[simp] theorem State.setLane_upd (s : State) (n : Nat) (c : Option Lane) : (s.setLane n c).upd = s.upd := rfl
@[simp] theorem State.setLane_booted (s : State) (n : Nat) (c : Option Lane) : (s.setLane n c).booted = s.booted := rfl
@[simp] theorem State.setLane_testmode (s : State) (n : Nat) (c : Option Lane) : (s.setLane n c).testmode = s.testmode := rfl
@[simp] theorem State.setLane_inReset (s : State) (n : Nat) (c : Option Lane) : (s.setLane n c).inReset = s.inReset := rfl
@[simp] theorem State.setLane_vio (s : State) (n : Nat) (c : Option Lane) : (s.setLane n c).vio = s.vio := rfl
@[simp] theorem State.setLane_resetDue (s : State) (n : Nat) (c : Option Lane) : (s.setLane n c).resetDue = s.resetDue := rfl
@[simp] theorem State.setLane_pending (s : State) (n : Nat) (c : Option Lane) : (s.setLane n c).pending = s.pending := rfl

/-! `setCpu` changes `cpus`. -/

@[simp] theorem State.setCpu_variant (s : State) (c : Core) (x : Cpu) : (s.setCpu c x).variant = s.variant := rfl
@[simp] theorem State.setCpu_regs (s : State) (c : Core) (x : Cpu) : (s.setCpu c x).regs = s.regs := rfl
@[simp] theorem State.setCpu_staged (s : State) (c : Core) (x : Cpu) : (s.setCpu c x).staged = s.staged := rfl
@[simp] theorem State.setCpu_claims (s : State) (c : Core) (x : Cpu) : (s.setCpu c x).claims = s.claims := rfl
@[simp] theorem State.setCpu_commits (s : State) (c : Core) (x : Cpu) : (s.setCpu c x).commits = s.commits := rfl
@[simp] theorem State.setCpu_mem (s : State) (c : Core) (x : Cpu) : (s.setCpu c x).mem = s.mem := rfl
@[simp] theorem State.setCpu_lost (s : State) (c : Core) (x : Cpu) : (s.setCpu c x).lost = s.lost := rfl
@[simp] theorem State.setCpu_doms (s : State) (c : Core) (x : Cpu) : (s.setCpu c x).doms = s.doms := rfl
@[simp] theorem State.setCpu_clk (s : State) (c : Core) (x : Cpu) : (s.setCpu c x).clk = s.clk := rfl
@[simp] theorem State.setCpu_ticks (s : State) (c : Core) (x : Cpu) : (s.setCpu c x).ticks = s.ticks := rfl
@[simp] theorem State.setCpu_replies (s : State) (c : Core) (x : Cpu) : (s.setCpu c x).replies = s.replies := rfl
@[simp] theorem State.setCpu_stalls (s : State) (c : Core) (x : Cpu) : (s.setCpu c x).stalls = s.stalls := rfl
@[simp] theorem State.setCpu_debugErr (s : State) (c : Core) (x : Cpu) : (s.setCpu c x).debugErr = s.debugErr := rfl
@[simp] theorem State.setCpu_freeCtr (s : State) (c : Core) (x : Cpu) : (s.setCpu c x).freeCtr = s.freeCtr := rfl
@[simp] theorem State.setCpu_flm (s : State) (c : Core) (x : Cpu) : (s.setCpu c x).flm = s.flm := rfl
@[simp] theorem State.setCpu_drc (s : State) (c : Core) (x : Cpu) : (s.setCpu c x).drc = s.drc := rfl
@[simp] theorem State.setCpu_flc (s : State) (c : Core) (x : Cpu) : (s.setCpu c x).flc = s.flc := rfl
@[simp] theorem State.setCpu_nmc (s : State) (c : Core) (x : Cpu) : (s.setCpu c x).nmc = s.nmc := rfl
@[simp] theorem State.setCpu_tim (s : State) (c : Core) (x : Cpu) : (s.setCpu c x).tim = s.tim := rfl
@[simp] theorem State.setCpu_recv (s : State) (c : Core) (x : Cpu) : (s.setCpu c x).recv = s.recv := rfl
@[simp] theorem State.setCpu_syn (s : State) (c : Core) (x : Cpu) : (s.setCpu c x).syn = s.syn := rfl
@[simp] theorem State.setCpu_txa (s : State) (c : Core) (x : Cpu) : (s.setCpu c x).txa = s.txa := rfl
@[simp] theorem State.setCpu_wrx (s : State) (c : Core) (x : Cpu) : (s.setCpu c x).wrx = s.wrx := rfl
@[simp] theorem State.setCpu_eth (s : State) (c : Core) (x : Cpu) : (s.setCpu c x).eth = s.eth := rfl
@[simp] theorem State.setCpu_rtc (s : State) (c : Core) (x : Cpu) : (s.setCpu c x).rtc = s.rtc := rfl
@[simp] theorem State.setCpu_per (s : State) (c : Core) (x : Cpu) : (s.setCpu c x).per = s.per := rfl
@[simp] theorem State.setCpu_tag (s : State) (c : Core) (x : Cpu) : (s.setCpu c x).tag = s.tag := rfl
@[simp] theorem State.setCpu_mrc (s : State) (c : Core) (x : Cpu) : (s.setCpu c x).mrc = s.mrc := rfl
@[simp] theorem State.setCpu_sec (s : State) (c : Core) (x : Cpu) : (s.setCpu c x).sec = s.sec := rfl
@[simp] theorem State.setCpu_pal (s : State) (c : Core) (x : Cpu) : (s.setCpu c x).pal = s.pal := rfl
@[simp] theorem State.setCpu_lnk (s : State) (c : Core) (x : Cpu) : (s.setCpu c x).lnk = s.lnk := rfl
@[simp] theorem State.setCpu_cpus (s : State) (c : Core) (x : Cpu) : (s.setCpu c x).cpus = Sparse.insert s.cpus c.id x := rfl
@[simp] theorem State.setCpu_cas (s : State) (c : Core) (x : Cpu) : (s.setCpu c x).cas = s.cas := rfl
@[simp] theorem State.setCpu_upd (s : State) (c : Core) (x : Cpu) : (s.setCpu c x).upd = s.upd := rfl
@[simp] theorem State.setCpu_booted (s : State) (c : Core) (x : Cpu) : (s.setCpu c x).booted = s.booted := rfl
@[simp] theorem State.setCpu_testmode (s : State) (c : Core) (x : Cpu) : (s.setCpu c x).testmode = s.testmode := rfl
@[simp] theorem State.setCpu_inReset (s : State) (c : Core) (x : Cpu) : (s.setCpu c x).inReset = s.inReset := rfl
@[simp] theorem State.setCpu_vio (s : State) (c : Core) (x : Cpu) : (s.setCpu c x).vio = s.vio := rfl
@[simp] theorem State.setCpu_resetDue (s : State) (c : Core) (x : Cpu) : (s.setCpu c x).resetDue = s.resetDue := rfl
@[simp] theorem State.setCpu_pending (s : State) (c : Core) (x : Cpu) : (s.setCpu c x).pending = s.pending := rfl

/-! `setTim` changes `tim`. -/

@[simp] theorem State.setTim_variant (s : State) (f : Tim → Tim) : (s.setTim f).variant = s.variant := rfl
@[simp] theorem State.setTim_regs (s : State) (f : Tim → Tim) : (s.setTim f).regs = s.regs := rfl
@[simp] theorem State.setTim_staged (s : State) (f : Tim → Tim) : (s.setTim f).staged = s.staged := rfl
@[simp] theorem State.setTim_claims (s : State) (f : Tim → Tim) : (s.setTim f).claims = s.claims := rfl
@[simp] theorem State.setTim_commits (s : State) (f : Tim → Tim) : (s.setTim f).commits = s.commits := rfl
@[simp] theorem State.setTim_mem (s : State) (f : Tim → Tim) : (s.setTim f).mem = s.mem := rfl
@[simp] theorem State.setTim_lost (s : State) (f : Tim → Tim) : (s.setTim f).lost = s.lost := rfl
@[simp] theorem State.setTim_doms (s : State) (f : Tim → Tim) : (s.setTim f).doms = s.doms := rfl
@[simp] theorem State.setTim_clk (s : State) (f : Tim → Tim) : (s.setTim f).clk = s.clk := rfl
@[simp] theorem State.setTim_ticks (s : State) (f : Tim → Tim) : (s.setTim f).ticks = s.ticks := rfl
@[simp] theorem State.setTim_replies (s : State) (f : Tim → Tim) : (s.setTim f).replies = s.replies := rfl
@[simp] theorem State.setTim_stalls (s : State) (f : Tim → Tim) : (s.setTim f).stalls = s.stalls := rfl
@[simp] theorem State.setTim_debugErr (s : State) (f : Tim → Tim) : (s.setTim f).debugErr = s.debugErr := rfl
@[simp] theorem State.setTim_freeCtr (s : State) (f : Tim → Tim) : (s.setTim f).freeCtr = s.freeCtr := rfl
@[simp] theorem State.setTim_flm (s : State) (f : Tim → Tim) : (s.setTim f).flm = s.flm := rfl
@[simp] theorem State.setTim_drc (s : State) (f : Tim → Tim) : (s.setTim f).drc = s.drc := rfl
@[simp] theorem State.setTim_flc (s : State) (f : Tim → Tim) : (s.setTim f).flc = s.flc := rfl
@[simp] theorem State.setTim_nmc (s : State) (f : Tim → Tim) : (s.setTim f).nmc = s.nmc := rfl
@[simp] theorem State.setTim_tim (s : State) (f : Tim → Tim) : (s.setTim f).tim = f s.tim := rfl
@[simp] theorem State.setTim_recv (s : State) (f : Tim → Tim) : (s.setTim f).recv = s.recv := rfl
@[simp] theorem State.setTim_syn (s : State) (f : Tim → Tim) : (s.setTim f).syn = s.syn := rfl
@[simp] theorem State.setTim_txa (s : State) (f : Tim → Tim) : (s.setTim f).txa = s.txa := rfl
@[simp] theorem State.setTim_wrx (s : State) (f : Tim → Tim) : (s.setTim f).wrx = s.wrx := rfl
@[simp] theorem State.setTim_eth (s : State) (f : Tim → Tim) : (s.setTim f).eth = s.eth := rfl
@[simp] theorem State.setTim_rtc (s : State) (f : Tim → Tim) : (s.setTim f).rtc = s.rtc := rfl
@[simp] theorem State.setTim_per (s : State) (f : Tim → Tim) : (s.setTim f).per = s.per := rfl
@[simp] theorem State.setTim_tag (s : State) (f : Tim → Tim) : (s.setTim f).tag = s.tag := rfl
@[simp] theorem State.setTim_mrc (s : State) (f : Tim → Tim) : (s.setTim f).mrc = s.mrc := rfl
@[simp] theorem State.setTim_sec (s : State) (f : Tim → Tim) : (s.setTim f).sec = s.sec := rfl
@[simp] theorem State.setTim_pal (s : State) (f : Tim → Tim) : (s.setTim f).pal = s.pal := rfl
@[simp] theorem State.setTim_lnk (s : State) (f : Tim → Tim) : (s.setTim f).lnk = s.lnk := rfl
@[simp] theorem State.setTim_cpus (s : State) (f : Tim → Tim) : (s.setTim f).cpus = s.cpus := rfl
@[simp] theorem State.setTim_cas (s : State) (f : Tim → Tim) : (s.setTim f).cas = s.cas := rfl
@[simp] theorem State.setTim_upd (s : State) (f : Tim → Tim) : (s.setTim f).upd = s.upd := rfl
@[simp] theorem State.setTim_booted (s : State) (f : Tim → Tim) : (s.setTim f).booted = s.booted := rfl
@[simp] theorem State.setTim_testmode (s : State) (f : Tim → Tim) : (s.setTim f).testmode = s.testmode := rfl
@[simp] theorem State.setTim_inReset (s : State) (f : Tim → Tim) : (s.setTim f).inReset = s.inReset := rfl
@[simp] theorem State.setTim_vio (s : State) (f : Tim → Tim) : (s.setTim f).vio = s.vio := rfl
@[simp] theorem State.setTim_resetDue (s : State) (f : Tim → Tim) : (s.setTim f).resetDue = s.resetDue := rfl
@[simp] theorem State.setTim_pending (s : State) (f : Tim → Tim) : (s.setTim f).pending = s.pending := rfl

/-! `setSyn` changes `syn`. -/

@[simp] theorem State.setSyn_variant (s : State) (f : Syn → Syn) : (s.setSyn f).variant = s.variant := rfl
@[simp] theorem State.setSyn_regs (s : State) (f : Syn → Syn) : (s.setSyn f).regs = s.regs := rfl
@[simp] theorem State.setSyn_staged (s : State) (f : Syn → Syn) : (s.setSyn f).staged = s.staged := rfl
@[simp] theorem State.setSyn_claims (s : State) (f : Syn → Syn) : (s.setSyn f).claims = s.claims := rfl
@[simp] theorem State.setSyn_commits (s : State) (f : Syn → Syn) : (s.setSyn f).commits = s.commits := rfl
@[simp] theorem State.setSyn_mem (s : State) (f : Syn → Syn) : (s.setSyn f).mem = s.mem := rfl
@[simp] theorem State.setSyn_lost (s : State) (f : Syn → Syn) : (s.setSyn f).lost = s.lost := rfl
@[simp] theorem State.setSyn_doms (s : State) (f : Syn → Syn) : (s.setSyn f).doms = s.doms := rfl
@[simp] theorem State.setSyn_clk (s : State) (f : Syn → Syn) : (s.setSyn f).clk = s.clk := rfl
@[simp] theorem State.setSyn_ticks (s : State) (f : Syn → Syn) : (s.setSyn f).ticks = s.ticks := rfl
@[simp] theorem State.setSyn_replies (s : State) (f : Syn → Syn) : (s.setSyn f).replies = s.replies := rfl
@[simp] theorem State.setSyn_stalls (s : State) (f : Syn → Syn) : (s.setSyn f).stalls = s.stalls := rfl
@[simp] theorem State.setSyn_debugErr (s : State) (f : Syn → Syn) : (s.setSyn f).debugErr = s.debugErr := rfl
@[simp] theorem State.setSyn_freeCtr (s : State) (f : Syn → Syn) : (s.setSyn f).freeCtr = s.freeCtr := rfl
@[simp] theorem State.setSyn_flm (s : State) (f : Syn → Syn) : (s.setSyn f).flm = s.flm := rfl
@[simp] theorem State.setSyn_drc (s : State) (f : Syn → Syn) : (s.setSyn f).drc = s.drc := rfl
@[simp] theorem State.setSyn_flc (s : State) (f : Syn → Syn) : (s.setSyn f).flc = s.flc := rfl
@[simp] theorem State.setSyn_nmc (s : State) (f : Syn → Syn) : (s.setSyn f).nmc = s.nmc := rfl
@[simp] theorem State.setSyn_tim (s : State) (f : Syn → Syn) : (s.setSyn f).tim = s.tim := rfl
@[simp] theorem State.setSyn_recv (s : State) (f : Syn → Syn) : (s.setSyn f).recv = s.recv := rfl
@[simp] theorem State.setSyn_syn (s : State) (f : Syn → Syn) : (s.setSyn f).syn = f s.syn := rfl
@[simp] theorem State.setSyn_txa (s : State) (f : Syn → Syn) : (s.setSyn f).txa = s.txa := rfl
@[simp] theorem State.setSyn_wrx (s : State) (f : Syn → Syn) : (s.setSyn f).wrx = s.wrx := rfl
@[simp] theorem State.setSyn_eth (s : State) (f : Syn → Syn) : (s.setSyn f).eth = s.eth := rfl
@[simp] theorem State.setSyn_rtc (s : State) (f : Syn → Syn) : (s.setSyn f).rtc = s.rtc := rfl
@[simp] theorem State.setSyn_per (s : State) (f : Syn → Syn) : (s.setSyn f).per = s.per := rfl
@[simp] theorem State.setSyn_tag (s : State) (f : Syn → Syn) : (s.setSyn f).tag = s.tag := rfl
@[simp] theorem State.setSyn_mrc (s : State) (f : Syn → Syn) : (s.setSyn f).mrc = s.mrc := rfl
@[simp] theorem State.setSyn_sec (s : State) (f : Syn → Syn) : (s.setSyn f).sec = s.sec := rfl
@[simp] theorem State.setSyn_pal (s : State) (f : Syn → Syn) : (s.setSyn f).pal = s.pal := rfl
@[simp] theorem State.setSyn_lnk (s : State) (f : Syn → Syn) : (s.setSyn f).lnk = s.lnk := rfl
@[simp] theorem State.setSyn_cpus (s : State) (f : Syn → Syn) : (s.setSyn f).cpus = s.cpus := rfl
@[simp] theorem State.setSyn_cas (s : State) (f : Syn → Syn) : (s.setSyn f).cas = s.cas := rfl
@[simp] theorem State.setSyn_upd (s : State) (f : Syn → Syn) : (s.setSyn f).upd = s.upd := rfl
@[simp] theorem State.setSyn_booted (s : State) (f : Syn → Syn) : (s.setSyn f).booted = s.booted := rfl
@[simp] theorem State.setSyn_testmode (s : State) (f : Syn → Syn) : (s.setSyn f).testmode = s.testmode := rfl
@[simp] theorem State.setSyn_inReset (s : State) (f : Syn → Syn) : (s.setSyn f).inReset = s.inReset := rfl
@[simp] theorem State.setSyn_vio (s : State) (f : Syn → Syn) : (s.setSyn f).vio = s.vio := rfl
@[simp] theorem State.setSyn_resetDue (s : State) (f : Syn → Syn) : (s.setSyn f).resetDue = s.resetDue := rfl
@[simp] theorem State.setSyn_pending (s : State) (f : Syn → Syn) : (s.setSyn f).pending = s.pending := rfl

/-! `setRtc` changes `rtc`. -/

@[simp] theorem State.setRtc_variant (s : State) (f : Rtc → Rtc) : (s.setRtc f).variant = s.variant := rfl
@[simp] theorem State.setRtc_regs (s : State) (f : Rtc → Rtc) : (s.setRtc f).regs = s.regs := rfl
@[simp] theorem State.setRtc_staged (s : State) (f : Rtc → Rtc) : (s.setRtc f).staged = s.staged := rfl
@[simp] theorem State.setRtc_claims (s : State) (f : Rtc → Rtc) : (s.setRtc f).claims = s.claims := rfl
@[simp] theorem State.setRtc_commits (s : State) (f : Rtc → Rtc) : (s.setRtc f).commits = s.commits := rfl
@[simp] theorem State.setRtc_mem (s : State) (f : Rtc → Rtc) : (s.setRtc f).mem = s.mem := rfl
@[simp] theorem State.setRtc_lost (s : State) (f : Rtc → Rtc) : (s.setRtc f).lost = s.lost := rfl
@[simp] theorem State.setRtc_doms (s : State) (f : Rtc → Rtc) : (s.setRtc f).doms = s.doms := rfl
@[simp] theorem State.setRtc_clk (s : State) (f : Rtc → Rtc) : (s.setRtc f).clk = s.clk := rfl
@[simp] theorem State.setRtc_ticks (s : State) (f : Rtc → Rtc) : (s.setRtc f).ticks = s.ticks := rfl
@[simp] theorem State.setRtc_replies (s : State) (f : Rtc → Rtc) : (s.setRtc f).replies = s.replies := rfl
@[simp] theorem State.setRtc_stalls (s : State) (f : Rtc → Rtc) : (s.setRtc f).stalls = s.stalls := rfl
@[simp] theorem State.setRtc_debugErr (s : State) (f : Rtc → Rtc) : (s.setRtc f).debugErr = s.debugErr := rfl
@[simp] theorem State.setRtc_freeCtr (s : State) (f : Rtc → Rtc) : (s.setRtc f).freeCtr = s.freeCtr := rfl
@[simp] theorem State.setRtc_flm (s : State) (f : Rtc → Rtc) : (s.setRtc f).flm = s.flm := rfl
@[simp] theorem State.setRtc_drc (s : State) (f : Rtc → Rtc) : (s.setRtc f).drc = s.drc := rfl
@[simp] theorem State.setRtc_flc (s : State) (f : Rtc → Rtc) : (s.setRtc f).flc = s.flc := rfl
@[simp] theorem State.setRtc_nmc (s : State) (f : Rtc → Rtc) : (s.setRtc f).nmc = s.nmc := rfl
@[simp] theorem State.setRtc_tim (s : State) (f : Rtc → Rtc) : (s.setRtc f).tim = s.tim := rfl
@[simp] theorem State.setRtc_recv (s : State) (f : Rtc → Rtc) : (s.setRtc f).recv = s.recv := rfl
@[simp] theorem State.setRtc_syn (s : State) (f : Rtc → Rtc) : (s.setRtc f).syn = s.syn := rfl
@[simp] theorem State.setRtc_txa (s : State) (f : Rtc → Rtc) : (s.setRtc f).txa = s.txa := rfl
@[simp] theorem State.setRtc_wrx (s : State) (f : Rtc → Rtc) : (s.setRtc f).wrx = s.wrx := rfl
@[simp] theorem State.setRtc_eth (s : State) (f : Rtc → Rtc) : (s.setRtc f).eth = s.eth := rfl
@[simp] theorem State.setRtc_rtc (s : State) (f : Rtc → Rtc) : (s.setRtc f).rtc = f s.rtc := rfl
@[simp] theorem State.setRtc_per (s : State) (f : Rtc → Rtc) : (s.setRtc f).per = s.per := rfl
@[simp] theorem State.setRtc_tag (s : State) (f : Rtc → Rtc) : (s.setRtc f).tag = s.tag := rfl
@[simp] theorem State.setRtc_mrc (s : State) (f : Rtc → Rtc) : (s.setRtc f).mrc = s.mrc := rfl
@[simp] theorem State.setRtc_sec (s : State) (f : Rtc → Rtc) : (s.setRtc f).sec = s.sec := rfl
@[simp] theorem State.setRtc_pal (s : State) (f : Rtc → Rtc) : (s.setRtc f).pal = s.pal := rfl
@[simp] theorem State.setRtc_lnk (s : State) (f : Rtc → Rtc) : (s.setRtc f).lnk = s.lnk := rfl
@[simp] theorem State.setRtc_cpus (s : State) (f : Rtc → Rtc) : (s.setRtc f).cpus = s.cpus := rfl
@[simp] theorem State.setRtc_cas (s : State) (f : Rtc → Rtc) : (s.setRtc f).cas = s.cas := rfl
@[simp] theorem State.setRtc_upd (s : State) (f : Rtc → Rtc) : (s.setRtc f).upd = s.upd := rfl
@[simp] theorem State.setRtc_booted (s : State) (f : Rtc → Rtc) : (s.setRtc f).booted = s.booted := rfl
@[simp] theorem State.setRtc_testmode (s : State) (f : Rtc → Rtc) : (s.setRtc f).testmode = s.testmode := rfl
@[simp] theorem State.setRtc_inReset (s : State) (f : Rtc → Rtc) : (s.setRtc f).inReset = s.inReset := rfl
@[simp] theorem State.setRtc_vio (s : State) (f : Rtc → Rtc) : (s.setRtc f).vio = s.vio := rfl
@[simp] theorem State.setRtc_resetDue (s : State) (f : Rtc → Rtc) : (s.setRtc f).resetDue = s.resetDue := rfl
@[simp] theorem State.setRtc_pending (s : State) (f : Rtc → Rtc) : (s.setRtc f).pending = s.pending := rfl

/-! `setPer` changes `per`. -/

@[simp] theorem State.setPer_variant (s : State) (f : Periph → Periph) : (s.setPer f).variant = s.variant := rfl
@[simp] theorem State.setPer_regs (s : State) (f : Periph → Periph) : (s.setPer f).regs = s.regs := rfl
@[simp] theorem State.setPer_staged (s : State) (f : Periph → Periph) : (s.setPer f).staged = s.staged := rfl
@[simp] theorem State.setPer_claims (s : State) (f : Periph → Periph) : (s.setPer f).claims = s.claims := rfl
@[simp] theorem State.setPer_commits (s : State) (f : Periph → Periph) : (s.setPer f).commits = s.commits := rfl
@[simp] theorem State.setPer_mem (s : State) (f : Periph → Periph) : (s.setPer f).mem = s.mem := rfl
@[simp] theorem State.setPer_lost (s : State) (f : Periph → Periph) : (s.setPer f).lost = s.lost := rfl
@[simp] theorem State.setPer_doms (s : State) (f : Periph → Periph) : (s.setPer f).doms = s.doms := rfl
@[simp] theorem State.setPer_clk (s : State) (f : Periph → Periph) : (s.setPer f).clk = s.clk := rfl
@[simp] theorem State.setPer_ticks (s : State) (f : Periph → Periph) : (s.setPer f).ticks = s.ticks := rfl
@[simp] theorem State.setPer_replies (s : State) (f : Periph → Periph) : (s.setPer f).replies = s.replies := rfl
@[simp] theorem State.setPer_stalls (s : State) (f : Periph → Periph) : (s.setPer f).stalls = s.stalls := rfl
@[simp] theorem State.setPer_debugErr (s : State) (f : Periph → Periph) : (s.setPer f).debugErr = s.debugErr := rfl
@[simp] theorem State.setPer_freeCtr (s : State) (f : Periph → Periph) : (s.setPer f).freeCtr = s.freeCtr := rfl
@[simp] theorem State.setPer_flm (s : State) (f : Periph → Periph) : (s.setPer f).flm = s.flm := rfl
@[simp] theorem State.setPer_drc (s : State) (f : Periph → Periph) : (s.setPer f).drc = s.drc := rfl
@[simp] theorem State.setPer_flc (s : State) (f : Periph → Periph) : (s.setPer f).flc = s.flc := rfl
@[simp] theorem State.setPer_nmc (s : State) (f : Periph → Periph) : (s.setPer f).nmc = s.nmc := rfl
@[simp] theorem State.setPer_tim (s : State) (f : Periph → Periph) : (s.setPer f).tim = s.tim := rfl
@[simp] theorem State.setPer_recv (s : State) (f : Periph → Periph) : (s.setPer f).recv = s.recv := rfl
@[simp] theorem State.setPer_syn (s : State) (f : Periph → Periph) : (s.setPer f).syn = s.syn := rfl
@[simp] theorem State.setPer_txa (s : State) (f : Periph → Periph) : (s.setPer f).txa = s.txa := rfl
@[simp] theorem State.setPer_wrx (s : State) (f : Periph → Periph) : (s.setPer f).wrx = s.wrx := rfl
@[simp] theorem State.setPer_eth (s : State) (f : Periph → Periph) : (s.setPer f).eth = s.eth := rfl
@[simp] theorem State.setPer_rtc (s : State) (f : Periph → Periph) : (s.setPer f).rtc = s.rtc := rfl
@[simp] theorem State.setPer_per (s : State) (f : Periph → Periph) : (s.setPer f).per = f s.per := rfl
@[simp] theorem State.setPer_tag (s : State) (f : Periph → Periph) : (s.setPer f).tag = s.tag := rfl
@[simp] theorem State.setPer_mrc (s : State) (f : Periph → Periph) : (s.setPer f).mrc = s.mrc := rfl
@[simp] theorem State.setPer_sec (s : State) (f : Periph → Periph) : (s.setPer f).sec = s.sec := rfl
@[simp] theorem State.setPer_pal (s : State) (f : Periph → Periph) : (s.setPer f).pal = s.pal := rfl
@[simp] theorem State.setPer_lnk (s : State) (f : Periph → Periph) : (s.setPer f).lnk = s.lnk := rfl
@[simp] theorem State.setPer_cpus (s : State) (f : Periph → Periph) : (s.setPer f).cpus = s.cpus := rfl
@[simp] theorem State.setPer_cas (s : State) (f : Periph → Periph) : (s.setPer f).cas = s.cas := rfl
@[simp] theorem State.setPer_upd (s : State) (f : Periph → Periph) : (s.setPer f).upd = s.upd := rfl
@[simp] theorem State.setPer_booted (s : State) (f : Periph → Periph) : (s.setPer f).booted = s.booted := rfl
@[simp] theorem State.setPer_testmode (s : State) (f : Periph → Periph) : (s.setPer f).testmode = s.testmode := rfl
@[simp] theorem State.setPer_inReset (s : State) (f : Periph → Periph) : (s.setPer f).inReset = s.inReset := rfl
@[simp] theorem State.setPer_vio (s : State) (f : Periph → Periph) : (s.setPer f).vio = s.vio := rfl
@[simp] theorem State.setPer_resetDue (s : State) (f : Periph → Periph) : (s.setPer f).resetDue = s.resetDue := rfl
@[simp] theorem State.setPer_pending (s : State) (f : Periph → Periph) : (s.setPer f).pending = s.pending := rfl

/-! `setTag` changes `tag`. -/

@[simp] theorem State.setTag_variant (s : State) (f : Tag → Tag) : (s.setTag f).variant = s.variant := rfl
@[simp] theorem State.setTag_regs (s : State) (f : Tag → Tag) : (s.setTag f).regs = s.regs := rfl
@[simp] theorem State.setTag_staged (s : State) (f : Tag → Tag) : (s.setTag f).staged = s.staged := rfl
@[simp] theorem State.setTag_claims (s : State) (f : Tag → Tag) : (s.setTag f).claims = s.claims := rfl
@[simp] theorem State.setTag_commits (s : State) (f : Tag → Tag) : (s.setTag f).commits = s.commits := rfl
@[simp] theorem State.setTag_mem (s : State) (f : Tag → Tag) : (s.setTag f).mem = s.mem := rfl
@[simp] theorem State.setTag_lost (s : State) (f : Tag → Tag) : (s.setTag f).lost = s.lost := rfl
@[simp] theorem State.setTag_doms (s : State) (f : Tag → Tag) : (s.setTag f).doms = s.doms := rfl
@[simp] theorem State.setTag_clk (s : State) (f : Tag → Tag) : (s.setTag f).clk = s.clk := rfl
@[simp] theorem State.setTag_ticks (s : State) (f : Tag → Tag) : (s.setTag f).ticks = s.ticks := rfl
@[simp] theorem State.setTag_replies (s : State) (f : Tag → Tag) : (s.setTag f).replies = s.replies := rfl
@[simp] theorem State.setTag_stalls (s : State) (f : Tag → Tag) : (s.setTag f).stalls = s.stalls := rfl
@[simp] theorem State.setTag_debugErr (s : State) (f : Tag → Tag) : (s.setTag f).debugErr = s.debugErr := rfl
@[simp] theorem State.setTag_freeCtr (s : State) (f : Tag → Tag) : (s.setTag f).freeCtr = s.freeCtr := rfl
@[simp] theorem State.setTag_flm (s : State) (f : Tag → Tag) : (s.setTag f).flm = s.flm := rfl
@[simp] theorem State.setTag_drc (s : State) (f : Tag → Tag) : (s.setTag f).drc = s.drc := rfl
@[simp] theorem State.setTag_flc (s : State) (f : Tag → Tag) : (s.setTag f).flc = s.flc := rfl
@[simp] theorem State.setTag_nmc (s : State) (f : Tag → Tag) : (s.setTag f).nmc = s.nmc := rfl
@[simp] theorem State.setTag_tim (s : State) (f : Tag → Tag) : (s.setTag f).tim = s.tim := rfl
@[simp] theorem State.setTag_recv (s : State) (f : Tag → Tag) : (s.setTag f).recv = s.recv := rfl
@[simp] theorem State.setTag_syn (s : State) (f : Tag → Tag) : (s.setTag f).syn = s.syn := rfl
@[simp] theorem State.setTag_txa (s : State) (f : Tag → Tag) : (s.setTag f).txa = s.txa := rfl
@[simp] theorem State.setTag_wrx (s : State) (f : Tag → Tag) : (s.setTag f).wrx = s.wrx := rfl
@[simp] theorem State.setTag_eth (s : State) (f : Tag → Tag) : (s.setTag f).eth = s.eth := rfl
@[simp] theorem State.setTag_rtc (s : State) (f : Tag → Tag) : (s.setTag f).rtc = s.rtc := rfl
@[simp] theorem State.setTag_per (s : State) (f : Tag → Tag) : (s.setTag f).per = s.per := rfl
@[simp] theorem State.setTag_tag (s : State) (f : Tag → Tag) : (s.setTag f).tag = f s.tag := rfl
@[simp] theorem State.setTag_mrc (s : State) (f : Tag → Tag) : (s.setTag f).mrc = s.mrc := rfl
@[simp] theorem State.setTag_sec (s : State) (f : Tag → Tag) : (s.setTag f).sec = s.sec := rfl
@[simp] theorem State.setTag_pal (s : State) (f : Tag → Tag) : (s.setTag f).pal = s.pal := rfl
@[simp] theorem State.setTag_lnk (s : State) (f : Tag → Tag) : (s.setTag f).lnk = s.lnk := rfl
@[simp] theorem State.setTag_cpus (s : State) (f : Tag → Tag) : (s.setTag f).cpus = s.cpus := rfl
@[simp] theorem State.setTag_cas (s : State) (f : Tag → Tag) : (s.setTag f).cas = s.cas := rfl
@[simp] theorem State.setTag_upd (s : State) (f : Tag → Tag) : (s.setTag f).upd = s.upd := rfl
@[simp] theorem State.setTag_booted (s : State) (f : Tag → Tag) : (s.setTag f).booted = s.booted := rfl
@[simp] theorem State.setTag_testmode (s : State) (f : Tag → Tag) : (s.setTag f).testmode = s.testmode := rfl
@[simp] theorem State.setTag_inReset (s : State) (f : Tag → Tag) : (s.setTag f).inReset = s.inReset := rfl
@[simp] theorem State.setTag_vio (s : State) (f : Tag → Tag) : (s.setTag f).vio = s.vio := rfl
@[simp] theorem State.setTag_resetDue (s : State) (f : Tag → Tag) : (s.setTag f).resetDue = s.resetDue := rfl
@[simp] theorem State.setTag_pending (s : State) (f : Tag → Tag) : (s.setTag f).pending = s.pending := rfl

/-! `setMrc` changes `mrc`. -/

@[simp] theorem State.setMrc_variant (s : State) (f : Mrc → Mrc) : (s.setMrc f).variant = s.variant := rfl
@[simp] theorem State.setMrc_regs (s : State) (f : Mrc → Mrc) : (s.setMrc f).regs = s.regs := rfl
@[simp] theorem State.setMrc_staged (s : State) (f : Mrc → Mrc) : (s.setMrc f).staged = s.staged := rfl
@[simp] theorem State.setMrc_claims (s : State) (f : Mrc → Mrc) : (s.setMrc f).claims = s.claims := rfl
@[simp] theorem State.setMrc_commits (s : State) (f : Mrc → Mrc) : (s.setMrc f).commits = s.commits := rfl
@[simp] theorem State.setMrc_mem (s : State) (f : Mrc → Mrc) : (s.setMrc f).mem = s.mem := rfl
@[simp] theorem State.setMrc_lost (s : State) (f : Mrc → Mrc) : (s.setMrc f).lost = s.lost := rfl
@[simp] theorem State.setMrc_doms (s : State) (f : Mrc → Mrc) : (s.setMrc f).doms = s.doms := rfl
@[simp] theorem State.setMrc_clk (s : State) (f : Mrc → Mrc) : (s.setMrc f).clk = s.clk := rfl
@[simp] theorem State.setMrc_ticks (s : State) (f : Mrc → Mrc) : (s.setMrc f).ticks = s.ticks := rfl
@[simp] theorem State.setMrc_replies (s : State) (f : Mrc → Mrc) : (s.setMrc f).replies = s.replies := rfl
@[simp] theorem State.setMrc_stalls (s : State) (f : Mrc → Mrc) : (s.setMrc f).stalls = s.stalls := rfl
@[simp] theorem State.setMrc_debugErr (s : State) (f : Mrc → Mrc) : (s.setMrc f).debugErr = s.debugErr := rfl
@[simp] theorem State.setMrc_freeCtr (s : State) (f : Mrc → Mrc) : (s.setMrc f).freeCtr = s.freeCtr := rfl
@[simp] theorem State.setMrc_flm (s : State) (f : Mrc → Mrc) : (s.setMrc f).flm = s.flm := rfl
@[simp] theorem State.setMrc_drc (s : State) (f : Mrc → Mrc) : (s.setMrc f).drc = s.drc := rfl
@[simp] theorem State.setMrc_flc (s : State) (f : Mrc → Mrc) : (s.setMrc f).flc = s.flc := rfl
@[simp] theorem State.setMrc_nmc (s : State) (f : Mrc → Mrc) : (s.setMrc f).nmc = s.nmc := rfl
@[simp] theorem State.setMrc_tim (s : State) (f : Mrc → Mrc) : (s.setMrc f).tim = s.tim := rfl
@[simp] theorem State.setMrc_recv (s : State) (f : Mrc → Mrc) : (s.setMrc f).recv = s.recv := rfl
@[simp] theorem State.setMrc_syn (s : State) (f : Mrc → Mrc) : (s.setMrc f).syn = s.syn := rfl
@[simp] theorem State.setMrc_txa (s : State) (f : Mrc → Mrc) : (s.setMrc f).txa = s.txa := rfl
@[simp] theorem State.setMrc_wrx (s : State) (f : Mrc → Mrc) : (s.setMrc f).wrx = s.wrx := rfl
@[simp] theorem State.setMrc_eth (s : State) (f : Mrc → Mrc) : (s.setMrc f).eth = s.eth := rfl
@[simp] theorem State.setMrc_rtc (s : State) (f : Mrc → Mrc) : (s.setMrc f).rtc = s.rtc := rfl
@[simp] theorem State.setMrc_per (s : State) (f : Mrc → Mrc) : (s.setMrc f).per = s.per := rfl
@[simp] theorem State.setMrc_tag (s : State) (f : Mrc → Mrc) : (s.setMrc f).tag = s.tag := rfl
@[simp] theorem State.setMrc_mrc (s : State) (f : Mrc → Mrc) : (s.setMrc f).mrc = f s.mrc := rfl
@[simp] theorem State.setMrc_sec (s : State) (f : Mrc → Mrc) : (s.setMrc f).sec = s.sec := rfl
@[simp] theorem State.setMrc_pal (s : State) (f : Mrc → Mrc) : (s.setMrc f).pal = s.pal := rfl
@[simp] theorem State.setMrc_lnk (s : State) (f : Mrc → Mrc) : (s.setMrc f).lnk = s.lnk := rfl
@[simp] theorem State.setMrc_cpus (s : State) (f : Mrc → Mrc) : (s.setMrc f).cpus = s.cpus := rfl
@[simp] theorem State.setMrc_cas (s : State) (f : Mrc → Mrc) : (s.setMrc f).cas = s.cas := rfl
@[simp] theorem State.setMrc_upd (s : State) (f : Mrc → Mrc) : (s.setMrc f).upd = s.upd := rfl
@[simp] theorem State.setMrc_booted (s : State) (f : Mrc → Mrc) : (s.setMrc f).booted = s.booted := rfl
@[simp] theorem State.setMrc_testmode (s : State) (f : Mrc → Mrc) : (s.setMrc f).testmode = s.testmode := rfl
@[simp] theorem State.setMrc_inReset (s : State) (f : Mrc → Mrc) : (s.setMrc f).inReset = s.inReset := rfl
@[simp] theorem State.setMrc_vio (s : State) (f : Mrc → Mrc) : (s.setMrc f).vio = s.vio := rfl
@[simp] theorem State.setMrc_resetDue (s : State) (f : Mrc → Mrc) : (s.setMrc f).resetDue = s.resetDue := rfl
@[simp] theorem State.setMrc_pending (s : State) (f : Mrc → Mrc) : (s.setMrc f).pending = s.pending := rfl

/-! `setNmc` changes `nmc`. -/

@[simp] theorem State.setNmc_variant (s : State) (f : Nand → Nand) : (s.setNmc f).variant = s.variant := rfl
@[simp] theorem State.setNmc_regs (s : State) (f : Nand → Nand) : (s.setNmc f).regs = s.regs := rfl
@[simp] theorem State.setNmc_staged (s : State) (f : Nand → Nand) : (s.setNmc f).staged = s.staged := rfl
@[simp] theorem State.setNmc_claims (s : State) (f : Nand → Nand) : (s.setNmc f).claims = s.claims := rfl
@[simp] theorem State.setNmc_commits (s : State) (f : Nand → Nand) : (s.setNmc f).commits = s.commits := rfl
@[simp] theorem State.setNmc_mem (s : State) (f : Nand → Nand) : (s.setNmc f).mem = s.mem := rfl
@[simp] theorem State.setNmc_lost (s : State) (f : Nand → Nand) : (s.setNmc f).lost = s.lost := rfl
@[simp] theorem State.setNmc_doms (s : State) (f : Nand → Nand) : (s.setNmc f).doms = s.doms := rfl
@[simp] theorem State.setNmc_clk (s : State) (f : Nand → Nand) : (s.setNmc f).clk = s.clk := rfl
@[simp] theorem State.setNmc_ticks (s : State) (f : Nand → Nand) : (s.setNmc f).ticks = s.ticks := rfl
@[simp] theorem State.setNmc_replies (s : State) (f : Nand → Nand) : (s.setNmc f).replies = s.replies := rfl
@[simp] theorem State.setNmc_stalls (s : State) (f : Nand → Nand) : (s.setNmc f).stalls = s.stalls := rfl
@[simp] theorem State.setNmc_debugErr (s : State) (f : Nand → Nand) : (s.setNmc f).debugErr = s.debugErr := rfl
@[simp] theorem State.setNmc_freeCtr (s : State) (f : Nand → Nand) : (s.setNmc f).freeCtr = s.freeCtr := rfl
@[simp] theorem State.setNmc_flm (s : State) (f : Nand → Nand) : (s.setNmc f).flm = s.flm := rfl
@[simp] theorem State.setNmc_drc (s : State) (f : Nand → Nand) : (s.setNmc f).drc = s.drc := rfl
@[simp] theorem State.setNmc_flc (s : State) (f : Nand → Nand) : (s.setNmc f).flc = s.flc := rfl
@[simp] theorem State.setNmc_nmc (s : State) (f : Nand → Nand) : (s.setNmc f).nmc = f s.nmc := rfl
@[simp] theorem State.setNmc_tim (s : State) (f : Nand → Nand) : (s.setNmc f).tim = s.tim := rfl
@[simp] theorem State.setNmc_recv (s : State) (f : Nand → Nand) : (s.setNmc f).recv = s.recv := rfl
@[simp] theorem State.setNmc_syn (s : State) (f : Nand → Nand) : (s.setNmc f).syn = s.syn := rfl
@[simp] theorem State.setNmc_txa (s : State) (f : Nand → Nand) : (s.setNmc f).txa = s.txa := rfl
@[simp] theorem State.setNmc_wrx (s : State) (f : Nand → Nand) : (s.setNmc f).wrx = s.wrx := rfl
@[simp] theorem State.setNmc_eth (s : State) (f : Nand → Nand) : (s.setNmc f).eth = s.eth := rfl
@[simp] theorem State.setNmc_rtc (s : State) (f : Nand → Nand) : (s.setNmc f).rtc = s.rtc := rfl
@[simp] theorem State.setNmc_per (s : State) (f : Nand → Nand) : (s.setNmc f).per = s.per := rfl
@[simp] theorem State.setNmc_tag (s : State) (f : Nand → Nand) : (s.setNmc f).tag = s.tag := rfl
@[simp] theorem State.setNmc_mrc (s : State) (f : Nand → Nand) : (s.setNmc f).mrc = s.mrc := rfl
@[simp] theorem State.setNmc_sec (s : State) (f : Nand → Nand) : (s.setNmc f).sec = s.sec := rfl
@[simp] theorem State.setNmc_pal (s : State) (f : Nand → Nand) : (s.setNmc f).pal = s.pal := rfl
@[simp] theorem State.setNmc_lnk (s : State) (f : Nand → Nand) : (s.setNmc f).lnk = s.lnk := rfl
@[simp] theorem State.setNmc_cpus (s : State) (f : Nand → Nand) : (s.setNmc f).cpus = s.cpus := rfl
@[simp] theorem State.setNmc_cas (s : State) (f : Nand → Nand) : (s.setNmc f).cas = s.cas := rfl
@[simp] theorem State.setNmc_upd (s : State) (f : Nand → Nand) : (s.setNmc f).upd = s.upd := rfl
@[simp] theorem State.setNmc_booted (s : State) (f : Nand → Nand) : (s.setNmc f).booted = s.booted := rfl
@[simp] theorem State.setNmc_testmode (s : State) (f : Nand → Nand) : (s.setNmc f).testmode = s.testmode := rfl
@[simp] theorem State.setNmc_inReset (s : State) (f : Nand → Nand) : (s.setNmc f).inReset = s.inReset := rfl
@[simp] theorem State.setNmc_vio (s : State) (f : Nand → Nand) : (s.setNmc f).vio = s.vio := rfl
@[simp] theorem State.setNmc_resetDue (s : State) (f : Nand → Nand) : (s.setNmc f).resetDue = s.resetDue := rfl
@[simp] theorem State.setNmc_pending (s : State) (f : Nand → Nand) : (s.setNmc f).pending = s.pending := rfl

/-! `setSec` changes `sec`. -/

@[simp] theorem State.setSec_variant (s : State) (f : Sec → Sec) : (s.setSec f).variant = s.variant := rfl
@[simp] theorem State.setSec_regs (s : State) (f : Sec → Sec) : (s.setSec f).regs = s.regs := rfl
@[simp] theorem State.setSec_staged (s : State) (f : Sec → Sec) : (s.setSec f).staged = s.staged := rfl
@[simp] theorem State.setSec_claims (s : State) (f : Sec → Sec) : (s.setSec f).claims = s.claims := rfl
@[simp] theorem State.setSec_commits (s : State) (f : Sec → Sec) : (s.setSec f).commits = s.commits := rfl
@[simp] theorem State.setSec_mem (s : State) (f : Sec → Sec) : (s.setSec f).mem = s.mem := rfl
@[simp] theorem State.setSec_lost (s : State) (f : Sec → Sec) : (s.setSec f).lost = s.lost := rfl
@[simp] theorem State.setSec_doms (s : State) (f : Sec → Sec) : (s.setSec f).doms = s.doms := rfl
@[simp] theorem State.setSec_clk (s : State) (f : Sec → Sec) : (s.setSec f).clk = s.clk := rfl
@[simp] theorem State.setSec_ticks (s : State) (f : Sec → Sec) : (s.setSec f).ticks = s.ticks := rfl
@[simp] theorem State.setSec_replies (s : State) (f : Sec → Sec) : (s.setSec f).replies = s.replies := rfl
@[simp] theorem State.setSec_stalls (s : State) (f : Sec → Sec) : (s.setSec f).stalls = s.stalls := rfl
@[simp] theorem State.setSec_debugErr (s : State) (f : Sec → Sec) : (s.setSec f).debugErr = s.debugErr := rfl
@[simp] theorem State.setSec_freeCtr (s : State) (f : Sec → Sec) : (s.setSec f).freeCtr = s.freeCtr := rfl
@[simp] theorem State.setSec_flm (s : State) (f : Sec → Sec) : (s.setSec f).flm = s.flm := rfl
@[simp] theorem State.setSec_drc (s : State) (f : Sec → Sec) : (s.setSec f).drc = s.drc := rfl
@[simp] theorem State.setSec_flc (s : State) (f : Sec → Sec) : (s.setSec f).flc = s.flc := rfl
@[simp] theorem State.setSec_nmc (s : State) (f : Sec → Sec) : (s.setSec f).nmc = s.nmc := rfl
@[simp] theorem State.setSec_tim (s : State) (f : Sec → Sec) : (s.setSec f).tim = s.tim := rfl
@[simp] theorem State.setSec_recv (s : State) (f : Sec → Sec) : (s.setSec f).recv = s.recv := rfl
@[simp] theorem State.setSec_syn (s : State) (f : Sec → Sec) : (s.setSec f).syn = s.syn := rfl
@[simp] theorem State.setSec_txa (s : State) (f : Sec → Sec) : (s.setSec f).txa = s.txa := rfl
@[simp] theorem State.setSec_wrx (s : State) (f : Sec → Sec) : (s.setSec f).wrx = s.wrx := rfl
@[simp] theorem State.setSec_eth (s : State) (f : Sec → Sec) : (s.setSec f).eth = s.eth := rfl
@[simp] theorem State.setSec_rtc (s : State) (f : Sec → Sec) : (s.setSec f).rtc = s.rtc := rfl
@[simp] theorem State.setSec_per (s : State) (f : Sec → Sec) : (s.setSec f).per = s.per := rfl
@[simp] theorem State.setSec_tag (s : State) (f : Sec → Sec) : (s.setSec f).tag = s.tag := rfl
@[simp] theorem State.setSec_mrc (s : State) (f : Sec → Sec) : (s.setSec f).mrc = s.mrc := rfl
@[simp] theorem State.setSec_sec (s : State) (f : Sec → Sec) : (s.setSec f).sec = f s.sec := rfl
@[simp] theorem State.setSec_pal (s : State) (f : Sec → Sec) : (s.setSec f).pal = s.pal := rfl
@[simp] theorem State.setSec_lnk (s : State) (f : Sec → Sec) : (s.setSec f).lnk = s.lnk := rfl
@[simp] theorem State.setSec_cpus (s : State) (f : Sec → Sec) : (s.setSec f).cpus = s.cpus := rfl
@[simp] theorem State.setSec_cas (s : State) (f : Sec → Sec) : (s.setSec f).cas = s.cas := rfl
@[simp] theorem State.setSec_upd (s : State) (f : Sec → Sec) : (s.setSec f).upd = s.upd := rfl
@[simp] theorem State.setSec_booted (s : State) (f : Sec → Sec) : (s.setSec f).booted = s.booted := rfl
@[simp] theorem State.setSec_testmode (s : State) (f : Sec → Sec) : (s.setSec f).testmode = s.testmode := rfl
@[simp] theorem State.setSec_inReset (s : State) (f : Sec → Sec) : (s.setSec f).inReset = s.inReset := rfl
@[simp] theorem State.setSec_vio (s : State) (f : Sec → Sec) : (s.setSec f).vio = s.vio := rfl
@[simp] theorem State.setSec_resetDue (s : State) (f : Sec → Sec) : (s.setSec f).resetDue = s.resetDue := rfl
@[simp] theorem State.setSec_pending (s : State) (f : Sec → Sec) : (s.setSec f).pending = s.pending := rfl

/-! `setPal` changes `pal`. -/

@[simp] theorem State.setPal_variant (s : State) (f : Pal → Pal) : (s.setPal f).variant = s.variant := rfl
@[simp] theorem State.setPal_regs (s : State) (f : Pal → Pal) : (s.setPal f).regs = s.regs := rfl
@[simp] theorem State.setPal_staged (s : State) (f : Pal → Pal) : (s.setPal f).staged = s.staged := rfl
@[simp] theorem State.setPal_claims (s : State) (f : Pal → Pal) : (s.setPal f).claims = s.claims := rfl
@[simp] theorem State.setPal_commits (s : State) (f : Pal → Pal) : (s.setPal f).commits = s.commits := rfl
@[simp] theorem State.setPal_mem (s : State) (f : Pal → Pal) : (s.setPal f).mem = s.mem := rfl
@[simp] theorem State.setPal_lost (s : State) (f : Pal → Pal) : (s.setPal f).lost = s.lost := rfl
@[simp] theorem State.setPal_doms (s : State) (f : Pal → Pal) : (s.setPal f).doms = s.doms := rfl
@[simp] theorem State.setPal_clk (s : State) (f : Pal → Pal) : (s.setPal f).clk = s.clk := rfl
@[simp] theorem State.setPal_ticks (s : State) (f : Pal → Pal) : (s.setPal f).ticks = s.ticks := rfl
@[simp] theorem State.setPal_replies (s : State) (f : Pal → Pal) : (s.setPal f).replies = s.replies := rfl
@[simp] theorem State.setPal_stalls (s : State) (f : Pal → Pal) : (s.setPal f).stalls = s.stalls := rfl
@[simp] theorem State.setPal_debugErr (s : State) (f : Pal → Pal) : (s.setPal f).debugErr = s.debugErr := rfl
@[simp] theorem State.setPal_freeCtr (s : State) (f : Pal → Pal) : (s.setPal f).freeCtr = s.freeCtr := rfl
@[simp] theorem State.setPal_flm (s : State) (f : Pal → Pal) : (s.setPal f).flm = s.flm := rfl
@[simp] theorem State.setPal_drc (s : State) (f : Pal → Pal) : (s.setPal f).drc = s.drc := rfl
@[simp] theorem State.setPal_flc (s : State) (f : Pal → Pal) : (s.setPal f).flc = s.flc := rfl
@[simp] theorem State.setPal_nmc (s : State) (f : Pal → Pal) : (s.setPal f).nmc = s.nmc := rfl
@[simp] theorem State.setPal_tim (s : State) (f : Pal → Pal) : (s.setPal f).tim = s.tim := rfl
@[simp] theorem State.setPal_recv (s : State) (f : Pal → Pal) : (s.setPal f).recv = s.recv := rfl
@[simp] theorem State.setPal_syn (s : State) (f : Pal → Pal) : (s.setPal f).syn = s.syn := rfl
@[simp] theorem State.setPal_txa (s : State) (f : Pal → Pal) : (s.setPal f).txa = s.txa := rfl
@[simp] theorem State.setPal_wrx (s : State) (f : Pal → Pal) : (s.setPal f).wrx = s.wrx := rfl
@[simp] theorem State.setPal_eth (s : State) (f : Pal → Pal) : (s.setPal f).eth = s.eth := rfl
@[simp] theorem State.setPal_rtc (s : State) (f : Pal → Pal) : (s.setPal f).rtc = s.rtc := rfl
@[simp] theorem State.setPal_per (s : State) (f : Pal → Pal) : (s.setPal f).per = s.per := rfl
@[simp] theorem State.setPal_tag (s : State) (f : Pal → Pal) : (s.setPal f).tag = s.tag := rfl
@[simp] theorem State.setPal_mrc (s : State) (f : Pal → Pal) : (s.setPal f).mrc = s.mrc := rfl
@[simp] theorem State.setPal_sec (s : State) (f : Pal → Pal) : (s.setPal f).sec = s.sec := rfl
@[simp] theorem State.setPal_pal (s : State) (f : Pal → Pal) : (s.setPal f).pal = f s.pal := rfl
@[simp] theorem State.setPal_lnk (s : State) (f : Pal → Pal) : (s.setPal f).lnk = s.lnk := rfl
@[simp] theorem State.setPal_cpus (s : State) (f : Pal → Pal) : (s.setPal f).cpus = s.cpus := rfl
@[simp] theorem State.setPal_cas (s : State) (f : Pal → Pal) : (s.setPal f).cas = s.cas := rfl
@[simp] theorem State.setPal_upd (s : State) (f : Pal → Pal) : (s.setPal f).upd = s.upd := rfl
@[simp] theorem State.setPal_booted (s : State) (f : Pal → Pal) : (s.setPal f).booted = s.booted := rfl
@[simp] theorem State.setPal_testmode (s : State) (f : Pal → Pal) : (s.setPal f).testmode = s.testmode := rfl
@[simp] theorem State.setPal_inReset (s : State) (f : Pal → Pal) : (s.setPal f).inReset = s.inReset := rfl
@[simp] theorem State.setPal_vio (s : State) (f : Pal → Pal) : (s.setPal f).vio = s.vio := rfl
@[simp] theorem State.setPal_resetDue (s : State) (f : Pal → Pal) : (s.setPal f).resetDue = s.resetDue := rfl
@[simp] theorem State.setPal_pending (s : State) (f : Pal → Pal) : (s.setPal f).pending = s.pending := rfl

/-! `setLnk` changes `lnk`. -/

@[simp] theorem State.setLnk_variant (s : State) (f : Lnk → Lnk) : (s.setLnk f).variant = s.variant := rfl
@[simp] theorem State.setLnk_regs (s : State) (f : Lnk → Lnk) : (s.setLnk f).regs = s.regs := rfl
@[simp] theorem State.setLnk_staged (s : State) (f : Lnk → Lnk) : (s.setLnk f).staged = s.staged := rfl
@[simp] theorem State.setLnk_claims (s : State) (f : Lnk → Lnk) : (s.setLnk f).claims = s.claims := rfl
@[simp] theorem State.setLnk_commits (s : State) (f : Lnk → Lnk) : (s.setLnk f).commits = s.commits := rfl
@[simp] theorem State.setLnk_mem (s : State) (f : Lnk → Lnk) : (s.setLnk f).mem = s.mem := rfl
@[simp] theorem State.setLnk_lost (s : State) (f : Lnk → Lnk) : (s.setLnk f).lost = s.lost := rfl
@[simp] theorem State.setLnk_doms (s : State) (f : Lnk → Lnk) : (s.setLnk f).doms = s.doms := rfl
@[simp] theorem State.setLnk_clk (s : State) (f : Lnk → Lnk) : (s.setLnk f).clk = s.clk := rfl
@[simp] theorem State.setLnk_ticks (s : State) (f : Lnk → Lnk) : (s.setLnk f).ticks = s.ticks := rfl
@[simp] theorem State.setLnk_replies (s : State) (f : Lnk → Lnk) : (s.setLnk f).replies = s.replies := rfl
@[simp] theorem State.setLnk_stalls (s : State) (f : Lnk → Lnk) : (s.setLnk f).stalls = s.stalls := rfl
@[simp] theorem State.setLnk_debugErr (s : State) (f : Lnk → Lnk) : (s.setLnk f).debugErr = s.debugErr := rfl
@[simp] theorem State.setLnk_freeCtr (s : State) (f : Lnk → Lnk) : (s.setLnk f).freeCtr = s.freeCtr := rfl
@[simp] theorem State.setLnk_flm (s : State) (f : Lnk → Lnk) : (s.setLnk f).flm = s.flm := rfl
@[simp] theorem State.setLnk_drc (s : State) (f : Lnk → Lnk) : (s.setLnk f).drc = s.drc := rfl
@[simp] theorem State.setLnk_flc (s : State) (f : Lnk → Lnk) : (s.setLnk f).flc = s.flc := rfl
@[simp] theorem State.setLnk_nmc (s : State) (f : Lnk → Lnk) : (s.setLnk f).nmc = s.nmc := rfl
@[simp] theorem State.setLnk_tim (s : State) (f : Lnk → Lnk) : (s.setLnk f).tim = s.tim := rfl
@[simp] theorem State.setLnk_recv (s : State) (f : Lnk → Lnk) : (s.setLnk f).recv = s.recv := rfl
@[simp] theorem State.setLnk_syn (s : State) (f : Lnk → Lnk) : (s.setLnk f).syn = s.syn := rfl
@[simp] theorem State.setLnk_txa (s : State) (f : Lnk → Lnk) : (s.setLnk f).txa = s.txa := rfl
@[simp] theorem State.setLnk_wrx (s : State) (f : Lnk → Lnk) : (s.setLnk f).wrx = s.wrx := rfl
@[simp] theorem State.setLnk_eth (s : State) (f : Lnk → Lnk) : (s.setLnk f).eth = s.eth := rfl
@[simp] theorem State.setLnk_rtc (s : State) (f : Lnk → Lnk) : (s.setLnk f).rtc = s.rtc := rfl
@[simp] theorem State.setLnk_per (s : State) (f : Lnk → Lnk) : (s.setLnk f).per = s.per := rfl
@[simp] theorem State.setLnk_tag (s : State) (f : Lnk → Lnk) : (s.setLnk f).tag = s.tag := rfl
@[simp] theorem State.setLnk_mrc (s : State) (f : Lnk → Lnk) : (s.setLnk f).mrc = s.mrc := rfl
@[simp] theorem State.setLnk_sec (s : State) (f : Lnk → Lnk) : (s.setLnk f).sec = s.sec := rfl
@[simp] theorem State.setLnk_pal (s : State) (f : Lnk → Lnk) : (s.setLnk f).pal = s.pal := rfl
@[simp] theorem State.setLnk_lnk (s : State) (f : Lnk → Lnk) : (s.setLnk f).lnk = f s.lnk := rfl
@[simp] theorem State.setLnk_cpus (s : State) (f : Lnk → Lnk) : (s.setLnk f).cpus = s.cpus := rfl
@[simp] theorem State.setLnk_cas (s : State) (f : Lnk → Lnk) : (s.setLnk f).cas = s.cas := rfl
@[simp] theorem State.setLnk_upd (s : State) (f : Lnk → Lnk) : (s.setLnk f).upd = s.upd := rfl
@[simp] theorem State.setLnk_booted (s : State) (f : Lnk → Lnk) : (s.setLnk f).booted = s.booted := rfl
@[simp] theorem State.setLnk_testmode (s : State) (f : Lnk → Lnk) : (s.setLnk f).testmode = s.testmode := rfl
@[simp] theorem State.setLnk_inReset (s : State) (f : Lnk → Lnk) : (s.setLnk f).inReset = s.inReset := rfl
@[simp] theorem State.setLnk_vio (s : State) (f : Lnk → Lnk) : (s.setLnk f).vio = s.vio := rfl
@[simp] theorem State.setLnk_resetDue (s : State) (f : Lnk → Lnk) : (s.setLnk f).resetDue = s.resetDue := rfl
@[simp] theorem State.setLnk_pending (s : State) (f : Lnk → Lnk) : (s.setLnk f).pending = s.pending := rfl

/-! `setCas` changes `cas`. -/

@[simp] theorem State.setCas_variant (s : State) (f : Casc → Casc) : (s.setCas f).variant = s.variant := rfl
@[simp] theorem State.setCas_regs (s : State) (f : Casc → Casc) : (s.setCas f).regs = s.regs := rfl
@[simp] theorem State.setCas_staged (s : State) (f : Casc → Casc) : (s.setCas f).staged = s.staged := rfl
@[simp] theorem State.setCas_claims (s : State) (f : Casc → Casc) : (s.setCas f).claims = s.claims := rfl
@[simp] theorem State.setCas_commits (s : State) (f : Casc → Casc) : (s.setCas f).commits = s.commits := rfl
@[simp] theorem State.setCas_mem (s : State) (f : Casc → Casc) : (s.setCas f).mem = s.mem := rfl
@[simp] theorem State.setCas_lost (s : State) (f : Casc → Casc) : (s.setCas f).lost = s.lost := rfl
@[simp] theorem State.setCas_doms (s : State) (f : Casc → Casc) : (s.setCas f).doms = s.doms := rfl
@[simp] theorem State.setCas_clk (s : State) (f : Casc → Casc) : (s.setCas f).clk = s.clk := rfl
@[simp] theorem State.setCas_ticks (s : State) (f : Casc → Casc) : (s.setCas f).ticks = s.ticks := rfl
@[simp] theorem State.setCas_replies (s : State) (f : Casc → Casc) : (s.setCas f).replies = s.replies := rfl
@[simp] theorem State.setCas_stalls (s : State) (f : Casc → Casc) : (s.setCas f).stalls = s.stalls := rfl
@[simp] theorem State.setCas_debugErr (s : State) (f : Casc → Casc) : (s.setCas f).debugErr = s.debugErr := rfl
@[simp] theorem State.setCas_freeCtr (s : State) (f : Casc → Casc) : (s.setCas f).freeCtr = s.freeCtr := rfl
@[simp] theorem State.setCas_flm (s : State) (f : Casc → Casc) : (s.setCas f).flm = s.flm := rfl
@[simp] theorem State.setCas_drc (s : State) (f : Casc → Casc) : (s.setCas f).drc = s.drc := rfl
@[simp] theorem State.setCas_flc (s : State) (f : Casc → Casc) : (s.setCas f).flc = s.flc := rfl
@[simp] theorem State.setCas_nmc (s : State) (f : Casc → Casc) : (s.setCas f).nmc = s.nmc := rfl
@[simp] theorem State.setCas_tim (s : State) (f : Casc → Casc) : (s.setCas f).tim = s.tim := rfl
@[simp] theorem State.setCas_recv (s : State) (f : Casc → Casc) : (s.setCas f).recv = s.recv := rfl
@[simp] theorem State.setCas_syn (s : State) (f : Casc → Casc) : (s.setCas f).syn = s.syn := rfl
@[simp] theorem State.setCas_txa (s : State) (f : Casc → Casc) : (s.setCas f).txa = s.txa := rfl
@[simp] theorem State.setCas_wrx (s : State) (f : Casc → Casc) : (s.setCas f).wrx = s.wrx := rfl
@[simp] theorem State.setCas_eth (s : State) (f : Casc → Casc) : (s.setCas f).eth = s.eth := rfl
@[simp] theorem State.setCas_rtc (s : State) (f : Casc → Casc) : (s.setCas f).rtc = s.rtc := rfl
@[simp] theorem State.setCas_per (s : State) (f : Casc → Casc) : (s.setCas f).per = s.per := rfl
@[simp] theorem State.setCas_tag (s : State) (f : Casc → Casc) : (s.setCas f).tag = s.tag := rfl
@[simp] theorem State.setCas_mrc (s : State) (f : Casc → Casc) : (s.setCas f).mrc = s.mrc := rfl
@[simp] theorem State.setCas_sec (s : State) (f : Casc → Casc) : (s.setCas f).sec = s.sec := rfl
@[simp] theorem State.setCas_pal (s : State) (f : Casc → Casc) : (s.setCas f).pal = s.pal := rfl
@[simp] theorem State.setCas_lnk (s : State) (f : Casc → Casc) : (s.setCas f).lnk = s.lnk := rfl
@[simp] theorem State.setCas_cpus (s : State) (f : Casc → Casc) : (s.setCas f).cpus = s.cpus := rfl
@[simp] theorem State.setCas_cas (s : State) (f : Casc → Casc) : (s.setCas f).cas = f s.cas := rfl
@[simp] theorem State.setCas_upd (s : State) (f : Casc → Casc) : (s.setCas f).upd = s.upd := rfl
@[simp] theorem State.setCas_booted (s : State) (f : Casc → Casc) : (s.setCas f).booted = s.booted := rfl
@[simp] theorem State.setCas_testmode (s : State) (f : Casc → Casc) : (s.setCas f).testmode = s.testmode := rfl
@[simp] theorem State.setCas_inReset (s : State) (f : Casc → Casc) : (s.setCas f).inReset = s.inReset := rfl
@[simp] theorem State.setCas_vio (s : State) (f : Casc → Casc) : (s.setCas f).vio = s.vio := rfl
@[simp] theorem State.setCas_resetDue (s : State) (f : Casc → Casc) : (s.setCas f).resetDue = s.resetDue := rfl
@[simp] theorem State.setCas_pending (s : State) (f : Casc → Casc) : (s.setCas f).pending = s.pending := rfl

/-! `setUpd` changes `upd`. -/

@[simp] theorem State.setUpd_variant (s : State) (f : Upd → Upd) : (s.setUpd f).variant = s.variant := rfl
@[simp] theorem State.setUpd_regs (s : State) (f : Upd → Upd) : (s.setUpd f).regs = s.regs := rfl
@[simp] theorem State.setUpd_staged (s : State) (f : Upd → Upd) : (s.setUpd f).staged = s.staged := rfl
@[simp] theorem State.setUpd_claims (s : State) (f : Upd → Upd) : (s.setUpd f).claims = s.claims := rfl
@[simp] theorem State.setUpd_commits (s : State) (f : Upd → Upd) : (s.setUpd f).commits = s.commits := rfl
@[simp] theorem State.setUpd_mem (s : State) (f : Upd → Upd) : (s.setUpd f).mem = s.mem := rfl
@[simp] theorem State.setUpd_lost (s : State) (f : Upd → Upd) : (s.setUpd f).lost = s.lost := rfl
@[simp] theorem State.setUpd_doms (s : State) (f : Upd → Upd) : (s.setUpd f).doms = s.doms := rfl
@[simp] theorem State.setUpd_clk (s : State) (f : Upd → Upd) : (s.setUpd f).clk = s.clk := rfl
@[simp] theorem State.setUpd_ticks (s : State) (f : Upd → Upd) : (s.setUpd f).ticks = s.ticks := rfl
@[simp] theorem State.setUpd_replies (s : State) (f : Upd → Upd) : (s.setUpd f).replies = s.replies := rfl
@[simp] theorem State.setUpd_stalls (s : State) (f : Upd → Upd) : (s.setUpd f).stalls = s.stalls := rfl
@[simp] theorem State.setUpd_debugErr (s : State) (f : Upd → Upd) : (s.setUpd f).debugErr = s.debugErr := rfl
@[simp] theorem State.setUpd_freeCtr (s : State) (f : Upd → Upd) : (s.setUpd f).freeCtr = s.freeCtr := rfl
@[simp] theorem State.setUpd_flm (s : State) (f : Upd → Upd) : (s.setUpd f).flm = s.flm := rfl
@[simp] theorem State.setUpd_drc (s : State) (f : Upd → Upd) : (s.setUpd f).drc = s.drc := rfl
@[simp] theorem State.setUpd_flc (s : State) (f : Upd → Upd) : (s.setUpd f).flc = s.flc := rfl
@[simp] theorem State.setUpd_nmc (s : State) (f : Upd → Upd) : (s.setUpd f).nmc = s.nmc := rfl
@[simp] theorem State.setUpd_tim (s : State) (f : Upd → Upd) : (s.setUpd f).tim = s.tim := rfl
@[simp] theorem State.setUpd_recv (s : State) (f : Upd → Upd) : (s.setUpd f).recv = s.recv := rfl
@[simp] theorem State.setUpd_syn (s : State) (f : Upd → Upd) : (s.setUpd f).syn = s.syn := rfl
@[simp] theorem State.setUpd_txa (s : State) (f : Upd → Upd) : (s.setUpd f).txa = s.txa := rfl
@[simp] theorem State.setUpd_wrx (s : State) (f : Upd → Upd) : (s.setUpd f).wrx = s.wrx := rfl
@[simp] theorem State.setUpd_eth (s : State) (f : Upd → Upd) : (s.setUpd f).eth = s.eth := rfl
@[simp] theorem State.setUpd_rtc (s : State) (f : Upd → Upd) : (s.setUpd f).rtc = s.rtc := rfl
@[simp] theorem State.setUpd_per (s : State) (f : Upd → Upd) : (s.setUpd f).per = s.per := rfl
@[simp] theorem State.setUpd_tag (s : State) (f : Upd → Upd) : (s.setUpd f).tag = s.tag := rfl
@[simp] theorem State.setUpd_mrc (s : State) (f : Upd → Upd) : (s.setUpd f).mrc = s.mrc := rfl
@[simp] theorem State.setUpd_sec (s : State) (f : Upd → Upd) : (s.setUpd f).sec = s.sec := rfl
@[simp] theorem State.setUpd_pal (s : State) (f : Upd → Upd) : (s.setUpd f).pal = s.pal := rfl
@[simp] theorem State.setUpd_lnk (s : State) (f : Upd → Upd) : (s.setUpd f).lnk = s.lnk := rfl
@[simp] theorem State.setUpd_cpus (s : State) (f : Upd → Upd) : (s.setUpd f).cpus = s.cpus := rfl
@[simp] theorem State.setUpd_cas (s : State) (f : Upd → Upd) : (s.setUpd f).cas = s.cas := rfl
@[simp] theorem State.setUpd_upd (s : State) (f : Upd → Upd) : (s.setUpd f).upd = f s.upd := rfl
@[simp] theorem State.setUpd_booted (s : State) (f : Upd → Upd) : (s.setUpd f).booted = s.booted := rfl
@[simp] theorem State.setUpd_testmode (s : State) (f : Upd → Upd) : (s.setUpd f).testmode = s.testmode := rfl
@[simp] theorem State.setUpd_inReset (s : State) (f : Upd → Upd) : (s.setUpd f).inReset = s.inReset := rfl
@[simp] theorem State.setUpd_vio (s : State) (f : Upd → Upd) : (s.setUpd f).vio = s.vio := rfl
@[simp] theorem State.setUpd_resetDue (s : State) (f : Upd → Upd) : (s.setUpd f).resetDue = s.resetDue := rfl
@[simp] theorem State.setUpd_pending (s : State) (f : Upd → Upd) : (s.setUpd f).pending = s.pending := rfl

/-! `setClk` changes `clk`. -/

@[simp] theorem State.setClk_variant (s : State) (f : Clk → Clk) : (s.setClk f).variant = s.variant := rfl
@[simp] theorem State.setClk_regs (s : State) (f : Clk → Clk) : (s.setClk f).regs = s.regs := rfl
@[simp] theorem State.setClk_staged (s : State) (f : Clk → Clk) : (s.setClk f).staged = s.staged := rfl
@[simp] theorem State.setClk_claims (s : State) (f : Clk → Clk) : (s.setClk f).claims = s.claims := rfl
@[simp] theorem State.setClk_commits (s : State) (f : Clk → Clk) : (s.setClk f).commits = s.commits := rfl
@[simp] theorem State.setClk_mem (s : State) (f : Clk → Clk) : (s.setClk f).mem = s.mem := rfl
@[simp] theorem State.setClk_lost (s : State) (f : Clk → Clk) : (s.setClk f).lost = s.lost := rfl
@[simp] theorem State.setClk_doms (s : State) (f : Clk → Clk) : (s.setClk f).doms = s.doms := rfl
@[simp] theorem State.setClk_clk (s : State) (f : Clk → Clk) : (s.setClk f).clk = f s.clk := rfl
@[simp] theorem State.setClk_ticks (s : State) (f : Clk → Clk) : (s.setClk f).ticks = s.ticks := rfl
@[simp] theorem State.setClk_replies (s : State) (f : Clk → Clk) : (s.setClk f).replies = s.replies := rfl
@[simp] theorem State.setClk_stalls (s : State) (f : Clk → Clk) : (s.setClk f).stalls = s.stalls := rfl
@[simp] theorem State.setClk_debugErr (s : State) (f : Clk → Clk) : (s.setClk f).debugErr = s.debugErr := rfl
@[simp] theorem State.setClk_freeCtr (s : State) (f : Clk → Clk) : (s.setClk f).freeCtr = s.freeCtr := rfl
@[simp] theorem State.setClk_flm (s : State) (f : Clk → Clk) : (s.setClk f).flm = s.flm := rfl
@[simp] theorem State.setClk_drc (s : State) (f : Clk → Clk) : (s.setClk f).drc = s.drc := rfl
@[simp] theorem State.setClk_flc (s : State) (f : Clk → Clk) : (s.setClk f).flc = s.flc := rfl
@[simp] theorem State.setClk_nmc (s : State) (f : Clk → Clk) : (s.setClk f).nmc = s.nmc := rfl
@[simp] theorem State.setClk_tim (s : State) (f : Clk → Clk) : (s.setClk f).tim = s.tim := rfl
@[simp] theorem State.setClk_recv (s : State) (f : Clk → Clk) : (s.setClk f).recv = s.recv := rfl
@[simp] theorem State.setClk_syn (s : State) (f : Clk → Clk) : (s.setClk f).syn = s.syn := rfl
@[simp] theorem State.setClk_txa (s : State) (f : Clk → Clk) : (s.setClk f).txa = s.txa := rfl
@[simp] theorem State.setClk_wrx (s : State) (f : Clk → Clk) : (s.setClk f).wrx = s.wrx := rfl
@[simp] theorem State.setClk_eth (s : State) (f : Clk → Clk) : (s.setClk f).eth = s.eth := rfl
@[simp] theorem State.setClk_rtc (s : State) (f : Clk → Clk) : (s.setClk f).rtc = s.rtc := rfl
@[simp] theorem State.setClk_per (s : State) (f : Clk → Clk) : (s.setClk f).per = s.per := rfl
@[simp] theorem State.setClk_tag (s : State) (f : Clk → Clk) : (s.setClk f).tag = s.tag := rfl
@[simp] theorem State.setClk_mrc (s : State) (f : Clk → Clk) : (s.setClk f).mrc = s.mrc := rfl
@[simp] theorem State.setClk_sec (s : State) (f : Clk → Clk) : (s.setClk f).sec = s.sec := rfl
@[simp] theorem State.setClk_pal (s : State) (f : Clk → Clk) : (s.setClk f).pal = s.pal := rfl
@[simp] theorem State.setClk_lnk (s : State) (f : Clk → Clk) : (s.setClk f).lnk = s.lnk := rfl
@[simp] theorem State.setClk_cpus (s : State) (f : Clk → Clk) : (s.setClk f).cpus = s.cpus := rfl
@[simp] theorem State.setClk_cas (s : State) (f : Clk → Clk) : (s.setClk f).cas = s.cas := rfl
@[simp] theorem State.setClk_upd (s : State) (f : Clk → Clk) : (s.setClk f).upd = s.upd := rfl
@[simp] theorem State.setClk_booted (s : State) (f : Clk → Clk) : (s.setClk f).booted = s.booted := rfl
@[simp] theorem State.setClk_testmode (s : State) (f : Clk → Clk) : (s.setClk f).testmode = s.testmode := rfl
@[simp] theorem State.setClk_inReset (s : State) (f : Clk → Clk) : (s.setClk f).inReset = s.inReset := rfl
@[simp] theorem State.setClk_vio (s : State) (f : Clk → Clk) : (s.setClk f).vio = s.vio := rfl
@[simp] theorem State.setClk_resetDue (s : State) (f : Clk → Clk) : (s.setClk f).resetDue = s.resetDue := rfl
@[simp] theorem State.setClk_pending (s : State) (f : Clk → Clk) : (s.setClk f).pending = s.pending := rfl

end Sys2Proof.Machine
end

