-- ==== Sys2Proof/Laws/Memory.lean ====
section
/-! SUPPORT. What memory reads after octets are written: the written ones, and every other as before. -/

namespace Sys2Proof.Machine

-- one proof at a time: the file holds many small ones
set_option Elab.async false

theorem State.setOctet_unwritten (s : State) (k : Nat) (b : Byte) (j : Nat) : (s.setOctet k b).unwritten j = s.unwritten j := by
  unfold State.setOctet
  split <;> rfl

/-- An octet reads what was written, where memory is held in its canonical form. -/
theorem State.octet_setOctet (s : State) (k : Nat) (b : Byte) (h : Memory.wf s = true) : (s.setOctet k b).octet k = b := by
  have hr : Sparse.rising s.mem = true := by
    unfold Memory.wf at h
    rw [Bool.and_eq_true] at h
    exact h.1
  unfold State.octet
  rw [State.setOctet_unwritten]
  unfold State.setOctet
  split
  · exact Sparse.get_set _ _ _ _ hr
  · exact Sparse.get_insert _ _ _ _

/-- Every other octet reads as before. -/
theorem State.octet_setOctet_ne (s : State) {k j : Nat} (b : Byte) (h : j ≠ k) : (s.setOctet k b).octet j = s.octet j := by
  unfold State.octet
  rw [State.setOctet_unwritten]
  unfold State.setOctet
  split
  · exact Sparse.get_set_ne _ _ _ _ h
  · exact Sparse.get_insert_ne _ _ _ h

/-- An octet of a bank or of AON SRAM lies under no key of a DRAM device. -/
theorem State.dramOctet_setOctet (s : State) {k : Nat} (b : Byte) (h : k < 0x200000000) (a : Nat) :
    (s.setOctet k b).dramOctet a = s.dramOctet a := by
  have hr : (s.setOctet k b).regs = s.regs := State.setOctet_regs s k b
  have reg : ∀ p i o, (s.setOctet k b).reg p i o = s.reg p i o := fun p i o => by
    unfold State.reg
    rw [hr]
  have cfg : (s.setOctet k b).dramCfg = s.dramCfg := by
    unfold State.dramCfg State.fieldOf
    simp only [reg]
  have rank : ∀ r d, (s.setOctet k b).readRank r d = s.readRank r d := fun r d => by
    unfold State.readRank State.rkState State.rkPartner State.fieldOf
    simp only [reg]
  unfold State.dramOctet
  rw [cfg]
  dsimp only
  rw [rank]
  refine State.octet_setOctet_ne s b ?_
  unfold dramKey
  omega

/-- An octet of SRAM or AON SRAM is written: it reads so, every other octet reads as before, and the state stays sound. -/
theorem State.memOctet_putOctet (s : State) (a : Nat) (b : Byte) (h : s.wf = true)
    (ha : (0x10000000 ≤ a ∧ a < 0x10200000) ∨ (0x18000000 ≤ a ∧ a < 0x18002000)) :
    (s.putOctet a b).memOctet a = b ∧ (∀ x, x ≠ a → (s.putOctet a b).memOctet x = s.memOctet x) ∧
      (s.putOctet a b).wf = true := by
  have hr : (∃ k, regionOf a = .sram k) ∨ regionOf a = .aon := by
    unfold regionOf
    rcases ha with ha | ha
    · left
      rw [if_neg (by omega), if_neg (by omega), if_pos (by omega)]
      exact ⟨_, rfl⟩
    · right
      rw [if_neg (by omega), if_neg (by omega), if_neg (by omega), if_pos (by omega)]
  have e : s.putOctet a b = s.setOctet a b := by
    unfold State.putOctet
    rcases hr with ⟨k, hr⟩ | hr <;> rw [hr]
  rw [e]
  refine ⟨?_, fun x hx => ?_, (State.setOctet_within s a b).wf h⟩
  · unfold State.memOctet
    rcases hr with ⟨k, hr⟩ | hr <;> rw [hr] <;> exact State.octet_setOctet s a b (State.wf_mem h)
  · unfold State.memOctet
    split
    · rfl
    · rw [show (s.setOctet a b).flashTooFast = s.flashTooFast from by unfold State.setOctet; split <;> rfl,
        show (s.setOctet a b).freeCtr = s.freeCtr from by unfold State.setOctet; split <;> rfl, State.octet_setOctet_ne s b hx]
    · exact State.dramOctet_setOctet s b (by omega) _
    · rfl
    · exact State.octet_setOctet_ne s b hx

end Sys2Proof.Machine
end

