-- ==== Sys2Proof/Laws/Records.lean ====
section
/-! SUPPORT. What the shared operations over registers and domains leave in them: the error record, the events, the requests and
the wakes of domains. -/

namespace Sys2Proof.Machine

-- one proof at a time: the file holds many small ones
set_option Elab.async false

/-! ### Errors (R54) -/

theorem bits_word (n hi lo : Nat) (h : n < 4294967296) : bits (word n) hi lo = n / 2^lo % 2 ^ (hi + 1 - lo) := by
  unfold bits; rw [word_toNat_lt n h, Nat.shiftRight_eq_div_pow]

theorem event_reg (s : State) (page b i o : Nat) (h : o % 0x1000 ≠ 0x10) : (s.event page b).reg page i o = s.reg page i o := by
  unfold State.event State.interrupt
  have key : ((s.setReg page 0 0x010 (s.reg page 0 0x010 ||| word (2 ^ b)))).reg page i o = s.reg page i o :=
    State.reg_setReg_ne _ _ (by omega)
  dsimp only
  split
  · exact key
  · exact key

theorem setReg_regsWf (s : State) (p i o : Nat) (v : Word) (h : s.regsWf = true) : (s.setReg p i o v).regsWf = true :=
  Sparse.rising_set _ _ _ h

theorem raise_code (s : State) (page : Nat) (ini : Initiator) (off detail code : Nat) (h : s.wf = true) :
    (s.raise page ini off detail code).reg page 0 0x020 = word (satInc 8 (bits (s.reg page 0 0x020) 23 16) * 0x10000 + code) := by
  unfold State.raise
  dsimp only
  rw [event_reg _ _ _ _ _ (by decide), State.reg_setReg_ne _ _ (by omega), State.reg_setReg _ _ _ _ _ (State.wf_regs h)]

theorem raise_info (s : State) (page : Nat) (ini : Initiator) (off detail code : Nat) (h : s.wf = true) :
    (s.raise page ini off detail code).reg page 0 0x024 = word (ini.id * 0x20000000 + off % 0x1000 * 0x10000 + detail % 0x10000) := by
  unfold State.raise
  dsimp only
  rw [event_reg _ _ _ _ _ (by decide), State.reg_setReg _ _ _ _ _ (setReg_regsWf _ _ _ _ _ (State.wf_regs h))]

theorem raise_ne (s : State) (page : Nat) (ini : Initiator) (off detail code : Nat) (i o : Nat) (h : o % 0x1000 ≠ 0x10) (h2 : o % 0x1000 ≠ 0x20) (h3 : o % 0x1000 ≠ 0x24) :
    (s.raise page ini off detail code).reg page i o = s.reg page i o := by
  unfold State.raise
  dsimp only
  rw [event_reg _ _ _ _ _ h, State.reg_setReg_ne _ _ (by omega), State.reg_setReg_ne _ _ (by omega)]

theorem Initiator_id_lt (ini : Initiator) : ini.id < 8 := by cases ini <;> decide

theorem bits_lt {n : Nat} (w : BitVec n) (hi lo : Nat) : bits w hi lo < 2 ^ (hi + 1 - lo) := Nat.mod_lt _ (Nat.two_pow_pos _)

/-! ### Fields and requests -/

theorem and30_54 (w : Word) : bits (w &&& 0x30) 5 4 = bits w 5 4 := by
  apply Nat.eq_of_testBit_eq
  intro i
  rw [testBit_bits, testBit_bits, BitVec.getLsbD_and]
  by_cases h : i < 5 + 1 - 4
  · have : i = 0 ∨ i = 1 := by omega
    rcases this with rfl | rfl <;> simp
  · simp [h]

theorem setField_wf {s : State} {page q off hi lo v : Nat} (h : s.wf = true) : (s.setField page q off hi lo v).wf = true :=
  (State.setReg_within ..).wf h

theorem setField_fieldOf (s : State) (page q off hi lo v p' q' o' hi' lo' : Nat) (h : s.wf = true) (hq : q < 0x100000) (hq' : q' < 0x100000) (ho : off < 0x1000)
    (ho' : o' < 0x1000) (hh : hi < 32) (hh' : hi' < 32) :
    (s.setField page q off hi lo v).fieldOf p' q' o' hi' lo' = if p' = page ∧ q' = q ∧ o' = off then bits (setBits (s.reg page q off) hi lo v) hi' lo' else s.fieldOf p' q' o' hi' lo' := by
  unfold State.fieldOf State.setField
  split
  · rename_i hk
    obtain ⟨rfl, rfl, rfl⟩ := hk
    rw [State.reg_setReg _ _ _ _ _ (State.wf_regs h)]
  · rename_i hk
    rw [State.reg_setReg_ne _ _ (fun hk' => hk ⟨hk'.1, by omega, by omega⟩)]

theorem ctrlSet_lt (d : Nat) : ctrlSet d < 0x100000 := by unfold ctrlSet; split <;> simp_all <;> omega

theorem dreq_congr {s t : State} (h : ∀ p q, q < 0x100000 → s.fieldOf p q 0x008 5 4 = t.fieldOf p q 0x008 5 4)
   (h2 : ∀ d, s.fieldOf Pg.pwr d 0x100 5 4 = t.fieldOf Pg.pwr d 0x100 5 4) (d : Nat) : s.dreq d = t.dreq d := by
  unfold State.dreq
  have : (fun a p => dreqMax a (s.fieldOf p (ctrlSet d) 0x008 5 4)) = (fun a p => dreqMax a (t.fieldOf p (ctrlSet d) 0x008 5 4)) := by
    funext a p; rw [h _ _ (ctrlSet_lt d)]
  rw [this, h2]

theorem keep_dreq (s : State) (page q en : Nat) (h : s.wf = true) (hq : q < 0x100000) (d : Nat) :
    ((s.setField page q 0x008 5 4 (bits (s.reg page q 0x008) 5 4)).setField page 0 0x008 0 0 en).dreq d = s.dreq d := by
  apply dreq_congr
  · intro p q' hq'
    rw [setField_fieldOf _ _ _ _ _ _ _ _ _ _ _ _ (setField_wf h) (by decide) hq' (by decide) (by decide) (by decide) (by decide)]
    have key : (s.setField page q 0x008 5 4 (bits (s.reg page q 0x008) 5 4)).fieldOf p q' 8 5 4 = s.fieldOf p q' 8 5 4 := by
      rw [setField_fieldOf _ _ _ _ _ _ _ _ _ _ _ _ h hq hq' (by decide) (by decide) (by decide) (by decide)]
      split
      · rename_i hk
        obtain ⟨rfl, rfl, -⟩ := hk
        rw [bits_setBits _ _ _ _ (by decide), Nat.mod_eq_of_lt]
        · rfl
        · unfold bits; apply Nat.mod_lt; decide
      · rfl
    split
    · rename_i hk
      obtain ⟨rfl, rfl, -⟩ := hk
      rw [bits_setBits_ne _ _ _ _ _ _ (by decide) (by decide)]
      exact key
    · exact key
  · intro d
    unfold State.fieldOf State.setField
    rw [State.reg_setReg_ne _ _ (by simp), State.reg_setReg_ne _ _ (by simp)]

theorem accessed_variant (s : State) (ini : Initiator) (page off : Nat)  : (s.accessed ini page off).variant = s.variant := by
  unfold State.accessed State.touch
  split
  · rfl
  · split <;> rfl

/-! ### Wakes -/

theorem dom_setDom (s : State) (d : Nat) (x : Dom) (h : x.wakeReq = true) : (s.setDom d x).dom d = x := by
  unfold State.setDom State.dom Sparse.set
  dsimp only
  have : x ≠ domReset d := by
    intro e; rw [e] at h; revert h; unfold domReset; split <;> exact (by decide)
  rw [if_neg this]
  exact Sparse.get_insert _ _ _ _

theorem wakeOne_keeps (s : State) (n d : Nat) (h : (s.dom d).wakeReq = true) : ((s.wakeOne n).dom d).wakeReq = true := by
  unfold State.wakeOne
  split
  · exact h
  · by_cases e : n = d
    · subst e
      rw [dom_setDom _ _ _ rfl]
    · unfold State.setDom State.dom at *
      dsimp only
      rw [Sparse.get_set_ne _ _ _ _ (fun q => e q.symm)]
      exact h

theorem wakeFold_keeps (d : Nat) (l : List Nat) (u : State) (h : (u.dom d).wakeReq = true) :
    ((l.foldl (fun s n => let x := s.dom n; if n == Dm.per || x.st == .off || (x.phase != .none && x.target == .off) then s.wakeOne n else s) u).dom d).wakeReq = true := by
  induction l generalizing u with
  | nil => exact h
  | cons n l ih =>
    refine ih _ ?_
    dsimp only
    split
    · exact wakeOne_keeps _ _ _ h
    · exact h

theorem wake_keeps (s : State) (n d : Nat) (h : (s.dom d).wakeReq = true) : ((s.wake n).dom d).wakeReq = true :=
  wakeFold_keeps d _ _ (wakeOne_keeps _ _ _ h)

theorem wake_asks (s : State) (d : Nat) (hp : domPresent s.variant d = true) (h : s.domOn d = false) : ((s.wake d).dom d).wakeReq = true := by
  refine wakeFold_keeps d _ _ ?_
  unfold State.wakeOne
  rw [if_neg (by simp [h, hp]), dom_setDom _ _ _ rfl]

theorem wake_regs (s : State) (d : Nat) : (s.wake d).regs = s.regs ∧ (s.wake d).mem = s.mem ∧ (s.wake d).stalls = s.stalls := by
  have one : ∀ (s : State) d, (s.wakeOne d).regs = s.regs ∧ (s.wakeOne d).mem = s.mem ∧ (s.wakeOne d).stalls = s.stalls := by
    intro s d; unfold State.wakeOne; split
    · exact ⟨rfl, rfl, rfl⟩
    · exact ⟨rfl, rfl, rfl⟩
  unfold State.wake
  generalize needs d = l
  suffices h : ∀ (l : List Nat) (u : State), u.regs = s.regs ∧ u.mem = s.mem ∧ u.stalls = s.stalls →
      let r := l.foldl (fun s n => let x := s.dom n; if n == Dm.per || x.st == .off || (x.phase != .none && x.target == .off) then s.wakeOne n else s) u
      r.regs = s.regs ∧ r.mem = s.mem ∧ r.stalls = s.stalls from h l _ (one s d)
  intro l
  induction l with
  | nil => intro u h; exact h
  | cons n l ih =>
    intro u h
    refine ih _ ?_
    dsimp only
    split
    · obtain ⟨a, b, c⟩ := one u n
      exact ⟨a.trans h.1, b.trans h.2.1, c.trans h.2.2⟩
    · exact h

end Sys2Proof.Machine
end

