-- ==== Sys2Proof/Tests/Fixture.lean ====
section
/-! SUPPORT. Small states that the tests start from, each a few fields away from the state after reset. -/

namespace Sys2Proof.Tests

open Sys2Proof Sys2Proof.Machine

/-- Every domain ON and every clock running. -/
def lit : State :=
  { allDomains.foldl (fun s d => s.setDom d { st := .on }) State.reset with
    clk := { refOk := true, sysLock := true, dramLock := true, ethLock := true, xtalOk := true, started := true }
    booted := true }

/-- Registers of set 0 of a page, by offset. -/
def regsOf (s : State) (page : Nat) (rs : List (Nat × Word)) : State := rs.foldl (fun s r => s.setReg page 0 r.1 r.2) s

/-- One DRAM rank is mapped and ONLINE. -/
def dramed (s : State) : State := ((s.setReg Pg.drc 0 Dc.rkCfg 0x80000000).setRk 0 Rk.online 0).setCh 0 Chn.online 0

/-- The receive loop is locked and channel 0 is enabled with slot 0 of its search set. -/
def wide : State :=
  { regsOf (regsOf lit Pg.phy [(0xB00, 1)]) Pg.chz [(0x008, 1), (0x100, 0x80000000), (0x104, 0x80)] with
    syn := { rxLocked := true } }

/-- The narrow path dwells on entry 0 of its list. -/
def narrow : State :=
  { regsOf lit Pg.phy [(0xB00, 2), (0xB10, 1), (0xB14, 0x80), (0xB20, 0x81000000)] with
    syn := { rxLocked := true }, recv := { nb := { phase := .dwell } } }

/-- A lane as claimed on channel 0, and its entry's limit of 127 octets. -/
def lane0 : Lane :=
  { no := 0, chan := 0, hyp := 0, entry := 0, mod := 0x01000000, det := 127, ts := 0, afc := 0, tail := 0, hring := 0, lnk := false,
    crcrep := true, path := 0, epoch := 0, ant := 0, antNow := 0, nf := 0 }

/-- Lane 0 holds `l`. -/
def receiving (l : Lane) (s : State := wide) : State :=
  (s.setChan 0 { st := .claimed, lane := 0 }).setLane 0 (some l)

/-- Work ring 0 of `unit`, owned by C0, with one entry to fetch, and its tailrace ring 0. -/
def ringed (unit : Nat) : State :=
  regsOf (lit.setReg unit 0 0x008 1) Pg.flm
    [(Fl.wrBase, 0x10000000), (Fl.wrCfg, word (0x80002004 + unit * 0x10000)), (Fl.wrProd, 1), (Fl.wrCredit, 0x00080001),
     (Fl.trBase, 0x10001000), (Fl.trCfg, 0x80000004)]

/-- An entry of ring 0: the opcode of word 0, and the words that follow it. -/
def entry (unit op : Nat) (ws : List Word := []) : Item :=
  { id := 0, ring := 0, slot := 0, unit, words := word (op * 0x1000000) :: ws, st := .active }

/-- The in-flight table holds one entry. -/
def holding (i : Item) (s : State := ringed i.unit) : State := { s with flm := { s.flm with ift := [i] } }

/-- A transmission in LNK's schedule. -/
def job0 : TxJob :=
  { item := 0, wake := false, txcfg := 0, ackcfg := 0, lbtcfg := 0, guardcfg := 0, ctx := none, entry := 0, mod := 0x01000000, tx := 0,
    store := 0x1FF, freq := 863000, level := none, secure := false, ackreq := false, lbt := false, sleepy := false, mpdu := [1, 2, 3] }

/-- TXA holds the job's frame. -/
def sending (j : TxJob) (st : TxSt) : State :=
  { holding (entry Pg.lnk 1) with
    lnk := { jobs := [j] }, txa := { st, cur := some (.item 0) }, syn := { txLocked := true } }

/-- Octets stand in memory from an address on. -/
def stored (a : Nat) (bs : List Byte) (s : State) : State := (s.putOctets a bs).1

/-! ### Reads and writes of units, as checks that can be evaluated -/

def readsB (s : State) (a n : Nat) (bs : List Byte) (t : State) : Bool :=
  match s.unitRead a n with
  | (u, .ok os _) => decide (u = t) && decide (knownBytes os = some bs)
  | _ => false
theorem reads_of {s t : State} {a n : Nat} {bs : List Byte} (h : readsB s a n bs t = true) : s.reads a n bs t := by
  unfold readsB at h
  split at h
  · rename_i u os e hu
    simp only [Bool.and_eq_true, decide_eq_true_eq] at h
    exact ⟨os, e, by rw [hu, h.1], h.2⟩
  · cases h

theorem writes_ready {s : State} {a : Nat} {bs : List Byte} (h : s.rangeStatus a bs.length = .ready) :
    s.writes a bs (s.putOctets a bs).1 := ⟨(s.putOctets a bs).2, by simp only [State.unitWrite, h]⟩

theorem keyTurn_of {s t : State} {op k : Nat} {i : Item} {b : List Byte}
    (h : s.item k = some i ∧ i.unit = Pg.pal ∧ i.opcode = op ∧ i.st = .active ∧ i.result = none ∧ i.timed = false ∧
      s.sec.puf.isSome = true ∧ s.ready Dm.sec = true ∧ s.pal.erases.any (fun e => e.2 == k) = false ∧
      readsB s i.addrA 32 b t = true ∧ t.palMay i true = true) : s.keyTurn op k i b t := by
  obtain ⟨h1, h2, h3, h4, h5, h6, h7, h8, h9, h10, h11⟩ := h
  unfold State.keyTurn
  exact ⟨h1, h2, h3, h4, h5, fun h => absurd h (by simp [h6]), h7, h8, h9, reads_of h10, h11⟩

theorem bytesLE_length (n : Nat) : ∀ x, (bytesLE n x).length = n := by
  induction n with
  | zero => intro x; rfl
  | succ n ih => intro x; simp [bytesLE, ih]

theorem sign_length (s : State) (p : Nat) (m : List Byte) : (s.unitSign p m).1.length = 64 := by
  simp [State.unitSign, Crypto.ecdsaSign, bytesBE, bytesLE_length]

theorem key_length (d : Nat) : (Crypto.publicKey d).length = 64 := by
  simp [Crypto.publicKey, bytesBE, bytesLE_length]

theorem foldl_length {α β : Type} (f : List β → α → List β) (n : Nat) (h : ∀ v x, v.length = n → (f v x).length = n) :
    ∀ (l : List α) (v : List β), v.length = n → (l.foldl f v).length = n := by
  intro l
  induction l with
  | nil => intro v hv; exact hv
  | cons x l ih => intro v hv; exact ih _ (h v x hv)

theorem shaRound_length (v : List Word) (x : Word × Word) (h : v.length = 8) : (Crypto.shaRound v x).length = 8 := by
  unfold Crypto.shaRound
  split
  · rfl
  · exact h

theorem sha256_length (m : List Byte) : (Crypto.sha256 m).length = 32 := by
  have hb : ∀ (v : List Word) (b : List Byte), v.length = 8 → (Crypto.shaBlock v b).length = 8 := by
    intro v b hv
    simp only [Crypto.shaBlock, List.length_map, List.length_zip, foldl_length _ 8 shaRound_length _ _ hv, hv, Nat.min_self]
  have h8 := foldl_length Crypto.shaBlock 8 hb
    (Crypto.blocks 64 (m.length / 64 + 2) (m ++ [0x80] ++ List.replicate ((119 - m.length % 64) % 64) 0 ++ bytesBE 8 (8 * m.length)))
    Crypto.shaInit rfl
  unfold Crypto.sha256
  simp only [List.length_flatten, List.map_map]
  have : (List.length ∘ fun (w : Word) => bytesBE 4 w.toNat) = fun _ => 4 := by funext w; simp [bytesBE, bytesLE_length]
  rw [this, List.map_const', h8]
  rfl

theorem dirOctets_length (seq mask : Nat) (nand : Bool) (vs : List Nat) (h : vs.length = 4) : (dirOctets seq mask nand vs).length = 64 := by
  have : vs.flatMap (bytesLE 4) = vs.flatMap (bytesLE 4) ∧ (vs.flatMap (bytesLE 4)).length = 16 := by
    match vs, h with
    | [a, b, c, d], _ => simp [bytesLE_length]
  simp only [dirOctets, List.length_append, sha256_length, bytesLE_length, this.2]

theorem rangeStatus_ready {s : State} {a n : Nat} (h : ∀ w ∈ wordsOfRange a n, s.memStatus w = .ready) : s.rangeStatus a n = .ready := by
  unfold State.rangeStatus
  generalize wordsOfRange a n = ws at h
  induction ws with
  | nil => rfl
  | cons w ws ih =>
    simp only [List.map_cons, List.foldl_cons, h w List.mem_cons_self, if_true]
    exact ih (fun x hx => h x (List.mem_cons_of_mem _ hx))

theorem wordsOfRange_mem {a n w : Nat} (h : w ∈ wordsOfRange a n) : a / 8 * 8 ≤ w ∧ w < a + n := by
  unfold wordsOfRange at h
  split at h
  · cases h
  · simp only [List.mem_map, List.mem_range] at h
    obtain ⟨k, h1, rfl⟩ := h
    omega

/-- The first bank of flash answers when FLC is ON and has nothing in hand. -/
theorem flash_ready {s : State} {a n : Nat} (ha : 0x08000000 ≤ a) (hb : a + n ≤ 0x08200000) (h : s.ready Dm.flc = true)
    (hq : s.flashBankBusy 0 = false) (hi : s.flc.intent = none) : s.rangeStatus a n = .ready :=
  rangeStatus_ready (fun w hw => by
    have := wordsOfRange_mem hw
    have hr : regionOf w = .flash := by
      unfold regionOf
      rw [if_neg (by omega), if_pos (by omega)]
    have hz : (w - 0x08000000) / 0x200000 = 0 := by omega
    simp [State.memStatus, hr, h, hz, hq, hi])

theorem regionOf_aon {w : Nat} (ha : 0x18000000 ≤ w) (hb : w < 0x18002000) : regionOf w = .aon := by
  unfold regionOf
  rw [if_neg (by omega), if_neg (by omega), if_neg (by omega), if_pos (by omega)]

/-- A read of AON SRAM gives the stored octets. -/
theorem reads_aon {s : State} {a n : Nat} (ha : 0x18000000 ≤ a) (hb : a + n ≤ 0x18002000) :
    s.reads a n ((List.range n).map (fun k => s.memOctet (a + k))) s := by
  have hw : ∀ w ∈ wordsOfRange a n, regionOf w = .aon := by
    intro w h
    have := wordsOfRange_mem h
    exact regionOf_aon (by omega) (by omega)
  have hr : s.rangeStatus a n = .ready := rangeStatus_ready (fun w h => by simp only [State.memStatus, hw w h])
  have hc : ∀ (ws : List Nat) (p : State × EccSum), (∀ w ∈ ws, regionOf w = .aon) →
      ws.foldl (fun (p : State × EccSum) w => p.1.checkMem w false p.2) p = p := by
    intro ws
    induction ws with
    | nil => intro p _; rfl
    | cons w ws ih =>
      intro p h
      simp only [List.foldl_cons, State.checkMem, h w List.mem_cons_self]
      exact ih p (fun x hx => h x (List.mem_cons_of_mem _ hx))
  refine ⟨s.octetsAt a n [], {}, ?_, ?_⟩
  · simp only [State.unitRead, hr, hc _ (s, {}) hw]
  · unfold State.octetsAt knownBytes
    simp only [List.contains_nil, Bool.false_eq_true, if_false]
    induction List.range n with
    | nil => rfl
    | cons k l ih => simp [List.map_cons, List.mapM_cons, ih]

/-- The same, in terms of a state that holds the same octets. -/
theorem reads_aon_of {s u : State} {a n : Nat} (ha : 0x18000000 ≤ a) (hb : a + n ≤ 0x18002000) (hm : s.mem = u.mem) (hl : s.lost = u.lost) :
    s.reads a n ((List.range n).map (fun k => u.memOctet (a + k))) s := by
  have : (List.range n).map (fun k => s.memOctet (a + k)) = (List.range n).map (fun k => u.memOctet (a + k)) :=
    List.map_congr_left (fun k hk => by
      have := List.mem_range.mp hk
      simp only [State.memOctet, regionOf_aon (show 0x18000000 ≤ a + k by omega) (by omega), State.octet, State.unwritten, hm, hl])
  rw [← this]
  exact reads_aon ha hb

end Sys2Proof.Tests
end

