-- ==== Sys2Proof/Tests/Easel.lean ====
section
/-! SUPPORT. The hypotheses of the completion statements of the tag and of the tag reader are met. -/

set_option Elab.async false
set_option linter.unusedVariables false

namespace Sys2Proof.Tests

open Sys2Proof Sys2Proof.Machine

/-- The tag's system record, valid in its first frame. -/
def tagged (st : TagSt) (y : TagSys := {}) (t : Tag := {}) : State :=
  { lit with tag := { t with st, sys := { a := { mark := .valid, seq := 1, body := some y, crcOk := true } } } }

/-- A reader item: its field may come up, and `sess` is the session. -/
def tagEntry (op a b n : Nat) (flags : Nat := 0) : Item :=
  { entry Pg.tag op [] with words := [word (op * 0x1000000 + flags), word a, word b, word n, 0, 0, 0, 0] }
def reading (i : Item) (sess : Nat := 1) : State :=
  { holding i ((ringed Pg.tag).setReg Pg.tag 0 0x800 0x80000000) with tag := { sess, own := true } }
/-- One reply of status OK with data, as it stands on the air. -/
def one (data : List Byte) : List UpReply := [⟨upFrame (frameBits (0 :: data)), 0⟩]
theorem one_answered (s : State) (data : List Byte) (n : Nat) : s.answered (one data) n data { exchanges := n + 1 } := by
  refine ⟨n + 1, 0, Or.inl ⟨?_, rfl⟩⟩
  show exchange (_ + 1) [replyAnswer _] n 0 = _
  rw [replyAnswer_frame]
  rfl

/-- Page 3 holds an AES-128 key in handle 5 and SEC is ready. -/
def keyed (i : Item) : State :=
  { reading i with
    sec := { puf := some true, otp := { life := 3 } }
    pal := { pages := [(3, .owned .c0)], keys := [(keyNo 3 5, some ⟨0, 63, List.replicate 16 1⟩)] } }
/-- The right answer to AUTH1, with RB of zeros. -/
def rightTag (s : State) : List Byte := tagAuth (List.replicate 16 1) (s.random 8).1 (List.replicate 8 0)
theorem padTo_length (l : List Byte) (n : Nat) (h : l.length = n) : padTo n l = l := by
  subst h; simp [padTo]
theorem rightTag_length : (rightTag (keyed (tagEntry 4 0 5 0x03000000))).length = 8 := by decide +kernel

theorem fits_TagRoleCompletes_1 : ∃ (vbat : Bool) (decayed : List (Nat × Bool)) (s : State),
  s.tag.field = false :=
  ⟨true, [], tagged .off { role := true }, by decide +kernel⟩

theorem fits_TagRoleCompletes_3 : ∃ (s : State),
  s.tag.field = false ∧ s.tag.lockout = true :=
  ⟨tagged .off {} { lockout := true }, by decide +kernel, by decide +kernel⟩

theorem fits_TagRoleCompletes_4 : ∃ (n : Nat) (pre : List Byte) (s : State),
  s.tag.own = false ∧ s.tag.st = .ready ∧ n ≤ 64 ∧ (idBits s.tagSys.id).take n = (idBits pre).take n :=
  ⟨64, List.replicate 8 0xFF, tagged .ready, by decide +kernel, by decide +kernel, by decide +kernel, by decide +kernel⟩

theorem fits_TagRoleCompletes_5 : ∃ (id : List Byte) (s : State),
  s.tag.own = false ∧ s.tag.st ≠ .off ∧ s.tag.st ≠ .quiet :=
  ⟨[], tagged .opened, by decide +kernel, by decide +kernel, by decide +kernel⟩

theorem fits_TagRoleCompletes_6 : ∃ (pw : List Byte) (s : State),
  s.tag.own = false ∧ s.tag.st = .opened ∧ s.tag.lockout = false :=
  ⟨[], tagged .opened, by decide +kernel, by decide +kernel, by decide +kernel⟩

theorem fits_TagRoleCompletes_7 : ∃ (ra k : List Byte) (s : State),
  s.tag.own = false ∧ s.tag.st = .opened ∧ s.tag.lockout = false ∧ s.tagSys.key = some k :=
  ⟨[], List.replicate 16 1, tagged .opened { key := (some (List.replicate 16 1)) }, by decide +kernel, by decide +kernel, by decide +kernel, by decide +kernel⟩

theorem fits_TagRoleCompletes_8 : ∃ (tr ra rb k : List Byte) (s : State),
  s.tag.own = false ∧ s.tag.st = .opened ∧ s.tag.held = some (ra, rb) ∧ s.tagSys.key = some k :=
  ⟨[], [], [], List.replicate 16 1, tagged .opened { key := (some (List.replicate 16 1)) } { held := some ([], []) }, by decide +kernel, by decide +kernel, by decide +kernel, by decide +kernel⟩

theorem fits_TagRoleCompletes_9 : ∃ (record offset length : Nat) (decayed : List (Nat × Bool)) (s : State),
  let u := s.decay decayed
  let v := u.setTag (fun t => { t with held := none })
  u.tag.own = false ∧ (u.tag.st = .opened ∨ u.tag.st = .secured) ∧ 1 ≤ length ∧ length ≤ 128 ∧ offset + length ≤ 128 :=
  ⟨255, 0, 128, [], tagged .opened, by decide +kernel, by decide +kernel, by decide +kernel, by decide +kernel, by decide +kernel⟩

theorem fits_TagRoleCompletes_10 : ∃ (record : Nat) (data : List Byte) (how : TagWrite) (s : State),
  s.tag.own = false ∧ (s.tag.st = .opened ∨ s.tag.st = .secured) ∧ data.length = 128 ∧ record < 64 ∧
  s.needsSecured record = false ∧ protBit s.tagSys.fprot0 s.tagSys.fprot1 record = false :=
  ⟨63, List.replicate 128 1, ⟨0, 0, none⟩, tagged .opened, by decide +kernel, by decide +kernel, by decide +kernel, by decide +kernel, by decide +kernel, by decide +kernel⟩

theorem fits_TagRoleCompletes_11 : ∃ (s : State),
  s.tag.own = false ∧ (s.tag.st = .opened ∨ s.tag.st = .secured) :=
  ⟨tagged .opened, by decide +kernel, by decide +kernel⟩

theorem fits_TagRoleCompletes_12 : ∃ (s : State) (b : Byte),
  s.tag.wreply = some b :=
  ⟨tagged .opened {} { wreply := some 0 }, 0, by decide +kernel⟩

theorem fits_TagRoleCompletes_13 : ∃ (s : State) (r : Nat),
  s.domOn Dm.tag = true ∧ bit (s.tagReg 0x83C) 31 = true ∧
  (List.range 64).find? (fun r => Sparse.get false s.tag.dirty r && !Sparse.get false s.tag.posted r) = some r :=
  ⟨{ (tagged .off {} { dirty := [(63, true)] }).setReg Pg.tag 0 0x83C 0x80000000 with }, 63, by decide +kernel, by decide +kernel, by decide +kernel⟩

theorem fits_TagItemsComplete_1 : ∃ (k : Nat) (foreign : Bool) (answers : List UpReply) (flips : List Flip) (s t a : State) (i : Item) (block : List Byte),
  let u := s.applyFlips flips
  u.tagItem 1 k = some i ∧ i.length % 16 = 0 ∧ u.rangeStatus i.addrB i.length = .ready ∧ u.reads i.addrA 16 block t ∧ 
  let n := (block.headD 0).toNat
  n ≤ 64 ∧ t.fieldFor foreign = some a :=
  ⟨0, false, [], [], reading (tagEntry 1 0x10002000 0x10003000 16 0) 1, ((reading (tagEntry 1 0x10002000 0x10003000 16 0) 1).unitRead 0x10002000 16).1, ((reading (tagEntry 1 0x10002000 0x10003000 16 0) 1).unitRead 0x10002000 16).1, tagEntry 1 0x10002000 0x10003000 16 0, List.replicate 16 0, by decide +kernel, by decide +kernel, by decide +kernel, reads_of (by decide +kernel), by decide +kernel, by decide +kernel⟩

theorem fits_TagItemsComplete_2 : ∃ (k : Nat) (foreign : Bool) (answers : List UpReply) (flips : List Flip) (s t v : State) (i : Item) (bs data : List Byte) (r : TagRep),
  let u := s.applyFlips flips
  v.answered answers 0 data r ∧ t.fieldFor foreign = some v :=
  ⟨0, false, one [], [], reading (tagEntry 2 0x10002000 0 8 0) 1, reading (tagEntry 2 0x10002000 0 8 0) 1, reading (tagEntry 2 0x10002000 0 8 0) 1, tagEntry 2 0x10002000 0 8 0, [], [], { exchanges := 1 }, one_answered _ _ 0, by decide +kernel⟩

theorem fits_TagItemsComplete_3 : ∃ (k : Nat) (foreign : Bool) (first second : List UpReply) (s v : State) (i : Item) (data data' key : List Byte) (r r' : TagRep),
  s.tagItem 4 k = some i ∧ s.ready Dm.sec = true ∧ s.sec.puf ≠ none ∧ s.engineFree ≠ none ∧ s.tag.sess ≠ 0 ∧
  (s.palKey i.palPage (i.addrB % 64)).any (fun k => k.octets.length != 16) = false ∧ s.sec.healthy = true ∧
  s.fieldFor foreign = some v ∧ lnkPage i.palPage = false ∧ v.palMay i false = true ∧
  v.usable i.palPage (i.addrB % 64) 0 = some key ∧ 
  let ra := (v.random 8).1
  let w := (v.random 8).2
  let rb := padTo 8 data
  w.answered first 0 data r ∧ padTo 8 (data.drop 8) = tagAuth key ra rb ∧ w.answered second r.exchanges data' r' ∧
  r.exchanges ≠ 0 :=
  ⟨0, false, one (List.replicate 8 0 ++ rightTag (keyed (tagEntry 4 0 5 0x03000000))), one [], keyed (tagEntry 4 0 5 0x03000000), keyed (tagEntry 4 0 5 0x03000000), tagEntry 4 0 5 0x03000000, List.replicate 8 0 ++ rightTag (keyed (tagEntry 4 0 5 0x03000000)), [], List.replicate 16 1, { exchanges := 1 }, { exchanges := 2 }, by decide +kernel, by decide +kernel, by decide +kernel, by decide +kernel, by decide +kernel, by decide +kernel, by decide +kernel, by decide +kernel, by decide +kernel, by decide +kernel, by decide +kernel, one_answered _ _ 0, by rw [List.drop_left' (by rfl)]; exact padTo_length _ 8 rightTag_length, one_answered _ _ 1, by decide +kernel⟩

theorem fits_TagItemsComplete_4 : ∃ (k : Nat) (foreign : Bool) (answers : List UpReply) (s v w : State) (i : Item) (data : List Byte) (r : TagRep),
  let off := bits (i.w 1) 7 0
  s.tagItem 5 k = some i ∧ off + i.length ≤ 128 ∧ s.rangeStatus i.addrB i.length = .ready ∧ s.tag.sess ≠ 0 ∧
  s.fieldFor foreign = some v ∧ v.answered answers 0 data r ∧
  State.writes (v.setTag (fun t => { t with sent := [downFrame [0x06, BitVec.ofNat 8 (bits (i.w 1) 15 8), BitVec.ofNat 8 off, BitVec.ofNat 8 i.length]] })) i.addrB (padTo i.length data) w :=
  ⟨0, false, one [7], reading (tagEntry 5 0x0100 0x10003000 16 0) 1, reading (tagEntry 5 0x0100 0x10003000 16 0) 1, _, tagEntry 5 0x0100 0x10003000 16 0, [7], { exchanges := 1 }, by decide +kernel, by decide +kernel, by decide +kernel, by decide +kernel, by decide +kernel, one_answered _ _ 0, writes_ready (by decide +kernel)⟩

theorem fits_TagItemsComplete_5 : ∃ (k : Nat) (foreign : Bool) (s v : State) (i : Item),
  s.tagItem 8 k = some i ∧ s.fieldFor foreign = some v :=
  ⟨0, false, reading (tagEntry 8 0 0 0 0) 1, reading (tagEntry 8 0 0 0 0) 1, tagEntry 8 0 0 0 0, by decide +kernel, by decide +kernel⟩

theorem fits_TagItemsComplete_6 : ∃ (s : State),
  s.flm.ift.any (fun i => i.unit == Pg.tag && i.opcode ≤ 8) = false :=
  ⟨lit, by decide +kernel⟩

theorem fits_TagItemsComplete_7 : ∃ (k : Nat) (how : TagWrite) (flips : List Flip) (s t : State) (i : Item) (b : List Byte),
  let u := s.applyFlips flips
  u.tagItem 16 k = some i ∧ i.length = 80 ∧ u.reads i.addrA 80 b t ∧ 
  let f := leWord b 12
  (bit f 0 = true → b.take 8 ≠ List.replicate 8 0xFF) ∧ (bit f 2 = true → t.ready Dm.sec = true) ∧ 
  let key := if lnkPage i.palPage ∨ !t.palMay i false then none
      else (t.usable i.palPage (i.addrB % 64) 5).filter (fun k => k.length == 16)
  (bit f 2 = true → key ≠ none) :=
  ⟨0, ⟨0, 0, none⟩, [], holding (tagEntry 16 0x10002000 5 0x03000050) (ringed Pg.tag), ((holding (tagEntry 16 0x10002000 5 0x03000050) (ringed Pg.tag)).unitRead 0x10002000 80).1, tagEntry 16 0x10002000 5 0x03000050, List.replicate 80 0, by decide +kernel, by decide +kernel, reads_of (by decide +kernel), by decide +kernel, by decide +kernel, by decide +kernel⟩

theorem fits_TagItemsComplete_8 : ∃ (k : Nat) (decayed : List (Nat × Bool)) (s t : State) (i : Item),
  let u := s.decay decayed
  let n := i.length / 128
  u.tagItem 17 k = some i ∧ i.length % 128 = 0 ∧ i.addrA + n ≤ 65 ∧ u.rangeStatus i.addrB i.length = .ready ∧ 
  let stale := (List.range n).filter (fun k => if i.addrA + k = 64 then u.tag.sys.stale else (u.tagRec (i.addrA + k)).stale)
  let r := State.sreadData n i.addrA (stale.foldl (fun s _ => s.tagStale) u)
  r.2.writes i.addrB r.1 t :=
  ⟨0, [], holding (tagEntry 17 64 0x10003000 128) (ringed Pg.tag), _, tagEntry 17 64 0x10003000 128, by decide +kernel, by decide +kernel, by decide +kernel, by decide +kernel, writes_ready (by decide +kernel)⟩

theorem fits_TagItemsComplete_9 : ∃ (k : Nat) (how : List TagWrite) (flips : List Flip) (s t : State) (i : Item) (bs : List Byte),
  let u := s.applyFlips flips
  let n := i.length / 128
  u.tagItem 18 k = some i ∧ i.length % 128 = 0 ∧ i.addrB + n ≤ 64 ∧ u.reads i.addrA i.length bs t :=
  ⟨0, [⟨0, 0, none⟩], [], holding (tagEntry 18 0x10002000 63 128) (ringed Pg.tag), ((holding (tagEntry 18 0x10002000 63 128) (ringed Pg.tag)).unitRead 0x10002000 128).1, tagEntry 18 0x10002000 63 128, List.replicate 128 0, by decide +kernel, by decide +kernel, by decide +kernel, reads_of (by decide +kernel)⟩

theorem fits_TagRoleCompletes_5_own : ∃ (id : List Byte) (s : State),
  s.tag.own = false ∧ s.tag.st ≠ .off ∧ s.tag.st ≠ .quiet ∧ id = s.tagSys.id :=
  ⟨List.replicate 8 0xFF, tagged .ready, by decide +kernel, by decide +kernel, by decide +kernel, by decide +kernel⟩

theorem fits_TagRoleCompletes_9_info : ∃ (record offset length : Nat) (decayed : List (Nat × Bool)) (s : State),
  let u := s.decay decayed
  let v := u.setTag (fun t => { t with held := none })
  u.tag.own = false ∧ (u.tag.st = .opened ∨ u.tag.st = .secured) ∧ 1 ≤ length ∧ length ≤ 128 ∧ offset + length ≤ 128 ∧
  record = 255 :=
  ⟨255, 0, 128, [], tagged .opened, by decide +kernel, by decide +kernel, by decide +kernel, by decide +kernel, by decide +kernel, by decide +kernel⟩

theorem fits_TagRoleCompletes_9_record : ∃ (record offset length : Nat) (decayed : List (Nat × Bool)) (s : State),
  let u := s.decay decayed
  let v := u.setTag (fun t => { t with held := none })
  u.tag.own = false ∧ (u.tag.st = .opened ∨ u.tag.st = .secured) ∧ 1 ≤ length ∧ length ≤ 128 ∧ offset + length ≤ 128 ∧
  record < 64 ∧ v.needsSecured record = false :=
  ⟨63, 127, 1, [], tagged .opened, by decide +kernel, by decide +kernel, by decide +kernel, by decide +kernel, by decide +kernel, by decide +kernel, by decide +kernel⟩

theorem fits_TagItemsComplete_1_done : ∃ (k : Nat) (foreign : Bool) (answers : List UpReply) (flips : List Flip) (s t a : State) (i : Item) (block : List Byte) (x : State),
  let u := s.applyFlips flips
  u.tagItem 1 k = some i ∧ i.length % 16 = 0 ∧ u.rangeStatus i.addrB i.length = .ready ∧ u.reads i.addrA 16 block t ∧
  let n := (block.headD 0).toNat
  n ≤ 64 ∧ t.fieldFor foreign = some a ∧
  let w := walk a.tagTries (i.length / 16) (2 * answers.length + 2) { stack := [(idBits (block.drop 8)).take n], answers }
  let v := a.setTag (fun t => { t with sent := w.sent })
  w.stack = [] ∧ v.writes i.addrB w.found.flatten x :=
  ⟨0, false, [], [], reading (tagEntry 1 0x10002000 0x10003000 16 0) 1, ((reading (tagEntry 1 0x10002000 0x10003000 16 0) 1).unitRead 0x10002000 16).1, ((reading (tagEntry 1 0x10002000 0x10003000 16 0) 1).unitRead 0x10002000 16).1, tagEntry 1 0x10002000 0x10003000 16 0, List.replicate 16 0, _, by decide +kernel, by decide +kernel, by decide +kernel, reads_of (by decide +kernel), by decide +kernel, by decide +kernel, by decide +kernel, writes_ready (by decide +kernel)⟩

theorem fits_TagItemsComplete_1_more : ∃ (k : Nat) (foreign : Bool) (answers : List UpReply) (flips : List Flip) (s t a : State) (i : Item) (block : List Byte) (p : List Bool) (ps : List (List Bool)) (x : State),
  let u := s.applyFlips flips
  u.tagItem 1 k = some i ∧ i.length % 16 = 0 ∧ u.rangeStatus i.addrB i.length = .ready ∧ u.reads i.addrA 16 block t ∧
  let n := (block.headD 0).toNat
  n ≤ 64 ∧ t.fieldFor foreign = some a ∧
  let w := walk a.tagTries (i.length / 16) (2 * answers.length + 2) { stack := [(idBits (block.drop 8)).take n], answers }
  let v := a.setTag (fun t => { t with sent := w.sent })
  w.stack = p :: ps ∧
  (v.putOctets i.addrA (BitVec.ofNat 8 p.length :: (block.drop 1).take 7 ++ octetsOfBits 8 (p ++ List.replicate (64 - p.length) false))).1.writes i.addrB w.found.flatten x :=
  ⟨0, false, [], [], reading (tagEntry 1 0x10002000 0x10003000 0 0) 1, ((reading (tagEntry 1 0x10002000 0x10003000 0 0) 1).unitRead 0x10002000 16).1, ((reading (tagEntry 1 0x10002000 0x10003000 0 0) 1).unitRead 0x10002000 16).1, tagEntry 1 0x10002000 0x10003000 0 0, List.replicate 16 0, [], [], _, by decide +kernel, by decide +kernel, by decide +kernel, reads_of (by decide +kernel), by decide +kernel, by decide +kernel, by decide +kernel, writes_ready (by decide +kernel)⟩

theorem fits_TagItemsComplete_2_2 : ∃ (k : Nat) (foreign : Bool) (answers : List UpReply) (flips : List Flip) (s t v : State) (i : Item) (bs data : List Byte) (r : TagRep),
  let u := s.applyFlips flips
  v.answered answers 0 data r ∧ t.fieldFor foreign = some v ∧ u.tagItem 2 k = some i ∧ i.length = 8 ∧
  u.reads i.addrA 8 bs t :=
  ⟨0, false, one [], [], reading (tagEntry 2 0x10002000 1 8 0) 1, ((reading (tagEntry 2 0x10002000 1 8 0) 1).unitRead 0x10002000 8).1, reading (tagEntry 2 0x10002000 1 8 0) 1, tagEntry 2 0x10002000 1 8 0, List.replicate 8 0, [], { exchanges := 1 }, one_answered _ _ 0, by decide +kernel, by decide +kernel, by decide +kernel, reads_of (by decide +kernel)⟩

theorem fits_TagItemsComplete_2_3 : ∃ (k : Nat) (foreign : Bool) (answers : List UpReply) (flips : List Flip) (s t v : State) (i : Item) (bs data : List Byte) (r : TagRep),
  let u := s.applyFlips flips
  v.answered answers 0 data r ∧ t.fieldFor foreign = some v ∧ u.tagItem 3 k = some i ∧ i.length = 4 ∧
  u.reads i.addrA 4 bs t ∧ t.tag.sess ≠ 0 :=
  ⟨0, false, one [], [], reading (tagEntry 3 0x10002000 1 4 0) 1, ((reading (tagEntry 3 0x10002000 1 4 0) 1).unitRead 0x10002000 4).1, reading (tagEntry 3 0x10002000 1 4 0) 1, tagEntry 3 0x10002000 1 4 0, List.replicate 4 0, [], { exchanges := 1 }, one_answered _ _ 0, by decide +kernel, by decide +kernel, by decide +kernel, reads_of (by decide +kernel), by decide +kernel⟩

theorem fits_TagItemsComplete_2_6 : ∃ (k : Nat) (foreign : Bool) (answers : List UpReply) (flips : List Flip) (s t v : State) (i : Item) (bs data : List Byte) (r : TagRep),
  let u := s.applyFlips flips
  v.answered answers 0 data r ∧ t.fieldFor foreign = some v ∧ u.tagItem 6 k = some i ∧ i.length = 128 ∧
  u.reads i.addrA 128 bs t ∧ t.tag.sess ≠ 0 :=
  ⟨0, false, one [], [], reading (tagEntry 6 0x10002000 1 128 0) 1, ((reading (tagEntry 6 0x10002000 1 128 0) 1).unitRead 0x10002000 128).1, reading (tagEntry 6 0x10002000 1 128 0) 1, tagEntry 6 0x10002000 1 128 0, List.replicate 128 0, [], { exchanges := 1 }, one_answered _ _ 0, by decide +kernel, by decide +kernel, by decide +kernel, reads_of (by decide +kernel), by decide +kernel⟩

theorem fits_TagItemsComplete_2_7 : ∃ (k : Nat) (foreign : Bool) (answers : List UpReply) (flips : List Flip) (s t v : State) (i : Item) (bs data : List Byte) (r : TagRep),
  let u := s.applyFlips flips
  v.answered answers 0 data r ∧ t.fieldFor foreign = some v ∧ u.tagItem 7 k = some i ∧ u.ready Dm.sec = true ∧
  i.length = 64 ∧ u.reads i.addrA 64 bs t ∧ t.tag.sess ≠ 0 :=
  ⟨0, false, one [], [], keyed (tagEntry 7 0x10002000 1 64 0), ((keyed (tagEntry 7 0x10002000 1 64 0)).unitRead 0x10002000 64).1, keyed (tagEntry 7 0x10002000 1 64 0), tagEntry 7 0x10002000 1 64 0, List.replicate 64 0, [], { exchanges := 1 }, one_answered _ _ 0, by decide +kernel, by decide +kernel, by decide +kernel, by decide +kernel, reads_of (by decide +kernel), by decide +kernel⟩

end Sys2Proof.Tests
end

