-- ==== Sys2Proof/Tests/Ehriq.lean ====
section
/-! SUPPORT. The hypotheses of the statements about the cores are met: core C0 stands at an instruction in SRAM whose
operands lie in SRAM, where P0 points. -/

set_option Elab.async false

namespace Sys2Proof.Tests

open Sys2Proof Sys2Proof.Machine

def via : Fetch := { hit := false, flips := [] }

/-- C0 runs at 0x1000_0000 with P0, P1 at operands, the stack below 0x1000_0800. -/
def core (sw : Word := 0) : State :=
  { lit with cpus := [(2, { st := .run, run := true, ran := true, pc := 0x10000000, sp := 0x10000800, sw
                            p := [0x10000100, 0x10000200, 0, 0, 0, 0, 0, 0] })] }

/-- These octets stand where the core comes next; and the evaluation of their instruction. -/
def at_ (code : List Byte) (s : State := core) : State := stored 0x10000000 code s
def start (code : List Byte) (s : State := core) : Ev :=
  ((at_ code s).begins .c0 via code).getD { s, c := .c0, x := s.cpu .c0, pc := 0 }

/-- The first word of an instruction, by the fields of R279. -/
def spell (opc : Nat) (a b d : BitVec 7) : Word := 0#1 ++ a ++ b ++ 0#1 ++ 1#1 ++ d ++ BitVec.ofNat 8 opc

/-- A specifier that a field allows: (P0) for what may lie in memory. -/
def specOf : Role → BitVec 7
  | .none | .num | .code => 0
  | _ => 8
def formOf (opc : Nat) (h : Shape) (own : Half := 0) : LongForm :=
  { word := spell opc (specOf h.a) (specOf h.b) (specOf h.d), ext := [own], via }

/-- The octets of a form of an opcode. -/
def octets (opc : Nat) (f : LongForm) : List Byte := f.code (((shapeOf opc).getD {}).bytes .c0 f)

/-- The operand can be read or written where its field asks for that. -/
def met (r : Role) (o : Opnd) (e : Ev) : Bool :=
  match r with
  | .src k => e.src k o == .ok 0 e
  | .dst k => e.dst k o == .ok (.mem 0x10000100) e
  | _ => true

/-- The statements that name their operands through a form of the instruction alone: every opcode of the family begins, and its
operands are answered. -/
theorem fits_long : ∀ opc ∈ [0x00, 0x06, 0x0A, 0x0E, 0x12, 0x16, 0x1A, 0x1E, 0x22, 0x26, 0x2A, 0x2E, 0x32, 0x34, 0x35, 0x36, 0x37,
    0x38, 0x39, 0x3A, 0x3C, 0x3D, 0x3E, 0x3F, 0x40, 0x41, 0x42, 0x43, 0x44, 0x45, 0x46, 0x47, 0x48, 0x49, 0x4A, 0x4B, 0x4C, 0x4D,
    0x4E, 0x4F, 0x50, 0x51, 0x58, 0x59, 0x5F, 0x60, 0x62, 0x63, 0x64, 0x65, 0x66, 0x67],
    let h := (shapeOf opc).getD {}
    let f := formOf opc h
    let o := h.opnds f
    let e := start (octets opc f)
    (at_ (octets opc f)).beginsLong .c0 opc f = some (o, e) ∧ o.own = 0 ∧ met h.a o.a e ∧ met h.b o.b e ∧ met h.d o.d e := by
  decide +kernel

/-- The byte and halfword forms of the families with sizes. -/
theorem fits_sized : ∀ size ∈ [0, 1, 2], ∀ fam ∈ [0x04, 0x08, 0x0C, 0x10, 0x14, 0x18, 0x1C, 0x20, 0x24, 0x28, 0x2C, 0x30],
    let opc := fam + size
    let h := (shapeOf opc).getD {}
    let f := formOf opc h
    let o := h.opnds f
    let e := start (octets opc f)
    f.size.toNat = size ∧ f.size ≠ 3 ∧ (at_ (octets opc f)).beginsLong .c0 (fam + f.size.toNat) f = some (o, e) ∧
      met h.a o.a e ∧ met h.b o.b e ∧ met h.d o.d e := by
  decide +kernel

/-- The operations of the accumulators that D selects, D 0 to 5. -/
theorem fits_accop : ∀ d ∈ [(0 : BitVec 7), 1, 2, 3, 4, 5],
    let f : LongForm := { word := spell 0x4F 0 0 d, ext := [], via }
    f.d = d ∧ (at_ (octets 0x4F f)).beginsLong .c0 0x4F f = some (Shape.opnds { d := .num } f, start (octets 0x4F f)) := by
  decide +kernel

/-- A short instruction by the fields of R281. -/
def shortForm (op5 : Nat) (x y : BitVec 5) : ShortForm := { half := 0#1 ++ BitVec.ofNat 5 op5 ++ x ++ y, via }

/-- Short instructions of control cores, X (P0) and Y (P1): every OP5 begins. -/
theorem fits_short : ∀ op5 ∈ List.range 0x1A, ∀ y ∈ [(0 : BitVec 5), 1],
    let f := shortForm op5 0 y
    (at_ f.code).beginsShort .c0 op5 f = some (start f.code) ∧ f.x = 0 ∧ f.y = y := by
  decide +kernel

/-- The accesses of short instructions to X (P0), to Y (P1) and to the stack. -/
theorem fits_short_operands :
    let e := start (shortForm 2 0 1).code
    e.src 4 (shortOpnd 1) = .ok 0 e ∧ e.dst 4 (shortOpnd 0) = .ok (.mem 0x10000100) e ∧
    e.locate 4 (shortOpnd 0) = (.mem 0x10000100, e) ∧ e.read 4 (.mem 0x10000100) = .ok 0 e ∧
    e.check 4 (.mem 0x10000100) = .ok () e ∧ e.src 2 (shortOpnd 0) = .ok 0 e ∧ e.src 2 (shortOpnd 1) = .ok 0 e ∧
    e.readMem 4 e.x.sp = .ok 0 e := by
  decide +kernel

/-- LOOP with a count in P1 and its end eight bytes on, and with a count of 0. -/
def loopForm (a : BitVec 7) : LongForm := { word := spell 0x60 a 0 0, ext := [4], via }
theorem fits_loop : ∃ (f : LongForm) (s : State) (o : Opnds) (e : Ev), s.beginsLong .c0 0x60 f = some (o, e) ∧
    ((shapeOf 0x60).getD {}).bytes .c0 f ≤ o.own.toNat * Core.unit .c0 ∧ e.src 4 o.a = .ok 0x10000200 e ∧ e.x.ld < 4 :=
  ⟨loopForm 1, at_ (octets 0x60 (loopForm 1)), _, start (octets 0x60 (loopForm 1)), rfl, by decide +kernel⟩
theorem fits_loop_zero : ∃ (f : LongForm) (s : State) (o : Opnds) (e : Ev), s.beginsLong .c0 0x60 f = some (o, e) ∧
    ((shapeOf 0x60).getD {}).bytes .c0 f ≤ o.own.toNat * Core.unit .c0 ∧ e.src 4 o.a = .ok 0 e ∧
    e.after (plus e.pc (o.own.toNat * Core.unit .c0 : Nat)) = .ok 0x1000000A e :=
  ⟨loopForm 2, at_ (octets 0x60 (loopForm 2)), _, start (octets 0x60 (loopForm 2)), rfl, by decide +kernel⟩

def brklForm : LongForm := formOf 0x61 { a := .code }
theorem fits_brkl : ∃ (f : LongForm) (s : State) (o : Opnds) (e : Ev), s.beginsLong .c0 0x61 f = some (o, e) ∧ e.x.ld ≠ 0 :=
  ⟨brklForm, at_ (octets 0x61 brklForm) (core 0x01000000), _, start (octets 0x61 brklForm) (core 0x01000000), rfl, by decide +kernel⟩

/-- XCHG and CAS on words of SRAM. -/
theorem fits_atomic : ∀ opc ∈ [0x52, 0x53],
    let h := (shapeOf opc).getD {}
    let f := formOf opc h
    let o := h.opnds f
    let e := start (octets opc f)
    (at_ (octets opc f)).beginsLong .c0 opc f = some (o, e) ∧ e.readWrite o.d = .ok (.mem 0x10000100, 0) e ∧
    (opc = 0x52 → e.readWrite o.a = .ok (.mem 0x10000100, 0) e) ∧
    (opc = 0x53 → e.src 4 o.a = .ok 0 e ∧ e.src 4 o.b = .ok 0 e) := by
  decide +kernel

/-- A form begins with these operands. -/
def begun (opc : Nat) (own : Half := 0) : Bool :=
  let h := (shapeOf opc).getD {}
  let f := formOf opc h own
  (at_ (octets opc f)).beginsLong .c0 opc f == some (h.opnds f, start (octets opc f))
def operands (opc : Nat) (own : Half := 0) : Opnds := ((shapeOf opc).getD {}).opnds (formOf opc ((shapeOf opc).getD {}) own)
def begin_ (opc : Nat) (own : Half := 0) : Ev := start (octets opc (formOf opc ((shapeOf opc).getD {}) own))

/-- CALL, RET, RETI and RETM; the frame that CALLM pushes and RETM pops. -/
theorem fits_calls :
    (begun 0x5A = true ∧ (begin_ 0x5A).checkMem 4 ((begin_ 0x5A).x.sp - 4) = .ok () (begin_ 0x5A) ∧ (begin_ 0x5A).mayPush = true) ∧
    (begun 0x5B = true ∧ (begin_ 0x5B).readMem 4 (begin_ 0x5B).x.sp = .ok 0 (begin_ 0x5B)) ∧
    (begun 0x5E = true ∧ (begin_ 0x5E).readMem 4 (begin_ 0x5E).x.sp = .ok 0 (begin_ 0x5E) ∧
      (begin_ 0x5E).readMem 4 ((begin_ 0x5E).x.sp + 4) = .ok 0 (begin_ 0x5E)) ∧
    (let o := operands 0x5C 0x81
     let e := begin_ 0x5C 0x81
     begun 0x5C 0x81 = true ∧ o.own.toNat < 256 ∧ Ev.checkMany 4 4 (e.frame o.a) e = .ok () e) ∧
    (let o := operands 0x5D
     let e := begin_ 0x5D
     begun 0x5D = true ∧ e.readMem 4 (e.frame o.a + 4) = .ok 0 e ∧
      Ev.readMany 4 (maskRegs 0).length (e.frame o.a + 8) e = .ok [] e ∧ e.readMem 4 (e.frame o.a) = .ok 0 e) := by
  decide +kernel

/-- A register form: an instruction whose result goes to P1. -/
theorem fits_RegisterResultsLeaveTheRest : ∀ opc ∈ [0x06, 0x0A, 0x0E, 0x12, 0x16, 0x1A, 0x22, 0x26, 0x2A, 0x2E, 0x38, 0x40, 0x41, 0x42,
    0x43, 0x44, 0x45, 0x46, 0x47],
    let h := (shapeOf opc).getD {}
    let f : LongForm := { word := spell opc 2 0 1, ext := [], via }
    let o := h.opnds f
    f.size = BitVec.ofNat 2 opc ∧
      (at_ (octets opc f)).beginsLong .c0 opc f = some (o, start (octets opc f)) ∧ o.d.mode = 0 ∧ (o.a.mode = 0 ∨ o.a.mode = 9) ∧
      (o.b.mode = 0 ∨ o.b.mode = 9) := by
  decide +kernel

/-! ### Paired words, reserved opcodes and the cores -/

/-- ADDI (P0), 1 in slot A and NOP in slot B. -/
def pair : Word := 1#1 ++ 0#1 ++ (12#5 ++ 0#5 ++ 1#5) ++ 0#15
def linkCore : State :=
  stored 0x10000000 (bytesOfWord pair)
    { lit with cpus := [(0, { st := .run, run := true, ran := true, pc := 0x10000000, p := [0x10000100, 0, 0, 0, 0, 0, 0, 0] })] }
def linkStart : Ev := (linkCore.begins .l0 via (bytesOfWord pair)).getD { s := linkCore, c := .l0, x := {}, pc := 0 }

theorem fits_pairedWord : Core.l0.link = true ∧ bit pair 31 = true ∧ linkCore.begins .l0 via (bytesOfWord pair) = some linkStart ∧
    slotBOnly (shortOp5 (pairA pair)) = false ∧
    (∃ f, shortOp (shortOp5 (pairA pair)) (shortX (pairA pair)) (shortY (pairA pair)) linkStart = .ok f linkStart) ∧
    ∃ g, shortOp (shortOp5 (pairB pair)) (shortX (pairB pair)) (shortY (pairB pair)) { linkStart with s := linkStart.s } =
      .ok g linkStart :=
  ⟨rfl, by decide +kernel, by decide +kernel, by decide +kernel, ⟨_, by rfl⟩, _, rfl⟩

/-- OPC 0x02 is reserved; FUNC 0xFF and bank 1 of a coprocessor are not given; D 6 of 0x4F selects nothing; OP5 0x1A is
reserved. -/
def emulForm (opc : Nat) (d : BitVec 7) (own : Half) : LongForm := { word := spell opc 0 0 d, ext := [own], via }
theorem fits_emul :
    (let f := emulForm 0x02 0 0
     let bs := f.code (lengthOf .c0 f.word)
     f.stands .c0 = true ∧ shapeOf f.opc = none ∧ (at_ bs).begins .c0 via bs = some (start bs)) ∧
    (let f := emulForm 0xE0 0 0x01FF
     let bs := f.code (lengthOf .c0 f.word)
     f.stands .c0 = true ∧ shapeOf f.opc = some { a := .cop 4, b := .cop 4, d := .cop 4, own := 1 } ∧
     funcKnown (f.opc % 16 / 2) (fnFunc (Shape.opnds { a := .cop 4, b := .cop 4, d := .cop 4, own := 1 } f).own) = false ∧
     (at_ bs).begins .c0 via bs = some (start bs)) ∧
    (let f := emulForm 0xE1 0 0x0101
     let bs := f.code (lengthOf .c0 f.word)
     f.stands .c0 = true ∧ f.opc % 2 = 1 ∧ (at_ bs).begins .c0 via bs = some (start bs)) ∧
    (let f := emulForm 0x4F 6 0
     f.stands .c0 = true ∧ f.opc = 0x4F ∧ 5 < f.d.toNat ∧
     (at_ (octets 0x4F f)).begins .c0 via (octets 0x4F f) = some (start (octets 0x4F f))) ∧
    (let f := shortForm 0x1A 0 0
     0x1A ≤ f.op5 ∧ (at_ f.code).beginsShort .c0 f.op5 f = some (start f.code)) := by
  decide +kernel

theorem fits_coreRun : lit.gate .c0 (cpuPage .l0) 0x800 true = .serve := by decide +kernel

/-- Line 0 of the interrupt map of C0 selects PWR, whose interrupt is enabled and raised; its handler stands in SRAM. -/
def interrupted (st : CpuSt) : State :=
  stored 0x10000040 (bytesOfWord 0x10000200) ((regsOf { lit with cpus := [(2, { st, run := true, ran := true, pc := 0x10000000, sp := 0x10000800, sw := 0x80000000 })] } Pg.pwr
    [(0x010, 1), (0x014, 1)]).setReg (cpuPage .c0) 0 0x900 0x8000FF00 |>.setReg (cpuPage .c0) 0 0x808 0x10000000)

theorem fits_interruptEntry : (interrupted .run).coreRuns .c0 = true ∧ ((interrupted .run).cpu .c0).atPoint = true ∧
    ((interrupted .run).cpu .c0).stalled = false ∧ ((interrupted .run).cpu .c0).ie = true ∧ (interrupted .run).irqWinner .c0 = some 0 ∧
    (∃ t, (interrupted .run).enter .c0 16 ((interrupted .run).cpu .c0).pc (some (bits ((interrupted .run).irqMap .c0 0) 25 24)) = .ok t) := by
  refine ⟨by decide +kernel, by decide +kernel, by decide +kernel, by decide +kernel, by decide +kernel, ?_⟩
  exact ⟨match (interrupted .run).enter .c0 16 ((interrupted .run).cpu .c0).pc (some (bits ((interrupted .run).irqMap .c0 0) 25 24)) with
    | .ok t => t | .stall _ => lit, by decide +kernel⟩

theorem fits_wfiWake : ((interrupted .wfi).cpu .c0).st = .wfi ∧ (interrupted .wfi).ready (cpuDomain .c0) = true ∧
    (interrupted .wfi).resetDue = none ∧ (interrupted .wfi).irqAny .c0 = true := by
  decide +kernel

/-! ### Coprocessors -/

/-- A form of function `func` of coprocessor `cp` with N = `n`, its operands at (P0). -/
def copForm (cp func n : Nat) (h : Shape) : LongForm := formOf (0xE0 + 2 * cp) h (BitVec.ofNat 16 (n * 256 + func))
def copOctets (f : LongForm) : List Byte := f.code (lengthOf .c0 f.word)
def copBegun (cp func n : Nat) (h : Shape) : Bool :=
  let f := copForm cp func n h
  (at_ (copOctets f)).beginsCop .c0 cp func f h == some (copABD.opnds f, start (copOctets f))

/-- Every function begins, with N of 0 and of 1. -/
theorem fits_coprocessors_begin :
    let ab : Shape := { a := .cop 4, b := .cop 4, own := 1 }
    let az : Shape := { a := .cop 4, own := 1 }
    ∀ n ∈ [0, 1],
      (∀ func ∈ [1, 2], copBegun 0 func n copABD = true) ∧ (∀ func ∈ [3, 4], copBegun 0 func n copAD = true) ∧
      copBegun 1 1 n ab = true ∧ copBegun 1 2 n az = true ∧ copBegun 1 3 n copAD = true ∧
      (∀ func ∈ [1, 2, 3, 4], copBegun 2 func n copABD = true) := by
  decide +kernel

/-- The accesses of their operands. -/
theorem fits_coprocessors :
    let f := copForm 0 1 1 copABD
    let o := copABD.opnds f
    let e := start (copOctets f)
    let z := List.replicate 16 (0 : Byte)
    fnCount o.own = 1 ∧ e.blocks 1 o.a = .ok z e ∧ e.blocks 1 o.b = .ok z e ∧ Ev.checkMany 4 4 (e.addr 4 o.d) e = .ok () e ∧
    e.words 1 o.a = .ok [0] e ∧ e.words 1 o.b = .ok [0] e ∧ e.checkMem 4 (e.addr 4 o.d) = .ok () e ∧
    e.octets 1 o.a = .ok [0] e ∧ e.readMem 2 (e.addr 2 o.b) = .ok 0 e ∧ e.checkMem 2 (e.addr 2 o.d) = .ok () e ∧
    e.readMem 4 (e.addr 4 o.b) = .ok 0 e ∧ e.checkMem 2 (e.addr 2 o.b) = .ok () e ∧ Ev.checkMany 1 1 (e.addr 1 o.d) e = .ok () e ∧
    e.readMem 1 (e.addr 1 o.b) = .ok 0 e ∧ e.checkMem 1 (e.addr 1 o.b) = .ok () e ∧
    (pn9 [0] 0).1.length = 1 ∧ (convOctets [0] 0).1.length = 2 ∧ Ev.checkMany 1 2 (e.addr 1 o.d) e = .ok () e ∧
    ((blocksOf 1 z).flatMap (fun x => Crypto.gfMul x z)).length / 4 = 4 ∧ (xorBytes z z).length / 4 = 4 := by
  decide +kernel

end Sys2Proof.Tests
end

