-- ==== Sys2Proof/Tests/Fabric.lean ====
section
/-! SUPPORT. The hypotheses of the completion statements of the fabric, the header and the domains are met. -/

set_option Elab.async false
set_option linter.unusedVariables false

namespace Sys2Proof.Tests

open Sys2Proof Sys2Proof.Machine

theorem fits_FabricAccessesComplete_1 : ∃ (ini : Initiator) (page off : Nat) (v : Word) (s : State) (d : RegDef),
  page < 256 ∧ off < 0x1000 ∧ off % 4 = 0 ∧ isHeader off = false ∧ s.gate ini page off true = .serve ∧
  regDef page off = some d ∧ d.staged = false ∧ 
  let u := s.accessed ini page off
  let idx := u.setIndex page ini off
  u.noSet page idx off = false ∧ u.blockWrite ini page idx off v = none ∧ (d.config && u.locked page) = false ∧
  outOfRange d v = false :=
  ⟨.c0, Pg.chz, 0x808, 0x12345600, lit, (regDef Pg.chz 0x808).getD { off := 0, name := "" }, by decide +kernel⟩

theorem fits_FabricAccessesComplete_2 : ∃ (ini : Initiator) (addr v : Word) (n : Nat) (flips : List Flip) (s : State),
  let u := s.applyFlips flips
  let a := addr.toNat
  a < 0x80000000 ∧ isPageAddr a = false ∧ isPalAddr a = false ∧ u.memRefused ini a n = false ∧ regionOf a ≠ .rom ∧
  regionOf a ≠ .flash ∧ u.rangeStatus a ((bytesOfWord v).take n).length = .ready :=
  ⟨.c0, 0x10000FFC, 0x12345678, 4, [], lit, by decide +kernel⟩

theorem fits_FabricAccessesComplete_3 : ∃ (ini : Initiator) (page off : Nat) (s : State) (d : RegDef),
  page < 256 ∧ off < 0x1000 ∧ off % 4 = 0 ∧ isHeader off = false ∧ s.gate ini page off false = .serve ∧
  regDef page off = some d ∧ 
  let u := s.accessed ini page off
  let idx := u.setIndex page ini off
  u.noSet page idx off = false ∧ u.blockRead ini page idx off = none ∧ d.rc ≠ 0 :=
  ⟨.c0, Pg.chz, 0x118, lit, (regDef Pg.chz 0x118).getD { off := 0, name := "" }, by decide +kernel⟩

theorem fits_FabricAccessesComplete_4 : ∃ (ini : Initiator) (flips : List Flip) (s t : State) (a : Access) (v : Word),
  let u := s.applyFlips flips
  u.stalls.find? (fun x => x.ini == ini) = some a ∧ u.busAccess a = (t, .ok v) :=
  ⟨.c0, [], { lit with stalls := [⟨.c0, true, 0x10000000, 4, 7⟩] }, { lit with stalls := [⟨.c0, true, 0x10000000, 4, 7⟩] }.putOctets 0x10000000 [7, 0, 0, 0] |>.1, ⟨.c0, true, 0x10000000, 4, 7⟩, 0, by decide +kernel⟩

theorem fits_HeaderCommandsComplete_1 : ∃ (ini : Initiator) (page : Nat) (v : Word) (s : State),
  s.gate ini page 0x080 true = .serve ∧ bits v 9 0 < s.chcount page :=
  ⟨.c1, Pg.chz, 3, lit, by decide +kernel⟩

theorem fits_HeaderCommandsComplete_2 : ∃ (ini : Initiator) (page : Nat) (mask events : Word) (s : State),
  s.gate ini page 0x010 true = .serve :=
  ⟨.c0, Pg.pwr, 0xFFFFFFFF, 1, lit, by decide +kernel⟩

theorem fits_HeaderCommandsComplete_3 : ∃ (ini : Initiator) (page : Nat) (mask : Word) (s : State),
  s.gate ini page 0x01C true = .serve ∧ (s.dom (s.domainOf page 0)).phase = .none :=
  ⟨.c0, Pg.rfe, 1, lit, by decide +kernel⟩

theorem fits_HeaderCommandsComplete_4 : ∃ (ini : Initiator) (page : Nat) (v : Word) (s : State),
  s.gate ini page 0x014 true = .serve :=
  ⟨.c0, Pg.rfe, 1, lit, by decide +kernel⟩

theorem fits_HeaderCommandsComplete_5 : ∃ (ini : Initiator) (page : Nat) (v : Word) (s : State),
  s.gate ini page 0x020 true = .serve :=
  ⟨.c0, Pg.rfe, 0xFFFFFFFF, lit, by decide +kernel⟩

theorem fits_HeaderCommandsComplete_6 : ∃ (ini : Initiator) (page : Nat) (v : Word) (s : State),
  s.gate ini page 0x030 true = .serve ∧ s.locked page = false :=
  ⟨.c0, Pg.rfe, 0x5A03, lit, by decide +kernel⟩

theorem fits_HeaderCommandsComplete_7 : ∃ (ini : Initiator) (page : Nat) (v : Word) (s : State),
  s.gate ini page 0x030 true = .serve ∧ s.locked page = true ∧ bit (s.reg page 0 0x030) 1 = false ∧
  (bits (s.reg page 0 0x030) 26 24 = ini.id ∨ ini = .sec) :=
  ⟨.sec, Pg.rfe, 0xA500, lit.setReg Pg.rfe 0 0x030 0x02000001, by decide +kernel⟩

theorem fits_StagingCommandsComplete_1 : ∃ (ini : Initiator) (page off : Nat) (v : Word) (s : State) (d : RegDef),
  isHeader off = false ∧ s.gate ini page off true = .serve ∧ regDef page off = some d ∧ d.staged = true ∧ 
  let u := s.accessed ini page off
  let idx := u.setIndex page ini off
  u.noSet page idx off = false ∧ u.blockWrite ini page idx off v = none ∧ u.locked page = false ∧
  (u.claim page = none ∨ u.claim page = some ini) ∧ u.commitPend page = false ∧
  (d.whole = true → outOfRange d v = false) ∧
  (page = Pg.lnk → (off = 0x10C → bits v 18 16 ≠ 4 ∧ bits v 8 0 ≤ 255) ∧ (off = 0x110 → 2 ≤ bits v 31 16) ∧ (off = 0x80C → (bits v 4 0 = 0 ∨ 8 ≤ bits v 4 0) ∧ bits v 4 0 ≤ 24) ∧ (off = 0x818 → bit v 31 = true → 160 ≤ bits v 15 0)) :=
  ⟨.c0, Pg.chz, 0x800, 0x000D2B18, lit, (regDef Pg.chz 0x800).getD { off := 0, name := "" }, by decide +kernel⟩

theorem fits_StagingCommandsComplete_2 : ∃ (ini : Initiator) (page : Nat) (v : Word) (s : State),
  s.gate ini page 0x028 true = .serve ∧ s.locked page = false ∧ (s.claim page = none ∨ s.claim page = some ini) ∧
  s.commitPend page = false ∧ (bit v 4 = true → bits v 23 8 = bits (s.reg page 0 0x02C) 15 0) ∧
  s.namesSet page (s.chsel page ini) (bit v 3) = true ∧ s.agreement ini page (bit v 3) = none :=
  ⟨.c0, Pg.chz, 0x11, { lit.setClaim Pg.chz (some .c0) with staged := [(regKey Pg.chz 0 0x100, 1)] }, by decide +kernel⟩

theorem fits_StagingCommandsComplete_3 : ∃ (ini : Initiator) (page : Nat) (v : Word) (s : State),
  s.gate ini page 0x028 true = .serve ∧ s.locked page = false ∧
  (s.claim page = none ∨ s.claim page = some ini ∨ ini = .debug) ∧ s.commitPend page = false :=
  ⟨.debug, Pg.chz, 4, lit.setClaim Pg.chz (some .c0), by decide +kernel⟩

theorem fits_StagingCommandsComplete_4 : ∃ (page m : Nat) (s : State) (c : Commit),
  s.commitOf page = some c ∧ s.ready (s.domainOf page c.index) = true ∧
  (page = Pg.flm ∨ page = Pg.cas ∨ (page = Pg.eth ∧ (s.enabled page = false ∨ s.eth.tx = none)) ∨ (page = Pg.txa ∧ (s.enabled page = false ∨ (s.txaQuiet = true ∧ s.txa.st ≠ .hold)))) :=
  ⟨Pg.flm, 0, { lit with commits := [⟨Pg.flm, .c0, false, 0⟩] }, ⟨Pg.flm, .c0, false, 0⟩, by decide +kernel⟩

theorem fits_BlockControlCompletes_1 : ∃ (ini : Initiator) (page : Nat) (en : Bool) (s : State),
  s.wf = true ∧ s.gate ini page 0x008 true = .serve ∧ s.locked page = false ∧ (page = Pg.cas → en = true) :=
  ⟨.c0, Pg.syn, true, lit, by decide +kernel⟩

theorem fits_BlockControlCompletes_2 : ∃ (ini : Initiator) (page : Nat) (air : List Air) (s : State),
  s.wf = true ∧ s.gate ini page 0x008 true = .serve ∧ s.locked page = false :=
  ⟨.c0, Pg.syn, [], lit, by decide +kernel⟩

theorem fits_BlockControlCompletes_3 : ∃ (ini : Initiator) (page : Nat) (air : List Air) (s : State),
  s.gate ini page 0x008 true = .serve ∧ s.locked page = true :=
  ⟨.c0, Pg.syn, [], lit.setReg Pg.syn 0 0x030 0x02000001, by decide +kernel⟩

theorem fits_BlockControlCompletes_4 : ∃ (ini : Initiator) (page d dreq : Nat) (s : State),
  s.gate ini Pg.pwr 0x100 true = .serve ∧ domPresent s.variant d = true :=
  ⟨.c0, Pg.pwr, Dm.syn, 3, lit, by decide +kernel⟩

theorem fits_BlockControlCompletes_5 : ∃ (ini : Initiator) (page dreq : Nat) (s : State),
  s.gate ini page 0x008 true = .serve ∧ s.locked page = false :=
  ⟨.c0, Pg.syn, 1, lit, by decide +kernel⟩

theorem fits_DomainPhasesComplete_1 : ∃ (d : Nat) (s : State),
  d ≠ Dm.aon ∧ domPresent s.variant d = true ∧ s.domOn d = true ∧ (s.dom d).leaving = none ∧ s.dreq d = 0 ∧
  s.fieldOf Pg.pwr d 0x104 15 0 ≠ 0 ∧ s.fieldOf Pg.pwr d 0x104 15 0 ≤ (s.dom d).idle ∧ s.domIdle d = true ∧
  (s.idleTarget d).atLeast (s.heldAt d) ≠ .on :=
  ⟨Dm.syn, (lit.setReg Pg.pwr Dm.syn 0x104 5).setDom Dm.syn { st := .on, idle := 5 }, by decide +kernel⟩

theorem fits_DomainPhasesComplete_2 : ∃ (d : Nat) (air : List Air) (s : State) (t : DState),
  let u := (s.settle air).follow d air
  let w := t.atLeast (u.heldAt d)
  (u.dreq d ≠ 0 ∨ u.domIdle d = true) ∧ (u.dom d).leaving = some t ∧ (u.dom d).phase = .none ∧
  (u.dom d).since < u.ticks ∧ w.rank < (u.dom d).st.rank ∧ u.awaited d = false ∧ u.mayLeave d w = true ∧ 
  let v := if (u.dom d).st = .on then u.leaveOn d w air else u
  ((u.dom d).st = .on → v.unposted d = false) :=
  ⟨Dm.syn, [], { lit with ticks := 1 }.setDom Dm.syn { st := .on, leaving := some .retention }, .retention, by decide +kernel⟩

theorem fits_DomainPhasesComplete_3 : ∃ (d : Nat) (s : State),
  (s.dom d).phase = .idleCommit ∧ (s.dom d).since + 1 ≤ s.ticks :=
  ⟨Dm.syn, { lit with ticks := 1 }.setDom Dm.syn { st := .on, phase := .idleCommit }, by decide +kernel⟩

theorem fits_DomainPhasesComplete_4 : ∃ (d : Nat) (s : State),
  (s.dom d).phase = .save ∧ (s.dom d).since + 2 ≤ s.ticks :=
  ⟨Dm.syn, { lit with ticks := 2 }.setDom Dm.syn { st := .on, phase := .save }, by decide +kernel⟩

theorem fits_DomainPhasesComplete_5 : ∃ (d : Nat) (s : State),
  (s.dom d).phase = .switch ∧ (s.dom d).since + 3 ≤ s.ticks :=
  ⟨Dm.syn, { lit with ticks := 3 }.setDom Dm.syn { st := .on, phase := .switch }, by decide +kernel⟩

theorem fits_DomainPhasesComplete_6 : ∃ (d : Nat) (s : State),
  (s.dom d).phase = .none ∧ (s.dom d).st ≠ .on ∧ domPresent s.variant d = true ∧
  ((s.dom d).wakeReq = true ∨ s.dreq d = 1) ∧ (s.dreq d ≠ 3 ∨ s.neededUp d = true) :=
  ⟨Dm.syn, State.reset.setDom Dm.syn { st := .off, wakeReq := true }, by decide +kernel⟩

theorem fits_DomainPhasesComplete_7 : ∃ (d : Nat) (s : State),
  (s.dom d).phase = .waking ∧ s.clocksReady d = true ∧
  (needsVcore d = true → s.clk.ramping = false ∧ s.fieldOf Pg.pwr 0 0x824 0 0 ≠ 1) :=
  ⟨Dm.syn, lit.setDom Dm.syn { st := .off, phase := .waking }, by decide +kernel⟩

end Sys2Proof.Tests
end

