-- ==== Sys2Proof/Tests/Flume.lean ====
section
/-! SUPPORT. The hypotheses of the completion statements of clocks, resets and Flume are met. -/

set_option Elab.async false
set_option linter.unusedVariables false

namespace Sys2Proof.Tests

open Sys2Proof Sys2Proof.Machine

/-- The descriptor of a NOP has been read. -/
def fetched : State × MemAns (List (Option Byte)) :=
  let u := ringed Pg.syn
  { u with flm := { u.flm with lastUnit := Pg.syn, lastRing := Sparse.set 63 u.flm.lastRing Pg.syn 0 } }.unitRead 0x10000000 32

theorem fits_ClockCommandsComplete_1 : ∃ (k : Nat) (s : State),
  k < 8 ∧ bit (s.reg Pg.pwr 0 0x808) k = true ∧ s.sourceAsserts k = true :=
  ⟨2, { lit with eth := { lit.eth with magic := true } }.setReg Pg.pwr 0 0x808 4, by decide +kernel⟩

theorem fits_ClockCommandsComplete_2 : ∃ (ini : Initiator) (s : State),
  s.gate ini Pg.pwr 0x81C true = .serve ∧ s.locked Pg.pwr = false ∧ 
  let u := (s.accessed ini Pg.pwr 0x81C).plainWrite ini Pg.pwr 0 0x81C
      (setBit (s.reg Pg.pwr 0 0x81C) 31 true)
  u.clk.xtalFail = true :=
  ⟨.c0, lit.setClk (fun c => { c with xtalOk := false, xtalFail := true }), by decide +kernel⟩

theorem fits_ClockCommandsComplete_3 : ∃ (ini : Initiator) (low : Bool) (s : State),
  s.gate ini Pg.pwr 0x824 true = .serve ∧ s.locked Pg.pwr = false ∧ low ≠ bit (s.reg Pg.pwr 0 0x824) 0 ∧ 
  let u := s.accessed ini Pg.pwr 0x824
  (low = true → u.domOff Dm.drc = true ∧ u.domOff Dm.eth = true ∧ u.domOff Dm.cas = true) :=
  ⟨.c0, true, State.reset, by decide +kernel⟩

theorem fits_ClockCommandsComplete_4 : ∃ (s : State),
  s.clk.xtalFail = false :=
  ⟨lit, by decide +kernel⟩

theorem fits_ClockCommandsComplete_5 : ∃ (s : State) (t : Nat),
  s.clk.refEn = some t ∧ t + s.fieldOf Pg.pwr 0 0x81C 7 0 ≤ s.ticks :=
  ⟨{ lit with ticks := 33 }, 0, by decide +kernel⟩

theorem fits_ClockCommandsComplete_6 : ∃ (s : State) (t : Nat),
  s.clk.refEn = some t ∧ s.clk.refOk = false ∧ t + s.fieldOf Pg.pwr 0 0x81C 7 0 + 4 ≤ s.ticks :=
  ⟨{ lit with ticks := 37, clk := { lit.clk with refOk := false } }, 0, by decide +kernel⟩

theorem fits_ClockCommandsComplete_7 : ∃ (s : State),
  s.clk.refOk = true ∧ s.domUp Dm.per = true ∧ s.clk.sysLock = false :=
  ⟨lit.setClk (fun c => { c with sysLock := false }), by decide +kernel⟩

theorem fits_ClockCommandsComplete_8 : ∃ (s : State),
  s.clk.refOk = true ∧ s.domUp Dm.drc = true :=
  ⟨lit, by decide +kernel⟩

theorem fits_ClockCommandsComplete_9 : ∃ (s : State),
  s.clk.refOk = true ∧ s.domUp Dm.eth = true :=
  ⟨lit, by decide +kernel⟩

theorem fits_ClockCommandsComplete_10 : ∃ (s : State),
  s.clk.ramping = true :=
  ⟨lit.setClk (fun c => { c with ramping := true }), by decide +kernel⟩

theorem fits_ClockCommandsComplete_12 : ∃ (s : State) (w : TickWindow) (e : Int),
  s.tim.window = some w ∧ w.done = some e :=
  ⟨lit.setTim (fun t => { t with window := some { tick := 0, len := 16, start := 0, done := some 5 } }), { tick := 0, len := 16, start := 0, done := some 5 }, 5, by decide +kernel⟩

theorem fits_ResetCommandsComplete_1 : ∃ (ini : Initiator) (v : Word) (air : List Air) (s : State),
  s.gate ini Pg.pwr 0x828 true = .serve ∧ bits v 15 8 = 0xD1 ∧ bit v 0 = true ∧ 
  let u := s.accessed ini Pg.pwr 0x828
  u.resetDue = none ∧ u.resetWaits = false :=
  ⟨.c0, 0xD101, [], lit, by decide +kernel⟩

theorem fits_ResetCommandsComplete_2 : ∃ (m tm : Bool) (air : List Air) (s : State),
  s.resetDue = none ∧ s.resetWaits = false :=
  ⟨true, false, [], lit, by decide +kernel⟩

theorem fits_ResetCommandsComplete_3 : ∃ (air : List Air) (s : State),
  s.resetDue = none ∧ s.resetWaits = false :=
  ⟨[], lit, by decide +kernel⟩

theorem fits_ResetCommandsComplete_4 : ∃ (air : List Air) (s : State),
  s.resetDue = none ∧ s.resetWaits = true :=
  ⟨[], { lit with flc := { lit.flc with op := some { kind := .erase, item := none, pos := 0, stop := 0x2000 } } }, by decide +kernel⟩

theorem fits_ResetCommandsComplete_5 : ∃ (air : List Air) (s : State) (c : Nat),
  s.resetDue = some c ∧ s.resetWaits = false :=
  ⟨[], { lit with resetDue := some 4 }, 4, by decide +kernel⟩

theorem fits_ResetCommandsComplete_8 : ∃ (m tm : Bool) (vio : List (VioBank × VioLevel)) (s : State),
  s.inReset = true :=
  ⟨true, false, [(.a, .v18)], { lit with inReset := true }, by decide +kernel⟩

theorem fits_FlumeEngineCompletes_1 : ∃ (flips : List Flip) (s t : State) (r : Nat) (bs : List (Option Byte)) (os : List Byte) (e : EccSum),
  let u := s.applyFlips flips
  u.grant = some r ∧ 
  let v := { u with flm := { u.flm with
      lastUnit := u.wrUnit r, lastRing := Sparse.set 63 u.flm.lastRing (u.wrUnit r) r } }
  v.unitRead (v.slotAddr r (u.wrCons r % u.wrSize r)) 32 = (t, .ok bs e) ∧ knownBytes bs = some os :=
  ⟨[], ringed Pg.syn, fetched.1, 0, List.replicate 32 (some 0), List.replicate 32 0, {}, by decide +kernel⟩

theorem fits_FlumeEngineCompletes_2 : ∃ (k : Nat) (s : State) (i : Item),
  s.item k = some i ∧ i.st = .fetched ∧ s.mayIssue i = true :=
  ⟨0, holding { entry Pg.syn 0 with st := .fetched }, { entry Pg.syn 0 with st := .fetched }, by decide +kernel⟩

theorem fits_FlumeEngineCompletes_3 : ∃ (k : Nat) (s : State) (i : Item),
  s.item k = some i ∧ i.st = .fetched ∧ s.mayIssue i = true ∧ i.unit ≠ Pg.cas ∧ pagePresent s.variant i.unit = true ∧
  s.ready (epochDomain i.unit) = true ∧ opDefined i.unit i.opcode = true ∧
  (i.timed = true → i.ns < 1000000000 ∧ s.pastShort i.ns i.secLo = false) ∧
  (i.epochChk = true → i.epoch = s.epochOf i) ∧ (opMoves i.unit i.opcode = true → i.length ≠ 0) ∧
  (i.opcode = 0 → i.timed = true) :=
  ⟨0, holding { entry Pg.syn 1 with st := .fetched }, { entry Pg.syn 1 with st := .fetched }, by decide +kernel⟩

theorem fits_FlumeEngineCompletes_4 : ∃ (k : Nat) (s : State) (i : Item),
  s.item k = some i ∧ i.st = .active ∧ i.result.isSome = true :=
  ⟨0, holding { entry Pg.syn 1 with result := some { status := 0 } }, { entry Pg.syn 1 with result := some { status := 0 } }, by decide +kernel⟩

theorem fits_FlumeEngineCompletes_5 : ∃ (k : Nat) (flips : List Flip) (s t : State) (i : Item),
  let u := s.applyFlips flips
  u.item k = some i ∧ i.st = .retiring ∧ u.mayRetire i = true ∧ u.trRoom (u.wrTail i.ring) = true ∧
  u.rangeStatus (u.trAddr (u.wrTail i.ring)) 32 = .ready ∧ u.writeBack i = (t, true) :=
  ⟨0, [], holding { entry Pg.syn 0 with st := .retiring }, ((holding { entry Pg.syn 0 with st := .retiring }).writeBack { entry Pg.syn 0 with st := .retiring }).1, { entry Pg.syn 0 with st := .retiring }, by decide +kernel⟩

theorem fits_FlumeEngineCompletes_6 : ∃ (k : Nat) (s : State) (r : Report),
  s.flm.waiting[k]? = some r ∧ s.raisedBefore r.tail r.no = false ∧ s.trRoom r.tail = true ∧ s.noHeld r.tail = true ∧
  s.rangeStatus (s.trAddr r.tail) 32 = .ready :=
  ⟨0, { ringed Pg.syn with flm := { waiting := [{ unit := Pg.pwr, tail := 0, status := 0 }] } }, { unit := Pg.pwr, tail := 0, status := 0 }, by decide +kernel⟩

theorem fits_FlumeEngineCompletes_7 : ∃ (k : Nat) (s : State) (r : Report),
  s.flm.waiting[k]? = some r ∧ storeFull r = true ∧ s.trRoom r.tail = false :=
  ⟨0, { ringed Pg.syn with flm := { waiting := [{ unit := Pg.pwr, tail := 1, status := 0 }] } }, { unit := Pg.pwr, tail := 1, status := 0 }, by decide +kernel⟩

theorem fits_FlumeEngineCompletes_8 : ∃ (r : Nat) (s : State),
  s.trEn r = true ∧ s.fieldOf Pg.flm r Fl.trCfg 15 4 ≠ 0 ∧ s.trPending r ≠ 0 :=
  ⟨0, ((ringed Pg.syn).setReg Pg.flm 0 Fl.trCfg 0x80000014).setReg Pg.flm 0 Fl.trProd 1, by decide +kernel⟩

theorem fits_FlumeEngineCompletes_9 : ∃ (k : Nat) (flips : List Flip) (s : State) (i : Item),
  let u := s.applyFlips flips
  u.item k = some i ∧ i.st = .active ∧ i.timed = true ∧ i.launched = false ∧ i.airTimed = false ∧
  u.launchCome i = true ∧ i.opcode ≠ 0 ∧ i.unit ≠ Pg.lnk :=
  ⟨0, [], holding { entry Pg.syn 1 with words := [0x01004000, 0, 0, 0, 0, 0, 0, 0] }, { entry Pg.syn 1 with words := [0x01004000, 0, 0, 0, 0, 0, 0, 0] }, by decide +kernel⟩

theorem fits_RingRegisterWritesComplete_1 : ∃ (ini : Initiator) (v : Word) (s : State),
  s.gate ini Pg.flm Fl.wrProd true = .serve ∧ 
  let u := s.accessed ini Pg.flm Fl.wrProd
  let r := u.chsel Pg.flm ini
  u.wrOwner r = ini.id ∧ subMod (2 * u.wrSize r) (bits v 10 0) (u.wrCons r) ≤ u.wrSize r :=
  ⟨.c0, 16, ringed Pg.syn, by decide +kernel⟩

theorem fits_RingRegisterWritesComplete_2 : ∃ (ini : Initiator) (v : Word) (s : State),
  s.gate ini Pg.flm Fl.wrCfg true = .serve ∧ 
  let u := s.accessed ini Pg.flm Fl.wrCfg
  let r := u.chsel Pg.flm ini
  u.locked Pg.flm = false ∧ u.wrEn r = false ∧ bit v 31 = true ∧ 4 ≤ bits v 3 0 ∧ bits v 3 0 ≤ 10 ∧
  pageListed (bits v 23 16) = true ∧ pagePresent s.variant (bits v 23 16) = true :=
  ⟨.c0, 0x800A2004, lit, by decide +kernel⟩

theorem fits_RingRegisterWritesComplete_3 : ∃ (ini : Initiator) (v : Word) (s : State),
  s.gate ini Pg.flm Fl.wrCfg true = .serve ∧ 
  let u := s.accessed ini Pg.flm Fl.wrCfg
  let r := u.chsel Pg.flm ini
  u.locked Pg.flm = false ∧ u.wrEn r = true :=
  ⟨.c0, 0x000A2004, ringed Pg.syn, by decide +kernel⟩

theorem fits_RingRegisterWritesComplete_4 : ∃ (ini : Initiator) (s : State),
  s.gate ini Pg.flm 0x118 true = .serve :=
  ⟨.c0, ringed Pg.syn, by decide +kernel⟩

theorem fits_RingRegisterWritesComplete_5 : ∃ (ini : Initiator) (s : State),
  s.gate ini Pg.flm 0x118 true = .serve ∧ 
  let u := s.accessed ini Pg.flm 0x118
  u.ringState (u.chsel Pg.flm ini) = .halted :=
  ⟨.c0, { ringed Pg.syn with flm := { rings := [(0, .halted)] } }, by decide +kernel⟩

theorem fits_RingRegisterWritesComplete_6 : ∃ (ini : Initiator) (v : Word) (s : State),
  s.gate ini Pg.flm Fl.trCfg true = .serve ∧ 
  let u := s.accessed ini Pg.flm Fl.trCfg
  let r := u.chsel Pg.flm ini
  u.locked Pg.flm = false ∧ u.trEn r = false ∧ bit v 31 = true ∧ 4 ≤ bits v 3 0 ∧ bits v 3 0 ≤ 10 :=
  ⟨.c0, 0x8000000A, lit, by decide +kernel⟩

theorem fits_RingRegisterWritesComplete_7 : ∃ (ini : Initiator) (v : Word) (s : State),
  s.gate ini Pg.flm Fl.trCfg true = .serve ∧ 
  let u := s.accessed ini Pg.flm Fl.trCfg
  let r := u.chsel Pg.flm ini
  u.locked Pg.flm = false ∧ u.trEn r = true :=
  ⟨.c0, 4, ringed Pg.syn, by decide +kernel⟩

theorem fits_RingRegisterWritesComplete_8 : ∃ (ini : Initiator) (v : Word) (s : State),
  s.gate ini Pg.flm Fl.trCons true = .serve :=
  ⟨.c0, 0, ringed Pg.syn, by decide +kernel⟩

end Sys2Proof.Tests
end

