-- ==== Sys2Proof/Tests/Link.lean ====
section
/-! SUPPORT. The hypotheses of the completion statements of LNK, WRX, TIM and ETH are met. -/

set_option Elab.async false
set_option linter.unusedVariables false

namespace Sys2Proof.Tests

open Sys2Proof Sys2Proof.Machine

/-- The header of octets that parse. -/
def mhr (f : List Byte) : Mac.Mhr :=
  (Mac.parse f).getD { typ := 7, security := false, ar := false, comp := false, version := 0, seq := none, dpan := none, dst := none, span := none, src := none, auxAt := 0, level := 0, kidMode := 0, noCounter := false, asn := false, counter := 0, keySrc := [], keyIdx := 0, ies := [], len := 0 }

/-- The Hopper holds a frame of these octets and a 4-octet FCS, received on the narrow path. -/
def got (f : List Byte) : RxFrame :=
  { lane := { lane0 with no := 128, data := f ++ [0, 0, 0, 0] }, status := 0, cause := 0, lqi := 0, fec := 0 }
def queued (f : List Byte) (s : State := lit) : State := { s with recv := { queue := [got f] } }

/-- A job that waits for its acknowledgement. -/
def waiting (ctx : Option Nat := none) : TxJob := { job0 with mpdu := [1, 0, 9], ackWait := some 1000000000, ctx }
def awaiting (f : List Byte) (ctx : Option Nat := none) : State :=
  { regsOf (regsOf lit Pg.phy [(0xB20, 0x810D2B18)]) Pg.lnk [(0x808, 0x00010002)] with
    recv := { queue := [got f] }, lnk := { jobs := [waiting ctx] } }

theorem fits_LinkTransmitCompletes_1 : ∃ (k : Nat) (flips : List Flip) (s t : State) (i : Item) (bs : List (Option Byte)) (os : List Byte) (e : EccSum),
  let u := s.applyFlips flips
  u.lnkItem 1 k = some i ∧ u.lnk.jobs.length < 64 ∧ u.unitRead i.addrA i.length = (t, .ok bs e) ∧
  knownBytes bs = some os :=
  ⟨0, [], holding (entry Pg.lnk 1 [0x10002000, 0, 3, 0, 0, 0, 0]), ((holding (entry Pg.lnk 1 [0x10002000, 0, 3, 0, 0, 0, 0])).unitRead 0x10002000 3).1, (entry Pg.lnk 1 [0x10002000, 0, 3, 0, 0, 0, 0]), List.replicate 3 (some 0), List.replicate 3 0, {}, by decide +kernel⟩

theorem fits_LinkTransmitCompletes_2 : ∃ (k : Nat) (s : State) (i : Item),
  s.lnkItem 3 k = some i ∧ s.lnk.jobs.length < 64 ∧ 
  let freq := bits (i.w 2) 19 0
  let lat := fun k => i.lat.getD k 0
  let j : TxJob := {
      item := i.id, wake := true, txcfg := lat 0, ackcfg := lat 1, lbtcfg := lat 2, guardcfg := lat 3, ctx := none,
      entry := 0, mod := 0, tx := 0, store := ((List.range 256).find? (fun e => s.freqOf e == some freq)).getD 0x1FF, freq,
      level := if i.uparam.testBit 7 then some (i.uparam % 128) else none, pilot := i.length,
      code := BitVec.ofNat 16 i.addrA, secure := false, ackreq := false,
      lbt := i.uflags.testBit 2,
      sleepy := false, mpdu := [] }
  750000 ≤ freq ∧ freq ≤ 960000 ∧
  (i.uflags.testBit 2 = true → (if s.path = 2 then (s.narrowFor freq).isSome else !(s.wideFor freq 0).isEmpty || (s.narrowFor freq).isSome) = true) :=
  ⟨0, holding (entry Pg.lnk 3 [0x1234, 863000, 0, 0, 0, 0, 0]), (entry Pg.lnk 3 [0x1234, 863000, 0, 0, 0, 0, 0]), by decide +kernel⟩

theorem fits_LinkTransmitCompletes_3 : ∃ (k : Nat) (s t : State) (j : TxJob),
  s.job k = some j ∧ j.lbt = true ∧ j.listen = .none ∧ (∀ r, s.jobRamp j = some r → r - 5000 - j.listenNs ≤ s.nowNs) ∧
  (s.jobRamp j = none → j.tuneLead ≤ j.listenNs + 5000) ∧ s.txaQuiet = true ∧ s.waiting j = true ∧ s.turn j = true ∧
  s.listenReady j = (t, some true) :=
  ⟨0, { wide with lnk := { jobs := [{ job0 with lbt := true, freq := 863100 }] } }, { wide with lnk := { jobs := [{ job0 with lbt := true, freq := 863100 }] } }, { job0 with lbt := true, freq := 863100 }, by repeat' first | decide +kernel | (intro _ h; exact nomatch h) | refine ⟨?_, ?_⟩⟩

theorem fits_LinkTransmitCompletes_4 : ∃ (k : Nat) (powers : List Int) (draw : Nat) (s : State) (j : TxJob),
  s.job k = some j ∧ j.listen = .running ∧ powers.all (fun p => encodePower p < s.lbtThreshold j) = true :=
  ⟨0, [-12000], 0, { holding (entry Pg.lnk 1) with lnk := { jobs := [{ job0 with lbt := true, listen := .running, lbtcfg := 0x00860000 }] } }, { job0 with lbt := true, listen := .running, lbtcfg := 0x00860000 }, by decide +kernel⟩

theorem fits_LinkTransmitCompletes_5 : ∃ (k : Nat) (powers : List Int) (draw : Nat) (s : State) (j : TxJob),
  s.job k = some j ∧ j.listen = .running ∧ powers.all (fun p => encodePower p < s.lbtThreshold j) = false :=
  ⟨0, [-2000], 0, { holding (entry Pg.lnk 1) with lnk := { jobs := [{ job0 with lbt := true, listen := .running, lbtcfg := 0x00860000 }] } }, { job0 with lbt := true, listen := .running, lbtcfg := 0x00860000 }, by decide +kernel⟩

theorem fits_LinkTransmitCompletes_6 : ∃ (k : Nat) (s : State) (j : TxJob) (t : Int),
  s.job k = some j ∧ j.backoff = some t ∧ t ≤ s.nowNs ∧ j.busy ≠ 0 :=
  ⟨0, { holding (entry Pg.lnk 1) with lnk := { jobs := [{ job0 with backoff := some 0, busy := 1 }] } }, { job0 with backoff := some 0, busy := 1 }, 0, by decide +kernel⟩

theorem fits_LinkTransmitCompletes_7 : ∃ (k : Nat) (s : State) (j : TxJob) (t : Int),
  s.job k = some j ∧ j.backoff = some t ∧ t ≤ s.nowNs ∧ j.busy = 0 :=
  ⟨0, { holding (entry Pg.lnk 1) with lnk := { jobs := [{ job0 with backoff := some 0 }] } }, { job0 with backoff := some 0 }, 0, by decide +kernel⟩

theorem fits_LinkTransmitCompletes_8 : ∃ (k : Nat) (s : State) (j : TxJob),
  s.job k = some j ∧ j.dwellWait = true ∧ s.dwellFull j = false :=
  ⟨0, { holding (entry Pg.lnk 1) with lnk := { jobs := [{ job0 with dwellWait := true }] } }, { job0 with dwellWait := true }, by decide +kernel⟩

theorem fits_LinkTransmitCompletes_9 : ∃ (k draw : Nat) (s : State) (j : TxJob) (t : Int),
  s.job k = some j ∧ j.ackWait = some t ∧ t ≤ s.nowNs ∧ s.ackComing j t = false :=
  ⟨0, 0, { holding (entry Pg.lnk 1) with lnk := { jobs := [{ job0 with ackWait := some 0 }] } }, { job0 with ackWait := some 0 }, 0, by decide +kernel⟩

theorem fits_LinkTransmitCompletes_10 : ∃ (s : State) (a : AckDue) (rest : List AckDue),
  s.lnk.acks = a :: rest ∧ s.rampAt a.at_ ≤ s.nowNs ∧ s.onAirNow .ack = false ∧ s.txa.cur = some .ack ∧
  s.txReady = true ∧ s.ackLate a = false ∧ s.atInstant (s.rampAt a.at_) = true :=
  ⟨{ lit with lnk := { acks := [{ at_ := lit.tLead + lit.boardTx, freq := 863000, store := 0x1FF, entry := 0, mod := 0x01000000, tx := 0, ctx := none, mhr := [2, 0, 9], level := 0, slot := none }] }, txa := { st := .ready, cur := some .ack }, syn := { txLocked := true } }, { at_ := lit.tLead + lit.boardTx, freq := 863000, store := 0x1FF, entry := 0, mod := 0x01000000, tx := 0, ctx := none, mhr := [2, 0, 9], level := 0, slot := none }, [], by decide +kernel⟩

theorem fits_LinkTransmitCompletes_11 : ∃ (s : State) (a : AckDue) (rest : List AckDue),
  s.lnk.acks = a :: rest ∧ s.rampAt a.at_ ≤ s.nowNs ∧ s.onAirNow .ack = false ∧
  ¬ (s.txa.cur = some .ack ∧ s.txReady = true ∧ s.ackLate a = false ∧ s.atInstant (s.rampAt a.at_) = true) :=
  ⟨{ lit with lnk := { acks := [{ at_ := 0, freq := 863000, store := 0x1FF, entry := 0, mod := 0x01000000, tx := 0, ctx := none, mhr := [2, 0, 9], level := 0, slot := none }] } }, { at_ := 0, freq := 863000, store := 0x1FF, entry := 0, mod := 0x01000000, tx := 0, ctx := none, mhr := [2, 0, 9], level := 0, slot := none }, [], by decide +kernel⟩

theorem fits_LinkReceiveCompletes_1 : ∃ (flips : List Flip) (s : State) (f : RxFrame) (q : List RxFrame),
  let u := s.applyFlips flips
  u.recv.queue = f :: q ∧ u.ready Dm.lnk = true ∧ Mac.parse f.mpdu = none :=
  ⟨[], queued [0], got [0], [], by decide +kernel⟩

theorem fits_LinkReceiveCompletes_2 : ∃ (flips : List Flip) (s : State) (f : RxFrame) (q : List RxFrame) (m : Mac.Mhr),
  let u := s.applyFlips flips
  u.recv.queue = f :: q ∧ u.ready Dm.lnk = true ∧ Mac.parse f.mpdu = some m ∧ u.ieEn = false ∧ u.ackFor f m = none :=
  ⟨[], queued [1, 0, 9], got [1, 0, 9], [], mhr [1, 0, 9], by decide +kernel⟩

theorem fits_LinkReceiveCompletes_3 : ∃ (flips : List Flip) (s : State) (f : RxFrame) (q : List RxFrame) (m : Mac.Mhr) (ttd : Nat),
  let u := s.applyFlips flips
  u.recv.queue = f :: q ∧ u.ready Dm.lnk = true ∧ Mac.parse f.mpdu = some m ∧ u.ieEn = true ∧ f.lane.no = nbLane ∧
  Mac.wakeFrame f.mpdu m u.oui = some ttd :=
  ⟨[], queued (Mac.buildWake 0x123456 2 100) (lit.setReg Pg.lnk 0 0x844 0x80123456), got (Mac.buildWake 0x123456 2 100), [], mhr (Mac.buildWake 0x123456 2 100), 100, by decide +kernel⟩

theorem fits_LinkReceiveCompletes_4 : ∃ (flips : List Flip) (s : State) (f : RxFrame) (q : List RxFrame) (m : Mac.Mhr) (j : TxJob),
  let u := s.applyFlips flips
  u.recv.queue = f :: q ∧ u.ready Dm.lnk = true ∧ Mac.parse f.mpdu = some m ∧ u.ackFor f m = some j ∧ m.version ≤ 1 :=
  ⟨[], awaiting [2, 0, 9], got [2, 0, 9], [], mhr [2, 0, 9], waiting, by decide +kernel⟩

theorem fits_LinkReceiveCompletes_5 : ∃ (flips : List Flip) (s : State) (f : RxFrame) (q : List RxFrame) (m : Mac.Mhr) (j : TxJob) (out : List Byte),
  let u := s.applyFlips flips
  u.recv.queue = f :: q ∧ u.ready Dm.lnk = true ∧ Mac.parse f.mpdu = some m ∧ u.ackFor f m = some j ∧ 1 < m.version ∧
  u.secured f j.ctx m = some (.inr out) :=
  ⟨[], awaiting [0x42, 0x28, 9, 2, 0], got [0x42, 0x28, 9, 2, 0], [], mhr [0x42, 0x28, 9, 2, 0], waiting, [0x42, 0x28, 9, 2, 0], by decide +kernel⟩

theorem fits_LinkReceiveCompletes_6 : ∃ (k : Nat) (s : State) (i : Item),
  s.lnkItem 2 k = some i ∧ s.lnk.wins.any (fun w => w.item == k) = false ∧ (i.timed = true → i.launched = true) ∧
  i.length ≠ 0 ∧ 
  let stop : Int := (if i.timed then s.launchNs i.ns i.secLo else (s.nowNs : Int)) + (i.length * 1000 : Nat)
  (i.timed = true → (s.nowNs : Int) < stop) ∧ s.path ≠ 2 :=
  ⟨0, holding (entry Pg.lnk 2 [0, 0, 5, 0, 0, 0, 0]), entry Pg.lnk 2 [0, 0, 5, 0, 0, 0, 0], by decide +kernel⟩

theorem fits_LinkReceiveCompletes_7 : ∃ (k n : Nat) (s : State) (i : Item),
  s.lnkItem 2 k = some i ∧ s.lnk.wins.any (fun w => w.item == k) = false ∧ (i.timed = true → i.launched = true) ∧
  i.length ≠ 0 ∧ 
  let stop : Int := (if i.timed then s.launchNs i.ns i.secLo else (s.nowNs : Int)) + (i.length * 1000 : Nat)
  (i.timed = true → (s.nowNs : Int) < stop) ∧ s.path = 2 ∧ s.nbFrom 0 (fun e => (s.winMask i).testBit e) = some n ∧
  s.displaced 7 n stop = false :=
  ⟨0, 0, holding (entry Pg.lnk 2 [0, 1, 5, 0, 0, 0, 0]) (regsOf (ringed Pg.lnk) Pg.phy [(0xB00, 2), (0xB10, 1), (0xB14, 0x80), (0xB20, 0x81000000)]), entry Pg.lnk 2 [0, 1, 5, 0, 0, 0, 0], by repeat' first | decide +kernel | (intro _ h; exact nomatch h) | refine ⟨?_, ?_⟩⟩

theorem fits_LinkReceiveCompletes_8 : ∃ (k : Nat) (s : State) (w : RxWin),
  s.lnk.wins.find? (fun w => w.item == k) = some w ∧ w.endAt ≤ s.nowNs :=
  ⟨0, { holding (entry Pg.lnk 2) with lnk := { wins := [{ item := 0, endAt := 0, ctx := none }] } }, { item := 0, endAt := 0, ctx := none }, by decide +kernel⟩

theorem fits_LinkReceiveCompletes_9 : ∃ (s : State) (n : Nat),
  s.lnk.nextSample = some n ∧ n ≤ s.ticks :=
  ⟨{ lit with lnk := { nextSample := some 0 } }, 0, by decide +kernel⟩

theorem fits_LinkReceiveCompletes_10 : ∃ (s : State) (k : Nat) (t : Int),
  s.lnk.dataAt = some (k, t) ∧ s.lnk.dataEnd = none ∧ t ≤ s.nowNs :=
  ⟨{ lit with lnk := { dataAt := some (0, 0) } }, 0, 0, by decide +kernel⟩

theorem fits_LinkReceiveCompletes_11 : ∃ (s : State) (e : Int),
  s.lnk.dataEnd = some e ∧ e ≤ s.nowNs :=
  ⟨{ lit with lnk := { dataAt := some (0, 0), dataEnd := some 0 } }, 0, by decide +kernel⟩

theorem fits_LinkReceiveCompletes_12 : ∃ (s : State) (k : Nat) (e : Int),
  s.lnk.fpEnd = some (k, e) ∧ e ≤ s.nowNs :=
  ⟨{ lit with lnk := { fpEnd := some (0, 0) } }, 0, 0, by decide +kernel⟩

theorem fits_LinkReceiveCompletes_13 : ∃ (s : State) (e : LnkEvent) (es : List LnkEvent),
  s.lnk.events = e :: es ∧ bit (s.lreg 0x848) 31 = true ∧ 
  let t := bits (s.lreg 0x848) 29 24
  s.trRoom t = true ∧ s.noHeld t = true ∧ s.raisedBefore t e.no = false ∧ s.rangeStatus (s.trAddr t) 32 = .ready :=
  ⟨{ (ringed Pg.lnk).setReg Pg.lnk 0 0x848 0x80000000 with lnk := { events := [{ kind := 1, idx := 0, value := 0, sec := 0, ns := 0 }] } }, { kind := 1, idx := 0, value := 0, sec := 0, ns := 0 }, [], by decide +kernel⟩

theorem fits_LinkUpkeepCompletes_1 : ∃ (ini : Initiator) (s : State),
  s.gate ini Pg.lnk 0x128 false = .serve :=
  ⟨.c0, lit, by decide +kernel⟩

theorem fits_LinkUpkeepCompletes_2 : ∃ (ini : Initiator) (s : State),
  s.gate ini Pg.lnk 0x134 true = .serve :=
  ⟨.c0, lit, by decide +kernel⟩

theorem fits_LinkUpkeepCompletes_3 : ∃ (s : State),
  (s.dom Dm.lnk).st ≠ .off :=
  ⟨lit, by decide +kernel⟩

theorem fits_LinkUpkeepCompletes_4 : ∃ (s : State) (a : Nat),
  s.lnk.bcn = .track ∧ s.lnk.bcnEnd = none ∧ (s.ctxOf s.bcnCtx).anchor = some a ∧ 
  let c := s.bcnCtx
  let cfg := s.lreg 0x820
  let p := s.lnk.bcnAt
  let g := s.guardNs c cfg (p - a)
  p - g ≤ s.nowNs :=
  ⟨{ lit with lnk := { bcn := .track, ctxs := [(0, { anchor := some 0 })] }, tim := { sec := 100 } }, 0, by decide +kernel⟩

theorem fits_LinkUpkeepCompletes_5 : ∃ (s : State) (e : Int),
  s.lnk.bcn = .track ∧ s.lnk.bcnEnd = some e ∧ e ≤ s.nowNs ∧ s.bcnComing e = false :=
  ⟨{ lit with lnk := { bcn := .track, bcnEnd := some 0 } }, 0, by decide +kernel⟩

theorem fits_LinkUpkeepCompletes_6 : ∃ (s : State),
  s.lnk.bcn = .lost ∧
  (s.bcnWide = false → s.path = 2 → s.recv.nb.phase = .stopped ∧ s.lane nbLane = none ∧ s.lnk.passDone = true) :=
  ⟨{ lit with lnk := { bcn := .lost } }, by decide +kernel⟩

theorem fits_LinkUpkeepCompletes_7 : ∃ (s : State),
  s.lnk.bcn = .lost ∧ s.bcnWide = false ∧ s.path = 2 ∧ s.recv.nb.phase = .stopped ∧ s.lane nbLane = none ∧
  s.lnk.passDone = false :=
  ⟨{ regsOf lit Pg.phy [(0xB00, 2)] with lnk := { bcn := .lost } }, by decide +kernel⟩

theorem fits_LinkUpkeepCompletes_8 : ∃ (s : State),
  s.domOn Dm.wrx = true ∧ s.wrx.st = .sleep ∧ bits (s.wrxReg 0x800) 1 0 ≠ 0 ∧ s.wrx.next ≤ s.ticks :=
  ⟨lit.setReg Pg.wrx 0 0x800 1, by decide +kernel⟩

theorem fits_LinkUpkeepCompletes_9 : ∃ (power : Int) (s : State),
  s.domOn Dm.wrx = true ∧ s.wrx.st = .sample :=
  ⟨-60, { lit with wrx := { st := .sample } }, by decide +kernel⟩

theorem fits_LinkUpkeepCompletes_10 : ∃ (power : Int) (s : State),
  s.wrx.st = .sample ∧ s.wrx.onEnd ≤ s.ticks :=
  ⟨-60, { lit with wrx := { st := .sample } }, by decide +kernel⟩

theorem fits_LinkUpkeepCompletes_11 : ∃ (code : Half) (s : State),
  s.wrx.st = .hunt ∧ codeErrors code (s.wrx.code.setWidth 16) ≤ bits s.wrx.code 17 16 :=
  ⟨0x1234, { lit with wrx := { st := .hunt, code := 0x1234 } }, by decide +kernel⟩

theorem fits_LinkUpkeepCompletes_12 : ∃ (s : State),
  s.wrx.st = .hunt :=
  ⟨{ lit with wrx := { st := .hunt } }, by decide +kernel⟩

theorem fits_TimeCommandsComplete_1 : ∃ (ini : Initiator) (s : State),
  s.gate ini Pg.tim 0x800 false = .serve :=
  ⟨.c0, lit, by decide +kernel⟩

theorem fits_TimeCommandsComplete_2 : ∃ (s : State) (c : Commit),
  s.commitOf Pg.tim = some c ∧ s.hasStaged Pg.tim 0 0x814 = true :=
  ⟨{ lit with commits := [⟨Pg.tim, .c0, false, 0⟩], staged := [(regKey Pg.tim 0 0x814, 1)] }, ⟨Pg.tim, .c0, false, 0⟩, by decide +kernel⟩

theorem fits_TimeCommandsComplete_3 : ∃ (s : State) (rem : Int),
  s.tim.slew = some rem ∧ s.tim.running = true :=
  ⟨{ lit with tim := { slew := some 5000, running := true } }, 5000, by decide +kernel⟩

theorem fits_TimeCommandsComplete_4 : ∃ (s : State),
  s.tim.running = true :=
  ⟨{ lit with tim := { running := true } }, by decide +kernel⟩

theorem fits_TimeCommandsComplete_5 : ∃ (k : Nat) (s : State),
  k < 4 ∧ bit (s.reg Pg.tim 0 (cmpOff k 0)) 31 = true ∧ s.cmpTarget k ≤ s.cmpNow :=
  ⟨3, regsOf { lit with tim := { sec := 5 } } Pg.tim [(cmpOff 3 0, 0xC0000000), (cmpOff 3 8, 4), (cmpOff 3 12, 1000)], by decide +kernel⟩

theorem fits_TimeCommandsComplete_6 : ∃ (s : State),
  bit (s.reg Pg.tim 0 0x844) 31 = true ∧ (bit (s.reg Pg.tim 0 0x844) 29 = true → s.tim.trusted = true) ∧
  s.tim.running = true ∧ s.tim.ppsFrom ≤ s.ppsBoundary ∧ s.tim.ppsDone ≠ some s.ppsBoundary :=
  ⟨{ lit with tim := { running := true, sec := 1 } }.setReg Pg.tim 0 0x844 0x80000000, by decide +kernel⟩

theorem fits_TimeCommandsComplete_7 : ∃ (s : State),
  s.tim.ppsLeft = 0 :=
  ⟨lit, by decide +kernel⟩

theorem fits_TimeCommandsComplete_8 : ∃ (rising : Bool) (s : State),
  bit (s.reg Pg.tim 0 0x84C) 31 = true ∧ bit (s.reg Pg.tim 0 0x84C) 30 = !rising ∧ s.domOn Dm.per = true ∧
  s.tim.running = true ∧ s.supplied .c = true :=
  ⟨true, { lit with tim := { running := true, sec := 1 } }.setReg Pg.tim 0 0x84C 0x80000000, by decide +kernel⟩

theorem fits_TimeCommandsComplete_9 : ∃ (s : State) (b : BeaconTime) (bs : List BeaconTime),
  s.tim.beacons = b :: bs :=
  ⟨{ lit with tim := { beacons := [{ ns := 5, secLo := 0, rxSec := 0, rxNs := 3, slewAt := 0 }] } }.setReg Pg.tim 0 0x8A0 0x80000000, { ns := 5, secLo := 0, rxSec := 0, rxNs := 3, slewAt := 0 }, [], by decide +kernel⟩

theorem fits_TimeCommandsComplete_10 : ∃ (s : State) (t0 n0 : Nat),
  s.tim.cap = some (t0, n0) ∧ s.clk.sysLock = true ∧ s.tim.sleepFail = false :=
  ⟨{ lit with tim := { cap := some (7, 0) }, ticks := 40 }, 7, 0, by decide +kernel⟩

theorem fits_EthernetCommandsComplete_1 : ∃ (k back : Nat) (flips : List Flip) (s t : State) (i : Item) (bs : List (Option Byte)) (f : List Byte) (e : EccSum),
  let u := s.applyFlips flips
  let start : Int := (u.nowNs : Int) - back + (u.fieldOf Pg.eth 0 0x810 31 16 : Nat)
  u.ethItem k = some i ∧ u.ready Dm.eth = true ∧ u.eth.tx = none ∧ 14 ≤ i.length ∧ i.length + 4 ≤ u.maxFrame ∧
  u.ethLate i start = false ∧ u.eth.link = true ∧ (i.timed = true → u.launchNs i.ns i.secLo ≤ start) ∧
  u.unitRead i.addrA i.length = (t, .ok bs e) ∧ knownBytes bs = some f :=
  ⟨0, 0, [], { holding (entry Pg.eth 1 [0x10002000, 0, 60, 0, 0, 0, 0]) with eth := { link := true, speed := 2 } }, (State.unitRead ({ holding (entry Pg.eth 1 [0x10002000, 0, 60, 0, 0, 0, 0]) with eth := { link := true, speed := 2 } }) 0x10002000 60).1, (entry Pg.eth 1 [0x10002000, 0, 60, 0, 0, 0, 0]), List.replicate 60 (some 0), List.replicate 60 0, {}, by decide +kernel⟩

theorem fits_EthernetCommandsComplete_2 : ∃ (k back : Nat) (flips : List Flip) (s : State) (i : Item) (x : EthTx),
  let u := s.applyFlips flips
  u.ethItem k = some i ∧ u.ready Dm.eth = true ∧ u.eth.tx = some x ∧ x.item = k :=
  ⟨0, 0, [], { holding (entry Pg.eth 1 [0x10002000, 0, 60, 0, 0, 0, 0]) with eth := { link := true, speed := 2, tx := some { item := 0, frame := [], result := { status := 0 } } } }, (entry Pg.eth 1 [0x10002000, 0, 60, 0, 0, 0, 0]), { item := 0, frame := [], result := { status := 0 } }, by decide +kernel⟩

theorem fits_EthernetCommandsComplete_3 : ∃ (octets : List Byte) (back : Nat) (flips : List Flip) (s t : State) (r : MemAns Unit),
  let u := s.applyFlips flips
  u.ready Dm.eth = true ∧ u.eth.link = true ∧ u.supplied .e = true ∧ octets.length ≤ u.maxFrame ∧
  fcsOk false octets = true ∧ u.ethAccepts octets = true ∧ u.ethFree = true ∧ 
  let slot := u.ethProd % u.ethSize
  u.unitWrite ((u.ethRx 0x820).toNat + 2048 * slot) octets = (t, r) ∧ r ≠ .waits :=
  ⟨(List.replicate 6 0xFF ++ List.replicate 54 0 ++ fcsOf false (List.replicate 6 0xFF ++ List.replicate 54 0)), 0, [], (regsOf { lit with eth := { link := true } } Pg.eth [(0x820, 0x10008000), (0x824, 0x80000004)]), ((regsOf { lit with eth := { link := true } } Pg.eth [(0x820, 0x10008000), (0x824, 0x80000004)]).unitWrite 0x10008000 (List.replicate 6 0xFF ++ List.replicate 54 0 ++ fcsOf false (List.replicate 6 0xFF ++ List.replicate 54 0))).1, ((regsOf { lit with eth := { link := true } } Pg.eth [(0x820, 0x10008000), (0x824, 0x80000004)]).unitWrite 0x10008000 (List.replicate 6 0xFF ++ List.replicate 54 0 ++ fcsOf false (List.replicate 6 0xFF ++ List.replicate 54 0))).2, by decide +kernel⟩

theorem fits_EthernetCommandsComplete_4 : ∃ (ini : Initiator) (v : Word) (s : State),
  s.gate ini Pg.eth 0x82C true = .serve :=
  ⟨.c0, 5, lit, by decide +kernel⟩

theorem fits_EthernetCommandsComplete_5 : ∃ (ini : Initiator) (v : Word) (s : State),
  s.gate ini Pg.eth 0x838 true = .serve ∧ 
  let u := s.accessed ini Pg.eth 0x838
  bit (u.reg Pg.eth 0 0x838) 31 = false :=
  ⟨.c0, 5, lit, by decide +kernel⟩

theorem fits_EthernetCommandsComplete_6 : ∃ (data : Half) (s : State),
  bit (s.reg Pg.eth 0 0x838) 31 = true ∧ s.ready Dm.eth = true :=
  ⟨0x1234, lit.setReg Pg.eth 0 0x838 0x80000000, by decide +kernel⟩

theorem fits_EthernetCommandsComplete_7 : ∃ (up : Bool) (speed : Nat) (s : State),
  s.ready Dm.eth = true :=
  ⟨true, 2, lit, by decide +kernel⟩

theorem fits_EthernetCommandsComplete_8 : ∃ (s : State),
  (s.dom Dm.eth).st = .retention ∧ (s.dom Dm.eth).phase = .none ∧ bit (s.reg Pg.eth 0 0x83C) 31 = true :=
  ⟨(lit.setDom Dm.eth { st := .retention }).setReg Pg.eth 0 0x83C 0x80000000, by decide +kernel⟩


theorem fits_TimeCommandsComplete_2_set : ∃ (s : State) (c : Commit),
  s.commitOf Pg.tim = some c ∧ s.hasStaged Pg.tim 0 0x814 = true ∧ bits (s.stagedReg Pg.tim 0 0x814) 1 0 = 1 :=
  ⟨{ lit with commits := [⟨Pg.tim, .c0, false, 0⟩], staged := [(regKey Pg.tim 0 0x814, 1)] }, ⟨Pg.tim, .c0, false, 0⟩, by decide +kernel⟩

theorem fits_TimeCommandsComplete_2_step : ∃ (s : State) (c : Commit),
  s.commitOf Pg.tim = some c ∧ s.hasStaged Pg.tim 0 0x814 = true ∧ bits (s.stagedReg Pg.tim 0 0x814) 1 0 = 2 :=
  ⟨{ lit with commits := [⟨Pg.tim, .c0, false, 0⟩], staged := [(regKey Pg.tim 0 0x814, 2)] }, ⟨Pg.tim, .c0, false, 0⟩, by decide +kernel⟩

theorem fits_TimeCommandsComplete_2_slew : ∃ (s : State) (c : Commit),
  s.commitOf Pg.tim = some c ∧ s.hasStaged Pg.tim 0 0x814 = true ∧ bits (s.stagedReg Pg.tim 0 0x814) 1 0 = 3 :=
  ⟨{ lit with commits := [⟨Pg.tim, .c0, false, 0⟩], staged := [(regKey Pg.tim 0 0x814, 3)] }, ⟨Pg.tim, .c0, false, 0⟩, by decide +kernel⟩
end Sys2Proof.Tests
end

