-- ==== Sys2Proof/Tests/Nand.lean ====
section
/-! SUPPORT. The hypotheses of the completion statements of NMC are met. -/

set_option Elab.async false
set_option linter.unusedVariables false

namespace Sys2Proof.Tests

open Sys2Proof Sys2Proof.Machine

/-- DRAM holds the map; target 1 has 20 blocks, 64 pages a block. -/
def nandBase (s : State) : State :=
  (regsOf (dramed s) Pg.nmc [(0x008, 1), (0x81C, 4), (0x824, 0x80100000), (0x828, 1)]).setReg Pg.nmc 1 0x100 0x80000000 |>.setReg Pg.nmc 1 0x104 20
def nmcEntry (op a b n : Nat) : Item := entry Pg.nmc op [word a, word b, word n, 0, 0, 0, 0]
def nand (i : Item) (n : Nand) : State := { nandBase (holding i (ringed Pg.nmc)) with nmc := n }
def mountedNand : Nand := { st := .mounted, tgs := [(1, .online)], formatted := [(1, true)] }
def idle (n : Nand) : State := { nandBase lit with nmc := n }

/-- Block 3 of target 1 was erased far more often than the others, which have data or stand free. -/
def wornNand : Nand :=
  { mountedNand with
    moveErases := 1000
    blks := [(blkNo 1 2, { used := 1 }), (blkNo 1 3, { erases := 50000 })]
    pages := [(0, { target := 1, block := 2, seq := 1, data := [] })] }
def wearing : State := { (idle wornNand).setReg Pg.nmc 0 0x808 0x80000064 with nmc := wornNand }

theorem fits_NandCommandsComplete_1 : ∃ (k : Nat) (ecc : List NandEcc) (s : State) (i : Item),
  s.nmcItem 1 k = some i ∧ s.nandBad i = false ∧ s.rangeStatus s.mapAddr s.mapSize = .ready ∧
  s.rangeStatus i.addrB i.length = .ready :=
  ⟨0, [.corrected 3], nand (nmcEntry 1 0 0x10002000 4096) mountedNand, nmcEntry 1 0 0x10002000 4096, by decide +kernel, by decide +kernel, by decide +kernel, by decide +kernel⟩

theorem fits_NandCommandsComplete_3 : ∃ (k : Nat) (s : State) (i : Item),
  s.nmcItem 3 k = some i ∧ s.nandBad i = false ∧ s.rangeStatus s.mapAddr s.mapSize = .ready :=
  ⟨0, nand (nmcEntry 3 0 0 4096) mountedNand, nmcEntry 3 0 0 4096, by decide +kernel, by decide +kernel, by decide +kernel⟩

theorem fits_NandCommandsComplete_4 : ∃ (k : Nat) (s : State) (i : Item),
  s.nmcItem 4 k = some i ∧ s.nmc.st ≠ .unmounted ∧ s.rangeStatus s.mapAddr s.mapSize = .ready ∧
  (∀ j ∈ s.flm.ift.takeWhile (fun j => j.id != k), j.unit = Pg.nmc → j.opcode = 2 → j.result.isSome = true ∨ j.st = .retiring) :=
  ⟨0, nand (nmcEntry 4 0 0 0) mountedNand, nmcEntry 4 0 0 0, by decide +kernel, by decide +kernel, by decide +kernel, (fun _ h => nomatch h)⟩

theorem fits_NandCommandsComplete_5 : ∃ (k : Nat) (failing newer : List Nat) (factory bad : List (Nat × Nat)) (s : State) (i : Item),
  (s.nmcItem 5 k = some i ∨ s.nmcItem 6 k = some i) ∧ i.lat = [] ∧ s.rangeStatus s.mapAddr s.mapSize = .ready ∧
  s.nmc.st = .unmounted ∧ s.nmc.ops = [] ∧ s.mountItem = none ∧ 
  let u := s.identify failing
  u.anyFailed = false :=
  ⟨0, [], [], [], [], nand (nmcEntry 6 0 0 0) {}, nmcEntry 6 0 0 0, by decide +kernel, by decide +kernel, by decide +kernel, by decide +kernel, by decide +kernel, by decide +kernel, by decide +kernel⟩

theorem fits_NandCommandsComplete_6 : ∃ (k : Nat) (failing newer : List Nat) (s : State) (i : Item),
  s.nmcItem 5 k = some i ∧ i.lat ≠ [] ∧ s.rangeStatus s.mapAddr s.mapSize = .ready :=
  ⟨0, [], [], nand { nmcEntry 5 0 0 0 with lat := [1] } { formatted := [(1, true)] }, { nmcEntry 5 0 0 0 with lat := [1] }, by decide +kernel, by decide +kernel, by decide +kernel⟩

theorem fits_NandCommandsComplete_7 : ∃ (k : Nat) (failing : List Nat) (factory bad : List (Nat × Nat)) (s : State) (i : Item),
  s.nmcItem 6 k = some i ∧ i.lat ≠ [] ∧ s.rangeStatus s.mapAddr s.mapSize = .ready :=
  ⟨0, [], [], [], nand { nmcEntry 6 0 0 0 with lat := [1] } {}, { nmcEntry 6 0 0 0 with lat := [1] }, by decide +kernel, by decide +kernel, by decide +kernel⟩

theorem fits_NandCommandsComplete_8 : ∃ (target choice : Nat) (s : State),
  s.ready Dm.nmc = true ∧ target ∈ s.onlineTgs :=
  ⟨1, 4, idle mountedNand, by decide +kernel, by decide +kernel⟩

theorem fits_NandCommandsComplete_9 : ∃ (target choice : Nat) (s : State) (o : NandOp),
  s.nmc.ops.find? (fun o => o.target == target) = some o ∧ s.rangeStatus s.mapAddr s.mapSize = .ready :=
  ⟨1, 4, idle { mountedNand with ops := [{ target := 1, block := 3 }] }, { target := 1, block := 3 }, by decide +kernel, by decide +kernel⟩

theorem fits_NandCommandsComplete_10 : ∃ (target block choice : Nat) (lost : List Nat) (s : State) (e : Nat × RelocCause),
  s.nmc.sched.find? (fun e => e.1 == blkNo target block) = some e ∧ s.ready Dm.nmc = true ∧ s.nmc.st ≠ .unmounted ∧
  block < 2 ^ 18 ∧ s.nmc.ops.any (fun o => o.target == target && o.block == block) = false ∧
  s.rangeStatus s.mapAddr s.mapSize = .ready :=
  ⟨1, 3, 4, [], idle { mountedNand with sched := [(blkNo 1 3, .reads)] }, (blkNo 1 3, .reads), by decide +kernel, by decide +kernel, by decide +kernel, by decide +kernel, by decide +kernel, by decide +kernel⟩

theorem fits_NandCommandsComplete_11 : ∃ (choice : Nat) (s : State) (t b : Nat),
  s.ready Dm.nmc = true ∧ s.nmc.st = .mounted ∧ bit (s.nmcReg 0x808) 31 = true ∧ 1000 ≤ s.nmc.moveErases ∧
  s.onlineTgs.find? (fun t => bits (s.nmcReg 0x808) 15 0 < s.spread t) = some t ∧ 
  let good := (List.range (s.tgBlocks t)).filter (fun b => !(s.blk (blkNo t b)).bad)
  let least := (good.map (fun b => s.eraseCount (blkNo t b))).foldl min (s.eraseCount (blkNo t (good.headD 0)))
  
  good.find? (fun b => s.eraseCount (blkNo t b) == least && !(s.validOn t b).isEmpty && !s.nmc.ops.any (fun o => o.target == t && o.block == b)) = some b ∧
  s.rangeStatus s.mapAddr s.mapSize = .ready :=
  ⟨4, wearing, 1, 2, by decide +kernel, by decide +kernel, by decide +kernel, by decide +kernel, by decide +kernel, by decide +kernel, by decide +kernel⟩

theorem fits_NandCommandsComplete_12 : ∃ (ecc : List NandEcc) (s : State),
  bit (s.nmcReg 0x814) 31 = true ∧ s.ready Dm.nmc = true ∧ s.nmc.st ≠ .unmounted :=
  ⟨[], (idle mountedNand).setReg Pg.nmc 0 0x814 0x80000000, by decide +kernel, by decide +kernel, by decide +kernel⟩

theorem prog_room : State.wbRoom (nand (nmcEntry 2 0x18000000 0 4096) mountedNand) ((nmcEntry 2 0x18000000 0 4096).lpnCount - ((((nand (nmcEntry 2 0x18000000 0 4096) mountedNand).nandJob 0).map (·.copied)).getD 0)) = 1 := by decide +kernel

theorem prog_at : (nmcEntry 2 0x18000000 0 4096).addrA + 4096 * ((((nand (nmcEntry 2 0x18000000 0 4096) mountedNand).nandJob 0).map (·.copied)).getD 0) = 0x18000000 := by decide +kernel

/-- `PROGRAM` of one logical page, whose data stand in AON SRAM. -/
theorem fits_NandCommandsComplete_2 : ∃ (k choice : Nat) (flips : List Flip) (s t : State) (i : Item) (bs : List Byte) (os : List (Option Byte)) (e : EccSum),
  let u := s.applyFlips flips
  let first := ((u.nandJob k).map (·.copied)).getD 0
  let n := u.wbRoom (i.lpnCount - first)
  u.nmcItem 2 k = some i ∧ u.nandBad i = false ∧ u.rangeStatus u.mapAddr u.mapSize = .ready ∧
  u.rangeStatus (u.nmcReg 0x824).toNat u.wbBytes = .ready ∧
  u.unitRead (i.addrA + 4096 * first) (4096 * n) = (t, .ok os e) ∧ knownBytes os = some bs ∧ t.nmc.st ≠ .readonly ∧
  t.onlineTgs ≠ [] := by
  obtain ⟨os, e, h, hk⟩ := reads_aon (s := nand (nmcEntry 2 0x18000000 0 4096) mountedNand) (a := 0x18000000) (n := 4096) (by decide) (by decide)
  exact ⟨0, 4, [], nand (nmcEntry 2 0x18000000 0 4096) mountedNand, nand (nmcEntry 2 0x18000000 0 4096) mountedNand, nmcEntry 2 0x18000000 0 4096, _, os, e, by decide +kernel, by decide +kernel, by decide +kernel, by decide +kernel,
    (congr (congrArg (State.unitRead (nand (nmcEntry 2 0x18000000 0 4096) mountedNand)) prog_at) (congrArg (4096 * ·) prog_room)).trans h, hk,
    by decide +kernel, by decide +kernel⟩

theorem fits_NandCommandsComplete_9_erase : ∃ (target choice : Nat) (s : State) (o : NandOp),
  s.nmc.ops.find? (fun o => o.target == target) = some o ∧ s.rangeStatus s.mapAddr s.mapSize = .ready ∧
  let u := s.setNmc (fun n => { n with ops := n.ops.filter (fun x => x.target != target) })
  let k := blkNo target o.block
  let v := (u.setBlk k { u.blk k with erases := (u.blk k).erases + 1, used := 0, reads := 0 }).setNmc
      (fun n => { n with moveErases := n.moveErases + 1, sched := n.sched.filter (fun e => e.1 != k) })
  let placed := (o.pages.foldl (fun s p => s.mapPage target o.block p) u).usePage target o.block
  let moved := ((o.pages.filterMap (·.item)).eraseDups ++ (u.nmc.jobs.map (·.item)).filter (fun e => (u.validOn target o.block).any (fun v =>
      match u.item e with | some i => i.lpn ≤ v.1 && v.1 < i.lpn + i.lpnCount | none => false))).eraseDups
  let failed := moved.foldl (fun s e => s.jobRetired e) (((u.growBad target o.block).moveBlock target o.block choice []).retireReport target o.block 1)
  o.pages = [] :=
  ⟨1, 4, idle { mountedNand with ops := [{ target := 1, block := 3 }] }, { target := 1, block := 3 }, by decide +kernel, by decide +kernel, by decide +kernel⟩

theorem fits_NandCommandsComplete_9_program : ∃ (target choice : Nat) (s : State) (o : NandOp),
  s.nmc.ops.find? (fun o => o.target == target) = some o ∧ s.rangeStatus s.mapAddr s.mapSize = .ready ∧
  let u := s.setNmc (fun n => { n with ops := n.ops.filter (fun x => x.target != target) })
  let k := blkNo target o.block
  let v := (u.setBlk k { u.blk k with erases := (u.blk k).erases + 1, used := 0, reads := 0 }).setNmc
      (fun n => { n with moveErases := n.moveErases + 1, sched := n.sched.filter (fun e => e.1 != k) })
  let placed := (o.pages.foldl (fun s p => s.mapPage target o.block p) u).usePage target o.block
  let moved := ((o.pages.filterMap (·.item)).eraseDups ++ (u.nmc.jobs.map (·.item)).filter (fun e => (u.validOn target o.block).any (fun v =>
      match u.item e with | some i => i.lpn ≤ v.1 && v.1 < i.lpn + i.lpnCount | none => false))).eraseDups
  let failed := moved.foldl (fun s e => s.jobRetired e) (((u.growBad target o.block).moveBlock target o.block choice []).retireReport target o.block 1)
  o.pages ≠ [] :=
  ⟨1, 4, idle { mountedNand with ops := [{ target := 1, block := 3, pages := [{ lpn := 0, seq := 0, item := none, data := [] }] }] }, { target := 1, block := 3, pages := [{ lpn := 0, seq := 0, item := none, data := [] }] }, by decide +kernel, by decide +kernel, by decide +kernel⟩

theorem fits_NandCommandsComplete_5_mount : ∃ (k : Nat) (failing newer : List Nat) (factory bad : List (Nat × Nat)) (s : State) (i : Item),
  (s.nmcItem 5 k = some i ∨ s.nmcItem 6 k = some i) ∧ i.lat = [] ∧ s.rangeStatus s.mapAddr s.mapSize = .ready ∧
  s.nmc.st = .unmounted ∧ s.nmc.ops = [] ∧ s.mountItem = none ∧
  let u := s.identify failing
  u.anyFailed = false ∧ s.nmcItem 5 k = some i ∧ (List.range 4).any u.tgPresent = true ∧
  (∀ t, t < 4 → u.tgPresent t = true → Sparse.get false u.nmc.formatted t = true) :=
  ⟨0, [], [], [], [], nand (nmcEntry 5 0 0 0) { formatted := [(1, true)] }, nmcEntry 5 0 0 0, by decide +kernel, by decide +kernel, by decide +kernel, by decide +kernel, by decide +kernel, by decide +kernel, by decide +kernel, by decide +kernel, by decide +kernel, (fun t ht => (match t, ht with | 0, _ => by decide +kernel | 1, _ => by decide +kernel | 2, _ => by decide +kernel | 3, _ => by decide +kernel))⟩

theorem fits_NandCommandsComplete_12_end : ∃ (ecc : List NandEcc) (s : State),
  bit (s.nmcReg 0x814) 31 = true ∧ s.ready Dm.nmc = true ∧ s.nmc.st ≠ .unmounted ∧ s.patrolNext = none :=
  ⟨[], (idle mountedNand).setReg Pg.nmc 0 0x814 0x80000000, by decide +kernel, by decide +kernel, by decide +kernel, by decide +kernel⟩

theorem fits_NandCommandsComplete_12_block : ∃ (ecc : List NandEcc) (s : State) (k : Nat),
  bit (s.nmcReg 0x814) 31 = true ∧ s.ready Dm.nmc = true ∧ s.nmc.st ≠ .unmounted ∧ s.patrolNext = some k :=
  ⟨[.corrected 2], wearing.setReg Pg.nmc 0 0x814 0x80000000, blkNo 1 2, by decide +kernel, by decide +kernel, by decide +kernel, by decide +kernel⟩

end Sys2Proof.Tests
end

