-- ==== Sys2Proof/Tests/Port.lean ====
section
/-! SUPPORT. The hypotheses of the completion statements of the serial units, the host port and CAS are met. -/

set_option Elab.async false
set_option linter.unusedVariables false

namespace Sys2Proof.Tests

open Sys2Proof Sys2Proof.Machine

/-- An item of a serial unit or of CAS: its opcode, the page, words 1 and 2, and word 3. -/
def perEntry (unit op a b n : Nat) (flags : Nat := 0) : Item :=
  { entry unit op [] with words := [word (op * 0x1000000 + flags), word a, word b, word n, 0, 0, 0, 0] }

/-- CAS runs, on the master or on a slave, with both links UP. -/
def chained (s : State) (c : Casc := { up := .up, dn := .up }) : State := { s.setReg Pg.cas 0 0x008 1 with cas := c }
def slave : State := chained lit { master := false, position := 1, up := .up, dn := .up }

/-- Tailrace ring 0 holds an entry to forward. -/
def forwarding : State :=
  { regsOf slave Pg.flm [(Fl.trBase, 0x10001000), (Fl.trCfg, 0x80000004), (Fl.trProd, 1)] with
    cas := { master := false, position := 1, up := .up, dn := .up, reg := true } }.setReg Pg.cas 0 0x804 0x80000000

theorem fits_SerialCommandsComplete_1 : ∃ (k : Nat) (lost : Bool) (nack : Option Nat) (flips : List Flip) (s t : State) (i : Item) (bs : List Byte),
  let u := s.applyFlips flips
  u.perItem k 1 = some i ∧ isDli i.unit = false ∧ i.serialBad = false ∧ u.reads i.addrA i.length bs t :=
  ⟨0, false, none, [], holding (perEntry 0x40 1 0x10002000 0 4 0), ((holding (perEntry 0x40 1 0x10002000 0 4 0)).unitRead 0x10002000 4).1, perEntry 0x40 1 0x10002000 0 4 0, List.replicate 4 0, by decide +kernel, by decide +kernel, by decide +kernel, reads_of (by decide +kernel)⟩

theorem fits_SerialCommandsComplete_2 : ∃ (k : Nat) (octets : List (Byte × Bool)) (s : State) (i : Item),
  s.perItem k 2 = some i ∧ isDli i.unit = false ∧ i.serialBad = false ∧ isUart i.unit = false ∧
  i.length ≤ octets.length ∧ s.rangeStatus i.addrB i.length = .ready :=
  ⟨0, List.replicate 4 (7, false), holding (perEntry 0x48 2 0 0x10002000 4 0), perEntry 0x48 2 0 0x10002000 4 0, by decide +kernel, by decide +kernel, by decide +kernel, by decide +kernel, by decide +kernel, by decide +kernel⟩

theorem fits_SerialCommandsComplete_3 : ∃ (k : Nat) (octets : List (Byte × Bool)) (lost nack : Bool) (s : State) (i : Item),
  s.perItem k 2 = some i ∧ i.serialBad = false ∧ isUart i.unit = true ∧ 
  let x := s.serial i.unit
  let new := octets.map (fun o => (uartOctet (s.reg i.unit 0 0x800) o.1, o.2))
  let got := (x.fifo ++ new).take i.length
  (i.length ≤ got.length ∨ i.uparam ≠ 0) ∧ s.rangeStatus i.addrB got.length = .ready :=
  ⟨0, [(7, false)], false, false, holding (perEntry 0x40 2 0 0x10002000 0x01000004 0), perEntry 0x40 2 0 0x10002000 0x01000004 0, by decide +kernel, by decide +kernel, by decide +kernel, by decide +kernel, by decide +kernel⟩

theorem fits_SerialCommandsComplete_4 : ∃ (k : Nat) (octets : List (Byte × Bool)) (s : State) (i : Item),
  s.perItem k 2 = some i ∧ i.serialBad = false ∧ isI2c i.unit = true :=
  ⟨0, [], holding (perEntry 0x44 2 0x50 0x10002000 4 0), perEntry 0x44 2 0x50 0x10002000 4 0, by decide +kernel, by decide +kernel, by decide +kernel⟩

theorem fits_SerialCommandsComplete_5 : ∃ (k : Nat) (octets : List Byte) (flips : List Flip) (s t : State) (i : Item) (bs : List Byte),
  let u := s.applyFlips flips
  u.perItem k 3 = some i ∧ isSpim i.unit = true ∧ u.rangeStatus i.addrB i.length = .ready ∧
  u.reads i.addrA i.length bs t :=
  ⟨0, [1, 2, 3, 4], [], holding (perEntry 0x46 3 0x10002000 0x10003000 4 0), ((holding (perEntry 0x46 3 0x10002000 0x10003000 4 0)).unitRead 0x10002000 4).1, perEntry 0x46 3 0x10002000 0x10003000 4 0, List.replicate 4 0, by decide +kernel, by decide +kernel, by decide +kernel, reads_of (by decide +kernel)⟩

theorem fits_SerialCommandsComplete_6 : ∃ (k : Nat) (collided : Bool) (back : Option (Byte × Bool)) (s : State) (i : Item),
  s.perItem k 1 = some i ∧ isDli i.unit = true ∧ i.dliBad = false ∧ (s.serial i.unit).bus = false :=
  ⟨0, false, none, holding (perEntry 0x38 1 0x1234 0 0x10000000 0x04), perEntry 0x38 1 0x1234 0 0x10000000 0x04, by decide +kernel, by decide +kernel, by decide +kernel, by decide +kernel⟩

theorem fits_SerialCommandsComplete_7 : ∃ (k : Nat) (collided : Bool) (back : Option (Byte × Bool)) (s : State) (i : Item),
  s.item k = some i ∧ s.perItem k 2 = some i ∧ isDli i.unit = true ∧ (s.serial i.unit).arm = none ∧ i.dliBad = false :=
  ⟨0, false, none, holding (perEntry 0x38 2 0x1234 0 0x10000000 0x04), perEntry 0x38 2 0x1234 0 0x10000000 0x04, by decide +kernel, by decide +kernel, by decide +kernel, by decide +kernel, by decide +kernel⟩

theorem fits_SerialCommandsComplete_8 : ∃ (k : Nat) (collided : Bool) (back : Option (Byte × Bool)) (s : State) (i : Item),
  s.item k = some i ∧ isDli i.unit = true ∧ (s.serial i.unit).arm = some k ∧ (s.serial i.unit).bus = true :=
  ⟨0, false, none, { (holding (perEntry 0x38 2 0x1234 0 0x10000000 0x04)) with per := { units := [(0x38, { arm := some 0, bus := true })] } }, perEntry 0x38 2 0x1234 0 0x10000000 0x04, by decide +kernel, by decide +kernel, by decide +kernel, by decide +kernel⟩

theorem fits_SerialCommandsComplete_9 : ∃ (k : Nat) (frame : Word) (len : Nat) (s : State),
  k < 2 ∧ s.ready Dm.per = true ∧ s.supplied .c = true :=
  ⟨1, 0xFE05, 16, lit, by decide +kernel, by decide +kernel, by decide +kernel⟩

theorem fits_SerialCommandsComplete_10 : ∃ (k : Nat) (octet : Byte) (err : Bool) (s : State),
  k < 4 ∧ s.ready Dm.per = true ∧ s.supplied .a = true ∧ s.rxRuns (0x40 + k) = false :=
  ⟨3, 7, false, lit, by decide +kernel, by decide +kernel, by decide +kernel, by decide +kernel⟩

theorem fits_SerialCommandsComplete_11 : ∃ (k : Nat) (s : State),
  k < 4 ∧ s.ready Dm.per = true ∧ s.rxRuns (0x40 + k) = false ∧ 
  let p := 0x40 + k
  let x := s.serial p
  let rep := s.reg p 0 0x804
  bit rep 31 = true ∧ x.fifo ≠ [] :=
  ⟨3, { lit.setReg 0x43 0 0x804 0x80000000 with per := { units := [(0x43, { fifo := [(7, false)] })] } }, by decide +kernel, by decide +kernel, by decide +kernel, by decide +kernel, by decide +kernel⟩

theorem fits_SerialCommandsComplete_12 : ∃ (k : Nat) (s : State),
  k < 2 ∧ s.unitBusy (0x44 + k) = false :=
  ⟨1, lit, by decide +kernel, by decide +kernel⟩

theorem fits_SerialCommandsComplete_13 : ∃ (octets : List Byte) (flips : List Flip) (s : State) (cmd : Byte) (rest : List Byte),
  let u := s.applyFlips flips
  u.per.hspi.ended = false ∧ u.supplied .a = true ∧ u.per.hspi.frame = none ∧ u.per.hspi.rx ++ octets = cmd :: rest :=
  ⟨[1, 2], [], lit, 1, [2], by decide +kernel, by decide +kernel, by decide +kernel, by decide +kernel⟩

theorem fits_CascadeCommandsComplete_1 : ∃ (down : Bool) (s : State),
  s.casRuns = true ∧ s.casLink down = .down :=
  ⟨true, chained lit {}, by decide +kernel, by decide +kernel⟩

theorem fits_CascadeCommandsComplete_2 : ∃ (down : Bool) (s : State),
  s.casRuns = true ∧ s.casLink down = .training :=
  ⟨true, chained lit { dn := .training }, by decide +kernel, by decide +kernel⟩

theorem fits_CascadeCommandsComplete_3 : ∃ (down : Bool) (s : State),
  s.casRuns = true ∧ s.casLink down = .up :=
  ⟨true, (chained lit), by decide +kernel, by decide +kernel⟩

theorem fits_CascadeCommandsComplete_4 : ∃ (down : Bool) (s : State),
  s.casLink down = .up :=
  ⟨true, (chained lit), by decide +kernel⟩

theorem fits_CascadeCommandsComplete_5 : ∃ (sec ns rtt : Nat) (addend : Word) (s : State),
  s.casRuns = true ∧ s.casLink true = .up :=
  ⟨0, 0, 100, 0, (chained lit), by decide +kernel, by decide +kernel⟩

theorem fits_CascadeCommandsComplete_6 : ∃ (sec ns rtt : Nat) (addend : Word) (s : State),
  s.casRuns = true ∧ s.casLink false = .up ∧ s.cas.master = false ∧ s.tim.running = true :=
  ⟨0, 0, 100, 0, { slave with tim := { running := true } }, by decide +kernel, by decide +kernel, by decide +kernel, by decide +kernel⟩

theorem fits_CascadeCommandsComplete_7 : ∃ (found : List CasFound) (p : Nat) (s : State),
  s.casRuns = true :=
  ⟨[], 1, (chained lit), by decide +kernel⟩

theorem fits_CascadeCommandsComplete_8 : ∃ (ini : Initiator) (p : Nat) (s : State),
  p < 8 ∧ s.cas.master = true ∧ s.gate ini Pg.cas (0x940 + 4 * p) true = .serve ∧ 
  let u := s.accessed ini Pg.cas (0x940 + 4 * p)
  let x := u.casPos p
  u.locked Pg.cas = false :=
  ⟨.c0, 3, (chained lit), by decide +kernel, by decide +kernel, by decide +kernel, by decide +kernel⟩

theorem fits_CascadeCommandsComplete_9 : ∃ (s : State),
  s.cas.master = false ∧ s.casRuns = true ∧ s.cas.up = .up :=
  ⟨slave, by decide +kernel, by decide +kernel, by decide +kernel⟩

theorem fits_CascadeCommandsComplete_10 : ∃ (flips : List Flip) (s t : State) (bs : List Byte),
  let u := s.applyFlips flips
  let cfg := u.reg Pg.cas 0 0x804
  let r := bits cfg 29 24
  u.cas.master = false ∧ u.cas.reg = true ∧ u.casRuns = true ∧ bit cfg 31 = true ∧ u.cas.up = .up ∧
  u.trProd r ≠ u.trCons r ∧ u.reads ((u.reg Pg.flm r Fl.trBase).toNat + 32 * (u.trCons r % u.trSize r)) 32 bs t :=
  ⟨[], forwarding, ((forwarding).unitRead 0x10001000 32).1, List.replicate 32 0, by decide +kernel, by decide +kernel, by decide +kernel, by decide +kernel, by decide +kernel, by decide +kernel, reads_of (by decide +kernel)⟩

theorem fits_CascadeCommandsComplete_11 : ∃ (origin : Nat) (unlocked : Bool) (entry : List Word) (psdu : List Byte) (flips : List Flip) (s t : State),
  let u := s.applyFlips flips
  let cfg := u.reg Pg.cas 0 0x80C
  let slot := u.rxProd % u.rxSize
  let w := fun k => entry.getD k 0
  u.cas.master = true ∧ u.casRuns = true ∧ u.cas.dn = .up ∧ bit cfg 31 = true ∧ (u.casPos origin).st = .registered ∧
  subMod (2 * u.rxSize) u.rxProd u.rxCons ≠ u.rxSize ∧
  u.writes ((u.reg Pg.cas 0 0x808).toNat + 4096 * slot) (bytesOfWords ((List.range 8).map w) ++ psdu.take 4064) t :=
  ⟨2, false, [0x04, 0x00200000], [], [], regsOf (chained lit { up := .up, dn := .up, pos := [(2, { st := .registered })] }) Pg.cas [(0x808, 0x10004000), (0x80C, 0x80000001)], _, by decide +kernel, by decide +kernel, by decide +kernel, by decide +kernel, by decide +kernel, by decide +kernel, writes_ready (by decide +kernel)⟩

theorem fits_CascadeCommandsComplete_12 : ∃ (ini : Initiator) (v : Word) (s : State),
  s.gate ini Pg.cas 0x814 true = .serve :=
  ⟨.c0, 1, lit, by decide +kernel⟩

theorem fits_CascadeCommandsComplete_13 : ∃ (k : Nat) (words : List Word) (refused : Option Nat) (flips : List Flip) (s t : State) (i : Item),
  let u := s.applyFlips flips
  let n := min (i.length / 4) (refused.getD (i.length / 4))
  let st := if n < i.length / 4 then Sc.internal else Sc.done
  u.casTurn 1 k false = some i :=
  ⟨0, [1, 2], none, [], chained (holding (perEntry Pg.cas 1 0x10002000 0 8 1)), chained (holding (perEntry Pg.cas 1 0x10002000 0 8 1)), perEntry Pg.cas 1 0x10002000 0 8 1, by decide +kernel⟩

theorem fits_CascadeCommandsComplete_14 : ∃ (k refused : Nat) (flips : List Flip) (s t : State) (i j : Item) (bs : List Byte),
  let u := s.applyFlips flips
  u.casTurn 2 k false = some i ∧ u.reads i.addrA i.length bs t ∧ 
  let v := t.setCas (fun c => { c with sent := bs })
  let w := if i.addrB.testBit 0 then State.casPairs ((wordsOfBytes (i.length / 4) bs).drop (2 * (i.lat.getD 1 0).toNat)) k v else v
  w.item k = some j ∧ (i.addrB.testBit 0 = true → i.length / 8 ≤ (j.lat.getD 1 0).toNat) :=
  ⟨0, 0, [], chained (holding (perEntry Pg.cas 2 0x10002000 0x02 8 0)), ((chained (holding (perEntry Pg.cas 2 0x10002000 0x02 8 0))).unitRead 0x10002000 8).1, perEntry Pg.cas 2 0x10002000 0x02 8 0, perEntry Pg.cas 2 0x10002000 0x02 8 0, List.replicate 8 0, by decide +kernel, reads_of (by decide +kernel), by decide +kernel, (by decide +kernel)⟩

theorem fits_CascadeCommandsComplete_15 : ∃ (k : Nat) (s : State) (i : Item),
  s.casTurn 3 k false = some i :=
  ⟨0, chained (holding (perEntry Pg.cas 3 0 0 0x02000000 0)), perEntry Pg.cas 3 0 0 0x02000000 0, by decide +kernel⟩

theorem fits_CascadeCommandsComplete_16 : ∃ (k : Nat) (s : State) (i : Item),
  s.casTurn 4 k true = some i ∧ s.cas.snap.any (fun n => n.item == k) = false :=
  ⟨0, chained (holding (perEntry Pg.cas 4 0 0 0x02000000 0)), perEntry Pg.cas 4 0 0 0x02000000 0, by decide +kernel, by decide +kernel⟩

theorem fits_CascadeCommandsComplete_17 : ∃ (sec ns : Nat) (s : State) (n : CasSnap) (i : Item),
  s.cas.master = true ∧ s.cas.snap = some n ∧ s.reached n.at_ = true ∧ s.item n.item = some i ∧ i.unit = Pg.cas ∧
  i.opcode = 4 ∧ i.st = .active ∧ i.result = none :=
  ⟨0, 0, { chained (holding (perEntry Pg.cas 4 0 0 0x02000000 0)) with cas := { snap := some ⟨0, 0⟩ } }, ⟨0, 0⟩, perEntry Pg.cas 4 0 0 0x02000000 0, by decide +kernel, by decide +kernel, by decide +kernel, by decide +kernel, by decide +kernel, by decide +kernel, by decide +kernel, by decide +kernel⟩

theorem fits_CascadeCommandsComplete_18 : ∃ (sec ns : Nat) (s : State),
  s.cas.master = false ∧ s.casRuns = true ∧ s.cas.up = .up ∧ s.reached ((sec * 1000000000 + ns : Nat) : Int) = true :=
  ⟨0, 0, slave, by decide +kernel, by decide +kernel, by decide +kernel, by decide +kernel⟩

theorem fits_CascadeCommandsComplete_19 : ∃ (k : Nat) (air : List Air) (s : State) (i : Item),
  s.casTurn 5 k false = some i :=
  ⟨0, [], chained (holding (perEntry Pg.cas 5 0 0 0x02000000 0)), perEntry Pg.cas 5 0 0 0x02000000 0, by decide +kernel⟩

theorem fits_CascadeCommandsComplete_20 : ∃ (air : List Air) (s : State),
  s.cas.master = false ∧ s.casRuns = true ∧ s.cas.up = .up :=
  ⟨[], slave, by decide +kernel, by decide +kernel, by decide +kernel⟩

theorem fits_CascadeCommandsComplete_21 : ∃ (k : Nat) (report : List Byte) (flips : List Flip) (s t v : State) (i : Item) (bs : List Byte),
  let u := s.applyFlips flips
  u.casTurn 6 k false = some i ∧ u.reads i.addrA 32 bs t ∧
  (t.setCas (fun c => { c with sent := bs })).writes i.addrB (padTo 240 (report.take 240)) v :=
  ⟨0, [], [], chained (holding (perEntry Pg.cas 6 0x10002000 0x10003000 0x01000020 0)), ((chained (holding (perEntry Pg.cas 6 0x10002000 0x10003000 0x01000020 0))).unitRead 0x10002000 32).1, _, perEntry Pg.cas 6 0x10002000 0x10003000 0x01000020 0, List.replicate 32 0, by decide +kernel, reads_of (by decide +kernel), writes_ready (by decide +kernel)⟩

theorem fits_CascadeCommandsComplete_22 : ∃ (k : Nat) (found : List CasFound) (s : State) (i : Item),
  s.casTurn 7 k false = some i :=
  ⟨0, [], chained (holding (perEntry Pg.cas 7 0 0 0 0)), perEntry Pg.cas 7 0 0 0 0, by decide +kernel⟩

theorem fits_SerialCommandsComplete_3_full : ∃ (k : Nat) (octets : List (Byte × Bool)) (lost nack : Bool) (s : State) (i : Item),
  s.perItem k 2 = some i ∧ i.serialBad = false ∧ isUart i.unit = true ∧
  let x := s.serial i.unit
  let new := octets.map (fun o => (uartOctet (s.reg i.unit 0 0x800) o.1, o.2))
  let got := (x.fifo ++ new).take i.length
  (i.length ≤ got.length ∨ i.uparam ≠ 0) ∧ s.rangeStatus i.addrB got.length = .ready ∧
  let u := s.takeCfg i.unit
  i.length ≤ got.length :=
  ⟨0, List.replicate 4 (7, false), false, false, holding (perEntry 0x40 2 0 0x10002000 0x01000004 0), perEntry 0x40 2 0 0x10002000 0x01000004 0, by decide +kernel, by decide +kernel, by decide +kernel, by decide +kernel, by decide +kernel, by decide +kernel⟩

theorem fits_CascadeCommandsComplete_7_slave : ∃ (found : List CasFound) (p : Nat) (s : State),
  s.casRuns = true ∧ s.cas.master = false ∧ s.cas.up = .up ∧ 1 ≤ p ∧ p ≤ 7 :=
  ⟨[], 1, slave, by decide +kernel, by decide +kernel, by decide +kernel, by decide +kernel, by decide +kernel⟩

theorem fits_CascadeCommandsComplete_7_master : ∃ (found : List CasFound) (p : Nat) (s : State),
  s.casRuns = true ∧ s.cas.master = true :=
  ⟨[], 1, (chained lit), by decide +kernel, by decide +kernel⟩

theorem fits_CascadeCommandsComplete_8_new : ∃ (ini : Initiator) (p : Nat) (s : State),
  p < 8 ∧ s.cas.master = true ∧ s.gate ini Pg.cas (0x940 + 4 * p) true = .serve ∧
  let u := s.accessed ini Pg.cas (0x940 + 4 * p)
  let x := u.casPos p
  u.locked Pg.cas = false ∧ x.st = .new :=
  ⟨.c0, 3, chained lit { up := .up, dn := .up, pos := [(3, { st := .new })] }, by decide +kernel, by decide +kernel, by decide +kernel, by decide +kernel, by decide +kernel⟩

theorem fits_CascadeCommandsComplete_13_from : ∃ (k : Nat) (words : List Word) (refused : Option Nat) (flips : List Flip) (s t : State) (i : Item),
  let u := s.applyFlips flips
  let n := min (i.length / 4) (refused.getD (i.length / 4))
  let st := if n < i.length / 4 then Sc.internal else Sc.done
  u.casTurn 1 k false = some i ∧ i.uflags.testBit 0 = true ∧
  u.writes i.addrA (bytesOfWords ((List.range n).map (fun k => words.getD k 0))) t :=
  ⟨0, [1, 2], none, [], chained (holding (perEntry Pg.cas 1 0x10002000 0 8 1)), _, perEntry Pg.cas 1 0x10002000 0 8 1, by decide +kernel, by decide +kernel, writes_ready (by decide +kernel)⟩

theorem fits_CascadeCommandsComplete_13_to : ∃ (k : Nat) (words : List Word) (refused : Option Nat) (flips : List Flip) (s t : State) (i : Item) (bs : List Byte),
  let u := s.applyFlips flips
  let n := min (i.length / 4) (refused.getD (i.length / 4))
  let st := if n < i.length / 4 then Sc.internal else Sc.done
  u.casTurn 1 k false = some i ∧ i.uflags.testBit 0 = false ∧ u.reads i.addrA i.length bs t :=
  ⟨0, [], none, [], chained (holding (perEntry Pg.cas 1 0x10002000 0 8 0)), ((chained (holding (perEntry Pg.cas 1 0x10002000 0 8 0))).unitRead 0x10002000 8).1, perEntry Pg.cas 1 0x10002000 0 8 0, List.replicate 8 0, by decide +kernel, by decide +kernel, reads_of (by decide +kernel)⟩

theorem fits_CascadeCommandsComplete_14_scatter : ∃ (k refused : Nat) (flips : List Flip) (s t : State) (i j : Item) (bs : List Byte),
  let u := s.applyFlips flips
  u.casTurn 2 k false = some i ∧ u.reads i.addrA i.length bs t ∧
  let v := t.setCas (fun c => { c with sent := bs })
  let w := if i.addrB.testBit 0 then State.casPairs ((wordsOfBytes (i.length / 4) bs).drop (2 * (i.lat.getD 1 0).toNat)) k v else v
  w.item k = some j ∧ (i.addrB.testBit 0 = true → i.length / 8 ≤ (j.lat.getD 1 0).toNat) ∧ i.addrB.testBit 0 = true :=
  ⟨0, 0, [], chained (holding (perEntry Pg.cas 2 0x10002000 0x03 8 0)), ((chained (holding (perEntry Pg.cas 2 0x10002000 0x03 8 0))).unitRead 0x10002000 8).1, perEntry Pg.cas 2 0x10002000 0x03 8 0, { perEntry Pg.cas 2 0x10002000 0x03 8 0 with lat := [0, 1, 0] }, List.replicate 8 0, by decide +kernel, reads_of (by decide +kernel), by decide +kernel, (by decide +kernel), by decide +kernel⟩

end Sys2Proof.Tests
end

