-- ==== Sys2Proof/Tests/Radio.lean ====
section
/-! SUPPORT. The hypotheses of the completion statements of the radio chain are met. -/

set_option Elab.async false
set_option linter.unusedVariables false

namespace Sys2Proof.Tests

open Sys2Proof Sys2Proof.Machine

/-- A frame for a DRAM ring, with 250 octets decoded. -/
def chunk : State := receiving { lane0 with frame := true, len := some 300, slots := some (0, 1), data := List.replicate 250 0 } (((dramed wide).setReg Pg.phy 0 0x900 0x80000000).setReg Pg.phy 0 0xB08 4)

theorem fits_ReceptionCompletes_1 : ∃ (n : Nat) (s : State),
  (s.chan n).st = .settling ∧ s.enabled Pg.chz = true ∧ s.wideOn n = true :=
  ⟨0, wide.setChan 0 { st := .settling }, by decide +kernel⟩

theorem fits_ReceptionCompletes_2 : ∃ (n b : Nat) (bs snr next : List Nat) (power : Int) (s : State),
  (s.chan n).st = .search ∧ s.enabled Pg.chz = true ∧ s.wideOn n = true ∧ s.claimsHeld = false ∧
  s.detects n snr = b :: bs ∧ (∀ k ∈ b :: bs, s.pairSlot n k = false) :=
  ⟨0, 0, [], [255], [], 0, wide.setChan 0 { st := .search }, by decide +kernel⟩

theorem fits_ReceptionCompletes_3 : ∃ (b : Nat) (snr next : List Nat) (power : Int) (s : State),
  s.recv.nb.phase = .dwell ∧ s.narrowOn = true ∧ s.claimsHeld = false ∧ (s.lane nbLane).isNone = true ∧
  s.calBlank = false ∧ s.recv.tx = none ∧ 
  let k := s.recv.nb.entry
  let ent := s.reg Pg.phy 0 (0xB20 + 4 * k)
  let set := s.reg Pg.phy 0 0xB14
  let cfg := s.reg Pg.phy 0 0xB18
  
  (List.range 4).find? (fun b => slotOn set b && bit ent (24 + b) && (match snr[b]? with | some v => threshold (s.reg Pg.phy 0 (mtOff (slotMode set b) 1)) 0 ≤ v | none => false)) = some b :=
  ⟨0, [255], [], 0, narrow, by decide +kernel⟩

theorem fits_ReceptionCompletes_4 : ∃ (rx : RxChan) (seen : List Nat) (hz : Int) (back : Nat) (power : Int) (s : State) (l : Lane) (c : Bool),
  RxChan.lane s rx = some l ∧ l.frame = false ∧ sfdVerdict l.mod seen = some c :=
  ⟨.wide 0, [0x904E], 0, 0, 0, receiving lane0, lane0, false, by decide +kernel⟩

theorem fits_ReceptionCompletes_5 : ∃ (rx : RxChan) (s : State) (l : Lane),
  RxChan.lane s rx = some l ∧ l.frame = false :=
  ⟨.wide 0, receiving lane0, lane0, by decide +kernel⟩

theorem fits_ReceptionCompletes_6 : ∃ (rx : RxChan) (phr : Phr) (snr10 : Int) (corr len : Nat) (two white : Bool) (s : State) (l : Lane),
  RxChan.lane s rx = some l ∧ l.frame = true ∧ l.len = none ∧ phrFields l phr = some (len, two, white) ∧
  lengthOk l len two = true ∧ len ≠ 0 :=
  ⟨.wide 0, .standard true 10, 0, 0, 10, false, false, receiving { lane0 with frame := true }, { lane0 with frame := true }, by decide +kernel⟩

theorem fits_ReceptionCompletes_7 : ∃ (rx : RxChan) (octets : List Byte) (snr10 : Int) (corr len : Nat) (flips : List Flip) (s : State) (l : Lane),
  let u := s.applyFlips flips
  RxChan.lane u rx = some l ∧ l.len = some len :=
  ⟨.wide 0, [1, 2, 3, 4, 5], 100, 0, 5, [], receiving { lane0 with frame := true, len := some 5 }, { lane0 with frame := true, len := some 5 }, by decide +kernel⟩

theorem fits_ReceptionCompletes_8 : ∃ (rx : RxChan) (octets : List Byte) (flips : List Flip) (s t : State) (l m : Lane) (k : Nat) (ok : Bool),
  let u := (s.applyFlips flips).flushQueue
  let x := l.take (octets.take 256)
  RxChan.lane u rx = some l ∧ l.dropped = false ∧ l.slots ≠ none ∧ u.hrDram l.hring = true ∧ x.data.length % 256 = 0 ∧
  x.data.length < x.len.getD 0 ∧ (u.toChunks x).spill x x.data.length false = (t, m, ok) ∧
  256 * m.chunks.length ≤ m.data.length - m.copied ∧ m.chunks.length < 2 ∧ (t.setLane m.no (some m)).freeChunk = some k :=
  ⟨.wide 0, List.replicate 6 7, [], chunk, ((chunk.toChunks ({ lane0 with frame := true, len := some 300, slots := some (0, 1), data := List.replicate 250 0 }.take (List.replicate 6 7))).spill ({ lane0 with frame := true, len := some 300, slots := some (0, 1), data := List.replicate 250 0 }.take (List.replicate 6 7)) 256 false).1, { lane0 with frame := true, len := some 300, slots := some (0, 1), data := List.replicate 250 0 }, ((chunk.toChunks ({ lane0 with frame := true, len := some 300, slots := some (0, 1), data := List.replicate 250 0 }.take (List.replicate 6 7))).spill ({ lane0 with frame := true, len := some 300, slots := some (0, 1), data := List.replicate 250 0 }.take (List.replicate 6 7)) 256 false).2.1, 0, true, by decide +kernel⟩

theorem fits_ReceiverUpkeepCompletes_1 : ∃ (n idle : Nat) (power : Int) (s : State),
  s.chanEn n = true ∧ s.enabled Pg.chz = true ∧ s.wideOn n = true :=
  ⟨0, 5, 0, wide, by decide +kernel⟩

theorem fits_ReceiverUpkeepCompletes_2 : ∃ (s t : State) (e : EccSum),
  let cfg := s.reg Pg.chz 0 0x804
  let a := (s.reg Pg.chz 0 0x808).toNat + (if s.recv.snapSecond then 0x100 else 0)
  bits cfg 23 8 ≠ 0 ∧ s.domOn Dm.chz0 = true ∧ pagePresent s.variant Pg.chz = true ∧
  s.unitWrite a (s.channels.map s.snapOctet) = (t, .ok () e) :=
  ⟨lit.setReg Pg.chz 0 0x804 0x80000100 |>.setReg Pg.chz 0 0x808 0x10000000, (((lit.setReg Pg.chz 0 0x804 0x80000100 |>.setReg Pg.chz 0 0x808 0x10000000).unitWrite 0x10000000 ((lit.setReg Pg.chz 0 0x804 0x80000100 |>.setReg Pg.chz 0 0x808 0x10000000).channels.map (lit.setReg Pg.chz 0 0x804 0x80000100 |>.setReg Pg.chz 0 0x808 0x10000000).snapOctet))).1, {}, by decide +kernel⟩

theorem fits_ReceiverUpkeepCompletes_3 : ∃ (up : Bool) (s : State),
  let idx := s.fieldOf Pg.rfe 0 0x80C 3 0
  s.ready Dm.rfe = true ∧ s.path ≠ 0 ∧ s.fieldOf Pg.rfe 0 0x808 31 30 = 0 ∧ s.lane nbLane = none ∧
  (if up then idx < 11 else idx ≠ 0) :=
  ⟨true, wide, by decide +kernel⟩

theorem fits_ReceiverUpkeepCompletes_4 : ∃ (s : State),
  s.ready Dm.rfe = true ∧ s.path ≠ 0 :=
  ⟨wide, by decide +kernel⟩

theorem fits_ReceiverUpkeepCompletes_5 : ∃ (ini : Initiator) (v : Word) (s : State),
  s.gate ini Pg.rfe 0x804 true = .serve ∧ 
  let u := s.accessed ini Pg.rfe 0x804
  u.arrangement = 1 ∧ (bit v 0 ≠ bit (u.reg Pg.rfe 0 0x804) 16 ∨ bit (u.reg Pg.rfe 0 0x804) 31 = true) :=
  ⟨.c0, 1, (lit.setReg Pg.rfe 0 0x800 1), by decide +kernel⟩

theorem fits_ReceiverUpkeepCompletes_6 : ∃ (s : State),
  s.anyLane (fun _ => true) = false ∧ bit (s.reg Pg.rfe 0 0x804) 31 = true :=
  ⟨lit.setReg Pg.rfe 0 0x804 0x80000000, by decide +kernel⟩

theorem fits_ReceiverUpkeepCompletes_7 : ∃ (corr : Nat) (s : State) (l : Lane),
  s.lane nbLane = some l ∧ s.nbMeasures = true ∧ l.frame = false ∧ l.measured = none ∧ l.antNow = l.ant :=
  ⟨5, (narrow.setLane 128 (some { lane0 with no := 128 })).setReg Pg.rfe 0 0x800 0x11, { lane0 with no := 128 }, by decide +kernel⟩

theorem fits_ReceiverUpkeepCompletes_8 : ∃ (corr first : Nat) (s : State) (l : Lane),
  s.lane nbLane = some l ∧ l.measured = some first ∧ l.frame = false ∧ l.antNow ≠ l.ant :=
  ⟨5, 4, narrow.setLane 128 (some { lane0 with no := 128, measured := some 4, antNow := 1 }), { lane0 with no := 128, measured := some 4, antNow := 1 }, by decide +kernel⟩

theorem fits_ReceiverUpkeepCompletes_9 : ∃ (ini : Initiator) (v : Word) (s : State),
  s.gate ini Pg.rfe 0x818 true = .serve :=
  ⟨.c0, 0x12345678, lit, by decide +kernel⟩

theorem fits_ReceiverUpkeepCompletes_10 : ∃ (p g : Nat) (s : State),
  s.ready Dm.rfe = true ∧ s.path ≠ 0 ∧ bit (s.reg Pg.rfe 0 0x810) 31 = true :=
  ⟨0x123, 0x456, wide.setReg Pg.rfe 0 0x810 0x80000000, by decide +kernel⟩

theorem fits_ReceiverUpkeepCompletes_11 : ∃ (ini : Initiator) (r : Nat) (v : Word) (s : State),
  r < 16 ∧ s.gate ini Pg.phy (hrOff r 12) true = .serve :=
  ⟨.c0, 15, 3, lit, by decide +kernel⟩

theorem fits_ReceiverUpkeepCompletes_12 : ∃ (ini : Initiator) (r : Nat) (v : Word) (s : State),
  r < 16 ∧ s.gate ini Pg.phy (hrOff r 4) true = .serve ∧ 
  let u := s.accessed ini Pg.phy (hrOff r 4)
  u.locked Pg.phy = false ∧ bit (u.hr r 4) 31 = false ∧ bit v 31 = true ∧ 7 ≤ bits v 11 8 ∧ bits v 11 8 ≤ 11 ∧
  4 ≤ bits v 3 0 ∧ bits v 3 0 ≤ 10 :=
  ⟨.c0, 15, 0x80000704, lit, by decide +kernel⟩

theorem fits_ReceiverUpkeepCompletes_13 : ∃ (ini : Initiator) (s : State),
  s.gate ini Pg.phy 0xB10 true = .serve :=
  ⟨.c0, lit, by decide +kernel⟩

theorem fits_ReceiverUpkeepCompletes_14 : ∃ (ini : Initiator) (s : State),
  s.gate ini Pg.phy 0xB10 true = .serve :=
  ⟨.c0, lit, by decide +kernel⟩

theorem fits_ReceiverUpkeepCompletes_15 : ∃ (ini : Initiator) (s : State),
  s.gate ini Pg.phy 0xB10 true = .serve :=
  ⟨.c0, lit, by decide +kernel⟩

theorem fits_ReceiverUpkeepCompletes_16 : ∃ (s : State),
  ((s.recv.nb.phase = .dwell ∧ s.recv.nb.dwell.isSome = true) ∨ s.recv.nb.phase = .leaving) ∧
  (s.lane nbLane).isNone = true :=
  ⟨{ narrow with recv := { nb := { phase := .dwell, dwell := some 100 } } }, by decide +kernel⟩

theorem fits_ReceiverUpkeepCompletes_17 : ∃ (s : State),
  s.recv.nb.phase = .retune ∧ s.narrowOn = true :=
  ⟨{ narrow with recv := { nb := { phase := .retune } } }, by decide +kernel⟩

theorem fits_CalibrationCompletes_1 : ∃ (waited : Nat) (s : State),
  s.gapReq = true ∧ s.ready Dm.lnk = true ∧ bits (s.lreg 0x83C) 15 0 ≤ waited ∧ s.recv.tx = none :=
  ⟨100, { wide with syn := { rxLocked := true, auto := true } }.setReg Pg.lnk 0 0x83C 0x00640032, by decide +kernel⟩

theorem fits_CalibrationCompletes_2 : ∃ (waited : Nat) (s : State),
  s.gapReq = true ∧ s.ready Dm.lnk = true ∧ (s.txa.st = .idle ∨ s.txa.st = .hold) ∧ s.useWithin = false ∧
  (s.anyLane (·.frame) = false ∨ bits (s.lreg 0x83C) 31 16 ≤ waited) :=
  ⟨100, { wide with syn := { rxLocked := true, auto := true } }.setReg Pg.lnk 0 0x83C 0x00640032, by decide +kernel⟩

theorem fits_CalibrationCompletes_3 : ∃ (air : List Air) (flips : List Flip) (s : State),
  let u := s.applyFlips flips
  u.gapDue = true ∧ u.syn.gap = none ∧ u.recv.tx = none ∧ u.txaQuiet = true ∧ u.domOn Dm.syn = true ∧ u.syn.cal = none :=
  ⟨[], [], { wide with syn := { rxLocked := true, recovery := true } }, by decide +kernel⟩

theorem fits_CalibrationCompletes_4 : ∃ (air : List Air) (flips : List Flip) (s : State) (c : CalRun),
  let u := s.applyFlips flips
  u.gapDue = true ∧ u.syn.gap = none ∧ u.recv.tx = none ∧ u.txaQuiet = true ∧ u.domOn Dm.syn = true ∧
  u.syn.cal = some c ∧ (c.filter = true ∨ c.bandR = true) ∧ (c.due = true ∨ u.syn.granted = true) :=
  ⟨[], [], { wide with syn := { rxLocked := true, granted := true, cal := some { item := 0, filter := true, bandR := false, due := false, anchor := false, store := false, first := 0, count := 0, next := 0 } } }, { item := 0, filter := true, bandR := false, due := false, anchor := false, store := false, first := 0, count := 0, next := 0 }, by decide +kernel⟩

theorem fits_CalibrationCompletes_5 : ∃ (s : State) (g : Gap),
  s.syn.gap = some g :=
  ⟨{ wide with syn := { gap := some { item := none, filter := false, bandR := true, sec := 0, ns := 0 } } }, { item := none, filter := false, bandR := true, sec := 0, ns := 0 }, by decide +kernel⟩

theorem fits_CalibrationCompletes_6 : ∃ (s : State),
  s.syn.rxLocked = true :=
  ⟨wide, by decide +kernel⟩

theorem fits_CalibrationCompletes_7 : ∃ (die : Int) (s : State),
  s.domOn Dm.syn = true :=
  ⟨100, lit, by decide +kernel⟩

theorem fits_CalibrationCompletes_8 : ∃ (out : Bool) (s : State),
  s.domOn Dm.syn = true :=
  ⟨true, lit, by decide +kernel⟩

theorem fits_CalibrationCompletes_9 : ∃ (s : State),
  s.syn.sweepDue = true ∧ s.modeT = true ∧ s.domOn Dm.syn = true ∧ s.txIdle = true ∧ s.calT = false :=
  ⟨{ lit with syn := { sweepDue := true } }.setReg Pg.syn 0 0x800 2, by decide +kernel⟩

theorem fits_SynthesiserItemsComplete_1 : ∃ (k : Nat) (s : State) (i : Item),
  s.synItem 1 k = some i ∧ s.ready Dm.syn = true ∧ s.syn.cal = none ∧ i.uflags % 8 = 0 ∧
  (i.uflags / 8 % 2 = 0 ∨ i.addrA % 512 = 0) :=
  ⟨0, holding (entry Pg.syn 1), entry Pg.syn 1, by decide +kernel⟩

theorem fits_SynthesiserItemsComplete_2 : ∃ (k : Nat) (s : State) (i : Item),
  s.synItem 1 k = some i ∧ s.ready Dm.syn = true ∧ s.syn.cal = none ∧ (i.uflags % 2 = 1 ∨ i.uflags / 2 % 2 = 1) ∧
  (i.timed = true → i.launched = true) :=
  ⟨0, holding { entry Pg.syn 1 with words := [0x01000003] }, { entry Pg.syn 1 with words := [0x01000003] }, by decide +kernel⟩

theorem fits_SynthesiserItemsComplete_3 : ∃ (s : State) (n : Nat),
  s.syn.sweep = some n ∧ s.stepRuns = true ∧ n + 1 < 16 :=
  ⟨{ lit with syn := { sweep := some 14 } }, 14, by decide +kernel⟩

theorem fits_SynthesiserItemsComplete_4 : ∃ (s : State),
  s.syn.sweep = some 15 ∧ s.stepRuns = true :=
  ⟨{ lit with syn := { sweep := some 15 } }, by decide +kernel⟩

theorem fits_SynthesiserItemsComplete_5 : ∃ (s : State) (c : CalRun) (f : Nat),
  s.syn.cal = some c ∧ c.filter = false ∧ c.bandR = false ∧ c.anchor = false ∧ c.store = true ∧
  c.first + c.next < s.calEnd c ∧ s.syn.sweep = none ∧ s.stepRuns = true ∧ s.stepOver.freqOf (c.first + c.next) = some f :=
  ⟨({ lit with syn := { cal := some { item := 0, filter := false, bandR := false, due := false, anchor := false, store := true, first := 3, count := 1 } } }.setReg Pg.syn 0 0x808 8), { item := 0, filter := false, bandR := false, due := false, anchor := false, store := true, first := 3, count := 1 }, (({ lit with syn := { cal := some { item := 0, filter := false, bandR := false, due := false, anchor := false, store := true, first := 3, count := 1 } } }.setReg Pg.syn 0 0x808 8).freqOf 3).getD 0, by decide +kernel⟩

theorem fits_SynthesiserItemsComplete_6 : ∃ (s : State) (c : CalRun),
  s.syn.cal = some c ∧ c.filter = false ∧ c.bandR = false ∧ c.anchor = false ∧ c.store = true ∧
  c.first + c.next < s.calEnd c ∧ s.syn.sweep = none ∧ s.stepRuns = true :=
  ⟨({ lit with syn := { cal := some { item := 0, filter := false, bandR := false, due := false, anchor := false, store := true, first := 3, count := 1 } } }.setReg Pg.syn 0 0x808 8), { item := 0, filter := false, bandR := false, due := false, anchor := false, store := true, first := 3, count := 1 }, by decide +kernel⟩

theorem fits_SynthesiserItemsComplete_7 : ∃ (k : Nat) (flips : List Flip) (s t : State) (i : Item) (e : EccSum),
  let u := s.applyFlips flips
  u.synItem 2 k = some i ∧ (i.timed = true → i.launched = true) ∧ u.ready Dm.syn = true ∧
  storeLengthOk i.length = true ∧
  u.unitWrite i.addrB (((List.range (i.length / 8)).map u.storeEntry).flatMap StoreEntry.octets) = (t, .ok () e) :=
  ⟨0, [], holding (entry Pg.syn 2 [0, 0x10002000, 64, 0, 0, 0, 0]), ((holding (entry Pg.syn 2 [0, 0x10002000, 64, 0, 0, 0, 0])).unitWrite 0x10002000 ((List.range 8).flatMap (fun _ => ({} : StoreEntry).octets))).1, (entry Pg.syn 2 [0, 0x10002000, 64, 0, 0, 0, 0]), {}, by decide +kernel⟩

theorem fits_SynthesiserItemsComplete_8 : ∃ (k : Nat) (flips : List Flip) (s t : State) (i : Item) (bs : List (Option Byte)) (os : List Byte) (e : EccSum),
  let u := s.applyFlips flips
  u.synItem 3 k = some i ∧ (i.timed = true → i.launched = true) ∧ u.ready Dm.syn = true ∧
  storeLengthOk i.length = true ∧ u.txIdle = true ∧ u.unitRead i.addrA i.length = (t, .ok bs e) ∧
  knownBytes bs = some os :=
  ⟨0, [], holding (entry Pg.syn 3 [0x10002000, 0, 64, 0, 0, 0, 0]), ((holding (entry Pg.syn 3 [0x10002000, 0, 64, 0, 0, 0, 0])).unitRead 0x10002000 64).1, (entry Pg.syn 3 [0x10002000, 0, 64, 0, 0, 0, 0]), List.replicate 64 (some 0), List.replicate 64 0, {}, by decide +kernel⟩

theorem fits_SynthesiserItemsComplete_9 : ∃ (s : State),
  s.txa.st = .tune ∧ s.txa.waits = false ∧ s.domOn Dm.syn = true :=
  ⟨{ lit with txa := { st := .tune, entry := 0, freq := 863000 } }, by decide +kernel⟩

theorem fits_SynthesiserItemsComplete_10 : ∃ (s : State),
  s.rxWanted = true ∧ s.syn.rxLocked = false ∧ s.syn.rxFails ≤ 1 ∧ s.syn.recovery = false :=
  ⟨{ wide with syn := {} }, by decide +kernel⟩

theorem fits_SynthesiserItemsComplete_11 : ∃ (air : List Air) (s : State),
  s.txa.st = .tune ∧ s.txa.waits = false ∧ s.txa.retried = false :=
  ⟨[], { lit with txa := { st := .tune } }, by decide +kernel⟩

theorem fits_SynthesiserItemsComplete_12 : ∃ (air : List Air) (s : State),
  s.txa.st = .tune ∧ s.txa.waits = false ∧ s.txa.retried = true :=
  ⟨[], { lit with txa := { st := .tune, retried := true } }, by decide +kernel⟩

theorem fits_SynthesiserItemsComplete_13 : ∃ (air : List Air) (s : State),
  s.rxWanted = true ∧ s.syn.rxLocked = false ∧ s.syn.recovery = false ∧ s.syn.rxFails = 0 :=
  ⟨[], { wide with syn := {} }, by decide +kernel⟩

theorem fits_SynthesiserItemsComplete_14 : ∃ (air : List Air) (s : State),
  s.rxWanted = true ∧ s.syn.rxLocked = false ∧ s.syn.recovery = false ∧ s.syn.rxFails = 1 :=
  ⟨[], { wide with syn := { rxFails := 1 } }, by decide +kernel⟩

theorem fits_TransmitChainCompletes_1 : ∃ (s : State),
  s.txaFree = true :=
  ⟨lit, by decide +kernel⟩

theorem fits_TransmitChainCompletes_2 : ∃ (k : Nat) (s : State) (j : TxJob),
  s.job k = some j ∧ j.tuned = false ∧ (∀ t, s.jobRamp j = some t → t - j.tuneLead ≤ s.nowNs) ∧
  (s.jobRamp j = none → j.lbt = true → j.listen = .none → j.listenNs + 5000 ≤ j.tuneLead) ∧ s.waiting j = true ∧
  s.turn j = true ∧ s.txaFree = true ∧ s.txHeldOff = false ∧ s.ready Dm.txa = true ∧ s.ready Dm.syn = true ∧
  s.dwellFull j = false ∧ (s.withDue j).secure = false :=
  ⟨0, { sending job0 .idle with txa := {} }, job0, (by repeat' first | decide +kernel | (intro _ h; exact nomatch h) | refine ⟨?_, ?_⟩)⟩

theorem fits_TransmitChainCompletes_3 : ∃ (k c n : Nat) (s t : State) (j : TxJob),
  s.job k = some j ∧ j.tuned = false ∧ (∀ t, s.jobRamp j = some t → t - j.tuneLead ≤ s.nowNs) ∧
  (s.jobRamp j = none → j.lbt = true → j.listen = .none → j.listenNs + 5000 ≤ j.tuneLead) ∧ s.waiting j = true ∧
  s.turn j = true ∧ s.txaFree = true ∧ s.txHeldOff = false ∧ s.ready Dm.txa = true ∧ s.ready Dm.syn = true ∧
  s.dwellFull j = false ∧ (s.withDue j).secure = true ∧ (s.withDue j).ctx = some c ∧ s.nbValid c = true ∧
  s.slotValid (s.nbKey c) 14 = true ∧ s.engineFree.isSome = true ∧
  (match (s.withDue j).counter with | some n => (s, some n) | none => s.assignCounter c (s.nbKey c)) = (t, some n) :=
  ⟨0, 0, 0, { (((sending { job0 with secure := true, ctx := some 0 } .idle).setReg Pg.lnk 0 0x10C 0x80000000).setReg Pg.lnk 0 0xA00 0x80000000) with txa := {}, pal := { keys := [(keyNo 14 0, some { origin := 0, usage := 0, octets := List.replicate 16 0 })] } }, (State.assignCounter ({ (((sending { job0 with secure := true, ctx := some 0 } .idle).setReg Pg.lnk 0 0x10C 0x80000000).setReg Pg.lnk 0 0xA00 0x80000000) with txa := {}, pal := { keys := [(keyNo 14 0, some { origin := 0, usage := 0, octets := List.replicate 16 0 })] } }) 0 0).1, { job0 with secure := true, ctx := some 0 }, (by repeat' first | decide +kernel | (intro _ h; exact nomatch h) | refine ⟨?_, ?_⟩)⟩

theorem fits_TransmitChainCompletes_4 : ∃ (air : List Air) (flips : List Flip) (s : State) (t : Int),
  let u := s.applyFlips flips
  u.blankAt = some t :=
  ⟨[], [], { sending { job0 with due := some 0 } .ready with txa := { st := .ready, cur := some (.item 0) } }, 5000, by decide +kernel⟩

theorem fits_TransmitChainCompletes_5 : ∃ (s : State),
  s.recv.tx.isSome = true ∧ s.txaQuiet = true ∧ s.txa.begins = none ∧ (∀ t, s.txa.downAt = some t → t + 15000 ≤ s.nowNs) :=
  ⟨{ sending job0 .ready with recv := { tx := some (0, 1) } }, by decide +kernel, by decide +kernel, by decide +kernel, (fun _ h => nomatch h)⟩

theorem fits_TransmitChainCompletes_6 : ∃ (s : State),
  s.mayGo = true ∧ 
  let lead : Int := (s.fieldOf Pg.rfe 0 0x860 7 0 * 1000 : Nat)
  
  (match s.curRamp, s.txa.begins with | some t, _ => s.atInstant (t - lead) = true | none, some b => b - lead ≤ s.nowNs | none, none => False) :=
  ⟨{ sending job0 .ready with txa := { st := .ready, cur := some (.item 0), begins := some 0 }, syn := { txLocked := true } }, by decide +kernel, show (0 : Int) - _ ≤ _ by decide +kernel⟩

theorem fits_TransmitChainCompletes_7 : ∃ (s : State) (t : Int),
  s.txa.downAt = some t ∧ s.txaQuiet = true ∧ t + (s.fieldOf Pg.rfe 0 0x860 15 8 * 1000 : Nat) ≤ s.nowNs :=
  ⟨{ sending job0 .ready with txa := { st := .ready, downAt := some (-1000000) } }, -1000000, by decide +kernel⟩

theorem fits_TransmitChainCompletes_8 : ∃ (s : State),
  s.rampNow = true :=
  ⟨{ sending job0 .ready with txa := { st := .ready, cur := some (.item 0), begins := some 0 }, syn := { txLocked := true } }, by decide +kernel⟩

theorem fits_TransmitChainCompletes_9 : ∃ (k : Nat) (s : State) (j : TxJob) (t : Int),
  s.job k = some j ∧ j.launch = some t ∧ s.onAirNow (.item k) = false ∧ j.ackWait = none ∧ j.deadline = true ∧
  s.rampAt t ≤ s.nowNs ∧ (s.txa.cur = some (.item k) → s.rampNow = false) :=
  ⟨0, sending { job0 with launch := some (-100000000), deadline := true } .tune, { job0 with launch := some (-100000000), deadline := true }, -100000000, by decide +kernel⟩

theorem fits_TransmitChainCompletes_10 : ∃ (k : Nat) (s : State) (j : TxJob) (t : Int),
  s.job k = some j ∧ j.launch = some t ∧ s.onAirNow (.item k) = false ∧ j.ackWait = none ∧ j.backoff = none ∧
  j.deadline = false ∧ s.rampAt t ≤ s.nowNs ∧ s.txa.cur = some (.item k) ∧ s.rampNow = false ∧ j.tuned = true ∧
  j.train = 0 ∧ j.sent = true :=
  ⟨0, sending { job0 with launch := some (-100000000), tuned := true, sent := true } .tune, { job0 with launch := some (-100000000), tuned := true, sent := true }, -100000000, by decide +kernel⟩

theorem fits_TransmitChainCompletes_11 : ∃ (k : Nat) (s : State) (j : TxJob) (t : Int),
  s.job k = some j ∧ j.launch = some t ∧ s.onAirNow (.item k) = false ∧ j.ackWait = none ∧ j.backoff = none ∧
  j.deadline = false ∧ s.rampAt t ≤ s.nowNs ∧ (s.txa.cur = some (.item k) → s.rampNow = false) ∧
  ¬ (s.txa.cur = some (.item k) ∧ j.tuned = true ∧ j.train = 0 ∧ j.sent = true) :=
  ⟨0, sending { job0 with launch := some (-100000000) } .tune, { job0 with launch := some (-100000000) }, -100000000, by decide +kernel⟩

theorem fits_TransmitChainCompletes_12 : ∃ (s : State),
  s.txa.st = .rampUp :=
  ⟨sending job0 .rampUp, by decide +kernel⟩

theorem fits_TransmitChainCompletes_13 : ∃ (s : State),
  s.txa.st = .send ∧ (s.txa.sfd = none ∨ s.tim.running = false) :=
  ⟨sending job0 .send, by decide +kernel⟩

theorem fits_TransmitChainCompletes_14 : ∃ (s : State),
  (s.txa.st = .rampUp ∨ s.txa.st = .send) :=
  ⟨sending job0 .send, by decide +kernel⟩

theorem fits_TransmitChainCompletes_15 : ∃ (s : State),
  s.txa.st = .ready :=
  ⟨sending job0 .ready, by decide +kernel⟩

theorem fits_TransmitChainCompletes_16 : ∃ (s : State),
  s.txa.st = .hold :=
  ⟨{ lit with txa := { st := .hold } }, by decide +kernel⟩

theorem fits_TransmitChainCompletes_17 : ∃ (s : State) (e : Nat) (j : TxJob),
  s.txa.st = .rampDown ∧ s.txa.cutFrame = false ∧ s.txa.cur = some (.item e) ∧ 
  let u := { s with txa := { s.txa with
      st := .hold, cur := none, cutFrame := false, onAir := [], downAt := some (s.nowNs : Int), holdAt := (s.nowNs : Int) } }
  let u := (u.event Pg.txa 0).count Pg.txa 0 0x810 31 16 1
  u.job e = some j :=
  ⟨sending job0 .rampDown, 0, job0, by decide +kernel⟩

theorem fits_TransmitChainCompletes_18 : ∃ (s : State),
  s.txa.st = .rampDown ∧ s.txa.cutFrame = true :=
  ⟨{ lit with txa := { st := .rampDown, cutFrame := true } }, by decide +kernel⟩

theorem fits_TransmitChainCompletes_19 : ∃ (s : State),
  s.txa.st = .hold ∧ s.txa.holdAt + (s.fieldOf Pg.txa 0 0x808 15 0 * 1000 : Nat) ≤ s.nowNs :=
  ⟨{ lit with txa := { st := .hold, holdAt := -100000000 } }, by decide +kernel⟩

end Sys2Proof.Tests
end

