-- ==== Sys2Proof/Tests/Security.lean ====
section
/-! SUPPORT. The hypotheses of the completion statements of SEC, PAL and UPD are met. -/

set_option Elab.async false
set_option linter.unusedVariables false

namespace Sys2Proof.Tests

open Sys2Proof Sys2Proof.Machine

/-- The public key of the private key 1, the generator of P-256, and its hash. -/
def keyOne : List Byte :=
  [107, 23, 209, 242, 225, 44, 66, 71, 248, 188, 230, 229, 99, 164, 64, 242, 119, 3, 125, 129, 45, 235, 51, 160, 244, 161, 57, 69, 216, 152, 194, 150,
   79, 227, 66, 226, 254, 26, 127, 155, 142, 231, 235, 74, 124, 15, 158, 22, 43, 206, 51, 87, 107, 49, 94, 206, 203, 182, 64, 104, 55, 191, 81, 245]
def keyOneHash : List Byte :=
  [216, 117, 219, 125, 239, 35, 34, 54, 174, 199, 56, 198, 176, 187, 62, 128, 20, 47, 93, 15, 216, 244, 223, 36, 254, 214, 238, 245, 203, 181, 13, 159]

/-- The device root key is known and the part ENROLLED; owner slot 0 holds the root whose private key is 1. -/
def secured (s : State) : State :=
  { s with sec := { puf := some true, otp := { life := 3, ids := [(0, List.replicate 32 0)], mark := some 0
                                               owners := [(0, keyOneHash)] } } }
def sec (i : Item) (life : Nat := 3) : State := (secured (holding i)).setOtp (fun o => { o with life })

/-- An item of SEC that reads `n` octets at 0x1000_2000 and writes at 0x1000_3000. -/
def secItem (op n : Nat) : Item := entry Pg.sec op [0x10002000, 0x10003000, word n, 0, 0, 0, 0]

/-- A command to the owner slots on slot 1, signed with the root of slot 0, in AON SRAM. -/
def command (n : Nat) (r : List Byte) : List Byte :=
  bytesLE 4 n ++ [1, 0, 0, 0] ++ List.replicate 32 0 ++ List.replicate 64 7 ++ keyOne ++ keyOne.take 32 ++ r
def addCommand : List Byte := command 1
  [44, 201, 100, 23, 78, 222, 159, 11, 139, 184, 78, 148, 90, 174, 81, 84, 148, 53, 93, 77, 181, 121, 119, 218, 58, 220, 54, 194, 242, 78, 228, 74]
def revokeCommand : List Byte := command 2
  [123, 43, 181, 231, 100, 60, 67, 74, 246, 115, 78, 79, 110, 226, 32, 44, 217, 54, 36, 43, 183, 248, 67, 5, 163, 58, 162,
   216, 162, 86, 29, 161]
def retireCommand : List Byte := command 3
  [107, 83, 95, 120, 76, 22, 56, 248, 21, 252, 140, 79, 158, 207, 34, 86, 182, 76, 132, 179, 143, 34, 144, 215, 183, 73,
   78, 93, 116, 78, 32, 22]
def commandItem : Item := entry Pg.sec 9 [0x18000000, 0x10003000, 232, 0, 0, 0, 0]
def commanded (c : List Byte) : State :=
  { sec commandItem with
    mem := ((List.range 232).zip c).filterMap (fun p => if p.2 = 0 then none else some (0x18000000 + p.1, p.2)) }
theorem commanded_read {c : List Byte} (h : (List.range 232).map (fun k => (commanded c).memOctet (commandItem.addrA + k)) = c) :
    (commanded c).reads commandItem.addrA 232 c (commanded c) := by
  have r := reads_aon_of (s := commanded c) (u := commanded c) (a := commandItem.addrA) (n := 232) (by decide) (by decide) rfl rfl
  rwa [h] at r

/-- Page 3 of Palette belongs to C0, and holds a key that may do everything in handle 5. -/
def palette (i : Item) (block : List Byte := []) : State :=
  let s := { secured (holding i) with pal := { pages := [(3, .owned .c0)], keys := [(keyNo 3 5, some ⟨0, 63, List.replicate 16 1⟩)] } }
  stored 0x10002000 (padTo 32 block) s
def palItem (op n : Nat) (flags : Nat := 0) : Item :=
  { entry Pg.pal op [0x10002000, 0x10003000, word (0x03000000 + n), 0, 0, 0, 0] with
    words := [word (op * 0x1000000 + flags), 0x10002000, 0x10003000, word (0x03000000 + n), 0, 0, 0, 0] }

/-- Engine 0 runs a message of the item in hand. -/
def message (block : List Byte) : PalMsg :=
  { item := 0, block := padTo 32 block, handle := 5, key := some (List.replicate 16 1), urgent := false, order := 0 }
def ciphering (i : Item) (block : List Byte) : State :=
  let s := palette i block
  { s with pal := { s.pal with engines := [(0, some (message block))] } }
def context (op : Nat) (block : List Byte) : PalCtx :=
  { handle := pbHandle (padTo 32 block), mode := pbMode (padTo 32 block), key := some (List.replicate 16 1), op, iv := pbIv (padTo 32 block)
    m := pbTag (padTo 32 block), total := pbTotal (padTo 32 block), aad := [], data := [] }

/-- A header of one chunk of component LINK for the relay, signed with the root of slot 0. -/
def header : List Byte :=
  let z := fun n => List.replicate n (0 : Byte)
  let m := [1, 0, 0, 0] ++ z 16 ++ [0, 16, 0, 0] ++ z 40 ++ z 64 ++ ([173, 127, 172, 178, 88, 111, 198, 233, 102, 192, 4, 215, 209, 209, 107, 2, 79, 88, 5, 255, 124, 180, 124, 122, 133, 218, 189, 139, 72, 137, 44, 167] : List Byte) ++ z 96 ++ keyOne ++ z 128
  m ++ keyOne.take 32 ++
  [40, 226, 255, 66, 188, 176, 105, 194, 203, 250, 56, 211, 42, 215, 210, 138, 103, 70, 239, 157, 157, 38, 123, 115, 171, 231, 136, 88, 207, 147, 189, 163]
def updItem (op sess : Nat) (b : Word) (n : Nat) : Item := entry Pg.upd op [0x10002000, b, word (sess * 0x1000000 + n), 0, 0, 0, 0]
def updating (i : Item) (h : List Byte := header) : State :=
  { secured (holding i) with upd := { sess := [(0, some { header := h, tables := [0], chunks := [0] })] } }

def openedItem : Item := { updItem 1 4 0 512 with words := [0x01000000, 0x18000000, 0, 0x04000200, 0, 0, 0, 0] }
def opened : State :=
  { secured (holding openedItem) with
    mem := ((List.range 512).zip header).filterMap (fun p => if p.2 = 0 then none else some (0x18000000 + p.1, p.2)) }
theorem opened_octets : (List.range 512).map (fun k => opened.memOctet (openedItem.addrA + k)) = header := by decide +kernel
theorem opened_read : opened.reads openedItem.addrA 512 header opened := by
  have h := reads_aon_of (s := opened) (u := opened) (a := openedItem.addrA) (n := 512) (by decide +kernel) (by decide +kernel) rfl rfl
  rwa [opened_octets] at h
theorem opened_good : opened.openFault header (openedItem.uparam % 8) = none := by decide +kernel

/-- A header whose table chunk 0 is `tb`, for `size` octets. -/
def headed (size : Nat) (tb : List Byte) : List Byte :=
  ([1, 0, 0, 0] ++ List.replicate 16 0 ++ bytesLE 4 size ++ List.replicate 104 0) ++ (Crypto.sha256 tb ++ List.replicate 352 0)
theorem table_headed (size : Nat) (tb : List Byte) : Header.table (headed size tb) 0 = Crypto.sha256 tb := by
  unfold Header.table cut headed
  rw [List.drop_left' (by simp [bytesLE_length]), List.take_left' (sha256_length _)]

/-- A table chunk of zeros stands in AON SRAM. -/
def tabledItem : Item := { updItem 2 0 0 4096 with words := [0x02000001, 0x18000000, 0, 4096, 0, 0, 0, 0] }
def zeros (n : Nat) : List Byte := (List.range n).map (fun k => lit.memOctet (tabledItem.addrA + k))
def tabled : State := updating tabledItem (headed 4096 (zeros 4096))
def tabledSess : UpdSess := { header := headed 4096 (zeros 4096), tables := [0], chunks := [0] }
theorem tabled_read : tabled.reads tabledItem.addrA 4096 (zeros 4096) tabled :=
  reads_aon_of (u := lit) (by decide +kernel) (by decide +kernel) (by decide +kernel) (by decide +kernel)
theorem tabled_tables : 0 < Header.tables tabledSess.header := by decide +kernel

/-- A table chunk in AON SRAM whose first digest is that of 16 octets of 0. -/
def chunkedItem : Item := { updItem 2 0 0x18000000 16 with words := [0x02000000, 0x18001000, 0x18000000, 16, 0, 0, 0, 0] }
def chunkBase : State := stored 0x18000000 (Crypto.sha256 (List.replicate 16 0)) (secured (holding chunkedItem))
def chunkTable : List Byte := (List.range 4096).map (fun k => chunkBase.memOctet (chunkedItem.addrB / 4096 * 4096 + k))
def chunkData : List Byte := (List.range 16).map (fun k => chunkBase.memOctet (chunkedItem.addrA + k))
def chunkSess : UpdSess := { header := headed 16 chunkTable, tables := [0], chunks := [0] }
def chunked : State := { chunkBase with upd := { sess := [(0, some chunkSess)] } }
theorem chunked_table : chunked.reads (chunkedItem.addrB / 4096 * 4096) 4096 chunkTable chunked :=
  reads_aon_of (u := chunkBase) (by decide +kernel) (by decide +kernel) (by decide +kernel) (by decide +kernel)
def chunkSize : Nat :=
  let n := Header.chunks chunkSess.header
  if chunkedItem.addrB % 512 + 1 = n then Header.size chunkSess.header - 4096 * (n - 1) else 4096
theorem chunked_data : chunked.reads chunkedItem.addrA chunkSize chunkData chunked := by
  rw [show chunkSize = 16 from by decide +kernel]
  exact reads_aon_of (u := chunkBase) (by decide +kernel) (by decide +kernel) (by decide +kernel) (by decide +kernel)
theorem chunked_size : Header.size chunkSess.header = 16 := by decide +kernel
theorem chunked_digest : Crypto.sha256 chunkData = cut chunkTable 0 32 := by decide +kernel

/-- Four complete sessions whose headers allow every version. -/
def anyHeader (c : Byte) : List Byte :=
  [1, 0, 0, 0, 0, 0, 0, 0, c] ++ List.replicate 11 0 ++ bytesLE 4 16 ++ List.replicate 72 0 ++
    (List.replicate 4 [0, 0, 0, 0, 255, 255, 255, 255]).flatten ++ List.replicate 384 0
def armedItem : Item := entry Pg.upd 3 [0, 0x10003000, 0x0F000040, 0, 0, 0, 0]
def armed : State :=
  { secured (holding armedItem) with
    upd := { sess := [0, 1, 2, 3].map (fun c => (c, some { header := anyHeader (BitVec.ofNat 8 c), tables := [0], chunks := [0] })) } }
theorem fits_SecurityCommandsComplete_1 : ∃ (ok : Bool) (s : State),
  s.domOn Dm.sec = true ∧ s.sec.puf = none :=
  ⟨true, lit, by repeat' first | decide +kernel | exact reads_of (by decide +kernel) | exact keyTurn_of (by decide +kernel) | exact writes_ready (by decide +kernel) | exact writes_ready (by rw [sign_length]; decide +kernel) | exact writes_ready (by rw [key_length]; decide +kernel) | exact writes_ready (by rw [List.length_append, sign_length]; decide +kernel) | (intro _ h; exact nomatch h) | refine ⟨?_, ?_⟩⟩

theorem fits_SecurityCommandsComplete_2 : ∃ (k : Nat) (flips : List Flip) (s t v : State) (i : Item) (m : List Byte),
  let u := s.applyFlips flips
  u.secItem 1 k = some i ∧ u.reads i.addrA i.length m t ∧ t.writes i.addrB (Crypto.sha256 m) v :=
  ⟨0, [], sec (secItem 1 64) 3, ((sec (secItem 1 64) 3).unitRead 0x10002000 64).1, (State.putOctets (((sec (secItem 1 64) 3).unitRead 0x10002000 64).1) 0x10003000 (Crypto.sha256 (List.replicate 64 0))).1, secItem 1 64, List.replicate 64 0, by repeat' first | decide +kernel | exact reads_of (by decide +kernel) | exact keyTurn_of (by decide +kernel) | exact writes_ready (by decide +kernel) | exact writes_ready (by rw [sign_length]; decide +kernel) | exact writes_ready (by rw [key_length]; decide +kernel) | exact writes_ready (by rw [List.length_append, sign_length]; decide +kernel) | (intro _ h; exact nomatch h) | refine ⟨?_, ?_⟩⟩

theorem fits_SecurityCommandsComplete_3 : ∃ (k : Nat) (flips : List Flip) (s t : State) (i : Item) (m : List Byte),
  let u := s.applyFlips flips
  u.secItem 2 k = some i ∧ i.length = 160 ∧ u.reads i.addrA 160 m t :=
  ⟨0, [], sec (secItem 2 160) 3, ((sec (secItem 2 160) 3).unitRead 0x10002000 160).1, secItem 2 160, List.replicate 160 0, by repeat' first | decide +kernel | exact reads_of (by decide +kernel) | exact keyTurn_of (by decide +kernel) | exact writes_ready (by decide +kernel) | exact writes_ready (by rw [sign_length]; decide +kernel) | exact writes_ready (by rw [key_length]; decide +kernel) | exact writes_ready (by rw [List.length_append, sign_length]; decide +kernel) | (intro _ h; exact nomatch h) | refine ⟨?_, ?_⟩⟩

theorem fits_SecurityCommandsComplete_4 : ∃ (k : Nat) (flips : List Flip) (s t v : State) (i : Item) (m : List Byte),
  let u := s.applyFlips flips
  u.secItem 3 k = some i ∧ i.length = 32 ∧ u.sec.otp.life = 3 ∧ u.sec.healthy = true ∧ u.pufOk = true ∧
  u.reads i.addrA 32 m t ∧ (t.unitSign 1 m).2.writes i.addrB (t.unitSign 1 m).1 v :=
  ⟨0, [], sec (secItem 3 32) 3, ((sec (secItem 3 32) 3).unitRead 0x10002000 32).1, (State.putOctets ((((sec (secItem 3 32) 3).unitRead 0x10002000 32).1.unitSign 1 (List.replicate 32 0)).2) 0x10003000 ((((sec (secItem 3 32) 3).unitRead 0x10002000 32).1.unitSign 1 (List.replicate 32 0)).1)).1, secItem 3 32, List.replicate 32 0, by repeat' first | decide +kernel | exact reads_of (by decide +kernel) | exact keyTurn_of (by decide +kernel) | exact writes_ready (by decide +kernel) | exact writes_ready (by rw [sign_length]; decide +kernel) | exact writes_ready (by rw [key_length]; decide +kernel) | exact writes_ready (by rw [List.length_append, sign_length]; decide +kernel) | (intro _ h; exact nomatch h) | refine ⟨?_, ?_⟩⟩

theorem fits_SecurityCommandsComplete_5 : ∃ (k : Nat) (flips : List Flip) (s v : State) (i : Item),
  let u := s.applyFlips flips
  u.secItem 4 k = some i ∧ u.sec.healthy = true ∧ (u.random i.length).2.writes i.addrB (u.random i.length).1 v :=
  ⟨0, [], sec (secItem 4 20) 3, (State.putOctets (((sec (secItem 4 20) 3).random 20).2) 0x10003000 (((sec (secItem 4 20) 3).random 20).1)).1, secItem 4 20, by repeat' first | decide +kernel | exact reads_of (by decide +kernel) | exact keyTurn_of (by decide +kernel) | exact writes_ready (by decide +kernel) | exact writes_ready (by rw [sign_length]; decide +kernel) | exact writes_ready (by rw [key_length]; decide +kernel) | exact writes_ready (by rw [List.length_append, sign_length]; decide +kernel) | (intro _ h; exact nomatch h) | refine ⟨?_, ?_⟩⟩

theorem fits_SecurityCommandsComplete_6 : ∃ (k : Nat) (flips : List Flip) (s t v : State) (i : Item) (m : List Byte),
  let u := s.applyFlips flips
  u.secItem 5 k = some i ∧ i.length = 32 ∧ u.sec.otp.life = 3 ∧ u.sec.healthy = true ∧ u.pufOk = true ∧
  u.reads i.addrA 32 m t ∧ 
  let r := t.attestReport m
  (t.unitSign 2 r).2.writes i.addrB (r ++ (t.unitSign 2 r).1) v :=
  ⟨0, [], sec (secItem 5 32) 3, ((sec (secItem 5 32) 3).unitRead 0x10002000 32).1, (State.putOctets ((((sec (secItem 5 32) 3).unitRead 0x10002000 32).1.unitSign 2 (((sec (secItem 5 32) 3).unitRead 0x10002000 32).1.attestReport (List.replicate 32 0))).2) 0x10003000 (((sec (secItem 5 32) 3).unitRead 0x10002000 32).1.attestReport (List.replicate 32 0) ++ (((sec (secItem 5 32) 3).unitRead 0x10002000 32).1.unitSign 2 (((sec (secItem 5 32) 3).unitRead 0x10002000 32).1.attestReport (List.replicate 32 0))).1)).1, secItem 5 32, List.replicate 32 0, by repeat' first | decide +kernel | exact reads_of (by decide +kernel) | exact keyTurn_of (by decide +kernel) | exact writes_ready (by decide +kernel) | exact writes_ready (by rw [sign_length]; decide +kernel) | exact writes_ready (by rw [key_length]; decide +kernel) | exact writes_ready (by rw [List.length_append, sign_length]; decide +kernel) | (intro _ h; exact nomatch h) | refine ⟨?_, ?_⟩⟩

theorem fits_SecurityCommandsComplete_7 : ∃ (k : Nat) (flips : List Flip) (s t : State) (i : Item) (m : List Byte),
  let u := s.applyFlips flips
  u.secItem 6 k = some i ∧ i.length = 32 ∧ u.reads i.addrA 32 m t :=
  ⟨0, [], sec (secItem 6 32) 3, ((sec (secItem 6 32) 3).unitRead 0x10002000 32).1, secItem 6 32, List.replicate 32 0, by repeat' first | decide +kernel | exact reads_of (by decide +kernel) | exact keyTurn_of (by decide +kernel) | exact writes_ready (by decide +kernel) | exact writes_ready (by rw [sign_length]; decide +kernel) | exact writes_ready (by rw [key_length]; decide +kernel) | exact writes_ready (by rw [List.length_append, sign_length]; decide +kernel) | (intro _ h; exact nomatch h) | refine ⟨?_, ?_⟩⟩

theorem fits_SecurityCommandsComplete_8 : ∃ (k : Nat) (flips : List Flip) (s v : State) (i : Item),
  let u := s.applyFlips flips
  u.secItem 7 k = some i ∧ i.length = 64 ∧ u.sec.otp.life = 3 ∧ u.pufOk = true ∧
  u.writes i.addrB (Crypto.publicKey (unitKey u.sec.otp.salt)) v :=
  ⟨0, [], sec (secItem 7 64) 3, (State.putOctets (sec (secItem 7 64) 3) 0x10003000 (Crypto.publicKey (unitKey (sec (secItem 7 64) 3).sec.otp.salt))).1, secItem 7 64, by repeat' first | decide +kernel | exact reads_of (by decide +kernel) | exact keyTurn_of (by decide +kernel) | exact writes_ready (by decide +kernel) | exact writes_ready (by rw [sign_length]; decide +kernel) | exact writes_ready (by rw [key_length]; decide +kernel) | exact writes_ready (by rw [List.length_append, sign_length]; decide +kernel) | (intro _ h; exact nomatch h) | refine ⟨?_, ?_⟩⟩

theorem fits_SecurityCommandsComplete_9 : ∃ (k writes : Nat) (flips : List Flip) (s t : State) (i : Item) (c : List Byte),
  let u := s.applyFlips flips
  u.secItem 8 k = some i ∧ i.length = 144 ∧ u.reads i.addrA 144 c t ∧ t.sec.healthy = true ∧ t.pufOk = true ∧
  t.rangeStatus i.addrB 160 = .ready :=
  ⟨0, 6, [], sec (secItem 8 144) 1, ((sec (secItem 8 144) 1).unitRead 0x10002000 144).1, secItem 8 144, List.replicate 144 0, by repeat' first | decide +kernel | exact reads_of (by decide +kernel) | exact keyTurn_of (by decide +kernel) | exact writes_ready (by decide +kernel) | exact writes_ready (by rw [sign_length]; decide +kernel) | exact writes_ready (by rw [key_length]; decide +kernel) | exact writes_ready (by rw [List.length_append, sign_length]; decide +kernel) | (intro _ h; exact nomatch h) | refine ⟨?_, ?_⟩⟩

theorem fits_SecurityCommandsComplete_10 : ∃ (k : Nat) (flips : List Flip) (s t : State) (i : Item) (c : List Byte),
  let u := s.applyFlips flips
  u.secItem 9 k = some i ∧ i.length = 232 ∧ u.reads i.addrA 232 c t ∧ t.ownerCheck c = none :=
  ⟨0, [], commanded addCommand, commanded addCommand, commandItem, addCommand, by decide +kernel, by decide +kernel, commanded_read (by decide +kernel), by decide +kernel⟩

theorem fits_SecurityCommandsComplete_11 : ∃ (s : State),
  s.domOn Dm.sec = true :=
  ⟨lit, by repeat' first | decide +kernel | exact reads_of (by decide +kernel) | exact keyTurn_of (by decide +kernel) | exact writes_ready (by decide +kernel) | exact writes_ready (by rw [sign_length]; decide +kernel) | exact writes_ready (by rw [key_length]; decide +kernel) | exact writes_ready (by rw [List.length_append, sign_length]; decide +kernel) | (intro _ h; exact nomatch h) | refine ⟨?_, ?_⟩⟩

theorem fits_SecurityCommandsComplete_12 : ∃ (octets : List Byte) (s : State),
  s.sec.lockout = false ∧ s.sec.token = none ∧ s.domOn Dm.sec = true :=
  ⟨[1, 2, 3], lit, by repeat' first | decide +kernel | exact reads_of (by decide +kernel) | exact keyTurn_of (by decide +kernel) | exact writes_ready (by decide +kernel) | exact writes_ready (by rw [sign_length]; decide +kernel) | exact writes_ready (by rw [key_length]; decide +kernel) | exact writes_ready (by rw [List.length_append, sign_length]; decide +kernel) | (intro _ h; exact nomatch h) | refine ⟨?_, ?_⟩⟩

theorem fits_SecurityCommandsComplete_13 : ∃ (s : State) (t : List Byte),
  s.sec.token = some t :=
  ⟨{ lit with sec := { token := some [] } }, [], by repeat' first | decide +kernel | exact reads_of (by decide +kernel) | exact keyTurn_of (by decide +kernel) | exact writes_ready (by decide +kernel) | exact writes_ready (by rw [sign_length]; decide +kernel) | exact writes_ready (by rw [key_length]; decide +kernel) | exact writes_ready (by rw [List.length_append, sign_length]; decide +kernel) | (intro _ h; exact nomatch h) | refine ⟨?_, ?_⟩⟩

theorem fits_PaletteMessagesComplete_1 : ∃ (ini : Initiator) (s : State),
  s.gate ini Pg.pal 0x104 true = .serve ∧ 
  let u := s.accessed ini Pg.pal 0x104
  let p := u.chsel Pg.pal ini
  u.locked Pg.pal = false :=
  ⟨.c0, lit, by decide +kernel, by decide +kernel⟩

theorem fits_PaletteMessagesComplete_2 : ∃ (p : Nat) (s : State),
  s.palPage p = .scrubbing :=
  ⟨3, { lit with pal := { pages := [(3, .scrubbing)] } }, by decide +kernel⟩

theorem fits_PaletteMessagesComplete_3 : ∃ (flips : List Flip) (s : State) (e : Nat),
  let u := s.applyFlips flips
  u.engineFree = some e ∧ u.ready Dm.sec = true ∧ u.sec.puf ≠ none :=
  ⟨[], {  palette (palItem 1 16) with pal := {} }, 0, by decide +kernel, by decide +kernel, by decide +kernel⟩

theorem fits_PaletteMessagesComplete_4 : ∃ (lnk : Bool) (octets : Nat) (s : State) (a b : PalMsg),
  s.engine 0 = some a ∧ s.engine 1 = some b ∧ a.urgent = false ∧ b.urgent = false ∧
  ((lnk && s.lnkFrame) || s.flm.ift.any (fun i => s.palWaits i && i.urgent)) = true :=
  ⟨true, 16, ({ holding ({ palItem 1 16 1 with id := 2 }) with pal := { engines := [(0, some ({ item := 0, block := [], handle := 0, key := none, urgent := false, order := 0 })), (1, some ({ item := 1, block := [], handle := 0, key := none, urgent := false, order := 1 }))] }, flm := { ift := [palItem 1 16, { palItem 1 16 with id := 1 }, { palItem 1 16 1 with id := 2 }] } }), { item := 0, block := [], handle := 0, key := none, urgent := false, order := 0 }, { item := 1, block := [], handle := 0, key := none, urgent := false, order := 1 }, by decide +kernel, by decide +kernel, by decide +kernel, by decide +kernel, by decide +kernel⟩

theorem fits_PaletteMessagesComplete_5 : ∃ (k a aad : Nat) (flips : List Flip) (s t v : State) (i : Item) (m : PalMsg) (c : PalCtx) (key bs : List Byte),
  let u := s.applyFlips flips
  u.item k = some i ∧ [0, 1].findSome? (fun e => (u.engine e).filter (fun m => m.item == k)) = some m ∧
  m.key = some key ∧ u.cipherBad i m.block = none ∧
  (i.seg ≤ 1 ∧ a = i.addrA + 32 ∧ aad = pbAad m.block ∧ c = { handle := pbHandle m.block, mode := pbMode m.block, key := some key, op := i.opcode, iv := pbIv m.block, m := pbTag m.block, total := pbTotal m.block, aad := [], data := [] } ∨ 1 < i.seg ∧ a = i.addrA ∧ aad = 0 ∧ u.palCtx i.palPage i.ctx = some c) ∧ 
  let last := i.seg = 0 ∨ i.seg = 3
  (u.reads a (i.length + (if last ∧ (i.opcode = 2 ∨ i.opcode = 4) then c.m else 0)) bs t) :=
  ⟨0, 0x10002020, 0, [], ciphering (palItem 1 16) [5, 0, 0, 0], ((ciphering (palItem 1 16) [5, 0, 0, 0]).unitRead 0x10002020 16).1, ciphering (palItem 1 16) [5, 0, 0, 0], palItem 1 16, message [5, 0, 0, 0], context 1 [5, 0, 0, 0], List.replicate 16 1, List.replicate 16 0, by decide +kernel, by decide +kernel, by decide +kernel, by decide +kernel, by decide +kernel, reads_of (by decide +kernel)⟩

theorem fits_KeyItemsComplete_1 : ∃ (k : Nat) (flips : List Flip) (s t v : State) (i : Item) (b key : List Byte),
  (s.applyFlips flips).keyTurn 8 k i b t ∧ (i.length = 16 ∨ i.length = 32) ∧ t.targetBad i b i.length = false ∧
  (t.sec.otp.life = 1 ∨ t.sec.otp.life = 3 ∧ t.sec.otp.plainKey = true) ∧ t.reads (i.addrA + 32) i.length key v :=
  ⟨0, [], (palette (palItem 8 16) [7, 0, 0, 63]).setOtp (fun o => { o with life := 1 }), (((palette (palItem 8 16) [7, 0, 0, 63]).setOtp (fun o => { o with life := 1 })).unitRead 0x10002000 32).1, (((((palette (palItem 8 16) [7, 0, 0, 63]).setOtp (fun o => { o with life := 1 })).unitRead 0x10002000 32).1).unitRead 0x10002020 16).1, palItem 8 16, padTo 32 [7, 0, 0, 63], List.replicate 16 0, keyTurn_of (by decide +kernel), by decide +kernel, by decide +kernel, by decide +kernel, reads_of (by decide +kernel)⟩

theorem fits_KeyItemsComplete_2 : ∃ (k : Nat) (flips : List Flip) (s t v : State) (i : Item) (b w blob : List Byte),
  (s.applyFlips flips).keyTurn 9 k i b t ∧ t.auxKey i b 3 kstor = some w ∧ (i.length = 52 ∨ i.length = 68) ∧
  t.targetBad i b (i.length - 36) = false ∧ t.reads (i.addrA + 32) i.length blob v ∧ 
  let n := i.length - 36
  let hdr := cut blob 12 8
  let c := cut blob 20 n
  (hdr.getD 0 0).toNat = 1 ∧ (hdr.getD 1 0).toNat = (if n = 32 then 1 else 0) :=
  ⟨0, [], stored 0x10002020 (List.replicate 12 0 ++ [1] ++ List.replicate 39 0) (palette (palItem 9 52) [0x47, 1, 0, 63]), ((stored 0x10002020 (List.replicate 12 0 ++ [1] ++ List.replicate 39 0) (palette (palItem 9 52) [0x47, 1, 0, 63])).unitRead 0x10002000 32).1, ((((stored 0x10002020 (List.replicate 12 0 ++ [1] ++ List.replicate 39 0) (palette (palItem 9 52) [0x47, 1, 0, 63])).unitRead 0x10002000 32).1).unitRead 0x10002020 52).1, palItem 9 52, padTo 32 [0x47, 1, 0, 63], List.replicate 16 1, (List.replicate 12 0 ++ [1] ++ List.replicate 39 0), keyTurn_of (by decide +kernel), by decide +kernel, by decide +kernel, by decide +kernel, reads_of (by decide +kernel), by decide +kernel, by decide +kernel⟩

theorem fits_KeyItemsComplete_3 : ∃ (k : Nat) (flips : List Flip) (s t v x : State) (i : Item) (b w label : List Byte) (key : Key),
  (s.applyFlips flips).keyTurn 10 k i b t ∧ t.palKey i.palPage (pbHandle b) = some key ∧
  t.auxKey i b 3 kstor = some w ∧ key.usage.testBit 5 = true ∧ i.length = 4 ∧ t.sec.healthy = true ∧
  t.reads (i.addrA + 32) 4 label v ∧ 
  let iv := (v.random 12).1
  let hdr := [1, if key.octets.length = 32 then 1 else 0, BitVec.ofNat 8 key.usage, 0] ++ label
  let c := Crypto.ctr w (Crypto.gcmCtr iv) key.octets
  let blob := iv ++ hdr ++ c ++ Crypto.gcmTag w iv hdr c
  (v.random 12).2.writes i.addrB blob x :=
  ⟨0, [], palette (palItem 10 4) [0x45, 1, 0, 63], ((palette (palItem 10 4) [0x45, 1, 0, 63]).unitRead 0x10002000 32).1, ((((palette (palItem 10 4) [0x45, 1, 0, 63]).unitRead 0x10002000 32).1).unitRead 0x10002020 4).1, (let v := ((((palette (palItem 10 4) [0x45, 1, 0, 63]).unitRead 0x10002000 32).1).unitRead 0x10002020 4).1; ((v.random 12).2.putOctets 0x10003000 (let v := ((((palette (palItem 10 4) [0x45, 1, 0, 63]).unitRead 0x10002000 32).1).unitRead 0x10002020 4).1; let iv := (v.random 12).1; let hdr := [1, if (16 : Nat) = 32 then 1 else 0, BitVec.ofNat 8 63, 0] ++ List.replicate 4 (0 : Byte); let c := Crypto.ctr (List.replicate 16 1) (Crypto.gcmCtr iv) (List.replicate 16 1); iv ++ hdr ++ c ++ Crypto.gcmTag (List.replicate 16 1) iv hdr c)).1), palItem 10 4, padTo 32 [0x45, 1, 0, 63], List.replicate 16 1, List.replicate 4 0, ⟨0, 63, List.replicate 16 1⟩, keyTurn_of (by decide +kernel), by decide +kernel, by decide +kernel, by decide +kernel, by decide +kernel, by decide +kernel, reads_of (by decide +kernel), writes_ready (by decide +kernel)⟩

theorem fits_KeyItemsComplete_4 : ∃ (k : Nat) (flips : List Flip) (s t v : State) (i : Item) (b src label : List Byte),
  (s.applyFlips flips).keyTurn 11 k i b t ∧ 
  let n := if pbSize b then 32 else 16
  t.auxKey i b 4 kapp = some src ∧ i.length ≤ 64 ∧ t.targetBad i b n = false ∧ t.reads (i.addrA + 32) i.length label v :=
  ⟨0, [], palette (palItem 11 8) [0x47, 1, 0, 63], ((palette (palItem 11 8) [0x47, 1, 0, 63]).unitRead 0x10002000 32).1, ((((palette (palItem 11 8) [0x47, 1, 0, 63]).unitRead 0x10002000 32).1).unitRead 0x10002020 8).1, palItem 11 8, padTo 32 [0x47, 1, 0, 63], List.replicate 16 1, List.replicate 8 0, keyTurn_of (by decide +kernel), by decide +kernel, by decide +kernel, by decide +kernel, reads_of (by decide +kernel)⟩

theorem fits_KeyItemsComplete_5 : ∃ (k : Nat) (flips : List Flip) (s t : State) (i : Item) (b : List Byte),
  (s.applyFlips flips).keyTurn 12 k i b t ∧ 
  let n := if pbSize b then 32 else 16
  t.targetBad i b n = false ∧ t.sec.healthy = true :=
  ⟨0, [], palette (palItem 12 0) [7, 0, 0, 63], ((palette (palItem 12 0) [7, 0, 0, 63]).unitRead 0x10002000 32).1, palItem 12 0, padTo 32 [7, 0, 0, 63], keyTurn_of (by decide +kernel), by decide +kernel, by decide +kernel⟩

theorem fits_KeyItemsComplete_6 : ∃ (k : Nat) (flips : List Flip) (s t : State) (i : Item) (b : List Byte),
  (s.applyFlips flips).keyTurn 13 k i b t :=
  ⟨0, [], palette (palItem 13 0) [5, 0, 0, 0], ((palette (palItem 13 0) [5, 0, 0, 0]).unitRead 0x10002000 32).1, palItem 13 0, padTo 32 [5, 0, 0, 0], keyTurn_of (by decide +kernel)⟩

theorem fits_KeyItemsComplete_7 : ∃ (slot : Nat) (s : State) (e : Nat × Nat),
  s.pal.erases.find? (fun e => e.1 == slot && s.eraseLive e) = some e ∧ s.slotQuiet slot = true :=
  ⟨4, { holding (entry Pg.pal 13) with pal := { erases := [(4, 0)] } }, (4, 0), by decide +kernel, by decide +kernel⟩

theorem fits_UpdateCommandsComplete_1 : ∃ (k : Nat) (flips : List Flip) (s t : State) (i : Item) (h : List Byte),
  let u := s.applyFlips flips
  u.updTurn 1 k = some i ∧ i.length = 512 ∧ u.reads i.addrA 512 h t ∧ t.openFault h (i.uparam % 8) = none :=
  ⟨0, [], opened, opened, openedItem, header, by decide +kernel, by decide +kernel, opened_read, opened_good⟩

theorem fits_UpdateCommandsComplete_2 : ∃ (k : Nat) (flips : List Flip) (s t : State) (i : Item) (x : UpdSess) (bs : List Byte),
  let u := s.applyFlips flips
  u.updTurn 2 k = some i ∧ u.updSess (i.uparam % 8) = some x ∧ bit (i.w 0) 0 = true ∧
  i.addrB % 4 < Header.tables x.header ∧ i.length = 4096 ∧ u.reads i.addrA 4096 bs t ∧
  Crypto.sha256 bs = Header.table x.header (i.addrB % 4) :=
  ⟨0, [], tabled, tabled, tabledItem, tabledSess, zeros 4096, by decide +kernel, by rfl, by decide +kernel, tabled_tables, by rfl, tabled_read, (table_headed _ _).symm⟩

theorem fits_UpdateCommandsComplete_3 : ∃ (k : Nat) (flips : List Flip) (s t v : State) (i : Item) (x : UpdSess) (tb bs : List Byte),
  let u := s.applyFlips flips
  let j := i.addrB % 512
  let n := Header.chunks x.header
  let size := if j + 1 = n then Header.size x.header - 4096 * (n - 1) else 4096
  u.updTurn 2 k = some i ∧ u.updSess (i.uparam % 8) = some x ∧ bit (i.w 0) 0 = false ∧ j < n ∧ i.length = size ∧
  u.reads (i.addrB / 4096 * 4096) 4096 tb t ∧ Crypto.sha256 tb = Header.table x.header (j / 128) ∧
  t.reads i.addrA size bs v ∧ Crypto.sha256 bs = cut tb (32 * (j % 128)) 32 :=
  ⟨0, [], chunked, chunked, chunked, chunkedItem, chunkSess, chunkTable, chunkData, by decide +kernel, by rfl, by decide +kernel, by decide +kernel, by decide +kernel, chunked_table, (table_headed _ _).symm, chunked_data, chunked_digest⟩

theorem fits_UpdateCommandsComplete_4 : ∃ (k : Nat) (flips : List Flip) (s t : State) (i : Item),
  let u := s.applyFlips flips
  let mask := i.uparam % 16
  let nand := bit (i.w 0) 0
  u.updTurn 3 k = some i ∧ mask ≠ 0 ∧ i.length = 64 ∧
  ((List.range 4).filter (fun c => mask.testBit c)).any (fun c => !(u.updSess c).any (·.complete)) = false ∧
  (nand = true → pagePresentNmc u.variant = true) ∧ u.rangeStatus 0x08002000 0x8000 = .ready ∧
  incompatible (u.armSet mask) = none ∧
  u.writes i.addrB (dirOctets (u.highestSeq + 1) mask nand ((u.armSet mask).map (fun v => if mask.testBit v.comp then v.version else 0))) t :=
  ⟨0, [], armed, _, armedItem, by decide +kernel, by decide +kernel, by decide +kernel, by decide +kernel, by decide +kernel, flash_ready (by decide) (by decide) (by decide +kernel) (by decide +kernel) (by rfl), by decide +kernel, writes_ready (by rw [dirOctets_length _ _ _ _ (by rfl)]; decide +kernel)⟩

theorem fits_UpdateCommandsComplete_5 : ∃ (cut : Option Nat) (bad : List Nat) (readable : Bool) (lost : List Nat) (s : State),
  s.booted = false ∧ s.testmode = false ∧ s.coreRuns .c0 = true :=
  ⟨none, [], true, [], State.reset, by decide +kernel, by decide +kernel, by decide +kernel⟩


theorem fits_SecurityCommandsComplete_10_2 : ∃ (k : Nat) (flips : List Flip) (s t : State) (i : Item) (c : List Byte),
  let u := s.applyFlips flips
  u.secItem 9 k = some i ∧ i.length = 232 ∧ u.reads i.addrA 232 c t ∧ t.ownerCheck c = none ∧ (leWord c 0).toNat = 2 :=
  ⟨0, [], commanded revokeCommand, commanded revokeCommand, commandItem, revokeCommand, by decide +kernel, by decide +kernel, commanded_read (by decide +kernel),
    by decide +kernel, by decide +kernel⟩

theorem fits_SecurityCommandsComplete_10_3 : ∃ (k : Nat) (flips : List Flip) (s t : State) (i : Item) (c : List Byte),
  let u := s.applyFlips flips
  u.secItem 9 k = some i ∧ i.length = 232 ∧ u.reads i.addrA 232 c t ∧ t.ownerCheck c = none ∧ (leWord c 0).toNat = 3 :=
  ⟨0, [], commanded retireCommand, commanded retireCommand, commandItem, retireCommand, by decide +kernel, by decide +kernel, commanded_read (by decide +kernel),
    by decide +kernel, by decide +kernel⟩

theorem fits_PaletteMessagesComplete_1_claim : ∃ (ini : Initiator) (s : State),
  let u := s.accessed ini Pg.pal 0x104
  s.gate ini Pg.pal 0x104 true = .serve ∧ u.locked Pg.pal = false ∧ lnkPage (u.chsel Pg.pal ini) = false ∧
  u.palPage (u.chsel Pg.pal ini) = .free :=
  ⟨.c0, regsOf lit Pg.pal [], by decide +kernel, by decide +kernel, by decide +kernel, by decide +kernel⟩

theorem fits_PaletteMessagesComplete_1_release : ∃ (ini : Initiator) (s : State),
  let u := s.accessed ini Pg.pal 0x104
  s.gate ini Pg.pal 0x104 true = .serve ∧ u.locked Pg.pal = false ∧ u.palPage (u.chsel Pg.pal ini) = .owned ini ∧
  u.palInflight (u.chsel Pg.pal ini) = 0 :=
  ⟨.c0, { lit with pal := { pages := [(0, .owned .c0)] } }, by decide +kernel, by decide +kernel, by decide +kernel, by decide +kernel⟩

/-- An item of opcode 1 with the priority flag waits for an engine. -/
theorem fits_PaletteMessagesComplete_3_urgent : ∃ (flips : List Flip) (s : State) (e : Nat) (i : Item),
  let u := s.applyFlips flips
  u.engineFree = some e ∧ u.ready Dm.sec = true ∧ u.sec.puf ≠ none ∧ u.flm.ift.find? (fun i => u.palWaits i && i.urgent) = some i :=
  ⟨[], palette (palItem 1 16 1), 0, palItem 1 16 1, by decide +kernel, by decide +kernel, by decide +kernel, by decide +kernel⟩

theorem fits_PaletteMessagesComplete_3_suspended : ∃ (flips : List Flip) (s : State) (e : Nat) (p : Nat × PalMsg) (ps : List (Nat × PalMsg)),
  let u := s.applyFlips flips
  u.engineFree = some e ∧ u.ready Dm.sec = true ∧ u.sec.puf ≠ none ∧
  u.flm.ift.find? (fun i => u.palWaits i && i.urgent) = none ∧ u.suspendedMsgs = p :: ps :=
  ⟨[], { palette (palItem 1 16) with pal := { suspended := [(3, message [])] } }, 0, (3, message []), [],
    by decide +kernel, by decide +kernel, by decide +kernel, by decide +kernel, by decide +kernel⟩

theorem fits_PaletteMessagesComplete_3_waiting : ∃ (flips : List Flip) (s : State) (e : Nat) (i : Item),
  let u := s.applyFlips flips
  u.engineFree = some e ∧ u.ready Dm.sec = true ∧ u.sec.puf ≠ none ∧
  u.flm.ift.find? (fun i => u.palWaits i && i.urgent) = none ∧ u.suspendedMsgs = [] ∧ u.flm.ift.find? u.palWaits = some i :=
  ⟨[], palette (palItem 1 16), 0, palItem 1 16, by decide +kernel, by decide +kernel, by decide +kernel, by decide +kernel,
    by decide +kernel, by decide +kernel⟩

theorem fits_PaletteMessagesComplete_5_1 : ∃ (k a aad : Nat) (flips : List Flip) (s t v : State) (i : Item) (m : PalMsg) (c : PalCtx) (key bs : List Byte),
  let u := s.applyFlips flips
  (u.item k = some i) ∧ ([0, 1].findSome? (fun e => (u.engine e).filter (fun m => m.item == k)) = some m) ∧ (m.key = some key) ∧ (u.cipherBad i m.block = none) ∧ ((i.seg ≤ 1 ∧ a = i.addrA + 32 ∧ aad = pbAad m.block ∧ c = { handle := pbHandle m.block, mode := pbMode m.block, key := some key, op := i.opcode, iv := pbIv m.block, m := pbTag m.block, total := pbTotal m.block, aad := [], data := [] } ∨ 1 < i.seg ∧ a = i.addrA ∧ aad = 0 ∧ u.palCtx i.palPage i.ctx = some c)) ∧
  let last := i.seg = 0 ∨ i.seg = 3
  (u.reads a (i.length + (if last ∧ (i.opcode = 2 ∨ i.opcode = 4) then c.m else 0)) bs t) ∧
  let given := c.aad ++ bs.take aad
  let data := cut bs aad (i.length - aad)
  let all := c.data ++ data
  let tag := fun (p e : List Byte) => streamTag c.mode key c.iv given p e c.m
  let next := if last then none else some { c with aad := given, data := all }
  let out := payloadOut c.mode key c.iv c.data.length data
  let whole := payloadOut c.mode key c.iv 0 all
  i.opcode = 1 ∧ t.writes i.addrB (if last then out ++ tag all whole else out) v :=
  ⟨0, 0x10002020, 0, [], ciphering (palItem 1 16) [5, 0, 0, 0], ((ciphering (palItem 1 16) [5, 0, 0, 0]).unitRead 0x10002020 16).1, _, palItem 1 16, message [5, 0, 0, 0], context 1 [5, 0, 0, 0], List.replicate 16 1, List.replicate 16 0, by decide +kernel, by decide +kernel, by decide +kernel, by decide +kernel, by decide +kernel,
    reads_of (by decide +kernel), by decide +kernel, writes_ready (by decide +kernel)⟩

theorem fits_PaletteMessagesComplete_5_2 : ∃ (k a aad : Nat) (flips : List Flip) (s t v : State) (i : Item) (m : PalMsg) (c : PalCtx) (key bs : List Byte),
  let u := s.applyFlips flips
  (u.item k = some i) ∧ ([0, 1].findSome? (fun e => (u.engine e).filter (fun m => m.item == k)) = some m) ∧ (m.key = some key) ∧ (u.cipherBad i m.block = none) ∧ ((i.seg ≤ 1 ∧ a = i.addrA + 32 ∧ aad = pbAad m.block ∧ c = { handle := pbHandle m.block, mode := pbMode m.block, key := some key, op := i.opcode, iv := pbIv m.block, m := pbTag m.block, total := pbTotal m.block, aad := [], data := [] } ∨ 1 < i.seg ∧ a = i.addrA ∧ aad = 0 ∧ u.palCtx i.palPage i.ctx = some c)) ∧
  let last := i.seg = 0 ∨ i.seg = 3
  (u.reads a (i.length + (if last ∧ (i.opcode = 2 ∨ i.opcode = 4) then c.m else 0)) bs t) ∧
  let given := c.aad ++ bs.take aad
  let data := cut bs aad (i.length - aad)
  let all := c.data ++ data
  let tag := fun (p e : List Byte) => streamTag c.mode key c.iv given p e c.m
  let next := if last then none else some { c with aad := given, data := all }
  let out := payloadOut c.mode key c.iv c.data.length data
  let whole := payloadOut c.mode key c.iv 0 all
  i.opcode = 2 ∧ t.writes i.addrB (out) v :=
  ⟨0, 0x10002020, 0, [], ciphering (palItem 2 16) [5, 0, 0, 0], ((ciphering (palItem 2 16) [5, 0, 0, 0]).unitRead 0x10002020 16).1, _, palItem 2 16, message [5, 0, 0, 0], context 2 [5, 0, 0, 0], List.replicate 16 1, List.replicate 16 0, by decide +kernel, by decide +kernel, by decide +kernel, by decide +kernel, by decide +kernel,
    reads_of (by decide +kernel), by decide +kernel, writes_ready (by decide +kernel)⟩

theorem fits_PaletteMessagesComplete_5_3 : ∃ (k a aad : Nat) (flips : List Flip) (s t v : State) (i : Item) (m : PalMsg) (c : PalCtx) (key bs : List Byte),
  let u := s.applyFlips flips
  (u.item k = some i) ∧ ([0, 1].findSome? (fun e => (u.engine e).filter (fun m => m.item == k)) = some m) ∧ (m.key = some key) ∧ (u.cipherBad i m.block = none) ∧ ((i.seg ≤ 1 ∧ a = i.addrA + 32 ∧ aad = pbAad m.block ∧ c = { handle := pbHandle m.block, mode := pbMode m.block, key := some key, op := i.opcode, iv := pbIv m.block, m := pbTag m.block, total := pbTotal m.block, aad := [], data := [] } ∨ 1 < i.seg ∧ a = i.addrA ∧ aad = 0 ∧ u.palCtx i.palPage i.ctx = some c)) ∧
  let last := i.seg = 0 ∨ i.seg = 3
  (u.reads a (i.length + (if last ∧ (i.opcode = 2 ∨ i.opcode = 4) then c.m else 0)) bs t) ∧
  let given := c.aad ++ bs.take aad
  let data := cut bs aad (i.length - aad)
  let all := c.data ++ data
  let tag := fun (p e : List Byte) => streamTag c.mode key c.iv given p e c.m
  let next := if last then none else some { c with aad := given, data := all }
  let out := payloadOut c.mode key c.iv c.data.length data
  let whole := payloadOut c.mode key c.iv 0 all
  i.opcode = 3 ∧ t.writes i.addrB (if last then tag all [] else []) v :=
  ⟨0, 0x10002020, 0, [], ciphering (palItem 3 16) [5, 0x30, 4, 0], ((ciphering (palItem 3 16) [5, 0x30, 4, 0]).unitRead 0x10002020 16).1, _, palItem 3 16, message [5, 0x30, 4, 0], context 3 [5, 0x30, 4, 0], List.replicate 16 1, List.replicate 16 0, by decide +kernel, by decide +kernel, by decide +kernel, by decide +kernel, by decide +kernel,
    reads_of (by decide +kernel), by decide +kernel, writes_ready (by decide +kernel)⟩

theorem fits_PaletteMessagesComplete_5_4 : ∃ (k a aad : Nat) (flips : List Flip) (s t v : State) (i : Item) (m : PalMsg) (c : PalCtx) (key bs : List Byte),
  let u := s.applyFlips flips
  (u.item k = some i) ∧ ([0, 1].findSome? (fun e => (u.engine e).filter (fun m => m.item == k)) = some m) ∧ (m.key = some key) ∧ (u.cipherBad i m.block = none) ∧ ((i.seg ≤ 1 ∧ a = i.addrA + 32 ∧ aad = pbAad m.block ∧ c = { handle := pbHandle m.block, mode := pbMode m.block, key := some key, op := i.opcode, iv := pbIv m.block, m := pbTag m.block, total := pbTotal m.block, aad := [], data := [] } ∨ 1 < i.seg ∧ a = i.addrA ∧ aad = 0 ∧ u.palCtx i.palPage i.ctx = some c)) ∧
  let last := i.seg = 0 ∨ i.seg = 3
  (u.reads a (i.length + (if last ∧ (i.opcode = 2 ∨ i.opcode = 4) then c.m else 0)) bs t) ∧
  let given := c.aad ++ bs.take aad
  let data := cut bs aad (i.length - aad)
  let all := c.data ++ data
  let tag := fun (p e : List Byte) => streamTag c.mode key c.iv given p e c.m
  let next := if last then none else some { c with aad := given, data := all }
  let out := payloadOut c.mode key c.iv c.data.length data
  let whole := payloadOut c.mode key c.iv 0 all
  i.opcode = 4 ∧ t.writes i.addrB ([]) v :=
  ⟨0, 0x10002020, 0, [], ciphering (palItem 4 16) [5, 0x30, 4, 0], ((ciphering (palItem 4 16) [5, 0x30, 4, 0]).unitRead 0x10002020 20).1, _, palItem 4 16, message [5, 0x30, 4, 0], context 4 [5, 0x30, 4, 0], List.replicate 16 1, List.replicate 20 0, by decide +kernel, by decide +kernel, by decide +kernel, by decide +kernel, by decide +kernel,
    reads_of (by decide +kernel), by decide +kernel, writes_ready (by decide +kernel)⟩
end Sys2Proof.Tests
end

