-- ==== Sys2Proof/WellFormed.lean ====
section
/-! DEFINITION. Which commands are well-formed: every number lies in the range that its name has, and an instruction is
one that the kind of core can hold. The meanings are total, and give a command outside these ranges no effect or that of
the number's low bits. -/

namespace Sys2Proof

/-- A domain of the part (R450). -/
def domainNo (d : Nat) : Bool := d ≤ 18 || (32 ≤ d && d ≤ 47)

/-- A changed word lies in a rank of DRAM, or in the flash, which has 2^19 words. -/
def Flip.ok (f : Flip) : Bool :=
  match f.rank with
  | some r => r < 4
  | none => f.wordNo < 2 ^ 19

def flipsOk (fs : List Flip) : Bool := fs.all Flip.ok

/-- The banks E and N have 1.8 V only (R538). -/
def vioOk (vio : List (VioBank × VioLevel)) : Bool :=
  vio.all (fun v => !(v.1 == .e || v.1 == .n) || v.2 == .v18)

/-- A channel of the widest plan. -/
def RxChan.ok : RxChan → Bool
  | .wide c => c < 256
  | .narrow => true

/-- A link core has no 16-bit instructions (R283). -/
def formOk (c : Core) : Form → Bool
  | .long f => flipsOk f.via.flips
  | .short f => !c.link && flipsOk f.via.flips

/-- The command is well-formed. -/
def Instr.wf : Instr → Bool
  | .registerWrite _ _ size _ flips => (size == 1 || size == 2 || size == 4) && flipsOk flips
  | .rcFieldRead _ _ size flips => (size == 1 || size == 2 || size == 4) && flipsOk flips
  | .stalledAccessServe _ flips => flipsOk flips
  | .chselWrite _ page _ => Machine.pageListed page
  | .blockEnable _ page _ => Machine.pageListed page
  | .softReset _ page air => Machine.pageListed page && air.all (fun a => a.lane ≤ 128)
  | .domainRequest _ page domain dreq => Machine.pageListed page && (match domain with | some d => domainNo d | none => true) && dreq < 4
  | .intClear _ page _ _ => Machine.pageListed page
  | .intSet _ page _ => Machine.pageListed page
  | .intEnWrite _ page _ => Machine.pageListed page
  | .errClear _ page _ => Machine.pageListed page
  | .stagedWrite _ page off _ => Machine.pageListed page && off % 4 == 0 && off < 0x1000
  | .cfgCommit _ page _ => Machine.pageListed page
  | .cfgDiscard _ page _ => Machine.pageListed page
  | .commitSwitch page mismatches => Machine.pageListed page && mismatches < 4
  | .pageLock _ page _ => Machine.pageListed page
  | .pageUnlock _ page _ => Machine.pageListed page
  | .wrProdWrite _ _ => true
  | .ringEnable _ _ => true
  | .ringAbort _ => true
  | .ringResume _ => true
  | .trCfgWrite _ _ => true
  | .trConsWrite _ _ => true
  | .descriptorFetch flips => flipsOk flips
  | .itemIssue entry => entry < 512
  | .itemFinish entry => entry < 512
  | .itemRetire _ flips => flipsOk flips
  | .tailraceModTime ring => ring < 64
  | .reportPost _ _ => true
  | .settlingDone channel => channel < 256
  | .slotDetect rx _ _ _ => rx.ok
  | .sfdFound rx _ _ _ _ => rx.ok
  | .sfdTimeout rx => rx.ok
  | .phrDecode rx _ _ _ => rx.ok
  | .frameEnd rx _ _ _ flips => rx.ok && flipsOk flips
  | .hopperChunkCopy rx _ flips => rx.ok && flipsOk flips
  | .hrConsWrite _ ring _ => ring < 16
  | .hopperRingEnable _ ring _ => ring < 16
  | .nfWindowEnd channel _ _ => channel < 256
  | .nfSnapshot => true
  | .agcStep _ => true
  | .adcClip => true
  | .gapStart air flips => air.all (fun a => a.lane ≤ 128) && flipsOk flips
  | .gapEnd => true
  | .gapGrant _ => true
  | .txBlankStart air flips => air.all (fun a => a.lane ≤ 128) && flipsOk flips
  | .txBlankEnd => true
  | .antselWrite _ _ => true
  | .antSwitch => true
  | .antMeasureSwitch _ => true
  | .antMeasureChoose _ => true
  | .iqseedWrite _ _ => true
  | .iqConverge _ _ => true
  | .nbStop _ => true
  | .nbCycle _ => true
  | .nbRunLnk _ => true
  | .nbDwellEnd => true
  | .nbRetuneDone => true
  | .tuneRequest key => (match key with | .item e => e < 512 | .ack => true)
  | .loopLock _ => true
  | .lockTimeout _ air => air.all (fun a => a.lane ≤ 128)
  | .rxLockLost => true
  | .tempUpdate _ => true
  | .vtEdge _ => true
  | .driftAnchorSweep => true
  | .synCal entry => entry < 512
  | .storeTEntry _ => true
  | .anchorTStep => true
  | .storeSave entry flips => entry < 512 && flipsOk flips
  | .storeLoad entry flips => entry < 512 && flipsOk flips
  | .rampBegin => true
  | .rampBeginPassed entry => entry < 512
  | .femLead => true
  | .femLag => true
  | .rampUpDone => true
  | .lastSymbolOut => true
  | .rampDownDone => true
  | .txLockLost => true
  | .holdExpire => true
  | .wrxPeriodStart => true
  | .wrxEnergyDetect _ => true
  | .wrxOnEnd _ => true
  | .wrxCodeMatch _ => true
  | .wrxHuntTimeout => true
  | .lnkTx entry flips => entry < 512 && flipsOk flips
  | .lnkRxwin entry => entry < 512
  | .rxwinWindowEnd entry => entry < 512
  | .lnkWakecode entry => entry < 512
  | .lbtListenStart entry => entry < 512
  | .lbtListenEnd entry _ _ => entry < 512
  | .backoffExpire entry => entry < 512
  | .ackReceive flips => flipsOk flips
  | .ackWaitEnd entry _ => entry < 512
  | .ackInstant => true
  | .dwellWindowFree entry => entry < 512
  | .lnkRxSecurity flips => flipsOk flips
  | .sampleStart => true
  | .dataWindowOpen => true
  | .dataWindowEnd => true
  | .fpListenEnd => true
  | .nbStateRead _ => true
  | .unanchor _ => true
  | .pendSet _ => true
  | .pendClr _ => true
  | .beaconWindowOpen => true
  | .beaconWindowClose => true
  | .searchPassEnd => true
  | .lnkEventPost => true
  | .keyEraseEffect slot => slot < 64
  | .timNsRead _ => true
  | .timSet => true
  | .timStep => true
  | .timSlew => true
  | .slewDone => true
  | .timSecond => true
  | .cmpFire comparator => comparator < 4
  | .ppsOutPulse => true
  | .ppsOutPulseEnd => true
  | .ppsInCapture _ => true
  | .beaconSync => true
  | .tickperWindowEnd => true
  | .timWakeLoad => true
  | .ethTx entry _ flips => entry < 512 && flipsOk flips
  | .ethFrameReceive _ _ flips => flipsOk flips
  | .ethRxconsWrite _ _ => true
  | .mdioTransfer _ _ => true
  | .mdioDone _ => true
  | .ethLinkChange _ speed => speed < 4
  | .ethMagicPacket => true
  | .coreRun _ _ => true
  | .coreHalt _ _ => true
  | .interruptEntry _ => true
  | .wfiWake _ => true
  | .pairedWord core _ via => core.link && flipsOk via.flips
  | .nop core form => formOk core form
  | .mov core form => formOk core form
  | .add core form => formOk core form
  | .sub core form => formOk core form
  | .and core form => formOk core form
  | .or core form => formOk core form
  | .xor core form => formOk core form
  | .cmp core form => formOk core form
  | .neg core form => formOk core form
  | .not core form => formOk core form
  | .adc _ form => flipsOk form.via.flips
  | .sbc _ form => flipsOk form.via.flips
  | .tst core form => formOk core form
  | .movi core form => !core.link && flipsOk form.via.flips
  | .addi core form => !core.link && flipsOk form.via.flips
  | .shli core form => !core.link && flipsOk form.via.flips
  | .shri core form => !core.link && flipsOk form.via.flips
  | .sari core form => !core.link && flipsOk form.via.flips
  | .movsb _ form => flipsOk form.via.flips
  | .movsh _ form => flipsOk form.via.flips
  | .movzb _ form => flipsOk form.via.flips
  | .movzh _ form => flipsOk form.via.flips
  | .mul _ form => flipsOk form.via.flips
  | .mulhs _ form => flipsOk form.via.flips
  | .mulhu _ form => flipsOk form.via.flips
  | .divs _ form => flipsOk form.via.flips
  | .divu _ form => flipsOk form.via.flips
  | .rems _ form => flipsOk form.via.flips
  | .remu _ form => flipsOk form.via.flips
  | .shl _ form => flipsOk form.via.flips
  | .shr _ form => flipsOk form.via.flips
  | .sar _ form => flipsOk form.via.flips
  | .rol _ form => flipsOk form.via.flips
  | .ror _ form => flipsOk form.via.flips
  | .clz _ form => flipsOk form.via.flips
  | .brev _ form => flipsOk form.via.flips
  | .bswap _ form => flipsOk form.via.flips
  | .mac _ form => flipsOk form.via.flips
  | .msu _ form => flipsOk form.via.flips
  | .macdR core form => formOk core form
  | .macdC core form => formOk core form
  | .macdCj core form => formOk core form
  | .clra core form => !core.link && flipsOk form.via.flips
  | .sac _ form => flipsOk form.via.flips
  | .lac _ form => flipsOk form.via.flips
  | .acc0Clear _ form => flipsOk form.via.flips
  | .acc1Clear _ form => flipsOk form.via.flips
  | .accAdd _ form => flipsOk form.via.flips
  | .accSub _ form => flipsOk form.via.flips
  | .accSwap _ form => flipsOk form.via.flips
  | .accNegate _ form => flipsOk form.via.flips
  | .mfs _ form => flipsOk form.via.flips
  | .mts _ form => flipsOk form.via.flips
  | .xchg _ form => flipsOk form.via.flips
  | .casOp _ form => flipsOk form.via.flips
  | .j _ form => flipsOk form.via.flips
  | .bcc _ form => flipsOk form.via.flips
  | .bra core form => !core.link && flipsOk form.via.flips
  | .beq core form => !core.link && flipsOk form.via.flips
  | .bne core form => !core.link && flipsOk form.via.flips
  | .call _ form => flipsOk form.via.flips
  | .ret core form => formOk core form
  | .callm _ form => flipsOk form.via.flips
  | .retm _ form => flipsOk form.via.flips
  | .reti _ form => flipsOk form.via.flips
  | .trap _ form => flipsOk form.via.flips
  | .loop _ form => flipsOk form.via.flips
  | .brkl _ form => flipsOk form.via.flips
  | .wfi core form => formOk core form
  | .sync _ form => flipsOk form.via.flips
  | .icinv _ form => flipsOk form.via.flips
  | .bkpt _ _ form => flipsOk form.via.flips
  | .di _ form => flipsOk form.via.flips
  | .ei _ form => flipsOk form.via.flips
  | .emul core form => formOk core form
  | .xor128 _ form => flipsOk form.via.flips
  | .gfmul _ form => flipsOk form.via.flips
  | .ctrinc _ form => flipsOk form.via.flips
  | .rev128 _ form => flipsOk form.via.flips
  | .xcorr _ form => flipsOk form.via.flips
  | .energy _ form => flipsOk form.via.flips
  | .peak _ form => flipsOk form.via.flips
  | .crc16 _ form => flipsOk form.via.flips
  | .crc32 _ form => flipsOk form.via.flips
  | .pn9 _ form => flipsOk form.via.flips
  | .conv _ form => flipsOk form.via.flips
  | .drkReconstructDone _ => true
  | .secHash entry flips => entry < 512 && flipsOk flips
  | .secVerify entry flips => entry < 512 && flipsOk flips
  | .secSign entry flips => entry < 512 && flipsOk flips
  | .secRandom entry flips => entry < 512 && flipsOk flips
  | .secAttest entry flips => entry < 512 && flipsOk flips
  | .secExtend entry flips => entry < 512 && flipsOk flips
  | .secPubkey entry flips => entry < 512 && flipsOk flips
  | .secEnroll entry writes flips => entry < 512 && writes < 7 && flipsOk flips
  | .ownerAdd entry flips => entry < 512 && flipsOk flips
  | .ownerRevoke entry flips => entry < 512 && flipsOk flips
  | .ownerRetire entry flips => entry < 512 && flipsOk flips
  | .rngHealthFail => true
  | .debugTokenWrite _ => true
  | .debugTokenVerdict => true
  | .pageClaim _ => true
  | .pageRelease _ => true
  | .pageScrubDone page => page < 16
  | .palEncrypt entry flips => entry < 512 && flipsOk flips
  | .palDecrypt entry flips => entry < 512 && flipsOk flips
  | .palMacGen entry flips => entry < 512 && flipsOk flips
  | .palMacCheck entry flips => entry < 512 && flipsOk flips
  | .keyLoad entry flips => entry < 512 && flipsOk flips
  | .keyUnwrap entry flips => entry < 512 && flipsOk flips
  | .keyWrap entry flips => entry < 512 && flipsOk flips
  | .keyDerive entry flips => entry < 512 && flipsOk flips
  | .keyGen entry flips => entry < 512 && flipsOk flips
  | .keyErase entry flips => entry < 512 && flipsOk flips
  | .engineDispatch flips => flipsOk flips
  | .messageSuspend _ _ => true
  | .primerBoot _ _ _ _ => true
  | .updOpen entry flips => entry < 512 && flipsOk flips
  | .updChunk entry flips => entry < 512 && flipsOk flips
  | .updArm entry flips => entry < 512 && flipsOk flips
  | .channelTrain _ _ => true
  | .trainingDone channel _ _ => channel < 2
  | .drcRefresh rank _ => rank < 4
  | .parityAlert channel _ _ => channel < 2
  | .parityReplayDone channel _ => channel < 2
  | .alertStuck channel => channel < 2
  | .eccWindowEnd => true
  | .migrationStart _ _ => true
  | .migrationStop _ _ => true
  | .migrationSlotCopy flips => flipsOk flips
  | .migrationDone => true
  | .drcCopy entry flips => entry < 512 && flipsOk flips
  | .drcFill entry flips => entry < 512 && flipsOk flips
  | .drcScrub entry flips => entry < 512 && flipsOk flips
  | .flcProgram entry flips => entry < 512 && flipsOk flips
  | .flcErase entry => entry < 512
  | .flcVerify entry flips => entry < 512 && flipsOk flips
  | .flcCounters entry => entry < 512
  | .flcProtect entry _ => entry < 512
  | .erasePulse _ => true
  | .programWord _ => true
  | .flashUnlock _ => true
  | .flashRelock _ => true
  | .eraseResume _ => true
  | .nandRead entry _ => entry < 512
  | .nandProgram entry _ flips => entry < 512 && flipsOk flips
  | .nandErase entry => entry < 512
  | .nandFlush entry => entry < 512
  | .nandMount entry _ _ => entry < 512
  | .nandFormat entry _ _ _ => entry < 512
  | .wbHoldExpire target _ => target < 4
  | .nandOpDone target _ _ => target < 4
  | .nandRelocation target _ _ _ => target < 4
  | .staticWearMove _ => true
  | .patrolStep _ => true
  | .tagInventory entry _ _ flips => entry < 512 && flipsOk flips
  | .tagSelect entry _ _ flips => entry < 512 && flipsOk flips
  | .tagPassword entry _ _ flips => entry < 512 && flipsOk flips
  | .tagAuthenticate entry _ _ _ => entry < 512
  | .tagRead entry _ _ => entry < 512
  | .tagWrite entry _ _ flips => entry < 512 && flipsOk flips
  | .tagVerifyOrigin entry _ _ flips => entry < 512 && flipsOk flips
  | .tagHalt entry _ => entry < 512
  | .tagTset entry _ flips => entry < 512 && flipsOk flips
  | .tagSread entry _ => entry < 512
  | .tagSwrite entry _ flips => entry < 512 && flipsOk flips
  | .fieldHoldExpire => true
  | .fieldDetect _ _ => true
  | .fieldLost => true
  | .lockoutEnd => true
  | .cmdInventory n _ => n < 256
  | .cmdSelect _ => true
  | .cmdPwd _ => true
  | .cmdAuth1 _ => true
  | .cmdAuth2 _ => true
  | .cmdRead record offset length _ => record < 256 && offset < 256 && length < 256
  | .cmdWrite record _ _ => record < 256
  | .cmdHalt => true
  | .tagReply => true
  | .dirtyReport => true
  | .idleTimerExpire domain => domainNo domain
  | .domainIdleCommit domain air => domainNo domain && air.all (fun a => a.lane ≤ 128)
  | .domainSave domain => domainNo domain
  | .domainSwitch domain => domainNo domain
  | .domainEntryDone domain => domainNo domain
  | .domainWake domain => domainNo domain
  | .domainOn domain => domainNo domain
  | .wakeSource source => source < 8
  | .xtalFail => true
  | .xtalRetry _ _ => true
  | .refCheck _ => true
  | .refFail => true
  | .pllLock pll => pll < 3
  | .vcoreChange _ _ => true
  | .vcoreDone => true
  | .softwarePartReset _ _ air => air.all (fun a => a.lane ≤ 128)
  | .resetN _ _ air => air.all (fun a => a.lane ≤ 128)
  | .watchdogExpire air => air.all (fun a => a.lane ≤ 128)
  | .deferredResetApply air => air.all (fun a => a.lane ≤ 128)
  | .powerOn _ _ _ vio => vioOk vio
  | .brownOut => true
  | .rtcTick => true
  | .rtcRead _ off => (off == 0x800 || off == 0x804 || off == 0x808)
  | .goTime _ _ => true
  | .goDate _ _ => true
  | .goWday _ _ => true
  | .rtcLoad => true
  | .zcEdge _ => true
  | .zcWindowEnd => true
  | .zcGap => true
  | .mrcCaptureWindow => true
  | .deferredTrigger input => input < 48
  | .latchedTriggerAct input => input < 48
  | .swPulse _ _ => true
  | .swLevel _ _ => true
  | .stampRead _ stamp => stamp < 4
  | .cntWrite _ counter _ => counter < 4
  | .gpioEdge pin _ => pin < 32
  | .gpioRelease _ => true
  | .linkTrainStart _ => true
  | .linkUp _ => true
  | .linkTrainTimeout _ => true
  | .cellCrcFail _ => true
  | .linkDown _ => true
  | .casTimingExchange _ _ ns _ _ => ns < 1000000000
  | .enumeration _ position => position < 8
  | .casAccept _ position => position < 8
  | .casDrop _ position => position < 8
  | .forwardEntry flips => flipsOk flips
  | .forwardReceive origin _ _ _ flips => origin < 8 && flipsOk flips
  | .casRxconsWrite _ _ => true
  | .casRcopy entry _ _ flips => entry < 512 && flipsOk flips
  | .casBroadcast entry _ flips => entry < 512 && flipsOk flips
  | .casBarrier entry => entry < 512
  | .casSnapshot entry => entry < 512
  | .snapshotCapture _ ns => ns < 1000000000
  | .casReset entry air => (match entry with | some e => e < 512 | none => true) && air.all (fun a => a.lane ≤ 128)
  | .casRegister entry _ flips => entry < 512 && flipsOk flips
  | .casEnumerate entry _ => entry < 512
  | .hostFrame _ flips => flipsOk flips
  | .hostCsRise => true
  | .serialTx entry _ _ flips => entry < 512 && flipsOk flips
  | .serialRx entry _ _ _ => entry < 512
  | .serialXfer entry _ flips => entry < 512 && flipsOk flips
  | .dliSend entry _ _ => entry < 512
  | .dliArm entry _ _ => entry < 512
  | .uartRxOctet uart _ _ => uart < 4
  | .uartReport uart => uart < 4
  | .daliMonitorFrame dli _ _ => dli < 2
  | .i2cHoldTimeout i2c => i2c < 2
  | .pwmWrap pwm => pwm < 4
  | .launchTimeReached entry flips => entry < 512 && flipsOk flips
  | .nbAgeMinute => true

end Sys2Proof
end

