-- ==== Sys2Proof/Tests/Slice0.lean ====
section
/-! SUPPORT. Ill-formed commands are refused; the spec's worked examples and published vectors come out of the model. -/

set_option Elab.async false

namespace Sys2Proof.Tests

open Sys2Proof Sys2Proof.Machine

/-! ### Ill-formed commands, one for each check -/

def badFlip : Flip := { rank := some 4, wordNo := 0, err := .good }
def badFlashFlip : Flip := { rank := none, wordNo := 2 ^ 19, err := .good }
def badAir : Air := { lane := 129, octets := [], snr10 := 0, corr := 0 }
def badVia : Fetch := { hit := false, flips := [badFlip] }
def direct : Fetch := { hit := false, flips := [] }
def badLong : LongForm := { word := 0x8028, ext := [], via := badVia }
def goodShort : ShortForm := { half := 0, via := direct }

theorem test_wf_refuses_pages : ∀ i ∈ ([.chselWrite .c0 0xFF 0, .blockEnable .c0 0xFF true, .softReset .c0 0xFF [], .intClear .c0 0xFF 0x010 0,
    .intSet .c0 0xFF 0, .intEnWrite .c0 0xFF 0, .errClear .c0 0xFF 0, .stagedWrite .c0 0xFF 0x800 0, .cfgCommit .c0 0xFF 0,
    .cfgDiscard .c0 0xFF 0, .commitSwitch 0xFF 0, .pageLock .c0 0xFF 0, .pageUnlock .c0 0xFF 0] : List Instr), i.wf = false := by decide

theorem test_wf_refuses_sizes_and_offsets : ∀ i ∈ ([.registerWrite .c0 0 3 0 [], .rcFieldRead .c0 0 8 [], .stagedWrite .c0 Pg.flm 0x802 0,
    .stagedWrite .c0 Pg.flm 0x1000 0, .commitSwitch Pg.flm 4, .rtcRead .c0 0x810] : List Instr), i.wf = false := by decide

theorem test_wf_refuses_entries : ∀ i ∈ ([.itemIssue 512, .itemFinish 512, .synCal 512, .storeSave 512 [], .storeLoad 512 [],
    .rampBeginPassed 512, .lnkTx 512 [], .lnkRxwin 512, .rxwinWindowEnd 512, .lnkWakecode 512, .lbtListenStart 512,
    .backoffExpire 512, .dwellWindowFree 512] : List Instr), i.wf = false := by decide

theorem test_wf_refuses_numbers : ∀ i ∈ ([.tailraceModTime 64, .settlingDone 256, .sfdTimeout (.wide 256), .hrConsWrite .c0 16 0,
    .hopperRingEnable .c0 16 0, .keyEraseEffect 64, .cmpFire 4, .pageScrubDone 16, .trainingDone 2 0 [], .drcRefresh 4 false,
    .parityAlert 2 0 [], .parityReplayDone 2 false, .alertStuck 2, .wbHoldExpire 4 0, .nandOpDone 4 false 0, .nandRelocation 4 0 0 [],
    .cmdInventory 256 [], .cmdRead 256 0 1 [], .cmdRead 0 256 1 [], .cmdRead 0 0 256 [], .idleTimerExpire 19, .domainSave 31,
    .domainSwitch 48, .domainEntryDone 19, .domainWake 19, .domainOn 19, .wakeSource 8, .pllLock 3, .deferredTrigger 48,
    .latchedTriggerAct 48, .stampRead .c0 4, .cntWrite .c0 4 0, .gpioEdge 32 true, .casTimingExchange true 0 1000000000 0 0,
    .enumeration [] 8, .casAccept .c0 8, .casDrop .c0 8, .snapshotCapture 0 1000000000, .uartRxOctet 4 0 false, .uartReport 4,
    .daliMonitorFrame 2 0 0, .i2cHoldTimeout 2, .pwmWrap 4] : List Instr), i.wf = false := by decide

theorem test_wf_refuses_air : ∀ i ∈ ([.softReset .c0 Pg.flm [badAir], .gapStart [badAir] [], .txBlankStart [badAir] [],
    .watchdogExpire [badAir], .deferredResetApply [badAir], .domainIdleCommit 0 [badAir]] : List Instr), i.wf = false := by decide

theorem test_wf_refuses_flips : ∀ f ∈ [badFlip, badFlashFlip], ∀ i ∈ ([.registerWrite .c0 0 4 0 [f], .rcFieldRead .c0 0 4 [f],
    .stalledAccessServe .c0 [f], .descriptorFetch [f], .itemRetire 0 [f], .hostFrame [] [f], .migrationSlotCopy [f]] : List Instr),
    i.wf = false := by decide

theorem test_wf_refuses_forms : ∀ i ∈ ([.nop .l0 (.short goodShort), .movi .l1 goodShort, .bra .l1 goodShort, .ret .l0 (.short goodShort),
    .adc .c0 badLong, .mov .c0 (.long badLong), .pairedWord .c0 0x80000000 direct] : List Instr),
    i.wf = false := by decide

theorem test_wf_accepts : ∀ i ∈ ([.registerWrite .c0 0 4 0 [], .chselWrite .c0 Pg.flm 0, .nop .c0 (.short goodShort), .itemIssue 511,
    .cmdRead 255 0 128 [], .gpioEdge 31 true, .pairedWord .l0 0x80000000 direct] : List Instr), i.wf = true := by
  decide

/-! ### The DRAM map of the cabinet concentrator (worked example of the DRAM chapter) -/

def cabinet : DramCfg := { rk := fun r => if r = 3 then 0xC0000100 else 0x80000100, mode := 2, grain := 4096 }

theorem test_dram_map : cabinet.mapSize = 0x80000000 ∧ cabinet.locate 0x04000000 = (0, 0x02000000) ∧
    cabinet.locate (1792 * 0x100000) = (1, 0) ∧ cabinet.windowOf 0 (1792 * 200000 + 200) = 0x2AB980C8 := by decide

/-! ### Setting the calendar (worked example of the RTC chapter) -/

def calendar (load : Option RtcLoad) (subsec : Nat := 32767) : State :=
  { lit with rtc := { year := 2000, min := 7, sec := 41, subsec, load } }
def commission : RtcLoad := { time := true, date := true, wday := true, timeWord := 0x00173B3B, dateWord := 0x6834021C }

theorem test_rtc_second_boundary_defers_the_load :
    let r := (calendar (some commission)).rtcTick.rtc
    (r.min, r.sec, r.subsec, r.load.isSome, r.oscStop) = (7, 42, 0, true, true) := by decide +kernel

theorem test_rtc_next_tick_loads :
    let r := (calendar (some { commission with due := true }) 0).rtcTick.rtc
    (r.year, r.month, r.day, r.wday) = (2100, 2, 28, 6) ∧ (r.hour, r.min, r.sec, r.load.isSome, r.oscStop) = (23, 59, 59, false, false) := by
  decide +kernel

theorem test_rtc_2100_is_no_leap_year :
    let s := { lit with rtc := { year := 2100, month := 2, day := 28, hour := 23, min := 59, sec := 59, wday := 6, subsec := 32767 } }
    let r := s.rtcTick.rtc
    (r.year, r.month, r.day, r.hour, r.min, r.sec, r.wday) = (2100, 3, 1, 0, 0, 0, 0) := by decide +kernel

/-! ### Two cores stage credits (worked example of the register-page chapter) -/

/-- The ring plan's CFG_GEN; C0's bank selects ring 7, C1's ring 9. -/
def plan : State :=
  let rings : List (Nat × Nat × Nat × Nat) := [(0, 0, 64, 128), (1, 1, 64, 128), (2, 2, 16, 64), (3, 4, 8, 32), (4, 3, 32, 96), (5, 3, 16, 64), (6, 2, 16, 64), (7, 2, 48, 128), (8, 2, 4, 8), (9, 3, 4, 16)]
  let s := rings.foldl (fun s r =>
    (s.setReg Pg.flm r.1 Fl.wrCfg (word (0x80000004 + r.2.1 * 0x1000))).setReg Pg.flm r.1 Fl.wrCredit (word (r.2.2.2 * 0x10000 + r.2.2.1))) lit
  ((s.setReg Pg.flm 0 0x02C 0x11).setReg Pg.flm 2 0x080 7).setReg Pg.flm 3 0x080 9

/-- C0 has staged ring 7, and, with its bank at ring 4, a minimum above the maximum of ring 4. -/
def planStaged : State :=
  { plan.setReg Pg.flm 2 0x080 4 with
    staged := [(regKey Pg.flm 4 0x110, 0x006000A0), (regKey Pg.flm 7 0x110, 0x00800060)], claims := [(Pg.flm, some .c0)] }
def after (c : Instr) (s : State) : State := match exec c s with | .next t => t | _ => s

theorem test_stage_takes_the_claim :
    let t := after (.stagedWrite .c0 Pg.flm 0x110 0x00800060) plan
    (t.stagedReg Pg.flm 7 0x110, t.claim Pg.flm, t.reg Pg.flm 7 0x110) = (0x00800060, some .c0, 0x00800030) := by decide +kernel

theorem test_stage_busy :
    let t := after (.stagedWrite .c1 Pg.flm 0x110 0x00200004) planStaged
    (t.staged == planStaged.staged, bits (t.reg Pg.flm 0 0x020) 7 0, t.reg Pg.flm 0 0x024) = (true, 0x08, 0x61100009) := by
  decide +kernel

theorem test_commit_mismatch :
    let t := after (.cfgCommit .c0 Pg.flm 0x00000009) planStaged
    (t.staged == planStaged.staged, t.commits, bits (t.reg Pg.flm 0 0x020) 7 0, t.reg Pg.flm 0 0x024) =
      (true, [], 0x01, 0x41100004) := by decide +kernel

/-! ### The dot product's instructions (worked example of the Ehriq chapter) -/

/-- L0 stands at these words, which lie at its PC. -/
def l0 (ws : List Word) (x : Cpu) (s : State := lit) : State :=
  stored x.pc.toNat (ws.flatMap bytesOfWord) { s with cpus := [(0, { x with st := .run, run := true, ran := true })] }
/-- A long instruction of these words. -/
def long (w : Word) (ext : List Word) : LongForm := { word := w, ext := ext.flatMap (fun w => [w.setWidth 16, w.extractLsb' 16 16]), via := direct }

theorem test_mov_immediate :
    let x := (after (.mov .l0 (.long (long 0x48008106 [0x10020000]))) (l0 [0x48008106, 0x10020000] { pc := 0x10040008 })).cpu .l0
    (x.pc, x.p) = (0x10040010, [0, 0x10020000, 0, 0, 0, 0, 0, 0]) := by decide +kernel

/-- CLRA of both accumulators in one word. -/
theorem test_clra_pair :
    let x := (after (.pairedWord .l0 0xE8005001 direct) (l0 [0xE8005001] { pc := 0x10040020, acc0 := 5, acc1 := 7 })).cpu .l0
    (x.pc, x.acc0, x.acc1) = (0x10040024, 0, 0) := by decide +kernel

theorem test_loop :
    let s := l0 [0x48008060, 0x00000080, 0x00000003] { pc := 0x10040024 }
    let x := (after (.loop .l0 (long 0x48008060 [0x80, 3])) s).cpu .l0
    (x.pc, x.ls.head?, x.le.head?, x.lc.head?, x.ld) = (0x10040030, some 0x10040030, some 0x10040030, some 0x80, 1) := by decide +kernel

/-- Both halves of { MACD.R0 (P0)+, (P4)+ ; MACD.R1 (P1)+, (P5)+ }: 0x4000 × 0x4000, and 3 × -2. -/
theorem test_dot_product_pair :
    let s := l0 [0xE086452D] { pc := 0x10040030, p := [0x10000000, 0x10020000, 0, 0, 0x10100000, 0x10120000, 0, 0], acc0 := 5 }
      { lit with mem := [(0x10000001, 0x40), (0x10020000, 3), (0x10100001, 0x40), (0x10120000, 0xFE), (0x10120001, 0xFF)] }
    let x := (after (.pairedWord .l0 0xE086452D direct) s).cpu .l0
    (x.acc0, x.acc1, x.pc, x.p) =
      (0x10000005, BitVec.ofInt 72 (-6), 0x10040034, [0x10000002, 0x10020002, 0, 0, 0x10100002, 0x10120002, 0, 0]) := by
  decide +kernel

theorem test_accop_add :
    let x := (after (.accAdd .l0 (long 0x0000824F [])) (l0 [0x0000824F] { pc := 0x10040034, acc0 := 5, acc1 := 7 })).cpu .l0
    (x.pc, x.acc0, x.acc1) = (0x10040038, 12, 7) := by decide +kernel

/-- SAC to y, RND, SHIFT 15, SW.SAT 1: rounded, and saturated from the top of the accumulator. -/
def sacAt (acc0 : BitVec 72) : State :=
  after (.sac .l0 (long 0x0000C04D [0x10060000, 0x010F]))
    (l0 [0x0000C04D, 0x10060000, 0x010F] { pc := 0x10040038, acc0, sw := 0x20000000 })
theorem test_sac_rounds : ((sacAt 0x4000).octet 0x10060000, ((sacAt 0x4000).cpu .l0).pc) = (1, 0x10040044) := by decide +kernel
theorem test_sac_saturates :
    (List.range 4).map (fun k => (sacAt 0x7F0000000000000000).octet (0x10060000 + k)) = [0xFF, 0xFF, 0xFF, 0x7F] := by
  decide +kernel

/-! ### Published vectors of the algorithms -/

/-- The check values of CRC-32 and CRC-16/X-25 for "123456789", which complement the register at the end. -/
theorem test_crc : (crc32 0xFFFFFFFF ((List.range 9).map (fun k => BitVec.ofNat 8 (0x31 + k)))) ^^^ 0xFFFFFFFF = 0xCBF43926 ∧
    (crc16 0xFFFF ((List.range 9).map (fun k => BitVec.ofNat 8 (0x31 + k)))) ^^^ 0xFFFF = 0x906E := by decide +kernel

/-- FIPS 180-4, "abc". -/
theorem test_sha256 : (Crypto.sha256 [0x61, 0x62, 0x63]).take 8 = [0xBA, 0x78, 0x16, 0xBF, 0x8F, 0x01, 0xCF, 0xEA] := by decide +kernel

/-- FIPS 197, appendix C.1 and its inverse. -/
theorem test_aes :
    let key := (List.range 16).map (BitVec.ofNat 8)
    let plain := (List.range 16).map (fun k => BitVec.ofNat 8 (17 * k))
    let c : List Byte := [0x69, 0xC4, 0xE0, 0xD8, 0x6A, 0x7B, 0x04, 0x30, 0xD8, 0xCD, 0xB7, 0x80, 0x70, 0xB4, 0xC5, 0x5A]
    Crypto.aes key plain = c ∧ Crypto.aesInv key c = plain := by decide +kernel

/-- The private key 1 has the generator of P-256 as its public key (FIPS 186). -/
theorem test_p256_generator : (Crypto.publicKey 1).take 8 = [0x6B, 0x17, 0xD1, 0xF2, 0xE1, 0x2C, 0x42, 0x47] := by decide +kernel

end Sys2Proof.Tests
end

