-- ==== Sys2Proof/Tests/Store.lean ====
section
/-! SUPPORT. The hypotheses of the completion statements of DRAM, flash, RTC, MRC, GPIO and PWM are met. -/

set_option Elab.async false
set_option linter.unusedVariables false

namespace Sys2Proof.Tests

open Sys2Proof Sys2Proof.Machine

/-- Rank 0 is ONLINE and rank 1 is the spare, both on channel 0. -/
def spared : State := ((dramed lit).setRk 1 Rk.spare 0).setReg Pg.drc 1 Dc.rkCfg 0xC0000000
def copying : State :=
  { ((State.setRk spared 0 Rk.migrating 1).setRk 1 Rk.target 0).accessed .c0 Pg.drc 0 with drc := { mig := some (0, 1), migRan := true } }

/-- DRAM is ONLINE and an item of DRC is in hand. -/
def drcItem (op a b n : Nat) : Item := entry Pg.drc op [word a, word b, word n, 0, 0, 0, 0]
def dramHolding (i : Item) : State := holding i (((regsOf (ringed Pg.drc) Pg.drc [(Dc.rkCfg, 0x80000000)]).setRk 0 Rk.online 0).setCh 0 Chn.online 0)
def readOf (s : State) (a n : Nat) (scrub : Bool := false) : List (Option Byte) × EccSum :=
  match s.unitRead a n scrub with
  | (_, .ok os e) => (os, e)
  | _ => ([], {})

def flcItem (op a b n : Nat) (flags : Nat := 0) : Item :=
  { entry Pg.flc op [] with words := [word (op * 0x1000000 + flags), word a, word b, word n, 0, 0, 0, 0] }
def flash (op : FlashOp) : State := { lit with flc := { op := some op } }
def eraseOp : FlashOp := { kind := .erase, item := none, pos := 0x1000, stop := 0x2000 }
def infoOp : FlashOp := { kind := .info, item := some 0, pos := 0, stop := 16, src := List.replicate 16 (some 0) }
def programOp : FlashOp := { kind := .program, item := none, pos := 0x1000, stop := 0x1008, src := List.replicate 8 (some 1) }

/-- TRIM_SRC is ZC, with windows of one hour. -/
def zeroCross (r : Rtc := {}) : State := { lit.setReg Pg.rtc 0 0x81C 0x40000001 with rtc := r }

theorem fits_DramCommandsComplete_1 : ∃ (ini : Initiator) (v : Word) (s : State),
  s.gate ini Pg.drc Dc.chctrl true = .serve ∧ bit v 0 = true ∧ 
  let u := s.accessed ini Pg.drc Dc.chctrl
  let ch := (bit v 4).toNat
  bit (word (subunits u.variant Pg.drc)) ch = true ∧ u.chState ch ≠ Chn.training ∧ u.chState ch ≠ Chn.replay :=
  ⟨.c0, 1, lit, by decide +kernel, by decide +kernel, by decide +kernel, by decide +kernel, by decide +kernel⟩

theorem fits_DramCommandsComplete_2 : ∃ (ch failed : Nat) (results : List (Nat × Nat × Nat)) (s : State),
  ch ≤ 1 ∧ s.chState ch = Chn.training ∧ failed ≤ 6 :=
  ⟨0, 0, [], lit.setCh 0 Chn.training 0, by decide +kernel, by decide +kernel, by decide +kernel⟩

theorem fits_DramCommandsComplete_3 : ∃ (rank : Nat) (postpone : Bool) (s : State),
  rank ≤ 3 ∧ s.domOn Dm.drc = true :=
  ⟨0, false, lit, by decide +kernel, by decide +kernel⟩

theorem fits_DramCommandsComplete_4 : ∃ (ch reissued : Nat) (items : List Nat) (s : State),
  ch ≤ 1 ∧ s.ready Dm.drc = true ∧ s.chState ch = Chn.online :=
  ⟨0, 3, [], lit.setCh 0 Chn.online 0, by decide +kernel, by decide +kernel, by decide +kernel⟩

theorem fits_DramCommandsComplete_5 : ∃ (ch : Nat) (s : State) (a : Alert),
  ch ≤ 1 ∧ s.chState ch = Chn.replay ∧ Sparse.get none s.drc.alerts ch = some a :=
  ⟨0, { lit.setCh 0 Chn.replay 0 with drc := { alerts := [(0, some ⟨1, 3, []⟩)] } }, ⟨1, 3, []⟩, by decide +kernel, by decide +kernel, by decide +kernel⟩

theorem fits_DramCommandsComplete_6 : ∃ (s : State),
  s.domOn Dm.drc = true :=
  ⟨lit, by decide +kernel⟩

theorem fits_DramCommandsComplete_7 : ∃ (ini : Initiator) (v : Word) (s : State) (t : Nat),
  s.gate ini Pg.drc Dc.migctrl true = .serve ∧ bit v 31 = true ∧ bit v 30 = false ∧ 
  let u := s.accessed ini Pg.drc Dc.migctrl
  u.spareRank = some t ∧ u.drc.mig = none ∧ u.drc.migDone = false ∧ u.rkState (bits v 1 0) = Rk.online ∧
  u.chState (bits v 1 0 / 2) = Chn.online ∧ u.chState (t / 2) = Chn.online :=
  ⟨.c0, 0x80000000, spared, 1, by decide +kernel, by decide +kernel, by decide +kernel, by decide +kernel, by decide +kernel, by decide +kernel, by decide +kernel, by decide +kernel, by decide +kernel⟩

theorem fits_DramCommandsComplete_8 : ∃ (ini : Initiator) (v : Word) (s : State) (src t : Nat),
  s.gate ini Pg.drc Dc.migctrl true = .serve ∧ bit v 31 = false ∧ bit v 30 = true ∧ 
  let u := s.accessed ini Pg.drc Dc.migctrl
  u.drc.mig = some (src, t) :=
  ⟨.c0, 0x40000000, copying, 0, 1, by decide +kernel, by decide +kernel, by decide +kernel, by decide +kernel⟩

theorem fits_DramCommandsComplete_9 : ∃ (flips : List Flip) (s : State) (src t : Nat),
  let u := s.applyFlips flips
  let pos := u.fieldOf Pg.drc src Dc.rkMigpos 21 0
  u.drc.mig = some (src, t) ∧ u.ready Dm.drc = true ∧ u.migChannelsOnline src t = true ∧
  pos < rankSlots (u.reg Pg.drc src Dc.rkCfg) :=
  ⟨[], copying, 0, 1, by decide +kernel, by decide +kernel, by decide +kernel, by decide +kernel⟩

theorem fits_DramCommandsComplete_10 : ∃ (s : State) (src t : Nat),
  s.drc.mig = some (src, t) ∧ s.ready Dm.drc = true ∧
  rankSlots (s.reg Pg.drc src Dc.rkCfg) ≤ s.fieldOf Pg.drc src Dc.rkMigpos 21 0 :=
  ⟨copying.setReg Pg.drc 0 Dc.rkMigpos 0x3FFFFF, 0, 1, by decide +kernel, by decide +kernel, by decide +kernel⟩

theorem fits_DramCommandsComplete_11 : ∃ (k : Nat) (flips : List Flip) (s t : State) (i : Item) (bs : List (Option Byte)) (e : EccSum),
  let u := s.applyFlips flips
  u.activeItem Pg.drc 1 k = some i ∧ u.ready Dm.drc = true ∧
  (inWindow i.addrA i.length || inWindow i.addrB i.length) = true ∧ u.drcRangeBad i.addrA i.length = false ∧
  u.drcRangeBad i.addrB i.length = false ∧ u.rangeStatus i.addrA i.length = .ready ∧
  u.rangeStatus i.addrB i.length = .ready ∧ 
  let n := min (u.readyPrefix i.addrA i.length) (u.readyPrefix i.addrB i.length)
  u.unitRead i.addrA n = (t, .ok bs e) :=
  ⟨0, [], dramHolding (drcItem 1 0x80000000 0x10002000 16), ((dramHolding (drcItem 1 0x80000000 0x10002000 16)).unitRead 0x80000000 16).1, drcItem 1 0x80000000 0x10002000 16, (readOf (dramHolding (drcItem 1 0x80000000 0x10002000 16)) 0x80000000 16).1, (readOf (dramHolding (drcItem 1 0x80000000 0x10002000 16)) 0x80000000 16).2, by decide +kernel, by decide +kernel, by decide +kernel, by decide +kernel, by decide +kernel, by decide +kernel, by decide +kernel, by decide +kernel⟩

theorem fits_DramCommandsComplete_12 : ∃ (k : Nat) (flips : List Flip) (s : State) (i : Item),
  let u := s.applyFlips flips
  u.activeItem Pg.drc 2 k = some i ∧ u.ready Dm.drc = true ∧ i.addrB % 4 = 0 ∧ i.length % 4 = 0 ∧
  inWindow i.addrB i.length = true ∧ u.drcRangeBad i.addrB i.length = false ∧ u.rangeStatus i.addrB i.length = .ready :=
  ⟨0, [], dramHolding (drcItem 2 0x11111111 0x80000000 16), drcItem 2 0x11111111 0x80000000 16, by decide +kernel, by decide +kernel, by decide +kernel, by decide +kernel, by decide +kernel, by decide +kernel, by decide +kernel⟩

theorem fits_DramCommandsComplete_13 : ∃ (k : Nat) (flips : List Flip) (s t : State) (i : Item) (bs : List (Option Byte)) (e : EccSum),
  let u := s.applyFlips flips
  u.activeItem Pg.drc 3 k = some i ∧ u.ready Dm.drc = true ∧ i.addrA % 64 = 0 ∧ i.length % 64 = 0 ∧
  inWindow i.addrA i.length = true ∧ u.drcRangeBad i.addrA i.length = false ∧ u.rangeStatus i.addrA i.length = .ready ∧ 
  let n := u.readyPrefix i.addrA i.length
  u.unitRead i.addrA n true = (t, .ok bs e) :=
  ⟨0, [], dramHolding (drcItem 3 0x80000000 0 64), ((dramHolding (drcItem 3 0x80000000 0 64)).unitRead 0x80000000 64 true).1, drcItem 3 0x80000000 0 64, (readOf (dramHolding (drcItem 3 0x80000000 0 64)) 0x80000000 64 true).1, (readOf (dramHolding (drcItem 3 0x80000000 0 64)) 0x80000000 64 true).2, by decide +kernel, by decide +kernel, by decide +kernel, by decide +kernel, by decide +kernel, by decide +kernel, by decide +kernel, by decide +kernel⟩

theorem fits_FlashCommandsComplete_1 : ∃ (k : Nat) (flips : List Flip) (s t : State) (i : Item) (bs : List (Option Byte)) (e : EccSum),
  let u := s.applyFlips flips
  let ofs := flashOfs i.addrB
  u.flcItem 1 k = some i ∧ u.ready Dm.flc = true ∧ i.addrB % 8 = 0 ∧ i.length % 8 = 0 ∧
  inFlash i.addrB i.length = true ∧ inMemories i.addrA i.length = true ∧
  (List.range (i.length / 8)).any (fun j => !u.wordErased (ofs + 8 * j)) = false ∧
  u.protectedRegion ofs i.length = none ∧ u.unitRead i.addrA i.length = (t, .ok bs e) ∧ (knownBytes bs).isSome = true ∧
  t.anySector ofs i.length (fun r => r.state == 3) = false :=
  ⟨0, [], holding (flcItem 1 0x10002000 0x08100000 16 0), ((holding (flcItem 1 0x10002000 0x08100000 16 0)).unitRead 0x10002000 16).1, flcItem 1 0x10002000 0x08100000 16 0, (readOf (holding (flcItem 1 0x10002000 0x08100000 16 0)) 0x10002000 16).1, (readOf (holding (flcItem 1 0x10002000 0x08100000 16 0)) 0x10002000 16).2, by decide +kernel, by decide +kernel, by decide +kernel, by decide +kernel, by decide +kernel, by decide +kernel, by decide +kernel, by decide +kernel, by decide +kernel, by decide +kernel, by decide +kernel⟩

theorem fits_FlashCommandsComplete_2 : ∃ (k : Nat) (s : State) (i : Item),
  let ofs := flashOfs i.addrB
  s.flcItem 2 k = some i ∧ s.ready Dm.flc = true ∧ i.addrB % 4096 = 0 ∧ i.length % 4096 = 0 ∧
  inFlash i.addrB i.length = true ∧ s.protectedRegion ofs i.length = none ∧ (s.sectorRec (ofs / 0x1000)).state ≠ 3 :=
  ⟨0, holding (flcItem 2 0 0x08100000 4096 0), flcItem 2 0 0x08100000 4096 0, by decide +kernel, by decide +kernel, by decide +kernel, by decide +kernel, by decide +kernel, by decide +kernel, by decide +kernel⟩

theorem fits_FlashCommandsComplete_3 : ∃ (k : Nat) (flips : List Flip) (s t v : State) (i : Item) (want got : List (Option Byte)) (e e' : EccSum),
  let u := s.applyFlips flips
  let blank := i.uflags % 2 = 1
  u.flcItem 3 k = some i ∧ u.ready Dm.flc = true ∧ i.addrB % 8 = 0 ∧ i.length % 8 = 0 ∧
  inFlash i.addrB i.length = true ∧
  (¬blank → inMemories i.addrA i.length = true ∧ u.unitRead i.addrA i.length = (t, .ok want e)) ∧
  (blank → t = u ∧ want = List.replicate i.length (some 0xFF) ∧ e = {}) ∧
  t.unitRead i.addrB i.length = (v, .ok got e') ∧ e.bad = [] ∧ e'.bad = [] :=
  ⟨0, [], holding (flcItem 3 0 0x08100000 16 1), holding (flcItem 3 0 0x08100000 16 1), ((holding (flcItem 3 0 0x08100000 16 1)).unitRead 0x08100000 16).1, flcItem 3 0 0x08100000 16 1, List.replicate 16 (some 0xFF), (readOf (holding (flcItem 3 0 0x08100000 16 1)) 0x08100000 16).1, {}, (readOf (holding (flcItem 3 0 0x08100000 16 1)) 0x08100000 16).2, by decide +kernel, by decide +kernel, by decide +kernel, by decide +kernel, by decide +kernel, (fun h => absurd (by decide +kernel) h), (fun _ => ⟨rfl, by decide +kernel, rfl⟩), by decide +kernel, rfl, by decide +kernel⟩

theorem fits_FlashCommandsComplete_4 : ∃ (k : Nat) (s t : State) (i : Item),
  s.flcItem 4 k = some i ∧ s.ready Dm.flc = true ∧ i.length % 4 = 0 ∧ i.addrA + i.length / 4 ≤ 1024 ∧
  inMemories i.addrB i.length = true ∧
  s.writes i.addrB (bytesOfWords ((List.range (i.length / 4)).map (fun j => counterWord (s.sectorRec (i.addrA + j))))) t :=
  ⟨0, holding (flcItem 4 0 0x10002000 16 0), _, flcItem 4 0 0x10002000 16 0, by decide +kernel, by decide +kernel, by decide +kernel, by decide +kernel, by decide +kernel, writes_ready (by decide +kernel)⟩

theorem fits_FlashCommandsComplete_5 : ∃ (k : Nat) (salt : List Byte) (s t : State) (i : Item) (bs : List Byte),
  s.flcItem 5 k = some i ∧ s.ready Dm.flc = true ∧ s.flc.op = none ∧ i.length = 16 ∧ inMemories i.addrA 16 = true ∧
  s.flc.unlocked = true ∧ s.reads i.addrA 16 bs t :=
  ⟨0, [], { holding (flcItem 5 0x10002000 0 16 0) with flc := { unlocked := true } }, (({ holding (flcItem 5 0x10002000 0 16 0) with flc := { unlocked := true } }).unitRead 0x10002000 16).1, flcItem 5 0x10002000 0 16 0, List.replicate 16 0, by decide +kernel, by decide +kernel, by decide +kernel, by decide +kernel, by decide +kernel, by decide +kernel, reads_of (by decide +kernel)⟩

theorem fits_FlashCommandsComplete_6 : ∃ (k : Nat) (salt : List Byte) (s : State) (o : FlashOp),
  s.flc.op = some o ∧ o.kind = .info ∧ o.item = some k :=
  ⟨0, List.replicate 16 0, flash infoOp, infoOp, by decide +kernel, by decide +kernel, by decide +kernel⟩

theorem fits_FlashCommandsComplete_7 : ∃ (blank : Bool) (s : State) (o : FlashOp),
  s.flc.op = some o ∧ o.kind = .erase :=
  ⟨true, flash eraseOp, eraseOp, by decide +kernel, by decide +kernel⟩

theorem fits_FlashCommandsComplete_8 : ∃ (verified : Bool) (s : State) (o : FlashOp),
  s.flc.op = some o ∧ o.kind = .program :=
  ⟨true, flash programOp, programOp, by decide +kernel, by decide +kernel⟩

theorem fits_FlashCommandsComplete_9 : ∃ (ini : Initiator) (s : State),
  s.gate ini Pg.flc 0x820 true = .serve :=
  ⟨.c0, lit, by decide +kernel⟩

theorem fits_FlashCommandsComplete_10 : ∃ (blank : Bool) (s : State) (sec : Nat),
  s.flc.intent = some sec ∧ s.flc.op = none ∧ s.ready Dm.flc = true :=
  ⟨true, { lit with flc := { intent := some 5 } }, 5, by decide +kernel, by decide +kernel, by decide +kernel⟩

theorem fits_ClockTriggerPinCommandsComplete_1 : ∃ (ini : Initiator) (off : Nat) (s : State),
  (off = 0x800 ∨ off = 0x804 ∨ off = 0x808) ∧ s.gate ini Pg.rtc off false = .serve :=
  ⟨.c0, 0x800, lit, by decide +kernel, by decide +kernel⟩

theorem fits_ClockTriggerPinCommandsComplete_2 : ∃ (ini : Initiator) (v : Word) (s : State),
  s.gate ini Pg.rtc 0x80C true = .serve ∧ 
  let u := s.accessed ini Pg.rtc 0x80C
  let l := fun (v : Word) => ({ time := bit v 0, date := bit v 1, wday := bit v 2, timeWord := Sparse.get 0 u.rtc.times ini.id, dateWord := Sparse.get 0 u.rtc.dates ini.id } : RtcLoad)
  let t := fun (v : Word) => (u.setRtc (fun r => { r with load := some (l v) })).setReply ini 0 false
  u.locked Pg.rtc = false ∧ u.rtc.load = none :=
  ⟨.c0, 1, lit, by decide +kernel, by decide +kernel, by decide +kernel⟩

theorem fits_ClockTriggerPinCommandsComplete_3 : ∃ (s : State) (l : RtcLoad),
  s.rtc.load = some l ∧ l.due = true :=
  ⟨{ lit with rtc := { load := some { time := true, date := false, wday := false, timeWord := 0, dateWord := 0, due := true } } }, { time := true, date := false, wday := false, timeWord := 0, dateWord := 0, due := true }, by decide +kernel, by decide +kernel⟩

theorem fits_ClockTriggerPinCommandsComplete_4 : ∃ (since : Nat) (s : State),
  10000 ≤ since ∧ s.supplied .c = true :=
  ⟨10000, lit, by decide +kernel, by decide +kernel⟩

theorem fits_ClockTriggerPinCommandsComplete_5 : ∃ (s : State),
  s.trimSrc = 1 ∧ 3600 * s.fieldOf Pg.rtc 0 0x81C 15 0 ≤ s.rtc.zcSecs :=
  ⟨zeroCross { zcSecs := 3600, zc := 180001 }, by decide +kernel, by decide +kernel⟩

theorem fits_ClockTriggerPinCommandsComplete_6 : ∃ (s : State),
  s.trimSrc = 1 :=
  ⟨zeroCross, by decide +kernel⟩

theorem fits_ClockTriggerPinCommandsComplete_8 : ∃ (k : Nat) (s : State),
  k < 48 ∧ (s.mrcIn k).deferred = true ∧ s.mrcLimits k (bits (s.reg Pg.mrc 0 (0x800 + 4 * k)) 14 0) = false :=
  ⟨3, { lit with mrc := { inputs := [(3, { deferred := true })] } }, by decide +kernel, by decide +kernel, by decide +kernel⟩

theorem fits_ClockTriggerPinCommandsComplete_9 : ∃ (k : Nat) (s : State),
  k < 48 ∧ (s.mrcIn k).latched = true ∧ s.domOn (mrcDomain k) = true :=
  ⟨3, { lit with mrc := { inputs := [(3, { latched := true })] } }, by decide +kernel, by decide +kernel, by decide +kernel⟩

theorem fits_ClockTriggerPinCommandsComplete_10 : ∃ (ini : Initiator) (v : Word) (s : State),
  s.gate ini Pg.mrc 0xA00 true = .serve :=
  ⟨.c0, 1, lit, by decide +kernel⟩

theorem fits_ClockTriggerPinCommandsComplete_11 : ∃ (ini : Initiator) (v : Word) (s : State),
  s.gate ini Pg.mrc 0xA04 true = .serve :=
  ⟨.c0, 1, lit, by decide +kernel⟩

theorem fits_ClockTriggerPinCommandsComplete_12 : ∃ (ini : Initiator) (n : Nat) (s : State),
  n < 4 ∧ s.gate ini Pg.mrc (0xA60 + 8 * n) false = .serve :=
  ⟨.c0, 3, lit, by decide +kernel, by decide +kernel⟩

theorem fits_ClockTriggerPinCommandsComplete_13 : ∃ (ini : Initiator) (n : Nat) (v : Word) (s : State),
  n < 4 ∧ s.gate ini Pg.mrc (cntVal n) true = .serve :=
  ⟨.c0, 3, 7, lit, by decide +kernel, by decide +kernel⟩

theorem fits_ClockTriggerPinCommandsComplete_14 : ∃ (pin : Nat) (level : Bool) (s : State),
  pin < 32 :=
  ⟨31, true, lit, by decide +kernel⟩

theorem fits_ClockTriggerPinCommandsComplete_15 : ∃ (ini : Initiator) (s : State),
  s.gate ini Pg.gpio 0x808 true = .serve :=
  ⟨.c0, lit, by decide +kernel⟩

theorem fits_ClockTriggerPinCommandsComplete_16 : ∃ (k : Nat) (s : State),
  k < 4 ∧ s.ready Dm.per = true ∧ s.pwmRuns k = true :=
  ⟨3, lit.setReg Pg.pwm 0 (pwmOff 3 8) 0x80000000, by decide +kernel, by decide +kernel, by decide +kernel⟩

theorem fits_FlashCommandsComplete_3_data : ∃ (k : Nat) (flips : List Flip) (s t v : State) (i : Item) (want got : List (Option Byte)) (e e' : EccSum),
  let u := s.applyFlips flips
  let blank := i.uflags % 2 = 1
  u.flcItem 3 k = some i ∧ u.ready Dm.flc = true ∧ i.addrB % 8 = 0 ∧ i.length % 8 = 0 ∧
  inFlash i.addrB i.length = true ∧
  (¬blank → inMemories i.addrA i.length = true ∧ u.unitRead i.addrA i.length = (t, .ok want e)) ∧
  (blank → t = u ∧ want = List.replicate i.length (some 0xFF) ∧ e = {}) ∧
  t.unitRead i.addrB i.length = (v, .ok got e') ∧ e.bad = [] ∧ e'.bad = [] :=
  ⟨0, [], holding (flcItem 3 0x10002000 0x08100000 16 0), ((holding (flcItem 3 0x10002000 0x08100000 16 0)).unitRead 0x10002000 16).1, ((((holding (flcItem 3 0x10002000 0x08100000 16 0)).unitRead 0x10002000 16).1).unitRead 0x08100000 16).1, flcItem 3 0x10002000 0x08100000 16 0, (readOf (holding (flcItem 3 0x10002000 0x08100000 16 0)) 0x10002000 16).1, (readOf (((holding (flcItem 3 0x10002000 0x08100000 16 0)).unitRead 0x10002000 16).1) 0x08100000 16).1, (readOf (holding (flcItem 3 0x10002000 0x08100000 16 0)) 0x10002000 16).2, (readOf (((holding (flcItem 3 0x10002000 0x08100000 16 0)).unitRead 0x10002000 16).1) 0x08100000 16).2, by decide +kernel, by decide +kernel, by decide +kernel, by decide +kernel, by decide +kernel, (fun _ => ⟨by decide +kernel, by decide +kernel⟩), (fun h => absurd h (by decide +kernel)), by decide +kernel, by decide +kernel, by decide +kernel⟩

theorem fits_FlashCommandsComplete_9_unlock : ∃ (ini : Initiator) (s : State),
  s.gate ini Pg.flc 0x820 true = .serve ∧
  let u := s.accessed ini Pg.flc 0x820
  let w := { u with flc := { u.flc with pwdHi := 0, pwdLo := 0 } }
  u.flc.lockout = false ∧ u.pwdMatches (u.flc.pwdHi.toNat * 2 ^ 32 + u.flc.pwdLo.toNat) = true :=
  ⟨.c0, lit, by decide +kernel, by decide +kernel, by decide +kernel⟩

theorem fits_ClockTriggerPinCommandsComplete_2_time : ∃ (ini : Initiator) (v : Word) (s : State),
  s.gate ini Pg.rtc 0x80C true = .serve ∧
  let u := s.accessed ini Pg.rtc 0x80C
  let l := fun (v : Word) => ({ time := bit v 0, date := bit v 1, wday := bit v 2, timeWord := Sparse.get 0 u.rtc.times ini.id, dateWord := Sparse.get 0 u.rtc.dates ini.id } : RtcLoad)
  let t := fun (v : Word) => (u.setRtc (fun r => { r with load := some (l v) })).setReply ini 0 false
  u.locked Pg.rtc = false ∧ u.rtc.load = none ∧ bit v 0 = true ∧ impossible (l v) = none :=
  ⟨.c0, 1, lit, by decide +kernel, by decide +kernel, by decide +kernel, by decide +kernel, by decide +kernel⟩

theorem fits_ClockTriggerPinCommandsComplete_2_date : ∃ (ini : Initiator) (v : Word) (s : State),
  s.gate ini Pg.rtc 0x80C true = .serve ∧
  let u := s.accessed ini Pg.rtc 0x80C
  let l := fun (v : Word) => ({ time := bit v 0, date := bit v 1, wday := bit v 2, timeWord := Sparse.get 0 u.rtc.times ini.id, dateWord := Sparse.get 0 u.rtc.dates ini.id } : RtcLoad)
  let t := fun (v : Word) => (u.setRtc (fun r => { r with load := some (l v) })).setReply ini 0 false
  u.locked Pg.rtc = false ∧ u.rtc.load = none ∧ bit v 1 = true ∧ impossible (l v) = none :=
  ⟨.c0, 2, { lit with rtc := { dates := [(Initiator.id .c0, 0x07D00101)] } }, by decide +kernel, by decide +kernel, by decide +kernel, by decide +kernel, by decide +kernel⟩

theorem fits_ClockTriggerPinCommandsComplete_2_wday : ∃ (ini : Initiator) (v : Word) (s : State),
  s.gate ini Pg.rtc 0x80C true = .serve ∧
  let u := s.accessed ini Pg.rtc 0x80C
  let l := fun (v : Word) => ({ time := bit v 0, date := bit v 1, wday := bit v 2, timeWord := Sparse.get 0 u.rtc.times ini.id, dateWord := Sparse.get 0 u.rtc.dates ini.id } : RtcLoad)
  let t := fun (v : Word) => (u.setRtc (fun r => { r with load := some (l v) })).setReply ini 0 false
  u.locked Pg.rtc = false ∧ u.rtc.load = none ∧ bit v 2 = true ∧ impossible (l v) = none :=
  ⟨.c0, 4, lit, by decide +kernel, by decide +kernel, by decide +kernel, by decide +kernel, by decide +kernel⟩

end Sys2Proof.Tests
end

