-- ==== Sys2Proof/Tests/Whole.lean ====
section
/-! SUPPORT. The hypotheses of the statements about all commands and about single rules are met. -/

set_option Elab.async false
set_option linter.unusedVariables false

namespace Sys2Proof.Tests

open Sys2Proof Sys2Proof.Machine

theorem fits_StepRunsFrontCommand : ∃ (c : Instr) (s : State) (rest : List Instr), s.pending = c :: rest :=
  ⟨.errClear .c0 Pg.flm 1, { lit with pending := [.errClear .c0 Pg.flm 1, .eccWindowEnd] }, [.eccWindowEnd], rfl⟩

theorem fits_EmptyQueueLetsACyclePass : ∃ (s : State), s.pending = [] := ⟨State.reset, rfl⟩

theorem fits_CommandsKeepToTheirFootprint : ∃ (c : Instr) (s t : State), exec c s = .next t := ⟨.eccWindowEnd, lit, _, rfl⟩

theorem fits_StepKeepsStatesSound : ∃ (s t : State), s.wf = true ∧ step s = .next t := ⟨State.reset, _, by decide +kernel, rfl⟩

/-- A fetched entry of C0's ring that may issue, and another whose opcode its unit does not define. -/
def fetchedItem (op : Nat) : Item := { entry Pg.tim op with st := .fetched }
/-- ICINV stands at C0's PC. -/
def icinvForm : LongForm := { word := 0x8064, ext := [], via := { hit := false, flips := [] } }
def icinvAt : State :=
  stored 0x10000000 (icinvForm.code 4) { lit with cpus := [(2, { st := .run, run := true, ran := true, pc := 0x10000000 })] }
def report0 : Report := { unit := Pg.tim, tail := 5, status := Sc.done, ns := 0, sec := 0, rep6 := 0, rep7 := 0 }

theorem fits_ErrorsAreRecorded_1 : ∃ (s : State) (page : Nat) (ini : Initiator) (off detail code : Nat),
  s.wf = true ∧ code < 256 :=
  ⟨lit, Pg.flm, .l1, 0x108, 3, 0x0B, by decide +kernel, by decide +kernel⟩

theorem fits_ErrorsAreRecorded_2 : ∃ (s : State) (page : Nat) (ini : Initiator),
  s.wf = true ∧ s.gate ini page 0x020 true = .serve :=
  ⟨lit, Pg.flm, .l1, by decide +kernel, by decide +kernel⟩

theorem fits_OnlyTheOwnerAdvancesProd_1 : ∃ (ini : Initiator) (value : Word) (s : State),
  s.wf = true ∧ s.gate ini Pg.flm 0x108 true = .serve :=
  ⟨.c0, 1, ringed Pg.tim, by decide +kernel, by decide +kernel⟩

theorem fits_OnlyTheOwnerAdvancesProd_2 : ∃ (ini other : Initiator) (page : Nat) (value : Word) (s t : State),
  other.id ≠ ini.id ∧ exec (.chselWrite ini page value) s = .next t :=
  ⟨.c0, .c1, Pg.flm, 3, lit, _, by decide +kernel, by rfl⟩

theorem fits_ShortTimesAreReadAgainstTim : ∃ (s : State) (ns secLo : Nat),
  secLo < 2 ^ 18 ∧ ns < 1000000000 :=
  ⟨{ lit with tim := { sec := 100 } }, 5, 101, by decide +kernel, by decide +kernel⟩

theorem fits_NopsAndUndefinedOpcodes_2 : ∃ (k : Nat) (s : State) (i : Item),
  s.wf = true ∧ s.item k = some i ∧ i.st = .fetched ∧ s.mayIssue i = true ∧ i.result = none ∧
  pagePresent s.variant i.unit = true ∧ s.ready (epochDomain i.unit) = true :=
  ⟨0, holding (fetchedItem 0), fetchedItem 0, by decide +kernel, by decide +kernel, by decide +kernel, by decide +kernel, by decide +kernel, by decide +kernel, by decide +kernel⟩

theorem fits_ClosedTailracesTakeNoEntry_1 : ∃ (k : Nat) (flips : List Flip) (s t : State) (i : Item),
  s.item k = some i ∧ s.trEn (s.wrTail i.ring) = false ∧ exec (.itemRetire k flips) s = .next t :=
  ⟨0, [], holding (entry Pg.tim 0) lit, _, entry Pg.tim 0, by decide +kernel, by decide +kernel, by rfl⟩

theorem fits_ClosedTailracesTakeNoEntry_2 : ∃ (k : Nat) (overflow : Bool) (s t : State) (r : Report),
  s.flm.waiting[k]? = some r ∧ s.trEn r.tail = false ∧ exec (.reportPost k overflow) s = .next t :=
  ⟨0, false, { lit with flm := { waiting := [report0] } }, _, report0, by decide +kernel, by decide +kernel, by rfl⟩

theorem fits_ClosedTailracesTakeNoEntry_3 : ∃ (s t : State) (ring : Nat),
  ring = s.fieldOf Pg.lnk 0 0x848 29 24 ∧ s.trEn ring = false ∧ exec .lnkEventPost s = .next t :=
  ⟨lit, _, 0, by decide +kernel, by decide +kernel, by rfl⟩

theorem fits_AccessesFollowTheDomain : ∃ (ini : Initiator) (page off : Nat) (v : Word) (s : State),
  page < 256 ∧ off < 0x1000 ∧ off % 4 = 0 ∧ pageListed page = true ∧ pagePresent s.variant page = true ∧
  (∀ w, permitted ini page off w = true) ∧ (ini = .debug → s.debugBus = true) :=
  ⟨.c0, Pg.chz, 0x800, 5, lit, by decide +kernel, by decide +kernel, by decide +kernel, by decide +kernel, by decide +kernel, (by decide +kernel), (fun h => nomatch h)⟩


theorem fits_SumsAndDifferencesSetTheirFlags : ∃ (k : Nat) (a b sw : Word) (cin : Bool),
  (k = 1 ∨ k = 2 ∨ k = 4) :=
  ⟨1, 0x80, 0x7F, 0, true, by decide +kernel⟩

theorem fits_ShiftsAndRotatesByCount : ∃ (a sw : Word) (n : Nat),
  n < 64 :=
  ⟨5, 0, 32, by decide +kernel⟩

theorem fits_CodedStreamsHoldWholeBlocks_2 : ∃ (b : List Bool) (k : Nat),
  k < 256 :=
  ⟨[true], 255, by decide +kernel⟩

theorem fits_LongReachFramesAreSpread_1 : ∃ (n v k : Nat),
  k < n :=
  ⟨64, 0xFFFFFFFFFFFFFFFE, 63, by decide +kernel⟩

theorem fits_CachesFollowIcinvAndFlash_1 : ∃ (c : Core) (f : LongForm) (s : State) (o : Opnds) (e : Ev),
  s.beginsLong c 0x64 f = some (o, e) :=
  ⟨.c0, icinvForm, icinvAt, _, (icinvAt.begins .c0 icinvForm.via (icinvForm.code 4)).getD { s := lit, c := .c0, x := {}, pc := 0 }, rfl⟩

theorem fits_CachesFollowIcinvAndFlash_2 : ∃ (s : State) (sec k : Nat) (c : Core),
  0x08000000 + sec * 0x1000 ≤ k ∧ k < 0x08001000 + sec * 0x1000 :=
  ⟨lit, 511, 0x081FFFFF, .c0, by decide +kernel, by decide +kernel⟩

theorem fits_CachesFollowIcinvAndFlash_3 : ∃ (s : State) (o : FlashOp) (k : Nat) (c : Core),
  0x08000000 + o.pos ≤ k ∧ k < 0x08000008 + o.pos :=
  ⟨lit, { kind := .program, item := none, pos := 8, stop := 16 }, 0x0800000F, .c0, by decide +kernel, by decide +kernel⟩

theorem fits_CachesFollowIcinvAndFlash_4 : ∃ (s : State) (c : Core) (a : Word) (n : Nat),
  (s.cpu c).icache = [] ∧ 2 ≤ n :=
  ⟨lit, .c0, 0x08000000, 2, by decide +kernel, by decide +kernel⟩

theorem fits_UnsuppliedPinsReadZero : ∃ (p : Nat) (s : State),
  p < 32 ∧ s.supplied (pinBank p) = false :=
  ⟨31, { lit with vio := [] }, by decide +kernel, by decide +kernel⟩

theorem fits_MemoryWritesSetTheirOctets_1_sram : ∃ (ini : Initiator) (addr v : Word) (n : Nat) (s : State),
  s.wf = true ∧
  let a := addr.toNat
  n ≤ 4 ∧ ((0x10000000 ≤ a ∧ a + n ≤ 0x10200000) ∨ (0x18000000 ≤ a ∧ a + n ≤ 0x18002000)) ∧
  s.memRefused ini a n = false ∧ s.rangeStatus a n = .ready :=
  ⟨.c0, 0x101ffffc, 0x12345678, 4, lit, by decide +kernel, by decide +kernel, (by decide +kernel), by decide +kernel, by decide +kernel⟩

theorem fits_MemoryWritesSetTheirOctets_1_aon : ∃ (ini : Initiator) (addr v : Word) (n : Nat) (s : State),
  s.wf = true ∧
  let a := addr.toNat
  n ≤ 4 ∧ ((0x10000000 ≤ a ∧ a + n ≤ 0x10200000) ∨ (0x18000000 ≤ a ∧ a + n ≤ 0x18002000)) ∧
  s.memRefused ini a n = false ∧ s.rangeStatus a n = .ready :=
  ⟨.c0, 0x18001ffc, 0x12345678, 4, lit, by decide +kernel, by decide +kernel, (by decide +kernel), by decide +kernel, by decide +kernel⟩

theorem fits_OnlyTheOwnerAdvancesProd_1_owner : ∃ (ini : Initiator) (value : Word) (s : State),
  s.wf = true ∧ s.gate ini Pg.flm 0x108 true = .serve ∧
  let ring := s.chsel Pg.flm ini
  let ahead := (bits value 10 0 + 2 * s.wrSize ring - s.wrCons ring % (2 * s.wrSize ring)) % (2 * s.wrSize ring)
  ini.id = s.wrOwner ring ∧ ahead ≤ s.wrSize ring :=
  ⟨.c0, 16, ringed Pg.tim, by decide +kernel, by decide +kernel, by decide +kernel, by decide +kernel⟩

theorem fits_OnlyTheOwnerAdvancesProd_1_other : ∃ (ini : Initiator) (value : Word) (s : State),
  s.wf = true ∧ s.gate ini Pg.flm 0x108 true = .serve ∧
  let ring := s.chsel Pg.flm ini
  let ahead := (bits value 10 0 + 2 * s.wrSize ring - s.wrCons ring % (2 * s.wrSize ring)) % (2 * s.wrSize ring)
  ¬(ini.id = s.wrOwner ring ∧ ahead ≤ s.wrSize ring) :=
  ⟨.l1, 1, ringed Pg.tim, by decide +kernel, by decide +kernel, by decide +kernel⟩

theorem fits_OnlyTheOwnerAdvancesProd_1_far : ∃ (ini : Initiator) (value : Word) (s : State),
  s.wf = true ∧ s.gate ini Pg.flm 0x108 true = .serve ∧
  let ring := s.chsel Pg.flm ini
  let ahead := (bits value 10 0 + 2 * s.wrSize ring - s.wrCons ring % (2 * s.wrSize ring)) % (2 * s.wrSize ring)
  ¬(ini.id = s.wrOwner ring ∧ ahead ≤ s.wrSize ring) :=
  ⟨.c0, 17, ringed Pg.tim, by decide +kernel, by decide +kernel, by decide +kernel⟩

theorem fits_ShortTimesAreReadAgainstTim_1_ahead : ∃ (s : State) (ns secLo : Nat),
  secLo < 2 ^ 18 ∧ ns < 1000000000 ∧
  let d := (secLo + 2 ^ 18 - s.tim.sec % 2 ^ 18) % 2 ^ 18
  d < 2 ^ 17 :=
  ⟨{ lit with tim := { sec := 100 } }, 5, 131171, by decide +kernel, by decide +kernel, by decide +kernel⟩

theorem fits_ShortTimesAreReadAgainstTim_1_past : ∃ (s : State) (ns secLo : Nat),
  secLo < 2 ^ 18 ∧ ns < 1000000000 ∧
  let d := (secLo + 2 ^ 18 - s.tim.sec % 2 ^ 18) % 2 ^ 18
  2 ^ 17 ≤ d :=
  ⟨{ lit with tim := { sec := 100 } }, 5, 131172, by decide +kernel, by decide +kernel, by decide +kernel⟩

theorem fits_NopsAndUndefinedOpcodes_2_nop : ∃ (k : Nat) (s : State) (i : Item),
  s.wf = true ∧ s.item k = some i ∧ i.st = .fetched ∧ s.mayIssue i = true ∧ i.result = none ∧
  pagePresent s.variant i.unit = true ∧ s.ready (epochDomain i.unit) = true ∧ i.opcode = 0 ∧ i.timed = false ∧
  (i.epochChk = true → i.epoch = s.epochOf i) :=
  ⟨0, holding (fetchedItem 0), fetchedItem 0, by decide +kernel, by decide +kernel, by decide +kernel, by decide +kernel, by decide +kernel, by decide +kernel, by decide +kernel, by decide +kernel, by decide +kernel, by decide +kernel⟩

theorem fits_NopsAndUndefinedOpcodes_2_undefined : ∃ (k : Nat) (s : State) (i : Item),
  s.wf = true ∧ s.item k = some i ∧ i.st = .fetched ∧ s.mayIssue i = true ∧ i.result = none ∧
  pagePresent s.variant i.unit = true ∧ s.ready (epochDomain i.unit) = true ∧ opDefined i.unit i.opcode = false :=
  ⟨0, holding (fetchedItem 0xFF), fetchedItem 0xFF, by decide +kernel, by decide +kernel, by decide +kernel, by decide +kernel, by decide +kernel, by decide +kernel, by decide +kernel, by decide +kernel⟩

theorem fits_AccessesFollowTheDomain_1_header : ∃ (ini : Initiator) (page off : Nat) (v : Word) (s : State),
  page < 256 ∧ off < 0x1000 ∧ off % 4 = 0 ∧ pageListed page = true ∧ pagePresent s.variant page = true ∧
  (∀ w, permitted ini page off w = true) ∧ (ini = .debug → s.debugBus = true) ∧
  let idx := s.setIndex page ini off
  let d := s.domainOf page idx
  let a := word (pageAddr page off)
  isHeader off = true :=
  ⟨.c0, Pg.chz, 0x020, 5, State.reset, by decide +kernel, by decide +kernel, by decide +kernel, by decide +kernel, by decide +kernel, (by decide +kernel), (fun h => nomatch h), by decide +kernel⟩

theorem fits_AccessesFollowTheDomain_1_held : ∃ (ini : Initiator) (page off : Nat) (v : Word) (s : State),
  page < 256 ∧ off < 0x1000 ∧ off % 4 = 0 ∧ pageListed page = true ∧ pagePresent s.variant page = true ∧
  (∀ w, permitted ini page off w = true) ∧ (ini = .debug → s.debugBus = true) ∧
  let idx := s.setIndex page ini off
  let d := s.domainOf page idx
  let a := word (pageAddr page off)
  isHeader off = false ∧ domPresent s.variant d = true ∧ s.ready d = false ∧ s.domOn d = false ∧
  (s.dom d).phase = .none ∧ (s.dom d).st ≠ .on ∧ s.dreq d = 3 :=
  ⟨.c0, Pg.rfe, 0x800, 5, (lit.setDom Dm.rfe { st := .off }).setReg Pg.pwr Dm.rfe 0x100 0x30, by decide +kernel, by decide +kernel, by decide +kernel, by decide +kernel, by decide +kernel, (by decide +kernel), (fun h => nomatch h), by decide +kernel, by decide +kernel, by decide +kernel, by decide +kernel, by decide +kernel, by decide +kernel, by decide +kernel⟩

theorem fits_AccessesFollowTheDomain_1_waits : ∃ (ini : Initiator) (page off : Nat) (v : Word) (s : State),
  page < 256 ∧ off < 0x1000 ∧ off % 4 = 0 ∧ pageListed page = true ∧ pagePresent s.variant page = true ∧
  (∀ w, permitted ini page off w = true) ∧ (ini = .debug → s.debugBus = true) ∧
  let idx := s.setIndex page ini off
  let d := s.domainOf page idx
  let a := word (pageAddr page off)
  isHeader off = false ∧ domPresent s.variant d = true ∧ s.ready d = false ∧
  (s.domOn d = true ∨ (s.dom d).phase ≠ .none ∨ (s.dom d).st = .on ∨ s.dreq d ≠ 3) ∧ s.domOn d = false :=
  ⟨.c0, Pg.rfe, 0x800, 5, lit.setDom Dm.rfe { st := .off }, by decide +kernel, by decide +kernel, by decide +kernel, by decide +kernel, by decide +kernel, (by decide +kernel), (fun h => nomatch h), by decide +kernel, by decide +kernel, by decide +kernel, by decide +kernel, by decide +kernel⟩

theorem fits_ShiftsAndRotatesByCount_1_zero : ∃ (a sw : Word) (n : Nat),
  n < 64 ∧
  let c := fun (r : Alu) => bit (r.flags sw) Flag.c
  n = 0 :=
  ⟨5, 0, 0, by decide +kernel, by decide +kernel⟩

theorem fits_ShiftsAndRotatesByCount_1_one : ∃ (a sw : Word) (n : Nat),
  n < 64 ∧
  let c := fun (r : Alu) => bit (r.flags sw) Flag.c
  1 ≤ n ∧ n ≤ 31 :=
  ⟨5, 0, 1, by decide +kernel, by decide +kernel, by decide +kernel⟩

theorem fits_ShiftsAndRotatesByCount_1_most : ∃ (a sw : Word) (n : Nat),
  n < 64 ∧
  let c := fun (r : Alu) => bit (r.flags sw) Flag.c
  1 ≤ n ∧ n ≤ 31 :=
  ⟨5, 0, 31, by decide +kernel, by decide +kernel, by decide +kernel⟩

theorem fits_ShiftsAndRotatesByCount_1_word : ∃ (a sw : Word) (n : Nat),
  n < 64 ∧
  let c := fun (r : Alu) => bit (r.flags sw) Flag.c
  n = 32 ∧ 32 ≤ n :=
  ⟨5, 0, 32, by decide +kernel, by decide +kernel, by decide +kernel⟩

theorem fits_ShiftsAndRotatesByCount_1_above : ∃ (a sw : Word) (n : Nat),
  n < 64 ∧
  let c := fun (r : Alu) => bit (r.flags sw) Flag.c
  33 ≤ n ∧ 32 ≤ n :=
  ⟨5, 0, 33, by decide +kernel, by decide +kernel, by decide +kernel⟩

theorem fits_ShiftsAndRotatesByCount_1_top : ∃ (a sw : Word) (n : Nat),
  n < 64 ∧
  let c := fun (r : Alu) => bit (r.flags sw) Flag.c
  33 ≤ n ∧ 1 ≤ n :=
  ⟨5, 0, 63, by decide +kernel, by decide +kernel, by decide +kernel⟩

end Sys2Proof.Tests
end

/-! ## What every command and every step answers and leaves alone -/

namespace Sys2Proof.Machine

/-- Every command answers a state: none faults, and none is refused. -/
theorem exec_answers (c : Instr) (s : State) : ∃ t, exec c s = .next t := by
  cases c <;> exact ⟨_, rfl⟩

/-- Every command keeps to its footprint: each by the frame law of its own effect. -/
theorem exec_within_footprint (c : Instr) (s : State) : OutWithin (footprint c) s (exec c s) :=
  match c with
  | .registerWrite ini addr size data flips => execRegisterWrite_within ini addr size data flips s
  | .rcFieldRead ini addr size flips => execRcFieldRead_within ini addr size flips s
  | .stalledAccessServe ini flips => execStalledAccessServe_within ini flips s
  | .chselWrite ini page value => execChselWrite_within ini page value s
  | .blockEnable ini page en => execBlockEnable_within ini page en s
  | .softReset ini page air => execSoftReset_within ini page air s
  | .domainRequest ini page domain dreq => execDomainRequest_within ini page domain dreq s
  | .intClear ini page mask events => execIntClear_within ini page mask events s
  | .intSet ini page mask => execIntSet_within ini page mask s
  | .intEnWrite ini page value => execIntEnWrite_within ini page value s
  | .errClear ini page value => execErrClear_within ini page value s
  | .stagedWrite ini page off value => execStagedWrite_within ini page off value s
  | .cfgCommit ini page value => execCfgCommit_within ini page value s
  | .cfgDiscard ini page value => execCfgDiscard_within ini page value s
  | .commitSwitch page mismatches => execCommitSwitch_within page mismatches s
  | .pageLock ini page value => execPageLock_within ini page value s
  | .pageUnlock ini page value => execPageUnlock_within ini page value s
  | .wrProdWrite ini value => execWrProdWrite_within ini value s
  | .ringEnable ini value => execRingEnable_within ini value s
  | .ringAbort ini => execRingAbort_within ini s
  | .ringResume ini => execRingResume_within ini s
  | .trCfgWrite ini value => execTrCfgWrite_within ini value s
  | .trConsWrite ini value => execTrConsWrite_within ini value s
  | .descriptorFetch flips => execDescriptorFetch_within flips s
  | .itemIssue entry => execItemIssue_within entry s
  | .itemFinish entry => execItemFinish_within entry s
  | .itemRetire entry flips => execItemRetire_within entry flips s
  | .tailraceModTime ring => execTailraceModTime_within ring s
  | .reportPost index overflow => execReportPost_within index overflow s
  | .settlingDone channel => execSettlingDone_within channel s
  | .slotDetect rx snr next power => execSlotDetect_within rx snr next power s
  | .sfdFound rx seen hz back power => execSfdFound_within rx seen hz back power s
  | .sfdTimeout rx => execSfdTimeout_within rx s
  | .phrDecode rx phr snr10 corr => execPhrDecode_within rx phr snr10 corr s
  | .frameEnd rx octets snr10 corr flips => execFrameEnd_within rx octets snr10 corr flips s
  | .hopperChunkCopy rx octets flips => execHopperChunkCopy_within rx octets flips s
  | .hrConsWrite ini ring value => execHrConsWrite_within ini ring value s
  | .hopperRingEnable ini ring value => execHopperRingEnable_within ini ring value s
  | .nfWindowEnd channel idle power => execNfWindowEnd_within channel idle power s
  | .nfSnapshot => execNfSnapshot_within s
  | .agcStep up => execAgcStep_within up s
  | .adcClip => execAdcClip_within s
  | .gapStart air flips => execGapStart_within air flips s
  | .gapEnd => execGapEnd_within s
  | .gapGrant waited => execGapGrant_within waited s
  | .txBlankStart air flips => execTxBlankStart_within air flips s
  | .txBlankEnd => execTxBlankEnd_within s
  | .antselWrite ini value => execAntselWrite_within ini value s
  | .antSwitch => execAntSwitch_within s
  | .antMeasureSwitch corr => execAntMeasureSwitch_within corr s
  | .antMeasureChoose corr => execAntMeasureChoose_within corr s
  | .iqseedWrite ini value => execIqseedWrite_within ini value s
  | .iqConverge phase gain => execIqConverge_within phase gain s
  | .nbStop ini => execNbStop_within ini s
  | .nbCycle ini => execNbCycle_within ini s
  | .nbRunLnk ini => execNbRunLnk_within ini s
  | .nbDwellEnd => execNbDwellEnd_within s
  | .nbRetuneDone => execNbRetuneDone_within s
  | .tuneRequest key => execTuneRequest_within key s
  | .loopLock tx => execLoopLock_within tx s
  | .lockTimeout tx air => execLockTimeout_within tx air s
  | .rxLockLost => execRxLockLost_within s
  | .tempUpdate die => execTempUpdate_within die s
  | .vtEdge outside => execVtEdge_within outside s
  | .driftAnchorSweep => execDriftAnchorSweep_within s
  | .synCal entry => execSynCal_within entry s
  | .storeTEntry locked => execStoreTEntry_within locked s
  | .anchorTStep => execAnchorTStep_within s
  | .storeSave entry flips => execStoreSave_within entry flips s
  | .storeLoad entry flips => execStoreLoad_within entry flips s
  | .rampBegin => execRampBegin_within s
  | .rampBeginPassed entry => execRampBeginPassed_within entry s
  | .femLead => execFemLead_within s
  | .femLag => execFemLag_within s
  | .rampUpDone => execRampUpDone_within s
  | .lastSymbolOut => execLastSymbolOut_within s
  | .rampDownDone => execRampDownDone_within s
  | .txLockLost => execTxLockLost_within s
  | .holdExpire => execHoldExpire_within s
  | .wrxPeriodStart => execWrxPeriodStart_within s
  | .wrxEnergyDetect power => execWrxEnergyDetect_within power s
  | .wrxOnEnd power => execWrxOnEnd_within power s
  | .wrxCodeMatch code => execWrxCodeMatch_within code s
  | .wrxHuntTimeout => execWrxHuntTimeout_within s
  | .lnkTx entry flips => execLnkTx_within entry flips s
  | .lnkRxwin entry => execLnkRxwin_within entry s
  | .rxwinWindowEnd entry => execRxwinWindowEnd_within entry s
  | .lnkWakecode entry => execLnkWakecode_within entry s
  | .lbtListenStart entry => execLbtListenStart_within entry s
  | .lbtListenEnd entry powers draw => execLbtListenEnd_within entry powers draw s
  | .backoffExpire entry => execBackoffExpire_within entry s
  | .ackReceive flips => execAckReceive_within flips s
  | .ackWaitEnd entry draw => execAckWaitEnd_within entry draw s
  | .ackInstant => execAckInstant_within s
  | .dwellWindowFree entry => execDwellWindowFree_within entry s
  | .lnkRxSecurity flips => execLnkRxSecurity_within flips s
  | .sampleStart => execSampleStart_within s
  | .dataWindowOpen => execDataWindowOpen_within s
  | .dataWindowEnd => execDataWindowEnd_within s
  | .fpListenEnd => execFpListenEnd_within s
  | .nbStateRead ini => execNbStateRead_within ini s
  | .unanchor ini => execUnanchor_within ini s
  | .pendSet ini => execPendSet_within ini s
  | .pendClr ini => execPendClr_within ini s
  | .beaconWindowOpen => execBeaconWindowOpen_within s
  | .beaconWindowClose => execBeaconWindowClose_within s
  | .searchPassEnd => execSearchPassEnd_within s
  | .lnkEventPost => execLnkEventPost_within s
  | .keyEraseEffect slot => execKeyEraseEffect_within slot s
  | .timNsRead ini => execTimNsRead_within ini s
  | .timSet => execTimSet_within s
  | .timStep => execTimStep_within s
  | .timSlew => execTimSlew_within s
  | .slewDone => execSlewDone_within s
  | .timSecond => execTimSecond_within s
  | .cmpFire comparator => execCmpFire_within comparator s
  | .ppsOutPulse => execPpsOutPulse_within s
  | .ppsOutPulseEnd => execPpsOutPulseEnd_within s
  | .ppsInCapture rising => execPpsInCapture_within rising s
  | .beaconSync => execBeaconSync_within s
  | .tickperWindowEnd => execTickperWindowEnd_within s
  | .timWakeLoad => execTimWakeLoad_within s
  | .ethTx entry back flips => execEthTx_within entry back flips s
  | .ethFrameReceive octets back flips => execEthFrameReceive_within octets back flips s
  | .ethRxconsWrite ini value => execEthRxconsWrite_within ini value s
  | .mdioTransfer ini value => execMdioTransfer_within ini value s
  | .mdioDone data => execMdioDone_within data s
  | .ethLinkChange up speed => execEthLinkChange_within up speed s
  | .ethMagicPacket => execEthMagicPacket_within s
  | .coreRun ini core => execCoreRun_within ini core s
  | .coreHalt ini core => execCoreHalt_within ini core s
  | .interruptEntry core => execInterruptEntry_within core s
  | .wfiWake core => execWfiWake_within core s
  | .pairedWord core word via => execPairedWord_within core word via s
  | .nop core form => execNop_within core form s
  | .mov core form => execMov_within core form s
  | .add core form => execAdd_within core form s
  | .sub core form => execSub_within core form s
  | .and core form => execAnd_within core form s
  | .or core form => execOr_within core form s
  | .xor core form => execXor_within core form s
  | .cmp core form => execCmp_within core form s
  | .neg core form => execNeg_within core form s
  | .not core form => execNot_within core form s
  | .adc core form => execAdc_within core form s
  | .sbc core form => execSbc_within core form s
  | .tst core form => execTst_within core form s
  | .movi core form => execMovi_within core form s
  | .addi core form => execAddi_within core form s
  | .shli core form => execShli_within core form s
  | .shri core form => execShri_within core form s
  | .sari core form => execSari_within core form s
  | .movsb core form => execMovsb_within core form s
  | .movsh core form => execMovsh_within core form s
  | .movzb core form => execMovzb_within core form s
  | .movzh core form => execMovzh_within core form s
  | .mul core form => execMul_within core form s
  | .mulhs core form => execMulhs_within core form s
  | .mulhu core form => execMulhu_within core form s
  | .divs core form => execDivs_within core form s
  | .divu core form => execDivu_within core form s
  | .rems core form => execRems_within core form s
  | .remu core form => execRemu_within core form s
  | .shl core form => execShl_within core form s
  | .shr core form => execShr_within core form s
  | .sar core form => execSar_within core form s
  | .rol core form => execRol_within core form s
  | .ror core form => execRor_within core form s
  | .clz core form => execClz_within core form s
  | .brev core form => execBrev_within core form s
  | .bswap core form => execBswap_within core form s
  | .mac core form => execMac_within core form s
  | .msu core form => execMsu_within core form s
  | .macdR core form => execMacdR_within core form s
  | .macdC core form => execMacdC_within core form s
  | .macdCj core form => execMacdCj_within core form s
  | .clra core form => execClra_within core form s
  | .sac core form => execSac_within core form s
  | .lac core form => execLac_within core form s
  | .acc0Clear core form => execAcc0Clear_within core form s
  | .acc1Clear core form => execAcc1Clear_within core form s
  | .accAdd core form => execAccAdd_within core form s
  | .accSub core form => execAccSub_within core form s
  | .accSwap core form => execAccSwap_within core form s
  | .accNegate core form => execAccNegate_within core form s
  | .mfs core form => execMfs_within core form s
  | .mts core form => execMts_within core form s
  | .xchg core form => execXchg_within core form s
  | .casOp core form => execCasOp_within core form s
  | .j core form => execJ_within core form s
  | .bcc core form => execBcc_within core form s
  | .bra core form => execBra_within core form s
  | .beq core form => execBeq_within core form s
  | .bne core form => execBne_within core form s
  | .call core form => execCall_within core form s
  | .ret core form => execRet_within core form s
  | .callm core form => execCallm_within core form s
  | .retm core form => execRetm_within core form s
  | .reti core form => execReti_within core form s
  | .trap core form => execTrap_within core form s
  | .loop core form => execLoop_within core form s
  | .brkl core form => execBrkl_within core form s
  | .wfi core form => execWfi_within core form s
  | .sync core form => execSync_within core form s
  | .icinv core form => execIcinv_within core form s
  | .bkpt core held form => execBkpt_within core held form s
  | .di core form => execDi_within core form s
  | .ei core form => execEi_within core form s
  | .emul core form => execEmul_within core form s
  | .xor128 core form => execXor128_within core form s
  | .gfmul core form => execGfmul_within core form s
  | .ctrinc core form => execCtrinc_within core form s
  | .rev128 core form => execRev128_within core form s
  | .xcorr core form => execXcorr_within core form s
  | .energy core form => execEnergy_within core form s
  | .peak core form => execPeak_within core form s
  | .crc16 core form => execCrc16_within core form s
  | .crc32 core form => execCrc32_within core form s
  | .pn9 core form => execPn9_within core form s
  | .conv core form => execConv_within core form s
  | .drkReconstructDone ok => execDrkReconstructDone_within ok s
  | .secHash entry flips => execSecHash_within entry flips s
  | .secVerify entry flips => execSecVerify_within entry flips s
  | .secSign entry flips => execSecSign_within entry flips s
  | .secRandom entry flips => execSecRandom_within entry flips s
  | .secAttest entry flips => execSecAttest_within entry flips s
  | .secExtend entry flips => execSecExtend_within entry flips s
  | .secPubkey entry flips => execSecPubkey_within entry flips s
  | .secEnroll entry writes flips => execSecEnroll_within entry writes flips s
  | .ownerAdd entry flips => execOwnerAdd_within entry flips s
  | .ownerRevoke entry flips => execOwnerRevoke_within entry flips s
  | .ownerRetire entry flips => execOwnerRetire_within entry flips s
  | .rngHealthFail => execRngHealthFail_within s
  | .debugTokenWrite octets => execDebugTokenWrite_within octets s
  | .debugTokenVerdict => execDebugTokenVerdict_within s
  | .pageClaim ini => execPageClaim_within ini s
  | .pageRelease ini => execPageRelease_within ini s
  | .pageScrubDone page => execPageScrubDone_within page s
  | .palEncrypt entry flips => execPalEncrypt_within entry flips s
  | .palDecrypt entry flips => execPalDecrypt_within entry flips s
  | .palMacGen entry flips => execPalMacGen_within entry flips s
  | .palMacCheck entry flips => execPalMacCheck_within entry flips s
  | .keyLoad entry flips => execKeyLoad_within entry flips s
  | .keyUnwrap entry flips => execKeyUnwrap_within entry flips s
  | .keyWrap entry flips => execKeyWrap_within entry flips s
  | .keyDerive entry flips => execKeyDerive_within entry flips s
  | .keyGen entry flips => execKeyGen_within entry flips s
  | .keyErase entry flips => execKeyErase_within entry flips s
  | .engineDispatch flips => execEngineDispatch_within flips s
  | .messageSuspend lnk octets => execMessageSuspend_within lnk octets s
  | .primerBoot cut bad readable lost => execPrimerBoot_within cut bad readable lost s
  | .updOpen entry flips => execUpdOpen_within entry flips s
  | .updChunk entry flips => execUpdChunk_within entry flips s
  | .updArm entry flips => execUpdArm_within entry flips s
  | .channelTrain ini value => execChannelTrain_within ini value s
  | .trainingDone channel failed results => execTrainingDone_within channel failed results s
  | .drcRefresh rank postpone => execDrcRefresh_within rank postpone s
  | .parityAlert channel reissued items => execParityAlert_within channel reissued items s
  | .parityReplayDone channel rejected => execParityReplayDone_within channel rejected s
  | .alertStuck channel => execAlertStuck_within channel s
  | .eccWindowEnd => execEccWindowEnd_within s
  | .migrationStart ini value => execMigrationStart_within ini value s
  | .migrationStop ini value => execMigrationStop_within ini value s
  | .migrationSlotCopy flips => execMigrationSlotCopy_within flips s
  | .migrationDone => execMigrationDone_within s
  | .drcCopy entry flips => execDrcCopy_within entry flips s
  | .drcFill entry flips => execDrcFill_within entry flips s
  | .drcScrub entry flips => execDrcScrub_within entry flips s
  | .flcProgram entry flips => execFlcProgram_within entry flips s
  | .flcErase entry => execFlcErase_within entry s
  | .flcVerify entry flips => execFlcVerify_within entry flips s
  | .flcCounters entry => execFlcCounters_within entry s
  | .flcProtect entry salt => execFlcProtect_within entry salt s
  | .erasePulse blank => execErasePulse_within blank s
  | .programWord verified => execProgramWord_within verified s
  | .flashUnlock ini => execFlashUnlock_within ini s
  | .flashRelock ini => execFlashRelock_within ini s
  | .eraseResume blank => execEraseResume_within blank s
  | .nandRead entry ecc => execNandRead_within entry ecc s
  | .nandProgram entry choice flips => execNandProgram_within entry choice flips s
  | .nandErase entry => execNandErase_within entry s
  | .nandFlush entry => execNandFlush_within entry s
  | .nandMount entry failing newer => execNandMount_within entry failing newer s
  | .nandFormat entry failing factory bad => execNandFormat_within entry failing factory bad s
  | .wbHoldExpire target choice => execWbHoldExpire_within target choice s
  | .nandOpDone target failed choice => execNandOpDone_within target failed choice s
  | .nandRelocation target block choice lost => execNandRelocation_within target block choice lost s
  | .staticWearMove choice => execStaticWearMove_within choice s
  | .patrolStep ecc => execPatrolStep_within ecc s
  | .tagInventory entry foreign answers flips => execTagInventory_within entry foreign answers flips s
  | .tagSelect entry foreign answers flips => execTagSelect_within entry foreign answers flips s
  | .tagPassword entry foreign answers flips => execTagPassword_within entry foreign answers flips s
  | .tagAuthenticate entry foreign first second => execTagAuthenticate_within entry foreign first second s
  | .tagRead entry foreign answers => execTagRead_within entry foreign answers s
  | .tagWrite entry foreign answers flips => execTagWrite_within entry foreign answers flips s
  | .tagVerifyOrigin entry foreign answers flips => execTagVerifyOrigin_within entry foreign answers flips s
  | .tagHalt entry foreign => execTagHalt_within entry foreign s
  | .tagTset entry how flips => execTagTset_within entry how flips s
  | .tagSread entry decayed => execTagSread_within entry decayed s
  | .tagSwrite entry how flips => execTagSwrite_within entry how flips s
  | .fieldHoldExpire => execFieldHoldExpire_within s
  | .fieldDetect vbatOk decayed => execFieldDetect_within vbatOk decayed s
  | .fieldLost => execFieldLost_within s
  | .lockoutEnd => execLockoutEnd_within s
  | .cmdInventory n pre => execCmdInventory_within n pre s
  | .cmdSelect id => execCmdSelect_within id s
  | .cmdPwd password => execCmdPwd_within password s
  | .cmdAuth1 ra => execCmdAuth1_within ra s
  | .cmdAuth2 tr => execCmdAuth2_within tr s
  | .cmdRead record offset length decayed => execCmdRead_within record offset length decayed s
  | .cmdWrite record data how => execCmdWrite_within record data how s
  | .cmdHalt => execCmdHalt_within s
  | .tagReply => execTagReply_within s
  | .dirtyReport => execDirtyReport_within s
  | .idleTimerExpire domain => execIdleTimerExpire_within domain s
  | .domainIdleCommit domain air => execDomainIdleCommit_within domain air s
  | .domainSave domain => execDomainSave_within domain s
  | .domainSwitch domain => execDomainSwitch_within domain s
  | .domainEntryDone domain => execDomainEntryDone_within domain s
  | .domainWake domain => execDomainWake_within domain s
  | .domainOn domain => execDomainOn_within domain s
  | .wakeSource source => execWakeSource_within source s
  | .xtalFail => execXtalFail_within s
  | .xtalRetry ini good => execXtalRetry_within ini good s
  | .refCheck good => execRefCheck_within good s
  | .refFail => execRefFail_within s
  | .pllLock pll => execPllLock_within pll s
  | .vcoreChange ini low => execVcoreChange_within ini low s
  | .vcoreDone => execVcoreDone_within s
  | .softwarePartReset ini value air => execSoftwarePartReset_within ini value air s
  | .resetN master testmode air => execResetN_within master testmode air s
  | .watchdogExpire air => execWatchdogExpire_within air s
  | .deferredResetApply air => execDeferredResetApply_within air s
  | .powerOn lost master testmode vio => execPowerOn_within lost master testmode vio s
  | .brownOut => execBrownOut_within s
  | .rtcTick => execRtcTick_within s
  | .rtcRead ini off => execRtcRead_within ini off s
  | .goTime ini value => execGoTime_within ini value s
  | .goDate ini value => execGoDate_within ini value s
  | .goWday ini value => execGoWday_within ini value s
  | .rtcLoad => execRtcLoad_within s
  | .zcEdge since => execZcEdge_within since s
  | .zcWindowEnd => execZcWindowEnd_within s
  | .zcGap => execZcGap_within s
  | .mrcCaptureWindow => execMrcCaptureWindow_within s
  | .deferredTrigger input => execDeferredTrigger_within input s
  | .latchedTriggerAct input => execLatchedTriggerAct_within input s
  | .swPulse ini value => execSwPulse_within ini value s
  | .swLevel ini value => execSwLevel_within ini value s
  | .stampRead ini stamp => execStampRead_within ini stamp s
  | .cntWrite ini counter value => execCntWrite_within ini counter value s
  | .gpioEdge pin level => execGpioEdge_within pin level s
  | .gpioRelease ini => execGpioRelease_within ini s
  | .linkTrainStart down => execLinkTrainStart_within down s
  | .linkUp down => execLinkUp_within down s
  | .linkTrainTimeout down => execLinkTrainTimeout_within down s
  | .cellCrcFail down => execCellCrcFail_within down s
  | .linkDown down => execLinkDown_within down s
  | .casTimingExchange down sec ns rtt addend => execCasTimingExchange_within down sec ns rtt addend s
  | .enumeration found position => execEnumeration_within found position s
  | .casAccept ini position => execCasAccept_within ini position s
  | .casDrop ini position => execCasDrop_within ini position s
  | .forwardEntry flips => execForwardEntry_within flips s
  | .forwardReceive origin unlocked entry psdu flips => execForwardReceive_within origin unlocked entry psdu flips s
  | .casRxconsWrite ini value => execCasRxconsWrite_within ini value s
  | .casRcopy entry words refused flips => execCasRcopy_within entry words refused flips s
  | .casBroadcast entry refused flips => execCasBroadcast_within entry refused flips s
  | .casBarrier entry => execCasBarrier_within entry s
  | .casSnapshot entry => execCasSnapshot_within entry s
  | .snapshotCapture sec ns => execSnapshotCapture_within sec ns s
  | .casReset entry air => execCasReset_within entry air s
  | .casRegister entry report flips => execCasRegister_within entry report flips s
  | .casEnumerate entry found => execCasEnumerate_within entry found s
  | .hostFrame octets flips => execHostFrame_within octets flips s
  | .hostCsRise => execHostCsRise_within s
  | .serialTx entry lost nack flips => execSerialTx_within entry lost nack flips s
  | .serialRx entry octets lost nack => execSerialRx_within entry octets lost nack s
  | .serialXfer entry octets flips => execSerialXfer_within entry octets flips s
  | .dliSend entry collided back => execDliSend_within entry collided back s
  | .dliArm entry collided back => execDliArm_within entry collided back s
  | .uartRxOctet uart octet err => execUartRxOctet_within uart octet err s
  | .uartReport uart => execUartReport_within uart s
  | .daliMonitorFrame dli frame len => execDaliMonitorFrame_within dli frame len s
  | .i2cHoldTimeout i2c => execI2cHoldTimeout_within i2c s
  | .pwmWrap pwm => execPwmWrap_within pwm s
  | .launchTimeReached entry flips => execLaunchTimeReached_within entry flips s
  | .nbAgeMinute => execNbAgeMinute_within s

theorem step_of_pending_nil {s : State} (h : s.pending = []) : step s = .next s.idleCycle := by
  unfold step
  rw [h]

theorem step_of_pending_cons {s : State} {c : Instr} {rest : List Instr} (h : s.pending = c :: rest) :
    step s = exec c { s with pending := rest } := by
  unfold step
  rw [h]

/-- Settles O4: an idle cycle leaves the empty queue and the fuses, and a command leaves both as it finds them, which is the
state with the queue's rest. -/
theorem stepTakesOneCommand : Obligations.StepTakesOneCommand := by
  unfold Obligations.StepTakesOneCommand
  intro s
  cases hq : s.pending with
  | nil =>
    have hw := State.fabricRun_within s 1
    exact ⟨s.idleCycle, step_of_pending_nil hq, hw.pending.trans hq, hw.variant⟩
  | cons c rest =>
    obtain ⟨t, ht⟩ := exec_answers c { s with pending := rest }
    have hw := exec_within_footprint c _ t ht
    exact ⟨t, (step_of_pending_cons hq).trans ht, hw.pending, hw.variant⟩

end Sys2Proof.Machine

/-! ## Accesses of the fabric: a register that its page serves, octets of memory that answers, and an access that waited -/

namespace Sys2Proof.Machine

/-! ### An access is made and answered -/

theorem exec_registerWrite (ini : Initiator) (addr v : Word) (n : Nat) (flips : List Flip) (s : State) :
    exec (.registerWrite ini addr n v flips) s =
      .next (State.deliver ⟨ini, true, addr, n, v⟩ ((s.applyFlips flips).busWrite ini addr.toNat n v)) := rfl

theorem exec_rcFieldRead (ini : Initiator) (addr : Word) (n : Nat) (flips : List Flip) (s : State) :
    exec (.rcFieldRead ini addr n flips) s =
      .next (State.deliver ⟨ini, false, addr, n, 0⟩ ((s.applyFlips flips).busRead ini addr.toNat n)) := rfl

@[simp] theorem State.deliver_ok (a : Access) (t : State) (v : Word) :
    State.deliver a (t, .ok v) = t.setReply a.ini v false := rfl

@[simp] theorem State.applyFlips_nil (s : State) : s.applyFlips [] = s := rfl

/-! ### Registers -/

/-- The write command of a register that its page serves: the write takes effect, and its reply is no error. -/
theorem exec_registerWrite_served {ini : Initiator} {page off : Nat} {s : State} (v : Word) (hp : page < 256)
    (ho : off < 0x1000) (h4 : off % 4 = 0) (hg : s.gate ini page off true = .serve) :
    exec (.registerWrite ini (word (pageAddr page off)) 4 v []) s =
      .next (((s.accessed ini page off).regWrite ini page off v).setReply ini 0 false) := by
  rw [exec_registerWrite, State.applyFlips_nil, pageAddr_toNat hp ho,
    busWrite_page _ _ _ _ (pageAddr_is hp ho) (pageAddr_al h4), pageAddr_page ho, pageAddr_off ho,
    pageAccess_served _ _ _ _ _ _ hg, State.deliver_ok]

/-- The read command of a register that its page serves: what the read gives is the reply. -/
theorem exec_rcFieldRead_served {ini : Initiator} {page off : Nat} {s : State} (hp : page < 256)
    (ho : off < 0x1000) (h4 : off % 4 = 0) (hg : s.gate ini page off false = .serve) :
    exec (.rcFieldRead ini (word (pageAddr page off)) 4 []) s =
      .next (((s.accessed ini page off).regRead ini page off).2.setReply ini
        ((s.accessed ini page off).regRead ini page off).1 false) := by
  rw [exec_rcFieldRead, State.applyFlips_nil, pageAddr_toNat hp ho,
    busRead_page _ _ _ (pageAddr_is hp ho) (pageAddr_al h4), pageAddr_page ho, pageAddr_off ho,
    pageAccess_served _ _ _ _ _ _ hg, State.deliver_ok]

/-- A register with read-to-clear fields and without an effect of its own gives its value and clears them (R7). -/
theorem regRead_clears {s : State} {ini : Initiator} {page off : Nat} {d : RegDef} (hh : isHeader off = false)
    (hd : regDef page off = some d) (hn : s.noSet page (s.setIndex page ini off) off = false)
    (hb : s.blockRead ini page (s.setIndex page ini off) off = none) (hrc : d.rc ≠ 0) :
    s.regRead ini page off =
      (s.reg page (s.setIndex page ini off) off, s.setReg page (s.setIndex page ini off) off
        (s.reg page (s.setIndex page ini off) off &&& ~~~(word d.rc))) := by
  unfold State.regRead
  simp only [hh, hn, hb, hd, hrc, Option.getD_none, Option.isSome_some, Bool.false_eq_true, if_false, if_true]

/-! ### Memory -/

theorem unitWrite_ready {s : State} {a : Nat} {bs : List Byte} (h : s.rangeStatus a bs.length = .ready) :
    s.unitWrite a bs = ((s.putOctets a bs).1, .ok () (s.putOctets a bs).2) := by
  unfold State.unitWrite
  rw [h]

/-- A range of memory that answers takes an initiator's octets as it takes a unit's: none of its banks is held OFF. -/
theorem iniWrite_ready {s : State} {a : Nat} {bs : List Byte} (ini : Initiator) (h : s.rangeStatus a bs.length = .ready) :
    s.iniWrite ini a bs = ((s.putOctets a bs).1, .ok () (s.putOctets a bs).2) := by
  have hheld : s.sramHeld a bs.length = none := by
    unfold State.sramHeld
    rw [h]
  unfold State.iniWrite
  rw [hheld]
  exact unitWrite_ready h

/-- A write of memory that answers, and that is no page, no window, no ROM and no flash, sets its octets. -/
theorem busWrite_memory {s : State} {ini : Initiator} {a n : Nat} {v : Word} (hpage : isPageAddr a = false)
    (hpal : isPalAddr a = false) (hm : s.memRefused ini a n = false) (hrom : regionOf a ≠ .rom) (hfl : regionOf a ≠ .flash)
    (hr : s.rangeStatus a ((bytesOfWord v).take n).length = .ready) :
    s.busWrite ini a n v = ((s.putOctets a ((bytesOfWord v).take n)).1, .ok 0) := by
  unfold State.busWrite
  simp only [hpage, hpal, hm, hrom, hfl, or_self, Bool.false_eq_true, if_false]
  rw [iniWrite_ready ini hr]

/-! ### An access that waited -/

/-- The first access of an initiator that waits, once the fabric serves it, waits no more and is answered. -/
theorem exec_stalledAccessServe_ok {ini : Initiator} {flips : List Flip} {s t : State} {a : Access} {v : Word}
    (hf : (s.applyFlips flips).stalls.find? (fun x => x.ini == ini) = some a)
    (hb : (s.applyFlips flips).busAccess a = (t, .ok v)) :
    exec (.stalledAccessServe ini flips) s =
      .next ({ t with stalls := dropFirst (fun x => x.ini == ini) t.stalls }.setReply a.ini v false) := by
  change execStalledAccessServe ini flips s = _
  unfold execStalledAccessServe
  simp only [hf, hb, State.deliver_ok]

/-- Settles O9: each clause is the law of its access, given the register's or the memory's own rule. -/
theorem fabricAccessesComplete : Obligations.FabricAccessesComplete := by
  unfold Obligations.FabricAccessesComplete
  refine ⟨?registerWritten, ?memoryWritten, ?registerRead, ?accessServed⟩
  case registerWritten =>
    intro ini page off v s d hp ho h4 hh hg hd hst u idx hn hb hl hr
    rw [exec_registerWrite_served v hp ho h4 hg, regWrite_plain _ _ _ _ _ d hh hd hst hn hb hl hr]
  case memoryWritten =>
    intro ini addr v n flips s u a _ hpage hpal hm hrom hfl hr
    rw [exec_registerWrite, busWrite_memory hpage hpal hm hrom hfl hr, State.deliver_ok]
  case registerRead =>
    intro ini page off s d hp ho h4 hh hg hd u idx hn hb hrc
    rw [exec_rcFieldRead_served hp ho h4 hg, regRead_clears hh hd hn hb hrc]
  case accessServed =>
    intro ini flips s t a v u hf hb
    exact exec_stalledAccessServe_ok hf hb

end Sys2Proof.Machine

/-! ## The architecture: who may move a ring's indices, and how a short time is read -/

namespace Sys2Proof.Machine

/-- Settles O3: no arm of `exec` faults or refuses. -/
theorem everyCommandAnswers : Obligations.EveryCommandAnswers := exec_answers

/-! ### Short times (R22) -/

theorem rebuildSec_ahead {lo rx : Nat} (h : (lo + 2 ^ 18 - rx % 2 ^ 18) % 2 ^ 18 < 2 ^ 17) :
    rebuildSec lo rx = ((rx + (lo + 2 ^ 18 - rx % 2 ^ 18) % 2 ^ 18 : Nat) : Int) := by
  unfold rebuildSec
  dsimp only
  rw [if_pos h, Int.natCast_add]

theorem pastShort_of_far {s : State} {ns lo : Nat} (h : 2 ^ 17 ≤ (lo + 2 ^ 18 - s.tim.sec % 2 ^ 18) % 2 ^ 18) :
    s.pastShort ns lo = true := by
  have hd : 2 ^ 17 ≤ subMod (2 ^ 18) lo (s.tim.sec % 2 ^ 18) := by
    unfold subMod
    rwa [Nat.mod_mod]
  unfold State.pastShort
  dsimp only
  rw [decide_eq_true hd, Bool.true_or]

/-- Settles O47: the two sides of the bound are those at which `rebuildSec` and `pastShort` part. -/
theorem shortTimesAreReadAgainstTim : Obligations.ShortTimesAreReadAgainstTim := by
  unfold Obligations.ShortTimesAreReadAgainstTim
  intro s ns secLo _ _ d
  refine ⟨fun ahead => ?_, pastShort_of_far⟩
  unfold State.launchNs
  rw [rebuildSec_ahead ahead, Int.natCast_add (_ * _), Int.natCast_mul]
  rfl

/-! ### Error records and unserved accesses leave the other registers (R39, R54) -/

/-- A record of an error is in ERR_CODE, ERR_INFO and INT_RAW of its page: it leaves every other register of every page. -/
theorem State.raise_reg {page i o : Nat} (h10 : o % 0x1000 ≠ 0x10) (h20 : o % 0x1000 ≠ 0x20) (h24 : o % 0x1000 ≠ 0x24)
    (s : State) (p : Nat) (ini : Initiator) (off detail code : Nat) :
    (s.raise p ini off detail code).reg page i o = s.reg page i o := by
  by_cases hp : page = p
  · subst hp
    exact raise_ne s page ini off detail code i o h10 h20 h24
  · exact (State.raise_within s p ini off detail code).regs rfl page i o (by simpa using hp)

theorem State.busError_reg {page i o : Nat} (h10 : o % 0x1000 ≠ 0x10) (h20 : o % 0x1000 ≠ 0x20) (h24 : o % 0x1000 ≠ 0x24)
    (s : State) (ini : Initiator) (a : Nat) : (s.busError ini a).reg page i o = s.reg page i o := by
  cases ini
  case sec => exact State.raise_reg h10 h20 h24 _ _ _ _ _ _
  all_goals rfl

theorem State.wake_reg (s : State) (d page i o : Nat) : (s.wake d).reg page i o = s.reg page i o :=
  (State.wake_within s d).regs rfl page i o (by simp)

/-- A write by a page's gate, served or not, leaves a register that its effect leaves and that is no error record. -/
theorem State.pageWrite_reg {page i o : Nat} (h10 : o % 0x1000 ≠ 0x10) (h20 : o % 0x1000 ≠ 0x20) (h24 : o % 0x1000 ≠ 0x24)
    (s : State) (ini : Initiator) (p off : Nat) (v : Word) {eff : State → State}
    (heff : ∀ u, (eff u).reg page i o = u.reg page i o) : (s.pageWrite ini p off v eff).reg page i o = s.reg page i o := by
  cases hg : s.gate ini p off true with
  | serve =>
    rw [pageWrite_served _ _ _ _ _ _ hg]
    exact (heff _).trans (State.accessed_reg ..)
  | absent =>
    unfold State.pageWrite State.pageAccess
    rw [hg]
    rfl
  | refused =>
    unfold State.pageWrite State.pageAccess
    rw [hg]
    exact State.busError_reg h10 h20 h24 _ _ _
  | held =>
    unfold State.pageWrite State.pageAccess
    rw [hg]
    exact State.raise_reg h10 h20 h24 _ _ _ _ _ _
  | stall d =>
    unfold State.pageWrite State.pageAccess
    rw [hg]
    exact (State.wake_reg _ _ _ _ _).trans (State.wake_reg _ _ _ _ _)

/-! ### CHSEL (R57) -/

theorem Initiator_id_mod_ne {a b : Initiator} (h : a.id ≠ b.id) : a.id % 0x100000 ≠ b.id % 0x100000 := by
  have ha := Initiator_id_lt a
  have hb := Initiator_id_lt b
  omega

/-- Each initiator has a bank of its own. -/
theorem State.chselWrite_bank {ini other : Initiator} (h : other.id ≠ ini.id) (page : Nat) (v : Word) (p : Nat) (u : State) :
    (u.chselWrite ini page v).reg p other.id 0x80 = u.reg p other.id 0x80 := by
  unfold State.chselWrite
  dsimp only
  split
  · exact State.raise_reg (by decide) (by decide) (by decide) _ _ _ _ _ _
  · exact State.reg_setReg_ne _ _ (fun hk => Initiator_id_mod_ne h hk.2.1)

/-! ### PROD of a work ring (R14) -/

theorem State.wrProdWrite_owner {u : State} {ini : Initiator} {v : Word} (ho : u.wrOwner (u.chsel Pg.flm ini) = ini.id)
    (hs : subMod (2 * u.wrSize (u.chsel Pg.flm ini)) (bits v 10 0) (u.wrCons (u.chsel Pg.flm ini)) ≤ u.wrSize (u.chsel Pg.flm ini)) :
    u.wrProdWrite ini v = u.setReg Pg.flm (u.chsel Pg.flm ini) Fl.wrProd (word (bits v 10 0)) := by
  unfold State.wrProdWrite
  dsimp only
  rw [if_neg (not_not_intro ho), if_neg (Nat.not_lt.mpr hs)]

/-- A write from another initiator, or beyond SIZE, only records its error, with the ring as DETAIL. -/
theorem State.wrProdWrite_ignored {u : State} {ini : Initiator} {v : Word}
    (h : ¬(ini.id = u.wrOwner (u.chsel Pg.flm ini) ∧
      subMod (2 * u.wrSize (u.chsel Pg.flm ini)) (bits v 10 0) (u.wrCons (u.chsel Pg.flm ini)) ≤ u.wrSize (u.chsel Pg.flm ini))) :
    ∃ code, u.wrProdWrite ini v = u.raise Pg.flm ini Fl.wrProd (u.chsel Pg.flm ini) code := by
  unfold State.wrProdWrite
  dsimp only
  by_cases ho : u.wrOwner (u.chsel Pg.flm ini) = ini.id
  · have hs := Nat.lt_of_not_le (fun hs => h ⟨ho.symm, hs⟩)
    exact ⟨Err.ringOverrun, by rw [if_neg (not_not_intro ho), if_pos hs]⟩
  · exact ⟨Err.ringOwner, if_pos ho⟩

/-- The initiator and the DETAIL that an error record holds (R54). -/
theorem raise_info_bits (s : State) (page : Nat) (ini : Initiator) (off detail code : Nat) (h : s.wf = true) (hd : detail < 0x10000) :
    bits ((s.raise page ini off detail code).reg page 0 0x024) 31 29 = ini.id ∧
    bits ((s.raise page ini off detail code).reg page 0 0x024) 15 0 = detail := by
  have hi := Initiator_id_lt ini
  rw [raise_info _ _ _ _ _ _ h, bits_word _ _ _ (by omega), bits_word _ _ _ (by omega)]
  omega

theorem State.chsel_lt (s : State) (page : Nat) (ini : Initiator) : s.chsel page ini < 0x400 := bits_lt ..

theorem State.accessed_wf {s : State} (h : s.wf = true) (ini : Initiator) (page off : Nat) : (s.accessed ini page off).wf = true := by
  unfold State.accessed
  split
  · exact h
  · exact (State.touch_within ..).wf h

@[simp] theorem State.accessed_fieldOf (s : State) (ini : Initiator) (page off p i o hi lo : Nat) :
    (s.accessed ini page off).fieldOf p i o hi lo = s.fieldOf p i o hi lo := by
  unfold State.fieldOf
  rw [State.accessed_reg]

@[simp] theorem State.accessed_chsel (s : State) (ini : Initiator) (page off p : Nat) (i : Initiator) :
    (s.accessed ini page off).chsel p i = s.chsel p i := State.accessed_fieldOf ..

@[simp] theorem State.accessed_wrOwner (s : State) (ini : Initiator) (page off r : Nat) :
    (s.accessed ini page off).wrOwner r = s.wrOwner r := State.accessed_fieldOf ..

@[simp] theorem State.accessed_wrSize (s : State) (ini : Initiator) (page off r : Nat) :
    (s.accessed ini page off).wrSize r = s.wrSize r := congrArg (2 ^ ·) (State.accessed_fieldOf ..)

@[simp] theorem State.accessed_wrCons (s : State) (ini : Initiator) (page off r : Nat) :
    (s.accessed ini page off).wrCons r = s.wrCons r := State.accessed_fieldOf ..

theorem exec_wrProdWrite_served {ini : Initiator} {s : State} (v : Word) (hg : s.gate ini Pg.flm Fl.wrProd true = .serve) :
    exec (.wrProdWrite ini v) s = .next (((s.accessed ini Pg.flm Fl.wrProd).wrProdWrite ini v).setReply ini 0 false) :=
  congrArg _ (pageWrite_served s ini Pg.flm Fl.wrProd v _ hg)

/-- What a served write of FLM_WR_PROD leaves in PROD and in ERR_INFO. -/
theorem State.wrProdWrite_prod {u : State} (h : u.wf = true) (ini : Initiator) (v : Word) :
    let ring := u.chsel Pg.flm ini
    let ahead := subMod (2 * u.wrSize ring) (bits v 10 0) (u.wrCons ring)
    let t := u.wrProdWrite ini v
    (ini.id = u.wrOwner ring ∧ ahead ≤ u.wrSize ring → t.reg Pg.flm ring 0x108 = word (bits v 10 0)) ∧
    (¬(ini.id = u.wrOwner ring ∧ ahead ≤ u.wrSize ring) → t.reg Pg.flm ring 0x108 = u.reg Pg.flm ring 0x108 ∧
      bits (t.reg Pg.flm 0 0x024) 31 29 = ini.id ∧ bits (t.reg Pg.flm 0 0x024) 15 0 = ring) := by
  refine ⟨fun ⟨ho, hs⟩ => ?_, fun hn => ?_⟩
  · rw [State.wrProdWrite_owner ho.symm hs]
    exact State.reg_setReg _ _ _ _ _ (State.wf_regs h)
  · obtain ⟨code, he⟩ := State.wrProdWrite_ignored hn
    rw [he]
    have hc := State.chsel_lt u Pg.flm ini
    exact ⟨State.raise_reg (by decide) (by decide) (by decide) _ _ _ _ _ _, raise_info_bits _ _ _ _ _ _ h (by omega)⟩

/-- Settles O46: a served write of FLM_WR_PROD either moves PROD or only records its error, and a write of CHSEL reaches its
initiator's bank only, whatever the page's gate answers. -/
theorem onlyTheOwnerAdvancesProd : Obligations.OnlyTheOwnerAdvancesProd := by
  unfold Obligations.OnlyTheOwnerAdvancesProd
  refine ⟨?prod, ?banks⟩
  case prod =>
    intro ini value s h hg ring ahead
    refine ⟨_, exec_wrProdWrite_served value hg, ?_⟩
    have key := State.wrProdWrite_prod (State.accessed_wf h ini Pg.flm Fl.wrProd) ini value
    simp only [State.accessed_chsel, State.accessed_wrOwner, State.accessed_wrSize, State.accessed_wrCons,
      State.accessed_reg] at key
    exact key
  case banks =>
    intro ini other page value s t hne ht
    cases ht
    exact congrArg (bits · 9 0) (State.pageWrite_reg (by decide) (by decide) (by decide) s ini page 0x080 value
      (State.chselWrite_bank hne page value Pg.flm))

end Sys2Proof.Machine

/-! ## The architecture: a tailrace that is not enabled takes no entry (R37) -/

namespace Sys2Proof.Machine

theorem State.trRoom_of_closed {s : State} {r : Nat} (h : s.trEn r = false) : s.trRoom r = false := by
  unfold State.trRoom
  rw [h, Bool.false_and]

/-- FLM_TR_STAT holds no part of a tailrace's index, and no octet of memory. -/
theorem State.setReg_trStat_keeps (s : State) (r q : Nat) (v : Word) :
    (s.setReg Pg.flm r Fl.trStat v).mem = s.mem ∧ (s.setReg Pg.flm r Fl.trStat v).trProd q = s.trProd q := by
  refine ⟨rfl, congrArg (bits · 10 0) (State.reg_setReg_ne s v fun hk => ?_)⟩
  exact absurd hk.2.2 (by decide)

theorem State.setFull_keeps (s : State) (r q : Nat) (b : Bool) :
    (s.setFull r b).mem = s.mem ∧ (s.setFull r b).trProd q = s.trProd q := State.setReg_trStat_keeps ..

theorem State.dropReport_keeps (s : State) (r : Report) (q : Nat) :
    (s.dropReport r).mem = s.mem ∧ (s.dropReport r).trProd q = s.trProd q := by
  unfold State.dropReport State.countDrop State.count
  exact State.setReg_trStat_keeps ..

/-- Words that changed in their media leave memory, the registers and Flume. -/
theorem State.applyFlips_keeps (s : State) (fs : List Flip) :
    (s.applyFlips fs).mem = s.mem ∧ (s.applyFlips fs).flm = s.flm ∧
      ∀ page i o, (s.applyFlips fs).reg page i o = s.reg page i o := by
  have h := State.applyFlips_within s fs
  exact ⟨h.same .mem (by decide), h.same .flm (by decide), fun page i o => h.regs rfl page i o (List.not_mem_nil)⟩

theorem State.applyFlips_item (s : State) (fs : List Flip) (k : Nat) : (s.applyFlips fs).item k = s.item k := by
  obtain ⟨-, hflm, -⟩ := s.applyFlips_keeps fs
  unfold State.item
  rw [hflm]

theorem State.applyFlips_fieldOf (s : State) (fs : List Flip) (page i o hi lo : Nat) :
    (s.applyFlips fs).fieldOf page i o hi lo = s.fieldOf page i o hi lo := by
  obtain ⟨-, -, hreg⟩ := s.applyFlips_keeps fs
  exact congrArg (bits · hi lo) (hreg page i o)

theorem State.retireItem_noRoom {s : State} {i : Item} (h : s.trRoom (s.wrTail i.ring) = false) :
    s.retireItem i = s.setFull (s.wrTail i.ring) true := by
  unfold State.retireItem
  simp only [h, Bool.not_false, if_true]

/-- An item whose tailrace has no room stays, and at most FULL of the tailrace sets. -/
theorem exec_itemRetire_noRoom {k : Nat} {flips : List Flip} {s : State} {i : Item} (hi : (s.applyFlips flips).item k = some i)
    (h : (s.applyFlips flips).trRoom ((s.applyFlips flips).wrTail i.ring) = false) :
    exec (.itemRetire k flips) s = .next (s.applyFlips flips) ∨
      exec (.itemRetire k flips) s = .next ((s.applyFlips flips).setFull ((s.applyFlips flips).wrTail i.ring) true) := by
  change execItemRetire k flips s = _ ∨ execItemRetire k flips s = _
  unfold execItemRetire
  simp only [hi, State.retireItem_noRoom h]
  split
  · exact .inr rfl
  · exact .inl rfl

/-- A report whose tailrace has no room waits, or is dropped. -/
theorem exec_reportPost_noRoom {k : Nat} {s : State} {r : Report} (overflow : Bool) (hr : s.flm.waiting[k]? = some r)
    (h : s.trRoom r.tail = false) :
    exec (.reportPost k overflow) s = .next (if overflow && storeFull r then s.dropReport r else s) := by
  change execReportPost k overflow s = _
  unfold execReportPost
  simp only [hr, h, Bool.not_false, if_true]

/-- The events of LNK wait while their tailrace has no room. -/
theorem exec_lnkEventPost_noRoom {s : State} (h : s.trRoom (s.fieldOf Pg.lnk 0 0x848 29 24) = false) :
    exec .lnkEventPost s = .next s := by
  have h' : s.trRoom (bits (s.lreg 0x848) 29 24) = false := h
  change execLnkEventPost s = _
  unfold execLnkEventPost
  split
  · rfl
  · simp only [h', Bool.not_false, true_or, or_true, if_true]

/-- Settles O49: a tailrace that is not enabled has no room, and without room each of the three posting commands leaves memory
and PROD. -/
theorem closedTailracesTakeNoEntry : Obligations.ClosedTailracesTakeNoEntry := by
  unfold Obligations.ClosedTailracesTakeNoEntry
  refine ⟨?completion, ?report, ?linkEvent⟩
  case completion =>
    intro k flips s t i hi hc ht
    have htail : (s.applyFlips flips).wrTail i.ring = s.wrTail i.ring := s.applyFlips_fieldOf ..
    have hprod : (s.applyFlips flips).trProd (s.wrTail i.ring) = s.trProd (s.wrTail i.ring) := s.applyFlips_fieldOf ..
    obtain ⟨hmem, -, hreg⟩ := s.applyFlips_keeps flips
    have hroom : (s.applyFlips flips).trRoom ((s.applyFlips flips).wrTail i.ring) = false := by
      refine State.trRoom_of_closed ?_
      unfold State.trEn
      rw [hreg, htail]
      exact hc
    rcases exec_itemRetire_noRoom ((s.applyFlips_item flips k).trans hi) hroom with h | h
    · cases h.symm.trans ht
      exact ⟨hmem, hprod⟩
    · cases h.symm.trans ht
      obtain ⟨fmem, fprod⟩ := (s.applyFlips flips).setFull_keeps ((s.applyFlips flips).wrTail i.ring) (s.wrTail i.ring) true
      exact ⟨fmem.trans hmem, fprod.trans hprod⟩
  case report =>
    intro k overflow s t r hr hc ht
    cases (exec_reportPost_noRoom overflow hr (State.trRoom_of_closed hc)).symm.trans ht
    split
    · exact s.dropReport_keeps r r.tail
    · exact ⟨rfl, rfl⟩
  case linkEvent =>
    intro s t ring hring hc ht
    subst hring
    cases (exec_lnkEventPost_noRoom (State.trRoom_of_closed hc)).symm.trans ht
    exact ⟨rfl, rfl⟩

end Sys2Proof.Machine

/-! ## The architecture: what the writes of Flume's ring registers do where they are served -/

namespace Sys2Proof.Machine

/-! ### A served write takes effect, and is answered -/

section
variable {ini : Initiator} {s : State} (v : Word)

theorem exec_ringEnable_served (hg : s.gate ini Pg.flm Fl.wrCfg true = .serve) :
    exec (.ringEnable ini v) s = .next (((s.accessed ini Pg.flm Fl.wrCfg).wrCfgWrite ini v).setReply ini 0 false) :=
  congrArg _ (pageWrite_served s ini Pg.flm Fl.wrCfg v _ hg)

theorem exec_ringAbort_served (hg : s.gate ini Pg.flm 0x118 true = .serve) :
    exec (.ringAbort ini) s = .next (((s.accessed ini Pg.flm 0x118).wrCtrlWrite ini 2).setReply ini 0 false) :=
  congrArg _ (pageWrite_served s ini Pg.flm 0x118 2 _ hg)

theorem exec_ringResume_served (hg : s.gate ini Pg.flm 0x118 true = .serve) :
    exec (.ringResume ini) s =
      .next (((s.accessed ini Pg.flm 0x118).ringResume ((s.accessed ini Pg.flm 0x118).chsel Pg.flm ini)).setReply ini 0 false) :=
  congrArg _ (pageWrite_served s ini Pg.flm 0x118 1 _ hg)

theorem exec_trCfgWrite_served (hg : s.gate ini Pg.flm Fl.trCfg true = .serve) :
    exec (.trCfgWrite ini v) s = .next (((s.accessed ini Pg.flm Fl.trCfg).trCfgWrite ini v).setReply ini 0 false) :=
  congrArg _ (pageWrite_served s ini Pg.flm Fl.trCfg v _ hg)

theorem exec_trConsWrite_served (hg : s.gate ini Pg.flm Fl.trCons true = .serve) :
    exec (.trConsWrite ini v) s =
      .next (((s.accessed ini Pg.flm Fl.trCons).trConsWrite ((s.accessed ini Pg.flm Fl.trCons).chsel Pg.flm ini) v).setReply
        ini 0 false) :=
  congrArg _ (pageWrite_served s ini Pg.flm Fl.trCons v _ hg)

end

/-! ### FLM_WR_CFG and FLM_WR_CTRL (R17, R18, R33, R35) -/

/-- The writable fields of FLM_WR_CFG and of FLM_TR_CFG. -/
theorem wrCfg_fields : word (fld 31 16 + fld 14 12 + fld 3 0) = 0xFFFF700F := by decide

theorem trCfg_fields : word (fld 31 31 + fld 23 0) = 0x80FFFFFF := by decide

/-- A ring with a SIZE of R17 and a unit that the part has is enabled, empty and IDLE. -/
theorem State.wrCfgWrite_enables {u : State} {ini : Initiator} {v : Word} (hl : u.locked Pg.flm = false)
    (hen : u.wrEn (u.chsel Pg.flm ini) = false) (hv : bit v 31 = true) (hmin : 4 ≤ bits v 3 0) (hmax : bits v 3 0 ≤ 10)
    (hlist : pageListed (bits v 23 16) = true) (hpres : pagePresent u.variant (bits v 23 16) = true) :
    u.wrCfgWrite ini v = (((u.setReg Pg.flm (u.chsel Pg.flm ini) Fl.wrCfg (v &&& 0xFFFF700F)).setReg Pg.flm (u.chsel Pg.flm ini)
      Fl.wrProd 0).setReg Pg.flm (u.chsel Pg.flm ini) Fl.wrCons 0).setRing (u.chsel Pg.flm ini) .idle := by
  unfold State.wrEn at hen
  have hsize : ¬(bits v 3 0 < 4 ∨ 10 < bits v 3 0 ∨ (!pageListed (bits v 23 16)) = true ∨
      (!pagePresent u.variant (bits v 23 16)) = true) := by
    simp only [hlist, hpres, Bool.not_true, Bool.false_eq_true, or_false]
    omega
  unfold State.wrCfgWrite
  simp only [hl, hen, hv, Bool.not_true, Bool.false_eq_true, if_false, if_neg hsize, wrCfg_fields]

/-- On an enabled ring only EN and ORDER take a write. -/
theorem State.wrCfgWrite_enabled {u : State} {ini : Initiator} (v : Word) (hl : u.locked Pg.flm = false)
    (hen : u.wrEn (u.chsel Pg.flm ini) = true) :
    u.wrCfgWrite ini v = u.setReg Pg.flm (u.chsel Pg.flm ini) Fl.wrCfg
      ((u.reg Pg.flm (u.chsel Pg.flm ini) Fl.wrCfg &&& 0x3FFFFFFF) ||| (v &&& 0xC0000000)) := by
  unfold State.wrEn at hen
  unfold State.wrCfgWrite
  simp only [hl, hen, Bool.false_eq_true, if_false, if_true]

theorem State.wrCtrlWrite_abort (u : State) (ini : Initiator) : u.wrCtrlWrite ini 2 = u.ringAbortWrite (u.chsel Pg.flm ini) := rfl

theorem State.ringResume_halted {u : State} {r : Nat} (h : u.ringState r = .halted) : u.ringResume r = u.setRing r .idle := by
  unfold State.ringResume
  rw [if_pos h]

/-! ### FLM_TR_CFG (R18, R26, R37) -/

/-- A tailrace with a SIZE of R18 is enabled, empty, and FULL no more. -/
theorem State.trCfgWrite_enables {u : State} {ini : Initiator} {v : Word} (hl : u.locked Pg.flm = false)
    (hen : u.trEn (u.chsel Pg.flm ini) = false) (hv : bit v 31 = true) (hmin : 4 ≤ bits v 3 0) (hmax : bits v 3 0 ≤ 10) :
    u.trCfgWrite ini v = (((u.setReg Pg.flm (u.chsel Pg.flm ini) Fl.trCfg (v &&& 0x80FFFFFF)).setReg Pg.flm (u.chsel Pg.flm ini)
      Fl.trProd 0).setReg Pg.flm (u.chsel Pg.flm ini) Fl.trCons 0).setFull (u.chsel Pg.flm ini) false := by
  unfold State.trEn at hen
  have hsize : ¬(bits v 3 0 < 4 ∨ 10 < bits v 3 0) := by omega
  unfold State.trCfgWrite
  simp only [hl, hen, hv, Bool.not_true, Bool.false_eq_true, if_false, if_neg hsize, trCfg_fields]

/-- On an enabled tailrace SIZE stands; moderation is looked at again, or the pending bit clears with EN. -/
theorem State.trCfgWrite_enabled {u : State} {ini : Initiator} (v : Word) (hl : u.locked Pg.flm = false)
    (hen : u.trEn (u.chsel Pg.flm ini) = true) :
    let w := u.setReg Pg.flm (u.chsel Pg.flm ini) Fl.trCfg
      ((u.reg Pg.flm (u.chsel Pg.flm ini) Fl.trCfg &&& 0xF) ||| (v &&& 0x80FFFFF0))
    u.trCfgWrite ini v = if bit v 31 then w.modLook (u.chsel Pg.flm ini) else w.clearTrPend (u.chsel Pg.flm ini) := by
  unfold State.trEn at hen
  unfold State.trCfgWrite
  simp only [hl, hen, Bool.false_eq_true, if_false, if_true]

/-- Settles O17: each clause is the rule of its register, in the state that the served access leaves. -/
theorem ringRegisterWritesComplete : Obligations.RingRegisterWritesComplete := by
  unfold Obligations.RingRegisterWritesComplete
  refine ⟨?prod, ?enable, ?enabled, ?abort, ?resume, ?tailrace, ?tailraceEnabled, ?consumed⟩
  case prod =>
    intro ini v s hg u r ho hs
    rw [exec_wrProdWrite_served v hg, State.wrProdWrite_owner ho hs]
  case enable =>
    intro ini v s hg u r hl hen hv hmin hmax hlist hpres
    have hu : pagePresent u.variant (bits v 23 16) = true := by rw [accessed_variant]; exact hpres
    rw [exec_ringEnable_served v hg, State.wrCfgWrite_enables hl hen hv hmin hmax hlist hu]
  case enabled =>
    intro ini v s hg u r hl hen
    rw [exec_ringEnable_served v hg, State.wrCfgWrite_enabled v hl hen]
  case abort =>
    intro ini s hg u
    rw [exec_ringAbort_served hg, State.wrCtrlWrite_abort]
  case resume =>
    intro ini s hg u hh
    rw [exec_ringResume_served hg, State.ringResume_halted hh]
  case tailrace =>
    intro ini v s hg u r hl hen hv hmin hmax
    rw [exec_trCfgWrite_served v hg, State.trCfgWrite_enables hl hen hv hmin hmax]
  case tailraceEnabled =>
    intro ini v s hg u r hl hen w
    rw [exec_trCfgWrite_served v hg, State.trCfgWrite_enabled v hl hen]
  case consumed =>
    intro ini v s hg u r w
    exact exec_trConsWrite_served v hg

end Sys2Proof.Machine

/-! ## The architecture: the steps of Flume's engine -/

namespace Sys2Proof.Machine

/-! ### Fetch (R28) -/

/-- The item that a grant of a ring makes of the octets of its descriptor. -/
def State.fetchedItem (s t : State) (r : Nat) (os : List Byte) : Item :=
  { id := t.freeEntry, ring := r, slot := s.wrCons r % s.wrSize r, unit := s.wrUnit r, words := wordsOfBytes 8 os, st := .fetched
    lat := if s.wrUnit r = Pg.lnk then [0x810, 0x814, 0x818, 0x820].map (t.reg Pg.lnk 0) else [] }

/-- A grant whose descriptor is read takes an entry of the in-flight table and advances CONS. -/
theorem State.fetchRing_read {s t : State} {r : Nat} {bs : List (Option Byte)} {os : List Byte} {e : EccSum}
    (hread : State.unitRead { s with flm := { s.flm with
      lastUnit := s.wrUnit r, lastRing := Sparse.set 63 s.flm.lastRing (s.wrUnit r) r } }
      (s.slotAddr r (s.wrCons r % s.wrSize r)) 32 = (t, .ok bs e)) (hknown : knownBytes bs = some os) :
    let u := { t with flm := { t.flm with ift := t.flm.ift ++ [s.fetchedItem t r os] } }
    s.fetchRing r = (u.setReg Pg.flm r Fl.wrCons (word ((u.wrCons r + 1) % (2 * u.wrSize r)))).noteInUse := by
  -- the note of the grant changes no register, so the slot's address is the one before it
  unfold State.fetchRing
  simp only [State.slotAddr, State.reg] at hread ⊢
  simp only [hread, hknown]
  rfl

theorem exec_descriptorFetch_grant {flips : List Flip} {s : State} {r : Nat} (h : (s.applyFlips flips).grant = some r) :
    exec (.descriptorFetch flips) s = .next ((s.applyFlips flips).fetchRing r) := by
  change execDescriptorFetch flips s = _
  unfold execDescriptorFetch
  simp only [h]

/-! ### Issue (R27, R29, R252) -/

theorem exec_itemIssue_turn {k : Nat} {s : State} {i : Item} (hi : s.item k = some i) (hst : i.st = .fetched)
    (hmay : s.mayIssue i = true) : exec (.itemIssue k) s = .next (s.issue i) := by
  change execItemIssue k s = _
  unfold execItemIssue
  simp only [hi, hst, hmay, and_self, if_true]

/-- A domain that is ready is ON and settled. -/
theorem State.domOn_of_ready {s : State} {d : Nat} (h : s.ready d = true) : s.domOn d = true := by
  unfold State.ready at h
  exact (Bool.and_eq_true_iff.mp h).1

/-- The issue checks of a unit other than CAS, one after the other, all pass: the item is ACTIVE. -/
theorem State.issue_starts {s : State} {i : Item} (hcas : i.unit ≠ Pg.cas) (hpres : pagePresent s.variant i.unit = true)
    (hready : s.ready (epochDomain i.unit) = true) (hop : opDefined i.unit i.opcode = true)
    (htime : i.timed = true → i.ns < 1000000000 ∧ s.pastShort i.ns i.secLo = false)
    (hepoch : i.epochChk = true → i.epoch = s.epochOf i) (hlen : opMoves i.unit i.opcode = true → i.length ≠ 0)
    (hnop : i.opcode = 0 → i.timed = true) :
    let u := s.touch (epochDomain i.unit)
    s.issue i = (u.updItem i.id (fun j => { j with epochSeen := (u.dom (epochDomain i.unit)).epoch.toNat })).updItem i.id
      (fun j => { j with st := .active }) := by
  have hunit : (i.unit == Pg.cas) = false := beq_false_of_ne hcas
  have hrange : ¬(i.timed = true ∧ 1000000000 ≤ i.ns) := fun ⟨ht, hn⟩ => Nat.not_le.mpr (htime ht).1 hn
  have hstale : ¬(i.epochChk = true ∧ i.epoch ≠ s.epochOf i) := fun ⟨he, hne⟩ => hne (hepoch he)
  have hzero : ¬(opMoves i.unit i.opcode = true ∧ i.length = 0) := fun ⟨hm, h0⟩ => hlen hm h0
  have hlate : ¬(i.timed = true ∧ s.pastShort i.ns i.secLo = true) := fun ⟨ht, hp⟩ => by simp [(htime ht).2] at hp
  have hnow : ¬(i.opcode = 0 ∧ (!i.timed) = true) := fun ⟨h0, ht⟩ => by simp [hnop h0] at ht
  unfold State.issue
  simp only [hpres, State.domOn_of_ready hready, hready, hop, hunit, hcas, Bool.not_true, Bool.false_and, Bool.false_eq_true,
    false_and, and_false, or_false, if_false, if_neg hrange, if_neg hstale, if_neg hzero, if_neg hlate, if_neg hnow]

/-! ### Finish and launch (R27, R35, R252) -/

theorem exec_itemFinish_done {k : Nat} {s : State} {i : Item} (hi : s.item k = some i) (hst : i.st = .active)
    (hres : i.result.isSome = true) :
    let u := s.retireWith k Sc.done
    exec (.itemFinish k) s = .next (State.settle (if u.ringState i.ring = .aborting then u.abortRest i.ring else u)) := by
  change execItemFinish k s = _
  unfold execItemFinish
  simp only [hi, hst, hres, and_self, if_true]

theorem exec_launchTimeReached_starts {k : Nat} {flips : List Flip} {s : State} {i : Item}
    (hi : (s.applyFlips flips).item k = some i) (hst : i.st = .active) (htimed : i.timed = true) (hl : i.launched = false)
    (hair : i.airTimed = false) (hcome : (s.applyFlips flips).launchCome i = true) (hop : i.opcode ≠ 0) (hunit : i.unit ≠ Pg.lnk) :
    exec (.launchTimeReached k flips) s = .next ((s.applyFlips flips).updItem k (fun i => { i with launched := true })) := by
  change execLaunchTimeReached k flips s = _
  unfold execLaunchTimeReached
  simp only [hi, hst, htimed, hl, hair, hcome, hop, hunit, Bool.not_false, and_self, if_true, if_false]

/-! ### Retirement (R25, R27) -/

/-- The entry that the completion of an item leaves on its tailrace. -/
def Item.completion (i : Item) : Entry :=
  { unsol := false, ovf := false, ring := i.ring, epoch := i.epochSeen, status := i.res.status, unit := i.unit, index := i.slot
    tag := i.tag, actual := i.res.actual, ns := (i.res.time.getD (0, 0)).1, sec := (i.res.time.getD (0, 0)).2
    rep6 := i.res.rep6, rep7 := i.res.rep7 }

/-- An item whose tailrace has room and answers is written back, posted and freed. -/
theorem State.retireItem_room {u t : State} {i : Item} (hroom : u.trRoom (u.wrTail i.ring) = true)
    (hr : u.rangeStatus (u.trAddr (u.wrTail i.ring)) 32 = .ready) (hw : u.writeBack i = (t, true)) :
    u.retireItem i = ((t.postEntry (u.wrTail i.ring) i.completion i.irq).freeItem i.id).flumeResetEnd := by
  unfold State.retireItem
  simp only [hroom, hr, hw, Bool.not_true, Bool.false_eq_true, if_false]
  rfl

theorem exec_itemRetire_turn {k : Nat} {flips : List Flip} {s : State} {i : Item} (hi : (s.applyFlips flips).item k = some i)
    (hst : i.st = .retiring) (hmay : (s.applyFlips flips).mayRetire i = true) :
    exec (.itemRetire k flips) s = .next ((s.applyFlips flips).retireItem i) := by
  change execItemRetire k flips s = _
  unfold execItemRetire
  simp only [hi, hst, hmay, and_self, if_true]

/-! ### Reports and moderation (R26, R36, R37) -/

/-- The oldest report of a tailrace with room is written, where no completion waits for the tailrace. -/
theorem exec_reportPost_writes {k : Nat} {s : State} {r : Report} (hr : s.flm.waiting[k]? = some r)
    (hfirst : s.raisedBefore r.tail r.no = false) (hroom : s.trRoom r.tail = true) (hheld : s.noHeld r.tail = true)
    (hmem : s.rangeStatus (s.trAddr r.tail) 32 = .ready) : exec (.reportPost k false) s = .next (s.writeReport r) := by
  change execReportPost k false s = _
  unfold execReportPost
  simp only [hr, hfirst, hroom, hheld, hmem, Bool.not_true, Bool.or_self, Bool.false_eq_true, if_false]

theorem exec_tailraceModTime_sets {r : Nat} {s : State} (hen : s.trEn r = true) (hmod : s.fieldOf Pg.flm r Fl.trCfg 15 4 ≠ 0)
    (hpend : s.trPending r ≠ 0) : exec (.tailraceModTime r) s = .next (s.setTrPend r true) := by
  change execTailraceModTime r s = _
  unfold execTailraceModTime
  simp only [hen, bne_iff_ne.mpr hmod, bne_iff_ne.mpr hpend, Bool.and_self, if_true]

/-- Settles O16: each clause is the step of the engine that its command takes, once the conditions hold. -/
theorem flumeEngineCompletes : Obligations.FlumeEngineCompletes := by
  unfold Obligations.FlumeEngineCompletes
  refine ⟨?fetch, ?issue, ?start, ?finish, ?retire, ?report, ?reportLost, ?modTime, ?launch⟩
  case fetch =>
    intro flips s t r bs os e u hgrant v hread hknown it w
    rw [exec_descriptorFetch_grant hgrant, State.fetchRing_read hread hknown]
    rfl
  case issue => exact fun k s i hi hst hmay => exec_itemIssue_turn hi hst hmay
  case start =>
    intro k s i hi hst hmay hcas hpres hready hop htime hepoch hlen hnop u w
    rw [exec_itemIssue_turn hi hst hmay, State.issue_starts hcas hpres hready hop htime hepoch hlen hnop]
  case finish => exact fun k s i hi hst hres => exec_itemFinish_done hi hst hres
  case retire =>
    intro k flips s t i u hi hst hmay hroom hr hw
    rw [exec_itemRetire_turn hi hst hmay, State.retireItem_room hroom hr hw]
    rfl
  case report => exact fun k s r hr hfirst hroom hheld hmem => exec_reportPost_writes hr hfirst hroom hheld hmem
  case reportLost =>
    intro k s r hr hfull hroom
    rw [exec_reportPost_noRoom true hr hroom, Bool.true_and, if_pos hfull]
  case modTime => exact fun r s hen hmod hpend => exec_tailraceModTime_sets hen hmod hpend
  case launch =>
    exact fun k flips s i hi hst htimed hl hair hcome hop hunit =>
      exec_launchTimeReached_starts hi hst htimed hl hair hcome hop hunit

end Sys2Proof.Machine

/-! ## The architecture: the cascade's commands -/

namespace Sys2Proof.Machine

/-! ### Links (R518, R520, R534) -/

section
variable {down : Bool} {s : State}

theorem exec_linkUp_training (hr : s.casRuns = true) (hl : s.casLink down = .training) :
    exec (.linkUp down) s = .next ((s.setLink down .up).event Pg.cas 0) := by
  change execLinkUp down s = _
  unfold execLinkUp
  rw [if_pos ⟨hr, hl⟩]

theorem exec_linkTrainTimeout_training (hr : s.casRuns = true) (hl : s.casLink down = .training) :
    exec (.linkTrainTimeout down) s = .next (s.setLink down .training) := by
  change execLinkTrainTimeout down s = _
  unfold execLinkTrainTimeout
  rw [if_pos ⟨hr, hl⟩]

theorem exec_cellCrcFail_up (hr : s.casRuns = true) (hl : s.casLink down = .up) :
    exec (.cellCrcFail down) s = .next (s.count Pg.cas 0 0x81C 31 16 1) := by
  change execCellCrcFail down s = _
  unfold execCellCrcFail
  rw [if_pos ⟨hr, hl⟩]

theorem exec_linkDown_up (hl : s.casLink down = .up) : exec (.linkDown down) s = .next (s.linkLost down) := by
  change execLinkDown down s = _
  unfold execLinkDown
  rw [if_pos hl]

/-- A link that is UP is lost: its change and its event are noted, and a slave's CAS_UP takes REG and CAS_LOCK with it. -/
theorem State.linkLost_up (hl : s.casLink down = .up) :
    let u := (s.setLink down .down).event Pg.cas 0
    let v := (u.count Pg.cas 0 0x81C 15 0 1).casEvent 4 u.cas.position (word down.toNat)
    s.linkLost down = if down || v.cas.master then v
      else (v.setCas (fun c => { c with reg := false })).setTim (fun t => { t with casLock := false }) := by
  unfold State.linkLost
  rw [if_neg (by rw [hl]; decide)]

end

/-! ### Timing and positions (R260, R521 to R523) -/

section
variable {s : State}

theorem exec_casTimingExchange_dn {sec ns rtt : Nat} {addend : Word} (hr : s.casRuns = true) (hl : s.casLink true = .up) :
    exec (.casTimingExchange true sec ns rtt addend) s = .next (s.setCas (fun c => { c with rttDn := rtt % 65536 })) := by
  change execCasTimingExchange true sec ns rtt addend s = _
  unfold execCasTimingExchange
  simp only [hr, hl, Bool.not_true, Bool.false_eq_true, ne_eq, not_true, or_self, if_false, if_true]

theorem exec_enumeration_master {found : List CasFound} (p : Nat) (hr : s.casRuns = true) (hm : s.cas.master = true) :
    exec (.enumeration found p) s = .next (s.enumerate found) := by
  change execEnumeration found p s = _
  unfold execEnumeration
  simp only [hr, hm, Bool.not_true, Bool.false_eq_true, if_false, if_true]

theorem exec_enumeration_slave (found : List CasFound) {p : Nat} (hr : s.casRuns = true) (hm : s.cas.master = false)
    (hu : s.cas.up = .up) (h1 : 1 ≤ p) (h7 : p ≤ 7) :
    exec (.enumeration found p) s = .next (s.setCas (fun c => { c with position := p })) := by
  change execEnumeration found p s = _
  unfold execEnumeration
  simp only [hr, hm, hu, h1, h7, Bool.not_true, Bool.false_eq_true, and_self, if_false, if_true]

/-- On a master ACCEPT is a write of the position's CAS_POSCTRL. -/
theorem exec_casAccept_master {ini : Initiator} {p : Nat} (hp : p < 8) (hm : s.cas.master = true)
    (hg : s.gate ini Pg.cas (0x940 + 4 * p) true = .serve) :
    exec (.casAccept ini p) s =
      .next (((s.accessed ini Pg.cas (0x940 + 4 * p)).posCtrlWrite ini p 1).setReply ini 0 false) := by
  change execCasAccept ini p s = _
  unfold execCasAccept
  rw [Nat.mod_eq_of_lt hp, pageWrite_served _ _ _ _ _ _ hg, if_neg (by simp [hm])]

theorem exec_casAccept_slave (hm : s.cas.master = false) (hr : s.casRuns = true) (hu : s.cas.up = .up) :
    exec (.casAccept .cas s.cas.position) s = .next (s.setCas (fun c => { c with reg := true })) := by
  change execCasAccept .cas s.cas.position s = _
  unfold execCasAccept
  simp only [hm, hr, hu, Bool.not_false, and_self, if_true]

theorem exec_casDrop_served {ini : Initiator} {p : Nat} (hp : p < 8) (hg : s.gate ini Pg.cas (0x940 + 4 * p) true = .serve) :
    exec (.casDrop ini p) s =
      .next (((s.accessed ini Pg.cas (0x940 + 4 * p)).posCtrlWrite ini p 2).setReply ini 0 false) := by
  change execCasDrop ini p s = _
  unfold execCasDrop
  rw [Nat.mod_eq_of_lt hp, pageWrite_served _ _ _ _ _ _ hg]

/-- ACCEPT registers a NEW position, under a new SEPOCH. -/
theorem State.posCtrlWrite_accept {ini : Initiator} {p : Nat} (hl : s.locked Pg.cas = false) (hn : (s.casPos p).st = .new) :
    s.posCtrlWrite ini p 1 = s.setPos p { s.casPos p with st := .registered, sepoch := (s.casPos p).sepoch + 1 } := by
  have h0 : bit (1 : Word) 0 = true := by decide
  have h1 : bit (1 : Word) 1 = false := by decide
  unfold State.posCtrlWrite
  simp only [hl, hn, h0, h1, Bool.false_eq_true, and_false, and_self, if_false, if_true]

theorem State.posCtrlWrite_drop {ini : Initiator} {p : Nat} (hl : s.locked Pg.cas = false) :
    s.posCtrlWrite ini p 2 = s.losePoss [p] := by
  have h0 : bit (2 : Word) 0 = false := by decide
  have h1 : bit (2 : Word) 1 = true := by decide
  unfold State.posCtrlWrite
  simp only [hl, h0, h1, Bool.false_eq_true, false_and, if_false, if_true]

end

/-! ### Forwarding (R525, R526) -/

/-- CAS_RXCONS takes a write of CONS. -/
theorem State.plainWrite_casRxcons (s : State) (ini : Initiator) (v : Word) :
    s.plainWrite ini Pg.cas 0 0x814 v = s.setReg Pg.cas 0 0x814 ((s.reg Pg.cas 0 0x814 &&& ~~~0x7FF) ||| (v &&& 0x7FF)) := by
  have hdef : regDef Pg.cas 0x814 = some { off := 0x814, name := "CAS_RXCONS", rw := fld 10 0 } := by decide
  have hcons : word (fld 10 0) = 0x7FF := by decide
  have hkeep : ~~~(v &&& word 0) = BitVec.allOnes 32 := by simp [word]
  unfold State.plainWrite
  simp only [hdef, writeValue, outOfRange, hcons, hkeep, List.foldl_nil, List.any_nil, BitVec.and_allOnes, Bool.false_and,
    Bool.false_eq_true, if_false]

theorem exec_casRxconsWrite_served {ini : Initiator} {s : State} (v : Word) (hg : s.gate ini Pg.cas 0x814 true = .serve) :
    exec (.casRxconsWrite ini v) s =
      .next (((s.accessed ini Pg.cas 0x814).plainWrite ini Pg.cas 0 0x814 v).setReply ini 0 false) :=
  congrArg _ (pageWrite_served s ini Pg.cas 0x814 v _ hg)

/-! ### Items (R524, R527 to R530) -/

/-- An item of CAS reads its data, and goes on with it. -/
theorem State.casIn_reads {s t : State} {i : Item} {a n : Nat} {m : List Byte} {k : State → List Byte → State}
    (h : s.reads a n m t) : s.casIn i a n k = k t m := by
  obtain ⟨os, e, hread, hknown⟩ := h
  simp only [State.casIn, hread, hknown]

/-- An item of CAS writes what a slave returned, and ends. -/
theorem State.casOut_writes {s t : State} {i : Item} {a : Nat} {m : List Byte} {status : Nat} (h : s.writes a m t) :
    s.casOut i a m status = t.finish i.id { status, actual := m.length } := by
  obtain ⟨e, hwrite⟩ := h
  simp only [State.casOut, hwrite]

section
variable {k : Nat} {s : State} {i : Item}

theorem exec_casBarrier_turn (h : s.casTurn 3 k false = some i) : exec (.casBarrier k) s = .next (s.maskDone i 0 none) := by
  change execCasBarrier k s = _
  unfold execCasBarrier
  rw [h]

/-- A SNAPSHOT sets its instant once. -/
theorem exec_casSnapshot_turn (h : s.casTurn 4 k true = some i) (hn : s.cas.snap.any (fun n => n.item == k) = false) :
    let t : Int := if i.timed then s.launchNs i.ns i.secLo else ((s.tim.sec * 1000000000 + s.tim.ns + s.casReach i : Nat) : Int)
    exec (.casSnapshot k) s = .next (s.setCas (fun c => { c with snap := some ⟨k, t⟩ })) := by
  change execCasSnapshot k s = _
  unfold execCasSnapshot
  simp only [h, hn, Bool.false_eq_true, if_false]

theorem exec_casReset_turn (air : List Air) (h : s.casTurn 5 k false = some i) :
    exec (.casReset (some k) air) s = .next (s.maskDone i 0 (some (s.casInstant i))) := by
  change execCasReset (some k) air s = _
  unfold execCasReset
  simp only [h]

theorem exec_casReset_slave (air : List Air) (hm : s.cas.master = false) (hr : s.casRuns = true) (hu : s.cas.up = .up) :
    exec (.casReset none air) s = .next (s.requestReset 4 air) := by
  change execCasReset none air s = _
  unfold execCasReset
  simp only [hm, hr, hu, Bool.not_false, and_self, if_true]

theorem exec_casEnumerate_turn (found : List CasFound) (h : s.casTurn 7 k false = some i) :
    exec (.casEnumerate k found) s = .next ((s.enumerate found).finish k { status := Sc.done }) := by
  change execCasEnumerate k found s = _
  unfold execCasEnumerate
  rw [h]

end

/-- Settles O41: each clause is the arm of its command that its conditions choose; items read and write by `State.casIn_reads`
and `State.casOut_writes`. -/
theorem cascadeCommandsComplete : Obligations.CascadeCommandsComplete := by
  unfold Obligations.CascadeCommandsComplete
  refine ⟨?trainStart, ?up, ?crcFail, ?down, ?timingDn, ?timingUp, ?enumeration, ?positions, ?acceptedSlave, ?forwardEntry,
    ?forwardReceive, ?rxcons, ?rcopy, ?broadcast, ?barrier, ?snapshot, ?captureMaster, ?captureSlave, ?reset, ?resetSlave,
    ?register, ?enumerate⟩
  case trainStart =>
    intro down s hr hl
    change execLinkTrainStart down s = _
    unfold execLinkTrainStart
    simp only [hr, hl, Bool.not_true, Bool.false_eq_true, ne_eq, not_true, or_self, if_false, Bool.not_eq_true']
  case up => exact fun down s hr hl => ⟨exec_linkUp_training hr hl, exec_linkTrainTimeout_training hr hl⟩
  case crcFail => exact fun down s hr hl => exec_cellCrcFail_up hr hl
  case down =>
    intro down s hl u v
    rw [exec_linkDown_up hl, State.linkLost_up hl]
  case timingDn => exact fun sec ns rtt addend s hr hl => exec_casTimingExchange_dn hr hl
  case timingUp =>
    intro sec ns rtt addend s hr hl hm ht u o v
    change execCasTimingExchange false sec ns rtt addend s = _
    unfold execCasTimingExchange
    simp only [hr, hl, hm, ht, Bool.not_true, Bool.false_eq_true, ne_eq, not_true, or_self, if_false, decide_eq_true_eq]
    rfl
  case enumeration =>
    exact fun found p s hr => ⟨fun hm => exec_enumeration_master p hr hm, fun hm hu h1 h7 =>
      exec_enumeration_slave found hr hm hu h1 h7⟩
  case positions =>
    intro ini p s hp hm hg u x hl
    refine ⟨fun hn => ?_, ?_⟩
    · rw [exec_casAccept_master hp hm hg, State.posCtrlWrite_accept hl hn]
    · rw [exec_casDrop_served hp hg, State.posCtrlWrite_drop hl]
  case acceptedSlave => exact fun s hm hr hu => exec_casAccept_slave hm hr hu
  case forwardEntry =>
    intro flips s t bs u cfg r hm hreg hr hen hu hne ⟨os, e, hread, hknown⟩ ws unit next ring n index slots
    change execForwardEntry flips s = _
    unfold execForwardEntry
    simp only [u, cfg, r] at hm hreg hr hen hu hne hread
    simp only [hm, hreg, hr, hen, hu, hne, hread, hknown, Bool.not_true, Bool.false_eq_true, ne_eq, not_true, or_self, if_false]
    rfl
  case forwardReceive =>
    intro origin unlocked entry psdu flips s t u cfg slot w hm hr hd hen hp hroom ⟨e, hwrite⟩ unit kind
    change execForwardReceive origin unlocked entry psdu flips s = _
    unfold execForwardReceive
    simp only [u, cfg, slot, w] at hm hr hd hen hp hroom hwrite
    simp only [hm, hr, hd, hen, hp, hroom, hwrite, Bool.not_true, Bool.false_eq_true, ne_eq, not_true, or_self, if_false]
    rfl
  case rxcons =>
    intro ini v s hg u
    rw [exec_casRxconsWrite_served v hg, State.plainWrite_casRxcons]
  case rcopy =>
    intro k words refused flips s t i u n st h
    have hexec : exec (.casRcopy k words refused flips) s = execCasRcopy k words refused flips s := rfl
    rw [hexec]
    unfold execCasRcopy
    simp only [u] at h
    simp only [h]
    refine ⟨fun hto hwrite => ?_, fun bs hfrom hread => ?_⟩
    · rw [if_pos hto, State.casOut_writes hwrite]
    · rw [if_neg (by simp [hfrom]), State.casIn_reads hread]
  case broadcast =>
    intro k refused flips s t i j bs u h hread v w hj hdone
    have hnone : ¬(i.addrB.testBit 0 = true ∧ (j.lat.getD 1 0).toNat < i.length / 8) := fun ⟨hb, hlt⟩ =>
      Nat.not_lt.mpr (hdone hb) hlt
    change execCasBroadcast k refused flips s = _
    unfold execCasBroadcast
    simp only [u] at h
    simp only [h]
    rw [State.casIn_reads hread]
    simp only [w, v] at hj
    simp only [hj, if_neg hnone]
    rfl
  case barrier => exact fun k s i h => exec_casBarrier_turn h
  case snapshot => exact fun k s i h hn => exec_casSnapshot_turn h hn
  case captureMaster =>
    intro sec ns s n i hm hsnap hreach hi hunit hop hst hres u v
    have hitem : u.item n.item = some i := hi
    change execSnapshotCapture sec ns s = _
    unfold execSnapshotCapture
    simp only [u] at hitem
    simp only [hm, hsnap, hreach, hitem, hunit, hop, hst, hres, Bool.not_true, Bool.false_eq_true, and_self, if_false, if_true]
    rfl
  case captureSlave =>
    intro sec ns s hm hr hu hreach
    change execSnapshotCapture sec ns s = _
    unfold execSnapshotCapture
    simp only [hm, hr, hu, hreach, Bool.false_eq_true, and_self, if_false, if_true]
  case reset => exact fun k air s i h => exec_casReset_turn air h
  case resetSlave => exact fun air s hm hr hu => exec_casReset_slave air hm hr hu
  case register =>
    intro k report flips s t v i bs u h hread hwrite
    change execCasRegister k report flips s = _
    unfold execCasRegister
    simp only [u] at h
    simp only [h]
    rw [State.casIn_reads hread, State.casOut_writes hwrite]
  case enumerate => exact fun k found s i h => exec_casEnumerate_turn found h

end Sys2Proof.Machine

/-! ## Register pages: what a step keeps -/

namespace Sys2Proof.Machine

/-- Settles O1: on a queue with a front command a step is that command. -/
theorem stepRunsFrontCommand : Obligations.StepRunsFrontCommand := by
  unfold Obligations.StepRunsFrontCommand
  exact fun c s rest hq => step_of_pending_cons hq

/-- Settles O5: the footprint's frame holds of each command. -/
theorem commandsKeepToTheirFootprint : Obligations.CommandsKeepToTheirFootprint := by
  unfold Obligations.CommandsKeepToTheirFootprint
  exact fun c s t ht => exec_within_footprint c s t ht

/-- The queue holds neither memory nor registers. -/
theorem State.wf_pending {s : State} (q : List Instr) (h : s.wf = true) : State.wf { s with pending := q } = true := h

/-- Settles O6: an idle cycle and every command keep a sound state sound, which the frame of each says. -/
theorem stepKeepsStatesSound : Obligations.StepKeepsStatesSound := by
  unfold Obligations.StepKeepsStatesSound
  intro s t hs ht
  cases hq : s.pending with
  | nil =>
    cases (step_of_pending_nil hq).symm.trans ht
    exact (State.fabricRun_within s 1).wf hs
  | cons c rest => exact (exec_within_footprint c _ t ((step_of_pending_cons hq).symm.trans ht)).wf (State.wf_pending rest hs)

end Sys2Proof.Machine

/-! ## Register pages: the state after reset -/

namespace Sys2Proof.Machine

/-- Settles O7: reset lists no octet and no register. -/
theorem resetIsSound : Obligations.ResetIsSound := by
  unfold Obligations.ResetIsSound
  rfl

/-- Reset lists no register: each reads its reset value. -/
theorem State.reset_reg (page idx off : Nat) : State.reset.reg page idx off = regReset page idx off := rfl

/-- A header register has no reset value of its own on any page. -/
theorem specialReset_header {off : Nat} (page idx : Nat) (h : off < 0x100) : specialReset page idx off = none := by
  unfold specialReset
  split
  · omega
  · omega
  · rw [if_neg (by simp only [Bool.and_eq_true, decide_eq_true_eq]; omega)]
  · rfl

/-- Every row of the header resets to 0. -/
theorem headerRegs_reset {d : RegDef} (h : d ∈ headerRegs) : d.reset = 0 := by
  revert d
  decide

/-- A register that the header's table holds resets to 0 on every page, in every set (R45). -/
theorem regReset_header {off : Nat} (page idx : Nat) (h : off < 0x100) (hd : (headerRegs.find? (·.covers off)).isSome = true) :
    regReset page idx off = 0 := by
  obtain ⟨d, hf⟩ := Option.isSome_iff_exists.mp hd
  have hr := headerRegs_reset (List.mem_of_find?_eq_some hf)
  unfold regReset regDef
  simp only [specialReset_header page idx h, hf, hr]
  rfl

/-- Settles O8: the header by its table, the domains by `domReset`, and the rest as the reset state lists it. -/
theorem resetLeavesTheStatedValues : Obligations.ResetLeavesTheStatedValues := by
  unfold Obligations.ResetLeavesTheStatedValues
  refine ⟨?header, ?banks, ?domains, rfl, rfl, ?cores, rfl, rfl, rfl, rfl, rfl⟩
  case header =>
    intro page _ off hoff
    have hrow : ∀ o ∈ [0x008, 0x010, 0x014, 0x020, 0x024, 0x028, 0x02C, 0x030],
        o < 0x100 ∧ (headerRegs.find? (·.covers o)).isSome = true := by decide
    obtain ⟨hlt, hd⟩ := hrow off hoff
    rw [State.reset_reg, regReset_header page 0 hlt hd]
  case banks =>
    intro page _ ini
    unfold State.chsel State.fieldOf
    rw [State.reset_reg, regReset_header page ini.id (by decide) (by decide)]
    rfl
  case domains => decide
  case cores => decide

end Sys2Proof.Machine

/-! ## Register pages: the commands of the header (R52, R54, R57, R68) -/

namespace Sys2Proof.Machine

/-! ### A served write of a header register takes effect, and is answered -/

section
variable {ini : Initiator} {page : Nat} {s : State} (v : Word)

theorem exec_chselWrite_served (hg : s.gate ini page 0x080 true = .serve) :
    exec (.chselWrite ini page v) s = .next ((s.chselWrite ini page v).setReply ini 0 false) :=
  congrArg _ (pageWrite_header s ini page 0x080 v _ hg rfl)

theorem exec_intClear_served (events : Word) (hg : s.gate ini page 0x010 true = .serve) :
    exec (.intClear ini page v events) s = .next ((s.intClear page v events).setReply ini 0 false) :=
  congrArg _ (pageWrite_header s ini page 0x010 v _ hg rfl)

theorem exec_intSet_served (hg : s.gate ini page 0x01C true = .serve) :
    exec (.intSet ini page v) s = .next ((s.intSet page v).setReply ini 0 false) :=
  congrArg _ (pageWrite_header s ini page 0x01C v _ hg rfl)

theorem exec_intEnWrite_served (hg : s.gate ini page 0x014 true = .serve) :
    exec (.intEnWrite ini page v) s = .next ((s.intEnWrite page v).setReply ini 0 false) :=
  congrArg _ (pageWrite_header s ini page 0x014 v _ hg rfl)

theorem exec_errClear_served (hg : s.gate ini page 0x020 true = .serve) :
    exec (.errClear ini page v) s = .next ((s.errClear page v).setReply ini 0 false) :=
  congrArg _ (pageWrite_header s ini page 0x020 v _ hg rfl)

/-- LOCK writes the word with its key and with LOCKED 1. -/
theorem exec_pageLock_served (hg : s.gate ini page 0x030 true = .serve) :
    exec (.pageLock ini page v) s =
      .next ((s.lockWrite ini page (setBit (setBits v 15 8 0x5A) 0 true)).setReply ini 0 false) :=
  congrArg _ (pageWrite_header s ini page 0x030 _ _ hg rfl)

theorem exec_pageUnlock_served (hg : s.gate ini page 0x030 true = .serve) :
    exec (.pageUnlock ini page v) s =
      .next ((s.lockWrite ini page (setBit (setBits v 15 8 0xA5) 0 false)).setReply ini 0 false) :=
  congrArg _ (pageWrite_header s ini page 0x030 _ _ hg rfl)

end

/-! ### CHSEL and INT_SET -/

theorem State.chselWrite_selects {s : State} {page : Nat} {v : Word} (ini : Initiator) (h : bits v 9 0 < s.chcount page) :
    s.chselWrite ini page v = s.setReg page ini.id 0x080 (word (bits v 9 0)) := by
  unfold State.chselWrite
  dsimp only
  rw [if_neg (Nat.not_le.mpr h)]

/-- Outside its entry window a domain takes the bits that INT_SET sets. -/
theorem State.intSet_settled {s : State} {page : Nat} (mask : Word) (h : (s.dom (s.domainOf page 0)).phase = .none) :
    s.intSet page mask = s.setReg page 0 0x010 (s.reg page 0 0x010 ||| mask) := by
  unfold State.intSet
  simp only [h, reduceCtorEq, or_self, if_false]
  rfl

/-! ### LOCK -/

/-- The key, LOCKED and PERM of the word that LOCK and UNLOCK write. -/
theorem lockWord_fields (v : Word) (key : Nat) (b : Bool) (hkey : key < 256) :
    bits (setBit (setBits v 15 8 key) 0 b) 15 8 = key ∧ bit (setBit (setBits v 15 8 key) 0 b) 0 = b ∧
      bit (setBit (setBits v 15 8 key) 0 b) 1 = bit v 1 := by
  refine ⟨?_, bit_setBit _ _ _ (by decide), ?_⟩
  · rw [bits_setBit_ne _ _ _ _ _ (by decide) (by decide), bits_setBits _ _ _ _ (by decide)]
    exact Nat.mod_eq_of_lt hkey
  · rw [bit_setBit_ne _ _ _ _ (by decide) (by decide), bit_setBits_ne _ _ _ _ _ (by decide) (by decide)]

theorem State.lockWrite_takes {s : State} {page : Nat} (ini : Initiator) {v : Word} (hkey : bits v 15 8 = 0x5A)
    (hb : bit v 0 = true) (hl : s.locked page = false) :
    s.lockWrite ini page v = s.setReg page 0 0x030 (word (ini.id * 0x1000000 + (bit v 1).toNat * 2 + 1)) := by
  unfold State.lockWrite
  simp only [hkey, hb, hl, and_self, if_true, Bool.false_eq_true, if_false]

/-- A lock that is not permanent is released by its owner and by SEC. -/
theorem State.lockWrite_releases {s : State} {page : Nat} {ini : Initiator} {v : Word} (hkey : bits v 15 8 = 0xA5)
    (hb : bit v 0 = false) (hl : s.locked page = true) (hperm : bit (s.reg page 0 0x030) 1 = false)
    (ho : bits (s.reg page 0 0x030) 26 24 = ini.id ∨ ini = .sec) :
    s.lockWrite ini page v = s.setReg page 0 0x030 (setBit (s.reg page 0 0x030) 0 false) := by
  unfold State.lockWrite
  simp only [hkey, hb, hl, hperm, ho, Nat.reduceEqDiff, Bool.false_eq_true, Bool.not_false, and_self, if_true, if_false]

/-- Settles O10: each command is the write of its header register, which its page serves. -/
theorem headerCommandsComplete : Obligations.HeaderCommandsComplete := by
  unfold Obligations.HeaderCommandsComplete
  refine ⟨?select, ?clear, ?set, ?enable, ?error, ?lock, ?unlock⟩
  case select =>
    intro ini page v s hg h
    rw [exec_chselWrite_served v hg, State.chselWrite_selects ini h]
  case clear => exact fun ini page mask events s hg => exec_intClear_served mask events hg
  case set =>
    intro ini page mask s hg h
    rw [exec_intSet_served mask hg, State.intSet_settled mask h]
  case enable => exact fun ini page v s hg => exec_intEnWrite_served v hg
  case error => exact fun ini page v s hg => exec_errClear_served v hg
  case lock =>
    intro ini page v s hg hl
    obtain ⟨hkey, hb, hperm⟩ := lockWord_fields v 0x5A true (by decide)
    rw [exec_pageLock_served v hg, State.lockWrite_takes ini hkey hb hl, hperm]
  case unlock =>
    intro ini page v s hg hl hperm ho
    obtain ⟨hkey, hb, -⟩ := lockWord_fields v 0xA5 false (by decide)
    rw [exec_pageUnlock_served v hg, State.lockWrite_releases hkey hb hl hperm ho]

end Sys2Proof.Machine

/-! ## Register pages: the error record (R54) -/

namespace Sys2Proof.Machine

theorem satInc_eq_min (n v : Nat) : satInc n v = min (2 ^ n - 1) (v + 1) := by
  unfold satInc
  split <;> omega

/-- The fields of ERR_CODE after an error: CODE, COUNT, and nothing else. -/
theorem raise_code_bits (s : State) (page : Nat) (ini : Initiator) (off detail code : Nat) (h : s.wf = true) (hc : code < 256) :
    let w := (s.raise page ini off detail code).reg page 0 0x020
    bits w 7 0 = code ∧ bits w 23 16 = min 255 (bits (s.reg page 0 0x020) 23 16 + 1) ∧ bits w 15 8 = 0 ∧ bits w 31 24 = 0 := by
  have hn : satInc 8 (bits (s.reg page 0 0x020) 23 16) = min 255 (bits (s.reg page 0 0x020) 23 16 + 1) := satInc_eq_min 8 _
  have hle : min 255 (bits (s.reg page 0 0x020) 23 16 + 1) ≤ 255 := Nat.min_le_left _ _
  dsimp only
  rw [raise_code _ _ _ _ _ _ h, hn]
  generalize min 255 (bits (s.reg page 0 0x020) 23 16 + 1) = count at hle ⊢
  have hw : count * 0x10000 + code < 4294967296 := by omega
  simp only [bits_word _ _ _ hw]
  omega

/-- The fields of ERR_INFO after an error: the initiator, the offset and the DETAIL. -/
theorem raise_info_fields (s : State) (page : Nat) (ini : Initiator) (off detail code : Nat) (h : s.wf = true) :
    let w := (s.raise page ini off detail code).reg page 0 0x024
    bits w 31 29 = ini.id ∧ bits w 27 16 = off % 0x1000 ∧ bits w 15 0 = detail % 0x10000 := by
  have hi := Initiator_id_lt ini
  have hw : ini.id * 0x20000000 + off % 0x1000 * 0x10000 + detail % 0x10000 < 4294967296 := by omega
  dsimp only
  rw [raise_info _ _ _ _ _ _ h]
  simp only [bits_word _ _ _ hw]
  omega

/-- A write of all ones clears every bit of ERR_CODE. -/
theorem State.errClear_ones {s : State} (page : Nat) (h : s.wf = true) : (s.errClear page 0xFFFFFFFF).reg page 0 0x020 = 0 := by
  unfold State.errClear
  rw [State.reg_setReg _ _ _ _ _ (State.wf_regs h)]
  exact BitVec.and_zero

/-- Settles O45: the two registers of the record, and what the clear leaves of the first. -/
theorem errorsAreRecorded : Obligations.ErrorsAreRecorded := by
  unfold Obligations.ErrorsAreRecorded
  refine ⟨?record, ?clear⟩
  case record =>
    intro s page ini off detail code h hc t
    obtain ⟨hcode, hcount, hlow, hhigh⟩ := raise_code_bits s page ini off detail code h hc
    obtain ⟨hini, hoff, hdetail⟩ := raise_info_fields s page ini off detail code h
    exact ⟨hcode, hcount, hlow, hhigh, hini, hoff, hdetail⟩
  case clear =>
    intro s page ini h hg
    refine ⟨_, exec_errClear_served 0xFFFFFFFF hg, ?_⟩
    have hz : ((s.errClear page 0xFFFFFFFF).setReply ini 0 false).reg page 0 0x020 = 0 := State.errClear_ones page h
    rw [hz]
    exact ⟨rfl, rfl⟩

end Sys2Proof.Machine

/-! ## Register pages: how a page answers by the state of its domain (R41, R42, R74, R456) -/

namespace Sys2Proof.Machine

/-! ### The gate -/

/-- An initiator that a page lets in is answered by the domain of the set it names, and at once where it names none. -/
theorem State.gate_permitted {s : State} {ini : Initiator} {page off : Nat} {w : Bool} (hl : pageListed page = true)
    (hp : pagePresent s.variant page = true) (hm : permitted ini page off w = true) (hdbg : ini = .debug → s.debugBus = true) :
    let d := s.domainOf page (s.setIndex page ini off)
    s.gate ini page off w =
      if isHeader off || s.staleSet ini page off then .serve
      else if !domPresent s.variant d then .absent
      else if s.ready d then .serve
      else if s.domOn d then .stall d
      else if (s.dom d).phase = .none ∧ (s.dom d).st ≠ .on ∧ s.dreq d = 3 then .held
      else .stall d := by
  have hbus : (ini == .debug && !s.debugBus) = false := by
    by_cases h : ini = .debug
    · simp [hdbg h]
    · simp [h]
  unfold State.gate
  simp only [hl, hp, hm, hbus, Bool.not_true, Bool.or_self, Bool.false_eq_true, if_false]

section
variable {s : State} {ini : Initiator} {page off : Nat} {w : Bool} (hl : pageListed page = true)
  (hp : pagePresent s.variant page = true) (hm : permitted ini page off w = true) (hdbg : ini = .debug → s.debugBus = true)
include hl hp hm hdbg

/-- The header is always served, and so is a window through a bank that names no set. -/
theorem State.gate_open (h : isHeader off = true ∨ s.staleSet ini page off = true) : s.gate ini page off w = .serve := by
  rw [State.gate_permitted hl hp hm hdbg, if_pos (Bool.or_eq_true_iff.mpr h)]

variable (hh : isHeader off = false) (hs : s.staleSet ini page off = false) {d : Nat}
  (hset : s.domainOf page (s.setIndex page ini off) = d) (hd : domPresent s.variant d = true) (hr : s.ready d = false)
include hh hs hset hd hr

/-- A domain held OFF. -/
theorem State.gate_held (hon : s.domOn d = false) (hheld : (s.dom d).phase = .none ∧ (s.dom d).st ≠ .on ∧ s.dreq d = 3) :
    s.gate ini page off w = .held := by
  rw [State.gate_permitted hl hp hm hdbg]
  simp only [hh, hs, hset, hd, hr, hon, Bool.or_self, Bool.not_true, Bool.false_eq_true, if_false]
  rw [if_pos hheld]

/-- A domain that neither serves nor is held OFF. -/
theorem State.gate_stall (hwait : s.domOn d = true ∨ (s.dom d).phase ≠ .none ∨ (s.dom d).st = .on ∨ s.dreq d ≠ 3) :
    s.gate ini page off w = .stall d := by
  rw [State.gate_permitted hl hp hm hdbg]
  simp only [hh, hs, hset, hd, hr, Bool.or_self, Bool.not_true, Bool.false_eq_true, if_false]
  split
  · rfl
  · next hon =>
    rw [if_neg]
    rintro ⟨hphase, hst, hreq⟩
    rcases hwait with h | h | h | h
    · exact hon h
    · exact h hphase
    · exact hst h
    · exact h hreq

end

/-! ### The answers -/

section
variable {s : State} {ini : Initiator} {page off : Nat} (hp : page < 256) (ho : off < 0x1000) (h4 : off % 4 = 0)
include hp ho h4

/-- The write command of a page's register is that page's answer. -/
theorem exec_registerWrite_page (v : Word) :
    exec (.registerWrite ini (word (pageAddr page off)) 4 v []) s =
      .next (State.deliver ⟨ini, true, word (pageAddr page off), 4, v⟩
        (s.pageAccess ini page off true (fun u => (0, u.regWrite ini page off v)))) := by
  rw [exec_registerWrite, State.applyFlips_nil, pageAddr_toNat hp ho,
    busWrite_page _ _ _ _ (pageAddr_is hp ho) (pageAddr_al h4), pageAddr_page ho, pageAddr_off ho]

theorem exec_rcFieldRead_page :
    exec (.rcFieldRead ini (word (pageAddr page off)) 4 []) s =
      .next (State.deliver ⟨ini, false, word (pageAddr page off), 4, 0⟩
        (s.pageAccess ini page off false (fun u => u.regRead ini page off))) := by
  rw [exec_rcFieldRead, State.applyFlips_nil, pageAddr_toNat hp ho,
    busRead_page _ _ _ (pageAddr_is hp ho) (pageAddr_al h4), pageAddr_page ho, pageAddr_off ho]

end

theorem State.pageAccess_held {s : State} {ini : Initiator} {page off : Nat} {w : Bool} (eff : State → Word × State)
    (hg : s.gate ini page off w = .held) :
    s.pageAccess ini page off w eff = (s.raise page ini off (s.setIndex page ini off) Err.domainHeld, .ok 0) := by
  unfold State.pageAccess
  rw [hg]

theorem State.pageAccess_stall {s : State} {ini : Initiator} {page off d : Nat} {w : Bool} (eff : State → Word × State)
    (hg : s.gate ini page off w = .stall d) : s.pageAccess ini page off w eff = (s.wake d, .stall d) := by
  unfold State.pageAccess
  rw [hg]

/-- An access that meets a stall waits behind the others, changes no register and no octet, and asks for the wake of a domain
that is not ON. -/
theorem State.deliver_stall (s : State) (a : Access) {d : Nat} (hd : domPresent s.variant d = true) :
    let t := State.deliver a (s.wake d, .stall d)
    t.stalls = s.stalls ++ [a] ∧ t.regs = s.regs ∧ t.mem = s.mem ∧ (s.domOn d = false → (t.dom d).wakeReq = true) := by
  obtain ⟨hregs, hmem, hstalls⟩ := wake_regs s d
  obtain ⟨hregs', hmem', -⟩ := wake_regs (s.wake d) d
  exact ⟨congrArg (· ++ [a]) hstalls, hregs'.trans hregs, hmem'.trans hmem,
    fun hon => wake_keeps _ _ _ (wake_asks s d hd hon)⟩

/-- Settles O50: the gate's answer, and what the fabric does on it. -/
theorem accessesFollowTheDomain : Obligations.AccessesFollowTheDomain := by
  unfold Obligations.AccessesFollowTheDomain
  intro ini page off v s hp ho h4 hl hpres hm hdbg idx d a
  refine ⟨fun h => ⟨State.gate_open hl hpres (hm true) hdbg h, State.gate_open hl hpres (hm false) hdbg h⟩, ?_⟩
  intro hh hs hd hr
  refine ⟨?held, ?waits⟩
  case held =>
    rintro ⟨hon, hheld⟩
    have hg : ∀ w, s.gate ini page off w = .held := fun w => State.gate_held hl hpres (hm w) hdbg hh hs rfl hd hr hon hheld
    rw [exec_registerWrite_page hp ho h4, exec_rcFieldRead_page hp ho h4, State.pageAccess_held _ (hg true),
      State.pageAccess_held _ (hg false), State.deliver_ok, State.deliver_ok]
    exact ⟨rfl, rfl⟩
  case waits =>
    intro hwait
    have hg : ∀ w, s.gate ini page off w = .stall d := fun w => State.gate_stall hl hpres (hm w) hdbg hh hs rfl hd hr hwait
    rw [exec_registerWrite_page hp ho h4, exec_rcFieldRead_page hp ho h4, State.pageAccess_stall _ (hg true),
      State.pageAccess_stall _ (hg false)]
    exact ⟨⟨_, rfl, s.deliver_stall _ hd⟩, ⟨_, rfl, s.deliver_stall _ hd⟩⟩

end Sys2Proof.Machine

/-! ## Register pages: what a write of SRAM or AON SRAM leaves in memory (R38, R39) -/

namespace Sys2Proof.Machine

/-- An address of SRAM or of AON SRAM. -/
def IsSramAddr (a : Nat) : Prop := (0x10000000 ≤ a ∧ a < 0x10200000) ∨ (0x18000000 ≤ a ∧ a < 0x18002000)

/-- Such an address is no page's, in no window of Palette, and in neither ROM nor flash. -/
theorem IsSramAddr.elsewhere {a : Nat} (h : IsSramAddr a) :
    isPageAddr a = false ∧ isPalAddr a = false ∧ regionOf a ≠ .rom ∧ regionOf a ≠ .flash := by
  unfold IsSramAddr at h
  have hreg : regionOf a = .sram ((a - 0x10000000) / 0x20000) ∨ regionOf a = .aon := by
    unfold regionOf
    rcases h with h | h
    · rw [if_neg (by omega), if_neg (by omega), if_pos (by omega)]
      exact .inl rfl
    · rw [if_neg (by omega), if_neg (by omega), if_neg (by omega), if_pos (by omega)]
      exact .inr rfl
  refine ⟨?_, ?_, ?_, ?_⟩
  · simp only [isPageAddr, Bool.and_eq_false_iff, decide_eq_false_iff_not]
    omega
  · simp only [isPalAddr, Bool.and_eq_false_iff, decide_eq_false_iff_not]
    omega
  · rcases hreg with h | h <;> simp [h]
  · rcases hreg with h | h <;> simp [h]

/-- The idle timer of a domain is no part of memory. -/
theorem State.touch_memOctet (s : State) (d x : Nat) : (s.touch d).memOctet x = s.memOctet x := by
  unfold State.touch
  split <;> rfl

/-- Octets written one after the other read as written, and every other octet of memory as before. -/
theorem State.memOctet_putEach (bs : List Byte) (a j : Nat) (s : State) (h : s.wf = true)
    (ha : ∀ k, k < bs.length → IsSramAddr (a + (j + k))) :
    let t := (bs.zipIdx j).foldl (fun u p => u.putOctet (a + p.2) p.1) s
    (∀ k (hk : k < bs.length), t.memOctet (a + (j + k)) = bs[k]) ∧
      (∀ x, x < a + j ∨ a + (j + bs.length) ≤ x → t.memOctet x = s.memOctet x) := by
  induction bs generalizing j s with
  | nil => exact ⟨fun k hk => absurd hk (Nat.not_lt_zero k), fun _ _ => rfl⟩
  | cons b bs ih =>
    obtain ⟨hput, hother, hwf⟩ := State.memOctet_putOctet s (a + j) b h (ha 0 (Nat.succ_pos _))
    obtain ⟨hin, hout⟩ := ih (j + 1) _ hwf (fun k hk => by
      have hk' := ha (k + 1) (Nat.succ_lt_succ hk)
      rwa [show j + (k + 1) = j + 1 + k by omega] at hk')
    simp only [List.zipIdx_cons, List.foldl_cons, List.length_cons]
    refine ⟨fun k hk => ?_, fun x hx => ?_⟩
    · cases k with
      | zero => exact (hout _ (.inl (by omega))).trans hput
      | succ k =>
        have hk' := hin k (Nat.lt_of_succ_lt_succ hk)
        rwa [show j + 1 + k = j + (k + 1) by omega] at hk'
    · exact (hout x (by omega)).trans (hother x (by omega))

/-- Below the DRAM window octets are written one after the other, once the idle timer of the bank is restarted. -/
theorem State.putOctets_each {a : Nat} {s : State} (bs : List Byte) (h : s.wf = true) (hlow : a < 0x80000000) :
    ∃ u : State, u.wf = true ∧ (∀ x, u.memOctet x = s.memOctet x) ∧
      (s.putOctets a bs).1 = bs.zipIdx.foldl (fun u p => u.putOctet (a + p.2) p.1) u := by
  unfold State.putOctets
  rw [if_neg (Nat.not_le.mpr hlow)]
  dsimp only
  split
  · exact ⟨_, (State.touch_within ..).wf h, fun x => s.touch_memOctet _ x, rfl⟩
  · exact ⟨s, h, fun _ => rfl, rfl⟩

/-- The octets of one access of SRAM or AON SRAM read as written, and every other octet of memory as before. -/
theorem State.memOctet_putOctets {bs : List Byte} {a : Nat} {s : State} (h : s.wf = true) (hlow : a < 0x80000000)
    (ha : ∀ k, k < bs.length → IsSramAddr (a + k)) :
    (∀ k (hk : k < bs.length), (s.putOctets a bs).1.memOctet (a + k) = bs[k]) ∧
      (∀ x, x < a ∨ a + bs.length ≤ x → (s.putOctets a bs).1.memOctet x = s.memOctet x) := by
  obtain ⟨u, hu, hsame, he⟩ := State.putOctets_each bs h hlow
  obtain ⟨hin, hout⟩ := State.memOctet_putEach bs a 0 u hu (fun k hk => by simpa using ha k hk)
  simp only [Nat.zero_add, Nat.add_zero] at hin hout
  rw [he]
  exact ⟨hin, fun x hx => (hout x hx).trans (hsame x)⟩

/-- Octet `k` of a word, in little-endian order. -/
theorem bytesOfWord_getElem (v : Word) {n k : Nat} (hk : k < ((bytesOfWord v).take n).length) :
    ((bytesOfWord v).take n)[k] = (v >>> (8 * k)).setWidth 8 := by
  have h4 : k < 4 := Nat.lt_of_lt_of_le hk (List.length_take_le' n (bytesOfWord v))
  rw [List.getElem_take]
  match k, h4 with
  | 0, _ => simp [bytesOfWord]
  | 1, _ => rfl
  | 2, _ => rfl
  | 3, _ => rfl

/-- Settles O51: the access reaches one memory, whose octets are written one after the other. -/
theorem memoryWritesSetTheirOctets : Obligations.MemoryWritesSetTheirOctets := by
  unfold Obligations.MemoryWritesSetTheirOctets
  intro ini addr v n s hwf a hn hrange hm hready
  have hlen : ((bytesOfWord v).take n).length = n := List.length_take_of_le hn
  have hpos : 0 < n := by
    refine Nat.pos_of_ne_zero fun h0 => ?_
    unfold State.memRefused at hm
    simp [h0] at hm
  have hsram : ∀ k, k < n → IsSramAddr (a + k) := fun k hk => by
    unfold IsSramAddr
    omega
  obtain ⟨hpage, hpal, hrom, hfl⟩ := IsSramAddr.elsewhere (a := a) (hsram 0 hpos)
  obtain ⟨hin, hout⟩ := State.memOctet_putOctets (bs := (bytesOfWord v).take n) hwf (a := a) (by omega)
    (fun k hk => hsram k (hlen ▸ hk))
  refine ⟨_, by rw [exec_registerWrite, State.applyFlips_nil, busWrite_memory hpage hpal hm hrom hfl (hlen.symm ▸ hready),
    State.deliver_ok], fun k hk => ?_, fun x hx => ?_⟩
  · have hk' : k < ((bytesOfWord v).take n).length := hlen.symm ▸ hk
    exact (hin k hk').trans (bytesOfWord_getElem v hk')
  · exact hout x (hlen.symm ▸ hx)

end Sys2Proof.Machine

/-! ## Register pages: staged configuration (R61, R63, R64, R65) -/

namespace Sys2Proof.Machine

/-! ### Staged writes -/

theorem exec_stagedWrite_served {ini : Initiator} {page off : Nat} {v : Word} {s : State} {d : RegDef}
    (hg : s.gate ini page off true = .serve) (hd : regDef page off = some d) (hst : d.staged = true) :
    exec (.stagedWrite ini page off v) s = .next (((s.accessed ini page off).regWrite ini page off v).setReply ini 0 false) := by
  change execStagedWrite ini page off v s = _
  unfold execStagedWrite
  simp only [hd, hst, if_true]
  rw [pageWrite_served _ _ _ _ _ _ hg]

/-- A write of a staged register of LNK that breaks none of the page's own bounds is staged as on any other page (R198, R217). -/
theorem State.lnkStaged_inRange (s : State) (ini : Initiator) {off : Nat} {v : Word}
    (hcfg : off = 0x10C → bits v 18 16 ≠ 4 ∧ bits v 8 0 ≤ 255) (hper : off = 0x110 → 2 ≤ bits v 31 16)
    (hmark : off = 0x80C → (bits v 4 0 = 0 ∨ 8 ≤ bits v 4 0) ∧ bits v 4 0 ≤ 24)
    (hlisten : off = 0x818 → bit v 31 = true → 160 ≤ bits v 15 0) :
    s.lnkStaged ini off v = s.stageWrite ini Pg.lnk off v := by
  have h1 : ¬(off = 0x10C ∧ (bits v 18 16 = 4 ∨ 255 < bits v 8 0)) := fun ⟨ho, h⟩ => by
    obtain ⟨h4, h255⟩ := hcfg ho
    omega
  have h2 : ¬(off = 0x110 ∧ bits v 31 16 < 2) := fun ⟨ho, h⟩ => Nat.not_lt.mpr (hper ho) h
  have h3 : ¬(off = 0x80C ∧ ((1 ≤ bits v 4 0 ∧ bits v 4 0 ≤ 7) ∨ 25 ≤ bits v 4 0)) := fun ⟨ho, h⟩ => by
    obtain ⟨h0, h24⟩ := hmark ho
    omega
  have h4 : ¬(off = 0x818 ∧ bit v 31 = true ∧ bits v 15 0 < 160) := fun ⟨ho, hb, h⟩ => Nat.not_lt.mpr (hlisten ho hb) h
  unfold State.lnkStaged
  simp only [if_neg h1, if_neg h2, if_neg h3, if_neg h4, Bool.false_and, Bool.false_eq_true, if_false]

section
variable {u : State} {ini : Initiator} {page off : Nat} {v : Word} {d : RegDef}

/-- The writer's staged set takes the written fields; a field outside its range raises RANGE. -/
theorem State.stageWrite_takes (hd : regDef page off = some d) (hl : u.locked page = false)
    (hc : u.claim page = none ∨ u.claim page = some ini) (hp : u.commitPend page = false)
    (hw : d.whole = true → outOfRange d v = false) :
    u.stageWrite ini page off v =
      let idx := u.setIndex page ini off
      let w := { u.setClaim page (some ini) with
        staged := Sparse.insert u.staged (regKey page idx off) (writeValue d (u.stagedReg page idx off) v) }
      if outOfRange d v then w.raise page ini off idx Err.range else w := by
  have hclaim : ¬(u.claim page ≠ none ∧ u.claim page ≠ some ini) := fun ⟨hn, hs⟩ => hc.elim hn hs
  have hwhole : (d.whole && outOfRange d v) = false := by
    cases h : d.whole with
    | false => rfl
    | true => exact hw h
  unfold State.stageWrite
  simp only [hd, hl, if_neg hclaim, hp, hwhole, Bool.false_eq_true, if_false]
  rfl

/-- A staged register without an effect of its own stages the write, on LNK within that page's bounds. -/
theorem State.regWrite_staged (hh : isHeader off = false) (hd : regDef page off = some d) (hst : d.staged = true)
    (hn : u.noSet page (u.setIndex page ini off) off = false) (hb : u.blockWrite ini page (u.setIndex page ini off) off v = none)
    (hlnk : page = Pg.lnk → u.lnkStaged ini off v = u.stageWrite ini Pg.lnk off v) :
    u.regWrite ini page off v = u.stageWrite ini page off v := by
  unfold State.regWrite
  simp only [hh, hn, hb, hd, hst, Bool.false_eq_true, if_false, if_true]
  split
  · next h => rw [h, hlnk h]
  · rfl

end

/-! ### Commit and discard -/

theorem exec_cfgCommit_served {ini : Initiator} {page : Nat} {s : State} (v : Word) (hg : s.gate ini page 0x028 true = .serve) :
    exec (.cfgCommit ini page v) s =
      .next ((s.cfgWrite ini page (setBit (setBit v 0 true) 2 false)).setReply ini 0 false) :=
  congrArg _ (pageWrite_header s ini page 0x028 _ _ hg rfl)

theorem exec_cfgDiscard_served {ini : Initiator} {page : Nat} {s : State} (v : Word) (hg : s.gate ini page 0x028 true = .serve) :
    exec (.cfgDiscard ini page v) s =
      .next ((s.cfgWrite ini page (setBit (setBit v 0 false) 2 true)).setReply ini 0 false) :=
  congrArg _ (pageWrite_header s ini page 0x028 _ _ hg rfl)

/-- GO and DISCARD as COMMIT and DISCARD write them, and the other fields of the written word. -/
theorem commitWord_fields (v : Word) (go dis : Bool) :
    let w := setBit (setBit v 0 go) 2 dis
    bit w 0 = go ∧ bit w 2 = dis ∧ bit w 3 = bit v 3 ∧ bit w 4 = bit v 4 ∧ bits w 23 8 = bits v 23 8 := by
  refine ⟨?_, bit_setBit _ _ _ (by decide), ?_, ?_, ?_⟩
  · rw [bit_setBit_ne _ _ _ _ (by decide) (by decide), bit_setBit _ _ _ (by decide)]
  · rw [bit_setBit_ne _ _ _ _ (by decide) (by decide), bit_setBit_ne _ _ _ _ (by decide) (by decide)]
  · rw [bit_setBit_ne _ _ _ _ (by decide) (by decide), bit_setBit_ne _ _ _ _ (by decide) (by decide)]
  · rw [bits_setBit_ne _ _ _ _ _ (by decide) (by decide), bits_setBit_ne _ _ _ _ _ (by decide) (by decide)]

section
variable {s : State} {ini : Initiator} {page : Nat} {v : Word}

theorem State.cfgWrite_go (hl : s.locked page = false) (hgo : bit v 0 = true) (hdis : bit v 2 = false) :
    s.cfgWrite ini page v = s.commit ini page v (s.agreement ini page (bit v 3)) := by
  unfold State.cfgWrite State.commitWrite
  simp only [hl, hgo, hdis, Bool.and_false, Bool.false_eq_true, if_false, if_true]

theorem State.cfgWrite_discard (hl : s.locked page = false) (hgo : bit v 0 = false) (hdis : bit v 2 = true) :
    s.cfgWrite ini page v = s.discard ini page v := by
  unfold State.cfgWrite State.commitWrite
  simp only [hl, hgo, hdis, Bool.false_and, Bool.false_eq_true, if_false, if_true]

/-- A commit that passes every check pends. -/
theorem State.commit_accepted (hl : s.locked page = false) (hc : s.claim page = none ∨ s.claim page = some ini)
    (hp : s.commitPend page = false) (hgen : bit v 4 = true → bits v 23 8 = bits (s.reg page 0 0x02C) 15 0)
    (hset : s.namesSet page (s.chsel page ini) (bit v 3) = true) :
    s.commit ini page v none = { s.setReg page 0 0x028 0x80000000 with
      commits := s.commits ++ [⟨page, ini, bit v 3, s.chsel page ini⟩] } := by
  have hclaim : ¬(s.claim page ≠ none ∧ s.claim page ≠ some ini) := fun ⟨hn, hs⟩ => hc.elim hn hs
  have hmatch : ¬(bit v 4 = true ∧ bits v 23 8 ≠ bits (s.reg page 0 0x02C) 15 0) := fun ⟨hb, hne⟩ => hne (hgen hb)
  unfold State.commit
  simp only [hl, if_neg hclaim, hp, if_neg hmatch, hset, Bool.not_true, Bool.false_eq_true, if_false]

/-- The holder of the claim, DEBUG, and anyone where nobody holds it, discards the named sets. -/
theorem State.discard_named (hc : s.claim page = none ∨ s.claim page = some ini ∨ ini = .debug) (hp : s.commitPend page = false) :
    s.discard ini page v = State.releaseClaim { s with
      staged := Sparse.keep (fun k => !(namedBy page (s.chsel page ini) (bit v 3) k)) s.staged } page := by
  have hclaim : ¬(s.claim page ≠ none ∧ s.claim page ≠ some ini ∧ ini ≠ .debug) := fun ⟨hn, hs, hd⟩ =>
    hc.elim hn (fun h => h.elim hs hd)
  unfold State.discard
  simp only [if_neg hclaim, hp, Bool.false_eq_true, if_false]

end

/-! ### Switch points (R64) -/

theorem State.commitOf_page {s : State} {page : Nat} {c : Commit} (h : s.commitOf page = some c) : c.page = page := by
  unfold State.commitOf at h
  simpa using List.find?_some h

/-- The switch point of an accepted commit, in a domain that is ready. -/
theorem exec_commitSwitch_ready {page : Nat} {s : State} {c : Commit} (m : Nat) (hc : s.commitOf page = some c)
    (hr : s.ready (s.domainOf page c.index) = true) : exec (.commitSwitch page m) s = .next (s.pageSwitch c m) := by
  change execCommitSwitch page m s = _
  unfold execCommitSwitch
  simp only [hc, hr, or_true, if_true]

section
variable {s : State} {c : Commit} (m : Nat)

/-- Flume and the cascade switch at once. -/
theorem State.pageSwitch_atOnce (h : c.page = Pg.flm ∨ c.page = Pg.cas) : s.pageSwitch c m = s.switchCommit c := by
  unfold State.pageSwitch
  rcases h with h | h <;> simp only [h]

/-- ETH switches where it is disabled, or its MAC sends nothing. -/
theorem State.pageSwitch_eth (hp : c.page = Pg.eth) (h : s.enabled Pg.eth = false ∨ s.eth.tx = none) :
    s.pageSwitch c m = s.switchCommit c := by
  unfold State.pageSwitch
  rcases h with h | h <;> simp [hp, h]

/-- TXA switches where it is disabled, or is quiet and holds nothing. -/
theorem State.pageSwitch_txa (hp : c.page = Pg.txa) (h : s.enabled Pg.txa = false ∨ (s.txaQuiet = true ∧ s.txa.st ≠ .hold)) :
    s.pageSwitch c m = s.switchCommit c := by
  unfold State.pageSwitch
  rcases h with h | ⟨hq, hst⟩
  · simp [hp, h]
  · simp [hp, hq, hst]

end

/-- Settles O11: the checks of each command pass, one after the other. -/
theorem stagingCommandsComplete : Obligations.StagingCommandsComplete := by
  unfold Obligations.StagingCommandsComplete
  refine ⟨?stage, ?commit, ?discard, ?switch⟩
  case stage =>
    intro ini page off v s d hh hg hd hst u idx hn hb hl hc hp hw hlnk
    have hbounds : page = Pg.lnk → u.lnkStaged ini off v = u.stageWrite ini Pg.lnk off v := fun h => by
      obtain ⟨hcfg, hper, hmark, hlisten⟩ := hlnk h
      exact u.lnkStaged_inRange ini hcfg hper hmark hlisten
    rw [exec_stagedWrite_served hg hd hst, State.regWrite_staged hh hd hst hn hb hbounds, State.stageWrite_takes hd hl hc hp hw]
  case commit =>
    intro ini page v s hg hl hc hp hgen hset hagree
    obtain ⟨hgo, hdis, hall, hmatch, hexp⟩ := commitWord_fields v true false
    rw [exec_cfgCommit_served v hg, State.cfgWrite_go hl hgo hdis, hall, hagree,
      State.commit_accepted hl hc hp (by rwa [hmatch, hexp]) (by rwa [hall]), hall]
  case discard =>
    intro ini page v s hg hl hc hp
    obtain ⟨hgo, hdis, hall, -, -⟩ := commitWord_fields v false true
    rw [exec_cfgDiscard_served v hg, State.cfgWrite_discard hl hgo hdis, State.discard_named hc hp, hall]
  case switch =>
    intro page m s c hc hr h
    rw [exec_commitSwitch_ready m hc hr]
    cases State.commitOf_page hc
    rcases h with h | h | ⟨hp, h⟩ | ⟨hp, h⟩
    · rw [State.pageSwitch_atOnce m (.inl h)]
    · rw [State.pageSwitch_atOnce m (.inr h)]
    · rw [State.pageSwitch_eth m hp (hp ▸ h)]
    · rw [State.pageSwitch_txa m hp (hp ▸ h)]

end Sys2Proof.Machine

/-! ## Register pages: block control and the requests of domains (R48, R49, R451) -/

namespace Sys2Proof.Machine

/-! ### The written words -/

/-- A field of one bit is that bit. -/
theorem bits_single (v : Word) : bits v 0 0 = (bit v 0).toNat := by
  unfold bits bit BitVec.getLsbD
  rw [Nat.shiftRight_zero, Nat.testBit_zero]
  rcases Nat.mod_two_eq_zero_or_one v.toNat with h | h <;> simp [h]

/-- The fields of a word for BLK_CTRL: DREQ as it stands, EN as given, and no SRST. -/
theorem blkWord_fields (old : Word) (en : Bool) :
    bits (setBit (old &&& 0x30) 0 en) 5 4 = bits old 5 4 ∧ bit (setBit (old &&& 0x30) 0 en) 0 = en ∧
      bit (setBit (old &&& 0x30) 0 en) 1 = false := by
  refine ⟨?_, bit_setBit _ _ _ (by decide), ?_⟩
  · rw [bits_setBit_ne _ _ _ _ _ (by decide) (by decide), and30_54]
  · rw [bit_setBit_ne _ _ _ _ (by decide) (by decide)]
    simp [bit]

/-- The same with SRST. -/
theorem blkWord_reset_fields (old : Word) (en : Bool) :
    let v := setBit (setBit (old &&& 0x30) 0 en) 1 true
    bits v 5 4 = bits old 5 4 ∧ bit v 0 = en ∧ bit v 1 = true := by
  obtain ⟨hdreq, hen, -⟩ := blkWord_fields old en
  refine ⟨?_, ?_, bit_setBit _ _ _ (by decide)⟩
  · rw [bits_setBit_ne _ _ _ _ _ (by decide) (by decide), hdreq]
  · rw [bit_setBit_ne _ _ _ _ (by decide) (by decide), hen]

/-- A request fills the field of DREQ. -/
theorem dreqWord_masked (n : Nat) : word (n % 4 * 16) &&& 0x30 = word (n % 4 * 16) := by
  have h : ∀ k < 4, word (k * 16) &&& 0x30 = word (k * 16) := by decide
  exact h _ (Nat.mod_lt n (by decide))

theorem dreqWord_bits (n : Nat) : bits (word (n % 4 * 16)) 5 4 = n % 4 := by
  rw [bits_word _ _ _ (by omega)]
  omega

/-! ### BLK_CTRL -/

section
variable {s : State} {ini : Initiator} {page : Nat} {v : Word} (air : List Air)

/-- A write of BLK_CTRL of an unlocked page: DREQ and EN take the written fields, the domain follows a change of its effective
request, and SRST resets. The write does not clear the cascade's EN, which would drop its links. -/
theorem State.blkCtrlWrite_unlocked (hl : s.locked page = false) (hcas : page = Pg.cas → s.enabled page = true → bit v 0 = true) :
    s.blkCtrlWrite ini page v air =
      let d := s.domainOf page (s.chsel page ini)
      let w := (s.setField page (ctrlSet d) 0x008 5 4 (bits v 5 4)).setField page 0 0x008 0 0 (bit v 0).toNat
      let u := if w.dreq d = s.dreq d then w else w.requested d air
      if bit v 1 then u.softReset page air else u := by
  have hlinks : ¬(page = Pg.cas ∧ s.enabled page = true ∧ (!bit v 0) = true) := fun ⟨hp, hen, hb⟩ => by
    simp [hcas hp hen] at hb
  unfold State.blkCtrlWrite
  simp only [hl, if_neg hlinks, bits_single, Bool.false_eq_true, if_false]

/-- On a locked page a write that keeps EN and DREQ resets all the same. -/
theorem State.blkCtrlWrite_locked (hl : s.locked page = true)
    (hdreq : bits v 5 4 = bits (s.reg page (ctrlSet (s.domainOf page (s.chsel page ini))) 0x008) 5 4)
    (hen : bit v 0 = s.enabled page) (hrst : bit v 1 = true) : s.blkCtrlWrite ini page v air = s.softReset page air := by
  unfold State.blkCtrlWrite
  simp only [hl, hdreq, hen, hrst, beq_self_eq_true, Bool.and_self, if_true]

end

section
variable {ini : Initiator} {page : Nat} {s : State} (hg : s.gate ini page 0x008 true = .serve)
include hg

theorem exec_blockEnable_served (en : Bool) :
    exec (.blockEnable ini page en) s = .next ((s.blkCtrlWrite ini page
      (setBit (s.reg page (ctrlSet (s.domainOf page (s.chsel page ini))) 0x008 &&& 0x30) 0 en) []).setReply ini 0 false) :=
  congrArg _ (pageWrite_header s ini page 0x008 0 _ hg rfl)

theorem exec_softReset_served (air : List Air) :
    exec (.softReset ini page air) s = .next ((s.blkCtrlWrite ini page
      (setBit (setBit (s.reg page (ctrlSet (s.domainOf page (s.chsel page ini))) 0x008 &&& 0x30) 0 (s.enabled page)) 1 true)
      air).setReply ini 0 false) :=
  congrArg _ (pageWrite_header s ini page 0x008 0 _ hg rfl)

/-- The request of a page's domain, through that page. -/
theorem exec_domainRequest_page (dreq : Nat) :
    exec (.domainRequest ini page none dreq) s = .next ((s.blkCtrlWrite ini page
      (setBit (word (dreq % 4 * 16) &&& 0x30) 0 (s.enabled page)) []).setReply ini 0 false) := by
  rw [dreqWord_masked]
  exact congrArg _ (pageWrite_header s ini page 0x008 0 _ hg rfl)

end

/-! ### PWR_DM_CTRL -/

theorem exec_domainRequest_window {ini : Initiator} {s : State} (page d dreq : Nat) (hg : s.gate ini Pg.pwr 0x100 true = .serve) :
    exec (.domainRequest ini page (some d) dreq) s =
      .next (((s.accessed ini Pg.pwr 0x100).dmCtrlWrite d (word (dreq % 4 * 16))).setReply ini 0 false) :=
  congrArg _ (pageWrite_served s ini Pg.pwr 0x100 0 _ hg)

theorem State.dmCtrlWrite_present {u : State} {d : Nat} (dreq : Nat) (h : domPresent u.variant d = true) :
    u.dmCtrlWrite d (word (dreq % 4 * 16)) =
      let v := u.setReg Pg.pwr d 0x100 (word (dreq % 4 * 16))
      if v.dreq d = u.dreq d then v else v.requested d [] := by
  unfold State.dmCtrlWrite
  simp only [h, dreqWord_masked, Bool.not_true, Bool.false_eq_true, if_false]

/-- Settles O12: BLK_CTRL by its two laws, with the fields of the word that each command writes. -/
theorem blockControlCompletes : Obligations.BlockControlCompletes := by
  unfold Obligations.BlockControlCompletes
  refine ⟨?enable, ?reset, ?resetLocked, ?window, ?page⟩
  case enable =>
    intro ini page en s h hg hl hcas q
    obtain ⟨hdreq, hen, hrst⟩ := blkWord_fields (s.reg page q 0x008) en
    rw [exec_blockEnable_served hg, State.blkCtrlWrite_unlocked [] hl (fun hp _ => hen.trans (hcas hp))]
    simp only [hdreq, hen, hrst, q, keep_dreq _ _ _ _ h (ctrlSet_lt _), Bool.false_eq_true, if_false, if_true]
  case reset =>
    intro ini page air s h hg hl q u
    obtain ⟨hdreq, hen, hrst⟩ := blkWord_reset_fields (s.reg page q 0x008) (s.enabled page)
    rw [exec_softReset_served hg, State.blkCtrlWrite_unlocked air hl (fun _ he => hen.trans he)]
    simp only [hdreq, hen, hrst, u, q, keep_dreq _ _ _ _ h (ctrlSet_lt _), if_true]
  case resetLocked =>
    intro ini page air s hg hl
    obtain ⟨hdreq, hen, hrst⟩ := blkWord_reset_fields
      (s.reg page (ctrlSet (s.domainOf page (s.chsel page ini))) 0x008) (s.enabled page)
    rw [exec_softReset_served hg, State.blkCtrlWrite_locked air hl hdreq hen hrst]
  case window =>
    intro ini page d dreq s hg hd u v
    have hu : domPresent u.variant d = true := by rw [accessed_variant]; exact hd
    rw [exec_domainRequest_window page d dreq hg, State.dmCtrlWrite_present dreq hu]
  case page =>
    intro ini page dreq s hg hl d v
    obtain ⟨hdreq, hen, hrst⟩ := blkWord_fields (word (dreq % 4 * 16)) (s.enabled page)
    rw [exec_domainRequest_page hg, State.blkCtrlWrite_unlocked [] hl (fun _ he => hen.trans he)]
    simp only [hdreq, dreqWord_bits, hen, hrst, v, d, Bool.false_eq_true, if_false]

end Sys2Proof.Machine

/-! ## The channelizer: the steps of wideband reception -/

namespace Sys2Proof.Machine

/-! ### Claims (R85 to R87, R116) -/

/-- On a channel that searches, the lowest slot that detects claims, where none of those that detect is an M4 slot on a pair. -/
theorem State.detectWide_claims {s : State} {n b rssi : Nat} {bs snr : List Nat} (next : List Nat)
    (hst : (s.chan n).st = .search) (hen : s.enabled Pg.chz = true) (hw : s.wideOn n = true) (hc : s.claimsHeld = false)
    (hd : s.detects n snr = b :: bs) (hpair : ∀ k ∈ b :: bs, s.pairSlot n k = false) :
    s.detectWide n snr next rssi = s.claimWide n b rssi := by
  have hmay (p : Nat → Bool) : (b :: bs).filter (fun k => !s.pairSlot n k || p k) = b :: bs :=
    List.filter_eq_self.mpr fun k hk => by rw [hpair k hk]; rfl
  have hnone : (b :: bs).any (s.pairSlot n) = false := List.any_eq_false.mpr fun k hk => by rw [hpair k hk]; decide
  unfold State.detectWide
  simp only [hst, hen, hw, hc, hd, hmay, hnone, beq_self_eq_true, Bool.not_false, Bool.and_self, Bool.not_true,
    Bool.false_eq_true, if_false]

/-! ### The lane's frame (R85, R98 to R100, R144) -/

section
variable {rx : RxChan} {s : State} {l : Lane} (hlane : RxChan.lane s rx = some l)
include hlane

theorem State.sfdTimeout_claimed (hf : l.frame = false) :
    s.sfdTimeout rx = if l.no = nbLane then s.freeLane l false else (s.freeLane l false).count Pg.chz l.chan 0x11C 15 0 1 := by
  unfold State.sfdTimeout
  simp only [hlane, hf, Bool.false_eq_true, if_false]

/-- A valid PHR of a frame with octets has the Hopper reserve its slots. -/
theorem State.phrDecode_reserves {phr : Phr} (snr10 : Int) (corr : Nat) {len : Nat} {two white : Bool} (hf : l.frame = true)
    (hl : l.len = none) (hphr : phrFields l phr = some (len, two, white)) (hok : lengthOk l len two = true) (h0 : len ≠ 0) :
    s.phrDecode rx phr snr10 corr = s.reserve { l with len := some len, fcs2 := two, white := white } len := by
  unfold State.phrDecode
  simp only [hlane, hf, hl, hphr, hok, h0, Option.isSome_none, Bool.not_true, Bool.false_eq_true, or_self, if_false]

/-- The frame's last octets are taken, and its lane ends it with the verdict of the frame check sequence. -/
theorem State.frameEnd_taken {octets : List Byte} (snr10 : Int) (corr : Nat) {len : Nat} (hl : l.len = some len) :
    let m := { l.take octets with data := padTo len (l.take octets).data }
    s.frameEnd rx octets snr10 corr = (s.toChunks m).endFrame m (fcsOk m.fcs2 m.data) 1 (lqiOf snr10) (fecOf m corr) := by
  unfold State.frameEnd
  simp only [hlane, hl]

end

/-- A lane that holds fewer than two chunks, all of them full, takes the lowest free one for what follows. -/
theorem State.copyChunks_takesChunk {s t : State} {x m : Lane} {k : Nat} {ok : Bool}
    (hspill : (s.toChunks x).spill x x.data.length false = (t, m, ok)) (hfull : 256 * m.chunks.length ≤ m.data.length - m.copied)
    (htwo : m.chunks.length < 2) (hfree : (t.setLane m.no (some m)).freeChunk = some k) :
    s.copyChunks x = (t.setLane m.no (some m)).setLane m.no (some { m with chunks := m.chunks ++ [k] }) := by
  unfold State.copyChunks
  simp only [hspill, hfull, htwo, hfree, if_true]

/-- Settles O18: each clause is the arm of its command that the conditions choose. -/
theorem receptionCompletes : Obligations.ReceptionCompletes := by
  unfold Obligations.ReceptionCompletes
  refine ⟨?settled, ?claim, ?claimNarrow, ?sfd, ?sfdTimeout, ?phr, ?frameEnd, ?chunk⟩
  case settled =>
    intro n s hst hen hw
    change execSettlingDone n s = _
    unfold execSettlingDone
    rw [if_neg (by simp [hw])]
    exact congrArg _ (if_pos ⟨hst, hen⟩)
  case claim =>
    intro n b bs snr next power s hst hen hw hc hd hpair
    change Host.Outcome.next (s.detectWide n snr next (encodePower power)) = _
    rw [State.detectWide_claims next hst hen hw hc hd hpair]
  case claimNarrow =>
    intro b snr next power s hdwell hon hc hlane hcal htx k ent set cfg hslot l u
    have hfree : (s.lane nbLane).isSome = false := by rw [Option.isNone_iff_eq_none.mp hlane]; rfl
    change Host.Outcome.next (s.detectNarrow snr (encodePower power)) = _
    unfold State.detectNarrow
    simp only [hdwell, hon, hc, hfree, hcal, htx, ne_eq, not_true, Bool.not_true, Option.isSome_none, Bool.false_eq_true,
      or_self, if_false]
    split
    · next hno => exact absurd (hslot.symm.trans hno) (Option.some_ne_none b)
    · next b' hb' =>
      obtain rfl : b = b' := Option.some.inj (hslot.symm.trans hb')
      rfl
  case sfd =>
    intro rx seen hz back power s l c hlane hf hc f fe t u
    change execSfdFound rx seen hz back power s = _
    unfold execSfdFound
    simp only [hlane, hf, hc, Bool.false_eq_true, if_false]
    rfl
  case sfdTimeout =>
    intro rx s l hlane hf u
    change Host.Outcome.next (s.sfdTimeout rx).moveOn = _
    rw [State.sfdTimeout_claimed hlane hf]
  case phr =>
    intro rx phr snr10 corr len two white s l hlane hf hl hphr hok h0
    change Host.Outcome.next (s.phrDecode rx phr snr10 corr).moveOn = _
    rw [State.phrDecode_reserves hlane snr10 corr hf hl hphr hok h0]
  case frameEnd =>
    intro rx octets snr10 corr len flips s l u hlane hl m
    change Host.Outcome.next (u.frameEnd rx octets snr10 corr).moveOn = _
    rw [State.frameEnd_taken hlane snr10 corr hl]
  case chunk =>
    intro rx octets flips s t l m k ok u x hlane hdrop hslots hdram hwhole hmore hspill hfull htwo hfree
    change execHopperChunkCopy rx octets flips s = _
    unfold execHopperChunkCopy
    simp only [u] at hlane hdram hspill
    simp only [x] at hwhole hmore hspill
    have hmore' : ¬(l.take (octets.take 256)).len.getD 0 ≤ (l.take (octets.take 256)).data.length := Nat.not_le.mpr hmore
    simp only [hlane, hdrop, hslots, hdram, hwhole, hmore', Bool.not_true, Bool.false_eq_true, ne_eq, not_true, or_self, if_false]
    rw [State.copyChunks_takesChunk hspill hfull htwo hfree]

end Sys2Proof.Machine

/-! ## The channelizer: noise floor, gain, antennas, the Hopper's rings and the narrow path -/

namespace Sys2Proof.Machine

/-! ### Antennas (R156) -/

/-- On a diversity arrangement a write of RFE_ANTSEL that changes the antenna, or meets a change that pends, leaves one pending. -/
theorem State.antselWrite_pends {u : State} {v : Word} (ha : u.arrangement = 1)
    (hv : bit v 0 ≠ bit (u.reg Pg.rfe 0 0x804) 16 ∨ bit (u.reg Pg.rfe 0 0x804) 31 = true) :
    u.antselWrite v = u.setReg Pg.rfe 0 0x804 (setBit (setBit (u.reg Pg.rfe 0 0x804) 0 (bit v 0)) 31 true) := by
  have hnew : ¬(bit v 0 = bit (u.reg Pg.rfe 0 0x804) 16 ∧ (!bit (u.reg Pg.rfe 0 0x804) 31) = true) := fun ⟨heq, hno⟩ =>
    hv.elim (fun hne => hne heq) (fun hp => by simp [hp] at hno)
  unfold State.antselWrite
  rw [if_neg (not_not_intro ha), if_neg hnew]

theorem State.antSwitch_pending {s : State} (h : bit (s.reg Pg.rfe 0 0x804) 31 = true) :
    s.antSwitch = (s.setReg Pg.rfe 0 0x804
      (setBit (setBit (s.reg Pg.rfe 0 0x804) 16 (bit (s.reg Pg.rfe 0 0x804) 0)) 31 false)).event Pg.rfe 2 := by
  unfold State.antSwitch
  simp only [h, if_true]

section
variable {s : State} {l : Lane} (hlane : s.lane nbLane = some l)
include hlane

theorem exec_antMeasureSwitch_first (corr : Nat) (hm : s.nbMeasures = true) (hf : l.frame = false) (hn : l.measured = none)
    (ha : l.antNow = l.ant) : exec (.antMeasureSwitch corr) s =
      .next (s.setLane nbLane (some { l with measured := some corr, antNow := 1 - l.antNow })) := by
  change execAntMeasureSwitch corr s = _
  unfold execAntMeasureSwitch
  simp only [hlane, hm, hf, hn, ha, Bool.not_false, and_self, if_true]

/-- The antenna with the higher correlation stays; a free bit breaks a tie. -/
theorem exec_antMeasureChoose_second (corr : Nat) {first : Nat} (hm : l.measured = some first) (hf : l.frame = false)
    (ha : l.antNow ≠ l.ant) :
    let back := decide (corr < first) || (corr == first && bit s.fresh.1 0)
    exec (.antMeasureChoose corr) s = .next ((if corr = first then s.fresh.2 else s).setLane nbLane (some { l with
      measured := none, antNow := if back then l.ant else l.antNow })) := by
  change execAntMeasureChoose corr s = _
  unfold execAntMeasureChoose
  simp only [hlane, hm, hf, ha, Bool.false_eq_true, or_self, if_false]
  by_cases htie : corr = first
  · simp only [htie, if_true]
  · simp only [htie, beq_false_of_ne htie, if_false, Bool.false_and]

end

/-! ### The Hopper's rings (R18, R97) -/

/-- The writable fields of PHY_HR_CFG. -/
theorem hrCfg_fields : word (fld 31 31 + fld 23 16 + fld 11 8 + fld 3 0) = 0x80FF0F0F := by decide

/-- A ring whose SLOT and SIZE lie in their ranges is enabled, empty. -/
theorem State.hrCfgWrite_enables {u : State} {ini : Initiator} {r : Nat} {v : Word} (hl : u.locked Pg.phy = false)
    (hen : bit (u.hr r 4) 31 = false) (hv : bit v 31 = true) (hslot7 : 7 ≤ bits v 11 8) (hslot11 : bits v 11 8 ≤ 11)
    (hsize4 : 4 ≤ bits v 3 0) (hsize10 : bits v 3 0 ≤ 10) :
    u.hrCfgWrite ini r v = ((u.setReg Pg.phy 0 (hrOff r 4) (v &&& 0x80FF0F0F)).setReg Pg.phy 0 (hrOff r 8) 0).setReg
      Pg.phy 0 (hrOff r 12) 0 := by
  have hrange : ¬(bits v 11 8 < 7 ∨ 11 < bits v 11 8 ∨ bits v 3 0 < 4 ∨ 10 < bits v 3 0) := by omega
  unfold State.hrCfgWrite
  simp only [hl, hen, hv, Bool.not_true, Bool.false_eq_true, if_false, if_neg hrange, hrCfg_fields]

section
variable {ini : Initiator} {r : Nat} {s : State} (v : Word) (hr : r < 16)
include hr

theorem exec_hrConsWrite_served (hg : s.gate ini Pg.phy (hrOff r 12) true = .serve) :
    exec (.hrConsWrite ini r v) s = .next (((s.accessed ini Pg.phy (hrOff r 12)).hrConsWrite r v).setReply ini 0 false) := by
  change execHrConsWrite ini r v s = _
  unfold execHrConsWrite
  rw [if_neg (Nat.not_le.mpr hr), pageWrite_served _ _ _ _ _ _ hg]

theorem exec_hopperRingEnable_served (hg : s.gate ini Pg.phy (hrOff r 4) true = .serve) :
    exec (.hopperRingEnable ini r v) s =
      .next (((s.accessed ini Pg.phy (hrOff r 4)).hrCfgWrite ini r v).setReply ini 0 false) := by
  change execHopperRingEnable ini r v s = _
  unfold execHopperRingEnable
  rw [if_neg (Nat.not_le.mpr hr), pageWrite_served _ _ _ _ _ _ hg]

end

/-! ### PHY_NB_CTRL (R115) -/

section
variable (u : State) (ini : Initiator)

/-- STOP and RUN_LNK halt the narrow path at once, unless its lane is held. -/
theorem State.nbCtrlWrite_stop :
    let w := u.setReg Pg.phy 0 0xB10 0
    u.nbCtrlWrite ini 0 = if (w.lane nbLane).isSome then w else w.nbHalt := rfl

theorem State.nbCtrlWrite_runLnk :
    let w := u.setReg Pg.phy 0 0xB10 2
    u.nbCtrlWrite ini 2 = if (w.lane nbLane).isSome then w else w.nbHalt := rfl

/-- CYCLE starts the list where the narrow path does nothing. -/
theorem State.nbCtrlWrite_cycle :
    let w := u.setReg Pg.phy 0 0xB10 1
    u.nbCtrlWrite ini 1 = if w.recv.nb.phase ≠ .stopped ∨ (w.lane nbLane).isSome then w else w.nbStart := rfl

end

/-- Settles O19: each clause is the arm of its command that the conditions choose; writes take effect by the law of their
register, in the state that the served access leaves. -/
theorem receiverUpkeepCompletes : Obligations.ReceiverUpkeepCompletes := by
  unfold Obligations.ReceiverUpkeepCompletes
  refine ⟨?nfWindow, ?snapshot, ?agc, ?clip, ?antsel, ?antSwitch, ?measureSwitch, ?measureChoose, ?iqseed, ?iqConverge, ?hrCons,
    ?hrEnable, ?nbStop, ?nbCycle, ?nbRunLnk, ?dwellEnd, ?retune⟩
  case nfWindow =>
    intro n idle power s hch hen hw
    change execNfWindowEnd n idle power s = _
    unfold execNfWindowEnd
    rw [if_neg (by simp [hch, hen, hw])]
    exact congrArg _ (apply_ite (State.setReg _ Pg.chz n 0x110) _ _ _).symm
  case snapshot =>
    intro s t e cfg a hper hon hpres hwrite n u r
    have hrun : ¬(bits cfg 23 8 = 0 ∨ (!s.domOn Dm.chz0) = true ∨ (!pagePresent s.variant Pg.chz) = true) := by
      simp [hper, hon, hpres]
    change execNfSnapshot s = _
    unfold execNfSnapshot
    simp only [cfg, a] at hrun hwrite
    simp only [if_neg hrun, hwrite]
    rfl
  case agc =>
    intro up s idx hr hp hmode hlane hstep
    have hend : ((up = true ∧ 11 ≤ idx) ∨ ((!up) = true ∧ idx = 0)) = False := by
      cases up with
      | false => simpa using hstep
      | true => simpa using hstep
    have hgo : ¬((!s.ready Dm.rfe) = true ∨ s.path = 0 ∨ s.fieldOf Pg.rfe 0 0x808 31 30 ≠ 0 ∨ (s.lane nbLane).isSome = true ∨
        (up = true ∧ 11 ≤ idx) ∨ ((!up) = true ∧ idx = 0)) := by
      simp only [hr, hp, hmode, hlane, Bool.not_true, Bool.false_eq_true, ne_eq, not_true, Option.isSome_none, false_or, hend]
      exact not_false
    change execAgcStep up s = _
    unfold execAgcStep
    rw [if_neg hgo]
  case clip =>
    intro s hr hp
    change execAdcClip s = _
    unfold execAdcClip
    rw [if_neg (by simp [hr, hp])]
  case antsel =>
    intro ini v s hg u ha hv
    refine congrArg _ ((pageWrite_served s ini Pg.rfe 0x804 v _ hg).trans ?_)
    rw [State.antselWrite_pends ha hv]
  case antSwitch =>
    intro s hlane hpend
    change execAntSwitch s = _
    unfold execAntSwitch
    rw [hlane, if_neg Bool.false_ne_true, State.antSwitch_pending hpend]
  case measureSwitch => exact fun corr s l hlane hm hf hn ha => exec_antMeasureSwitch_first hlane corr hm hf hn ha
  case measureChoose => exact fun corr first s l hlane hm hf ha => exec_antMeasureChoose_second hlane corr hm hf ha
  case iqseed => exact fun ini v s hg => congrArg _ (pageWrite_served s ini Pg.rfe 0x818 v _ hg)
  case iqConverge =>
    intro p g s hr hp hcal u
    change execIqConverge p g s = _
    unfold execIqConverge
    rw [if_neg (by simp [hr, hp, hcal])]
    rfl
  case hrCons =>
    intro ini r v s hr hg
    rw [exec_hrConsWrite_served v hr hg]
    rfl
  case hrEnable =>
    intro ini r v s hr hg u hl hen hv hslot7 hslot11 hsize4 hsize10
    rw [exec_hopperRingEnable_served v hr hg, State.hrCfgWrite_enables hl hen hv hslot7 hslot11 hsize4 hsize10]
  case nbStop =>
    intro ini s hg u
    refine congrArg _ ((pageWrite_served s ini Pg.phy 0xB10 0 _ hg).trans ?_)
    rw [State.nbCtrlWrite_stop]
  case nbCycle =>
    intro ini s hg u
    refine congrArg _ ((pageWrite_served s ini Pg.phy 0xB10 1 _ hg).trans ?_)
    rw [State.nbCtrlWrite_cycle]
  case nbRunLnk =>
    intro ini s hg u
    refine congrArg _ ((pageWrite_served s ini Pg.phy 0xB10 2 _ hg).trans ?_)
    rw [State.nbCtrlWrite_runLnk]
  case dwellEnd => exact fun s hphase hlane => congrArg _ (if_pos ⟨hphase, hlane⟩)
  case retune => exact fun s hphase hon => congrArg _ (if_pos ⟨hphase, hon⟩)

end Sys2Proof.Machine

/-! ## The channelizer: the steps of a transmission -/

namespace Sys2Proof.Machine

/-! ### Tune requests (R185) -/

section
variable {s : State} {j : TxJob}

/-- The attempt of an item is tuned for in its turn: not before its instant is TUNE_LEAD away and, of an attempt that listens
and has no instant, not before its listen where that takes longer. -/
theorem exec_tuneRequest_turn {k : Nat} (hj : s.job k = some j) (ht : j.tuned = false)
    (hinstant : ∀ t, s.jobRamp j = some t → t - j.tuneLead ≤ s.nowNs)
    (hlisten : s.jobRamp j = none → j.lbt = true → j.listen = .none → j.listenNs + 5000 ≤ j.tuneLead)
    (hw : s.waiting j = true) (hturn : s.turn j = true) (hfree : s.txaFree = true) :
    exec (.tuneRequest (.item k)) s = .next (s.tuneItem j) := by
  change execTuneRequest (.item k) s = _
  unfold execTuneRequest
  cases hramp : s.jobRamp j with
  | some t =>
    have hdue : ¬(s.nowNs : Int) < t - j.tuneLead := Int.not_lt.mpr (hinstant t hramp)
    simp only [hj, hramp, ht, hdue, hw, hturn, hfree, decide_false, Bool.not_true, Bool.false_eq_true, or_self, if_false]
  | none =>
    have hdue : (j.lbt && j.listen == .none && decide (j.tuneLead < j.listenNs + 5000)) = false := by
      refine Bool.eq_false_iff.mpr fun h => ?_
      simp only [Bool.and_eq_true, beq_iff_eq, decide_eq_true_eq] at h
      obtain ⟨⟨hlbt, hl⟩, hlate⟩ := h
      exact absurd (hlisten hramp hlbt hl) (Nat.not_le.mpr hlate)
    simp only [hj, hramp, ht, hdue, hw, hturn, hfree, Bool.not_true, Bool.false_eq_true, or_self, if_false]

/-- The counter of a frame under a context: the one that the attempt has, or the next one of the context. -/
def State.counterFor (s : State) (c : Nat) : Option Nat → State × Option Nat
  | some n => (s, some n)
  | none => s.assignCounter c (s.nbKey c)

section
variable (hoff : s.txHeldOff = false) (htxa : s.ready Dm.txa = true) (hsyn : s.ready Dm.syn = true) (hdwell : s.dwellFull j = false)
include hoff htxa hsyn hdwell

/-- A frame that is not secured is built without a counter. -/
theorem State.tuneItem_plain (hsec : (s.withDue j).secure = false) :
    let i := { s.withDue j with slot := none, counter := none }
    s.tuneItem j = (s.updJob i.item (fun _ => { i with tuned := true, frame := s.buildFrame i (s.launchOf i) none })).tune
      (.item i.item) i.freq i.store := by
  unfold State.tuneItem
  simp only [hoff, htxa, hsyn, hdwell, Bool.not_true, Bool.false_eq_true, or_self, if_false]
  split
  · next hs _ => exact absurd (hs.symm.trans hsec) (by decide)
  · rfl

/-- A secured frame is built under its context's key, with the counter it has or is assigned. -/
theorem State.tuneItem_secure {t : State} {c n : Nat} (hsec : (s.withDue j).secure = true) (hctx : (s.withDue j).ctx = some c)
    (hnb : s.nbValid c = true) (hkey : s.slotValid (s.nbKey c) 14 = true) (hengine : s.engineFree.isSome = true)
    (hcounter : s.counterFor c (s.withDue j).counter = (t, some n)) :
    let i := { s.withDue j with slot := some (s.nbKey c), counter := some n }
    s.tuneItem j = (t.updJob i.item (fun _ => { i with tuned := true, frame := t.buildFrame i (t.launchOf i) (some n) })).tune
      (.item i.item) i.freq i.store := by
  have hbusy : s.engineFree.isNone = false := by rw [← Option.not_isSome, hengine]; rfl
  unfold State.tuneItem
  simp only [hoff, htxa, hsyn, hdwell, Bool.not_true, Bool.false_eq_true, or_self, if_false]
  split
  · next c' _ hc =>
    obtain rfl : c = c' := Option.some.inj (hctx.symm.trans hc)
    simp only [hnb, hkey, hbusy, Bool.not_true, Bool.false_eq_true, or_self, if_false]
    split
    · next m hn =>
      simp only [hn, State.counterFor, Prod.mk.injEq, Option.some.injEq] at hcounter
      obtain ⟨rfl, rfl⟩ := hcounter
      rfl
    · next hn =>
      simp only [hn, State.counterFor] at hcounter
      simp only [hcounter]
  · next hno => exact absurd hctx (hno c hsec)

end

end

/-! ### The receive blank and the front end (R108, R161) -/

/-- The blank starts over the frame's channels; on the narrow path it takes the radio from what LNK listens for. -/
theorem exec_txBlankStart_at (air : List Air) {flips : List Flip} {s : State} {t : Int}
    (hat : (s.applyFlips flips).blankAt = some t) :
    let u := s.applyFlips flips
    let v := u.blankStart (u.blankZone u.txa.freq).1 (u.blankZone u.txa.freq).2 air
    let w := if v.path = 2 then v.displaceUses else v
    exec (.txBlankStart air flips) s = .next { w with txa := { w.txa with begins := some t } } := by
  change execTxBlankStart air flips s = _
  unfold execTxBlankStart
  simp only [hat]

/-! ### A ramp-begin instant that has passed (R187) -/

/-- A timed item's first attempt is LATE. Another one that no backoff holds goes as it can where its train has gone, and is
planned again where none has. -/
theorem exec_rampBeginPassed_past {k : Nat} {s : State} {j : TxJob} {t : Int} (hj : s.job k = some j) (hl : j.launch = some t)
    (hair : s.onAirNow (.item k) = false) (hack : j.ackWait = none) (hb : j.deadline = false → j.backoff = none)
    (hpast : s.rampAt t ≤ s.nowNs) (hnow : s.txa.cur = some (.item k) → s.rampNow = false) :
    let u := if s.txa.cur = some (.item k) then (s.event Pg.txa 1).count Pg.txa 0 0x810 15 8 1 else s
    exec (.rampBeginPassed k) s = .next (
      if j.deadline then u.txEnd j Sc.late
      else if s.txa.cur = some (.item k) ∧ j.tuned = true ∧ j.train = 0 ∧ j.sent = true then
        s.updJob k (fun j => { j with launch := none, due := some (s.nowNs : Int) })
      else ((s.unhand (.item k)).closeUse .lbt).replan j) := by
  have hback : ¬(j.backoff.isSome = true ∧ (!j.deadline) = true) := fun ⟨hsome, hd⟩ => by
    simp [hb (by simpa using hd)] at hsome
  have hreach : ¬(s.nowNs : Int) < s.rampAt t := Int.not_lt.mpr hpast
  have hramp : ¬(s.txa.cur = some (.item k) ∧ s.rampNow = true) := fun ⟨hm, hr⟩ => by simp [hnow hm] at hr
  change execRampBeginPassed k s = _
  unfold execRampBeginPassed
  simp only [hj, hl, hair, hack, hback, hreach, hramp, Option.isSome_none, Bool.false_eq_true, or_self, if_false]

/-! ### What ends a frame (R185) -/

theorem State.frameSent_item {s : State} {e : Nat} {j : TxJob}
    (hj : ((s.event Pg.txa 0).count Pg.txa 0 0x810 31 16 1).job e = some j) :
    s.frameSent (some (.item e)) = ((s.event Pg.txa 0).count Pg.txa 0 0x810 31 16 1).itemSent j := by
  unfold State.frameSent
  simp only [hj]

/-- Settles O22: each clause is the arm of its command that the conditions choose; a tune request goes on to the frame by
`State.tuneItem_plain` and `State.tuneItem_secure`. -/
theorem transmitChainCompletes : Obligations.TransmitChainCompletes := by
  unfold Obligations.TransmitChainCompletes
  refine ⟨?tuneAck, ?tunePlain, ?tuneSecure, ?blankStart, ?blankEnd, ?femLead, ?femLag, ?ramp, ?late, ?trainGone, ?replan, ?rampUp,
    ?lastSymbol, ?lockLostOnAir, ?lockLostReady, ?lockLostHold, ?sent, ?cut, ?holdExpire⟩
  case tuneAck => exact fun s hfree => congrArg _ (if_pos hfree)
  case tunePlain =>
    intro k s j hj ht hinstant hlisten hw hturn hfree hoff htxa hsyn hdwell hsec i
    rw [exec_tuneRequest_turn hj ht hinstant hlisten hw hturn hfree, State.tuneItem_plain hoff htxa hsyn hdwell hsec]
  case tuneSecure =>
    intro k c n s t j hj ht hinstant hlisten hw hturn hfree hoff htxa hsyn hdwell hsec hctx hnb hkey hengine hcounter i
    rw [exec_tuneRequest_turn hj ht hinstant hlisten hw hturn hfree,
      State.tuneItem_secure hoff htxa hsyn hdwell hsec hctx hnb hkey hengine hcounter]
  case blankStart => exact fun air flips s t hat => exec_txBlankStart_at air hat
  case blankEnd =>
    intro s htx hquiet hbegins hdown
    change execTxBlankEnd s = _
    unfold execTxBlankEnd
    have hblank : s.recv.tx.isNone = false := Option.isNone_eq_false_iff.mpr htx
    cases hd : s.txa.downAt with
    | some t => simp [hblank, hquiet, hbegins, hdown t hd]
    | none => simp [hblank, hquiet, hbegins]
  case femLead =>
    intro s hgo lead hnow
    change execFemLead s = _
    unfold execFemLead
    simp only [lead] at hnow
    cases hramp : s.curRamp with
    | some t =>
      simp only [hramp] at hnow
      simp only [hgo, hnow, and_self, if_true]
    | none =>
      cases hb : s.txa.begins with
      | some b =>
        simp only [hramp, hb] at hnow
        simp only [hgo, hnow, decide_true, and_self, if_true]
      | none => simp only [hramp, hb] at hnow
  case femLag =>
    intro s t hdown hquiet hlag
    change execFemLag s = _
    unfold execFemLag
    simp only [hdown, hquiet, hlag, and_self, if_true]
  case ramp => exact fun s hnow => congrArg _ (if_pos hnow)
  case late =>
    intro k s j t hj hl hair hack hd hpast hnow u
    rw [exec_rampBeginPassed_past hj hl hair hack (fun h => absurd (hd.symm.trans h) (by decide)) hpast hnow, if_pos hd]
  case trainGone =>
    intro k s j t hj hl hair hack hb hd hpast hm hnow htuned htrain hsent
    rw [exec_rampBeginPassed_past hj hl hair hack (fun _ => hb) hpast (fun _ => hnow), if_neg (by simp [hd]),
      if_pos ⟨hm, htuned, htrain, hsent⟩]
  case replan =>
    intro k s j t hj hl hair hack hb hd hpast hnow hnot
    rw [exec_rampBeginPassed_past hj hl hair hack (fun _ => hb) hpast hnow, if_neg (by simp [hd]), if_neg hnot]
  case rampUp => exact fun s hst => congrArg _ (if_pos hst)
  case lastSymbol =>
    intro s hst hsfd u v
    have hgo : ¬(s.txa.st ≠ .send ∨ (s.txa.sfd.isSome = true ∧ s.tim.running = true)) := by
      rcases hsfd with h | h <;> simp [hst, h]
    change execLastSymbolOut s = _
    exact congrArg _ (if_neg hgo)
  case lockLostOnAir =>
    intro s hst u v
    change execTxLockLost s = _
    unfold execTxLockLost
    rcases hst with h | h <;> simp only [h] <;> rfl
  case lockLostReady =>
    intro s hst u
    change execTxLockLost s = _
    unfold execTxLockLost
    simp only [hst]
    rfl
  case lockLostHold =>
    intro s hst
    change execTxLockLost s = _
    unfold execTxLockLost
    simp only [hst]
  case sent =>
    intro s e j hst hcut hcur u w hj v
    change execRampDownDone s = _
    unfold execRampDownDone
    rw [if_neg (not_not_intro hst)]
    simp only [hcut, hcur, Bool.false_eq_true, if_false]
    rw [State.frameSent_item hj]
  case cut =>
    intro s hst hcut
    change execRampDownDone s = _
    unfold execRampDownDone
    rw [if_neg (not_not_intro hst)]
    simp only [hcut, if_true]
    rfl
  case holdExpire => exact fun s hst hheld => congrArg _ (if_pos ⟨hst, hheld⟩)

end Sys2Proof.Machine

/-! ## The PHY modes: whitening, coding and spreading -/

namespace Sys2Proof.Machine

/-! ### Whitening (R128) -/

theorem pn9_length (bs : List Byte) : ∀ g, (pn9 bs g).1.length = bs.length := by
  induction bs with
  | nil => intro g; rfl
  | cons b bs ih => intro g; simp only [pn9, List.length_cons, ih]

/-- The generator runs on by octets and never reads them, so the second pass meets the octets of the first (R128). -/
theorem pn9_pn9 (bs : List Byte) : ∀ g, pn9 (pn9 bs g).1 g = (bs, (pn9 bs g).2) := by
  induction bs with
  | nil => intro g; rfl
  | cons b bs ih =>
    intro g
    simp only [pn9, ih, BitVec.xor_assoc, BitVec.xor_self, BitVec.xor_zero]

/-- Settles O56: the generator's outputs cancel octet by octet, and their number is that of the octets. -/
theorem whiteningUndoesItself : Obligations.WhiteningUndoesItself :=
  fun bs g => ⟨pn9_pn9 bs g, pn9_length bs g⟩

/-! ### The coded stream and its interleaver (R129) -/

theorem interleave_length (b : List Bool) : (interleave b).length = 256 := by
  unfold interleave
  rw [List.length_map, List.length_range]

theorem interleaveAll_length (n : Nat) : ∀ l, (interleaveAll n l).length = 256 * n := by
  induction n with
  | zero => intro l; rfl
  | succ n ih => intro l; rw [interleaveAll, List.length_append, interleave_length, ih]; omega

/-- A block's bit `j` as sent is the bit of row `j mod 16` and column `j div 16`. -/
theorem interleave_getElem? (b : List Bool) (j : Nat) (h : j < 256) :
    (interleave b)[j]? = some (b.getD (16 * (j % 16) + j / 16) false) := by
  unfold interleave
  rw [List.getElem?_map, List.getElem?_range h, Option.map_some]

theorem fecBits_length (l : List Bool) : (fecBits l).length = 256 * ((2 * (l.length + 6) + 255) / 256) := by
  have blocks : (l.length + 6 + 127) / 128 = (2 * (l.length + 6) + 255) / 256 := by omega
  rw [fecBits, interleaveAll_length, blocks]

/-- Settles O57: blocks are counted alike in information bits and in code bits, and the transposition of the rows and columns is
its own inverse. -/
theorem codedStreamsHoldWholeBlocks : Obligations.CodedStreamsHoldWholeBlocks := by
  unfold Obligations.CodedStreamsHoldWholeBlocks
  refine ⟨fecBits_length, fun b k hk => ?_⟩
  have row : (16 * (k % 16) + k / 16) % 16 = k / 16 := by omega
  have column : (16 * (k % 16) + k / 16) / 16 = k % 16 := by omega
  have back : 16 * (k / 16) + k % 16 = k := by omega
  rw [interleave_getElem? b _ (by omega), row, column, back]

/-! ### The chips of the long-reach frame (R120, R124) -/

theorem bitsDown_length (n v : Nat) : (bitsDown n v).length = n := by
  simp only [bitsDown, bitsUp, List.length_reverse, List.length_map, List.length_range]

theorem bitsDown_getElem? {n k : Nat} (v : Nat) (h : k < n) : (bitsDown n v)[k]? = some (v.testBit (n - 1 - k)) := by
  have hlen : (bitsUp n v).length = n := by simp only [bitsUp, List.length_map, List.length_range]
  rw [bitsDown, List.getElem?_reverse (hlen.symm ▸ h), hlen, bitsUp, List.getElem?_map, List.getElem?_range (by omega),
    Option.map_some]

theorem spread_length (n v : Nat) (b : Bool) : (spread n v b).length = n := by
  rw [spread, List.length_map, bitsDown_length]

theorem spread_getElem? {n k : Nat} (v : Nat) (b : Bool) (h : k < n) :
    (spread n v b)[k]? = some (v.testBit (n - 1 - k) != b) := by
  rw [spread, List.getElem?_map, bitsDown_getElem? v h, Option.map_some]

theorem mtSf_lt (mod : Word) : mtSf mod < 4 := Nat.mod_lt _ (by decide)

/-- The spreading factors are 8, 16, 32 and 64. -/
theorem spreadSeq_fst {sf : Nat} (h : sf < 4) : (spreadSeq sf).1 = 8 * 2 ^ sf := by
  revert sf; decide

theorem longChips_length (mod : Word) (pre : Nat) (psdu : List Byte) :
    (longChips mod pre psdu).length =
      64 * pre + 128 + 8 * 2 ^ mtSf mod * (bodyStream mod (phrLong mod psdu.length) psdu).length := by
  have factor := spreadSeq_fst (mtSf_lt mod)
  simp only [longChips, List.length_append, List.length_flatten, List.map_replicate, List.length_flatMap, List.map_const',
    List.sum_replicate_nat, spread_length, factor]
  have chips := Nat.mul_comm (bodyStream mod (phrLong mod psdu.length) psdu).length (8 * 2 ^ mtSf mod)
  omega

theorem toRails_getElem? (l : List Bool) :
    ∀ k, (toRails l).1[k]? = l[2 * k]? ∧ (toRails l).2[k]? = l[2 * k + 1]? := by
  induction l using toRails.induct with
  | case1 => intro k; exact ⟨rfl, rfl⟩
  | case2 c =>
    intro k
    cases k with
    | zero => exact ⟨rfl, rfl⟩
    | succ k => exact ⟨rfl, rfl⟩
  | case3 c d l _ _ _ ih =>
    intro k
    cases k with
    | zero => exact ⟨rfl, rfl⟩
    | succ k => exact ih k

/-- Settles O58: the chips of a bit one by one, the length of the frame by its parts, and the rails two chips at a time. -/
theorem longReachFramesAreSpread : Obligations.LongReachFramesAreSpread := by
  unfold Obligations.LongReachFramesAreSpread
  refine ⟨fun n v k hk => ⟨?zero, ?one⟩, longChips_length, toRails_getElem?⟩
  case zero => rw [spread_getElem? v false hk, Bool.bne_false]
  case one => rw [spread_getElem? v true hk, Bool.bne_true]

end Sys2Proof.Machine

/-! ## The RF front end: gaps, temperature and lost locks -/

namespace Sys2Proof.Machine

/-! ### Gaps (R173, R236) -/

/-- LNK grants a requested gap: nothing of its own falls within it, or it has waited as long as it may. -/
theorem exec_gapGrant_grants {waited : Nat} {s : State} (hreq : s.gapReq = true) (hready : s.ready Dm.lnk = true)
    (hgrant : (((s.txa.st = .idle ∨ s.txa.st = .hold) ∧ s.useWithin = false) ∧
        (s.anyLane (·.frame) = false ∨ bits (s.lreg 0x83C) 31 16 ≤ waited)) ∨
      (bits (s.lreg 0x83C) 15 0 ≤ waited ∧ s.recv.tx = none)) :
    exec (.gapGrant waited) s = .next { s with syn := { s.syn with granted := true } } := by
  have hasked : ¬((!s.gapReq) = true ∨ (!s.ready Dm.lnk) = true) := by simp [hreq, hready]
  change execGapGrant waited s = _
  unfold execGapGrant
  refine congrArg _ ((if_neg hasked).trans (if_pos ?_))
  simpa using hgrant

/-- Flips strike before the gap begins. -/
theorem exec_gapStart_flips (air : List Air) (flips : List Flip) (s : State) :
    exec (.gapStart air flips) s = exec (.gapStart air []) (s.applyFlips flips) := rfl

/-- The gap that begins now, for the CAL item it serves. -/
def State.gapFor (s : State) (served : Option CalRun) : Gap :=
  { item := served.map (·.item), filter := served.any (·.filter), sec := s.tim.sec, ns := s.tim.ns
    bandR := s.syn.auto || s.syn.recovery || served.any (·.bandR) }

/-- What the gap's start does to the radio: reception ends, and the narrow path's uses are displaced. -/
def State.gapOpens (s : State) (air : List Air) : State := (((s.event Pg.chz 3).event Pg.syn 3).deafen air).displaceUses

section
variable {s : State} (air : List Air) (hdue : s.gapDue = true) (hgap : s.syn.gap = none) (htx : s.recv.tx = none)
  (hquiet : s.txaQuiet = true) (hon : s.domOn Dm.syn = true)
include hdue hgap htx hquiet hon

/-- A gap that serves no CAL item. -/
theorem exec_gapStart_plain (hcal : s.syn.cal = none) :
    exec (.gapStart air []) s = .next ((s.setSyn (fun y => { y with
      gap := some (s.gapFor none), granted := false, auto := false, recovery := false, rxLocked := false,
      cal := none })).gapOpens air) := by
  change execGapStart air [] s = _
  unfold execGapStart
  simp only [State.applyFlips_nil, State.setSyn, hdue, hgap, htx, hquiet, hon, hcal, Bool.not_true, Option.isSome_none,
    Bool.false_eq_true, or_self, if_false]
  rfl

/-- A gap that serves the CAL item in progress keeps its start with the item. -/
theorem exec_gapStart_serves {c : CalRun} (hcal : s.syn.cal = some c) (hgapped : c.filter = true ∨ c.bandR = true)
    (hserved : c.due = true ∨ s.syn.granted = true) :
    exec (.gapStart air []) s = .next ((s.setSyn (fun y => { y with
      gap := some (s.gapFor (some c)), granted := false, auto := false, recovery := false, rxLocked := false,
      cal := some { c with gapAt := some (s.tim.sec, s.tim.ns) } })).gapOpens air) := by
  change execGapStart air [] s = _
  unfold execGapStart
  simp only [State.applyFlips_nil, State.setSyn, hdue, hgap, htx, hquiet, hon, hcal, hgapped, hserved, Bool.not_true,
    Option.isSome_none, Bool.false_eq_true, or_self, and_self, if_false, if_true]
  rfl

end

/-- Settles O20: each clause is the arm of its command that the conditions choose. -/
theorem calibrationCompletes : Obligations.CalibrationCompletes := by
  unfold Obligations.CalibrationCompletes
  refine ⟨?grantWaited, ?grantQuiet, ?gap, ?gapServes, ?gapEnd, ?lockLost, ?temp, ?vt, ?sweep⟩
  case grantWaited => exact fun waited s hreq hready hwaited htx => exec_gapGrant_grants hreq hready (.inr ⟨hwaited, htx⟩)
  case grantQuiet =>
    exact fun waited s hreq hready hst huse hstill => exec_gapGrant_grants hreq hready (.inl ⟨⟨hst, huse⟩, hstill⟩)
  case gap =>
    intro air flips s u hdue hgap htx hquiet hon hcal g v
    rw [exec_gapStart_flips, exec_gapStart_plain air hdue hgap htx hquiet hon hcal]
    rfl
  case gapServes =>
    intro air flips s c u hdue hgap htx hquiet hon hcal hgapped hserved g v
    rw [exec_gapStart_flips, exec_gapStart_serves air hdue hgap htx hquiet hon hcal hgapped hserved]
    rfl
  case gapEnd =>
    intro s g hgap u u'
    change execGapEnd s = _
    unfold execGapEnd
    simp only [hgap]
    rfl
  case lockLost =>
    intro s hl
    change execRxLockLost s = _
    unfold execRxLockLost
    rw [if_neg (by simp [hl])]
  case temp =>
    intro die s hon u driftT driftR v v'
    have hon' : ¬(!(s.setSyn (fun y => { y with die := die })).domOn Dm.syn) = true := by
      rw [show (s.setSyn (fun y => { y with die := die })).domOn Dm.syn = true from hon]; decide
    change execTempUpdate die s = _
    unfold execTempUpdate
    rw [if_neg hon']
    rfl
  case vt =>
    intro out s hon u
    change execVtEdge out s = _
    unfold execVtEdge
    rw [if_neg (by simp [hon])]
  case sweep =>
    exact fun s hdue hmode hon hidle hcal => congrArg _ (if_pos ⟨hdue, hmode, hon, hidle, by rw [hcal]; rfl⟩)

end Sys2Proof.Machine

/-! ## The RF front end: the items of SYN, and the locks of its loops -/

namespace Sys2Proof.Machine

/-- An item that has no launch time, or whose launch time has come, does not wait for it. -/
theorem Item.not_early {i : Item} (hlaunch : i.timed = true → i.launched = true) :
    ¬(i.timed = true ∧ (!i.launched) = true) := fun ⟨ht, hl⟩ => by simp [hlaunch ht] at hl

/-! ### CAL (R169, R176 to R179) -/

section
variable {k : Nat} {s : State} {i : Item} (hi : s.synItem 1 k = some i) (hready : s.ready Dm.syn = true) (hcal : s.syn.cal = none)
include hi hready hcal

theorem exec_synCal_nothing (hgroups : i.uflags % 8 = 0) (hstore : i.uflags / 8 % 2 = 0 ∨ i.addrA % 512 = 0) :
    exec (.synCal k) s = .next (s.finish k { status := Sc.doneZero }) := by
  have hfilter : ¬i.uflags % 2 = 1 := by omega
  have hband : ¬i.uflags / 2 % 2 = 1 := by omega
  have hanchor : ¬i.uflags / 4 % 2 = 1 := by omega
  change execSynCal k s = _
  unfold execSynCal
  rcases hstore with h | h <;> simp [hi, hready, hcal, hfilter, hband, hanchor, h]

/-- The run of a CAL item, as its groups and its range of entries ask for it. -/
def Item.calRun (i : Item) (k : Nat) : CalRun :=
  { item := k, filter := decide (i.uflags % 2 = 1), bandR := decide (i.uflags / 2 % 2 = 1), due := i.timed
    anchor := decide (i.uflags / 4 % 2 = 1), store := decide (i.uflags / 8 % 2 = 1), first := i.addrA / 0x10000 % 512
    count := i.addrA % 512 }

/-- Receive calibrations run at once where the part is offline, and wait for a gap where it is not. -/
theorem exec_synCal_receive (hgap : i.uflags % 2 = 1 ∨ i.uflags / 2 % 2 = 1) (hlaunch : i.timed = true → i.launched = true) :
    exec (.synCal k) s = .next (
      if s.offline then s.calOffline (i.calRun k) else s.setSyn (fun y => { y with cal := some (i.calRun k) })) := by
  change execSynCal k s = _
  unfold execSynCal
  simp only [hi, hready, hcal, hgap, Item.not_early hlaunch, Bool.not_true, Bool.false_eq_true, true_and,
    if_false, if_true]
  rfl

end

/-! ### Anchor steps and store entries (R169, R179) -/

section
variable {s : State} (hruns : s.stepRuns = true)
include hruns

theorem exec_anchorTStep_more {n : Nat} (hsweep : s.syn.sweep = some n) (hmore : n + 1 < 16) :
    exec .anchorTStep s = .next (s.stepOver.setSyn (fun y => { y with sweep := some (n + 1) })) := by
  change execAnchorTStep s = _
  unfold execAnchorTStep
  simp only [hsweep, hruns, hmore, Bool.not_true, Bool.false_eq_true, if_false, if_true]

section
variable {c : CalRun} (hfilter : c.filter = false) (hband : c.bandR = false) (hanchor : c.anchor = false)
  (hstore : c.store = true) (hmore : c.first + c.next < s.calEnd c) (hsweep : s.syn.sweep = none)
include hfilter hband hanchor hstore hmore hsweep

/-- No condition of a step on the store's next entry fails. -/
theorem State.entryStep_runs : ¬(c.filter = true ∨ c.bandR = true ∨ c.anchor = true ∨ (!c.store) = true ∨
    s.calEnd c ≤ c.first + c.next ∨ s.syn.sweep.isSome = true ∨ (!s.stepRuns) = true) := by
  simp [hfilter, hband, hanchor, hstore, hsweep, hruns, Nat.not_le.mpr hmore]

theorem exec_storeTEntry_calibrated {f : Nat} (hcal : s.syn.cal = some c)
    (hfreq : s.stepOver.freqOf (c.first + c.next) = some f) :
    exec (.storeTEntry true) s =
      .next ((s.stepOver.calibrate (c.first + c.next) f).calNext { c with next := c.next + 1 }) := by
  change execStoreTEntry true s = _
  unfold execStoreTEntry
  simp only [hcal, if_neg (State.entryStep_runs hruns hfilter hband hanchor hstore hmore hsweep), hfreq]

theorem exec_storeTEntry_failed (hcal : s.syn.cal = some c) :
    exec (.storeTEntry false) s = .next ((s.stepOver.setEntry (c.first + c.next)
      { s.stepOver.storeEntry (c.first + c.next) with valid := false }).calNext
        { c with next := c.next + 1, failedEntries := c.failedEntries + 1 }) := by
  change execStoreTEntry false s = _
  unfold execStoreTEntry
  simp only [hcal, if_neg (State.entryStep_runs hruns hfilter hband hanchor hstore hmore hsweep)]

end

end

/-! ### Save and load (R167, R179) -/

/-- Flips strike before the command's own accesses. -/
theorem exec_storeSave_flips (k : Nat) (flips : List Flip) (s : State) :
    exec (.storeSave k flips) s = exec (.storeSave k []) (s.applyFlips flips) := rfl

theorem exec_storeLoad_flips (k : Nat) (flips : List Flip) (s : State) :
    exec (.storeLoad k flips) s = exec (.storeLoad k []) (s.applyFlips flips) := rfl

section
variable {k : Nat} {s t : State} {i : Item} {e : EccSum} (hlaunch : i.timed = true → i.launched = true)
  (hready : s.ready Dm.syn = true) (hlen : storeLengthOk i.length = true)
include hlaunch hready hlen

theorem exec_storeSave_written (hi : s.synItem 2 k = some i)
    (hwrite : s.unitWrite i.addrB (((List.range (i.length / 8)).map s.storeEntry).flatMap StoreEntry.octets) = (t, .ok () e)) :
    exec (.storeSave k []) s = .next (t.finish k { status := Sc.done, actual := i.length }) := by
  change execStoreSave k [] s = _
  unfold execStoreSave
  simp only [State.applyFlips_nil, hi, Item.not_early hlaunch, hready, hlen, hwrite, Bool.not_true,
    Bool.false_eq_true, if_false]

/-- The entries of the image are taken one by one; those that are not valid make a warning of the completion. -/
theorem exec_storeLoad_read {bs : List (Option Byte)} {os : List Byte} (hi : s.synItem 3 k = some i) (hidle : s.txIdle = true)
    (hread : s.unitRead i.addrA i.length = (t, .ok bs e)) (hknown : knownBytes bs = some os) :
    let n := i.length / 8
    let v := (List.range n).foldl (fun s e => s.setEntry e (s.loadEntry e (os.drop (8 * e)))) t
    let bad := ((List.range n).filter (fun e => !(v.storeEntry e).valid)).length
    exec (.storeLoad k []) s = .next (v.finish k {
      status := if bad = 0 then Sc.done else Sc.doneWarn, actual := i.length, rep6 := word (bad % 512) }) := by
  change execStoreLoad k [] s = _
  unfold execStoreLoad
  simp only [State.applyFlips_nil, hi, Item.not_early hlaunch, hready, hlen, hidle, hread, hknown, Bool.not_true,
    Bool.false_eq_true, if_false]

end

/-! ### Locks and timeouts (R169, R170) -/

section
variable {s : State} (htune : s.txa.st = .tune) (hwaits : s.txa.waits = false)
include htune hwaits

/-- The transmit loop tunes, and nothing it waits for holds it. -/
theorem State.tuning : ¬(s.txa.st ≠ .tune ∨ s.txa.waits = true) := by simp [htune, hwaits]

theorem State.txTimeout_first (hretried : s.txa.retried = false) :
    s.txTimeout = ({ s with txa := { s.txa with retried := true } } : State).setField Pg.syn 0 0x810 23 16 s.celsius := by
  unfold State.txTimeout
  rw [if_neg (State.tuning htune hwaits), if_pos (by rw [hretried]; rfl)]

end

section
variable {s : State} (hwanted : s.rxWanted = true) (hunlocked : s.syn.rxLocked = false) (hrecovery : s.syn.recovery = false)
include hwanted hunlocked hrecovery

/-- The receive loop attempts to lock. -/
theorem State.rxAttempts (hfails : s.syn.rxFails ≤ 1) :
    ¬((!s.rxWanted) = true ∨ s.syn.rxLocked = true ∨ 1 < s.syn.rxFails ∨ s.syn.recovery = true) := by
  simp [hwanted, hunlocked, hrecovery, hfails]

end

/-- Settles O21: each clause is the arm of its command that the conditions choose. -/
theorem synthesiserItemsComplete : Obligations.SynthesiserItemsComplete := by
  unfold Obligations.SynthesiserItemsComplete
  refine ⟨?calNothing, ?calBegun, ?anchorMore, ?anchorLast, ?entryLocked, ?entryFailed, ?save, ?load, ?txLock, ?rxLock, ?txRetry,
    ?txFail, ?rxRetry, ?rxFail⟩
  case calNothing =>
    exact fun k s i hi hready hcal hgroups hstore => exec_synCal_nothing hi hready hcal hgroups hstore
  case calBegun => exact fun k s i hi hready hcal hgap hlaunch => exec_synCal_receive hi hready hcal hgap hlaunch
  case anchorMore => exact fun s n hsweep hruns hmore => exec_anchorTStep_more hruns hsweep hmore
  case anchorLast =>
    intro s hsweep hruns u
    change execAnchorTStep s = _
    unfold execAnchorTStep
    simp only [hsweep, hruns, Bool.not_true, Bool.false_eq_true, if_false]
    rfl
  case entryLocked =>
    exact fun s c f hcal hfilter hband hanchor hstore hmore hsweep hruns hfreq =>
      exec_storeTEntry_calibrated hruns hfilter hband hanchor hstore hmore hsweep hcal hfreq
  case entryFailed =>
    exact fun s c hcal hfilter hband hanchor hstore hmore hsweep hruns =>
      exec_storeTEntry_failed hruns hfilter hband hanchor hstore hmore hsweep hcal
  case save =>
    intro k flips s t i e u hi hlaunch hready hlen hwrite
    rw [exec_storeSave_flips, exec_storeSave_written hlaunch hready hlen hi hwrite]
  case load =>
    intro k flips s t i bs os e u hi hlaunch hready hlen hidle hread hknown n v bad
    rw [exec_storeLoad_flips, exec_storeLoad_read hlaunch hready hlen hi hidle hread hknown]
  case txLock =>
    intro s htune hwaits hon e x u v
    have hgo : ¬(s.txa.st ≠ .tune ∨ s.txa.waits = true ∨ (!s.domOn Dm.syn) = true) := by simp [htune, hwaits, hon]
    exact congrArg _ (if_neg hgo)
  case rxLock =>
    exact fun s hwanted hunlocked hfails hrecovery => congrArg _ (if_neg (State.rxAttempts hwanted hunlocked hrecovery hfails))
  case txRetry => exact fun air s htune hwaits hretried => congrArg _ (State.txTimeout_first htune hwaits hretried)
  case txFail =>
    intro air s htune hwaits hretried u v
    refine congrArg _ ((if_neg (State.tuning htune hwaits)).trans (if_neg ?_))
    rw [hretried]
    decide
  case rxRetry =>
    intro air s hwanted hunlocked hrecovery hfails
    refine congrArg _ ((if_neg (State.rxAttempts hwanted hunlocked hrecovery ?_)).trans (if_pos hfails))
    omega
  case rxFail =>
    intro air s hwanted hunlocked hrecovery hfails u
    refine congrArg _ ((if_neg (State.rxAttempts hwanted hunlocked hrecovery ?_)).trans (if_neg ?_)) <;> omega

end Sys2Proof.Machine

/-! ## The RF front end: LNK's upkeep, and the wake receiver -/

namespace Sys2Proof.Machine

/-! ### Contexts (R198, R202) -/

section
variable (u : State) (ini : Initiator)

/-- Each bit of LNK_NB_CTRL, written alone, does its own command to the context that CHSEL names. -/
theorem State.nbCtrl_unanchor : u.nbCtrl ini 4 = u.unanchor (u.chsel Pg.lnk ini) := rfl

theorem State.nbCtrl_pendSet :
    let c := u.chsel Pg.lnk ini
    u.nbCtrl ini 1 = u.setCtx c { u.ctxOf c with pending := true } := rfl

theorem State.nbCtrl_pendClr :
    let c := u.chsel Pg.lnk ini
    u.nbCtrl ini 2 = u.setCtx c { u.ctxOf c with pending := false } := rfl

end

/-! ### The beacon's windows and the search (R234) -/

/-- A window that closes without a beacon counts a miss, unless it was displaced; the third miss loses the beacon. -/
theorem exec_beaconWindowClose_missed {s : State} {e : Int} (hbcn : s.lnk.bcn = .track) (hend : s.lnk.bcnEnd = some e)
    (hpast : e ≤ s.nowNs) (hcoming : s.bcnComing e = false) :
    let u := (s.setLnk (fun l => { l with
      bcnEnd := none, miss := if s.lnk.bcnShut then l.miss else l.miss + 1 })).closeUse .beacon
    exec .beaconWindowClose s = .next (if u.lnk.miss < 3 then u.bcnArm else u.bcnLose) := by
  have hover : ¬((s.nowNs : Int) < e ∨ s.bcnComing e = true) := by simp [hpast, hcoming]
  change execBeaconWindowClose s = _
  unfold execBeaconWindowClose
  simp only [hbcn, hend, if_neg hover]

section
variable {s : State} (hbcn : s.lnk.bcn = .lost)
include hbcn

/-- A search on the narrow path whose radio has stopped before its pass was through starts the pass again. -/
theorem exec_searchPassEnd_cut (hwide : s.bcnWide = false) (hpath : s.path = 2) (hstopped : s.recv.nb.phase = .stopped)
    (hlane : s.lane nbLane = none) (hpass : s.lnk.passDone = false) : exec .searchPassEnd s = .next s.bcnPass := by
  change execSearchPassEnd s = _
  unfold execSearchPassEnd
  simp [hbcn, hwide, hpath, hstopped, hlane, hpass]

/-- A pass that is through counts; the last one that the configuration allows ends the search. -/
theorem exec_searchPassEnd_through (hthrough : s.bcnWide = false → s.path = 2 →
      s.recv.nb.phase = .stopped ∧ s.lane nbLane = none ∧ s.lnk.passDone = true) :
    let n := s.lnk.passes + 1
    let limit := bits (s.lreg 0x834) 15 0
    let u := s.setLnk (fun l => { l with passes := n, passDone := false })
    exec .searchPassEnd s = .next (
      if limit ≠ 0 ∧ limit ≤ n then
        (((u.event Pg.lnk 2).lnkEvent 3 u.bcnCtx (word n)).closeUse .search).setLnk (fun l => { l with bcn := .failed })
      else u.bcnPass) := by
  have hnarrow (h : (!s.bcnWide && s.path == 2) = true) :
      s.recv.nb.phase = .stopped ∧ s.lane nbLane = none ∧ s.lnk.passDone = true := by
    simp only [Bool.and_eq_true, Bool.not_eq_true', beq_iff_eq] at h
    exact hthrough h.1 h.2
  have hover : ¬(s.lnk.bcn ≠ .lost ∨ ((!s.bcnWide && s.path == 2) = true ∧
      (s.recv.nb.phase ≠ .stopped ∨ (s.lane nbLane).isSome = true))) := by
    rintro (h | ⟨h, hbusy⟩)
    · exact h hbcn
    · obtain ⟨hstopped, hlane, _⟩ := hnarrow h
      simp [hstopped, hlane] at hbusy
  have hdone : ¬((!s.bcnWide && s.path == 2) = true ∧ (!s.lnk.passDone) = true) := fun ⟨h, hno⟩ => by
    obtain ⟨_, _, hpass⟩ := hnarrow h
    simp [hpass] at hno
  exact congrArg _ ((if_neg hover).trans (if_neg hdone))

end

/-! ### The wake receiver (R191) -/

/-- Energy at the level wakes in mode 1, starts the hunt in mode 2, and does both in the others. -/
theorem exec_wrxEnergyDetect_sampling {power : Int} {s : State} (hon : s.domOn Dm.wrx = true) (hst : s.wrx.st = .sample) :
    let u := s.wrxRssi power
    exec (.wrxEnergyDetect power) s = .next (
      if encodePower power < u.wrx.level then u
      else if u.wrx.mode = 1 then u.wakeE
      else if u.wrx.mode = 2 then { u with wrx := { u.wrx with st := .hunt } }
      else { u.wakeE with wrx := { u.wakeE.wrx with st := .hunt } }) := by
  intro u
  have hsamples : ¬((!s.domOn Dm.wrx) = true ∨ s.wrx.st ≠ .sample) := by simp [hon, hst]
  refine congrArg _ ((if_neg hsamples).trans (congrArg (ite _ u) ?_))
  split
  · next hmode => exact (if_pos hmode).symm
  · next hmode => exact ((if_neg fun hone => absurd (hmode.symm.trans hone) (by decide)).trans (if_pos hmode)).symm
  · next hone htwo => exact ((if_neg hone).trans (if_neg htwo)).symm

/-- Settles O25: each clause is the arm of its command that the conditions choose; accesses take effect by the law of their
register, in the state that the served access leaves. -/
theorem linkUpkeepCompletes : Obligations.LinkUpkeepCompletes := by
  unfold Obligations.LinkUpkeepCompletes
  refine ⟨?stateRead, ?ctrl, ?minute, ?windowOpen, ?windowClose, ?passThrough, ?passCut, ?period, ?energy, ?onEnd, ?code, ?hunt⟩
  case stateRead => exact fun ini s hg => congrArg _ (pageRead_served s ini Pg.lnk 0x128 _ hg)
  case ctrl =>
    intro ini s hg u c
    refine ⟨congrArg _ ((pageWrite_served s ini Pg.lnk 0x134 4 _ hg).trans ?_),
      congrArg _ ((pageWrite_served s ini Pg.lnk 0x134 1 _ hg).trans ?_),
      congrArg _ ((pageWrite_served s ini Pg.lnk 0x134 2 _ hg).trans ?_)⟩
    · rw [State.nbCtrl_unanchor]
    · rw [State.nbCtrl_pendSet]
    · rw [State.nbCtrl_pendClr]
  case minute => exact fun s hst => congrArg _ (if_neg hst)
  case windowOpen =>
    intro s a hbcn hend ha c cfg p g hreached u stop k
    change execBeaconWindowOpen s = _
    unfold execBeaconWindowOpen
    simp only [hbcn, hend, ha]
    exact congrArg _ (if_neg (Int.not_lt.mpr hreached))
  case windowClose => exact fun s e hbcn hend hpast hcoming => exec_beaconWindowClose_missed hbcn hend hpast hcoming
  case passThrough => exact fun s hbcn hthrough => exec_searchPassEnd_through hbcn hthrough
  case passCut =>
    exact fun s hbcn hwide hpath hstopped hlane hpass => exec_searchPassEnd_cut hbcn hwide hpath hstopped hlane hpass
  case period =>
    intro s hon hst hmode hnext cfg duty tune u
    have hstarts : ¬((!s.domOn Dm.wrx) = true ∨ s.wrx.st ≠ .sleep ∨ bits (s.wrxReg 0x800) 1 0 = 0 ∨ s.ticks < s.wrx.next) := by
      simp [hon, hst, hmode, hnext]
    exact congrArg _ (if_neg hstarts)
  case energy => exact fun power s hon hst => exec_wrxEnergyDetect_sampling hon hst
  case onEnd => exact fun power s hst hend => congrArg _ (if_neg (by simp [hst, hend]))
  case code =>
    intro code s hst hmatch u v
    have hfound : ¬(s.wrx.st ≠ .hunt ∨ bits s.wrx.code 17 16 < codeErrors code (s.wrx.code.setWidth 16)) :=
      fun h => h.elim (· hst) (Nat.not_lt.mpr hmatch)
    exact congrArg _ (if_neg hfound)
  case hunt => exact fun s hst => congrArg _ (if_neg (not_not_intro hst))

end Sys2Proof.Machine

/-! ## The link controller: its transmissions -/

namespace Sys2Proof.Machine

/-! ### Items enter the schedule (R213, R224) -/

/-- Flips strike before the command's own accesses. -/
theorem exec_lnkTx_flips (k : Nat) (flips : List Flip) (s : State) :
    exec (.lnkTx k flips) s = exec (.lnkTx k []) (s.applyFlips flips) := rfl

/-- A TX item whose MPDU is read goes on to the checks of its issue. -/
theorem exec_lnkTx_read {k : Nat} {s t : State} {i : Item} {bs : List (Option Byte)} {os : List Byte} {e : EccSum}
    (hi : s.lnkItem 1 k = some i) (hroom : s.lnk.jobs.length < 64) (hread : s.unitRead i.addrA i.length = (t, .ok bs e))
    (hknown : knownBytes bs = some os) :
    exec (.lnkTx k []) s = .next (t.txIssue i os) := by
  change execLnkTx k [] s = _
  unfold execLnkTx
  simp only [State.applyFlips_nil, hi, Nat.not_le.mpr hroom, hread, hknown, if_false]

/-! ### Listen before talk, backoffs and waits (R216, R218, R220) -/

section
variable {k : Nat} {s : State} {j : TxJob} (hj : s.job k = some j)
include hj

/-- The listen of an attempt begins in its turn, where its path listens: not before its instant is the listen and 5 µs away
and, of an attempt that has no instant, not before its tune where that takes longer. -/
theorem exec_lbtListenStart_ready {t : State} (hlbt : j.lbt = true) (hl : j.listen = .none)
    (hinstant : ∀ r, s.jobRamp j = some r → r - 5000 - j.listenNs ≤ s.nowNs)
    (htune : s.jobRamp j = none → j.tuneLead ≤ j.listenNs + 5000) (hquiet : s.txaQuiet = true) (hw : s.waiting j = true)
    (hturn : s.turn j = true) (hready : s.listenReady j = (t, some true)) :
    exec (.lbtListenStart k) s = .next (t.updJob k (fun j => { t.withDue j with listen := .running })) := by
  change execLbtListenStart k s = _
  unfold execLbtListenStart
  cases hramp : s.jobRamp j with
  | some r =>
    have hdue : ¬(s.nowNs : Int) < r - 5000 - j.listenNs := Int.not_lt.mpr (hinstant r hramp)
    simp [hj, hramp, hlbt, hl, hdue, hquiet, hw, hturn, hready]
  | none =>
    have hdue : ¬j.listenNs + 5000 < j.tuneLead := Nat.not_lt.mpr (htune hramp)
    simp [hj, hramp, hlbt, hl, hdue, hquiet, hw, hturn, hready]

section
variable (powers : List Int) (draw : Nat) (hl : j.listen = .running)
include hl

theorem exec_lbtListenEnd_free (hfree : powers.all (fun p => encodePower p < s.lbtThreshold j) = true) :
    exec (.lbtListenEnd k powers draw) s = .next (s.updJob k (fun j => { j with listen := .free })) := by
  change execLbtListenEnd k powers draw s = _
  unfold execLbtListenEnd
  simp only [hj, hl, hfree, ne_eq, not_true_eq_false, if_false, if_true]

/-- A busy result ends the item where it is the last that the item allows, and else starts a backoff. -/
theorem exec_lbtListenEnd_busy (hbusy : powers.all (fun p => encodePower p < s.lbtThreshold j) = false) :
    let i := { j with busyTotal := j.busyTotal + 1 }
    exec (.lbtListenEnd k powers draw) s = .next (
      if bits j.txcfg 19 16 ≤ j.busy + 1 then s.txEnd i Sc.channelBusy
      else ((s.updJob k (fun _ => { i with
        listen := .none, tuned := false, due := none, busy := j.busy + 1,
        backoff := some ((s.nowNs : Int) + i.backoffNs j.busy draw) })).unhand (.item k)).closeUse .lbt) := by
  change execLbtListenEnd k powers draw s = _
  unfold execLbtListenEnd
  simp only [hj, hl, hbusy, ne_eq, not_true_eq_false, Bool.false_eq_true, if_false]

end

/-- A backoff between listens leads to the next listen, one after an attempt to the plan of the next attempt. -/
theorem exec_backoffExpire_due {t : Int} (hback : j.backoff = some t) (hdue : t ≤ s.nowNs) :
    exec (.backoffExpire k) s = .next (
      if j.busy ≠ 0 then s.updJob k (fun j => { j with backoff := none }) else s.replan j) := by
  change execBackoffExpire k s = _
  unfold execBackoffExpire
  simp only [hj, hback]
  exact congrArg _ (if_neg (Int.not_lt.mpr hdue))

theorem exec_dwellWindowFree_waits (hwait : j.dwellWait = true) (hfull : s.dwellFull j = false) :
    exec (.dwellWindowFree k) s = .next (s.updJob k (fun j => { j with dwellWait := false, due := none })) := by
  change execDwellWindowFree k s = _
  unfold execDwellWindowFree
  simp only [hj, hwait, hfull, Bool.not_false, and_self, if_true]

/-- A wait that nothing on the air can still end closes: the item was cancelled, has no attempt left, or backs off. -/
theorem exec_ackWaitEnd_over (draw : Nat) {t : Int} (hwait : j.ackWait = some t) (hpast : t ≤ s.nowNs)
    (hcoming : s.ackComing j t = false) :
    let u := s.closeUse .ack
    let i := { j with ackWait := none }
    exec (.ackWaitEnd k draw) s = .next (
      if j.cancel then u.txEnd i Sc.abortedSw
      else if bits j.txcfg 23 20 ≤ j.attempts - 1 then u.txEnd i Sc.noAck
      else u.updJob k (fun _ => { i with
        launch := none, due := none, backoff := some ((u.nowNs : Int) + i.backoffNs 0 draw), busy := 0 })) := by
  have hopen : ¬((s.nowNs : Int) < t ∨ s.ackComing j t = true) := by simp [hpast, hcoming]
  change execAckWaitEnd k draw s = _
  unfold execAckWaitEnd
  simp only [hj, hwait]
  exact congrArg _ (if_neg hopen)

end

/-! ### The acknowledgement's instant (R211) -/

/-- At its instant an acknowledgement ramps in that very cycle, where TXA is ready for it and it delays no frame, or is not
sent. -/
theorem exec_ackInstant_due {s : State} {a : AckDue} {rest : List AckDue} (ha : s.lnk.acks = a :: rest)
    (hdue : s.rampAt a.at_ ≤ s.nowNs) (hair : s.onAirNow .ack = false) :
    exec .ackInstant s = .next (
      if s.txa.cur = some .ack ∧ s.txReady = true ∧ (!s.ackLate a) = true ∧ s.atInstant (s.rampAt a.at_) = true then s.ramp
      else s.ackSkip) := by
  have hnow : ¬((s.nowNs : Int) < s.rampAt a.at_ ∨ s.onAirNow .ack = true) := by simp [hdue, hair]
  change execAckInstant s = _
  unfold execAckInstant
  simp only [ha]
  exact congrArg _ (if_neg hnow)

/-- Settles O23: each clause is the arm of its command that the conditions choose. -/
theorem linkTransmitCompletes : Obligations.LinkTransmitCompletes := by
  unfold Obligations.LinkTransmitCompletes
  refine ⟨?tx, ?wakecode, ?listenStart, ?listenFree, ?listenBusy, ?nextListen, ?nextAttempt, ?dwell, ?ackWait, ?ackRamps,
    ?ackSkipped⟩
  case tx =>
    intro k flips s t i bs os e u hi hroom hread hknown
    rw [exec_lnkTx_flips, exec_lnkTx_read hi hroom hread hknown]
  case wakecode =>
    intro k s i hi hroom freq lat j hlow hhigh hseen
    have hband : ¬(freq < 750000 ∨ 960000 < freq) := by omega
    change execLnkWakecode k s = _
    unfold execLnkWakecode
    simp only [hi]
    refine congrArg _ ((if_neg (Nat.not_le.mpr hroom)).trans ((if_neg hband).trans (if_neg fun ⟨hlbt, hno⟩ => ?_)))
    rw [hseen hlbt] at hno
    cases hno
  case listenStart =>
    exact fun k s t j hj hlbt hl hinstant htune hquiet hw hturn hready =>
      exec_lbtListenStart_ready hj hlbt hl hinstant htune hquiet hw hturn hready
  case listenFree => exact fun k powers draw s j hj hl hfree => exec_lbtListenEnd_free hj powers draw hl hfree
  case listenBusy => exact fun k powers draw s j hj hl hbusy => exec_lbtListenEnd_busy hj powers draw hl hbusy
  case nextListen =>
    intro k s j t hj hback hdue hbusy
    rw [exec_backoffExpire_due hj hback hdue, if_pos hbusy]
  case nextAttempt =>
    intro k s j t hj hback hdue hbusy
    rw [exec_backoffExpire_due hj hback hdue, if_neg (not_not_intro hbusy)]
  case dwell => exact fun k s j hj hwait hfull => exec_dwellWindowFree_waits hj hwait hfull
  case ackWait => exact fun k draw s j t hj hwait hpast hcoming => exec_ackWaitEnd_over hj draw hwait hpast hcoming
  case ackRamps =>
    intro s a rest ha hdue hair hcur hready hlate hat
    rw [exec_ackInstant_due ha hdue hair, if_pos ⟨hcur, hready, by rw [hlate]; rfl, hat⟩]
  case ackSkipped =>
    intro s a rest ha hdue hair hnot
    rw [exec_ackInstant_due ha hdue hair, if_neg (by simpa only [Bool.not_eq_true'] using hnot)]

end Sys2Proof.Machine

/-! ## The link controller: its reception, and its use of the narrow radio -/

namespace Sys2Proof.Machine

/-! ### Frames pass LNK (R206, R220, R222, R226) -/

/-- Flips strike before the command's own accesses. -/
theorem exec_lnkRxSecurity_flips (flips : List Flip) (s : State) :
    exec (.lnkRxSecurity flips) s = exec (.lnkRxSecurity []) (s.applyFlips flips) := rfl

theorem exec_ackReceive_flips (flips : List Flip) (s : State) :
    exec (.ackReceive flips) s = exec (.ackReceive []) (s.applyFlips flips) := rfl

section
variable {s : State} {f : RxFrame} {q : List RxFrame} (hq : s.recv.queue = f :: q) (hready : s.ready Dm.lnk = true)
include hq hready

/-- A frame that has no header is posted as it came. -/
theorem exec_lnkRxSecurity_unread (hparse : Mac.parse f.mpdu = none) :
    exec (.lnkRxSecurity []) s = .next ((s.winSees f none).postHead f) := by
  change execLnkRxSecurity [] s = _
  unfold execLnkRxSecurity
  simp only [State.applyFlips_nil, hq, hready, hparse, Bool.not_true, Bool.false_eq_true, if_false]

section
variable {m : Mac.Mhr} (hparse : Mac.parse f.mpdu = some m)
include hparse

/-- A frame that no attempt waits for is processed where LNK's security is on and the frame is the part's, and is posted as
it came where not. -/
theorem exec_lnkRxSecurity_read (hie : s.ieEn = false) (hack : s.ackFor f m = none) :
    exec (.lnkRxSecurity []) s = .next (
      if !bit (s.lreg 0x80C) 31 ∨ !m.known ∨ (s.addressed m).isNone then (s.winSees f none).postHead f
      else s.rxProcess f (s.ctxOfSource m) m) := by
  change execLnkRxSecurity [] s = _
  unfold execLnkRxSecurity
  simp only [State.applyFlips_nil, hq, hready, hparse, hie, hack, Option.isSome_none, Bool.false_and, Bool.not_true,
    Bool.false_eq_true, if_false]
  rfl

/-- A wake frame of the narrow path is heard before anything else is asked of it. -/
theorem exec_lnkRxSecurity_wake {ttd : Nat} (hie : s.ieEn = true) (hlane : f.lane.no = nbLane)
    (hwake : Mac.wakeFrame f.mpdu m s.oui = some ttd) :
    exec (.lnkRxSecurity []) s = .next (s.wakeHeard f m ttd) := by
  change execLnkRxSecurity [] s = _
  unfold execLnkRxSecurity
  simp only [State.applyFlips_nil, hq, hready, hparse, hie, hlane, hwake, beq_self_eq_true, Bool.and_self, Bool.not_true,
    Bool.false_eq_true, if_false, if_true]

/-- What an attempt ends with when a frame is accepted as its acknowledgement. -/
def State.ackTaken (s : State) (f : RxFrame) (j : TxJob) : State :=
  s.txEnd { j with ackWait := none } (if j.cancel then Sc.abortedSw else j.good) ((Mac.le f.mpdu 0 2).testBit 4) f.lqi f.lane.rssi

section
variable {j : TxJob} (hack : s.ackFor f m = some j)
include hack

/-- An Imm-Ack is taken as it came. -/
theorem exec_ackReceive_imm (hversion : m.version ≤ 1) :
    exec (.ackReceive []) s = .next (((s.winSees f none).postHead f).ackTaken f j) := by
  change execAckReceive [] s = _
  unfold execAckReceive
  simp only [State.applyFlips_nil, hq, hready, hparse, hack, hversion, Bool.not_true, Bool.false_eq_true, if_false, if_true]
  rfl

/-- An Enh-Ack that passes the checks of the attempt's context is accepted from it. -/
theorem exec_ackReceive_enh {out : List Byte} (hversion : 1 < m.version) (hsecured : s.secured f j.ctx m = some (.inr out)) :
    let u := s.placePlain f out
    let v := match j.ctx with | some c => u.accept f c m out | none => u
    exec (.ackReceive []) s = .next (((v.winSees f j.ctx).postHead f).ackTaken f j) := by
  change execAckReceive [] s = _
  unfold execAckReceive
  simp only [State.applyFlips_nil, hq, hready, hparse, hack, Nat.not_le.mpr hversion, hsecured, Bool.not_true,
    Bool.false_eq_true, if_false]
  rfl

end

end

end

/-! ### Receive windows (R223) -/

/-- The window of an RXWIN item that opens now: it runs from the item's launch time where it has one. -/
def State.winOf (s : State) (k : Nat) (i : Item) : RxWin :=
  { item := k
    endAt := (if i.timed then s.launchNs i.ns i.secLo else (s.nowNs : Int)) + (i.length * 1000 : Nat)
    ctx := if i.uflags.testBit 0 then some (bits (i.w 2) 25 16) else none }

/-- A window that ends after now is not too late to open. -/
theorem State.winOf_in_time {s : State} {k : Nat} {i : Item} (hstop : i.timed = true → (s.nowNs : Int) < (s.winOf k i).endAt) :
    ¬(i.timed = true ∧ (s.winOf k i).endAt ≤ s.nowNs) := fun ⟨ht, h⟩ => Int.not_lt.mpr h (hstop ht)

section
variable {k : Nat} {s : State} {i : Item} (hi : s.lnkItem 2 k = some i)
  (hnew : s.lnk.wins.any (fun w => w.item == k) = false) (hlaunch : i.timed = true → i.launched = true) (hlen : i.length ≠ 0)
  (hstop : i.timed = true → (s.nowNs : Int) < (s.winOf k i).endAt)
include hi hnew hlaunch hlen hstop

/-- On the wideband path a window opens whatever the radio does. -/
theorem exec_lnkRxwin_wide (hpath : s.path ≠ 2) :
    exec (.lnkRxwin k) s = .next (s.setLnk (fun l => { l with wins := l.wins ++ [s.winOf k i] })) := by
  obtain ⟨hitem, hunit, hop, hst, hres, hready⟩ := lnkItem_some hi
  change Host.Outcome.next (s.rxwinOpens k) = _
  unfold State.rxwinOpens
  simp only [hitem, hunit, hop, hst, hres, hready, hnew, hlen, Item.not_early hlaunch, hpath, ne_eq, not_true_eq_false,
    not_false_eq_true, Option.isSome_none, Bool.not_true, Bool.false_eq_true, or_self, if_false, if_true]
  exact congrArg _ (if_neg (State.winOf_in_time hstop))

/-- On the narrow path it opens where nothing of a higher rank displaces it, and the path listens on its first entry. -/
theorem exec_lnkRxwin_narrow {n : Nat} (hpath : s.path = 2) (hfrom : s.nbFrom 0 (fun e => (s.winMask i).testBit e) = some n)
    (hdisp : s.displaced 7 n (s.winOf k i).endAt = false) :
    exec (.lnkRxwin k) s = .next ((s.lnkTimer.setLnk (fun l => { l with wins := l.wins ++ [s.winOf k i] })).listenOn n
      (s.winMask i) .rxwin (s.winDwell i)) := by
  obtain ⟨hitem, hunit, hop, hst, hres, hready⟩ := lnkItem_some hi
  change Host.Outcome.next (s.rxwinOpens k) = _
  unfold State.rxwinOpens
  simp only [hitem, hunit, hop, hst, hres, hready, hnew, hlen, Item.not_early hlaunch, hpath, hfrom, ne_eq,
    not_true_eq_false, Option.isSome_none, Bool.not_true, Bool.false_eq_true, or_self, if_false]
  exact congrArg _ ((if_neg (State.winOf_in_time hstop)).trans (if_neg (ne_true_of_eq_false hdisp)))

end

/-! ### Events (R238) -/

/-- The oldest event is posted to its tailrace, where that has room and no earlier record waits for it. -/
theorem exec_lnkEventPost_room {s : State} {e : LnkEvent} {es : List LnkEvent} (he : s.lnk.events = e :: es)
    (hon : bit (s.lreg 0x848) 31 = true) (hroom : s.trRoom (bits (s.lreg 0x848) 29 24) = true)
    (hheld : s.noHeld (bits (s.lreg 0x848) 29 24) = true) (hfirst : s.raisedBefore (bits (s.lreg 0x848) 29 24) e.no = false)
    (hmem : s.rangeStatus (s.trAddr (bits (s.lreg 0x848) 29 24)) 32 = .ready) :
    exec .lnkEventPost s = .next ((s.setLnk (fun l => { l with events := es })).writeReport {
      unit := Pg.lnk, tail := bits (s.lreg 0x848) 29 24, status := Sc.done, tag := word (e.kind * 0x1000000 + e.idx % 0x800),
      ns := e.ns, sec := e.sec, rep6 := e.value, rep7 := word e.merged.toNat }) := by
  change execLnkEventPost s = _
  unfold execLnkEventPost
  simp only [he, hon, hroom, hheld, hfirst, hmem, Bool.not_true, Bool.false_eq_true, or_self, if_false]

/-- Settles O24: each clause is the arm of its command that the conditions choose. -/
theorem linkReceiveCompletes : Obligations.LinkReceiveCompletes := by
  unfold Obligations.LinkReceiveCompletes
  refine ⟨?unread, ?read, ?wake, ?immAck, ?enhAck, ?winWide, ?winNarrow, ?winEnd, ?sample, ?dataOpen, ?dataEnd, ?fpEnd, ?event⟩
  case unread =>
    intro flips s f q u hq hready hparse
    rw [exec_lnkRxSecurity_flips, exec_lnkRxSecurity_unread hq hready hparse]
  case read =>
    intro flips s f q m u hq hready hparse hie hack
    rw [exec_lnkRxSecurity_flips, exec_lnkRxSecurity_read hq hready hparse hie hack]
  case wake =>
    intro flips s f q m ttd u hq hready hparse hie hlane hwake
    rw [exec_lnkRxSecurity_flips, exec_lnkRxSecurity_wake hq hready hparse hie hlane hwake]
  case immAck =>
    intro flips s f q m j u hq hready hparse hack hversion
    rw [exec_ackReceive_flips, exec_ackReceive_imm hq hready hparse hack hversion]
    rfl
  case enhAck =>
    intro flips s f q m j out u hq hready hparse hack hversion hsecured v w
    rw [exec_ackReceive_flips]
    exact exec_ackReceive_enh hq hready hparse hack hversion hsecured
  case winWide =>
    intro k s i hi hnew hlaunch hlen stop hstop hpath ctx
    exact exec_lnkRxwin_wide hi hnew hlaunch hlen hstop hpath
  case winNarrow =>
    intro k n s i hi hnew hlaunch hlen stop hstop hpath hfrom hdisp ctx
    exact exec_lnkRxwin_narrow hi hnew hlaunch hlen hstop hpath hfrom hdisp
  case winEnd =>
    intro k s w hw hover u v
    change execRxwinWindowEnd k s = _
    unfold execRxwinWindowEnd
    simp only [hw]
    exact congrArg _ (if_neg (Int.not_lt.mpr hover))
  case sample =>
    intro s n hnext hreached sl mask u count till
    change execSampleStart s = _
    unfold execSampleStart
    simp only [hnext]
    exact congrArg _ (if_neg (Nat.not_lt.mpr hreached))
  case dataOpen =>
    intro s k t hat hend hreached stop
    have hopens : ¬(s.lnk.dataEnd.isSome = true ∨ (s.nowNs : Int) < t) := by simp [hend, hreached]
    change execDataWindowOpen s = _
    unfold execDataWindowOpen
    simp only [hat]
    exact congrArg _ (if_neg hopens)
  case dataEnd =>
    intro s e hend hover
    change execDataWindowEnd s = _
    unfold execDataWindowEnd
    simp only [hend]
    exact congrArg _ (if_neg (Int.not_lt.mpr hover))
  case fpEnd =>
    intro s k e hend hover
    change execFpListenEnd s = _
    unfold execFpListenEnd
    simp only [hend]
    exact congrArg _ (if_neg (Int.not_lt.mpr hover))
  case event =>
    intro s e es he hon t hroom hheld hfirst hmem
    exact exec_lnkEventPost_room he hon hroom hheld hfirst hmem

end Sys2Proof.Machine

/-! ## The network timebase: an idle cycle, and the commands of clocks, supply voltage and wake sources -/

namespace Sys2Proof.Machine

/-- Settles O2: the idle cycle of the empty queue is one fabric cycle. -/
theorem emptyQueueLetsACyclePass : Obligations.EmptyQueueLetsACyclePass := by
  unfold Obligations.EmptyQueueLetsACyclePass
  exact fun s hq => step_of_pending_nil hq

/-! ### Accesses of PWR's clock registers (R459, R462) -/

@[simp] theorem State.accessed_locked (s : State) (ini : Initiator) (page off p : Nat) :
    (s.accessed ini page off).locked p = s.locked p := congrArg (bit · 0) (State.accessed_reg ..)

/-- A write of XTAL_RETRY that finds the crystal good takes it back into use. -/
theorem State.clkCfgWrite_retry {u : State} {ini : Initiator} {v : Word} (hl : u.locked Pg.pwr = false) (hv : bit v 31 = true)
    (hfail : (u.plainWrite ini Pg.pwr 0 0x81C v).clk.xtalFail = true) :
    u.clkCfgWrite ini v true = ((u.plainWrite ini Pg.pwr 0 0x81C v).setClk (fun c => { c with
      xtalFail := false, xtalOk := true })).setRtc (fun r => { r with onRc := false }) := by
  unfold State.clkCfgWrite State.xtalBack
  simp only [hl, hv, hfail, and_self, Bool.false_eq_true, if_false, if_true]

/-- The word of VCORE_CHANGE holds its bit and nothing else. -/
theorem vcoreWord_fields (low : Bool) : bit (word low.toNat) 0 = low ∧ word low.toNat &&& 1 = word low.toNat := by
  revert low
  decide

/-- VCORE ramps where a write changes it; it goes low only with the three domains that need it high held OFF. -/
theorem State.vcoreWrite_ramps {u : State} (ini : Initiator) {low : Bool} (hl : u.locked Pg.pwr = false)
    (hne : low ≠ bit (u.reg Pg.pwr 0 0x824) 0)
    (hoff : low = true → u.domOff Dm.drc = true ∧ u.domOff Dm.eth = true ∧ u.domOff Dm.cas = true) :
    u.vcoreWrite ini (word low.toNat) =
      (u.setReg Pg.pwr 0 0x824 (word low.toNat)).setClk (fun c => { c with ramping := true }) := by
  obtain ⟨hbit, hmask⟩ := vcoreWord_fields low
  have hmay : ¬(low = true ∧ [Dm.drc, Dm.eth, Dm.cas].any (fun d => !u.domOff d) = true) := fun ⟨hlow, hany⟩ => by
    obtain ⟨hdrc, heth, hcas⟩ := hoff hlow
    simp [hdrc, heth, hcas] at hany
  unfold State.vcoreWrite
  simp only [hl, hbit, hmask, if_neg hne, if_neg hmay, Bool.false_eq_true, if_false]

/-! ### Wake sources (R463) -/

/-- A source in force that asserts is latched, and wakes its targets. -/
theorem State.wakeBy_inForce {s : State} {k : Nat} (hk : k < 8) (hen : bit (s.reg Pg.pwr 0 0x808) k = true)
    (hassert : s.sourceAsserts k = true) :
    s.wakeBy k =
      let u := if k = 3 then s.setCas (fun c => { c with activity := true }) else s
      let u := (u.setReg Pg.pwr 0 0x80C (setBit (u.reg Pg.pwr 0 0x80C) k true)).event Pg.pwr k
      let tgt := bits (u.reg Pg.pwr 0 0x810) (2 * k + 1) (2 * k)
      let u := if k = 3 then u.wake Dm.cas else u
      let u := if tgt.testBit 0 then u.wakeTarget Dm.lnk else u
      if tgt.testBit 1 then u.wakeTarget Dm.ctl else u := by
  have htaken : ¬(8 ≤ k ∨ (!bit (s.reg Pg.pwr 0 0x808) k) = true ∨ (!s.sourceAsserts k) = true) := by
    simp [hen, hassert, hk]
  exact if_neg htaken

/-! ### The reference and the PLLs (R459, R460) -/

section
variable {s : State} {t : Nat} (ht : s.clk.refEn = some t)
include ht

/-- The reference is good once its edges are counted, REF_TICKS after REF_EN. -/
theorem exec_refCheck_good (hdue : t + s.fieldOf Pg.pwr 0 0x81C 7 0 ≤ s.ticks) :
    exec (.refCheck true) s = .next (s.setClk (fun c => { c with refOk := true })) := by
  have hcounted : ¬(s.ticks < t + s.fieldOf Pg.pwr 0 0x81C 7 0 ∨ (!true) = true) := by simp [hdue]
  change execRefCheck true s = _
  unfold execRefCheck
  simp only [ht]
  exact congrArg _ (if_neg hcounted)

/-- A reference that is not good 4 ticks later is reported. -/
theorem exec_refFail_late (hbad : s.clk.refOk = false) (hdue : t + s.fieldOf Pg.pwr 0 0x81C 7 0 + 4 ≤ s.ticks) :
    exec .refFail s = .next (s.event Pg.pwr 17) := by
  have hlate : ¬(s.clk.refOk = true ∨ s.ticks < t + s.fieldOf Pg.pwr 0 0x81C 7 0 + 4) := by simp [hbad, hdue]
  change execRefFail s = _
  unfold execRefFail
  simp only [ht]
  exact congrArg _ (if_neg hlate)

end

section
variable {s : State} (href : s.clk.refOk = true)
include href

/-- On the system PLL's first lock TIM counts on, where no sleep holds it. -/
theorem exec_pllLock_system (hper : s.domUp Dm.per = true) (hopen : s.clk.sysLock = false) :
    exec (.pllLock 0) s =
      let u := s.setClk (fun c => { c with sysLock := true, started := true })
      .next (if s.tim.cap.isNone then u.setTim (fun t => { t with running := true }) else u) := by
  change execPllLock 0 s = _
  unfold execPllLock
  simp only [href, hper, hopen, Bool.not_true, Bool.false_eq_true, or_self, if_false]
  rfl

theorem exec_pllLock_dram (hdrc : s.domUp Dm.drc = true) :
    exec (.pllLock 1) s = .next (s.setClk (fun c => { c with dramLock := true })) := by
  change execPllLock 1 s = _
  unfold execPllLock
  simp only [href, hdrc, Bool.not_true, Bool.false_eq_true, if_false, if_true]

theorem exec_pllLock_ethernet (heth : s.domUp Dm.eth = true) :
    exec (.pllLock 2) s = .next (s.setClk (fun c => { c with ethLock := true })) := by
  change execPllLock 2 s = _
  unfold execPllLock
  simp only [href, heth, Bool.not_true, Bool.false_eq_true, if_false, if_true]

end

/-- A window that has run its ticks gives TIM_TICKPER, and the next one starts. -/
theorem exec_tickperWindowEnd_run {s : State} {w : TickWindow} {e : Int} (hw : s.tim.window = some w) (he : w.done = some e) :
    exec .tickperWindowEnd s = .next (s.setTim (fun t => { t with
      tickper := w.period e, calStale := false
      window := some { tick := w.tick + w.len, len := s.windowLen, start := e } })).rtcFromTim := by
  change execTickperWindowEnd s = _
  unfold execTickperWindowEnd
  simp only [hw, he]

/-- Settles O14: each clause is the arm of its command that the conditions choose; writes take effect by the law of their
register, in the state that the served access leaves. -/
theorem clockCommandsComplete : Obligations.ClockCommandsComplete := by
  unfold Obligations.ClockCommandsComplete
  refine ⟨?wake, ?retry, ?vcore, ?fail, ?refCheck, ?refFail, ?pllSystem, ?pllDram, ?pllEthernet, ?vcoreDone, ?tick, ?window⟩
  case wake => exact fun k s hk hen hassert => congrArg _ (State.wakeBy_inForce hk hen hassert)
  case retry =>
    intro ini s hg hl u hfail
    refine congrArg _ ((pageWrite_served s ini Pg.pwr 0x81C 0 _ hg).trans (congrArg (State.setReply · ini 0 false) ?_))
    simp only [State.accessed_reg]
    exact State.clkCfgWrite_retry (by rwa [State.accessed_locked]) (bit_setBit _ _ _ (by decide)) hfail
  case vcore =>
    intro ini low s hg hl hne u hoff
    refine congrArg _ ((pageWrite_served s ini Pg.pwr 0x824 _ _ hg).trans (congrArg (State.setReply · ini 0 false) ?_))
    exact State.vcoreWrite_ramps ini (by rwa [State.accessed_locked]) (by rwa [State.accessed_reg]) hoff
  case fail => exact fun s hworks => congrArg _ (if_neg (ne_true_of_eq_false hworks))
  case refCheck => exact fun s t ht hdue => exec_refCheck_good ht hdue
  case refFail => exact fun s t ht hbad hdue => exec_refFail_late ht hbad hdue
  case pllSystem => exact fun s href hper hopen => exec_pllLock_system href hper hopen
  case pllDram => exact fun s href hdrc => exec_pllLock_dram href hdrc
  case pllEthernet => exact fun s href heth => exec_pllLock_ethernet href heth
  case vcoreDone => exact fun s hramp => congrArg _ (if_pos hramp)
  case tick => exact fun s => rfl
  case window => exact fun s w e hw he => exec_tickperWindowEnd_run hw he

end Sys2Proof.Machine

/-! ## The network timebase: the commands of TIM -/

namespace Sys2Proof.Machine

/-! ### Adjustments (R245) -/

/-- A pending commit of TIM whose staged TIM_ADJCFG holds a mode carries that mode. -/
theorem State.timCommit_staged {s : State} {c : Commit} {mode : Nat} (hc : s.commitOf Pg.tim = some c)
    (hstaged : s.hasStaged Pg.tim 0 0x814 = true) (hmode : bits (s.stagedReg Pg.tim 0 0x814) 1 0 = mode) :
    s.timCommit mode = some c := by
  unfold State.timCommit
  simp only [hc, hstaged, hmode, and_self, if_true]

section
variable {s : State} {c : Commit}

theorem exec_timSet_commit (h : s.timCommit 1 = some c) : exec .timSet s = .next (s.timSwitch c) := by
  change execTimSet s = _
  unfold execTimSet
  rw [h]

theorem exec_timStep_commit (h : s.timCommit 2 = some c) : exec .timStep s = .next (s.timSwitch c) := by
  change execTimStep s = _
  unfold execTimStep
  rw [h]

theorem exec_timSlew_commit (h : s.timCommit 3 = some c) : exec .timSlew s = .next (s.timSwitch c) := by
  change execTimSlew s = _
  unfold execTimSlew
  rw [h]

end

theorem exec_slewDone_running {s : State} {rem : Int} (hslew : s.tim.slew = some rem) (hrun : s.tim.running = true) :
    exec .slewDone s = .next (s.fabricRun (s.slewCycles rem)) := by
  change execSlewDone s = _
  unfold execSlewDone
  simp only [hslew, hrun, if_true]

/-! ### Comparators and PPS (R256 to R258) -/

/-- An armed comparator whose target TIM has reached is due. -/
theorem State.cmpDue_reached {s : State} {k : Nat} (harmed : bit (s.reg Pg.tim 0 (cmpOff k 0)) 31 = true)
    (hreached : s.cmpTarget k ≤ s.cmpNow) : s.cmpDue k = true := by
  unfold State.cmpDue
  rw [harmed, decide_eq_true hreached]
  rfl

/-- PPS_OUT pulses at a boundary that counting has reached and that no pulse has marked, with EN, and trusted where the pulse is
bound to that. -/
theorem exec_ppsOutPulse_boundary {s : State} (hen : bit (s.reg Pg.tim 0 0x844) 31 = true)
    (htrust : bit (s.reg Pg.tim 0 0x844) 29 = true → s.tim.trusted = true) (hrun : s.tim.running = true)
    (hfrom : s.tim.ppsFrom ≤ s.ppsBoundary) (hnew : s.tim.ppsDone ≠ some s.ppsBoundary) :
    exec .ppsOutPulse s = .next (s.setTim (fun t => { t with
      ppsOut := true, ppsDone := some s.ppsBoundary, ppsLeft := bits (s.reg Pg.tim 0 0x844) 9 0 * 200000 })) := by
  have hallowed : (!bit (s.reg Pg.tim 0 0x844) 29) = true ∨ s.tim.trusted = true :=
    (Bool.eq_false_or_eq_true (bit (s.reg Pg.tim 0 0x844) 29)).symm.imp (fun h => by rw [h]; rfl) htrust
  exact congrArg _ (if_pos ⟨hen, hallowed, hrun, hfrom, hnew⟩)

/-- An edge that PPS_IN takes: the enabled one, while TIM counts and the ball has its supply. -/
theorem State.ppsIn_taken {s : State} {rising : Bool} (hen : bit (s.reg Pg.tim 0 0x84C) 31 = true)
    (hedge : bit (s.reg Pg.tim 0 0x84C) 30 = !rising) (hon : s.domOn Dm.per = true) (hrun : s.tim.running = true)
    (hsup : s.supplied .c = true) :
    ¬((!bit (s.reg Pg.tim 0 0x84C) 31) = true ∨ bit (s.reg Pg.tim 0 0x84C) 30 = rising ∨ (!s.domOn Dm.per) = true ∨
      (!s.tim.running) = true ∨ (!s.supplied .c) = true) := by
  simp [hen, hedge, hon, hrun, hsup]

/-! ### Across sleep (R267) -/

/-- With the PLL locked, a sleep that the crystal ran through loads TIM with the captured time and the ticks since. -/
theorem exec_timWakeLoad_ticked {s : State} {t0 n0 : Nat} (hcap : s.tim.cap = some (t0, n0)) (hlock : s.clk.sysLock = true)
    (hfail : s.tim.sleepFail = false) :
    exec .timWakeLoad s =
      let n := s.ticks - n0
      let el := n * s.tim.tickper.toNat
      let unc := if s.tim.calStale then 2000 else s.fieldOf Pg.tim 0 0x834 15 0
      .next ((s.setUnits ((t0 + el * 2 ^ 12 : Nat) : Int)).jumped.setTim (fun t => { t with
        cap := none, running := true, waketicks := n % 2 ^ 32
        wakeunc := min (30 + (inSteps 267 (2 ^ 16 * 100000000) ((el * unc : Nat) : Int)).toNat) 0xFFFFFFFF })) := by
  change execTimWakeLoad s = _
  unfold execTimWakeLoad
  simp only [hcap, hlock, hfail, Bool.not_true, Bool.false_eq_true, if_false]

/-- Settles O26: each clause is the arm of its command that the conditions choose. -/
theorem timeCommandsComplete : Obligations.TimeCommandsComplete := by
  unfold Obligations.TimeCommandsComplete
  refine ⟨?read, ?adjust, ?slewDone, ?second, ?compare, ?pulse, ?pulseEnd, ?capture, ?beacon, ?wakeLoad⟩
  case read => exact fun ini s hg => congrArg _ (pageRead_served s ini Pg.tim 0x800 _ hg)
  case adjust =>
    intro s c hc hstaged
    have hcommit {mode : Nat} (hmode : bits (s.stagedReg Pg.tim 0 0x814) 1 0 = mode) := State.timCommit_staged hc hstaged hmode
    exact ⟨fun h => exec_timSet_commit (hcommit h), fun h => exec_timStep_commit (hcommit h),
      fun h => exec_timSlew_commit (hcommit h)⟩
  case slewDone => exact fun s rem hslew hrun => exec_slewDone_running hslew hrun
  case second => exact fun s hrun => congrArg _ (if_pos hrun)
  case compare => exact fun k s hk harmed hreached => congrArg _ (if_pos ⟨hk, State.cmpDue_reached harmed hreached⟩)
  case pulse => exact fun s hen htrust hrun hfrom hnew => exec_ppsOutPulse_boundary hen htrust hrun hfrom hnew
  case pulseEnd => exact fun s hdone => congrArg _ (if_pos hdone)
  case capture =>
    exact fun rising s hen hedge hon hrun hsup => congrArg _ (if_neg (State.ppsIn_taken hen hedge hon hrun hsup))
  case beacon =>
    intro s b bs hbeacons u cfg o v d
    change execBeaconSync s = _
    unfold execBeaconSync
    simp only [hbeacons]
    rfl
  case wakeLoad => exact fun s t0 n0 hcap hlock hfail => exec_timWakeLoad_ticked hcap hlock hfail

end Sys2Proof.Machine

/-! ## The network timebase: the Ethernet commands -/

namespace Sys2Proof.Machine

/-! ### Transmission (R264) -/

/-- Flips strike before the command's own accesses. -/
theorem exec_ethTx_flips (k back : Nat) (flips : List Flip) (s : State) :
    exec (.ethTx k back flips) s = exec (.ethTx k back []) (s.applyFlips flips) := rfl

section
variable {k : Nat} {s : State} {i : Item} (hi : s.ethItem k = some i) (hready : s.ready Dm.eth = true)
include hi hready

/-- On a link that is up a frame of an allowed length starts, where the line is free and it is neither early nor late. -/
theorem exec_ethTx_starts {t : State} {back : Nat} {bs : List (Option Byte)} {f : List Byte} {e : EccSum}
    (hfree : s.eth.tx = none) (hshort : 14 ≤ i.length) (hlong : i.length + 4 ≤ s.maxFrame)
    (hlate : s.ethLate i ((s.nowNs : Int) - back + (s.fieldOf Pg.eth 0 0x810 31 16 : Nat)) = false) (hlink : s.eth.link = true)
    (hearly : i.timed = true →
      s.launchNs i.ns i.secLo ≤ (s.nowNs : Int) - back + (s.fieldOf Pg.eth 0 0x810 31 16 : Nat))
    (hread : s.unitRead i.addrA i.length = (t, .ok bs e)) (hknown : knownBytes bs = some f) :
    exec (.ethTx k back []) s = .next (t.ethSend i f back) := by
  have hlength : ¬(i.length < 14 ∨ s.maxFrame < i.length + 4) := by omega
  have hnow : ¬((!s.eth.link) = true ∨ (i.timed = true ∧
      (s.nowNs : Int) - back + (s.fieldOf Pg.eth 0 0x810 31 16 : Nat) < s.launchNs i.ns i.secLo)) := by
    simpa [hlink] using hearly
  change execEthTx k back [] s = _
  unfold execEthTx
  simp only [State.applyFlips_nil, hi, hready, hfree, if_neg hlength, hlate, if_neg hnow, hread, hknown, Bool.not_true,
    Bool.false_eq_true, if_false]

/-- The frame in progress goes out. -/
theorem exec_ethTx_sent (back : Nat) {x : EthTx} (hbusy : s.eth.tx = some x) (hown : x.item = k) :
    exec (.ethTx k back []) s = .next (s.ethSent x) := by
  change execEthTx k back [] s = _
  unfold execEthTx
  simp only [State.applyFlips_nil, hi, hready, hbusy, hown, Bool.not_true, Bool.false_eq_true, if_false, if_true]

end

/-! ### Reception (R265) -/

theorem exec_ethFrameReceive_flips (octets : List Byte) (back : Nat) (flips : List Flip) (s : State) :
    exec (.ethFrameReceive octets back flips) s = exec (.ethFrameReceive octets back []) (s.applyFlips flips) := rfl

/-- The report of a frame that the slot `slot` has taken. -/
def State.ethReport (t : State) (octets : List Byte) (back slot : Nat) : Report :=
  let at_ := t.ethStamp back (-(t.fieldOf Pg.eth 0 0x810 15 0 : Nat))
  { unit := Pg.eth, tail := bits (t.ethRx 0x824) 29 24, status := Sc.done, actual := octets.length
    ns := at_ % 1000000000, sec := at_ / 1000000000, index := slot
    rep6 := match ptpEvent (t.ethRx 0x80C) (octets.take (octets.length - 4)) with
      | some (_, _, ty) => word (0x80000000 + ty * 0x1000000)
      | none => 0 }

/-- A whole frame of an allowed length that passes the address filter takes the next slot, and is reported. -/
theorem exec_ethFrameReceive_taken {octets : List Byte} {s t : State} (back : Nat) {r : MemAns Unit}
    (hready : s.ready Dm.eth = true) (hlink : s.eth.link = true) (hsup : s.supplied .e = true) (hlong : octets.length ≤ s.maxFrame)
    (hfcs : fcsOk false octets = true) (haccept : s.ethAccepts octets = true) (hfree : s.ethFree = true)
    (hwrite : s.unitWrite ((s.ethRx 0x820).toNat + 2048 * (s.ethProd % s.ethSize)) octets = (t, r)) (hdone : r ≠ .waits) :
    exec (.ethFrameReceive octets back []) s =
      .next ((t.setReg Pg.eth 0 0x828 (word ((t.ethProd + 1) % (2 * t.ethSize)))).report
        (t.ethReport octets back (s.ethProd % s.ethSize))) := by
  have hpasses : ¬(s.maxFrame < octets.length ∨ (!s.ethAccepts octets) = true) := by simp [hlong, haccept]
  change execEthFrameReceive octets back [] s = _
  unfold execEthFrameReceive
  simp only [State.applyFlips_nil, hready, hlink, hsup, hfcs, if_neg hpasses, hfree, hwrite, Bool.not_true, Bool.false_eq_true,
    or_self, if_false]
  cases r with
  | waits => exact absurd rfl hdone
  | ok => rfl
  | refused => rfl

/-! ### Management transfers (R261) -/

/-- A write while no transfer runs takes the fields of ETH_MDIO. -/
theorem State.mdioWrite_idle {u : State} (v : Word) (h : bit (u.reg Pg.eth 0 0x838) 31 = false) :
    u.mdioWrite v = u.setReg Pg.eth 0 0x838 (v &&& word (fld 31 30 + fld 25 0)) :=
  if_neg (ne_true_of_eq_false h)

/-- The transfer in progress ends, and GO reads 0; a read leaves the PHY's data. -/
theorem exec_mdioDone_ends {s : State} (data : Half) (hbusy : bit (s.reg Pg.eth 0 0x838) 31 = true)
    (hready : s.ready Dm.eth = true) :
    exec (.mdioDone data) s =
      let w := setBit (s.reg Pg.eth 0 0x838) 31 false
      .next (s.setReg Pg.eth 0 0x838 (if bit (s.reg Pg.eth 0 0x838) 30 then setBits w 15 0 data.toNat else w)) := by
  have hread : bit (setBit (s.reg Pg.eth 0 0x838) 31 false) 30 = bit (s.reg Pg.eth 0 0x838) 30 :=
    bit_setBit_ne _ _ _ _ (by decide) (by decide)
  change execMdioDone data s = _
  unfold execMdioDone
  simp only [hbusy, hready, hread, Bool.not_true, Bool.false_eq_true, or_self, if_false]

/-- Settles O27: each clause is the arm of its command that the conditions choose; writes take effect by the law of their
register, in the state that the served access leaves. -/
theorem ethernetCommandsComplete : Obligations.EthernetCommandsComplete := by
  unfold Obligations.EthernetCommandsComplete
  refine ⟨?starts, ?sent, ?receive, ?cons, ?mdio, ?mdioDone, ?link, ?magic⟩
  case starts =>
    intro k back flips s t i bs f e u start hi hready hfree hshort hlong hlate hlink hearly hread hknown
    rw [exec_ethTx_flips]
    exact exec_ethTx_starts hi hready hfree hshort hlong hlate hlink hearly hread hknown
  case sent =>
    intro k back flips s i x u hi hready hbusy hown
    rw [exec_ethTx_flips]
    exact exec_ethTx_sent hi hready back hbusy hown
  case receive =>
    intro octets back flips s t r u hready hlink hsup hlong hfcs haccept hfree slot hwrite hdone at_ rep v
    rw [exec_ethFrameReceive_flips]
    exact exec_ethFrameReceive_taken back hready hlink hsup hlong hfcs haccept hfree hwrite hdone
  case cons => exact fun ini v s hg => congrArg _ (pageWrite_served s ini Pg.eth 0x82C v _ hg)
  case mdio =>
    intro ini v s hg u hidle
    refine congrArg _ ((pageWrite_served s ini Pg.eth 0x838 v _ hg).trans ?_)
    rw [State.mdioWrite_idle _ hidle]
  case mdioDone => exact fun data s hbusy hready => exec_mdioDone_ends data hbusy hready
  case link => exact fun up speed s hready => congrArg _ (if_neg (by simp [hready]))
  case magic => exact fun s hst hphase hen => congrArg _ (if_pos ⟨hst, hphase, hen⟩)

end Sys2Proof.Machine

/-! ## The Ehriq cores: instructions by their shapes -/

namespace Sys2Proof.Machine

/-! ### Operations on operands -/

theorem shortBin_ok {g : Word → Word → Alu} {x y : BitVec 5} {e e1 e2 e3 : Ev} {a b : Word}
    (hx : (e.locate 4 (shortOpnd x)).2.read 4 (e.locate 4 (shortOpnd x)).1 = .ok a e1) (hy : e1.src 4 (shortOpnd y) = .ok b e2)
    (hw : e2.check 4 (e.locate 4 (shortOpnd x)).1 = .ok () e3) :
    shortBin g x y e = .ok ((e3.eff.put 4 (e.locate 4 (shortOpnd x)).1 (g a b).val).flags (g a b).flags) e3 := by
  simp only [shortBin, hx, Res.andThen, hy, hw, Ev.done]

theorem shortCmp_ok {g : Word → Word → Alu} {x y : BitVec 5} {e e1 e2 : Ev} {a b : Word}
    (hx : e.src 4 (shortOpnd x) = .ok a e1) (hy : e1.src 4 (shortOpnd y) = .ok b e2) :
    shortCmp g x y e = .ok (e2.eff.flags (g a b).flags) e2 := by
  simp only [shortCmp, hx, Res.andThen, hy]

theorem shortUn_ok {g : Word → Alu} {x y : BitVec 5} {e e1 e2 : Ev} {b : Word} {l : Loc}
    (hy : e.src 4 (shortOpnd y) = .ok b e1) (hx : e1.dst 4 (shortOpnd x) = .ok l e2) :
    shortUn g x y e = .ok ((e2.eff.put 4 l (g b).val).flags (g b).flags) e2 := by
  simp only [shortUn, hy, Res.andThen, hx, Ev.done]

theorem shortImm_ok {g : Word → BitVec 5 → Alu} {x y : BitVec 5} {e e1 e2 : Ev} {a : Word}
    (hx : (e.locate 4 (shortOpnd x)).2.read 4 (e.locate 4 (shortOpnd x)).1 = .ok a e1)
    (hw : e1.check 4 (e.locate 4 (shortOpnd x)).1 = .ok () e2) :
    shortImm g x y e = .ok ((e2.eff.put 4 (e.locate 4 (shortOpnd x)).1 (g a y).val).flags (g a y).flags) e2 := by
  simp only [shortImm, hx, Res.andThen, hw, Ev.done]

/-- A zero divisor traps after the result, where DZE asks for it (R291). -/
theorem longDiv_ok {g : Word → Word → Word → Alu} {o : Opnds} {e e1 e2 e3 : Ev} {a b : Word} {l : Loc}
    (ha : e.src 4 o.a = .ok a e1) (hb : e1.src 4 o.b = .ok b e2) (hd : e2.dst 4 o.d = .ok l e3) :
    longDiv g o e = .ok { (e3.eff.put 4 l (g e3.x.sw a b).val).flags (g e3.x.sw a b).flags with
      trap := if b = 0 ∧ bit e3.x.sw 30 then some (6, none) else none } e3 := by
  simp only [longDiv, ha, Res.andThen, hb, hd, Ev.done]
  rfl

/-! ### Long instructions -/

theorem LongPlain.of_runLong {cmd : Core → LongForm → Instr} {opc : Nat} {ok : LongForm → Prop}
    {x : LongForm → Opnds → Ev → Eff}
    (h : ∀ c f s, ok f → exec (cmd c f) s = .next (s.runLong c opc f true (fun o e => .ok (x f o e) e))) :
    LongPlain cmd opc ok x := by
  intro c f s o e hb hok
  rw [h c f s hok, runLong_begins hb rfl]

theorem LongUnary.of_runLong {cmd : Core → LongForm → Instr} {opc k m : Nat} {g : Word → Word → Alu}
    (h : ∀ c f s, exec (cmd c f) s = .next (s.runLong c opc f true (longUn k m g))) :
    LongUnary cmd (fun _ => opc) (fun _ => True) (fun _ => k) (fun _ => m) (fun _ => g) := by
  intro c f s o e e1 e2 a l hb _ ha hd
  rw [h, runLong_begins hb (longUn_ok ha hd)]

theorem LongBinary.of_runLong {cmd : Core → LongForm → Instr} {opc k : Nat} {g : Word → Word → Word → Alu}
    (h : ∀ c f s, exec (cmd c f) s = .next (s.runLong c opc f true (longBin k g))) :
    LongBinary cmd (fun _ => opc) (fun _ => True) (fun _ => k) (fun _ => g) := by
  intro c f s o e e1 e2 e3 a b l hbegins _ ha hb hd
  rw [h, runLong_begins hbegins (longBin_ok ha hb hd)]

/-! ### Long instructions of a family with sizes (R287) -/

theorem LongUnary.of_runSized {cmd : Core → LongForm → Instr} {opc : Nat} (g : Nat → Word → Word → Alu)
    (h : ∀ c f s, exec (cmd c f) s = .next (s.runSized c opc f (fun k => longUn k k (g k)))) :
    LongUnary cmd (fun f => opc + f.size.toNat) (fun f => f.size ≠ 3) opSize opSize (fun f => g (opSize f)) := by
  intro c f s o e e1 e2 a l hb hsize ha hd
  rw [h, runSized_begins hb hsize (longUn_ok ha hd)]

theorem LongBinary.of_runSized {cmd : Core → LongForm → Instr} {opc : Nat} (g : Nat → Word → Word → Word → Alu)
    (h : ∀ c f s, exec (cmd c f) s = .next (s.runSized c opc f (fun k => longBin k (g k)))) :
    LongBinary cmd (fun f => opc + f.size.toNat) (fun f => f.size ≠ 3) opSize (fun f => g (opSize f)) := by
  intro c f s o e e1 e2 e3 a b l hbegins hsize ha hb hd
  rw [h, runSized_begins hbegins hsize (longBin_ok ha hb hd)]

theorem LongCompare.of_runSized {cmd : Core → LongForm → Instr} {opc : Nat} (g : Nat → Word → Word → Alu)
    (h : ∀ c f s, exec (cmd c f) s = .next (s.runSized c opc f (fun k => longCmp k (g k)))) :
    LongCompare cmd (fun f => opc + f.size.toNat) (fun f => f.size ≠ 3) opSize (fun f => g (opSize f)) := by
  intro c f s o e e1 e2 a b hbegins hsize ha hb
  rw [h, runSized_begins hbegins hsize (longCmp_ok ha hb)]

/-! ### Short instructions -/

/-- A 16-bit instruction that begins stands on a control core, and its halfword spells OP5 (R281, R282). -/
theorem beginsShort_some {s : State} {c : Core} {op5 : Nat} {f : ShortForm} {e : Ev} (h : s.beginsShort c op5 f = some e) :
    c.link = false ∧ f.op5 = op5 ∧ s.begins c f.via f.code = some e := by
  unfold State.beginsShort at h
  split at h
  · cases h
  · next hspells =>
    obtain ⟨⟨hcontrol, -⟩, hop5⟩ : (c.link = false ∧ bit f.half 15 = false) ∧ f.op5 = op5 := by
      simpa only [Bool.not_eq_true, Bool.or_eq_false_iff, bne_eq_false_iff_eq] using hspells
    exact ⟨hcontrol, hop5, h⟩

theorem ShortPlain.of_runShort {cmd : Core → ShortForm → Instr} {op5 : Nat} {ok : ShortForm → Prop} {x : ShortForm → Ev → Eff}
    {k : ShortOp} (h : ∀ c f s, exec (cmd c f) s = .next (s.runShort c op5 f k))
    (hk : ∀ f e, ok f → k f.x f.y e = .ok (x f e) e) : ShortPlain cmd op5 ok x := by
  intro c f s e hb hok
  rw [h, runShort_begins hb (hk f e hok)]

theorem ShortUnary.of_runShort {cmd : Core → ShortForm → Instr} {op5 : Nat} {g : Word → Alu}
    (h : ∀ c f s, exec (cmd c f) s = .next (s.runShort c op5 f (shortUn g))) : ShortUnary cmd op5 g := by
  intro c f s e e1 e2 b l hb hy hx
  rw [h, runShort_begins hb (shortUn_ok hy hx)]

theorem ShortBinary.of_runShort {cmd : Core → ShortForm → Instr} {op5 : Nat} {g : Word → Word → Alu}
    (h : ∀ c f s, exec (cmd c f) s = .next (s.runShort c op5 f (shortBin g))) : ShortBinary cmd op5 g := by
  intro c f s e e1 e2 e3 a b hb l hx hy hw
  rw [h, runShort_begins hb (shortBin_ok hx hy hw)]

theorem ShortCompare.of_runShort {cmd : Core → ShortForm → Instr} {op5 : Nat} {g : Word → Word → Alu}
    (h : ∀ c f s, exec (cmd c f) s = .next (s.runShort c op5 f (shortCmp g))) : ShortCompare cmd op5 g := by
  intro c f s e e1 e2 a b hb hx hy
  rw [h, runShort_begins hb (shortCmp_ok hx hy)]

theorem ShortImmediate.of_runShort {cmd : Core → ShortForm → Instr} {op5 : Nat} {g : Word → BitVec 5 → Alu}
    (h : ∀ c f s, exec (cmd c f) s = .next (s.runShort c op5 f (shortImm g))) : ShortImmediate cmd op5 g := by
  intro c f s e e1 e2 a hb l hx hw
  rw [h, runShort_begins hb (shortImm_ok hx hw)]

/-- The value of MOVI goes to its destination, and leaves the flags. -/
theorem shMovi_ok {x y : BitVec 5} {e e1 : Ev} {l : Loc} (hx : e.dst 4 (shortOpnd x) = .ok l e1) :
    shMovi x y e = .ok (e1.eff.put 4 l (word (unsigned 32 (signed 5 y.toNat)))) e1 := by
  simp only [shMovi, hx, Res.andThen, Ev.done, yVal]
  rfl

/-- Settles O28: every instruction is run by the shape of its operands, and the law of that shape gives the state it answers. -/
theorem dataInstructionsComplete : Obligations.DataInstructionsComplete := by
  unfold Obligations.DataInstructionsComplete
  refine ⟨.of_runLong fun _ _ _ _ => rfl, .of_runShort (fun _ _ _ => rfl) fun _ _ _ => rfl,
    .of_runSized (fun _ _ a => { val := a }) fun _ _ _ => rfl, .of_runShort fun _ _ _ => rfl,
    .of_runSized (fun k _ a b => addW k a b false) fun _ _ _ => rfl, .of_runShort fun _ _ _ => rfl,
    .of_runSized (fun k _ a b => subW k a b false) fun _ _ _ => rfl, .of_runShort fun _ _ _ => rfl,
    .of_runSized (fun k _ a b => logicW k (a &&& b)) fun _ _ _ => rfl, .of_runShort fun _ _ _ => rfl,
    .of_runSized (fun k _ a b => logicW k (a ||| b)) fun _ _ _ => rfl, .of_runShort fun _ _ _ => rfl,
    .of_runSized (fun k _ a b => logicW k (a ^^^ b)) fun _ _ _ => rfl, .of_runShort fun _ _ _ => rfl,
    .of_runSized (fun k a b => subW k a b false) fun _ _ _ => rfl, .of_runShort fun _ _ _ => rfl,
    .of_runSized (fun k _ a => subW k 0 a false) fun _ _ _ => rfl, .of_runShort fun _ _ _ => rfl,
    .of_runSized (fun k _ a => logicW k (~~~a)) fun _ _ _ => rfl, .of_runShort fun _ _ _ => rfl,
    .of_runSized (fun k sw a b => addW k a b (bit sw Flag.c)) fun _ _ _ => rfl,
    .of_runSized (fun k sw a b => subW k a b (bit sw Flag.c)) fun _ _ _ => rfl,
    .of_runSized (fun k a b => logicW k (a &&& b)) fun _ _ _ => rfl, .of_runShort fun _ _ _ => rfl,
    ?movi, .of_runShort fun _ _ _ => rfl, .of_runShort fun _ _ _ => rfl, .of_runShort fun _ _ _ => rfl, .of_runShort fun _ _ _ => rfl,
    .of_runLong fun _ _ _ => rfl, .of_runLong fun _ _ _ => rfl, .of_runLong fun _ _ _ => rfl, .of_runLong fun _ _ _ => rfl,
    .of_runLong fun _ _ _ => rfl, .of_runLong fun _ _ _ => rfl, .of_runLong fun _ _ _ => rfl, ?divisions,
    .of_runLong fun _ _ _ => rfl, .of_runLong fun _ _ _ => rfl, .of_runLong fun _ _ _ => rfl, .of_runLong fun _ _ _ => rfl,
    .of_runLong fun _ _ _ => rfl, .of_runLong fun _ _ _ => rfl, .of_runLong fun _ _ _ => rfl, .of_runLong fun _ _ _ => rfl⟩
  case movi => exact fun c f s e e1 l hb hx => congrArg _ (runShort_begins hb (shMovi_ok hx))
  case divisions =>
    intro c f s o e e1 e2 e3 a b l ha hb hd x
    exact ⟨fun h => congrArg _ (runLong_begins h (longDiv_ok ha hb hd)), fun h => congrArg _ (runLong_begins h (longDiv_ok ha hb hd)),
      fun h => congrArg _ (runLong_begins h (longDiv_ok ha hb hd)), fun h => congrArg _ (runLong_begins h (longDiv_ok ha hb hd))⟩

end Sys2Proof.Machine

/-! ## The Ehriq cores: the accumulator instructions -/

namespace Sys2Proof.Machine

/-! ### Sums of the accumulators (R292) -/

/-- One accumulator gains a value: its sum, with V. -/
theorem accAddEff_one (x : Cpu) (f : Eff) (n : Nat) (p : Int) :
    accAddEff x f [(n, p)] =
      (f.also (fun y => y.setAcc n (accOf (accVal (x.acc n) + p)))).flags (setV (overflows 72 (accVal (x.acc n) + p))) := by
  simp only [accAddEff, List.foldl_cons, List.foldl_nil, List.any_cons, List.any_nil, Bool.or_false]

/-- Both accumulators gain the parts of a complex product; V says whether either sum overflows. -/
theorem cmacEff_eq (j : Bool) (x : Cpu) (f : Eff) (a b : Word) :
    cmacEff j x f a b =
      let u := accVal x.acc0 + (cmul j a b).1
      let v := accVal x.acc1 + (cmul j a b).2
      ((f.also (fun y => { y with acc0 := accOf u })).also (fun y => { y with acc1 := accOf v })).flags
        (setV (overflows 72 u || overflows 72 v)) := by
  simp only [cmacEff, accAddEff, List.foldl_cons, List.foldl_nil, List.any_cons, List.any_nil, Bool.or_false]
  rfl

theorem longMac_ok {n : Nat} {neg : Bool} {o : Opnds} {e e1 e2 : Ev} {a b : Word} (ha : e.src 2 o.a = .ok a e1)
    (hb : e1.src 2 o.b = .ok b e2) :
    longMac n neg o e = .ok (accAddEff e2.x e2.eff [(n, if neg then -(sval 2 a * sval 2 b) else sval 2 a * sval 2 b)]) e2 := by
  simp only [longMac, ha, Res.andThen, hb]

theorem longCmac_ok {j : Bool} {o : Opnds} {e e1 e2 : Ev} {a b : Word} (ha : e.src 4 o.a = .ok a e1)
    (hb : e1.src 4 o.b = .ok b e2) : longCmac j o e = .ok (cmacEff j e2.x e2.eff a b) e2 := by
  simp only [longCmac, ha, Res.andThen, hb]

/-- A short multiply-accumulate takes both operands from memory. -/
theorem shortMac_ok {k : Nat} {g : Cpu → Eff → Word → Word → Eff} {x y : BitVec 5} {e e1 e2 : Ev} {a b : Word}
    (hx : x.toNat < 24) (hy : y.toNat < 24) (ha : e.src k (shortOpnd x) = .ok a e1) (hb : e1.src k (shortOpnd y) = .ok b e2) :
    shortMac k g x y e = .ok (g e2.x e2.eff a b) e2 := by
  have hmem : ¬(24 ≤ x.toNat ∨ 24 ≤ y.toNat) := by omega
  simp only [shortMac, if_neg hmem, ha, Res.andThen, hb]

/-! ### The operations that D selects (R295) -/

theorem LongPlain.of_runAccop {cmd : Core → LongForm → Instr} {d : BitVec 7} {k : Cpu → Eff → Eff}
    (h : ∀ c f s, exec (cmd c f) s = .next (s.runAccop c d.toNat f k)) :
    LongPlain cmd 0x4F (fun f => f.d = d) (fun _ _ e => k e.x e.eff) := by
  refine .of_runLong fun c f s hd => ?_
  rw [h, State.runAccop, if_neg (by simp [hd])]

/-- The accumulator that bit 15 of SAC's halfword names (R294). -/
theorem Cpu.acc_bit (x : Cpu) (w : Half) : x.acc (bit w 15).toNat = if bit w 15 then x.acc1 else x.acc0 := by
  cases bit w 15 <;> rfl

/-- SAC stores its accumulator where its halfword is a legal one. -/
theorem exec_sac_stores {c : Core} {f : LongForm} {s : State} {o : Opnds} {e e1 : Ev} {l : Loc}
    (hbegins : s.beginsLong c 0x4D f = some (o, e)) (hshift : bits o.own 6 0 ≤ 40) (hzero : o.own &&& 0x7E80 = 0)
    (hd : e.dst 4 o.d = .ok l e1) :
    exec (.sac c f) s =
      let r := sacW (bit e1.x.sw 29) (if bit o.own 15 then e1.x.acc1 else e1.x.acc0) (bit o.own 8) (bits o.own 6 0)
      .next (s.endsLong c 0x4D f e1 ((e1.eff.put 4 l r.val).flags r.flags)) := by
  obtain ⟨-, -, rfl, -⟩ := beginsShaped_some hbegins
  refine congrArg _ (runLong_begins_if (by rw [hzero, decide_eq_true hshift]; rfl) hbegins ?_)
  simp only [hd, Res.andThen, Ev.done, Cpu.acc_bit]
  rfl

/-- Settles O29: products and sums by the law of the accumulators, each form by the law of its shape. -/
theorem accumulatorInstructionsComplete : Obligations.AccumulatorInstructionsComplete := by
  unfold Obligations.AccumulatorInstructionsComplete
  refine ⟨?mac, ?macShort, ?complex, ?complexShort, ?clra, ?sac, ?lac,
    .of_runAccop (k := fun _ f => f.also (fun y => { y with acc0 := 0 })) fun _ _ _ => rfl,
    .of_runAccop (k := fun _ f => f.also (fun y => { y with acc1 := 0 })) fun _ _ _ => rfl,
    .of_runAccop (k := fun x f => acc0Eff f (accVal x.acc0 + accVal x.acc1)) fun _ _ _ => rfl,
    .of_runAccop (k := fun x f => acc0Eff f (accVal x.acc0 - accVal x.acc1)) fun _ _ _ => rfl,
    .of_runAccop (k := fun x f => f.also (fun y => { y with acc0 := x.acc1, acc1 := x.acc0 })) fun _ _ _ => rfl,
    .of_runAccop (k := fun x f => acc0Eff f (-accVal x.acc0)) fun _ _ _ => rfl⟩
  case mac =>
    intro c f s o e e1 e2 a b hacc ha hb p x
    have hfield : accField f = true := decide_eq_true hacc
    have hmac : ∀ neg, longMac f.d.toNat neg o e = .ok (x (if neg then -p else p)) e2 := fun neg =>
      (longMac_ok ha hb).trans (congrArg (Res.ok · e2) (accAddEff_one ..))
    exact ⟨fun h => congrArg _ (runLong_begins_if hfield h (hmac false)), fun h => congrArg _ (runLong_begins_if hfield h (hmac true)),
      fun h => congrArg _ (runLong_begins_if hfield h (hmac false))⟩
  case macShort =>
    intro c f s e e1 e2 a b k hbegins hx hy ha hb v
    have hnum : f.op5 % 2 = k.toNat := by
      rw [(beginsShort_some hbegins).2.1]
      cases k <;> rfl
    change Host.Outcome.next (s.runShort c (0x10 + f.op5 % 2) f (shMacdR (f.op5 % 2))) = _
    rw [hnum]
    exact congrArg _ (runShort_begins hbegins ((shortMac_ok hx hy ha hb).trans (congrArg (Res.ok · e2) (accAddEff_one ..))))
  case complex =>
    intro c f s o e e1 e2 a b ha hb x
    have hmac : ∀ j, longCmac j o e = .ok (x j) e2 := fun j => (longCmac_ok ha hb).trans (congrArg (Res.ok · e2) (cmacEff_eq ..))
    exact ⟨fun h => congrArg _ (runLong_begins h (hmac false)), fun h => congrArg _ (runLong_begins h (hmac true))⟩
  case complexShort =>
    intro c f s e e1 e2 a b hx hy ha hb x
    have hmac : ∀ j, shMacdC j f.x f.y e = .ok (x j) e2 := fun j =>
      (shortMac_ok hx hy ha hb).trans (congrArg (Res.ok · e2) (cmacEff_eq ..))
    exact ⟨fun h => congrArg _ (runShort_begins h (hmac false)), fun h => congrArg _ (runShort_begins h (hmac true))⟩
  case clra =>
    refine .of_runShort (fun _ _ _ => rfl) fun f e hzero => ?_
    have hlegal : ¬(f.x ≠ 0 ∨ 1 < f.y.toNat) := fun h => h.elim (· hzero.1) (Nat.not_lt.mpr hzero.2)
    exact if_neg hlegal
  case sac => exact fun c f s o e e1 l hbegins hshift hzero hd => exec_sac_stores hbegins hshift hzero hd
  case lac =>
    intro c f s o e e1 a hbegins hacc ha
    refine congrArg _ (runLong_begins_if (decide_eq_true hacc) hbegins ?_)
    simp only [ha, Res.andThen]

end Sys2Proof.Machine

/-! ## The Ehriq cores: special registers, control and loops -/

namespace Sys2Proof.Machine

/-! ### Branches and calls -/

/-- A core's evaluation is of that core. -/
theorem begins_core {s : State} {c : Core} {via : Fetch} {code : List Byte} {e : Ev} (h : s.begins c via code = some e) : e.c = c := by
  simp only [State.begins] at h
  split at h
  · split at h
    · split at h
      · simp only [Option.some.injEq] at h
        subst h
        rfl
      · cases h
    · cases h
  · cases h

/-- A short branch of a control core counts its offset in halfwords (R269, R286). -/
theorem shBranch_ok {s : State} {c : Core} {op5 : Nat} {f : ShortForm} {e : Ev} (h : s.beginsShort c op5 f = some e)
    (p : Word → Bool) :
    shBranch p f.x f.y e = .ok (if p e.x.sw then e.eff.goto (plus e.pc (signed 10 (f.x.toNat * 32 + f.y.toNat) * 2)) else e.eff) e := by
  obtain ⟨hcontrol, -, hbegins⟩ := beginsShort_some h
  have hunit : Core.unit e.c = 2 := by rw [begins_core hbegins, Core.unit, hcontrol]; rfl
  simp only [shBranch, hunit]
  rfl

theorem retEff_ok {e e1 : Ev} {t : Word} (h : e.readMem 4 e.x.sp = .ok t e1) :
    retEff e = .ok ((e1.eff.also (fun x => { x with sp := x.sp + 4 })).goto t) e1 := by
  simp only [retEff, h, Res.andThen]

/-! ### Loops (R296, R298) -/

section
variable {c : Core} {f : LongForm} {s : State} {o : Opnds} {e e1 : Ev} (hbegins : s.beginsLong c 0x60 f = some (o, e))
  (hbody : ((shapeOf 0x60).getD {}).bytes c f ≤ o.own.toNat * Core.unit c)
include hbegins hbody

/-- A loop with a count above 0 takes the next level, where one is free. -/
theorem exec_loop_enters {count : Word} (hcount : e.src 4 o.a = .ok count e1) (hne : count ≠ 0) (hfree : e1.x.ld < 4) :
    exec (.loop c f) s = .next (s.endsLong c 0x60 f e1 (e1.eff.also (fun x =>
      x.pushLoop (plus e1.pc (((shapeOf 0x60).getD {}).bytes c f)) (plus e1.pc (o.own.toNat * Core.unit c : Nat)) count))) := by
  obtain ⟨-, -, rfl, -⟩ := beginsShaped_some hbegins
  refine congrArg _ (runLong_begins_if (decide_eq_true hbody) hbegins ?_)
  simp only [hcount, Res.andThen, if_neg hne, if_neg (Nat.not_le.mpr hfree)]

/-- A loop with a count of 0 goes to the instruction after its last one. -/
theorem exec_loop_skips {e2 : Ev} {t : Word} (hcount : e.src 4 o.a = .ok 0 e1)
    (hafter : e1.after (plus e1.pc (o.own.toNat * Core.unit c : Nat)) = .ok t e2) :
    exec (.loop c f) s = .next (s.endsLong c 0x60 f e2 (e2.eff.goto t)) := by
  obtain ⟨-, -, rfl, -⟩ := beginsShaped_some hbegins
  refine congrArg _ (runLong_begins_if (decide_eq_true hbody) hbegins ?_)
  simp only [hcount, Res.andThen, if_true, hafter]

end

/-- Settles O30: instructions without an operand in memory by the law of their shape, the others by the accesses that their
conditions answer. -/
theorem controlInstructionsComplete : Obligations.ControlInstructionsComplete := by
  unfold Obligations.ControlInstructionsComplete
  refine ⟨?mfs, ?mts, ?xchg, ?cas, .of_runLong fun _ _ _ _ => rfl, ?bcc, ?branches, ?call, ?ret, ?retShort, ?callm, ?retm, ?reti,
    .of_runLong fun _ _ _ _ => rfl, ?bkpt, ?loop, ?loopZero, ?brkl, .of_runLong fun _ _ _ _ => rfl, ?wfiShort,
    .of_runLong fun _ _ _ _ => rfl, .of_runLong fun _ _ _ _ => rfl, .of_runLong fun _ _ _ _ => rfl, .of_runLong fun _ _ _ _ => rfl⟩
  case mfs =>
    intro c f s o e e1 l hbegins hnum hd
    refine congrArg _ (runLong_begins_if (decide_eq_true hnum) hbegins ?_)
    rw [hd]
    rfl
  case mts =>
    intro c f s o e e1 v hbegins hnum ha hlevels
    have hlegal : ¬(f.d = 1 ∧ (4 < bits v 26 24 ∨ 4 < bits v 22 20)) := fun h => by
      have := hlevels h.1
      omega
    refine congrArg _ (runLong_begins_if (decide_eq_true hnum) hbegins ?_)
    simp only [ha, Res.andThen, if_neg hlegal]
  case xchg =>
    intro c f s o e e1 e2 a d hbegins ha hd
    refine congrArg _ (runLong_begins hbegins ?_)
    simp only [ha, hd, Res.andThen]
  case cas =>
    intro c f s o e e1 e2 e3 a b d hbegins ha hb hd
    refine congrArg _ (runLong_begins hbegins ?_)
    simp only [ha, hb, hd, Res.andThen]
  case bcc =>
    refine .of_runLong fun c f s hcond => ?_
    change Host.Outcome.next (s.runLong c 0x59 f (decide (f.d.toNat < 16)) _) = _
    rw [decide_eq_true hcond]
  case branches =>
    intro c f s e x
    exact ⟨fun h => congrArg _ (runShort_begins h (shBranch_ok h _)), fun h => congrArg _ (runShort_begins h (shBranch_ok h _)),
      fun h => congrArg _ (runShort_begins h (shBranch_ok h _))⟩
  case call =>
    intro c f s o e e1 hbegins hfree hpush ret
    refine congrArg _ (runLong_begins hbegins ?_)
    simp only [hfree, Res.andThen, hpush, Bool.not_true, Bool.false_eq_true, if_false]
    rfl
  case ret => exact fun c f s o e e1 t hbegins ht => congrArg _ (runLong_begins hbegins (retEff_ok ht))
  case retShort =>
    intro c f s e e1 t hbegins hx hy ht
    have hlegal : ¬(f.x ≠ 0 ∨ f.y ≠ 0) := by simp [hx, hy]
    exact congrArg _ (runShort_begins hbegins ((if_neg hlegal).trans (retEff_ok ht)))
  case callm =>
    intro c f s o e e1 hbegins hmask ret ws hfree
    obtain ⟨-, -, rfl, -⟩ := beginsShaped_some hbegins
    refine congrArg _ (runLong_begins_if (decide_eq_true hmask) hbegins ?_)
    exact congrArg (Res.andThen · _) hfree
  case retm =>
    intro c f s o e e1 e2 e3 m t vs hbegins hm hvs ht
    refine congrArg _ (runLong_begins hbegins ?_)
    simp only [hm, hvs, ht, Res.andThen]
  case reti =>
    intro c f s o e e1 e2 t sw hbegins ht hsw
    refine congrArg _ (runLong_begins hbegins ?_)
    simp only [ht, hsw, Res.andThen, swMask]
  case bkpt => exact fun c held f s o e hbegins => congrArg _ (runLong_begins hbegins rfl)
  case loop =>
    exact fun c f s o e e1 count hbegins hbody hcount hne hfree => exec_loop_enters hbegins hbody hcount hne hfree
  case loopZero => exact fun c f s o e e1 e2 t hbegins hbody hcount hafter => exec_loop_skips hbegins hbody hcount hafter
  case brkl => exact fun c f s o e hbegins hld => congrArg _ (runLong_begins hbegins (if_neg hld))
  case wfiShort =>
    refine .of_runShort (fun _ _ _ => rfl) fun f e hzero => ?_
    have hlegal : ¬(f.x ≠ 0 ∨ f.y ≠ 0) := by simp [hzero]
    exact if_neg hlegal

end Sys2Proof.Machine

/-! ## The Ehriq cores: paired words, emulated opcodes and the commands of the cores -/

namespace Sys2Proof.Machine

/-! ### Paired words (R284) -/

/-- Both slots take effect, B after A. -/
theorem pairEff_ok {a b : BitVec 15} {e e1 e2 : Ev} {f g : Eff} (hslot : slotBOnly (shortOp5 a) = false)
    (ha : shortOp (shortOp5 a) (shortX a) (shortY a) e = .ok f e1)
    (hb : shortOp (shortOp5 b) (shortX b) (shortY b) { e with s := e1.s } = .ok g e2) :
    pairEff a b e = .ok { set := f.set ++ g.set, upd := fun x => g.upd (f.upd x), stores := f.stores ++ g.stores
                          jump := g.jump, wfi := g.wfi } e2 := by
  simp only [pairEff, hslot, Bool.false_eq_true, if_false, ha, hb, Res.andThen, inSlotB]

theorem exec_pairedWord_ends {c : Core} {w : Word} {via : Fetch} {s : State} {e e2 : Ev} {x : Eff} (hlink : c.link = true)
    (hpair : bit w 31 = true) (hbegins : s.begins c via (bytesOfWord w) = some e) (hx : pairEff (pairA w) (pairB w) e = .ok x e2) :
    exec (.pairedWord c w via) s = .next (s.ends c via
      { len := 4, opc := shortOp5 (pairA w), opcB := shortOp5 (pairB w), short := true, ops := 2
        point := bit w 30 || decide (7 ≤ (s.cpu c).pairs) } e2 x) := by
  change execPairedWord c w via s = _
  unfold execPairedWord
  rw [hlink, hpair]
  exact congrArg _ (execute_begins hbegins hx)

/-! ### Words without a row of their own -/

/-- The fault of a coprocessor word outside the functions of R302. -/
theorem copFault_eq (f : LongForm) (o : Opnds) (e : Ev) :
    copFault f o e =
      let legal := !f.bad && copFieldOk o.a && copFieldOk o.b && copFieldOk o.d
      .fault { vector := if legal && (decide (6 ≤ f.opc % 16) || decide (f.opc % 2 = 1)) then 3 else 1 } e.s := by
  have hlegal : (f.bad || !copFieldOk o.a || !copFieldOk o.b || !copFieldOk o.d) =
      !(!f.bad && copFieldOk o.a && copFieldOk o.b && copFieldOk o.d) := by simp
  unfold copFault illegal
  rw [hlegal]
  cases !f.bad && copFieldOk o.a && copFieldOk o.b && copFieldOk o.d
  case false => rfl
  case true =>
    by_cases habsent : 6 ≤ f.opc % 16 ∨ f.opc % 2 = 1 <;> simp [habsent]

section
variable {c : Core} {f : LongForm} {s : State} {e : Ev} (hstands : f.stands c = true)
include hstands

/-- A reserved opcode raises EMUL. -/
theorem exec_emul_reserved (hshape : shapeOf f.opc = none) (hbegins : s.begins c f.via (f.code (lengthOf c f.word)) = some e) :
    exec (.emul c (.long f)) s = .next ((s.applyFlips f.via.flips).coreFault e.s c { len := lengthOf c f.word, opc := f.opc }
      ((s.applyFlips f.via.flips).cpu c).pc { vector := 2 }) := by
  change execEmul c (.long f) s = _
  unfold execEmul
  simp only [hstands, Bool.not_true, Bool.false_eq_true, if_false, hshape]
  exact congrArg _ (execute_faults hbegins rfl)

theorem exec_emul_coprocessor {h : Shape} (hshape : shapeOf f.opc = some h) (hlo : 0xE0 ≤ f.opc) (hhi : f.opc ≤ 0xEF)
    (habsent : funcKnown (f.opc % 16 / 2) (fnFunc (h.opnds f).own) = false ∨ f.opc % 2 = 1)
    (hbegins : s.begins c f.via (f.code (lengthOf c f.word)) = some e) {v : CoreFault} (hfault : copFault f (h.opnds f) e = .fault v e.s) :
    exec (.emul c (.long f)) s = .next ((s.applyFlips f.via.flips).coreFault e.s c { len := lengthOf c f.word, opc := f.opc }
      ((s.applyFlips f.via.flips).cpu c).pc v) := by
  have hunknown : (!(funcKnown (f.opc % 16 / 2) (fnFunc (h.opnds f).own) && f.opc % 2 == 0)) = true := by
    rcases habsent with hfunc | hodd
    · simp [hfunc]
    · simp [hodd]
  change execEmul c (.long f) s = _
  unfold execEmul
  simp only [hstands, Bool.not_true, Bool.false_eq_true, if_false, hshape]
  rw [if_pos ⟨hlo, hhi, hunknown⟩]
  exact congrArg _ (execute_faults hbegins hfault)

/-- An operation on accumulators that D does not select is illegal. -/
theorem exec_emul_accop (hopc : f.opc = 0x4F) (hd : 5 < f.d.toNat)
    (hbegins : s.begins c f.via (f.code (((shapeOf 0x4F).getD {}).bytes c f)) = some e) :
    exec (.emul c (.long f)) s = .next ((s.applyFlips f.via.flips).coreFault e.s c
      { len := ((shapeOf 0x4F).getD {}).bytes c f, opc := 0x4F } ((s.applyFlips f.via.flips).cpu c).pc { vector := 1 }) := by
  have hshape : shapeOf 0x4F = some { d := .num } := rfl
  change execEmul c (.long f) s = _
  unfold execEmul
  simp only [hstands, Bool.not_true, Bool.false_eq_true, if_false, hopc, hshape]
  rw [if_neg (by omega), if_pos ⟨trivial, hd⟩, State.runLong, State.runShaped, if_neg (by simp [hstands, hopc])]
  exact congrArg _ (execute_faults hbegins (by rw [Bool.and_false]; rfl))

end

/-- The reserved short operations raise EMUL (R286). -/
theorem shortOp_reserved {op5 : Nat} (h : 0x1A ≤ op5) (x y : BitVec 5) (e : Ev) : shortOp op5 x y e = .fault { vector := 2 } e.s := by
  unfold shortOp
  split
  case h_27 => rfl
  all_goals omega

theorem exec_emul_short {c : Core} {f : ShortForm} {s : State} {e : Ev} (hreserved : 0x1A ≤ f.op5)
    (hbegins : s.beginsShort c f.op5 f = some e) :
    exec (.emul c (.short f)) s = .next ((s.applyFlips f.via.flips).coreFault e.s c { len := 2, opc := f.op5, short := true }
      ((s.applyFlips f.via.flips).cpu c).pc { vector := 2 }) := by
  obtain ⟨-, -, hbegins'⟩ := beginsShort_some hbegins
  have hspells : ¬((c.link || bit f.half 15 || f.op5 != f.op5) = true) := by
    intro h
    rw [State.beginsShort, if_pos h] at hbegins
    cases hbegins
  change Host.Outcome.next (if 0x1A ≤ f.op5 then s.runShort c f.op5 f (shortOp f.op5) else s) = _
  rw [if_pos hreserved, State.runShort, if_neg hspells]
  exact congrArg _ (execute_faults hbegins' (shortOp_reserved hreserved f.x f.y e))

/-- Settles O31: both slots take effect where both evaluate, the words of no other row fault by what they spell, and the commands of
the cores take the branch that their conditions choose. -/
theorem coreControlCompletes : Obligations.CoreControlCompletes := by
  unfold Obligations.CoreControlCompletes
  refine ⟨?pair, ?reserved, ?coprocessor, ?accop, ?short, ?runHalt, ?interrupt, ?wake⟩
  case pair =>
    intro c w via s e e1 e2 f g hlink hpair hbegins a b hslot ha hb
    exact exec_pairedWord_ends hlink hpair hbegins (pairEff_ok hslot ha hb)
  case reserved => exact fun c f s e hstands hshape hbegins => exec_emul_reserved hstands hshape hbegins
  case coprocessor =>
    intro c f s e h hstands hshape hlo hhi habsent u n legal hbegins
    exact exec_emul_coprocessor hstands hshape hlo hhi habsent hbegins (copFault_eq f (h.opnds f) e)
  case accop => exact fun c f s e hstands hopc hd hbegins => exec_emul_accop hstands hopc hd hbegins
  case short => exact fun c f s e hreserved hbegins => exec_emul_short hreserved hbegins
  case runHalt =>
    exact fun ini c s hg => ⟨congrArg _ (pageWrite_served s ini (cpuPage c) 0x800 _ _ hg),
      congrArg _ (pageWrite_served s ini (cpuPage c) 0x800 _ _ hg)⟩
  case interrupt =>
    intro c s t i hruns hpoint hstalled hie hwin henter
    change execInterruptEntry c s = _
    unfold execInterruptEntry
    simp only [hruns, hpoint, hstalled, hie, hwin, henter, Bool.not_true, Bool.false_eq_true, or_self, if_false]
  case wake =>
    intro c s hst hready hreset hany
    exact congrArg _ (if_pos ⟨hst, hready, by rw [hreset]; rfl, hany⟩)

end Sys2Proof.Machine

/-! ## The Ehriq cores: the coprocessor functions -/

namespace Sys2Proof.Machine

theorem toBlocks_ok {e e' : Ev} {o : Opnd} {bs : List Byte} (h : Ev.checkMany 4 (bs.length / 4) (e.addr 4 o) e = .ok () e') :
    e.toBlocks o bs = .ok (e'.eff.putMany 4 (e.addr 4 o) (wordsOfBytes (bs.length / 4) bs)) e' := by
  simp only [Ev.toBlocks, h, Res.andThen]

theorem toOctets_ok {e e' : Ev} {o : Opnd} {bs : List Byte} (h : Ev.checkMany 1 bs.length (e.addr 1 o) e = .ok () e') :
    e.toOctets o bs = .ok (e'.eff.putMany 1 (e.addr 1 o) (bs.map (fun b => b.setWidth 32))) e' := by
  simp only [Ev.toOctets, h, Res.andThen]

/-- A function of the blocks at A goes to D. -/
theorem blocks_unary_ok {n : Nat} (g : List Byte → List Byte) {o : Opnds} {e e1 e2 : Ev} {a : List Byte}
    (ha : e.blocks n o.a = .ok a e1) (hd : Ev.checkMany 4 ((g a).length / 4) (e1.addr 4 o.d) e1 = .ok () e2) :
    ((e.blocks n o.a).andThen fun a e => e.toBlocks o.d (g a)) =
      .ok (e2.eff.putMany 4 (e1.addr 4 o.d) (wordsOfBytes ((g a).length / 4) (g a))) e2 := by
  simp only [ha, Res.andThen, toBlocks_ok hd]

/-- A function of the blocks at A and at B goes to D. -/
theorem blocks_binary_ok {n m : Nat} (g : List Byte → List Byte → List Byte) {o : Opnds} {e e1 e2 e3 : Ev} {a b : List Byte}
    (ha : e.blocks n o.a = .ok a e1) (hb : e1.blocks m o.b = .ok b e2)
    (hd : Ev.checkMany 4 ((g a b).length / 4) (e2.addr 4 o.d) e2 = .ok () e3) :
    ((e.blocks n o.a).andThen fun a e => (e.blocks m o.b).andThen fun b e => e.toBlocks o.d (g a b)) =
      .ok (e3.eff.putMany 4 (e2.addr 4 o.d) (wordsOfBytes ((g a b).length / 4) (g a b))) e3 := by
  simp only [ha, hb, Res.andThen, toBlocks_ok hd]

theorem crcRun_ok {k n : Nat} {g : Nat → List Byte → Nat} {o : Opnds} {e e1 e2 e3 : Ev} {bs : List Byte} {v : Word}
    (ha : e.octets n o.a = .ok bs e1) (hb : e1.readMem k (e1.addr k o.b) = .ok v e2)
    (hd : e2.checkMem k (e2.addr k o.d) = .ok () e3) :
    crcRun k g n o e = .ok (e3.eff.put k (.mem (e2.addr k o.d)) (word (g v.toNat bs))) e3 := by
  simp only [crcRun, ha, hb, hd, Res.andThen]

/-- A coder stores its octets at D, and its state in the low bits of B. -/
theorem coderRun_ok {k width n : Nat} {g : List Byte → Nat → List Byte × Nat} {o : Opnds} {e e1 e2 e3 e4 : Ev} {bs : List Byte}
    {v : Word} (ha : e.octets n o.a = .ok bs e1) (hb : e1.readMem k (e1.addr k o.b) = .ok v e2)
    (hstate : e2.checkMem k (e1.addr k o.b) = .ok () e3)
    (hd : Ev.checkMany 1 (g bs (v.toNat % 2 ^ width)).1.length (e3.addr 1 o.d) e3 = .ok () e4) :
    coderRun k width g n o e = .ok
      ((e4.eff.putMany 1 (e3.addr 1 o.d) ((g bs (v.toNat % 2 ^ width)).1.map (fun b => b.setWidth 32))).put k (.mem (e1.addr k o.b))
        (word (v.toNat / 2 ^ width * 2 ^ width + (g bs (v.toNat % 2 ^ width)).2 % 2 ^ width))) e4 := by
  simp only [coderRun, ha, hb, hstate, toOctets_ok hd, Res.andThen]

/-- Settles O32: a function whose operands are read and whose destination may be written commits what the table gives, and one
with a count of 0 commits nothing. -/
theorem coprocessorInstructionsComplete : Obligations.CoprocessorInstructionsComplete := by
  unfold Obligations.CoprocessorInstructionsComplete
  intro ab az
  refine ⟨?blocks2, ?blocks1, ?xcorr, ?energy, ?peak, ?crc, ?coder, ?zero⟩
  case blocks2 =>
    intro c f s o e e1 e2 e3 a b hn ha q w
    exact ⟨fun hbegins hb hd => congrArg _ (runCop_begins hbegins hn (blocks_binary_ok xorBytes ha hb hd)),
      fun hbegins hb hd => congrArg _ (runCop_begins hbegins hn
        (blocks_binary_ok (fun a b => (blocksOf (fnCount o.own) a).flatMap (fun x => Crypto.gfMul x b)) ha hb hd))⟩
  case blocks1 =>
    intro c f s o e e1 e2 a hn q w
    exact ⟨fun hbegins ha hd => congrArg _ (runCop_begins hbegins hn (blocks_unary_ok (ctrAdd · (fnCount o.own)) ha hd)),
      fun hbegins ha hd => congrArg _ (runCop_begins hbegins hn
        (blocks_unary_ok (fun a => (blocksOf (fnCount o.own) a).flatMap List.reverse) ha hd))⟩
  case xcorr =>
    intro c f s o e e1 e2 a b hn hbegins ha hb ps
    refine congrArg _ (runCop_begins hbegins hn ?_)
    simp only [ha, hb, Res.andThen]
    rfl
  case energy =>
    intro c f s o e e1 a hn hbegins ha
    refine congrArg _ (runCop_begins hbegins hn ?_)
    simp only [ha, Res.andThen]
    rfl
  case peak =>
    intro c f s o e e1 e2 a hn hbegins ha hd
    refine congrArg _ (runCop_begins hbegins hn ?_)
    simp only [ha, hd, Res.andThen]
    rfl
  case crc =>
    intro c f s o e e1 e2 e3 bs v hn ha w
    exact ⟨fun hbegins hb hd => congrArg _ (runCop_begins hbegins hn (crcRun_ok ha hb hd)),
      fun hbegins hb hd => congrArg _ (runCop_begins hbegins hn (crcRun_ok ha hb hd))⟩
  case coder =>
    intro c f s o e e1 e2 e3 e4 bs v hn ha w
    exact ⟨fun hbegins hb hstate hd => congrArg _ (runCop_begins hbegins hn (coderRun_ok ha hb hstate hd)),
      fun hbegins hb hstate hd => congrArg _ (runCop_begins hbegins hn (coderRun_ok ha hb hstate hd))⟩
  case zero =>
    intro c f s o e hn w
    refine ⟨?_, ?_, ?_, ?_, ?_, ?_, ?_, ?_, ?_, ?_, ?_⟩ <;> exact fun h => congrArg _ (runCop_zero h hn)

end Sys2Proof.Machine

/-! ## The Ehriq cores: the instruction caches (R311) -/

namespace Sys2Proof.Machine

/-! ### The core that an update leaves -/

theorem State.cpu_setCpu (s : State) (c : Core) (x : Cpu) : (s.setCpu c x).cpu c = x := Sparse.get_insert _ _ _ _

theorem State.cpu_of_cpus {s t : State} (c : Core) (h : t.cpus = s.cpus) : t.cpu c = s.cpu c := by
  unfold State.cpu
  rw [h]

theorem State.haltCore_icache (s : State) (c : Core) : ((s.haltCore c).cpu c).icache = (s.cpu c).icache := by
  unfold State.haltCore
  rw [State.cpu_of_cpus c ((State.event_within ..).same .cpus (by simp)), State.cpu_setCpu]

theorem State.acceptPoint_icache (s : State) (c : Core) (point : Bool) :
    ((s.acceptPoint c point).cpu c).icache = (s.cpu c).icache := by
  unfold State.acceptPoint
  dsimp only
  split
  · rfl
  · split
    · split
      · rw [State.haltCore_icache, State.cpu_setCpu]
      · rw [State.cpu_setCpu]
    · rw [State.cpu_setCpu]

/-- Leaving loops changes the loop registers, and no cache. -/
theorem closeLoops_icache (pc next : Word) (n : Nat) (x : Cpu) : (closeLoops pc next n x).1.icache = x.icache := by
  induction n generalizing x with
  | zero => rfl
  | succ n ih =>
    unfold closeLoops
    dsimp only
    split
    · rfl
    · split
      · rfl
      · exact ih _

/-- The pointers of an effect change no cache. -/
theorem Eff.apply_icache (f : Eff) (x : Cpu) : (f.apply x).icache = (f.upd x).icache := by
  unfold Eff.apply
  generalize f.upd x = y
  induction f.set generalizing y with
  | nil => rfl
  | cons p l ih => exact ih _

/-- An effect that stores nothing, traps nowhere and goes on in sequence leaves the cache that its registers have. -/
theorem State.commitCore_icache (s0 s : State) (c : Core) (i : Info) (pc : Word) {f : Eff} (hstores : f.stores = []) (hjump : f.jump = none)
    (htrap : f.trap = none) (hhold : f.hold = false) :
    ((s0.commitCore s c i pc f).cpu c).icache = (f.upd (s.cpu c)).icache := by
  have hclosed := (closeLoops_icache pc (pc + word i.len) 4 (f.apply (s.cpu c))).trans (f.apply_icache _)
  unfold State.commitCore
  simp only [hstores, hjump, htrap, hhold, List.foldl_nil, Bool.false_eq_true, if_false]
  refine (apply_ite (fun t : State => (t.cpu c).icache) _ _ _).trans ?_
  simp only [State.acceptPoint_icache, State.cpu_setCpu, ite_self]
  exact hclosed

/-! ### Lines that a change of flash invalidates -/

theorem Sparse.get_map {α : Type} (d : α) (g : α → α) (hd : g d = d) (m : Sparse α) (k : Nat) :
    Sparse.get d (m.map (fun e => (e.1, g e.2))) k = g (Sparse.get d m k) := by
  induction m with
  | nil => exact hd.symm
  | cons e m ih =>
    simp only [List.map_cons, Sparse.get]
    split
    · rfl
    · exact ih

theorem State.cacheDrop_cpu (s : State) (a n : Nat) (c : Core) :
    (s.cacheDrop a n).cpu c =
      { s.cpu c with icache := Sparse.keep (fun k => k + 1 < a || a + n ≤ k) (s.cpu c).icache } :=
  Sparse.get_map ({} : Cpu) (fun x => { x with icache := Sparse.keep (fun k => k + 1 < a || a + n ≤ k) x.icache }) rfl s.cpus c.id

/-- No cache holds a line of a range that has been dropped. -/
theorem State.cacheDrop_holds_none (s : State) (a n : Nat) (c : Core) {k : Nat} (hlo : a ≤ k) (hhi : k < a + n) :
    ((s.cacheDrop a n).cpu c).icache.any (fun x => x.1 == k) = false := by
  rw [State.cacheDrop_cpu, List.any_eq_false]
  intro x hx hk
  have hkept := (List.mem_filter.mp hx).2
  simp only [Bool.or_eq_true, decide_eq_true_eq, beq_iff_eq] at hkept hk
  omega

/-- A programmed word ends with its lines dropped. -/
theorem State.wordDone_cpus (s : State) (o : FlashOp) : ∃ u : State, (s.wordDone o).cpus = (u.cacheDrop (0x08000000 + o.pos) 8).cpus := by
  refine ⟨((List.range 8).foldl (fun s k =>
    s.setOctet (0x08000000 + o.pos + k) (((o.src.getD (o.pos - o.start + k) none)).getD 0xFF)) s).setFlashErr o.pos .good, ?_⟩
  unfold State.wordDone
  dsimp only
  split
  · exact (State.endFlashOp_within ..).same .cpus (by decide)
  · split
    · split
      · exact (State.endFlashOp_within ..).same .cpus (by decide)
      · rfl
    · rfl

/-! ### Fetches -/

/-- An empty cache holds no halfword of a range. -/
theorem Cpu.cached_empty {x : Cpu} {a n : Nat} (h : x.icache = []) (hn : 2 ≤ n) : x.cached a n = none := by
  have hsome : ¬(List.range (n / 2)).all (fun k => Sparse.has x.icache (a + 2 * k)) = true := fun hall => by
    have := List.all_eq_true.mp hall 0 (List.mem_range.mpr (by omega))
    rw [h] at this
    cases this
  exact if_neg hsome

/-- Settles O59: ICINV commits an empty cache, the changes of flash drop their range from every cache, and an empty cache answers
no fetch. -/
theorem cachesFollowIcinvAndFlash : Obligations.CachesFollowIcinvAndFlash := by
  unfold Obligations.CachesFollowIcinvAndFlash
  refine ⟨?icinv, ?erased, ?programmed, ?empty⟩
  case icinv =>
    intro c f s o e hbegins
    refine ⟨_, congrArg Host.Outcome.next (runLong_begins hbegins rfl), ?_⟩
    unfold State.endsLong State.ends
    exact State.commitCore_icache _ _ _ _ _ rfl rfl rfl rfl
  case erased => exact fun s sec k c hlo hhi => s.cacheDrop_holds_none _ 0x1000 c hlo (by omega)
  case programmed =>
    intro s o k c hlo hhi
    obtain ⟨u, hu⟩ := s.wordDone_cpus o
    rw [State.cpu_of_cpus c hu]
    exact u.cacheDrop_holds_none _ 8 c hlo (by omega)
  case empty =>
    intro s c a n hempty hn
    unfold State.fetch
    rw [Cpu.cached_empty hempty hn, ite_self, ite_self]

end Sys2Proof.Machine

/-! ## The Ehriq cores: sums and differences (R289) -/

namespace Sys2Proof.Machine

section
variable {k : Nat} (hk : k = 1 ∨ k = 2 ∨ k = 4)
include hk

/-- A signed value agrees with its bits modulo the operand size. -/
theorem sval_emod (w : Word) : sval k w % (2 ^ (8 * k) : Nat) = (w.toNat % 2 ^ (8 * k) : Nat) := by
  unfold sval signed
  rcases hk with rfl | rfl | rfl <;> split <;> omega

/-- An integer leaves the signed range exactly where the signed value of its low bits is another one. -/
theorem overflows_iff_ne_sval {x : Int} {r : Word} (hr : (r.toNat : Int) = x % (2 ^ (8 * k) : Nat)) :
    overflows (8 * k) x = true ↔ x ≠ sval k r := by
  unfold overflows sval signed
  simp only [Bool.or_eq_true, decide_eq_true_eq]
  rcases hk with rfl | rfl | rfl <;> split <;> omega

theorem cutTo_eq_self {r : Word} (hr : r.toNat < 2 ^ (8 * k)) : cutTo k r = r :=
  BitVec.eq_of_toNat_eq ((cutTo_toNat k r hk).trans (Nat.mod_eq_of_lt hr))

/-- The flags of a sum or difference `x` whose low bits are `r`. -/
theorem arithmetic_flags {x : Int} {r : Word} (hr : (r.toNat : Int) = x % (2 ^ (8 * k) : Nat)) (p : Prop) [Decidable p] (sw : Word) :
    let w := setV (overflows (8 * k) x) (setC (decide p) (setNZ k r sw))
    (bit w Flag.c = true ↔ p) ∧ (bit w Flag.v = true ↔ x ≠ sval k r) ∧ (bit w Flag.n = true ↔ 2 ^ (8 * k) / 2 ≤ r.toNat) ∧
      (bit w Flag.z = true ↔ r = 0) ∧ bit w Flag.dz = bit sw Flag.dz := by
  have hlt : r.toNat < 2 ^ (8 * k) := by
    have := Int.emod_lt_of_pos x (Int.natCast_pos.mpr (Nat.two_pow_pos (8 * k)))
    omega
  simp only [setV, setC, setNZ, bit_setBit_if, Flag.c, Flag.v, Flag.n, Flag.z, Flag.dz, Nat.reduceLT, Nat.reduceEqDiff, if_true, if_false]
  refine ⟨decide_eq_true_iff, overflows_iff_ne_sval hk hr, ?_, ?_, trivial⟩
  · rw [bit_top r k hk hlt, decide_eq_true_eq]
  · rw [cutTo_eq_self hk hlt, beq_iff_eq]

theorem addW_toNat (a b : Word) (cin : Bool) :
    (addW k a b cin).val.toNat = (a.toNat % 2 ^ (8 * k) + b.toNat % 2 ^ (8 * k) + cin.toNat) % 2 ^ (8 * k) := by
  unfold addW
  simp only [cutTo_toNat _ _ hk, word, BitVec.toNat_ofNat]
  exact Nat.mod_mod_of_dvd _ (Nat.pow_dvd_pow 2 (by omega))

theorem subW_toNat (a b : Word) (cin : Bool) :
    ((subW k a b cin).val.toNat : Int) =
      ((a.toNat % 2 ^ (8 * k) : Nat) - (b.toNat % 2 ^ (8 * k) : Nat) - cin.toNat) % (2 ^ (8 * k) : Nat) := by
  unfold subW unsigned
  simp only [cutTo_toNat _ _ hk, word, BitVec.toNat_ofNat]
  rcases hk with rfl | rfl | rfl <;> omega

/-- The signed sum agrees with the result modulo the operand size. -/
theorem addW_sval (a b : Word) (cin : Bool) :
    ((addW k a b cin).val.toNat : Int) = (sval k a + sval k b + cin.toNat) % (2 ^ (8 * k) : Nat) := by
  rw [addW_toNat hk]
  have ha := sval_emod hk a
  have hb := sval_emod hk b
  rcases hk with rfl | rfl | rfl <;> omega

/-- The signed difference agrees with the result modulo the operand size. -/
theorem subW_sval (a b : Word) (cin : Bool) :
    ((subW k a b cin).val.toNat : Int) = (sval k a - sval k b - cin.toNat) % (2 ^ (8 * k) : Nat) := by
  rw [subW_toNat hk]
  have ha := sval_emod hk a
  have hb := sval_emod hk b
  rcases hk with rfl | rfl | rfl <;> omega

/-- The difference and what is subtracted add up to A, modulo the operand size. -/
theorem subW_add_back (a b : Word) (cin : Bool) :
    ((subW k a b cin).val.toNat + b.toNat % 2 ^ (8 * k) + cin.toNat) % 2 ^ (8 * k) = a.toNat % 2 ^ (8 * k) ∧
      (subW k a b cin).val.toNat < 2 ^ (8 * k) := by
  have hsub := subW_toNat hk a b cin
  rcases hk with rfl | rfl | rfl <;> constructor <;> omega

end

/-- Settles O53: the result is the sum or difference modulo the operand size, the signed one agrees with it modulo that size, and the
flags are those of any such result. -/
theorem sumsAndDifferencesSetTheirFlags : Obligations.SumsAndDifferencesSetTheirFlags := by
  unfold Obligations.SumsAndDifferencesSetTheirFlags
  intro k a b sw cin hk m x y flags
  have hx : (cutTo k a).toNat = x := cutTo_toNat k a hk
  have hy : (cutTo k b).toNat = y := cutTo_toNat k b hk
  have hcarry : m ≤ (cutTo k a).toNat + (cutTo k b).toNat + cin.toNat ↔ m ≤ x + y + cin.toNat := by rw [hx, hy]
  have hborrow : ((cutTo k a).toNat : Int) - (cutTo k b).toNat - cin.toNat < 0 ↔ x < y + cin.toNat := by
    rw [hx, hy]
    omega
  obtain ⟨hc, hrest⟩ := arithmetic_flags hk (addW_sval hk a b cin) (m ≤ (cutTo k a).toNat + (cutTo k b).toNat + cin.toNat) sw
  obtain ⟨hc', hrest'⟩ :=
    arithmetic_flags hk (subW_sval hk a b cin) (((cutTo k a).toNat : Int) - (cutTo k b).toNat - cin.toNat < 0) sw
  obtain ⟨hback, hlt⟩ := subW_add_back hk a b cin
  exact ⟨addW_toNat hk a b cin, ⟨hc.trans hcarry, hrest⟩, hback, hlt, hc'.trans hborrow, hrest'⟩

end Sys2Proof.Machine

/-! ## The Ehriq cores: shifts and rotates (R290) -/

namespace Sys2Proof.Machine

/-! ### What each shift answers for its count -/

theorem shlW_of_lt {a : Word} {n : Nat} (h1 : 1 ≤ n) (h31 : n ≤ 31) : shlW a n = shiftAlu (a <<< n) (some (bit a (32 - n))) := by
  rw [shlW, if_neg (by omega), if_pos (by omega)]

theorem shrW_of_lt {a : Word} {n : Nat} (h1 : 1 ≤ n) (h31 : n ≤ 31) : shrW a n = shiftAlu (a >>> n) (some (bit a (n - 1))) := by
  rw [shrW, if_neg (by omega), if_pos (by omega)]

theorem sarW_of_lt {a : Word} {n : Nat} (h1 : 1 ≤ n) (h31 : n ≤ 31) :
    sarW a n = shiftAlu (a.sshiftRight n) (some (bit a (n - 1))) := by
  rw [sarW, if_neg (by omega), if_pos (by omega)]

theorem shlW_whole (a : Word) : shlW a 32 = shiftAlu 0 (some (bit a 0)) := by
  rw [shlW, if_neg (by omega), if_neg (by omega), beq_self_eq_true, Bool.true_and]

theorem shrW_whole (a : Word) : shrW a 32 = shiftAlu 0 (some (bit a 31)) := by
  rw [shrW, if_neg (by omega), if_neg (by omega), beq_self_eq_true, Bool.true_and]

theorem shlW_of_gt (a : Word) {n : Nat} (h : 33 ≤ n) : shlW a n = shiftAlu 0 (some false) := by
  rw [shlW, if_neg (by omega), if_neg (by omega), beq_false_of_ne (by omega), Bool.false_and]

theorem shrW_of_gt (a : Word) {n : Nat} (h : 33 ≤ n) : shrW a n = shiftAlu 0 (some false) := by
  rw [shrW, if_neg (by omega), if_neg (by omega), beq_false_of_ne (by omega), Bool.false_and]

theorem sarW_of_ge (a : Word) {n : Nat} (h : 32 ≤ n) :
    sarW a n = shiftAlu (if bit a 31 then 0xFFFFFFFF else 0) (some (bit a 31)) := by
  rw [sarW, if_neg (by omega), if_neg (by omega)]

theorem rolW_of_pos (a : Word) {n : Nat} (h : 1 ≤ n) :
    rolW a n = shiftAlu (a.rotateLeft (n % 32)) (some (bit (a.rotateLeft (n % 32)) 0)) := if_neg (by omega)

theorem rorW_of_pos (a : Word) {n : Nat} (h : 1 ≤ n) :
    rorW a n = shiftAlu (a.rotateRight (n % 32)) (some (bit (a.rotateRight (n % 32)) 31)) := if_neg (by omega)

/-- A count of 0 leaves the value and C. -/
theorem shifts_zero {g : Word → Nat → Alu} (hg : g ∈ [shlW, shrW, sarW, rolW, rorW]) (a : Word) : g a 0 = shiftAlu a none := by
  simp only [List.mem_cons, List.not_mem_nil, or_false] at hg
  rcases hg with rfl | rfl | rfl | rfl | rfl <;> rfl

/-! ### Rotated bits -/

theorem bit_rotateLeft (a : Word) (n : Nat) {i : Nat} (hi : i < 32) : bit (a.rotateLeft (n % 32)) ((i + n) % 32) = bit a i := by
  unfold bit
  rw [BitVec.getLsbD_rotateLeft, Bool.cond_decide]
  by_cases hwrap : (i + n) % 32 < n % 32 % 32
  · rw [if_pos hwrap]
    congr 1
    omega
  · rw [if_neg hwrap, decide_eq_true (by omega), Bool.true_and]
    congr 1
    omega

theorem bit_rotateRight (a : Word) (n : Nat) {i : Nat} (hi : i < 32) : bit (a.rotateRight (n % 32)) i = bit a ((i + n) % 32) := by
  unfold bit
  rw [BitVec.getLsbD_rotateRight, Bool.cond_decide]
  by_cases hwrap : i < 32 - n % 32 % 32
  · rw [if_pos hwrap]
    congr 1
    omega
  · rw [if_neg hwrap, decide_eq_true (by omega), Bool.true_and]
    congr 1
    omega

/-- Settles O54: each range of counts selects one answer of each operation, whose C the law of shifts reads. -/
theorem shiftsAndRotatesByCount : Obligations.ShiftsAndRotatesByCount := by
  unfold Obligations.ShiftsAndRotatesByCount
  intro a sw n hn c
  refine ⟨?zero, ?inside, ?whole, ?beyond, ?signFill, ?rotates⟩
  case zero =>
    rintro rfl g hg
    rw [shifts_zero hg]
    exact ⟨rfl, shiftAlu_c a none sw⟩
  case inside =>
    intro h1 h31
    rw [shlW_of_lt h1 h31, shrW_of_lt h1 h31, sarW_of_lt h1 h31]
    refine ⟨?_, shiftAlu_c .., ?_, shiftAlu_c .., ?_, shiftAlu_c ..⟩
    · rw [shiftAlu_val, BitVec.toNat_shiftLeft, Nat.shiftLeft_eq]
    · rw [shiftAlu_val, BitVec.toNat_ushiftRight, Nat.shiftRight_eq_div_pow]
    · rw [shiftAlu_val, BitVec.toInt_sshiftRight, Int.shiftRight_eq_div_pow]
      rfl
  case whole =>
    rintro rfl
    rw [shlW_whole, shrW_whole]
    exact ⟨rfl, shiftAlu_c .., rfl, shiftAlu_c ..⟩
  case beyond =>
    intro h33
    rw [shlW_of_gt a h33, shrW_of_gt a h33]
    exact ⟨rfl, shiftAlu_c .., rfl, shiftAlu_c ..⟩
  case signFill =>
    intro h32
    rw [sarW_of_ge a h32]
    exact ⟨rfl, shiftAlu_c ..⟩
  case rotates =>
    intro h1
    rw [rolW_of_pos a h1, rorW_of_pos a h1]
    exact ⟨fun i hi => bit_rotateLeft a n hi, shiftAlu_c .., fun i hi => bit_rotateRight a n hi, shiftAlu_c ..⟩

end Sys2Proof.Machine

/-! ## The root of trust -/

namespace Sys2Proof.Machine

/-! ### SEC items (R336, R337) -/

/-- A check that no list numbers fails with a free value in WB_DATA. -/
theorem State.secFail_unnumbered (s : State) (i : Item) (status : Nat) :
    s.secFail i status none = s.fresh.2.finish i.id { status, wb := bits s.fresh.1 7 0 } := rfl

/-- A SEC item of the one length that its opcode takes is executed. -/
theorem State.secRun_sized {s : State} {op k n : Nat} {i : Item} {f : State → Item → State} (hi : s.secItem op k = some i)
    (hlen : i.length = n) : s.secRun op k (some n) f = f s i := secRun_some hi (.inr (congrArg some hlen.symm))

section
variable {k : Nat} {flips : List Flip} {s t v : State} {i : Item} {m : List Byte}

theorem exec_secHash_turn (hi : (s.applyFlips flips).secItem 1 k = some i)
    (hread : (s.applyFlips flips).reads i.addrA i.length m t) (hwrite : t.writes i.addrB (Crypto.sha256 m) v) :
    exec (.secHash k flips) s = .next (v.finish i.id { status := Sc.done, actual := 32 }) := by
  change execSecHash k flips s = _
  unfold execSecHash
  rw [secRun_some hi (.inl rfl), secIn_reads hread, secOut_writes hwrite]
  rfl

theorem exec_secVerify_turn (hi : (s.applyFlips flips).secItem 2 k = some i) (hlen : i.length = 160)
    (hread : (s.applyFlips flips).reads i.addrA 160 m t) :
    exec (.secVerify k flips) s = .next (
      if Crypto.ecdsaVerify ((m.drop 32).take 64) (m.take 32) (m.drop 96) then t.secDone i 0
      else t.secFail i Sc.authFail none) := by
  change execSecVerify k flips s = _
  unfold execSecVerify
  rw [State.secRun_sized hi hlen, secIn_reads hread]

theorem exec_secExtend_turn (hi : (s.applyFlips flips).secItem 6 k = some i) (hlen : i.length = 32)
    (hread : (s.applyFlips flips).reads i.addrA 32 m t) :
    exec (.secExtend k flips) s = .next (((t.random 4).2.setSec (fun c => { c with
      meas := measExtend c.meas 0xFF (t.random 4).1 m })).secDone i 0) := by
  change execSecExtend k flips s = _
  unfold execSecExtend
  rw [State.secRun_sized hi hlen, secIn_reads hread]

/-- RANDOM needs a healthy source. -/
theorem exec_secRandom_turn (hi : (s.applyFlips flips).secItem 4 k = some i) (hhealthy : (s.applyFlips flips).sec.healthy = true)
    (hwrite : ((s.applyFlips flips).random i.length).2.writes i.addrB ((s.applyFlips flips).random i.length).1 v) :
    exec (.secRandom k flips) s = .next (v.finish i.id { status := Sc.done, actual := i.length }) := by
  change execSecRandom k flips s = _
  unfold execSecRandom
  rw [secRun_some hi (.inl rfl), if_neg (by simp [hhealthy])]
  exact congrArg _ (secOut_writes hwrite)

section
variable (hlife : (s.applyFlips flips).sec.otp.life = 3) (hpuf : (s.applyFlips flips).pufOk = true)
include hlife hpuf

theorem exec_secPubkey_turn (hi : (s.applyFlips flips).secItem 7 k = some i) (hlen : i.length = 64)
    (hwrite : (s.applyFlips flips).writes i.addrB (Crypto.publicKey (unitKey (s.applyFlips flips).sec.otp.salt)) v) :
    exec (.secPubkey k flips) s = .next (v.finish i.id { status := Sc.done, actual := 64 }) := by
  change execSecPubkey k flips s = _
  unfold execSecPubkey
  rw [State.secRun_sized hi hlen, needUnit_ok hlife (fun h => absurd h (by decide)) hpuf, secOut_writes hwrite]
  rfl

section
variable (hhealthy : (s.applyFlips flips).sec.healthy = true) (hlen : i.length = 32)
  (hread : (s.applyFlips flips).reads i.addrA 32 m t)
include hhealthy hlen hread

theorem exec_secSign_turn (hi : (s.applyFlips flips).secItem 3 k = some i)
    (hwrite : (t.unitSign 1 m).2.writes i.addrB (t.unitSign 1 m).1 v) :
    exec (.secSign k flips) s = .next (v.finish i.id { status := Sc.done, actual := 64 }) := by
  change execSecSign k flips s = _
  unfold execSecSign
  rw [State.secRun_sized hi hlen, needUnit_ok hlife (fun _ => hhealthy) hpuf, secIn_reads hread]
  exact congrArg _ (secOut_writes hwrite)

theorem exec_secAttest_turn (hi : (s.applyFlips flips).secItem 5 k = some i)
    (hwrite : (t.unitSign 2 (t.attestReport m)).2.writes i.addrB (t.attestReport m ++ (t.unitSign 2 (t.attestReport m)).1) v) :
    exec (.secAttest k flips) s = .next (v.finish i.id { status := Sc.done, actual := 240 }) := by
  change execSecAttest k flips s = _
  unfold execSecAttest
  rw [State.secRun_sized hi hlen, needUnit_ok hlife (fun _ => hhealthy) hpuf, secIn_reads hread]
  exact congrArg _ (secOut_writes hwrite)

end

end

end

/-! ### Enrolment and owner commands (R319 to R323) -/

/-- Nothing but the certificate and its signature keeps an ENROLL item whose result can be written from its OTP writes. -/
theorem exec_secEnroll_turn {k writes : Nat} {flips : List Flip} {s t : State} {i : Item} {c : List Byte}
    (hi : (s.applyFlips flips).secItem 8 k = some i) (hlen : i.length = 144) (hread : (s.applyFlips flips).reads i.addrA 144 c t)
    (hhealthy : t.sec.healthy = true) (hpuf : t.pufOk = true) (hready : t.rangeStatus i.addrB 160 = .ready) :
    let slot := if (Sparse.get [] t.sec.otp.salts 0).isEmpty then 0 else 1
    let salt := (t.random 32).1
    let pub := Crypto.publicKey (unitKey salt)
    let id := Crypto.sha256 pub
    let w := (t.random 32).2.setOtp (fun o => ((enrolWrites c salt id slot).take writes).foldl (fun o f => f o) o)
    let x := w.unitSign 3 (pub ++ bytesOfWord w.hwtype ++ w.sec.otp.owner 0)
    exec (.secEnroll k writes flips) s = .next (
      if t.enrolBad c then t.secFail i Sc.internal (some 1)
      else if !t.enrolSigned c then t.secFail i Sc.authFail (some 3)
      else if writes < 6 then w
      else x.2.secOut i i.addrB (pub ++ id ++ x.1) (fun s => s.secDone i 160)) := by
  intro slot salt pub id w x
  change execSecEnroll k writes flips s = _
  unfold execSecEnroll
  rw [State.secRun_sized hi hlen, secIn_reads hread]
  simp only [hhealthy, hpuf, hready, Bool.not_true, Bool.false_eq_true, ne_eq, not_true, if_false]
  rfl

/-- An owner command that passes its checks makes its OTP write, by the command that its CMD names. -/
theorem State.ownerCmd_passed {k cmd : Nat} {s t : State} {i : Item} {c : List Byte} (hi : s.secItem 9 k = some i)
    (hlen : i.length = 232) (hread : s.reads i.addrA 232 c t) (hcheck : t.ownerCheck c = none)
    (eff : List Byte → Otp → Otp) (hcmd : (leWord c 0).toNat = cmd) :
    s.ownerCmd cmd k eff = (t.setOtp (eff c)).finish i.id { status := Sc.done } := by
  have hnamed : ¬(1 ≤ (leWord c 0).toNat ∧ (leWord c 0).toNat ≤ 3 ∧ (leWord c 0).toNat ≠ cmd) := fun ⟨_, _, hne⟩ => hne hcmd
  unfold State.ownerCmd
  rw [State.secRun_sized hi hlen, secIn_reads hread]
  simp only [if_neg hnamed, hcheck]
  rfl

/-- OWNER_RETIRE that passes leaves no helper data, and with it no device root key. -/
theorem exec_ownerRetire_passed {k : Nat} {flips : List Flip} {s u : State}
    (hcmd : (s.applyFlips flips).ownerCmd 3 k (fun _ o => { o with life := 7, helperGone := true }) = u)
    (hgone : u.sec.otp.helperGone = true) :
    exec (.ownerRetire k flips) s = .next (u.setSec (fun c => { c with puf := c.puf.map (fun _ => false) })) := by
  subst hcmd
  exact congrArg _ (if_pos hgone)

/-! ### The debug gate (R331 to R333) -/

/-- A good token opens the gate and adds its permissions; a bad one counts, and the third locks the gate. -/
theorem exec_debugTokenVerdict_judged {s : State} {t : List Byte} (ht : s.sec.token = some t) :
    let u := s.setSec (fun c => { c with token := none, chal := c.chal + 1 })
    exec .debugTokenVerdict s = .next (
      if s.tokenGood t then
        (u.setSec (fun c => { c with dbgOpen := true, perms := c.perms ||| bits (leWord t 4) 2 0 })).event Pg.sec 1
      else (u.setSec (fun c => { c with
        fails := min 3 (c.fails + 1), lockout := c.lockout || decide (3 ≤ c.fails + 1) })).event Pg.sec 1) := by
  intro u
  change execDebugTokenVerdict s = _
  unfold execDebugTokenVerdict
  simp only [ht]
  cases s.tokenGood t with
  | true =>
    simp only [Bool.or_true, Bool.not_true, Bool.false_and, Bool.or_false, if_true]
    rfl
  | false =>
    simp only [Bool.or_false, Bool.not_false, Bool.true_and, Bool.false_eq_true, if_false]
    rfl

/-- Settles O33: each clause is the arm of its command that its conditions choose; items read and write by `secIn_reads` and
`secOut_writes`. -/
theorem securityCommandsComplete : Obligations.SecurityCommandsComplete := by
  unfold Obligations.SecurityCommandsComplete
  refine ⟨?reconstruct, ?hash, ?verify, ?sign, ?random, ?attest, ?extend, ?pubkey, ?enroll, ?owner, ?health, ?token, ?verdict⟩
  case reconstruct => exact fun ok s hon hpuf => congrArg _ (if_neg (by simp [hon, hpuf]))
  case hash => exact fun k flips s t v i m hi hread hwrite => exec_secHash_turn hi hread hwrite
  case verify =>
    intro k flips s t i m u hi hlen hread
    rw [exec_secVerify_turn hi hlen hread, State.secFail_unnumbered]
    rfl
  case sign =>
    exact fun k flips s t v i m hi hlen hlife hhealthy hpuf hread hwrite =>
      exec_secSign_turn hlife hpuf hhealthy hlen hread hi hwrite
  case random => exact fun k flips s v i hi hhealthy hwrite => exec_secRandom_turn hi hhealthy hwrite
  case attest =>
    exact fun k flips s t v i m hi hlen hlife hhealthy hpuf hread hwrite =>
      exec_secAttest_turn hlife hpuf hhealthy hlen hread hi hwrite
  case extend =>
    intro k flips s t i m u hi hlen hread v
    rw [exec_secExtend_turn hi hlen hread]
    rfl
  case pubkey => exact fun k flips s v i hi hlen hlife hpuf hwrite => exec_secPubkey_turn hlife hpuf hi hlen hwrite
  case enroll =>
    exact fun k writes flips s t i c hi hlen hread hhealthy hpuf hready => exec_secEnroll_turn hi hlen hread hhealthy hpuf hready
  case owner =>
    exact fun k flips s t i c hi hlen hread hcheck =>
      ⟨fun hcmd => congrArg _ (State.ownerCmd_passed hi hlen hread hcheck _ hcmd),
        fun hcmd => congrArg _ (State.ownerCmd_passed hi hlen hread hcheck _ hcmd),
        fun hcmd => exec_ownerRetire_passed (State.ownerCmd_passed hi hlen hread hcheck _ hcmd) rfl⟩
  case health => exact fun s hon => congrArg _ (if_neg (by simp [hon]))
  case token => exact fun octets s hlock htoken hon => congrArg _ (if_neg (by simp [hlock, htoken, hon]))
  case verdict => exact fun s t ht => exec_debugTokenVerdict_judged ht

end Sys2Proof.Machine

/-! ## Palette: pages, engines and cipher items -/

namespace Sys2Proof.Machine

/-! ### Pages (R341) -/

section
variable {u : State} {ini : Initiator} (hl : u.locked Pg.pal = false)
include hl

/-- A FREE page that is not LNK's goes to the initiator that claims it. -/
theorem State.palCtrlWrite_claims (hlnk : lnkPage (u.chsel Pg.pal ini) = false) (hfree : u.palPage (u.chsel Pg.pal ini) = .free) :
    u.palCtrlWrite ini 1 = u.setPalPage (u.chsel Pg.pal ini) (.owned ini) := by
  have hcmd : bits (1 : Word) 1 0 = 1 := by decide
  unfold State.palCtrlWrite
  simp only [hl, hcmd, hlnk, hfree, Bool.false_eq_true, Bool.not_false, and_self, if_false, if_true]

/-- Its owner's release of a page without items in flight empties it and starts the scrub. -/
theorem State.palCtrlWrite_releases (howned : u.palPage (u.chsel Pg.pal ini) = .owned ini)
    (hidle : u.palInflight (u.chsel Pg.pal ini) = 0) :
    u.palCtrlWrite ini 2 = (u.emptyPage (u.chsel Pg.pal ini)).setPalPage (u.chsel Pg.pal ini) .scrubbing := by
  have hcmd : bits (2 : Word) 1 0 = 2 := by decide
  unfold State.palCtrlWrite
  simp only [hl, hcmd, howned, hidle, Bool.false_eq_true, ne_eq, not_true, if_false]

end

/-! ### Engines (R352, R353) -/

section
variable {flips : List Flip} {s : State} {e : Nat} (hfree : (s.applyFlips flips).engineFree = some e)
  (hready : (s.applyFlips flips).ready Dm.sec = true) (hpuf : (s.applyFlips flips).sec.puf ≠ none)
include hfree hready hpuf

/-- A free engine prefers an urgent item that waits. -/
theorem exec_engineDispatch_urgent {i : Item}
    (hi : (s.applyFlips flips).flm.ift.find? (fun i => (s.applyFlips flips).palWaits i && i.urgent) = some i) :
    exec (.engineDispatch flips) s = .next ((s.applyFlips flips).takeItem e i) := by
  change execEngineDispatch flips s = _
  unfold execEngineDispatch
  simp only [hfree, hready, hpuf, hi, Bool.not_true, Bool.false_eq_true, or_self, if_false]

section
variable (hurgent : (s.applyFlips flips).flm.ift.find? (fun i => (s.applyFlips flips).palWaits i && i.urgent) = none)
include hurgent

/-- Without one it resumes the message suspended first. -/
theorem exec_engineDispatch_resumes {p : Nat × PalMsg} {ps : List (Nat × PalMsg)} (hps : (s.applyFlips flips).suspendedMsgs = p :: ps) :
    exec (.engineDispatch flips) s = .next ((s.applyFlips flips).resumeMsg e p.2) := by
  change execEngineDispatch flips s = _
  unfold execEngineDispatch
  simp only [hfree, hready, hpuf, hurgent, hps, Bool.not_true, Bool.false_eq_true, or_self, if_false]

/-- With nothing suspended it takes the item that waits longest. -/
theorem exec_engineDispatch_takes {i : Item} (hps : (s.applyFlips flips).suspendedMsgs = [])
    (hi : (s.applyFlips flips).flm.ift.find? (s.applyFlips flips).palWaits = some i) :
    exec (.engineDispatch flips) s = .next ((s.applyFlips flips).takeItem e i) := by
  change execEngineDispatch flips s = _
  unfold execEngineDispatch
  simp only [hfree, hready, hpuf, hurgent, hps, hi, Bool.not_true, Bool.false_eq_true, or_self, if_false]

end

end

/-- For a waiting message of a class above theirs, the later started of two messages that are not urgent leaves its engine. -/
theorem exec_messageSuspend_later {lnk : Bool} {s : State} {a b : PalMsg} (octets : Nat) (ha : s.engine 0 = some a)
    (hb : s.engine 1 = some b) (hau : a.urgent = false) (hbu : b.urgent = false)
    (hwaits : ((lnk && s.lnkFrame) || s.flm.ift.any (fun i => s.palWaits i && i.urgent)) = true) :
    let e := if a.order < b.order then 1 else 0
    let m := if a.order < b.order then b else a
    let u := match s.item m.item with | some i => s.count Pg.pal i.palPage 0x10C 15 0 1 | none => s
    exec (.messageSuspend lnk octets) s = .next (u.setPal (fun q => { q with
      engines := Sparse.set none q.engines e none
      suspended := q.suspended ++ [(e, { m with susp := satInc 8 m.susp, octets := octets / 16 * 16 })] })) := by
  intro e m u
  have hm : (if (if a.order < b.order then 1 else 0) = 1 then b else a) = m := by
    unfold m
    split <;> rfl
  change execMessageSuspend lnk octets s = _
  unfold execMessageSuspend
  simp only [ha, hb, hau, hbu, hwaits, hm, Bool.not_true, Bool.false_eq_true, or_self, if_false]
  rfl

/-! ### Cipher items (R345 to R351) -/

/-- Which stream an engine's item works on, where its data starts, and how many of its octets are additional data: WHOLE and
FIRST begin the stream of their parameter block, and later segments go on with their context's. -/
def State.streamOf (s : State) (i : Item) (m : PalMsg) (key : List Byte) (c : PalCtx) (a aad : Nat) : Prop :=
  i.seg ≤ 1 ∧ a = i.addrA + 32 ∧ aad = pbAad m.block ∧
      c = { handle := pbHandle m.block, mode := pbMode m.block, key := some key, op := i.opcode, iv := pbIv m.block
            m := pbTag m.block, total := pbTotal m.block, aad := [], data := [] } ∨
    1 < i.seg ∧ a = i.addrA ∧ aad = 0 ∧ s.palCtx i.palPage i.ctx = some c

/-- An engine's item that has its key and breaks no rule reads its data for its stream. -/
theorem State.palCipher_reads {k a aad : Nat} {s : State} {i : Item} {m : PalMsg} {c : PalCtx} {key : List Byte}
    (hi : s.item k = some i) (hm : [0, 1].findSome? (fun e => (s.engine e).filter (fun m => m.item == k)) = some m)
    (hkey : m.key = some key) (hgood : s.cipherBad i m.block = none) (hc : s.streamOf i m key c a aad) :
    s.palCipher i.opcode k = s.cipherRead i m c key a aad := by
  unfold State.palCipher
  simp only [hi, hm, hkey, hgood, ne_eq, not_true, if_false]
  rcases hc with ⟨hseg, rfl, rfl, rfl⟩ | ⟨hseg, rfl, rfl, hctx⟩
  · rw [if_pos hseg]
  · simp only [if_neg (Nat.not_le.mpr hseg), hctx]

section
variable {s v : State} {i : Item} (m : PalMsg) {c : PalCtx} {key data : List Byte} (tag : List Byte)

/-- An encryption writes the stream's next octets, and behind the last the tag. -/
theorem State.cipherRun_encrypts (hop : i.opcode = 1) :
    let last := i.seg = 0 ∨ i.seg = 3
    let all := c.data ++ data
    let out := payloadOut c.mode key c.iv c.data.length data
    let w := if last then out ++ streamTag c.mode key c.iv c.aad all (payloadOut c.mode key c.iv 0 all) c.m else out
    s.writes i.addrB w v → s.cipherRun i m c key data tag =
      v.cipherEnd i m Sc.done 0 w.length all.length false (if last then none else some { c with data := all }) := by
  intro last all out w hwrite
  unfold State.cipherRun
  simp only [hop, Nat.reduceLeDiff, Nat.reduceEqDiff, or_self, false_and, and_false, if_false]
  rw [secOut_writes hwrite]

/-- A decryption writes the stream's next octets, and the tag of the whole stream decides how its last segment ends; what an
earlier one wrote is not verified yet. -/
theorem State.cipherRun_decrypts (hop : i.opcode = 2) :
    let last := i.seg = 0 ∨ i.seg = 3
    let all := c.data ++ data
    let out := payloadOut c.mode key c.iv c.data.length data
    let next := if last then none else some { c with data := all }
    s.writes i.addrB out v → s.cipherRun i m c key data tag =
      if last ∧ tag ≠ streamTag c.mode key c.iv c.aad (payloadOut c.mode key c.iv 0 all) all c.m then
        v.cipherEnd i m Sc.authFail 0 out.length all.length false none
      else if !last then v.cipherEnd i m Sc.doneWarn 0 out.length all.length true next
      else v.cipherEnd i m Sc.done 0 out.length all.length false next := by
  intro last all out next hwrite
  unfold State.cipherRun
  simp only [hop, Nat.reduceLeDiff, Nat.reduceEqDiff, true_or, true_and, and_true, if_false, if_true]
  rw [secOut_writes hwrite]

/-- MAC_GEN writes the tag, behind the last segment. -/
theorem State.cipherRun_generates (hop : i.opcode = 3) :
    let last := i.seg = 0 ∨ i.seg = 3
    let all := c.data ++ data
    let w := if last then streamTag c.mode key c.iv c.aad all [] c.m else []
    s.writes i.addrB w v → s.cipherRun i m c key data tag =
      v.cipherEnd i m Sc.done 0 w.length all.length false (if last then none else some { c with data := all }) := by
  intro last all w hwrite
  unfold State.cipherRun
  simp only [hop, Nat.reduceLeDiff, Nat.reduceEqDiff, or_self, false_and, and_false, if_false, if_true]
  rw [secOut_writes hwrite]

/-- MAC_CHECK writes nothing, and the tag decides how its last segment ends. -/
theorem State.cipherRun_checks (hop : i.opcode = 4) (hwrite : s.writes i.addrB [] v) :
    let last := i.seg = 0 ∨ i.seg = 3
    let all := c.data ++ data
    s.cipherRun i m c key data tag =
      if last ∧ tag ≠ streamTag c.mode key c.iv c.aad all [] c.m then v.cipherEnd i m Sc.authFail 0 0 all.length false none
      else v.cipherEnd i m Sc.done 0 0 all.length false (if last then none else some { c with data := all }) := by
  intro last all
  unfold State.cipherRun
  simp only [hop, Nat.reduceLeDiff, Nat.reduceEqDiff, or_true, true_and, and_false, if_false, if_true]
  rw [secOut_writes hwrite]
  rfl

end

/-- Settles O34: each clause is the arm of its command that its conditions choose; a cipher item reads by `State.palCipher_reads`
and ends by the law of its opcode. -/
theorem paletteMessagesComplete : Obligations.PaletteMessagesComplete := by
  unfold Obligations.PaletteMessagesComplete
  refine ⟨?pages, ?scrubbed, ?dispatch, ?suspend, ?ciphers⟩
  case pages =>
    intro ini s hg u p hl
    refine ⟨fun hlnk hfree => congrArg _ ((pageWrite_served s ini Pg.pal 0x104 1 _ hg).trans ?_),
      fun howned hidle => congrArg _ ((pageWrite_served s ini Pg.pal 0x104 2 _ hg).trans ?_)⟩
    · rw [State.palCtrlWrite_claims hl hlnk hfree]
    · rw [State.palCtrlWrite_releases hl howned hidle]
  case scrubbed => exact fun p s hp => congrArg _ (if_pos hp)
  case dispatch =>
    exact fun flips s e hfree hready hpuf =>
      ⟨fun i hi => exec_engineDispatch_urgent hfree hready hpuf hi, fun hurgent =>
        ⟨fun p ps hps => exec_engineDispatch_resumes hfree hready hpuf hurgent hps, fun i hps hi =>
          exec_engineDispatch_takes hfree hready hpuf hurgent hps hi⟩⟩
  case suspend =>
    exact fun lnk octets s a b ha hb hau hbu hwaits => exec_messageSuspend_later octets ha hb hau hbu hwaits
  case ciphers =>
    intro k a aad flips s t v i m c key bs u hi hm hkey hgood hc last hread given data all tag next out whole
    have hrun : u.palCipher i.opcode k = t.cipherRun i m { c with aad := given } key data (bs.drop i.length) :=
      (State.palCipher_reads hi hm hkey hgood hc).trans (secIn_reads hread)
    refine ⟨fun hop hwrite => ?_, fun hop hwrite => ?_, fun hop hwrite => ?_, fun hop hwrite => ?_⟩
    all_goals rw [hop] at hrun
    · exact congrArg _ (hrun.trans (State.cipherRun_encrypts m _ hop hwrite))
    · exact congrArg _ (hrun.trans (State.cipherRun_decrypts m _ hop hwrite))
    · exact congrArg _ (hrun.trans (State.cipherRun_generates m _ hop hwrite))
    · exact congrArg _ (hrun.trans (State.cipherRun_checks m _ hop hwrite))

end Sys2Proof.Machine

/-! ## Palette: key items -/

namespace Sys2Proof.Machine

/-! ### Keys installed (R355, R356) -/

section
variable {k : Nat} {flips : List Flip} {s t v : State} {i : Item} {b : List Byte}

/-- KEY_LOAD takes a plain key before enrolment, and after it where the owner allows it. -/
theorem exec_keyLoad_turn {key : List Byte} (hturn : (s.applyFlips flips).keyTurn 8 k i b t)
    (hlen : i.length = 16 ∨ i.length = 32) (htarget : t.targetBad i b i.length = false)
    (hlife : t.sec.otp.life = 1 ∨ t.sec.otp.life = 3 ∧ t.sec.otp.plainKey = true)
    (hread : t.reads (i.addrA + 32) i.length key v) :
    exec (.keyLoad k flips) s = .next ((v.install i (pbHandle b)
      { origin := 0, usage := pbUsage b % 64, octets := key }).finish i.id { status := Sc.done }) := by
  have hsize : ¬(i.length ≠ 16 ∧ i.length ≠ 32) := fun ⟨h16, h32⟩ => hlen.elim h16 h32
  have hplain : (t.sec.otp.life == 1 || (t.sec.otp.life == 3 && t.sec.otp.plainKey)) = true := by simpa using hlife
  change execKeyLoad k flips s = _
  unfold execKeyLoad
  rw [keyItem_turn hturn]
  simp only [if_neg hsize, htarget, hplain, Bool.not_true, Bool.false_eq_true, if_false]
  exact congrArg _ (secIn_reads hread)

/-- KEY_UNWRAP opens a blob of the version and key size that its header names; a tag that does not fit it installs nothing. -/
theorem exec_keyUnwrap_turn {w blob : List Byte} (hturn : (s.applyFlips flips).keyTurn 9 k i b t)
    (haux : t.auxKey i b 3 kstor = some w) (hlen : i.length = 52 ∨ i.length = 68)
    (htarget : t.targetBad i b (i.length - 36) = false) (hread : t.reads (i.addrA + 32) i.length blob v) :
    let n := i.length - 36
    let hdr := cut blob 12 8
    let c := cut blob 20 n
    (hdr.getD 0 0).toNat = 1 → (hdr.getD 1 0).toNat = (if n = 32 then 1 else 0) →
    exec (.keyUnwrap k flips) s = .next (
      if Crypto.gcmTag w (blob.take 12) hdr c ≠ cut blob (20 + n) 16 then
        ((v.count Pg.pal i.palPage 0x10C 31 16 1).event Pg.pal 0).finish i.id { status := Sc.authFail }
      else (v.install i (pbHandle b) { origin := 1, usage := (hdr.getD 2 0).toNat % 64
                                       octets := Crypto.ctr w (Crypto.gcmCtr (blob.take 12)) c }).finish i.id
        { status := Sc.done, rep6 := leWord hdr 4 }) := by
  intro n hdr c hversion hkeysize
  have hsize : ¬(i.length ≠ 52 ∧ i.length ≠ 68) := fun ⟨h52, h68⟩ => hlen.elim h52 h68
  have hheader : ¬((hdr.getD 0 0).toNat ≠ 1 ∨ (hdr.getD 1 0).toNat ≠ if n = 32 then 1 else 0) :=
    fun h => h.elim (· hversion) (· hkeysize)
  change execKeyUnwrap k flips s = _
  unfold execKeyUnwrap
  rw [keyItem_turn hturn]
  simp only [haux, if_neg hsize, htarget, Bool.false_eq_true, if_false]
  rw [secIn_reads hread]
  exact congrArg _ (if_neg hheader)

/-- KEY_DERIVE installs what the key derivation makes of a source key and a label. -/
theorem exec_keyDerive_turn {src label : List Byte} (hturn : (s.applyFlips flips).keyTurn 11 k i b t) :
    let n := if pbSize b then 32 else 16
    t.auxKey i b 4 kapp = some src → i.length ≤ 64 → t.targetBad i b n = false → t.reads (i.addrA + 32) i.length label v →
    exec (.keyDerive k flips) s = .next ((v.install i (pbHandle b) {
      origin := 3, usage := pbUsage b % 64, octets := Crypto.kdf src label [] (8 * n) }).finish i.id { status := Sc.done }) := by
  intro n haux hlen htarget hread
  change execKeyDerive k flips s = _
  unfold execKeyDerive
  rw [keyItem_turn hturn]
  simp only [n] at htarget
  simp only [haux, if_neg (Nat.not_lt.mpr hlen), htarget, Bool.false_eq_true, if_false]
  exact congrArg _ (secIn_reads hread)

/-- KEY_GEN installs octets of the random source. -/
theorem exec_keyGen_turn (hturn : (s.applyFlips flips).keyTurn 12 k i b t) (hhealthy : t.sec.healthy = true) :
    let n := if pbSize b then 32 else 16
    t.targetBad i b n = false →
    exec (.keyGen k flips) s = .next (((t.random n).2.install i (pbHandle b) {
      origin := 2, usage := pbUsage b % 64, octets := (t.random n).1 }).finish i.id { status := Sc.done }) := by
  intro n htarget
  change execKeyGen k flips s = _
  unfold execKeyGen
  rw [keyItem_turn hturn]
  simp only [n] at htarget
  simp only [htarget, hhealthy, Bool.not_true, Bool.false_eq_true, if_false]
  rfl

/-! ### Keys wrapped (R356) -/

/-- KEY_WRAP writes an exportable key under the wrapping key, with a fresh initial vector and the label. -/
theorem exec_keyWrap_turn {x : State} {w label : List Byte} {key : Key} (hturn : (s.applyFlips flips).keyTurn 10 k i b t)
    (hkey : t.palKey i.palPage (pbHandle b) = some key) (haux : t.auxKey i b 3 kstor = some w)
    (husage : key.usage.testBit 5 = true) (hlen : i.length = 4) (hhealthy : t.sec.healthy = true)
    (hread : t.reads (i.addrA + 32) 4 label v) :
    let iv := (v.random 12).1
    let hdr := [1, if key.octets.length = 32 then 1 else 0, BitVec.ofNat 8 key.usage, 0] ++ label
    let c := Crypto.ctr w (Crypto.gcmCtr iv) key.octets
    let blob := iv ++ hdr ++ c ++ Crypto.gcmTag w iv hdr c
    (v.random 12).2.writes i.addrB blob x →
    exec (.keyWrap k flips) s = .next (x.finish i.id { status := Sc.done, actual := blob.length }) := by
  intro iv hdr c blob hwrite
  change execKeyWrap k flips s = _
  unfold execKeyWrap
  rw [keyItem_turn hturn]
  simp only [hkey, haux, husage, hlen, hhealthy, Bool.not_true, Bool.false_eq_true, ne_eq, not_true, if_false]
  rw [secIn_reads hread]
  exact congrArg _ (secOut_writes hwrite)

/-! ### Keys erased (R357) -/

/-- KEY_ERASE empties a handle at once, but for a slot of LNK with a frame in work, where it waits. -/
theorem exec_keyErase_turn (hturn : (s.applyFlips flips).keyTurn 13 k i b t) :
    let h := pbHandle b
    exec (.keyErase k flips) s = .next (
      if lnkPage i.palPage = false then (t.loseKey i.palPage h).secDone i 0
      else if t.slotQuiet h then ((t.loseKey 14 h).loseKey 15 h).secDone i 0
      else t.setPal (fun q => { q with erases := q.erases ++ [(h, i.id)] })) := by
  intro h
  change execKeyErase k flips s = _
  unfold execKeyErase
  rw [keyItem_turn hturn]
  simp only [Bool.not_eq_true']
  rfl

end

theorem exec_keyEraseEffect_quiet {slot : Nat} {s : State} {e : Nat × Nat}
    (he : s.pal.erases.find? (fun e => e.1 == slot && s.eraseLive e) = some e) (hquiet : s.slotQuiet slot = true) :
    exec (.keyEraseEffect slot) s = .next ((((s.loseKey 14 slot).loseKey 15 slot).setPal (fun q => { q with
      erases := q.erases.filter (fun x => x.1 != slot) })).finish e.2 { status := Sc.done }) := by
  change execKeyEraseEffect slot s = _
  unfold execKeyEraseEffect
  simp only [he, hquiet, Bool.not_true, Bool.false_eq_true, if_false]

/-- Settles O35: each clause is the arm of its key item that its conditions choose, in the state that `keyItem_turn` gives. -/
theorem keyItemsComplete : Obligations.KeyItemsComplete := by
  unfold Obligations.KeyItemsComplete
  refine ⟨?load, ?unwrap, ?wrap, ?derive, ?gen, ?erase, ?erased⟩
  case load =>
    exact fun k flips s t v i b key hturn hlen htarget hlife hread => exec_keyLoad_turn hturn hlen htarget hlife hread
  case unwrap =>
    exact fun k flips s t v i b w blob hturn haux hlen htarget hread => exec_keyUnwrap_turn hturn haux hlen htarget hread
  case wrap =>
    exact fun k flips s t v x i b w label key hturn hkey haux husage hlen hhealthy hread =>
      exec_keyWrap_turn hturn hkey haux husage hlen hhealthy hread
  case derive => exact fun k flips s t v i b src label hturn => exec_keyDerive_turn hturn
  case gen => exact fun k flips s t i b hturn htarget hhealthy => exec_keyGen_turn hturn hhealthy htarget
  case erase => exact fun k flips s t i b hturn => exec_keyErase_turn hturn
  case erased => exact fun slot s e he hquiet => exec_keyEraseEffect_quiet he hquiet

end Sys2Proof.Machine

/-! ## Field update and the Primer -/

namespace Sys2Proof.Machine

/-! ### OPEN and CHUNK (R504, R505) -/

section
variable {k : Nat} {flips : List Flip} {s t v : State} {i : Item}

/-- OPEN keeps a header that passes its checks as its session's. -/
theorem exec_updOpen_accepted {h : List Byte} (hi : (s.applyFlips flips).updTurn 1 k = some i) (hlen : i.length = 512)
    (hread : (s.applyFlips flips).reads i.addrA 512 h t) (hgood : t.openFault h (i.uparam % 8) = none) :
    exec (.updOpen k flips) s =
      .next ((t.setUpdSess (i.uparam % 8) { header := h }).finish i.id { status := Sc.done, actual := 512 }) := by
  change execUpdOpen k flips s = _
  unfold execUpdOpen
  simp only [hi, hlen, ne_eq, not_true, if_false]
  rw [updIn_reads hread]
  simp only [hgood]

section
variable {x : UpdSess} {bs : List Byte} (hi : (s.applyFlips flips).updTurn 2 k = some i)
  (hx : (s.applyFlips flips).updSess (i.uparam % 8) = some x)
include hi hx

/-- A chunk of the digest tables is held against its digest in the header. -/
theorem exec_updChunk_table (htable : bit (i.w 0) 0 = true) (hj : i.addrB % 4 < Header.tables x.header) (hlen : i.length = 4096)
    (hread : (s.applyFlips flips).reads i.addrA 4096 bs t) (hdigest : Crypto.sha256 bs = Header.table x.header (i.addrB % 4)) :
    exec (.updChunk k flips) s = .next (t.chunkDone i { x with tables := addOnce (i.addrB % 4) x.tables }) := by
  have hfits : ¬(Header.tables x.header ≤ i.addrB % 4 ∨ i.length ≠ 4096) := fun h => h.elim (Nat.not_le.mpr hj) (· hlen)
  change execUpdChunk k flips s = _
  unfold execUpdChunk
  simp only [hi, hx, htable, if_true, if_neg hfits]
  rw [updIn_reads hread]
  exact congrArg _ (if_neg (not_not_intro hdigest))

/-- A chunk of data is held against its digest in a table chunk, and that one against the header. -/
theorem exec_updChunk_data {tb : List Byte} (hdata : bit (i.w 0) 0 = false) :
    let j := i.addrB % 512
    let n := Header.chunks x.header
    let size := if j + 1 = n then Header.size x.header - 4096 * (n - 1) else 4096
    j < n → i.length = size → (s.applyFlips flips).reads (i.addrB / 4096 * 4096) 4096 tb t →
    Crypto.sha256 tb = Header.table x.header (j / 128) → t.reads i.addrA size bs v →
    Crypto.sha256 bs = cut tb (32 * (j % 128)) 32 →
    exec (.updChunk k flips) s = .next (v.chunkDone i { x with chunks := addOnce j x.chunks }) := by
  intro j n size hj hlen htable htdigest hread hdigest
  have hfits : ¬(n ≤ j ∨ i.length ≠ size) := fun h => h.elim (Nat.not_le.mpr hj) (· hlen)
  change execUpdChunk k flips s = _
  unfold execUpdChunk
  simp only [hi, hx, hdata, Bool.false_eq_true, if_false]
  rw [if_neg hfits, updIn_reads htable, if_neg (not_not_intro htdigest), updIn_reads hread]
  exact congrArg _ (if_neg (not_not_intro hdigest))

end

/-! ### ARM (R506) -/

/-- ARM of complete sessions whose versions are compatible writes the record that follows the highest. -/
theorem exec_updArm_written (hi : (s.applyFlips flips).updTurn 3 k = some i) :
    let u := s.applyFlips flips
    let mask := i.uparam % 16
    let nand := bit (i.w 0) 0
    mask ≠ 0 → i.length = 64 →
    ((List.range 4).filter (fun c => mask.testBit c)).any (fun c => !(u.updSess c).any (·.complete)) = false →
    (nand = true → pagePresentNmc u.variant = true) → u.rangeStatus 0x08002000 0x8000 = .ready →
    incompatible (u.armSet mask) = none →
    u.writes i.addrB (dirOctets (u.highestSeq + 1) mask nand ((u.armSet mask).map (fun v =>
      if mask.testBit v.comp then v.version else 0))) t →
    exec (.updArm k flips) s = .next (t.finish i.id { status := Sc.done, actual := 64 }) := by
  intro u mask nand hmask hlen hcomplete hnand hready hcompat ⟨e, hwrite⟩
  have hshape : ¬(mask = 0 ∨ i.length ≠ 64) := fun h => h.elim hmask (· hlen)
  have htarget : ¬(nand = true ∧ (!pagePresentNmc u.variant) = true) := fun ⟨hn, hp⟩ => by simp [hnand hn] at hp
  change execUpdArm k flips s = _
  unfold execUpdArm
  simp only [hi]
  rw [if_neg hshape, if_neg (by rw [hcomplete]; decide), if_neg htarget]
  simp only [u, mask, nand] at hready hcompat hwrite
  simp only [hready, hcompat, hwrite, Option.isSome_none, Bool.false_eq_true, if_false]

end

/-! ### The Primer (R325) -/

/-- The start that follows the Primer's checks: of the cores, or of the recovery service where a component fails. -/
def State.bootEnds (v : State) : State :=
  match v.bootFault with
  | some (c, f) => ((v.setSec (fun x => { x with result := 2, comp := c, reason := f })).event Pg.sec 0).recovery
  | none => v.startAll

theorem State.bootEnds_eq (v : State) :
    v.bootEnds = match v.bootFault with
      | none => v.startAll
      | some (c, f) => ((v.setSec (fun x => { x with result := 2, comp := c, reason := f })).event Pg.sec 0).recovery := by
  unfold State.bootEnds
  cases v.bootFault <;> rfl

/-- The Primer of a part that is to boot: unless it is cut, what its install leaves is reported, measured and started. -/
theorem exec_primerBoot_runs (cut : Option Nat) (bad : List Nat) (readable : Bool) (lost : List Nat) {s : State}
    (hbooted : s.booted = false) (htest : s.testmode = false) (hcore : s.coreRuns .c0 = true) :
    let p := (s.primerInstall cut bad readable lost).1
    let u := { p.s.primerReports (s.primerInstall cut bad readable lost).2 with booted := true }
    let v := u.setSec (fun x => { x with meas := u.bootMeas })
    exec (.primerBoot cut bad readable lost) s = .next (if p.cut then p.s else v.bootEnds) := by
  intro p u v
  have hruns : ¬(s.booted = true ∨ s.testmode = true ∨ (!s.coreRuns .c0) = true) := by simp [hbooted, htest, hcore]
  change execPrimerBoot cut bad readable lost s = _
  unfold execPrimerBoot
  simp only [if_neg hruns]
  rfl

/-- Settles O36: each clause is the arm of its command that its conditions choose; update items read by `updIn_reads`. -/
theorem updateCommandsComplete : Obligations.UpdateCommandsComplete := by
  unfold Obligations.UpdateCommandsComplete
  refine ⟨?opened, ?table, ?data, ?arm, ?primer⟩
  case opened => exact fun k flips s t i h hi hlen hread hgood => exec_updOpen_accepted hi hlen hread hgood
  case table =>
    intro k flips s t i x bs u hi hx htable hj hlen hread hdigest
    rw [exec_updChunk_table hi hx htable hj hlen hread hdigest, State.chunkDone, hlen]
  case data =>
    intro k flips s t v i x tb bs u j n size hi hx hdata hj hlen htable htdigest hread hdigest
    rw [exec_updChunk_data hi hx hdata hj hlen htable htdigest hread hdigest, State.chunkDone, hlen]
  case arm =>
    exact fun k flips s t i hi hmask hlen hcomplete hnand hready hcompat hwrite =>
      exec_updArm_written hi hmask hlen hcomplete hnand hready hcompat hwrite
  case primer =>
    intro cut bad readable lost s hbooted htest hcore p u v
    exact (exec_primerBoot_runs cut bad readable lost hbooted htest hcore).trans
      (congrArg _ (congrArg (ite _ p.s) v.bootEnds_eq))

end Sys2Proof.Machine

/-! ## The DRAM controller -/

namespace Sys2Proof.Machine

/-! ### Training (R368) -/

/-- DRC_CHCTRL trains a channel that the part has and that neither trains nor replays. -/
theorem State.chctrlWrite_trains {u : State} (ini : Initiator) {v : Word} (hv : bit v 0 = true)
    (hfused : bit (word (subunits u.variant Pg.drc)) (bit v 4).toNat = true) (htrain : u.chState (bit v 4).toNat ≠ Chn.training)
    (hreplay : u.chState (bit v 4).toNat ≠ Chn.replay) :
    u.chctrlWrite ini v = u.setCh (bit v 4).toNat Chn.training 0 := by
  unfold State.chctrlWrite
  simp only [hv, hfused, Bool.not_true, Bool.false_eq_true, or_self, if_false, if_neg htrain, if_neg hreplay]

theorem exec_channelTrain_served {ini : Initiator} (v : Word) {s : State} (hg : s.gate ini Pg.drc Dc.chctrl true = .serve) :
    exec (.channelTrain ini v) s = .next (((s.accessed ini Pg.drc Dc.chctrl).chctrlWrite ini v).setReply ini 0 false) :=
  congrArg _ (pageWrite_served s ini Pg.drc Dc.chctrl v _ hg)

/-! ### Command parity (R374) -/

/-- The reissued commands are counted in the channel's field of DRC_PARCNT, and the replay is an event. -/
def State.replayCounted (s : State) (ch : Nat) (a : Alert) : State :=
  (if ch = 0 then s.count Pg.drc 0 Dc.parcnt 15 0 a.reissued else s.count Pg.drc 0 Dc.parcnt 31 16 a.reissued).event Pg.drc 2

section
variable {ch : Nat} {s : State} {a : Alert} (hch : ch ≤ 1) (hreplay : s.chState ch = Chn.replay)
  (ha : Sparse.get none s.drc.alerts ch = some a)
include hch hreplay

/-- A channel of the controller is in replay. -/
theorem State.replaying : ¬(1 < ch ∨ s.chState ch ≠ Chn.replay) := fun h => h.elim (Nat.not_lt.mpr hch) (· hreplay)

include ha

theorem exec_parityReplayDone_accepted :
    let v := { s.replayCounted ch a with drc := { (s.replayCounted ch a).drc with
      alerts := Sparse.set none (s.replayCounted ch a).drc.alerts ch none } }
    exec (.parityReplayDone ch false) s =
      .next (a.items.foldl (fun s e => s.updItem e (fun i => { i with replayed := true })) (v.setCh ch Chn.online 0)) := by
  change execParityReplayDone ch false s = _
  unfold execParityReplayDone
  simp only [ha, if_neg (State.replaying hch hreplay)]
  rfl

theorem exec_parityReplayDone_rejected :
    exec (.parityReplayDone ch true) s = .next (
      if 2 ≤ a.fails then (s.replayCounted ch a).failChannel ch 7 a.items
      else { s.replayCounted ch a with drc := { (s.replayCounted ch a).drc with
        alerts := Sparse.set none (s.replayCounted ch a).drc.alerts ch (some { a with fails := a.fails + 1 }) } }) := by
  change execParityReplayDone ch true s = _
  unfold execParityReplayDone
  simp only [ha, if_neg (State.replaying hch hreplay)]
  rfl

theorem exec_alertStuck_fails : exec (.alertStuck ch) s = .next (s.failChannel ch 8 a.items) := by
  change execAlertStuck ch s = _
  unfold execAlertStuck
  simp only [ha, if_neg (State.replaying hch hreplay)]

end

/-! ### Migration (R375 to R378) -/

/-- DRC_MIGCTRL starts a migration of an online rank to the spare, with both channels online. -/
theorem State.migctrlWrite_starts {u : State} (ini : Initiator) {v : Word} {t : Nat} (hstart : bit v 31 = true)
    (hstop : bit v 30 = false) (hspare : u.spareRank = some t) (hmig : u.drc.mig = none) (hdone : u.drc.migDone = false)
    (hrank : u.rkState (bits v 1 0) = Rk.online) (hsrc : u.chState (bits v 1 0 / 2) = Chn.online)
    (hdst : u.chState (t / 2) = Chn.online) : u.migctrlWrite ini v = u.migStart (bits v 1 0) t 3 := by
  unfold State.migctrlWrite
  simp only [hstart, hstop, hspare, hmig, hdone, hrank, hsrc, hdst, Bool.and_false, Option.isSome_none, Bool.false_eq_true,
    ne_eq, not_true, or_self, if_false, if_true]

theorem State.migctrlWrite_stops (u : State) (ini : Initiator) {v : Word} (hstart : bit v 31 = false) (hstop : bit v 30 = true) :
    u.migctrlWrite ini v = u.migStop := by
  unfold State.migctrlWrite
  simp only [hstart, hstop, Bool.false_and, Bool.false_eq_true, if_false, if_true]

/-- An abandoned migration puts its source online and its target back to spare, and is reported with the position it had. -/
theorem State.migStop_running {u : State} {src t : Nat} (hmig : u.drc.mig = some (src, t)) :
    let w := (((u.setRk src Rk.online 0).setRk t Rk.spare 0).setReg Pg.drc src Dc.rkMigpos 0)
    let w := { w with drc := { w.drc with mig := none } }
    u.migStop = (w.event Pg.drc 6).drcReport DrcEv.migStop src Sc.doneWarn (word t)
      (word (u.fieldOf Pg.drc src Dc.rkMigpos 21 0)) := by
  unfold State.migStop
  simp only [hmig]

section
variable {ini : Initiator} (v : Word) {s : State} (hg : s.gate ini Pg.drc Dc.migctrl true = .serve)
include hg

theorem exec_migrationStart_served :
    exec (.migrationStart ini v) s = .next (((s.accessed ini Pg.drc Dc.migctrl).migctrlWrite ini v).setReply ini 0 false) :=
  congrArg _ (pageWrite_served s ini Pg.drc Dc.migctrl v _ hg)

theorem exec_migrationStop_served :
    exec (.migrationStop ini v) s = .next (((s.accessed ini Pg.drc Dc.migctrl).migctrlWrite ini v).setReply ini 0 false) :=
  congrArg _ (pageWrite_served s ini Pg.drc Dc.migctrl v _ hg)

end

/-- The next row slot of a running migration is copied word by word, and POS advances. -/
theorem exec_migrationSlotCopy_copies {flips : List Flip} {s : State} {src t : Nat} :
    let u := s.applyFlips flips
    let pos := u.fieldOf Pg.drc src Dc.rkMigpos 21 0
    u.drc.mig = some (src, t) → u.ready Dm.drc = true → u.migChannelsOnline src t = true →
    pos < rankSlots (u.reg Pg.drc src Dc.rkCfg) →
    exec (.migrationSlotCopy flips) s = .next (((List.range 224).foldl (fun s k => s.migWord src t (1792 * pos + 8 * k)) u).setReg
      Pg.drc src Dc.rkMigpos (word (pos + 1))) := by
  intro u pos hmig hready honline hpos
  have hruns : ¬((!u.ready Dm.drc) = true ∨ (!u.migChannelsOnline src t) = true ∨ rankSlots (u.reg Pg.drc src Dc.rkCfg) ≤ pos) := by
    simp [hready, honline, hpos]
  change execMigrationSlotCopy flips s = _
  unfold execMigrationSlotCopy
  simp only [show (s.applyFlips flips).drc.mig = _ from hmig]
  exact congrArg _ (if_neg hruns)

/-- A migration whose slots are all copied ends: the source retires and the spare stands in for it. -/
theorem exec_migrationDone_retires {s : State} {src t : Nat} (hmig : s.drc.mig = some (src, t)) (hready : s.ready Dm.drc = true)
    (hpos : rankSlots (s.reg Pg.drc src Dc.rkCfg) ≤ s.fieldOf Pg.drc src Dc.rkMigpos 21 0) :
    let u := (s.setRk src Rk.retired t).setRk t Rk.standin src
    let v := { u with drc := { u.drc with mig := none, migDone := true } }
    exec .migrationDone s =
      .next ((v.event Pg.drc 5).drcReport DrcEv.migDone src Sc.rankMigrated (word t) (word u.drc.poisoned)) := by
  have hruns : ¬((!s.ready Dm.drc) = true ∨ s.fieldOf Pg.drc src Dc.rkMigpos 21 0 < rankSlots (s.reg Pg.drc src Dc.rkCfg)) := by
    simp [hready, hpos]
  change execMigrationDone s = _
  unfold execMigrationDone
  simp only [hmig]
  exact congrArg _ (if_neg hruns)

/-! ### Work items (R379, R380) -/

section
variable {k : Nat} {flips : List Flip} {s t : State} {i : Item} {bs : List (Option Byte)} {e : EccSum}
  (hready : (s.applyFlips flips).ready Dm.drc = true)
include hready

theorem exec_drcCopy_runs (hi : (s.applyFlips flips).activeItem Pg.drc 1 k = some i) :
    let u := s.applyFlips flips
    (inWindow i.addrA i.length || inWindow i.addrB i.length) = true →
    u.drcRangeBad i.addrA i.length = false → u.drcRangeBad i.addrB i.length = false →
    u.rangeStatus i.addrA i.length = .ready → u.rangeStatus i.addrB i.length = .ready →
    let n := min (u.readyPrefix i.addrA i.length) (u.readyPrefix i.addrB i.length)
    u.unitRead i.addrA n = (t, .ok bs e) →
    let p := t.putOctets i.addrB (bs.map (·.getD 0))
    let f := e.join { p.2 with bad := [] }
    exec (.drcCopy k flips) s =
      .next ((p.1.poisonCopied i.addrB bs).drcFinish i (drcStatus (decide (n < i.length)) f i.replayed false) n f) := by
  intro u hwindow hsrc hdst hstA hstB n hread
  have hgood : ¬((!inWindow i.addrA i.length && !inWindow i.addrB i.length) || u.drcRangeBad i.addrA i.length ||
      u.drcRangeBad i.addrB i.length) = true := by
    rw [← Bool.not_or, hwindow, hsrc, hdst]
    decide
  change execDrcCopy k flips s = _
  unfold execDrcCopy
  simp only [u, n] at hgood hstA hstB hread
  simp only [hi, hready, if_neg hgood, hstA, hstB, hread, Bool.not_true, Bool.false_eq_true, if_false]
  rfl

theorem exec_drcFill_runs (hi : (s.applyFlips flips).activeItem Pg.drc 2 k = some i) :
    let u := s.applyFlips flips
    i.addrB % 4 = 0 → i.length % 4 = 0 → inWindow i.addrB i.length = true →
    u.drcRangeBad i.addrB i.length = false → u.rangeStatus i.addrB i.length = .ready →
    let n := u.readyPrefix i.addrB i.length
    let p := u.putOctets i.addrB ((fillBytes (i.w 1) i.length).take n)
    let f := { p.2 with bad := [] }
    exec (.drcFill k flips) s = .next (p.1.drcFinish i (drcStatus (decide (n < i.length)) f i.replayed false) n f) := by
  intro u haddr hlen hwindow hdst hst
  have hgood : ¬(i.addrB % 4 ≠ 0 ∨ i.length % 4 ≠ 0 ∨ (!inWindow i.addrB i.length) = true ∨
      u.drcRangeBad i.addrB i.length = true) := by
    simp [haddr, hlen, hwindow, hdst]
  change execDrcFill k flips s = _
  unfold execDrcFill
  simp only [u] at hgood hst
  simp only [hi, hready, if_neg hgood, hst, Bool.not_true, Bool.false_eq_true, if_false]
  rfl

theorem exec_drcScrub_runs (hi : (s.applyFlips flips).activeItem Pg.drc 3 k = some i) :
    let u := s.applyFlips flips
    i.addrA % 64 = 0 → i.length % 64 = 0 → inWindow i.addrA i.length = true →
    u.drcRangeBad i.addrA i.length = false → u.rangeStatus i.addrA i.length = .ready →
    let n := u.readyPrefix i.addrA i.length
    u.unitRead i.addrA n true = (t, .ok bs e) →
    exec (.drcScrub k flips) s = .next (t.drcFinish i (drcStatus (decide (n < i.length)) e i.replayed true) n e) := by
  intro u haddr hlen hwindow hsrc hst n hread
  have hgood : ¬(i.addrA % 64 ≠ 0 ∨ i.length % 64 ≠ 0 ∨ (!inWindow i.addrA i.length) = true ∨
      u.drcRangeBad i.addrA i.length = true) := by
    simp [haddr, hlen, hwindow, hsrc]
  change execDrcScrub k flips s = _
  unfold execDrcScrub
  simp only [u, n] at hgood hst hread
  simp only [hi, hready, if_neg hgood, hst, hread, Bool.not_true, Bool.false_eq_true, if_false]
  rfl

end

/-- Settles O37: each clause is the arm of its command that its conditions choose; the two control registers are served writes. -/
theorem dramCommandsComplete : Obligations.DramCommandsComplete := by
  unfold Obligations.DramCommandsComplete
  refine ⟨?train, ?trained, ?refresh, ?alert, ?replay, ?window, ?start, ?stop, ?slot, ?done, ?copy, ?fill, ?scrub⟩
  case train =>
    intro ini v s hg hv u ch hfused htrain hreplay
    rw [exec_channelTrain_served v hg, State.chctrlWrite_trains ini hv hfused htrain hreplay]
  case trained =>
    intro ch failed results s hch htrain hfailed u
    have hgo : ¬(1 < ch ∨ s.chState ch ≠ Chn.training ∨ 6 < failed) := by simp [hch, htrain, hfailed]
    exact congrArg _ (if_neg hgo)
  case refresh =>
    intro rank postpone s hrank hon n
    have hgo : ¬(3 < rank ∨ (!s.domOn Dm.drc) = true) := by simp [hrank, hon]
    exact congrArg _ (if_neg hgo)
  case alert =>
    intro ch reissued items s hch hready honline u
    have hgo : ¬(1 < ch ∨ (!s.ready Dm.drc) = true ∨ s.chState ch ≠ Chn.online) := by simp [hch, hready, honline]
    exact congrArg _ (if_neg hgo)
  case replay =>
    exact fun ch s a hch hreplay ha => ⟨exec_parityReplayDone_accepted hch hreplay ha,
      exec_parityReplayDone_rejected hch hreplay ha, exec_alertStuck_fails hch hreplay ha⟩
  case window => exact fun s hon => congrArg _ (if_neg (by simp [hon]))
  case start =>
    intro ini v s t hg hstart hstop u hspare hmig hdone hrank hsrc hdst
    rw [exec_migrationStart_served v hg, State.migctrlWrite_starts ini hstart hstop hspare hmig hdone hrank hsrc hdst]
  case stop =>
    intro ini v s src t hg hstart hstop u hmig w w'
    rw [exec_migrationStop_served v hg, State.migctrlWrite_stops _ ini hstart hstop, State.migStop_running hmig]
  case slot => exact fun flips s src t hmig hready honline hpos => exec_migrationSlotCopy_copies hmig hready honline hpos
  case done => exact fun s src t hmig hready hpos => exec_migrationDone_retires hmig hready hpos
  case copy =>
    exact fun k flips s t i bs e hi hready hwindow hsrc hdst hstA hstB hread =>
      exec_drcCopy_runs hready hi hwindow hsrc hdst hstA hstB hread
  case fill =>
    exact fun k flips s i hi hready haddr hlen hwindow hdst hst => exec_drcFill_runs hready hi haddr hlen hwindow hdst hst
  case scrub =>
    exact fun k flips s t i bs e hi hready haddr hlen hwindow hsrc hst hread =>
      exec_drcScrub_runs hready hi haddr hlen hwindow hsrc hst hread

end Sys2Proof.Machine

/-! ## Pins and months -/

namespace Sys2Proof.Machine

/-! ### Months (R469) -/

/-- Settles O52: February by the rule of leap years, the others by their number. -/
theorem monthLengths : Obligations.MonthLengths := by
  unfold Obligations.MonthLengths
  refine ⟨?february, by decide, by decide, ?long, ?short⟩
  case february =>
    intro y
    have hleap : (leapYear y = true) = (y % 4 = 0 ∧ (y % 100 ≠ 0 ∨ y % 400 = 0)) := by simp [leapYear]
    simp only [monthDays, hleap, if_true]
  case long =>
    intro y m hm
    fin_cases hm <;> rfl
  case short =>
    intro y m hm
    fin_cases hm <;> rfl

/-! ### Pins of a bank without supply (R538) -/

/-- A word that is made bit by bit reads each of its bits as made. -/
theorem bit_foldl_setBit (f : Nat → Bool) {n k : Nat} (hn : n ≤ 32) (hk : k < n) :
    bit ((List.range n).foldl (fun w p => setBit w p (f p)) 0) k = f k := by
  induction n with
  | zero => omega
  | succ n ih =>
    rw [List.range_succ, List.foldl_append, List.foldl_cons, List.foldl_nil]
    by_cases hlast : k = n
    · rw [hlast, bit_setBit _ _ _ (by omega)]
    · rw [bit_setBit_ne _ _ _ _ (by omega) hlast]
      exact ih (by omega) (by omega)

theorem State.pinLevel_unsupplied {s : State} {p : Nat} (h : s.supplied (pinBank p) = false) : s.pinLevel p = false := by
  unfold State.pinLevel
  rw [h, Bool.false_and]

/-- What the board drives at a pin of a bank without supply is read at no pin. -/
theorem State.pinLevel_drive {s : State} {p : Nat} (h : s.supplied (pinBank p) = false) (level : Bool) {q : Nat} (hq : q < 32) :
    (s.setGpio (fun g => { g with ins := setBit g.ins p level })).pinLevel q = s.pinLevel q := by
  by_cases hpin : q = p
  · rw [hpin, State.pinLevel_unsupplied h]
    exact State.pinLevel_unsupplied h
  · have hbit : bit (setBit s.per.gpio.ins p level) q = bit s.per.gpio.ins q := bit_setBit_ne _ _ _ _ hq hpin
    change (s.supplied (pinBank q) && match bits (s.padOf q) 2 0 with
      | 1 => s.outOf q
      | 2 => s.outOf q && bit (setBit s.per.gpio.ins p level) q
      | 3 => Sparse.get false s.mrc.toggles q
      | 4 => s.clk.refEn.isSome
      | _ => bit (setBit s.per.gpio.ins p level) q) = _
    rw [hbit]
    rfl

/-- A change that leaves the level of every pin pulses no producer. -/
theorem State.withPins_quiet {s : State} {f : State → State} (h : ∀ q, q < 32 → (f s).pinLevel q = s.pinLevel q) :
    s.withPins f = f s := by
  unfold State.withPins
  refine List.foldlRecOn (List.range 32) _ (motive := (· = f s)) rfl fun u hu q hq => ?_
  have hno : ((!s.pinLevel q && s.pinLevel q && ((f s).edgeSel q).testBit 0) ||
      (s.pinLevel q && !s.pinLevel q && ((f s).edgeSel q).testBit 1)) = false := by cases s.pinLevel q <;> rfl
  simp only [h q (List.mem_range.mp hq), hno, Bool.false_eq_true, if_false, hu]

/-- GPIO_IN reads what the pins read. -/
theorem State.gpioRead_congr {s t : State} (h : ∀ q, q < 32 → t.pinLevel q = s.pinLevel q) :
    t.gpioRead 0x804 = s.gpioRead 0x804 := by
  refine congrArg some (List.foldl_ext _ _ _ fun w q hq => ?_)
  rw [h q (List.mem_range.mp hq)]

/-- Settles O60: the level of a pin is gated by its bank's supply, so that driving it changes no level. -/
theorem unsuppliedPinsReadZero : Obligations.UnsuppliedPinsReadZero := by
  unfold Obligations.UnsuppliedPinsReadZero
  intro p s hp hoff
  have hlow : s.pinLevel p = false := State.pinLevel_unsupplied hoff
  refine ⟨hlow, ⟨_, rfl, (bit_foldl_setBit s.pinLevel (by decide) hp).trans hlow⟩, fun level => ?_⟩
  have hlevels := fun q (hq : q < 32) => State.pinLevel_drive hoff level hq
  refine ⟨_, congrArg Host.Outcome.next ((if_neg (Nat.not_le.mpr hp)).trans (State.withPins_quiet hlevels)), ?_, rfl, ?_⟩
  · exact (hlevels p hp).trans hlow
  · exact State.gpioRead_congr hlevels

end Sys2Proof.Machine

/-! ## Power domains: resets and the supply -/

namespace Sys2Proof.Machine

/-! ### Requests for a part reset (R395, R466) -/

/-- A first request with no medium operation running resets the part at once. -/
theorem State.requestReset_atOnce {s : State} (cause : Nat) (air : List Air) (hdue : s.resetDue = none)
    (hwaits : s.resetWaits = false) : s.requestReset cause air = s.partReset cause air := by
  unfold State.requestReset
  simp only [hdue, hwaits, Option.isSome_none, Bool.false_eq_true, if_false]

/-- A first request while a medium operation runs is deferred, its cause noted for the flash's record. -/
theorem State.requestReset_deferred {s : State} (cause : Nat) (air : List Air) (hdue : s.resetDue = none)
    (hwaits : s.resetWaits = true) :
    s.requestReset cause air = { s with
      resetDue := some cause
      flc := { s.flc with deferred := if s.flc.op.isSome then some (rstCause cause) else none } } := by
  unfold State.requestReset
  simp only [hdue, hwaits, Option.isSome_none, Bool.false_eq_true, if_false, if_true]

/-- A write of PWR_RESET with its key and RESET requests a part reset. -/
theorem State.resetWrite_keyed {u : State} (ini : Initiator) {v : Word} (air : List Air) (hkey : bits v 15 8 = 0xD1)
    (hreset : bit v 0 = true) : u.resetWrite ini v air = u.requestReset 4 air := by
  unfold State.resetWrite
  rw [if_neg (not_not_intro hkey), if_pos hreset]

/-- A deferred reset is performed once no operation that it waited for runs. -/
theorem exec_deferredResetApply_due {s : State} {c : Nat} (air : List Air) (hdue : s.resetDue = some c)
    (hwaits : s.resetWaits = false) : exec (.deferredResetApply air) s = .next (s.partReset c air) := by
  change execDeferredResetApply air s = _
  unfold execDeferredResetApply
  simp only [hdue, hwaits, Bool.false_eq_true, if_false]

/-- Settles O15: requests by the two laws of `State.requestReset`; the supply's commands are their arms. -/
theorem resetCommandsComplete : Obligations.ResetCommandsComplete := by
  unfold Obligations.ResetCommandsComplete
  refine ⟨?software, ?pin, ?watchdog, ?deferred, ?apply, ?brownOut, ?powerUp, ?recovers⟩
  case software =>
    intro ini v air s hg hkey hreset u hdue hwaits
    refine congrArg Host.Outcome.next ((pageWrite_served s ini Pg.pwr 0x828 v _ hg).trans (congrArg (State.setReply · ini 0 false) ?_))
    exact (State.resetWrite_keyed ini air hkey hreset).trans (State.requestReset_atOnce 4 air hdue hwaits)
  case pin => exact fun m tm air s hdue hwaits => congrArg Host.Outcome.next (State.requestReset_atOnce 2 air hdue hwaits)
  case watchdog => exact fun air s hdue hwaits => congrArg Host.Outcome.next (State.requestReset_atOnce 3 air hdue hwaits)
  case deferred => exact fun air s hdue hwaits => congrArg Host.Outcome.next (State.requestReset_deferred 3 air hdue hwaits)
  case apply => exact fun air s c hdue hwaits => exec_deferredResetApply_due air hdue hwaits
  case brownOut => exact fun s => rfl
  case powerUp => exact fun m tm vio s => rfl
  case recovers => exact fun m tm vio s hheld => congrArg Host.Outcome.next ((if_neg Bool.false_ne_true).trans (if_pos hheld))

end Sys2Proof.Machine

/-! ## Power domains: the phases of entry and wake -/

namespace Sys2Proof.Machine

/-! ### Entry into a lower state (R453, R454) -/

/-- An idle domain whose count reaches TICKS leaves for its idle target, or as far down as it is not held. -/
theorem exec_idleTimerExpire_leaves {d : Nat} {s : State} (hd : d ≠ Dm.aon) (hpresent : domPresent s.variant d = true)
    (hon : s.domOn d = true) (hstays : (s.dom d).leaving = none) (hreq : s.dreq d = 0)
    (hticks : s.fieldOf Pg.pwr d 0x104 15 0 ≠ 0) (hcount : s.fieldOf Pg.pwr d 0x104 15 0 ≤ (s.dom d).idle)
    (hidle : s.domIdle d = true) (hlower : (s.idleTarget d).atLeast (s.heldAt d) ≠ .on) :
    exec (.idleTimerExpire d) s = .next (s.setDom d { s.dom d with
      leaving := some ((s.idleTarget d).atLeast (s.heldAt d)), since := s.ticks - 1 }) := by
  have hleaves : ¬(d = Dm.aon ∨ (!domPresent s.variant d) = true ∨ (!s.domOn d) = true ∨ (s.dom d).leaving.isSome = true ∨
      s.dreq d ≠ 0 ∨ s.fieldOf Pg.pwr d 0x104 15 0 = 0 ∨ (s.dom d).idle < s.fieldOf Pg.pwr d 0x104 15 0 ∨
      (!s.domIdle d) = true ∨ (s.idleTarget d).atLeast (s.heldAt d) = .on) := by
    simp [hd, hpresent, hon, hstays, hreq, hticks, hcount, hidle, hlower]
  exact congrArg Host.Outcome.next (if_neg hleaves)

/-- IDLE_COMMIT: a domain that leaves for a lower state passes into the entry, after what leaving its state implies. -/
theorem exec_domainIdleCommit_enters {d : Nat} {air : List Air} {s : State} {t : DState} :
    let u := (s.settle air).follow d air
    let w := t.atLeast (u.heldAt d)
    (u.dreq d ≠ 0 ∨ u.domIdle d = true) → (u.dom d).leaving = some t → (u.dom d).phase = .none → (u.dom d).since < u.ticks →
    w.rank < (u.dom d).st.rank → u.awaited d = false → u.mayLeave d w = true →
    let v := if (u.dom d).st = .on then u.leaveOn d w air else u
    ((u.dom d).st = .on → v.unposted d = false) →
    let v := if w = .off then v.stagingOff d else v
    exec (.domainIdleCommit d air) s = .next (v.setDom d { v.dom d with
      phase := .idleCommit, target := w, since := v.ticks, wakeReq := false }) := by
  intro u w hreq hleaving hphase hsince hrank hawaited hmay v hposted v'
  have hstays : ¬(u.dreq d = 0 ∧ (!u.domIdle d) = true) := fun ⟨hzero, hbusy⟩ =>
    hreq.elim (· hzero) fun hidle => by simp [hidle] at hbusy
  have henters : ¬((u.dom d).phase ≠ .none ∨ u.ticks ≤ (u.dom d).since ∨ (u.dom d).st.rank ≤ w.rank ∨ u.awaited d = true ∨
      (!u.mayLeave d w) = true) := by
    simp [hphase, hsince, hrank, hawaited, hmay]
  have hgone : ¬((u.dom d).st = .on ∧ v.unposted d = true) := fun ⟨hon, hwait⟩ => by simp [hposted hon] at hwait
  change execDomainIdleCommit d air s = _
  unfold execDomainIdleCommit
  simp only [u] at hstays hleaving
  simp only [if_neg hstays, hleaving]
  exact congrArg Host.Outcome.next ((if_neg henters).trans (if_neg hgone))

/-- A phase passes to the next once its ticks since IDLE_COMMIT have run. -/
theorem State.phaseStep_due {s : State} {d n : Nat} {p : Phase} (q : Phase) (hphase : (s.dom d).phase = p)
    (hdue : (s.dom d).since + n ≤ s.ticks) : s.phaseStep d n p q = s.setDom d { s.dom d with phase := q } :=
  if_pos ⟨hphase, hdue⟩

/-! ### Wake (R457) -/

/-- A requested wake starts: the domains that it needs wake with it, and its clocks and VCORE are asked for. -/
theorem exec_domainWake_starts {d : Nat} {s : State} (hphase : (s.dom d).phase = .none) (hlow : (s.dom d).st ≠ .on)
    (hpresent : domPresent s.variant d = true) (hasked : (s.dom d).wakeReq = true ∨ s.dreq d = 1)
    (hmay : s.dreq d ≠ 3 ∨ s.neededUp d = true) :
    let u := s.setDom d { s.dom d with phase := .waking, since := s.ticks, leaving := none }
    let u := (needs d).foldl (fun s n =>
      if n = Dm.per ∨ (s.dom n).st = .off ∨ ((s.dom n).phase ≠ .none ∧ (s.dom n).target = .off) then s.wakeOne n else s) u
    let u := if u.clk.refEn.isSome ∨ d = Dm.wrx ∨ d = Dm.tag then u else u.setClk (fun c => { c with refEn := some u.ticks })
    exec (.domainWake d) s = .next (
      if needsVcore d ∧ u.fieldOf Pg.pwr 0 0x824 0 0 = 1 then
        (u.setReg Pg.pwr 0 0x824 0).setClk (fun c => { c with ramping := true })
      else u) := by
  have hstarts : ¬((s.dom d).phase ≠ .none ∨ (s.dom d).st = .on ∨ (!domPresent s.variant d) = true ∨
      (!((s.dom d).wakeReq || s.dreq d == 1)) = true ∨ (s.dreq d = 3 ∧ (!(s.dom d).warm) = true ∧ (!s.neededUp d) = true)) := by
    have hrequest : ((s.dom d).wakeReq || s.dreq d == 1) = true := by simpa using hasked
    have hoff : ¬(s.dreq d = 3 ∧ (!(s.dom d).warm) = true ∧ (!s.neededUp d) = true) := fun ⟨hthree, _, hneed⟩ =>
      hmay.elim (· hthree) fun hneeded => by simp [hneeded] at hneed
    simp only [hphase, hlow, hpresent, hrequest, hoff, ne_eq, not_true, Bool.not_true, Bool.false_eq_true, or_self,
      not_false_eq_true]
  exact congrArg Host.Outcome.next (if_neg hstarts)

/-- A waking domain whose clocks and VCORE are there reaches ON. -/
theorem exec_domainOn_reaches {d : Nat} {s : State} (hphase : (s.dom d).phase = .waking) (hclocks : s.clocksReady d = true)
    (hvcore : needsVcore d = true → s.clk.ramping = false ∧ s.fieldOf Pg.pwr 0 0x824 0 0 ≠ 1) :
    let x := s.dom d
    let off : Bool := x.st == .off
    let u := s.setDom d { x with
      st := .on, phase := .none, idle := 0, wakeReq := false, warm := false, epoch := if off then x.epoch + 1 else x.epoch }
    let u := if off then (u.domRegsReset d).domForget d else u
    let u := ((u.enterOn d off).count Pg.pwr d 0x10C 31 16 1).domChg d
    exec (.domainOn d) s = .next ((if x.warm && off then u.warmStart d else u).flushQueue.followAll []) := by
  have hreaches : ¬((s.dom d).phase ≠ .waking ∨ (!s.clocksReady d) = true ∨
      (needsVcore d && (s.clk.ramping || s.fieldOf Pg.pwr 0 0x824 0 0 == 1)) = true) := by
    have hhigh : (needsVcore d && (s.clk.ramping || s.fieldOf Pg.pwr 0 0x824 0 0 == 1)) = false := by
      cases hneeds : needsVcore d with
      | false => rfl
      | true =>
        obtain ⟨hsteady, hset⟩ := hvcore hneeds
        simp [hsteady, hset]
    simp [hphase, hclocks, hhigh]
  exact congrArg Host.Outcome.next (if_neg hreaches)

/-- Settles O13: each clause is the arm of its command that the conditions choose. -/
theorem domainPhasesComplete : Obligations.DomainPhasesComplete := by
  unfold Obligations.DomainPhasesComplete
  refine ⟨?idle, ?commit, ?save, ?switch, ?done, ?wake, ?on⟩
  case idle =>
    exact fun d s hd hpresent hon hstays hreq hticks hcount hidle hlower =>
      exec_idleTimerExpire_leaves hd hpresent hon hstays hreq hticks hcount hidle hlower
  case commit =>
    exact fun d air s t hreq hleaving hphase hsince hrank hawaited hmay hposted =>
      exec_domainIdleCommit_enters hreq hleaving hphase hsince hrank hawaited hmay hposted
  case save => exact fun d s hphase hdue => congrArg Host.Outcome.next (State.phaseStep_due .save hphase hdue)
  case switch => exact fun d s hphase hdue => congrArg Host.Outcome.next (State.phaseStep_due .switch hphase hdue)
  case done =>
    intro d s hphase hdue x more u u'
    have hends : ¬((s.dom d).phase ≠ .switch ∨ s.ticks < (s.dom d).since + 3) := by simp [hphase, hdue]
    exact congrArg Host.Outcome.next (if_neg hends)
  case wake =>
    exact fun d s hphase hlow hpresent hasked hmay => exec_domainWake_starts hphase hlow hpresent hasked hmay
  case on => exact fun d s hphase hclocks hvcore => exec_domainOn_reaches hphase hclocks hvcore

end Sys2Proof.Machine

/-! ## The internal flash -/

namespace Sys2Proof.Machine

/-! ### Work items (R387, R388, R393) -/

section
variable {k : Nat} {flips : List Flip} {s t v : State} {i : Item}

/-- PROGRAM of erased words outside protected regions begins with the first word, once its source is read. -/
theorem exec_flcProgram_begins {bs : List (Option Byte)} {e : EccSum} :
    let u := s.applyFlips flips
    let ofs := flashOfs i.addrB
    u.flcItem 1 k = some i → u.ready Dm.flc = true → i.addrB % 8 = 0 → i.length % 8 = 0 → inFlash i.addrB i.length = true →
    inMemories i.addrA i.length = true → (List.range (i.length / 8)).any (fun j => !u.wordErased (ofs + 8 * j)) = false →
    u.protectedRegion ofs i.length = none → u.unitRead i.addrA i.length = (t, .ok bs e) → (knownBytes bs).isSome = true →
    t.anySector ofs i.length (fun r => r.state == 3) = false →
    exec (.flcProgram k flips) s = .next { t with flc := { t.flc with
      op := some { kind := .program, item := some k, pos := ofs, stop := ofs + i.length, start := ofs, src := bs } } } := by
  intro u ofs hi hready haddr hlen hflash hmem herased hprot hread hknown hspare
  have hrange : ¬(i.addrB % 8 ≠ 0 ∨ i.length % 8 ≠ 0 ∨ (!inFlash i.addrB i.length) = true ∨
      (!inMemories i.addrA i.length) = true ∨
      (List.range (i.length / 8)).any (fun j => !u.wordErased (ofs + 8 * j)) = true) := by
    simp [haddr, hlen, hflash, hmem, herased]
  have hsource : ¬((knownBytes bs).isNone = true ∨ t.anySector ofs i.length (fun r => r.state == 3) = true) := by
    rw [Option.isNone_eq_false_iff.mpr hknown, hspare]
    decide
  change execFlcProgram k flips s = _
  unfold execFlcProgram
  simp only [u, ofs] at hi hready hrange hprot hread
  simp only [hi, hready, hprot, hread, if_neg hrange, Bool.not_true, Bool.false_eq_true, if_false]
  exact congrArg Host.Outcome.next (if_neg hsource)

/-- ERASE of whole sectors outside protected regions begins with the first one's intent record. -/
theorem exec_flcErase_begins :
    let ofs := flashOfs i.addrB
    s.flcItem 2 k = some i → s.ready Dm.flc = true → i.addrB % 4096 = 0 → i.length % 4096 = 0 → inFlash i.addrB i.length = true →
    s.protectedRegion ofs i.length = none → (s.sectorRec (ofs / 0x1000)).state ≠ 3 →
    exec (.flcErase k) s = .next { s with flc := { s.flc with
      op := some { kind := .erase, item := some k, pos := ofs, stop := ofs + i.length, start := ofs }
      intent := some (ofs / 0x1000) } } := by
  intro ofs hi hready haddr hlen hflash hprot hspare
  have hrange : ¬(i.addrB % 4096 ≠ 0 ∨ i.length % 4096 ≠ 0 ∨ (!inFlash i.addrB i.length) = true) := by
    simp [haddr, hlen, hflash]
  change execFlcErase k s = _
  unfold execFlcErase
  simp only [ofs] at hprot
  simp only [hi, hready, hprot, if_neg hrange, Bool.not_true, Bool.false_eq_true, if_false]
  exact congrArg Host.Outcome.next (if_neg hspare)

/-- VERIFY compares flash with memory, or with all ones, where both are read without an uncorrectable error. -/
theorem exec_flcVerify_compares {want got : List (Option Byte)} {e e' : EccSum} :
    let u := s.applyFlips flips
    let blank := i.uflags % 2 = 1
    u.flcItem 3 k = some i → u.ready Dm.flc = true → i.addrB % 8 = 0 → i.length % 8 = 0 → inFlash i.addrB i.length = true →
    (¬blank → inMemories i.addrA i.length = true ∧ u.unitRead i.addrA i.length = (t, .ok want e)) →
    (blank → t = u ∧ want = List.replicate i.length (some 0xFF) ∧ e = {}) →
    t.unitRead i.addrB i.length = (v, .ok got e') → e.bad = [] → e'.bad = [] →
    let diff := firstDiff got want
    exec (.flcVerify k flips) s = .next (v.finish i.id {
      status := if v.fieldOf Pg.flc 0 0x808 7 0 ≤ e'.corrected ∧ e'.corrected ≠ 0 then Sc.mediaCorrected
        else if diff.isSome then Sc.doneWarn else Sc.done
      actual := i.length
      rep6 := match diff with | some j => word (flashOfs i.addrB + j) | none => 0 }) := by
  intro u blank hi hready haddr hlen hflash hsource hblank hread hgood hgood' diff
  have hrange : ¬(i.addrB % 8 ≠ 0 ∨ i.length % 8 ≠ 0 ∨ (!inFlash i.addrB i.length) = true ∨
      ((!decide (i.uflags % 2 = 1)) = true ∧ (!inMemories i.addrA i.length) = true)) := by
    simpa [haddr, hlen, hflash] using fun hnot => (hsource (by simpa [blank] using hnot)).1
  have hwant : (if blank then (u, MemAns.ok (List.replicate i.length (some (0xFF : Byte))) {}) else u.unitRead i.addrA i.length) =
      (t, .ok want e) := by
    by_cases h : blank
    · obtain ⟨rfl, rfl, rfl⟩ := hblank h
      exact if_pos h
    · exact (if_neg h).trans (hsource h).2
  change execFlcVerify k flips s = _
  unfold execFlcVerify
  simp only [u, blank] at hi hready hwant
  simp only [hi, hready, hwant, hread, hgood, hgood', if_neg hrange, List.isEmpty_nil, Bool.not_true, Bool.false_eq_true,
    or_self, if_false]
  rfl

/-- COUNTERS writes the record of each sector of its range. -/
theorem exec_flcCounters_writes (hi : s.flcItem 4 k = some i) (hready : s.ready Dm.flc = true) (hlen : i.length % 4 = 0)
    (hsectors : i.addrA + i.length / 4 ≤ 1024) (hmem : inMemories i.addrB i.length = true)
    (hwrite : s.writes i.addrB
      (bytesOfWords ((List.range (i.length / 4)).map (fun j => counterWord (s.sectorRec (i.addrA + j))))) t) :
    exec (.flcCounters k) s = .next (t.finish i.id { status := Sc.done, actual := i.length }) := by
  obtain ⟨e, hwrite⟩ := hwrite
  have hrange : ¬(i.length % 4 ≠ 0 ∨ 1024 < i.addrA + i.length / 4 ∨ (!inMemories i.addrB i.length) = true) := by
    simp [hlen, hsectors, hmem]
  change execFlcCounters k s = _
  unfold execFlcCounters
  simp only [hi, hready, hwrite, if_neg hrange, Bool.not_true, Bool.false_eq_true, if_false]
  rfl

/-- PROTECT of an unlocked flash begins the write of the information row with what it reads. -/
theorem exec_flcProtect_begins {bs : List Byte} (salt : List Byte) (hi : s.flcItem 5 k = some i) (hready : s.ready Dm.flc = true)
    (hrests : s.flc.op = none) (hlen : i.length = 16) (hmem : inMemories i.addrA 16 = true) (hopen : s.flc.unlocked = true)
    (hread : s.reads i.addrA 16 bs t) :
    exec (.flcProtect k salt) s = .next { t with flc := { t.flc with
      op := some { kind := .info, item := some k, pos := 0, stop := 16, src := bs.map some } } } := by
  obtain ⟨os, e, hread, hknown⟩ := hread
  have hshape : ¬(i.length ≠ 16 ∨ (!inMemories i.addrA 16) = true ∨ (!s.flc.unlocked) = true) := by simp [hlen, hmem, hopen]
  change execFlcProtect k salt s = _
  unfold execFlcProtect
  simp only [hrests, hi, hready, hread, hknown, if_neg hshape, Bool.not_true, Bool.false_eq_true, if_false]

end

/-! ### Medium operations (R389, R390) -/

/-- A retirement ends by whether it found a spare. -/
theorem retired_cases {α : Type} (r : State × FlashOp × Bool) (f g : State → FlashOp → α) :
    (match r with
      | (s, o, true) => f s o
      | (s, o, false) => g s o) = if r.2.2 then f r.1 r.2.1 else g r.1 r.2.1 := by
  obtain ⟨s, o, found⟩ := r
  cases found <;> rfl

section
variable {s : State} {o : FlashOp} (hop : s.flc.op = some o)
include hop

/-- The information row's write ends for the item that began it: the new settings are in force. -/
theorem exec_flcProtect_written {k : Nat} (salt : List Byte) (hkind : o.kind = .info) (hitem : o.item = some k) :
    exec (.flcProtect k salt) s = .next (s.rowWritten o salt) := by
  change execFlcProtect k salt s = _
  unfold execFlcProtect
  simp only [hop]
  exact congrArg Host.Outcome.next (if_pos ⟨hkind, hitem⟩)

/-- A pulse of an erase: the sector is blank, gets another pulse, or is retired after the twelfth. -/
theorem exec_erasePulse_counts (blank : Bool) (hkind : o.kind = .erase) :
    let o := { o with tries := o.tries + 1 }
    let m := { o with maxPulses := max o.maxPulses o.tries }
    exec (.erasePulse blank) s = .next (
      if blank then s.erased o
      else if o.tries < 12 then { s with flc := { s.flc with op := some o } }
      else
        let r := s.retireSector (o.pos / 0x1000) m
        if r.2.2 then (r.1.blankSector (r.2.1.pos / 0x1000)).nextErase r.2.1 else r.1.endFlashOp r.2.1 Sc.mediaUncorrectable) := by
  intro o' m
  have herase : ¬o.kind ≠ .erase := not_not_intro hkind
  change execErasePulse blank s = _
  unfold execErasePulse
  simp only [hop]
  refine congrArg Host.Outcome.next ((if_neg herase).trans (congrArg (ite _ _) (congrArg (ite _ _) ?_)))
  exact retired_cases (s.retireSector (o'.pos / 0x1000) m) (fun s o => (s.blankSector (o.pos / 0x1000)).nextErase o)
    (fun s o => s.endFlashOp o Sc.mediaUncorrectable)

/-- An attempt at a word: the word is done, gets another attempt, or goes to a spare after the fourth. -/
theorem exec_programWord_counts (verified : Bool) (hkind : o.kind = .program) :
    let r := s.retireSector (o.pos / 0x1000) o
    exec (.programWord verified) s = .next (
      if verified then s.wordDone o
      else if o.tries < 3 then { s with flc := { s.flc with op := some { o with tries := o.tries + 1 } } }
      else if r.2.2 then r.1.wordDone r.2.1 else r.1.endFlashOp r.2.1 Sc.mediaUncorrectable) := by
  intro r
  have hprogram : ¬o.kind ≠ .program := not_not_intro hkind
  change execProgramWord verified s = _
  unfold execProgramWord
  simp only [hop]
  refine congrArg Host.Outcome.next ((if_neg hprogram).trans (congrArg (ite _ _) (congrArg (ite _ _) ?_)))
  exact retired_cases r (fun s o => s.wordDone o) (fun s o => s.endFlashOp o Sc.mediaUncorrectable)

end

/-! ### The password (R392) -/

/-- UNLOCK with the password that the row's hash fits unlocks the flash, and the written password is forgotten. -/
theorem State.pwctrlWrite_unlocks {u : State} (ini : Initiator) (hopen : u.flc.lockout = false)
    (hmatch : u.pwdMatches (u.flc.pwdHi.toNat * 2 ^ 32 + u.flc.pwdLo.toNat) = true) :
    u.pwctrlWrite ini 1 = { u with flc := { u.flc with pwdHi := 0, pwdLo := 0, unlocked := true } } := by
  have hunlock : bit (1 : Word) 0 = true := rfl
  have hrelock : bit (1 : Word) 1 = false := rfl
  unfold State.pwctrlWrite
  simp only [hunlock, hrelock, hopen, hmatch, Bool.and_false, Bool.false_eq_true, if_false, if_true]

theorem exec_flashUnlock_served {ini : Initiator} {s : State} (hg : s.gate ini Pg.flc 0x820 true = .serve) :
    exec (.flashUnlock ini) s = .next (((s.accessed ini Pg.flc 0x820).pwctrlWrite ini 1).setReply ini 0 false) :=
  congrArg Host.Outcome.next (pageWrite_served s ini Pg.flc 0x820 1 _ hg)

theorem exec_flashRelock_served {ini : Initiator} {s : State} (hg : s.gate ini Pg.flc 0x820 true = .serve) :
    exec (.flashRelock ini) s = .next (((s.accessed ini Pg.flc 0x820).pwctrlWrite ini 2).setReply ini 0 false) :=
  congrArg Host.Outcome.next (pageWrite_served s ini Pg.flc 0x820 2 _ hg)

/-! ### An erase intent that stands open (R396) -/

/-- The open erase is done again: the sector is blank, or retired where a spare is left. -/
theorem exec_eraseResume_open (blank : Bool) {s : State} {sec : Nat} (hopen : s.flc.intent = some sec) (hrests : s.flc.op = none)
    (hready : s.ready Dm.flc = true) :
    let o : FlashOp := { kind := .erase, item := none, pos := sec * 0x1000, stop := sec * 0x1000 + 0x1000 }
    let r := s.retireSector sec o
    let n := min ((s.sectorRec sec).count + 1) 0xFFFFFF
    let b := (s.blankSector sec).setSector sec { state := if 100000 < n then 1 else (s.sectorRec sec).state, count := n }
    let u := if blank then (if 100000 < n then b.event Pg.flc 0 else b)
      else if r.2.2 then r.1.blankSector sec else r.1
    let st := if blank then Sc.done else if r.2.2 then Sc.mediaRetired else Sc.mediaUncorrectable
    exec (.eraseResume blank) s = .next { u with flc := { u.flc with
      intent := none
      rstinfo := word (0x40000000 + 2 * 0x10000000 + 4 * 0x1000000 + st * 0x10000 + sec % 1024) } } := by
  intro o r n b u st
  have hresumes : ¬(s.flc.op.isSome = true ∨ (!s.ready Dm.flc) = true) := by simp [hrests, hready]
  have hends : (if blank then (if 100000 < n then b.event Pg.flc 0 else b, Sc.done)
      else match r with
        | (t, _, true) => (t.blankSector sec, Sc.mediaRetired)
        | (t, _, false) => (t, Sc.mediaUncorrectable)) = (u, st) := by
    cases blank with
    | true => rfl
    | false =>
      refine (retired_cases r (fun t _ => (t.blankSector sec, Sc.mediaRetired)) (fun t _ => (t, Sc.mediaUncorrectable))).trans ?_
      cases hspare : r.2.2 <;> simp only [u, st, hspare, Bool.false_eq_true, if_false, if_true]
  change execEraseResume blank s = _
  unfold execEraseResume
  simp only [hopen]
  refine congrArg Host.Outcome.next ((if_neg hresumes).trans ?_)
  exact congrArg (fun p : State × Nat => { p.1 with flc := { p.1.flc with
    intent := none
    rstinfo := word (0x40000000 + 2 * 0x10000000 + 4 * 0x1000000 + p.2 * 0x10000 + sec % 1024) } }) hends

/-- Settles O38: each clause is the arm of its command that the conditions choose; retirement by whether it found a spare, and the
password's writes by `State.pwctrlWrite`. -/
theorem flashCommandsComplete : Obligations.FlashCommandsComplete := by
  unfold Obligations.FlashCommandsComplete
  refine ⟨?program, ?erase, ?verify, ?counters, ?protect, ?row, ?pulse, ?attempt, ?password, ?resume⟩
  case program =>
    exact fun k flips s t i bs e hi hready haddr hlen hflash hmem herased hprot hread hknown hspare =>
      exec_flcProgram_begins hi hready haddr hlen hflash hmem herased hprot hread hknown hspare
  case erase =>
    exact fun k s i hi hready haddr hlen hflash hprot hspare => exec_flcErase_begins hi hready haddr hlen hflash hprot hspare
  case verify =>
    exact fun k flips s t v i want got e e' hi hready haddr hlen hflash hsource hblank hread hgood hgood' =>
      exec_flcVerify_compares hi hready haddr hlen hflash hsource hblank hread hgood hgood'
  case counters =>
    exact fun k s t i hi hready hlen hsectors hmem hwrite => exec_flcCounters_writes hi hready hlen hsectors hmem hwrite
  case protect =>
    exact fun k salt s t i bs hi hready hrests hlen hmem hopen hread =>
      exec_flcProtect_begins salt hi hready hrests hlen hmem hopen hread
  case row => exact fun k salt s o hop hkind hitem => exec_flcProtect_written hop salt hkind hitem
  case pulse => exact fun blank s o hop hkind => exec_erasePulse_counts hop blank hkind
  case attempt => exact fun verified s o hop hkind => exec_programWord_counts hop verified hkind
  case password =>
    intro ini s hg u w
    refine ⟨exec_flashRelock_served hg, fun hopen hmatch => ?_⟩
    rw [exec_flashUnlock_served hg, State.pwctrlWrite_unlocks ini hopen hmatch]
  case resume => exact fun blank s sec hopen hrests hready => exec_eraseResume_open blank hopen hrests hready

end Sys2Proof.Machine

/-! ## The real-time clock, triggers, pins and pulse generators -/

namespace Sys2Proof.Machine

/-! ### Commits of the calendar (R477, R478) -/

/-- A bit that a word holds is written with it already. -/
theorem or_twoPow_of_bit {v : Word} {k : Nat} (h : bit v k = true) : v ||| BitVec.twoPow 32 k = v := by
  ext j hj
  rw [BitVec.getElem_or, BitVec.getElem_twoPow]
  by_cases hjk : j = k
  · subst hjk
    simpa [bit, BitVec.getLsbD_eq_getElem hj] using h
  · simp [hjk]

/-- A commit that names a part of a possible calendar is taken, where none waits. -/
theorem State.rtcCommit_takes {u : State} (ini : Initiator) {v : Word} (hl : u.locked Pg.rtc = false) (hfree : u.rtc.load = none)
    (hnames : bit v 0 = true ∨ bit v 1 = true ∨ bit v 2 = true) :
    let l : RtcLoad := { time := bit v 0, date := bit v 1, wday := bit v 2, timeWord := Sparse.get 0 u.rtc.times ini.id
                         dateWord := Sparse.get 0 u.rtc.dates ini.id }
    impossible l = none → u.rtcCommit ini v = u.setRtc (fun r => { r with load := some l }) := by
  intro l hpossible
  have hgo : ¬((!bit v 0) = true ∧ (!bit v 1) = true ∧ (!bit v 2) = true) := by
    simpa [imp_iff_not_or, or_assoc] using hnames
  unfold State.rtcCommit
  simp only [l] at hpossible
  simp only [hl, hfree, hpossible, if_neg hgo, Option.isSome_none, Bool.false_eq_true, if_false]
  rfl

section
variable {ini : Initiator} {v : Word} {s : State} (hg : s.gate ini Pg.rtc 0x80C true = .serve)
include hg

theorem exec_goTime_served (hv : bit v 0 = true) :
    exec (.goTime ini v) s = .next (((s.accessed ini Pg.rtc 0x80C).rtcCommit ini v).setReply ini 0 false) := by
  refine congrArg Host.Outcome.next ((pageWrite_served s ini Pg.rtc 0x80C _ _ hg).trans ?_)
  rw [show v ||| 1 = v from or_twoPow_of_bit hv]

theorem exec_goDate_served (hv : bit v 1 = true) :
    exec (.goDate ini v) s = .next (((s.accessed ini Pg.rtc 0x80C).rtcCommit ini v).setReply ini 0 false) := by
  refine congrArg Host.Outcome.next ((pageWrite_served s ini Pg.rtc 0x80C _ _ hg).trans ?_)
  rw [show v ||| 2 = v from or_twoPow_of_bit hv]

theorem exec_goWday_served (hv : bit v 2 = true) :
    exec (.goWday ini v) s = .next (((s.accessed ini Pg.rtc 0x80C).rtcCommit ini v).setReply ini 0 false) := by
  refine congrArg Host.Outcome.next ((pageWrite_served s ini Pg.rtc 0x80C _ _ hg).trans ?_)
  rw [show v ||| 4 = v from or_twoPow_of_bit hv]

end

/-! ### Mains edges (R482) -/

/-- A window of mains edges that has run its hours is measured, unless its count is off by more than one in a thousand. -/
theorem exec_zcWindowEnd_due {s : State} (hsrc : s.trimSrc = 1)
    (hdue : 3600 * s.fieldOf Pg.rtc 0 0x81C 15 0 ≤ s.rtc.zcSecs) :
    let d : Int := (s.rtc.zc : Int) - s.zcNominal
    exec .zcWindowEnd s = .next (
      if s.zcNominal < 1000 * d.natAbs then s.zcRestart else s.zcRestart.rtcMeasure d s.zcNominal s.zcRestart.trimReg) := by
  have hruns : ¬(s.trimSrc ≠ 1 ∨ s.rtc.zcSecs < 3600 * s.fieldOf Pg.rtc 0 0x81C 15 0) := by simp [hsrc, hdue]
  exact congrArg Host.Outcome.next (if_neg hruns)

/-! ### Triggers (R489 to R492) -/

/-- MRC_SWLEVEL has four bits. -/
theorem State.plainWrite_swLevel (s : State) (ini : Initiator) (v : Word) :
    s.plainWrite ini Pg.mrc 0 0xA04 v = s.setReg Pg.mrc 0 0xA04 ((s.reg Pg.mrc 0 0xA04 &&& ~~~0xF) ||| (v &&& 0xF)) := by
  have hdef : regDef Pg.mrc 0xA04 = some { off := 0xA04, name := "MRC_SWLEVEL", rw := fld 3 0 } := by decide
  have hlevels : word (fld 3 0) = 0xF := by decide
  have hkeep : ~~~(v &&& word 0) = BitVec.allOnes 32 := by simp [word]
  unfold State.plainWrite
  simp only [hdef, writeValue, outOfRange, hlevels, hkeep, List.foldl_nil, List.any_nil, BitVec.and_allOnes, Bool.false_and,
    Bool.false_eq_true, if_false]

/-- A deferred trigger goes on once its interval has passed. -/
theorem exec_deferredTrigger_due {k : Nat} {s : State} (hk : k < 48) (hdeferred : (s.mrcIn k).deferred = true)
    (hpassed : s.mrcLimits k (bits (s.reg Pg.mrc 0 (0x800 + 4 * k)) 14 0) = false) :
    exec (.deferredTrigger k) s =
      .next ((s.setMrcIn k { s.mrcIn k with deferred := false, last := some s.ticks }).mrcTrigger k) := by
  have hgoes : ¬(48 ≤ k ∨ (!(s.mrcIn k).deferred) = true ∨
      s.mrcLimits k (bits (s.reg Pg.mrc 0 (0x800 + 4 * k)) 14 0) = true) := by
    simp [hk, hdeferred, hpassed]
  exact congrArg Host.Outcome.next (if_neg hgoes)

/-- A latched trigger acts once the domain of its task is ON. -/
theorem exec_latchedTriggerAct_on {k : Nat} {s : State} (hk : k < 48) (hlatched : (s.mrcIn k).latched = true)
    (hon : s.domOn (mrcDomain k) = true) :
    exec (.latchedTriggerAct k) s =
      .next ((s.setMrcIn k { s.mrcIn k with latched := false, fired := true }).mrcTask k true) := by
  have hacts : ¬(48 ≤ k ∨ (!(s.mrcIn k).latched) = true ∨ (!s.domOn (mrcDomain k)) = true) := by simp [hk, hlatched, hon]
  exact congrArg Host.Outcome.next (if_neg hacts)

section
variable {ini : Initiator} {n : Nat} {s : State} (hn : n < 4)
include hn

theorem exec_stampRead_served (hg : s.gate ini Pg.mrc (0xA60 + 8 * n) false = .serve) :
    let u := s.accessed ini Pg.mrc (0xA60 + 8 * n)
    exec (.stampRead ini n) s = .next ((u.stampRead n).2.setReply ini (u.stampRead n).1 false) := by
  change execStampRead ini n s = _
  unfold execStampRead
  rw [Nat.mod_eq_of_lt hn]
  exact congrArg Host.Outcome.next (pageRead_served s ini Pg.mrc (0xA60 + 8 * n) _ hg)

theorem exec_cntWrite_served (v : Word) (hg : s.gate ini Pg.mrc (cntVal n) true = .serve) :
    exec (.cntWrite ini n v) s = .next (((s.accessed ini Pg.mrc (cntVal n)).cntWrite n v).setReply ini 0 false) := by
  change execCntWrite ini n v s = _
  unfold execCntWrite
  rw [Nat.mod_eq_of_lt hn]
  exact congrArg Host.Outcome.next (pageWrite_served s ini Pg.mrc (cntVal n) v _ hg)

end

/-- Settles O39: each clause is the arm of its command that the conditions choose; registers are read and written by the law of
their served access. -/
theorem clockTriggerPinCommandsComplete : Obligations.ClockTriggerPinCommandsComplete := by
  unfold Obligations.ClockTriggerPinCommandsComplete
  refine ⟨?read, ?commit, ?load, ?edge, ?window, ?gap, ?capture, ?deferred, ?latched, ?swPulse, ?swLevel, ?stamp, ?count, ?pin,
    ?release, ?wrap⟩
  case read =>
    intro ini off s hoff hg u
    exact congrArg Host.Outcome.next ((if_pos hoff).trans (pageRead_served s ini Pg.rtc off _ hg))
  case commit =>
    intro ini v s hg u l t hl hfree
    refine ⟨fun hv hpossible => ?_, fun hv hpossible => ?_, fun hv hpossible => ?_⟩
    · rw [exec_goTime_served hg hv, State.rtcCommit_takes ini hl hfree (.inl hv) hpossible]
    · rw [exec_goDate_served hg hv, State.rtcCommit_takes ini hl hfree (.inr (.inl hv)) hpossible]
    · rw [exec_goWday_served hg hv, State.rtcCommit_takes ini hl hfree (.inr (.inr hv)) hpossible]
  case load => exact fun s l _ _ => rfl
  case edge =>
    intro since s hsince hsupply u
    have hcounted : ¬(since < 10000 ∨ (!s.supplied .c) = true) := by simp [hsince, hsupply]
    exact congrArg Host.Outcome.next (if_neg hcounted)
  case window => exact fun s hsrc hdue => exec_zcWindowEnd_due hsrc hdue
  case gap => exact fun s hsrc => congrArg Host.Outcome.next (if_pos hsrc)
  case capture => exact fun s => rfl
  case deferred => exact fun k s hk hdeferred hpassed => exec_deferredTrigger_due hk hdeferred hpassed
  case latched => exact fun k s hk hlatched hon => exec_latchedTriggerAct_on hk hlatched hon
  case swPulse => exact fun ini v s hg => congrArg Host.Outcome.next (pageWrite_served s ini Pg.mrc 0xA00 v _ hg)
  case swLevel =>
    intro ini v s hg u
    refine congrArg Host.Outcome.next ((pageWrite_served s ini Pg.mrc 0xA04 v _ hg).trans ?_)
    rw [State.plainWrite_swLevel]
  case stamp => exact fun ini n s hn hg => exec_stampRead_served hn hg
  case count => exact fun ini n v s hn hg => exec_cntWrite_served hn v hg
  case pin => exact fun pin level s hpin => congrArg Host.Outcome.next (if_neg (Nat.not_le.mpr hpin))
  case release => exact fun ini s hg => congrArg Host.Outcome.next (pageWrite_served s ini Pg.gpio 0x808 1 _ hg)
  case wrap =>
    intro k s hk _ hruns
    have hwraps : ¬(4 ≤ k ∨ (!s.pwmRuns k) = true) := by simp [hk, hruns]
    exact congrArg Host.Outcome.next (if_neg hwraps)

end Sys2Proof.Machine

/-! ## The serial units, DALI and the host port -/

namespace Sys2Proof.Machine

/-! ### Units -/

theorem isUart_excludes {p : Nat} (h : isUart p = true) : isDli p = false ∧ isI2c p = false := by
  simp only [isUart, Bool.and_eq_true, decide_eq_true_eq] at h
  simp only [isDli, isI2c, Bool.or_eq_false_iff, beq_eq_false_iff_ne]
  omega

theorem isI2c_excludes {p : Nat} (h : isI2c p = true) : isDli p = false := by
  simp only [isI2c, Bool.or_eq_true, beq_iff_eq] at h
  simp only [isDli, Bool.or_eq_false_iff, beq_eq_false_iff_ne]
  omega

/-! ### TX, RX and XFER (R549, R550) -/

section
variable {k : Nat} {s t : State} {i : Item}

/-- TX sends the octets that it reads; on I2C only those before a lost arbitration or a missing acknowledgement. -/
theorem exec_serialTx_sends {lost : Bool} {nack : Option Nat} {flips : List Flip} {bs : List Byte}
    (hi : (s.applyFlips flips).perItem k 1 = some i) (hserial : isDli i.unit = false) (hgood : i.serialBad = false)
    (hread : (s.applyFlips flips).reads i.addrA i.length bs t) :
    let n := if isI2c i.unit && lost then 0 else if isI2c i.unit then min (nack.getD bs.length) bs.length else bs.length
    let st := if isI2c i.unit && lost then Sc.channelBusy else if isI2c i.unit && nack.isSome then Sc.noAck else Sc.done
    let v := t.takeCfg i.unit
    let w := v.setSerial i.unit { v.serial i.unit with sent := bs.take n }
    exec (.serialTx k lost nack flips) s = .next ((w.holdBus i (i.hold && st == Sc.done)).finish k { status := st, actual := n }) := by
  intro n st v w
  obtain ⟨os, e, hread, hknown⟩ := hread
  have hsent : (if isI2c i.unit && lost then 0 else match nack with
      | some m => if isI2c i.unit then min m bs.length else bs.length
      | none => bs.length) = n := by
    cases nack with
    | some m => rfl
    | none => simp only [n, Option.getD_none, Nat.min_self, ite_self]
  change execSerialTx k lost nack flips s = _
  unfold execSerialTx
  simp only [hi, hserial, hgood, hread, hknown, Bool.false_eq_true, if_false]
  exact congrArg (fun n => Host.Outcome.next (((v.setSerial i.unit { v.serial i.unit with sent := bs.take n }).holdBus i
    (i.hold && st == Sc.done)).finish k { status := st, actual := n })) hsent

/-- RX of a unit other than a UART takes its length of octets. -/
theorem exec_serialRx_takes {octets : List (Byte × Bool)} (hi : s.perItem k 2 = some i) (hserial : isDli i.unit = false)
    (hgood : i.serialBad = false) (huart : isUart i.unit = false) (hlen : i.length ≤ octets.length)
    (hready : s.rangeStatus i.addrB i.length = .ready) :
    exec (.serialRx k octets false false) s = .next (((s.takeCfg i.unit).holdBus i (i.hold && !isI2c i.unit)).rxEnd i
      ((octets.map (fun o => (o.1, false))).take i.length) false) := by
  have hwhole : ((octets.map (fun o => (o.1, false))).take i.length).length = i.length := by simpa using hlen
  change execSerialRx k octets false false s = _
  unfold execSerialRx
  simp only [hi, hserial, hgood, huart, hwhole, hready, List.nil_append, lt_self_iff_false, decide_false, Bool.false_eq_true,
    and_false, false_and, if_false]

/-- RX of a UART takes the octets that are queued first, and may end short on its idle limit. -/
theorem exec_serialRx_uart {octets : List (Byte × Bool)} (lost nack : Bool) (hi : s.perItem k 2 = some i)
    (hgood : i.serialBad = false) (huart : isUart i.unit = true) :
    let x := s.serial i.unit
    let new := octets.map (fun o => (uartOctet (s.reg i.unit 0 0x800) o.1, o.2))
    let got := (x.fifo ++ new).take i.length
    i.length ≤ got.length ∨ i.uparam ≠ 0 → s.rangeStatus i.addrB got.length = .ready →
    let u := s.takeCfg i.unit
    exec (.serialRx k octets lost nack) s = .next (((u.setSerial i.unit { u.serial i.unit with fifo := x.fifo.drop i.length }).count
      i.unit 0 0x80C 31 16 (new.filter (·.2)).length).rxEnd i got (decide (got.length < i.length))) := by
  intro x new got hends hready u
  obtain ⟨hserial, hi2c⟩ := isUart_excludes huart
  have hnotShort : ¬(got.length < i.length ∧ (!decide (True ∧ i.uparam ≠ 0)) = true) := by
    rintro ⟨hshort, hlimit⟩
    exact hends.elim (Nat.not_le.mpr hshort) fun h => by simp [h] at hlimit
  change execSerialRx k octets lost nack s = _
  unfold execSerialRx
  simp only [x, new, got] at hnotShort hready
  simp only [hi, hserial, hgood, hi2c, huart, if_neg hnotShort, hready, Bool.false_eq_true, false_and, if_false, if_true]
  simp only [State.holdBus, huart, if_true]
  rfl

/-- RX on I2C ends at once where arbitration is lost or the target does not acknowledge. -/
theorem exec_serialRx_i2c {octets : List (Byte × Bool)} (hi : s.perItem k 2 = some i) (hgood : i.serialBad = false)
    (hi2c : isI2c i.unit = true) :
    exec (.serialRx k octets true false) s = .next (((s.takeCfg i.unit).holdBus i false).finish k { status := Sc.channelBusy }) ∧
    exec (.serialRx k octets false true) s = .next (((s.takeCfg i.unit).holdBus i false).finish k { status := Sc.noAck }) := by
  have hserial := isI2c_excludes hi2c
  constructor
  · change execSerialRx k octets true false s = _
    unfold execSerialRx
    simp only [hi, hserial, hgood, hi2c, Bool.false_eq_true, and_self, if_false, if_true]
  · change execSerialRx k octets false true s = _
    unfold execSerialRx
    simp only [hi, hserial, hgood, hi2c, Bool.false_eq_true, and_self, and_false, if_false, if_true]

/-- XFER on SPI sends what it reads while it takes as many octets. -/
theorem exec_serialXfer_exchanges {octets : List Byte} {flips : List Flip} {bs : List Byte}
    (hi : (s.applyFlips flips).perItem k 3 = some i) (hspi : isSpim i.unit = true)
    (hready : (s.applyFlips flips).rangeStatus i.addrB i.length = .ready)
    (hread : (s.applyFlips flips).reads i.addrA i.length bs t) :
    let v := t.takeCfg i.unit
    let w := v.setSerial i.unit { v.serial i.unit with sent := bs }
    exec (.serialXfer k octets flips) s =
      .next ((w.holdBus i i.hold).rxEnd i ((padTo i.length octets).map (fun b => (b, false))) false) := by
  intro v w
  obtain ⟨os, e, hread, hknown⟩ := hread
  change execSerialXfer k octets flips s = _
  unfold execSerialXfer
  simp only [hi, hspi, hready, hread, hknown, Bool.not_true, Bool.false_eq_true, if_false]
  rfl

/-! ### DALI (R549) -/

section
variable (collided : Bool) (back : Option (Byte × Bool)) (hdali : isDli i.unit = true)
include hdali

theorem exec_dliSend_sends (hi : s.perItem k 1 = some i) (hgood : i.dliBad = false) (hfree : (s.serial i.unit).bus = false) :
    exec (.dliSend k collided back) s = .next ((s.takeCfg i.unit).dliEnd i collided back) := by
  change execDliSend k collided back s = _
  unfold execDliSend
  simp only [hi, hdali, hgood, hfree, Bool.not_true, Bool.false_eq_true, if_false]

/-- ARM stages its frame where none is staged. -/
theorem exec_dliArm_stages (hitem : s.item k = some i) (hi : s.perItem k 2 = some i) (harm : (s.serial i.unit).arm = none)
    (hgood : i.dliBad = false) :
    let u := s.takeCfg i.unit
    exec (.dliArm k collided back) s = .next (u.setSerial i.unit { u.serial i.unit with arm := some k }) := by
  intro u
  change execDliArm k collided back s = _
  unfold execDliArm
  simp only [hitem, hi, hdali, harm, hgood, reduceCtorEq, Option.isSome_none, Bool.not_true, Bool.false_eq_true, and_false,
    or_self, if_false]
  rfl

/-- A staged frame that a trigger has put on the bus ends with the status that cut it, or as its frame ends. -/
theorem exec_dliArm_ends (hitem : s.item k = some i) (harm : (s.serial i.unit).arm = some k) (hbus : (s.serial i.unit).bus = true) :
    let u := s.setSerial i.unit { s.serial i.unit with arm := none, bus := false, cut := none }
    exec (.dliArm k collided back) s = .next (
      match (s.serial i.unit).cut with
      | some status => u.finish k { status }
      | none => u.dliEnd i collided back) := by
  intro u
  change execDliArm k collided back s = _
  unfold execDliArm
  simp only [hitem, hdali, harm, hbus, Bool.not_true, Bool.false_eq_true, and_self, if_false, if_true]
  rfl

end

end

/-! ### Frames and octets from outside (R549, R551) -/

/-- A frame of another master pulses its producer, and is reported where monitoring is on. -/
theorem exec_daliMonitorFrame_seen {k : Nat} (frame : Word) (len : Nat) {s : State} (hk : k < 2) (hready : s.ready Dm.per = true)
    (hsupply : s.supplied .c = true) :
    let u := s.pulse (36 + k)
    let rep := u.reg (0x38 + k) 0 0x804
    exec (.daliMonitorFrame k frame len) s = .next (
      if bit (u.perCfg (0x38 + k)) 0 && bit rep 31 then
        u.report { unit := 0x38 + k, tail := bits rep 29 24, status := Sc.done, ns := u.tim.ns, sec := u.tim.sec
                   rep6 := frame, rep7 := word (len % 32) }
      else u) := by
  have hseen : ¬(2 ≤ k ∨ (!s.ready Dm.per) = true ∨ (!s.supplied .c) = true) := by simp [hk, hready, hsupply]
  exact congrArg Host.Outcome.next (if_neg hseen)

section
variable {k : Nat} {s : State} (hk : k < 4) (hready : s.ready Dm.per = true) (hrests : s.rxRuns (0x40 + k) = false)
include hk hready hrests

/-- An octet that no RX item takes is queued, or counted as lost where 32 are. -/
theorem exec_uartRxOctet_queues (octet : Byte) (err : Bool) (hsupply : s.supplied .a = true) :
    let p := 0x40 + k
    let u := if err then s.count p 0 0x80C 31 16 1 else s
    exec (.uartRxOctet k octet err) s = .next (
      if 32 ≤ (u.serial p).fifo.length then u.count p 0 0x80C 15 0 1
      else u.setSerial p { u.serial p with fifo := (u.serial p).fifo ++ [(uartOctet (u.perCfg p) octet, err)] }) := by
  have htaken : ¬(4 ≤ k ∨ (!s.ready Dm.per) = true ∨ (!s.supplied .a) = true ∨ s.rxRuns (0x40 + k) = true) := by
    simp [hk, hready, hsupply, hrests]
  exact congrArg Host.Outcome.next (if_neg htaken)

/-- Queued octets are reported, up to eight of them. -/
theorem exec_uartReport_posts :
    let p := 0x40 + k
    let x := s.serial p
    let rep := s.reg p 0 0x804
    bit rep 31 = true → x.fifo ≠ [] →
    let got := x.fifo.take 8
    let bs := padTo 8 (got.map (·.1))
    let u := s.setSerial p { x with fifo := x.fifo.drop 8 }
    exec (.uartReport k) s = .next (u.report {
      unit := p, tail := bits rep 29 24, status := if got.any (·.2) then Sc.mediaUncorrectable else Sc.done
      actual := got.length, ns := s.tim.ns, sec := s.tim.sec, rep6 := wordOfBytes bs, rep7 := wordOfBytes (bs.drop 4) }) := by
  intro p x rep hrep hfifo got bs u
  have hposts : ¬(4 ≤ k ∨ (!s.ready Dm.per) = true ∨ (!bit rep 31) = true ∨ x.fifo.isEmpty = true ∨ s.rxRuns p = true) := by
    simp [hk, hready, hrep, hfifo, show s.rxRuns p = false from hrests]
  exact congrArg Host.Outcome.next (if_neg hposts)

end

/-! ### The host port (R543) -/

/-- Octets of the host join those of its frame, which is checked once it is whole and PER is ON. -/
theorem exec_hostFrame_takes {octets : List Byte} {flips : List Flip} {s : State} {cmd : Byte} {rest : List Byte} :
    let u := s.applyFlips flips
    u.per.hspi.ended = false → u.supplied .a = true → u.per.hspi.frame = none → u.per.hspi.rx ++ octets = cmd :: rest →
    let v := if u.per.hspi.rx.isEmpty ∧ !octets.isEmpty ∧ !u.domOn Dm.per then u.wakeBy 4 else u
    let w := v.setHspi (fun h => { h with rx := cmd :: rest })
    exec (.hostFrame octets flips) s =
      .next (if w.domOn Dm.per ∧ hostFrameLen cmd ≤ (cmd :: rest).length then w.hostCheck (cmd :: rest) else w) := by
  intro u hended hsupply hframe hrx v w
  change execHostFrame octets flips s = _
  unfold execHostFrame
  simp only [u] at hended hsupply hframe hrx
  simp only [hended, hsupply, hframe, hrx, Option.isSome_none, Bool.not_true, Bool.false_eq_true, or_self, if_false]
  rfl

/-- Settles O40: each clause is the arm of its command that the conditions choose. -/
theorem serialCommandsComplete : Obligations.SerialCommandsComplete := by
  unfold Obligations.SerialCommandsComplete
  refine ⟨?tx, ?rx, ?uart, ?i2c, ?xfer, ?send, ?stage, ?armed, ?monitor, ?octet, ?report, ?hold, ?host, ?rise⟩
  case tx => exact fun k lost nack flips s t i bs hi hserial hgood hread => exec_serialTx_sends hi hserial hgood hread
  case rx =>
    exact fun k octets s i hi hserial hgood huart hlen hready => exec_serialRx_takes hi hserial hgood huart hlen hready
  case uart =>
    exact fun k octets lost nack s i hi hgood huart hends hready => exec_serialRx_uart lost nack hi hgood huart hends hready
  case i2c => exact fun k octets s i hi hgood hi2c => exec_serialRx_i2c hi hgood hi2c
  case xfer => exact fun k octets flips s t i bs hi hspi hready hread => exec_serialXfer_exchanges hi hspi hready hread
  case send => exact fun k collided back s i hi hdali hgood hfree => exec_dliSend_sends collided back hdali hi hgood hfree
  case stage =>
    exact fun k collided back s i hitem hi hdali harm hgood => exec_dliArm_stages collided back hdali hitem hi harm hgood
  case armed => exact fun k collided back s i hitem hdali harm hbus => exec_dliArm_ends collided back hdali hitem harm hbus
  case monitor => exact fun k frame len s hk hready hsupply => exec_daliMonitorFrame_seen frame len hk hready hsupply
  case octet =>
    exact fun k octet err s hk hready hsupply hrests => exec_uartRxOctet_queues hk hready hrests octet err hsupply
  case report => exact fun k s hk hready hrests hrep hfifo => exec_uartReport_posts hk hready hrests hrep hfifo
  case hold =>
    intro k s hk hfree
    have hreleased : ¬(2 ≤ k ∨ s.unitBusy (0x44 + k) = true) := by simp [hk, hfree]
    exact congrArg Host.Outcome.next (if_neg hreleased)
  case host => exact fun octets flips s cmd rest hended hsupply hframe hrx => exec_hostFrame_takes hended hsupply hframe hrx
  case rise => exact fun s => rfl

end Sys2Proof.Machine

/-! ## Contactless: the tag role -/

namespace Sys2Proof.Machine

/-! ### A command reaches the tag (R423, R424) -/

/-- A tag that is on, in a field that is not the part's own, takes a command; one other than AUTH2 discards RA and RB. -/
theorem State.tagCommand_taken {s : State} (auth2 : Bool) (k : State → State) (hown : s.tag.own = false) (hst : s.tag.st ≠ .off) :
    s.tagCommand auth2 k = k (if auth2 then s else s.setTag (fun t => { t with held := none })) := by
  have htaken : ¬(s.tag.st = .off ∨ s.tag.own = true) := fun h => h.elim hst (ne_true_of_eq_false hown)
  exact if_neg htaken

section
variable {st : TagSt} (h : st = .opened ∨ st = .secured)
include h

theorem TagSt.not_off_of_session : st ≠ .off := by
  rcases h with rfl | rfl <;> decide

theorem TagSt.not_outside_session : ¬(st ≠ .opened ∧ st ≠ .secured) := fun ⟨hopened, hsecured⟩ => h.elim hopened hsecured

end

section
variable {s : State} (hown : s.tag.own = false)
include hown

/-! ### Inventory and selection (R421, R425) -/

/-- A ready tag whose identifier starts with the bits of the command answers the rest of it. -/
theorem exec_cmdInventory_answers {n : Nat} {pre : List Byte} (hst : s.tag.st = .ready) (hn : n ≤ 64)
    (hstarts : (idBits s.tagSys.id).take n = (idBits pre).take n) :
    exec (.cmdInventory n pre) s = .next (s.setTag (fun t => { t with
      held := none, reply := upFrame ((idBits s.tagSys.id).drop n ++ bitsOfOctets (fcsOf true (padTo 8 s.tagSys.id))) })) := by
  refine congrArg Host.Outcome.next ((State.tagCommand_taken false _ hown (by rw [hst]; decide)).trans ?_)
  exact if_pos ⟨hst, hn, hstarts⟩

section
variable {id : List Byte} (hst : s.tag.st ≠ .off) (hquiet : s.tag.st ≠ .quiet)
include hst hquiet

theorem exec_cmdSelect_own (hid : id = s.tagSys.id) :
    exec (.cmdSelect id) s = .next (s.setTag (fun t => { t with
      held := none, st := if t.st = .ready then .opened else t.st, reply := upFrame (frameBits [0]) })) := by
  refine congrArg Host.Outcome.next ((State.tagCommand_taken false _ hown hst).trans ?_)
  exact (if_neg hquiet).trans (if_pos hid)

theorem exec_cmdSelect_other (hid : id ≠ s.tagSys.id) :
    exec (.cmdSelect id) s = .next (s.setTag (fun t => { t with held := none, st := .ready })) := by
  refine congrArg Host.Outcome.next ((State.tagCommand_taken false _ hown hst).trans ?_)
  exact (if_neg hquiet).trans (if_neg hid)

end

/-! ### The password and authentication (R428, R429) -/

section
variable (hst : s.tag.st = .opened)
include hst

theorem State.tagCommand_opened (auth2 : Bool) (k : State → State) :
    s.tagCommand auth2 k = k (if auth2 then s else s.setTag (fun t => { t with held := none })) :=
  State.tagCommand_taken auth2 k hown (TagSt.not_off_of_session (.inl hst))

theorem exec_cmdPwd_judged (pw : List Byte) (hopen : s.tag.lockout = false) :
    let u := s.setTag (fun t => { t with held := none })
    exec (.cmdPwd pw) s = .next (
      if s.tagSys.pwd ≠ 0 ∧ wordOfBytes pw = s.tagSys.pwd then u.tagSecured.tagAnswer [0]
      else (u.tagFailure 31 24).tagAnswer [1]) := by
  refine congrArg Host.Outcome.next ((State.tagCommand_opened hown hst false _).trans ?_)
  exact (if_neg (not_not_intro hst)).trans (if_neg (ne_true_of_eq_false hopen))

/-- AUTH1 is answered with RB and TA, which the tag keeps with RA. -/
theorem exec_cmdAuth1_answers {k : List Byte} (ra : List Byte) (hopen : s.tag.lockout = false) (hkey : s.tagSys.key = some k) :
    let u := s.setTag (fun t => { t with held := none })
    let rb := (u.freshOctets 2).1
    exec (.cmdAuth1 ra) s = .next (((u.freshOctets 2).2.setTag (fun t => { t with
      held := some (padTo 8 ra, rb) })).tagAnswer ([0] ++ rb ++ tagAuth k ra rb)) := by
  intro u rb
  have hkey' : u.tagSys.key = some k := hkey
  have hst' : ¬u.tag.st ≠ .opened := not_not_intro hst
  have hopen' : u.tag.lockout = false := hopen
  change execCmdAuth1 ra s = _
  unfold execCmdAuth1
  rw [State.tagCommand_opened hown hst]
  simp only [u] at hkey' hst' hopen'
  simp only [Bool.false_eq_true, if_false, if_neg hst', hopen', hkey']
  rfl

/-- AUTH2 secures the session where TR fits the RA and RB that the tag holds. -/
theorem exec_cmdAuth2_judged {ra rb k : List Byte} (tr : List Byte) (hheld : s.tag.held = some (ra, rb))
    (hkey : s.tagSys.key = some k) :
    exec (.cmdAuth2 tr) s = .next (
      if padTo 8 tr = tagAuth k rb ra then s.tagSecured.tagAnswer [0] else (s.tagFailure 23 16).tagAnswer [1]) := by
  change execCmdAuth2 tr s = _
  unfold execCmdAuth2
  rw [State.tagCommand_opened hown hst]
  simp only [if_true, hst, ne_eq, not_true, if_false, hheld, hkey, beq_iff_eq]

end

/-! ### Records (R431, R443) -/

section
variable (hst : s.tag.st = .opened ∨ s.tag.st = .secured)
include hst

theorem State.tagCommand_session (k : State → State) : s.tagCommand false k = k (s.setTag (fun t => { t with held := none })) :=
  State.tagCommand_taken false k hown (TagSt.not_off_of_session hst)

/-- WRITE of an unprotected record writes it, and its answer waits; a collapse of the supply leaves none. -/
theorem exec_cmdWrite_writes {record : Nat} {data : List Byte} (how : TagWrite) (hlen : data.length = 128) (hrecord : record < 64)
    (hsecured : s.needsSecured record = false) (hprot : protBit s.tagSys.fprot0 s.tagSys.fprot1 record = false) :
    let u := s.setTag (fun t => { t with held := none })
    let w := u.writeRec record data how (!u.tagCore)
    exec (.cmdWrite record data how) s = .next (
      match w.2 with
      | .done => (w.1.fieldWritten record).setTag (fun t => { t with wreply := some 0 })
      | .failed => w.1.setTag (fun t => { t with wreply := some 4 })
      | .low => w.1.setTag (fun t => { t with wreply := some 3 })
      | .collapsed => w.1) := by
  intro u w
  have hshape : ¬((u.tag.st ≠ .opened ∧ u.tag.st ≠ .secured) ∨ data.length ≠ 128) := fun h =>
    h.elim (TagSt.not_outside_session hst) (· hlen)
  have hmay : ¬(u.needsSecured record = true ∨ protBit u.tagSys.fprot0 u.tagSys.fprot1 record = true) := fun h =>
    h.elim (ne_true_of_eq_false hsecured) (ne_true_of_eq_false hprot)
  refine congrArg Host.Outcome.next ((State.tagCommand_session hown hst _).trans ?_)
  refine (if_neg hshape).trans ((if_neg (Nat.not_le.mpr hrecord)).trans ((if_neg hmay).trans ?_))
  change (match w with
    | (s, .done) => _
    | (s, .failed) => _
    | (s, .low) => _
    | (s, .collapsed) => _) = _
  obtain ⟨t, _ | _ | _ | _⟩ := w <;> rfl

theorem exec_cmdHalt_quiets :
    exec .cmdHalt s = .next (s.setTag (fun t => { t with held := none, st := .quiet })) := by
  refine congrArg Host.Outcome.next ((State.tagCommand_session hown hst _).trans ?_)
  exact if_pos hst

end

end

section
variable {record offset length : Nat} {decayed : List (Nat × Bool)} {s : State}
  (hown : (s.decay decayed).tag.own = false)
  (hst : (s.decay decayed).tag.st = .opened ∨ (s.decay decayed).tag.st = .secured)
  (hlow : 1 ≤ length) (hhigh : length ≤ 128) (hend : offset + length ≤ 128)
include hown hst hlow hhigh hend

/-- READ of a range within a record that the tag has goes on to it. -/
theorem exec_cmdRead_within (hrecord : record < 64 ∨ record = 255) :
    let v := (s.decay decayed).setTag (fun t => { t with held := none })
    exec (.cmdRead record offset length decayed) s = .next (
      if record = 255 then
        (if v.tag.sys.stale then v.tagStale else v).tagAnswer
          ((if v.tag.sys.stale then 6 else 0) :: (v.infoRecord.drop offset).take length)
      else if v.needsSecured record then v.tagAnswer [1]
      else (if (v.tagRec record).stale then v.tagStale else v).tagAnswer
        ((if (v.tagRec record).stale then 6 else 0) :: ((v.tagData record).drop offset).take length)) := by
  intro v
  have hrange : ¬(length < 1 ∨ 128 < length ∨ 128 < offset + length ∨ (64 ≤ record ∧ record ≠ 255)) := by omega
  refine congrArg Host.Outcome.next ((State.tagCommand_session hown hst _).trans ?_)
  exact (if_neg (TagSt.not_outside_session hst)).trans (if_neg hrange)

theorem exec_cmdRead_info :
    let v := (s.decay decayed).setTag (fun t => { t with held := none })
    exec (.cmdRead 255 offset length decayed) s = .next ((if v.tag.sys.stale then v.tagStale else v).tagAnswer
      ((if v.tag.sys.stale then 6 else 0) :: (v.infoRecord.drop offset).take length)) :=
  (exec_cmdRead_within hown hst hlow hhigh hend (.inr rfl)).trans (congrArg Host.Outcome.next (if_pos rfl))

theorem exec_cmdRead_data (hrecord : record < 64) :
    let v := (s.decay decayed).setTag (fun t => { t with held := none })
    v.needsSecured record = false →
    exec (.cmdRead record offset length decayed) s = .next ((if (v.tagRec record).stale then v.tagStale else v).tagAnswer
      ((if (v.tagRec record).stale then 6 else 0) :: ((v.tagData record).drop offset).take length)) := by
  intro v hsecured
  refine (exec_cmdRead_within hown hst hlow hhigh hend (.inl hrecord)).trans (congrArg Host.Outcome.next ?_)
  exact (if_neg (by omega)).trans (if_neg (ne_true_of_eq_false hsecured))

end

/-! ### Answers and reports that come later (R443, R447) -/

theorem exec_tagReply_due {s : State} {b : Byte} (h : s.tag.wreply = some b) :
    exec .tagReply s = .next (s.setTag (fun t => { t with wreply := none, reply := upFrame (frameBits [b]) })) := by
  change execTagReply s = _
  unfold execTagReply
  simp only [h]
  rfl

/-- The lowest dirty record that is not posted is reported. -/
theorem exec_dirtyReport_posts {s : State} {r : Nat} (hon : s.domOn Dm.tag = true) (hen : bit (s.tagReg 0x83C) 31 = true)
    (hr : (List.range 64).find? (fun r => Sparse.get false s.tag.dirty r && !Sparse.get false s.tag.posted r) = some r) :
    let u := s.setTag (fun t => { t with posted := Sparse.set false t.posted r true, writes := Sparse.set 0 t.writes r 0 })
    exec .dirtyReport s = .next (u.report {
      unit := Pg.tag, tail := bits (s.tagReg 0x83C) 29 24, status := Sc.done, tag := word (0x01000000 + r)
      ns := s.tim.ns, sec := s.tim.sec
      rep6 := word (match (s.tagRec r).frame with | some f => f.seq | none => 0)
      rep7 := word ((decide (1 < Sparse.get 0 s.tag.writes r)).toNat + (Sparse.get false s.tag.secured r).toNat * 2) }) := by
  intro u
  change execDirtyReport s = _
  unfold execDirtyReport
  simp only [hon, hen, hr, Bool.not_true, Bool.false_eq_true, or_self, if_false]
  rfl

/-- Settles O42: a command that the tag takes is the arm of its name that the conditions choose; so are the others. -/
theorem tagRoleCompletes : Obligations.TagRoleCompletes := by
  unfold Obligations.TagRoleCompletes
  refine ⟨?field, ?gone, ?lockout, ?inventory, ?select, ?password, ?auth1, ?auth2, ?read, ?write, ?halt, ?reply, ?dirty⟩
  case field => exact fun vbat decayed s hfield => congrArg Host.Outcome.next (if_neg (ne_true_of_eq_false hfield))
  case gone => exact fun s => rfl
  case lockout =>
    intro s hfield hlocked
    refine congrArg Host.Outcome.next ((if_neg (ne_true_of_eq_false hfield)).trans ?_)
    exact congrArg (fun t => { s with tag := t }) (if_pos hlocked)
  case inventory => exact fun n pre s hown hst hn hstarts => exec_cmdInventory_answers hown hst hn hstarts
  case select =>
    exact fun id s hown hst hquiet => ⟨exec_cmdSelect_own hown hst hquiet, exec_cmdSelect_other hown hst hquiet⟩
  case password => exact fun pw s hown hst hopen => exec_cmdPwd_judged hown hst pw hopen
  case auth1 => exact fun ra k s hown hst hopen hkey => exec_cmdAuth1_answers hown hst ra hopen hkey
  case auth2 => exact fun tr ra rb k s hown hst hheld hkey => exec_cmdAuth2_judged hown hst tr hheld hkey
  case read =>
    intro record offset length decayed s u v hown hst hlow hhigh hend
    refine ⟨?_, fun hrecord hsecured => exec_cmdRead_data hown hst hlow hhigh hend hrecord hsecured⟩
    rintro rfl
    exact exec_cmdRead_info hown hst hlow hhigh hend
  case write =>
    exact fun record data how s hown hst hlen hrecord hsecured hprot =>
      exec_cmdWrite_writes hown hst how hlen hrecord hsecured hprot
  case halt => exact fun s hown hst => exec_cmdHalt_quiets hown hst
  case reply => exact fun s b h => exec_tagReply_due h
  case dirty => exact fun s r hon hen hr => exec_dirtyReport_posts hon hen hr

end Sys2Proof.Machine

/-! ## Contactless: the reader's items and the tag-role items -/

namespace Sys2Proof.Machine

/-! ### What an item needs -/

theorem State.tagDest_ready {s : State} {i : Item} {n : Nat} (k : State → State) (h : s.rangeStatus i.addrB n = .ready) :
    s.tagDest i n k = k s := by
  unfold State.tagDest
  simp only [h]

/-- An item that addresses a selected tag goes on in the reader's field. -/
theorem State.withTag_for {s v : State} {i : Item} {foreign : Bool} (k : State → State) (hsess : s.tag.sess ≠ 0)
    (hfield : s.fieldFor foreign = some v) : s.withTag i foreign k = k v :=
  (if_neg hsess).trans (fieldOn_for hfield)

/-! ### SELECT, PASSWORD, WRITE and VERIFY_ORIGIN (R436, R437) -/

section
variable {k : Nat} {foreign : Bool} {answers : List UpReply} {flips : List Flip} {s t v : State} {i : Item} {bs data : List Byte}
  {r : TagRep} (hanswer : v.answered answers 0 data r) (hfield : t.fieldFor foreign = some v)
include hanswer hfield

theorem exec_tagSelect_done (hi : (s.applyFlips flips).tagItem 2 k = some i) (hlen : i.length = 8)
    (hread : (s.applyFlips flips).reads i.addrA 8 bs t) :
    exec (.tagSelect k foreign answers flips) s = .next ((v.setTag (fun t => { t with
      sent := [downFrame (0x02 :: bs)], sess := 1, sel := bs })).tagEnd i Sc.done r) := by
  have hanswer : (v.setTag (fun t => { t with sess := 0, sel := [] })).answered answers 0 data r := hanswer
  change execTagSelect k foreign answers flips s = _
  unfold execTagSelect
  simp only [hi, hlen, ne_eq, not_true, if_false]
  rw [tagSource_reads hread, fieldOn_for hfield]
  exact congrArg Host.Outcome.next (tagExchange_answered hanswer)

theorem exec_tagPassword_done (hi : (s.applyFlips flips).tagItem 3 k = some i) (hlen : i.length = 4)
    (hread : (s.applyFlips flips).reads i.addrA 4 bs t) (hsess : (s.applyFlips flips).tag.sess ≠ 0) (hsess' : t.tag.sess ≠ 0) :
    exec (.tagPassword k foreign answers flips) s = .next ((v.setTag (fun t => { t with
      sent := [downFrame (0x03 :: bs)], sess := 2 })).tagEnd i Sc.done r) := by
  change execTagPassword k foreign answers flips s = _
  unfold execTagPassword
  simp only [hi, hlen, hsess, ne_eq, not_true, or_self, if_false]
  rw [tagSource_reads hread, State.withTag_for _ hsess' hfield]
  exact congrArg Host.Outcome.next (tagExchange_answered hanswer)

theorem exec_tagWrite_done (hi : (s.applyFlips flips).tagItem 6 k = some i) (hlen : i.length = 128)
    (hread : (s.applyFlips flips).reads i.addrA 128 bs t) (hsess : (s.applyFlips flips).tag.sess ≠ 0) (hsess' : t.tag.sess ≠ 0) :
    exec (.tagWrite k foreign answers flips) s = .next ((v.setTag (fun t => { t with
      sent := [downFrame (0x07 :: BitVec.ofNat 8 (i.addrB % 256) :: bs)] })).tagEnd i Sc.done r) := by
  change execTagWrite k foreign answers flips s = _
  unfold execTagWrite
  simp only [hi, hlen, hsess, ne_eq, not_true, or_self, if_false]
  rw [tagSource_reads hread, State.withTag_for _ hsess' hfield]
  exact congrArg Host.Outcome.next (tagExchange_answered hanswer)

/-- VERIFY_ORIGIN holds the info record's identifier against the selected one, and its signature against the key it reads. -/
theorem exec_tagVerifyOrigin_judged (hi : (s.applyFlips flips).tagItem 7 k = some i)
    (hready : (s.applyFlips flips).ready Dm.sec = true) (hlen : i.length = 64)
    (hread : (s.applyFlips flips).reads i.addrA 64 bs t) (hsess : (s.applyFlips flips).tag.sess ≠ 0) (hsess' : t.tag.sess ≠ 0) :
    let x := v.setTag (fun t => { t with sent := [downFrame [0x06, 0xFF, 0, 128]] })
    let info := padTo 128 data
    exec (.tagVerifyOrigin k foreign answers flips) s = .next (
      if info.take 8 ≠ x.tag.sel ∨ !Crypto.ecdsaVerify bs (Crypto.sha256 (0x45 :: info.take 8)) ((info.drop 16).take 64) then
        x.tagEnd i Sc.authFail r
      else x.tagEnd i (if r.stale then Sc.doneWarn else Sc.done) r) := by
  change execTagVerifyOrigin k foreign answers flips s = _
  unfold execTagVerifyOrigin
  simp only [hi, hready, hlen, hsess, ne_eq, not_true, or_self, Bool.not_true, Bool.false_eq_true, if_false]
  rw [tagSource_reads hread, State.withTag_for _ hsess' hfield]
  exact congrArg Host.Outcome.next (tagExchange_answered hanswer)

end

/-! ### INVENTORY (R426) -/

section
variable {k : Nat} {foreign : Bool} {answers : List UpReply} {flips : List Flip} {s t a : State} {i : Item} {block : List Byte}

/-- The walk of an INVENTORY item over the prefixes that start with the block's. -/
def State.inventoryWalk (a : State) (i : Item) (block : List Byte) (answers : List UpReply) : Walk :=
  walk a.tagTries (i.length / 16) (2 * answers.length + 2)
    { stack := [(idBits (block.drop 8)).take (block.headD 0).toNat], answers }

/-- The block of an INVENTORY item once its walk has ended with `p` to go on from. -/
def inventoryBlock (block : List Byte) (p : List Bool) : List Byte :=
  BitVec.ofNat 8 p.length :: (block.drop 1).take 7 ++ octetsOfBits 8 (p ++ List.replicate (64 - p.length) false)

section
variable (hi : (s.applyFlips flips).tagItem 1 k = some i) (hlen : i.length % 16 = 0)
  (hready : (s.applyFlips flips).rangeStatus i.addrB i.length = .ready) (hread : (s.applyFlips flips).reads i.addrA 16 block t)
  (hn : (block.headD 0).toNat ≤ 64) (hfield : t.fieldFor foreign = some a)
include hi hlen hready hread hn hfield

/-- INVENTORY writes the tags that its walk found, and where prefixes are left the first of them for the item that goes on. -/
theorem exec_tagInventory_walks :
    let w := a.inventoryWalk i block answers
    let v := a.setTag (fun t => { t with sent := w.sent })
    let u := match w.stack with
      | p :: _ => (v.putOctets i.addrA (inventoryBlock block p)).1
      | [] => v
    exec (.tagInventory k foreign answers flips) s = .next (u.tagOut i w.found.flatten
      (if (!w.stack.isEmpty) = true ∨ w.abandoned ≠ 0 then Sc.doneWarn else Sc.done)
      { exchanges := w.exchanges, more := !w.stack.isEmpty } (w.abandoned % 128 * 256 + w.found.length % 256)) := by
  intro w v u
  change execTagInventory k foreign answers flips s = _
  unfold execTagInventory
  simp only [hi, hlen, ne_eq, not_true, if_false]
  rw [State.tagDest_ready _ hready, tagSource_reads hread, if_neg (Nat.not_lt.mpr hn), fieldOn_for hfield]
  rfl

theorem exec_tagInventory_ends {x : State} :
    let w := a.inventoryWalk i block answers
    let v := a.setTag (fun t => { t with sent := w.sent })
    w.stack = [] → v.writes i.addrB w.found.flatten x →
    exec (.tagInventory k foreign answers flips) s = .next (x.tagEnd i (if w.abandoned ≠ 0 then Sc.doneWarn else Sc.done)
      { exchanges := w.exchanges } w.found.flatten.length (w.abandoned % 128 * 256 + w.found.length % 256)) := by
  intro w v hstack hwrite
  have hwalks := exec_tagInventory_walks (answers := answers) hi hlen hready hread hn hfield
  simp only [w] at hstack
  simp only [hstack, List.isEmpty_nil, Bool.not_true, Bool.false_eq_true, false_or] at hwalks
  exact hwalks.trans (congrArg Host.Outcome.next (tagOut_writes hwrite))

theorem exec_tagInventory_more {p : List Bool} {ps : List (List Bool)} {x : State} :
    let w := a.inventoryWalk i block answers
    let v := a.setTag (fun t => { t with sent := w.sent })
    w.stack = p :: ps → (v.putOctets i.addrA (inventoryBlock block p)).1.writes i.addrB w.found.flatten x →
    exec (.tagInventory k foreign answers flips) s = .next (x.tagEnd i Sc.doneWarn { exchanges := w.exchanges, more := true }
      w.found.flatten.length (w.abandoned % 128 * 256 + w.found.length % 256)) := by
  intro w v hstack hwrite
  have hwalks := exec_tagInventory_walks (answers := answers) hi hlen hready hread hn hfield
  simp only [w] at hstack
  simp only [hstack, List.isEmpty_cons, Bool.not_false, true_or, if_true] at hwalks
  exact hwalks.trans (congrArg Host.Outcome.next (tagOut_writes hwrite))

end

end

/-! ### AUTHENTICATE (R428, R429) -/

/-- AUTHENTICATE answers the tag's challenge where the tag has answered its own, under the key of the named handle. -/
theorem exec_tagAuthenticate_done {k : Nat} {foreign : Bool} {first second : List UpReply} {s v : State} {i : Item}
    {data data' key : List Byte} {r r' : TagRep} (hi : s.tagItem 4 k = some i) (hready : s.ready Dm.sec = true)
    (hpuf : s.sec.puf ≠ none) (hengine : s.engineFree ≠ none) (hsess : s.tag.sess ≠ 0)
    (hsize : (s.palKey i.palPage (i.addrB % 64)).any (fun k => k.octets.length != 16) = false) (hhealthy : s.sec.healthy = true)
    (hfield : s.fieldFor foreign = some v) (hpage : lnkPage i.palPage = false) (hmay : v.palMay i false = true)
    (hkey : v.usable i.palPage (i.addrB % 64) 0 = some key) :
    let ra := (v.random 8).1
    let w := (v.random 8).2
    let rb := padTo 8 data
    w.answered first 0 data r → padTo 8 (data.drop 8) = tagAuth key ra rb → w.answered second r.exchanges data' r' →
    r.exchanges ≠ 0 →
    exec (.tagAuthenticate k foreign first second) s = .next ((w.setTag (fun t => { t with
      sent := [downFrame (0x04 :: ra), downFrame (0x05 :: tagAuth key rb ra)], sess := 2 })).tagEnd i Sc.done r') := by
  intro ra w rb hfirst hauth hsecond hmade
  have hsecond : (w.setTag (fun t => { t with sent := [downFrame (0x04 :: ra)] })).answered second r.exchanges data' r' := hsecond
  have hwaits : ¬(s.sec.puf = none ∨ s.engineFree = none) := fun h => h.elim hpuf hengine
  change execTagAuthenticate k foreign first second s = _
  unfold execTagAuthenticate
  simp only [hi, hready, hwaits, hsess, hsize, hhealthy, Bool.not_true, Bool.false_eq_true, or_self, if_false]
  rw [State.withTag_for _ hsess hfield]
  simp only [hpage, hmay, hkey, Bool.not_true, Bool.false_eq_true, or_self, if_false]
  rw [tagExchange_answered hfirst, if_neg (not_not_intro hauth)]
  refine congrArg Host.Outcome.next ((tagExchange_answered hsecond).trans ?_)
  simp only [hmade, if_false]
  rfl

/-! ### READ and HALT (R437) -/

/-- READ writes the octets that the tag answers. -/
theorem exec_tagRead_done {k : Nat} {foreign : Bool} {answers : List UpReply} {s v w : State} {i : Item} {data : List Byte}
    {r : TagRep} :
    let off := bits (i.w 1) 7 0
    s.tagItem 5 k = some i → off + i.length ≤ 128 → s.rangeStatus i.addrB i.length = .ready → s.tag.sess ≠ 0 →
    s.fieldFor foreign = some v → v.answered answers 0 data r →
    State.writes (v.setTag (fun t => { t with
      sent := [downFrame [0x06, BitVec.ofNat 8 (bits (i.w 1) 15 8), BitVec.ofNat 8 off, BitVec.ofNat 8 i.length]] }))
      i.addrB (padTo i.length data) w →
    exec (.tagRead k foreign answers) s =
      .next (w.tagEnd i (if r.stale then Sc.doneWarn else Sc.done) r (padTo i.length data).length) := by
  intro off hi hrange hready hsess hfield hanswer hwrite
  have hwithin : ¬(128 < i.length ∨ 128 < off + i.length) := by omega
  change execTagRead k foreign answers s = _
  unfold execTagRead
  simp only [off] at hwithin
  simp only [hi, if_neg hwithin]
  rw [State.tagDest_ready _ hready, State.withTag_for _ hsess hfield]
  exact congrArg Host.Outcome.next ((tagExchange_answered hanswer).trans (tagOut_writes hwrite))

theorem exec_tagHalt_done {k : Nat} {foreign : Bool} {s v : State} {i : Item} (hi : s.tagItem 8 k = some i)
    (hfield : s.fieldFor foreign = some v) :
    exec (.tagHalt k foreign) s = .next ((v.setTag (fun t => { t with sess := 0, sel := [], sent := [downFrame [0x08]] })).tagEnd i
      Sc.done { exchanges := 1 }) := by
  change execTagHalt k foreign s = _
  unfold execTagHalt
  simp only [hi]
  exact congrArg Host.Outcome.next (fieldOn_for hfield)

/-! ### The part's own records (R448) -/

/-- Fields of the system record that are set one after the other, each where its flag asks for it. -/
theorem TagSys.set_fields (y : TagSys) (c0 c1 c2 c3 : Bool) (id : List Byte) (pwd : Word) (key sig : Option (List Byte)) :
    (let y := if c0 then { y with id } else y
     let y := if c1 then { y with pwd } else y
     let y := if c2 then { y with key } else y
     if c3 then { y with sig } else y) =
      { y with id := if c0 then id else y.id, pwd := if c1 then pwd else y.pwd
               key := if c2 then key else y.key, sig := if c3 then sig else y.sig } := by
  cases c0 <;> cases c1 <;> cases c2 <;> cases c3 <;> rfl

/-- A write of the system record ends the item by whether it is done. -/
theorem tagSet_ends (w : State × TagEnd) (i : Item) :
    (match w with
      | (s, .done) => s.tagEnd i Sc.done {}
      | (s, _) => s.tagEnd i Sc.mediaUncorrectable { cause := 5 }) =
      if w.2 = .done then w.1.tagEnd i Sc.done {} else w.1.tagEnd i Sc.mediaUncorrectable { cause := 5 } := by
  obtain ⟨s, _ | _ | _ | _⟩ := w <;> rfl

section
variable {k : Nat} {flips : List Flip} {s t : State} {i : Item}

/-- TSET writes the fields that its flags name into the system record. -/
theorem exec_tagTset_writes (how : TagWrite) {b : List Byte} (hi : (s.applyFlips flips).tagItem 16 k = some i)
    (hlen : i.length = 80) (hread : (s.applyFlips flips).reads i.addrA 80 b t) :
    let f := leWord b 12
    (bit f 0 = true → b.take 8 ≠ List.replicate 8 0xFF) → (bit f 2 = true → t.ready Dm.sec = true) →
    let key := if lnkPage i.palPage ∨ !t.palMay i false then none
      else (t.usable i.palPage (i.addrB % 64) 5).filter (fun k => k.length == 16)
    (bit f 2 = true → key ≠ none) →
    let y := t.tagSys
    let w := t.writeSys { y with
      id := if bit f 0 then b.take 8 else y.id, pwd := if bit f 1 then leWord b 8 else y.pwd
      key := if bit f 2 then key else y.key, sig := if bit f 3 then some (cut b 16 64) else y.sig } how
    exec (.tagTset k how flips) s = .next (
      if w.2 = .done then w.1.tagEnd i Sc.done {} else w.1.tagEnd i Sc.mediaUncorrectable { cause := 5 }) := by
  intro f hid hsec key hkey y w
  have hid' : ¬(bit f 0 = true ∧ b.take 8 = List.replicate 8 0xFF) := fun ⟨hset, hblank⟩ => hid hset hblank
  have hsec' : ¬(bit f 2 = true ∧ (!t.ready Dm.sec) = true) := fun ⟨hset, hbusy⟩ => by simp [hsec hset] at hbusy
  have hkey' : ¬(bit f 2 = true ∧ key = none) := fun ⟨hset, hnone⟩ => hkey hset hnone
  change execTagTset k how flips s = _
  unfold execTagTset
  simp only [hi, hlen, ne_eq, not_true, if_false]
  rw [tagSource_reads hread]
  refine congrArg Host.Outcome.next ((if_neg hid').trans ((if_neg hsec').trans ((if_neg hkey').trans ?_)))
  refine (tagSet_ends (t.writeSys _ how) i).trans ?_
  rw [TagSys.set_fields y (bit f 0) (bit f 1) (bit f 2) (bit f 3)]

/-- SREAD writes the records that it names, and warns where one is read from an older copy. -/
theorem exec_tagSread_writes {decayed : List (Nat × Bool)} :
    let u := s.decay decayed
    let n := i.length / 128
    u.tagItem 17 k = some i → i.length % 128 = 0 → i.addrA + n ≤ 65 → u.rangeStatus i.addrB i.length = .ready →
    let stale := (List.range n).filter (fun k => if i.addrA + k = 64 then u.tag.sys.stale else (u.tagRec (i.addrA + k)).stale)
    let r := State.sreadData n i.addrA (stale.foldl (fun s _ => s.tagStale) u)
    r.2.writes i.addrB r.1 t →
    exec (.tagSread k decayed) s =
      .next (t.tagEnd i (if stale.isEmpty then Sc.done else Sc.doneWarn) { stale := !stale.isEmpty } r.1.length) := by
  intro u n hi hlen hrange hready stale r hwrite
  have hrecords : ¬(i.length % 128 ≠ 0 ∨ 65 < i.addrA + n) := by omega
  change execTagSread k decayed s = _
  unfold execTagSread
  simp only [u] at hi hready
  simp only [hi]
  refine congrArg Host.Outcome.next ((if_neg hrecords).trans ((State.tagDest_ready _ hready).trans ?_))
  exact tagOut_writes hwrite

/-- SWRITE writes the records that it names in order, up to one that fails. -/
theorem exec_tagSwrite_writes {how : List TagWrite} {bs : List Byte} :
    let u := s.applyFlips flips
    let n := i.length / 128
    u.tagItem 18 k = some i → i.length % 128 = 0 → i.addrB + n ≤ 64 → u.reads i.addrA i.length bs t →
    let r := State.swriteAll (Crypto.blocks 128 n bs) i.addrB how 0 t
    exec (.tagSwrite k how flips) s = .next (r.1.tagEnd i (if r.2.2 then Sc.done else Sc.mediaUncorrectable)
      { cause := if r.2.2 then 0 else 5 } (128 * r.2.1)) := by
  intro u n hi hlen hrange hread r
  have hrecords : ¬(i.length % 128 ≠ 0 ∨ 64 < i.addrB + n) := by omega
  change execTagSwrite k how flips s = _
  unfold execTagSwrite
  simp only [u] at hi hread
  simp only [hi]
  exact congrArg Host.Outcome.next ((if_neg hrecords).trans (tagSource_reads hread))

end

/-- Settles O43: each item is the arm of its command that the conditions choose; it reads, exchanges and writes by the laws of the
tag items' shared operations. -/
theorem tagItemsComplete : Obligations.TagItemsComplete := by
  unfold Obligations.TagItemsComplete
  refine ⟨?inventory, ?exchanges, ?authenticate, ?read, ?halt, ?expire, ?tset, ?sread, ?swrite⟩
  case inventory =>
    intro k foreign answers flips s t a i block u hi hlen hready hread n hn hfield w v
    exact ⟨fun x => exec_tagInventory_ends hi hlen hready hread hn hfield,
      fun p ps x => exec_tagInventory_more hi hlen hready hread hn hfield⟩
  case exchanges =>
    intro k foreign answers flips s t v i bs data r u hanswer hfield
    refine ⟨?select, ?password, ?write, ?origin⟩
    case select => exact fun hi hlen hread => exec_tagSelect_done hanswer hfield hi hlen hread
    case password => exact fun hi hlen hread hsess hsess' => exec_tagPassword_done hanswer hfield hi hlen hread hsess hsess'
    case write => exact fun hi hlen hread hsess hsess' => exec_tagWrite_done hanswer hfield hi hlen hread hsess hsess'
    case origin =>
      exact fun hi hready hlen hread hsess hsess' =>
        exec_tagVerifyOrigin_judged hanswer hfield hi hready hlen hread hsess hsess'
  case authenticate =>
    exact fun k foreign first second s v i data data' key r r' hi hready hpuf hengine hsess hsize hhealthy hfield hpage hmay hkey =>
      exec_tagAuthenticate_done hi hready hpuf hengine hsess hsize hhealthy hfield hpage hmay hkey
  case read =>
    exact fun k foreign answers s v w i data r hi hrange hready hsess hfield hanswer hwrite =>
      exec_tagRead_done hi hrange hready hsess hfield hanswer hwrite
  case halt => exact fun k foreign s v i hi hfield => exec_tagHalt_done hi hfield
  case expire => exact fun s hrests => congrArg Host.Outcome.next (if_neg (ne_true_of_eq_false hrests))
  case tset =>
    exact fun k how flips s t i b hi hlen hread hid hsec hkey => exec_tagTset_writes how hi hlen hread hid hsec hkey
  case sread =>
    exact fun k decayed s t i hi hlen hrange hready hwrite => exec_tagSread_writes hi hlen hrange hready hwrite
  case swrite =>
    exact fun k how flips s t i bs hi hlen hrange hread => exec_tagSwrite_writes hi hlen hrange hread

end Sys2Proof.Machine

/-! ## The NAND store -/

namespace Sys2Proof.Machine

/-! ### The map is reached, and a mount begins (R403, R404, R415) -/

theorem State.withMap_ready {s : State} (i : Item) (k : State → State) (h : s.rangeStatus s.mapAddr s.mapSize = .ready) :
    s.withMap i k = k s := by
  unfold State.withMap
  simp only [h]

theorem State.withMapFor_ready {s : State} (k lost : State → State) (h : s.rangeStatus s.mapAddr s.mapSize = .ready) :
    s.withMapFor k lost = k s := by
  unfold State.withMapFor
  simp only [h]

/-- MOUNT and FORMAT begin where the store is unmounted and rests, once every target is identified. -/
theorem State.mountBegins_identified {s : State} (i : Item) {failing : List Nat} {bad : State → Bool} (hst : s.nmc.st = .unmounted)
    (hops : s.nmc.ops = []) (hnone : s.mountItem = none) (hfailed : (s.identify failing).anyFailed = false)
    (hgood : bad (s.identify failing) = false) :
    s.mountBegins i failing bad = (s.identify failing).updItem i.id (fun i => { i with lat := [1] }) := by
  have hrests : ¬(s.nmc.st ≠ .unmounted ∨ (!s.nmc.ops.isEmpty) = true ∨ s.mountItem.isSome = true) := by
    simp [hst, hops, hnone]
  have hidentified : ¬((s.identify failing).anyFailed = true ∨ bad (s.identify failing) = true) := by simp [hfailed, hgood]
  exact (if_neg hrests).trans (if_neg hidentified)

section
variable {k : Nat} {s : State} {i : Item} (hmap : s.rangeStatus s.mapAddr s.mapSize = .ready)
include hmap

/-! ### READ, ERASE and FLUSH (R406, R407) -/

theorem exec_nandRead_reads {ecc : List NandEcc} (hi : s.nmcItem 1 k = some i) (hgood : s.nandBad i = false)
    (hdest : s.rangeStatus i.addrB i.length = .ready) :
    let p := (List.range i.lpnCount).foldl (fun (p : State × NandScan) j => p.1.readLpn p.2 (i.lpn + j)) (s, { ecc })
    let q := p.1.putOctets i.addrB p.2.out
    exec (.nandRead k ecc) s = .next (q.1.nandEnd i
      (if p.2.fail.isSome then Sc.mediaUncorrectable else if q.2.migrated || q.1.mapMigrates i then Sc.rankMigrated
        else if p.2.corr then Sc.mediaCorrected else Sc.done) i.length
      { bits := p.2.most, first := (p.2.fail.map (·.1)).getD 0xFFFFFFFF, cause := (p.2.fail.map (·.2)).getD 0 }) := by
  intro p q
  change execNandRead k ecc s = _
  unfold execNandRead
  simp only [hi, hgood, Bool.false_eq_true, if_false]
  rw [State.withMap_ready _ _ hmap]
  simp only [hdest]
  rfl

theorem exec_nandErase_erases (hi : s.nmcItem 3 k = some i) (hgood : s.nandBad i = false) :
    let mine := fun l => i.lpn ≤ l && l < i.lpn + i.lpnCount
    let dead := fun (p : WbPage) => if mine p.lpn then { p with live := false } else p
    let u := s.setNmc (fun n => { n with
      pages := Sparse.keep (fun l => !mine l) n.pages
      wb := n.wb.map (fun e => (e.1, dead e.2))
      ops := n.ops.map (fun o => { o with pages := o.pages.map dead }) })
    let v := (List.range i.lpnCount).foldl (fun s j => s.mapEntry (i.lpn + j)) u
    exec (.nandErase k) s =
      .next ((v.nandEnd i (if v.mapMigrates i then Sc.rankMigrated else Sc.done) i.length {}).nandStart 0) := by
  intro mine dead u v
  change execNandErase k s = _
  unfold execNandErase
  simp only [hi, hgood, Bool.false_eq_true, if_false]
  exact congrArg Host.Outcome.next (State.withMap_ready _ _ hmap)

/-- FLUSH ends once every PROGRAM before it has. -/
theorem exec_nandFlush_ends (hi : s.nmcItem 4 k = some i) (hst : s.nmc.st ≠ .unmounted)
    (hbefore : ∀ j ∈ s.flm.ift.takeWhile (fun j => j.id != k), j.unit = Pg.nmc → j.opcode = 2 →
      j.result.isSome = true ∨ j.st = .retiring) :
    exec (.nandFlush k) s = .next (s.nandEnd i Sc.done 0 {}) := by
  have hended : (s.flm.ift.takeWhile (fun j => j.id != k)).all
      (fun j => j.unit != Pg.nmc || j.opcode != 2 || j.result.isSome || j.st == .retiring) = true := by
    refine List.all_eq_true.mpr fun j hj => ?_
    by_cases hunit : j.unit = Pg.nmc
    · by_cases hop : j.opcode = 2
      · simpa [hunit, hop] using hbefore j hj hunit hop
      · simp [hop]
    · simp [hunit]
  change execNandFlush k s = _
  unfold execNandFlush
  simp only [hi, if_neg hst, if_pos hended]
  exact congrArg Host.Outcome.next (State.withMap_ready _ _ hmap)

/-! ### MOUNT and FORMAT (R403, R404) -/

section
variable (hlat : i.lat = []) {failing : List Nat} (hst : s.nmc.st = .unmounted) (hops : s.nmc.ops = []) (hnone : s.mountItem = none)
  (hfailed : (s.identify failing).anyFailed = false)
include hlat hst hops hnone hfailed

theorem exec_nandMount_begins (newer : List Nat) (hi : s.nmcItem 5 k = some i)
    (hpresent : (List.range 4).any (s.identify failing).tgPresent = true)
    (hformatted : ∀ t, t < 4 → (s.identify failing).tgPresent t = true →
      Sparse.get false (s.identify failing).nmc.formatted t = true) :
    exec (.nandMount k failing newer) s = .next ((s.identify failing).updItem i.id (fun i => { i with lat := [1] })) := by
  have hgood : ((List.range 4).all (fun t => !(s.identify failing).tgPresent t) ||
      (List.range 4).any (fun t => (s.identify failing).tgPresent t && !Sparse.get false (s.identify failing).nmc.formatted t)) =
      false := by
    refine Bool.or_eq_false_iff.mpr ⟨?_, ?_⟩
    · rw [← List.not_any_eq_all_not, hpresent]
      rfl
    · refine List.any_eq_false.mpr fun t ht => ?_
      have := hformatted t (List.mem_range.mp ht)
      simpa using this
  change execNandMount k failing newer s = _
  unfold execNandMount
  simp only [hi]
  rw [State.withMap_ready _ _ hmap, hlat]
  exact congrArg Host.Outcome.next ((if_pos rfl).trans (State.mountBegins_identified i hst hops hnone hfailed hgood))

theorem exec_nandFormat_begins (factory bad : List (Nat × Nat)) (hi : s.nmcItem 6 k = some i) :
    exec (.nandFormat k failing factory bad) s = .next ((s.identify failing).updItem i.id (fun i => { i with lat := [1] })) := by
  change execNandFormat k failing factory bad s = _
  unfold execNandFormat
  simp only [hi]
  rw [State.withMap_ready _ _ hmap, hlat]
  exact congrArg Host.Outcome.next ((if_pos rfl).trans (State.mountBegins_identified i hst hops hnone hfailed rfl))

end

section
variable (hlat : i.lat ≠ []) (failing : List Nat)
include hlat

theorem exec_nandMount_ends (newer : List Nat) (hi : s.nmcItem 5 k = some i) :
    let v := s.nmc.torn.foldl (fun s e => if newer.contains e.2.2.lpn then s.mapPage e.1 e.2.1 e.2.2 else s) s
    exec (.nandMount k failing newer) s = .next (v.mounted.nandEnd i Sc.done 0 {}) := by
  intro v
  have hbegun : ¬i.lat.isEmpty = true := by simpa using hlat
  change execNandMount k failing newer s = _
  unfold execNandMount
  simp only [hi]
  rw [State.withMap_ready _ _ hmap]
  exact congrArg Host.Outcome.next (if_neg hbegun)

/-- FORMAT's end: the bad blocks are noted, and every target that the store has is empty. -/
theorem exec_nandFormat_ends (factory bad : List (Nat × Nat)) (hi : s.nmcItem 6 k = some i) :
    let on := (List.range 4).filter s.tgPresent
    let v := factory.foldl (fun s e =>
      if on.contains e.1 ∧ !Sparse.get false s.nmc.formatted e.1 then
        s.setBlk (blkNo e.1 e.2) { s.blk (blkNo e.1 e.2) with factory := true }
      else s) s
    let w := bad.foldl (fun s e =>
      if on.contains e.1 ∧ !(s.blk (blkNo e.1 e.2)).bad then
        s.setBlk (blkNo e.1 e.2) { s.blk (blkNo e.1 e.2) with grown := true }
      else s) v
    let x := w.setNmc (fun n => { n with
      blks := n.blks.map (fun e => if on.contains (e.1 / 2 ^ 18) then (e.1, { e.2 with used := 0, reads := 0 }) else e)
      base := on.foldl (fun m t => Sparse.set 0 m t (Sparse.get 0 m t + 1)) n.base
      formatted := on.foldl (fun m t => Sparse.set false m t true) n.formatted
      pages := [], opened := [], sched := [], wb := [], torn := [] })
    exec (.nandFormat k failing factory bad) s = .next (x.mounted.nandEnd i Sc.done 0 {}) := by
  intro on v w x
  have hbegun : ¬i.lat.isEmpty = true := by simpa using hlat
  change execNandFormat k failing factory bad s = _
  unfold execNandFormat
  simp only [hi]
  rw [State.withMap_ready _ _ hmap]
  exact congrArg Host.Outcome.next (if_neg hbegun)

end

end

/-! ### PROGRAM (R400, R406) -/

/-- PROGRAM copies as many of its pages as the write buffer takes, and full physical pages start. -/
theorem exec_nandProgram_copies {k choice : Nat} {flips : List Flip} {s t : State} {i : Item} {bs : List Byte}
    {os : List (Option Byte)} {e : EccSum} :
    let u := s.applyFlips flips
    let first := ((u.nandJob k).map (·.copied)).getD 0
    let n := u.wbRoom (i.lpnCount - first)
    u.nmcItem 2 k = some i → u.nandBad i = false → u.rangeStatus u.mapAddr u.mapSize = .ready →
    u.rangeStatus (u.nmcReg 0x824).toNat u.wbBytes = .ready → u.unitRead (i.addrA + 4096 * first) (4096 * n) = (t, .ok os e) →
    knownBytes os = some bs → t.nmc.st ≠ .readonly → t.onlineTgs ≠ [] →
    let v := State.bufferPages ((List.range n).map (fun j => (bs.drop (4096 * j)).take 4096)) (i.lpn + first) (some k) t
    exec (.nandProgram k choice flips) s =
      .next ((v.noteCopied i n (e.migrated || t.mapMigrates i)).nandStart choice) := by
  intro u first n hi hgood hmap hbuffer hread hknown hst honline v
  have hplaced : ¬(t.nmc.st = .readonly ∨ t.onlineTgs.isEmpty = true) := fun h => h.elim hst (by simpa using honline)
  change execNandProgram k choice flips s = _
  unfold execNandProgram
  simp only [u, n, first] at hi hgood hmap hbuffer hread
  simp only [hi, hgood, Bool.false_eq_true, if_false]
  rw [State.withMap_ready _ _ hmap]
  simp only [hbuffer, hread, hknown, if_neg hplaced]
  rfl

/-! ### Operations end at the targets (R410, R413) -/

/-- The operation at a target runs no more. -/
def State.opEnds (s : State) (target : Nat) : State :=
  s.setNmc (fun n => { n with ops := n.ops.filter (fun x => x.target != target) })

section
variable {target : Nat} (choice : Nat) {s : State} {o : NandOp}
  (ho : s.nmc.ops.find? (fun o => o.target == target) = some o) (hmap : s.rangeStatus s.mapAddr s.mapSize = .ready)
include ho hmap

section
variable (hempty : o.pages = [])
include hempty

theorem exec_nandOpDone_eraseFailed :
    let u := s.opEnds target
    exec (.nandOpDone target true choice) s = .next ((u.retireBlock target o.block 2).nandStart choice) := by
  change execNandOpDone target true choice s = _
  unfold execNandOpDone
  simp only [ho]
  rw [State.withMapFor_ready _ _ hmap, hempty]
  rfl

/-- An erase is counted, and a block that reaches its limit is retired as worn. -/
theorem exec_nandOpDone_erased :
    let u := s.opEnds target
    let k := blkNo target o.block
    let v := (u.setBlk k { u.blk k with erases := (u.blk k).erases + 1, used := 0, reads := 0 }).setNmc
      (fun n => { n with moveErases := n.moveErases + 1, sched := n.sched.filter (fun e => e.1 != k) })
    exec (.nandOpDone target false choice) s = .next
      ((if bits (v.nmcReg 0x80C) 23 0 ≤ v.eraseCount k then v.wearOut target o.block else v).nandStart choice) := by
  change execNandOpDone target false choice s = _
  unfold execNandOpDone
  simp only [ho]
  rw [State.withMapFor_ready _ _ hmap, hempty]
  rfl

end

section
variable (hpages : o.pages ≠ [])
include hpages

/-- A program that failed retires its block; what the block held moves, and the operation's pages wait again. -/
theorem exec_nandOpDone_programFailed :
    let u := s.opEnds target
    let moved := ((o.pages.filterMap (·.item)).eraseDups ++ (u.nmc.jobs.map (·.item)).filter (fun e =>
      (u.validOn target o.block).any (fun v =>
        match u.item e with | some i => i.lpn ≤ v.1 && v.1 < i.lpn + i.lpnCount | none => false))).eraseDups
    let retired := ((u.growBad target o.block).moveBlock target o.block choice []).retireReport target o.block 1
    let failed := moved.foldl (fun s e => s.jobRetired e) retired
    exec (.nandOpDone target true choice) s = .next
      ((failed.setNmc (fun n => { n with wb := o.pages.map (fun p => (target, p)) ++ n.wb })).startProgram target choice) := by
  intro u moved retired failed
  have hprogram : ¬o.pages.isEmpty = true := by simpa using hpages
  change execNandOpDone target true choice s = _
  unfold execNandOpDone
  simp only [ho]
  rw [State.withMapFor_ready _ _ hmap]
  exact congrArg Host.Outcome.next ((if_neg hprogram).trans (if_pos trivial))

/-- A program's pages are mapped, and its items go on or end. -/
theorem exec_nandOpDone_programmed :
    let u := s.opEnds target
    let placed := (o.pages.foldl (fun s p => s.mapPage target o.block p) u).usePage target o.block
    exec (.nandOpDone target false choice) s = .next
      (((o.pages.foldl (fun s p => match p.item with | some e => s.pageDone e | none => s) placed).nandCutItems
        (o.pages.filterMap (·.item)).eraseDups).nandStart choice) := by
  intro u placed
  have hprogram : ¬o.pages.isEmpty = true := by simpa using hpages
  change execNandOpDone target false choice s = _
  unfold execNandOpDone
  simp only [ho]
  rw [State.withMapFor_ready _ _ hmap]
  exact congrArg Host.Outcome.next ((if_neg hprogram).trans (if_neg Bool.false_ne_true))

end

end

/-! ### Relocation, wear and patrol (R411, R412) -/

/-- A block that was its target's open one is open no more. -/
def State.blockClosed (s : State) (t b : Nat) : State :=
  s.setNmc (fun n => { n with opened := if Sparse.get 0 n.opened t = b + 1 then Sparse.set 0 n.opened t 0 else n.opened })

/-- A scheduled block is relocated: once nothing valid is left on it, it is erased or retired. -/
theorem exec_nandRelocation_relocates {target block : Nat} (choice : Nat) (lost : List Nat) {s : State} {e : Nat × RelocCause}
    (he : s.nmc.sched.find? (fun e => e.1 == blkNo target block) = some e) (hready : s.ready Dm.nmc = true)
    (hst : s.nmc.st ≠ .unmounted) (hblock : block < 2 ^ 18)
    (hidle : s.nmc.ops.any (fun o => o.target == target && o.block == block) = false)
    (hmap : s.rangeStatus s.mapAddr s.mapSize = .ready) :
    let u := (s.blockClosed target block).moveBlock target block choice lost
    exec (.nandRelocation target block choice lost) s = .next (
      if u.validOn target block = [] then (u.relocated target block e.2).nandStart choice else u) := by
  intro u
  have hruns : ¬((!s.ready Dm.nmc) = true ∨ s.nmc.st = .unmounted ∨ block ≥ 2 ^ 18 ∨
      s.nmc.ops.any (fun o => o.target == target && o.block == block) = true) := by
    simp only [hready, hst, hidle, Bool.not_true, Bool.false_eq_true, false_or, or_false]
    omega
  change execNandRelocation target block choice lost s = _
  unfold execNandRelocation
  simp only [he]
  refine congrArg Host.Outcome.next ((if_neg hruns).trans ((State.withMapFor_ready _ _ hmap).trans ?_))
  simp only [List.isEmpty_iff]
  rfl

/-- A rarely written block moves where a target's erase counts have spread too far. -/
theorem exec_staticWearMove_moves (choice : Nat) {s : State} {t b : Nat} (hready : s.ready Dm.nmc = true)
    (hst : s.nmc.st = .mounted) (hen : bit (s.nmcReg 0x808) 31 = true) (herases : 1000 ≤ s.nmc.moveErases)
    (ht : s.onlineTgs.find? (fun t => bits (s.nmcReg 0x808) 15 0 < s.spread t) = some t) :
    let good := (List.range (s.tgBlocks t)).filter (fun b => !(s.blk (blkNo t b)).bad)
    let least := (good.map (fun b => s.eraseCount (blkNo t b))).foldl min (s.eraseCount (blkNo t (good.headD 0)))
    good.find? (fun b => s.eraseCount (blkNo t b) == least && !(s.validOn t b).isEmpty &&
      !s.nmc.ops.any (fun o => o.target == t && o.block == b)) = some b →
    s.rangeStatus s.mapAddr s.mapSize = .ready →
    exec (.staticWearMove choice) s =
      .next ((((s.setNmc (fun n => { n with moveErases := 0 })).blockClosed t b).moveBlock t b choice []).nandStart choice) := by
  intro good least hb hmap
  have hmoves : ¬((!s.ready Dm.nmc) = true ∨ s.nmc.st ≠ .mounted ∨ (!bit (s.nmcReg 0x808) 31) = true ∨
      s.nmc.moveErases < 1000) := by
    simp [hready, hst, hen, herases]
  change execStaticWearMove choice s = _
  unfold execStaticWearMove
  simp only [good, least] at hb
  simp only [if_neg hmoves, ht, hb]
  exact congrArg Host.Outcome.next (State.withMapFor_ready _ _ hmap)

/-- The patrol has read block `k`, and counts it with what it has scheduled. -/
def State.patrolled (s : State) (k : Nat) (ecc : List NandEcc) : State :=
  let u := ecc.foldl (fun s e =>
    match e with
    | .corrected n => s.noteRead k n
    | .lost _ => match s.validOn (k / 2 ^ 18) (k % 2 ^ 18) with
      | e :: _ => (s.noteRead k 0).poisonPage e.1 e.2
      | [] => s) s
  u.setNmc (fun n => { n with
    patrol := k + 1
    patrolRead := n.patrolRead + 1
    patrolSched := n.patrolSched + (n.sched.length - s.nmc.sched.length) })

section
variable {ecc : List NandEcc} {s : State} (hen : bit (s.nmcReg 0x814) 31 = true) (hready : s.ready Dm.nmc = true)
  (hst : s.nmc.st ≠ .unmounted)
include hen hready hst

theorem exec_patrolStep_passed (hnext : s.patrolNext = none) : exec (.patrolStep ecc) s = .next s.patrolPass := by
  change execPatrolStep ecc s = _
  unfold execPatrolStep
  simp only [hen, hready, hst, hnext, Bool.not_true, Bool.false_eq_true, if_false]

/-- A step of the patrol reads the next block in use; with the last of them the pass is over. -/
theorem exec_patrolStep_reads {k : Nat} (hnext : s.patrolNext = some k) :
    let v := s.patrolled k ecc
    exec (.patrolStep ecc) s = .next (if v.patrolNext.isNone then v.patrolPass else v) := by
  change execPatrolStep ecc s = _
  unfold execPatrolStep
  simp only [hen, hready, hst, hnext, Bool.not_true, Bool.false_eq_true, if_false]
  rfl

end

/-- Settles O44: each clause is the arm of its command that the conditions choose, once the map in DRAM is reached. -/
theorem nandCommandsComplete : Obligations.NandCommandsComplete := by
  unfold Obligations.NandCommandsComplete
  refine ⟨?read, ?program, ?erase, ?flush, ?begins, ?mounted, ?formatted, ?hold, ?done, ?relocate, ?wear, ?patrol⟩
  case read => exact fun k ecc s i hi hgood hmap hdest => exec_nandRead_reads hmap hi hgood hdest
  case program =>
    exact fun k choice flips s t i bs os e hi hgood hmap hbuffer hread hknown hst honline =>
      exec_nandProgram_copies hi hgood hmap hbuffer hread hknown hst honline
  case erase => exact fun k s i hi hgood hmap => exec_nandErase_erases hmap hi hgood
  case flush => exact fun k s i hi hst hmap hbefore => exec_nandFlush_ends hmap hi hst hbefore
  case begins =>
    intro k failing newer factory bad s i _ hlat hmap hst hops hnone u hfailed
    exact ⟨fun hi hpresent hformatted =>
        exec_nandMount_begins hmap hlat hst hops hnone hfailed newer hi hpresent hformatted,
      fun hi => exec_nandFormat_begins hmap hlat hst hops hnone hfailed factory bad hi⟩
  case mounted => exact fun k failing newer s i hi hlat hmap => exec_nandMount_ends hmap hlat failing newer hi
  case formatted =>
    exact fun k failing factory bad s i hi hlat hmap => exec_nandFormat_ends hmap hlat failing factory bad hi
  case hold =>
    intro target choice s hready honline
    exact congrArg Host.Outcome.next (if_pos ⟨hready, List.contains_iff_mem.mpr honline⟩)
  case done =>
    intro target choice s o ho hmap u k v placed moved failed
    exact ⟨fun hempty => ⟨exec_nandOpDone_eraseFailed choice ho hmap hempty, exec_nandOpDone_erased choice ho hmap hempty⟩,
      fun hpages => ⟨exec_nandOpDone_programFailed choice ho hmap hpages, exec_nandOpDone_programmed choice ho hmap hpages⟩⟩
  case relocate =>
    exact fun target block choice lost s e he hready hst hblock hidle hmap =>
      exec_nandRelocation_relocates choice lost he hready hst hblock hidle hmap
  case wear =>
    exact fun choice s t b hready hst hen herases ht hb hmap =>
      exec_staticWearMove_moves choice hready hst hen herases ht hb hmap
  case patrol =>
    exact fun ecc s hen hready hst => ⟨exec_patrolStep_passed hen hready hst, fun k hnext =>
      exec_patrolStep_reads hen hready hst hnext⟩

end Sys2Proof.Machine
